-- ==== Sys2Proof/Word.lean ====
section
/-!
DEFINITION. The word types of the device: register words (00 R10), bytes, 24-bit samples (02 R48), 56-bit accumulators and
14-bit pointers (04, register file).
-/
namespace Sys2Proof

/-- A control register or bus word (00 R10). -/
abbrev Word := BitVec 32
abbrev Byte := BitVec 8
/-- A 24-bit audio sample or data word. -/
abbrev Sample := BitVec 24
/-- A 56-bit engine accumulator (04, register file). -/
abbrev Acc := BitVec 56
/-- A 14-bit engine pointer (04, register file). -/
abbrev Ptr := BitVec 14
/-- A 40-bit internal address (18 R449). -/
abbrev Addr := BitVec 40

end Sys2Proof
end

