-- ==== Sys2Proof/Syntax.lean ====
section
/-!
DEFINITION. The commands of the device: one constructor of `Instr` per row of spec/opcode_table.json, with the row's operands,
and the data types of those operands. A command says which unit acts and what the world outside measured or sent; the
state decides what it does.
-/
namespace Sys2Proof

/-- A rate domain: 0 A, 1 B, 2 C (01 R36). -/
abbrev DomIx := Fin 3
/-- A signal engine SE0 to SE33 (04 R107). -/
abbrev EngIx := Fin 34
/-- A master of the bus matrix (17 R420). -/
abbrev MasterIx := Fin 8

/-- What an RC field takes in the towpath cycle of its read (00 R14): an amount added to a count, or a new value offered
to a field that records a least or a highest value. -/
inductive RcUpdate where
  | add (lsb width amount : Nat)
  | offer (lsb width value : Nat)
  deriving DecidableEq, Repr

/-- The end of a lock (01 R22): the unit that commits or takes its barges. -/
inductive Endpoint where
  | engine (n : Nat) | basin | router | fmp | bridge (p : Nat) | filter
  | tdm (g : Nat) | amp (a : Nat) | txStream (n : Nat) | rxStream (n : Nat) | nerax (k : Nat)
  | delayLine (l : Nat) | dma (c : Nat)
  deriving DecidableEq, Repr

/-- A lock of the LOCKS section (01 R22; 03 R78): its depth in barges, its domain, its two ends, the channels of its barges
(the channel numbers of the port side for an ingress or egress lock) and, for an egress lock, the ticks m of its path
(02 R54, R67). -/
structure LockSpec where
  id : Nat
  depth : Nat
  domain : DomIx
  producer : Endpoint
  consumer : Endpoint
  channels : List Nat
  hops : Nat
  deriving DecidableEq, Repr

/-- The inlets and outlets of an engine, the SCHED section (04 R117, R121): lock numbers in inlet order, `none` for an inlet
bound to the tick source; lock numbers in outlet order; whether parameter pages are enabled (04 R115). -/
structure EngineSpec where
  engine : EngIx
  inlets : List (Option Nat)
  outlets : List Nat
  paramPages : Bool
  deriving DecidableEq, Repr

/-- A channel group of the basin (06 R167): its lock, its first channel and its channel count. -/
structure GroupSpec where
  lock : Nat
  first : Nat
  count : Nat
  deriving DecidableEq, Repr

/-- A router descriptor (06 R186): class, domain, rank and index within the class. -/
structure DescSpec where
  number : Nat
  cls : Nat
  domain : Nat
  rank : Nat
  loc : Nat
  deriving DecidableEq, Repr

/-- A router destination group (06 R192): its lock and its destination numbers, in channel order. -/
structure HopSpec where
  lock : Nat
  dests : List Nat
  deriving DecidableEq, Repr

/-- A channel group of a rate-bridge pair (07 R202, R203): its input and output locks. -/
structure BridgeSpec where
  pair : Nat
  input : Nat
  output : Nat
  deriving DecidableEq, Repr

/-- A delay line of the image (16 R412, R419): its number, domain, r and D. -/
structure DelaySpec where
  line : Nat
  domain : DomIx
  r : Nat
  d : Nat
  deriving DecidableEq, Repr

/-- The content of one section body or REPLACE payload. The manual states what each section holds (03 R78) but not its byte
layout, so the content is carried as data: values of image fields (register address, value), words of the engine,
bank and sample memory windows, the coefficients of a bank by decimator, and the structure that no register shows. -/
structure Content where
  regs : List (Nat × Word) := []
  words : List (Nat × Word) := []
  program : List (BitVec 48) := []
  tickLength : List (Nat × Nat) := []
  locks : List LockSpec := []
  engines : List EngineSpec := []
  basinIn : List GroupSpec := []
  basinOut : List GroupSpec := []
  sources : List DescSpec := []
  dests : List DescSpec := []
  hops : List HopSpec := []
  bridges : List BridgeSpec := []
  gains : List (Nat × Nat × Sample) := []
  coefs : List (Nat × List Sample) := []
  crossfade : Nat := 0
  routes : List (Nat × Nat × Bool) := []
  legs : List Nat := []
  exact : List Nat := []
  mirrored : List Nat := []
  delays : List DelaySpec := []
  deriving DecidableEq, Repr

/-- The content of one section (type, instance) of an image, or `none` where the body breaks its layout (03 R83, check 10). -/
structure SectionContent where
  kind : Nat
  inst : Nat
  content : Option Content
  deriving DecidableEq, Repr

/-- The content of a REPLACE payload of the overlay of `mode` (03 R82). -/
structure PayloadContent where
  mode : Nat
  kind : Nat
  inst : Nat
  content : Option Content
  deriving DecidableEq, Repr

/-- A configuration image (03 R75): its bytes, and what its section bodies and REPLACE payloads hold. -/
structure Image where
  bytes : List Byte
  sections : List SectionContent
  payloads : List PayloadContent
  deriving DecidableEq, Repr

/-- The outcome of DRAM training (16 R405): trained at once, trained by the repeated sequence, or failed. -/
inductive Training where
  | trained | retried | failed
  deriving DecidableEq, Repr

/-- The fuses the loader and the bus matrix read (03 R83 to R85; 21 R523, R528). -/
structure Fuses where
  authReq : Bool
  shadowRead : Bool
  qspiSdr : Bool
  minVersion : Nat
  keyHash : BitVec 256
  deriving DecidableEq, Repr

/-- How a read through SECDED check bits ended (04 R126). -/
inductive Ecc where
  | clean | corrected | uncorrectable
  deriving DecidableEq, Repr

/-- An accumulator a0 to a3, a register number 0 to 7 and a memory bus of an engine (04, register file; X and Y memory). -/
abbrev AccIx := Fin 4
abbrev RegIx := Fin 8
inductive Bus where
  | x | y
  deriving DecidableEq, Repr

/-- The pointer update of a memory move (05 R144). -/
inductive Update where
  | none | inc | dec | addM
  deriving DecidableEq, Repr

/-- The class of a requester at an engine window, in the order of priority of R110 (04). -/
inductive WindowUser where
  | substitution | foregroundDma | towpath | otherDma | dredger
  deriving DecidableEq, Repr

/-- The word of the filter chain that an uncorrectable error hits (07 R220). -/
inductive FilterWord where
  | state (n : Fin 80)
  | coefficient (n : Fin 80) (k : Fin 64)
  | block (ch : Fin 1024)
  deriving DecidableEq, Repr

/-- A candidate of CLK (10 R269): REFIN0, REFIN1, WCLK_IN, FP_IN, LP_IN, PPS_IN, TIMEA, TIMEB, LEAD. -/
abbrev CandIx := Fin 9
/-- A frequency offset in ppb and a phase or phase error in ps, both signed, as CLK measures them (10 R297). -/
abbrev Ppb := BitVec 32
abbrev Ps := BitVec 32
/-- A time base TB0 to TB3 (11 R298). -/
abbrev TbIx := Fin 4

/-- What CLK's frequency record of a domain holds at a loss (10 R286): the mean over the 60 s that end 0.5 s before the first miss, the
mean over the imago time before that point, and how long the DPLL has been in the imago, in ms. -/
structure FreqRecord where
  mean60 : Ppb
  meanImago : Ppb
  imagoMs : Nat
  deriving DecidableEq, Repr

/-- A serial lane LN0 to LN11 (13 R343), a Nerax link NX0 to NX3 (14). -/
abbrev LaneIx := Fin 12
abbrev LinkIx := Fin 4

/-- A Nerax frame (14 R361): the fields of its header, with the 26 body bits as a number, and its 256 payload bytes. -/
structure NrxFrame where
  type : Nat
  seq : BitVec 12
  ack : BitVec 12
  ackKind : Fin 4
  body : BitVec 26
  payload : List Byte
  deriving DecidableEq, Repr

/-- An identity frame (14 R369), with what a mirror link tests (15 R384): whether the peer holds ACTIVE or STANDBY, and its side. -/
structure Identity where
  devid : Fin 8
  buildId : BitVec 64
  lead : Bool
  member : Bool
  inPair : Bool
  side : Bool
  deriving DecidableEq, Repr

/-- What lead timing carries for a domain (14 R375): its rate class and B, the sample number and the phase in 1/65536 sample at the
departure, and its CLK state (0 locked, 1 switching, 2 cocoon, 3 free). -/
structure LeadDomain where
  domain : DomIx
  rate : Nat
  b : Nat
  sample : Nat
  phase : BitVec 16
  state : Fin 4
  deriving DecidableEq, Repr

/-- Lead timing (14 R374, R375): its hop count and its domains. -/
structure LeadTiming where
  hop : Fin 8
  domains : List LeadDomain
  deriving DecidableEq, Repr

/-- The four timestamps of a delay measurement, in 1/16 ns (14 R372). -/
structure Stamps where
  t1 : Int
  t2 : Int
  t3 : Int
  t4 : Int
  deriving DecidableEq, Repr

/-- A lease path (15 R385): the four balls or the mirror link. -/
inductive LeasePath where
  | balls | mirrorLink
  deriving DecidableEq, Repr

/-- A lease record on the mirror link (15 R384): its kind (0 none, 1 renewal, 2 echo, 3 yield, 4 depart), the renewal number, the handover
sample of a yield, the sender's sync; and the offset in ns of the peer's sample edges, as FOV measures it (15 R402, FOV_SKEW). -/
structure LeaseRecord where
  kind : Fin 5
  number : BitVec 16
  at_ : BitVec 64
  sync : Fin 4
  skew : BitVec 32
  deriving DecidableEq, Repr

/-- What a mirror record carries (15 R396, R401): a masked write of R79, or one item of a resynchronisation copy. Registers of an engine by
kind: 0 D, 1 A, 2 P, 3 M, 4 L, 5 LC, 6 SR. The manual states what is copied and not its byte layout. -/
inductive MirrorItem where
  | write (addr : Addr) (mask value : Word)
  | engineReg (n : EngIx) (kind : Fin 7) (index : Fin 8) (value : BitVec 56)
  | ramp (node : Nat) (start : Int) (from_ to_ : Sample) (len : Nat)
  | delayed (lock tick : Nat) (words : List Sample)
  | bridge (group nextIn nextOut : Nat) (history : List (List Sample))
  | cic (c : Fin 80) (at_ : Nat) (queue : List Sample) (integ comb : List (BitVec 64)) (line : List Sample) (odd : Bool)
  | average (c : Nat) (at_ : Nat) (queue : List Sample) (blocks : List Int) (hops : Nat)
  | streamSeq (n : Fin 256) (seq : BitVec 16)
  deriving DecidableEq, Repr

/-- A DMA channel CH0 to CH31 (17 R431); a weir requester (20 R503); an MSI-X vector (18 R465). -/
abbrev ChIx := Fin 32
abbrev ReqIx := Fin 22
abbrev VecIx := Fin 64

/-- A burst at the bus matrix (17 R422): its master, address, whether it writes, and the bytes of a write or as many zeros as a read's length. -/
structure Burst where
  master : MasterIx
  addr : Addr
  write : Bool
  data : List Byte
  ecc : List (Nat × Ecc)
  deriving DecidableEq, Repr

/-- The window of an inbound request (18 R452, R453). -/
inductive Bar where
  | bar0 | bar2
  deriving DecidableEq, Repr

/-- The PCIe resets (18 R456). -/
inductive PcieResetKind where
  | hot | linkDown | functionLevel
  deriving DecidableEq, Repr

/-- What a host configuration request changes (18 R451, R466, R478): Bus Master Enable, MSI-X enable, the function mask, the D-state
(true: D3hot). -/
inductive PcieConfig where
  | busMaster (on : Bool) | msixEnable (on : Bool) | functionMask (on : Bool) | dState (d3 : Bool)
  deriving DecidableEq, Repr

/-- A word with an error that a dredger burst finds (20 R510), and whether it is correctable. -/
inductive Scrubbed where
  | engine (n : EngIx) (ecc : Ecc)
  | bank (active : Bool) (node : Nat) (ecc : Ecc)
  | sampleMemory (ecc : Ecc)
  | route (d : BitVec 13) (ecc : Ecc)
  | bridgeHistory (group age word : Nat) (ecc : Ecc)
  | filter (w : FilterWord) (ecc : Ecc)
  | dramBlock (block : Nat) (ecc : Ecc)
  deriving DecidableEq, Repr

/-- A monitor's sample (20 R516): the four sensors in 1/16 °C, or rail v in mV. -/
inductive Monitor where
  | temperature (t : List (BitVec 16))
  | rail (v : Fin 9) (mv : BitVec 16)
  deriving DecidableEq, Repr

/-- The commands, in the table's order of families. The comment above a group names the chapters of spec/ its rows come from. -/
inductive Instr where
  -- Registers (00)
  | registerWrite (m : MasterIx) (addr : Addr) (bytes : Nat) (data sets : Word)
  | rcRead (addr : Addr) (updates : List RcUpdate)
  | wideLowWordRead (addr : Addr)
  | wideHighWordWrite (addr : Addr) (data : Word)
  | shFieldTakesEffect (addr : Addr)
  -- Ticks, samples and locks (01, 02)
  | tickBoundary (x : DomIx)
  | sampleEdge (x : DomIx) (inputs : List (Nat × List Bool))
  | bargeCommit (lock : Nat) (tick : Nat) (words : List Sample)
  | creditReturn (lock : Nat)
  | lockCrossingComplete (lock : Nat) (ecc : List (Nat × Ecc))
  | captureCommit (lock : Nat)
  | consumerDeadline (lock : Nat)
  | lateBargeDiscard (lock : Nat)
  | egressDeadline (lock : Nat)
  | domainRealignment (x : DomIx)
  -- Boot and reset (21), modes and takes (03)
  | bootAttempt (image : Image) (training : Training)
  | bootSourceFailure (code : Nat)
  | dpllBootWaitExpiry (x : DomIx)
  | firstAudio (ms : Nat)
  | hostPushChunk (length : Nat) (last : Bool)
  | pushChunkTaken
  | neraxBootFrame (bytes : List Byte) (last : Bool)
  | powerOnReset (boot : Fin 4) (devid : Fin 8) (fuses : Fuses)
  | deviceReset
  | glbRstWrite (value : Word)
  | modeRequestWrite (value : Word)
  | stagingComplete (us : Nat) (payloads : List PayloadContent)
  | overlayTake
  | takeRefusedLate
  | residentModeChange
  | takeAbort
  | hardwareModeRequest (mode : Fin 12) (on : Bool)
  -- Engine segments and windows (04)
  | engineTickStrobe (n : EngIx) (slack : Nat)
  | engineGateOpen (n : EngIx)
  | engineStartDeadline (n : EngIx)
  | engineOutletCommit (n : EngIx) (outlet : Fin 16)
  | engineWindowAccess (n : EngIx) (user : WindowUser) (offset : BitVec 18) (write : Option Word) (ecc : Ecc)
  | programPageSwapRequest (n : EngIx)
  | paramPageSwapRequest (n : EngIx)
  | paramCopyEnd (n : EngIx)
  | engineRelockEnd (n : EngIx)
  -- Operations of engine instructions (05). A class-0 instruction is one to four commands, the last of them marked `last`.
  | nop (n : EngIx) (fetch : Ecc)
  | mpy (n : EngIx) (lane : Fin 2) (a : AccIx) (s1 s2 : RegIx) (last : Bool)
  | mac (n : EngIx) (lane : Fin 2) (a : AccIx) (s1 s2 : RegIx) (last : Bool)
  | macn (n : EngIx) (lane : Fin 2) (a : AccIx) (s1 s2 : RegIx) (last : Bool)
  | clr (n : EngIx) (a : AccIx) (last : Bool)
  | lda (n : EngIx) (a : AccIx) (d : RegIx) (last : Bool)
  | add (n : EngIx) (a : AccIx) (d : RegIx) (last : Bool)
  | sub (n : EngIx) (a : AccIx) (d : RegIx) (last : Bool)
  | adda (n : EngIx) (a a' : AccIx) (last : Bool)
  | suba (n : EngIx) (a a' : AccIx) (last : Bool)
  | neg (n : EngIx) (a : AccIx) (last : Bool)
  | abs (n : EngIx) (a : AccIx) (last : Bool)
  | cmp (n : EngIx) (a : AccIx) (d : RegIx) (last : Bool)
  | max (n : EngIx) (a : AccIx) (d : RegIx) (last : Bool)
  | min (n : EngIx) (a : AccIx) (d : RegIx) (last : Bool)
  | lim (n : EngIx) (a : AccIx) (last : Bool)
  | exp (n : EngIx) (a : AccIx) (d : RegIx) (last : Bool)
  | norm (n : EngIx) (a : AccIx) (d : RegIx) (last : Bool)
  | ash (n : EngIx) (a : AccIx) (d : RegIx) (last : Bool)
  | ld (n : EngIx) (bus : Bus) (p d : RegIx) (update : Update) (ecc : Ecc) (last : Bool)
  | st (n : EngIx) (bus : Bus) (p d : RegIx) (update : Update) (last : Bool)
  | stSat (n : EngIx) (bus : Bus) (p : RegIx) (a : AccIx) (update : Update) (last : Bool)
  | take (n : EngIx) (inlet : Fin 16) (d : RegIx) (ecc : Ecc) (last : Bool)
  | send (n : EngIx) (outlet : Fin 16) (d : RegIx) (last : Bool)
  | sendSat (n : EngIx) (outlet : Fin 16) (a : AccIx) (last : Bool)
  | storeBufferWrite (n : EngIx) (bus : Bus)
  | ldi (n : EngIx) (r : Fin 64) (imm : Sample)
  | mov (n : EngIx) (r r' : Fin 64)
  | ashi (n : EngIx) (a : AccIx) (s : BitVec 7)
  | lea (n : EngIx) (p : RegIx) (imm : Ptr)
  | bra (n : EngIx) (cc : Fin 32) (target : BitVec 13)
  | doLoop (n : EngIx) (count : BitVec 16) (e : BitVec 13)
  | dor (n : EngIx) (r : Fin 64) (e : BitVec 13)
  | brk (n : EngIx)
  | park (n : EngIx)
  -- Reserve engines (04)
  | substitutionStart (u : Fin 2)
  | substitutionRelockEnd (u : Fin 2)
  | substitutionCopyEnd (u : Fin 2)
  | substitutionReady (u : Fin 2)
  | substitutionCut (u : Fin 2)
  | substitutionCutCommand (u : Fin 2)
  | substitutionRelease (u : Fin 2)
  | substitutionCutBack (u : Fin 2)
  | substitutionAbort (u : Fin 2)
  | substitutionAutoFail (u : Fin 2) (target : Fin 32)
  -- Basin, router and fast monitor path (06)
  | basinGroupProcess (group : Nat) (ecc : List (Nat × Ecc))
  | basinPhaseEnd
  | basinDeadline
  | bankWindowAccess (m : MasterIx) (offset : BitVec 23) (bytes : Nat) (write : Option Word) (ecc : Ecc) (reached : Bool)
  | bankCopyRequest
  | bankCopyEnd
  | sceneTakeRequest (atEn : Bool)
  | sceneTake
  | sceneTakeLate
  | crossfadeEnd
  | rampPush (length : BitVec 16) (gang : Bool)
  | rampStart (recent : Bool) (reached : List Nat)
  | rampEnd
  | routeWrite (d : BitVec 13) (value : Word)
  | routeTakesEffect (d : BitVec 13)
  | routerHoldRelease
  | routerHop (lock : Nat) (ecc : List (Nat × Ecc))
  | routerDeadline (lock : Nat)
  | fmpGainWrite (n : Fin 64) (k : Fin 4) (source : Bool) (write : Option Word)
  | fmpCtrlChange (n : Fin 64) (write : Option Word)
  -- Rate bridges and filter chain (07)
  | bridgeInputTake (group : Nat) (ecc : List (Nat × Ecc))
  | bridgeOutputCommit (group : Nat) (dev : BitVec 32) (phase : BitVec 16) (instant : BitVec 64)
  | bridgeUnlock (p : Fin 6) (dev : BitVec 32) (phase : BitVec 16)
  | bridgeResync (p : Fin 6)
  | bridgeLock (p : Fin 6) (dev : BitVec 32) (phase : BitVec 16)
  | bridgeSyncRequest (p : Fin 6) (phase : BitVec 16)
  | bridgeSyncLost (p : Fin 6)
  | cicOutput (n : Fin 80) (bits : List Bool) (corrected : Bool)
  | firSwapRequest (n : Fin 80)
  | firSwap (n : Fin 80)
  | firSwapCrossfadeEnd (n : Fin 80)
  | movingAverageHop (ch : Fin 1024) (corrected : Bool)
  | maCfgTakesEffect (ch : Fin 1024)
  | flcEccUncorrectable (w : FilterWord)
  -- Serial audio ports (08)
  | inmaskChange (p : Fin 16)
  | outmaskChange (p : Fin 16)
  | formatApply (g : Fin 4)
  | formatChangeFadeOut (g : Fin 4)
  | formatChangeTake (g : Fin 4)
  | formatChangeDone (g : Fin 4)
  | slaveFrameStart (g : Fin 4) (delta : BitVec 9) (bits period : Nat)
  | bclkStopped (g : Fin 4) (bits : Nat)
  | fsLost (g : Fin 4)
  | slaveLock (g : Fin 4)
  | rateGateEnd (g : Fin 4) (rate : BitVec 24)
  -- Amplifier control (09)
  | ampLoopPeriod (c : Fin 32) (rail : List Bool) (drvFlt : Bool)
  | ampGroupEnable (a : Fin 4) (en : Bool)
  | ampChannelEnable (c : Fin 32)
  | ampBootEnd (c : Fin 32)
  | ampCmRampEnd (c : Fin 32)
  | ampFadeOutEnd (c : Fin 32)
  | ampOffReached (c : Fin 32)
  | cycleByCycleLimit (c : Fin 32) (bits : List Bool)
  | shortCircuitTrip (c : Fin 32) (bits : List Bool)
  | driverFault (a : Fin 4)
  | senseLost (c : Fin 32)
  | ampRetry (c : Fin 32)
  | ampRetryReset (c : Fin 32)
  | ampClear (c : Fin 32)
  | drvFltReleaseHoldEnd (a : Fin 4)
  | railQualified (a : Fin 4)
  | ampSafeRelease (a : Fin 4)
  | calibrationWindow (c : Fin 32) (vgain : Option (BitVec 24))
  -- References and clocks (10)
  | candidateWindowClose (c : CandIx) (edge : Bool)
  | candidateStrayEdge (c : CandIx)
  | candidateFirstEdge (c : CandIx)
  | candidateQualified (c : CandIx)
  | frequencyInterval (c : CandIx) (freq : Option Ppb)
  | driftFit (c : CandIx)
  | crossCheckOutvoted (c : CandIx)
  | timeCandidateSourceLoss (c : CandIx)
  | waitToRestoreExpiry (x : DomIx)
  | forceWrite (x : DomIx) (en : Bool) (sel : BitVec 4)
  | switchCaptureStart (x : DomIx)
  | switchCaptureEnd (x : DomIx) (offset : Ps)
  | passThroughRampEnd (x : DomIx)
  | dpllStageAdvance (x : DomIx) (phase : Ps) (freq : Ppb)
  | imagoFallback (x : DomIx) (phase : Ps)
  | cocoonEntry (x : DomIx) (rec : FreqRecord)
  | cocoonExit (x : DomIx)
  | clkHoldWrite (x : DomIx) (hold : Bool) (rec : FreqRecord)
  | alignLost (x : DomIx) (phase : Ps)
  | realignWrite (x : DomIx)
  | pulseOutputRealign (o : Fin 3)
  | pulseOutputPulse (o : Fin 3) (misalignment : Option (BitVec 32))
  | oscInStopped
  | oscWarn
  -- Time bases and network time (11)
  | timeSnap
  | timeBaseLoad (n : TbIx) (set3 : Word)
  | timeBaseStep (n : TbIx) (stepHi : Word)
  | timeBaseAdjWrite (n : TbIx) (value : Word)
  | servoMeasurement (n : TbIx) (measHi : Word) (withStep : Bool)
  | measurementTimeout (n : TbIx)
  | derivedSourceChange (n : TbIx)
  | derivedWtrExpiry (n : TbIx)
  | derivedProfileEnd (n : TbIx)
  | txTimestampEntry (m : Fin 2) (tag : BitVec 16) (tb : TbIx) (discarded : Bool)
  | txqPop (m : Fin 2)
  -- Ethernet MACs and audio streams (12)
  | linkUp (m : Fin 2) (negotiated : Bool)
  | linkDown (m : Fin 2)
  | frameReceive (m : Fin 2) (error : Bool) (frame : List Byte)
  | softwareFrameTransmit (m : Fin 2) (gapNs : Nat)
  | softwareFrameAged (m : Fin 2)
  | streamPacketLaunch (n : Fin 256)
  | txStreamEnable (n : Fin 256)
  | rxStreamEnable (n : Fin 256)
  | lpiEntry (m : Fin 2)
  | lpiWake (m : Fin 2)
  -- Serial lanes (13)
  | laneSynthLock (n : LaneIx)
  | laneSignalDetect (n : LaneIx)
  | laneCdrLock (n : LaneIx)
  | laneCtleConverged (n : LaneIx) (ctle : Byte)
  | laneDfeConverged (n : LaneIx) (taps : BitVec 24)
  | laneAdaptTimeout (n : LaneIx)
  | laneSignalLoss (n : LaneIx) (afterLpi : Bool)
  | readaptWrite (n : LaneIx)
  | readaptEnd (n : LaneIx) (ctle : Byte) (taps : BitVec 24)
  | elasticBufferUnit (n : LaneIx) (fill : Fin 33)
  | elasticBufferRecentre (n : LaneIx) (full : Bool)
  | embeddedClockFallback (k : LinkIx)
  | embeddedClockReturn (k : LinkIx)
  | refclkLost (r : Fin 3)
  | refclkReturn (r : Fin 3)
  | loopModeWrite (n : LaneIx) (mode : Fin 4)
  | prbsCtrlWrite (n : LaneIx) (value : Word)
  | prbsCheckerLock (n : LaneIx) (lock : Bool) (bits errors : Nat)
  | injectOnce (n : LaneIx)
  | scanStart (n : LaneIx) (value : Word)
  | scanDone (n : LaneIx) (errors : Word)
  | rxIdleTimeout (n : LaneIx)
  -- Nerax links (14)
  | neraxFrameReceive (k : LinkIx) (f : NrxFrame) (crcOk : Bool) (credits : Nat)
  | neraxAckSend (k : LinkIx)
  | neraxNakReplay (k : LinkIx) (seq : BitVec 12)
  | neraxAckTimeout (k : LinkIx)
  | neraxBargeAssembled (k : LinkIx) (group : BitVec 11) (tag : BitVec 8)
  | neraxMessageSend (k : LinkIx)
  | neraxAligned (k : LinkIx)
  | identityFrame (k : LinkIx) (id : Identity)
  | neraxLinkUp (k : LinkIx)
  | neraxStateTimeout (k : LinkIx)
  | neraxLinkDown (k : LinkIx)
  | timingFrameSend (k : LinkIx)
  | timingFrameReceive (k : LinkIx) (stamps : Stamps) (lead : Option LeadTiming) (lease : Option LeaseRecord)
  | leadTimingLoss (k : LinkIx)
  -- Fail-over (15)
  | leaseRenewal
  | leaseRenewalReceived (path : LeasePath) (r : LeaseRecord)
  | leaseEchoReceived (path : LeasePath) (r : LeaseRecord)
  | foreignLeaseEdge
  | departPattern
  | departReceived
  | peerAliveLow
  | peerAliveHigh
  | keeperFenceTimeout
  | leaseTake
  | secondKeeperFound
  | claim
  | yieldRequest
  | yieldHandover
  | yieldCancel
  | mirrorRecord (at_ : Option (BitVec 64)) (item : MirrorItem)
  | mirrorCrcCompare (lock tick : Nat) (crc : Word) (late : Bool)
  | resyncStart
  | resyncCopyEnd
  | resyncCompareEnd
  | resyncAbort
  -- LPDDR5 controller (16)
  | dramRequest (busy : List Nat) (found : Fin 3)
  | dramRefresh (bank : Nat) (due : Bool)
  | mr4Read (code : Byte) (hot : Bool)
  | rtPanicEntry
  | rtBargeLost (line tick : Nat) (write : Bool)
  | driftMeasurement (drift : Word)
  | retrainStart
  | retrainSlice (lane : Fin 4) (narrow : Bool)
  | retrainDone
  -- Bus matrix and DMA (17)
  | burstGrant (target : Fin 6) (arrivals : List Burst)
  | defaultTargetBurst (b : Burst)
  | masterReset (m : MasterIx)
  | swIdxWrite (c : ChIx) (value : BitVec 16)
  | descriptorFetch (c : ChIx) (host : Option (List Byte))
  | descriptorComplete (c : ChIx) (host : Option (List Byte))
  | peripheralRequest (c : ChIx)
  | requestWithdrawn (c : ChIx) (granted : Bool)
  | frameRxDma (c : ChIx)
  | tickModeTransfer (c : ChIx)
  | dmaDisable (c : ChIx)
  | dmaEnable (c : ChIx)
  | dmaAbrupt (c : ChIx)
  -- PCIe, events, GPIO and service ports (18)
  | pcieInboundRequest (bar : Bar) (offset : Nat) (write poisoned : Bool) (data : List (Option Byte))
  | pcieOutboundRequest (b : Burst)
  | pcieReset (kind : PcieResetKind)
  | msixMessageSend (v : VecIx)
  | evtEoi (v : VecIx)
  | evtSw (value : Word)
  | evtRouteWrite (source : Byte) (value : Word)
  | sampleCompare (n : Fin 4)
  | eventLevelRise (source : Byte)
  | irqRelease (k : Fin 2)
  | gpioSample (i : Fin 16) (level : Bool)
  | gpioChatterEnd (i : Fin 16)
  | gpioStuck (i : Fin 16)
  | spiWrite (addr : BitVec 24) (data : Word) (bytes : Nat)
  | spiRead (addr : BitVec 24)
  | spiStatus
  | i2cCommand (value : Word)
  | i2cCommandEnd (nak : Bool) (data : List Byte)
  | mdioCommand (value : Word) (data : BitVec 16)
  -- Fault collector (19)
  | faultReport (source : Byte) (code : Fin 32) (level : Fin 5)
  | fltAck (value : Word)
  | fltClear (value : Word)
  | persistentCauseEnd (source : Byte) (code : Fin 32)
  | errNPulseEnd
  | errHoldWrite (value : Word)
  | watchdogExpiry
  | watchdogKick (value : Word)
  | injectionArm (value : Word)
  | injectionFire
  | injectedReport (value : Word)
  | faultLogPop
  -- Weir, dredger and telemetry (20)
  | weirRequest (r : ReqIx)
  | weirGrant
  | weirReturn (r : ReqIx)
  | weirWithdraw (r : ReqIx)
  | requestStarving (r : ReqIx)
  | budgetWrite (value : Word)
  | coreCurrentMeasurement (units : BitVec 12)
  | dredgerBurst (found : List Scrubbed)
  | dredgerBurstDue (dram : Bool)
  | dredgerPassEnd (dram : Bool)
  | dredgerEnableWrite (value : Word)
  | monitorSample (m : Monitor)
  | telemetryRecord (abandoned : Bool)
  -- Image replacement (21)
  | imageReplacementStart (image : Image)
  | imageReplacementTake
  | imageReplacementAbort
  | replacementBuildIdMismatch (k : LinkIx)
  -- Rows at the table's end (13, 18, 22, 15)
  | receiveIdleSignalReturn (n : LaneIx)
  | pcieLinkUp (speed : Fin 5) (width : Fin 3)
  | pcieConfigRequest (c : PcieConfig)
  | outboundCompletion (ok : Bool) (data : List Byte)
  | outboundCompletionTimeout
  | jtagRegacc (write : Bool) (addr : BitVec 24) (data : Word)
  | pathLost (path : LeasePath)
  | armingTimeExpiry
  deriving DecidableEq, Repr

end Sys2Proof
end

