-- ==== Sys2Proof/Decode.lean ====
section
/-!
DEFINITION. The command a table word spells. The rows of spec/opcode_table.json give no bits (each row is a command of the block and no
encoding), so every word is refused. The 48-bit instructions of the engines (05 R139 to R148) are decoded in Machine/Idle.lean, from
program memory.
-/
namespace Sys2Proof

def decodeTableWord (_nbits _w : Nat) : Option Instr := none

end Sys2Proof
end

