-- ==== Sys2Proof/Config.lean ====
section
/-!
DEFINITION. What an implementation fixes and the spec leaves open: free values, opaque constants that nothing in Lean can evaluate. A
meaning draws a fresh one by applying the constant to the counter `State.freeCount`, or applies it to the operands the value
depends on.
-/
namespace Sys2Proof

/-- SHA-256 of a byte string and ECDSA P-256 verification (03 R84 names both and leaves them to their standards): hash of the bytes. [DESIGN CHOICE, log entry 78] -/
opaque Config.sha256 : List Byte → BitVec 256
/-- ECDSA P-256: `verify key hash signature` over the 64-byte key and the 64-byte signature (03 R84). [DESIGN CHOICE, log entry 78] -/
opaque Config.ecdsaP256 : List Byte → BitVec 256 → List Byte → Bool
/-- The payload of an identity frame (14 R369): the spec names what it carries, from the DEVID, the build_id and lead, member, in-pair and side,
and no layout. [DESIGN CHOICE, log entry 119] -/
opaque Config.identityBytes : Nat → BitVec 64 → List Bool → List Byte
/-- The state of a Nat the spec leaves open, by the counter of free values drawn. -/
opaque Config.freeNat : Nat → Nat
/-- Where a linear fade over 32 samples begins and ends, as the manual states the line but not its ends (06 R197; 07 R208, R220): whether its
first sample has moved, and whether its last stops short. [DESIGN CHOICE, log entry 51] -/
opaque Config.fadeMoved : Bool
opaque Config.fadeShort : Bool
/-- One output sample of a bridge channel: the value at a point of the band-limited signal that input samples define (07 R204), by a filter that
the manual gives by its response, not its coefficients (R205). By the filter class and whether it is extended, the input samples about the
point, and how far the point lies past the middle one. [DESIGN CHOICE, log entry 79] -/
opaque Config.bridgeSample : Nat → Bool → List Sample → Rat → Sample
/-- The reference that an amplifier's interpolator forms from the channel's samples, newest first (09 R250, R254: the manual names the
interpolator and not its filter), by the counter of free values drawn. [DESIGN CHOICE, log entry 79] -/
opaque Config.ampReference : List Sample → Nat → Rat
/-- The device's rounding of exp(-1 / x) of the limiter's release (09 R260), within 2^-24 of it. [DESIGN CHOICE, log entry 79] -/
opaque Config.limiterDecay : Rat → Rat
/-- The device's rounding of cos(π x) of the common-mode ramp (09 R257), within 2^-24 of it. [DESIGN CHOICE, log entry 79] -/
opaque Config.cosPi : Rat → Rat
/-- The frequency in ppb that a DPLL of a bandwidth, in Hz, comes to over a measuring interval from its own and its reference's (10 R279 gives the
bandwidths and not the loop). [DESIGN CHOICE, log entry 116] -/
opaque Config.dpllFollows : Rat → Int → Int → Int
/-- The quotient of a division by a rail that measures zero (09 R254 states none), by the dividend. [DESIGN CHOICE, log entry 79] -/
opaque Config.railZero : Rat → Rat
/-- The CRC-32C of a barge (15 R398): the manual does not give the byte order in which a barge's words enter it. [DESIGN CHOICE, log entry 81] -/
opaque Config.bargeCrc : List Sample → Word
/-- The bank and the row of a DRAM block (16: the manual gives neither's place in the address). [DESIGN CHOICE, log entry 86] -/
opaque Config.dramBank : Nat → Nat
opaque Config.dramRow : Nat → Nat
/-- The channel of a bank: 0 with byte lanes 0 and 1, 1 with lanes 2 and 3. [DESIGN CHOICE, log entry 86] -/
opaque Config.dramChannel : Nat → Nat
/-- The DRAM block that holds a sample of a delay line's ring, by line and ring index (16 R412 gives no ring address). [DESIGN CHOICE, log entry 86] -/
opaque Config.ringBlock : Nat → Nat → Nat
/-- The words of all SRAM a dredger pass reads (20 R510: the manual gives no sum). [DESIGN CHOICE, log entry 32] -/
opaque Config.sramWords : Nat
/-- The register a monitor number of TLM_ITEMi names (20 R521: the manual does not number the monitors). [DESIGN CHOICE, log entry 33] -/
opaque Config.monitorRegister : Nat → Nat
/-- The word that a telemetry item carries of a 64-bit moving-average result (20 R517 names the result and one word, not which). [DESIGN CHOICE, log entry 34] -/
opaque Config.telemetryAverage : BitVec 64 → Word
/-- The read data of an MDIO frame started by a bus write, by the counter of free values drawn (18 R476: the bus gives them). [DESIGN CHOICE, log entry 15] -/
opaque Config.mdioData : Nat → BitVec 16
/-- The master number that an access of the service SPI port or of REGACC bears in the latch of R426: it is none of the eight (17 R420). [DESIGN CHOICE, log entry 30] -/
opaque Config.serviceMaster : Nat

end Sys2Proof
end

