-- ==== Sys2Proof/Machine/Tab.lean ====
section
/-!
DEFINITION. Sparse tables in one canonical form: keys strictly rising and no entry equal to what an unlisted key reads as
(`d k`). Registers, memories and the per-instance records of the blocks are such tables, so equal contents are equal data.
-/
namespace Sys2Proof.Machine

/-- What the table holds at `k`: the listed value, or `d k` where nothing is listed. -/
def Tab.get (d : Nat → α) : List (Nat × α) → Nat → α
  | [], k => d k
  | (k', v) :: t, k => if k' = k then v else Tab.get d t k

/-- The table without any entry for `k`. -/
def Tab.erase (k : Nat) : List (Nat × α) → List (Nat × α)
  | [] => []
  | (k', v) :: t => if k' = k then Tab.erase k t else (k', v) :: Tab.erase k t

/-- The table with `(k, v)` put before the first larger key. -/
def Tab.insert (k : Nat) (v : α) : List (Nat × α) → List (Nat × α)
  | [] => [(k, v)]
  | (k', v') :: t => if k < k' then (k, v) :: (k', v') :: t else (k', v') :: Tab.insert k v t

/-- The table with `v` at `k`; a value an unlisted key reads as removes the entry. -/
def Tab.set [DecidableEq α] (d : Nat → α) (t : List (Nat × α)) (k : Nat) (v : α) : List (Nat × α) :=
  if v = d k then Tab.erase k t else Tab.insert k v (Tab.erase k t)

/-- The key lies above the bound. -/
def Tab.above (lo : Option Nat) (k : Nat) : Bool := lo.all fun l => decide (l < k)

/-- Keys strictly rising, all of them above `lo`. -/
def Tab.rising : Option Nat → List (Nat × α) → Bool
  | _, [] => true
  | lo, (k, _) :: t => Tab.above lo k && Tab.rising (some k) t

/-- No entry equal to what its key reads as when unlisted. -/
def Tab.lean [DecidableEq α] (d : Nat → α) (t : List (Nat × α)) : Bool := t.all fun e => decide (e.2 ≠ d e.1)

/-- The canonical form. -/
def Tab.wf [DecidableEq α] (d : Nat → α) (t : List (Nat × α)) : Bool := Tab.rising none t && Tab.lean d t

end Sys2Proof.Machine
end

