-- ==== Sys2Proof/Machine/Regs.lean ====
section
/-!
DEFINITION. The register map (00 R10 to R18; the register tables of R106, R135, R199, R200, R221, R222, R245, R267, R297,
R318, R341, R342, R359, R380, R402, R419, R447, R448, R477 to R480, R500, R519 to R521, R539): where every register lies, which of
its bits have which access type (R13), its reset value (R18) and its place in a wide value (R17); then the address of every
register and the place of every field by the manual's own name.
-/
namespace Sys2Proof.Machine

/-- One row of a register map. Bit masks name the bits of each access type (R13); a bit in none of the five masks is RO or
reserved, so a write ignores it. `n1` copies lie `s1` bytes apart, each with `n2` copies `s2` bytes apart. A register of a
value wider than 32 bits is word `wpos` of `wlen` (R17). -/
structure RegDesc where
  name : String
  off : Nat
  s1 : Nat
  n1 : Nat
  s2 : Nat
  n2 : Nat
  rw : Nat
  sh : Nat
  w1c : Nat
  wo : Nat
  rc : Nat
  reset : Nat
  wlen : Nat
  wpos : Nat
  deriving DecidableEq, Repr

/-- The place of a field: the address of its register, its lowest bit and its width. -/
structure FieldAt where
  addr : Nat
  lsb : Nat
  width : Nat
  deriving DecidableEq, Repr


namespace Map

/-- The register map of block GLB (21 R539). -/
def glb : List RegDesc := [
  ⟨"GLB_ID", 0, 0, 1, 0, 1, 0, 0, 0, 0, 0, 0x96322100, 1, 0⟩,
  ⟨"GLB_STRAP", 0x4, 0, 1, 0, 1, 0, 0, 0, 0, 0, 0, 1, 0⟩,
  ⟨"GLB_RESET_CAUSE", 0x8, 0, 1, 0, 1, 0, 0, 0, 0, 0, 0x1, 1, 0⟩,
  ⟨"GLB_BOOT_STATUS", 0xC, 0, 1, 0, 1, 0, 0, 0, 0, 0, 0, 1, 0⟩,
  ⟨"GLB_PUSH", 0x10, 0, 1, 0, 1, 0, 0, 0, 0x807FFFFF, 0, 0, 1, 0⟩,
  ⟨"GLB_RST", 0x14, 0, 1, 0, 1, 0, 0, 0, 0xFFFFFFFF, 0, 0, 1, 0⟩,
  ⟨"GLB_BOOT_TIME", 0x18, 0, 1, 0, 1, 0, 0, 0, 0, 0, 0, 1, 0⟩,
  ⟨"GLB_REPL_SRC_LO", 0x1C, 0, 1, 0, 1, 0xFFFFFFFF, 0, 0, 0, 0, 0, 2, 0⟩,
  ⟨"GLB_REPL_SRC_HI", 0x20, 0, 1, 0, 1, 0xFF, 0, 0, 0, 0, 0, 2, 1⟩,
  ⟨"GLB_REPL_CTRL", 0x24, 0, 1, 0, 1, 0x1, 0, 0, 0xC0000000, 0, 0, 1, 0⟩,
  ⟨"GLB_REPL_STATUS", 0x28, 0, 1, 0, 1, 0, 0, 0, 0, 0, 0, 1, 0⟩,
  ⟨"GLB_REPL_AT_LO", 0x2C, 0, 1, 0, 1, 0xFFFFFFFF, 0, 0, 0, 0, 0, 2, 0⟩,
  ⟨"GLB_REPL_AT_HI", 0x30, 0, 1, 0, 1, 0xFFFFFFFF, 0, 0, 0, 0, 0, 2, 1⟩,
  ⟨"GLB_INT_STATUS", 0x34, 0, 1, 0, 1, 0, 0, 0x3F, 0, 0, 0, 1, 0⟩,
  ⟨"GLB_INT_ENABLE", 0x38, 0, 1, 0, 1, 0x3F, 0, 0, 0, 0, 0, 1, 0⟩]

/-- The register map of block CFG (03 R106). -/
def cfg : List RegDesc := [
  ⟨"CFG_STATUS", 0, 0, 1, 0, 1, 0, 0, 0, 0, 0, 0, 1, 0⟩,
  ⟨"CFG_LOAD_STATUS", 0x4, 0, 1, 0, 1, 0, 0, 0, 0, 0, 0, 1, 0⟩,
  ⟨"CFG_IMAGE_ID_LO", 0x8, 0, 1, 0, 1, 0, 0, 0, 0, 0, 0, 2, 0⟩,
  ⟨"CFG_IMAGE_ID_HI", 0xC, 0, 1, 0, 1, 0, 0, 0, 0, 0, 0, 2, 1⟩,
  ⟨"CFG_SECVER", 0x10, 0, 1, 0, 1, 0, 0, 0, 0, 0, 0, 1, 0⟩,
  ⟨"CFG_MODE_HELD", 0x14, 0, 1, 0, 1, 0, 0, 0, 0, 0, 0, 1, 0⟩,
  ⟨"CFG_MODE_REQ", 0x18, 0, 1, 0, 1, 0xFFF, 0, 0, 0, 0, 0, 1, 0⟩,
  ⟨"CFG_MODE_HWREQ", 0x1C, 0, 1, 0, 1, 0, 0, 0, 0, 0, 0, 1, 0⟩,
  ⟨"CFG_TAKE_CTRL", 0x20, 0, 1, 0, 1, 0x1, 0, 0, 0x2, 0, 0, 1, 0⟩,
  ⟨"CFG_TAKE_AT_LO", 0x24, 0, 1, 0, 1, 0xFFFFFFFF, 0, 0, 0, 0, 0, 2, 0⟩,
  ⟨"CFG_TAKE_AT_HI", 0x28, 0, 1, 0, 1, 0xFFFFFFFF, 0, 0, 0, 0, 0, 2, 1⟩,
  ⟨"CFG_TAKE_LAST_LO", 0x2C, 0, 1, 0, 1, 0, 0, 0, 0, 0, 0, 2, 0⟩,
  ⟨"CFG_TAKE_LAST_HI", 0x30, 0, 1, 0, 1, 0, 0, 0, 0, 0, 0, 2, 1⟩,
  ⟨"CFG_REFUSED", 0x34, 0, 1, 0, 1, 0, 0, 0x1FFF, 0, 0, 0, 1, 0⟩,
  ⟨"CFG_INT_STATUS", 0x38, 0, 1, 0, 1, 0, 0, 0x1F, 0, 0, 0, 1, 0⟩,
  ⟨"CFG_INT_ENABLE", 0x3C, 0, 1, 0, 1, 0x1F, 0, 0, 0, 0, 0, 1, 0⟩,
  ⟨"CFG_STAGE_TIME", 0x40, 0, 1, 0, 1, 0, 0, 0, 0, 0, 0, 1, 0⟩,
  ⟨"CFG_SHADOW_BASE_LO", 0x44, 0, 1, 0, 1, 0, 0, 0, 0, 0, 0, 2, 0⟩,
  ⟨"CFG_SHADOW_BASE_HI", 0x48, 0, 1, 0, 1, 0, 0, 0, 0, 0, 0, 2, 1⟩,
  ⟨"CFG_OWNED_ADDR", 0x4C, 0, 1, 0, 1, 0xFFFFFFFF, 0, 0, 0, 0, 0, 1, 0⟩,
  ⟨"CFG_OWNED_MASK", 0x50, 0, 1, 0, 1, 0, 0, 0, 0, 0, 0, 1, 0⟩,
  ⟨"CFG_HWREQ_EN", 0x54, 0, 1, 0, 1, 0x2, 0, 0, 0, 0, 0, 1, 0⟩]

/-- The register map of block EVT (18 R477). -/
def evt : List RegDesc := [
  ⟨"EVT_INFO", 0, 0, 1, 0, 1, 0, 0, 0, 0, 0, 0x400100, 1, 0⟩,
  ⟨"EVT_LEVEL0", 0x10, 0, 1, 0, 1, 0, 0, 0, 0, 0, 0, 1, 0⟩,
  ⟨"EVT_LEVEL1", 0x14, 0, 1, 0, 1, 0, 0, 0, 0, 0, 0, 1, 0⟩,
  ⟨"EVT_LEVEL2", 0x18, 0, 1, 0, 1, 0, 0, 0, 0, 0, 0, 1, 0⟩,
  ⟨"EVT_LEVEL3", 0x1C, 0, 1, 0, 1, 0, 0, 0, 0, 0, 0, 1, 0⟩,
  ⟨"EVT_LEVEL4", 0x20, 0, 1, 0, 1, 0, 0, 0, 0, 0, 0, 1, 0⟩,
  ⟨"EVT_LEVEL5", 0x24, 0, 1, 0, 1, 0, 0, 0, 0, 0, 0, 1, 0⟩,
  ⟨"EVT_LEVEL6", 0x28, 0, 1, 0, 1, 0, 0, 0, 0, 0, 0, 1, 0⟩,
  ⟨"EVT_LEVEL7", 0x2C, 0, 1, 0, 1, 0, 0, 0, 0, 0, 0, 1, 0⟩,
  ⟨"EVT_VREQ_LO", 0x30, 0, 1, 0, 1, 0, 0, 0, 0, 0, 0, 1, 0⟩,
  ⟨"EVT_VREQ_HI", 0x34, 0, 1, 0, 1, 0, 0, 0, 0, 0, 0, 1, 0⟩,
  ⟨"EVT_EOI", 0x38, 0, 1, 0, 1, 0, 0, 0, 0x3F, 0, 0, 1, 0⟩,
  ⟨"EVT_LOCAL_STATUS", 0x3C, 0, 1, 0, 1, 0, 0, 0xFFFF007F, 0, 0, 0, 1, 0⟩,
  ⟨"EVT_LOCAL_ENABLE", 0x40, 0, 1, 0, 1, 0xFFFF007F, 0, 0, 0, 0, 0, 1, 0⟩,
  ⟨"EVT_SW", 0x44, 0, 1, 0, 1, 0, 0, 0, 0xFFFF0000, 0, 0, 1, 0⟩,
  ⟨"EVT_TICK_DIV", 0x48, 0, 1, 0, 1, 0xF0F0F, 0, 0, 0, 0, 0, 1, 0⟩,
  ⟨"EVT_CMP_CTRL", 0x4C, 0, 1, 0, 1, 0xFFF, 0, 0, 0, 0, 0, 1, 0⟩,
  ⟨"EVT_CMPn_LO", 0x50, 0x8, 4, 0, 1, 0xFFFFFFFF, 0, 0, 0, 0, 0, 2, 0⟩,
  ⟨"EVT_CMPn_HI", 0x54, 0x8, 4, 0, 1, 0xFFFFFFFF, 0, 0, 0, 0, 0, 2, 1⟩,
  ⟨"EVT_HOLDv", 0x100, 0x4, 64, 0, 1, 0x3FF, 0, 0, 0, 0, 0, 1, 0⟩,
  ⟨"EVT_ROUTEs", 0x400, 0x4, 256, 0, 1, 0xB000003F, 0, 0, 0, 0, 0, 1, 0⟩]

/-- The register map of block FLT (19 R500). -/
def flt : List RegDesc := [
  ⟨"FLT_INFO", 0, 0, 1, 0, 1, 0, 0, 0, 0, 0, 0x4005, 1, 0⟩,
  ⟨"FLT_STATUS", 0x4, 0, 1, 0, 1, 0, 0, 0, 0, 0, 0, 1, 0⟩,
  ⟨"FLT_CTRL", 0x8, 0, 1, 0, 1, 0x37, 0, 0, 0, 0, 0x2, 1, 0⟩,
  ⟨"FLT_ACK", 0xC, 0, 1, 0, 1, 0, 0, 0, 0x1F, 0, 0, 1, 0⟩,
  ⟨"FLT_CLEAR", 0x10, 0, 1, 0, 1, 0, 0, 0, 0xC, 0, 0, 1, 0⟩,
  ⟨"FLT_ERR_CTRL", 0x14, 0, 1, 0, 1, 0x800003FF, 0, 0, 0, 0, 0x14, 1, 0⟩,
  ⟨"FLT_INT_STATUS", 0x18, 0, 1, 0, 1, 0, 0, 0xFFF, 0, 0, 0, 1, 0⟩,
  ⟨"FLT_INT_ENABLE", 0x1C, 0, 1, 0, 1, 0xFFF, 0, 0, 0, 0, 0, 1, 0⟩,
  ⟨"FLT_COUNTL", 0x20, 0x4, 5, 0, 1, 0, 0, 0, 0, 0xFFFFFFFF, 0, 1, 0⟩,
  ⟨"FLT_LOG_STATUS", 0x34, 0, 1, 0, 1, 0, 0, 0, 0, 0, 0, 1, 0⟩,
  ⟨"FLT_LOG0", 0x38, 0, 1, 0, 1, 0, 0, 0, 0, 0, 0, 1, 0⟩,
  ⟨"FLT_LOG1", 0x3C, 0, 1, 0, 1, 0, 0, 0, 0, 0, 0, 1, 0⟩,
  ⟨"FLT_LOG2", 0x40, 0, 1, 0, 1, 0, 0, 0, 0, 0, 0, 1, 0⟩,
  ⟨"FLT_LOG3", 0x44, 0, 1, 0, 1, 0, 0, 0, 0, 0, 0, 1, 0⟩,
  ⟨"FLT_WDOG", 0x48, 0, 1, 0, 1, 0xFFFF0003, 0, 0, 0, 0, 0x1, 1, 0⟩,
  ⟨"FLT_KICK", 0x4C, 0, 1, 0, 1, 0, 0, 0, 0xFFFFFFFF, 0, 0, 1, 0⟩,
  ⟨"FLT_INJ_CTRL", 0x50, 0, 1, 0, 1, 0xB000000F, 0, 0, 0, 0, 0, 1, 0⟩,
  ⟨"FLT_INJ_ADDR_LO", 0x54, 0, 1, 0, 1, 0xFFFFFFFF, 0, 0, 0, 0, 0, 2, 0⟩,
  ⟨"FLT_INJ_ADDR_HI", 0x58, 0, 1, 0, 1, 0xFF, 0, 0, 0, 0, 0, 2, 1⟩,
  ⟨"FLT_INJ_REPORT", 0x5C, 0, 1, 0, 1, 0, 0, 0, 0x871F00FF, 0, 0, 1, 0⟩,
  ⟨"FLT_SCOPEs", 0x1000, 0x4, 256, 0, 1, 0x77, 0, 0, 0, 0, 0, 1, 0⟩]

/-- The register map of block WEIR (20 R519). -/
def weir : List RegDesc := [
  ⟨"WEIR_INFO", 0, 0, 1, 0, 1, 0, 0, 0, 0, 0, 0x16, 1, 0⟩,
  ⟨"WEIR_BUDGET", 0x4, 0, 1, 0, 1, 0xFFF, 0, 0, 0, 0, 0, 1, 0⟩,
  ⟨"WEIR_RESERVE", 0x8, 0, 1, 0, 1, 0, 0, 0, 0, 0, 0, 1, 0⟩,
  ⟨"WEIR_STATUS", 0xC, 0, 1, 0, 1, 0, 0, 0, 0, 0, 0, 1, 0⟩,
  ⟨"WEIR_REQ", 0x10, 0, 1, 0, 1, 0, 0, 0, 0, 0, 0, 1, 0⟩,
  ⟨"WEIR_GRANT", 0x14, 0, 1, 0, 1, 0, 0, 0, 0, 0, 0, 1, 0⟩,
  ⟨"WEIR_CTRL", 0x18, 0, 1, 0, 1, 0xFF, 0, 0, 0, 0, 0xA, 1, 0⟩,
  ⟨"WEIR_MEAS", 0x1C, 0, 1, 0, 1, 0, 0, 0, 0, 0, 0, 1, 0⟩,
  ⟨"WEIR_INT_STATUS", 0x20, 0, 1, 0, 1, 0, 0, 0x1F, 0, 0, 0, 1, 0⟩,
  ⟨"WEIR_INT_ENABLE", 0x24, 0, 1, 0, 1, 0x1F, 0, 0, 0, 0, 0, 1, 0⟩,
  ⟨"WEIR_COUNT", 0x28, 0, 1, 0, 1, 0, 0, 0, 0, 0xFFFFFFFF, 0, 1, 0⟩,
  ⟨"WEIR_COSTr", 0x40, 0x4, 22, 0, 1, 0, 0, 0, 0, 0, 0, 1, 0⟩,
  ⟨"WEIR_MODE_COSTm", 0x100, 0x4, 12, 0, 1, 0, 0, 0, 0, 0, 0, 1, 0⟩]

/-- The register map of block CLK (10 R297). -/
def clk : List RegDesc := [
  ⟨"CLK_INFO", 0, 0, 1, 0, 1, 0, 0, 0, 0, 0, 0x70309, 1, 0⟩,
  ⟨"CLK_STATUS", 0x4, 0, 1, 0, 1, 0, 0, 0, 0, 0, 0, 1, 0⟩,
  ⟨"CLK_OSC_DEV", 0x8, 0, 1, 0, 1, 0, 0, 0, 0, 0, 0, 1, 0⟩,
  ⟨"CLK_INT_STATUS", 0xC, 0, 1, 0, 1, 0, 0, 0x7, 0, 0, 0, 1, 0⟩,
  ⟨"CLK_INT_ENABLE", 0x10, 0, 1, 0, 1, 0x7, 0, 0, 0, 0, 0, 1, 0⟩,
  ⟨"CLK_INT_SUM", 0x14, 0, 1, 0, 1, 0, 0, 0, 0, 0, 0, 1, 0⟩,
  ⟨"CLK_CANDc_CFG", 0x100, 0x20, 9, 0, 1, 0x84000000, 0, 0, 0, 0, 0, 1, 0⟩,
  ⟨"CLK_CANDc_QUAL", 0x104, 0x20, 9, 0, 1, 0xFFFFFFFF, 0, 0, 0, 0, 0x4050532, 1, 0⟩,
  ⟨"CLK_CANDc_DRIFT", 0x108, 0x20, 9, 0, 1, 0xC0FFFFFF, 0, 0, 0, 0, 0xC0401414, 1, 0⟩,
  ⟨"CLK_CANDc_STATUS", 0x10C, 0x20, 9, 0, 1, 0, 0, 0, 0, 0, 0, 1, 0⟩,
  ⟨"CLK_CANDc_FREQ", 0x110, 0x20, 9, 0, 1, 0, 0, 0, 0, 0, 0, 1, 0⟩,
  ⟨"CLK_CANDc_SLOPE", 0x114, 0x20, 9, 0, 1, 0, 0, 0, 0, 0, 0, 1, 0⟩,
  ⟨"CLK_CANDc_COUNT", 0x118, 0x20, 9, 0, 1, 0, 0, 0, 0, 0xFFFFFFFF, 0, 1, 0⟩,
  ⟨"CLK_DOMx_CFG", 0x400, 0x40, 3, 0, 1, 0, 0, 0, 0, 0, 0, 1, 0⟩,
  ⟨"CLK_DOMx_PRIO", 0x404, 0x40, 3, 0, 1, 0xFFFFFFFF, 0, 0, 0, 0, 0, 1, 0⟩,
  ⟨"CLK_DOMx_PRIO_HI", 0x408, 0x40, 3, 0, 1, 0xF, 0, 0, 0, 0, 0, 1, 0⟩,
  ⟨"CLK_DOMx_CTRL", 0x40C, 0x40, 3, 0, 1, 0x10FFF13, 0, 0, 0x80000000, 0, 0, 1, 0⟩,
  ⟨"CLK_DOMx_LOOP", 0x410, 0x40, 3, 0, 1, 0x3FF01FF, 0, 0, 0, 0, 0, 1, 0⟩,
  ⟨"CLK_DOMx_STATUS", 0x414, 0x40, 3, 0, 1, 0, 0, 0, 0, 0, 0xFF00000, 1, 0⟩,
  ⟨"CLK_DOMx_PHASE", 0x418, 0x40, 3, 0, 1, 0, 0, 0, 0, 0, 0, 1, 0⟩,
  ⟨"CLK_DOMx_FREQ", 0x41C, 0x40, 3, 0, 1, 0, 0, 0, 0, 0, 0, 1, 0⟩,
  ⟨"CLK_DOMx_BOFF", 0x420, 0x40, 3, 0, 1, 0, 0, 0, 0, 0, 0, 1, 0⟩,
  ⟨"CLK_DOMx_DIVERGE", 0x424, 0x40, 3, 0, 1, 0, 0, 0, 0, 0, 0, 1, 0⟩,
  ⟨"CLK_DOMx_HOLD", 0x428, 0x40, 3, 0, 1, 0, 0, 0, 0, 0, 0, 1, 0⟩,
  ⟨"CLK_DOMx_COUNT", 0x42C, 0x40, 3, 0, 1, 0, 0, 0, 0, 0xFFFFFFFF, 0, 1, 0⟩,
  ⟨"CLK_DOMx_INT_STATUS", 0x430, 0x40, 3, 0, 1, 0, 0, 0x7FF, 0, 0, 0, 1, 0⟩,
  ⟨"CLK_DOMx_INT_ENABLE", 0x434, 0x40, 3, 0, 1, 0x7FF, 0, 0, 0, 0, 0, 1, 0⟩,
  ⟨"CLK_OUTo_CFG", 0x600, 0x10, 7, 0, 1, 0xC0000037, 0, 0, 0, 0, 0, 1, 0⟩,
  ⟨"CLK_OUTo_PERIOD", 0x644, 0x10, 2, 0, 1, 0xFFFFFFFF, 0, 0, 0, 0, 0, 1, 0⟩,
  ⟨"CLK_OUTo_CTRL", 0x608, 0x10, 7, 0, 1, 0xFFFFFF03, 0, 0, 0x4, 0, 0, 1, 0⟩,
  ⟨"CLK_OUTo_OFFSET", 0x60C, 0x10, 7, 0, 1, 0, 0, 0, 0, 0, 0x80000000, 1, 0⟩]

/-- The register map of block TIME (11 R318). -/
def time : List RegDesc := [
  ⟨"TIME_INFO", 0, 0, 1, 0, 1, 0, 0, 0, 0, 0, 0x20004, 1, 0⟩,
  ⟨"TIME_SNAP", 0x4, 0, 1, 0, 1, 0, 0, 0, 0x1, 0, 0, 1, 0⟩,
  ⟨"TIME_INT_SUM", 0x8, 0, 1, 0, 1, 0, 0, 0, 0, 0, 0, 1, 0⟩,
  ⟨"TBn_CTRL", 0x100, 0x80, 4, 0, 1, 0x10, 0, 0, 0, 0, 0, 1, 0⟩,
  ⟨"TBn_STATUS", 0x104, 0x80, 4, 0, 1, 0, 0, 0, 0, 0, 0, 1, 0⟩,
  ⟨"TBn_ADJ", 0x108, 0x80, 4, 0, 1, 0xFFFFFFFF, 0, 0, 0, 0, 0, 1, 0⟩,
  ⟨"TBn_TIME0", 0x110, 0x80, 4, 0, 1, 0, 0, 0, 0, 0, 0, 4, 0⟩,
  ⟨"TBn_TIME1", 0x114, 0x80, 4, 0, 1, 0, 0, 0, 0, 0, 0, 4, 1⟩,
  ⟨"TBn_TIME2", 0x118, 0x80, 4, 0, 1, 0, 0, 0, 0, 0, 0, 4, 2⟩,
  ⟨"TBn_TIME3", 0x11C, 0x80, 4, 0, 1, 0, 0, 0, 0, 0, 0, 4, 3⟩,
  ⟨"TBn_SET0", 0x120, 0x80, 4, 0, 1, 0xFFFFFFFF, 0, 0, 0, 0, 0, 4, 0⟩,
  ⟨"TBn_SET1", 0x124, 0x80, 4, 0, 1, 0xFFFFFFFF, 0, 0, 0, 0, 0, 4, 1⟩,
  ⟨"TBn_SET2", 0x128, 0x80, 4, 0, 1, 0xFFFFFFFF, 0, 0, 0, 0, 0, 4, 2⟩,
  ⟨"TBn_SET3", 0x12C, 0x80, 4, 0, 1, 0xFFFFFFFF, 0, 0, 0, 0, 0, 4, 3⟩,
  ⟨"TBn_STEP_LO", 0x130, 0x80, 4, 0, 1, 0xFFFFFFFF, 0, 0, 0, 0, 0, 2, 0⟩,
  ⟨"TBn_STEP_HI", 0x134, 0x80, 4, 0, 1, 0xFFFFFFFF, 0, 0, 0, 0, 0, 2, 1⟩,
  ⟨"TBn_MEAS_LO", 0x138, 0x80, 4, 0, 1, 0xFFFFFFFF, 0, 0, 0, 0, 0, 2, 0⟩,
  ⟨"TBn_MEAS_HI", 0x13C, 0x80, 4, 0, 1, 0xFFFFFFFF, 0, 0, 0, 0, 0, 2, 1⟩,
  ⟨"TBn_KP", 0x140, 0x80, 4, 0, 1, 0xFFFFFF, 0, 0, 0, 0, 0, 1, 0⟩,
  ⟨"TBn_KI", 0x144, 0x80, 4, 0, 1, 0xFFFFFF, 0, 0, 0, 0, 0, 1, 0⟩,
  ⟨"TBn_SERVO_CFG", 0x148, 0x80, 4, 0, 1, 0x83FFFF00, 0, 0, 0, 0, 0x80321000, 1, 0⟩,
  ⟨"TBn_THRESH", 0x14C, 0x80, 4, 0, 1, 0xFFFFFFFF, 0, 0, 0, 0, 0x2064064, 1, 0⟩,
  ⟨"TBn_DERIVE", 0x150, 0x80, 4, 0, 1, 0xFFFF00, 0, 0, 0, 0, 0, 1, 0⟩,
  ⟨"TBn_OFFSET", 0x154, 0x80, 4, 0, 1, 0, 0, 0, 0, 0, 0, 1, 0⟩,
  ⟨"TBn_LAST_OFS", 0x158, 0x80, 4, 0, 1, 0, 0, 0, 0, 0, 0, 1, 0⟩,
  ⟨"TBn_COUNT", 0x15C, 0x80, 4, 0, 1, 0, 0, 0, 0, 0xFFFFFFFF, 0, 1, 0⟩,
  ⟨"TBn_INT_STATUS", 0x160, 0x80, 4, 0, 1, 0, 0, 0x7F, 0, 0, 0, 1, 0⟩,
  ⟨"TBn_INT_ENABLE", 0x164, 0x80, 4, 0, 1, 0x7F, 0, 0, 0, 0, 0, 1, 0⟩,
  ⟨"TIME_MACm_CFG", 0x400, 0x40, 2, 0, 1, 0x31, 0, 0, 0, 0, 0, 1, 0⟩,
  ⟨"TIME_MACm_RXMAP", 0x404, 0x40, 2, 0, 1, 0xB0FFB0FF, 0, 0, 0, 0, 0, 1, 0⟩,
  ⟨"TIME_MACm_ASYM_TX", 0x408, 0x40, 2, 0, 1, 0xFFFFFFFF, 0, 0, 0, 0, 0, 1, 0⟩,
  ⟨"TIME_MACm_ASYM_RX", 0x40C, 0x40, 2, 0, 1, 0xFFFFFFFF, 0, 0, 0, 0, 0, 1, 0⟩,
  ⟨"TIME_MACm_CORR", 0x410, 0x40, 2, 0, 1, 0, 0, 0, 0, 0, 0, 1, 0⟩,
  ⟨"TIME_MACm_TXQ_STATUS", 0x414, 0x40, 2, 0, 1, 0, 0, 0, 0, 0, 0, 1, 0⟩,
  ⟨"TIME_MACm_TXQ0", 0x418, 0x40, 2, 0, 1, 0, 0, 0, 0, 0, 0, 1, 0⟩,
  ⟨"TIME_MACm_TXQ1", 0x41C, 0x40, 2, 0, 1, 0, 0, 0, 0, 0, 0, 1, 0⟩,
  ⟨"TIME_MACm_TXQ2", 0x420, 0x40, 2, 0, 1, 0, 0, 0, 0, 0, 0, 1, 0⟩,
  ⟨"TIME_MACm_TXQ3", 0x424, 0x40, 2, 0, 1, 0, 0, 0, 0, 0, 0, 1, 0⟩,
  ⟨"TIME_MACm_TXQ_LOST", 0x428, 0x40, 2, 0, 1, 0, 0, 0, 0, 0xFFFFFFFF, 0, 1, 0⟩,
  ⟨"TIME_MACm_INT_STATUS", 0x42C, 0x40, 2, 0, 1, 0, 0, 0x7, 0, 0, 0, 1, 0⟩,
  ⟨"TIME_MACm_INT_ENABLE", 0x430, 0x40, 2, 0, 1, 0x7, 0, 0, 0, 0, 0, 1, 0⟩]

/-- The register map of block MAC (12 R341). -/
def mac : List RegDesc := [
  ⟨"MACm_INFO", 0, 0, 1, 0, 1, 0, 0, 0, 0, 0, 0x820, 1, 0⟩,
  ⟨"MACm_CFG", 0x4, 0, 1, 0, 1, 0, 0, 0, 0, 0, 0, 1, 0⟩,
  ⟨"MACm_CTRL", 0x8, 0, 1, 0, 1, 0xFF, 0, 0, 0, 0, 0, 1, 0⟩,
  ⟨"MACm_STATUS", 0xC, 0, 1, 0, 1, 0, 0, 0, 0, 0, 0, 1, 0⟩,
  ⟨"MACm_MAXLEN", 0x10, 0, 1, 0, 1, 0x3FFF, 0, 0, 0, 0, 0, 1, 0⟩,
  ⟨"MACm_EEE", 0x14, 0, 1, 0, 1, 0xFF01, 0, 0, 0, 0, 0, 1, 0⟩,
  ⟨"MACm_EEE_TW", 0x18, 0, 1, 0, 1, 0xFFFF, 0, 0, 0, 0, 0, 1, 0⟩,
  ⟨"MACm_GAP", 0x1C, 0, 1, 0, 1, 0, 0, 0, 0, 0, 0, 1, 0⟩,
  ⟨"MACm_TX_AGE", 0x20, 0, 1, 0, 1, 0xFFFF, 0, 0, 0, 0, 0x64, 1, 0⟩,
  ⟨"MACm_RX_SHARE", 0x24, 0, 1, 0, 1, 0xFF, 0, 0, 0, 0, 0x10, 1, 0⟩,
  ⟨"MACm_STA_LO", 0x28, 0, 1, 0, 1, 0xFFFFFFFF, 0, 0, 0, 0, 0, 2, 0⟩,
  ⟨"MACm_STA_HI", 0x2C, 0, 1, 0, 1, 0xFFFF, 0, 0, 0, 0, 0, 2, 1⟩,
  ⟨"MACm_IPV4", 0x30, 0, 1, 0, 1, 0xFFFFFFFF, 0, 0, 0, 0, 0, 1, 0⟩,
  ⟨"MACm_INT_STATUS", 0x34, 0, 1, 0, 1, 0, 0, 0x7F, 0, 0, 0, 1, 0⟩,
  ⟨"MACm_INT_ENABLE", 0x38, 0, 1, 0, 1, 0x7F, 0, 0, 0, 0, 0, 1, 0⟩,
  ⟨"MACm_VID0", 0x40, 0, 1, 0, 1, 0x8FFF8FFF, 0, 0, 0, 0, 0, 1, 0⟩,
  ⟨"MACm_VID1", 0x44, 0, 1, 0, 1, 0x8FFF8FFF, 0, 0, 0, 0, 0, 1, 0⟩,
  ⟨"MACm_VID2", 0x48, 0, 1, 0, 1, 0x8FFF8FFF, 0, 0, 0, 0, 0, 1, 0⟩,
  ⟨"MACm_VID3", 0x4C, 0, 1, 0, 1, 0x8FFF8FFF, 0, 0, 0, 0, 0, 1, 0⟩,
  ⟨"MACm_ADDRk_LO", 0x100, 0x8, 32, 0, 1, 0xFFFFFFFF, 0, 0, 0, 0, 0, 2, 0⟩,
  ⟨"MACm_ADDRk_HI", 0x104, 0x8, 32, 0, 1, 0x8000FFFF, 0, 0, 0, 0, 0, 2, 1⟩,
  ⟨"MACm_RX_OK", 0x200, 0, 1, 0, 1, 0, 0, 0, 0, 0xFFFFFFFF, 0, 1, 0⟩,
  ⟨"MACm_RX_FCS", 0x204, 0, 1, 0, 1, 0, 0, 0, 0, 0xFFFFFFFF, 0, 1, 0⟩,
  ⟨"MACm_RX_RUNT", 0x208, 0, 1, 0, 1, 0, 0, 0, 0, 0xFFFFFFFF, 0, 1, 0⟩,
  ⟨"MACm_RX_TRUNC", 0x20C, 0, 1, 0, 1, 0, 0, 0, 0, 0xFFFFFFFF, 0, 1, 0⟩,
  ⟨"MACm_RX_PAUSE", 0x210, 0, 1, 0, 1, 0, 0, 0, 0, 0xFFFFFFFF, 0, 1, 0⟩,
  ⟨"MACm_RX_FILT", 0x214, 0, 1, 0, 1, 0, 0, 0, 0, 0xFFFFFFFF, 0, 1, 0⟩,
  ⟨"MACm_RX_DROP", 0x218, 0, 1, 0, 1, 0, 0, 0, 0, 0xFFFFFFFF, 0, 1, 0⟩,
  ⟨"MACm_TX_OK", 0x21C, 0, 1, 0, 1, 0, 0, 0, 0, 0xFFFFFFFF, 0, 1, 0⟩,
  ⟨"MACm_TX_TRUNC", 0x220, 0, 1, 0, 1, 0, 0, 0, 0, 0xFFFFFFFF, 0, 1, 0⟩,
  ⟨"MACm_TX_NOFIT", 0x224, 0, 1, 0, 1, 0, 0, 0, 0, 0xFFFFFFFF, 0, 1, 0⟩,
  ⟨"MACm_TX_AGED", 0x228, 0, 1, 0, 1, 0, 0, 0, 0, 0xFFFFFFFF, 0, 1, 0⟩,
  ⟨"MACm_TX_LINKDROP", 0x22C, 0, 1, 0, 1, 0, 0, 0, 0, 0xFFFFFFFF, 0, 1, 0⟩]

/-- The register map of block STRM (12 R342). -/
def strm : List RegDesc := [
  ⟨"STRM_INFO", 0, 0, 1, 0, 1, 0, 0, 0, 0, 0, 0x1000100, 1, 0⟩,
  ⟨"STRM_INT_STATUS", 0x4, 0, 1, 0, 1, 0, 0, 0x3FF, 0, 0, 0, 1, 0⟩,
  ⟨"STRM_INT_ENABLE", 0x8, 0, 1, 0, 1, 0x3FF, 0, 0, 0, 0, 0, 1, 0⟩,
  ⟨"STRM_RXEV0", 0x10, 0, 1, 0, 1, 0, 0, 0xFFFFFFFF, 0, 0, 0, 1, 0⟩,
  ⟨"STRM_RXEV1", 0x14, 0, 1, 0, 1, 0, 0, 0xFFFFFFFF, 0, 0, 0, 1, 0⟩,
  ⟨"STRM_RXEV2", 0x18, 0, 1, 0, 1, 0, 0, 0xFFFFFFFF, 0, 0, 0, 1, 0⟩,
  ⟨"STRM_RXEV3", 0x1C, 0, 1, 0, 1, 0, 0, 0xFFFFFFFF, 0, 0, 0, 1, 0⟩,
  ⟨"STRM_RXEV4", 0x20, 0, 1, 0, 1, 0, 0, 0xFFFFFFFF, 0, 0, 0, 1, 0⟩,
  ⟨"STRM_RXEV5", 0x24, 0, 1, 0, 1, 0, 0, 0xFFFFFFFF, 0, 0, 0, 1, 0⟩,
  ⟨"STRM_RXEV6", 0x28, 0, 1, 0, 1, 0, 0, 0xFFFFFFFF, 0, 0, 0, 1, 0⟩,
  ⟨"STRM_RXEV7", 0x2C, 0, 1, 0, 1, 0, 0, 0xFFFFFFFF, 0, 0, 0, 1, 0⟩,
  ⟨"STRM_TXEV0", 0x30, 0, 1, 0, 1, 0, 0, 0xFFFFFFFF, 0, 0, 0, 1, 0⟩,
  ⟨"STRM_TXEV1", 0x34, 0, 1, 0, 1, 0, 0, 0xFFFFFFFF, 0, 0, 0, 1, 0⟩,
  ⟨"STRM_TXEV2", 0x38, 0, 1, 0, 1, 0, 0, 0xFFFFFFFF, 0, 0, 0, 1, 0⟩,
  ⟨"STRM_TXEV3", 0x3C, 0, 1, 0, 1, 0, 0, 0xFFFFFFFF, 0, 0, 0, 1, 0⟩,
  ⟨"STRM_TXEV4", 0x40, 0, 1, 0, 1, 0, 0, 0xFFFFFFFF, 0, 0, 0, 1, 0⟩,
  ⟨"STRM_TXEV5", 0x44, 0, 1, 0, 1, 0, 0, 0xFFFFFFFF, 0, 0, 0, 1, 0⟩,
  ⟨"STRM_TXEV6", 0x48, 0, 1, 0, 1, 0, 0, 0xFFFFFFFF, 0, 0, 0, 1, 0⟩,
  ⟨"STRM_TXEV7", 0x4C, 0, 1, 0, 1, 0, 0, 0xFFFFFFFF, 0, 0, 0, 1, 0⟩,
  ⟨"STRM_TXn_CFG", 0x1000, 0x40, 256, 0, 1, 0, 0, 0, 0, 0, 0, 1, 0⟩,
  ⟨"STRM_TXn_CTRL", 0x1004, 0x40, 256, 0, 1, 0, 0x1, 0, 0, 0, 0, 1, 0⟩,
  ⟨"STRM_TXn_DST_IP", 0x1008, 0x40, 256, 0, 1, 0xFFFFFFFF, 0, 0, 0, 0, 0, 1, 0⟩,
  ⟨"STRM_TXn_PORTS", 0x100C, 0x40, 256, 0, 1, 0xFFFFFFFF, 0, 0, 0, 0, 0, 1, 0⟩,
  ⟨"STRM_TXn_DMAC_LO", 0x1010, 0x40, 256, 0, 1, 0xFFFFFFFF, 0, 0, 0, 0, 0, 2, 0⟩,
  ⟨"STRM_TXn_DMAC_HI", 0x1014, 0x40, 256, 0, 1, 0xFFFF, 0, 0, 0, 0, 0, 2, 1⟩,
  ⟨"STRM_TXn_TAG", 0x1018, 0x40, 256, 0, 1, 0x8000FFFF, 0, 0, 0, 0, 0, 1, 0⟩,
  ⟨"STRM_TXn_IP", 0x101C, 0x40, 256, 0, 1, 0xFF3F, 0, 0, 0, 0, 0, 1, 0⟩,
  ⟨"STRM_TXn_RTP", 0x1020, 0x40, 256, 0, 1, 0x7F, 0, 0, 0, 0, 0, 1, 0⟩,
  ⟨"STRM_TXn_SSRC", 0x1024, 0x40, 256, 0, 1, 0xFFFFFFFF, 0, 0, 0, 0, 0, 1, 0⟩,
  ⟨"STRM_TXn_OFS", 0x1028, 0x40, 256, 0, 1, 0, 0, 0, 0, 0, 0, 1, 0⟩,
  ⟨"STRM_TXn_STATUS", 0x102C, 0x40, 256, 0, 1, 0, 0, 0, 0, 0, 0, 1, 0⟩,
  ⟨"STRM_TXn_COUNT", 0x1030, 0x40, 256, 0, 1, 0, 0, 0, 0, 0xFFFFFFFF, 0, 1, 0⟩,
  ⟨"STRM_TXn_DST_IP_B", 0x1034, 0x40, 256, 0, 1, 0xFFFFFFFF, 0, 0, 0, 0, 0, 1, 0⟩,
  ⟨"STRM_TXn_DMAC_B_LO", 0x1038, 0x40, 256, 0, 1, 0xFFFFFFFF, 0, 0, 0, 0, 0, 2, 0⟩,
  ⟨"STRM_TXn_DMAC_B_HI", 0x103C, 0x40, 256, 0, 1, 0xFFFF, 0, 0, 0, 0, 0, 2, 1⟩,
  ⟨"STRM_RXn_CFG", 0x5000, 0x40, 256, 0, 1, 0, 0, 0, 0, 0, 0, 1, 0⟩,
  ⟨"STRM_RXn_CTRL", 0x5004, 0x40, 256, 0, 1, 0x2, 0x1, 0, 0, 0, 0, 1, 0⟩,
  ⟨"STRM_RXn_DST_IP", 0x5008, 0x40, 256, 0, 1, 0xFFFFFFFF, 0, 0, 0, 0, 0, 1, 0⟩,
  ⟨"STRM_RXn_PORTS", 0x500C, 0x40, 256, 0, 1, 0xFFFF, 0, 0, 0, 0, 0, 1, 0⟩,
  ⟨"STRM_RXn_SRC_IP", 0x5010, 0x40, 256, 0, 1, 0xFFFFFFFF, 0, 0, 0, 0, 0, 1, 0⟩,
  ⟨"STRM_RXn_DST_IP_B", 0x5014, 0x40, 256, 0, 1, 0xFFFFFFFF, 0, 0, 0, 0, 0, 1, 0⟩,
  ⟨"STRM_RXn_TAG", 0x5018, 0x40, 256, 0, 1, 0x80000FFF, 0, 0, 0, 0, 0, 1, 0⟩,
  ⟨"STRM_RXn_RTP", 0x501C, 0x40, 256, 0, 1, 0x7F, 0, 0, 0, 0, 0, 1, 0⟩,
  ⟨"STRM_RXn_LINK", 0x5020, 0x40, 256, 0, 1, 0xFFFF, 0, 0, 0, 0, 0, 1, 0⟩,
  ⟨"STRM_RXn_TSOFS", 0x5024, 0x40, 256, 0, 1, 0xFFFFFFFF, 0, 0, 0, 0, 0, 1, 0⟩,
  ⟨"STRM_RXn_DEPTH", 0x5028, 0x40, 256, 0, 1, 0, 0, 0, 0, 0, 0, 1, 0⟩,
  ⟨"STRM_RXn_STATUS", 0x502C, 0x40, 256, 0, 1, 0, 0, 0, 0, 0, 0, 1, 0⟩,
  ⟨"STRM_RXn_MARGIN", 0x5030, 0x40, 256, 0, 1, 0, 0, 0, 0, 0xFFFF, 0xFFFF, 1, 0⟩,
  ⟨"STRM_RXn_COUNT0", 0x5034, 0x40, 256, 0, 1, 0, 0, 0, 0, 0xFFFFFFFF, 0, 1, 0⟩,
  ⟨"STRM_RXn_COUNT1", 0x5038, 0x40, 256, 0, 1, 0, 0, 0, 0, 0xFFFFFFFF, 0, 1, 0⟩,
  ⟨"STRM_RXn_COUNT2", 0x503C, 0x40, 256, 0, 1, 0, 0, 0, 0, 0xFFFFFFFF, 0, 1, 0⟩]

/-- The register map of block LANE (13 R359). -/
def lane : List RegDesc := [
  ⟨"LANE_INFO", 0, 0, 1, 0, 1, 0, 0, 0, 0, 0, 0xC, 1, 0⟩,
  ⟨"LANE_INT_SUM", 0x4, 0, 1, 0, 1, 0, 0, 0, 0, 0, 0, 1, 0⟩,
  ⟨"LANE_REFCLK_STATUS", 0x8, 0, 1, 0, 1, 0, 0, 0, 0, 0, 0, 1, 0⟩,
  ⟨"LANEn_CFG", 0x100, 0x80, 12, 0, 1, 0, 0, 0, 0, 0, 0, 1, 0⟩,
  ⟨"LANEn_CTRL", 0x104, 0x80, 12, 0, 1, 0x1F01, 0, 0, 0xC0000000, 0, 0, 1, 0⟩,
  ⟨"LANEn_STATUS", 0x108, 0x80, 12, 0, 1, 0, 0, 0, 0, 0, 0, 1, 0⟩,
  ⟨"LANEn_TXEQ", 0x10C, 0x80, 12, 0, 1, 0, 0, 0, 0, 0, 0, 1, 0⟩,
  ⟨"LANEn_RXEQ", 0x110, 0x80, 12, 0, 1, 0, 0, 0, 0, 0, 0, 1, 0⟩,
  ⟨"LANEn_LOOP", 0x114, 0x80, 12, 0, 1, 0x3, 0, 0, 0, 0, 0, 1, 0⟩,
  ⟨"LANEn_PRBS_CTRL", 0x118, 0x80, 12, 0, 1, 0x3FF, 0, 0, 0, 0, 0, 1, 0⟩,
  ⟨"LANEn_PRBS_STATUS", 0x11C, 0x80, 12, 0, 1, 0, 0, 0, 0, 0, 0, 1, 0⟩,
  ⟨"LANEn_PRBS_ERR", 0x120, 0x80, 12, 0, 1, 0, 0, 0, 0, 0xFFFFFFFF, 0, 1, 0⟩,
  ⟨"LANEn_PRBS_BITS_LO", 0x124, 0x80, 12, 0, 1, 0, 0, 0, 0, 0, 0, 2, 0⟩,
  ⟨"LANEn_PRBS_BITS_HI", 0x128, 0x80, 12, 0, 1, 0, 0, 0, 0, 0, 0, 2, 1⟩,
  ⟨"LANEn_SCAN_CTRL", 0x12C, 0x80, 12, 0, 1, 0x1FFF007F, 0, 0, 0x80000000, 0, 0xA000000, 1, 0⟩,
  ⟨"LANEn_SCAN_STATUS", 0x130, 0x80, 12, 0, 1, 0, 0, 0, 0, 0, 0, 1, 0⟩,
  ⟨"LANEn_SCAN_ERR", 0x134, 0x80, 12, 0, 1, 0, 0, 0, 0, 0, 0, 1, 0⟩,
  ⟨"LANEn_EB", 0x138, 0x80, 12, 0, 1, 0, 0, 0, 0, 0, 0, 1, 0⟩,
  ⟨"LANEn_COUNT", 0x13C, 0x80, 12, 0, 1, 0, 0, 0, 0, 0xFFFFFFFF, 0, 1, 0⟩,
  ⟨"LANEn_INT_STATUS", 0x140, 0x80, 12, 0, 1, 0, 0, 0x1FFF, 0, 0, 0, 1, 0⟩,
  ⟨"LANEn_INT_ENABLE", 0x144, 0x80, 12, 0, 1, 0x1FFF, 0, 0, 0, 0, 0, 1, 0⟩]

/-- The register map of block NRX (14 R380). -/
def nrx : List RegDesc := [
  ⟨"NRX_INFO", 0, 0, 1, 0, 1, 0, 0, 0, 0, 0, 0x4, 1, 0⟩,
  ⟨"NRX_ID", 0x4, 0, 1, 0, 1, 0, 0, 0, 0, 0, 0, 1, 0⟩,
  ⟨"NRX_INT_SUM", 0x8, 0, 1, 0, 1, 0, 0, 0, 0, 0, 0, 1, 0⟩,
  ⟨"NRX_MSG_SHARE", 0xC, 0, 1, 0, 1, 0x3F, 0, 0, 0, 0, 0x10, 1, 0⟩,
  ⟨"NRXk_CFG", 0x100, 0x40, 4, 0, 1, 0, 0, 0, 0, 0, 0, 1, 0⟩,
  ⟨"NRXk_CTRL", 0x104, 0x40, 4, 0, 1, 0x1, 0, 0, 0, 0, 0, 1, 0⟩,
  ⟨"NRXk_STATUS", 0x108, 0x40, 4, 0, 1, 0, 0, 0, 0, 0, 0, 1, 0⟩,
  ⟨"NRXk_DELAY", 0x10C, 0x40, 4, 0, 1, 0, 0, 0, 0, 0, 0, 1, 0⟩,
  ⟨"NRXk_DELAY_MAX", 0x110, 0x40, 4, 0, 1, 0, 0, 0, 0, 0, 0, 1, 0⟩,
  ⟨"NRXk_ASYM", 0x114, 0x40, 4, 0, 1, 0xFFFFFFFF, 0, 0, 0, 0, 0, 1, 0⟩,
  ⟨"NRXk_PEER_ID_LO", 0x118, 0x40, 4, 0, 1, 0, 0, 0, 0, 0, 0, 2, 0⟩,
  ⟨"NRXk_PEER_ID_HI", 0x11C, 0x40, 4, 0, 1, 0, 0, 0, 0, 0, 0, 2, 1⟩,
  ⟨"NRXk_COUNT0", 0x120, 0x40, 4, 0, 1, 0, 0, 0, 0, 0xFFFFFFFF, 0, 1, 0⟩,
  ⟨"NRXk_COUNT1", 0x124, 0x40, 4, 0, 1, 0, 0, 0, 0, 0xFFFFFFFF, 0, 1, 0⟩,
  ⟨"NRXk_COUNT2", 0x128, 0x40, 4, 0, 1, 0, 0, 0, 0, 0xFFFFFFFF, 0, 1, 0⟩,
  ⟨"NRXk_INT_STATUS", 0x12C, 0x40, 4, 0, 1, 0, 0, 0x3FF, 0, 0, 0, 1, 0⟩,
  ⟨"NRXk_INT_ENABLE", 0x130, 0x40, 4, 0, 1, 0x3FF, 0, 0, 0, 0, 0, 1, 0⟩]

/-- The register map of block FOV (15 R402). -/
def fov : List RegDesc := [
  ⟨"FOV_CFG", 0, 0, 1, 0, 1, 0, 0, 0, 0, 0, 0, 1, 0⟩,
  ⟨"FOV_LEASE_CFG", 0x4, 0, 1, 0, 1, 0, 0, 0, 0, 0, 0, 1, 0⟩,
  ⟨"FOV_CTRL", 0x8, 0, 1, 0, 1, 0x101, 0, 0, 0xF0000000, 0, 0, 1, 0⟩,
  ⟨"FOV_STATUS", 0xC, 0, 1, 0, 1, 0, 0, 0, 0, 0, 0x80000000, 1, 0⟩,
  ⟨"FOV_YIELD_AT_LO", 0x10, 0, 1, 0, 1, 0xFFFFFFFF, 0, 0, 0, 0, 0, 2, 0⟩,
  ⟨"FOV_YIELD_AT_HI", 0x14, 0, 1, 0, 1, 0xFFFFFFFF, 0, 0, 0, 0, 0, 2, 1⟩,
  ⟨"FOV_TIMER", 0x18, 0, 1, 0, 1, 0, 0, 0, 0, 0, 0, 1, 0⟩,
  ⟨"FOV_SKEW", 0x1C, 0, 1, 0, 1, 0, 0, 0, 0, 0, 0, 1, 0⟩,
  ⟨"FOV_SWITCH_LO", 0x20, 0, 1, 0, 1, 0, 0, 0, 0, 0, 0, 2, 0⟩,
  ⟨"FOV_SWITCH_HI", 0x24, 0, 1, 0, 1, 0, 0, 0, 0, 0, 0, 2, 1⟩,
  ⟨"FOV_COUNT0", 0x28, 0, 1, 0, 1, 0, 0, 0, 0, 0xFFFFFFFF, 0, 1, 0⟩,
  ⟨"FOV_COUNT1", 0x2C, 0, 1, 0, 1, 0, 0, 0, 0, 0xFFFFFFFF, 0, 1, 0⟩,
  ⟨"FOV_INT_STATUS", 0x30, 0, 1, 0, 1, 0, 0, 0x3FFF, 0, 0, 0, 1, 0⟩,
  ⟨"FOV_INT_ENABLE", 0x34, 0, 1, 0, 1, 0x3FFF, 0, 0, 0, 0, 0, 1, 0⟩]

/-- The register map of block DMC (16 R419). -/
def dmc : List RegDesc := [
  ⟨"DMC_INFO", 0, 0, 1, 0, 1, 0, 0, 0, 0, 0, 0x800, 1, 0⟩,
  ⟨"DMC_CFG", 0x4, 0, 1, 0, 1, 0, 0, 0, 0, 0, 0, 1, 0⟩,
  ⟨"DMC_STATUS", 0x8, 0, 1, 0, 1, 0, 0, 0, 0, 0, 0, 1, 0⟩,
  ⟨"DMC_SIZE_LO", 0xC, 0, 1, 0, 1, 0, 0, 0, 0, 0, 0, 2, 0⟩,
  ⟨"DMC_SIZE_HI", 0x10, 0, 1, 0, 1, 0, 0, 0, 0, 0, 0, 2, 1⟩,
  ⟨"DMC_TRAIN", 0x14, 0, 1, 0, 1, 0, 0, 0, 0, 0, 0, 1, 0⟩,
  ⟨"DMC_SCHED", 0x18, 0, 1, 0, 1, 0xFF00FF0F, 0, 0, 0, 0, 0x20004008, 1, 0⟩,
  ⟨"DMC_REF", 0x1C, 0, 1, 0, 1, 0xF0000, 0, 0, 0, 0, 0, 1, 0⟩,
  ⟨"DMC_REF_STATUS", 0x20, 0, 1, 0, 1, 0, 0, 0, 0, 0, 0, 1, 0⟩,
  ⟨"DMC_RT_CFG", 0x24, 0, 1, 0, 1, 0xFF000F, 0, 0, 0, 0, 0x14000C, 1, 0⟩,
  ⟨"DMC_RT_STATUS", 0x28, 0, 1, 0, 1, 0, 0, 0, 0, 0, 0, 1, 0⟩,
  ⟨"DMC_RT_LEAD_MIN", 0x2C, 0, 1, 0, 1, 0, 0, 0, 0, 0xFFFF, 0xFFFF, 1, 0⟩,
  ⟨"DMC_RETRAIN", 0x30, 0, 1, 0, 1, 0xFF, 0, 0, 0x80000000, 0, 0xA, 1, 0⟩,
  ⟨"DMC_RETRAIN_STATUS", 0x34, 0, 1, 0, 1, 0, 0, 0, 0, 0, 0, 1, 0⟩,
  ⟨"DMC_DRIFT", 0x38, 0, 1, 0, 1, 0, 0, 0, 0, 0, 0, 1, 0⟩,
  ⟨"DMC_ECC_COUNT", 0x3C, 0, 1, 0, 1, 0, 0, 0, 0, 0xFFFFFFFF, 0, 1, 0⟩,
  ⟨"DMC_ECC_ADDR_LO", 0x40, 0, 1, 0, 1, 0, 0, 0, 0, 0, 0, 2, 0⟩,
  ⟨"DMC_ECC_ADDR_HI", 0x44, 0, 1, 0, 1, 0, 0, 0, 0, 0, 0, 2, 1⟩,
  ⟨"DMC_COUNT", 0x48, 0, 1, 0, 1, 0, 0, 0, 0, 0xFFFFFFFF, 0, 1, 0⟩,
  ⟨"DMC_INT_STATUS", 0x4C, 0, 1, 0, 1, 0, 0, 0x1FF, 0, 0, 0, 1, 0⟩,
  ⟨"DMC_INT_ENABLE", 0x50, 0, 1, 0, 1, 0x1FF, 0, 0, 0, 0, 0, 1, 0⟩,
  ⟨"DMC_DLINE_SEL", 0x100, 0, 1, 0, 1, 0x7FF, 0, 0, 0, 0, 0, 1, 0⟩,
  ⟨"DMC_DLINE_CFG", 0x104, 0, 1, 0, 1, 0, 0, 0, 0, 0, 0, 1, 0⟩]

/-- The register map of block DMA (17 R448). -/
def dma : List RegDesc := [
  ⟨"DMA_INFO", 0, 0, 1, 0, 1, 0, 0, 0, 0, 0, 0x20, 1, 0⟩,
  ⟨"DMA_INT_SUM", 0x4, 0, 1, 0, 1, 0, 0, 0, 0, 0, 0, 1, 0⟩,
  ⟨"DMA_CHc_CFG", 0x100, 0x40, 32, 0, 1, 0, 0, 0, 0, 0, 0, 1, 0⟩,
  ⟨"DMA_CHc_CTRL", 0x104, 0x40, 32, 0, 1, 0x701, 0, 0, 0x80000000, 0, 0, 1, 0⟩,
  ⟨"DMA_CHc_STATUS", 0x108, 0x40, 32, 0, 1, 0, 0, 0, 0, 0, 0, 1, 0⟩,
  ⟨"DMA_CHc_RING_LO", 0x10C, 0x40, 32, 0, 1, 0xFFFFFFE0, 0, 0, 0, 0, 0, 2, 0⟩,
  ⟨"DMA_CHc_RING_HI", 0x110, 0x40, 32, 0, 1, 0xF00FF, 0, 0, 0, 0, 0x10000, 2, 1⟩,
  ⟨"DMA_CHc_SW_IDX", 0x114, 0x40, 32, 0, 1, 0xFFFF, 0, 0, 0, 0, 0, 1, 0⟩,
  ⟨"DMA_CHc_HW_IDX", 0x118, 0x40, 32, 0, 1, 0, 0, 0, 0, 0, 0, 1, 0⟩,
  ⟨"DMA_CHc_COUNT0", 0x11C, 0x40, 32, 0, 1, 0, 0, 0, 0, 0xFFFFFFFF, 0, 1, 0⟩,
  ⟨"DMA_CHc_COUNT1", 0x120, 0x40, 32, 0, 1, 0, 0, 0, 0, 0xFFFFFFFF, 0, 1, 0⟩,
  ⟨"DMA_CHc_LAST_ERR", 0x124, 0x40, 32, 0, 1, 0, 0, 0, 0, 0, 0, 1, 0⟩,
  ⟨"DMA_CHc_INT_STATUS", 0x128, 0x40, 32, 0, 1, 0, 0, 0x3FF, 0, 0, 0, 1, 0⟩,
  ⟨"DMA_CHc_INT_ENABLE", 0x12C, 0x40, 32, 0, 1, 0x3FF, 0, 0, 0, 0, 0, 1, 0⟩]

/-- The register map of block XBAR (17 R447). -/
def xbar : List RegDesc := [
  ⟨"XBAR_INFO", 0, 0, 1, 0, 1, 0, 0, 0, 0, 0, 0x60008, 1, 0⟩,
  ⟨"XBAR_CTRL", 0x4, 0, 1, 0, 1, 0xFF01, 0, 0, 0, 0, 0x1000, 1, 0⟩,
  ⟨"XBAR_QOS", 0x8, 0, 1, 0, 1, 0xFFFFF, 0, 0, 0, 0, 0, 1, 0⟩,
  ⟨"XBAR_MSTATUS", 0xC, 0, 1, 0, 1, 0, 0, 0, 0, 0, 0, 1, 0⟩,
  ⟨"XBAR_ERR_ADDR_LO", 0x10, 0, 1, 0, 1, 0, 0, 0, 0, 0, 0, 2, 0⟩,
  ⟨"XBAR_ERR_ADDR_HI", 0x14, 0, 1, 0, 1, 0, 0, 0, 0, 0, 0, 2, 1⟩,
  ⟨"XBAR_ERR_INFO", 0x18, 0, 1, 0, 1, 0, 0, 0, 0, 0, 0, 1, 0⟩,
  ⟨"XBAR_ERR_COUNT", 0x1C, 0, 1, 0, 1, 0, 0, 0, 0, 0xFFFFFFFF, 0, 1, 0⟩,
  ⟨"XBAR_INT_STATUS", 0x20, 0, 1, 0, 1, 0, 0, 0x3, 0, 0, 0, 1, 0⟩,
  ⟨"XBAR_INT_ENABLE", 0x24, 0, 1, 0, 1, 0x3, 0, 0, 0, 0, 0, 1, 0⟩,
  ⟨"XBAR_BWm", 0x40, 0x4, 8, 0, 1, 0, 0, 0, 0, 0xFFFFFFFF, 0, 1, 0⟩]

/-- The register map of block TDM (08 R245). -/
def tdm : List RegDesc := [
  ⟨"TDM_INFO", 0, 0, 1, 0, 1, 0, 0, 0, 0, 0, 0x40010, 1, 0⟩,
  ⟨"TDM_INT_SUM", 0x4, 0, 1, 0, 1, 0, 0, 0, 0, 0, 0, 1, 0⟩,
  ⟨"TDM_GRPg_CFG", 0x100, 0x40, 4, 0, 1, 0, 0, 0, 0, 0, 0, 1, 0⟩,
  ⟨"TDM_GRPg_STATUS", 0x104, 0x40, 4, 0, 1, 0, 0, 0, 0, 0, 0x300, 1, 0⟩,
  ⟨"TDM_GRPg_FMT", 0x108, 0x40, 4, 0, 1, 0xFFFF, 0, 0, 0, 0, 0, 1, 0⟩,
  ⟨"TDM_GRPg_FMT_CTRL", 0x10C, 0x40, 4, 0, 1, 0, 0, 0, 0x1, 0, 0, 1, 0⟩,
  ⟨"TDM_GRPg_QUAL", 0x110, 0x40, 4, 0, 1, 0xFF, 0, 0, 0, 0, 0x71, 1, 0⟩,
  ⟨"TDM_GRPg_RATE_CFG", 0x114, 0x40, 4, 0, 1, 0xFFFF0003, 0, 0, 0, 0, 0x640001, 1, 0⟩,
  ⟨"TDM_GRPg_RATE", 0x118, 0x40, 4, 0, 1, 0, 0, 0, 0, 0, 0, 1, 0⟩,
  ⟨"TDM_GRPg_OFFSET", 0x11C, 0x40, 4, 0, 1, 0, 0, 0, 0, 0, 0, 1, 0⟩,
  ⟨"TDM_GRPg_OFFSET_PK", 0x120, 0x40, 4, 0, 1, 0, 0, 0, 0, 0xFF, 0, 1, 0⟩,
  ⟨"TDM_GRPg_ERR_COUNT", 0x124, 0x40, 4, 0, 1, 0, 0, 0, 0, 0xFFFFFFFF, 0, 1, 0⟩,
  ⟨"TDM_GRPg_OVR_COUNT", 0x128, 0x40, 4, 0, 1, 0, 0, 0, 0, 0xFFFFFFFF, 0, 1, 0⟩,
  ⟨"TDM_GRPg_INT_STATUS", 0x12C, 0x40, 4, 0, 1, 0, 0, 0xFFF, 0, 0, 0, 1, 0⟩,
  ⟨"TDM_GRPg_INT_ENABLE", 0x130, 0x40, 4, 0, 1, 0xFFF, 0, 0, 0, 0, 0, 1, 0⟩,
  ⟨"TDMp_CTRL", 0x400, 0x10, 16, 0, 1, 0, 0x1F, 0, 0, 0, 0, 1, 0⟩,
  ⟨"TDMp_INMASK", 0x404, 0x10, 16, 0, 1, 0, 0xFFFFFFFF, 0, 0, 0, 0, 1, 0⟩,
  ⟨"TDMp_OUTMASK", 0x408, 0x10, 16, 0, 1, 0, 0xFFFFFFFF, 0, 0, 0, 0, 1, 0⟩]

/-- The register map of block AMP (09 R267). -/
def amp : List RegDesc := [
  ⟨"AMP_INFO", 0, 0, 1, 0, 1, 0, 0, 0, 0, 0, 0x200004, 1, 0⟩,
  ⟨"AMP_INT_SUM", 0x4, 0, 1, 0, 1, 0, 0, 0, 0, 0, 0, 1, 0⟩,
  ⟨"AMP_GRPa_CFG", 0x100, 0x40, 4, 0, 1, 0, 0, 0, 0, 0, 0, 1, 0⟩,
  ⟨"AMP_GRPa_CTRL", 0x104, 0x40, 4, 0, 1, 0x3, 0, 0, 0, 0, 0, 1, 0⟩,
  ⟨"AMP_GRPa_STATUS", 0x108, 0x40, 4, 0, 1, 0, 0, 0, 0, 0, 0, 1, 0⟩,
  ⟨"AMP_GRPa_PWM", 0x10C, 0x40, 4, 0, 1, 0, 0, 0, 0, 0, 0, 1, 0⟩,
  ⟨"AMP_GRPa_CM", 0x110, 0x40, 4, 0, 1, 0xFF00FF, 0, 0, 0, 0, 0x140014, 1, 0⟩,
  ⟨"AMP_GRPa_RAIL", 0x114, 0x40, 4, 0, 1, 0, 0, 0, 0, 0, 0, 1, 0⟩,
  ⟨"AMP_GRPa_RAIL_WIN", 0x118, 0x40, 4, 0, 1, 0xFFFFFFFF, 0, 0, 0, 0, 0, 1, 0⟩,
  ⟨"AMP_GRPa_LIMIT", 0x11C, 0x40, 4, 0, 1, 0x1FFFF, 0, 0, 0, 0, 0, 1, 0⟩,
  ⟨"AMP_GRPa_RETRY", 0x120, 0x40, 4, 0, 1, 0xFFFF0F, 0, 0, 0, 0, 0xA3203, 1, 0⟩,
  ⟨"AMP_GRPa_SAFE", 0x124, 0x40, 4, 0, 1, 0x3FF, 0, 0, 0, 0, 0x40, 1, 0⟩,
  ⟨"AMP_GRPa_INT_STATUS", 0x128, 0x40, 4, 0, 1, 0, 0, 0x7F, 0, 0, 0, 1, 0⟩,
  ⟨"AMP_GRPa_INT_ENABLE", 0x12C, 0x40, 4, 0, 1, 0x7F, 0, 0, 0, 0, 0, 1, 0⟩,
  ⟨"AMP_GRPa_OVR_COUNT", 0x130, 0x40, 4, 0, 1, 0, 0, 0, 0, 0xFFFF, 0, 1, 0⟩,
  ⟨"AMPc_CTRL", 0x400, 0x40, 32, 0, 1, 0, 0x1, 0, 0x2, 0, 0, 1, 0⟩,
  ⟨"AMPc_STATUS", 0x404, 0x40, 32, 0, 1, 0, 0, 0, 0, 0, 0, 1, 0⟩,
  ⟨"AMPc_VFS", 0x408, 0x40, 32, 0, 1, 0, 0, 0, 0, 0, 0, 1, 0⟩,
  ⟨"AMPc_ILIM", 0x40C, 0x40, 32, 0, 1, 0xFFFFFF, 0, 0, 0, 0, 0, 1, 0⟩,
  ⟨"AMPc_KV", 0x410, 0x40, 32, 0, 1, 0, 0xFFFFFFFF, 0, 0, 0, 0, 1, 0⟩,
  ⟨"AMPc_KD", 0x414, 0x40, 32, 0, 1, 0, 0xFFFF, 0, 0, 0, 0, 1, 0⟩,
  ⟨"AMPc_CAL_CTRL", 0x418, 0x40, 32, 0, 1, 0x7, 0, 0, 0, 0, 0x7, 1, 0⟩,
  ⟨"AMPc_CAL_VOFF", 0x41C, 0x40, 32, 0, 1, 0, 0, 0, 0, 0, 0, 1, 0⟩,
  ⟨"AMPc_CAL_VGAIN", 0x420, 0x40, 32, 0, 1, 0, 0, 0, 0, 0, 0, 1, 0⟩,
  ⟨"AMPc_CAL_IOFF", 0x424, 0x40, 32, 0, 1, 0, 0, 0, 0, 0, 0, 1, 0⟩,
  ⟨"AMPc_VMEAS", 0x428, 0x40, 32, 0, 1, 0, 0, 0, 0, 0, 0, 1, 0⟩,
  ⟨"AMPc_IMEAS", 0x42C, 0x40, 32, 0, 1, 0, 0, 0, 0, 0, 0, 1, 0⟩,
  ⟨"AMPc_LIMGAIN", 0x430, 0x40, 32, 0, 1, 0, 0, 0, 0, 0, 0x400000, 1, 0⟩,
  ⟨"AMPc_TRIPS", 0x434, 0x40, 32, 0, 1, 0, 0, 0, 0, 0xFFFFFFFF, 0, 1, 0⟩,
  ⟨"AMPc_INT_STATUS", 0x438, 0x40, 32, 0, 1, 0, 0, 0xFF, 0, 0, 0, 1, 0⟩,
  ⟨"AMPc_INT_ENABLE", 0x43C, 0x40, 32, 0, 1, 0xFF, 0, 0, 0, 0, 0, 1, 0⟩]

/-- The register map of block FLC (07 R221). -/
def flc : List RegDesc := [
  ⟨"FLC_INFO", 0, 0, 1, 0, 1, 0, 0, 0, 0, 0, 0x4000050, 1, 0⟩,
  ⟨"FLC_INT_STATUS", 0x4, 0, 1, 0, 1, 0, 0, 0xFF, 0, 0, 0, 1, 0⟩,
  ⟨"FLC_INT_ENABLE", 0x8, 0, 1, 0, 1, 0xFF, 0, 0, 0, 0, 0, 1, 0⟩,
  ⟨"FLC_SAT_COUNT", 0xC, 0, 1, 0, 1, 0, 0, 0, 0, 0xFFFF, 0, 1, 0⟩,
  ⟨"FLC_OVR_COUNT", 0x10, 0, 1, 0, 1, 0, 0, 0, 0, 0xFFFFFFFF, 0, 1, 0⟩,
  ⟨"FLC_ECC_COUNT", 0x14, 0, 1, 0, 1, 0, 0, 0, 0, 0xFFFFFFFF, 0, 1, 0⟩,
  ⟨"FLC_MA_SEL", 0x20, 0, 1, 0, 1, 0x3FF, 0, 0, 0, 0, 0, 1, 0⟩,
  ⟨"FLC_MA_CFG", 0x24, 0, 1, 0, 1, 0, 0x3FFFF, 0, 0, 0, 0, 1, 0⟩,
  ⟨"FLC_MA_SRC", 0x28, 0, 1, 0, 1, 0, 0, 0, 0, 0, 0, 1, 0⟩,
  ⟨"FLC_MA_RES_LO", 0x2C, 0, 1, 0, 1, 0, 0, 0, 0, 0, 0, 2, 0⟩,
  ⟨"FLC_MA_RES_HI", 0x30, 0, 1, 0, 1, 0, 0, 0, 0, 0, 0, 2, 1⟩,
  ⟨"CICn_CFG", 0x1000, 0x20, 80, 0, 1, 0, 0, 0, 0, 0, 0, 1, 0⟩,
  ⟨"CICn_CTRL", 0x1004, 0x20, 80, 0, 1, 0x7F0001, 0, 0, 0x10, 0, 0, 1, 0⟩,
  ⟨"CICn_STATUS", 0x1008, 0x20, 80, 0, 1, 0, 0, 0, 0, 0, 0, 1, 0⟩,
  ⟨"CICn_GD", 0x100C, 0x20, 80, 0, 1, 0xFFFFFFFF, 0, 0, 0, 0, 0, 1, 0⟩,
  ⟨"CICn_OUT", 0x1010, 0x20, 80, 0, 1, 0, 0, 0, 0, 0, 0, 1, 0⟩,
  ⟨"CICn_OVW", 0x1014, 0x20, 80, 0, 1, 0, 0, 0, 0, 0xFFFF, 0, 1, 0⟩,
  ⟨"FIR_COEF", 0x4000, 0x4, 10240, 0, 1, 0xFFFFFF, 0, 0, 0, 0, 0, 1, 0⟩]

/-- The register map of block BRG (07 R222). -/
def brg : List RegDesc := [
  ⟨"BRG_INFO", 0, 0, 1, 0, 1, 0, 0, 0, 0, 0, 0x200, 1, 0⟩,
  ⟨"BRG_INT_STATUS", 0x4, 0, 1, 0, 1, 0, 0, 0xFFFFFFF, 0, 0, 0, 1, 0⟩,
  ⟨"BRG_INT_ENABLE", 0x8, 0, 1, 0, 1, 0xFFFFFFF, 0, 0, 0, 0, 0, 1, 0⟩,
  ⟨"BRG_OVR_COUNT", 0xC, 0, 1, 0, 1, 0, 0, 0, 0, 0xFFFFFFFF, 0, 1, 0⟩,
  ⟨"BRG_ECC_COUNT", 0x10, 0, 1, 0, 1, 0, 0, 0, 0, 0xFFFFFFFF, 0, 1, 0⟩,
  ⟨"BRG_PAIRp_CFG", 0x100, 0x20, 6, 0, 1, 0, 0, 0, 0, 0, 0, 1, 0⟩,
  ⟨"BRG_PAIRp_CTRL", 0x104, 0x20, 6, 0, 1, 0x13, 0, 0, 0x100, 0, 0, 1, 0⟩,
  ⟨"BRG_PAIRp_STATUS", 0x108, 0x20, 6, 0, 1, 0, 0, 0, 0, 0, 0, 1, 0⟩,
  ⟨"BRG_PAIRp_DEV", 0x10C, 0x20, 6, 0, 1, 0, 0, 0, 0, 0, 0, 1, 0⟩,
  ⟨"BRG_PAIRp_PHASE", 0x110, 0x20, 6, 0, 1, 0, 0, 0, 0, 0, 0, 1, 0⟩,
  ⟨"BRG_PAIRp_PHMAX", 0x114, 0x20, 6, 0, 1, 0, 0, 0, 0, 0xFFFF, 0, 1, 0⟩]

/-- The register map of block MTX (06 R199). -/
def mtx : List RegDesc := [
  ⟨"MTX_INFO", 0, 0, 1, 0, 1, 0, 0, 0, 0, 0, 0, 1, 0⟩,
  ⟨"MTX_STATUS", 0x4, 0, 1, 0, 1, 0, 0, 0, 0, 0, 0, 1, 0⟩,
  ⟨"MTX_CTRL", 0x8, 0, 1, 0, 1, 0xFF, 0, 0, 0x10000, 0, 0x10, 1, 0⟩,
  ⟨"MTX_TAKE", 0xC, 0, 1, 0, 1, 0x2, 0, 0, 0x1, 0, 0, 1, 0⟩,
  ⟨"MTX_XFADE", 0x10, 0, 1, 0, 1, 0xFFFF, 0, 0, 0, 0, 0x100, 1, 0⟩,
  ⟨"MTX_TAKE_AT_LO", 0x14, 0, 1, 0, 1, 0xFFFFFFFF, 0, 0, 0, 0, 0, 2, 0⟩,
  ⟨"MTX_TAKE_AT_HI", 0x18, 0, 1, 0, 1, 0xFFFFFFFF, 0, 0, 0, 0, 0, 2, 1⟩,
  ⟨"MTX_TAKE_LAST_LO", 0x1C, 0, 1, 0, 1, 0, 0, 0, 0, 0, 0, 2, 0⟩,
  ⟨"MTX_TAKE_LAST_HI", 0x20, 0, 1, 0, 1, 0, 0, 0, 0, 0, 0, 2, 1⟩,
  ⟨"MTX_DEADLINE", 0x24, 0, 1, 0, 1, 0, 0, 0, 0, 0, 0, 1, 0⟩,
  ⟨"MTX_RQ_NODE", 0x28, 0, 1, 0, 1, 0x3FF03FF, 0, 0, 0, 0, 0, 1, 0⟩,
  ⟨"MTX_RQ_GAIN", 0x2C, 0, 1, 0, 1, 0xFFFFFF, 0, 0, 0, 0, 0, 1, 0⟩,
  ⟨"MTX_RQ_PUSH", 0x30, 0, 1, 0, 1, 0, 0, 0, 0x1FFFF, 0, 0, 1, 0⟩,
  ⟨"MTX_RQ_STATUS", 0x34, 0, 1, 0, 1, 0, 0, 0, 0, 0, 0, 1, 0⟩,
  ⟨"MTX_INT_STATUS", 0x38, 0, 1, 0, 1, 0, 0, 0xFFF, 0, 0, 0, 1, 0⟩,
  ⟨"MTX_INT_ENABLE", 0x3C, 0, 1, 0, 1, 0xFFF, 0, 0, 0, 0, 0, 1, 0⟩,
  ⟨"MTX_SAT_COUNT", 0x40, 0, 1, 0, 1, 0, 0, 0, 0, 0xFFFF, 0, 1, 0⟩,
  ⟨"MTX_OVR_COUNT", 0x44, 0, 1, 0, 1, 0, 0, 0, 0, 0xFFFFFFFF, 0, 1, 0⟩,
  ⟨"MTX_ECC_COUNT", 0x48, 0, 1, 0, 1, 0, 0, 0, 0, 0xFFFFFFFF, 0, 1, 0⟩]

/-- The register map of block RTR (06 R200). -/
def rtr : List RegDesc := [
  ⟨"RTR_INFO", 0, 0, 1, 0, 1, 0, 0, 0, 0, 0, 0, 1, 0⟩,
  ⟨"RTR_STATUS", 0x4, 0, 1, 0, 1, 0, 0, 0, 0, 0, 0, 1, 0⟩,
  ⟨"RTR_CTRL", 0x8, 0, 1, 0, 1, 0x1, 0, 0, 0, 0, 0, 1, 0⟩,
  ⟨"RTR_DESC_SEL", 0xC, 0, 1, 0, 1, 0x11FFF, 0, 0, 0, 0, 0, 1, 0⟩,
  ⟨"RTR_DESC", 0x10, 0, 1, 0, 1, 0, 0, 0, 0, 0, 0, 1, 0⟩,
  ⟨"RTR_INT_STATUS", 0x14, 0, 1, 0, 1, 0, 0, 0xFF, 0, 0, 0, 1, 0⟩,
  ⟨"RTR_INT_ENABLE", 0x18, 0, 1, 0, 1, 0xFF, 0, 0, 0, 0, 0, 1, 0⟩,
  ⟨"RTR_REFUSED", 0x1C, 0, 1, 0, 1, 0, 0, 0, 0, 0, 0, 1, 0⟩,
  ⟨"RTR_OVR_COUNT", 0x20, 0, 1, 0, 1, 0, 0, 0, 0, 0xFFFFFFFF, 0, 1, 0⟩,
  ⟨"RTR_ECC_COUNT", 0x24, 0, 1, 0, 1, 0, 0, 0, 0, 0xFFFFFFFF, 0, 1, 0⟩,
  ⟨"FMPn_CTRL", 0x4000, 0x40, 64, 0, 1, 0, 0x1FF7, 0, 0, 0, 0, 1, 0⟩,
  ⟨"FMPn_RAMP", 0x4004, 0x40, 64, 0, 1, 0xFFFF, 0, 0, 0, 0, 0x40, 1, 0⟩,
  ⟨"FMPn_STATUS", 0x4008, 0x40, 64, 0, 1, 0, 0, 0, 0, 0, 0x30, 1, 0⟩,
  ⟨"FMPn_SRC0", 0x4010, 0x40, 64, 0, 1, 0, 0x800001FF, 0, 0, 0, 0, 1, 0⟩,
  ⟨"FMPn_SRC1", 0x4014, 0x40, 64, 0, 1, 0, 0x800001FF, 0, 0, 0, 0, 1, 0⟩,
  ⟨"FMPn_SRC2", 0x4018, 0x40, 64, 0, 1, 0, 0x800001FF, 0, 0, 0, 0, 1, 0⟩,
  ⟨"FMPn_SRC3", 0x401C, 0x40, 64, 0, 1, 0, 0x800001FF, 0, 0, 0, 0, 1, 0⟩,
  ⟨"FMPn_GAIN0", 0x4020, 0x40, 64, 0, 1, 0, 0xFFFFFF, 0, 0, 0, 0, 1, 0⟩,
  ⟨"FMPn_GAIN1", 0x4024, 0x40, 64, 0, 1, 0, 0xFFFFFF, 0, 0, 0, 0, 1, 0⟩,
  ⟨"FMPn_GAIN2", 0x4028, 0x40, 64, 0, 1, 0, 0xFFFFFF, 0, 0, 0, 0, 1, 0⟩,
  ⟨"FMPn_GAIN3", 0x402C, 0x40, 64, 0, 1, 0, 0xFFFFFF, 0, 0, 0, 0, 1, 0⟩,
  ⟨"FMP_INFO", 0x5000, 0, 1, 0, 1, 0, 0, 0, 0, 0, 0x40, 1, 0⟩,
  ⟨"FMP_SAT_LO", 0x5004, 0, 1, 0, 1, 0, 0, 0xFFFFFFFF, 0, 0, 0, 1, 0⟩,
  ⟨"FMP_SAT_HI", 0x5008, 0, 1, 0, 1, 0, 0, 0xFFFFFFFF, 0, 0, 0, 1, 0⟩,
  ⟨"RTR_ROUTEd", 0x8000, 0x4, 8192, 0, 1, 0, 0x5FFF, 0, 0, 0, 0, 1, 0⟩]

/-- The register map of block ENG (04 R135). -/
def eng : List RegDesc := [
  ⟨"ENG_INFO", 0, 0, 1, 0, 1, 0, 0, 0, 0, 0, 0x22022, 1, 0⟩,
  ⟨"ENG_INT_SUM_LO", 0x4, 0, 1, 0, 1, 0, 0, 0, 0, 0, 0, 1, 0⟩,
  ⟨"ENG_INT_SUM_HI", 0x8, 0, 1, 0, 1, 0, 0, 0, 0, 0, 0, 1, 0⟩,
  ⟨"ENG_SUB0_CTRL", 0x10, 0, 1, 0, 1, 0xFF333F, 0, 0, 0xF0000000, 0, 0x80000, 1, 0⟩,
  ⟨"ENG_SUB0_STATUS", 0x14, 0, 1, 0, 1, 0, 0, 0, 0, 0, 0, 1, 0⟩,
  ⟨"ENG_SUB0_WARM", 0x18, 0, 1, 0, 1, 0xFFFF, 0, 0, 0, 0, 0x4, 1, 0⟩,
  ⟨"ENG_SUB0_CUT_TICK", 0x1C, 0, 1, 0, 1, 0, 0, 0, 0, 0, 0, 1, 0⟩,
  ⟨"ENG_SUB1_CTRL", 0x20, 0, 1, 0, 1, 0xFF333F, 0, 0, 0xF0000000, 0, 0x80000, 1, 0⟩,
  ⟨"ENG_SUB1_STATUS", 0x24, 0, 1, 0, 1, 0, 0, 0, 0, 0, 0, 1, 0⟩,
  ⟨"ENG_SUB1_WARM", 0x28, 0, 1, 0, 1, 0xFFFF, 0, 0, 0, 0, 0x4, 1, 0⟩,
  ⟨"ENG_SUB1_CUT_TICK", 0x2C, 0, 1, 0, 1, 0, 0, 0, 0, 0, 0, 1, 0⟩,
  ⟨"ENG_SUB_INT_STATUS", 0x30, 0, 1, 0, 1, 0, 0, 0xF0F, 0, 0, 0, 1, 0⟩,
  ⟨"ENG_SUB_INT_ENABLE", 0x34, 0, 1, 0, 1, 0xF0F, 0, 0, 0, 0, 0, 1, 0⟩,
  ⟨"ENGn_STATUS", 0x100, 0x100, 34, 0, 1, 0, 0, 0, 0, 0, 0x3000, 1, 0⟩,
  ⟨"ENGn_CTRL", 0x104, 0x100, 34, 0, 1, 0, 0x1, 0, 0, 0, 0, 1, 0⟩,
  ⟨"ENGn_CLK", 0x108, 0x100, 34, 0, 1, 0, 0, 0, 0, 0, 0, 1, 0⟩,
  ⟨"ENGn_PAGE", 0x10C, 0x100, 34, 0, 1, 0, 0, 0, 0x10, 0, 0, 1, 0⟩,
  ⟨"ENGn_PARAM", 0x110, 0x100, 34, 0, 1, 0, 0, 0, 0x10, 0, 0, 1, 0⟩,
  ⟨"ENGn_DEADLINE", 0x114, 0x100, 34, 0, 1, 0, 0, 0, 0, 0, 0, 1, 0⟩,
  ⟨"ENGn_SEGLEN", 0x118, 0x100, 34, 0, 1, 0, 0, 0, 0, 0, 0, 1, 0⟩,
  ⟨"ENGn_CYC_LAST", 0x11C, 0x100, 34, 0, 1, 0, 0, 0, 0, 0, 0, 1, 0⟩,
  ⟨"ENGn_SLACK_MIN", 0x120, 0x100, 34, 0, 1, 0, 0, 0, 0, 0xFFFFF, 0xFFFFF, 1, 0⟩,
  ⟨"ENGn_OVR_COUNT", 0x124, 0x100, 34, 0, 1, 0, 0, 0, 0, 0xFFFFFFFF, 0, 1, 0⟩,
  ⟨"ENGn_ECC_COUNT", 0x128, 0x100, 34, 0, 1, 0, 0, 0, 0, 0xFFFFFFFF, 0, 1, 0⟩,
  ⟨"ENGn_INT_STATUS", 0x12C, 0x100, 34, 0, 1, 0, 0, 0x7FF, 0, 0, 0, 1, 0⟩,
  ⟨"ENGn_INT_ENABLE", 0x130, 0x100, 34, 0, 1, 0x7FF, 0, 0, 0, 0, 0, 1, 0⟩,
  ⟨"ENGn_GATE", 0x134, 0x100, 34, 0, 1, 0, 0, 0, 0, 0, 0, 1, 0⟩,
  ⟨"ENGn_TICK_LO", 0x138, 0x100, 34, 0, 1, 0, 0, 0, 0, 0, 0, 2, 0⟩,
  ⟨"ENGn_TICK_HI", 0x13C, 0x100, 34, 0, 1, 0, 0, 0, 0, 0, 0, 2, 1⟩]

/-- The register map of block DRG (20 R520). -/
def drg : List RegDesc := [
  ⟨"DRG_CTRL", 0, 0, 1, 0, 1, 0x3, 0, 0, 0, 0, 0, 1, 0⟩,
  ⟨"DRG_SRAM_PERIOD", 0x4, 0, 1, 0, 1, 0xFFF, 0, 0, 0, 0, 0, 1, 0⟩,
  ⟨"DRG_DRAM_PERIOD", 0x8, 0, 1, 0, 1, 0x7FF, 0, 0, 0, 0, 0, 1, 0⟩,
  ⟨"DRG_STATUS", 0xC, 0, 1, 0, 1, 0, 0, 0, 0, 0, 0, 1, 0⟩,
  ⟨"DRG_PASS_SRAM", 0x10, 0, 1, 0, 1, 0, 0, 0, 0, 0, 0, 1, 0⟩,
  ⟨"DRG_PASS_DRAM", 0x14, 0, 1, 0, 1, 0, 0, 0, 0, 0, 0, 1, 0⟩,
  ⟨"DRG_COUNT", 0x18, 0, 1, 0, 1, 0, 0, 0, 0, 0xFFFFFFFF, 0, 1, 0⟩,
  ⟨"DRG_INT_STATUS", 0x1C, 0, 1, 0, 1, 0, 0, 0x7, 0, 0, 0, 1, 0⟩,
  ⟨"DRG_INT_ENABLE", 0x20, 0, 1, 0, 1, 0x7, 0, 0, 0, 0, 0, 1, 0⟩]

/-- The register map of block TLM (20 R521). -/
def tlm : List RegDesc := [
  ⟨"TLM_CTRL", 0, 0, 1, 0, 1, 0xFFFF0FFF, 0, 0, 0, 0, 0, 1, 0⟩,
  ⟨"TLM_EN", 0x4, 0, 1, 0, 1, 0x1, 0, 0, 0, 0, 0, 1, 0⟩,
  ⟨"TLM_RING_LO", 0x8, 0, 1, 0, 1, 0xFFFFFFC0, 0, 0, 0, 0, 0, 2, 0⟩,
  ⟨"TLM_RING_HI", 0xC, 0, 1, 0, 1, 0xFF, 0, 0, 0, 0, 0, 2, 1⟩,
  ⟨"TLM_WR_IDX", 0x10, 0, 1, 0, 1, 0, 0, 0, 0, 0, 0, 1, 0⟩,
  ⟨"TLM_COUNT", 0x14, 0, 1, 0, 1, 0, 0, 0, 0, 0xFFFFFFFF, 0, 1, 0⟩,
  ⟨"TLM_TEMPn", 0x20, 0x4, 4, 0, 1, 0, 0, 0, 0, 0, 0, 1, 0⟩,
  ⟨"TLM_TJ", 0x30, 0, 1, 0, 1, 0, 0, 0, 0, 0, 0, 1, 0⟩,
  ⟨"TLM_INT_STATUS", 0x34, 0, 1, 0, 1, 0, 0, 0xF, 0, 0, 0, 1, 0⟩,
  ⟨"TLM_INT_ENABLE", 0x38, 0, 1, 0, 1, 0xF, 0, 0, 0, 0, 0, 1, 0⟩,
  ⟨"TLM_VWINv", 0x100, 0x4, 9, 0, 1, 0xFFFFFFFF, 0, 0, 0, 0, 0, 1, 0⟩,
  ⟨"TLM_VMEASv", 0x140, 0x4, 9, 0, 1, 0, 0, 0, 0, 0, 0, 1, 0⟩,
  ⟨"TLM_ITEMi", 0x200, 0x4, 64, 0, 1, 0xC0FFFFFF, 0, 0, 0, 0, 0, 1, 0⟩]

/-- The register map of block PCIE (18 R478). -/
def pcie : List RegDesc := [
  ⟨"PCIE_STATUS", 0, 0, 1, 0, 1, 0, 0, 0, 0, 0, 0, 1, 0⟩,
  ⟨"PCIE_CFG", 0x4, 0, 1, 0, 1, 0, 0, 0, 0, 0, 0, 1, 0⟩,
  ⟨"PCIE_BAR2_WIN_LO", 0x8, 0, 1, 0, 1, 0xFFFFFFFF, 0, 0, 0, 0, 0, 2, 0⟩,
  ⟨"PCIE_BAR2_WIN_HI", 0xC, 0, 1, 0, 1, 0x3, 0, 0, 0, 0, 0, 2, 1⟩,
  ⟨"PCIE_OB_BASE", 0x10, 0, 1, 0, 1, 0x1FFFFFF, 0, 0, 0, 0, 0, 1, 0⟩,
  ⟨"PCIE_INT_STATUS", 0x14, 0, 1, 0, 1, 0, 0, 0x7F, 0, 0, 0, 1, 0⟩,
  ⟨"PCIE_INT_ENABLE", 0x18, 0, 1, 0, 1, 0x7F, 0, 0, 0, 0, 0, 1, 0⟩,
  ⟨"PCIE_ERR_COUNT", 0x1C, 0, 1, 0, 1, 0, 0, 0, 0, 0xFFFFFFFF, 0, 1, 0⟩,
  ⟨"PCIE_REQ_ERR", 0x20, 0, 1, 0, 1, 0, 0, 0, 0, 0xFFFFFFFF, 0, 1, 0⟩,
  ⟨"MSIX_TABLE", 0x1000, 0x4, 256, 0, 1, 0xFFFFFFFF, 0, 0, 0, 0, 0, 1, 0⟩,
  ⟨"MSIX_PBA", 0x2000, 0x4, 2, 0, 1, 0, 0, 0, 0, 0, 0, 1, 0⟩]

/-- The register map of block SVC (18 R480). -/
def svc : List RegDesc := [
  ⟨"SVC_CTRL", 0, 0, 1, 0, 1, 0x303, 0, 0, 0, 0, 0x1, 1, 0⟩,
  ⟨"SVC_STATUS", 0x4, 0, 1, 0, 1, 0, 0, 0, 0, 0, 0, 1, 0⟩,
  ⟨"SVC_I2C_CMD", 0x8, 0, 1, 0, 1, 0x7F033F, 0, 0, 0x80000000, 0, 0, 1, 0⟩,
  ⟨"SVC_I2C_DATA", 0xC, 0, 1, 0, 1, 0xFF, 0, 0, 0, 0, 0, 1, 0⟩,
  ⟨"SVC_MDIO_CMD", 0x10, 0, 1, 0, 1, 0x4FFFFFFF, 0, 0, 0x80000000, 0, 0, 1, 0⟩,
  ⟨"SVC_MDIO_DATA", 0x14, 0, 1, 0, 1, 0, 0, 0, 0, 0, 0, 1, 0⟩,
  ⟨"SVC_INT_STATUS", 0x18, 0, 1, 0, 1, 0, 0, 0x1F, 0, 0, 0, 1, 0⟩,
  ⟨"SVC_INT_ENABLE", 0x1C, 0, 1, 0, 1, 0x1F, 0, 0, 0, 0, 0, 1, 0⟩]

/-- The register map of block PAD (18 R479). -/
def pad : List RegDesc := [
  ⟨"PAD_INFO", 0, 0, 1, 0, 1, 0, 0, 0, 0, 0, 0x10, 1, 0⟩,
  ⟨"PAD_GPIO_ROLE", 0x4, 0, 1, 0, 1, 0, 0, 0, 0, 0, 0, 1, 0⟩,
  ⟨"PAD_GPIO_IN", 0x8, 0, 1, 0, 1, 0, 0, 0, 0, 0, 0, 1, 0⟩,
  ⟨"PAD_GPIO_OUT", 0xC, 0, 1, 0, 1, 0xFFFF, 0, 0, 0, 0, 0, 1, 0⟩,
  ⟨"PAD_EV_EDGE", 0x10, 0, 1, 0, 1, 0, 0, 0xFFFF, 0, 0, 0, 1, 0⟩,
  ⟨"PAD_EV_STUCK", 0x14, 0, 1, 0, 1, 0, 0, 0xFFFF, 0, 0, 0, 1, 0⟩,
  ⟨"PAD_EV_CHAT", 0x18, 0, 1, 0, 1, 0, 0, 0xFFFF, 0, 0, 0, 1, 0⟩,
  ⟨"PAD_EN_EDGE", 0x1C, 0, 1, 0, 1, 0xFFFF, 0, 0, 0, 0, 0, 1, 0⟩,
  ⟨"PAD_EN_STUCK", 0x20, 0, 1, 0, 1, 0xFFFF, 0, 0, 0, 0, 0, 1, 0⟩,
  ⟨"PAD_EN_CHAT", 0x24, 0, 1, 0, 1, 0xFFFF, 0, 0, 0, 0, 0, 1, 0⟩,
  ⟨"PAD_GPIO_ACCEPT", 0x30, 0, 1, 0, 1, 0, 0, 0, 0, 0, 0, 1, 0⟩,
  ⟨"PAD_GPIOi_COND", 0x100, 0x10, 16, 0, 1, 0xFFF3FFFF, 0, 0, 0, 0, 0, 1, 0⟩,
  ⟨"PAD_GPIOi_STUCK", 0x104, 0x10, 16, 0, 1, 0xFFFF, 0, 0, 0, 0, 0, 1, 0⟩,
  ⟨"PAD_GPIOi_COUNT", 0x108, 0x10, 16, 0, 1, 0, 0, 0, 0, 0xFFFFFFFF, 0, 1, 0⟩]

end Map

/-- The register map of control block `b` of the table of R450; MAC0 and MAC1 share one map. -/
def blockMap : Nat → List RegDesc
  | 0 => Map.glb | 1 => Map.cfg | 2 => Map.evt | 3 => Map.flt | 4 => Map.weir | 5 => Map.clk | 6 => Map.time
  | 7 => Map.mac | 8 => Map.mac | 9 => Map.strm | 10 => Map.lane | 11 => Map.nrx | 12 => Map.fov | 13 => Map.dmc
  | 14 => Map.dma | 15 => Map.xbar | 16 => Map.tdm | 17 => Map.amp | 18 => Map.flc | 19 => Map.brg | 20 => Map.mtx
  | 21 => Map.rtr | 22 => Map.eng | 23 => Map.drg | 24 => Map.tlm | 25 => Map.pcie | 26 => Map.svc | 27 => Map.pad
  | _ => []

/-- Offset `o` is a copy of row `d`. -/
def RegDesc.hits (d : RegDesc) (o : Nat) : Bool :=
  if o < d.off then false else
  let k := o - d.off
  let i := if d.s1 = 0 then 0 else min (k / d.s1) (d.n1 - 1)
  let k' := k - i * d.s1
  let j := if d.s2 = 0 then 0 else min (k' / d.s2) (d.n2 - 1)
  k' - j * d.s2 = 0

/-- The row of the register at a control address; none where no register is assigned (R11). -/
def descAt (addr : Nat) : Option RegDesc := (blockMap (addr / 0x10000)).find? (·.hits (addr % 0x10000))

/-- The reset value of a register (R18, the Reset columns); 0 where no register is assigned. The phase of SE32 and SE33 and the
vector control words of the MSI-X table carry the values of their own tables (R135, R478); the 28 KiB of FIR coefficients
and every image field read their silicon default until a load (R18), which is 0 but for TLM_CTRL.tj_warn (20 R521). -/
def resetValue (addr : Nat) : Word :=
  if addr = 0x162100 ∨ addr = 0x162200 then 0x3800
  else if addr = 0x180000 then 0x64
  else if 0x191000 ≤ addr ∧ addr < 0x191400 ∧ addr % 16 = 12 then 1
  else match descAt addr with
    | some d => BitVec.ofNat 32 d.reset
    | none => 0

namespace R

/-- R106: Load and sequencer state -/
def CFG_STATUS : Nat := 0x10000
def CFG_STATUS_held_count : FieldAt := ⟨CFG_STATUS, 8, 4⟩
def CFG_STATUS_pending : FieldAt := ⟨CFG_STATUS, 7, 1⟩
def CFG_STATUS_seq : FieldAt := ⟨CFG_STATUS, 4, 3⟩
def CFG_STATUS_loaded : FieldAt := ⟨CFG_STATUS, 0, 1⟩
/-- R106: Result of the last load -/
def CFG_LOAD_STATUS : Nat := 0x10004
/-- R106: build_id[31:0] -/
def CFG_IMAGE_ID_LO : Nat := 0x10008
/-- R106: build_id[63:32] -/
def CFG_IMAGE_ID_HI : Nat := 0x1000C
/-- R106: sec_version of the loaded image -/
def CFG_SECVER : Nat := 0x10010
/-- R106: Modes in force -/
def CFG_MODE_HELD : Nat := 0x10014
def CFG_MODE_HELD_mode : FieldAt := ⟨CFG_MODE_HELD, 0, 12⟩
/-- R106: Modes requested by software -/
def CFG_MODE_REQ : Nat := 0x10018
def CFG_MODE_REQ_mode : FieldAt := ⟨CFG_MODE_REQ, 0, 12⟩
/-- R106: Modes requested by hardware sources -/
def CFG_MODE_HWREQ : Nat := 0x1001C
def CFG_MODE_HWREQ_mode : FieldAt := ⟨CFG_MODE_HWREQ, 0, 12⟩
/-- R106: Take timing and abort -/
def CFG_TAKE_CTRL : Nat := 0x10020
def CFG_TAKE_CTRL_abort : FieldAt := ⟨CFG_TAKE_CTRL, 1, 1⟩
def CFG_TAKE_CTRL_at_en : FieldAt := ⟨CFG_TAKE_CTRL, 0, 1⟩
/-- R106: Take sample number [31:0] -/
def CFG_TAKE_AT_LO : Nat := 0x10024
/-- R106: Take sample number [63:32] -/
def CFG_TAKE_AT_HI : Nat := 0x10028
/-- R106: Take-domain sample number of the last take [31:0] -/
def CFG_TAKE_LAST_LO : Nat := 0x1002C
/-- R106: Same, [63:32] -/
def CFG_TAKE_LAST_HI : Nat := 0x10030
/-- R106: Refused requests -/
def CFG_REFUSED : Nat := 0x10034
def CFG_REFUSED_group : FieldAt := ⟨CFG_REFUSED, 12, 1⟩
def CFG_REFUSED_mode : FieldAt := ⟨CFG_REFUSED, 0, 12⟩
/-- R106: Sequencer events -/
def CFG_INT_STATUS : Nat := 0x10038
def CFG_INT_STATUS_hw_mode : FieldAt := ⟨CFG_INT_STATUS, 4, 1⟩
def CFG_INT_STATUS_stage_err : FieldAt := ⟨CFG_INT_STATUS, 3, 1⟩
def CFG_INT_STATUS_late : FieldAt := ⟨CFG_INT_STATUS, 2, 1⟩
def CFG_INT_STATUS_refused : FieldAt := ⟨CFG_INT_STATUS, 1, 1⟩
def CFG_INT_STATUS_take_done : FieldAt := ⟨CFG_INT_STATUS, 0, 1⟩
/-- R106: Event enables -/
def CFG_INT_ENABLE : Nat := 0x1003C
/-- R106: Duration of the last completed staging, in µs -/
def CFG_STAGE_TIME : Nat := 0x10040
/-- R106: Image shadow address [31:0] -/
def CFG_SHADOW_BASE_LO : Nat := 0x10044
/-- R106: Image shadow address [39:32] in [7:0] -/
def CFG_SHADOW_BASE_HI : Nat := 0x10048
/-- R106: Register address for the ownership query -/
def CFG_OWNED_ADDR : Nat := 0x1004C
/-- R106: Bits of that register owned by held overlays -/
def CFG_OWNED_MASK : Nat := 0x10050
/-- R106: Hardware request enables -/
def CFG_HWREQ_EN : Nat := 0x10054
def CFG_HWREQ_EN_holdover : FieldAt := ⟨CFG_HWREQ_EN, 1, 1⟩
/-- R135: Engine count and reserves -/
def ENG_INFO : Nat := 0x160000
def ENG_INFO_reserves : FieldAt := ⟨ENG_INFO, 16, 8⟩
def ENG_INFO_first_reserve : FieldAt := ⟨ENG_INFO, 8, 8⟩
def ENG_INFO_engines : FieldAt := ⟨ENG_INFO, 0, 8⟩
/-- R135: Engines 0-31 with an enabled event pending -/
def ENG_INT_SUM_LO : Nat := 0x160004
/-- R135: Engines 32-33 in [1:0] -/
def ENG_INT_SUM_HI : Nat := 0x160008
/-- R135: Substitution control for SE32 -/
def ENG_SUB0_CTRL : Nat := 0x160010
def ENG_SUB0_CTRL_abort : FieldAt := ⟨ENG_SUB0_CTRL, 31, 1⟩
def ENG_SUB0_CTRL_release : FieldAt := ⟨ENG_SUB0_CTRL, 30, 1⟩
def ENG_SUB0_CTRL_cut : FieldAt := ⟨ENG_SUB0_CTRL, 29, 1⟩
def ENG_SUB0_CTRL_start : FieldAt := ⟨ENG_SUB0_CTRL, 28, 1⟩
def ENG_SUB0_CTRL_fail_n : FieldAt := ⟨ENG_SUB0_CTRL, 16, 8⟩
def ENG_SUB0_CTRL_auto_fail : FieldAt := ⟨ENG_SUB0_CTRL, 13, 1⟩
def ENG_SUB0_CTRL_auto_cut : FieldAt := ⟨ENG_SUB0_CTRL, 12, 1⟩
def ENG_SUB0_CTRL_method : FieldAt := ⟨ENG_SUB0_CTRL, 8, 2⟩
def ENG_SUB0_CTRL_target : FieldAt := ⟨ENG_SUB0_CTRL, 0, 6⟩
/-- R135: Substitution state for SE32 -/
def ENG_SUB0_STATUS : Nat := 0x160014
def ENG_SUB0_STATUS_count : FieldAt := ⟨ENG_SUB0_STATUS, 16, 16⟩
def ENG_SUB0_STATUS_target : FieldAt := ⟨ENG_SUB0_STATUS, 8, 6⟩
def ENG_SUB0_STATUS_refused : FieldAt := ⟨ENG_SUB0_STATUS, 5, 1⟩
def ENG_SUB0_STATUS_mismatch : FieldAt := ⟨ENG_SUB0_STATUS, 4, 1⟩
def ENG_SUB0_STATUS_state : FieldAt := ⟨ENG_SUB0_STATUS, 0, 4⟩
/-- R135: Count for state 4, in [15:0]; 0 acts as 1 -/
def ENG_SUB0_WARM : Nat := 0x160018
/-- R135: Tick number [31:0] of the last cut -/
def ENG_SUB0_CUT_TICK : Nat := 0x16001C
/-- R135: Same for SE33 -/
def ENG_SUB1_CTRL : Nat := 0x160020
def ENG_SUB1_CTRL_abort : FieldAt := ⟨ENG_SUB1_CTRL, 31, 1⟩
def ENG_SUB1_CTRL_release : FieldAt := ⟨ENG_SUB1_CTRL, 30, 1⟩
def ENG_SUB1_CTRL_cut : FieldAt := ⟨ENG_SUB1_CTRL, 29, 1⟩
def ENG_SUB1_CTRL_start : FieldAt := ⟨ENG_SUB1_CTRL, 28, 1⟩
def ENG_SUB1_CTRL_fail_n : FieldAt := ⟨ENG_SUB1_CTRL, 16, 8⟩
def ENG_SUB1_CTRL_auto_fail : FieldAt := ⟨ENG_SUB1_CTRL, 13, 1⟩
def ENG_SUB1_CTRL_auto_cut : FieldAt := ⟨ENG_SUB1_CTRL, 12, 1⟩
def ENG_SUB1_CTRL_method : FieldAt := ⟨ENG_SUB1_CTRL, 8, 2⟩
def ENG_SUB1_CTRL_target : FieldAt := ⟨ENG_SUB1_CTRL, 0, 6⟩
/-- R135: Same for SE33 -/
def ENG_SUB1_STATUS : Nat := 0x160024
def ENG_SUB1_STATUS_count : FieldAt := ⟨ENG_SUB1_STATUS, 16, 16⟩
def ENG_SUB1_STATUS_target : FieldAt := ⟨ENG_SUB1_STATUS, 8, 6⟩
def ENG_SUB1_STATUS_refused : FieldAt := ⟨ENG_SUB1_STATUS, 5, 1⟩
def ENG_SUB1_STATUS_mismatch : FieldAt := ⟨ENG_SUB1_STATUS, 4, 1⟩
def ENG_SUB1_STATUS_state : FieldAt := ⟨ENG_SUB1_STATUS, 0, 4⟩
/-- R135: Same for SE33 -/
def ENG_SUB1_WARM : Nat := 0x160028
/-- R135: Same for SE33 -/
def ENG_SUB1_CUT_TICK : Nat := 0x16002C
/-- R135: Substitution events -/
def ENG_SUB_INT_STATUS : Nat := 0x160030
def ENG_SUB_INT_STATUS_sub1 : FieldAt := ⟨ENG_SUB_INT_STATUS, 8, 4⟩
def ENG_SUB_INT_STATUS_mismatch : FieldAt := ⟨ENG_SUB_INT_STATUS, 3, 1⟩
def ENG_SUB_INT_STATUS_aborted : FieldAt := ⟨ENG_SUB_INT_STATUS, 2, 1⟩
def ENG_SUB_INT_STATUS_cut : FieldAt := ⟨ENG_SUB_INT_STATUS, 1, 1⟩
def ENG_SUB_INT_STATUS_ready : FieldAt := ⟨ENG_SUB_INT_STATUS, 0, 1⟩
/-- R135: Enables for those events -/
def ENG_SUB_INT_ENABLE : Nat := 0x160034
/-- R135: State and placement -/
def ENGn_STATUS (n : Nat) : Nat := 0x160100 + 0x100 * n
def ENGn_STATUS_domain (n : Nat) : FieldAt := ⟨ENGn_STATUS n, 14, 2⟩
def ENGn_STATUS_phase (n : Nat) : FieldAt := ⟨ENGn_STATUS n, 12, 2⟩
def ENGn_STATUS_reserve (n : Nat) : FieldAt := ⟨ENGn_STATUS n, 11, 1⟩
def ENGn_STATUS_subst (n : Nat) : FieldAt := ⟨ENGn_STATUS n, 8, 3⟩
def ENGn_STATUS_page (n : Nat) : FieldAt := ⟨ENGn_STATUS n, 7, 1⟩
def ENGn_STATUS_state (n : Nat) : FieldAt := ⟨ENGn_STATUS n, 0, 4⟩
/-- R135: Hold -/
def ENGn_CTRL (n : Nat) : Nat := 0x160104 + 0x100 * n
def ENGn_CTRL_hold (n : Nat) : FieldAt := ⟨ENGn_CTRL n, 0, 1⟩
/-- R135: Clock in MHz, [9:0] -/
def ENGn_CLK (n : Nat) : Nat := 0x160108 + 0x100 * n
/-- R135: Program page control -/
def ENGn_PAGE (n : Nat) : Nat := 0x16010C + 0x100 * n
def ENGn_PAGE_pending (n : Nat) : FieldAt := ⟨ENGn_PAGE n, 8, 1⟩
def ENGn_PAGE_swap (n : Nat) : FieldAt := ⟨ENGn_PAGE n, 4, 1⟩
def ENGn_PAGE_cur (n : Nat) : FieldAt := ⟨ENGn_PAGE n, 0, 1⟩
/-- R135: Parameter page control -/
def ENGn_PARAM (n : Nat) : Nat := 0x160110 + 0x100 * n
def ENGn_PARAM_copy_busy (n : Nat) : FieldAt := ⟨ENGn_PARAM n, 12, 1⟩
def ENGn_PARAM_pending (n : Nat) : FieldAt := ⟨ENGn_PARAM n, 8, 1⟩
def ENGn_PARAM_swap (n : Nat) : FieldAt := ⟨ENGn_PARAM n, 4, 1⟩
def ENGn_PARAM_cur (n : Nat) : FieldAt := ⟨ENGn_PARAM n, 0, 1⟩
/-- R135: Start deadline in engine cycles, [19:0] -/
def ENGn_DEADLINE (n : Nat) : Nat := 0x160114 + 0x100 * n
/-- R135: S, [19:0] -/
def ENGn_SEGLEN (n : Nat) : Nat := 0x160118 + 0x100 * n
/-- R135: Cycles from gate to last commit of the last segment, [19:0] -/
def ENGn_CYC_LAST (n : Nat) : Nat := 0x16011C + 0x100 * n
/-- R135: Least cycles from last commit to the next strobe, [19:0] -/
def ENGn_SLACK_MIN (n : Nat) : Nat := 0x160120 + 0x100 * n
/-- R135: [15:0] ovr_in, [31:16] ovr_out; each saturates -/
def ENGn_OVR_COUNT (n : Nat) : Nat := 0x160124 + 0x100 * n
/-- R135: [15:0] corrected, [31:16] uncorrected; each saturates -/
def ENGn_ECC_COUNT (n : Nat) : Nat := 0x160128 + 0x100 * n
/-- R135: Engine events -/
def ENGn_INT_STATUS (n : Nat) : Nat := 0x16012C + 0x100 * n
def ENGn_INT_STATUS_relocked (n : Nat) : FieldAt := ⟨ENGn_INT_STATUS n, 10, 1⟩
def ENGn_INT_STATUS_page_lost (n : Nat) : FieldAt := ⟨ENGn_INT_STATUS n, 9, 1⟩
def ENGn_INT_STATUS_ecc_uncorr (n : Nat) : FieldAt := ⟨ENGn_INT_STATUS n, 8, 1⟩
def ENGn_INT_STATUS_ecc_corr (n : Nat) : FieldAt := ⟨ENGn_INT_STATUS n, 7, 1⟩
def ENGn_INT_STATUS_ovf (n : Nat) : FieldAt := ⟨ENGn_INT_STATUS n, 6, 1⟩
def ENGn_INT_STATUS_sat (n : Nat) : FieldAt := ⟨ENGn_INT_STATUS n, 5, 1⟩
def ENGn_INT_STATUS_overread (n : Nat) : FieldAt := ⟨ENGn_INT_STATUS n, 4, 1⟩
def ENGn_INT_STATUS_short (n : Nat) : FieldAt := ⟨ENGn_INT_STATUS n, 3, 1⟩
def ENGn_INT_STATUS_late (n : Nat) : FieldAt := ⟨ENGn_INT_STATUS n, 2, 1⟩
def ENGn_INT_STATUS_ovr_out (n : Nat) : FieldAt := ⟨ENGn_INT_STATUS n, 1, 1⟩
def ENGn_INT_STATUS_ovr_in (n : Nat) : FieldAt := ⟨ENGn_INT_STATUS n, 0, 1⟩
/-- R135: Enables for those events -/
def ENGn_INT_ENABLE (n : Nat) : Nat := 0x160130 + 0x100 * n
/-- R135: [15:0] inlets present, [31:16] outlets with credit, for the awaited tick -/
def ENGn_GATE (n : Nat) : Nat := 0x160134 + 0x100 * n
/-- R135: Tick number [31:0] of the last completed segment -/
def ENGn_TICK_LO (n : Nat) : Nat := 0x160138 + 0x100 * n
/-- R135: Same, [63:32]; follows R17 with ENGn_TICK_LO -/
def ENGn_TICK_HI (n : Nat) : Nat := 0x16013C + 0x100 * n
/-- R199: Shape and domain -/
def MTX_INFO : Nat := 0x140000
def MTX_INFO_domain : FieldAt := ⟨MTX_INFO, 30, 2⟩
def MTX_INFO_outputs : FieldAt := ⟨MTX_INFO, 16, 11⟩
def MTX_INFO_inputs : FieldAt := ⟨MTX_INFO, 0, 11⟩
/-- R199: Bank, crossfade, copy and ramp state -/
def MTX_STATUS : Nat := 0x140004
def MTX_STATUS_ramps : FieldAt := ⟨MTX_STATUS, 16, 13⟩
def MTX_STATUS_copy_busy : FieldAt := ⟨MTX_STATUS, 4, 1⟩
def MTX_STATUS_take_pending : FieldAt := ⟨MTX_STATUS, 3, 1⟩
def MTX_STATUS_xfade : FieldAt := ⟨MTX_STATUS, 2, 1⟩
def MTX_STATUS_bank : FieldAt := ⟨MTX_STATUS, 0, 1⟩
/-- R199: Minimum length, copy -/
def MTX_CTRL : Nat := 0x140008
def MTX_CTRL_copy : FieldAt := ⟨MTX_CTRL, 16, 1⟩
def MTX_CTRL_min_len : FieldAt := ⟨MTX_CTRL, 0, 8⟩
/-- R199: Take request and timing -/
def MTX_TAKE : Nat := 0x14000C
def MTX_TAKE_at_en : FieldAt := ⟨MTX_TAKE, 1, 1⟩
def MTX_TAKE_take : FieldAt := ⟨MTX_TAKE, 0, 1⟩
/-- R199: Crossfade length N in samples, [15:0] -/
def MTX_XFADE : Nat := 0x140010
/-- R199: Take sample number [31:0] -/
def MTX_TAKE_AT_LO : Nat := 0x140014
/-- R199: Same, [63:32]; follows R17 -/
def MTX_TAKE_AT_HI : Nat := 0x140018
/-- R199: Sample number of the last take [31:0] -/
def MTX_TAKE_LAST_LO : Nat := 0x14001C
/-- R199: Same, [63:32]; follows R17 -/
def MTX_TAKE_LAST_HI : Nat := 0x140020
/-- R199: Deadline in basin cycles, [19:0] -/
def MTX_DEADLINE : Nat := 0x140024
/-- R199: Ramp node: input in [9:0], output in [25:16] -/
def MTX_RQ_NODE : Nat := 0x140028
/-- R199: Ramp target, s4.19, in [23:0] -/
def MTX_RQ_GAIN : Nat := 0x14002C
/-- R199: Length and gang; the write pushes the command -/
def MTX_RQ_PUSH : Nat := 0x140030
def MTX_RQ_PUSH_gang : FieldAt := ⟨MTX_RQ_PUSH, 16, 1⟩
def MTX_RQ_PUSH_length : FieldAt := ⟨MTX_RQ_PUSH, 0, 16⟩
/-- R199: Queue state -/
def MTX_RQ_STATUS : Nat := 0x140034
def MTX_RQ_STATUS_gang_open : FieldAt := ⟨MTX_RQ_STATUS, 16, 1⟩
def MTX_RQ_STATUS_queued : FieldAt := ⟨MTX_RQ_STATUS, 0, 11⟩
/-- R199: Basin events -/
def MTX_INT_STATUS : Nat := 0x140038
def MTX_INT_STATUS_ecc_uncorr : FieldAt := ⟨MTX_INT_STATUS, 11, 1⟩
def MTX_INT_STATUS_ecc_corr : FieldAt := ⟨MTX_INT_STATUS, 10, 1⟩
def MTX_INT_STATUS_ovr_out : FieldAt := ⟨MTX_INT_STATUS, 9, 1⟩
def MTX_INT_STATUS_ovr_in : FieldAt := ⟨MTX_INT_STATUS, 8, 1⟩
def MTX_INT_STATUS_sat : FieldAt := ⟨MTX_INT_STATUS, 7, 1⟩
def MTX_INT_STATUS_bank_lost : FieldAt := ⟨MTX_INT_STATUS, 6, 1⟩
def MTX_INT_STATUS_rq_bad : FieldAt := ⟨MTX_INT_STATUS, 5, 1⟩
def MTX_INT_STATUS_slot_wait : FieldAt := ⟨MTX_INT_STATUS, 4, 1⟩
def MTX_INT_STATUS_rq_full : FieldAt := ⟨MTX_INT_STATUS, 3, 1⟩
def MTX_INT_STATUS_late : FieldAt := ⟨MTX_INT_STATUS, 2, 1⟩
def MTX_INT_STATUS_xfade_done : FieldAt := ⟨MTX_INT_STATUS, 1, 1⟩
def MTX_INT_STATUS_take_done : FieldAt := ⟨MTX_INT_STATUS, 0, 1⟩
/-- R199: Enables for those events -/
def MTX_INT_ENABLE : Nat := 0x14003C
/-- R199: Saturated output samples, [15:0]; saturates -/
def MTX_SAT_COUNT : Nat := 0x140040
/-- R199: [15:0] absent input groups, [31:16] output groups without credit; each saturates -/
def MTX_OVR_COUNT : Nat := 0x140044
/-- R199: [15:0] corrected, [31:16] uncorrected; each saturates -/
def MTX_ECC_COUNT : Nat := 0x140048
/-- R200: delay_max in [15:0] -/
def RTR_INFO : Nat := 0x150000
/-- R200: [0] hold in force; [1] any route pending; [28:16] delayed channels held -/
def RTR_STATUS : Nat := 0x150004
/-- R200: [0] hold (R189) -/
def RTR_CTRL : Nat := 0x150008
/-- R200: [12:0] number; [16] side, 0 source, 1 destination -/
def RTR_DESC_SEL : Nat := 0x15000C
/-- R200: Descriptor of the selected number -/
def RTR_DESC : Nat := 0x150010
def RTR_DESC_local : FieldAt := ⟨RTR_DESC, 16, 16⟩
def RTR_DESC_rank : FieldAt := ⟨RTR_DESC, 8, 8⟩
def RTR_DESC_domain : FieldAt := ⟨RTR_DESC, 4, 2⟩
def RTR_DESC_class : FieldAt := ⟨RTR_DESC, 0, 4⟩
/-- R200: Router and FMP events -/
def RTR_INT_STATUS : Nat := 0x150014
def RTR_INT_STATUS_fmp_sat : FieldAt := ⟨RTR_INT_STATUS, 7, 1⟩
def RTR_INT_STATUS_fmp_refused : FieldAt := ⟨RTR_INT_STATUS, 6, 1⟩
def RTR_INT_STATUS_ecc_uncorr : FieldAt := ⟨RTR_INT_STATUS, 5, 1⟩
def RTR_INT_STATUS_ecc_corr : FieldAt := ⟨RTR_INT_STATUS, 4, 1⟩
def RTR_INT_STATUS_ovr_out : FieldAt := ⟨RTR_INT_STATUS, 3, 1⟩
def RTR_INT_STATUS_ovr_in : FieldAt := ⟨RTR_INT_STATUS, 2, 1⟩
def RTR_INT_STATUS_refused : FieldAt := ⟨RTR_INT_STATUS, 1, 1⟩
def RTR_INT_STATUS_route_done : FieldAt := ⟨RTR_INT_STATUS, 0, 1⟩
/-- R200: Enables for those events -/
def RTR_INT_ENABLE : Nat := 0x150018
/-- R200: Last refusal: destination in [12:0], reason in [18:16] -/
def RTR_REFUSED : Nat := 0x15001C
/-- R200: [15:0] absent sources, [31:16] groups without credit; each saturates -/
def RTR_OVR_COUNT : Nat := 0x150020
/-- R200: [15:0] corrected, [31:16] uncorrected; each saturates -/
def RTR_ECC_COUNT : Nat := 0x150024
/-- R200: Mode and output -/
def FMPn_CTRL (n : Nat) : Nat := 0x154000 + 0x40 * n
def FMPn_CTRL_out (n : Nat) : FieldAt := ⟨FMPn_CTRL n, 4, 9⟩
def FMPn_CTRL_amp (n : Nat) : FieldAt := ⟨FMPn_CTRL n, 2, 1⟩
def FMPn_CTRL_mode (n : Nat) : FieldAt := ⟨FMPn_CTRL n, 0, 2⟩
/-- R200: Gain ramp length in samples, [15:0] -/
def FMPn_RAMP (n : Nat) : Nat := 0x154004 + 0x40 * n
/-- R200: [0] active; [1] fading; [5:4] domain, 3 for none -/
def FMPn_STATUS (n : Nat) : Nat := 0x154008 + 0x40 * n
/-- R200: [8:0] TDM input channel, port × 32 + channel; [31] enable -/
def FMPn_SRC0 (n : Nat) : Nat := 0x154010 + 0x40 * n
/-- R200: [8:0] TDM input channel, port × 32 + channel; [31] enable -/
def FMPn_SRC1 (n : Nat) : Nat := 0x154014 + 0x40 * n
/-- R200: [8:0] TDM input channel, port × 32 + channel; [31] enable -/
def FMPn_SRC2 (n : Nat) : Nat := 0x154018 + 0x40 * n
/-- R200: [8:0] TDM input channel, port × 32 + channel; [31] enable -/
def FMPn_SRC3 (n : Nat) : Nat := 0x15401C + 0x40 * n
/-- R200: Gain, s4.19, in [23:0] -/
def FMPn_GAIN0 (n : Nat) : Nat := 0x154020 + 0x40 * n
/-- R200: Gain, s4.19, in [23:0] -/
def FMPn_GAIN1 (n : Nat) : Nat := 0x154024 + 0x40 * n
/-- R200: Gain, s4.19, in [23:0] -/
def FMPn_GAIN2 (n : Nat) : Nat := 0x154028 + 0x40 * n
/-- R200: Gain, s4.19, in [23:0] -/
def FMPn_GAIN3 (n : Nat) : Nat := 0x15402C + 0x40 * n
/-- R200: Feed count in [7:0] -/
def FMP_INFO : Nat := 0x155000
/-- R200: Feeds 0-31 that saturated (R195) -/
def FMP_SAT_LO : Nat := 0x155004
/-- R200: Feeds 32-63 -/
def FMP_SAT_HI : Nat := 0x155008
/-- R200: Route of destination d -/
def RTR_ROUTEd (i : Nat) : Nat := 0x158000 + 0x4 * i
def RTR_ROUTEd_pend (i : Nat) : FieldAt := ⟨RTR_ROUTEd i, 31, 1⟩
def RTR_ROUTEd_delayed (i : Nat) : FieldAt := ⟨RTR_ROUTEd i, 16, 1⟩
def RTR_ROUTEd_xf (i : Nat) : FieldAt := ⟨RTR_ROUTEd i, 14, 1⟩
def RTR_ROUTEd_src (i : Nat) : FieldAt := ⟨RTR_ROUTEd i, 0, 13⟩
/-- R221: [31:16] moving-average channels, [7:0] decimators -/
def FLC_INFO : Nat := 0x120000
/-- R221: Filter-chain events -/
def FLC_INT_STATUS : Nat := 0x120004
def FLC_INT_STATUS_ecc_uncorr : FieldAt := ⟨FLC_INT_STATUS, 7, 1⟩
def FLC_INT_STATUS_ecc_corr : FieldAt := ⟨FLC_INT_STATUS, 6, 1⟩
def FLC_INT_STATUS_ovw : FieldAt := ⟨FLC_INT_STATUS, 5, 1⟩
def FLC_INT_STATUS_ovr_out : FieldAt := ⟨FLC_INT_STATUS, 4, 1⟩
def FLC_INT_STATUS_ovr_in : FieldAt := ⟨FLC_INT_STATUS, 3, 1⟩
def FLC_INT_STATUS_sat : FieldAt := ⟨FLC_INT_STATUS, 2, 1⟩
def FLC_INT_STATUS_bank_lost : FieldAt := ⟨FLC_INT_STATUS, 1, 1⟩
def FLC_INT_STATUS_swap_done : FieldAt := ⟨FLC_INT_STATUS, 0, 1⟩
/-- R221: Enables for those events -/
def FLC_INT_ENABLE : Nat := 0x120008
/-- R221: Saturated outputs, [15:0]; saturates -/
def FLC_SAT_COUNT : Nat := 0x12000C
/-- R221: [15:0] absent input barges, [31:16] outputs without credit; each saturates -/
def FLC_OVR_COUNT : Nat := 0x120010
/-- R221: [15:0] corrected, [31:16] uncorrected; each saturates -/
def FLC_ECC_COUNT : Nat := 0x120014
/-- R221: Selected channel, [9:0] -/
def FLC_MA_SEL : Nat := 0x120020
/-- R221: Configuration of the selected channel -/
def FLC_MA_CFG : Nat := 0x120024
def FLC_MA_CFG_mode : FieldAt := ⟨FLC_MA_CFG, 16, 2⟩
def FLC_MA_CFG_blocks : FieldAt := ⟨FLC_MA_CFG, 10, 6⟩
def FLC_MA_CFG_hop : FieldAt := ⟨FLC_MA_CFG, 0, 10⟩
/-- R221: Input of the selected channel -/
def FLC_MA_SRC : Nat := 0x120028
def FLC_MA_SRC_router_src : FieldAt := ⟨FLC_MA_SRC, 31, 1⟩
def FLC_MA_SRC_from_cic : FieldAt := ⟨FLC_MA_SRC, 30, 1⟩
def FLC_MA_SRC_domain : FieldAt := ⟨FLC_MA_SRC, 28, 2⟩
def FLC_MA_SRC_input : FieldAt := ⟨FLC_MA_SRC, 0, 13⟩
/-- R221: Result [31:0] of the selected channel -/
def FLC_MA_RES_LO : Nat := 0x12002C
/-- R221: Result [63:32]; follows R17 with FLC_MA_RES_LO -/
def FLC_MA_RES_HI : Nat := 0x120030
/-- R221: Structure of decimator n -/
def CICn_CFG (n : Nat) : Nat := 0x121000 + 0x20 * n
def CICn_CFG_domain (n : Nat) : FieldAt := ⟨CICn_CFG n, 30, 2⟩
def CICn_CFG_kind (n : Nat) : FieldAt := ⟨CICn_CFG n, 28, 2⟩
def CICn_CFG_fir_en (n : Nat) : FieldAt := ⟨CICn_CFG n, 27, 1⟩
def CICn_CFG_dec2 (n : Nat) : FieldAt := ⟨CICn_CFG n, 26, 1⟩
def CICn_CFG_ratio (n : Nat) : FieldAt := ⟨CICn_CFG n, 18, 8⟩
def CICn_CFG_order (n : Nat) : FieldAt := ⟨CICn_CFG n, 15, 3⟩
def CICn_CFG_pdm (n : Nat) : FieldAt := ⟨CICn_CFG n, 14, 1⟩
def CICn_CFG_current (n : Nat) : FieldAt := ⟨CICn_CFG n, 13, 1⟩
def CICn_CFG_input (n : Nat) : FieldAt := ⟨CICn_CFG n, 0, 13⟩
/-- R221: Swap and DMA -/
def CICn_CTRL (n : Nat) : Nat := 0x121004 + 0x20 * n
def CICn_CTRL_xf_len (n : Nat) : FieldAt := ⟨CICn_CTRL n, 16, 7⟩
def CICn_CTRL_swap (n : Nat) : FieldAt := ⟨CICn_CTRL n, 4, 1⟩
def CICn_CTRL_dma_en (n : Nat) : FieldAt := ⟨CICn_CTRL n, 0, 1⟩
/-- R221: Bank and swap state -/
def CICn_STATUS (n : Nat) : Nat := 0x121008 + 0x20 * n
def CICn_STATUS_taps (n : Nat) : FieldAt := ⟨CICn_STATUS n, 24, 6⟩
def CICn_STATUS_pending (n : Nat) : FieldAt := ⟨CICn_STATUS n, 8, 1⟩
def CICn_STATUS_xfading (n : Nat) : FieldAt := ⟨CICn_STATUS n, 4, 1⟩
def CICn_STATUS_bank (n : Nat) : FieldAt := ⟨CICn_STATUS n, 0, 1⟩
/-- R221: Group delay of each bank -/
def CICn_GD (n : Nat) : Nat := 0x12100C + 0x20 * n
def CICn_GD_gd1 (n : Nat) : FieldAt := ⟨CICn_GD n, 16, 16⟩
def CICn_GD_gd0 (n : Nat) : FieldAt := ⟨CICn_GD n, 0, 16⟩
/-- R221: Latest result -/
def CICn_OUT (n : Nat) : Nat := 0x121010 + 0x20 * n
def CICn_OUT_seq (n : Nat) : FieldAt := ⟨CICn_OUT n, 24, 8⟩
def CICn_OUT_value (n : Nat) : FieldAt := ⟨CICn_OUT n, 0, 24⟩
/-- R221: Overwritten slow results, [15:0]; saturates -/
def CICn_OVW (n : Nat) : Nat := 0x121014 + 0x20 * n
/-- R221: R214 -/
def FIR_COEF (i : Nat) : Nat := 0x124000 + 0x4 * i
/-- R222: Channel-bridges, [15:0] -/
def BRG_INFO : Nat := 0x130000
/-- R222: Bridge events -/
def BRG_INT_STATUS : Nat := 0x130004
def BRG_INT_STATUS_ecc_uncorr : FieldAt := ⟨BRG_INT_STATUS, 27, 1⟩
def BRG_INT_STATUS_ecc_corr : FieldAt := ⟨BRG_INT_STATUS, 26, 1⟩
def BRG_INT_STATUS_ovr_out : FieldAt := ⟨BRG_INT_STATUS, 25, 1⟩
def BRG_INT_STATUS_ovr_in : FieldAt := ⟨BRG_INT_STATUS, 24, 1⟩
/-- R222: Enables for those events -/
def BRG_INT_ENABLE : Nat := 0x130008
/-- R222: [15:0] absent input barges, [31:16] outputs without credit; each saturates -/
def BRG_OVR_COUNT : Nat := 0x13000C
/-- R222: [15:0] corrected, [31:16] uncorrected; each saturates -/
def BRG_ECC_COUNT : Nat := 0x130010
/-- R222: [25:16] channels, 0-512; [5:4] class, 0 D, 1 U2, 2 U4; [0] extended -/
def BRG_PAIRp_CFG (p : Nat) : Nat := 0x130100 + 0x20 * p
/-- R222: Bandwidth, synchronous request, resync -/
def BRG_PAIRp_CTRL (p : Nat) : Nat := 0x130104 + 0x20 * p
def BRG_PAIRp_CTRL_resync (p : Nat) : FieldAt := ⟨BRG_PAIRp_CTRL p, 8, 1⟩
def BRG_PAIRp_CTRL_sync (p : Nat) : FieldAt := ⟨BRG_PAIRp_CTRL p, 4, 1⟩
def BRG_PAIRp_CTRL_bw (p : Nat) : FieldAt := ⟨BRG_PAIRp_CTRL p, 0, 2⟩
/-- R222: [2:0] state: 0 idle, 1 acquiring, 2 locked, 3 synchronous, 4 fading, others reserved -/
def BRG_PAIRp_STATUS (p : Nat) : Nat := 0x130108 + 0x20 * p
/-- R222: Ratio deviation from r0, signed, in parts per 10⁹ -/
def BRG_PAIRp_DEV (p : Nat) : Nat := 0x13010C + 0x20 * p
/-- R222: Phase error, signed, in 1/1024 output sample, [15:0] -/
def BRG_PAIRp_PHASE (p : Nat) : Nat := 0x130110 + 0x20 * p
/-- R222: Largest \|phase error\| while locked, same unit, [15:0] -/
def BRG_PAIRp_PHMAX (p : Nat) : Nat := 0x130114 + 0x20 * p
/-- R245: [23:16] groups, [7:0] ports -/
def TDM_INFO : Nat := 0x100000
/-- R245: [3:0] groups with an enabled event pending -/
def TDM_INT_SUM : Nat := 0x100004
/-- R245: Placement, role and domain -/
def TDM_GRPg_CFG (g : Nat) : Nat := 0x100100 + 0x40 * g
def TDM_GRPg_CFG_assigned (g : Nat) : FieldAt := ⟨TDM_GRPg_CFG g, 7, 1⟩
def TDM_GRPg_CFG_section (g : Nat) : FieldAt := ⟨TDM_GRPg_CFG g, 4, 3⟩
def TDM_GRPg_CFG_master (g : Nat) : FieldAt := ⟨TDM_GRPg_CFG g, 2, 1⟩
def TDM_GRPg_CFG_domain (g : Nat) : FieldAt := ⟨TDM_GRPg_CFG g, 0, 2⟩
/-- R245: Port state -/
def TDM_GRPg_STATUS (g : Nat) : Nat := 0x100104 + 0x40 * g
def TDM_GRPg_STATUS_domain (g : Nat) : FieldAt := ⟨TDM_GRPg_STATUS g, 8, 2⟩
def TDM_GRPg_STATUS_fs_present (g : Nat) : FieldAt := ⟨TDM_GRPg_STATUS g, 5, 1⟩
def TDM_GRPg_STATUS_bclk_present (g : Nat) : FieldAt := ⟨TDM_GRPg_STATUS g, 4, 1⟩
def TDM_GRPg_STATUS_state (g : Nat) : FieldAt := ⟨TDM_GRPg_STATUS g, 0, 3⟩
/-- R245: Held frame format (R227, R237) -/
def TDM_GRPg_FMT (g : Nat) : Nat := 0x100108 + 0x40 * g
def TDM_GRPg_FMT_bclk_inv (g : Nat) : FieldAt := ⟨TDM_GRPg_FMT g, 15, 1⟩
def TDM_GRPg_FMT_delay (g : Nat) : FieldAt := ⟨TDM_GRPg_FMT g, 14, 1⟩
def TDM_GRPg_FMT_fs_inv (g : Nat) : FieldAt := ⟨TDM_GRPg_FMT g, 13, 1⟩
def TDM_GRPg_FMT_fs_shape (g : Nat) : FieldAt := ⟨TDM_GRPg_FMT g, 11, 2⟩
def TDM_GRPg_FMT_slots (g : Nat) : FieldAt := ⟨TDM_GRPg_FMT g, 5, 6⟩
def TDM_GRPg_FMT_slot_w (g : Nat) : FieldAt := ⟨TDM_GRPg_FMT g, 3, 2⟩
def TDM_GRPg_FMT_frame (g : Nat) : FieldAt := ⟨TDM_GRPg_FMT g, 0, 3⟩
/-- R245: Apply and pending -/
def TDM_GRPg_FMT_CTRL (g : Nat) : Nat := 0x10010C + 0x40 * g
def TDM_GRPg_FMT_CTRL_pending (g : Nat) : FieldAt := ⟨TDM_GRPg_FMT_CTRL g, 8, 1⟩
def TDM_GRPg_FMT_CTRL_apply (g : Nat) : FieldAt := ⟨TDM_GRPg_FMT_CTRL g, 0, 1⟩
/-- R245: Error and qualification counts -/
def TDM_GRPg_QUAL (g : Nat) : Nat := 0x100110 + 0x40 * g
def TDM_GRPg_QUAL_qual_n (g : Nat) : FieldAt := ⟨TDM_GRPg_QUAL g, 4, 4⟩
def TDM_GRPg_QUAL_err_max (g : Nat) : FieldAt := ⟨TDM_GRPg_QUAL g, 0, 4⟩
/-- R245: Gate and tolerance -/
def TDM_GRPg_RATE_CFG (g : Nat) : Nat := 0x100114 + 0x40 * g
def TDM_GRPg_RATE_CFG_tol_ppm (g : Nat) : FieldAt := ⟨TDM_GRPg_RATE_CFG g, 16, 16⟩
def TDM_GRPg_RATE_CFG_gate (g : Nat) : FieldAt := ⟨TDM_GRPg_RATE_CFG g, 0, 2⟩
/-- R245: Measured rate (R243) -/
def TDM_GRPg_RATE (g : Nat) : Nat := 0x100118 + 0x40 * g
def TDM_GRPg_RATE_valid (g : Nat) : FieldAt := ⟨TDM_GRPg_RATE g, 31, 1⟩
def TDM_GRPg_RATE_class (g : Nat) : FieldAt := ⟨TDM_GRPg_RATE g, 24, 3⟩
def TDM_GRPg_RATE_rate (g : Nat) : FieldAt := ⟨TDM_GRPg_RATE g, 0, 24⟩
/-- R245: Δ of the last frame, signed, [8:0] -/
def TDM_GRPg_OFFSET (g : Nat) : Nat := 0x10011C + 0x40 * g
/-- R245: Largest \|Δ\| while locked, [7:0] -/
def TDM_GRPg_OFFSET_PK (g : Nat) : Nat := 0x100120 + 0x40 * g
/-- R245: [15:0] frame errors, [31:16] unlocks; each saturates -/
def TDM_GRPg_ERR_COUNT (g : Nat) : Nat := 0x100124 + 0x40 * g
/-- R245: [15:0] capture barges discarded, [31:16] egress barges absent; each saturates -/
def TDM_GRPg_OVR_COUNT (g : Nat) : Nat := 0x100128 + 0x40 * g
/-- R245: Group events -/
def TDM_GRPg_INT_STATUS (g : Nat) : Nat := 0x10012C + 0x40 * g
def TDM_GRPg_INT_STATUS_ovr_out (g : Nat) : FieldAt := ⟨TDM_GRPg_INT_STATUS g, 11, 1⟩
def TDM_GRPg_INT_STATUS_ovr_in (g : Nat) : FieldAt := ⟨TDM_GRPg_INT_STATUS g, 10, 1⟩
def TDM_GRPg_INT_STATUS_fmt_refused (g : Nat) : FieldAt := ⟨TDM_GRPg_INT_STATUS g, 9, 1⟩
def TDM_GRPg_INT_STATUS_fmt_done (g : Nat) : FieldAt := ⟨TDM_GRPg_INT_STATUS g, 8, 1⟩
def TDM_GRPg_INT_STATUS_rate_chg (g : Nat) : FieldAt := ⟨TDM_GRPg_INT_STATUS g, 7, 1⟩
def TDM_GRPg_INT_STATUS_drift (g : Nat) : FieldAt := ⟨TDM_GRPg_INT_STATUS g, 6, 1⟩
def TDM_GRPg_INT_STATUS_rate_mm (g : Nat) : FieldAt := ⟨TDM_GRPg_INT_STATUS g, 5, 1⟩
def TDM_GRPg_INT_STATUS_frame_err (g : Nat) : FieldAt := ⟨TDM_GRPg_INT_STATUS g, 4, 1⟩
def TDM_GRPg_INT_STATUS_fs_lost (g : Nat) : FieldAt := ⟨TDM_GRPg_INT_STATUS g, 3, 1⟩
def TDM_GRPg_INT_STATUS_bclk_lost (g : Nat) : FieldAt := ⟨TDM_GRPg_INT_STATUS g, 2, 1⟩
def TDM_GRPg_INT_STATUS_unlock (g : Nat) : FieldAt := ⟨TDM_GRPg_INT_STATUS g, 1, 1⟩
def TDM_GRPg_INT_STATUS_lock (g : Nat) : FieldAt := ⟨TDM_GRPg_INT_STATUS g, 0, 1⟩
/-- R245: Enables for those events -/
def TDM_GRPg_INT_ENABLE (g : Nat) : Nat := 0x100130 + 0x40 * g
/-- R245: Word widths and release of disabled slots -/
def TDMp_CTRL (p : Nat) : Nat := 0x100400 + 0x10 * p
def TDMp_CTRL_out_hiz (p : Nat) : FieldAt := ⟨TDMp_CTRL p, 4, 1⟩
def TDMp_CTRL_out_w (p : Nat) : FieldAt := ⟨TDMp_CTRL p, 2, 2⟩
def TDMp_CTRL_in_w (p : Nat) : FieldAt := ⟨TDMp_CTRL p, 0, 2⟩
/-- R245: Input slots enabled, bit c for slot c -/
def TDMp_INMASK (p : Nat) : Nat := 0x100404 + 0x10 * p
/-- R245: Output slots enabled, bit c for slot c -/
def TDMp_OUTMASK (p : Nat) : Nat := 0x100408 + 0x10 * p
/-- R267: [23:16] channels, [7:0] groups -/
def AMP_INFO : Nat := 0x110000
/-- R267: [3:0] groups, [31:8] reserved; a group bit is set when an enabled event of the group or its channels is pending -/
def AMP_INT_SUM : Nat := 0x110004
/-- R267: Placement, clocks, pairing -/
def AMP_GRPa_CFG (a : Nat) : Nat := 0x110100 + 0x40 * a
def AMP_GRPa_CFG_btl (a : Nat) : FieldAt := ⟨AMP_GRPa_CFG a, 16, 4⟩
def AMP_GRPa_CFG_fam441 (a : Nat) : FieldAt := ⟨AMP_GRPa_CFG a, 12, 1⟩
def AMP_GRPa_CFG_carrier (a : Nat) : FieldAt := ⟨AMP_GRPa_CFG a, 11, 1⟩
def AMP_GRPa_CFG_assigned (a : Nat) : FieldAt := ⟨AMP_GRPa_CFG a, 7, 1⟩
def AMP_GRPa_CFG_domain (a : Nat) : FieldAt := ⟨AMP_GRPa_CFG a, 0, 2⟩
/-- R267: Enable and trip scope -/
def AMP_GRPa_CTRL (a : Nat) : Nat := 0x110104 + 0x40 * a
def AMP_GRPa_CTRL_sc_grp (a : Nat) : FieldAt := ⟨AMP_GRPa_CTRL a, 1, 1⟩
def AMP_GRPa_CTRL_en (a : Nat) : FieldAt := ⟨AMP_GRPa_CTRL a, 0, 1⟩
/-- R267: Group state -/
def AMP_GRPa_STATUS (a : Nat) : Nat := 0x110108 + 0x40 * a
def AMP_GRPa_STATUS_switching (a : Nat) : FieldAt := ⟨AMP_GRPa_STATUS a, 8, 8⟩
def AMP_GRPa_STATUS_mute (a : Nat) : FieldAt := ⟨AMP_GRPa_STATUS a, 5, 1⟩
def AMP_GRPa_STATUS_hard (a : Nat) : FieldAt := ⟨AMP_GRPa_STATUS a, 4, 1⟩
def AMP_GRPa_STATUS_rail_ok (a : Nat) : FieldAt := ⟨AMP_GRPa_STATUS a, 3, 1⟩
def AMP_GRPa_STATUS_drv_flt (a : Nat) : FieldAt := ⟨AMP_GRPa_STATUS a, 2, 1⟩
def AMP_GRPa_STATUS_drv_en (a : Nat) : FieldAt := ⟨AMP_GRPa_STATUS a, 1, 1⟩
def AMP_GRPa_STATUS_leave (a : Nat) : FieldAt := ⟨AMP_GRPa_STATUS a, 0, 1⟩
/-- R267: [7:0] min_pulse in ns -/
def AMP_GRPa_PWM (a : Nat) : Nat := 0x11010C + 0x40 * a
/-- R267: Boot and ramp lengths -/
def AMP_GRPa_CM (a : Nat) : Nat := 0x110110 + 0x40 * a
def AMP_GRPa_CM_boot_len (a : Nat) : FieldAt := ⟨AMP_GRPa_CM a, 16, 8⟩
def AMP_GRPa_CM_cm_len (a : Nat) : FieldAt := ⟨AMP_GRPa_CM a, 0, 8⟩
/-- R267: [31:16] fs, [15:0] measured vbus; both in 10 mV -/
def AMP_GRPa_RAIL (a : Nat) : Nat := 0x110114 + 0x40 * a
/-- R267: [31:16] ov, [15:0] uv; both in 10 mV -/
def AMP_GRPa_RAIL_WIN (a : Nat) : Nat := 0x110118 + 0x40 * a
/-- R267: Limiter -/
def AMP_GRPa_LIMIT (a : Nat) : Nat := 0x11011C + 0x40 * a
def AMP_GRPa_LIMIT_limit_en (a : Nat) : FieldAt := ⟨AMP_GRPa_LIMIT a, 16, 1⟩
def AMP_GRPa_LIMIT_release (a : Nat) : FieldAt := ⟨AMP_GRPa_LIMIT a, 8, 8⟩
def AMP_GRPa_LIMIT_headroom (a : Nat) : FieldAt := ⟨AMP_GRPa_LIMIT a, 0, 8⟩
/-- R267: Retry policy -/
def AMP_GRPa_RETRY (a : Nat) : Nat := 0x110120 + 0x40 * a
def AMP_GRPa_RETRY_good_s (a : Nat) : FieldAt := ⟨AMP_GRPa_RETRY a, 16, 8⟩
def AMP_GRPa_RETRY_retry_wait (a : Nat) : FieldAt := ⟨AMP_GRPa_RETRY a, 8, 8⟩
def AMP_GRPa_RETRY_retry_max (a : Nat) : FieldAt := ⟨AMP_GRPa_RETRY a, 0, 4⟩
/-- R267: [9:0] safe_ramp in loop periods; 0 acts as 1 -/
def AMP_GRPa_SAFE (a : Nat) : Nat := 0x110124 + 0x40 * a
/-- R267: Group events -/
def AMP_GRPa_INT_STATUS (a : Nat) : Nat := 0x110128 + 0x40 * a
def AMP_GRPa_INT_STATUS_ovr_out (a : Nat) : FieldAt := ⟨AMP_GRPa_INT_STATUS a, 6, 1⟩
def AMP_GRPa_INT_STATUS_cm_refused (a : Nat) : FieldAt := ⟨AMP_GRPa_INT_STATUS a, 5, 1⟩
def AMP_GRPa_INT_STATUS_drv_flt (a : Nat) : FieldAt := ⟨AMP_GRPa_INT_STATUS a, 4, 1⟩
def AMP_GRPa_INT_STATUS_rail_ok (a : Nat) : FieldAt := ⟨AMP_GRPa_INT_STATUS a, 3, 1⟩
def AMP_GRPa_INT_STATUS_rail_ov (a : Nat) : FieldAt := ⟨AMP_GRPa_INT_STATUS a, 2, 1⟩
def AMP_GRPa_INT_STATUS_rail_uv (a : Nat) : FieldAt := ⟨AMP_GRPa_INT_STATUS a, 1, 1⟩
def AMP_GRPa_INT_STATUS_leave_granted (a : Nat) : FieldAt := ⟨AMP_GRPa_INT_STATUS a, 0, 1⟩
/-- R267: Enables for those events -/
def AMP_GRPa_INT_ENABLE (a : Nat) : Nat := 0x11012C + 0x40 * a
/-- R267: [15:0] egress barges absent for channels of the group (R250); saturates -/
def AMP_GRPa_OVR_COUNT (a : Nat) : Nat := 0x110130 + 0x40 * a
/-- R267: Enable and clear -/
def AMPc_CTRL (c : Nat) : Nat := 0x110400 + 0x40 * c
def AMPc_CTRL_clr (c : Nat) : FieldAt := ⟨AMPc_CTRL c, 1, 1⟩
def AMPc_CTRL_en (c : Nat) : FieldAt := ⟨AMPc_CTRL c, 0, 1⟩
/-- R267: Channel state -/
def AMPc_STATUS (c : Nat) : Nat := 0x110404 + 0x40 * c
def AMPc_STATUS_cbc (c : Nat) : FieldAt := ⟨AMPc_STATUS c, 9, 1⟩
def AMPc_STATUS_limiting (c : Nat) : FieldAt := ⟨AMPc_STATUS c, 8, 1⟩
def AMPc_STATUS_retries (c : Nat) : FieldAt := ⟨AMPc_STATUS c, 4, 4⟩
def AMPc_STATUS_state (c : Nat) : FieldAt := ⟨AMPc_STATUS c, 0, 4⟩
/-- R267: [15:0] full-scale peak output in 10 mV -/
def AMPc_VFS (c : Nat) : Nat := 0x110408 + 0x40 * c
/-- R267: Current thresholds -/
def AMPc_ILIM (c : Nat) : Nat := 0x11040C + 0x40 * c
def AMPc_ILIM_cbc_max (c : Nat) : FieldAt := ⟨AMPc_ILIM c, 16, 8⟩
def AMPc_ILIM_i_sc (c : Nat) : FieldAt := ⟨AMPc_ILIM c, 8, 8⟩
def AMPc_ILIM_i_lim (c : Nat) : FieldAt := ⟨AMPc_ILIM c, 0, 8⟩
/-- R267: [15:0] kp, u2.14; [31:16] ki, u0.16 -/
def AMPc_KV (c : Nat) : Nat := 0x110410 + 0x40 * c
/-- R267: [15:0] kd, u2.14 -/
def AMPc_KD (c : Nat) : Nat := 0x110414 + 0x40 * c
/-- R267: [2] i_en, [1] g_en, [0] v_en -/
def AMPc_CAL_CTRL (c : Nat) : Nat := 0x110418 + 0x40 * c
/-- R267: voff, s0.23, [23:0] -/
def AMPc_CAL_VOFF (c : Nat) : Nat := 0x11041C + 0x40 * c
/-- R267: vgain, s0.23, [23:0] -/
def AMPc_CAL_VGAIN (c : Nat) : Nat := 0x110420 + 0x40 * c
/-- R267: ioff, s0.23, [23:0] -/
def AMPc_CAL_IOFF (c : Nat) : Nat := 0x110424 + 0x40 * c
/-- R267: Calibrated v of the last loop period, s0.23, [23:0] -/
def AMPc_VMEAS (c : Nat) : Nat := 0x110428 + 0x40 * c
/-- R267: Calibrated i of the last loop period, s0.23, [23:0] -/
def AMPc_IMEAS (c : Nat) : Nat := 0x11042C + 0x40 * c
/-- R267: g_lim, s1.22, [23:0] -/
def AMPc_LIMGAIN (c : Nat) : Nat := 0x110430 + 0x40 * c
/-- R267: [7:0] trips, [15:8] retries made, [31:16] cbc events; each saturates -/
def AMPc_TRIPS (c : Nat) : Nat := 0x110434 + 0x40 * c
/-- R267: Channel events -/
def AMPc_INT_STATUS (c : Nat) : Nat := 0x110438 + 0x40 * c
def AMPc_INT_STATUS_sat (c : Nat) : FieldAt := ⟨AMPc_INT_STATUS c, 7, 1⟩
def AMPc_INT_STATUS_cal_limit (c : Nat) : FieldAt := ⟨AMPc_INT_STATUS c, 6, 1⟩
def AMPc_INT_STATUS_sense_lost (c : Nat) : FieldAt := ⟨AMPc_INT_STATUS c, 5, 1⟩
def AMPc_INT_STATUS_latched (c : Nat) : FieldAt := ⟨AMPc_INT_STATUS c, 4, 1⟩
def AMPc_INT_STATUS_sc_trip (c : Nat) : FieldAt := ⟨AMPc_INT_STATUS c, 3, 1⟩
def AMPc_INT_STATUS_cbc (c : Nat) : FieldAt := ⟨AMPc_INT_STATUS c, 2, 1⟩
def AMPc_INT_STATUS_stopped (c : Nat) : FieldAt := ⟨AMPc_INT_STATUS c, 1, 1⟩
def AMPc_INT_STATUS_running (c : Nat) : FieldAt := ⟨AMPc_INT_STATUS c, 0, 1⟩
/-- R267: Enables for those events -/
def AMPc_INT_ENABLE (c : Nat) : Nat := 0x11043C + 0x40 * c
/-- R297: [23:16] outputs, [15:8] domains, [7:0] candidates -/
def CLK_INFO : Nat := 0x50000
/-- R297: Global state -/
def CLK_STATUS : Nat := 0x50004
def CLK_STATUS_common : FieldAt := ⟨CLK_STATUS, 8, 3⟩
def CLK_STATUS_hw_holdover : FieldAt := ⟨CLK_STATUS, 6, 1⟩
def CLK_STATUS_osc_warn : FieldAt := ⟨CLK_STATUS, 5, 1⟩
def CLK_STATUS_clk_ok : FieldAt := ⟨CLK_STATUS, 4, 1⟩
/-- R297: OSC_IN offset, signed, in ppb (R296) -/
def CLK_OSC_DEV : Nat := 0x50008
/-- R297: Global events -/
def CLK_INT_STATUS : Nat := 0x5000C
def CLK_INT_STATUS_osc_warn : FieldAt := ⟨CLK_INT_STATUS, 2, 1⟩
def CLK_INT_STATUS_osc_drift : FieldAt := ⟨CLK_INT_STATUS, 1, 1⟩
def CLK_INT_STATUS_holdover_chg : FieldAt := ⟨CLK_INT_STATUS, 0, 1⟩
/-- R297: Enables for those events -/
def CLK_INT_ENABLE : Nat := 0x50010
/-- R297: [2:0] domains, [8] global, with an enabled event pending -/
def CLK_INT_SUM : Nat := 0x50014
/-- R297: Enable and nominal value -/
def CLK_CANDc_CFG (c : Nat) : Nat := 0x50100 + 0x20 * c
def CLK_CANDc_CFG_en (c : Nat) : FieldAt := ⟨CLK_CANDc_CFG c, 31, 1⟩
def CLK_CANDc_CFG_tb (c : Nat) : FieldAt := ⟨CLK_CANDc_CFG c, 27, 2⟩
def CLK_CANDc_CFG_inv (c : Nat) : FieldAt := ⟨CLK_CANDc_CFG c, 26, 1⟩
def CLK_CANDc_CFG_nominal (c : Nat) : FieldAt := ⟨CLK_CANDc_CFG c, 0, 26⟩
/-- R297: Qualification -/
def CLK_CANDc_QUAL (c : Nat) : Nat := 0x50104 + 0x20 * c
def CLK_CANDc_QUAL_miss_max (c : Nat) : FieldAt := ⟨CLK_CANDc_QUAL c, 24, 8⟩
def CLK_CANDc_QUAL_hit_win (c : Nat) : FieldAt := ⟨CLK_CANDc_QUAL c, 16, 8⟩
def CLK_CANDc_QUAL_qual (c : Nat) : FieldAt := ⟨CLK_CANDc_QUAL c, 8, 8⟩
def CLK_CANDc_QUAL_freq_win (c : Nat) : FieldAt := ⟨CLK_CANDc_QUAL c, 0, 8⟩
/-- R297: Drift and cross-check -/
def CLK_CANDc_DRIFT (c : Nat) : Nat := 0x50108 + 0x20 * c
def CLK_CANDc_DRIFT_xc_en (c : Nat) : FieldAt := ⟨CLK_CANDc_DRIFT c, 31, 1⟩
def CLK_CANDc_DRIFT_drift_en (c : Nat) : FieldAt := ⟨CLK_CANDc_DRIFT c, 30, 1⟩
def CLK_CANDc_DRIFT_drift_win (c : Nat) : FieldAt := ⟨CLK_CANDc_DRIFT c, 16, 8⟩
def CLK_CANDc_DRIFT_xc (c : Nat) : FieldAt := ⟨CLK_CANDc_DRIFT c, 8, 8⟩
def CLK_CANDc_DRIFT_drift_max (c : Nat) : FieldAt := ⟨CLK_CANDc_DRIFT c, 0, 8⟩
/-- R297: State and last reason -/
def CLK_CANDc_STATUS (c : Nat) : Nat := 0x5010C + 0x20 * c
def CLK_CANDc_STATUS_reason (c : Nat) : FieldAt := ⟨CLK_CANDc_STATUS c, 28, 4⟩
def CLK_CANDc_STATUS_state (c : Nat) : FieldAt := ⟨CLK_CANDc_STATUS c, 0, 3⟩
/-- R297: Offset from nominal, signed, in ppb -/
def CLK_CANDc_FREQ (c : Nat) : Nat := 0x50110 + 0x20 * c
/-- R297: [31] valid; [15:0] slope, signed, in ppb/s -/
def CLK_CANDc_SLOPE (c : Nat) : Nat := 0x50114 + 0x20 * c
/-- R297: [15:0] misses, [31:16] disqualifications; each saturates -/
def CLK_CANDc_COUNT (c : Nat) : Nat := 0x50118 + 0x20 * c
/-- R297: Structure -/
def CLK_DOMx_CFG (x : Nat) : Nat := 0x50400 + 0x40 * x
def CLK_DOMx_CFG_follow (x : Nat) : FieldAt := ⟨CLK_DOMx_CFG x, 30, 2⟩
def CLK_DOMx_CFG_tb (x : Nat) : FieldAt := ⟨CLK_DOMx_CFG x, 28, 2⟩
def CLK_DOMx_CFG_started (x : Nat) : FieldAt := ⟨CLK_DOMx_CFG x, 27, 1⟩
def CLK_DOMx_CFG_rate (x : Nat) : FieldAt := ⟨CLK_DOMx_CFG x, 0, 3⟩
/-- R297: Priority of candidates 0-7, bits [4c+3:4c] -/
def CLK_DOMx_PRIO (x : Nat) : Nat := 0x50404 + 0x40 * x
/-- R297: [3:0] priority of candidate 8 -/
def CLK_DOMx_PRIO_HI (x : Nat) : Nat := 0x50408 + 0x40 * x
/-- R297: Selection and switching -/
def CLK_DOMx_CTRL (x : Nat) : Nat := 0x5040C + 0x40 * x
def CLK_DOMx_CTRL_realign (x : Nat) : FieldAt := ⟨CLK_DOMx_CTRL x, 31, 1⟩
def CLK_DOMx_CTRL_force_en (x : Nat) : FieldAt := ⟨CLK_DOMx_CTRL x, 24, 1⟩
def CLK_DOMx_CTRL_force_sel (x : Nat) : FieldAt := ⟨CLK_DOMx_CTRL x, 16, 4⟩
def CLK_DOMx_CTRL_wtr (x : Nat) : FieldAt := ⟨CLK_DOMx_CTRL x, 8, 8⟩
def CLK_DOMx_CTRL_hold (x : Nat) : FieldAt := ⟨CLK_DOMx_CTRL x, 4, 1⟩
def CLK_DOMx_CTRL_step_mode (x : Nat) : FieldAt := ⟨CLK_DOMx_CTRL x, 1, 1⟩
def CLK_DOMx_CTRL_revertive (x : Nat) : FieldAt := ⟨CLK_DOMx_CTRL x, 0, 1⟩
/-- R297: Loop settings -/
def CLK_DOMx_LOOP (x : Nat) : Nat := 0x50410 + 0x40 * x
def CLK_DOMx_LOOP_bw (x : Nat) : FieldAt := ⟨CLK_DOMx_LOOP x, 24, 2⟩
def CLK_DOMx_LOOP_slew_max (x : Nat) : FieldAt := ⟨CLK_DOMx_LOOP x, 16, 8⟩
def CLK_DOMx_LOOP_pt_ppm (x : Nat) : FieldAt := ⟨CLK_DOMx_LOOP x, 0, 9⟩
/-- R297: Domain state -/
def CLK_DOMx_STATUS (x : Nat) : Nat := 0x50414 + 0x40 * x
def CLK_DOMx_STATUS_aligned (x : Nat) : FieldAt := ⟨CLK_DOMx_STATUS x, 31, 1⟩
def CLK_DOMx_STATUS_selected (x : Nat) : FieldAt := ⟨CLK_DOMx_STATUS x, 24, 4⟩
def CLK_DOMx_STATUS_capturing (x : Nat) : FieldAt := ⟨CLK_DOMx_STATUS x, 20, 4⟩
def CLK_DOMx_STATUS_stage (x : Nat) : FieldAt := ⟨CLK_DOMx_STATUS x, 16, 3⟩
def CLK_DOMx_STATUS_ramp (x : Nat) : FieldAt := ⟨CLK_DOMx_STATUS x, 15, 1⟩
def CLK_DOMx_STATUS_clamp (x : Nat) : FieldAt := ⟨CLK_DOMx_STATUS x, 14, 1⟩
def CLK_DOMx_STATUS_realign_pending (x : Nat) : FieldAt := ⟨CLK_DOMx_STATUS x, 13, 1⟩
def CLK_DOMx_STATUS_state (x : Nat) : FieldAt := ⟨CLK_DOMx_STATUS x, 0, 3⟩
/-- R297: Phase error, signed, in ps -/
def CLK_DOMx_PHASE (x : Nat) : Nat := 0x50418 + 0x40 * x
/-- R297: Media-clock offset, signed, in ppb -/
def CLK_DOMx_FREQ (x : Nat) : Nat := 0x5041C + 0x40 * x
/-- R297: Build-out offset, signed, in ps -/
def CLK_DOMx_BOFF (x : Nat) : Nat := 0x50420 + 0x40 * x
/-- R297: [31] big: \|divergence\| ≥ 2^20 samples; [30:0] signed, 1/1024 sample, saturating -/
def CLK_DOMx_DIVERGE (x : Nat) : Nat := 0x50424 + 0x40 * x
/-- R297: Cocoon frequency, signed, in ppb -/
def CLK_DOMx_HOLD (x : Nat) : Nat := 0x50428 + 0x40 * x
/-- R297: [15:0] switches, [31:16] cocoon entries; each saturates -/
def CLK_DOMx_COUNT (x : Nat) : Nat := 0x5042C + 0x40 * x
/-- R297: Domain events -/
def CLK_DOMx_INT_STATUS (x : Nat) : Nat := 0x50430 + 0x40 * x
def CLK_DOMx_INT_STATUS_align_refused (x : Nat) : FieldAt := ⟨CLK_DOMx_INT_STATUS x, 10, 1⟩
def CLK_DOMx_INT_STATUS_cand_change (x : Nat) : FieldAt := ⟨CLK_DOMx_INT_STATUS x, 9, 1⟩
def CLK_DOMx_INT_STATUS_force_lost (x : Nat) : FieldAt := ⟨CLK_DOMx_INT_STATUS x, 8, 1⟩
def CLK_DOMx_INT_STATUS_align_lost (x : Nat) : FieldAt := ⟨CLK_DOMx_INT_STATUS x, 7, 1⟩
def CLK_DOMx_INT_STATUS_realigned (x : Nat) : FieldAt := ⟨CLK_DOMx_INT_STATUS x, 6, 1⟩
def CLK_DOMx_INT_STATUS_clamp (x : Nat) : FieldAt := ⟨CLK_DOMx_INT_STATUS x, 5, 1⟩
def CLK_DOMx_INT_STATUS_cocoon_out (x : Nat) : FieldAt := ⟨CLK_DOMx_INT_STATUS x, 4, 1⟩
def CLK_DOMx_INT_STATUS_cocoon_in (x : Nat) : FieldAt := ⟨CLK_DOMx_INT_STATUS x, 3, 1⟩
def CLK_DOMx_INT_STATUS_ref_lost (x : Nat) : FieldAt := ⟨CLK_DOMx_INT_STATUS x, 2, 1⟩
def CLK_DOMx_INT_STATUS_switched (x : Nat) : FieldAt := ⟨CLK_DOMx_INT_STATUS x, 1, 1⟩
def CLK_DOMx_INT_STATUS_locked (x : Nat) : FieldAt := ⟨CLK_DOMx_INT_STATUS x, 0, 1⟩
/-- R297: Enables for those events -/
def CLK_DOMx_INT_ENABLE (x : Nat) : Nat := 0x50434 + 0x40 * x
/-- R297: Source and kind -/
def CLK_OUTo_CFG (o : Nat) : Nat := 0x50600 + 0x10 * o
def CLK_OUTo_CFG_src (o : Nat) : FieldAt := ⟨CLK_OUTo_CFG o, 30, 2⟩
def CLK_OUTo_CFG_align_src (o : Nat) : FieldAt := ⟨CLK_OUTo_CFG o, 4, 2⟩
def CLK_OUTo_CFG_mult (o : Nat) : FieldAt := ⟨CLK_OUTo_CFG o, 0, 3⟩
/-- R297: FP_OUT and LP_OUT: [31:20] den, 1-4095; [19:0] num; other outputs reserved -/
def CLK_OUTo_PERIOD (o : Nat) : Nat := 0x50604 + 0x10 * o
/-- R297: Enable, polarity, width, realign -/
def CLK_OUTo_CTRL (o : Nat) : Nat := 0x50608 + 0x10 * o
def CLK_OUTo_CTRL_width (o : Nat) : FieldAt := ⟨CLK_OUTo_CTRL o, 8, 24⟩
def CLK_OUTo_CTRL_realign (o : Nat) : FieldAt := ⟨CLK_OUTo_CTRL o, 2, 1⟩
def CLK_OUTo_CTRL_inv (o : Nat) : FieldAt := ⟨CLK_OUTo_CTRL o, 1, 1⟩
def CLK_OUTo_CTRL_en (o : Nat) : FieldAt := ⟨CLK_OUTo_CTRL o, 0, 1⟩
/-- R297: Misalignment, signed, in ns; 0x8000_0000 while the alignment source is absent -/
def CLK_OUTo_OFFSET (o : Nat) : Nat := 0x5060C + 0x10 * o
/-- R318: [23:16] MACs, [7:0] time bases -/
def TIME_INFO : Nat := 0x60000
/-- R318: [0] snap (R299) -/
def TIME_SNAP : Nat := 0x60004
/-- R318: [3:0] time bases, [9:8] MACs, with an enabled event pending -/
def TIME_INT_SUM : Nat := 0x60008
/-- R318: Mode and servo hold -/
def TBn_CTRL (n : Nat) : Nat := 0x60100 + 0x80 * n
def TBn_CTRL_servo_hold (n : Nat) : FieldAt := ⟨TBn_CTRL n, 4, 1⟩
def TBn_CTRL_mode (n : Nat) : FieldAt := ⟨TBn_CTRL n, 0, 3⟩
/-- R318: State -/
def TBn_STATUS (n : Nat) : Nat := 0x60104 + 0x80 * n
def TBn_STATUS_locked (n : Nat) : FieldAt := ⟨TBn_STATUS n, 31, 1⟩
def TBn_STATUS_source (n : Nat) : FieldAt := ⟨TBn_STATUS n, 4, 2⟩
def TBn_STATUS_state (n : Nat) : FieldAt := ⟨TBn_STATUS n, 0, 3⟩
/-- R318: Rate adjustment, signed, 2^−16 ppm -/
def TBn_ADJ (n : Nat) : Nat := 0x60108 + 0x80 * n
/-- R318: Time value (R299) -/
def TBn_TIME0 (n : Nat) : Nat := 0x60110 + 0x80 * n
/-- R318: Time value (R299) -/
def TBn_TIME1 (n : Nat) : Nat := 0x60114 + 0x80 * n
/-- R318: Time value (R299) -/
def TBn_TIME2 (n : Nat) : Nat := 0x60118 + 0x80 * n
/-- R318: Time value (R299) -/
def TBn_TIME3 (n : Nat) : Nat := 0x6011C + 0x80 * n
/-- R318: Value to load (R302) -/
def TBn_SET0 (n : Nat) : Nat := 0x60120 + 0x80 * n
/-- R318: Value to load (R302) -/
def TBn_SET1 (n : Nat) : Nat := 0x60124 + 0x80 * n
/-- R318: Value to load (R302) -/
def TBn_SET2 (n : Nat) : Nat := 0x60128 + 0x80 * n
/-- R318: Value to load (R302) -/
def TBn_SET3 (n : Nat) : Nat := 0x6012C + 0x80 * n
/-- R318: Step offset (R302) -/
def TBn_STEP_LO (n : Nat) : Nat := 0x60130 + 0x80 * n
/-- R318: Step offset (R302) -/
def TBn_STEP_HI (n : Nat) : Nat := 0x60134 + 0x80 * n
/-- R318: Measured offset (R303) -/
def TBn_MEAS_LO (n : Nat) : Nat := 0x60138 + 0x80 * n
/-- R318: Measured offset (R303) -/
def TBn_MEAS_HI (n : Nat) : Nat := 0x6013C + 0x80 * n
/-- R318: kp, u8.16 ppb/ns, [23:0] -/
def TBn_KP (n : Nat) : Nat := 0x60140 + 0x80 * n
/-- R318: ki, u8.16 ppb/ns, [23:0] -/
def TBn_KI (n : Nat) : Nat := 0x60144 + 0x80 * n
/-- R318: Servo settings -/
def TBn_SERVO_CFG (n : Nat) : Nat := 0x60148 + 0x80 * n
def TBn_SERVO_CFG_step_en (n : Nat) : FieldAt := ⟨TBn_SERVO_CFG n, 31, 1⟩
def TBn_SERVO_CFG_port (n : Nat) : FieldAt := ⟨TBn_SERVO_CFG n, 24, 2⟩
def TBn_SERVO_CFG_meas_to (n : Nat) : FieldAt := ⟨TBn_SERVO_CFG n, 16, 8⟩
def TBn_SERVO_CFG_lock_n (n : Nat) : FieldAt := ⟨TBn_SERVO_CFG n, 8, 8⟩
/-- R318: Servo thresholds -/
def TBn_THRESH (n : Nat) : Nat := 0x6014C + 0x80 * n
def TBn_THRESH_step_thr (n : Nat) : FieldAt := ⟨TBn_THRESH n, 24, 8⟩
def TBn_THRESH_unlock_thr (n : Nat) : FieldAt := ⟨TBn_THRESH n, 12, 12⟩
def TBn_THRESH_lock_thr (n : Nat) : FieldAt := ⟨TBn_THRESH n, 0, 12⟩
/-- R318: Derived sources and profile -/
def TBn_DERIVE (n : Nat) : Nat := 0x60150 + 0x80 * n
def TBn_DERIVE_primary (n : Nat) : FieldAt := ⟨TBn_DERIVE n, 30, 2⟩
def TBn_DERIVE_secondary (n : Nat) : FieldAt := ⟨TBn_DERIVE n, 28, 2⟩
def TBn_DERIVE_sec_en (n : Nat) : FieldAt := ⟨TBn_DERIVE n, 27, 1⟩
def TBn_DERIVE_wtr (n : Nat) : FieldAt := ⟨TBn_DERIVE n, 16, 8⟩
def TBn_DERIVE_fo_max (n : Nat) : FieldAt := ⟨TBn_DERIVE n, 8, 8⟩
/-- R318: o, signed ns, saturating -/
def TBn_OFFSET (n : Nat) : Nat := 0x60154 + 0x80 * n
/-- R318: Last measured offset, signed ns, saturating -/
def TBn_LAST_OFS (n : Nat) : Nat := 0x60158 + 0x80 * n
/-- R318: [15:0] steps, [31:16] lock losses; each saturates -/
def TBn_COUNT (n : Nat) : Nat := 0x6015C + 0x80 * n
/-- R318: Time base events -/
def TBn_INT_STATUS (n : Nat) : Nat := 0x60160 + 0x80 * n
def TBn_INT_STATUS_clamp (n : Nat) : FieldAt := ⟨TBn_INT_STATUS n, 6, 1⟩
def TBn_INT_STATUS_meas_timeout (n : Nat) : FieldAt := ⟨TBn_INT_STATUS n, 5, 1⟩
def TBn_INT_STATUS_meas_drop (n : Nat) : FieldAt := ⟨TBn_INT_STATUS n, 4, 1⟩
def TBn_INT_STATUS_switched (n : Nat) : FieldAt := ⟨TBn_INT_STATUS n, 3, 1⟩
def TBn_INT_STATUS_stepped (n : Nat) : FieldAt := ⟨TBn_INT_STATUS n, 2, 1⟩
def TBn_INT_STATUS_unlocked (n : Nat) : FieldAt := ⟨TBn_INT_STATUS n, 1, 1⟩
def TBn_INT_STATUS_locked (n : Nat) : FieldAt := ⟨TBn_INT_STATUS n, 0, 1⟩
/-- R318: Enables for those events -/
def TBn_INT_ENABLE (n : Nat) : Nat := 0x60164 + 0x80 * n
/-- R318: [5:4] default time base; [0] rx_all -/
def TIME_MACm_CFG (m : Nat) : Nat := 0x60400 + 0x40 * m
/-- R318: Domain map (R311) -/
def TIME_MACm_RXMAP (m : Nat) : Nat := 0x60404 + 0x40 * m
def TIME_MACm_RXMAP_en1 (m : Nat) : FieldAt := ⟨TIME_MACm_RXMAP m, 31, 1⟩
def TIME_MACm_RXMAP_tb1 (m : Nat) : FieldAt := ⟨TIME_MACm_RXMAP m, 28, 2⟩
def TIME_MACm_RXMAP_dom1 (m : Nat) : FieldAt := ⟨TIME_MACm_RXMAP m, 16, 8⟩
def TIME_MACm_RXMAP_en0 (m : Nat) : FieldAt := ⟨TIME_MACm_RXMAP m, 15, 1⟩
def TIME_MACm_RXMAP_tb0 (m : Nat) : FieldAt := ⟨TIME_MACm_RXMAP m, 12, 2⟩
def TIME_MACm_RXMAP_dom0 (m : Nat) : FieldAt := ⟨TIME_MACm_RXMAP m, 0, 8⟩
/-- R318: Signed ps (R310) -/
def TIME_MACm_ASYM_TX (m : Nat) : Nat := 0x60408 + 0x40 * m
/-- R318: Signed ps (R310) -/
def TIME_MACm_ASYM_RX (m : Nat) : Nat := 0x6040C + 0x40 * m
/-- R318: [31:16] receive, [15:0] transmit correction, 0.1 ns -/
def TIME_MACm_CORR (m : Nat) : Nat := 0x60410 + 0x40 * m
/-- R318: [4:0] entries queued -/
def TIME_MACm_TXQ_STATUS (m : Nat) : Nat := 0x60414 + 0x40 * m
/-- R318: Head entry (R315) -/
def TIME_MACm_TXQ0 (m : Nat) : Nat := 0x60418 + 0x40 * m
def TIME_MACm_TXQ0_valid (m : Nat) : FieldAt := ⟨TIME_MACm_TXQ0 m, 31, 1⟩
def TIME_MACm_TXQ0_no_ts (m : Nat) : FieldAt := ⟨TIME_MACm_TXQ0 m, 30, 1⟩
def TIME_MACm_TXQ0_tb (m : Nat) : FieldAt := ⟨TIME_MACm_TXQ0 m, 28, 2⟩
def TIME_MACm_TXQ0_tag (m : Nat) : FieldAt := ⟨TIME_MACm_TXQ0 m, 0, 16⟩
/-- R318: Head entry (R315) -/
def TIME_MACm_TXQ1 (m : Nat) : Nat := 0x6041C + 0x40 * m
/-- R318: Head entry (R315) -/
def TIME_MACm_TXQ2 (m : Nat) : Nat := 0x60420 + 0x40 * m
/-- R318: Head entry (R315) -/
def TIME_MACm_TXQ3 (m : Nat) : Nat := 0x60424 + 0x40 * m
/-- R318: [15:0] last lost tag, [31:16] lost count, saturating -/
def TIME_MACm_TXQ_LOST (m : Nat) : Nat := 0x60428 + 0x40 * m
/-- R318: MAC events -/
def TIME_MACm_INT_STATUS (m : Nat) : Nat := 0x6042C + 0x40 * m
def TIME_MACm_INT_STATUS_no_ts (m : Nat) : FieldAt := ⟨TIME_MACm_INT_STATUS m, 2, 1⟩
def TIME_MACm_INT_STATUS_txq_ovf (m : Nat) : FieldAt := ⟨TIME_MACm_INT_STATUS m, 1, 1⟩
def TIME_MACm_INT_STATUS_txq_ready (m : Nat) : FieldAt := ⟨TIME_MACm_INT_STATUS m, 0, 1⟩
/-- R318: Enables for those events -/
def TIME_MACm_INT_ENABLE (m : Nat) : Nat := 0x60430 + 0x40 * m
/-- R341: [15:8] VID entries, [7:0] address entries -/
def MACm_INFO (m : Nat) : Nat := 0x70000 + 0x10000 * m
/-- R341: [5:4] fec: 0 none, 1 FC-FEC, 2 RS-FEC; [1:0] speed: 0 1G, 1 2.5G, 2 10G, 3 25G -/
def MACm_CFG (m : Nat) : Nat := 0x70004 + 0x10000 * m
/-- R341: Enables and filter modes -/
def MACm_CTRL (m : Nat) : Nat := 0x70008 + 0x10000 * m
def MACm_CTRL_untagged (m : Nat) : FieldAt := ⟨MACm_CTRL m, 7, 1⟩
def MACm_CTRL_vid_filt (m : Nat) : FieldAt := ⟨MACm_CTRL m, 6, 1⟩
def MACm_CTRL_strip (m : Nat) : FieldAt := ⟨MACm_CTRL m, 5, 1⟩
def MACm_CTRL_an_en (m : Nat) : FieldAt := ⟨MACm_CTRL m, 4, 1⟩
def MACm_CTRL_bcast (m : Nat) : FieldAt := ⟨MACm_CTRL m, 3, 1⟩
def MACm_CTRL_promisc (m : Nat) : FieldAt := ⟨MACm_CTRL m, 2, 1⟩
def MACm_CTRL_tx_en (m : Nat) : FieldAt := ⟨MACm_CTRL m, 1, 1⟩
def MACm_CTRL_rx_en (m : Nat) : FieldAt := ⟨MACm_CTRL m, 0, 1⟩
/-- R341: Link state -/
def MACm_STATUS (m : Nat) : Nat := 0x7000C + 0x10000 * m
def MACm_STATUS_rx_lpi (m : Nat) : FieldAt := ⟨MACm_STATUS m, 4, 1⟩
def MACm_STATUS_tx_lpi (m : Nat) : FieldAt := ⟨MACm_STATUS m, 3, 1⟩
def MACm_STATUS_an_done (m : Nat) : FieldAt := ⟨MACm_STATUS m, 2, 1⟩
def MACm_STATUS_pcs_lock (m : Nat) : FieldAt := ⟨MACm_STATUS m, 1, 1⟩
def MACm_STATUS_link (m : Nat) : FieldAt := ⟨MACm_STATUS m, 0, 1⟩
/-- R341: [13:0] bytes, 64-9600; other values act as 1522 -/
def MACm_MAXLEN (m : Nat) : Nat := 0x70010 + 0x10000 * m
/-- R341: EEE (R335) -/
def MACm_EEE (m : Nat) : Nat := 0x70014 + 0x10000 * m
def MACm_EEE_tw_min (m : Nat) : FieldAt := ⟨MACm_EEE m, 16, 16⟩
def MACm_EEE_idle_min (m : Nat) : FieldAt := ⟨MACm_EEE m, 8, 8⟩
def MACm_EEE_en (m : Nat) : FieldAt := ⟨MACm_EEE m, 0, 1⟩
/-- R341: [15:0] Tw in ns -/
def MACm_EEE_TW (m : Nat) : Nat := 0x70018 + 0x10000 * m
/-- R341: [23:0] gap_max in ns (R334) -/
def MACm_GAP (m : Nat) : Nat := 0x7001C + 0x10000 * m
/-- R341: [15:0] head-wait limit in 10 µs; 0 acts as 1 -/
def MACm_TX_AGE (m : Nat) : Nat := 0x70020 + 0x10000 * m
/-- R341: [7:0] ptp_res in KiB, at most 64 -/
def MACm_RX_SHARE (m : Nat) : Nat := 0x70024 + 0x10000 * m
/-- R341: Station address [31:0] -/
def MACm_STA_LO (m : Nat) : Nat := 0x70028 + 0x10000 * m
/-- R341: [15:0] station address [47:32]; follows R17 -/
def MACm_STA_HI (m : Nat) : Nat := 0x7002C + 0x10000 * m
/-- R341: Source IPv4 address of stream packets -/
def MACm_IPV4 (m : Nat) : Nat := 0x70030 + 0x10000 * m
/-- R341: MAC events -/
def MACm_INT_STATUS (m : Nat) : Nat := 0x70034 + 0x10000 * m
def MACm_INT_STATUS_pause_rx (m : Nat) : FieldAt := ⟨MACm_INT_STATUS m, 6, 1⟩
def MACm_INT_STATUS_tx_aged (m : Nat) : FieldAt := ⟨MACm_INT_STATUS m, 5, 1⟩
def MACm_INT_STATUS_tx_nofit (m : Nat) : FieldAt := ⟨MACm_INT_STATUS m, 4, 1⟩
def MACm_INT_STATUS_rx_trunc (m : Nat) : FieldAt := ⟨MACm_INT_STATUS m, 3, 1⟩
def MACm_INT_STATUS_rx_drop (m : Nat) : FieldAt := ⟨MACm_INT_STATUS m, 2, 1⟩
def MACm_INT_STATUS_link_down (m : Nat) : FieldAt := ⟨MACm_INT_STATUS m, 1, 1⟩
def MACm_INT_STATUS_link_up (m : Nat) : FieldAt := ⟨MACm_INT_STATUS m, 0, 1⟩
/-- R341: Enables for those events -/
def MACm_INT_ENABLE (m : Nat) : Nat := 0x70038 + 0x10000 * m
/-- R341: Two entries each: [31] en, [27:16] VID; [15] en, [11:0] VID -/
def MACm_VID0 (m : Nat) : Nat := 0x70040 + 0x10000 * m
/-- R341: Two entries each: [31] en, [27:16] VID; [15] en, [11:0] VID -/
def MACm_VID1 (m : Nat) : Nat := 0x70044 + 0x10000 * m
/-- R341: Two entries each: [31] en, [27:16] VID; [15] en, [11:0] VID -/
def MACm_VID2 (m : Nat) : Nat := 0x70048 + 0x10000 * m
/-- R341: Two entries each: [31] en, [27:16] VID; [15] en, [11:0] VID -/
def MACm_VID3 (m : Nat) : Nat := 0x7004C + 0x10000 * m
/-- R341: Entry k (0-31), address [31:0] -/
def MACm_ADDRk_LO (m k : Nat) : Nat := 0x70100 + 0x10000 * m + 0x8 * k
/-- R341: [31] en, [15:0] address [47:32]; follows R17 -/
def MACm_ADDRk_HI (m k : Nat) : Nat := 0x70104 + 0x10000 * m + 0x8 * k
/-- R341: Frames accepted -/
def MACm_RX_OK (m : Nat) : Nat := 0x70200 + 0x10000 * m
/-- R341: R322, step 1 -/
def MACm_RX_FCS (m : Nat) : Nat := 0x70204 + 0x10000 * m
/-- R341: R322, step 2 -/
def MACm_RX_RUNT (m : Nat) : Nat := 0x70208 + 0x10000 * m
/-- R341: R323 -/
def MACm_RX_TRUNC (m : Nat) : Nat := 0x7020C + 0x10000 * m
/-- R341: R321 -/
def MACm_RX_PAUSE (m : Nat) : Nat := 0x70210 + 0x10000 * m
/-- R341: R324, R325 -/
def MACm_RX_FILT (m : Nat) : Nat := 0x70214 + 0x10000 * m
/-- R341: [15:0] class 0, [31:16] class 1 (R340) -/
def MACm_RX_DROP (m : Nat) : Nat := 0x70218 + 0x10000 * m
/-- R341: Frames and packets sent -/
def MACm_TX_OK (m : Nat) : Nat := 0x7021C + 0x10000 * m
/-- R341: R328 -/
def MACm_TX_TRUNC (m : Nat) : Nat := 0x70220 + 0x10000 * m
/-- R341: R334 -/
def MACm_TX_NOFIT (m : Nat) : Nat := 0x70224 + 0x10000 * m
/-- R341: R334 -/
def MACm_TX_AGED (m : Nat) : Nat := 0x70228 + 0x10000 * m
/-- R341: Discarded while the link was down (R320) -/
def MACm_TX_LINKDROP (m : Nat) : Nat := 0x7022C + 0x10000 * m
/-- R342: [31:16] receive, [15:0] transmit streams -/
def STRM_INFO : Nat := 0x90000
/-- R342: Stream events -/
def STRM_INT_STATUS : Nat := 0x90004
def STRM_INT_STATUS_wr_refused : FieldAt := ⟨STRM_INT_STATUS, 9, 1⟩
def STRM_INT_STATUS_tx_drop : FieldAt := ⟨STRM_INT_STATUS, 8, 1⟩
def STRM_INT_STATUS_tx_zero : FieldAt := ⟨STRM_INT_STATUS, 7, 1⟩
def STRM_INT_STATUS_path_single : FieldAt := ⟨STRM_INT_STATUS, 6, 1⟩
def STRM_INT_STATUS_rx_bad : FieldAt := ⟨STRM_INT_STATUS, 5, 1⟩
def STRM_INT_STATUS_rx_early : FieldAt := ⟨STRM_INT_STATUS, 4, 1⟩
def STRM_INT_STATUS_rx_late : FieldAt := ⟨STRM_INT_STATUS, 3, 1⟩
def STRM_INT_STATUS_rx_missing : FieldAt := ⟨STRM_INT_STATUS, 2, 1⟩
def STRM_INT_STATUS_rx_lost : FieldAt := ⟨STRM_INT_STATUS, 1, 1⟩
def STRM_INT_STATUS_rx_running : FieldAt := ⟨STRM_INT_STATUS, 0, 1⟩
/-- R342: Enables for those events -/
def STRM_INT_ENABLE : Nat := 0x90008
/-- R342: Bit per receive stream with a new event -/
def STRM_RXEV0 : Nat := 0x90010
/-- R342: Bit per receive stream with a new event -/
def STRM_RXEV1 : Nat := 0x90014
/-- R342: Bit per receive stream with a new event -/
def STRM_RXEV2 : Nat := 0x90018
/-- R342: Bit per receive stream with a new event -/
def STRM_RXEV3 : Nat := 0x9001C
/-- R342: Bit per receive stream with a new event -/
def STRM_RXEV4 : Nat := 0x90020
/-- R342: Bit per receive stream with a new event -/
def STRM_RXEV5 : Nat := 0x90024
/-- R342: Bit per receive stream with a new event -/
def STRM_RXEV6 : Nat := 0x90028
/-- R342: Bit per receive stream with a new event -/
def STRM_RXEV7 : Nat := 0x9002C
/-- R342: Bit per transmit stream with a new event -/
def STRM_TXEV0 : Nat := 0x90030
/-- R342: Bit per transmit stream with a new event -/
def STRM_TXEV1 : Nat := 0x90034
/-- R342: Bit per transmit stream with a new event -/
def STRM_TXEV2 : Nat := 0x90038
/-- R342: Bit per transmit stream with a new event -/
def STRM_TXEV3 : Nat := 0x9003C
/-- R342: Bit per transmit stream with a new event -/
def STRM_TXEV4 : Nat := 0x90040
/-- R342: Bit per transmit stream with a new event -/
def STRM_TXEV5 : Nat := 0x90044
/-- R342: Bit per transmit stream with a new event -/
def STRM_TXEV6 : Nat := 0x90048
/-- R342: Bit per transmit stream with a new event -/
def STRM_TXEV7 : Nat := 0x9004C
/-- R342: Structure -/
def STRM_TXn_CFG (n : Nat) : Nat := 0x91000 + 0x40 * n
def STRM_TXn_CFG_assigned (n : Nat) : FieldAt := ⟨STRM_TXn_CFG n, 31, 1⟩
def STRM_TXn_CFG_mac (n : Nat) : FieldAt := ⟨STRM_TXn_CFG n, 29, 2⟩
def STRM_TXn_CFG_domain (n : Nat) : FieldAt := ⟨STRM_TXn_CFG n, 27, 2⟩
def STRM_TXn_CFG_l16 (n : Nat) : FieldAt := ⟨STRM_TXn_CFG n, 26, 1⟩
def STRM_TXn_CFG_p (n : Nat) : FieldAt := ⟨STRM_TXn_CFG n, 17, 9⟩
def STRM_TXn_CFG_phase (n : Nat) : FieldAt := ⟨STRM_TXn_CFG n, 8, 9⟩
def STRM_TXn_CFG_channels (n : Nat) : FieldAt := ⟨STRM_TXn_CFG n, 0, 6⟩
/-- R342: [0] en (R333) -/
def STRM_TXn_CTRL (n : Nat) : Nat := 0x91004 + 0x40 * n
/-- R342: Destination, path A or single -/
def STRM_TXn_DST_IP (n : Nat) : Nat := 0x91008 + 0x40 * n
/-- R342: [31:16] source port, [15:0] destination port -/
def STRM_TXn_PORTS (n : Nat) : Nat := 0x9100C + 0x40 * n
/-- R342: Destination MAC; follows R17 -/
def STRM_TXn_DMAC_LO (n : Nat) : Nat := 0x91010 + 0x40 * n
/-- R342: Destination MAC; follows R17 -/
def STRM_TXn_DMAC_HI (n : Nat) : Nat := 0x91014 + 0x40 * n
/-- R342: [31] vlan_en, [15:0] TCI -/
def STRM_TXn_TAG (n : Nat) : Nat := 0x91018 + 0x40 * n
/-- R342: [15:8] TTL, [5:0] DSCP -/
def STRM_TXn_IP (n : Nat) : Nat := 0x9101C + 0x40 * n
/-- R342: [6:0] payload type -/
def STRM_TXn_RTP (n : Nat) : Nat := 0x91020 + 0x40 * n
/-- R342: SSRC -/
def STRM_TXn_SSRC (n : Nat) : Nat := 0x91024 + 0x40 * n
/-- R342: Train offset in ns: [31:16] MAC1, [15:0] MAC0 -/
def STRM_TXn_OFS (n : Nat) : Nat := 0x91028 + 0x40 * n
/-- R342: [31:16] last sequence number; [1:0] 0 off, 1 running, 2 safe -/
def STRM_TXn_STATUS (n : Nat) : Nat := 0x9102C + 0x40 * n
/-- R342: [15:0] tx_zero, [31:16] link drops; each saturates -/
def STRM_TXn_COUNT (n : Nat) : Nat := 0x91030 + 0x40 * n
/-- R342: Destination, path B -/
def STRM_TXn_DST_IP_B (n : Nat) : Nat := 0x91034 + 0x40 * n
/-- R342: Destination MAC, path B; follows R17 -/
def STRM_TXn_DMAC_B_LO (n : Nat) : Nat := 0x91038 + 0x40 * n
/-- R342: Destination MAC, path B; follows R17 -/
def STRM_TXn_DMAC_B_HI (n : Nat) : Nat := 0x9103C + 0x40 * n
/-- R342: Structure -/
def STRM_RXn_CFG (n : Nat) : Nat := 0x95000 + 0x40 * n
def STRM_RXn_CFG_assigned (n : Nat) : FieldAt := ⟨STRM_RXn_CFG n, 31, 1⟩
def STRM_RXn_CFG_mac (n : Nat) : FieldAt := ⟨STRM_RXn_CFG n, 29, 2⟩
def STRM_RXn_CFG_domain (n : Nat) : FieldAt := ⟨STRM_RXn_CFG n, 27, 2⟩
def STRM_RXn_CFG_l16 (n : Nat) : FieldAt := ⟨STRM_RXn_CFG n, 26, 1⟩
def STRM_RXn_CFG_p (n : Nat) : FieldAt := ⟨STRM_RXn_CFG n, 17, 9⟩
def STRM_RXn_CFG_phase (n : Nat) : FieldAt := ⟨STRM_RXn_CFG n, 8, 9⟩
def STRM_RXn_CFG_channels (n : Nat) : FieldAt := ⟨STRM_RXn_CFG n, 0, 6⟩
/-- R342: Enable and match -/
def STRM_RXn_CTRL (n : Nat) : Nat := 0x95004 + 0x40 * n
def STRM_RXn_CTRL_ssm (n : Nat) : FieldAt := ⟨STRM_RXn_CTRL n, 1, 1⟩
def STRM_RXn_CTRL_en (n : Nat) : FieldAt := ⟨STRM_RXn_CTRL n, 0, 1⟩
/-- R342: Destination, path A or single -/
def STRM_RXn_DST_IP (n : Nat) : Nat := 0x95008 + 0x40 * n
/-- R342: [15:0] destination port -/
def STRM_RXn_PORTS (n : Nat) : Nat := 0x9500C + 0x40 * n
/-- R342: Source for ssm -/
def STRM_RXn_SRC_IP (n : Nat) : Nat := 0x95010 + 0x40 * n
/-- R342: Destination, path B -/
def STRM_RXn_DST_IP_B (n : Nat) : Nat := 0x95014 + 0x40 * n
/-- R342: [31] vid_match, [11:0] VID -/
def STRM_RXn_TAG (n : Nat) : Nat := 0x95018 + 0x40 * n
/-- R342: [6:0] payload type -/
def STRM_RXn_RTP (n : Nat) : Nat := 0x9501C + 0x40 * n
/-- R342: [15:0] L in samples (R337) -/
def STRM_RXn_LINK (n : Nat) : Nat := 0x95020 + 0x40 * n
/-- R342: RTP timestamp offset (R337) -/
def STRM_RXn_TSOFS (n : Nat) : Nat := 0x95024 + 0x40 * n
/-- R342: [15:0] D in samples -/
def STRM_RXn_DEPTH (n : Nat) : Nat := 0x95028 + 0x40 * n
/-- R342: [1:0] 0 off, 1 waiting, 2 running, 3 lost -/
def STRM_RXn_STATUS (n : Nat) : Nat := 0x9502C + 0x40 * n
/-- R342: [15:0] least time from the arrival of a written packet to its capture commit, in µs -/
def STRM_RXn_MARGIN (n : Nat) : Nat := 0x95030 + 0x40 * n
/-- R342: [15:0] missing, [31:16] late -/
def STRM_RXn_COUNT0 (n : Nat) : Nat := 0x95034 + 0x40 * n
/-- R342: [15:0] early, [31:16] bad -/
def STRM_RXn_COUNT1 (n : Nat) : Nat := 0x95038 + 0x40 * n
/-- R342: [15:0] path A only, [31:16] path B only -/
def STRM_RXn_COUNT2 (n : Nat) : Nat := 0x9503C + 0x40 * n
/-- R359: [7:0] lanes -/
def LANE_INFO : Nat := 0xA0000
/-- R359: [11:0] lanes with an enabled event pending -/
def LANE_INT_SUM : Nat := 0xA0004
/-- R359: [0] REFCLK_PCIE, [1] REFCLK_NET, [2] REFCLK_NRX present -/
def LANE_REFCLK_STATUS : Nat := 0xA0008
/-- R359: Protocol, rate and clocking -/
def LANEn_CFG (n : Nat) : Nat := 0xA0100 + 0x80 * n
def LANEn_CFG_protocol (n : Nat) : FieldAt := ⟨LANEn_CFG n, 28, 4⟩
def LANEn_CFG_rate (n : Nat) : FieldAt := ⟨LANEn_CFG n, 24, 3⟩
def LANEn_CFG_gen (n : Nat) : FieldAt := ⟨LANEn_CFG n, 20, 2⟩
def LANEn_CFG_sris (n : Nat) : FieldAt := ⟨LANEn_CFG n, 1, 1⟩
def LANEn_CFG_embedded (n : Nat) : FieldAt := ⟨LANEn_CFG n, 0, 1⟩
/-- R359: Readapt, idle, injection -/
def LANEn_CTRL (n : Nat) : Nat := 0xA0104 + 0x80 * n
def LANEn_CTRL_readapt (n : Nat) : FieldAt := ⟨LANEn_CTRL n, 31, 1⟩
def LANEn_CTRL_inj_once (n : Nat) : FieldAt := ⟨LANEn_CTRL n, 30, 1⟩
def LANEn_CTRL_inj_rate (n : Nat) : FieldAt := ⟨LANEn_CTRL n, 8, 5⟩
def LANEn_CTRL_idle_en (n : Nat) : FieldAt := ⟨LANEn_CTRL n, 0, 1⟩
/-- R359: State -/
def LANEn_STATUS (n : Nat) : Nat := 0xA0108 + 0x80 * n
def LANEn_STATUS_leave (n : Nat) : FieldAt := ⟨LANEn_STATUS n, 31, 1⟩
def LANEn_STATUS_clk_fallback (n : Nat) : FieldAt := ⟨LANEn_STATUS n, 12, 1⟩
def LANEn_STATUS_rx_idle (n : Nat) : FieldAt := ⟨LANEn_STATUS n, 11, 1⟩
def LANEn_STATUS_tx_idle (n : Nat) : FieldAt := ⟨LANEn_STATUS n, 10, 1⟩
def LANEn_STATUS_cdr_lock (n : Nat) : FieldAt := ⟨LANEn_STATUS n, 9, 1⟩
def LANEn_STATUS_sig_det (n : Nat) : FieldAt := ⟨LANEn_STATUS n, 8, 1⟩
def LANEn_STATUS_state (n : Nat) : FieldAt := ⟨LANEn_STATUS n, 0, 4⟩
/-- R359: [21:16] post, [13:8] main, [5:0] pre-cursor code -/
def LANEn_TXEQ (n : Nat) : Nat := 0xA010C + 0x80 * n
/-- R359: [31:24] CTLE code; [23:0] DFE taps 1-3, signed, 8 bits each -/
def LANEn_RXEQ (n : Nat) : Nat := 0xA0110 + 0x80 * n
/-- R359: [1:0] mode (R352) -/
def LANEn_LOOP (n : Nat) : Nat := 0xA0114 + 0x80 * n
/-- R359: Generator and checker -/
def LANEn_PRBS_CTRL (n : Nat) : Nat := 0xA0118 + 0x80 * n
def LANEn_PRBS_CTRL_chk_inv (n : Nat) : FieldAt := ⟨LANEn_PRBS_CTRL n, 9, 1⟩
def LANEn_PRBS_CTRL_gen_inv (n : Nat) : FieldAt := ⟨LANEn_PRBS_CTRL n, 8, 1⟩
def LANEn_PRBS_CTRL_chk_pat (n : Nat) : FieldAt := ⟨LANEn_PRBS_CTRL n, 4, 4⟩
def LANEn_PRBS_CTRL_gen_pat (n : Nat) : FieldAt := ⟨LANEn_PRBS_CTRL n, 0, 4⟩
/-- R359: [0] chk_lock -/
def LANEn_PRBS_STATUS (n : Nat) : Nat := 0xA011C + 0x80 * n
/-- R359: Bits in error; saturates -/
def LANEn_PRBS_ERR (n : Nat) : Nat := 0xA0120 + 0x80 * n
/-- R359: Bits compared [31:0] -/
def LANEn_PRBS_BITS_LO (n : Nat) : Nat := 0xA0124 + 0x80 * n
/-- R359: [15:0] bits compared [47:32]; follows R17 -/
def LANEn_PRBS_BITS_HI (n : Nat) : Nat := 0xA0128 + 0x80 * n
/-- R359: Scan point -/
def LANEn_SCAN_CTRL (n : Nat) : Nat := 0xA012C + 0x80 * n
def LANEn_SCAN_CTRL_scan_start (n : Nat) : FieldAt := ⟨LANEn_SCAN_CTRL n, 31, 1⟩
def LANEn_SCAN_CTRL_dwell (n : Nat) : FieldAt := ⟨LANEn_SCAN_CTRL n, 24, 5⟩
def LANEn_SCAN_CTRL_volt (n : Nat) : FieldAt := ⟨LANEn_SCAN_CTRL n, 16, 8⟩
def LANEn_SCAN_CTRL_phase (n : Nat) : FieldAt := ⟨LANEn_SCAN_CTRL n, 0, 7⟩
/-- R359: [1] done, [0] busy -/
def LANEn_SCAN_STATUS (n : Nat) : Nat := 0xA0130 + 0x80 * n
/-- R359: Bits that differed at the last point -/
def LANEn_SCAN_ERR (n : Nat) : Nat := 0xA0134 + 0x80 * n
/-- R359: [5:0] fill; [13:8] least and [21:16] greatest fill since the last read of this register -/
def LANEn_EB (n : Nat) : Nat := 0xA0138 + 0x80 * n
/-- R359: [15:0] eb_err, [31:16] signal losses; each saturates -/
def LANEn_COUNT (n : Nat) : Nat := 0xA013C + 0x80 * n
/-- R359: Lane events -/
def LANEn_INT_STATUS (n : Nat) : Nat := 0xA0140 + 0x80 * n
def LANEn_INT_STATUS_clk_fallback (n : Nat) : FieldAt := ⟨LANEn_INT_STATUS n, 12, 1⟩
def LANEn_INT_STATUS_gen_stopped (n : Nat) : FieldAt := ⟨LANEn_INT_STATUS n, 11, 1⟩
def LANEn_INT_STATUS_test_refused (n : Nat) : FieldAt := ⟨LANEn_INT_STATUS n, 10, 1⟩
def LANEn_INT_STATUS_scan_abort (n : Nat) : FieldAt := ⟨LANEn_INT_STATUS n, 9, 1⟩
def LANEn_INT_STATUS_scan_done (n : Nat) : FieldAt := ⟨LANEn_INT_STATUS n, 8, 1⟩
def LANEn_INT_STATUS_readapt_refused (n : Nat) : FieldAt := ⟨LANEn_INT_STATUS n, 7, 1⟩
def LANEn_INT_STATUS_readapt_done (n : Nat) : FieldAt := ⟨LANEn_INT_STATUS n, 6, 1⟩
def LANEn_INT_STATUS_eb_err (n : Nat) : FieldAt := ⟨LANEn_INT_STATUS n, 5, 1⟩
def LANEn_INT_STATUS_refclk_lost (n : Nat) : FieldAt := ⟨LANEn_INT_STATUS n, 4, 1⟩
def LANEn_INT_STATUS_adapt_fail (n : Nat) : FieldAt := ⟨LANEn_INT_STATUS n, 3, 1⟩
def LANEn_INT_STATUS_sig_lost (n : Nat) : FieldAt := ⟨LANEn_INT_STATUS n, 2, 1⟩
def LANEn_INT_STATUS_chk_lock (n : Nat) : FieldAt := ⟨LANEn_INT_STATUS n, 1, 1⟩
def LANEn_INT_STATUS_ready (n : Nat) : FieldAt := ⟨LANEn_INT_STATUS n, 0, 1⟩
/-- R359: Enables for those events -/
def LANEn_INT_ENABLE (n : Nat) : Nat := 0xA0144 + 0x80 * n
/-- R380: [7:0] links -/
def NRX_INFO : Nat := 0xB0000
/-- R380: [2:0] DEVID -/
def NRX_ID : Nat := 0xB0004
/-- R380: [3:0] links with an enabled event pending -/
def NRX_INT_SUM : Nat := 0xB0008
/-- R380: [5:0] msg_share, frames in 64; values above 32 act as 32 -/
def NRX_MSG_SHARE : Nat := 0xB000C
/-- R380: Structure -/
def NRXk_CFG (k : Nat) : Nat := 0xB0100 + 0x40 * k
def NRXk_CFG_used (k : Nat) : FieldAt := ⟨NRXk_CFG k, 31, 1⟩
def NRXk_CFG_peer (k : Nat) : FieldAt := ⟨NRXk_CFG k, 28, 3⟩
def NRXk_CFG_upstream (k : Nat) : FieldAt := ⟨NRXk_CFG k, 27, 1⟩
def NRXk_CFG_fast (k : Nat) : FieldAt := ⟨NRXk_CFG k, 24, 1⟩
def NRXk_CFG_slots (k : Nat) : FieldAt := ⟨NRXk_CFG k, 0, 12⟩
/-- R380: [0] en -/
def NRXk_CTRL (k : Nat) : Nat := 0xB0104 + 0x40 * k
/-- R380: State -/
def NRXk_STATUS (k : Nat) : Nat := 0xB0108 + 0x40 * k
def NRXk_STATUS_timing_valid (k : Nat) : FieldAt := ⟨NRXk_STATUS k, 31, 1⟩
def NRXk_STATUS_lead_state (k : Nat) : FieldAt := ⟨NRXk_STATUS k, 24, 6⟩
def NRXk_STATUS_hop (k : Nat) : FieldAt := ⟨NRXk_STATUS k, 20, 2⟩
def NRXk_STATUS_peer_devid (k : Nat) : FieldAt := ⟨NRXk_STATUS k, 16, 3⟩
def NRXk_STATUS_peer_member (k : Nat) : FieldAt := ⟨NRXk_STATUS k, 9, 1⟩
def NRXk_STATUS_peer_lead (k : Nat) : FieldAt := ⟨NRXk_STATUS k, 8, 1⟩
def NRXk_STATUS_state (k : Nat) : FieldAt := ⟨NRXk_STATUS k, 0, 3⟩
/-- R380: Link delay in ps (R372) -/
def NRXk_DELAY (k : Nat) : Nat := 0xB010C + 0x40 * k
/-- R380: Delay bound in ps (R373) -/
def NRXk_DELAY_MAX (k : Nat) : Nat := 0xB0110 + 0x40 * k
/-- R380: Signed ps (R372) -/
def NRXk_ASYM (k : Nat) : Nat := 0xB0114 + 0x40 * k
/-- R380: Peer build_id [31:0] -/
def NRXk_PEER_ID_LO (k : Nat) : Nat := 0xB0118 + 0x40 * k
/-- R380: Peer build_id [63:32]; follows R17 -/
def NRXk_PEER_ID_HI (k : Nat) : Nat := 0xB011C + 0x40 * k
/-- R380: [15:0] CRC errors, [31:16] replays -/
def NRXk_COUNT0 (k : Nat) : Nat := 0xB0120 + 0x40 * k
/-- R380: [15:0] audio frames skipped (R364), [31:16] link downs -/
def NRXk_COUNT1 (k : Nat) : Nat := 0xB0124 + 0x40 * k
/-- R380: [15:0] bring-up failures, [31:16] messages discarded (R367) -/
def NRXk_COUNT2 (k : Nat) : Nat := 0xB0128 + 0x40 * k
/-- R380: Link events -/
def NRXk_INT_STATUS (k : Nat) : Nat := 0xB012C + 0x40 * k
def NRXk_INT_STATUS_lead_state_chg (k : Nat) : FieldAt := ⟨NRXk_INT_STATUS k, 9, 1⟩
def NRXk_INT_STATUS_rate_mm (k : Nat) : FieldAt := ⟨NRXk_INT_STATUS k, 8, 1⟩
def NRXk_INT_STATUS_tick_mm (k : Nat) : FieldAt := ⟨NRXk_INT_STATUS k, 7, 1⟩
def NRXk_INT_STATUS_timing_conflict (k : Nat) : FieldAt := ⟨NRXk_INT_STATUS k, 6, 1⟩
def NRXk_INT_STATUS_delay_over (k : Nat) : FieldAt := ⟨NRXk_INT_STATUS k, 5, 1⟩
def NRXk_INT_STATUS_id_refused (k : Nat) : FieldAt := ⟨NRXk_INT_STATUS k, 4, 1⟩
def NRXk_INT_STATUS_bringup_fail (k : Nat) : FieldAt := ⟨NRXk_INT_STATUS k, 3, 1⟩
def NRXk_INT_STATUS_replay (k : Nat) : FieldAt := ⟨NRXk_INT_STATUS k, 2, 1⟩
def NRXk_INT_STATUS_link_down (k : Nat) : FieldAt := ⟨NRXk_INT_STATUS k, 1, 1⟩
def NRXk_INT_STATUS_link_up (k : Nat) : FieldAt := ⟨NRXk_INT_STATUS k, 0, 1⟩
/-- R380: Enables for those events -/
def NRXk_INT_ENABLE (k : Nat) : Nat := 0xB0130 + 0x40 * k
/-- R402: Pair structure -/
def FOV_CFG : Nat := 0xC0000
def FOV_CFG_paired : FieldAt := ⟨FOV_CFG, 31, 1⟩
def FOV_CFG_fast_take : FieldAt := ⟨FOV_CFG, 30, 1⟩
def FOV_CFG_tdm_release : FieldAt := ⟨FOV_CFG, 29, 1⟩
def FOV_CFG_mirror : FieldAt := ⟨FOV_CFG, 0, 2⟩
/-- R402: [31:24] t_arm in 10 ms, values below 0x32 act as 0x32; [13:0] T_exp in 10 µs, 25-10,000 -/
def FOV_LEASE_CFG : Nat := 0xC0004
/-- R402: Commands and side -/
def FOV_CTRL : Nat := 0xC0008
def FOV_CTRL_yield : FieldAt := ⟨FOV_CTRL, 31, 1⟩
def FOV_CTRL_claim : FieldAt := ⟨FOV_CTRL, 30, 1⟩
def FOV_CTRL_resync : FieldAt := ⟨FOV_CTRL, 29, 1⟩
def FOV_CTRL_abort_resync : FieldAt := ⟨FOV_CTRL, 28, 1⟩
def FOV_CTRL_auto_resync : FieldAt := ⟨FOV_CTRL, 8, 1⟩
def FOV_CTRL_side : FieldAt := ⟨FOV_CTRL, 0, 1⟩
/-- R402: Lease and sync state -/
def FOV_STATUS : Nat := 0xC000C
def FOV_STATUS_fence : FieldAt := ⟨FOV_STATUS, 31, 1⟩
def FOV_STATUS_sole : FieldAt := ⟨FOV_STATUS, 30, 1⟩
def FOV_STATUS_armed : FieldAt := ⟨FOV_STATUS, 29, 1⟩
def FOV_STATUS_peer_alive : FieldAt := ⟨FOV_STATUS, 28, 1⟩
def FOV_STATUS_ball_ok : FieldAt := ⟨FOV_STATUS, 25, 1⟩
def FOV_STATUS_link_ok : FieldAt := ⟨FOV_STATUS, 24, 1⟩
def FOV_STATUS_sync : FieldAt := ⟨FOV_STATUS, 4, 3⟩
def FOV_STATUS_state : FieldAt := ⟨FOV_STATUS, 0, 3⟩
/-- R402: Handover sample number [31:0] -/
def FOV_YIELD_AT_LO : Nat := 0xC0010
/-- R402: Same, [63:32]; follows R17 -/
def FOV_YIELD_AT_HI : Nat := 0xC0014
/-- R402: [15:0] time since the last renewal (standby) or echo (keeper), in 10 µs; saturates -/
def FOV_TIMER : Nat := 0xC0018
/-- R402: Peer sample-edge offset, signed, in ns -/
def FOV_SKEW : Nat := 0xC001C
/-- R402: Take-domain sample number of the last role change [31:0] -/
def FOV_SWITCH_LO : Nat := 0xC0020
/-- R402: Same, [63:32]; follows R17 -/
def FOV_SWITCH_HI : Nat := 0xC0024
/-- R402: [15:0] takes, [31:16] yields -/
def FOV_COUNT0 : Nat := 0xC0028
/-- R402: [15:0] CRC mismatches, [31:16] foreign LEASE_IN edges -/
def FOV_COUNT1 : Nat := 0xC002C
/-- R402: Fail-over events -/
def FOV_INT_STATUS : Nat := 0xC0030
def FOV_INT_STATUS_mirror_wr : FieldAt := ⟨FOV_INT_STATUS, 13, 1⟩
def FOV_INT_STATUS_mirror_late : FieldAt := ⟨FOV_INT_STATUS, 12, 1⟩
def FOV_INT_STATUS_yield_refused : FieldAt := ⟨FOV_INT_STATUS, 11, 1⟩
def FOV_INT_STATUS_sync_lost : FieldAt := ⟨FOV_INT_STATUS, 10, 1⟩
def FOV_INT_STATUS_sync_ok : FieldAt := ⟨FOV_INT_STATUS, 9, 1⟩
def FOV_INT_STATUS_peer_back : FieldAt := ⟨FOV_INT_STATUS, 8, 1⟩
def FOV_INT_STATUS_peer_gone : FieldAt := ⟨FOV_INT_STATUS, 7, 1⟩
def FOV_INT_STATUS_path_ok : FieldAt := ⟨FOV_INT_STATUS, 6, 1⟩
def FOV_INT_STATUS_path_lost : FieldAt := ⟨FOV_INT_STATUS, 5, 1⟩
def FOV_INT_STATUS_conflict : FieldAt := ⟨FOV_INT_STATUS, 4, 1⟩
def FOV_INT_STATUS_isolated : FieldAt := ⟨FOV_INT_STATUS, 3, 1⟩
def FOV_INT_STATUS_fenced_self : FieldAt := ⟨FOV_INT_STATUS, 2, 1⟩
def FOV_INT_STATUS_gave : FieldAt := ⟨FOV_INT_STATUS, 1, 1⟩
def FOV_INT_STATUS_took : FieldAt := ⟨FOV_INT_STATUS, 0, 1⟩
/-- R402: Enables for those events -/
def FOV_INT_ENABLE : Nat := 0xC0034
/-- R419: [15:0] delay-line slots -/
def DMC_INFO : Nat := 0xD0000
/-- R419: Device structure -/
def DMC_CFG : Nat := 0xD0004
def DMC_CFG_rate : FieldAt := ⟨DMC_CFG, 8, 3⟩
def DMC_CFG_size : FieldAt := ⟨DMC_CFG, 4, 3⟩
def DMC_CFG_bg : FieldAt := ⟨DMC_CFG, 1, 1⟩
def DMC_CFG_ranks2 : FieldAt := ⟨DMC_CFG, 0, 1⟩
/-- R419: State -/
def DMC_STATUS : Nat := 0xD0008
def DMC_STATUS_temp_hi : FieldAt := ⟨DMC_STATUS, 8, 1⟩
def DMC_STATUS_state : FieldAt := ⟨DMC_STATUS, 0, 3⟩
/-- R419: Usable bytes [31:0] -/
def DMC_SIZE_LO : Nat := 0xD000C
/-- R419: [7:0] usable bytes [39:32]; follows R17 -/
def DMC_SIZE_HI : Nat := 0xD0010
/-- R419: [3:0] lanes trained; [8] retried (R405) -/
def DMC_TRAIN : Nat := 0xD0014
/-- R419: [31:24] age_max in 64 DMC cycles; [15:8] page_idle in DMC cycles; [3:0] hit_max, 0 acts as 1 -/
def DMC_SCHED : Nat := 0xD0018
/-- R419: [19:16] post_max, RW, values above 8 act as 8; [0] all_bank, RO -/
def DMC_REF : Nat := 0xD001C
/-- R419: [15:8] MR4 refresh-rate code; [3:0] most refreshes outstanding in any bank -/
def DMC_REF_STATUS : Nat := 0xD0020
/-- R419: [23:16] rd_panic in µs, 0 acts as 1; [3:0] wr_panic in sixteenths, 0 acts as 1 -/
def DMC_RT_CFG : Nat := 0xD0024
/-- R419: [31:16] slots in use; [15:8] write fill in 1/256; [0] panic -/
def DMC_RT_STATUS : Nat := 0xD0028
/-- R419: [15:0] least read lead before commit, in µs -/
def DMC_RT_LEAD_MIN : Nat := 0xD002C
/-- R419: [31] start, WO; [7:0] drift_thr in ps, RW, 0 acts as 1 -/
def DMC_RETRAIN : Nat := 0xD0030
/-- R419: [9] slice running; [8] leave held; [3:0] lanes awaiting a slice -/
def DMC_RETRAIN_STATUS : Nat := 0xD0034
/-- R419: Lane k drift, signed ps, in [8k+7:8k] -/
def DMC_DRIFT : Nat := 0xD0038
/-- R419: [15:0] corrected, [31:16] uncorrected; each saturates -/
def DMC_ECC_COUNT : Nat := 0xD003C
/-- R419: Last uncorrectable block address [31:0] -/
def DMC_ECC_ADDR_LO : Nat := 0xD0040
/-- R419: [7:0] address [39:32]; follows R17 -/
def DMC_ECC_ADDR_HI : Nat := 0xD0044
/-- R419: [15:0] panic entries, [31:16] barges lost; each saturates -/
def DMC_COUNT : Nat := 0xD0048
/-- R419: DMC events -/
def DMC_INT_STATUS : Nat := 0xD004C
def DMC_INT_STATUS_drift : FieldAt := ⟨DMC_INT_STATUS, 8, 1⟩
def DMC_INT_STATUS_retrain_fail : FieldAt := ⟨DMC_INT_STATUS, 7, 1⟩
def DMC_INT_STATUS_retrain_done : FieldAt := ⟨DMC_INT_STATUS, 6, 1⟩
def DMC_INT_STATUS_temp_hi : FieldAt := ⟨DMC_INT_STATUS, 5, 1⟩
def DMC_INT_STATUS_ref_limit : FieldAt := ⟨DMC_INT_STATUS, 4, 1⟩
def DMC_INT_STATUS_rt_lost : FieldAt := ⟨DMC_INT_STATUS, 3, 1⟩
def DMC_INT_STATUS_rt_panic : FieldAt := ⟨DMC_INT_STATUS, 2, 1⟩
def DMC_INT_STATUS_ecc_uncorr : FieldAt := ⟨DMC_INT_STATUS, 1, 1⟩
def DMC_INT_STATUS_ecc_corr : FieldAt := ⟨DMC_INT_STATUS, 0, 1⟩
/-- R419: Enables for those events -/
def DMC_INT_ENABLE : Nat := 0xD0050
/-- R419: [10:0] selected delay line -/
def DMC_DLINE_SEL : Nat := 0xD0100
/-- R419: [31] used; [29:28] domain; [26:22] r; [21:0] D, for the selected line -/
def DMC_DLINE_CFG : Nat := 0xD0104
/-- R447: [23:16] targets, [7:0] masters -/
def XBAR_INFO : Nat := 0xF0000
/-- R447: [15:8] age in 16 cycles, 0 acts as 1; [0] qos (R424) -/
def XBAR_CTRL : Nat := 0xF0004
/-- R447: QoS value of master m in [4(m − 3) + 3:4(m − 3)], m = 3-7 -/
def XBAR_QOS : Nat := 0xF0008
/-- R447: [15:8] layer m full; [7:0] drain[m] (R430) -/
def XBAR_MSTATUS : Nat := 0xF000C
/-- R447: Latched address [31:0] -/
def XBAR_ERR_ADDR_LO : Nat := 0xF0010
/-- R447: [7:0] address [39:32]; follows R17 -/
def XBAR_ERR_ADDR_HI : Nat := 0xF0014
/-- R447: Latched error -/
def XBAR_ERR_INFO : Nat := 0xF0018
def XBAR_ERR_INFO_valid : FieldAt := ⟨XBAR_ERR_INFO, 31, 1⟩
def XBAR_ERR_INFO_master : FieldAt := ⟨XBAR_ERR_INFO, 16, 3⟩
def XBAR_ERR_INFO_target : FieldAt := ⟨XBAR_ERR_INFO, 8, 3⟩
def XBAR_ERR_INFO_write : FieldAt := ⟨XBAR_ERR_INFO, 4, 1⟩
def XBAR_ERR_INFO_cause : FieldAt := ⟨XBAR_ERR_INFO, 0, 4⟩
/-- R447: [15:0] default-target errors, [31:16] data errors; each saturates -/
def XBAR_ERR_COUNT : Nat := 0xF001C
/-- R447: [1] data_err; [0] dte, whose clear releases the latch -/
def XBAR_INT_STATUS : Nat := 0xF0020
/-- R447: Enables for those events -/
def XBAR_INT_ENABLE : Nat := 0xF0024
/-- R447: Bursts granted to master m; saturates -/
def XBAR_BWm (i : Nat) : Nat := 0xF0040 + 0x4 * i
/-- R448: [7:0] channels -/
def DMA_INFO : Nat := 0xE0000
/-- R448: Channels with an enabled event pending -/
def DMA_INT_SUM : Nat := 0xE0004
/-- R448: Structure -/
def DMA_CHc_CFG (c : Nat) : Nat := 0xE0100 + 0x40 * c
def DMA_CHc_CFG_used (c : Nat) : FieldAt := ⟨DMA_CHc_CFG c, 31, 1⟩
def DMA_CHc_CFG_fg (c : Nat) : FieldAt := ⟨DMA_CHc_CFG c, 30, 1⟩
def DMA_CHc_CFG_domain (c : Nat) : FieldAt := ⟨DMA_CHc_CFG c, 28, 2⟩
def DMA_CHc_CFG_mode (c : Nat) : FieldAt := ⟨DMA_CHc_CFG c, 24, 3⟩
def DMA_CHc_CFG_binding (c : Nat) : FieldAt := ⟨DMA_CHc_CFG c, 0, 13⟩
/-- R448: Enable, burst, abrupt -/
def DMA_CHc_CTRL (c : Nat) : Nat := 0xE0104 + 0x40 * c
def DMA_CHc_CTRL_abrupt (c : Nat) : FieldAt := ⟨DMA_CHc_CTRL c, 31, 1⟩
def DMA_CHc_CTRL_burst (c : Nat) : FieldAt := ⟨DMA_CHc_CTRL c, 8, 3⟩
def DMA_CHc_CTRL_en (c : Nat) : FieldAt := ⟨DMA_CHc_CTRL c, 0, 1⟩
/-- R448: State -/
def DMA_CHc_STATUS (c : Nat) : Nat := 0xE0108 + 0x40 * c
def DMA_CHc_STATUS_req_pending (c : Nat) : FieldAt := ⟨DMA_CHc_STATUS c, 8, 1⟩
def DMA_CHc_STATUS_state (c : Nat) : FieldAt := ⟨DMA_CHc_STATUS c, 0, 3⟩
/-- R448: [31:5] base [31:5] -/
def DMA_CHc_RING_LO (c : Nat) : Nat := 0xE010C + 0x40 * c
/-- R448: [19:16] k, values outside 1-12 act as 1; [7:0] base [39:32]; follows R17 -/
def DMA_CHc_RING_HI (c : Nat) : Nat := 0xE0110 + 0x40 * c
/-- R448: [15:0] (R432) -/
def DMA_CHc_SW_IDX (c : Nat) : Nat := 0xE0114 + 0x40 * c
/-- R448: [15:0] (R432) -/
def DMA_CHc_HW_IDX (c : Nat) : Nat := 0xE0118 + 0x40 * c
/-- R448: [15:0] starved ticks, [31:16] withdrawals; each saturates -/
def DMA_CHc_COUNT0 (c : Nat) : Nat := 0xE011C + 0x40 * c
/-- R448: [15:0] descriptor errors, [31:16] own errors; each saturates -/
def DMA_CHc_COUNT1 (c : Nat) : Nat := 0xE0120 + 0x40 * c
/-- R448: [31:16] counter value, [5:0] code of the last error -/
def DMA_CHc_LAST_ERR (c : Nat) : Nat := 0xE0124 + 0x40 * c
/-- R448: Channel events -/
def DMA_CHc_INT_STATUS (c : Nat) : Nat := 0xE0128 + 0x40 * c
def DMA_CHc_INT_STATUS_idx_err (c : Nat) : FieldAt := ⟨DMA_CHc_INT_STATUS c, 9, 1⟩
def DMA_CHc_INT_STATUS_stopped (c : Nat) : FieldAt := ⟨DMA_CHc_INT_STATUS c, 8, 1⟩
def DMA_CHc_INT_STATUS_withdrawn (c : Nat) : FieldAt := ⟨DMA_CHc_INT_STATUS c, 7, 1⟩
def DMA_CHc_INT_STATUS_own_err (c : Nat) : FieldAt := ⟨DMA_CHc_INT_STATUS c, 6, 1⟩
def DMA_CHc_INT_STATUS_desc_err (c : Nat) : FieldAt := ⟨DMA_CHc_INT_STATUS c, 5, 1⟩
def DMA_CHc_INT_STATUS_starved (c : Nat) : FieldAt := ⟨DMA_CHc_INT_STATUS c, 4, 1⟩
def DMA_CHc_INT_STATUS_empty (c : Nat) : FieldAt := ⟨DMA_CHc_INT_STATUS c, 3, 1⟩
def DMA_CHc_INT_STATUS_full (c : Nat) : FieldAt := ⟨DMA_CHc_INT_STATUS c, 2, 1⟩
def DMA_CHc_INT_STATUS_half (c : Nat) : FieldAt := ⟨DMA_CHc_INT_STATUS c, 1, 1⟩
def DMA_CHc_INT_STATUS_done (c : Nat) : FieldAt := ⟨DMA_CHc_INT_STATUS c, 0, 1⟩
/-- R448: Enables for those events -/
def DMA_CHc_INT_ENABLE (c : Nat) : Nat := 0xE012C + 0x40 * c
/-- R477: [23:16] vectors, [15:0] sources -/
def EVT_INFO : Nat := 0x20000
/-- R477: Bit j: level of source 32g + j -/
def EVT_LEVEL0 : Nat := 0x20010
/-- R477: Bit j: level of source 32g + j -/
def EVT_LEVEL1 : Nat := 0x20014
/-- R477: Bit j: level of source 32g + j -/
def EVT_LEVEL2 : Nat := 0x20018
/-- R477: Bit j: level of source 32g + j -/
def EVT_LEVEL3 : Nat := 0x2001C
/-- R477: Bit j: level of source 32g + j -/
def EVT_LEVEL4 : Nat := 0x20020
/-- R477: Bit j: level of source 32g + j -/
def EVT_LEVEL5 : Nat := 0x20024
/-- R477: Bit j: level of source 32g + j -/
def EVT_LEVEL6 : Nat := 0x20028
/-- R477: Bit j: level of source 32g + j -/
def EVT_LEVEL7 : Nat := 0x2002C
/-- R477: Requests of vectors 0-31 -/
def EVT_VREQ_LO : Nat := 0x20030
/-- R477: Requests of vectors 32-63 -/
def EVT_VREQ_HI : Nat := 0x20034
/-- R477: [5:0] vector (R466) -/
def EVT_EOI : Nat := 0x20038
/-- R477: [31:16] SW0-SW15; [6:3] compares 0-3; [2:0] tick strobes A-C -/
def EVT_LOCAL_STATUS : Nat := 0x2003C
/-- R477: Layout of EVT_LOCAL_STATUS -/
def EVT_LOCAL_ENABLE : Nat := 0x20040
/-- R477: [31:16] a write of 1 sets SW0-SW15 (R464); reads return 0, and the events are read in EVT_LOCAL_STATUS -/
def EVT_SW : Nat := 0x20044
/-- R477: d: [3:0] A, [11:8] B, [19:16] C -/
def EVT_TICK_DIV : Nat := 0x20048
/-- R477: [2n+1:2n] domain of compare n, 3 none; [8+n] arm, cleared by hardware -/
def EVT_CMP_CTRL : Nat := 0x2004C
/-- R477: Sample number [31:0] -/
def EVT_CMPn_LO (i : Nat) : Nat := 0x20050 + 0x8 * i
/-- R477: Sample number [63:32]; follows R17 -/
def EVT_CMPn_HI (i : Nat) : Nat := 0x20054 + 0x8 * i
/-- R477: [9:0] least interval between messages of vector v, in µs -/
def EVT_HOLDv (i : Nat) : Nat := 0x20100 + 0x4 * i
/-- R477: [31] msix; [29] irq1; [28] irq0; [5:0] vector -/
def EVT_ROUTEs (i : Nat) : Nat := 0x20400 + 0x4 * i
/-- R478: [31] link up; [27:24] speed, the generation number 1 to 4, and 0 while the link is down; [21:20] width, 1 or 2, and 0 while the link is down; [8] Bus Master Enable; [7] MSI-X enabled; [6] function masked; [1:0] D-state, 0 D0, 3 D3hot -/
def PCIE_STATUS : Nat := 0x190000
/-- R478: [19:16] n − 28 for the BAR2 size -/
def PCIE_CFG : Nat := 0x190004
/-- R478: DRAM offset [31:0] (R453) -/
def PCIE_BAR2_WIN_LO : Nat := 0x190008
/-- R478: [1:0] offset [33:32]; follows R17 -/
def PCIE_BAR2_WIN_HI : Nat := 0x19000C
/-- R478: [24:0] host address [63:39] (R455) -/
def PCIE_OB_BASE : Nat := 0x190010
/-- R478: [6] ob_err; [5] ib_err; [4] D-state changed; [3] flr; [2] hot_reset, set by a hot reset or a link-down reset (R456); [1] link_down; [0] link_up -/
def PCIE_INT_STATUS : Nat := 0x190014
/-- R478: Layout of PCIE_INT_STATUS -/
def PCIE_INT_ENABLE : Nat := 0x190018
/-- R478: [15:0] correctable, [31:16] uncorrectable link errors; each saturates -/
def PCIE_ERR_COUNT : Nat := 0x19001C
/-- R478: [15:0] inbound aborts and discards, [31:16] outbound errors; each saturates -/
def PCIE_REQ_ERR : Nat := 0x190020
/-- R478: 64 entries of 16 bytes, as the PCIe Base Specification lays down -/
def MSIX_TABLE (i : Nat) : Nat := 0x191000 + 0x4 * i
/-- R478: Pending bits of vectors 0-63 (R466) -/
def MSIX_PBA (i : Nat) : Nat := 0x192000 + 0x4 * i
/-- R479: [7:0] GPIO balls -/
def PAD_INFO : Nat := 0x1B0000
/-- R479: [2i+1:2i] role of GPIOi (R469) -/
def PAD_GPIO_ROLE : Nat := 0x1B0004
/-- R479: [15:0] synchronised ball levels -/
def PAD_GPIO_IN : Nat := 0x1B0008
/-- R479: [15:0] output levels -/
def PAD_GPIO_OUT : Nat := 0x1B000C
/-- R479: [15:0] edge events (R470) -/
def PAD_EV_EDGE : Nat := 0x1B0010
/-- R479: [15:0] stuck events (R472) -/
def PAD_EV_STUCK : Nat := 0x1B0014
/-- R479: [15:0] chatter events (R471) -/
def PAD_EV_CHAT : Nat := 0x1B0018
/-- R479: [15:0] enables of the three event registers -/
def PAD_EN_EDGE : Nat := 0x1B001C
/-- R479: [15:0] enables of the three event registers -/
def PAD_EN_STUCK : Nat := 0x1B0020
/-- R479: [15:0] enables of the three event registers -/
def PAD_EN_CHAT : Nat := 0x1B0024
/-- R479: [15:0] accepted level, 1 active; [31:16] suppressed -/
def PAD_GPIO_ACCEPT : Nat := 0x1B0030
/-- R479: [31:20] deb in 10 µs; [17:16] edge, 0 to active, 1 to inactive, 2 both, 3 acts as 2; [15] active_low; [14:8] chat_max; [7:0] chat_win in 10 ms, 0 acts as 1 -/
def PAD_GPIOi_COND (i : Nat) : Nat := 0x1B0100 + 0x10 * i
/-- R479: [15:0] stuck in 10 ms -/
def PAD_GPIOi_STUCK (i : Nat) : Nat := 0x1B0104 + 0x10 * i
/-- R479: [15:0] accepted changes, [31:16] suppressed changes; each saturates -/
def PAD_GPIOi_COUNT (i : Nat) : Nat := 0x1B0108 + 0x10 * i
/-- R480: [9:8] MDC, 0 2.5, 1 5, 2 12.5 MHz, 3 acts as 0; [1] I²C at 400 kHz; [0] spi_en -/
def SVC_CTRL : Nat := 0x1A0000
/-- R480: [13:8] FIFO bytes; [2] mdio_busy; [1] i2c_busy; [0] SPI access in progress -/
def SVC_STATUS : Nat := 0x1A0004
/-- R480: [31] start, WO; [22:16] address; [9] sub; [8] read; [5:0] count − 1 -/
def SVC_I2C_CMD : Nat := 0x1A0008
/-- R480: [7:0] one FIFO byte per access -/
def SVC_I2C_DATA : Nat := 0x1A000C
/-- R480: [31] start, WO; [30] Clause 45; [27:26] op, Clause 22 1 write, 2 read, Clause 45 0 address, 1 write, 3 read; [25:21] port; [20:16] register or device; [15:0] data or address -/
def SVC_MDIO_CMD : Nat := 0x1A0010
/-- R480: [15:0] read data -/
def SVC_MDIO_DATA : Nat := 0x1A0014
/-- R480: [4] mdio_done; [3] i2c_nak; [2] i2c_done; [1] SPI access ended in a default-target error; [0] SPI write performed -/
def SVC_INT_STATUS : Nat := 0x1A0018
/-- R480: Layout of SVC_INT_STATUS -/
def SVC_INT_ENABLE : Nat := 0x1A001C
/-- R500: [15:8] log records, [7:0] levels -/
def FLT_INFO : Nat := 0x30000
/-- R500: Level state -/
def FLT_STATUS : Nat := 0x30004
def FLT_STATUS_err_n : FieldAt := ⟨FLT_STATUS, 31, 1⟩
def FLT_STATUS_halted : FieldAt := ⟨FLT_STATUS, 30, 1⟩
def FLT_STATUS_cause : FieldAt := ⟨FLT_STATUS, 24, 5⟩
def FLT_STATUS_safe : FieldAt := ⟨FLT_STATUS, 16, 5⟩
def FLT_STATUS_unack : FieldAt := ⟨FLT_STATUS, 0, 5⟩
/-- R500: [5:4] tb; [2:0] err_level, values above 4 act as 4 -/
def FLT_CTRL : Nat := 0x30008
/-- R500: [4:0] acknowledge level L (R484) -/
def FLT_ACK : Nat := 0x3000C
/-- R500: [3:2] clear level 3, level 2 (R492) -/
def FLT_CLEAR : Nat := 0x30010
/-- R500: ERR_N control (R494) -/
def FLT_ERR_CTRL : Nat := 0x30014
def FLT_ERR_CTRL_hold : FieldAt := ⟨FLT_ERR_CTRL, 31, 1⟩
def FLT_ERR_CTRL_pulse : FieldAt := ⟨FLT_ERR_CTRL, 0, 10⟩
/-- R500: FLT events -/
def FLT_INT_STATUS : Nat := 0x30018
def FLT_INT_STATUS_wdog : FieldAt := ⟨FLT_INT_STATUS, 11, 1⟩
def FLT_INT_STATUS_inj_refused : FieldAt := ⟨FLT_INT_STATUS, 10, 1⟩
def FLT_INT_STATUS_inj_done : FieldAt := ⟨FLT_INT_STATUS, 9, 1⟩
def FLT_INT_STATUS_log_ovf : FieldAt := ⟨FLT_INT_STATUS, 8, 1⟩
def FLT_INT_STATUS_cleared : FieldAt := ⟨FLT_INT_STATUS, 7, 1⟩
def FLT_INT_STATUS_clear_refused : FieldAt := ⟨FLT_INT_STATUS, 6, 1⟩
def FLT_INT_STATUS_escalated : FieldAt := ⟨FLT_INT_STATUS, 5, 1⟩
def FLT_INT_STATUS_level : FieldAt := ⟨FLT_INT_STATUS, 0, 5⟩
/-- R500: Enables for those events -/
def FLT_INT_ENABLE : Nat := 0x3001C
/-- R500: L = 0-4: [15:0] records, [31:16] merged repeats; each saturates -/
def FLT_COUNTL (i : Nat) : Nat := 0x30020 + 0x4 * i
/-- R500: [6:0] records held; [31:16] lost, saturating -/
def FLT_LOG_STATUS : Nat := 0x30034
/-- R500: Oldest record (R499) -/
def FLT_LOG0 : Nat := 0x30038
def FLT_LOG0_valid : FieldAt := ⟨FLT_LOG0, 31, 1⟩
def FLT_LOG0_injected : FieldAt := ⟨FLT_LOG0, 30, 1⟩
def FLT_LOG0_escalated : FieldAt := ⟨FLT_LOG0, 29, 1⟩
def FLT_LOG0_level : FieldAt := ⟨FLT_LOG0, 26, 3⟩
def FLT_LOG0_reported : FieldAt := ⟨FLT_LOG0, 23, 3⟩
def FLT_LOG0_code : FieldAt := ⟨FLT_LOG0, 16, 5⟩
def FLT_LOG0_repeats : FieldAt := ⟨FLT_LOG0, 8, 8⟩
def FLT_LOG0_source : FieldAt := ⟨FLT_LOG0, 0, 8⟩
/-- R500: Oldest record (R499) -/
def FLT_LOG1 : Nat := 0x3003C
/-- R500: Oldest record (R499) -/
def FLT_LOG2 : Nat := 0x30040
/-- R500: Oldest record (R499) -/
def FLT_LOG3 : Nat := 0x30044
/-- R500: [31:16] period in ms, 0 off; [1:0] level, 0 acts as 1 -/
def FLT_WDOG : Nat := 0x30048
/-- R500: R495 -/
def FLT_KICK : Nat := 0x3004C
/-- R500: Check-bit inversion (R496) -/
def FLT_INJ_CTRL : Nat := 0x30050
def FLT_INJ_CTRL_arm : FieldAt := ⟨FLT_INJ_CTRL, 31, 1⟩
def FLT_INJ_CTRL_flips : FieldAt := ⟨FLT_INJ_CTRL, 28, 2⟩
def FLT_INJ_CTRL_target : FieldAt := ⟨FLT_INJ_CTRL, 0, 4⟩
/-- R500: Address or index [31:0] -/
def FLT_INJ_ADDR_LO : Nat := 0x30054
/-- R500: [7:0] address [39:32]; follows R17 -/
def FLT_INJ_ADDR_HI : Nat := 0x30058
/-- R500: [31] go; [26:24] level; [20:16] code; [7:0] source (R497) -/
def FLT_INJ_REPORT : Nat := 0x3005C
/-- R500: Level-2 scope of source s, s = 0-255 -/
def FLT_SCOPEs (i : Nat) : Nat := 0x31000 + 0x4 * i
def FLT_SCOPEs_streams (i : Nat) : FieldAt := ⟨FLT_SCOPEs i, 6, 1⟩
def FLT_SCOPEs_amp (i : Nat) : FieldAt := ⟨FLT_SCOPEs i, 5, 1⟩
def FLT_SCOPEs_tdm (i : Nat) : FieldAt := ⟨FLT_SCOPEs i, 4, 1⟩
def FLT_SCOPEs_domains (i : Nat) : FieldAt := ⟨FLT_SCOPEs i, 0, 3⟩
/-- R519: [7:0] requesters -/
def WEIR_INFO : Nat := 0x40000
/-- R519: [11:0] B_w in units (R502) -/
def WEIR_BUDGET : Nat := 0x40004
/-- R519: [11:0] F in units -/
def WEIR_RESERVE : Nat := 0x40008
/-- R519: [31] over; [27:16] free units; [11:0] units granted -/
def WEIR_STATUS : Nat := 0x4000C
/-- R519: [21:0] requests pending -/
def WEIR_REQ : Nat := 0x40010
/-- R519: [21:0] grants held -/
def WEIR_GRANT : Nat := 0x40014
/-- R519: [7:0] hold in ms; 0 acts as 1 -/
def WEIR_CTRL : Nat := 0x40018
/-- R519: [27:16] highest since last read of WEIR_COUNT; [11:0] last measurement -/
def WEIR_MEAS : Nat := 0x4001C
/-- R519: Weir events -/
def WEIR_INT_STATUS : Nat := 0x40020
def WEIR_INT_STATUS_unfit : FieldAt := ⟨WEIR_INT_STATUS, 4, 1⟩
def WEIR_INT_STATUS_budget_refused : FieldAt := ⟨WEIR_INT_STATUS, 3, 1⟩
def WEIR_INT_STATUS_over : FieldAt := ⟨WEIR_INT_STATUS, 2, 1⟩
def WEIR_INT_STATUS_starving : FieldAt := ⟨WEIR_INT_STATUS, 1, 1⟩
def WEIR_INT_STATUS_granted : FieldAt := ⟨WEIR_INT_STATUS, 0, 1⟩
/-- R519: Enables for those events -/
def WEIR_INT_ENABLE : Nat := 0x40024
/-- R519: [15:0] starving entries, [31:16] over entries; each saturates -/
def WEIR_COUNT : Nat := 0x40028
/-- R519: [11:0] cost of requester r; r = 3 reads 0 -/
def WEIR_COSTr (i : Nat) : Nat := 0x40040 + 0x4 * i
/-- R519: [11:0] cost of mode m, m = 0-11 -/
def WEIR_MODE_COSTm (i : Nat) : Nat := 0x40100 + 0x4 * i
/-- R520: [1] dram_en; [0] en (R514) -/
def DRG_CTRL : Nat := 0x170000
/-- R520: [11:0] seconds (R512) -/
def DRG_SRAM_PERIOD : Nat := 0x170004
/-- R520: [10:0] minutes (R512) -/
def DRG_DRAM_PERIOD : Nat := 0x170008
/-- R520: [31] burst running; [30] leave held; [29] request pending; [16] region of the burst, 0 SRAM, 1 DRAM; [15:0] pass progress in 1/65,536 -/
def DRG_STATUS : Nat := 0x17000C
/-- R520: [15:0] duration of the last SRAM pass, in s -/
def DRG_PASS_SRAM : Nat := 0x170010
/-- R520: [15:0] duration of the last DRAM pass, in min -/
def DRG_PASS_DRAM : Nat := 0x170014
/-- R520: [15:0] corrected, [31:16] uncorrected words found; each saturates -/
def DRG_COUNT : Nat := 0x170018
/-- R520: [2] late; [1] dram_pass; [0] sram_pass -/
def DRG_INT_STATUS : Nat := 0x17001C
/-- R520: Layout of DRG_INT_STATUS -/
def DRG_INT_ENABLE : Nat := 0x170020
/-- R521: [31:16] TLM_PERIOD in ms, 0 acts as 1, values above 1000 act as 1000; [11:8] k of the ring, 0 acts as 1, 13-15 act as 12; [7:0] tj_warn in °C, with silicon default 100 (0x64) where the image supplies none (R18, R516) -/
def TLM_CTRL : Nat := 0x180000
/-- R521: [0] telemetry enabled -/
def TLM_EN : Nat := 0x180004
/-- R521: Ring base [31:6]; writable while TLM_EN is 0 -/
def TLM_RING_LO : Nat := 0x180008
/-- R521: [7:0] base [39:32]; follows R17 -/
def TLM_RING_HI : Nat := 0x18000C
/-- R521: [31:0] records written -/
def TLM_WR_IDX : Nat := 0x180010
/-- R521: [15:0] skipped records, [31:16] item read errors; each saturates -/
def TLM_COUNT : Nat := 0x180014
/-- R521: n = 0-3: [15:0] temperature, signed, 1/16 °C -/
def TLM_TEMPn (i : Nat) : Nat := 0x180020 + 0x4 * i
/-- R521: [31:16] highest since last read; [15:0] Tj; both signed, 1/16 °C -/
def TLM_TJ : Nat := 0x180030
/-- R521: [3] item_err; [2] skip; [1] warn_end; [0] warn -/
def TLM_INT_STATUS : Nat := 0x180034
/-- R521: Layout of TLM_INT_STATUS -/
def TLM_INT_ENABLE : Nat := 0x180038
/-- R521: [31:16] upper, [15:0] lower limit, in mV -/
def TLM_VWINv (i : Nat) : Nat := 0x180100 + 0x4 * i
/-- R521: [15:0] last sample in mV -/
def TLM_VMEASv (i : Nat) : Nat := 0x180140 + 0x4 * i
/-- R521: [31:30] kind, 0 none, 1 moving average, 2 monitor, 3 register; [23:0] channel, monitor or register offset -/
def TLM_ITEMi (i : Nat) : Nat := 0x180200 + 0x4 * i
/-- R539: [31:16] device; [15:8] stepping, encoded as min_step (R75) -/
def GLB_ID : Nat := 0
/-- R539: [4:2] DEVID; [1:0] BOOT -/
def GLB_STRAP : Nat := 0x4
/-- R539: [2] GLB_RST; [1] RST_N; [0] POR_N -/
def GLB_RESET_CAUSE : Nat := 0x8
/-- R539: Boot state -/
def GLB_BOOT_STATUS : Nat := 0xC
def GLB_BOOT_STATUS_code : FieldAt := ⟨GLB_BOOT_STATUS, 8, 8⟩
def GLB_BOOT_STATUS_source : FieldAt := ⟨GLB_BOOT_STATUS, 4, 2⟩
def GLB_BOOT_STATUS_state : FieldAt := ⟨GLB_BOOT_STATUS, 0, 4⟩
/-- R539: [31] last; [22:0] chunk length in bytes, 1 to 0x40_0000 (R529) -/
def GLB_PUSH : Nat := 0x10
/-- R539: Device reset key (R523) -/
def GLB_RST : Nat := 0x14
/-- R539: [15:0] ms from POR_N release to first audio -/
def GLB_BOOT_TIME : Nat := 0x18
/-- R539: New image address [31:0], 16-byte aligned -/
def GLB_REPL_SRC_LO : Nat := 0x1C
/-- R539: [7:0] address [39:32]; follows R17 -/
def GLB_REPL_SRC_HI : Nat := 0x20
/-- R539: Replacement control -/
def GLB_REPL_CTRL : Nat := 0x24
def GLB_REPL_CTRL_start : FieldAt := ⟨GLB_REPL_CTRL, 31, 1⟩
def GLB_REPL_CTRL_abort : FieldAt := ⟨GLB_REPL_CTRL, 30, 1⟩
def GLB_REPL_CTRL_at_en : FieldAt := ⟨GLB_REPL_CTRL, 0, 1⟩
/-- R539: Replacement state -/
def GLB_REPL_STATUS : Nat := 0x28
def GLB_REPL_STATUS_code : FieldAt := ⟨GLB_REPL_STATUS, 8, 8⟩
def GLB_REPL_STATUS_state : FieldAt := ⟨GLB_REPL_STATUS, 0, 3⟩
/-- R539: Take sample number [31:0] -/
def GLB_REPL_AT_LO : Nat := 0x2C
/-- R539: Same, [63:32]; follows R17 -/
def GLB_REPL_AT_HI : Nat := 0x30
/-- R539: GLB events -/
def GLB_INT_STATUS : Nat := 0x34
def GLB_INT_STATUS_repl_late : FieldAt := ⟨GLB_INT_STATUS, 5, 1⟩
def GLB_INT_STATUS_repl_err : FieldAt := ⟨GLB_INT_STATUS, 4, 1⟩
def GLB_INT_STATUS_repl_done : FieldAt := ⟨GLB_INT_STATUS, 3, 1⟩
def GLB_INT_STATUS_push_ready : FieldAt := ⟨GLB_INT_STATUS, 2, 1⟩
def GLB_INT_STATUS_boot_fail : FieldAt := ⟨GLB_INT_STATUS, 1, 1⟩
def GLB_INT_STATUS_first_audio : FieldAt := ⟨GLB_INT_STATUS, 0, 1⟩
/-- R539: Enables for those events -/
def GLB_INT_ENABLE : Nat := 0x38

end R

end Sys2Proof.Machine
end

