-- ==== Sys2Proof/Machine/State.lean ====
section
/-!
DEFINITION. The state of the device as plain data: every register (by its control address), the layers behind the registers, and
every buffer, counter, mode and queue the chapters of spec/ give a block, each block in a record of its own. Per-instance
records and memories are sparse tables (Machine/Tab.lean): an unlisted instance is as reset leaves it.
-/
namespace Sys2Proof.Machine

/-- One tick's samples for one channel group (01 R22): the number of its tick, of which it carries the low 8 bits as its tag (04
R118), and its words in sample-major order (04 R117). -/
structure Barge where
  tick : Nat
  words : List Sample
  deriving DecidableEq, Repr

/-- A lock (01 R22 to R26): the producer's credit counter, barges committed and still crossing, barges present at the consumer,
ticks whose barge its consumer no longer awaits (01 R34), for an ingress lock the capture barge in assembly (02 R53), and for a lock to the filter
chain the tick it took last; and for an egress lock the boundary planned for a change of the latency of its path, with the boundary at which
it changed (03 R99). -/
structure Lock where
  spec : LockSpec
  credit : Nat
  flight : List Barge
  present : List Barge
  missed : List Nat
  asm : List Sample
  last : Option Nat
  refade : Option (Nat × Option Nat)
  deriving DecidableEq, Repr

/-- The fade position of an output (02 R51, R52): none, fading out for a coming boundary, held at zero, or fading in. `j` counts the
32 samples of a fade. -/
inductive Fade where
  | none | out (j : Nat) | zero | into (j : Nat)
  deriving DecidableEq, Repr

/-- A rate domain (02 R48 to R52): the tick length B (0 before an image sets it), the 64-bit sample number, whether the sample edge that
brings it is still to come, as from the start of the domain to its first edge (R49, R51), the fade of its outputs (02 R51), the boundary and tick length of a pending
change of B or re-alignment, the sample at which the zeros after such a boundary end, and the first tick of the pipeline that runs (10 R292). -/
structure Domain where
  b : Nat := 0
  sample : BitVec 64 := 0
  fresh : Bool := false
  fade : Fade := .none
  pendingB : Option (Nat × Nat) := none
  realignAt : Option (BitVec 64) := none
  zeroTo : Nat := 0
  first : Nat := 0
  deriving DecidableEq, Repr

/-- The three layers of the register values (03 R87, R88): the image layer (unlisted: the reset value), the value software
last wrote and the bits it has written, the registers whose SH bits await their boundary and the cycle of the last write of each (00 R15),
the lower words of wide
values written and not yet in effect, and the snapshots of higher words (00 R17). -/
structure Layers where
  image : List (Nat × Word) := []
  soft : List (Nat × Word) := []
  softMask : List (Nat × Word) := []
  shPending : List Nat := []
  shAt : List (Nat × Nat) := []
  held : List (Nat × Option Word) := []
  snapshot : List (Nat × Option Word) := []
  deriving DecidableEq, Repr

/-- One write of a compiled overlay (03 R79, R81): register address, mask and value. -/
structure OvWrite where
  addr : Nat
  mask : Word
  value : Word
  deriving DecidableEq, Repr

/-- A REPLACE record of an overlay (03 R79, R82): type, instance, and the register writes and window words before it in its stream (R81). -/
structure Replaced where
  kind : Nat
  inst : Nat
  writes : Nat
  words : Nat
  deriving DecidableEq, Repr

/-- An overlay of the loaded image (03 R90): the flags, place and CRC of its table entry, and its records compiled: the layered
register writes, those in force while it is held (with what its payloads write), the unlayered words of memory windows (03 R561), its
REPLACE records and the contents of their payloads (03 R82). -/
structure Overlay where
  mode : Nat
  needsLeave : Bool
  hasReplace : Bool
  absent : Bool
  resident : Bool
  off : Nat
  len : Nat
  crc : Word
  valid : Bool
  writes : List OvWrite
  inForce : List OvWrite
  words : List (Nat × Word × Word)
  replaces : List Replaced
  contents : List SectionContent
  deriving DecidableEq, Repr

/-- An armed take that still occurs if its boundary comes before a restarted staging is complete (03 R97): its set, its payloads and its leave. -/
structure Prior where
  set : BitVec 12
  contents : List PayloadContent
  leave : Nat
  deriving DecidableEq, Repr

/-- The image in use and the overlay sequencer (03 R85, R92 to R98, R103): overlays in table order, the mode set named by the
image, the take domain, the pending set of a running staging, whether its staging is complete, the payloads it read and whether it needs
leave; an armed take that a newer request is replacing (R97); the boundaries at which an armed take acts in the take domain and in every
domain whose B or whose paths it changes (R93, R99; 02 R52); and the register bits, contents and window words of a take that other domains
have yet to apply at their own boundary, by domain (R93). -/
structure Cfg where
  overlays : List Overlay := []
  bootModes : BitVec 12 := 0
  takeDomain : DomIx := 0
  shadowLen : Nat := 0
  imageBytes : Nat := 0
  contents : List SectionContent := []
  pendingSet : BitVec 12 := 0
  staged : Bool := false
  stageContents : List PayloadContent := []
  needLeave : Bool := false
  prior : Option Prior := none
  point : Option Nat := none
  points : List (Nat × Nat) := []
  laterRegs : List (Nat × Nat × Word) := []
  laterContents : List (Nat × SectionContent) := []
  laterWords : List (Nat × Nat × Word × Word) := []
  deriving DecidableEq, Repr

/-- Reset, boot and image replacement (21 R523 to R538): fuse values, the number of attempts made, the bytes pushed or received
so far and whether the last has come, the chunk handed over and not yet taken, the domains whose clock the loader awaits, and the image
a replacement stages. -/
structure Glb where
  fuses : Fuses := ⟨false, false, false, 0, 0⟩
  attempts : Nat := 0
  pushed : List Byte := []
  pushLast : Bool := false
  chunk : Option (Nat × Bool) := none
  clocksWaiting : List Nat := []
  newImage : Option Image := none
  deriving DecidableEq, Repr

/-- A record of the fault collector (19 R481 to R484, R491, R499): source, code, recorded and reported level, flags, the count of
merged repeats, and the time of the first report in the layout of FLT_LOG1 to FLT_LOG3. -/
structure FaultRecord where
  source : Nat
  code : Nat
  level : Nat
  reported : Nat
  escalated : Bool
  injected : Bool
  acked : Bool
  cause : Bool
  inLog : Bool
  repeats : Nat
  time1 : Word
  time2 : Word
  time3 : Word
  deriving DecidableEq, Repr

/-- The fault collector (19): its records, oldest first, the scopes of the level-2 safe states in force (R485, R490), whether
ERR_N's pulse runs, whether hold clears at its end and the cycle of the latest assertion (R494), and when the watchdog's count last started (R495). -/
structure Flt where
  records : List FaultRecord := []
  scopes : List Nat := []
  pulse : Bool := false
  clearAtPulseEnd : Bool := false
  errAt : Nat := 0
  watchdogAt : Nat := 0
  deriving DecidableEq, Repr

/-- One requester of the weir (20 R503 to R507): whether a request waits, its cost, its arrival, whether it is starving or unfit,
and the amount granted and held. -/
structure Requester where
  pending : Bool := false
  cost : Nat := 0
  since : Nat := 0
  starving : Bool := false
  unfit : Bool := false
  grant : Nat := 0
  deriving DecidableEq, Repr

/-- The weir (20 R501 to R509): its requesters by rank, the amount the overlay sequencer holds for each mode (R504), and the runs of
measurements above and below the limits of R509. -/
structure Weir where
  req : List (Nat × Requester) := []
  modeLeave : List (Nat × Nat) := []
  above : Nat := 0
  below : Nat := 0
  deriving DecidableEq, Repr

/-- The event controller (18 R463 to R468): the vectors whose request stood when last judged, when each vector last sent (in 4 ns
cycles), and the levels of the IRQ pins. -/
structure Evt where
  requests : BitVec 64 := 0
  lastSent : List (Nat × Option Nat) := []
  irq0 : Bool := false
  irq1 : Bool := false
  deriving DecidableEq, Repr

/-- The response of the last completed access (17 R425): the data returned, and how it ended. -/
inductive Response where
  | okay | dataError | defaultTarget
  deriving DecidableEq, Repr

structure BusReply where
  data : List Word := []
  response : Response := .okay
  deriving DecidableEq, Repr

/-- One level of the hardware loop stack (05 R155 to R157): start and end address, the count register saved by the push, and whether a
loop-back has occurred. -/
structure LoopLevel where
  start : BitVec 13
  stop : BitVec 13
  savedLc : BitVec 16
  looped : Bool
  deriving DecidableEq, Repr

/-- The register an engine result is written to (05 R149, R161). -/
inductive EngReg where
  | d (i : Nat) | a (i : Nat) | aLow (i : Nat) | aHigh (i : Nat) | aGuard (i : Nat)
  | p (i : Nat) | m (i : Nat) | l (i : Nat) | lc | sr | none
  deriving DecidableEq, Repr

/-- A result waiting for its latency (05 R161, R162): the slot of its instruction that made it (0 lane 0, 1 lane 1, 2 X, 3 Y), the
cycles until it is readable, its register and its value. -/
structure Result where
  slot : Nat
  wait : Nat
  reg : EngReg
  value : Acc
  deriving DecidableEq, Repr

/-- The arithmetic flags one lane forms (05 R163). -/
structure LaneFlags where
  z : Bool
  n : Bool
  gu : Nat
  c : Bool
  v : Bool
  deriving DecidableEq, Repr

/-- The instruction in progress: the results of its operations so far, the flags of each lane and whether a transfer saturated. -/
structure InFlight where
  results : List Result := []
  lane0 : Option LaneFlags := none
  lane1 : Option LaneFlags := none
  sat : Bool := false
  error : Bool := false
  deriving DecidableEq, Repr

/-- A store in a store buffer (04 R113): its address and data, and the engine cycles until the one in which it is written. -/
structure Buffered where
  addr : Ptr
  data : Sample
  wait : Nat
  deriving DecidableEq, Repr

/-- One signal engine (04 R107, register file): program pages (word 8192 × page + address), X and Y memory, the two parameter pages
(256 × page + word), the register file, the loop stack and loop cache, the store buffers, results not yet readable, the bindings of its
inlets and outlets (R117, R121), and its segment: the awaited or running tick, words read of each inlet, inlets absent and outlets
without credit in this segment, the words sent to each outlet, the outlets committed, the engine cycles since the gate, a deadline of
the next tick already passed (R123), the boundaries from which requested page swaps may act (R116, R125), and
the parameter words an external master wrote since a page copy began (R116). -/
structure Engine where
  prog : List (Nat × BitVec 48) := []
  x : List (Nat × Sample) := []
  y : List (Nat × Sample) := []
  param : List (Nat × Sample) := []
  paramOn : Bool := false
  d : List (Nat × Sample) := []
  a : List (Nat × Acc) := []
  p : List (Nat × Ptr) := []
  m : List (Nat × Ptr) := []
  l : List (Nat × Ptr) := []
  lc : BitVec 16 := 0
  sr : BitVec 16 := 0
  pc : BitVec 13 := 0
  stack : List LoopLevel := []
  cache : Option (BitVec 13 × BitVec 13) := none
  cacheValid : Bool := false
  storesX : List Buffered := []
  storesY : List Buffered := []
  delayed : List Result := []
  cur : InFlight := {}
  inlets : List (Option Nat) := []
  outlets : List Nat := []
  tick : Nat := 0
  read : List (Nat × Nat) := []
  absent : List Nat := []
  dropped : List Nat := []
  sent : List (Nat × List Sample) := []
  complete : List Nat := []
  committed : List Nat := []
  cycles : Nat := 0
  lastCommit : Nat := 0
  lateNext : Bool := false
  late : Bool := false
  faulty : Bool := false
  fails : Nat := 0
  swapAt : List Nat := []
  paramSwapAt : List Nat := []
  paramTouched : List Nat := []
  stagingPage : Bool := false
  deriving DecidableEq, Repr

/-- How a segment of an engine in a substitution ended (04 R562): its tick, whether it started late or was skipped, whether an inlet
was absent, whether an outlet had no credit, and the words of its outlets. -/
structure SegEnd where
  tick : Nat
  late : Bool
  absent : Bool
  dropped : Bool
  words : List (Nat × List Sample)
  deriving DecidableEq, Repr

/-- A substitution unit (04 R129 to R134, R562), for SE32 or SE33: the duplicated inlet feeds (lock of the working engine, lock of its
copy), the segments of the working and of the prepared engine not yet judged, the state reached within state 7 (2 relock, 3 copy, 4
compare, 5 ready), the method in effect (1 copy, 2 warm), the boundary from which a requested cut may be made, the target's domain at the
start, and the boundary of an abort. -/
structure Subst where
  feeds : List (Nat × Nat) := []
  workEnds : List SegEnd := []
  prepEnds : List SegEnd := []
  stage : Nat := 0
  method : Nat := 0
  cutAt : Option Nat := none
  domain : Nat := 3
  abortAt : Option Nat := none
  deriving DecidableEq, Repr

/-- A ramp slot of the basin (06 R179 to R181): its node (output × 1024 + input), the sample number it started at, start and target gain and length;
`held` for a slot that a take keeps with its value `gs` until its crossfade ends (R175). -/
structure RampSlot where
  node : Nat
  start : Int
  gs : Int
  gt : Int
  len : Nat
  held : Bool
  deriving DecidableEq, Repr

/-- A running scene crossfade (06 R175): the sample number it started at, its length, and the nodes a ramp has taken out of it (R181). -/
structure SceneFade where
  start : Int
  len : Nat
  out : List Nat
  deriving DecidableEq, Repr

/-- A ramp command in the queue, with the cycle of its push (06 R178, R179). -/
structure RampCmd where
  node : Nat
  gain : Sample
  len : Nat
  gang : Bool
  pushed : Nat
  deriving DecidableEq, Repr

/-- What decides the gain at a node (06 R170): the active bank, both banks (node, gain), the ramp slots, the crossfade, and the words (bank,
node) found with an uncorrectable error (R184). -/
structure Gains where
  bank : Nat := 0
  words0 : List (Nat × Sample) := []
  words1 : List (Nat × Sample) := []
  ramps : List RampSlot := []
  fade : Option SceneFade := none
  dead : List (Nat × Nat) := []
  deriving DecidableEq, Repr

/-- The basin (06): its groups, the gains for the tick that begins (`now`) and for the tick in process (`was`), the ramp queue and
whether its last gang is open, the pending take (some (some n): at sample number n) and the cycle of its request, whether overlay staging owns the inactive bank
and the words software wrote or the copy reached in it during a copy, and the phase in progress: its tick, the sums by output × B + sample, the groups
done, those taken as zeros, and the groups absent in the tick before (R185). -/
structure Basin where
  ins : List GroupSpec := []
  outs : List GroupSpec := []
  now : Gains := {}
  was : Gains := {}
  queue : List RampCmd := []
  gang : Bool := false
  take : Option (Option Nat) := none
  takeSince : Nat := 0
  staging : Bool := false
  touched : List Nat := []
  tick : Nat := 0
  sums : List (Nat × Int) := []
  done : List Nat := []
  zero : List Nat := []
  wasZero : List Nat := []
  deriving DecidableEq, Repr

/-- A route that took effect (06 R189, R190): from which tick, its source, whether it is delayed, and whether it crossfades. -/
structure RouteChange where
  tick : Nat
  source : Nat
  delayed : Bool
  xf : Bool
  deriving DecidableEq, Repr

/-- The router (06): descriptors, destination groups, the changes of each destination (newest first), the next tick of each group's lock,
the source barges kept for a delayed route (lock, barge), sources taken as absent (destination lock, source lock, tick), and the destinations whose route entry has an
uncorrectable error (R193). -/
structure Router where
  sources : List DescSpec := []
  dests : List DescSpec := []
  hops : List HopSpec := []
  changes : List (Nat × List RouteChange) := []
  next : List (Nat × Nat) := []
  kept : List (Nat × Barge) := []
  absent : List (Nat × Nat × Nat) := []
  dead : List Nat := []
  deriving DecidableEq, Repr

/-- A term of a fast monitor feed (06 R195): the source in effect, whether it is enabled, its ramp (start, target, position, length), and a
source to switch to, with the gain to ramp back to, once the term has come down to zero. -/
structure FmpTerm where
  source : Nat := 0
  on : Bool := false
  g0 : Int := 0
  g1 : Int := 0
  t : Nat := 0
  len : Nat := 0
  switchTo : Option Nat := none
  deriving DecidableEq, Repr

/-- A fast monitor feed (06 R194 to R197): its terms; the mode and output in effect; a crossfade of its content (old mode, sample of 32),
and the output and mode to fade in once the old output has faded to its router content. -/
structure Feed where
  terms : List (Nat × FmpTerm) := []
  mode : Nat := 0
  amp : Bool := false
  out : Nat := 0
  fadeFrom : Option (Nat × Nat) := none
  moveTo : Option (Nat × Bool × Nat) := none
  deriving DecidableEq, Repr

/-- A bridge group (07 R202, R206): the next tick of its input and of its output side, and its history, newest barge first. -/
structure BridgeGroup where
  nextIn : Nat := 0
  nextOut : Nat := 0
  history : List (List Sample) := []
  deriving DecidableEq, Repr

/-- A bridge pair (07 R204, R207 to R209): the output tick its fade-out begins at, and the one its fade-in begins at; the last output tick
measured and the consecutive measurements within 1/128 sample; and an output tick with the input position of its first sample. -/
structure BridgePair where
  outAt : Option Nat := none
  inAt : Option Nat := none
  seen : Option Nat := none
  good : Nat := 0
  base : Option (Nat × Rat) := none
  deriving DecidableEq, Repr

/-- A decimator and its FIR (07 R211 to R216): input samples not yet used and the sample number of the first, integrators, comb delays, the
delay line newest first, the parity of a decimating FIR, the position in a swap crossfade and its length, coefficients (bank × 64 + k) with
an uncorrectable error, the number of the next output of a bitstream, outputs by number not yet committed to a barge, the last output, whether it has been read, whether a DMA request stands, and the recovery of R220 (output
count, output before). -/
structure Cic where
  queue : List Sample := []
  at_ : Nat := 0
  integ : List (BitVec 64) := []
  comb : List (BitVec 64) := []
  line : List Sample := []
  odd : Bool := false
  fade : Option (Nat × Nat) := none
  dead : List Nat := []
  next : Option Nat := none
  outs : List (Nat × Sample) := []
  last : Sample := 0
  unread : Bool := false
  request : Bool := false
  recover : Option (Nat × Sample) := none
  deriving DecidableEq, Repr

/-- A moving-average channel (07 R217 to R219): input samples not yet used, the number of the first and the tick of the last, its completed
blocks newest first, the hops since restart, its result (RES [63:0]), and the words it is a router source of, by tick of their hop. -/
structure MovingAverage where
  queue : List Sample := []
  at_ : Nat := 0
  tick : Nat := 0
  blocks : List Int := []
  hops : Nat := 0
  result : BitVec 64 := 0
  words : List (Nat × Sample) := []
  deriving DecidableEq, Repr

/-- The rate bridges and the filter chain (07): bridge groups of the image with their run state, the pairs, the decimators and the
moving-average channels in use. -/
structure Filters where
  groups : List BridgeSpec := []
  runs : List (Nat × BridgeGroup) := []
  pairs : List (Nat × BridgePair) := []
  cics : List (Nat × Cic) := []
  channels : List Nat := []
  mas : List (Nat × MovingAverage) := []
  staging : Bool := false
  deriving DecidableEq, Repr

/-- A TDM group (08): the format in effect; the format held for a change and one applied after it (R237), the step of the change (0 none, 1
before k0, 2 before k1, 3 fading in) and k0; whether a slave is locked or has unlocked; runs of good frames, frame errors and mismatched
periods (R239 to R242); whether it is in the drift window (R232); whether the next input frame repeats (R240); the cycle of the last accepted apply (R237);
of a locked slave the sample number of its first frame captured and of the frame in progress (R231); the BCLK count at which BCLK stopped
(R241); the fades that run on its inputs and on its outputs, which multiply, a standing zero among them (R234, R237), the position of a fade
from the last good sample (R241), the safe state, its fade, and whether the output frame in progress is a safe one and one of a locked group
(R242, R244), and the frequency at the last rate_chg (R243). -/
structure TdmGroup where
  fmt : Word := 0
  next : Option Word := none
  later : Option Word := none
  step : Nat := 0
  k0 : Nat := 0
  locked : Bool := false
  unlocked : Bool := false
  good : Nat := 0
  bad : Nat := 0
  slow : Nat := 0
  drifted : Bool := false
  again : Bool := false
  applied : Nat := 0
  number : Option (Nat × Nat) := none
  stopAt : Option Nat := none
  fadeIn : List Fade := []
  fadeOut : List Fade := []
  held : Option Nat := none
  safe : Bool := false
  safeFade : Fade := .none
  frameSafe : Bool := false
  frameLocked : Bool := false
  lastRate : Nat := 0
  deriving DecidableEq, Repr

/-- The serial ports (08): the groups; the fades that run on input and output slots (port × 32 + slot); the last samples
received; the output holding registers and the samples of the output frame in progress; and the line of that frame and of the one before it
(`none` where the slot is released). -/
structure Tdm where
  groups : List (Nat × TdmGroup) := []
  ins : List (Nat × List Fade) := []
  outs : List (Nat × List Fade) := []
  last : List (Nat × Sample) := []
  hold : List (Nat × Sample) := []
  words : List (Nat × Sample) := []
  line : List (Nat × Option Sample) := []
  prior : List (Nat × Option Sample) := []
  deriving DecidableEq, Repr

/-- An amplifier channel (09): the samples it has taken, newest first (R250); the loop's integrator, limiter peak, last duty and whether it
was clamped (R252, R254, R260); the common-mode ramp's length in ms, position in fifths of a loop period, and whether a falling one has ended low
(R256, R257); the fade of its reference (R256, R265), and the loop periods of a mute ramp (R265). Of the modulator (R251, R252): the loop period
within the carrier period, the error carried to the next edge in 125 ps, the part of a narrow pulse that is due, the width of this period's
pulse where it is a narrow one, and the level between edges. Of the limits (R261): the level driven until the next edge, whether the limit has
acted in this carrier period, and the consecutive periods before it in which it did. Whether a retry that fell due is held (R258). Of calibration
(R266): the corrections, their latest estimates, and the loop periods and sums of the window. -/
structure AmpChannel where
  samples : List Sample := []
  q : Rat := 0
  peak : Rat := 0
  duty : Rat := 0
  clamped : Bool := false
  rampLen : Nat := 0
  rampPos : Nat := 0
  low : Bool := false
  fade : Fade := .none
  mutePos : Nat := 0
  phase : Nat := 0
  carry : Rat := 0
  due : Rat := 0
  narrow : Option Rat := none
  level : Bool := false
  forced : Option Bool := none
  limited : Bool := false
  run : Nat := 0
  retryDue : Bool := false
  voff : Rat := 0
  vgain : Rat := 0
  ioff : Rat := 0
  toVoff : Option Rat := none
  toVgain : Option Rat := none
  toIoff : Option Rat := none
  window : Nat := 0
  sumV : Rat := 0
  sumD : Rat := 0
  sumI : Rat := 0
  deriving DecidableEq, Repr

/-- An amplifier group (09): runs of loop periods with the rail below uv, above ov and within its inner window (R259); the rail's decimator and
its measurement in 10 mV (R253); and whether a driver fault holds boots back, to 1 ms after DRV_FLT_N is high (R258). -/
structure AmpGroup where
  low : Nat := 0
  high : Nat := 0
  inner : Nat := 0
  cic : Cic := {}
  vbus : Rat := 0
  hold : Bool := false
  deriving DecidableEq, Repr

/-- A candidate of CLK (10 R271 to R273): consecutive misses, whether its current period already holds a stray edge, consecutive
measuring intervals outside freq_win, and the frequency measurements of R274, newest first, with the cycle of each. -/
structure Cand where
  misses : Nat := 0
  stray : Bool := false
  outside : Nat := 0
  freqs : List (Nat × Int) := []
  deriving DecidableEq, Repr

/-- The DPLL of a domain (10 R279 to R287): its frequency in ppb, which moves from `f0` at cycle `since` toward `target` at slew_max;
the offset of a running ramp; whether it has ever been in the imago, and since its last acquisition; whether it is in cocoon or
leaving it; the local sample number less the cluster lead's, and whether the lead's timing does not fit the domain (14 R375). -/
structure Dpll where
  f0 : Int := 0
  target : Int := 0
  since : Nat := 0
  ramp : Int := 0
  everImago : Bool := false
  locked : Bool := false
  cocoon : Bool := false
  leadOffset : Int := 0
  leadAbsent : Bool := false
  deriving DecidableEq, Repr

/-- A pulse output FP_OUT, LP_OUT, PPS_OUT (10 R294): the placement error carried forward, in 1/den of a cycle of 1024 × fs, and whether
its next pulse waits for an alignment point. -/
structure Pulse where
  error : Int := 0
  realign : Bool := false
  deriving DecidableEq, Repr

/-- A time base (11 R298 to R308). `value` counts 2^-48 ns since the PTP epoch; its rate adjustment is TBn_ADJ. Beside it: the
integral of the servo in ppm (R303), consecutive good measurements (R304), the offset `o` in ns and the frequency offset `f` in ppm of a
derived time base (R307), whether its wait to restore runs (R306), a step (2^-16 ns) or a load (2^-48 ns) stored for the next
non-derived mode (R302), and the captured words of a snap not yet read (R299). -/
structure TimeBase where
  value : Nat := 0
  integral : Rat := 0
  good : Nat := 0
  o : Rat := 0
  f : Rat := 0
  restoring : Bool := false
  storedStep : Option Int := none
  storedLoad : Option Nat := none
  capture : Option (Word × Word × Word × Word) := none
  deriving DecidableEq, Repr

/-- An entry of a transmit timestamp queue (11 R313): the words TXQ0 to TXQ3 show. -/
structure TxqEntry where
  w0 : Word
  w1 : Word
  w2 : Word
  w3 : Word
  deriving DecidableEq, Repr

/-- A software frame in a MAC's receive buffer (12 R326, R340): its class, its status words and its bytes. -/
structure RxFrame where
  cls : Nat
  words : List Word
  bytes : List Byte
  deriving DecidableEq, Repr

/-- A software frame at the head of transmission (12 R327, R340): its MAC words, its bytes, and the towpath cycle at which it came to
the head (R334). -/
structure TxFrame where
  w0 : Word
  w1 : Word
  bytes : List Byte
  since : Nat := 0
  deriving DecidableEq, Repr

/-- A MAC (12): its software receive buffer, oldest first, and the frame at the head of transmission. -/
structure Mac where
  rx : List RxFrame := []
  head : Option TxFrame := none
  deriving DecidableEq, Repr

/-- A transmit stream (12 R331 to R333): the sample numbers of its first packet and, once disabled, of the first packet not sent; the next
sequence number; the staged samples by emit position; whether the last packet was suppressed or zeroed; and its fade. -/
structure TxStream where
  start : Option Nat := none
  stop : Option Nat := none
  seq : Nat := 0
  stage : List (Nat × List Sample) := []
  silent : Bool := false
  fade : Fade := .none
  deriving DecidableEq, Repr

/-- A capture position of a receive stream (12 R337, R339): the RTP timestamp of its packet, whether it is the packet's first, the paths
the packet came on (1 MAC0, 2 MAC1, 3 both), and the sample of each channel. -/
structure RxSlot where
  pos : Nat
  stamp : Word
  first : Bool
  paths : Nat
  samples : List Sample
  deriving DecidableEq, Repr

/-- A receive stream (12 R337, R338): the link-offset buffer, the next tick to be captured, the first position written since enable, the
length of the present run of missing samples, the good samples since the last run (up to 32), and the last good samples. -/
structure RxStream where
  slots : List RxSlot := []
  next : Nat := 0
  from_ : Option Nat := none
  run : Nat := 0
  good : Nat := 0
  last : List Sample := []
  deriving DecidableEq, Repr

/-- A serial lane (13): whether the elastic buffer's least and greatest fill have been read since they were last set (R359), and whether the
generator waits for the next write of loop mode 0 (R356). -/
structure Lane where
  read : Bool := true
  genWaits : Bool := false
  deriving DecidableEq, Repr

/-- A numbered frame held for replay (14 R364), with the tick of an audio frame's barge, and whether it ends a message. -/
structure Held where
  frame : NrxFrame
  domain : Nat
  tick : Option Nat
  ends : Bool
  deriving DecidableEq, Repr

/-- A received part of an audio barge (14 R362). -/
structure BargePart where
  group : Nat
  tag : Nat
  part : Nat
  bytes : List Byte
  deriving DecidableEq, Repr

/-- A Nerax link (14 R361 to R377): transmitter: next sequence number, replay buffer oldest first, consecutive naks and timeouts, kinds of
the last 64 numbered frames (true for a message), message credits, and the message at the head. Receiver: last accepted sequence
number, whether it waits for a replay, the acknowledgement owed (1 ack, 2 nak), parts of barges, bytes of the message arriving, and
messages in their slots. Measurement: the last 16 delays in ps, newest first, and consecutive ones within the bound. The ticks, by domain,
from which audio runs and from which it is stopped by a delay; the towpath cycle from which the next start counts (R370); the cycle since which
the peer's build_id differs (21 R537); and consecutive timing frames received with a bad CRC (R363, R377). -/
structure Nerax where
  seq : BitVec 12 := 0
  held : List Held := []
  fails : Nat := 0
  window : List Bool := []
  credits : Nat := 16
  head : Option (List Byte) := none
  last : BitVec 12 := 0xFFF
  discarding : Bool := false
  owed : Nat := 0
  parts : List BargePart := []
  message : List Byte := []
  slots : List (List Byte) := []
  delays : List Int := []
  within : Nat := 0
  late : Bool := false
  start : List (Nat × Nat) := []
  stop : List (Nat × Nat) := []
  upSince : Nat := 0
  differs : Option Nat := none
  missed : Nat := 0
  deriving DecidableEq, Repr

/-- The concealment of a Nerax receive source (14 R371): the first missing tick and the last good sample of each channel. -/
structure Conceal where
  start : Nat
  last : List Sample
  deriving DecidableEq, Repr

/-- The lease logic (15 R385 to R401), times in 4 ns cycles: the last own renewal; the last echo and renewal (t_echo, t_ren_seen) and the
entry into the pair (t_entry); the last renewal or echo on the balls and on the mirror link; the level of LEASE_OUT and the renewal
number; whether the peer has departed, and whether this device has and holds LEASE_OUT low; the boundary of an accepted yield and
whether the standby has echoed it; the samples, by domain, from which outputs are released (R394); and consecutive matching ticks
(R401); the time sole ended, while armed is awaited; whether a departure is due; the exact locks and mirrored TDM groups of the image; mirror
records that wait for their boundary; and the CRCs of recent barges of exact locks. -/
structure Fov where
  renewedAt : Option Nat := none
  echoAt : Nat := 0
  seenAt : Option Nat := none
  entryAt : Nat := 0
  ballAt : Option Nat := none
  linkAt : Option Nat := none
  leaseOut : Bool := false
  number : Nat := 0
  peerDeparted : Bool := false
  departed : Bool := false
  yieldAt : Option Nat := none
  yieldEchoed : Bool := false
  releasedAt : List (Nat × Nat) := []
  matching : Nat := 0
  soleEnded : Option Nat := none
  departing : Bool := false
  copying : Bool := false
  exact : List Nat := []
  mirrored : List Nat := []
  waiting : List (Nat × MirrorItem) := []
  crcs : List (Nat × Nat × Word) := []
  deriving DecidableEq, Repr

/-- A block request in the DMC (16 R408): its block number, whether it writes, its arrival, the delay line and tick it belongs to at the
real-time port, and whether it is the rewrite of a corrected block (R407). -/
structure DramEntry where
  write : Bool
  block : Nat
  since : Nat
  rt : Option (Nat × Nat)
  rewrite : Bool
  deriving DecidableEq, Repr

/-- A delay line (16 R412, R414): its structure, its ring by sample number modulo 2^r, and the sample before which it reads as zero
once its loss found the table full. -/
structure DLine where
  spec : DelaySpec
  ring : List (Nat × Sample) := []
  zeroUntil : Nat := 0
  deriving DecidableEq, Repr

/-- The DMC (16): its entries and the requests that wait for one, oldest first; open rows by bank; consecutive row hits and their bank;
whether writes are being drained; refreshes outstanding by bank, negative where issued ahead; blocks with an uncorrectable error;
the delay lines; the lost writes (line, tick) of R414; the reads declared incomplete; the cycle of
the last request to a bank (R409); and the cycle of the last retraining slice (R418). -/
structure Dmc where
  queue : List DramEntry := []
  waiting : List DramEntry := []
  rows : List (Nat × Option Nat) := []
  hits : Nat × Nat := (0, 0)
  draining : Bool := false
  debt : List (Nat × Int) := []
  bad : List Nat := []
  lines : List (Nat × Option DLine) := []
  lost : List (Nat × Nat) := []
  incomplete : List (Nat × Nat) := []
  used : List (Nat × Nat) := []
  sliceAt : Option Nat := none
  deriving DecidableEq, Repr

/-- A DMA channel (17 R434 to R441): descriptors read ahead, oldest first, as eight words each; bytes of the first one moved by peripheral
requests; the frame a frame-tx channel gathers with its MAC words; the tick of the barge a tick-mode channel has taken a descriptor for, and
whether that barge was absent at its egress deadline (01 R34). -/
structure DmaChannel where
  fetched : List (List Word) := []
  moved : Nat := 0
  frame : List Byte := []
  macWords : Option (Word × Word) := none
  taken : Option Nat := none
  zero : Bool := false
  deriving DecidableEq, Repr

/-- An access to an engine's memory that found the engine running its segment and waits for a free cycle (01 R41; 04 R110): the engine, the
requester's class and master, the word address in the window, the words of a write or none for a read, how the read through check bits
ends, and whether it is a request of the PCIe link, which is owed its completion. -/
structure WindowWait where
  engine : Nat
  user : WindowUser
  master : Nat
  offset : Nat
  write : Option (List Word)
  ecc : Ecc
  inbound : Bool := false
  deriving DecidableEq, Repr

/-- The bus matrix (17 R421): bursts waiting for their grant, in order of arrival, with the cycle of arrival. -/
structure Xbar where
  waiting : List (Burst × Nat) := []
  deriving DecidableEq, Repr

/-- A GPIO event input (18 R470 to R472): consecutive samples that differ from the accepted level, samples taken, the samples at which the last
changes were accepted, newest first, whether it is chattering or stuck, the level of its last reported edge, and
the sample of the last accepted change. -/
structure Gpio where
  differs : Nat := 0
  samples : Nat := 0
  changes : List Nat := []
  chattering : Bool := false
  stuck : Bool := false
  reported : Bool := false
  since : Nat := 0
  deriving DecidableEq, Repr

/-- The service ports (18 R474 to R476): whether the last SPI access ended in a default-target error, the I²C FIFO, and the I²C command in
progress. -/
structure Svc where
  spiError : Bool := false
  fifo : List Byte := []
  i2c : Option Word := none
  deriving DecidableEq, Repr

/-- The PCIe function (18 R453, R455): BAR2's size as the host sees it (R529: 256 MiB until a reset after the load), and outbound reads without
a completion, oldest first: master, address and length. -/
structure Pcie where
  bar2Log : Nat := 28
  outstanding : List (Nat × Nat × Nat) := []
  deriving DecidableEq, Repr

/-- A pass of the dredger (20 R512 to R514): the words or blocks it has read; the cycle it began at, its period and the cycle its next burst
is due at, in cycles (period 0: no pass has begun); and whether a burst is due and the pass has been reported late. -/
structure Pass where
  done : Nat := 0
  start : Nat := 0
  period : Nat := 0
  next : Nat := 0
  due : Bool := false
  late : Bool := false
  deriving DecidableEq, Repr

/-- The dredger (20 R510 to R514): its pass over SRAM and its pass over DRAM, and the region of the last burst asked for (DRAM: true). -/
structure Dredger where
  sram : Pass := {}
  dram : Pass := {}
  region : Bool := false
  deriving DecidableEq, Repr

/-- The monitors and telemetry (20 R516 to R518): whether the warning stands, consecutive samples at or above 115 °C, and per rail, consecutive
samples outside and inside the window; the number of the next record, and the cycle the period in progress began at. -/
structure Tlm where
  warn : Bool := false
  hot : Nat := 0
  outside : List (Nat × Nat) := []
  inside : List (Nat × Nat) := []
  record : Nat := 0
  since : Nat := 0
  deriving DecidableEq, Repr

/-- What leaves the device at its balls and links, in order; the outside world's record and no store of the device (R24). -/
inductive Emission where
  /-- ERR_N asserted or released (19 R494). -/
  | errN (asserted : Bool)
  /-- IRQk_N asserted or released (18 R468). -/
  | irqPin (k : Nat) (asserted : Bool)
  /-- FENCE_N asserted or released (15 R393). -/
  | fenceN (asserted : Bool)
  /-- The depart pattern: 64 edges of LEASE_OUT, 500 ns apart (15 R385). -/
  | depart
  /-- An edge at the PWM ball of channel `c`: rising or falling, 125 ps units after the half carrier period begins (09 R251). -/
  | pwmEdge (c : Nat) (rising : Bool) (at_ : Nat)
  /-- The level of CLK_OK (10 R295). -/
  | clkOk (level : Bool)
  /-- A pulse of pulse output o (0 FP_OUT, 1 LP_OUT, 2 PPS_OUT): the cycles of 1024 × fs since the last one, its width, and whether it is
  inverted (10 R294). -/
  | pulse (o cycles width : Nat) (inverted : Bool)
  /-- A frame leaves MAC `m` (12): a software frame, or a stream packet `offset` ns after the launch point (R332). Bytes from the
  destination address to the last byte before the FCS; `badFcs` where the inverse of the FCS follows (R328). -/
  | frame (m : Nat) (offset : Nat) (bytes : List Byte) (badFcs : Bool)
  /-- A lane inverts one bit of the next transmitted word (13 R354). -/
  | inverted (n : Nat)
  /-- A frame leaves Nerax link `k` (14 R361). -/
  | nerax (k : Nat) (f : NrxFrame)
  /-- A timing frame leaves Nerax link `k`, with lead timing where the device sends it (14 R372, R374). -/
  | timing (k : Nat) (lead : Option LeadTiming)
  /-- LEASE_OUT changes level (15 R385). -/
  | leaseOut (high : Bool)
  /-- A lease record on the mirror link: kind, renewal number, handover sample and sync (15 R384). -/
  | lease (kind number at_ sync : Nat)
  /-- A mirror record on the mirror link (15 R396, R398). -/
  | mirror (at_ : Option (BitVec 64)) (item : MirrorItem)
  | mirrorCrc (lock tick : Nat) (crc : Word)
  /-- The keeper starts the copy of a resynchronisation (15 R401). -/
  | mirrorCopy
  /-- A write or a read request to host memory, at a host address (18 R455). -/
  | hostWrite (addr : Nat) (bytes : List Byte)
  | hostRead (addr len : Nat)
  /-- An MSI-X message: the address and data of the vector's table entry (18 R466). -/
  | msix (v addr : Nat) (data : Word)
  /-- An I²C command: address, whether it reads, the bytes sent, and the count to read (18 R475). -/
  | i2c (addr : Nat) (read : Bool) (sent : List Byte) (count : Nat)
  /-- An MDIO frame: the command word (18 R476). -/
  | mdio (cmd : Word)
  /-- The response to an inbound read or write (18 R454): the data of a completion, whether it is poisoned, or Completer Abort. -/
  | completion (data : List Byte) (poisoned : Bool)
  | completerAbort (write : Bool)
  | configRetry
  /-- A message credit returns to the peer of Nerax link `k` (14 R367). -/
  | credit (k : Nat)
  deriving DecidableEq, Repr

/-- The state of one 9632. `pending` is the queue of waiting commands, `now` counts 4 ns towpath cycles since reset and
`freeCount` the free values drawn: these three are the model's own. -/
structure State where
  pending : List Instr := []
  now : Nat := 0
  freeCount : Nat := 0
  /-- The value in effect of every control register, by address; unlisted: its reset value. -/
  regs : List (Nat × Word) := []
  layers : Layers := {}
  /-- The response of the last completed access. -/
  reply : BusReply := {}
  outbox : List Emission := []
  /-- Rate domains by index (02). -/
  doms : List (Nat × Domain) := []
  /-- Locks by number (01 R22). -/
  locks : List (Nat × Option Lock) := []
  glb : Glb := {}
  cfg : Cfg := {}
  flt : Flt := {}
  weir : Weir := {}
  evt : Evt := {}
  /-- Shared sample memory, by byte offset (18 R449). -/
  ssm : List (Nat × Byte) := []
  /-- DRAM, by byte offset from 0x01_0000_0000 (16 R406). -/
  dram : List (Nat × Byte) := []
  /-- Engines SE0 to SE33 (04). -/
  engines : List (Nat × Engine) := []
  /-- Accesses that wait for a free cycle of their engine (01 R41; 04 R110). -/
  waits : List WindowWait := []
  /-- Substitution units ENG_SUB0 and ENG_SUB1 (04 R129). -/
  substs : List (Nat × Subst) := []
  /-- The gain matrix (06). -/
  basin : Basin := {}
  /-- The router (06). -/
  router : Router := {}
  /-- Fast monitor feeds FMP0 to FMP63 (06). -/
  feeds : List (Nat × Feed) := []
  /-- Input samples of each domain's last complete frame, by port × 32 + slot (06 R196). -/
  frames : List (Nat × List (Nat × Sample)) := []
  /-- Rate bridges and filter chain (07). -/
  flc : Filters := {}
  /-- Serial audio ports (08). -/
  tdm : Tdm := {}
  /-- Amplifier channels AMP0 to AMP31 and their groups (09). -/
  amps : List (Nat × AmpChannel) := []
  ampGroups : List (Nat × AmpGroup) := []
  /-- CLK: candidates, DPLLs, pulse outputs (10). -/
  cands : List (Nat × Cand) := []
  dplls : List (Nat × Dpll) := []
  pulses : List (Nat × Pulse) := []
  /-- Time bases TB0 to TB3 and the transmit timestamp queues of MAC0 and MAC1 (11). -/
  tbs : List (Nat × TimeBase) := []
  txqs : List (Nat × List TxqEntry) := []
  /-- Ethernet MACs and streams (12); the transmit streams that are cross-node legs (15 R400). -/
  macs : List (Nat × Mac) := []
  txStreams : List (Nat × TxStream) := []
  rxStreams : List (Nat × RxStream) := []
  legs : List Nat := []
  /-- Serial lanes (13) and Nerax links (14); concealment by lock, and the last samples each Nerax receive lock committed. -/
  lanes : List (Nat × Lane) := []
  links : List (Nat × Nerax) := []
  conceal : List (Nat × Option Conceal) := []
  lastGood : List (Nat × Option Conceal) := []
  /-- The lease logic (15). -/
  fov : Fov := {}
  /-- The LPDDR5 controller (16). -/
  dmc : Dmc := {}
  /-- The bus matrix and the DMA channels (17). -/
  xbar : Xbar := {}
  dma : List (Nat × DmaChannel) := []
  /-- GPIO event inputs, service ports and the PCIe function (18). -/
  gpios : List (Nat × Gpio) := []
  svc : Svc := {}
  pcie : Pcie := {}
  /-- The dredger and the monitors (20). -/
  drg : Dredger := {}
  tlm : Tlm := {}
  deriving DecidableEq, Repr

/-- Why the model could stop. No row of the table makes the device stop, and no meaning answers a fault. -/
inductive Fault where
  /-- An operand lies outside what its row can carry (`Sys2Proof.Instr.wellFormed` fails). No arm of `exec` raises it:
  every meaning is total, and an operand outside its row's range acts as its meaning says. Safe. -/
  | illFormed
  deriving DecidableEq, Repr

/-- Why a command has no meaning here. -/
inductive Refusal where
  /-- The command has no meaning in this model yet; raised by its arm of `exec` only. Safe. -/
  | notModelled (mnemonic : String)
  deriving DecidableEq, Repr

/-- The outcome of a command. -/
abbrev Res := Host.Outcome State Fault Refusal

/-- The device right after the release of POR_N (21 R523, R525): every register at the value of its Reset column (00 R18),
everything else as the defaults of the records above say. [DESIGN CHOICE, log entries 4 to 7] -/
def State.reset : State := {}

end Sys2Proof.Machine
end

