-- ==== Sys2Proof/Machine/Ops.lean ====
section
/-!
DEFINITION. The named operations of the machine over registers, layers, memories, locks and domains: every meaning goes through
them. Raising an event, counting, and reporting a fault are here or in Machine/Fault.lean; access to a control address with all
its side effects is in Machine/Access.lean.
-/
namespace Sys2Proof.Machine

/-! ## Numbers -/

/-- The two's complement reading of the low `w` bits of `n`. -/
def toSigned (w n : Nat) : Int := if n % 2 ^ w < 2 ^ (w - 1) then (n % 2 ^ w : Nat) else (n % 2 ^ w : Nat) - (2 ^ w : Nat)

/-- The `w`-bit two's complement pattern of an integer. -/
def ofSigned (w : Nat) (i : Int) : Nat := (i % (2 ^ w : Nat)).toNat

/-- An integer limited to the range of a signed `w`-bit field. -/
def clampS (w : Nat) (i : Int) : Int := max (-(2 ^ (w - 1) : Nat)) (min ((2 ^ (w - 1) : Nat) - 1) i)

/-- An integer limited to ±`lim`. -/
def clampTo (lim : Int) (i : Int) : Int := max (-lim) (min lim i)

/-- Ceiling division; 0 for a zero divisor. -/
def ceilDiv (a b : Nat) : Nat := if b = 0 then 0 else (a + b - 1) / b

/-- A bit of a number. -/
def bit (n i : Nat) : Bool := n.testBit i

/-- 1 for true, 0 for false. -/
def b2n (b : Bool) : Nat := if b then 1 else 0

/-! ## Bit fields and registers -/

/-- The field of `width` bits at `lsb`. -/
def getBits (w : Word) (lsb width : Nat) : Nat := (w.toNat >>> lsb) % 2 ^ width

/-- The word with the field of `width` bits at `lsb` replaced by the low bits of `v`. -/
def putBits (w : Word) (lsb width v : Nat) : Word :=
  (w &&& ~~~(BitVec.ofNat 32 ((2 ^ width - 1) <<< lsb))) ||| BitVec.ofNat 32 ((v % 2 ^ width) <<< lsb)

/-- The value in effect of the register at address `a`. -/
def State.reg (s : State) (a : Nat) : Word := Tab.get resetValue s.regs a

/-- The state with `v` in effect in the register at address `a`. -/
def State.setReg (s : State) (a : Nat) (v : Word) : State := { s with regs := Tab.set resetValue s.regs a v }

/-- A field of a register. -/
def State.rd (s : State) (f : FieldAt) : Nat := getBits (s.reg f.addr) f.lsb f.width

/-- Write a field of a register; the other bits of the register stay. -/
def State.wr (s : State) (f : FieldAt) (v : Nat) : State := s.setReg f.addr (putBits (s.reg f.addr) f.lsb f.width v)

/-- A one-bit field holds 1. -/
def State.is (s : State) (f : FieldAt) : Bool := s.rd f == 1

/-- A field read as a signed number. -/
def State.rdS (s : State) (f : FieldAt) : Int := toSigned f.width (s.rd f)

/-- Write a signed number to a field, saturating at its range. -/
def State.wrS (s : State) (f : FieldAt) (i : Int) : State := s.wr f (ofSigned f.width (clampS f.width i))

/-- A whole register as a field. -/
def whole (a : Nat) : FieldAt := ⟨a, 0, 32⟩

/-- The low and the high half of a register that holds two 16-bit counts. -/
def lowHalf (a : Nat) : FieldAt := ⟨a, 0, 16⟩
def highHalf (a : Nat) : FieldAt := ⟨a, 16, 16⟩

/-- Bit `i` of a register. -/
def bitAt (a i : Nat) : FieldAt := ⟨a, i, 1⟩

/-- Add to a count that saturates at the top of its field. -/
def State.bump (s : State) (f : FieldAt) (n : Nat := 1) : State := s.wr f (min (s.rd f + n) (2 ^ f.width - 1))

/-- Offer a value to a field that records the least. -/
def State.least (s : State) (f : FieldAt) (v : Nat) : State := if v < s.rd f then s.wr f v else s

/-- Offer a value to a field that records the highest. -/
def State.highest (s : State) (f : FieldAt) (v : Nat) : State := if s.rd f < v then s.wr f (min v (2 ^ f.width - 1)) else s

/-- Set an event or status bit. -/
def State.raise (s : State) (f : FieldAt) : State := s.wr f 1

/-- A 64-bit value held in two registers, low word first. -/
def State.wide (s : State) (lo hi : Nat) : Nat := (s.reg lo).toNat + (s.reg hi).toNat * 2 ^ 32

/-- Write a 64-bit value to two registers, low word first. -/
def State.setWide (s : State) (lo hi v : Nat) : State :=
  (s.setReg lo (BitVec.ofNat 32 v)).setReg hi (BitVec.ofNat 32 (v / 2 ^ 32))

/-- A fresh free value: the counter to apply a constant of Config to, and the state with the counter advanced. [DESIGN CHOICE, log entry 6] -/
def State.draw (s : State) : Nat × State := (s.freeCount, { s with freeCount := s.freeCount + 1 })

/-- Record what leaves the device. -/
def State.emit (s : State) (e : Emission) : State := { s with outbox := s.outbox ++ [e] }

/-- Return data and a response to the requester. -/
def State.answer (s : State) (data : List Word) (r : Response := .okay) : State := { s with reply := ⟨data, r⟩ }

/-! ## Layers (03 R87 to R89, 00 R15 to R17) -/

/-- The precedence of a mode, 1 the highest (03 R100), by its bit position. -/
def precedence : Nat → Nat
  | 0 => 5 | 1 => 3 | 2 => 2 | 3 => 12 | 4 => 10 | 5 => 11 | 6 => 9 | 7 => 8 | 8 => 4 | 9 => 6 | 10 => 7 | _ => 1

/-- The modes in descending order of precedence number, so that the highest-ranked writes last (03 R105). -/
def modesByRank : List Nat := [3, 5, 4, 6, 7, 10, 9, 0, 8, 1, 2, 11]

/-- Mode `m` is held (CFG_MODE_HELD). -/
def State.holds (s : State) (m : Nat) : Bool := (s.reg R.CFG_MODE_HELD).toNat.testBit m

/-- The compiled overlay of a mode. -/
def State.overlay (s : State) (m : Nat) : Option Overlay := s.cfg.overlays.find? fun o => o.mode = m

/-- The register writes of the held overlays of `set`, lowest rank first. -/
def overlayWrites (ovs : List Overlay) (set : Nat) : List OvWrite :=
  modesByRank.flatMap fun m => if set.testBit m then (ovs.filter fun o => o.mode = m).flatMap (·.inForce) else []

/-- A value under masked writes in order (03 R79, R81). -/
def applyWrites (ws : List OvWrite) (a : Nat) (v : Word) : Word :=
  ws.foldl (fun v w => if w.addr = a then (v &&& ~~~w.mask) ||| (w.value &&& w.mask) else v) v

/-- The bits of register `a` that held overlays own (03 R88). -/
def State.owned (s : State) (a : Nat) : Word :=
  (overlayWrites s.cfg.overlays (s.reg R.CFG_MODE_HELD).toNat).foldl (fun m w => if w.addr = a then m ||| w.mask else m) 0

/-- The value the three layers decide for register `a` (03 R87). [DEDUCED, log entry 8] -/
def State.layered (s : State) (a : Nat) : Word :=
  let mask := Tab.get (fun _ => 0) s.layers.softMask a
  let base := (Tab.get resetValue s.layers.image a &&& ~~~mask) ||| (Tab.get (fun _ => 0) s.layers.soft a &&& mask)
  applyWrites (overlayWrites s.cfg.overlays (s.reg R.CFG_MODE_HELD).toNat) a base

/-- Bring the layered value of the bits `mask` of register `a` into effect. [DEDUCED, log entry 8] -/
def State.settle (s : State) (a : Nat) (mask : Word) : State :=
  s.setReg a ((s.reg a &&& ~~~mask) ||| (s.layered a &&& mask))

/-- Store the bits `mask` of `v` in the software layer of register `a` (03 R88). -/
def State.soften (s : State) (a : Nat) (mask v : Word) : State :=
  let old := Tab.get (fun _ => 0) s.layers.soft a
  let om := Tab.get (fun _ => 0) s.layers.softMask a
  { s with layers := { s.layers with
      soft := Tab.set (fun _ => 0) s.layers.soft a ((old &&& ~~~mask) ||| (v &&& mask)),
      softMask := Tab.set (fun _ => 0) s.layers.softMask a (om ||| mask) } }

/-- Whether register `a` has SH bits waiting for their boundary (00 R15). -/
def State.shWaits (s : State) (a : Nat) : Bool := s.layers.shPending.contains a

/-- Mark the SH bits of register `a` as waiting since this cycle, or as no longer waiting. -/
def State.setShWaits (s : State) (a : Nat) (on : Bool) : State :=
  { s with layers := { s.layers with
      shPending := if on then (if s.layers.shPending.contains a then s.layers.shPending else s.layers.shPending ++ [a])
                   else s.layers.shPending.filter (· ≠ a)
      shAt := Tab.set (fun _ => 0) s.layers.shAt a (if on then s.now else 0) } }

/-- The last write of the waiting SH bits of register `a` completed at least 1 µs ago (00 R15). -/
def State.shDue (s : State) (a : Nat) : Bool := decide (Tab.get (fun _ => 0) s.layers.shAt a + 250 ≤ s.now)

/-- The weight, of 2^16, at sample `j` of a linear fade over 32 samples. [DESIGN CHOICE, log entry 51] -/
def lineWeight (j : Nat) : Nat :=
  min (2 ^ 16) (2 ^ 16 * (j + if Config.fadeMoved then 1 else 0) / (31 + (if Config.fadeMoved then 1 else 0) + if Config.fadeShort then 1 else 0))

/-- The SH bits of a register. -/
def shMask (a : Nat) : Word := match descAt a with | some d => BitVec.ofNat 32 d.sh | none => 0

/-- The SH bits of register `a` take effect together, with the values of the last write (00 R15, R16). -/
def State.shTake (s : State) (a : Nat) : State :=
  if s.shWaits a then (s.settle a (shMask a)).setShWaits a false else s

/-- The pending value of an SH field: the value that will be in effect from its next boundary (03 R87). -/
def State.pendingField (s : State) (f : FieldAt) : Nat := getBits (s.layered f.addr) f.lsb f.width

/-- Hardware writes an RW field and software's stored bits follow, so that no later take revives the old value. [DEDUCED, log entry 8] -/
def State.hw (s : State) (f : FieldAt) (v : Nat) : State :=
  (s.wr f v).soften f.addr (BitVec.ofNat 32 ((2 ^ f.width - 1) <<< f.lsb)) (putBits 0 f.lsb f.width v)

/-- Software writes an RW field: stored in the software layer and in effect where no held overlay owns the bits (03 R88). [DEDUCED, log entry 8] -/
def State.sw (s : State) (f : FieldAt) (v : Nat) : State :=
  let mask := BitVec.ofNat 32 ((2 ^ f.width - 1) <<< f.lsb)
  (s.soften f.addr mask (putBits 0 f.lsb f.width v)).settle f.addr mask

/-- A snapshot of the higher word of a wide value (00 R17). -/
def State.snap (s : State) (a : Nat) : Option Word := Tab.get (fun _ => none) s.layers.snapshot a
def State.setSnap (s : State) (a : Nat) (w : Option Word) : State :=
  { s with layers := { s.layers with snapshot := Tab.set (fun _ => none) s.layers.snapshot a w } }

/-- A lower word of a wide value written and not yet in effect (00 R17). -/
def State.heldLow (s : State) (a : Nat) : Option Word := Tab.get (fun _ => none) s.layers.held a
def State.setHeldLow (s : State) (a : Nat) (w : Option Word) : State :=
  { s with layers := { s.layers with held := Tab.set (fun _ => none) s.layers.held a w } }

/-- The overlay of a mode is absent, or there is none (03 R90). -/
def State.modeAbsent (s : State) (m : Nat) : Bool := match s.overlay m with | some o => o.absent | none => true

/-- A hardware source requests a mode, or withdraws its request (03 R102); a request for a mode whose overlay is absent is refused, and
CFG_REFUSED records it (R90). [DEDUCED, log entry 94] -/
def State.hwMode (s : State) (m : Nat) (on : Bool) : State :=
  let f := bitAt R.CFG_MODE_HWREQ m
  if s.is f = on then s
  else
    let s := (s.wr f (b2n on)).raise R.CFG_INT_STATUS_hw_mode
    if on && m != 11 && s.modeAbsent m then (s.raise (bitAt R.CFG_REFUSED m)).raise R.CFG_INT_STATUS_refused else s

/-- The take domain (03 R93). -/
def State.takeDom (s : State) : Nat := s.cfg.takeDomain.val

/-- The device has reached first audio (21 R531, R539). -/
def State.running (s : State) : Bool := s.rd R.GLB_BOOT_STATUS_state == 6

/-! ## Memories -/

/-- A byte of shared sample memory; a byte nothing has written reads 0 (log entry 5). [DESIGN CHOICE, log entry 5] -/
def State.ssmByte (s : State) (o : Nat) : Byte := Tab.get (fun _ => 0) s.ssm o
def State.setSsmByte (s : State) (o : Nat) (b : Byte) : State := { s with ssm := Tab.set (fun _ => 0) s.ssm o b }

/-- A byte of DRAM, by its offset in the DRAM window; a byte nothing has written reads 0 (log entry 5). [DESIGN CHOICE, log entry 5] -/
def State.dramByte (s : State) (o : Nat) : Byte := Tab.get (fun _ => 0) s.dram o
def State.setDramByte (s : State) (o : Nat) (b : Byte) : State := { s with dram := Tab.set (fun _ => 0) s.dram o b }

/-- `n` bytes of DRAM from offset `o`. -/
def State.dramBytes (s : State) (o n : Nat) : List Byte := (List.range n).map fun i => s.dramByte (o + i)
def State.ssmBytes (s : State) (o n : Nat) : List Byte := (List.range n).map fun i => s.ssmByte (o + i)

def State.setDramBytes (s : State) (o : Nat) : List Byte → State
  | [] => s
  | b :: t => (s.setDramByte o b).setDramBytes (o + 1) t

def State.setSsmBytes (s : State) (o : Nat) : List Byte → State
  | [] => s
  | b :: t => (s.setSsmByte o b).setSsmBytes (o + 1) t

/-- A little-endian number from bytes (03, all multi-byte fields are little-endian). -/
def leNat : List Byte → Nat
  | [] => 0
  | b :: t => b.toNat + 256 * leNat t

/-- The `n` bytes of a number, least significant first. -/
def leBytes : Nat → Nat → List Byte
  | 0, _ => []
  | n + 1, v => BitVec.ofNat 8 v :: leBytes n (v / 256)

/-! ## Domains and locks (01, 02) -/

def State.dom (s : State) (x : Nat) : Domain := Tab.get (fun _ => {}) s.doms x
def State.setDom (s : State) (x : Nat) (d : Domain) : State := { s with doms := Tab.set (fun _ => {}) s.doms x d }

/-- The sample rate in Hz of a rate class (10, CLK_DOMx_CFG.rate; the rows of R48): 0 for an unused domain. -/
def rateOf : Nat → Nat
  | 1 => 44100 | 2 => 48000 | 3 => 88200 | 4 => 96000 | 5 => 176400 | 6 => 192000 | _ => 0

/-- The sample rate of domain `x`. -/
def State.fs (s : State) (x : Nat) : Nat := rateOf (s.rd (R.CLK_DOMx_CFG_rate x))

/-- The domain has been started by the loader (10, CLK_DOMx_CFG.started). -/
def State.started (s : State) (x : Nat) : Bool := s.is (R.CLK_DOMx_CFG_started x)

/-- The tick number of the current sample of domain `x` (02 R50). -/
def State.tick (s : State) (x : Nat) : Nat := (s.dom x).sample.toNat / (s.dom x).b

/-- µs from the last sample edge of domain `x` to the capture commit of its tick `k`, 24 media-clock cycles after boundary k + 1 (02 R53); 0 once
that has passed. [DEDUCED, log entry 69] -/
def State.commitUs (s : State) (x k : Nat) : Nat :=
  let d := s.dom x
  let cycles := ((k + 1) * d.b) * 256 + 24 - d.sample.toNat * 256
  if s.fs x = 0 then 0 else cycles * 10 ^ 6 / (256 * s.fs x)

/-- The current sample edge of domain `x` is a tick boundary (01 R28); a domain whose first edge is still to come has none. -/
def State.atBoundary (s : State) (x : Nat) : Bool := !(s.dom x).fresh && (s.dom x).sample.toNat % (s.dom x).b = 0

/-- The first sample from which the outputs of a domain may fade: a fade or zero interval that runs has ended by then (02 R51). -/
def Domain.freeFrom (d : Domain) : Nat :=
  let n := d.sample.toNat
  match d.fade with
  | .none => n
  | .into j => n + (32 - j)
  | .out _ => n
  | .zero => max n d.zeroTo + 32

/-- The level-4 halt is in force: every foreground pound has stopped (19 R488). -/
def State.halted (s : State) : Bool := s.is R.FLT_STATUS_halted

def State.lock (s : State) (l : Nat) : Option Lock := Tab.get (fun _ => none) s.locks l
def State.setLock (s : State) (l : Nat) (k : Lock) : State := { s with locks := Tab.set (fun _ => none) s.locks l (some k) }

/-- The words of a barge of the lock: channels times B (04 R117). -/
def State.bargeWords (s : State) (k : Lock) : Nat := k.spec.channels.length * (s.dom k.spec.domain).b

/-- Word j × n + c of a barge is sample j of channel c (04 R117); 0 beyond the barge. -/
def Barge.word (b : Barge) (n j c : Nat) : Sample := b.words.getD (j * n + c) 0

/-- Commit a barge: only with credit, and one credit less (01 R23). -/
def State.commit (s : State) (l : Nat) (b : Barge) : State :=
  match s.lock l with
  | some k => if k.credit = 0 then s else s.setLock l { k with credit := k.credit - 1, flight := k.flight ++ [b] }
  | none => s

/-- Return one credit, never beyond the depth (01 R22, R23). -/
def State.giveCredit (s : State) (l : Nat) : State :=
  match s.lock l with
  | some k => s.setLock l { k with credit := min k.spec.depth (k.credit + 1) }
  | none => s

/-- The lock holds at least one credit. -/
def State.hasCredit (s : State) (l : Nat) : Bool := match s.lock l with | some k => decide (0 < k.credit) | none => false

/-- The tag distance of R118 (04): 0 the awaited tick, 1 to 127 a later barge, 128 to 255 an older one. -/
def tagDistance (tick awaited : Nat) : Nat := (tick + 256 - awaited % 256) % 256

/-- The barge of tick `t` is present at the consumer. -/
def State.awaits (s : State) (l t : Nat) : Option Barge :=
  match s.lock l with
  | some k => k.present.find? fun b => tagDistance b.tick t = 0
  | none => none

/-- The consumer is done with the barge of tick `t`: it leaves the lock and its credit returns (01 R23). -/
def State.consume (s : State) (l t : Nat) : State :=
  match s.lock l with
  | some k =>
    if k.present.any (fun b => tagDistance b.tick t = 0) then
      s.setLock l { k with present := k.present.eraseP (fun b => tagDistance b.tick t = 0), credit := min k.spec.depth (k.credit + 1) }
    else s
  | none => s

/-- The lock is cleared: empty, with its credit counter at its depth (01 R22). -/
def State.clearLock (s : State) (l : Nat) : State :=
  match s.lock l with
  | some k => s.setLock l { k with credit := k.spec.depth, flight := [], present := [], missed := [], asm := [], last := none }
  | none => s

/-- The numbers of the locks that satisfy `p`. -/
def State.locksWhere (s : State) (p : Lock → Bool) : List Nat :=
  s.locks.filterMap fun e => match e.2 with | some k => if p k then some e.1 else none | none => none

/-! ## Time (11 R298) -/

def State.tb (s : State) (n : Nat) : TimeBase := Tab.get (fun _ => {}) s.tbs n
def State.setTb (s : State) (n : Nat) (t : TimeBase) : State := { s with tbs := Tab.set (fun _ => {}) s.tbs n t }

/-- Seconds, nanoseconds and 2^-16 ns of a time base value in 2^-48 ns. -/
def tbSeconds (v : Nat) : Nat := v / (10 ^ 9 * 2 ^ 48) % 2 ^ 48
def tbNanos (v : Nat) : Nat := v / 2 ^ 48 % 10 ^ 9
def tbFrac (v : Nat) : Nat := v / 2 ^ 32 % 2 ^ 16

/-- The time of time base `n` in the layout of FLT_LOG1 to FLT_LOG3 (19 R499, R500). -/
def State.logTime (s : State) (n : Nat) : Word × Word × Word :=
  let v := (s.tb n).value
  (BitVec.ofNat 32 (tbSeconds v / 2 ^ 32 * 2 ^ 16 + tbFrac v), BitVec.ofNat 32 (tbNanos v), BitVec.ofNat 32 (tbSeconds v))

end Sys2Proof.Machine
end

