-- ==== Sys2Proof/Machine/Power.lean ====
section
/-!
DEFINITION. The weir's shared operations (20 R501 to R507): request, withdraw, return, and which request is granted next. A requester
calls these from its own meanings.
-/
namespace Sys2Proof.Machine

def State.requester (s : State) (r : Nat) : Requester := Tab.get (fun _ => {}) s.weir.req r
def State.setRequester (s : State) (r : Nat) (q : Requester) : State :=
  { s with weir := { s.weir with req := Tab.set (fun _ => {}) s.weir.req r q } }

/-- The amount the overlay sequencer holds for mode `m` (20 R504). -/
def State.modeLeave (s : State) (m : Nat) : Nat := Tab.get (fun _ => 0) s.weir.modeLeave m
def State.setModeLeave (s : State) (m n : Nat) : State :=
  { s with weir := { s.weir with modeLeave := Tab.set (fun _ => 0) s.weir.modeLeave m n } }

def budget (s : State) : Nat := s.rd ⟨R.WEIR_BUDGET, 0, 12⟩
def reservation (s : State) : Nat := s.rd ⟨R.WEIR_RESERVE, 0, 12⟩

/-- The sum of all grants held (20 R501): the requesters' and the sequencer's per-mode amounts. -/
def State.granted (s : State) : Nat :=
  (s.weir.req.map fun e => e.2.grant).sum + (s.weir.modeLeave.map fun e => e.2).sum

/-- The free amount (20 R501). -/
def State.freeUnits (s : State) : Nat := budget s - reservation s - s.granted

/-- The over state of the weir (20 R509). -/
def weirOver : FieldAt := ⟨R.WEIR_STATUS, 31, 1⟩

/-- A requester withdraws its pending request (20 R507). -/
def State.weirWithdraw (s : State) (r : Nat) : State :=
  s.setRequester r { s.requester r with pending := false, starving := false, unfit := false, cost := 0, since := 0 }

/-- A requester returns its grant (20 R507). -/
def State.weirReturn (s : State) (r : Nat) : State := s.setRequester r { s.requester r with grant := 0 }

/-- A requester that is reset, aborted or disabled withdraws its request and returns its grant (20 R507). -/
def State.weirDrop (s : State) (r : Nat) : State := (s.weirWithdraw r).weirReturn r

/-- A requester raises a request: it first withdraws an earlier one, and the new one enters as a fresh arrival (20 R503). A cost
above B_w - F sets unfit once (20 R506). -/
def State.weirRequest (s : State) (r cost : Nat) : State :=
  let unfit := decide (budget s - reservation s < cost)
  let s := s.setRequester r { s.requester r with pending := true, cost := cost, since := s.now, starving := false, unfit := unfit }
  if unfit then s.raise R.WEIR_INT_STATUS_unfit else s

/-- The cost the image sets for requester `r` (20 R503). -/
def State.weirCost (s : State) (r : Nat) : Nat := s.rd ⟨R.WEIR_COSTr r, 0, 12⟩
def State.modeCost (s : State) (m : Nat) : Nat := s.rd ⟨R.WEIR_MODE_COSTm m, 0, 12⟩

/-- The highest-ranked pending request that fits, unless a starving request above it holds it back (20 R505, R506). -/
def State.weirNext (s : State) : List Nat → Option Nat
  | [] => none
  | r :: t =>
    let q := s.requester r
    if q.pending then
      if q.cost ≤ s.freeUnits then some r else if q.starving then none else s.weirNext t
    else s.weirNext t

/-- The grant of requester `r` (20 R505). -/
def State.weirTake (s : State) (r : Nat) : State :=
  let q := s.requester r
  (s.setRequester r { pending := false, cost := 0, since := 0, starving := false, unfit := false, grant := q.grant + q.cost }).raise
    R.WEIR_INT_STATUS_granted

end Sys2Proof.Machine
end

