-- ==== Sys2Proof/Machine/Safe.lean ====
section
/-!
DEFINITION. What a safe state does to the outputs (19 R485 to R490; 15 R393, R394): the commands in force, the fence, and the state of TDM
groups (08 R244) and amplifier groups (09 R265) that they decide. The groups' and channels' accessors stand here because a fault report
reaches them in the same step.
-/
namespace Sys2Proof.Machine

/-- A condition that made a persistent cause has ended: every record of the source and code becomes inactive (19 R491). -/
def State.endCause (s : State) (source code : Nat) : State :=
  { s with flt := { s.flt with records := s.flt.records.map fun r =>
      if r.source = source ∧ r.code = code then { r with cause := false } else r } }


/-! ## TDM groups (08) -/

def State.setTdm (s : State) (t : Tdm) : State := { s with tdm := t }
def State.grp (s : State) (g : Nat) : TdmGroup := Tab.get (fun _ => {}) s.tdm.groups g

/-- The image places the group (08 R245). -/
def State.tdmAssigned (s : State) (g : Nat) : Bool := s.is (R.TDM_GRPg_CFG_assigned g)
def State.tdmMaster (s : State) (g : Nat) : Bool := s.is (R.TDM_GRPg_CFG_master g)
def State.tdmDomain (s : State) (g : Nat) : Nat := s.rd (R.TDM_GRPg_CFG_domain g)

/-- TDM_GRPg_STATUS.state (08 R245): 0 unassigned, 1 master running, 2 acquiring, 3 locked, 4 format change, 5 unlocked, 6 safe. -/
def State.tdmState (s : State) (g : Nat) : Nat :=
  let r := s.grp g
  if !s.tdmAssigned g then 0 else if r.safe then 6 else if r.step ≠ 0 then 4
  else if s.tdmMaster g then 1 else if r.locked then 3 else if r.unlocked then 5 else 2

/-- Store a group and its status. -/
def State.setGrp (s : State) (g : Nat) (r : TdmGroup) : State :=
  let s := s.setTdm { s.tdm with groups := Tab.set (fun _ => {}) s.tdm.groups g r }
  let s := s.wr (R.TDM_GRPg_STATUS_state g) (s.tdmState g)
  if !s.tdmAssigned g then s else
    let s := s.wr (R.TDM_GRPg_STATUS_domain g) (s.tdmDomain g)
    -- a master group runs its own BCLK and FS in every state (R230)
    if s.tdmMaster g then (s.wr (R.TDM_GRPg_STATUS_fs_present g) 1).wr (R.TDM_GRPg_STATUS_bclk_present g) 1 else s

/-! ## Fades (08 R234) -/

/-- The weight of a fade, of 32. [DEDUCED, log entry 50] -/
def Fade.weight : Fade → Nat
  | .none => 32
  | .out j => 31 - j
  | .zero => 0
  | .into j => j + 1

/-- The fade one sample later. -/
def Fade.pass : Fade → Fade
  | .none => .none
  | .out j => if j < 31 then .out (j + 1) else .zero
  | .zero => .zero
  | .into j => if j < 31 then .into (j + 1) else .none

/-- The fades that still run one sample later; one that has come to zero stands only where `zero` says so (08 R237). -/
def passFades (zero : Bool) (fs : List Fade) : List Fade :=
  (fs.map Fade.pass).filter fun f => f != .none && (zero || f != .zero)

/-- A fade-out runs. -/
def fadingOut (fs : List Fade) : Bool := fs.any fun f => match f with | .out _ => true | _ => false

/-- A sample under fades whose weights multiply (08 R234). [DEDUCED, log entry 50] -/
def faded (x : Sample) (fs : List Fade) : Sample :=
  BitVec.ofInt 24 (x.toInt * (fs.foldl (fun a f => a * f.weight) 1 : Nat) / (32 ^ fs.length : Nat))

/-- The safe state of a group's outputs begins or ends (08 R244), for the output frames that begin from now on. -/
def State.tdmSafe (s : State) (g : Nat) (on : Bool) : State :=
  let r := s.grp g
  if r.safe = on then s else s.setGrp g { r with safe := on }


/-! ## Amplifier channels and groups (09) -/

def State.amp (s : State) (c : Nat) : AmpChannel := Tab.get (fun _ => {}) s.amps c
def State.setAmp (s : State) (c : Nat) (a : AmpChannel) : State := { s with amps := Tab.set (fun _ => {}) s.amps c a }
def State.ampGroup (s : State) (a : Nat) : AmpGroup := Tab.get (fun _ => {}) s.ampGroups a
def State.setAmpGroup (s : State) (a : Nat) (g : AmpGroup) : State := { s with ampGroups := Tab.set (fun _ => {}) s.ampGroups a g }

/-- The group is placed; the pair of channel `c` is bridge-tied (09 R248, R267). -/
def State.ampAssigned (s : State) (a : Nat) : Bool := s.is (R.AMP_GRPa_CFG_assigned a)
def State.ampTied (s : State) (c : Nat) : Bool := (s.rd (R.AMP_GRPa_CFG_btl (c / 8))).testBit (c % 8 / 2)
/-- The channel whose registers and loop serve `c`: the even one of a bridge-tied pair (09 R248). -/
def State.ampMain (s : State) (c : Nat) : Nat := if s.ampTied c then c / 2 * 2 else c
/-- The channels that share `c`'s state (09 R248). -/
def State.ampPair (s : State) (c : Nat) : List Nat := if s.ampTied c then [c / 2 * 2, c / 2 * 2 + 1] else [c]

/-- AMPc_STATUS.state (09, channel states). -/
def ampState (c : Nat) : FieldAt := R.AMPc_STATUS_state c

/-- The states in which a channel switches: 2 to 5; in boot it drives low (09, channel states). -/
def ampSwitching (k : Nat) : Bool := decide (2 ≤ k) && decide (k ≤ 5)

/-- Enter a state, on both channels of a bridge-tied pair, with AMP_GRPa_STATUS.switching (09 R248, R267). -/
def State.ampEnter (s : State) (c k : Nat) : State :=
  (s.ampPair c).foldl (fun s c => (s.wr (ampState c) k).wr (bitAt (R.AMP_GRPa_STATUS (c / 8)) (8 + c % 8)) (b2n (ampSwitching k))) s

/-- Every channel of the group has stopped: DRV_EN is released and leave returned once the group is disabled (09 R258). -/
def State.ampRelease (s : State) (a : Nat) : State :=
  let stopped := (List.range 8).all fun i => let k := s.rd (ampState (8 * a + i)); k == 0 || decide (6 ≤ k)
  if !s.is (R.AMP_GRPa_CTRL_en a) && s.is (R.AMP_GRPa_STATUS_leave a) && stopped then
    ((s.wr (R.AMP_GRPa_STATUS_drv_en a) 0).wr (R.AMP_GRPa_STATUS_leave a) 0).weirReturn (4 + a)
  else s

/-- Off, or rail_wait while the rail is unqualified (09 R259). -/
def State.ampOff (s : State) (c : Nat) : State := s.ampEnter c (if s.is (R.AMP_GRPa_STATUS_rail_ok (c / 8)) then 0 else 8)

/-- A trip's or sense loss's cause ends when the channel leaves tripped and latched (19 R491). -/
def State.ampCauseEnds (s : State) (c : Nat) : State := (s.endCause (96 + s.ampMain c) 3).endCause (96 + s.ampMain c) 5

/-- The mute or hard safe state of a group is commanded; hard prevails (09 R265). -/
def State.ampSafe (s : State) (a : Nat) (mute hard : Bool) : State :=
  if !s.ampAssigned a then s else
  let s := if hard && !s.is (R.AMP_GRPa_STATUS_hard a) then
      let s := (s.wr (R.AMP_GRPa_STATUS_hard a) 1).wr (R.AMP_GRPa_STATUS_drv_en a) 0
      (List.range 8).foldl (fun s i =>
        let c := 8 * a + i
        let k := s.rd (ampState c)
        if k = 7 ∨ k = 9 then s else if k = 6 then (s.ampEnter c 9).ampCauseEnds c else s.ampEnter c 9) s
    else s
  let s := if mute && !s.is (R.AMP_GRPa_STATUS_mute a) then
      let s := s.wr (R.AMP_GRPa_STATUS_mute a) 1
      (List.range 8).foldl (fun s i =>
        let c := 8 * a + i
        if s.rd (ampState c) = 3 then (s.setAmp c { s.amp c with mutePos := 0 }).ampEnter c 4 else s) s
    else s
  s.ampRelease a

/-- The safe state of a group is released (09 R265): muted channels fade back into run; hard ones pass to off. -/
def State.ampUnsafe (s : State) (a : Nat) (mute hard : Bool) : State :=
  let s := if !hard && s.is (R.AMP_GRPa_STATUS_hard a) then
      let s := s.wr (R.AMP_GRPa_STATUS_hard a) 0
      (List.range 8).foldl (fun s i => let c := 8 * a + i; if s.rd (ampState c) = 9 then s.ampOff c else s) s
    else s
  if !mute && s.is (R.AMP_GRPa_STATUS_mute a) then
    let s := s.wr (R.AMP_GRPa_STATUS_mute a) 0
    (List.range 8).foldl (fun s i =>
      let c := 8 * a + i
      if s.rd (ampState c) = 4 then
        let f := match (s.amp c).fade with | .out j => Fade.out j | .zero => .zero | _ => .into 0
        -- it enters run again: its event (R267)
        ((s.setAmp c { s.amp c with fade := f }).ampEnter c 3).raise (R.AMPc_INT_STATUS_running (s.ampMain c))
      else s) s
  else s


/-! ## The commands in force -/

/-- The forced safe state of level 3 is in force (R485). -/
def State.forced3 (s : State) : Bool := s.is (bitAt R.FLT_STATUS 19)

/-- A level-2 record's scope names an output class (4 TDM, 5 AMP, 6 streams) of a domain (19 R500). -/
def State.scoped (s : State) (cls x : Nat) : Bool := s.flt.scopes.any fun w => w.testBit cls && w.testBit x

/-- The soft safe state is commanded for an output class of a domain: level 2, level 3 or SAFE (19 R486, R489, R490). -/
def State.soft (s : State) (cls x : Nat) : Bool := s.forced3 || s.holds 11 || s.scoped cls x

/-- FOV_STATUS.state: 0 outside the pair, 1 joining, 2 standby, 3 keeper, 4 isolated (15 R402). -/
def State.fovState (s : State) : Nat := s.rd R.FOV_STATUS_state

/-- FENCE_N is asserted (15 R393). -/
def State.fenced (s : State) : Bool := s.is R.FOV_STATUS_fence

/-- FENCE_N follows R393 (15): released in SOLO, or as keeper from the ACTIVE boundary, after first audio, with no level-3 or level-4 safe
state in force; at its release the outputs are released from the current sample of each domain. -/
def State.judgeFence (s : State) : State :=
  let free := s.running && !s.forced3 && !s.halted && (s.holds 0 || (s.fovState == 3 && s.holds 1))
  if s.fenced = !free then s else
  let s := (s.wr R.FOV_STATUS_fence (b2n !free)).emit (.fenceN !free)
  if free then { s with fov := { s.fov with releasedAt := [0, 1, 2].map fun x => (x, (s.dom x).sample.toNat) } } else s

/-- The mute and the hard safe state of AMP groups (09 R265; 15 R394): hard at level 3, at the halt, and in a fenced device that is not
standby. -/
def State.muteAmp (s : State) (a : Nat) : Bool := s.soft 5 (s.rd (R.AMP_GRPa_CFG_domain a))
def State.hardAmp (s : State) : Bool := s.forced3 || s.halted || (s.fenced && decide (3 ≤ s.fovState))

def State.lane (s : State) (n : Nat) : Lane := Tab.get (fun _ => {}) s.lanes n
def State.setLane (s : State) (n : Nat) (l : Lane) : State := { s with lanes := Tab.set (fun _ => {}) s.lanes n l }

/-- LANEn_STATUS.state: 0 off, 1 reset, 2 signal wait, 3 cdr, 4 ctle, 5 dfe, 6 tracking, 7 readapt (13 R346). -/
def State.laneState (s : State) (n : Nat) : Nat := s.rd (R.LANEn_STATUS_state n)

/-- A pattern code of a generator or checker: 0 and 7 to 15 are off (13 R353). -/
def patternOn (k : Nat) : Bool := decide (1 ≤ k ∧ k ≤ 6)

/-- A scan point in progress ends with scan_abort (13 R351, R355). -/
def State.scanAbort (s : State) (n : Nat) : State :=
  if s.is ⟨R.LANEn_SCAN_STATUS n, 0, 1⟩ then (s.setReg (R.LANEn_SCAN_STATUS n) 0).raise (R.LANEn_INT_STATUS_scan_abort n) else s

/-- A readapt is abandoned: its leave is returned or its request withdrawn (13 R352; 20 R507). Lane `n` is requester 9 + n (20 R503). -/
def State.readaptDrop (s : State) (n : Nat) : State := (s.weirDrop (9 + n)).wr (R.LANEn_STATUS_leave n) 0

/-- A lane in a state below tracking: a scan aborts, a readapt is abandoned, and the elastic buffer starts centred (13 R346, R352, R355). -/
def State.laneBelow (s : State) (n v : Nat) : State :=
  let s := ((s.scanAbort n).readaptDrop n).wr (R.LANEn_STATUS_state n) v
  let s := if v < 4 then s.wr (R.LANEn_STATUS_cdr_lock n) 0 else s
  let s := if v < 3 then s.wr (R.LANEn_STATUS_sig_det n) 0 else s
  if v = 3 then (s.setReg (R.LANEn_EB n) 0x101010).setLane n { s.lane n with read := false } else s

/-- A safe state that covers network outputs stops a generator or a far-end loop on LN2 and LN3 (13 R356). -/
def State.stopNetTests (s : State) : State :=
  if !([0, 1, 2].any fun x => s.soft 6 x) then s else
  [2, 3].foldl (fun s n =>
    let gen : FieldAt := ⟨R.LANEn_PRBS_CTRL n, 0, 4⟩
    let loop : FieldAt := ⟨R.LANEn_LOOP n, 0, 2⟩
    if s.rd loop = 3 then
      -- the loop returns to mode 0 and the lane restarts from state 3 (R352)
      let s := (s.hw loop 0).hw gen 0
      let s := if 2 ≤ s.laneState n then (s.laneBelow n 3).wr (R.LANEn_STATUS_sig_det n) 1 else s
      (s.setLane n { s.lane n with genWaits := false }).raise (R.LANEn_INT_STATUS_gen_stopped n)
    else if patternOn (s.rd gen) then (s.hw gen 0).raise (R.LANEn_INT_STATUS_gen_stopped n) else s) s

/-- The outputs follow the safe states and the fence in force (19 R486; 15 R394). Before first audio nothing is driven, so no output fades
in for it. -/
def State.applySafe (s : State) : State :=
  let s := s.judgeFence.stopNetTests
  let s := (List.range 4).foldl (fun s g =>
    let want := s.soft 4 (s.rd (R.TDM_GRPg_CFG_domain g)) || s.fenced
    if s.running then s.tdmSafe g want else s.setGrp g { s.grp g with safe := want }) s
  let hard := s.hardAmp
  let s := (List.range 4).foldl (fun s a => (s.ampSafe a (s.muteAmp a) hard).ampUnsafe a (s.muteAmp a) hard) s
  if s.halted then
    -- the halt: CLK_OK low, LN2 to LN11 at electrical idle (R486)
    let s := (List.range 10).foldl (fun s i => s.wr (bitAt (R.LANEn_STATUS (2 + i)) 10) 1) s
    if s.is R.CLK_STATUS_clk_ok then (s.wr R.CLK_STATUS_clk_ok 0).emit (.clkOk false) else s
  else s

end Sys2Proof.Machine
end

