-- ==== Sys2Proof/Machine/Fault.lean ====
section
/-!
DEFINITION. The fault collector's handling of a report (19 R481 to R485, R491, R494, R499): the one operation every block's fault goes
through, and the overrun of a lock (01 R34).
-/
namespace Sys2Proof.Machine

/-- The report has a persistent cause: the table of R491 (19), by source and code. -/
def persistentCause (source code : Nat) : Bool :=
  (source == 2 && code < 3)
  || (66 ≤ source && source < 70 && code == 1)
  || (96 ≤ source && source < 128 && (code == 3 || code == 5))
  || (70 ≤ source && source < 74 && (code == 1 || code == 2 || code == 4))
  || (74 ≤ source && source < 86 && code == 4)
  || (86 ≤ source && source < 90 && (code == 1 || code == 4 || code == 5))
  || (source == 17 && (code == 2 || code == 3))
  || (source == 18 && code == 5)

/-- FLT_CTRL.err_level: values above 4 act as 4 (19 R500). -/
def State.errLevel (s : State) : Nat := min 4 (s.rd ⟨R.FLT_CTRL, 0, 3⟩)

/-- The records of the log, oldest first (19 R499). -/
def State.faultLog (s : State) : List FaultRecord := s.flt.records.filter (·.inLog)

/-- The level of a new record: raised by one when an unacknowledged record of the reported level from another source is held
and the report is below level 4 (19 R483). -/
def State.recordLevel (s : State) (source level : Nat) : Nat :=
  if level < 4 ∧ s.flt.records.any (fun r => !r.acked && r.level == level && r.source != source) then level + 1 else level

/-- An unacknowledged record from the source with the reported level: the report merges into it (19 R482). -/
def State.mergesInto (s : State) (source level : Nat) : Option FaultRecord :=
  s.flt.records.find? fun r => !r.acked && r.source == source && r.reported == level

/-- The first record a report merges into: its repeat count, and its cause, active again where the report is of the record's own persistent
cause (19 R482, R491). [DEDUCED, log entry 88] -/
def mergeRecord (source code level : Nat) (injected : Bool) : List FaultRecord → List FaultRecord
  | [] => []
  | r :: t =>
    if !r.acked && r.source == source && r.reported == level then
      { r with repeats := min 255 (r.repeats + 1), cause := r.cause || (!injected && r.code == code && persistentCause source code) } :: t
    else r :: mergeRecord source code level injected t

/-- FLT_COUNTL, the count register of level `l`. -/
def fltCount (l : Nat) : Nat := R.FLT_COUNTL (min l 4)

/-- ERR_N asserted for a record of level `l` at or above err_level, hold set and the pulse started (19 R494). -/
def State.assertErr (s : State) (l : Nat) : State :=
  if s.errLevel ≤ l ∨ l = 4 then
    let s := { s with flt := { s.flt with pulse := true, clearAtPulseEnd := false, errAt := s.now } }
    let s := s.hw R.FLT_ERR_CTRL_hold 1
    if s.is R.FLT_STATUS_err_n then s else (s.wr R.FLT_STATUS_err_n 1).emit (.errN true)
  else s

/-- The forced safe state and further action of a recorded level (19 R485). -/
def State.react (s : State) (source l : Nat) : State :=
  if l = 2 then
    let scope := (s.reg (R.FLT_SCOPEs source)).toNat
    if scope = 0 then s else
      let s := { s with flt := { s.flt with scopes := s.flt.scopes ++ [scope] } }
      (s.wr (bitAt R.FLT_STATUS 18) 1).applySafe
  else if l = 3 then
    let s := s.wr (bitAt R.FLT_STATUS 19) 1
    let s := s.hwMode 11 true
    s.applySafe
  else if l = 4 then
    -- FOV departs (15 R390); DEPART_PATTERN sends the pattern
    let s := { s with fov := { s.fov with departing := decide (s.fovState ≠ 0) } }
    ((s.wr (bitAt R.FLT_STATUS 20) 1).wr R.FLT_STATUS_halted 1).applySafe
  else s

/-- Enter a record in the log; a full log loses it (19 R499). -/
def State.logRecord (s : State) (r : FaultRecord) : State :=
  if s.faultLog.length < 64 then { s with flt := { s.flt with records := s.flt.records ++ [{ r with inLog := true }] } }
  else
    let s := { s with flt := { s.flt with records := s.flt.records ++ [{ r with inLog := false }] } }
    (s.bump (highHalf R.FLT_LOG_STATUS)).raise R.FLT_INT_STATUS_log_ovf

/-- A report of a source, code and level reaches the collector (19 R482, R483, R485). [DEDUCED, log entry 88] -/
def State.reportAs (s : State) (source code level : Nat) (injected : Bool) : State :=
  match s.mergesInto source level with
  | some r =>
    let s := { s with flt := { s.flt with records := mergeRecord source code level injected s.flt.records } }
    s.bump (highHalf (fltCount r.level))
  | none =>
    let l := s.recordLevel source level
    let (t1, t2, t3) := s.logTime (s.rd ⟨R.FLT_CTRL, 4, 2⟩)
    let r : FaultRecord := {
      source := source, code := code, level := l, reported := level
      escalated := decide (l ≠ level), injected := injected, acked := false
      cause := !injected && persistentCause source code
      inLog := true, repeats := 0, time1 := t1, time2 := t2, time3 := t3 }
    let s := (s.logRecord r).raise (bitAt R.FLT_INT_STATUS l)
    let s := if l ≠ level then s.raise R.FLT_INT_STATUS_escalated else s
    ((s.bump (lowHalf (fltCount l))).assertErr l).react source l

/-- A block reports a fault over its fault line (01 R44). -/
def State.report (s : State) (source code level : Nat) : State := s.reportAs source code level false

/-- A record is kept while it is in the log, unacknowledged or has an active cause. -/
def State.pruneRecords (s : State) : State :=
  { s with flt := { s.flt with records := s.flt.records.filter fun r => r.inLog || !r.acked || r.cause } }

/-- The event, count and fault of an overrun at an end of a lock (01 R34), with the event each block's chapter gives it. The tables of receive
streams, Nerax links and DMA channels have no overrun event: theirs shows as rx_missing, tick_mm and starved, the link's counted with the audio
frames skipped. [DESIGN CHOICE, log entry 108] -/
def State.overrun (s : State) (e : Endpoint) (out : Bool) : State :=
  match e with
  | .engine n =>
    let f := if out then R.ENGn_INT_STATUS_ovr_out n else R.ENGn_INT_STATUS_ovr_in n
    ((s.raise f).bump (if out then highHalf (R.ENGn_OVR_COUNT n) else lowHalf (R.ENGn_OVR_COUNT n))).report (32 + n) (b2n out) 2
  | .basin =>
    let f := if out then R.MTX_INT_STATUS_ovr_out else R.MTX_INT_STATUS_ovr_in
    ((s.raise f).bump (if out then highHalf R.MTX_OVR_COUNT else lowHalf R.MTX_OVR_COUNT)).report 20 (if out then 9 else 8) 2
  | .router | .fmp =>
    let f := if out then R.RTR_INT_STATUS_ovr_out else R.RTR_INT_STATUS_ovr_in
    ((s.raise f).bump (if out then highHalf R.RTR_OVR_COUNT else lowHalf R.RTR_OVR_COUNT)).report 21 (if out then 3 else 2) 2
  | .bridge _ =>
    let f := if out then R.BRG_INT_STATUS_ovr_out else R.BRG_INT_STATUS_ovr_in
    ((s.raise f).bump (if out then highHalf R.BRG_OVR_COUNT else lowHalf R.BRG_OVR_COUNT)).report 23 (if out then 25 else 24) 2
  | .filter =>
    let f := if out then R.FLC_INT_STATUS_ovr_out else R.FLC_INT_STATUS_ovr_in
    ((s.raise f).bump (if out then highHalf R.FLC_OVR_COUNT else lowHalf R.FLC_OVR_COUNT)).report 22 (if out then 4 else 3) 2
  | .tdm g =>
    -- the port's capture barge is discarded (ovr_in), its egress barge is absent (ovr_out): 08 R238
    let f := if out then R.TDM_GRPg_INT_STATUS_ovr_out g else R.TDM_GRPg_INT_STATUS_ovr_in g
    ((s.raise f).bump (if out then highHalf (R.TDM_GRPg_OVR_COUNT g) else lowHalf (R.TDM_GRPg_OVR_COUNT g))).report
      (66 + g) (if out then 11 else 10) 2
  | .amp a => ((s.raise (R.AMP_GRPa_INT_STATUS_ovr_out a)).bump (lowHalf (R.AMP_GRPa_OVR_COUNT a))).report (70 + a) 6 2
  | .txStream n =>
    -- the packets that need the barge count it (12 R333)
    ((s.raise R.STRM_INT_STATUS_tx_zero).raise (bitAt (R.STRM_TXEV0 + n / 32 * 4) (n % 32))).report 16 7 2
  | .rxStream n => ((s.raise R.STRM_INT_STATUS_rx_missing).raise (bitAt (R.STRM_RXEV0 + n / 32 * 4) (n % 32))).report 16 2 2
  | .nerax k => ((s.raise (R.NRXk_INT_STATUS_tick_mm k)).bump (lowHalf (R.NRXk_COUNT1 k))).report (86 + k) 7 2
  | .delayLine _ => ((s.raise R.DMC_INT_STATUS_rt_lost).bump (highHalf R.DMC_COUNT)).report 18 3 2
  | .dma c => ((s.raise (R.DMA_CHc_INT_STATUS_starved c)).bump (lowHalf (R.DMA_CHc_COUNT0 c))).report (128 + c) 4 2

end Sys2Proof.Machine
end

