-- ==== Sys2Proof/Machine/Bus.lean ====
section
/-!
DEFINITION. Responses of the bus matrix (17 R425, R426): the default target and data errors.
-/
namespace Sys2Proof.Machine

/-- The causes of XBAR_ERR_INFO.cause (17 R447). -/
def causeNoTarget : Nat := 0
def causeUnreachable : Nat := 1
def causeSize : Nat := 2
def causeBeyondDram : Nat := 3
def causeRefused : Nat := 4
def causeOutbound : Nat := 5
def causeInboundHm : Nat := 6

/-- A burst completes at the default target (17 R426): counted; the first one since the last clear of dte is latched, sets dte and
reports a level-0 fault. A read returns zeros and a write changes nothing. -/
def State.defaultTarget (s : State) (m addr target : Nat) (write : Bool) (cause : Nat) : State :=
  let s := s.bump (lowHalf R.XBAR_ERR_COUNT)
  let s := if s.is R.XBAR_ERR_INFO_valid then s else
    let s := (s.setReg R.XBAR_ERR_ADDR_LO (BitVec.ofNat 32 addr)).setReg R.XBAR_ERR_ADDR_HI (BitVec.ofNat 32 (addr / 2 ^ 32 % 256))
    let s := s.setReg R.XBAR_ERR_INFO (BitVec.ofNat 32 (2 ^ 31 + m * 2 ^ 16 + target * 2 ^ 8 + b2n write * 16 + cause))
    (s.raise (bitAt R.XBAR_INT_STATUS 0)).report 19 0 0
  s.answer [0] .defaultTarget

/-- A burst ends with a data error (17 R425, R447). -/
def State.dataError (s : State) (data : List Word) : State :=
  ((s.bump (highHalf R.XBAR_ERR_COUNT)).raise (bitAt R.XBAR_INT_STATUS 1)).answer data .dataError

end Sys2Proof.Machine
end

