-- ==== Sys2Proof/Machine/Bridge.lean ====
section
/-!
DEFINITION. Rate bridges (07 R202 to R210): groups, pairs, unlock, lock and synchronous operation. The value a bridge filter forms at a point
of its input signal is free: the manual gives the filter by its response.
-/
namespace Sys2Proof.Machine

def State.setFlc (s : State) (f : Filters) : State := { s with flc := f }
def State.brun (s : State) (g : Nat) : BridgeGroup := Tab.get (fun _ => {}) s.flc.runs g
def State.setBrun (s : State) (g : Nat) (r : BridgeGroup) : State :=
  s.setFlc { s.flc with runs := Tab.set (fun _ => {}) s.flc.runs g r }
def State.bpair (s : State) (p : Nat) : BridgePair := Tab.get (fun _ => {}) s.flc.pairs p
def State.setBpair (s : State) (p : Nat) (r : BridgePair) : State :=
  s.setFlc { s.flc with pairs := Tab.set (fun _ => {}) s.flc.pairs p r }

/-- The domains of a pair (07 R202). -/
def pairIn (p : Nat) : Nat := p / 2
def pairOut (p : Nat) : Nat := match p with | 0 => 1 | 1 => 2 | 2 => 0 | 3 => 2 | 4 => 0 | _ => 1

/-- BRG_PAIRp_STATUS.state: 0 idle, 1 acquiring, 2 locked, 3 synchronous, 4 fading (07 R222). -/
def pairState (p : Nat) : FieldAt := ⟨R.BRG_PAIRp_STATUS p, 0, 3⟩
/-- Event `k` of pair `p` (07 R222): 0 lock, 1 unlock, 2 sync_lost, 3 refused. -/
def pairEvent (p k : Nat) : FieldAt := bitAt R.BRG_INT_STATUS (4 * p + k)

/-- Convergent division by `n` (07 R201): to the nearest integer, a tie to the even one. -/
def roundConv (v : Int) (n : Nat) : Int :=
  let q := v / (n : Int)
  let r := v - q * (n : Int)
  if 2 * r > (n : Int) then q + 1 else if 2 * r = (n : Int) ∧ q % 2 ≠ 0 then q + 1 else q

/-- Nominal ratio of a pair, output over input rate (07 R203). -/
def State.pairRatio (s : State) (p : Nat) : Rat := (s.fs (pairOut p) : Rat) / max 1 (s.fs (pairIn p))

/-- The slope limit of a bandwidth in ppb/s (07 R207); 3 acts as 1. -/
def slopeLimit : Nat → Nat | 0 => 400 | 2 => 100000 | _ => 6000

/-- The phase error of a locked pair (07 R207): within 1/128 sample where the deviation keeps to ±1000 ppm and to the slope limit of `bw`. [DESIGN CHOICE, log entry 105] -/
def State.pairPhase (s : State) (p : Nat) (dev : BitVec 32) (phase : BitVec 16) : BitVec 16 :=
  let x := pairOut p
  let slope := (dev.toInt - (s.reg (R.BRG_PAIRp_DEV p)).toInt).natAbs * s.fs x
  if s.rd (pairState p) = 2 ∧ dev.toInt.natAbs ≤ 1000000 ∧ slope ≤ slopeLimit (s.rd ⟨R.BRG_PAIRp_CTRL p, 0, 2⟩) * (s.dom x).b then
    BitVec.ofInt 16 (clampTo 8 phase.toInt)
  else phase

/-- A measurement of a pair's tracker: deviation and phase error, and the largest phase error while locked (07 R207, R222). An idle pair has no
tracker (R202), and in synchronous operation deviation and phase error are exactly 0 (R209). [DEDUCED, log entry 26] -/
def State.trackPair (s : State) (p : Nat) (dev : BitVec 32) (phase : BitVec 16) : State :=
  if s.rd (pairState p) = 0 ∨ s.rd (pairState p) = 3 then s else
  let phase := s.pairPhase p dev phase
  let s := (s.setReg (R.BRG_PAIRp_DEV p) dev).setReg (R.BRG_PAIRp_PHASE p) (phase.setWidth 32)
  let r := s.bpair p
  let s := s.setBpair p { r with good := if phase.toInt.natAbs ≤ 8 then r.good + 1 else 0 }
  if s.rd (pairState p) = 2 then s.highest ⟨R.BRG_PAIRp_PHMAX p, 0, 16⟩ phase.toInt.natAbs else s

/-- An ECC result on a word of a bridge history (07 R210). -/
def State.bridgeEcc (s : State) : Ecc → State
  | .clean => s
  | .corrected => ((s.bump (lowHalf R.BRG_ECC_COUNT)).raise (bitAt R.BRG_INT_STATUS 26)).report 23 26 0
  | .uncorrectable => ((s.bump (highHalf R.BRG_ECC_COUNT)).raise (bitAt R.BRG_INT_STATUS 27)).report 23 27 2

/-- How many input samples of a channel the history keeps, and how many about a point an output sample depends on: the manual gives no length
(07 R204, R210). [DESIGN CHOICE, log entry 105] -/
def historyLength : Nat := 1024
def bridgeReach : Nat := 128

/-- BRIDGE_INPUT_TAKE (07 R206, R210): the group takes the awaited barge by its egress deadline, or zeros; an uncorrectable word is zero. -/
def execBridgeInputTake (group : Nat) (ecc : List (Nat × Ecc)) (s : State) : Res :=
  .next (match s.flc.groups[group]? with
    | none => s
    | some g =>
      let r := s.brun group
      match s.lock g.input with
      | none => s
      | some k =>
        if s.halted ∨ s.tick (pairIn g.pair) ≤ r.nextIn then s else
        let s := ecc.foldl (fun s e => s.bridgeEcc e.2) s
        let (words, s) := match s.awaits g.input r.nextIn with
          | some b => (b.words, s.consume g.input r.nextIn)
          | none => (List.replicate (s.bargeWords k) 0,
              (s.setLock g.input { k with missed := k.missed ++ [r.nextIn] }).overrun (.bridge g.pair) false)
        let words := words.zipIdx.map fun (w, i) => if ecc.any (fun e => e.1 = i ∧ e.2 = .uncorrectable) then 0 else w
        let b := (s.dom (pairIn g.pair)).b
        s.setBrun group { r with nextIn := r.nextIn + 1, history := (words :: r.history).take (historyLength / max 1 b + 1) })

/-- An uncorrectable word of a history: the sample is zero for its channel (07 R210). -/
def State.zeroHistory (s : State) (g age word : Nat) : State :=
  let r := s.brun g
  s.setBrun g { r with history := r.history.modify age fun w => w.set word 0 }

/-- The weight of a fade-in from tick `t`, and of a fade-out from it, at sample `j` of tick `k` with `b` samples (07 R208). -/
def weightUp (b t k j : Nat) : Nat := if k < t then 0 else if (k - t) * b + j < 32 then lineWeight ((k - t) * b + j) else 2 ^ 16
def weightDown (b t k j : Nat) : Nat :=
  if k < t then 2 ^ 16 else if (k - t) * b + j < 32 then lineWeight (31 - ((k - t) * b + j)) else 0

/-- The weight of the output domain's own fade that an unlock at its boundary shares (07 R208): over the 32 samples before a planned boundary. -/
def Domain.sharedWeight (d : Domain) (n : Nat) : Nat :=
  match d.pendingB, d.realignAt with
  | some (t, _), _ => if n < t ∧ t ≤ n + 32 then lineWeight (t - 1 - n) else 2 ^ 16
  | none, some t => if n < t.toNat ∧ t.toNat ≤ n + 32 then lineWeight (t.toNat - 1 - n) else 2 ^ 16
  | none, none => 2 ^ 16

/-- The fade weight of a pair's outputs at sample `j` of output tick `k` (07 R208): 2^16 at full level. -/
def State.pairWeight (s : State) (p k j : Nat) : Nat :=
  let r := s.bpair p
  let d := s.dom (pairOut p)
  let up := match r.inAt with | some t => weightUp d.b t k j | none => 2 ^ 16
  match s.rd (pairState p) with
  | 2 | 3 => up * d.sharedWeight (k * d.b + j) / 2 ^ 16
  | 4 => (match r.outAt with | some t => up * weightDown d.b t k j / 2 ^ 16 | none => 0)
  | _ => 0

/-- The fade-out of a pair is complete before output tick `k`: it acquires with zero outputs (07 R208). -/
def State.pairFades (s : State) (p k : Nat) : State :=
  match (s.bpair p).outAt with
  | some t => if s.rd (pairState p) = 4 ∧ t < k ∧ 32 ≤ (k - t) * (s.dom (pairOut p)).b then s.wr (pairState p) 1 else s
  | none => s

/-- The extra samples of the extended filter, X, by class (07 R205). -/
def bridgeExtra (cls : Nat) (extended : Bool) : Nat := if !extended then 0 else match cls with | 1 => 32 | 2 => 96 | _ => 8

/-- Sample `e` of channel `c`, by emit position in the input domain (07 R204), of a group whose newest history barge is of tick `next` - 1. -/
def historyAt (history : List (List Sample)) (b n hops next c : Nat) (e : Int) : Sample :=
  let i := e - (hops * b : Nat)
  let t := i / (b : Int)
  if i < 0 ∨ (next : Int) ≤ t then 0
  else (history.getD (next - 1 - t.toNat) []).getD ((i % (b : Int)).toNat * n + c) 0

/-- The input position, in samples of the input domain, at the first sample edge of output tick `k`: the tracker's `instant` (2^-16 sample), or in
synchronous operation the exact ratio from where it began (07 R207, R209). [DEDUCED, log entry 121] -/
def State.pairInstant (s : State) (p k : Nat) (instant : BitVec 64) : Rat :=
  match s.rd (pairState p), (s.bpair p).base with
  | 3, some (t, q) => q + ((k : Int) - (t : Int) : Int) * (s.dom (pairOut p)).b / s.pairRatio p
  | _, _ => (instant.toInt : Rat) / 2 ^ 16

/-- The point of the input signal that sample `j` of an output tick carries (07 R204): B_out + 24 + X output samples before its own edge, which lies
at position `q` for the first one; off by the phase error. -/
def State.readPoint (s : State) (p j : Nat) (q : Rat) : Rat :=
  let cls := s.rd ⟨R.BRG_PAIRp_CFG p, 4, 2⟩
  let x := bridgeExtra cls (s.is ⟨R.BRG_PAIRp_CFG p, 0, 1⟩)
  let phase := (toSigned 16 (s.reg (R.BRG_PAIRp_PHASE p)).toNat : Rat) / 1024
  let dev := (s.reg (R.BRG_PAIRp_DEV p)).toInt
  q + ((j : Rat) - ((s.dom (pairOut p)).b + 24 + x : Nat) + phase) / (s.pairRatio p * (1 + (dev : Rat) / 10 ^ 9))

/-- The words of an output barge: filter samples under the pair's fade (07 R201, R204, R205, R208). -/
def bridgeWords (s : State) (g : BridgeSpec) (r : BridgeGroup) (n b : Nat) (q : Rat) : List Sample :=
  let p := g.pair
  let cls := s.rd ⟨R.BRG_PAIRp_CFG p, 4, 2⟩
  let (bIn, hops) := match s.lock g.input with | some k => ((s.dom k.spec.domain).b, k.spec.hops) | none => (1, 0)
  (List.range b).flatMap fun j =>
    let at_ := s.readPoint p j q
    let mid := at_.floor
    (List.range n).map fun c =>
      let window := (List.range (2 * bridgeReach)).map fun i => historyAt r.history bIn n hops r.nextIn c (mid - bridgeReach + i)
      let y := Config.bridgeSample cls (s.is ⟨R.BRG_PAIRp_CFG p, 0, 1⟩) window (at_ - mid)
      BitVec.ofInt 24 (roundConv (y.toInt * (s.pairWeight p r.nextOut j : Int)) (2 ^ 16))

/-- A locked pair unlocks (07 R208, R209): its outputs fade from the next output tick, its sync bit clears, and a level-1 fault is reported. -/
def State.unlockPair (s : State) (p : Nat) : State :=
  if s.rd (pairState p) = 2 ∨ s.rd (pairState p) = 3 then
    let s := (s.hw (R.BRG_PAIRp_CTRL_sync p) 0).wr (pairState p) 4
    let s := s.setBpair p { s.bpair p with outAt := some (s.tick (pairOut p) + 1), good := 0, base := none }
    (s.raise (pairEvent p 1)).report 23 (4 * p + 1) 1
  else s

/-- The measurement passes the limits of R208: 1/4 sample, or 1200 ppm. -/
def excursion (dev : BitVec 32) (phase : BitVec 16) : Bool := decide (256 < phase.toInt.natAbs) || decide (1200000 < dev.toInt.natAbs)

/-- One measurement a tick: an excursion unlocks a locked pair (07 R207, R208). -/
def State.measurePair (s : State) (p k : Nat) (dev : BitVec 32) (phase : BitVec 16) : State :=
  if (s.bpair p).seen = some k then s
  else
    let s := s.setBpair p { s.bpair p with seen := some k }
    let s := s.trackPair p dev phase
    if s.rd (pairState p) = 2 ∧ excursion dev phase then s.unlockPair p else s

/-- BRIDGE_OUTPUT_COMMIT (07 R204, R206 to R208): the output barge of the next output tick is committed, or discarded without credit. -/
def execBridgeOutputCommit (group : Nat) (dev : BitVec 32) (phase : BitVec 16) (instant : BitVec 64) (s : State) : Res :=
  .next (match s.flc.groups[group]? with
    | none => s
    | some g =>
      let r := s.brun group
      match s.lock g.output with
      | none => s
      | some k =>
        if s.halted ∨ s.tick (pairOut g.pair) ≤ r.nextOut then s else
        let s := (s.measurePair g.pair r.nextOut dev phase).pairFades g.pair r.nextOut
        let q := s.pairInstant g.pair r.nextOut instant
        let words := bridgeWords s g r k.spec.channels.length (s.dom (pairOut g.pair)).b q
        let s := s.setBpair g.pair { s.bpair g.pair with base := some (r.nextOut, q) }
        let s := if s.hasCredit g.output then s.commit g.output ⟨r.nextOut, words⟩ else s.overrun (.bridge g.pair) true
        s.setBrun group { s.brun group with nextOut := r.nextOut + 1 })

/-- The domain of a pair starts its pipeline anew (07 R208): a pair into it is silent after the domain's own fade, a pair out of it unlocks. -/
def State.pairRealigned (s : State) (p x : Nat) : State :=
  if pairOut p = x then
    let s := if s.rd (pairState p) = 2 ∨ s.rd (pairState p) = 3 then s.unlockPair p else s
    (if s.rd (pairState p) = 0 then s else s.wr (pairState p) 1).setBpair p {}
  else if pairIn p = x then s.unlockPair p else s

/-- BRIDGE_UNLOCK (07 R208): an excursion, a change of domain or an invalid clock. [DEDUCED, log entry 26] -/
def execBridgeUnlock (p : Fin 6) (dev : BitVec 32) (phase : BitVec 16) (s : State) : Res :=
  .next ((s.trackPair p dev phase).unlockPair p)

/-- BRIDGE_RESYNC (07 R208): the write of BRG_PAIRp_CTRL.resync. [DEDUCED, log entry 26] -/
def execBridgeResync (p : Fin 6) (s : State) : Res := .next (s.unlockPair p)

/-- BRIDGE_LOCK (07 R208): an acquiring pair whose phase error has stayed within 1/128 sample for 16 ticks is locked at an output tick boundary and
fades in from it. -/
def execBridgeLock (p : Fin 6) (dev : BitVec 32) (phase : BitVec 16) (s : State) : Res :=
  .next (if s.rd (pairState p) = 1 ∧ s.atBoundary (pairOut p) = true ∧ phase.toInt.natAbs ≤ 8 ∧ 16 ≤ (s.bpair p).good then
      let s := s.wr (pairState p) 2
      let s := s.trackPair p dev phase
      (s.setBpair p { s.bpair p with outAt := none, inAt := some (s.tick (pairOut p)) }).raise (pairEvent p 0)
    else s)

/-- CLK reports that two domains draw their media clocks from one source (10 R290): CLK_STATUS.common. -/
def State.commonSource (s : State) (x y : Nat) : Bool :=
  let i := if x + y = 1 then 0 else if x + y = 2 then 1 else 2
  (s.rd R.CLK_STATUS_common).testBit i

/-- BRIDGE_SYNC_REQUEST (07 R209): at an output tick boundary the pair enters synchronous operation, or the request is refused. [DEDUCED, log entry 26] -/
def execBridgeSyncRequest (p : Fin 6) (phase : BitVec 16) (s : State) : Res :=
  .next (let s := s.hw (R.BRG_PAIRp_CTRL_sync p) 1
    if s.rd (pairState p) = 3 ∨ !s.atBoundary (pairOut p) then s
    else if s.rd (pairState p) = 2 ∧ phase.toInt.natAbs ≤ 8 ∧ s.commonSource (pairIn p) (pairOut p) = true then
      ((s.wr (pairState p) 3).setReg (R.BRG_PAIRp_DEV p) 0).setReg (R.BRG_PAIRp_PHASE p) 0
    else (s.hw (R.BRG_PAIRp_CTRL_sync p) 0).raise (pairEvent p 3))

/-- BRIDGE_SYNC_LOST (07 R209): the common source is withdrawn; at an output tick boundary the pair tracks again from the exact ratio and phase. -/
def execBridgeSyncLost (p : Fin 6) (s : State) : Res :=
  .next (if s.rd (pairState p) = 3 ∧ s.atBoundary (pairOut p) = true ∧ s.commonSource (pairIn p) (pairOut p) = false then
      (((s.wr (pairState p) 2)).hw (R.BRG_PAIRp_CTRL_sync p) 0).raise (pairEvent p 2)
    else s)

end Sys2Proof.Machine
end

