-- ==== Sys2Proof/Machine/Flags.lean ====
section
/-!
DEFINITION. The arithmetic of an engine's accumulators and the flags it forms (05 R136 to R138, R150, R151, R163).
-/
namespace Sys2Proof.Machine

/-- A data word widened into an accumulator (05 R136). -/
def alignWord (d : Sample) : Acc := (d.signExtend 32 ++ (0 : BitVec 24))

/-- The exact product of two data words in the accumulator frame (05 R137). -/
def productTerm (x y : Sample) : Int := x.toInt * y.toInt * 2

/-- The integer lies outside the range of an accumulator (05 R137). -/
def accOverflow (r : Int) : Bool := decide (r < -(2 ^ 55)) || decide (2 ^ 55 ≤ r)

/-- a[55:47] are all equal: the value fits a data word (05 R138). -/
def fitsWord (a : Acc) : Bool := a.sshiftRight 47 == 0 || a.sshiftRight 47 == BitVec.allOnes 56

/-- A transfer from an accumulator to 24 bits truncates and saturates; the second part says that it saturated (05 R138). -/
def sat24 (a : Acc) : Sample × Bool :=
  if fitsWord a then (a.extractLsb' 24 24, false)
  else if a.msb then (0x800000, true) else (0x7FFFFF, true)

/-- The bits from a[54] downward that equal the sign, at most `fuel` of them. -/
def signRun (a : Acc) : Nat → Nat → Nat
  | _, 0 => 0
  | i, fuel + 1 => if a.getLsbD i = a.msb then 1 + signRun a (i - 1) fuel else 0

/-- Guard use of a result (05 R163): 8 less the bits from r[54] down to r[47] that equal the sign. -/
def guardUse (r : Acc) : Nat := 8 - signRun r 54 8

/-- The flags of a 56-bit result (05 R163) with the carry and overflow the operation defines. -/
def flagsOf (r : Acc) (c v : Bool) : LaneFlags := { z := r == 0, n := r.msb, gu := guardUse r, c := c, v := v }

/-- Carry of the 56-bit addition x + y: bit 56 of the unsigned sum (05 R163). -/
def carryAdd (x y : Acc) : Bool := decide (2 ^ 56 ≤ x.toNat + y.toNat)

/-- Carry of the subtraction x - y: bit 56 of x + NOT y + 1 (05 R163). -/
def carrySub (x y : Acc) : Bool := decide (2 ^ 56 ≤ x.toNat + (~~~y).toNat + 1)

/-- The shift count of an accumulator (05 R151): 48 for 0, else the s for which a × 2^s is normalised. -/
def shiftCount (a : Acc) : Int := if a = 0 then 48 else (signRun a 54 55 : Int) - 8

/-- A shift by a signed amount clamped to ±56 (05 R150): the result and v. -/
def shiftAcc (a : Acc) (s : Int) : Acc × Bool :=
  let s := max (-56) (min 56 s)
  if 0 ≤ s then
    let r := a.toInt * (2 ^ s.toNat : Nat)
    (BitVec.ofInt 56 r, accOverflow r)
  else (BitVec.ofInt 56 (a.toInt / (2 ^ (-s).toNat : Nat)), false)

/-- The sr bits of the flags (04, sr fields): gu, c, v, n, z over the old sticky bits, which v may set. -/
def srWith (sr : BitVec 16) (f : LaneFlags) : BitVec 16 :=
  let arith := f.gu * 2 ^ 12 + (if f.c then 16 else 0) + (if f.v then 4 else 0) + (if f.n then 2 else 0) + (if f.z then 1 else 0)
  (sr &&& 0x0060) ||| BitVec.ofNat 16 arith ||| (if f.v then 0x0040 else 0)

/-- Set sl, set sv (04, sr fields). -/
def srSat (sr : BitVec 16) : BitVec 16 := sr ||| 0x0020
def srOver (sr : BitVec 16) : BitVec 16 := sr ||| 0x0040

end Sys2Proof.Machine
end

