-- ==== Sys2Proof/Machine/Operands.lean ====
section
/-!
DEFINITION. Every operand form of an engine instruction: registers and register codes (05 R149), pointer updates (05 R147), memory
words behind the store buffer and the parameter pages (04 R113, R115), conditions (05 R152), and the commit of results by their
latency (05 R161, R162).
-/
namespace Sys2Proof.Machine

def Engine.dReg (e : Engine) (i : Nat) : Sample := Tab.get (fun _ => 0) e.d i
def Engine.acc (e : Engine) (i : Nat) : Acc := Tab.get (fun _ => 0) e.a i
def Engine.pReg (e : Engine) (i : Nat) : Ptr := Tab.get (fun _ => 0) e.p i
def Engine.mReg (e : Engine) (i : Nat) : Ptr := Tab.get (fun _ => 0) e.m i
def Engine.lReg (e : Engine) (i : Nat) : Ptr := Tab.get (fun _ => 0) e.l i

/-- The loop cache holds the body of the most recent loop and the program counter lies in it, while that loop is active
(05 R154, R157). -/
def Engine.inCache (e : Engine) (at_ : BitVec 13) : Bool :=
  match e.cache with
  | some (a, b) => e.cacheValid && decide (a ≤ at_) && decide (at_ ≤ b) && e.stack.any fun l => l.start == a && l.stop == b
  | none => false

/-- sr as it reads: depth and lcache show the loop stack and loop cache (04, sr fields). -/
def Engine.srValue (e : Engine) : BitVec 16 :=
  (e.sr &&& 0xF077) ||| BitVec.ofNat 16 (e.stack.length * 256) ||| (if e.inCache e.pc then 0x0800 else 0)

/-- Write one register of the file. -/
def Engine.put (e : Engine) (r : EngReg) (v : Acc) : Engine :=
  match r with
  | .d i => { e with d := Tab.set (fun _ => 0) e.d i (v.setWidth 24) }
  | .a i => { e with a := Tab.set (fun _ => 0) e.a i v }
  | .aLow i => { e with a := Tab.set (fun _ => 0) e.a i ((e.acc i &&& 0xFFFFFFFF000000) ||| (v.setWidth 24).setWidth 56) }
  | .aHigh i => { e with a := Tab.set (fun _ => 0) e.a i ((e.acc i &&& 0xFF000000FFFFFF) ||| ((v.setWidth 24).setWidth 56 <<< 24)) }
  | .aGuard i => { e with a := Tab.set (fun _ => 0) e.a i ((e.acc i &&& 0x00FFFFFFFFFFFF) ||| ((v.setWidth 8).setWidth 56 <<< 48)) }
  | .p i => { e with p := Tab.set (fun _ => 0) e.p i (v.setWidth 14) }
  | .m i => { e with m := Tab.set (fun _ => 0) e.m i (v.setWidth 14) }
  | .l i => { e with l := Tab.set (fun _ => 0) e.l i (v.setWidth 14) }
  | .lc => { e with lc := if v.setWidth 16 = 0#16 then 1 else v.setWidth 16 }
  | .sr => { e with sr := (e.sr &&& 0x0F80) ||| (v.setWidth 16 &&& 0xF077) }
  | .none => e

/-- The register a six-bit code names for writing (05 R149); a reserved code discards the value. -/
def codeReg (c : Nat) : EngReg :=
  if c < 8 then .d c
  else if c < 0x0C then .a (c - 8)
  else if c < 0x10 then .none
  else if c < 0x18 then .p (c - 0x10)
  else if c < 0x20 then .m (c - 0x18)
  else if c < 0x28 then .l (c - 0x20)
  else if c = 0x28 then .lc
  else if c = 0x29 then .sr
  else if c < 0x30 then .none
  else if c < 0x34 then .aLow (c - 0x30)
  else if c < 0x38 then .aHigh (c - 0x34)
  else if c < 0x3C then .aGuard (c - 0x38)
  else .none

/-- The 24-bit value a register code reads, and whether the read saturated (05 R149). -/
def Engine.readCode (e : Engine) (c : Nat) : Sample × Bool :=
  match codeReg c with
  | .d i => (e.dReg i, false)
  | .a i => sat24 (e.acc i)
  | .aLow i => ((e.acc i).extractLsb' 0 24, false)
  | .aHigh i => ((e.acc i).extractLsb' 24 24, false)
  | .aGuard i => (((e.acc i).extractLsb' 48 8).signExtend 24, false)
  | .p i => ((e.pReg i).setWidth 24, false)
  | .m i => ((e.mReg i).signExtend 24, false)
  | .l i => ((e.lReg i).setWidth 24, false)
  | .lc => (e.lc.setWidth 24, false)
  | .sr => (e.srValue.setWidth 24, false)
  | .none => (0, false)

/-- The value a 24-bit value becomes in the register it is written to: an accumulator takes it aligned, a lc of 0 acts as 1 (05 R149). -/
def codeValue (r : EngReg) (v : Sample) : Acc :=
  match r with
  | .a _ => alignWord v
  | _ => v.setWidth 56

/-- The latency of a write through a register code: 2 cycles into m and l, 1 elsewhere (05 R161). -/
def codeLatency : EngReg → Nat
  | .m _ => 2
  | .l _ => 2
  | _ => 1

/-- The smallest k with 2^k at least `l`. -/
def ceilLog2 (l : Nat) : Nat := if l ≤ 1 then 0 else (l - 1).log2 + 1

/-- The pointer update of R147 (05): linear modulo 16384 for l = 0, else within the circular buffer. -/
def ptrUpdate (p : Ptr) (step : Int) (l : Nat) : Ptr :=
  if l = 0 then BitVec.ofInt 14 (p.toNat + step)
  else
    let k := ceilLog2 l
    let base := p.toNat / 2 ^ k * 2 ^ k
    BitVec.ofNat 14 (base + (((p.toNat : Int) - base + step) % (l : Int)).toNat)

/-- The step of a move's pointer update (05 R144). -/
def Engine.step (e : Engine) (p : Nat) : Update → Int
  | .none => 0
  | .inc => 1
  | .dec => -1
  | .addM => (e.mReg p).toInt

/-- The word a load names: the store buffer first (04 R113), then memory; X words of the parameter areas through the pages when they are
enabled, `cur` the current parameter page (04 R115). A store to the area that R115 reads as 0 is forwarded like any other while it is
buffered. [DEDUCED, log entry 99] -/
def Engine.load (e : Engine) (cur : Nat) (b : Bus) (at_ : Ptr) : Sample :=
  match ((match b with | .x => e.storesX | .y => e.storesY).reverse.find? fun (s : Buffered) => s.addr = at_) with
  | some s => s.data
  | none =>
    match b with
    | .y => Tab.get (fun _ => 0) e.y at_.toNat
    | .x =>
      if e.paramOn && decide (0x3E00 ≤ at_.toNat) then
        if at_.toNat < 0x3F00 then 0 else Tab.get (fun _ => 0) e.param (256 * cur + (at_.toNat - 0x3F00))
      else Tab.get (fun _ => 0) e.x at_.toNat

/-- Write a word into X or Y memory, as the engine sees it (04 R115). -/
def Engine.poke (e : Engine) (page : Nat) (b : Bus) (at_ : Nat) (v : Sample) : Engine :=
  match b with
  | .y => { e with y := Tab.set (fun _ => 0) e.y at_ v }
  | .x =>
    if e.paramOn && decide (0x3E00 ≤ at_) then
      if at_ < 0x3F00 then e else { e with param := Tab.set (fun _ => 0) e.param (256 * page + (at_ - 0x3F00)) v }
    else { e with x := Tab.set (fun _ => 0) e.x at_ v }

/-- The oldest buffered store leaves its store buffer for memory (04 R113). -/
def Engine.drain (e : Engine) (cur : Nat) (b : Bus) : Engine :=
  match b with
  | .x => match e.storesX with
    | [] => e
    | s :: t => ({ e with storesX := t }).poke cur .x s.addr.toNat s.data
  | .y => match e.storesY with
    | [] => e
    | s :: t => ({ e with storesY := t }).poke cur .y s.addr.toNat s.data

/-- `k` engine cycles pass for the stores in the buffers: a store is written in the second cycle after its own (04 R113). -/
def Engine.ageStores (e : Engine) (k : Nat) : Engine :=
  { e with storesX := e.storesX.map fun b => { b with wait := b.wait - k }, storesY := e.storesY.map fun b => { b with wait := b.wait - k } }

/-- The oldest store of a buffer is written if this is its cycle (04 R113). -/
def Engine.drainDue (e : Engine) (cur : Nat) (b : Bus) : Engine :=
  match (match b with | .x => e.storesX | .y => e.storesY) with
  | [] => e
  | s :: _ => if s.wait = 0 then e.drain cur b else e

/-- A store enters its store buffer of two entries (04 R107, R113); the oldest of two is then due and leaves first. -/
def Engine.store (e : Engine) (cur : Nat) (b : Bus) (at_ : Ptr) (v : Sample) : Engine :=
  match b with
  | .x =>
    let e := if 2 ≤ e.storesX.length then e.drain cur .x else e
    { e with storesX := e.storesX ++ [⟨at_, v, 2⟩] }
  | .y =>
    let e := if 2 ≤ e.storesY.length then e.drain cur .y else e
    { e with storesY := e.storesY ++ [⟨at_, v, 2⟩] }

/-- A condition code over sr (05 R152); a reserved code is never taken. -/
def condition (cc : Nat) (sr : BitVec 16) : Bool :=
  let z := sr.getLsbD 0
  let n := sr.getLsbD 1
  let v := sr.getLsbD 2
  let c := sr.getLsbD 4
  let sl := sr.getLsbD 5
  let gu := sr.extractLsb' 12 4 != 0
  match cc with
  | 0x00 => true
  | 0x01 => z | 0x02 => !z
  | 0x03 => n | 0x04 => !n
  | 0x05 => !n && !z | 0x06 => n || z
  | 0x07 => v | 0x08 => !v
  | 0x09 => gu | 0x0A => !gu
  | 0x0B => c | 0x0C => !c
  | 0x0D => sl | 0x0E => !sl
  | _ => false

/-- Write results in order of slot (05 R143, R146: lane 1 over lane 0, Y over X). -/
def Engine.putAll (e : Engine) (rs : List Result) : Engine :=
  [0, 1, 2, 3].foldl (fun e k => (rs.filter fun r => r.slot = k).foldl (fun e r => e.put r.reg r.value) e) e

/-- `k` cycles pass for results issued earlier: those due are written, the others wait on (05 R161). -/
def Engine.mature (e : Engine) (k : Nat) : Engine :=
  let due := e.delayed.filter fun r => r.wait ≤ k
  let later := (e.delayed.filter fun r => k < r.wait).map fun r => { r with wait := r.wait - k }
  ({ e with delayed := later }).putAll due

end Sys2Proof.Machine
end

