-- ==== Sys2Proof/Machine/Filter.lean ====
section
/-!
DEFINITION. The filter chain (07 R201, R211 to R220): decimators, compensating FIRs and moving-average channels.
-/
namespace Sys2Proof.Machine

/-- Saturate to 24 bits; the flag says that it saturated (07 R201). -/
def flcSat (v : Int) : Sample × Bool :=
  if v < -(2 ^ 23) then (0x800000, true) else if 2 ^ 23 - 1 < v then (0x7FFFFF, true) else (BitVec.ofInt 24 v, false)

/-- `k` saturations are counted (07 R201). -/
def State.flcSaturates (s : State) (k : Nat) : State :=
  if k = 0 then s else (s.bump ⟨R.FLC_SAT_COUNT, 0, 16⟩ k).raise R.FLC_INT_STATUS_sat

def State.cic (s : State) (n : Nat) : Cic := Tab.get (fun _ => {}) s.flc.cics n
def State.setCic (s : State) (n : Nat) (c : Cic) : State := s.setFlc { s.flc with cics := Tab.set (fun _ => {}) s.flc.cics n c }
def State.ma (s : State) (ch : Nat) : MovingAverage := Tab.get (fun _ => {}) s.flc.mas ch
def State.setMa (s : State) (ch : Nat) (m : MovingAverage) : State := s.setFlc { s.flc with mas := Tab.set (fun _ => {}) s.flc.mas ch m }

/-! ## Decimators (07 R212) -/

/-- A value modulo 2^64 in word `k` of a list. -/
def word64 (l : List (BitVec 64)) (k : Nat) : BitVec 64 := l.getD k 0

/-- One input through the K integrators, each taking its predecessor's new value (07 R212). -/
def integrate : Nat → BitVec 64 → List (BitVec 64) → List (BitVec 64)
  | 0, _, _ => []
  | k + 1, u, l => let v := l.headD 0 + u; v :: integrate k v l.tail

/-- The K combs on one output of the last integrator: the new delays and the result (07 R212). -/
def combs : Nat → BitVec 64 → List (BitVec 64) → List (BitVec 64) × BitVec 64
  | 0, c, _ => ([], c)
  | k + 1, c, z =>
    let (zs, r) := combs k (c - z.headD 0) z.tail
    (c :: zs, r)

/-- The input of a PDM bit: +2^22 or -2^22 (07 R212). -/
def pdmInput (b : Bool) : BitVec 64 := if b then 0x400000 else BitVec.ofInt 64 (-0x400000)

/-- A decimator's R inputs to one output (07 R212): the new state, the output and whether it saturated. -/
def decimate (k r : Nat) (us : List (BitVec 64)) (c : Cic) : Cic × Sample × Bool :=
  let integ := us.foldl (fun l u => integrate k u l) c.integ
  let (comb, v) := combs k (word64 integ (k - 1)) c.comb
  let (x, sat) := flcSat (roundConv v.toInt (2 ^ ceilLog2 (r ^ k)))
  ({ c with integ := integ, comb := comb }, x, sat)

/-! ## FIR (07 R214, R215) -/

/-- Coefficient `k` of bank `b` of FIR `n`. -/
def firIndex (n b k : Nat) : Nat := 128 * n + 64 * b + k
def State.coefficient (s : State) (n b k : Nat) : Int :=
  if (s.cic n).dead.contains (64 * b + k) then 0
  else toSigned 24 (s.rd ⟨R.FIR_COEF (firIndex n b k), 0, 24⟩)

/-- The FIR sum of a bank over the delay line, newest first (07 R214). -/
def State.firSum (s : State) (n b : Nat) (line : List Sample) : Sample × Bool :=
  let taps := s.rd (R.CICn_STATUS_taps n) + 1
  flcSat (roundConv ((List.range taps).foldl (fun acc k => acc + s.coefficient n b k * (line.getD k 0).toInt) 0) (2 ^ 22))

/-- The FIR output, crossfading between banks after a swap (07 R215), and how many sums saturated. -/
def State.firOutput (s : State) (n : Nat) (line : List Sample) : Sample × Nat :=
  let b := s.rd (R.CICn_STATUS_bank n)
  let new := s.firSum n b line
  match (s.cic n).fade with
  | some (j, len) =>
    if j < len then
      let old := s.firSum n (1 - b) line
      (BitVec.ofInt 24 (old.1.toInt + (new.1.toInt - old.1.toInt) * ((2 ^ 16 * (j + 1) / (len + 1) : Nat) : Int) / 2 ^ 16), b2n new.2 + b2n old.2)
    else (new.1, b2n new.2)
  | none => (new.1, b2n new.2)

/-! ## Moving averages (07 R217 to R219) -/

/-- The configuration and source of channel `ch` have no address of their own: they are kept beside the register map. -/
def maCfg (ch : Nat) : Nat := 2 ^ 40 + 8 * ch
def maSrc (ch : Nat) : Nat := 2 ^ 40 + 8 * ch + 4
def State.maHop (s : State) (ch : Nat) : Nat := s.rd ⟨maCfg ch, 0, 10⟩ + 1
def State.maBlocks (s : State) (ch : Nat) : Nat := s.rd ⟨maCfg ch, 10, 6⟩ + 1
def State.maMode (s : State) (ch : Nat) : Nat := s.rd ⟨maCfg ch, 16, 2⟩

/-- The sum or peak of a block (07 R217, R218). -/
def maBlock (mode : Nat) (xs : List Sample) : Int :=
  match mode with
  | 0 => xs.foldl (fun a x => a + x.toInt) 0
  | 1 => xs.foldl (fun a x => a + (x.toInt.natAbs : Int)) 0
  | 2 => xs.foldl (fun a x => a + x.toInt * x.toInt) 0
  | _ => xs.foldl (fun a x => max a (x.toInt.natAbs : Int)) 0

/-- The value over P blocks of Q samples (07 R217): RES [47:0], and whether it saturated. -/
def maValue (mode p q : Nat) (blocks : List Int) : BitVec 48 × Bool :=
  match mode with
  | 2 => (BitVec.ofInt 48 (roundConv (blocks.foldl (· + ·) 0) (p * q)), false)
  | 3 => let m := blocks.foldl max 0
         (BitVec.ofInt 48 (min m 0x7FFFFF), decide (0x7FFFFF < m))
  | _ => let r := flcSat (roundConv (blocks.foldl (· + ·) 0) (p * q))
         (r.1.signExtend 48, r.2)

/-- Samples from number `i` on join those from number `at_` on that wait; numbers that do not follow one another start anew. -/
def joinSamples (at_ : Nat) (queue : List Sample) (i : Nat) (xs : List Sample) : Nat × List Sample :=
  if at_ + queue.length = i then (at_, queue ++ xs) else (i, xs)

/-- Samples of tick `t`, from number `i` on, that reach a channel. -/
def State.maFeed (s : State) (ch t i : Nat) (xs : List Sample) : State :=
  let m := s.ma ch
  let (at_, queue) := joinSamples m.at_ m.queue i xs
  s.setMa ch { m with at_ := at_, queue := queue, tick := t }

/-- Result `i` of decimator `n`, of tick `t`, reaches the moving-average channels that take it (07 R217). -/
def State.feedFromCic (s : State) (n t i : Nat) (x : Sample) : State :=
  (s.flc.channels.filter fun ch => s.is (bitAt (maSrc ch) 30) && s.rd ⟨maSrc ch, 0, 13⟩ == n).foldl (fun s ch => s.maFeed ch t i [x]) s

/-- The samples of tick `t` of a router destination, from number `i` on, reach the units that take it (07 R211, R217). -/
def State.feedFromRouter (s : State) (d t i : Nat) (xs : List Sample) : State :=
  let s := (List.range 80).foldl (fun s n =>
    if s.rd (R.CICn_CFG_domain n) ≠ 3 ∧ ¬ s.is (R.CICn_CFG_pdm n) ∧ s.rd (R.CICn_CFG_input n) = d ∧ 0 < s.rd (R.CICn_CFG_order n) then
      let (at_, queue) := joinSamples (s.cic n).at_ (s.cic n).queue i xs
      s.setCic n { s.cic n with at_ := at_, queue := queue } else s) s
  (s.flc.channels.filter fun ch => !s.is (bitAt (maSrc ch) 30) && s.rd ⟨maSrc ch, 0, 13⟩ == d).foldl (fun s ch => s.maFeed ch t i xs) s

/-! ## The rows -/

/-- The output of a recovering unit (07 R220): it fades out from its last output, is zero until refilled, and fades in. [DESIGN CHOICE, log entry 51] -/
def recovered (c : Cic) (refill : Nat) (x : Sample) : Sample × Cic :=
  match c.recover with
  | none => (x, c)
  | some (j, last) =>
    let out : Sample :=
      if j < 32 then BitVec.ofInt 24 (roundConv (last.toInt * (lineWeight (31 - j) : Int)) (2 ^ 16))
      else if j < 32 + refill then 0
      else BitVec.ofInt 24 (roundConv (x.toInt * (lineWeight (j - 32 - refill) : Int)) (2 ^ 16))
    (out, { c with recover := if j + 1 < 64 + refill then some (j + 1, last) else none })

/-- A finished result of number `i`, of tick `t`, by output kind (07 R213). -/
def State.cicResult (s : State) (n t i : Nat) (x : Sample) : State :=
  let c := { s.cic n with last := x }
  let s := match s.rd (R.CICn_CFG_kind n) with
    | 1 => s.setCic n { c with outs := c.outs ++ [(i, x)] }
    | 2 =>
      let s := if c.unread then (s.bump ⟨R.CICn_OVW n, 0, 16⟩).raise R.FLC_INT_STATUS_ovw else s
      let seq := s.rd (R.CICn_OUT_seq n) + 1
      let s := (s.wr (R.CICn_OUT_seq n) seq).wr (R.CICn_OUT_value n) x.toNat
      s.setCic n { c with unread := true, request := s.is (R.CICn_CTRL_dma_en n) }
    | _ => s.setCic n c
  s.feedFromCic n t i x

/-- A correctable error in the filter chain (07 R220). -/
def State.filterCorrected (s : State) : State :=
  ((s.bump (lowHalf R.FLC_ECC_COUNT)).raise R.FLC_INT_STATUS_ecc_corr).report 22 6 0

/-- One block of inputs of a decimator: the values, how many samples of its queue they take, the tick and number of the output they end in, and
whether a decimating FIR skips that output. Blocks of samples end where (n + 1) mod (R × d) is 0; the outputs of a bitstream that is a router
source are numbered by the sample edges of its domain (07 R213). [DEDUCED, log entry 104] -/
def State.cicBlock (s : State) (n : Nat) (bits : List Bool) : Option (List (BitVec 64) × Nat × Nat × Nat × Bool) :=
  let c := s.cic n
  let r := s.rd (R.CICn_CFG_ratio n) + 1
  let x := s.rd (R.CICn_CFG_domain n)
  let half := s.is (R.CICn_CFG_fir_en n) && s.is (R.CICn_CFG_dec2 n)
  if s.is (R.CICn_CFG_pdm n) then
    let first := if s.rd (R.CICn_CFG_kind n) = 1 then (s.dom x).sample.toNat else 0
    if bits.length = r then some (bits.map pdmInput, 0, s.tick x, c.next.getD first, half && !c.odd) else none
  else
    let k := r - c.at_ % r
    let e := c.at_ + k
    if c.queue.length < k then none
    else some ((c.queue.take k).map fun u => u.signExtend 64, k, (e - 1) / (s.dom x).b, e / (if half then 2 * r else r) - 1,
      half && decide (e % (2 * r) ≠ 0))

/-- CIC_OUTPUT (07 R212 to R214): the inputs of one block of the decimator, the bits of a sense stream or samples of its router destination, give
one output, through the FIR where it is enabled. -/
def execCicOutput (n : Fin 80) (bits : List Bool) (corrected : Bool) (s : State) : Res :=
  .next (match s.cicBlock n bits with
    | none => s
    | some (us, used, t, i, skip) =>
      let k := s.rd (R.CICn_CFG_order n)
      if s.halted ∨ k = 0 ∨ s.rd (R.CICn_CFG_domain n) = 3 then s else
      let s := if corrected then s.filterCorrected else s
      let pdm := s.is (R.CICn_CFG_pdm n)
      let c := s.cic n
      let c := { c with queue := c.queue.drop used, at_ := c.at_ + used }
      let (c, x, sat) := decimate k (s.rd (R.CICn_CFG_ratio n) + 1) us c
      let s := s.flcSaturates (b2n sat)
      let c := if pdm ∧ !skip then { c with next := some (i + 1) } else c
      if !s.is (R.CICn_CFG_fir_en n) then
        let (x, c) := recovered c k x
        (s.setCic n c).cicResult n t i x
      else
        let line := (x :: c.line).take 64
        let c := { c with line := line, odd := !c.odd }
        if skip then s.setCic n c
        else
          let (y, sat) := (s.setCic n c).firOutput n line
          let c := { c with fade := c.fade.map fun (j, len) => (j + 1, len) }
          let (y, c) := recovered c (s.rd (R.CICn_STATUS_taps n) + 1) y
          ((s.flcSaturates sat).setCic n c).cicResult n t i y)

/-- A bank swap is requested (07 R215); a further request adds nothing. -/
def State.firRequest (s : State) (n : Nat) : State := s.wr (R.CICn_STATUS_pending n) 1

/-- FIR_SWAP_REQUEST (07 R215). -/
def execFirSwapRequest (n : Fin 80) (s : State) : Res := .next (s.firRequest n)

/-- The bank swaps, with a crossfade of `len` outputs when `len` is above 0 (07 R215). -/
def State.firSwaps (s : State) (n len : Nat) : State :=
  let s := s.wr (R.CICn_STATUS_bank n) (1 - s.rd (R.CICn_STATUS_bank n))
  let s := (s.wr (R.CICn_STATUS_pending n) 0).wr (R.CICn_STATUS_xfading n) (b2n (decide (0 < len)))
  (s.setCic n { s.cic n with fade := if 0 < len then some (0, len) else none }).raise R.FLC_INT_STATUS_swap_done

/-- FIR_SWAP (07 R215): at the first output whose newest input lies at or after the boundary; values of xf_len above 64 act as 64. -/
def execFirSwap (n : Fin 80) (s : State) : Res :=
  .next (if s.is (R.CICn_STATUS_pending n) && !s.is (R.CICn_STATUS_xfading n) then
      s.firSwaps n (min 64 (s.rd (R.CICn_CTRL_xf_len n)))
    else s)

/-- FIR_SWAP_CROSSFADE_END (07 R215): after xf_len outputs the old bank is inactive. -/
def execFirSwapCrossfadeEnd (n : Fin 80) (s : State) : Res :=
  .next (match (s.cic n).fade with
    | some (j, len) => if len ≤ j then (s.setCic n { s.cic n with fade := none }).wr (R.CICn_STATUS_xfading n) 0 else s
    | none => s)

/-- A rewritten coefficient has no error any more (07 R220). -/
def State.rewriteCoef (s : State) (i : Nat) : State :=
  s.setCic (i / 128) { s.cic (i / 128) with dead := (s.cic (i / 128)).dead.filter (· ≠ i % 128) }

/-- A write of an FIR coefficient by master `m` (07 R214): the active bank refuses it, overlay staging of the inactive one drops it. -/
def State.writeCoefficient (s : State) (m i : Nat) (v : Word) : State :=
  let n := i / 128
  let b := i / 64 % 2
  if b = s.rd (R.CICn_STATUS_bank n) ∨ s.is (R.CICn_STATUS_xfading n) then s.defaultTarget m (R.FIR_COEF i) 4 true causeRefused
  else if s.flc.staging then (s.raise R.FLC_INT_STATUS_bank_lost).answer []
  else (((s.soften (R.FIR_COEF i) 0xFFFFFF v).settle (R.FIR_COEF i) 0xFFFFFF).rewriteCoef i).answer []

/-- The inactive bank of each decimator of a section gets its coefficients (07 R214, R215). [DEDUCED, log entry 104] -/
def State.stageBanks (s : State) (c : Content) : State :=
  c.coefs.foldl (fun s e =>
    let b := 1 - s.rd (R.CICn_STATUS_bank e.1)
    e.2.zipIdx.foldl (fun s w => (s.hw ⟨R.FIR_COEF (firIndex e.1 b w.2), 0, 24⟩ w.1.toNat).rewriteCoef (firIndex e.1 b w.2)) s) s

/-- A REPLACE of FILTERS coefficients at its take (07 R215): the inactive banks, and a swap with the payload's xf_len; a pending software swap is
cancelled. [DEDUCED, log entry 104] -/
def State.takeBanks (s : State) (c : Content) : State :=
  c.coefs.foldl (fun s e =>
    let s := if s.is (R.CICn_STATUS_pending e.1) then s.raise R.FLC_INT_STATUS_bank_lost else s
    s.firSwaps e.1 (min 64 c.crossfade)) (s.stageBanks c)

/-- The tick in which sample `n` of a channel's input lies: a router destination's by its number, a decimator's the last it fed. [DEDUCED, log entry 104] -/
def State.maTick (s : State) (ch n : Nat) : Nat :=
  if s.is (bitAt (maSrc ch) 30) then (s.ma ch).tick else n / (s.dom (s.rd ⟨maSrc ch, 28, 2⟩)).b

/-- The word that a channel is a router source of in tick `k` (07 R219): of the last hop that ended before it. -/
def State.maSource (s : State) (ch k : Nat) : Sample :=
  if !s.is (bitAt (maSrc ch) 31) then 0
  else match (s.ma ch).words.find? fun e => decide (e.1 < k) with | some e => e.2 | none => 0

/-- MOVING_AVERAGE_HOP (07 R217 to R219): at a sample with (n + 1) mod Q = 0 a block is complete, and a result forms over the P newest blocks. -/
def execMovingAverageHop (ch : Fin 1024) (corrected : Bool) (s : State) : Res :=
  .next (let m := s.ma ch
    let q := s.maHop ch
    let p := s.maBlocks ch
    let mode := s.maMode ch
    let k := q - m.at_ % q
    if s.halted ∨ m.queue.length < k ∨ ¬ s.flc.channels.contains ch.val then s else
    let s := if corrected then s.filterCorrected else s
    let blocks := (maBlock mode (m.queue.take k) :: m.blocks).take p
    let hops := m.hops + 1
    let (v, sat) := maValue mode p q blocks
    let top : BitVec 16 := BitVec.ofNat 16 (2 ^ 15 + b2n (decide (hops < p)) * 2 ^ 14 + hops % 256)
    let t := s.maTick ch (m.at_ + k - 1)
    let w : Sample := if mode = 2 then (v >>> 23).setWidth 24 else v.setWidth 24
    (s.setMa ch { m with
      queue := m.queue.drop k, at_ := m.at_ + k, blocks := blocks, hops := hops, result := top ++ v
      words := ((t, w) :: m.words.filter fun e => e.1 ≠ t).take 4 }).flcSaturates (b2n sat))

/-- A channel restarts: its stored blocks are cleared (07 R218). -/
def State.maRestart (s : State) (ch : Nat) : State :=
  s.setMa ch { words := (s.ma ch).words, at_ := (s.ma ch).at_ + (s.ma ch).queue.length }

/-- A written FLC_MA_CFG takes effect and clears the stored blocks (07 R218). -/
def State.maCfgTakes (s : State) (ch : Nat) : State :=
  if s.shWaits (maCfg ch) then ((s.settle (maCfg ch) 0x3FFFF).setShWaits (maCfg ch) false).maRestart ch else s

/-- MA_CFG_TAKES_EFFECT (07 R218): at a tick. -/
def execMaCfgTakesEffect (ch : Fin 1024) (s : State) : Res := .next (s.maCfgTakes ch)

/-- An uncorrectable error on a word of the filter chain (07 R220). -/
def State.filterEcc (s : State) (w : FilterWord) : State :=
  let s := ((s.bump (highHalf R.FLC_ECC_COUNT)).raise R.FLC_INT_STATUS_ecc_uncorr).report 22 7 2
  match w with
  | .state n =>
    let c := s.cic n
    s.setCic n { c with integ := [], comb := [], line := [], odd := false, recover := some (0, c.last) }
  | .coefficient n k => s.setCic n { s.cic n with dead := (64 * s.rd (R.CICn_STATUS_bank n) + k.val) :: (s.cic n).dead }
  | .block ch => s.maRestart ch

/-- FLC_ECC_UNCORRECTABLE (07 R220). [DESIGN CHOICE, log entry 9] -/
def execFlcEccUncorrectable (w : FilterWord) (s : State) : Res := .next (s.filterEcc w)

end Sys2Proof.Machine
end

