-- ==== Sys2Proof/Machine/Tdm.lean ====
section
/-!
DEFINITION. Serial audio ports (08): masks and fades, format changes, slave clocks, rate measurement, and one sample of a port.
-/
namespace Sys2Proof.Machine

/-- An event of a group, and its fault. -/
def State.tdmEvent (s : State) (g k : Nat) : State := s.raise (bitAt (R.TDM_GRPg_INT_STATUS g) k)
def State.tdmFault (s : State) (g k level : Nat) : State := (s.tdmEvent g k).report (66 + g) k level

/-! ## Formats (08 R227, R229) -/

def fmtSlots (f : Word) : Nat := getBits f 5 6 + 1
def fmtSlotWidth (f : Word) : Nat := match getBits f 3 2 with | 0 => 16 | 1 => 24 | _ => 32
def fmtFrameBits (f : Word) : Nat := 32 * 2 ^ getBits f 0 3

/-- The format passes R227 and names no reserved value (08 R227, R245). -/
def formatOk (f : Word) (fs : Nat) : Bool :=
  decide (getBits f 11 2 ≠ 3) && decide (getBits f 3 2 ≠ 3) && decide (getBits f 0 3 ≤ 5) && decide (getBits f 5 6 ≤ 31)
    && decide (fmtSlots f * fmtSlotWidth f ≤ fmtFrameBits f) && decide (fmtFrameBits f * fs ≤ 49152000)

/-- The word width a setting names, limited to the slot width in effect (08 R229, R245). -/
def wordWidth (setting slot : Nat) : Nat := min slot (match setting with | 0 => 16 | 1 => 20 | _ => 24)

/-- The top `w` bits of a sample, the rest zero (08 R229). -/
def topBits (x : Sample) (w : Nat) : Sample := BitVec.ofNat 24 (x.toNat / 2 ^ (24 - w) * 2 ^ (24 - w))

/-- The word of slot `c` in the bits of a frame, MSB first, from the first bit of slot 0 on (08 R228, R229). -/
def slotWord (f : Word) (bits : List Bool) (c w : Nat) : Sample :=
  ((List.range w).foldl (fun v i => if bits.getD (c * fmtSlotWidth f + i) false then v + 2 ^ (23 - i) else v) 0 : Nat)

/-! ## Slots and masks (08 R234 to R236) -/

/-- The slot exists in the format in effect (08 R245). -/
def State.slotExists (s : State) (ch : Nat) : Bool := decide (ch % 32 < fmtSlots (s.grp (ch / 128)).fmt)

/-- The slot is enabled. -/
def State.inOn (s : State) (ch : Nat) : Bool := (s.reg (R.TDMp_INMASK (ch / 32))).getLsbD (ch % 32) && s.slotExists ch
def State.outOn (s : State) (ch : Nat) : Bool := (s.reg (R.TDMp_OUTMASK (ch / 32))).getLsbD (ch % 32) && s.slotExists ch

def State.inFade (s : State) (ch : Nat) : List Fade := Tab.get (fun _ => []) s.tdm.ins ch
def State.outFade (s : State) (ch : Nat) : List Fade := Tab.get (fun _ => []) s.tdm.outs ch
def State.setInFade (s : State) (ch : Nat) (f : List Fade) : State := s.setTdm { s.tdm with ins := Tab.set (fun _ => []) s.tdm.ins ch f }
def State.setOutFade (s : State) (ch : Nat) (f : List Fade) : State := s.setTdm { s.tdm with outs := Tab.set (fun _ => []) s.tdm.outs ch f }

/-- A sample of a slot under the fades of the slot and others: zero once a disabled slot has faded out (08 R234 to R236). -/
def slotSample (on : Bool) (slot : List Fade) (x : Sample) (others : List Fade) : Sample :=
  if on || fadingOut slot then faded x (slot ++ others) else 0

/-- INMASK_CHANGE (08 R235, R240): the mask takes effect at a frame boundary; slots enabled fade in, slots disabled fade out. A slot enabled has no
sample to repeat. -/
def State.inmaskTakes (s : State) (p : Nat) : State :=
  if !s.shWaits (R.TDMp_INMASK p) then s else
  let was := s.reg (R.TDMp_INMASK p)
  let s := s.shTake (R.TDMp_INMASK p)
  let now := s.reg (R.TDMp_INMASK p)
  (List.range 32).foldl (fun s c =>
    let ch := 32 * p + c
    if !s.slotExists ch || now.getLsbD c == was.getLsbD c then s
    else if now.getLsbD c then
      (s.setTdm { s.tdm with last := Tab.set (fun _ => 0) s.tdm.last ch 0 }).setInFade ch (s.inFade ch ++ [.into 0])
    else s.setInFade ch (s.inFade ch ++ [.out 0])) s

def execInmaskChange (p : Fin 16) (s : State) : Res := .next (s.inmaskTakes p)

/-- A slave group whose BCLK has stopped forms no frame (08 R241). -/
def State.bclkStands (s : State) (g : Nat) : Bool := !s.tdmMaster g && (s.grp g).stopAt.isSome

/-- What an output slot carries in the frame in progress (08 R229, R236, R241, R242, R244; 15 R394): `none` where it is released; zero in the safe
state, and of a slave that is not locked. [DEDUCED, log entry 114] -/
def State.tdmOutput (s : State) (ch : Nat) (x : Sample) (domain : Fade) : Option Sample :=
  let g := ch / 128
  let p := ch / 32
  let r := s.grp g
  if !s.outOn ch && s.is (R.TDMp_CTRL_out_hiz p) then none
  else if s.fenced && s.is R.FOV_CFG_paired && s.is R.FOV_CFG_tdm_release then none
  else if r.frameSafe || (!s.tdmMaster g && !r.frameLocked) then some 0
  else
    let w := wordWidth (s.rd (R.TDMp_CTRL_out_w p)) (fmtSlotWidth r.fmt)
    some (topBits (slotSample (s.outOn ch) (s.outFade ch) x (r.fadeOut ++ [r.safeFade, domain])) w)

/-- The line of the output frame in progress, at these channels: formed as the frame begins, and again where a change acts from that frame on. -/
def State.formLine (s : State) (chs : List Nat) : State :=
  chs.foldl (fun s ch =>
    if !s.tdmAssigned (ch / 128) || !s.slotExists ch || s.bclkStands (ch / 128) then s
    else
      let v := s.tdmOutput ch (Tab.get (fun _ => 0) s.tdm.words ch) (s.dom (s.tdmDomain (ch / 128))).fade
      s.setTdm { s.tdm with line := Tab.set (fun _ => some 0) s.tdm.line ch v }) s

/-- The channels of a port; those of a group. -/
def portChannels (p : Nat) : List Nat := (List.range 32).map fun c => 32 * p + c
def groupChannels (g : Nat) : List Nat := (List.range 128).map fun i => 128 * g + i

/-- OUTMASK_CHANGE (08 R233, R236): slots enabled fade in; slots disabled fade out to a driven zero, or are released at once under out_hiz. -/
def State.outmaskTakes (s : State) (p : Nat) : State :=
  if !s.shWaits (R.TDMp_OUTMASK p) then s else
  let was := s.reg (R.TDMp_OUTMASK p)
  let s := s.shTake (R.TDMp_OUTMASK p)
  let now := s.reg (R.TDMp_OUTMASK p)
  let hiz := s.is (R.TDMp_CTRL_out_hiz p)
  ((List.range 32).foldl (fun s c =>
    let ch := 32 * p + c
    if !s.slotExists ch || now.getLsbD c == was.getLsbD c then s
    else s.setOutFade ch (if now.getLsbD c then s.outFade ch ++ [.into 0] else if hiz then [] else s.outFade ch ++ [.out 0])) s).formLine (portChannels p)

def execOutmaskChange (p : Fin 16) (s : State) : Res := .next (s.outmaskTakes p)

/-- TDMp_CTRL takes effect at a frame boundary (08 R233, R236): a disabled slot is released at once under out_hiz. -/
def State.tdmCtrlTakes (s : State) (p : Nat) : State :=
  let s := s.shTake (R.TDMp_CTRL p)
  ((portChannels p).foldl (fun s ch => if s.is (R.TDMp_CTRL_out_hiz p) && !s.outOn ch then s.setOutFade ch [] else s) s).formLine (portChannels p)

/-- Slots that a new format ends carry no fade; those it brings into being follow the masks at once, under the group's own fade (08 R237, R245). -/
def State.slotsFollow (s : State) (g : Nat) : State :=
  (groupChannels g).foldl (fun s ch => if s.slotExists ch then s else (s.setInFade ch []).setOutFade ch []) s

/-! ## Format changes (08 R237) -/

/-- The write of TDM_GRPg_FMT_CTRL.apply (08 R237). -/
def State.applyFormat (s : State) (g : Nat) : State :=
  let r := { s.grp g with applied := s.now }
  let f := s.reg (R.TDM_GRPg_FMT g)
  if !s.tdmAssigned g then s
  else if !formatOk f (s.fs (s.tdmDomain g)) then s.tdmEvent g 9
  else if r.step = 3 then s.setGrp g { r with later := some f }
  else if r.step = 0 then (s.setGrp g { r with next := some f, step := 1 }).wr (R.TDM_GRPg_FMT_CTRL_pending g) 1
  else s.setGrp g { r with next := some f }

/-- FORMAT_APPLY (08 R237). -/
def execFormatApply (g : Fin 4) (s : State) : Res := .next (s.applyFormat g)

/-- FORMAT_CHANGE_FADE_OUT (08 R237, step 1): at boundary k0 every channel starts its fade-out. -/
def execFormatChangeFadeOut (g : Fin 4) (s : State) : Res :=
  .next (let r := s.grp g
    let x := s.tdmDomain g
    if r.step = 1 ∧ s.atBoundary x = true then
      (s.setGrp g { r with step := 2, k0 := (s.dom x).sample.toNat, fadeIn := r.fadeIn ++ [.out 0], fadeOut := r.fadeOut ++ [.out 0] }).formLine
        (groupChannels g)
    else s)

/-- FORMAT_CHANGE_TAKE (08 R237, step 3): at a boundary at least 32 samples after k0 the new format is in effect; a master's first new frame
begins there, a slave acquires. The format is one accepted at least 1 µs before. -/
def execFormatChangeTake (g : Fin 4) (s : State) : Res :=
  .next (let r := s.grp g
    let x := s.tdmDomain g
    match r.next with
    | some f =>
      if r.step = 2 ∧ s.atBoundary x = true ∧ r.k0 + 32 ≤ (s.dom x).sample.toNat ∧ r.applied + 250 ≤ s.now then
        let fades := if s.tdmMaster g then [.into 0] else []
        ((s.setGrp g { r with step := 3, fmt := f, next := none, locked := false, unlocked := false, good := 0, bad := 0, slow := 0,
                              number := none, held := none, frameLocked := false, fadeIn := fades, fadeOut := fades }).slotsFollow g).formLine
          (groupChannels g)
      else s
    | none => s)

/-- FORMAT_CHANGE_DONE (08 R237, step 4): the fade-in has ended; a change applied meanwhile starts, and pending stands on for it. [DEDUCED, log entry 114] -/
def execFormatChangeDone (g : Fin 4) (s : State) : Res :=
  .next (let r := s.grp g
    if r.step = 3 ∧ r.fadeIn = [] ∧ r.fadeOut = [] ∧ (s.tdmMaster g ∨ (r.locked ∧ r.frameLocked)) then
      match r.later with
      | some f => (s.setGrp g { r with step := 1, next := some f, later := none }).tdmEvent g 8
      | none => ((s.setGrp g { r with step := 0 }).wr (R.TDM_GRPg_FMT_CTRL_pending g) 0).tdmEvent g 8
    else s)

/-! ## Slave clocks (08 R231, R232, R239 to R242) -/

/-- A locked slave group unlocks (08 R241): the unlock is counted and reported, its inputs fade from the last good sample and its outputs
are driven as zero. -/
def State.tdmUnlock (s : State) (g : Nat) : State :=
  let r := s.grp g
  if !r.locked then s else
  let s := s.bump (highHalf (R.TDM_GRPg_ERR_COUNT g))
  let s := s.setGrp g { r with locked := false, unlocked := true, good := 0, bad := 0, slow := 0, drifted := false, number := none, held := some 0 }
  s.tdmFault g 1 2

/-- A frame error (08 R240): counted and reported. -/
def State.frameError (s : State) (g : Nat) : State :=
  (s.bump (lowHalf (R.TDM_GRPg_ERR_COUNT g))).tdmFault g 4 0

/-- A slave group: placed, and not a master. -/
def State.tdmSlave (s : State) (g : Nat) : Bool := s.tdmAssigned g && !s.tdmMaster g

/-- One frame of a locked slave, judged at the FS edge that ends it (08 R232, R239, R240). -/
def State.judgeFrame (s : State) (g : Nat) (delta : Int) (bits period : Nat) : State :=
  let r := s.grp g
  let s := s.highest ⟨R.TDM_GRPg_OFFSET_PK g, 0, 8⟩ delta.natAbs
  let wrong := decide (bits ≠ fmtFrameBits r.fmt)
  let slow := decide (period < 250) || decide (262 < period)
  let s := if wrong then s.frameError g else s
  let r := { r with bad := if wrong then r.bad + 1 else 0, slow := if slow then r.slow + 1 else 0, again := wrong }
  let s := s.setGrp g r
  if 112 < delta.natAbs then s.tdmUnlock g
  else if 2 ≤ r.slow then (s.tdmEvent g 5).tdmUnlock g
  else if s.rd (R.TDM_GRPg_QUAL_err_max g) < r.bad then s.tdmUnlock g
  else if 65 ≤ delta.natAbs then
    if r.drifted then s else (s.setGrp g { r with drifted := true }).tdmFault g 6 1
  else s.setGrp g { r with drifted := false }

/-- SLAVE_FRAME_START (08 R231, R232, R242): an active FS edge. `delta` is the offset of this frame, `bits` and `period` the BCLK count and the
media-clock cycles of the frame it ends. The frame belongs to the sample edge that comes next; from the lock on each takes the number after
that of the frame before it. [DEDUCED, log entry 114] -/
def execSlaveFrameStart (g : Fin 4) (delta : BitVec 9) (bits period : Nat) (s : State) : Res :=
  .next (if !s.tdmSlave g then s else
    let s := (s.wr (R.TDM_GRPg_STATUS_fs_present g) 1).wr (R.TDM_GRPg_STATUS_bclk_present g) 1
    let s := s.setReg (R.TDM_GRPg_OFFSET g) (delta.setWidth 32)
    let r := { s.grp g with stopAt := none }
    let s := s.setGrp g { r with number := r.number.map fun n => (n.1, n.2 + 1) }
    if r.locked then s.judgeFrame g delta.toInt bits period
    else
      let pass := decide (bits = fmtFrameBits r.fmt) && decide (250 ≤ period) && decide (period ≤ 262) && decide (delta.toInt.natAbs ≤ 112)
      s.setGrp g { r with good := if pass then r.good + 1 else 0 })

/-- BCLK_STOPPED (08 R239, R241): the frame in progress is cut short after `bits` cycles, and a locked group unlocks; the SDO balls hold their level. -/
def execBclkStopped (g : Fin 4) (bits : Nat) (s : State) : Res :=
  .next (if !s.tdmSlave g then s else
    let s := s.wr (R.TDM_GRPg_STATUS_bclk_present g) 0
    let s := s.setGrp g { s.grp g with stopAt := some bits }
    let r := s.grp g
    if r.locked then
      (((s.bump (lowHalf (R.TDM_GRPg_ERR_COUNT g))).tdmEvent g 4).tdmEvent g 2).tdmUnlock g
    else s.setGrp g { r with good := 0 })

/-- FS_LOST (08 R239). -/
def execFsLost (g : Fin 4) (s : State) : Res :=
  .next (if !s.tdmSlave g then s else
    let s := s.wr (R.TDM_GRPg_STATUS_fs_present g) 0
    let r := s.grp g
    if r.locked then (s.tdmEvent g 3).tdmUnlock g else s.setGrp g { r with good := 0 })

/-- SLAVE_LOCK (08 R231, R242): after qual_n + 1 good frames; the frame that begins is latched to its sample edge and is the first captured; the inputs
fade in from it, the outputs from the next output frame. [DEDUCED, log entry 114] -/
def execSlaveLock (g : Fin 4) (s : State) : Res :=
  .next (let r := s.grp g
    if s.tdmSlave g && !r.locked && decide (s.rd (R.TDM_GRPg_QUAL_qual_n g) + 1 ≤ r.good) then
      let far := decide (65 ≤ (toSigned 9 (s.rd ⟨R.TDM_GRPg_OFFSET g, 0, 9⟩)).natAbs)
      let first := (s.dom (s.tdmDomain g)).sample.toNat + 1
      let s := s.setGrp g { r with locked := true, unlocked := false, good := 0, held := none, drifted := far,
                                   number := some (first, first), fadeIn := r.fadeIn ++ [.into 0] }
      let s := (s.tdmEvent g 0).endCause (66 + g) 1
      if far then s.tdmEvent g 6 else s
    else s)

/-! ## Rate measurement (08 R243) -/

/-- The class of a frequency in 1/16 Hz: none, the nearest permitted rate within 2000 ppm, or other. -/
def rateClass (rate : Nat) : Nat :=
  if rate = 0 then 0 else
  match [1, 2, 3, 4, 5, 6].find? (fun c => ((rate : Int) - (16 * rateOf c : Nat)).natAbs * 10 ^ 6 ≤ 2000 * 16 * rateOf c) with
  | some c => c
  | none => 7

/-- RATE_GATE_END (08 R243). -/
def execRateGateEnd (g : Fin 4) (rate : BitVec 24) (s : State) : Res :=
  .next (if !s.tdmAssigned g then s else
    let was := s.rd (R.TDM_GRPg_RATE_class g)
    let c := rateClass rate.toNat
    let r := s.grp g
    let s := s.setReg (R.TDM_GRPg_RATE g) (BitVec.ofNat 32 (2 ^ 31 + c * 2 ^ 24 + rate.toNat))
    let moved := s.rd (R.TDM_GRPg_RATE_CFG_tol_ppm g) * r.lastRate < ((rate.toNat : Int) - r.lastRate).natAbs * 10 ^ 6
    if c ≠ was ∨ moved then (s.setGrp g { r with lastRate := rate.toNat }).tdmEvent g 7 else s)

/-! ## One sample of the ports -/

/-- The groups of domain `x` that the image places. -/
def State.tdmGroupsOf (s : State) (x : Nat) : List Nat := (List.range 4).filter fun g => s.tdmAssigned g && s.tdmDomain g == x

/-- The input frame of sample `n` is captured: a master's always, a locked slave's from its first frame on (08 R231, R242). -/
def State.captures (s : State) (g n : Nat) : Bool :=
  s.tdmMaster g || ((s.grp g).locked && (s.grp g).number.any fun m => decide (m.1 ≤ n))

/-- The word of a channel in the bits of its port's frame (08 R228, R229). -/
def State.tdmWord (s : State) (ch : Nat) (bits : List Bool) : Sample :=
  let f := (s.grp (ch / 128)).fmt
  slotWord f bits (ch % 32) (wordWidth (s.rd (R.TDMp_CTRL_in_w (ch / 32))) (fmtSlotWidth f))

/-- The input frame of sample `n` repeats the one before it (08 R240): it is in error, or none has begun for the sample. -/
def State.repeats (s : State) (g n : Nat) : Bool :=
  (s.grp g).again || (!s.tdmMaster g && (s.grp g).number.any fun m => decide (m.2 < n))

/-- The input sample `n` of a channel (08 R229, R235, R240, R241): the received word, or its repeat, under the fades of its slot and group; while
unlocked, the fade of the last good sample. -/
def State.tdmInput (s : State) (ch n : Nat) (bits : List Bool) : Sample :=
  let g := ch / 128
  let r := s.grp g
  let last := Tab.get (fun _ => 0) s.tdm.last ch
  let sample := fun x others => slotSample (s.inOn ch) (s.inFade ch) x (r.fadeIn ++ others)
  if s.captures g n then sample (if s.repeats g n then last else s.tdmWord ch bits) []
  else match r.held with
    | some 0 => sample last []
    | some k => if k ≤ 32 then sample last [.out (k - 1)] else 0
    | none => 0

/-- The received word a captured slot keeps as its last good sample. -/
def State.tdmKeep (s : State) (ch n : Nat) (bits : List Bool) : Sample :=
  let g := ch / 128
  if s.captures g n && !s.repeats g n then (if s.inOn ch || fadingOut (s.inFade ch) then s.tdmWord ch bits else 0)
  else Tab.get (fun _ => 0) s.tdm.last ch

/-- An output frame begins: the fades of a group's outputs move on, and what has come since the frame before is in force (08 R242, R244). -/
def State.tdmBegins (s : State) (g : Nat) : State :=
  let r := s.grp g
  let fades := passFades (r.step = 2) r.fadeOut
  let fades := if !s.tdmMaster g && r.locked && !r.frameLocked then fades ++ [.into 0] else fades
  let s := s.setGrp g { r with fadeOut := fades, safeFade := if r.frameSafe && !r.safe then .into 0 else r.safeFade.pass,
                               frameSafe := r.safe, frameLocked := r.locked }
  (groupChannels g).foldl (fun s ch => s.setOutFade ch (passFades false (s.outFade ch))) s

/-- The input frame of sample `n` has passed: the fades of a group's inputs move on; those of a lock wait for its first frame (08 R242). -/
def State.tdmPass (s : State) (g n : Nat) : State :=
  let r := s.grp g
  let waits := !s.tdmMaster g && r.locked && !s.captures g n
  let s := s.setGrp g { r with fadeIn := if waits then r.fadeIn else passFades (r.step = 2) r.fadeIn, again := false,
                               held := r.held.bind fun k => if k < 32 then some (k + 1) else none }
  (groupChannels g).foldl (fun s ch => s.setInFade ch (passFades false (s.inFade ch))) s

/-- The domain's numbers are moved back by `d` at a realignment: the latched assignments move with them (08 R231). -/
def State.tdmRenumber (s : State) (x : Nat) (d : Int) : State :=
  (s.tdmGroupsOf x).foldl (fun s g =>
    let r := s.grp g
    s.setGrp g { r with number := r.number.map fun n => (((n.1 : Int) - d).toNat, ((n.2 : Int) - d).toNat), k0 := ((r.k0 : Int) - d).toNat }) s

end Sys2Proof.Machine
end

