-- ==== Sys2Proof/Machine/Amp.lean ====
section
/-!
DEFINITION. Amplifier control (09): channel states, the loop, trips and retries, the rail, the safe states and calibration.
-/
namespace Sys2Proof.Machine

/-- An event of the channel's registers, and a fault from its source (09 R248: those of the even channel of a pair). -/
def State.ampEvent (s : State) (c k : Nat) : State := s.raise (bitAt (R.AMPc_INT_STATUS (s.ampMain c)) k)
def State.ampGrpEvent (s : State) (a k : Nat) : State := s.raise (bitAt (R.AMP_GRPa_INT_STATUS a) k)

/-- The conditions of R256 (09) but those of the channel's own trips. -/
def State.ampMay (s : State) (c : Nat) : Bool :=
  let a := c / 8
  s.ampAssigned a && s.is (R.AMP_GRPa_CTRL_en a) && s.is (R.AMP_GRPa_STATUS_leave a) && s.holds 4 && !s.holds 2
    && s.is (R.AMPc_CTRL_en (s.ampMain c)) && !s.is (R.AMP_GRPa_STATUS_hard a) && s.is (R.AMP_GRPa_STATUS_rail_ok a)

/-- Enter boot: DRV_EN is asserted again with it (09 R256, R258). -/
def State.ampBoot (s : State) (c : Nat) : State := (s.ampEnter c 1).wr (R.AMP_GRPa_STATUS_drv_en (c / 8)) 1

/-! ## Enables, ramps and stops (09 R256 to R258) -/

/-- AMP_GRPa_CTRL.en has changed from `was` (09 R258): a request for leave, its withdrawal, or the stop of the group. -/
def State.ampEnChanged (s : State) (a : Nat) (was : Bool) : State :=
  let en := s.is (R.AMP_GRPa_CTRL_en a)
  if en && !was then (if s.is (R.AMP_GRPa_STATUS_leave a) then s else s.weirRequest (4 + a) (s.weirCost (4 + a)))
  else if !en && was then
    (if s.is (R.AMP_GRPa_STATUS_leave a) then s else s.weirWithdraw (4 + a)).ampRelease a
  else s

/-- AMP_GRPa_CTRL.en is written (09 R258). -/
def State.ampWriteEn (s : State) (a : Nat) (en : Bool) : State :=
  if !s.ampAssigned a then s else (s.sw (R.AMP_GRPa_CTRL_en a) (b2n en)).ampEnChanged a (s.is (R.AMP_GRPa_CTRL_en a))

/-- AMP_GROUP_ENABLE (09 R258). -/
def execAmpGroupEnable (a : Fin 4) (en : Bool) (s : State) : Res := .next (s.ampWriteEn a en)

/-- Leave is granted to a group (09 R258): DRV_EN is asserted unless a hard safe state or a driver fault holds it. -/
def State.ampLeave (s : State) (a : Nat) : State :=
  let drv := !s.is (R.AMP_GRPa_STATUS_hard a) && !s.is (R.AMP_GRPa_STATUS_drv_flt a)
  ((s.wr (R.AMP_GRPa_STATUS_leave a) 1).wr (R.AMP_GRPa_STATUS_drv_en a) (b2n drv)).ampGrpEvent a 0

/-- Start the common-mode ramp of the length in force (09 R257). -/
def State.ampStartRamp (s : State) (c : Nat) : State :=
  let n := s.ampMain c
  s.setAmp n { s.amp n with rampLen := s.rd (R.AMP_GRPa_CM_cm_len (c / 8)), rampPos := 0, low := false }

/-- A whole common-mode ramp in fifths of a loop period (09 R249, R257). -/
def State.rampFull (s : State) (c : Nat) : Nat := (s.amp c).rampLen * (if s.is (R.AMP_GRPa_CFG_fam441 (c / 8)) then 7056 else 7680)

/-- The conditions of a channel are judged at a tick boundary, the enable written for it in effect (09 R256). -/
def State.ampJudge (s : State) (c : Nat) : State :=
  let n := s.ampMain c
  let s := s.shTake (R.AMPc_CTRL n)
  let may := s.ampMay n
  match s.rd (ampState n) with
  | 0 => if may && !(s.ampGroup (c / 8)).hold then s.ampBoot n
         else if !s.is (R.AMP_GRPa_STATUS_rail_ok (c / 8)) then s.ampEnter n 8 else s
  | 1 => if may then s else (s.ampOff n).ampRelease (c / 8)
  | 2 => if may then s else s.ampEnter n 5
  | 3 => if may then s else
      match (s.amp n).fade with
      | .out _ => s
      | .zero => s
      | _ => s.setAmp n { s.amp n with fade := .out 0 }
  | 4 => if may then s else
      match (s.amp n).fade with
      | .out _ => s
      | .zero => s
      | _ => s.setAmp n { s.amp n with fade := .out 0 }
  | 6 => if may then s else (s.ampOff n).ampRelease (c / 8)
  | _ => s

/-- AMP_CHANNEL_ENABLE (09 R256): at a tick boundary of the group's domain. -/
def execAmpChannelEnable (c : Fin 32) (s : State) : Res :=
  .next (if s.ampAssigned (c / 8) && s.atBoundary (s.rd (R.AMP_GRPa_CFG_domain (c / 8))) then s.ampJudge c else s)

/-- AMP_BOOT_END (09 R256, R257). -/
def execAmpBootEnd (c : Fin 32) (s : State) : Res :=
  .next (if s.rd (ampState (s.ampMain c)) = 1 then (s.ampStartRamp c).ampEnter c 2 else s)

/-- AMP_CM_RAMP_END (09 R256, R257, R265): a rising ramp ends in run with a fade-in, or in mute; a falling one ends low. -/
def execAmpCmRampEnd (c : Fin 32) (s : State) : Res :=
  .next (let n := s.ampMain c
    match s.rd (ampState n) with
    | 2 =>
      if (s.amp n).rampPos < s.rampFull n then s
      else if s.is (R.AMP_GRPa_STATUS_mute (c / 8)) then (s.setAmp n { s.amp n with fade := .none, mutePos := 2 ^ 10 }).ampEnter n 4
      else ((s.setAmp n { s.amp n with fade := .into 0 }).ampEnter n 3).ampEvent n 0
    | 5 => if (s.amp n).rampPos = 0 then s.setAmp n { s.amp n with low := true } else s
    | _ => s)

/-- AMP_FADE_OUT_END (09 R256): the fade-out is over and the common mode ramps down from its value. -/
def execAmpFadeOutEnd (c : Fin 32) (s : State) : Res :=
  .next (let n := s.ampMain c
    let k := s.rd (ampState n)
    if (k = 3 ∨ k = 4) ∧ (s.amp n).fade = .zero then
      let len := s.rd (R.AMP_GRPa_CM_cm_len (c / 8))
      let s := s.setAmp n { s.amp n with rampLen := len, low := false }
      (s.setAmp n { s.amp n with rampPos := s.rampFull n }).ampEnter n 5
    else s)

/-- AMP_OFF_REACHED (09 R256, R258): the ramp is down and 1 ms has passed. -/
def execAmpOffReached (c : Fin 32) (s : State) : Res :=
  .next (let n := s.ampMain c
    if s.rd (ampState n) = 5 ∧ (s.amp n).low then ((s.ampOff n).ampEvent n 1).ampRelease (c / 8) else s)

/-! ## Trips (09 R261 to R264) -/

/-- Put a channel into tripped, or into latched when its retries are used (09 R262, R264); the trip is counted and sc_trip set. -/
def State.ampTripOne (s : State) (c : Nat) : State :=
  let n := s.ampMain c
  let s := (s.bump ⟨R.AMPc_TRIPS n, 0, 8⟩).ampEvent n 3
  if s.rd (R.AMPc_STATUS_retries n) = s.rd (R.AMP_GRPa_RETRY_retry_max (c / 8)) then (s.ampEnter n 7).ampEvent n 4
  else s.ampEnter n 6

/-- A channel is driven, so a trip stops it: boot and the switching states (09 R262, R264). -/
def State.ampLive (s : State) (c : Nat) : Bool := let k := s.rd (ampState c); decide (1 ≤ k) && decide (k ≤ 5)

/-- Trip every driven channel of the group without a report of its own, and release DRV_EN (09 R262, R263). -/
def State.ampTripGroup (s : State) (a : Nat) : State :=
  let s := s.wr (R.AMP_GRPa_STATUS_drv_en a) 0
  ((List.range 8).foldl (fun s i =>
    let c := 8 * a + i
    if s.ampMain c = c && s.ampLive c then s.ampTripOne c else s) s).ampRelease a

/-- A record of this fault waits to be acknowledged, so a later trip of the series is not reported again (09 R264). -/
def State.unackedTrip (s : State) (c : Nat) : Bool :=
  s.flt.records.any fun r => !r.acked && r.source == 96 + s.ampMain c && r.code == 3

/-- A channel's own over-current trip (09 R262, R264). -/
def State.ampTrip (s : State) (c : Nat) : State :=
  let first := !s.unackedTrip c
  let s := s.ampTripOne c
  let s := if s.is (R.AMP_GRPa_CTRL_sc_grp (c / 8)) then s.ampTripGroup (c / 8) else s.ampRelease (c / 8)
  if first then s.report (96 + s.ampMain c) 3 2 else s

/-- The fast current estimate: a second-order sinc of length 16 over current bits, newest first, ±256 for ±I_fs (09 R261). -/
def fastCurrent (bits : List Bool) : Int :=
  (List.range 31).foldl (fun v i => let w : Int := (min (i + 1) (31 - i) : Nat); if bits.getD i false then v + w else v - w) 0

/-- CYCLE_BY_CYCLE_LIMIT (09 R248, R261): at a falling SCLK edge the estimate over the channel's last current bits is at or above i_lim. The switch
that conducts is turned off and the opposite level driven until the next edge; the event is set and counted. -/
def execCycleByCycleLimit (c : Fin 32) (bits : List Bool) (s : State) : Res :=
  .next (let n := s.ampMain c
    let i := fastCurrent bits
    if s.ampLive c && decide (s.rd (R.AMPc_ILIM_i_lim n) ≤ i.natAbs) then
      let s := s.setAmp c { s.amp c with forced := some (decide (i < 0)), limited := true }
      (s.bump ⟨R.AMPc_TRIPS n, 16, 16⟩).ampEvent n 2
    else s)

/-- SHORT_CIRCUIT_TRIP (09 R261, R262): an estimate at or above i_sc, or a limit that acts in cbc_max consecutive carrier periods. -/
def execShortCircuitTrip (c : Fin 32) (bits : List Bool) (s : State) : Res :=
  .next (let n := s.ampMain c
    let many := (s.amp c).limited && decide (max 1 (s.rd (R.AMPc_ILIM_cbc_max n)) ≤ (s.amp c).run + 1)
    if s.ampLive c && (decide (s.rd (R.AMPc_ILIM_i_sc n) ≤ (fastCurrent bits).natAbs) || many) then s.ampTrip c else s)

/-- DRIVER_FAULT (09 R263): DRV_FLT_N is recognised; every driven channel trips and the group reports once. -/
def execDriverFault (a : Fin 4) (s : State) : Res :=
  .next (if !s.ampAssigned a then s else
    let s := s.setAmpGroup a { s.ampGroup a with hold := true }
    (((s.wr (R.AMP_GRPa_STATUS_drv_flt a) 1).ampTripGroup a).ampGrpEvent a 4).report (70 + a) 4 2)

/-- SENSE_LOST (09 R263): straight into latched. -/
def execSenseLost (c : Fin 32) (s : State) : Res :=
  .next (if !s.ampAssigned (c / 8) then s else
    (((s.ampEnter c 7).ampEvent c 5).ampRelease (c / 8)).report (96 + s.ampMain c) 5 2)

/-- A retry of a tripped channel: boot, where R256 holds (09 R264). -/
def State.ampRetries (s : State) (n : Nat) : State :=
  let s := s.setAmp n { s.amp n with retryDue := false }
  if s.rd (ampState n) ≠ 6 then s
  else if s.ampMay n then
    let s := (s.wr (R.AMPc_STATUS_retries n) (s.rd (R.AMPc_STATUS_retries n) + 1)).bump ⟨R.AMPc_TRIPS n, 8, 8⟩
    (s.ampBoot n).ampCauseEnds n
  else ((s.ampOff n).ampCauseEnds n).ampRelease (n / 8)

/-- AMP_RETRY (09 R258, R264): the wait is over; held while a driver fault holds boots back. -/
def execAmpRetry (c : Fin 32) (s : State) : Res :=
  .next (let n := s.ampMain c
    if s.rd (ampState n) ≠ 6 then s
    else if (s.ampGroup (c / 8)).hold then s.setAmp n { s.amp n with retryDue := true }
    else s.ampRetries n)

/-- AMP_RETRY_RESET (09 R264): good_s seconds of run without a trip. -/
def execAmpRetryReset (c : Fin 32) (s : State) : Res :=
  .next (let n := s.ampMain c
    if s.rd (ampState n) = 3 then s.wr (R.AMPc_STATUS_retries n) 0 else s)

/-- AMPc_CTRL.clr (09 R264): acts in latched alone. -/
def State.ampClr (s : State) (c : Nat) : State :=
  let n := s.ampMain c
  if s.rd (ampState n) = 7 then ((s.wr (R.AMPc_STATUS_retries n) 0).ampOff n).ampCauseEnds n else s

/-- AMP_CLEAR (09 R264). -/
def execAmpClear (c : Fin 32) (s : State) : Res := .next (s.ampClr c)

/-- DRV_FLT_RELEASE_HOLD_END (09 R258): DRV_FLT_N has been high for 1 ms; retries held till then are made. -/
def execDrvFltReleaseHoldEnd (a : Fin 4) (s : State) : Res :=
  .next (if !(s.ampGroup a).hold then s else
    let s := (s.setAmpGroup a { s.ampGroup a with hold := false }).wr (R.AMP_GRPa_STATUS_drv_flt a) 0
    let s := s.endCause (70 + a) 4
    (List.range 8).foldl (fun s i => let c := 8 * a.val + i; if (s.amp c).retryDue then s.ampRetries c else s) s)

/-! ## Rail (09 R259) -/

/-- A rail fault: the channels pass to rail_wait but for latched and hard ones; a waiting retry is cancelled (09 R259). -/
def State.railFault (s : State) (a k : Nat) : State :=
  let s := s.wr (R.AMP_GRPa_STATUS_rail_ok a) 0
  let s := (List.range 8).foldl (fun s i =>
    let c := 8 * a + i
    let n := s.rd (ampState c)
    if n = 7 ∨ n = 9 then s else if n = 6 then (s.ampEnter c 8).ampCauseEnds c else s.ampEnter c 8) s
  ((s.ampGrpEvent a k).ampRelease a).report (70 + a) k 2

/-- The loop rate in Hz, and the carrier (09 R249). -/
def State.ampLoopRate (s : State) (a : Nat) : Nat := if s.is (R.AMP_GRPa_CFG_fam441 a) then 1411200 else 1536000
def State.ampCarrier (s : State) (a : Nat) : Nat := if s.is (R.AMP_GRPa_CFG_carrier a) then s.ampLoopRate a / 2 else s.ampLoopRate a / 4

/-- The rail of a loop period from its eight bits, by a decimator of order 3 and R = 8, in 10 mV of the full scale RAIL.fs (09 R253). [DEDUCED, log entry 80] -/
def State.railMeasure (s : State) (a : Nat) (bits : List Bool) : State :=
  let g := s.ampGroup a
  let (cic, x, _) := decimate 3 8 (bits.map pdmInput) g.cic
  let v : Rat := max 0 ((x.toInt : Rat) * (s.rd (highHalf (R.AMP_GRPa_RAIL a)) : Nat) / 2 ^ 23)
  (s.setAmpGroup a { g with cic := cic, vbus := v }).wr (lowHalf (R.AMP_GRPa_RAIL a)) (min 0xFFFF v.floor.toNat)

/-- The rail measurement of one loop period against its windows (09 R259): a fault as the run below uv comes to 16 periods, or that above ov to 2. -/
def State.railJudge (s : State) (a : Nat) : State :=
  let g := s.ampGroup a
  let uv : Rat := (s.rd (lowHalf (R.AMP_GRPa_RAIL_WIN a)) : Nat)
  let ov : Rat := (s.rd (highHalf (R.AMP_GRPa_RAIL_WIN a)) : Nat)
  let low := if g.vbus < uv then g.low + 1 else 0
  let high := if ov < g.vbus then g.high + 1 else 0
  let inner := if uv * 105 / 100 ≤ g.vbus ∧ g.vbus ≤ ov * 95 / 100 then g.inner + 1 else 0
  let s := s.setAmpGroup a { g with low := min low 16, high := min high 2, inner := min inner 153600 }
  if g.low < 16 ∧ 16 ≤ low then s.railFault a 1
  else if g.high < 2 ∧ 2 ≤ high then s.railFault a 2
  else s

/-- RAIL_QUALIFIED (09 R259): vbus has stayed within its inner window for 100 ms; channels in rail_wait pass to off. -/
def execRailQualified (a : Fin 4) (s : State) : Res :=
  .next (if !s.ampAssigned a || s.is (R.AMP_GRPa_STATUS_rail_ok a) || decide ((s.ampGroup a).inner * 10 < s.ampLoopRate a) then s else
    let s := (s.wr (R.AMP_GRPa_STATUS_rail_ok a) 1).ampGrpEvent a 3
    let s := (List.range 8).foldl (fun s i =>
      let c := 8 * a.val + i
      if s.rd (ampState c) = 8 then s.ampEnter c 0 else s) s
    (s.endCause (70 + a) 1).endCause (70 + a) 2)

/-! ## The modulator (09 R251, R252) -/

/-- The least duty: AMP_GRPa_PWM.min_pulse in carrier periods (09 R252). -/
def State.dutyMin (s : State) (a : Nat) : Rat := ((s.rd ⟨R.AMP_GRPa_PWM a, 0, 8⟩ : Nat) : Rat) * (s.ampCarrier a : Nat) / 10 ^ 9

/-- A carrier period begins (09 R252, R261): the limit's run goes on or ends, and a duty below the least on a ramp is made up of narrow pulses
spread evenly. -/
def State.carrierBegins (s : State) (c : Nat) : State :=
  let ch := s.amp c
  let k := s.rd (ampState c)
  let least := s.dutyMin (c / 8)
  let ch := { ch with run := if ch.limited then ch.run + 1 else 0, limited := false }
  let ch := if ch.low then { ch with narrow := some 0, due := 0 }
    else if (k = 2 ∨ k = 5) ∧ ch.duty < least then
      let due := ch.due + max 0 ch.duty / least
      if 1 ≤ due then { ch with due := due - 1, narrow := some least } else { ch with due := due, narrow := some 0 }
    else { ch with narrow := none, due := 0 }
  let main := s.ampMain c
  let cbc := bitAt (R.AMPc_STATUS main) 9
  (s.setAmp c ch).wr cbc (b2n ((s.amp c).limited || (decide (c ≠ main) && s.is cbc)))

/-- An edge of the channel in the half carrier period that begins, from its latest duty, on the 125 ps grid, its error carried on (09 R251). -/
def State.pwmEdge (s : State) (c : Nat) (rising : Bool) : State :=
  let ch := s.amp c
  let width := ch.narrow.getD ch.duty
  if width = 0 then s.setAmp c { ch with forced := none, level := false }
  else
    let t : Rat := 8000000000 / (s.ampCarrier (c / 8) : Nat)
    let ideal := (if rising then t * (1 - width) / 2 else t * width / 2) + ch.carry
    let tick := (ideal + 1 / 2).floor
    (s.setAmp c { ch with carry := ideal - tick, forced := none, level := rising }).emit (.pwmEdge c rising tick.toNat)

/-- A loop period begins in the carrier of channel `c`: a half of the carrier period takes its edge (09 R251). [DEDUCED, log entry 115] -/
def State.carrierStep (s : State) (c : Nat) : State :=
  if ¬ ampSwitching (s.rd (ampState c)) then s.setAmp c { s.amp c with phase := 0, forced := none, level := false }
  else
    let len := if s.is (R.AMP_GRPa_CFG_carrier (c / 8)) then 2 else 4
    let p := (s.amp c).phase
    let s := if p = 0 then (s.carrierBegins c).pwmEdge c true else if p = len / 2 then s.pwmEdge c false else s
    s.setAmp c { s.amp c with phase := (p + 1) % len }

/-! ## Safe states (09 R265) -/

/-! ## The loop (09 R252, R254, R257, R260) -/

/-- The result of the loop decimator of a channel: voltage or current (09 R253). -/
def State.sense (s : State) (c : Nat) (current : Bool) : Rat :=
  match (List.range 80).find? fun n => s.rd (R.CICn_CFG_kind n) = 0 ∧ s.is (R.CICn_CFG_pdm n) ∧ s.rd (R.CICn_CFG_input n) = c
      ∧ s.is (R.CICn_CFG_current n) = current with
  | some n => ((s.cic n).last.toInt : Rat) / 2 ^ 23
  | none => 0

/-- A rational as a 24-bit signed field with `k` fraction bits, truncated and saturated. [DEDUCED, log entry 80] -/
def ratField (r : Rat) (k : Nat) : Nat := ofSigned 24 (clampS 24 (r * 2 ^ k).floor)

/-- a / b, with the free quotient where the rail measures zero. -/
def railDiv (a b : Rat) : Rat := if b = 0 then Config.railZero a else a / b

/-- A value the device rounds, within 2^-24 of `exact`. -/
def near (exact rounded : Rat) : Rat := max (exact - 1 / 2 ^ 24) (min (exact + 1 / 2 ^ 24) rounded)

/-- The sum of `n` terms of a series whose term `k + 1` is term `k` times `f k`. -/
def series (f : Nat → Rat) : Nat → Nat → Rat → Rat
  | 0, _, _ => 0
  | n + 1, k, t => t + series f n (k + 1) (t * f k)

/-- cos(π x) for x in [0, 1], to 10^-12; exp(-1 / x) for x from 1000 on, to 10^-12. -/
def cosine (x : Rat) : Rat :=
  let y := x * 3141592653589793238 / 10 ^ 18
  series (fun k => -(y * y) / ((2 * k + 1) * (2 * k + 2) : Nat)) 14 0 1
def decay (x : Rat) : Rat := series (fun k => -1 / (x * (k + 1 : Nat))) 5 0 1

/-- The common-mode duty of a channel (09 R257): 1/2 in run and mute. -/
def State.commonMode (s : State) (c : Nat) : Rat :=
  let ch := s.amp c
  let k := s.rd (ampState c)
  if k = 2 ∨ k = 5 then
    let x : Rat := if ch.rampLen = 0 then (if k = 2 then 1 else 0)
      else min 1 ((ch.rampPos : Rat) / (s.rampFull c : Nat))
    (1 - near (cosine x) (Config.cosPi x)) / 4
  else 1 / 2

/-- The mute weight (09 R265): linear from 1 to 0 over safe_ramp loop periods in mute. -/
def State.muteWeight (s : State) (c : Nat) : Rat :=
  if s.rd (ampState c) = 4 then
    let n := max 1 (s.rd ⟨R.AMP_GRPa_SAFE (c / 8), 0, 10⟩)
    max 0 (1 - (((s.amp c).mutePos + 1 : Nat) : Rat) / (n : Rat))
  else 1

/-- The reference before the limiter (09 R250, R254, R256): 0 on a ramp, under the channel's fade. -/
def State.ampReference (s : State) (c : Nat) (free : Nat) : Rat :=
  let ch := s.amp c
  let k := s.rd (ampState c)
  if k = 2 ∨ k = 5 then 0 else Config.ampReference ch.samples free * (((ch.fade.weight : Nat) : Rat) / 32)

/-- The limiter over a reference: its peak and g_lim (09 R260). -/
def State.ampLimiter (s : State) (c : Nat) (r0 : Rat) : Rat × Rat :=
  let a := c / 8
  let vfs : Rat := (s.rd ⟨R.AMPc_VFS c, 0, 16⟩ : Nat)
  let room := ((s.rd (R.AMP_GRPa_LIMIT_headroom a) : Nat) : Rat) / 256 * (s.ampGroup a).vbus
  let limit := railDiv room (if s.ampTied c then vfs else 2 * vfs)
  let x : Rat := (s.ampLoopRate a : Nat) * (max 1 (s.rd (R.AMP_GRPa_LIMIT_release a)) : Nat) / 1000
  let held := (s.amp c).peak * near (decay x) (Config.limiterDecay x)
  let mag := if r0 < 0 then -r0 else r0
  let peak := if held < mag then mag else held
  (peak, if s.is (R.AMP_GRPa_LIMIT_limit_en a) then (if peak = 0 then 1 else min 1 (limit / peak)) else 1)

/-- One step of a correction toward its latest estimate (09 R266). -/
def toward (cur : Rat) (target : Option Rat) (step : Rat) : Rat :=
  match target with
  | some t => cur + max (-step) (min step (t - cur))
  | none => cur

/-- A rational as bits of an s0.23 register. -/
def s023 (r : Rat) : Word := BitVec.ofNat 32 (ratField r 23)

/-- Calibration over one loop period in run (09 R266): the enabled corrections move and the window's sums grow. [DEDUCED, log entry 115] -/
def State.calibrates (s : State) (c : Nat) (vdec idec duty : Rat) : State :=
  if s.rd (ampState c) ≠ 3 then s else
  let ch := s.amp c
  let on := fun k => s.is (bitAt (R.AMPc_CAL_CTRL c) k)
  let ideal := railDiv ((duty - 1 / 2) * (s.ampGroup (c / 8)).vbus) (s.rd ⟨R.AMPc_VFS c, 0, 16⟩ : Nat) * (if s.ampTied c then 2 else 1)
  let ch := { ch with
    voff := if on 0 then toward ch.voff ch.toVoff (1 / 2 ^ 28) else ch.voff
    vgain := if on 1 then toward ch.vgain ch.toVgain (1 / 2 ^ 30) else ch.vgain
    ioff := if on 2 then toward ch.ioff ch.toIoff (1 / 2 ^ 28) else ch.ioff
    window := ch.window + 1, sumV := ch.sumV + vdec, sumD := ch.sumD + ideal, sumI := ch.sumI + idec }
  (((s.setAmp c ch).setReg (R.AMPc_CAL_VOFF c) (s023 ch.voff)).setReg (R.AMPc_CAL_VGAIN c) (s023 ch.vgain)).setReg (R.AMPc_CAL_IOFF c) (s023 ch.ioff)

/-- The loop of a switching channel over one period (09 R252, R254, R257, R260). The equations hold in exact rationals; the results shown in
registers truncate. [DEDUCED, log entry 80] -/
def State.ampLoop (s : State) (c : Nat) : State :=
  let a := c / 8
  let k := s.rd (ampState c)
  let ch := s.amp c
  let tied := s.ampTied c
  let vfs : Rat := (s.rd ⟨R.AMPc_VFS c, 0, 16⟩ : Nat)
  let vbus := (s.ampGroup a).vbus
  let (free, s) := s.draw
  let r0 := s.ampReference c free
  let (peak, g) := s.ampLimiter c r0
  let r := r0 * g * s.muteWeight c
  let vdec := if tied then s.sense c false - s.sense (c + 1) false else s.sense c false
  let idec := s.sense c true
  let v := (vdec - ch.voff) * (1 + ch.vgain)
  let i := idec - ch.ioff
  let e := r - v
  let kp : Rat := ((s.rd (lowHalf (R.AMPc_KV c)) : Nat) : Rat) / 2 ^ 14
  let ki : Rat := ((s.rd (highHalf (R.AMPc_KV c)) : Nat) : Rat) / 2 ^ 16
  let kd : Rat := ((s.rd (lowHalf (R.AMPc_KD c)) : Nat) : Rat) / 2 ^ 14
  let q := if ch.clamped then ch.q else max (-(1 / 4)) (min (1 / 4) (ch.q + ki * e))
  let u := r + kp * e + q - kd * i
  let d := s.commonMode c + railDiv (u * vfs) (if tied then 2 * vbus else vbus)
  let least := s.dutyMin a
  let ramp := decide (k = 2 ∨ k = 5)
  -- on a ramp a duty below the least is made up of narrow pulses (R252)
  let beyond := (!ramp && decide (d < least)) || decide (1 - least < d)
  let d := if ramp && decide (d < least) then max 0 d else max least (min (1 - least) d)
  let pos := if k = 2 then min (ch.rampPos + 5) (s.rampFull c) else if k = 5 then ch.rampPos - 5 else ch.rampPos
  let s := s.setAmp c { ch with q := q, peak := peak, duty := d, clamped := beyond, rampPos := pos,
                                mutePos := if k = 4 then min (ch.mutePos + 1) (2 ^ 10) else ch.mutePos }
  -- the partner of a bridge-tied pair switches with duty 1 - d (R248)
  let s := if tied then s.setAmp (c + 1) { s.amp (c + 1) with duty := 1 - d } else s
  let s := if beyond then s.ampEvent c 7 else s
  let s := s.calibrates c vdec idec d
  let s := (s.setReg (R.AMPc_VMEAS c) (s023 v)).setReg (R.AMPc_IMEAS c) (s023 i)
  (s.setReg (R.AMPc_LIMGAIN c) (BitVec.ofNat 32 (ratField g 22))).wr (R.AMPc_STATUS_limiting c) (b2n (decide (g < 1)))

/-- AMP_LOOP_PERIOD (09 R249 to R254, R257, R259, R260): one loop period of channel `c`. With channel 0 of a group come the eight rail bits of
the period, which the group measures and judges, and the level of DRV_FLT_N. A bridge-tied partner has no loop of its own. -/
def execAmpLoopPeriod (c : Fin 32) (rail : List Bool) (drvFlt : Bool) (s : State) : Res :=
  .next (let a := c.val / 8
    if !s.ampAssigned a || s.halted then s else
    let s := if c.val % 8 ≠ 0 then s else
      let s := if drvFlt then s else s.wr (R.AMP_GRPa_STATUS_drv_flt a) 0
      (s.railMeasure a rail).railJudge a
    let s := s.carrierStep c
    if s.ampMain c ≠ c.val ∨ ¬ ampSwitching (s.rd (ampState c)) then s else s.ampLoop c)

/-- One sample reaches a channel (09 R250, R256): it is taken, and the fade of the reference advances. -/
def State.ampTake (s : State) (c : Nat) (x : Sample) : State :=
  let ch := s.amp c
  s.setAmp c { ch with samples := (x :: ch.samples).take 16, fade := ch.fade.pass }

/-! ## Calibration (09 R266) -/

/-- A new estimate of a correction (09 R266): held to its range; one outside it is an event and a fault. -/
def State.estimate (s : State) (c : Nat) (est range : Rat) : State × Rat :=
  let t := max (-range) (min range est)
  (if t = est then s else (s.ampEvent c 6).report (96 + c) 6 1, t)

/-- CALIBRATION_WINDOW (09 R266): a window of 2^21 loop periods in run ends; the enabled corrections have new estimates. `vgain` is the relative gain,
low-passed as the rule says, where the reference exceeded -40 dBFS. -/
def execCalibrationWindow (c : Fin 32) (vgain : Option (BitVec 24)) (s : State) : Res :=
  .next (let ch := s.amp c
    if s.ampMain c ≠ c.val ∨ s.rd (ampState c) ≠ 3 ∨ ch.window < 2 ^ 21 then s else
    let n : Rat := (ch.window : Nat)
    let on := fun k => s.is (bitAt (R.AMPc_CAL_CTRL c) k)
    let s := s.setAmp c { ch with window := 0, sumV := 0, sumD := 0, sumI := 0 }
    let s := if on 0 then
        let (s, t) := s.estimate c (ch.sumV / n - ch.sumD / n) (1 / 64)
        s.setAmp c { s.amp c with toVoff := some t } else s
    let s := match on 1, vgain with
      | true, some e => let (s, t) := s.estimate c ((e.toInt : Rat) / 2 ^ 23) (1 / 32); s.setAmp c { s.amp c with toVgain := some t }
      | _, _ => s
    if on 2 then
      let (s, t) := s.estimate c (ch.sumI / n) (1 / 64)
      s.setAmp c { s.amp c with toIoff := some t } else s)

/-- AMP_SAFE_RELEASE (09 R265): a group whose safe commands have ended leaves mute and hard. -/
def execAmpSafeRelease (a : Fin 4) (s : State) : Res := .next (s.ampUnsafe a (s.muteAmp a) s.hardAmp)

end Sys2Proof.Machine
end

