-- ==== Sys2Proof/Machine/Basin.lean ====
section
/-!
DEFINITION. The basin, the crosspoint gain matrix (06 R166 to R185): gains, sums, banks, scene takes and ramps.
-/
namespace Sys2Proof.Machine

/-! ## Gains in effect -/

/-- The value at position `t` of a linear ramp of `n` samples from `a` to `b` (06 R175, R180). -/
def rampValue (a b : Int) (t n : Nat) : Int :=
  if n ≤ t then b else a + (b - a) * ((2 ^ 16 * (t + 1) / n : Nat) : Int) / 2 ^ 16

/-- A word of a bank; the table of the active bank. -/
def Gains.words (g : Gains) (b : Nat) : List (Nat × Sample) := if b = 0 then g.words0 else g.words1
def Gains.word (g : Gains) (b node : Nat) : Sample := Tab.get (fun _ => 0) (g.words b) node
def Gains.setWord (g : Gains) (b node : Nat) (v : Sample) : Gains :=
  let g := { g with dead := g.dead.filter (· ≠ (b, node)) }
  if b = 0 then { g with words0 := Tab.set (fun _ => 0) g.words0 node v } else { g with words1 := Tab.set (fun _ => 0) g.words1 node v }

/-- Replace a whole bank. -/
def Gains.setBank (g : Gains) (b : Nat) (ws : List (Nat × Sample)) : Gains :=
  let g := { g with dead := g.dead.filter (·.1 ≠ b) }
  if b = 0 then { g with words0 := ws } else { g with words1 := ws }

/-- The gain that a word of a bank gives: 0 from an uncorrectable error in it to its rewrite (06 R184). -/
def Gains.value (g : Gains) (b node : Nat) : Int := if g.dead.contains (b, node) then 0 else (g.word b node).toInt

/-- The gain in effect at a node for sample number `n` (06 R170, R175, R180, R184): its ramp, its crossfade, or its word in the active bank. -/
def Gains.at (g : Gains) (n node : Nat) : Int :=
  let word := g.value g.bank node
  let slot := g.ramps.find? fun r => r.node = node
  match slot with
  | some r =>
    if r.held then
      match g.fade with
      | some f => if f.out.contains node then word else rampValue r.gs word (n - f.start).toNat f.len
      | none => word
    else rampValue r.gs r.gt (n - r.start).toNat r.len
  | none =>
    match g.fade with
    | some f => if f.out.contains node then word else rampValue (g.value (1 - g.bank) node) word (n - f.start).toNat f.len
    | none => word

/-- The sample numbers of the domain move back by `d` under the ramps and the crossfade that run (10 R292). -/
def Gains.renumber (g : Gains) (d : Int) : Gains :=
  { g with ramps := g.ramps.map fun r => { r with start := r.start - d }, fade := g.fade.map fun f => { f with start := f.start - d } }

def State.setBasin (s : State) (b : Basin) : State := { s with basin := b }

/-- Change the gains, and MTX_STATUS with them (06 R199). -/
def State.setGains (s : State) (g : Gains) : State :=
  (((s.setBasin { s.basin with now := g }).wr R.MTX_STATUS_bank g.bank).wr R.MTX_STATUS_xfade (b2n g.fade.isSome)).wr
    R.MTX_STATUS_ramps g.ramps.length

def State.mtxDomain (s : State) : Nat := s.rd R.MTX_INFO_domain
def State.mtxB (s : State) : Nat := (s.dom s.mtxDomain).b
def State.mtxSample (s : State) : Nat := (s.dom s.mtxDomain).sample.toNat
def State.mtxTick (s : State) : Nat := s.tick s.mtxDomain
def State.mtxIn (s : State) : Nat := s.rd R.MTX_INFO_inputs
def State.mtxOut (s : State) : Nat := s.rd R.MTX_INFO_outputs

/-- A node inside the shape (06 R171). -/
def State.inShape (s : State) (node : Nat) : Bool := decide (node % 1024 < s.mtxIn) && decide (node / 1024 < s.mtxOut)

/-- The gain in effect at the last sample before the boundary that stands (06 R175, R180). -/
def State.gainBefore (s : State) (node : Nat) : Int := s.basin.was.at (s.mtxSample - 1) node

/-- A tick boundary of the basin's domain comes: the gains of the tick that ends are those its sums use, and changes act on the samples of the
tick that begins (06 R166). -/
def State.basinBoundary (s : State) (x : Nat) : State :=
  if s.mtxDomain = x && s.atBoundary x then s.setBasin { s.basin with was := s.basin.now } else s

/-- The gains that the image gives are those of every sample before the first change. -/
def State.basinStarts (s : State) : State := s.setBasin { s.basin with was := s.basin.now }

/-- The domain's numbers are moved back by `d` at a realignment. -/
def State.basinRenumber (s : State) (x : Nat) (d : Int) : State :=
  if s.mtxDomain = x then s.setBasin { s.basin with was := s.basin.was.renumber d, now := s.basin.now.renumber d } else s

/-! ## Sums (06 R61 in 02, R169, R183 to R185) -/

/-- Input groups not yet processed nor taken as zeros in this tick. -/
def State.groupsLeft (s : State) : List Nat :=
  (List.range s.basin.ins.length).filter fun i => !s.basin.done.contains i && !s.basin.zero.contains i

/-- The fade-in weight of sample `j` of a tick of `b` samples (06 R185, R190). -/
def tickWeight (b j : Nat) : Int := ((2 ^ 16 * (j + 1) / (b + 1) : Nat) : Int)

/-- Add input channel `i` of one tick to every output sum (06 R169, R185). -/
def State.addInput (s : State) (i : Nat) (x : List Sample) (fadeIn : Bool) : State :=
  let b := s.mtxB
  let k := s.basin.tick
  let sums := (List.range s.mtxOut).foldl (fun t o =>
    (List.range b).foldl (fun t j =>
      let v := (x.getD j 0).toInt
      let v := if fadeIn then v * tickWeight b j / 2 ^ 16 else v
      Tab.set (fun _ => 0) t (o * b + j) (Tab.get (fun _ => 0) t (o * b + j) + v * s.basin.was.at (k * b + j) (o * 1024 + i))) t) s.basin.sums
  s.setBasin { s.basin with sums := sums }

/-- The events of an ECC result on a bank word (06 R184). -/
def State.bankEccEvent (s : State) : Ecc → State
  | .clean => s
  | .corrected => ((s.bump (lowHalf R.MTX_ECC_COUNT)).raise R.MTX_INT_STATUS_ecc_corr).report 20 10 0
  | .uncorrectable => ((s.bump (highHalf R.MTX_ECC_COUNT)).raise R.MTX_INT_STATUS_ecc_uncorr).report 20 11 2

/-- An ECC result on a bank word read for summation (06 R184): an uncorrectable one makes the gain 0 until the word is rewritten, as a ramp or an
overlay's write may have done at the boundary since. -/
def State.bankEcc (s : State) (node : Nat) : Ecc → State
  | .uncorrectable =>
    let b := s.basin.was.bank
    let rewritten := (s.basin.now.ramps.any fun r => r.node = node ∧ r.start = s.mtxTick * s.mtxB) || s.basin.now.word b node != s.basin.was.word b node
    let mark := fun (g : Gains) => { g with dead := (b, node) :: g.dead }
    let s := s.setBasin { s.basin with was := mark s.basin.was, now := if rewritten then s.basin.now else mark s.basin.now }
    s.bankEccEvent .uncorrectable
  | e => s.bankEccEvent e

/-- BASIN_GROUP_PROCESS (06 R169; 02 R61): a present input group is added into every output sum, and its credit returns. [DESIGN CHOICE, log entry 9] -/
def execBasinGroupProcess (group : Nat) (ecc : List (Nat × Ecc)) (s : State) : Res :=
  .next (if s.halted ∨ s.mtxTick ≤ s.basin.tick then s else
    match s.basin.ins[group]? with
    | none => s
    | some g =>
      match s.awaits g.lock s.basin.tick with
      | none => s
      | some bg =>
        if s.groupsLeft.contains group then
          let s := ecc.foldl (fun s e => s.bankEcc e.1 e.2) s
          let fadeIn := s.basin.wasZero.contains group
          let s := (List.range g.count).foldl (fun s c =>
            s.addInput (g.first + c) ((List.range s.mtxB).map fun j => bg.word j g.count c) fadeIn) s
          (s.setBasin { s.basin with done := s.basin.done ++ [group] }).consume g.lock s.basin.tick
        else s)

/-- BASIN_DEADLINE (06 R183): absent input groups are taken as zeros, each an overrun; their late barges will be discarded. -/
def execBasinDeadline (s : State) : Res :=
  .next (if s.halted ∨ s.mtxTick ≤ s.basin.tick then s else
    s.groupsLeft.foldl (fun s i =>
      match s.basin.ins[i]? with
      | some g =>
        if (s.awaits g.lock s.basin.tick).isSome then s
        else
          let s := match s.lock g.lock with
            | some k => s.setLock g.lock { k with missed := k.missed ++ [s.basin.tick] }
            | none => s
          (s.setBasin { s.basin with zero := s.basin.zero ++ [i] }).overrun .basin false
      | none => s) s)

/-- One output sample (06 R169): the clamped sum truncated, and saturated to 24 bits; the flag says that it saturated. -/
def basinOutput (sum : Int) : Sample × Bool :=
  let v := (max (-(2 ^ 55)) (min (2 ^ 55 - 1) sum)) / 2 ^ 19
  if v < -(2 ^ 23) then (0x800000, true) else if 2 ^ 23 - 1 < v then (0x7FFFFF, true) else (BitVec.ofInt 24 v, false)

/-- The words of an output group, and how many of them saturated. -/
def State.outputWords (s : State) (g : GroupSpec) : List Sample × Nat :=
  let all := (List.range s.mtxB).flatMap fun j => (List.range g.count).map fun c =>
    basinOutput (Tab.get (fun _ => 0) s.basin.sums ((g.first + c) * s.mtxB + j))
  (all.map (·.1), (all.filter (·.2)).length)

/-- BASIN_PHASE_END (06 R169, R183; 02 R61): every input group of the tick is done, so the output barges are committed; a group whose lock
holds no credit is discarded. -/
def execBasinPhaseEnd (s : State) : Res :=
  .next (if s.halted || decide (s.mtxTick ≤ s.basin.tick) || !s.groupsLeft.isEmpty || s.basin.outs.isEmpty then s else
    let s := s.basin.outs.foldl (fun s g =>
      let (w, sat) := s.outputWords g
      let s := if sat = 0 then s else (s.bump ⟨R.MTX_SAT_COUNT, 0, 16⟩ sat).raise R.MTX_INT_STATUS_sat
      if s.hasCredit g.lock then s.commit g.lock ⟨s.basin.tick, w⟩ else s.overrun .basin true) s
    s.setBasin { s.basin with tick := s.basin.tick + 1, sums := [], done := [], zero := [], wasZero := s.basin.zero })

/-! ## Banks (06 R171 to R173) -/

/-- The outgoing bank of a running crossfade is locked, so no bank is inactive (06 R172). -/
def State.writableBank (s : State) (b : Nat) : Bool := b != s.basin.now.bank && s.basin.now.fade.isNone

/-- Write a node of the inactive bank, noting it against a running copy (06 R173). -/
def State.putGain (s : State) (b node : Nat) (v : Sample) : State :=
  let s := s.setBasin { s.basin with now := s.basin.now.setWord b node v }
  if s.is R.MTX_STATUS_copy_busy then s.setBasin { s.basin with touched := node :: s.basin.touched } else s

/-- The base of the bank windows (06 R171). -/
def bankWindow : Nat := 0x20000000

/-- A copy runs: a running crossfade and overlay staging hold it back (06 R173, R177). -/
def State.copyRuns (s : State) : Bool := s.is R.MTX_STATUS_copy_busy && s.basin.now.fade.isNone && !s.basin.staging

/-- The copy has reached these nodes: each is copied as it stands, unless software wrote it meanwhile (06 R173). [DEDUCED, log entry 76] -/
def State.copyReaches (s : State) (nodes : List Nat) : State :=
  if !s.copyRuns then s else
    (nodes.filter fun n => s.inShape n && !s.basin.touched.contains n).foldl (fun s n =>
      let g := s.basin.now
      s.putGain (1 - g.bank) n (g.word g.bank n)) s

/-- Read a slot of the bank windows at byte offset `o` (06 R171, R172). -/
def State.bankRead (s : State) (o : Nat) : Word :=
  let node := o % 0x400000 / 4
  if s.inShape node then (s.basin.now.word (o / 0x400000) node).signExtend 32 else 0

/-- Write a slot of the bank windows for master `m` (06 R171, R172). -/
def State.bankWrite (s : State) (m o : Nat) (v : Word) : State :=
  let b := o / 0x400000
  let node := o % 0x400000 / 4
  if !s.writableBank b then s.defaultTarget m (bankWindow + o) 2 true causeRefused
  else if s.basin.staging then (s.raise R.MTX_INT_STATUS_bank_lost).answer []
  else if s.inShape node then (s.putGain b node (v.setWidth 24)).answer []
  else s.answer []

/-- BANK_WINDOW_ACCESS (06 R171 to R173, R184): only aligned 32-bit accesses; `reached` says that a running copy has passed the node. [DEDUCED, log entry 76] -/
def execBankWindowAccess (m : MasterIx) (offset : BitVec 23) (bytes : Nat) (write : Option Word) (ecc : Ecc) (reached : Bool) (s : State) : Res :=
  .next (let o := offset.toNat
    let s := if reached then s.copyReaches [o % 0x400000 / 4] else s
    if bytes ≠ 4 ∨ o % 4 ≠ 0 then s.defaultTarget m (bankWindow + o) 2 write.isSome causeSize
    else match write with
      | some v => s.bankWrite m o v
      | none =>
        let s := s.bankEccEvent ecc
        if ecc = .uncorrectable then s.dataError [0] else s.answer [s.bankRead o])

/-- A copy of the active bank is requested (06 R173, R176, R177): copy_busy shows it from here to its end. -/
def State.requestCopy (s : State) : State :=
  if s.is R.MTX_STATUS_copy_busy then s else (s.setBasin { s.basin with touched := [] }).wr R.MTX_STATUS_copy_busy 1

/-- BANK_COPY_REQUEST (06 R173). -/
def execBankCopyRequest (s : State) : Res := .next s.requestCopy

/-- BANK_COPY_END (06 R173): every node of the active bank is in the inactive one, but for words software wrote meanwhile. A copy waits for
a running crossfade and for overlay staging. [DEDUCED, log entry 76] -/
def execBankCopyEnd (s : State) : Res :=
  .next (let g := s.basin.now
    if !s.copyRuns then s else
    let page := 1 - g.bank
    let kept := (g.words page).filter fun e => s.basin.touched.contains e.1
    let copied := (g.words g.bank).filter fun e => !s.basin.touched.contains e.1
    let words := kept.foldr (fun e t => Tab.set (fun _ => 0) t e.1 e.2) copied
    let dead := g.dead.filter fun e => decide (e.1 = page) && s.basin.touched.contains e.2
    let g := g.setBank page words
    ((s.setBasin { s.basin with touched := [] }).setGains { g with dead := g.dead ++ dead }).wr R.MTX_STATUS_copy_busy 0)

/-! ## Scene takes (06 R174 to R176) -/

/-- A length raised to MTX_CTRL.min_len (06 R174, R178). -/
def State.atLeastMin (s : State) (n : Nat) : Nat := max n (s.rd R.MTX_CTRL_min_len)

/-- The ramp has passed its last sample at the current boundary (06 R180). -/
def State.rampOver (s : State) (r : RampSlot) : Bool :=
  !r.held && decide (r.start < s.mtxSample) && decide (r.start + r.len ≤ s.mtxSample)

/-- At a boundary the slots of finished ramps are free, and their nodes follow their bank words (06 R180). -/
def State.freeRamps (s : State) : State :=
  s.setGains { s.basin.now with ramps := s.basin.now.ramps.filter fun r => !s.rampOver r }

/-- A sample number rounded up to a tick boundary of the basin's domain (06 R174). -/
def roundUp (n b : Nat) : Nat := ceilDiv n b * b

/-- A scene take is requested (06 R174, R176): a further request while one is pending adds nothing. -/
def State.requestTake (s : State) : State :=
  if s.basin.take.isSome then s else
  let at_ := if s.is R.MTX_TAKE_at_en then some (roundUp (s.wide R.MTX_TAKE_AT_LO R.MTX_TAKE_AT_HI) s.mtxB) else none
  (s.setBasin { s.basin with take := some at_, takeSince := s.now }).wr R.MTX_STATUS_take_pending 1

/-- SCENE_TAKE_REQUEST (06 R174): the write of MTX_TAKE carries at_en. -/
def execSceneTakeRequest (atEn : Bool) (s : State) : Res := .next ((s.hw R.MTX_TAKE_at_en (b2n atEn)).requestTake)

/-- No crossfade, copy or staging holds a take back (06 R176, R177). -/
def State.takeFree (s : State) : Bool :=
  s.basin.now.fade.isNone && !s.is R.MTX_STATUS_copy_busy && !s.basin.staging

/-- The pending take leaves the queue. -/
def State.dropTake (s : State) : State := (s.setBasin { s.basin with take := none }).wr R.MTX_STATUS_take_pending 0

/-- The scene take at the current boundary with a crossfade of `n` samples (06 R174, R175): the inactive bank becomes active; a running
ramp ends and its slot holds its value until the crossfade ends. -/
def State.sceneTake (s : State) (n : Nat) : State :=
  let s := s.freeRamps
  let g := s.basin.now
  let ramps := g.ramps.map fun r => { r with held := true, gs := s.gainBefore r.node }
  let g := { g with bank := 1 - g.bank, ramps := ramps, fade := some ⟨s.mtxSample, n, []⟩ }
  ((s.setGains g).setWide R.MTX_TAKE_LAST_LO R.MTX_TAKE_LAST_HI s.mtxSample).raise R.MTX_INT_STATUS_take_done

/-- The pending take was requested at least 1 µs ago (00 R15). -/
def State.takeDue (s : State) : Bool := decide (s.basin.takeSince + 250 ≤ s.now)

/-- SCENE_TAKE (06 R174, R176): at a tick boundary of the basin's domain, when the pending take is free to occur there; a timed one at its own
boundary alone, requested 1 µs before it. -/
def execSceneTake (s : State) : Res :=
  .next (match s.basin.take with
    | none => s
    | some at_ =>
      if s.atBoundary s.mtxDomain && s.takeFree && at_.all (fun t => decide (t = s.mtxSample) && s.takeDue) then
        s.dropTake.sceneTake (s.atLeastMin (s.rd ⟨R.MTX_XFADE, 0, 16⟩))
      else s)

/-- The crossfade has passed its last sample at the current boundary (06 R175). -/
def State.fadeOver (s : State) : Bool :=
  match s.basin.now.fade with
  | some f => s.atBoundary s.mtxDomain && decide (f.start < s.mtxSample) && decide (f.start + f.len ≤ s.mtxSample)
  | none => false

/-- SCENE_TAKE_LATE (06 R174): a timed take not free to occur at its boundary is refused: one held back there, requested less than 1 µs before it,
or requested after it. -/
def execSceneTakeLate (s : State) : Res :=
  .next (match s.basin.take with
    | some (some t) =>
      let held := (s.basin.now.fade.isSome && !s.fadeOver) || s.is R.MTX_STATUS_copy_busy || s.basin.staging
      if t < s.mtxSample ∨ (t = s.mtxSample ∧ s.atBoundary s.mtxDomain ∧ (held ∨ !s.takeDue)) then
        s.dropTake.raise R.MTX_INT_STATUS_late
      else s
    | _ => s)

/-- CROSSFADE_END (06 R175): at the boundary after its last sample the outgoing bank becomes inactive and the held slots are freed. -/
def execCrossfadeEnd (s : State) : Res :=
  .next (let g := s.basin.now
    if s.fadeOver then
      (s.setGains { g with fade := none, ramps := g.ramps.filter fun r => !r.held }).raise R.MTX_INT_STATUS_xfade_done
    else s)

/-! ## Ramps (06 R178 to R182) -/

def State.rqStatus (s : State) : State :=
  (s.wr R.MTX_RQ_STATUS_queued s.basin.queue.length).wr R.MTX_RQ_STATUS_gang_open (b2n s.basin.gang)

/-- The queue without the commands of the open gang at its end. -/
def dropOpenGang (q : List RampCmd) : List RampCmd := (q.reverse.dropWhile (·.gang)).reverse

/-- A ramp command is pushed (06 R178, R182): refused with a full queue, discarded outside the shape. -/
def State.pushRamp (s : State) (len : Nat) (gang : Bool) : State :=
  let node := s.rd ⟨R.MTX_RQ_NODE, 16, 10⟩ * 1024 + s.rd ⟨R.MTX_RQ_NODE, 0, 10⟩
  if !s.inShape node then s.raise R.MTX_INT_STATUS_rq_bad
  else if 1024 ≤ s.basin.queue.length then
    let q := if s.basin.gang then dropOpenGang s.basin.queue else s.basin.queue
    ((s.setBasin { s.basin with queue := q, gang := false }).raise R.MTX_INT_STATUS_rq_full).rqStatus
  else
    let c : RampCmd := ⟨node, BitVec.ofNat 24 (s.rd ⟨R.MTX_RQ_GAIN, 0, 24⟩), s.atLeastMin len, gang, s.now⟩
    (s.setBasin { s.basin with queue := s.basin.queue ++ [c], gang := gang }).rqStatus

/-- RAMP_PUSH (06 R178): the write of MTX_RQ_PUSH. -/
def execRampPush (length : BitVec 16) (gang : Bool) (s : State) : Res := .next (s.pushRamp length.toNat gang)

/-- Start one command at the current boundary (06 R180, R181): in the slot of its node if it has one, else in a free slot. -/
def State.startRamp (s : State) (c : RampCmd) : State :=
  let g := s.basin.now
  let r : RampSlot := ⟨c.node, s.mtxSample, s.gainBefore c.node, c.gain.toInt, c.len, false⟩
  let ramps := if g.ramps.any (fun q => q.node = c.node) then g.ramps.map (fun q => if q.node = c.node then r else q) else g.ramps ++ [r]
  let g := g.setWord g.bank c.node c.gain
  let fade := g.fade.map fun f => { f with out := c.node :: f.out }
  s.setGains { g with ramps := ramps, fade := fade }

/-- The commands at the head of the queue that start together: a single command, or a closed gang; with the rest of the queue. -/
def headGang (q : List RampCmd) : Option (List RampCmd × List RampCmd) :=
  match q.dropWhile (·.gang) with
  | [] => none
  | c :: rest => some (q.takeWhile (·.gang) ++ [c], rest)

/-- The head of the queue fits the free slots (06 R179). -/
def State.gangFits (s : State) : List RampCmd → Bool
  | [c] => decide (s.basin.now.ramps.length < 4096) || s.basin.now.ramps.any fun r => r.node = c.node
  | cs => decide (s.basin.now.ramps.length + cs.length ≤ 4096)

/-- The commands were pushed at least 1 µs ago (00 R15; 06 R179). -/
def State.inTime (s : State) (cs : List RampCmd) : Bool := cs.all fun c => decide (c.pushed + 250 ≤ s.now)

/-- Start what the queue holds in order, at most `fuel` gangs (06 R179): those pushed in time, and with `recent` later ones too (00 R15). -/
def State.startRamps (s : State) (recent : Bool) : Nat → State
  | 0 => s
  | fuel + 1 =>
    match headGang s.basin.queue with
    | none => s
    | some (cs, rest) =>
      if !recent && !s.inTime cs then s
      else if s.gangFits cs then
        let s := cs.foldl (fun s c => s.startRamp c) (s.setBasin { s.basin with queue := rest })
        s.startRamps recent fuel
      else s.raise R.MTX_INT_STATUS_slot_wait

/-- RAMP_START (06 R179): at a tick boundary of the basin's domain. `recent` says that commands pushed less than 1 µs before act at this boundary;
`reached` are nodes that a running copy has passed. [DEDUCED, log entry 76; DEDUCED, log entry 95] -/
def execRampStart (recent : Bool) (reached : List Nat) (s : State) : Res :=
  .next (if s.atBoundary s.mtxDomain then
    let s := (s.copyReaches reached).freeRamps
    (s.startRamps recent s.basin.queue.length).rqStatus else s)

/-- RAMP_END (06 R180). -/
def execRampEnd (s : State) : Res := .next (if s.atBoundary s.mtxDomain then s.freeRamps else s)

end Sys2Proof.Machine
end

