-- ==== Sys2Proof/Machine/Dmc.lean ====
section
/-!
DEFINITION. The LPDDR5 controller (16): its queues and scheduling, checks, the real-time port and its delay lines, refresh and retraining.
The contents of DRAM take effect when an access is made (R411 makes the queue invisible to a reader); the queue decides what is issued,
when panic and losses come about, and what a check finds.
-/
namespace Sys2Proof.Machine

def State.setDmc (s : State) (d : Dmc) : State := { s with dmc := d }

/-- An event of the DMC (16 R419) and its fault; source 18 (18 R463). -/
def State.dmcFault (s : State) (f : FieldAt) (level : Nat) : State := (s.raise f).report 18 f.lsb level

/-- Usable bytes of DRAM (16 R406, DMC_SIZE). -/
def State.dramSize (s : State) : Nat := s.wide R.DMC_SIZE_LO R.DMC_SIZE_HI

/-- The port is in panic (16 R413). -/
def State.panic (s : State) : Bool := s.is ⟨R.DMC_RT_STATUS, 0, 1⟩

/-! ## Queues (R408) -/

/-- Requests that wait enter the DMC while fewer than 64 entries of their kind are held. -/
def enter : List DramEntry → List DramEntry → List DramEntry × List DramEntry
  | q, [] => (q, [])
  | q, e :: t =>
    if (q.filter fun x => x.write == e.write).length < 64 then enter (q ++ [e]) t
    else let (q', w) := enter q t; (q', e :: w)

/-- Writes are drained from 48 entries until 16 are left (R410). -/
def Dmc.drains (d : Dmc) : Dmc :=
  let n := (d.queue.filter (·.write)).length
  { d with draining := if d.draining then decide (16 < n) else decide (48 ≤ n) }

/-- Every block offered has its entry: the next access of a bus master is taken, else it waits in its layer (R408; 17 R421). -/
def State.dmcRoom (s : State) : Bool := s.dmc.waiting.isEmpty

/-- Requests join those that wait, and enter as there is room; a write drops the rewrite of its block (R407). -/
def State.dmcEnqueue (s : State) (es : List DramEntry) : State :=
  let stale := fun (x : DramEntry) => x.rewrite && es.any fun e => e.write && !e.rewrite && e.block == x.block
  let (q, w) := enter (s.dmc.queue.filter fun x => !stale x) ((s.dmc.waiting.filter fun x => !stale x) ++ es)
  s.setDmc { s.dmc with queue := q, waiting := w }.drains

/-- The block requests of an access to DRAM bytes `[off, off + len)`. -/
def State.dmcAccess (s : State) (write : Bool) (off len : Nat) : State :=
  s.dmcEnqueue ((List.range (ceilDiv (off % 64 + len) 64)).map fun i => ⟨write, off / 64 + i, s.now, none, false⟩)

/-! ## Scheduling (R409, R410) -/

def Dmc.row (d : Dmc) (bank : Nat) : Option Nat := Tab.get (fun _ => none) d.rows bank
def Dmc.setRow (d : Dmc) (bank : Nat) (r : Option Nat) : Dmc := { d with rows := Tab.set (fun _ => none) d.rows bank r }

/-- A row closes once `idle` DMC cycles pass without a request to its bank (R409). -/
def Dmc.aged (d : Dmc) (now idle : Nat) : Dmc :=
  { d with rows := d.rows.filter fun e => decide ((now - Tab.get (fun _ => 0) d.used e.1) * 16 / 5 ≤ idle) }

/-- The request hits an open row. -/
def Dmc.hit (d : Dmc) (e : DramEntry) : Bool := d.row (Config.dramBank e.block) == some (Config.dramRow e.block)

/-- The candidates of R410: requests their bank can accept; reads preferred unless writes are drained. -/
def Dmc.candidates (d : Dmc) (busy : List Nat) : List DramEntry :=
  let ready := d.queue.filter fun e => !busy.contains (Config.dramBank e.block)
  let want := ready.filter fun e => e.write == d.draining
  if want = [] then ready else want

/-- The request R410 chooses among candidates in order of age: older than age_max, else a row hit, but after hit_max hits to one bank an
older miss to that bank, else the oldest. -/
def Dmc.choose (d : Dmc) (now ageMax hitMax : Nat) (cs : List DramEntry) : Option DramEntry :=
  match cs.find? fun e => decide (ageMax * 64 < (now - e.since) * 16 / 5) with
  | some e => some e
  | none =>
    match cs.find? d.hit with
    | some e =>
      let bank := Config.dramBank e.block
      if d.hits.1 = bank ∧ hitMax ≤ d.hits.2 then
        match cs.find? fun m => Config.dramBank m.block == bank && !d.hit m && decide (m.since ≤ e.since) with
        | some m => some m
        | none => some e
      else some e
    | none => cs.head?

/-- The order of R410, real-time requests first in panic. -/
def State.dmcPick (s : State) (busy : List Nat) : Option DramEntry :=
  let cs := s.dmc.candidates busy
  let rt := cs.filter fun e => e.rt.isSome
  let cs := if s.panic && !rt.isEmpty then rt else cs
  s.dmc.choose s.now (s.rd ⟨R.DMC_SCHED, 24, 8⟩) (max 1 (s.rd ⟨R.DMC_SCHED, 0, 4⟩)) cs

/-- The write buffer's fill in bytes (16 R413). -/
def State.rtFill (s : State) : Nat := ((s.dmc.queue ++ s.dmc.waiting).filter fun e => e.write && e.rt.isSome).length * 64

/-- The lead of a real-time read before its commit, in µs (R413, R419). -/
def State.rtLead (s : State) (l k : Nat) : Nat :=
  match Tab.get (fun _ => none) s.dmc.lines l with
  | some x => s.commitUs x.spec.domain k
  | none => 0

/-- The panic conditions of R413: an outstanding read due in less than rd_panic µs, or the write buffer filled to wr_panic sixteenths. -/
def State.panicWanted (s : State) : Bool :=
  let wr := max 1 (s.rd ⟨R.DMC_RT_CFG, 0, 4⟩)
  let due := (s.dmc.queue ++ s.dmc.waiting).any fun e => !e.write && e.rt.any fun r => decide (s.rtLead r.1 r.2 < max 1 (s.rd ⟨R.DMC_RT_CFG, 16, 8⟩))
  due || decide (wr * 131072 ≤ s.rtFill * 16)

/-! ## Delay lines (R412, R414) -/

def State.dline (s : State) (l : Nat) : Option DLine := Tab.get (fun _ => none) s.dmc.lines l
def State.setDline (s : State) (l : Nat) (x : Option DLine) : State :=
  s.setDmc { s.dmc with lines := Tab.set (fun _ => none) s.dmc.lines l x }

/-- The ring index of sample `n`. -/
def DLine.index (x : DLine) (n : Nat) : Nat := n % 2 ^ x.spec.r

/-- A lost barge of the port: rt_lost, counted, a level-2 fault (R414). -/
def State.rtLost (s : State) (l : Nat) (out : Bool) : State := s.overrun (.delayLine l) out

/-- A write barge is lost: recorded by line and tick of the write's samples, or, the table full, the line reads zero for a whole ring. -/
def State.rtLostWrite (s : State) (l first : Nat) : State :=
  let s := s.rtLost l true
  if s.dmc.lost.length < 64 then s.setDmc { s.dmc with lost := s.dmc.lost ++ [(l, first)] }
  else match s.dline l with
    | some x => s.setDline l (some { x with zeroUntil := first + (s.dom x.spec.domain).b + 2 ^ x.spec.r })
    | none => s

/-- The blocks of a ring that a barge of `n` samples from emit position `first` is written to. -/
def DLine.blocks (x : DLine) (l first n : Nat) : List Nat := ((List.range n).map fun j => Config.ringBlock l (x.index (first + j))).eraseDups

/-- The write buffer has room for blocks (R413). -/
def State.rtRoom (s : State) (blocks : List Nat) : Bool := decide (s.rtFill + blocks.length * 64 ≤ 131072)

/-- The write end takes the barge whose first emit position is `first` (R412; 02 R71), while the write buffer has room. [DEDUCED, log entry 11] -/
def State.dlineWrite (s : State) (l first : Nat) (words : List Sample) : State :=
  match s.dline l with
  | none => s
  | some x =>
    let idx := (List.range words.length).map fun j => x.index (first + j)
    let blocks := x.blocks l first words.length
    if !s.rtRoom blocks then s.rtLostWrite l first
    else
      let ring := (idx.zip words).foldl (fun t e => Tab.set (fun _ => 0) t e.1 e.2) x.ring
      (s.setDline l (some { x with ring := ring })).dmcEnqueue (blocks.map fun b => ⟨true, b, s.now, some (l, first), false⟩)

/-- The sample the read end presents at capture position `c`: the one written at c − B − D (02 R71), zero where its tick was lost. -/
def State.dlineSample (s : State) (x : DLine) (c : Nat) : Sample :=
  let b := (s.dom x.spec.domain).b
  if c < b + x.spec.d then 0
  else
    let n := c - b - x.spec.d
    if n < x.zeroUntil ∨ (s.dmc.lost.any fun e => e.1 = x.spec.line && decide (e.2 ≤ n) && decide (n < e.2 + b)) then 0
    else Tab.get (fun _ => 0) x.ring (x.index n)

/-- The port queues the reads of the barge of tick `k` (R412, R413). -/
def State.dlineFetch (s : State) (l k : Nat) : State :=
  match s.dline l with
  | none => s
  | some x =>
    let b := (s.dom x.spec.domain).b
    let idx := (List.range b).filterMap fun j => if k * b + j < b + x.spec.d then none else some (x.index (k * b + j - b - x.spec.d))
    s.dmcEnqueue ((idx.map fun i => Config.ringBlock l i).eraseDups.map fun blk => ⟨false, blk, s.now, some (l, k), false⟩)

/-- The read barge of tick `k` is complete: none of its reads is outstanding (R414). -/
def State.dlineReady (s : State) (l k : Nat) : Bool :=
  !(s.dmc.queue ++ s.dmc.waiting).any (fun e => !e.write && e.rt == some (l, k)) && !s.dmc.incomplete.contains (l, k)

/-- The read end at its commit of tick `k` (R412, R414): the words of the barge, or none where it is incomplete; lost ticks that came due
free their entries. -/
def State.dlineRead (s : State) (l k : Nat) : Option (List Sample) × State :=
  match s.dline l with
  | none => (none, s)
  | some x =>
    let b := (s.dom x.spec.domain).b
    let words := (List.range b).map fun j => s.dlineSample x (k * b + j)
    let ready := s.dlineReady l k
    let dmc := { s.dmc with
      lost := s.dmc.lost.filter fun e => !(e.1 = l && decide (e.2 + b + x.spec.d ≤ k * b))
      incomplete := s.dmc.incomplete.filter fun e => e ≠ (l, k) }
    if ready then (some words, s.setDmc dmc) else (none, (s.setDmc dmc).rtLost l false)

/-! ## Commands -/

/-- The samples of a ring that a block holds read as zero (R407). -/
def State.zeroRing (s : State) (l block : Nat) : State :=
  match s.dline l with
  | some x => s.setDline l (some { x with ring := x.ring.filter fun e => Config.ringBlock l e.1 != block })
  | none => s

/-- What the check of a block read finds (R407): 0 nothing, 1 a correctable, 2 an uncorrectable error. [DEDUCED, log entry 20] -/
def State.dramFound (s : State) (e : DramEntry) (found : Nat) : State :=
  if found = 1 then
    let s := (s.bump (lowHalf R.DMC_ECC_COUNT)).dmcFault R.DMC_INT_STATUS_ecc_corr 0
    s.dmcEnqueue [⟨true, e.block, s.now, none, true⟩]
  else if found = 2 then
    let s := s.setWide R.DMC_ECC_ADDR_LO R.DMC_ECC_ADDR_HI (2 ^ 32 + e.block * 64)
    let s := (s.bump (highHalf R.DMC_ECC_COUNT)).dmcFault R.DMC_INT_STATUS_ecc_uncorr 2
    match e.rt with
    | some (l, _) => s.zeroRing l e.block
    | none => { s.setDmc { s.dmc with bad := if s.dmc.bad.contains e.block then s.dmc.bad else s.dmc.bad ++ [e.block] } with
        reply := ⟨[0], .dataError⟩ }
  else s

/-- DRAM_REQUEST (16 R407, R409, R410): the DMC issues one request. The banks that cannot accept one, and what the check of a read finds, come
with the row. [DEDUCED, log entry 11; DESIGN CHOICE, log entry 86] -/
def execDramRequest (busy : List Nat) (found : Fin 3) (s : State) : Res :=
  .next (if s.rd R.DMC_STATUS_state ≠ 2 then s else
    let s := s.setDmc (s.dmc.aged s.now (s.rd ⟨R.DMC_SCHED, 8, 8⟩))
    match s.dmcPick busy with
    | none => s
    | some e =>
      let bank := Config.dramBank e.block
      let hits := if s.dmc.hit e then (bank, if s.dmc.hits.1 = bank then s.dmc.hits.2 + 1 else 1) else (bank, 0)
      let (q, w) := enter (s.dmc.queue.erase e) s.dmc.waiting
      let d := { s.dmc.setRow bank (some (Config.dramRow e.block)) with
        queue := q, waiting := w, hits := hits, used := Tab.set (fun _ => 0) s.dmc.used bank s.now }
      let s := s.setDmc d.drains
      let s := if e.write then s else s.dramFound e found
      let s := match e.write, e.rt with
        | false, some (l, k) => s.least ⟨R.DMC_RT_LEAD_MIN, 0, 16⟩ (s.rtLead l k)
        | _, _ => s
      if s.panic && !s.panicWanted then s.wr ⟨R.DMC_RT_STATUS, 0, 1⟩ 0 else s)

/-- RT_PANIC_ENTRY (16 R413). -/
def execRtPanicEntry (s : State) : Res :=
  .next (if s.panicWanted ∧ !s.panic then
      ((s.wr ⟨R.DMC_RT_STATUS, 0, 1⟩ 1).raise R.DMC_INT_STATUS_rt_panic).bump (lowHalf R.DMC_COUNT)
    else s)

/-- RT_BARGE_LOST (16 R414): the read barge of a tick is incomplete at its commit, or the write barge due at the egress deadline finds no
room. -/
def execRtBargeLost (line tick : Nat) (write : Bool) (s : State) : Res :=
  .next (match s.dline line with
    | none => s
    | some x =>
      if !write then if s.dlineReady line tick then s else s.setDmc { s.dmc with incomplete := if s.dmc.incomplete.contains (line, tick) then s.dmc.incomplete
          else s.dmc.incomplete ++ [(line, tick)] }
      else match s.locksWhere (fun k => k.spec.consumer = .delayLine line) with
        | l :: _ =>
          match s.lock l with
          | some k =>
            let b := (s.dom k.spec.domain).b
            let first := (tick + k.spec.hops) * b
            if (s.awaits l tick).isSome ∧ !s.rtRoom (x.blocks line first b) then (s.consume l tick).rtLostWrite line first else s
          | none => s
        | [] => s)

/-! ## Refresh (R415, R416) -/

def State.debt (s : State) (bank : Nat) : Int := Tab.get (fun _ => 0) s.dmc.debt bank
def State.setDebt (s : State) (bank : Nat) (v : Int) : State := s.setDmc { s.dmc with debt := Tab.set (fun _ => 0) s.dmc.debt bank v }
/-- post_max, values above 8 acting as 8 (R419). -/
def State.postMax (s : State) : Nat := min 8 (s.rd ⟨R.DMC_REF, 16, 4⟩)
def State.allBank (s : State) : Bool := s.is ⟨R.DMC_REF, 0, 1⟩

/-- The status field of the most refreshes outstanding in any bank. -/
def State.noteDebt (s : State) : State :=
  s.wr ⟨R.DMC_REF_STATUS, 0, 4⟩ (s.dmc.debt.foldl (fun m e => max m e.2.toNat) 0)

/-- A refresh of a bank, or of all banks: it closes their rows (R409). -/
def State.issueRefresh (s : State) (bank : Nat) : State :=
  let s := s.setDebt bank (s.debt bank - 1)
  s.setDmc (if s.allBank then { s.dmc with rows := [] } else s.dmc.setRow bank none)

/-- DRAM_REFRESH (16 R416): with `due` a refresh of the bank falls due; without, the DMC may issue one outstanding or ahead of time. -/
def execDramRefresh (bank : Nat) (due : Bool) (s : State) : Res :=
  .next (if s.rd R.DMC_STATUS_state ≠ 2 then s else
    let bank := if s.allBank then 0 else bank
    let s := if due then s.setDebt bank (s.debt bank + 1) else s
    let d := s.debt bank
    let busy := s.panic || s.dmc.queue.any fun e => (s.allBank || Config.dramBank e.block == bank) && s.dmc.hit e
    let s :=
      if (s.postMax : Int) < d then (s.issueRefresh bank).raise R.DMC_INT_STATUS_ref_limit
      else if 0 < d ∧ !busy then s.issueRefresh bank
      else if d ≤ 0 ∧ !due ∧ s.dmc.queue = [] ∧ -8 < d then s.issueRefresh bank
      else s
    s.noteDebt)

/-- MR4_READ (16 R415). [DEDUCED, log entry 87] -/
def execMr4Read (code : Byte) (hot : Bool) (s : State) : Res :=
  .next (let s := s.wr ⟨R.DMC_REF_STATUS, 8, 8⟩ code.toNat
    let s := s.wr R.DMC_STATUS_temp_hi (b2n hot)
    if hot then s.dmcFault R.DMC_INT_STATUS_temp_hi 2 else s.endCause 18 5)

/-! ## Retraining (R418) -/

def retrainAwait : FieldAt := ⟨R.DMC_RETRAIN_STATUS, 0, 4⟩
def retrainLeave : FieldAt := ⟨R.DMC_RETRAIN_STATUS, 8, 1⟩

/-- Retraining is in progress: lanes await a slice. -/
def State.retraining (s : State) : Bool := s.rd retrainAwait ≠ 0

/-- Retrain the lanes of `mask`: ask the weir for leave. -/
def State.beginRetrain (s : State) (mask : Nat) : State :=
  if s.retraining || mask == 0 then s else (s.wr retrainAwait mask).weirRequest 8 (s.weirCost 8)

/-- DRIFT_MEASUREMENT (16 R418): the drift of the four byte lanes, in signed ps. -/
def execDriftMeasurement (drift : Word) (s : State) : Res :=
  .next (let s := s.setReg R.DMC_DRIFT drift
    let thr : Int := (max 1 (s.rd ⟨R.DMC_RETRAIN, 0, 8⟩) : Nat)
    let mask := (List.range 4).foldl (fun m k =>
      let d := toSigned 8 (getBits drift (8 * k) 8)
      if thr < max d (-d) then m + 2 ^ k else m) 0
    if mask = 0 then s else (s.raise R.DMC_INT_STATUS_drift).beginRetrain mask)

/-- RETRAIN_START (16 R418). -/
def execRetrainStart (s : State) : Res := .next (s.beginRetrain 0xF)

/-- The weir grants leave for retraining. -/
def State.retrainLeaveGranted (s : State) : State := if s.retraining then s.wr retrainLeave 1 else s.weirReturn 8

/-- RETRAIN_SLICE (16 R409, R418): only out of panic, with no refresh at its limit, and 250 µs after the last; it closes the rows of the channel.
A slice ends with its row. [DEDUCED, log entry 87] -/
def execRetrainSlice (lane : Fin 4) (narrow : Bool) (s : State) : Res :=
  .next (if s.is retrainLeave ∧ s.is ⟨R.DMC_RETRAIN_STATUS, lane, 1⟩ ∧ !s.panic
      ∧ s.dmc.debt.all (fun e => decide (e.2 < (s.postMax : Int) ∨ e.2 ≤ 0)) ∧ s.dmc.sliceAt.all (fun t => decide (t + 62500 ≤ s.now)) then
      let s := s.wr ⟨R.DMC_RETRAIN_STATUS, lane, 1⟩ 0
      let s := s.setDmc { s.dmc with rows := s.dmc.rows.filter (fun e => Config.dramChannel e.1 != lane.val / 2), sliceAt := some s.now }
      if narrow then s.dmcFault R.DMC_INT_STATUS_retrain_fail 1 else s
    else s)

/-- RETRAIN_DONE (16 R418). -/
def execRetrainDone (s : State) : Res :=
  .next (if s.is retrainLeave ∧ !s.retraining then ((s.wr retrainLeave 0).weirReturn 8).raise R.DMC_INT_STATUS_retrain_done else s)

end Sys2Proof.Machine
end

