-- ==== Sys2Proof/Machine/EngineCore.lean ====
section
/-!
DEFINITION. The memory window of an engine, the cycle of its instructions, segments, gate and park (04 R109 to R125; 05 R153 to R162). The
instruction rows of
Machine/EngineIsa.lean and the segment rows of Machine/EngineSeg.lean are built from these.
-/
namespace Sys2Proof.Machine

def State.eng (s : State) (n : Nat) : Engine := Tab.get (fun _ => {}) s.engines n
def State.setEng (s : State) (n : Nat) (e : Engine) : State := { s with engines := Tab.set (fun _ => {}) s.engines n e }

/-- ENGn_STATUS.state: 0 stopped, 1 relocking, 2 at gate, 3 running, 4 held (04 R135). -/
def State.engState (s : State) (n : Nat) : Nat := s.rd (R.ENGn_STATUS_state n)
def State.setEngState (s : State) (n k : Nat) : State := s.wr (R.ENGn_STATUS_state n) k
def State.engDomain (s : State) (n : Nat) : Nat := s.rd (R.ENGn_STATUS_domain n)

/-- The fault of an engine event: source 32 + n, the bit number as code (19 R481; 18 R463). -/
def State.engFault (s : State) (n code level : Nat) : State :=
  (s.raise (bitAt (R.ENGn_INT_STATUS n) code)).report (32 + n) code level

/-- What an ECC result on a word of an engine's memories reports (04 R126); an uncorrectable one marks the tick as failed (R133). -/
def State.engEcc (s : State) (n : Nat) : Ecc → State
  | .clean => s
  | .corrected => (s.bump (lowHalf (R.ENGn_ECC_COUNT n))).engFault n 7 0
  | .uncorrectable =>
    let s := s.setEng n { s.eng n with faulty := true }
    (s.bump (highHalf (R.ENGn_ECC_COUNT n))).engFault n 8 2

/-- The current parameter page of an engine. -/
def State.paramPage (s : State) (n : Nat) : Nat := s.rd (R.ENGn_PARAM_cur n)

/-! ## The memory window (04 R109 to R111, R115) -/

/-- The base of an engine's memory window (04 R109). -/
def engineWindow (n : Nat) : Nat := 0x10000000 + n * 0x40000

/-- Window words: the two words of instruction `i` of page `g`, then X, then Y. -/
def State.progWord (s : State) (n i : Nat) : BitVec 48 := Tab.get (fun _ => 0) (s.eng n).prog i
def State.setProgWord (s : State) (n i : Nat) (w : BitVec 48) : State :=
  s.setEng n { s.eng n with prog := Tab.set (fun _ => 0) (s.eng n).prog i w }

/-- A data word as the window shows it: sign-extended to 32 bits. -/
def windowData (v : Sample) : Word := v.signExtend 32

/-- X word `i` as an external access reaches it: the parameter areas reach the inactive page, and the lower area reads as 0 (04 R115). -/
def State.extX (s : State) (n i : Nat) : Sample :=
  let e := s.eng n
  if e.paramOn && decide (0x3E00 ≤ i) then
    if i < 0x3F00 then 0 else Tab.get (fun _ => 0) e.param (256 * (1 - s.paramPage n) + (i - 0x3F00))
  else Tab.get (fun _ => 0) e.x i

/-- Read the word at offset `o` of the window of engine `n`; a program word is a two-word value (00 R17; 04 R109). -/
def State.windowRead (s : State) (n o : Nat) : Word × State :=
  if o < 0x20000 then
    let a := engineWindow n + o
    let w := s.progWord n (o / 8)
    if o % 8 < 4 then (w.setWidth 32, s.setSnap (a + 4) (some ((w >>> 32).setWidth 32)))
    else ((s.snap a).getD ((w >>> 32).setWidth 32), s)
  else if o < 0x30000 then (windowData (s.extX n ((o - 0x20000) / 4)), s)
  else (windowData (Tab.get (fun _ => 0) (s.eng n).y ((o - 0x30000) / 4)), s)

/-- Write a word at offset `o` of the window of engine `n`, no rule against it: a program word takes effect with its upper half. -/
def State.windowPut (s : State) (n o : Nat) (v : Word) : State :=
  if o < 0x20000 then
    let a := engineWindow n + o
    if o % 8 < 4 then s.setHeldLow a (some v)
    else
      let old := s.progWord n (o / 8)
      let low := (s.heldLow (a - 4)).getD (old.setWidth 32)
      (s.setProgWord n (o / 8) ((v.setWidth 16) ++ low)).setHeldLow (a - 4) none
  else if o < 0x30000 then
    let i := (o - 0x20000) / 4
    let e := (s.eng n).poke (1 - s.paramPage n) .x i (v.setWidth 24)
    s.setEng n (if e.paramOn && decide (0x3F00 ≤ i) && s.is (R.ENGn_PARAM_copy_busy n)
      then { e with paramTouched := (i - 0x3F00) :: e.paramTouched } else e)
  else s.setEng n ((s.eng n).poke 0 .y ((o - 0x30000) / 4) (v.setWidth 24))

/-- An external write through the window (04 R111): the current program page refuses it unless the engine is stopped or held; the idle page
drops it, with page_lost, while overlay staging writes there. -/
def State.windowWrite (s : State) (m n o : Nat) (v : Word) : State :=
  let page := o / 0x10000
  if o < 0x20000 ∧ page = s.rd (R.ENGn_PAGE_cur n) ∧ s.engState n ≠ 0 ∧ s.engState n ≠ 4 then
    s.defaultTarget m (engineWindow n + o) 3 true causeRefused
  else if o < 0x20000 ∧ page ≠ s.rd (R.ENGn_PAGE_cur n) ∧ (s.eng n).stagingPage = true then
    (s.raise (R.ENGn_INT_STATUS_page_lost n)).answer []
  else (s.windowPut n o v).answer []

/-- Write words from offset `o` for master `m`; a refused burst ends with its first word. [DEDUCED, log entry 19] -/
def State.emPut (s : State) (m n o : Nat) : List Word → State
  | [] => s
  | v :: t =>
    let s := s.windowWrite m n o v
    if s.reply.response = .okay then s.emPut m n (o + 4) t else s

/-- An access to the window of engine `n` is served (04 R110, R111, R126): an uncorrectable word is left as it is, and the read returns it with
the error, as R126 states (R425 of 17 says 0 of errors in general). [DESIGN CHOICE, log entry 96] -/
def State.serveWindow (s : State) (w : WindowWait) : State :=
  match w.write with
  | some vs => s.emPut w.master w.engine w.offset vs
  | none =>
    let s := s.engEcc w.engine w.ecc
    let (v, s) := s.windowRead w.engine w.offset
    let s := if w.ecc = .uncorrectable then s.dataError [v] else s.answer [v]
    if w.inbound then s.emit (.completion (leBytes 4 v.toNat) (w.ecc == .uncorrectable)) else s

/-- The rank of a requester at an engine window (04 R110). -/
def windowRank : WindowUser → Nat
  | .substitution => 1 | .foregroundDma => 2 | .towpath => 3 | .otherDma => 4 | .dredger => 5

/-- An access waits for a free cycle of its engine (01 R41); a class of requester holds one access for each engine, and offers the next when that
one has been served (R24). [DESIGN CHOICE, log entry 96] -/
def State.windowWaits (s : State) (w : WindowWait) : State :=
  if s.waits.any fun v => v.engine = w.engine ∧ v.user = w.user then s else { s with waits := s.waits ++ [w] }

/-- The engine runs no segment: the accesses that wait for it are served in the order of R110 (04). [DESIGN CHOICE, log entry 96] -/
def State.serveWaits (s : State) (n : Nat) : State :=
  if s.engState n = 3 then s
  else
    let mine := s.waits.filter fun w => w.engine = n
    let s := { s with waits := s.waits.filter fun w => w.engine ≠ n }
    [1, 2, 3, 4, 5].foldl (fun s k => (mine.filter fun w => windowRank w.user = k).foldl (fun s w => s.serveWindow w) s) s

/-! ## The instruction cycle -/

/-- The loop test at the end of an instruction at address `at_` (05 R156): the levels that end there, innermost first. The result is the
new stack, lc and the address control goes to, with the loop-back's extra cycle and whether the loop cache becomes valid (R157). -/
def loopTest (at_ : BitVec 13) (cache : Option (BitVec 13 × BitVec 13)) (valid : Bool) :
    List LoopLevel → BitVec 16 → List LoopLevel × BitVec 16 × BitVec 13 × Nat × Bool
  | [], lc => ([], lc, at_ + 1, 0, valid)
  | lv :: t, lc =>
    if lv.stop = at_ then
      if 1 < lc.toNat then
        let cached := decide (cache = some (lv.start, lv.stop))
        let cost := if cached && valid && lv.looped then 0 else 1
        ({ lv with looped := true } :: t, lc - 1, lv.start, cost, valid || cached)
      else loopTest at_ cache valid t lv.savedLc
    else (lv :: t, lc, at_ + 1, 0, valid)

/-- The flags of a class-0 instruction (05 R163): z, n, gu and c of lane 0 when it operates, else of lane 1; v of either. -/
def InFlight.flags (c : InFlight) : Option LaneFlags :=
  match c.lane0, c.lane1 with
  | some f, some g => some { f with v := f.v || g.v }
  | some f, none => some f
  | none, some g => some g
  | none, none => none

/-- The instruction ends after `k` cycles: results issued earlier that are due are written, then its own of latency 1; the flags form
and control goes to `next`, or where the loop test sends it when the instruction transfers no control (05 R156, R161, R162). The test of an
instruction that writes lc sees the written value. [DEDUCED, log entry 97] -/
def Engine.finish (e : Engine) (k : Nat) (transfer : Option (BitVec 13)) : Engine :=
  let c := e.cur
  let e := e.mature k
  let e := e.putAll (c.results.filter fun r => r.wait ≤ 1)
  let e := { e with delayed := e.delayed ++ (c.results.filter (fun (r : Result) => 1 < r.wait)).map (fun (r : Result) => { r with wait := r.wait - 1 }) }
  let e := match c.flags with | some f => { e with sr := srWith e.sr f } | none => e
  let e := if c.sat then { e with sr := srSat e.sr } else e
  let e := if c.error then { e with sr := srOver e.sr } else e
  let (stack, lc, next, extra, valid) := match transfer with
    | some t => (e.stack, e.lc, t, 0, e.cacheValid)
    | none => loopTest e.pc e.cache e.cacheValid e.stack e.lc
  let e := { e with stack := stack, lc := lc, pc := next, cacheValid := valid, cur := {}, cycles := e.cycles + k + extra }
  let e := e.ageStores (k + extra)
  if extra = 0 then e else e.mature extra

/-- Add a result to the instruction in progress. -/
def Engine.result (e : Engine) (slot wait : Nat) (r : EngReg) (v : Acc) : Engine :=
  { e with cur := { e.cur with results := e.cur.results ++ [⟨slot, wait, r, v⟩] } }

/-- The flags of a lane of the instruction in progress. -/
def Engine.laneFlags (e : Engine) (lane : Nat) (f : LaneFlags) : Engine :=
  { e with cur := if lane = 0 then { e.cur with lane0 := some f } else { e.cur with lane1 := some f } }

/-- A transfer of the instruction in progress saturated (05 R138). -/
def Engine.saturated (e : Engine) (b : Bool) : Engine := if b then { e with cur := { e.cur with sat := true } } else e

/-- End the instruction if this was its last operation. -/
def Engine.endIf (e : Engine) (last : Bool) : Engine := if last then e.finish 1 none else e

/-- The engine is running a segment, so it issues instructions. -/
def State.engRuns (s : State) (n : Nat) : Bool := s.engState n == 3 && !s.halted

/-- Apply an operation of the running segment of engine `n`; an engine that runs none issues nothing (log entry 3). [DESIGN CHOICE, log entry 3] -/
def State.issue (s : State) (n : Nat) (f : Engine → Engine) : State :=
  if s.engRuns n then s.setEng n (f (s.eng n)) else s

/-! ## Segments -/

/-- The lock of an inlet, `none` for an unbound inlet or one bound to the tick source (04 R117, R121). -/
def Engine.inletLock (e : Engine) (i : Nat) : Option Nat := (e.inlets[i]?).bind id

/-- The locks of the bound inlets. -/
def Engine.inletLocks (e : Engine) : List Nat := e.inlets.filterMap id

/-- The awaited barge of every bound inlet is present (01 R25); the tick source delivers its barge at the boundary (04 R121). -/
def State.inletsPresent (s : State) (e : Engine) : Bool :=
  e.inletLocks.all fun l => (s.awaits l e.tick).isSome

/-- Every outlet holds a credit (01 R25). -/
def State.outletsReady (s : State) (e : Engine) : Bool := e.outlets.all fun l => s.hasCredit l

/-- The segment begins at address 0 of the current page (05 R153), with the absent inlets and the outlets without credit it starts with
(04 R122). -/
def Engine.begin (e : Engine) (absent dropped : List Nat) (late : Bool) : Engine :=
  { e with pc := 0, read := [], absent := absent, dropped := dropped, sent := [], complete := [], committed := [], cycles := 0,
           lastCommit := 0, cur := {}, late := late, faulty := e.faulty || late || !absent.isEmpty || !dropped.isEmpty }

/-- The idle program page becomes current (04 R125). -/
def State.pageTurns (s : State) (n : Nat) : State :=
  let page := 1 - s.rd (R.ENGn_PAGE_cur n)
  ((s.wr (R.ENGn_PAGE_cur n) page).wr (R.ENGn_STATUS_page n) page).wr (R.ENGn_PAGE_pending n) 0

/-- The inactive parameter page becomes current and the copy of R116 starts (04). -/
def State.paramTurns (s : State) (n : Nat) : State :=
  ((s.wr (R.ENGn_PARAM_cur n) (1 - s.rd (R.ENGn_PARAM_cur n))).wr (R.ENGn_PARAM_pending n) 0).wr (R.ENGn_PARAM_copy_busy n) 1

/-- A program page swap that is due acts at the gate (04 R125): the idle page becomes current. One requested for a later boundary stays
pending. [DEDUCED, log entry 98] -/
def State.swapAtGate (s : State) (n : Nat) : State :=
  let e := s.eng n
  let later := e.swapAt.filter fun t => decide (e.tick + 1 < t)
  if later.length = e.swapAt.length then s
  else ((s.setEng n { e with swapAt := later }).pageTurns n).wr (R.ENGn_PAGE_pending n) (b2n !later.isEmpty)

/-- A parameter page swap that is due acts at the gate, unless the copy of an earlier one still runs (04 R116). One requested for a later
boundary stays pending. [DEDUCED, log entry 98] -/
def State.paramSwapAtGate (s : State) (n : Nat) : State :=
  let e := s.eng n
  let later := e.paramSwapAt.filter fun t => decide (e.tick + 1 < t)
  if later.length = e.paramSwapAt.length ∨ s.is (R.ENGn_PARAM_copy_busy n) then s
  else ((s.setEng n { e with paramSwapAt := later }).paramTurns n).wr (R.ENGn_PARAM_pending n) (b2n !later.isEmpty)

/-! ## Substitution units: which engines they join (04 R129, R130) -/

def State.sub (s : State) (u : Nat) : Subst := Tab.get (fun _ => {}) s.substs u
def State.setSub (s : State) (u : Nat) (x : Subst) : State := { s with substs := Tab.set (fun _ => {}) s.substs u x }

/-- A field of ENG_SUBx: unit `u` of the field of ENG_SUB0. -/
def subF (u : Nat) (f : FieldAt) : FieldAt := ⟨f.addr + 16 * u, f.lsb, f.width⟩

/-- The state of a substitution unit, 0 to 7 (04, substitution states). -/
def State.subState (s : State) (u : Nat) : Nat := s.rd (subF u R.ENG_SUB0_STATUS_state)
def State.setSubState (s : State) (u k : Nat) : State := s.wr (subF u R.ENG_SUB0_STATUS_state) k
def State.subTarget (s : State) (u : Nat) : Nat := s.rd (subF u R.ENG_SUB0_STATUS_target)

/-- The engine that carries the work of engine `n`: its reserve in state 6 (04 R132). In state 7, of which the rule does not speak, a take goes
to the target alone. [DESIGN CHOICE, log entry 103] -/
def State.carrier (s : State) (n : Nat) : Nat :=
  match (List.range 2).find? fun u => s.subState u = 6 ∧ s.subTarget u = n with
  | some u => 32 + u
  | none => n

/-- An event of a substitution unit. -/
def State.subEvent (s : State) (u k : Nat) : State := s.raise (bitAt R.ENG_SUB_INT_STATUS (8 * u + k))

/-- The engine that carries the work, and the engine being prepared to carry it: exchanged in state 7. -/
def State.working (s : State) (u : Nat) : Nat := if s.subState u = 7 then 32 + u else s.subTarget u
def State.prepared (s : State) (u : Nat) : Nat := if s.subState u = 7 then s.subTarget u else 32 + u

/-- Both engines run: states 4 and 5, and the same stages of state 7. -/
def State.bothRun (s : State) (u : Nat) : Bool :=
  let k := s.subState u
  k == 4 || k == 5 || (k == 7 && (4 ≤ (s.sub u).stage : Bool))

/-- The units for which engine `n` is being prepared with both engines running: its outlet barges are never committed. -/
def State.isPrepared (s : State) (n : Nat) : Bool := (List.range 2).any fun u => s.bothRun u && s.prepared u == n

/-- The method in effect: 1 copy, 2 warm; state 7 copies. -/
def State.subMethod (s : State) (u : Nat) : Nat := if s.subState u = 7 then 1 else (s.sub u).method

/-- The count of compared or counted segments; a difference sets mismatch and restarts it (04 R130, R562). -/
def State.subDiffers (s : State) (u : Nat) : State :=
  ((s.wr (subF u R.ENG_SUB0_STATUS_mismatch) 1).subEvent u 3).wr (subF u R.ENG_SUB0_STATUS_count) 0
def State.subCounts (s : State) (u : Nat) : State := s.bump (subF u R.ENG_SUB0_STATUS_count)

/-- The first segment end of tick `t`, and the list without it. -/
def takeEnd (t : Nat) (l : List SegEnd) : Option SegEnd × List SegEnd := (l.find? (·.tick = t), l.eraseP (·.tick = t))

/-- Judge the ends of one tick's segments under the copy method (04 R562): compared only when neither engine started late, skipped the
tick or had an outlet without credit. -/
def State.judgeCopy (s : State) (u : Nat) (a b : SegEnd) : State :=
  if a.late || b.late || a.dropped || b.dropped || a.words != b.words then s.subDiffers u else s.subCounts u

/-- A segment of engine `n` ended or was skipped: the substitution unit that joins the engine judges it (04 R562). -/
def State.subSegment (s : State) (n : Nat) (e : SegEnd) : State :=
  (List.range 2).foldl (fun s u =>
    if !s.bothRun u then s
    else if s.subMethod u = 2 then
      if s.prepared u = n then
        if e.late || e.absent || e.dropped then s.wr (subF u R.ENG_SUB0_STATUS_count) 0 else s.subCounts u
      else s
    else if s.working u = n then
      match takeEnd e.tick (s.sub u).prepEnds with
      | (some b, rest) => (s.setSub u { s.sub u with prepEnds := rest }).judgeCopy u e b
      | (none, _) => s.setSub u { s.sub u with workEnds := (s.sub u).workEnds ++ [e] }
    else if s.prepared u = n then
      match takeEnd e.tick (s.sub u).workEnds with
      | (some a, rest) => (s.setSub u { s.sub u with workEnds := rest }).judgeCopy u a e
      | (none, _) => s.setSub u { s.sub u with prepEnds := (s.sub u).prepEnds ++ [e] }
    else s) s

/-! ## Start, outlets and park -/

/-- The inlets whose awaited barge is absent, and the outlets without credit (04 R122). -/
def State.absentInlets (s : State) (e : Engine) : List Nat :=
  (List.range 16).filter fun i => match e.inletLock i with | some l => (s.awaits l e.tick).isNone | none => false
def State.creditless (s : State) (e : Engine) : List Nat :=
  (List.range 16).filter fun i => match e.outlets[i]? with | some l => !s.hasCredit l | none => false

/-- Start the segment of the awaited tick with what is present: absent inlets read as zeros and sends to outlets without credit are
discarded, each an overrun (04 R122); a late start is reported (04 R123). An engine being prepared needs no credit (04 R130). -/
def State.startSegment (s : State) (n : Nat) (late : Bool) : State :=
  let s := (s.swapAtGate n).paramSwapAtGate n
  let e := s.eng n
  let absent := s.absentInlets e
  let dropped := if s.isPrepared n then [] else s.creditless e
  let s := (s.setEng n (e.begin absent dropped late)).setEngState n 3
  let s := absent.foldl (fun s _ => s.overrun (.engine n) false) s
  let s := dropped.foldl (fun s _ => s.overrun (.engine n) true) s
  if late then s.engFault n 2 2 else s

/-- An inlet's barge of tick `t` is no longer awaited: a present one is discarded and its credit returned, an absent one will be when
it arrives (01 R34; 04 R118, R123). [DEDUCED, log entry 90] -/
def State.giveUp (s : State) (l t : Nat) : State :=
  match s.lock l with
  | some k => if (s.awaits l t).isSome then s.consume l t else s.setLock l { k with missed := k.missed ++ [t] }
  | none => s

/-- Give up the awaited barges of all inlets of an engine. -/
def State.giveUpInlets (s : State) (e : Engine) : State := e.inletLocks.foldl (fun s l => s.giveUp l e.tick) s

/-- Discard barges older than the awaited tick, returning their credits (04 R118). -/
def State.dropOlder (s : State) (e : Engine) : State :=
  e.inletLocks.foldl (fun s l => match s.lock l with
    | some k =>
      let old := k.present.filter fun b => 128 ≤ tagDistance b.tick e.tick
      s.setLock l { k with present := k.present.filter (fun b => !(128 ≤ tagDistance b.tick e.tick : Bool)),
                           credit := min k.spec.depth (k.credit + old.length) }
    | none => s) s

/-- The words outlet `i`'s barge needs; 0 for an unbound outlet. -/
def State.outletSize (s : State) (e : Engine) (i : Nat) : Nat :=
  match e.outlets[i]? with
  | some l => match s.lock l with | some k => s.bargeWords k | none => 0
  | none => 0

/-- The words sent to outlet `i`. -/
def Engine.sentWords (e : Engine) (i : Nat) : List Sample := Tab.get (fun _ => []) e.sent i

/-- Commit the barge of outlet `i` with its words, unless it is committed or had no credit (04 R120, R122). An engine being prepared
commits none (04 R130). -/
def State.commitOutlet (s : State) (n i : Nat) : State :=
  let e := s.eng n
  match e.outlets[i]? with
  | none => s
  | some l =>
    if e.committed.contains i || e.dropped.contains i then s
    else
      let s := if s.isPrepared n then s else s.commit l ⟨e.tick, e.sentWords i⟩
      s.setEng n { e with committed := e.committed ++ [i], lastCommit := e.cycles }

/-- Some outlet with credit is not complete at the park. -/
def State.isShort (s : State) (e : Engine) : Bool :=
  (List.range e.outlets.length).any fun i => !e.dropped.contains i && decide ((e.sentWords i).length < s.outletSize e i)

/-- Fill every outlet with zero words to its size (04 R120). -/
def State.fillOutlets (s : State) (e : Engine) : Engine :=
  (List.range e.outlets.length).foldl (fun e i =>
    let w := e.sentWords i
    { e with sent := Tab.set (fun _ => []) e.sent i (w ++ List.replicate (s.outletSize e i - w.length) 0) }) e

/-- The sticky flags at park become events (04 R112). -/
def State.parkFlags (s : State) (n : Nat) (sr : BitVec 16) : State :=
  let s := if sr.getLsbD 5 then s.raise (R.ENGn_INT_STATUS_sat n) else s
  if sr.getLsbD 6 then s.raise (R.ENGn_INT_STATUS_ovf n) else s

/-- Consecutive ticks with ovr_in, ovr_out, late or ecc_uncorr, for auto_fail (04 R133). -/
def Engine.countFails (e : Engine) : Engine := { e with fails := if e.faulty then e.fails + 1 else 0, faulty := false }

/-- How the running segment ends, for a substitution. -/
def Engine.ending (e : Engine) : SegEnd :=
  ⟨e.tick, e.late, !e.absent.isEmpty, !e.dropped.isEmpty, (List.range e.outlets.length).map fun i => (i, e.sentWords i)⟩

/-- The engine's registers after park (04 R112): results still in flight land, the stores leave their buffers, the loop stack empties
and the sticky flags clear. -/
def Engine.afterPark (e : Engine) (cur : Nat) : Engine :=
  let e := e.mature 2
  let e := (((e.drain cur .x).drain cur .x).drain cur .y).drain cur .y
  { e with stack := [], cache := none, cacheValid := false, sr := e.sr &&& 0xFF9F, cur := {} }

/-- Hold in effect (04 R124). -/
def State.engHeld (s : State) (n : Nat) : Bool := s.is (R.ENGn_CTRL_hold n)

/-- The segment ends (04 R112, R120; 05 R159): outlets are completed (`short` where one was not) and committed, the barges of the
inlets leave with their credits, the sticky flags move to the events, and the engine waits at its gate for the next tick, or is held.
A segment whose successor's deadline has passed is followed by it at once, late (04 R123). -/
def State.endSegment (s : State) (n : Nat) : State :=
  let e := s.eng n
  let short := s.isShort e
  let s := s.parkFlags n (e.mature 2).sr
  let s := if short then s.engFault n 3 2 else s
  let s := s.setEng n (s.fillOutlets (e.afterPark (s.paramPage n)))
  let s := (List.range e.outlets.length).foldl (fun s i => s.commitOutlet n i) s
  let s := s.subSegment n (s.eng n).ending
  let s := e.inletLocks.foldl (fun s l => if (e.absent.any fun i => e.inletLock i == some l) then s.giveUp l e.tick else s.consume l e.tick) s
  let s := s.setWide (R.ENGn_TICK_LO n) (R.ENGn_TICK_HI n) e.tick
  let s := s.wr ⟨R.ENGn_CYC_LAST n, 0, 20⟩ (min (s.eng n).lastCommit (2 ^ 20 - 1))
  let e := (s.eng n).countFails
  let s := s.setEng n { e with tick := e.tick + 1, lateNext := false }
  if s.engHeld n then s.setEngState n 4
  else if e.lateNext then (s.setEngState n 2).startSegment n true
  else s.setEngState n 2

end Sys2Proof.Machine
end

