-- ==== Sys2Proof/Machine/Router.lean ====
section
/-!
DEFINITION. The router (06 R186 to R193): descriptors, route writes and changes, destination groups.
-/
namespace Sys2Proof.Machine

/-- The silence source (06 R186). -/
def silence : Nat := 0x1FFF

def State.setRouter (s : State) (r : Router) : State := { s with router := r }
def State.srcDesc (s : State) (n : Nat) : Option DescSpec := s.router.sources.find? (·.number = n)
def State.dstDesc (s : State) (d : Nat) : Option DescSpec := s.router.dests.find? (·.number = d)

/-- RTR_DESC of a number on a side (06 R186, R200). -/
def State.descriptor (s : State) (dest : Bool) (n : Nat) : Word :=
  if !dest && n = silence then BitVec.ofNat 32 (3 * 16 + 10)
  else match (if dest then s.dstDesc n else s.srcDesc n) with
    | some d => BitVec.ofNat 32 (d.loc * 2 ^ 16 + d.rank * 2 ^ 8 + d.domain * 16 + d.cls)
    | none => BitVec.ofNat 32 (3 * 16 + 15)

/-- The rank of a source or destination. -/
def rankOf (d : Option DescSpec) : Nat := match d with | some x => x.rank | none => 0

/-- A route from `src` to `d` is delayed when the source ranks equal to or above the destination (06 R187); silence never is. -/
def State.isDelayed (s : State) (d src : Nat) : Bool := src != silence && decide (rankOf (s.dstDesc d) ≤ rankOf (s.srcDesc src))

/-! ## Routes in effect -/

/-- The changes of destination `d`, newest first, over the route that the register holds. -/
def State.routeChanges (s : State) (d : Nat) : List RouteChange := Tab.get (fun _ => []) s.router.changes d

/-- A source and a destination of different domains are never connected (01 R37): such a route carries silence. [DEDUCED, log entry 111] -/
def State.connected (s : State) (d src : Nat) : Nat :=
  match s.dstDesc d, s.srcDesc src with
  | some x, some y => if x.domain = y.domain then src else silence
  | _, _ => src

/-- The route in effect before any change of this model's log. -/
def State.baseRoute (s : State) (d : Nat) : RouteChange :=
  ⟨0, s.connected d (s.rd (R.RTR_ROUTEd_src d)), s.is (R.RTR_ROUTEd_delayed d), false⟩

/-- The route that tick `k` of destination `d` uses, and the one it crossfades from (06 R190). -/
def State.routeAt (s : State) (d k : Nat) : RouteChange × Option RouteChange :=
  match (s.routeChanges d).dropWhile (fun c => decide (k < c.tick)) with
  | c :: o :: _ => (c, if c.tick = k ∧ c.xf then some o else none)
  | [c] => (c, none)
  | [] => (s.baseRoute d, none)

/-! ## Sources of one tick -/

/-- The lock that brings source `n` to the router, and the channel of it there. -/
def State.srcLock (s : State) (n : Nat) : Option (Nat × Nat × Nat) :=
  s.locks.findSome? fun e => match e.2 with
    | some k => if k.spec.consumer = .router ∧ k.spec.channels.contains n
        then some (e.1, k.spec.channels.idxOf n, k.spec.channels.length) else none
    | none => none

/-- The barge of tick `t` of source lock `l`: present, or kept for a delayed route. -/
def State.srcBarge (s : State) (l t : Nat) : Option Barge :=
  match s.awaits l t with
  | some b => some b
  | none => (s.router.kept.find? fun e => e.1 = l ∧ e.2.tick = t).map (·.2)

/-- The tick a route reads for tick `k`: one earlier when it is delayed (06 R187). -/
def RouteChange.reads (c : RouteChange) (k : Nat) : Nat := if c.delayed then k - 1 else k

/-- Group `g` has taken source lock `l` as absent in tick `t`. -/
def State.tookAbsent (s : State) (g l t : Nat) : Bool := s.router.absent.contains (g, l, t)

/-- Some group took this barge as absent. -/
def State.lateFor (s : State) (l t : Nat) : Bool := s.router.absent.any fun e => e.2.1 = l ∧ e.2.2 = t

/-- The sources a route needs for tick `k` are present, taken as absent, or silence. -/
def State.sourceReady (s : State) (g : Nat) (c : RouteChange) (k : Nat) : Bool :=
  match s.srcLock c.source with
  | none => true
  | some (l, _, _) => (s.srcBarge l (c.reads k)).isSome || s.tookAbsent g l (c.reads k)

/-- Channel `i` of sample `j` of an absent tick: zero, or for a Nerax receive source the last good sample faded (14 R371; 08 R234). -/
def State.concealed (s : State) (l t b j i : Nat) : Int :=
  match Tab.get (fun _ => none) s.conceal l with
  | none => 0
  | some c =>
    let n := (t - c.start) * b + j
    if t < c.start ∨ 32 ≤ n then 0 else (c.last.getD i 0).toInt * (31 - n : Nat) / 32

/-- Source lock `l` was absent in tick `t`, or some group took it as zeros (06 R185). -/
def State.wasAbsent (s : State) (l t : Nat) : Bool := (s.srcBarge l t).isNone || s.lateFor l t

/-- Sample `j` of a route's source for tick `k` (06 R185, R187, R192): zero where absent; faded in across the first tick present after an
absent one. -/
def State.routeSample (s : State) (g b : Nat) (c : RouteChange) (k j : Nat) : Int :=
  match s.srcLock c.source with
  | none => 0
  | some (l, i, n) =>
    let t := c.reads k
    if s.tookAbsent g l t then s.concealed l t b j i else
    match s.srcBarge l t with
    | none => 0
    | some bg =>
      let v := (bg.word j n i).toInt
      if s.wasAbsent l (t - 1) && decide (0 < t) then v * tickWeight b j / 2 ^ 16 else v

/-- Sample `j` of tick `k` of destination `d`, in group `g` (06 R190, R193). -/
def State.destSample (s : State) (g b d k j : Nat) : Sample :=
  if s.router.dead.contains d then 0 else
  let (c, old) := s.routeAt d k
  let new := s.routeSample g b c k j
  match old with
  | none => BitVec.ofInt 24 new
  | some o =>
    let was := s.routeSample g b o k j
    BitVec.ofInt 24 (was + (new - was) * tickWeight b j / 2 ^ 16)

/-- Both routes of a destination are ready for tick `k`. -/
def State.destReady (s : State) (g d k : Nat) : Bool :=
  let (c, old) := s.routeAt d k
  s.sourceReady g c k && (match old with | some o => s.sourceReady g o k | none => true)

/-! ## Groups -/

def State.hop (s : State) (l : Nat) : Option HopSpec := s.router.hops.find? (·.lock = l)

/-- The next tick of a destination group. -/
def State.hopNext (s : State) (l : Nat) : Nat := Tab.get (fun _ => 0) s.router.next l

/-- A group still needs the barge of tick `t` of source lock `l` in the tick itself. -/
def State.groupNeeds (s : State) (h : HopSpec) (l t : Nat) : Bool :=
  decide (s.hopNext h.lock ≤ t) && h.dests.any fun d =>
    let (c, old) := s.routeAt d t
    let uses := fun (c : RouteChange) => !c.delayed && (match s.srcLock c.source with | some (x, _, _) => x == l | none => false)
    uses c || (match old with | some o => uses o | none => false)

/-- The router is done with a source barge once no group needs it in its own tick: its credit returns, and its samples are kept one tick
for delayed routes, unless it came late (06 R187; 01 R23, R34). -/
def State.retireSource (s : State) (l : Nat) : State :=
  match s.lock l with
  | none => s
  | some k =>
    k.present.foldl (fun s b =>
      if s.router.hops.any fun h => s.groupNeeds h l b.tick then s
      else
        let s := s.consume l b.tick
        let old := s.router.kept.filter fun e => !(e.1 = l ∧ e.2.tick + 2 < b.tick)
        s.setRouter { s.router with kept := if s.lateFor l b.tick then old else old ++ [(l, b)] }) s

/-- Retire every source barge no longer needed. -/
def State.retireSources (s : State) : State :=
  (s.locksWhere fun k => k.spec.consumer = .router).foldl (fun s l => s.retireSource l) s

/-- The source locks a group lacks for its next tick. -/
def State.lacking (s : State) (h : HopSpec) (k : Nat) : List (Nat × Nat × Nat) :=
  (h.dests.flatMap fun d =>
    let (c, old) := s.routeAt d k
    (c :: old.toList).filterMap fun c => match s.srcLock c.source with
      | some (l, _, _) => if s.sourceReady h.lock c k then none else some (h.lock, l, c.reads k)
      | none => none).eraseDups

/-- An ECC result on the route entry of destination `d` (06 R193). -/
def State.routeEcc (s : State) (d : Nat) : Ecc → State
  | .clean => s
  | .corrected => ((s.bump (lowHalf R.RTR_ECC_COUNT)).raise R.RTR_INT_STATUS_ecc_corr).report 21 4 0
  | .uncorrectable =>
    let s := s.setRouter { s.router with dead := d :: s.router.dead }
    ((s.bump (highHalf R.RTR_ECC_COUNT)).raise R.RTR_INT_STATUS_ecc_uncorr).report 21 5 2

/-- Commit the barge of group `h` for tick `k`, or discard it where its lock holds no credit (06 R192). -/
def State.hopCommit (s : State) (h : HopSpec) (k : Nat) : State :=
  match s.lock h.lock with
  | none => s
  | some q =>
    let b := (s.dom q.spec.domain).b
    let words := (List.range b).flatMap fun j => h.dests.map fun d => s.destSample h.lock b d k j
    let s := if s.hasCredit h.lock then s.commit h.lock ⟨k, words⟩ else s.overrun .router true
    (s.setRouter { s.router with
      next := Tab.set (fun _ => 0) s.router.next h.lock (k + 1),
      absent := s.router.absent.filter fun e => !(e.1 = h.lock ∧ e.2.2 + 2 < k) }).retireSources

/-- The tick a group's next hop belongs to has been captured: the domain is past it. -/
def State.hopDue (s : State) (l : Nat) : Bool :=
  match s.lock l with
  | some q => decide (s.hopNext l < s.tick q.spec.domain)
  | none => false

/-- ROUTER_HOP (06 R187, R190, R192; 02 R59): the group's sources are present or taken as zeros, and its barge is committed. -/
def execRouterHop (lock : Nat) (ecc : List (Nat × Ecc)) (s : State) : Res :=
  .next (match s.hop lock with
    | none => s
    | some h =>
      let k := s.hopNext lock
      if s.halted || !s.hopDue lock || h.dests.any (fun d => !s.destReady lock d k) then s
      else (ecc.foldl (fun s e => s.routeEcc e.1 e.2) s).hopCommit h k)

/-- ROUTER_DEADLINE (06 R192): a source absent at the group's deadline feeds zeros for that tick; each such source is an overrun. [DEDUCED, log entry 90] -/
def execRouterDeadline (lock : Nat) (s : State) : Res :=
  .next (match s.hop lock with
    | none => s
    | some h =>
      let lack := s.lacking h (s.hopNext lock)
      if s.halted || !s.hopDue lock || lack.isEmpty then s
      else lack.foldl (fun s _ => s.overrun .router false) (s.setRouter { s.router with absent := s.router.absent ++ lack }))

/-! ## Route writes and changes (06 R188, R189, R191) -/

/-- Destination `e` holds a delayed channel: by its route in effect or its pending one (06 R188). -/
def State.countsDelayed (s : State) (e : Nat) : Bool :=
  s.is (R.RTR_ROUTEd_delayed e) || (s.shWaits (R.RTR_ROUTEd e) && s.isDelayed e (s.pendingField (R.RTR_ROUTEd_src e)))

/-- The lowest-numbered reason that refuses a route (06 R188). -/
def State.routeRefusal (s : State) (d src : Nat) : Option Nat :=
  match s.dstDesc d with
  | none => some 1
  | some dd =>
    if src = silence then none else
    match s.srcDesc src with
    | none => some 2
    | some sd =>
      if sd.domain ≠ dd.domain then some 3
      else if s.isDelayed d src ∧
          s.rd ⟨R.RTR_INFO, 0, 16⟩ ≤ ((s.router.dests.filter fun e => e.number != d && s.countsDelayed e.number)).length then some 4
      else none

/-- A write of RTR_ROUTEd (06 R188, R189): refused, or pending until its boundary. A write that stores the entry again ends an
uncorrectable error in it (R193). -/
def State.writeRoute (s : State) (d : Nat) (v : Word) : State :=
  let a := R.RTR_ROUTEd d
  match s.routeRefusal d (v.toNat % 2 ^ 13) with
  | some reason =>
    (s.setReg R.RTR_REFUSED (BitVec.ofNat 32 (reason * 2 ^ 16 + d))).raise R.RTR_INT_STATUS_refused
  | none =>
    let s := (s.soften a 0x5FFF v).setShWaits a true
    (s.setRouter { s.router with dead := s.router.dead.filter (· ≠ d) }).wr (R.RTR_ROUTEd_pend d) 1

/-- ROUTE_WRITE (06 R189). -/
def execRouteWrite (d : BitVec 13) (value : Word) (s : State) : Res := .next ((s.writeRoute d.toNat value).answer [])

/-- The layered value of a route comes into effect at the current boundary (06 R190, R191): no change where the source is the same. The entry is written, whichever
take or overlay wrote it (R193). -/
def State.routeSettles (s : State) (d : Nat) : State :=
  let a := R.RTR_ROUTEd d
  let was := s.baseRoute d
  let s := s.settle a 0x5FFF
  let s := s.setRouter { s.router with dead := s.router.dead.filter (· ≠ d) }
  let src := s.connected d (s.rd (R.RTR_ROUTEd_src d))
  let delayed := s.isDelayed d src
  let s := s.wr (R.RTR_ROUTEd_delayed d) (b2n delayed)
  if src = was.source then s else
  let x := match s.dstDesc d with | some e => e.domain | none => 0
  let new : RouteChange := ⟨s.tick x, src, delayed, s.is (R.RTR_ROUTEd_xf d)⟩
  let old := match s.routeChanges d with | [] => [was] | l => l
  s.setRouter { s.router with changes := Tab.set (fun _ => []) s.router.changes d ((new :: old).take 4) }

/-- ROUTE_TAKES_EFFECT (06 R189 to R191): at a boundary of the destination's domain, unless RTR_CTRL.hold is 1 or a held overlay owns the
entry (03 R82). -/
def execRouteTakesEffect (d : BitVec 13) (s : State) : Res :=
  .next (let a := R.RTR_ROUTEd d.toNat
    match s.dstDesc d.toNat with
    | none => s
    | some e =>
      if s.shWaits a && s.atBoundary e.domain && !s.is (bitAt R.RTR_CTRL 0) && s.owned a &&& 0x5FFF == 0 then
        (((s.routeSettles d.toNat).setShWaits a false).wr (R.RTR_ROUTEd_pend d.toNat) 0).raise R.RTR_INT_STATUS_route_done
      else s)

/-- ROUTER_HOLD_RELEASE (06 R189): RTR_CTRL.hold is written 0, so pending routes take effect at their next boundary. -/
def execRouterHoldRelease (s : State) : Res := .next ((s.hw (bitAt R.RTR_CTRL 0) 0).answer [])

/-- RTR_STATUS (06 R200): hold in force, any route pending, delayed channels held. -/
def State.routerStatus (s : State) : Word :=
  BitVec.ofNat 32 (b2n (s.is (bitAt R.RTR_CTRL 0))
    + 2 * b2n (s.router.dests.any fun e => s.shWaits (R.RTR_ROUTEd e.number))
    + 2 ^ 16 * (s.router.dests.filter fun e => s.is (R.RTR_ROUTEd_delayed e.number)).length)

end Sys2Proof.Machine
end

