-- ==== Sys2Proof/Machine/Background.lean ====
section
/-!
DEFINITION. The weir's own commands but the grant, the dredger and the monitors (20). The grant, which its requester acts on, is in
Machine/Grant.lean, and telemetry with it.
-/
namespace Sys2Proof.Machine

/-! ## Weir (R502 to R509) -/

/-- WEIR_REQUEST (20 R503, R506): requester r asks with the cost the image gives it. [DEDUCED, log entry 13] -/
def execWeirRequest (r : ReqIx) (s : State) : Res := .next (s.weirRequest r (s.weirCost r))

/-- WEIR_RETURN (20 R507). [DEDUCED, log entry 13] -/
def execWeirReturn (r : ReqIx) (s : State) : Res := .next (s.weirReturn r)

/-- WEIR_WITHDRAW (20 R507). [DEDUCED, log entry 13] -/
def execWeirWithdraw (r : ReqIx) (s : State) : Res := .next (s.weirWithdraw r)

/-- A waiting request that can fit becomes starving: set and counted on the entry (20 R506). -/
def State.starve (s : State) (r : Nat) : State :=
  let q := s.requester r
  if q.pending ∧ !q.starving ∧ !q.unfit then
    ((s.setRequester r { q with starving := true }).raise R.WEIR_INT_STATUS_starving).bump (lowHalf R.WEIR_COUNT)
  else s

/-- Requester `r` has waited for hold milliseconds (20 R506, R519: 250,000 cycles a millisecond, 0 acting as 1). -/
def State.waitedLong (s : State) (r : Nat) : Bool :=
  (s.requester r).pending && decide (max 1 (s.rd ⟨R.WEIR_CTRL, 0, 8⟩) * 250000 ≤ s.now - (s.requester r).since)

/-- REQUEST_STARVING (20 R506): requester r has waited for hold milliseconds. [DEDUCED, log entry 13] -/
def execRequestStarving (r : ReqIx) (s : State) : Res := .next (if s.waitedLong r then s.starve r else s)

/-- A write of WEIR_CTRL.hold applies at once to every request that waits (20 R506). -/
def State.judgeHold (s : State) : State :=
  (List.range 22).foldl (fun s r => if s.waitedLong r then s.starve r else s) s

/-- A changed budget: a waiting request is unfit exactly while its cost exceeds B_w − F, and one that now fits waits from here (20 R506). [DEDUCED, log entry 37] -/
def State.judgeFit (s : State) : State :=
  (List.range 22).foldl (fun s r =>
    let q := s.requester r
    let unfit := decide (budget s - reservation s < q.cost)
    if !q.pending || q.starving || q.unfit == unfit then s
    else s.setRequester r { q with unfit := unfit, since := if unfit then q.since else s.now }) s

/-- BUDGET_WRITE (20 R502): refused below F plus the grants held, or above the image's value. -/
def execBudgetWrite (value : Word) (s : State) : Res :=
  .next (let v := getBits value 0 12
    let top := getBits (Tab.get resetValue s.layers.image R.WEIR_BUDGET) 0 12
    if v < reservation s + s.granted ∨ top < v then s.raise R.WEIR_INT_STATUS_budget_refused
    else (s.sw ⟨R.WEIR_BUDGET, 0, 12⟩ v).judgeFit)

/-! ## Dredger requests -/

def drgRunning : FieldAt := ⟨R.DRG_STATUS, 31, 1⟩
def drgLeave : FieldAt := ⟨R.DRG_STATUS, 30, 1⟩
def drgPending : FieldAt := ⟨R.DRG_STATUS, 29, 1⟩
def drgRegion : FieldAt := ⟨R.DRG_STATUS, 16, 1⟩
def drgProgress : FieldAt := ⟨R.DRG_STATUS, 0, 16⟩
def drgEn : FieldAt := ⟨R.DRG_CTRL, 0, 1⟩
def drgDramEn : FieldAt := ⟨R.DRG_CTRL, 1, 1⟩

def State.setDrg (s : State) (d : Dredger) : State := { s with drg := d }

/-- The pass over DRAM or SRAM. -/
def State.pass (s : State) (dram : Bool) : Pass := if dram then s.drg.dram else s.drg.sram
def State.setPass (s : State) (dram : Bool) (p : Pass) : State :=
  s.setDrg (if dram then { s.drg with dram := p } else { s.drg with sram := p })

/-- The words of SRAM, or the usable blocks of DRAM, that a pass reads, and how many of them a burst covers (20 R510, R513). -/
def State.passTotal (s : State) (dram : Bool) : Nat := if dram then s.dramSize / 64 else Config.sramWords
def burstWords (dram : Bool) : Nat := if dram then 1024 else 4096

/-- The unit a pass's period and duration are counted in, a second or a minute, in cycles; and the period within its limits (20 R512). -/
def passUnit (dram : Bool) : Nat := if dram then 60 * 250000000 else 250000000
def State.passPeriod (s : State) (dram : Bool) : Nat :=
  (if dram then min 1440 (max 10 (s.rd ⟨R.DRG_DRAM_PERIOD, 0, 11⟩)) else min 3600 (max 1 (s.rd ⟨R.DRG_SRAM_PERIOD, 0, 12⟩))) * passUnit dram

/-- The pass in progress; a pass begins with its first burst, at the period that holds then (20 R512). [DEDUCED, log entry 120] -/
def State.passNow (s : State) (dram : Bool) : Pass :=
  let p := s.pass dram
  if p.period = 0 then { p with start := s.now, period := s.passPeriod dram } else p

/-- The cycles between two bursts of a pass, evenly spaced over its period (20 R512). -/
def State.burstStep (s : State) (dram : Bool) (p : Pass) : Nat :=
  p.period / max 1 ((s.passTotal dram + burstWords dram - 1) / burstWords dram)

/-- The dredger asks for leave for a due burst, one at a time; bursts of the two passes alternate while both are due (20 R513). -/
def State.dredgerAsk (s : State) : State :=
  let due := s.drg.sram.due || (s.drg.dram.due && s.is drgDramEn)
  if !s.is drgEn || !due || s.is drgPending || s.is drgLeave then s else
  let region := if s.drg.sram.due && s.drg.dram.due && s.is drgDramEn then !s.drg.region else !s.drg.sram.due
  (((s.setDrg { s.drg with region := region }).wr drgRegion (b2n region)).wr drgPending 1).weirRequest 21 (s.weirCost 21)

/-- The weir withdraws the dredger's pending request (20 R509). -/
def State.dredgerWithdraw (s : State) : State := if s.is drgPending then (s.wr drgPending 0).weirWithdraw 21 else s

/-- CORE_CURRENT_MEASUREMENT (20 R509), every 100 µs. -/
def execCoreCurrentMeasurement (units : BitVec 12) (s : State) : Res :=
  .next (let u := units.toNat
    let s := (s.wr ⟨R.WEIR_MEAS, 0, 12⟩ u).highest ⟨R.WEIR_MEAS, 16, 12⟩ u
    let above := if budget s < u then min 10 (s.weir.above + 1) else 0
    let below := if u + 4 ≤ budget s then min 10 (s.weir.below + 1) else 0
    let s := { s with weir := { s.weir with above := above, below := below } }
    if !s.is weirOver ∧ above = 10 then
      let s := (s.wr weirOver 1).bump (highHalf R.WEIR_COUNT)
      ((s.raise R.WEIR_INT_STATUS_over).report 3 2 1).dredgerWithdraw
    else if s.is weirOver ∧ below = 10 then s.wr weirOver 0 else s)

/-! ## Dredger (R510 to R514) -/

/-- What a found word comes to: the memory's own handling (R510; 04 R126; 06 R184, R193; 07 R210, R220; 16 R407). [DEDUCED, log entry 31] -/
def State.scrub (s : State) : Scrubbed → State
  | .engine n ecc => s.engEcc n ecc
  | .bank active node ecc =>
    if active && ecc != .uncorrectable then s.bankEcc node ecc
    else match ecc with
      | .clean => s
      | .corrected => ((s.bump (lowHalf R.MTX_ECC_COUNT)).raise R.MTX_INT_STATUS_ecc_corr).report 20 10 0
      -- a node's gain falls to 0 only on a word read for summation (06 R184)
      | .uncorrectable => ((s.bump (highHalf R.MTX_ECC_COUNT)).raise R.MTX_INT_STATUS_ecc_uncorr).report 20 11 2
  | .sampleMemory ecc =>
    match ecc with
    | .clean => s
    | .corrected => ((s.bump (lowHalf R.RTR_ECC_COUNT)).raise R.RTR_INT_STATUS_ecc_corr).report 21 4 0
    | .uncorrectable => ((s.bump (highHalf R.RTR_ECC_COUNT)).raise R.RTR_INT_STATUS_ecc_uncorr).report 21 5 2
  | .route d ecc => s.routeEcc d.toNat ecc
  | .bridgeHistory g age word ecc => (if ecc = .uncorrectable then s.zeroHistory g age word else s).bridgeEcc ecc
  | .filter w ecc =>
    match ecc with
    | .uncorrectable => s.filterEcc w
    | .corrected => ((s.bump (lowHalf R.FLC_ECC_COUNT)).raise R.FLC_INT_STATUS_ecc_corr).report 22 6 0
    | .clean => s
  | .dramBlock block ecc => s.dramFound ⟨false, block, s.now, none, false⟩ (match ecc with | .clean => 0 | .corrected => 1 | .uncorrectable => 2)

/-- The result of a found word. -/
def scrubbedEcc : Scrubbed → Ecc
  | .engine _ e | .bank _ _ e | .sampleMemory e | .route _ e | .bridgeHistory _ _ _ e | .filter _ e | .dramBlock _ e => e

/-- DREDGER_BURST (20 R510, R513): a granted burst of 4096 SRAM words or 1024 DRAM blocks; its grant returns at its end. [DEDUCED, log entry 31; DESIGN CHOICE, log entry 32] -/
def execDredgerBurst (found : List Scrubbed) (s : State) : Res :=
  .next (if !s.is drgEn || !s.is drgLeave then s else
    let reply := s.reply
    let s := found.foldl (fun s f =>
      let s := match scrubbedEcc f with
        | .clean => s
        | .corrected => s.bump (lowHalf R.DRG_COUNT)
        | .uncorrectable => s.bump (highHalf R.DRG_COUNT)
      s.scrub f) s
    let s := { s with reply := reply }
    let dram := s.drg.region
    let p := s.pass dram
    let p := { p with done := p.done + burstWords dram, due := false }
    let s := (s.setPass dram p).wr drgProgress (min 65535 (p.done * 65536 / max 1 (s.passTotal dram)))
    (((s.wr drgLeave 0).wr drgRunning 0).weirReturn 21).dredgerAsk)

/-- A burst of a pass falls due: the pass is enabled and not at its end, and the spacing has elapsed (20 R512). -/
def State.burstDue (s : State) (dram : Bool) : Bool :=
  s.is drgEn && (!dram || s.is drgDramEn) && decide ((s.pass dram).done < s.passTotal dram) && decide ((s.pass dram).next ≤ s.now)

/-- DREDGER_BURST_DUE (20 R512, R513): the spacing timer of a pass. [DEDUCED, log entry 120] -/
def execDredgerBurstDue (dram : Bool) (s : State) : Res :=
  .next (if !s.burstDue dram then s else
    let p := s.passNow dram
    (s.setPass dram { p with due := true, next := max p.start p.next + s.burstStep dram p }).dredgerAsk)

/-- DREDGER_PASS_END (20 R514, R520): a pass that has taken more than twice its period is late, once; one that has read its last word ends with
its duration, and the next one waits for its period. [DEDUCED, log entry 120] -/
def execDredgerPassEnd (dram : Bool) (s : State) : Res :=
  .next (let p := s.pass dram
    let took := s.now - p.start
    if p.period = 0 then s else
    let s := if !p.late ∧ 2 * p.period < took then
        ((s.setPass dram { p with late := true }).raise (bitAt R.DRG_INT_STATUS 2)).report 25 2 1
      else s
    if p.done < s.passTotal dram then s else
    let s := (s.wr (lowHalf (if dram then R.DRG_PASS_DRAM else R.DRG_PASS_SRAM)) (min 65535 (took / passUnit dram))).raise
      (bitAt R.DRG_INT_STATUS (b2n dram))
    s.setPass dram { next := p.next })

/-- XBAR_MSTATUS.drain[m] (17 R430, R447): master `m` is in reset. [DEDUCED, log entry 29] -/
def drainBit (m : Nat) : FieldAt := bitAt R.XBAR_MSTATUS m

/-- A master is reset (17 R430): what it has queued and not been granted is discarded; it drains while a granted read is outstanding. [DEDUCED, log entry 29] -/
def State.resetMaster (s : State) (m : Nat) : State :=
  let s := { s with xbar := { s.xbar with waiting := s.xbar.waiting.filter fun e => e.1.master.val ≠ m }
                    waits := s.waits.filter fun w => w.master ≠ m }
  if s.pcie.outstanding.any (·.1 = m) then s.wr (drainBit m) 1 else s

/-- The dredger is stopped: master 6 is reset and its grant returns (20 R514). -/
def State.stopDredger (s : State) : State :=
  ((((s.wr drgPending 0).wr drgLeave 0).wr drgRunning 0).resetMaster 6).weirDrop 21

/-- DREDGER_ENABLE_WRITE (20 R514): a write of DRG_CTRL. -/
def execDredgerEnableWrite (value : Word) (s : State) : Res :=
  .next (let s := s.sw ⟨R.DRG_CTRL, 0, 2⟩ (getBits value 0 2)
    if s.is drgEn then s.dredgerAsk else s.stopDredger)

/-! ## Monitors (R516) -/

def State.setTlm (s : State) (t : Tlm) : State := { s with tlm := t }

def tlmEnabled : FieldAt := ⟨R.TLM_EN, 0, 1⟩

/-- Telemetry is switched on: its first period begins (20 R518). [DEDUCED, log entry 35] -/
def State.tlmStarts (s : State) (was : Bool) : State := if s.is tlmEnabled && !was then s.setTlm { s.tlm with since := s.now } else s

/-- The sensors' sample: Tj is the highest; the warning and the thermal shutdown (R516; 19 R491). [DEDUCED, log entry 24] -/
def State.judgeTj (s : State) (tj : Int) : State :=
  let s := s.wr (lowHalf R.TLM_TJ) (ofSigned 16 tj)
  let s := if toSigned 16 (s.rd (highHalf R.TLM_TJ)) < tj then s.wr (highHalf R.TLM_TJ) (ofSigned 16 tj) else s
  let warnAt : Int := s.rd ⟨R.TLM_CTRL, 0, 8⟩ * 16
  let s :=
    if warnAt ≤ tj ∧ !s.tlm.warn then ((s.setTlm { s.tlm with warn := true }).raise (bitAt R.TLM_INT_STATUS 0)).report 26 0 1
    else if tj < warnAt - 80 ∧ s.tlm.warn then (s.setTlm { s.tlm with warn := false }).raise (bitAt R.TLM_INT_STATUS 1)
    else s
  let hot := if 115 * 16 ≤ tj then min 3 (s.tlm.hot + 1) else 0
  let s := s.setTlm { s.tlm with hot := hot }
  if hot = 2 then s.report 2 1 3 else if tj ≤ 100 * 16 then s.endCause 2 1 else s

/-- A rail's sample: outside its window for 8 samples, and within range again for 10 ms, 1000 samples (R516; 19 R491). A window the image has
not set is not judged. [DESIGN CHOICE, log entry 36] -/
def State.judgeRail (s : State) (v : Nat) (mv : Nat) : State :=
  let s := s.wr (lowHalf (R.TLM_VMEASv v)) mv
  let win := R.TLM_VWINv v
  if s.reg win = 0 then s else
  let get := fun (t : List (Nat × Nat)) => Tab.get (fun _ => 0) t v
  let put := fun (t : List (Nat × Nat)) n => Tab.set (fun _ => 0) t v n
  if s.rd (lowHalf win) ≤ mv ∧ mv ≤ s.rd (highHalf win) then
    let n := min 1000 (get s.tlm.inside + 1)
    let was := get s.tlm.outside
    let out := if was < 8 ∨ n = 1000 then 0 else was
    let s := s.setTlm { s.tlm with inside := put s.tlm.inside n, outside := put s.tlm.outside out }
    if was = 8 ∧ out = 0 ∧ s.tlm.outside.all (fun e => decide (e.2 < 8)) then s.endCause 2 2 else s
  else
    let was := get s.tlm.outside
    let s := s.setTlm { s.tlm with inside := put s.tlm.inside 0, outside := put s.tlm.outside (min 8 (was + 1)) }
    if was = 7 then s.report 2 2 3 else s

/-- MONITOR_SAMPLE (20 R516). -/
def execMonitorSample (m : Monitor) (s : State) : Res :=
  .next (match m with
    | .temperature ts =>
      let ts := ts.take 4
      let s := ((List.range ts.length).zip ts).foldl (fun s e => s.wr (lowHalf (R.TLM_TEMPn e.1)) e.2.toNat) s
      match ts with
      | [] => s
      | t :: r => s.judgeTj (r.foldl (fun a b => max a b.toInt) t.toInt)
    | .rail v mv => s.judgeRail v mv.toNat)

end Sys2Proof.Machine
end

