-- ==== Sys2Proof/Machine/Events.lean ====
section
/-!
DEFINITION. Event sources and their levels (18 R463, R464, R473), vector requests and IRQ pins (18 R465, R468).
-/
namespace Sys2Proof.Machine

/-- The INT_STATUS and INT_ENABLE registers of a block event source (18 R463, the table of event sources). -/
def sourceRegs (n : Nat) : Option (Nat × Nat) :=
  if n = 0 then some (R.GLB_INT_STATUS, R.GLB_INT_ENABLE)
  else if n = 1 then some (R.CFG_INT_STATUS, R.CFG_INT_ENABLE)
  else if n = 2 then some (R.FLT_INT_STATUS, R.FLT_INT_ENABLE)
  else if n = 3 then some (R.WEIR_INT_STATUS, R.WEIR_INT_ENABLE)
  else if n = 4 then some (R.CLK_INT_STATUS, R.CLK_INT_ENABLE)
  else if n < 8 then some (R.CLK_DOMx_INT_STATUS (n - 5), R.CLK_DOMx_INT_ENABLE (n - 5))
  else if n < 12 then some (R.TBn_INT_STATUS (n - 8), R.TBn_INT_ENABLE (n - 8))
  else if n < 14 then some (R.TIME_MACm_INT_STATUS (n - 12), R.TIME_MACm_INT_ENABLE (n - 12))
  else if n < 16 then some (R.MACm_INT_STATUS (n - 14), R.MACm_INT_ENABLE (n - 14))
  else if n = 16 then some (R.STRM_INT_STATUS, R.STRM_INT_ENABLE)
  else if n = 17 then some (R.FOV_INT_STATUS, R.FOV_INT_ENABLE)
  else if n = 18 then some (R.DMC_INT_STATUS, R.DMC_INT_ENABLE)
  else if n = 19 then some (R.XBAR_INT_STATUS, R.XBAR_INT_ENABLE)
  else if n = 20 then some (R.MTX_INT_STATUS, R.MTX_INT_ENABLE)
  else if n = 21 then some (R.RTR_INT_STATUS, R.RTR_INT_ENABLE)
  else if n = 22 then some (R.FLC_INT_STATUS, R.FLC_INT_ENABLE)
  else if n = 23 then some (R.BRG_INT_STATUS, R.BRG_INT_ENABLE)
  else if n = 24 then some (R.ENG_SUB_INT_STATUS, R.ENG_SUB_INT_ENABLE)
  else if n = 25 then some (R.DRG_INT_STATUS, R.DRG_INT_ENABLE)
  else if n = 26 then some (R.TLM_INT_STATUS, R.TLM_INT_ENABLE)
  else if n = 27 then some (R.PCIE_INT_STATUS, R.PCIE_INT_ENABLE)
  else if n = 28 then some (R.SVC_INT_STATUS, R.SVC_INT_ENABLE)
  else if n < 32 then none
  else if n < 66 then some (R.ENGn_INT_STATUS (n - 32), R.ENGn_INT_ENABLE (n - 32))
  else if n < 70 then some (R.TDM_GRPg_INT_STATUS (n - 66), R.TDM_GRPg_INT_ENABLE (n - 66))
  else if n < 74 then some (R.AMP_GRPa_INT_STATUS (n - 70), R.AMP_GRPa_INT_ENABLE (n - 70))
  else if n < 86 then some (R.LANEn_INT_STATUS (n - 74), R.LANEn_INT_ENABLE (n - 74))
  else if n < 90 then some (R.NRXk_INT_STATUS (n - 86), R.NRXk_INT_ENABLE (n - 86))
  else if n < 96 then none
  else if n < 128 then some (R.AMPc_INT_STATUS (n - 96), R.AMPc_INT_ENABLE (n - 96))
  else if n < 160 then some (R.DMA_CHc_INT_STATUS (n - 128), R.DMA_CHc_INT_ENABLE (n - 128))
  else none

/-- Sources no table row names: they never assert (18 R463), and their FLT_SCOPEs read as 0 (19 R500). -/
def reservedSource (n : Nat) : Bool := (29 ≤ n && n < 32) || (90 ≤ n && n < 96) || 199 ≤ n

/-- An enabled event of a register pair is pending. -/
def State.pendingEvent (s : State) (status enable : Nat) : Bool := (s.reg status &&& s.reg enable) != 0

/-- The level of event source `n` (18 R463, R473). -/
def State.level (s : State) (n : Nat) : Bool :=
  match sourceRegs n with
  | some (a, e) => s.pendingEvent a e
  | none =>
    if 160 ≤ n ∧ n < 176 then
      let i := n - 160
      ((s.reg R.PAD_EV_EDGE &&& s.reg R.PAD_EN_EDGE) ||| (s.reg R.PAD_EV_STUCK &&& s.reg R.PAD_EN_STUCK)
        ||| (s.reg R.PAD_EV_CHAT &&& s.reg R.PAD_EN_CHAT)).toNat.testBit i
    else if 176 ≤ n ∧ n < 192 then (s.reg R.EVT_LOCAL_STATUS &&& s.reg R.EVT_LOCAL_ENABLE).toNat.testBit (16 + (n - 176))
    else if 192 ≤ n ∧ n < 199 then (s.reg R.EVT_LOCAL_STATUS &&& s.reg R.EVT_LOCAL_ENABLE).toNat.testBit (n - 192)
    else false

/-- The routes of a source (18 R465). -/
def routeMsix (n : Nat) : FieldAt := bitAt (R.EVT_ROUTEs n) 31
def routeIrq (n k : Nat) : FieldAt := bitAt (R.EVT_ROUTEs n) (28 + k)
def routeVector (n : Nat) : FieldAt := ⟨R.EVT_ROUTEs n, 0, 6⟩

/-- The request of vector `v` is the OR of the levels of every source routed to it (18 R465). -/
def State.request (s : State) (v : Nat) : Bool :=
  (List.range 256).any fun n => s.level n && s.is (routeMsix n) && s.rd (routeVector n) == v

/-- IRQk_N is asserted while any source routed to it has level 1 (18 R468). -/
def State.irqWanted (s : State) (k : Nat) : Bool :=
  (List.range 256).any fun n => s.level n && s.is (routeIrq n k)

/-- The PBA bit of a vector: a message is due (18 R466). -/
def pba (v : Nat) : FieldAt := bitAt (R.MSIX_PBA (v / 32)) (v % 32)

/-- Judge the request of vector `v`: a rise makes one message due, a fall cancels a due message (18 R466, R467). -/
def State.judgeVector (s : State) (v : Nat) : State :=
  let now := s.request v
  let was := s.evt.requests.getLsbD v
  let s := { s with evt := { s.evt with requests :=
    if now then s.evt.requests ||| (1#64 <<< v) else s.evt.requests &&& ~~~(1#64 <<< v) } }
  if now && !was then s.wr (pba v) 1 else if !now then s.wr (pba v) 0 else s

/-- Judge IRQk_N: asserted or released to follow its sources (18 R468). -/
def State.judgeIrq (s : State) (k : Nat) : State :=
  let want := s.irqWanted k
  let cur := if k = 0 then s.evt.irq0 else s.evt.irq1
  if want = cur then s else
  let s := { s with evt := if k = 0 then { s.evt with irq0 := want } else { s.evt with irq1 := want } }
  s.emit (.irqPin k want)

end Sys2Proof.Machine
end

