-- ==== Sys2Proof/Machine/Evt.lean ====
section
/-!
DEFINITION. The event controller (18 R463 to R468), the PCIe function's own commands (18 R451, R455, R456, R466), GPIO and input
conditioning (18 R469 to R473), and the I²C and MDIO ports (18 R475, R476).
-/
namespace Sys2Proof.Machine

/-! ## Events -/

/-- A vector's request that has fallen cancels its due message (18 R466); judged after a step that may lower a level. -/
def State.judgeFalls (s : State) : State :=
  if s.evt.requests = 0 then s else
  (List.range 64).foldl (fun s v => if s.evt.requests.getLsbD v && !s.request v then s.judgeVector v else s) s

/-- EVENT_LEVEL_RISE (18 R463, R465, R466, R468). -/
def execEventLevelRise (source : Byte) (s : State) : Res :=
  .next (let n := source.toNat
    if !s.level n then s else
    let s := if s.is (routeMsix n) then s.judgeVector (s.rd (routeVector n)) else s
    let s := if s.is (routeIrq n 0) then s.judgeIrq 0 else s
    if s.is (routeIrq n 1) then s.judgeIrq 1 else s)

/-- EVT_EOI (18 R466, R467): a message falls due while the vector's request stands. -/
def execEvtEoi (v : VecIx) (s : State) : Res :=
  .next (if s.request v then (s.judgeVector v).wr (pba v) 1 else s.judgeVector v)

/-- EVT_SW (18 R464). -/
def execEvtSw (value : Word) (s : State) : Res :=
  .next (s.setReg R.EVT_LOCAL_STATUS (s.reg R.EVT_LOCAL_STATUS ||| (value &&& 0xFFFF0000)))

/-- EVT_ROUTE_WRITE (18 R465, R467): requests and pins follow the new route from the next cycle. -/
def execEvtRouteWrite (source : Byte) (value : Word) (s : State) : Res :=
  .next (let n := source.toNat
    let old := s.rd (routeVector n)
    let s := s.sw (routeMsix n) (getBits value 31 1)
    let s := (s.sw (routeIrq n 0) (getBits value 28 1)).sw (routeIrq n 1) (getBits value 29 1)
    let s := s.sw (routeVector n) (getBits value 0 6)
    let s := (s.judgeVector old).judgeVector (s.rd (routeVector n))
    (s.judgeIrq 0).judgeIrq 1)

/-- The fields of sample compare n (18 R477): its domain and its arm bit. -/
def cmpDomain (n : Nat) : FieldAt := ⟨R.EVT_CMP_CTRL, 2 * n, 2⟩
def cmpArm (n : Nat) : FieldAt := ⟨R.EVT_CMP_CTRL, 8 + n, 1⟩

/-- SAMPLE_COMPARE (18 R464): its number is reached or has passed. -/
def execSampleCompare (n : Fin 4) (s : State) : Res :=
  .next (let x := s.rd (cmpDomain n)
    if s.is (cmpArm n) ∧ x < 3 ∧ s.started x ∧ s.wide (R.EVT_CMPn_LO n) (R.EVT_CMPn_HI n) ≤ (s.dom x).sample.toNat then
      (s.raise (bitAt R.EVT_LOCAL_STATUS (3 + n))).hw (cmpArm n) 0
    else s)

/-- IRQ_RELEASE (18 R468): no source routed to the pin has level 1. -/
def execIrqRelease (k : Fin 2) (s : State) : Res := .next (if s.irqWanted k then s else s.judgeIrq k)

/-! ## The PCIe function -/

def pcieLink : FieldAt := ⟨R.PCIE_STATUS, 31, 1⟩
def pcieSpeed : FieldAt := ⟨R.PCIE_STATUS, 24, 4⟩
def pcieWidth : FieldAt := ⟨R.PCIE_STATUS, 20, 2⟩
def pcieMaster : FieldAt := ⟨R.PCIE_STATUS, 8, 1⟩
def pcieMsix : FieldAt := ⟨R.PCIE_STATUS, 7, 1⟩
def pcieMasked : FieldAt := ⟨R.PCIE_STATUS, 6, 1⟩
def pcieD : FieldAt := ⟨R.PCIE_STATUS, 0, 2⟩
/-- Event i of PCIE_INT_STATUS: 6 ob_err, 5 ib_err, 4 D-state, 3 flr, 2 hot_reset, 1 link_down, 0 link_up (18 R478). -/
def pcieEvent (i : Nat) : FieldAt := bitAt R.PCIE_INT_STATUS i

/-- MSIX_MESSAGE_SEND (18 R466): every send condition holds; a message whose request has fallen is cancelled. -/
def execMsixMessageSend (v : VecIx) (s : State) : Res :=
  .next (if !s.is (pba v) then s
    else if !s.request v then s.judgeVector v
    else
      let last := Tab.get (fun _ => none) s.evt.lastSent v
      let held := last.any fun t => decide (s.now < t + s.rd ⟨R.EVT_HOLDv v, 0, 10⟩ * 250)
      if s.is pcieMsix ∧ !s.is pcieMasked ∧ !s.is (bitAt (R.MSIX_TABLE (4 * v + 3)) 0) ∧ s.is pcieMaster ∧ s.is pcieLink ∧ s.rd pcieD = 0
          ∧ !held then
        let s := s.wr (pba v) 0
        let s := { s with evt := { s.evt with lastSent := Tab.set (fun _ => none) s.evt.lastSent v (some s.now) } }
        s.emit (.msix v (s.wide (R.MSIX_TABLE (4 * v)) (R.MSIX_TABLE (4 * v + 1))) (s.reg (R.MSIX_TABLE (4 * v + 2))))
      else s)

/-- A register returns to its reset value, and software's stored bits with it. [DESIGN CHOICE, log entry 27] -/
def State.restore (s : State) (a : Nat) : State :=
  (s.setReg a (resetValue a)).soften a 0xFFFFFFFF (resetValue a)

/-- LANEn_CFG.gen of LN0 and LN1: the current PCIe rate (13 R359). -/
def State.pcieGen (s : State) (g : Nat) : State := (s.wr (R.LANEn_CFG_gen 0) g).wr (R.LANEn_CFG_gen 1) g

/-- PCIE_RESET (18 R456; 21 R529). [DESIGN CHOICE, log entry 27] -/
def execPcieReset (kind : PcieResetKind) (s : State) : Res :=
  .next (let s := (List.range 256).foldl (fun s i => s.restore (R.MSIX_TABLE i)) s
    let s := (s.setReg (R.MSIX_PBA 0) 0).setReg (R.MSIX_PBA 1) 0
    let s := ((s.restore R.PCIE_BAR2_WIN_LO).restore R.PCIE_BAR2_WIN_HI).restore R.PCIE_OB_BASE
    let s := (((s.wr pcieMaster 0).wr pcieMsix 0).wr pcieMasked 0).wr pcieD 0
    let s := s.resetMaster 4
    let s := if kind ≠ .functionLevel ∧ s.is R.CFG_STATUS_loaded then
        { s with pcie := { s.pcie with bar2Log := 28 + s.rd ⟨R.PCIE_CFG, 16, 4⟩ } } else s
    match kind with
    | .hot => s.raise (pcieEvent 2)
    | .linkDown => (((((s.pcieGen 0).wr pcieLink 0).wr pcieSpeed 0).wr pcieWidth 0).raise (pcieEvent 2)).raise (pcieEvent 1)
    | .functionLevel => s.raise (pcieEvent 3))

/-- PCIE_LINK_UP (18 R478): the speed is a generation 1 to 4, the width 1 or 2; LN0 and LN1 show the rate (13 R359). -/
def execPcieLinkUp (speed : Fin 5) (width : Fin 3) (s : State) : Res :=
  .next (if speed = 0 ∨ width = 0 ∨ s.is pcieLink then s else
    (((((s.pcieGen (speed.val - 1)).wr pcieLink 1).wr pcieSpeed speed).wr pcieWidth width).raise (pcieEvent 0)))

/-- Configuration requests are answered with Retry Status before step 7 of the loader, under QSPI and Nerax boot (21 R527, R531). -/
def State.configBusy (s : State) : Bool :=
  s.rd R.GLB_BOOT_STATUS_state < 5 && s.rd ⟨R.GLB_STRAP, 0, 2⟩ != 1

/-- PCIE_CONFIG_REQUEST (18 R451, R466, R478; 21 R531). -/
def execPcieConfigRequest (c : PcieConfig) (s : State) : Res :=
  .next (if !s.is pcieLink then s
    else if s.configBusy then s.emit .configRetry
    else match c with
      | .busMaster on => s.wr pcieMaster (b2n on)
      | .msixEnable on => s.wr pcieMsix (b2n on)
      | .functionMask on => s.wr pcieMasked (b2n on)
      | .dState d3 =>
        let v := if d3 then 3 else 0
        if s.rd pcieD = v then s else (s.wr pcieD v).raise (pcieEvent 4))

/-! ## Outbound requests (R455) -/

/-- Outbound requests can leave: the link is up, Bus Master Enable is 1 and the function is in D0. -/
def State.outboundOpen (s : State) : Bool := s.is pcieLink && s.is pcieMaster && s.rd pcieD == 0

/-- An outbound request fails: a default-target error with cause 5, ob_err and its count (R455, R478). -/
def State.outboundError (s : State) (m addr : Nat) (write : Bool) : State :=
  ((s.raise (pcieEvent 6)).bump (highHalf R.PCIE_REQ_ERR)).defaultTarget m addr 5 write causeOutbound

/-- The host address of internal address `a` (R455). -/
def State.hostAddr (s : State) (a : Nat) : Nat := s.rd ⟨R.PCIE_OB_BASE, 0, 25⟩ * 2 ^ 39 + (a - 0x8000000000)

/-- A request to host memory (R455): a write is passed to the transaction layer; a read awaits its completion. -/
def State.outboundBurst (s : State) (b : Burst) : State :=
  let a := b.addr.toNat
  if !s.outboundOpen then s.outboundError b.master a b.write
  else if b.write then (s.emit (.hostWrite (s.hostAddr a) b.data)).answer []
  else { s.emit (.hostRead (s.hostAddr a) b.data.length) with
      pcie := { s.pcie with outstanding := s.pcie.outstanding ++ [(b.master.val, a, b.data.length)] } }

/-- PCIE_OUTBOUND_REQUEST (18 R455). [DESIGN CHOICE, log entry 39] -/
def execPcieOutboundRequest (b : Burst) (s : State) : Res :=
  .next (if b.addr.toNat < 0x8000000000 then s else s.outboundBurst b)

/-- Words of a byte string, little-endian. -/
def wordsOf : List Byte → List Word
  | a :: b :: c :: d :: t => BitVec.ofNat 32 (leNat [a, b, c, d]) :: wordsOf t
  | [] => []
  | t => [BitVec.ofNat 32 (leNat t)]

/-- The oldest outbound read leaves; a reset of its master ends with its last read (17 R430). -/
def State.outboundDone (s : State) (m : Nat) (rest : List (Nat × Nat × Nat)) : State :=
  let s := { s with pcie := { s.pcie with outstanding := rest } }
  if rest.any (·.1 = m) then s else s.wr (drainBit m) 0

/-- OUTBOUND_COMPLETION (18 R455): the oldest read completes, or the host answers UR or CA; the response to a master that was reset is
discarded (17 R430). [DESIGN CHOICE, log entry 39] -/
def execOutboundCompletion (ok : Bool) (data : List Byte) (s : State) : Res :=
  .next (match s.pcie.outstanding with
    | [] => s
    | (m, a, len) :: t =>
      let drains := s.is (drainBit m)
      let s := s.outboundDone m t
      if ok then (if drains then s else s.answer (wordsOf (data.take len))) else s.outboundError m a false)

/-- OUTBOUND_COMPLETION_TIMEOUT (18 R455): 10 ms without a completion. -/
def execOutboundCompletionTimeout (s : State) : Res :=
  .next (match s.pcie.outstanding with
    | [] => s
    | (m, a, _) :: t => (s.outboundDone m t).outboundError m a false)

/-! ## GPIO (R469 to R473) -/

def State.gpio (s : State) (i : Nat) : Gpio := Tab.get (fun _ => {}) s.gpios i
def State.setGpio (s : State) (i : Nat) (g : Gpio) : State := { s with gpios := Tab.set (fun _ => {}) s.gpios i g }

/-- The role of GPIOi: 0 unused, 1 input, 2 output, 3 event input. -/
def State.gpioRole (s : State) (i : Nat) : Nat := s.rd ⟨R.PAD_GPIO_ROLE, 2 * i, 2⟩
/-- The accepted level, 1 active, and the suppressed flag of GPIOi. -/
def gpioAccept (i : Nat) : FieldAt := bitAt R.PAD_GPIO_ACCEPT i
def gpioSuppressed (i : Nat) : FieldAt := bitAt R.PAD_GPIO_ACCEPT (16 + i)

/-- An input is suppressed while it is chattering or stuck (R472). -/
def State.setSuppressed (s : State) (i : Nat) : State :=
  let g := s.gpio i
  s.wr (gpioSuppressed i) (b2n (g.chattering || g.stuck))

/-- An edge to `active` is one that `edge` selects (R470, R479). -/
def State.edgeSelected (s : State) (i : Nat) (active : Bool) : Bool :=
  match s.rd ⟨R.PAD_GPIOi_COND i, 16, 2⟩ with
  | 0 => active
  | 1 => !active
  | _ => true

/-- An edge is reported: its event bit, and the level of the last reported edge. -/
def State.reportEdge (s : State) (i : Nat) (active : Bool) : State :=
  (s.raise (bitAt R.PAD_EV_EDGE i)).setGpio i { s.gpio i with reported := active }

/-- chat_win in samples of 10 µs (R479: 10 ms units, 0 acts as 1). -/
def State.chatWindow (s : State) (i : Nat) : Nat := max 1 (s.rd ⟨R.PAD_GPIOi_COND i, 0, 8⟩) * 1000

/-- A change is accepted (R470 to R472). [DEDUCED, log entry 84] -/
def State.acceptChange (s : State) (i : Nat) (active : Bool) : State :=
  let g := s.gpio i
  let win := s.chatWindow i
  let most := s.rd ⟨R.PAD_GPIOi_COND i, 8, 7⟩
  let changes := g.samples :: g.changes.filter fun t => decide (g.samples ≤ t + win)
  let enters := decide (most ≠ 0) && decide (most ≤ changes.length) && !g.chattering
  let g := { g with differs := 0, changes := changes.take 128, chattering := g.chattering || enters, stuck := g.stuck && active,
                    since := g.samples }
  let s := (s.setGpio i g).wr (gpioAccept i) (b2n active)
  let s := s.bump (lowHalf (R.PAD_GPIOi_COUNT i))
  let s := if enters then (s.raise (bitAt R.PAD_EV_CHAT i)).report (160 + i) i 1 else s
  let s := s.setSuppressed i
  if g.chattering || g.stuck then s.bump (highHalf (R.PAD_GPIOi_COUNT i))
  else if s.edgeSelected i active then s.reportEdge i active else s

/-- GPIO_SAMPLE (18 R470): every 10 µs. [DEDUCED, log entry 84] -/
def execGpioSample (i : Fin 16) (level : Bool) (s : State) : Res :=
  .next (let role := s.gpioRole i
    if role = 0 then s else
    let s := s.wr (bitAt R.PAD_GPIO_IN i) (b2n level)
    if role ≠ 3 then s else
    let active := level != s.is ⟨R.PAD_GPIOi_COND i, 15, 1⟩
    let g := s.gpio i
    let g := { g with samples := g.samples + 1 }
    if active = s.is (gpioAccept i) then s.setGpio i { g with differs := 0 }
    else
      let s := s.setGpio i { g with differs := g.differs + 1 }
      if s.rd ⟨R.PAD_GPIOi_COND i, 20, 12⟩ < g.differs + 1 then s.acceptChange i active else s)

/-- GPIO_CHATTER_END (18 R471): a whole chat_win without an accepted change. -/
def execGpioChatterEnd (i : Fin 16) (s : State) : Res :=
  .next (let g := s.gpio i
    if !g.chattering ∨ g.samples < g.since + s.chatWindow i then s else
    let s := (s.setGpio i { g with chattering := false, changes := [] }).setSuppressed i
    let active := s.is (gpioAccept i)
    if active ≠ g.reported ∧ !g.stuck then s.reportEdge i active else s)

/-- GPIO_STUCK (18 R472): the accepted level has been active for stuck × 10 ms. -/
def execGpioStuck (i : Fin 16) (s : State) : Res :=
  .next (let g := s.gpio i
    let limit := s.rd (lowHalf (R.PAD_GPIOi_STUCK i)) * 1000
    if s.gpioRole i = 3 ∧ limit ≠ 0 ∧ g.since + limit ≤ g.samples ∧ s.is (gpioAccept i) ∧ !g.stuck then
      let s := (s.setGpio i { g with stuck := true }).setSuppressed i
      (s.raise (bitAt R.PAD_EV_STUCK i)).report (160 + i) i 1
    else s)

/-! ## I²C and MDIO (R475, R476) -/

def State.setSvc (s : State) (v : Svc) : State := { s with svc := v }
def svcI2cBusy : FieldAt := ⟨R.SVC_STATUS, 1, 1⟩
/-- Event i of SVC_INT_STATUS: 4 mdio_done, 3 i2c_nak, 2 i2c_done, 1 SPI error, 0 SPI write performed (R480). -/
def svcEvent (i : Nat) : FieldAt := bitAt R.SVC_INT_STATUS i

/-- The FIFO and its fill in SVC_STATUS. -/
def State.setFifo (s : State) (f : List Byte) : State := (s.setSvc { s.svc with fifo := f }).wr ⟨R.SVC_STATUS, 8, 6⟩ f.length

/-- I2C_COMMAND (18 R475): a write of SVC_I2C_CMD; a start while busy is ignored. A read with sub first sends the first FIFO byte. -/
def execI2cCommand (value : Word) (s : State) : Res :=
  .next (if value.getLsbD 31 ∧ s.is svcI2cBusy then s else
    let s := (s.sw ⟨R.SVC_I2C_CMD, 0, 6⟩ (getBits value 0 6)).sw ⟨R.SVC_I2C_CMD, 8, 2⟩ (getBits value 8 2)
    let s := s.sw ⟨R.SVC_I2C_CMD, 16, 7⟩ (getBits value 16 7)
    if !value.getLsbD 31 then s else
    let count := min 32 (getBits value 0 6 + 1)
    let read := value.getLsbD 8
    let sent := if read then (if value.getLsbD 9 then s.svc.fifo.take 1 else []) else s.svc.fifo.take count
    let s := (s.setFifo (s.svc.fifo.drop sent.length)).wr svcI2cBusy 1
    (s.setSvc { s.svc with i2c := some value }).emit (.i2c (getBits value 16 7) read sent count))

/-- I2C_COMMAND_END (18 R475): completed, or ended by a NAK or by stretching beyond 10 ms. -/
def execI2cCommandEnd (nak : Bool) (data : List Byte) (s : State) : Res :=
  .next (match s.svc.i2c with
    | none => s
    | some cmd =>
      let s := (s.setSvc { s.svc with i2c := none }).wr svcI2cBusy 0
      if nak then s.raise (svcEvent 3)
      else
        let s := if cmd.getLsbD 8 then s.setFifo ((s.svc.fifo ++ data.take (min 32 (getBits cmd 0 6 + 1))).take 32) else s
        s.raise (svcEvent 2))

/-- MDIO_COMMAND (18 R476): a write of SVC_MDIO_CMD; with start it runs one frame, whose read data come from the bus. [DESIGN CHOICE, log entry 15] -/
def execMdioCommand (value : Word) (data : BitVec 16) (s : State) : Res :=
  .next (let s := s.sw ⟨R.SVC_MDIO_CMD, 0, 31⟩ (getBits value 0 31)
    if !value.getLsbD 31 then s else
    let op := getBits value 26 2
    let reads := if value.getLsbD 30 then op = 3 else op = 2
    let s := s.emit (.mdio value)
    (if reads then s.wr (lowHalf R.SVC_MDIO_DATA) data.toNat else s).raise (svcEvent 4))

end Sys2Proof.Machine
end

