-- ==== Sys2Proof/Machine/Mem.lean ====
section
/-!
DEFINITION. The targets of the bus matrix that are memory (17 R420, R422): DRAM (16 R406, R407), shared sample memory and host memory. Each
access leaves its response in `State.reply` (17 R425).
-/
namespace Sys2Proof.Machine

/-- The base and the largest size of the DRAM window (18 R449). -/
def dramBase : Nat := 0x100000000
def ssmBase : Nat := 0x30000000
def hostBase : Nat := 0x8000000000

/-- The target of an address (17 R420; 18 R449); 7 where there is none. -/
def targetOf (a : Nat) : Nat :=
  if a < 0x1C0000 then 4
  else if 0x10000000 ≤ a ∧ a < 0x10880000 then 3
  else if 0x20000000 ≤ a ∧ a < 0x20800000 then 2
  else if ssmBase ≤ a ∧ a < ssmBase + 0x800000 then 1
  else if dramBase ≤ a ∧ a < dramBase + 14 * 2 ^ 30 then 0
  else if hostBase ≤ a ∧ a < 2 ^ 40 then 5
  else 7

/-- The masters that reach a target (17 R420). -/
def reaches (m t : Nat) : Bool :=
  match m with
  | 0 => t == 0
  | 1 => t == 1
  | 2 | 5 => decide (t < 6)
  | 3 | 4 => decide (t < 5)
  | 6 => decide (t < 4)
  | _ => t == 0 || t == 4

/-- The bytes `[a, a + n)` meet the image shadow, or the new image's bytes while a replacement runs (03 R85; 21 R536). -/
def State.shielded (s : State) (a n : Nat) : Bool :=
  let base := s.wide R.CFG_SHADOW_BASE_LO R.CFG_SHADOW_BASE_HI
  let src := s.wide R.GLB_REPL_SRC_LO R.GLB_REPL_SRC_HI
  (decide (a < base + s.cfg.shadowLen) && decide (base < a + n))
    || s.glb.newImage.any fun i => decide (a < src + i.bytes.length) && decide (src < a + n)

/-- An okay response with its data. -/
def State.answerBytes (s : State) (bytes : List Byte) : State × List Byte := (s.answer (wordsOf bytes), bytes)

/-- A read that completes at the default target returns zeros. -/
def State.readFails (s : State) (m a n t cause : Nat) : State × List Byte :=
  ((s.defaultTarget m a t false cause).answer (wordsOf (List.replicate n 0)) .defaultTarget, List.replicate n 0)

/-- A read of DRAM (16 R406, R407; 03 R85): the words of a block with an uncorrectable error read as zero, with a data error. [DEDUCED, log entry 11; DEDUCED, log entry 20] -/
def State.dramRead (s : State) (m a n : Nat) : State × List Byte :=
  let off := a - dramBase
  if s.dramSize < off + n then s.readFails m a n 0 causeBeyondDram
  else if m = 4 ∧ s.shielded a n ∧ !s.glb.fuses.shadowRead then s.readFails m a n 0 causeRefused
  else
    let s := s.dmcAccess false off n
    let bytes := (List.range n).map fun i => if s.dmc.bad.contains ((off + i) / 64) then 0 else s.dramByte (off + i)
    if (List.range n).any fun i => s.dmc.bad.contains ((off + i) / 64) then (s.dataError (wordsOf bytes), bytes)
    else s.answerBytes bytes

/-- Put the bytes whose enables are set. -/
def State.putDram (s : State) (off : Nat) : List (Option Byte) → State
  | [] => s
  | some b :: t => (s.setDramByte off b).putDram (off + 1) t
  | none :: t => s.putDram (off + 1) t

def State.putSsm (s : State) (off : Nat) : List (Option Byte) → State
  | [] => s
  | some b :: t => (s.setSsmByte off b).putSsm (off + 1) t
  | none :: t => s.putSsm (off + 1) t

/-- Whole blocks written: an uncorrectable error in them ends with the new data (16 R407). -/
def wholeBlocks (off n : Nat) : List Nat :=
  (List.range (ceilDiv (off % 64 + n) 64)).filterMap fun i =>
    let b := off / 64 + i
    if off ≤ b * 64 ∧ b * 64 + 64 ≤ off + n then some b else none

/-- A write of DRAM (16 R406, R407; 03 R85), refused in the shadow to every master but the loader. [DEDUCED, log entry 11] -/
def State.dramWrite (s : State) (m a : Nat) (bytes : List (Option Byte)) : State :=
  let off := a - dramBase
  if s.dramSize < off + bytes.length then s.defaultTarget m a 0 true causeBeyondDram
  else if m ≠ 3 ∧ s.shielded a bytes.length then s.defaultTarget m a 0 true causeRefused
  else
    let s := (s.dmcAccess true off bytes.length).putDram off bytes
    let whole := if bytes.all (·.isSome) then wholeBlocks off bytes.length else []
    (s.setDmc { s.dmc with bad := s.dmc.bad.filter fun b => !whole.contains b }).answer []

/-- A read of shared sample memory. -/
def State.ssmRead (s : State) (a n : Nat) : State × List Byte := s.answerBytes (s.ssmBytes (a - ssmBase) n)

/-- A write of shared sample memory. -/
def State.ssmWrite (s : State) (a : Nat) (bytes : List (Option Byte)) : State := (s.putSsm (a - ssmBase) bytes).answer []

/-- A write to host memory is passed to the transaction layer (18 R455). -/
def State.hostPut (s : State) (m a : Nat) (bytes : List Byte) : State :=
  if s.outboundOpen then (s.emit (.hostWrite (s.hostAddr a) bytes)).answer [] else s.outboundError m a true

/-- A read of host memory whose completion carries `data`, or fails (18 R455). -/
def State.hostGet (s : State) (m a n : Nat) (data : Option (List Byte)) : State × List Byte :=
  match s.outboundOpen, data with
  | true, some d => (s.emit (.hostRead (s.hostAddr a) n)).answerBytes ((d ++ List.replicate n 0).take n)
  | _, _ => ((s.outboundError m a false).answer (wordsOf (List.replicate n 0)) .defaultTarget, List.replicate n 0)

end Sys2Proof.Machine
end

