-- ==== Sys2Proof/Machine/CfgReq.lean ====
section
/-!
DEFINITION. Mode requests and the start of a staging (03 R94 to R105; 20 R504), a push (21 R529) and the resets (21 R523, R525): what a write of
a CFG or GLB register does. Machine/Take.lean holds the takes, Machine/Boot.lean the loader.
-/
namespace Sys2Proof.Machine

def State.setCfg (s : State) (c : Cfg) : State := { s with cfg := c }
def State.setGlb (s : State) (g : Glb) : State := { s with glb := g }

/-! ## Mode sets -/

/-- The set of bits of a 12-bit number. -/
def modeBit (m : Nat) : BitVec 12 := BitVec.ofNat 12 (2 ^ m)
def hasMode (v : BitVec 12) (m : Nat) : Bool := v.getLsbD m

/-- The modes whose overlays are staged, the group's SOLO apart (03 R100). -/
def stagedModes : List Nat := [3, 4, 5, 6, 7, 9, 10]

def State.held (s : State) : BitVec 12 := (s.reg R.CFG_MODE_HELD).setWidth 12
def State.modeReq (s : State) : BitVec 12 := (s.reg R.CFG_MODE_REQ).setWidth 12
/-- The device holds ACTIVE or STANDBY. -/
def State.inPair (s : State) : Bool := s.holds 1 || s.holds 2

def State.needsLeave (s : State) (m : Nat) : Bool := match s.overlay m with | some o => o.needsLeave | none => false

/-- The group member of a pair (03 R101; 15 R387): ACTIVE for the keeper, else STANDBY. -/
def State.pairMember (s : State) : BitVec 12 := if s.fovState = 3 then modeBit 1 else modeBit 2

/-- The group request in force (03 R101): SOLO, or the pair. -/
def State.wantsSolo (s : State) : Bool := hasMode s.modeReq 0

/-- The staged modes and the group side that `req` asks for: the group side as bit 0 (SOLO) or bit 2 (the pair). -/
def stagedPart (v : BitVec 12) : BitVec 12 :=
  (v &&& 0x6F8) ||| (if hasMode v 0 then 1 else if hasMode v 1 || hasMode v 2 then 4 else 0)

/-- The pending mode set: the staged modes requested, the group side requested, and the resident modes as they are held. -/
def State.wantedSet (s : State) : BitVec 12 :=
  (s.modeReq &&& 0x6F8) ||| (s.held &&& 0x900) ||| (if s.wantsSolo then 1 else if s.inPair then s.held &&& 6 else 4)

/-! ## The sequencer (03 R94 to R98) -/

def seqIdle : Nat := 0
def seqStaging : Nat := 1
def seqLeave : Nat := 2
def seqArmed : Nat := 3
def State.seq (s : State) : Nat := s.rd R.CFG_STATUS_seq
def State.setSeq (s : State) (k : Nat) : State := s.wr R.CFG_STATUS_seq k

/-- The leave an armed take that is being replaced still holds (R97). -/
def State.priorLeave (s : State) : Nat := match s.cfg.prior with | some p => p.leave | none => 0

/-- An output that has begun to fade for a boundary that is called off comes back from the weight it has reached. [DEDUCED, log entry 49] -/
def Fade.back : Fade → Fade
  | .none => .none
  | .out j => .into (30 - j)
  | .zero => .into 0
  | .into j => .into j

/-- Domains whose tick length the pending take was to change count on as before; an output that has begun to fade comes back (02 R52). [DEDUCED, log entry 49] -/
def State.cancelB (s : State) : State :=
  [0, 1, 2].foldl (fun s x =>
    let d := s.dom x
    if d.pendingB.isNone then s else s.setDom x { d with pendingB := none, fade := d.fade.back })
    (s.setCfg { s.cfg with point := none, points := [] })

/-- Egress paths whose latency the pending take was to change keep it; an output that has begun to fade comes back after its zero (03 R99; 02
R51). -/
def State.cancelPaths (s : State) : State :=
  (s.locksWhere fun q => q.refade.isSome).foldl (fun s l => match s.lock l with
    | some q =>
      let d := s.dom q.spec.domain
      let n := d.sample.toNat
      match q.refade with
      | some (t, none) => s.setLock l { q with refade := if t ≤ n + 32 then some (t, some (max t (n + 1) - (2 * d.b + 2))) else none }
      | _ => s
    | none => s) s

/-- What staging marked of the blocks is free again (04 R111; 07 R214). -/
def State.stagingFree (s : State) : State :=
  let s := { s with basin := { s.basin with staging := false }, flc := { s.flc with staging := false } }
  (List.range 34).foldl (fun s n => if (s.eng n).stagingPage then s.setEng n { s.eng n with stagingPage := false } else s) s

/-- Discard the staging that runs: its request or grant returns, and what it marked is free; an armed take that it was to replace stays. -/
def State.dropStaging (s : State) : State :=
  let s := (s.setCfg { s.cfg with pendingSet := s.held, staged := false, stageContents := [], needLeave := false }).setSeq seqIdle
  let s := (s.stagingFree.weirWithdraw 3).cancelB.cancelPaths
  s.setRequester 3 { s.requester 3 with grant := s.priorLeave }

/-- Discard a staging and any armed take: every grant of the sequencer's change returns, the pending set is the held set (03 R97, R98; 20 R504). -/
def State.discardStaging (s : State) : State := (s.setCfg { s.cfg with prior := none }).dropStaging

/-- The sequencer stages the change to `set` (03 R94): it marks the shadow stores it writes, and asks for leave where an added overlay
needs it. The idle page of an engine whose program it writes is marked until the take or the discard: external writes of it are dropped for as
long. [DEDUCED, log entry 60; DESIGN CHOICE, log entry 106] -/
def State.startStaging (s : State) (set : BitVec 12) : State :=
  let added := (List.range 12).filter fun m => hasMode set m && !s.holds m
  let leave := added.filter s.needsLeave
  let reps := (List.range 12).flatMap fun m => if (hasMode set m != s.holds m) then (s.overlay m).elim [] (·.replaces) else []
  let s := (s.setCfg { s.cfg with pendingSet := set, staged := false, stageContents := [], needLeave := !leave.isEmpty }).setSeq seqStaging
  let s := reps.foldl (fun s r =>
    if r.kind = 5 then s.setEng (s.carrier r.inst) { s.eng (s.carrier r.inst) with stagingPage := true }
    else if r.kind = 9 then { s with basin := { s.basin with staging := true } }
    else if r.kind = 10 then { s with flc := { s.flc with staging := true } }
    else s) s
  if leave.isEmpty then s else s.weirRequest 3 (leave.map s.modeCost).sum

/-- An armed take stays beside the staging that replaces it until that staging is complete (R97). [DEDUCED, log entry 56] -/
def State.keepPrior (s : State) : State :=
  s.setCfg { s.cfg with prior := some ⟨s.cfg.pendingSet, s.cfg.stageContents, (s.requester 3).grant⟩ }

/-- The request for staged modes has changed: the staging is discarded and a new one starts at once, unless the held set is what is asked
for (03 R97). [DEDUCED, log entry 56] -/
def State.restage (s : State) : State :=
  let want := s.wantedSet
  if stagedPart want = stagedPart s.cfg.pendingSet ∧ (s.seq ≠ seqIdle ∨ stagedPart want = stagedPart s.held) then s
  else if stagedPart want = stagedPart s.held then s.discardStaging
  else if s.seq = seqArmed then s.keepPrior.startStaging want
  else (if s.seq = seqIdle then s else s.dropStaging).startStaging want

/-- TAKE_ABORT's action (03 R106): staging and an armed take are discarded; master 3 is reset (17 R430). -/
def State.abortTake (s : State) : State :=
  if s.seq = seqIdle then s.resetMaster 3 else (s.discardStaging).resetMaster 3

/-! ## Requests (03 R101, R102, R104, R105) -/

/-- Record refused modes (CFG_REFUSED). -/
def State.refuseModes (s : State) (v : BitVec 12) : State :=
  if v = 0 then s else (s.setReg R.CFG_REFUSED (s.reg R.CFG_REFUSED ||| v.setWidth 32)).raise R.CFG_INT_STATUS_refused

/-- The requested modes that R90 and R104 refuse. A mode already requested is not requested anew. -/
def State.refusals (s : State) (v : BitVec 12) : BitVec 12 :=
  let absent := (List.range 12).foldl (fun r m =>
    if hasMode v m && !hasMode s.modeReq m && s.modeAbsent m then r ||| modeBit m else r) 0
  let lead := hasMode v 6 && (s.holds 7 || (hasMode v 7 && !s.holds 6))
  let member := hasMode v 7 && s.holds 6
  -- the pair is entered as STANDBY
  let side := if (hasMode v 1 || hasMode v 2) && s.wantsSolo && s.modeAbsent 2 then v &&& 6 else 0
  absent ||| side ||| (if lead then modeBit 6 else 0) ||| (if member then modeBit 7 else 0)

/-- Staged modes whose request would change while their overlay's basin gains find no free bank: a crossfade or a copy runs (06 R177). -/
def State.basinRefusals (s : State) (v : BitVec 12) : BitVec 12 :=
  if s.basin.now.fade.isNone && !s.is R.MTX_STATUS_copy_busy then 0
  else stagedModes.foldl (fun r m =>
    if hasMode v m != hasMode s.modeReq m && (s.overlay m).any (fun o => o.replaces.any fun p => p.kind = 9) then r ||| modeBit m else r) 0

/-- The group bits a request leaves in CFG_MODE_REQ: its own, or the old ones where it asks for no one side (03 R101) or for an absent
overlay. -/
def State.groupRequest (s : State) (v refused : BitVec 12) : BitVec 12 :=
  let solo := hasMode v 0
  let pair := hasMode v 1 || hasMode v 2
  if solo == pair || (v &&& refused &&& 7) != 0 then s.modeReq &&& 7 else v &&& 7

/-- A replacement runs (21 R538, R539). -/
def State.replacing (s : State) : Bool := s.rd R.GLB_REPL_STATUS_state != 0

/-- A write of CFG_MODE_REQ: the bit of a refused mode is not stored [DESIGN CHOICE, log entry 107] (03 R97, R101, R104; 06 R177; 15 R390; 21 R538). -/
def State.requestModes (s : State) (v : Word) : State :=
  let v : BitVec 12 := v.setWidth 12
  if s.replacing then s.refuseModes (v ^^^ s.modeReq)
  else
    -- a keeper enters SOLO only where its peer is sole-absent (15 R390)
    let keeps := hasMode v 0 && !s.wantsSolo && s.rd R.FOV_STATUS_state == 3 && !s.is R.FOV_STATUS_sole
    let v := if keeps then (v &&& 0xFF8) ||| (s.modeReq &&& 7) else v
    let busy := s.basinRefusals v
    let v := (v &&& ~~~busy) ||| (s.modeReq &&& busy)
    let refused := s.refusals v
    let g := s.groupRequest v refused
    let group := (hasMode v 0) == (hasMode v 1 || hasMode v 2) || keeps
    let s := s.refuseModes (refused ||| busy)
    let s := if group then (s.raise R.CFG_REFUSED_group).raise R.CFG_INT_STATUS_refused else s
    let req : BitVec 12 := ((v &&& ~~~refused) &&& 0xFF8) ||| g
    (s.sw ⟨R.CFG_MODE_REQ, 0, 12⟩ req.toNat).restage

/-- MODE_REQUEST_WRITE (03 R97, R101, R104). -/
def execModeRequestWrite (value : Word) (s : State) : Res := .next ((s.requestModes value).answer [])

/-- HARDWARE_MODE_REQUEST (03 R102): SAFE by the fault collector, HOLDOVER by CLK where CFG_HWREQ_EN lets it; no other mode has a hardware
source but those of the lease logic. -/
def execHardwareModeRequest (mode : Fin 12) (on : Bool) (s : State) : Res :=
  .next (let m := mode.val
    if m = 11 ∨ (m = 8 ∧ (s.is R.CFG_HWREQ_EN_holdover ∨ !on)) ∨ ((m = 1 ∨ m = 2) ∧ s.inPair) then s.hwMode m on else s)

/-- TAKE_ABORT (03 R106). -/
def execTakeAbort (s : State) : Res := .next (s.abortTake.answer [])

/-! ## Host push (21 R529) -/

/-- A write of GLB_PUSH: refused with code 0x27 for a bad length; else the chunk is handed to the loader. [DESIGN CHOICE, log entry 14] -/
def State.writePush (s : State) (v : Word) : State :=
  if s.rd R.GLB_BOOT_STATUS_state ≠ 8 ∧ s.rd ⟨R.GLB_STRAP, 0, 2⟩ ≠ 1 ∨ s.running then s
  else
    let n := getBits v 0 23
    if n = 0 ∨ 0x400000 < n then (s.wr R.GLB_BOOT_STATUS_code 0x27).raise R.GLB_INT_STATUS_push_ready
    else s.setGlb { s.glb with chunk := some (n, v.getLsbD 31) }

/-- PUSH_CHUNK_TAKEN (21 R529): the chunk lies in shared sample memory from offset 0. -/
def execPushChunkTaken (s : State) : Res :=
  .next (match s.glb.chunk with
    | none => s
    | some (n, last) =>
      let old := if s.glb.pushLast then [] else s.glb.pushed
      (s.setGlb { s.glb with pushed := old ++ s.ssmBytes 0 n, pushLast := last, chunk := none }).raise R.GLB_INT_STATUS_push_ready)

/-- HOST_PUSH_CHUNK (21 R529). [DESIGN CHOICE, log entry 14] -/
def execHostPushChunk (length : Nat) (last : Bool) (s : State) : Res :=
  .next ((s.writePush (BitVec.ofNat 32 (length % 2 ^ 23 + b2n last * 2 ^ 31))).answer [])

/-! ## Resets (21 R523 to R527) -/

/-- The state a boot begins in, by BOOT[1:0] (R526, R527). -/
def bootState (boot : Nat) : Nat := match boot with | 1 => 8 | 3 => 7 | _ => 0

/-- The balls that a reset moves (R525). -/
def State.resetBalls (s : State) (t : State) : State :=
  let t := if s.is R.FLT_STATUS_err_n then t.emit (.errN false) else t
  let t := if s.evt.irq0 then t.emit (.irqPin 0 false) else t
  let t := if s.evt.irq1 then t.emit (.irqPin 1 false) else t
  let t := if s.fenced then t else t.emit (.fenceN true)
  let t := if s.fov.leaseOut then t.emit (.leaseOut false) else t
  if s.is R.CLK_STATUS_clk_ok then t.emit (.clkOk false) else t

/-- A reset with a cause: straps and fuses as given. The queue, the cycle count and the record of what has left the device are the
model's own and stay. [DESIGN CHOICE, log entry 12] -/
def State.resetWith (s : State) (strap : Word) (fuses : Fuses) (cause : Nat) : State :=
  let t : State := { State.reset with pending := s.pending, now := s.now, freeCount := s.freeCount, outbox := s.outbox, reply := s.reply }
  let t := ((t.setReg R.GLB_STRAP strap).setReg R.GLB_RESET_CAUSE (BitVec.ofNat 32 cause)).setReg R.NRX_ID (BitVec.ofNat 32 (getBits strap 2 3))
  -- FOV_CTRL.side takes the level of DEVID[0] (15 R388, R402)
  let t := t.wr R.FOV_CTRL_side (getBits strap 2 1)
  let t := (t.setGlb { t.glb with fuses := fuses }).wr R.GLB_BOOT_STATUS_state (bootState (getBits strap 0 2))
  s.resetBalls t

/-- POWER_ON_RESET (21 R523, R524). [DESIGN CHOICE, log entry 12] -/
def execPowerOnReset (boot : Fin 4) (devid : Fin 8) (fuses : Fuses) (s : State) : Res :=
  .next (s.resetWith (BitVec.ofNat 32 (devid.val * 4 + boot.val)) fuses 1)

/-- A device reset keeps straps and fuses (21 R523). [DESIGN CHOICE, log entry 12] -/
def State.deviceReset (s : State) (cause : Nat) : State := s.resetWith (s.reg R.GLB_STRAP) s.glb.fuses cause

/-- DEVICE_RESET (21 R523): RST_N. [DESIGN CHOICE, log entry 12] -/
def execDeviceReset (s : State) : Res := .next (s.deviceReset 2)

/-- A write of GLB_RST: the key starts a device reset, any other value is ignored (21 R523). -/
def State.writeRst (s : State) (v : Word) : State := if v = 0x5A5A0001 then s.deviceReset 4 else s

/-- GLB_RST_WRITE (21 R523). -/
def execGlbRstWrite (value : Word) (s : State) : Res := .next ((s.writeRst value).answer [])

/-! ## The end of a replacement's staging (21 R538) -/

/-- Discard a replacement: grants return, the image's bytes are no longer protected. -/
def State.abortReplacement (s : State) : State :=
  if !s.replacing then s else ((s.setGlb { s.glb with newImage := none }).wr R.GLB_REPL_STATUS_state 0).weirDrop 3 |>.cancelB.cancelPaths

/-- IMAGE_REPLACEMENT_ABORT (21 R538). -/
def execImageReplacementAbort (s : State) : Res := .next (s.abortReplacement.answer [])

/-- The boundary of the take domain that a sample number names, rounded up (R95). -/
def State.takeBoundary (s : State) (n : Nat) : Nat :=
  let b := (s.dom s.takeDom).b
  ceilDiv n b * b

/-- CFG_TAKE_AT, where CFG_TAKE_CTRL.at_en asks for it. -/
def State.cfgTakeAt (s : State) : Option Nat :=
  if s.is R.CFG_TAKE_CTRL_at_en then some (s.takeBoundary (s.wide R.CFG_TAKE_AT_LO R.CFG_TAKE_AT_HI)) else none

/-- GLB_REPL_AT, where GLB_REPL_CTRL.at_en asks for it (21 R536). -/
def State.replTakeAt (s : State) : Option Nat :=
  if s.is R.GLB_REPL_CTRL_at_en then some (s.takeBoundary (s.wide R.GLB_REPL_AT_LO R.GLB_REPL_AT_HI)) else none

/-- A take not armed by the sample before the boundary it is to come at, or an armed one whose boundary has passed, is late (R95). [DEDUCED, log entry 60] -/
def State.missesPoint (s : State) (armed : Bool) (at_ : Option Nat) : Bool :=
  let n := (s.dom s.takeDom).sample.toNat
  at_.any fun t => if armed then decide (t < n) && s.cfg.point.isNone else decide (t ≤ n + 1)

/-- TAKE_REFUSED_LATE (03 R95; 21 R536): not armed 1 µs before the boundary of CFG_TAKE_AT, or of GLB_REPL_AT for a replacement. -/
def execTakeRefusedLate (s : State) : Res :=
  .next (if s.seq ≠ seqIdle ∧ s.missesPoint (s.seq == seqArmed) s.cfgTakeAt then s.discardStaging.raise R.CFG_INT_STATUS_late
    else if s.replacing ∧ s.missesPoint (s.rd R.GLB_REPL_STATUS_state == 4) s.replTakeAt then s.abortReplacement.raise R.GLB_INT_STATUS_repl_late
    else s)

end Sys2Proof.Machine
end

