-- ==== Sys2Proof/Machine/DmaRegs.lean ====
section
/-!
DEFINITION. DMA rings and the states of a channel (17 R431 to R435, R442 to R445): what a write of a channel's registers does, and how a
descriptor completes. Machine/Dma.lean moves the data.
-/
namespace Sys2Proof.Machine

def State.chan (s : State) (c : Nat) : DmaChannel := Tab.get (fun _ => {}) s.dma c
def State.setChan (s : State) (c : Nat) (d : DmaChannel) : State := { s with dma := Tab.set (fun _ => {}) s.dma c d }

/-- DMA_CHc_STATUS.state: 0 stopped, 1 waiting, 2 running, 3 draining, 4 paused (R448). -/
def State.dmaState (s : State) (c : Nat) : Nat := s.rd (R.DMA_CHc_STATUS_state c)
def State.setDmaState (s : State) (c k : Nat) : State := s.wr (R.DMA_CHc_STATUS_state c) k
def State.dmaMode (s : State) (c : Nat) : Nat := s.rd (R.DMA_CHc_CFG_mode c)
def State.dmaUsed (s : State) (c : Nat) : Bool := s.is (R.DMA_CHc_CFG_used c)
/-- The channel's bus master: 2 for a foreground channel, else 5 (R420). -/
def State.dmaMaster (s : State) (c : Nat) : Nat := if s.is (R.DMA_CHc_CFG_fg c) then 2 else 5

/-! ## Rings (R432) -/

def swIdx (c : Nat) : FieldAt := ⟨R.DMA_CHc_SW_IDX c, 0, 16⟩
def hwIdx (c : Nat) : FieldAt := ⟨R.DMA_CHc_HW_IDX c, 0, 16⟩

/-- k of RING_HI; values outside 1 to 12 act as 1 (R448). -/
def State.ringLog (s : State) (c : Nat) : Nat :=
  let k := s.rd ⟨R.DMA_CHc_RING_HI c, 16, 4⟩
  if 1 ≤ k ∧ k ≤ 12 then k else 1

/-- The address of the descriptor of counter value `i`. -/
def State.entryAddr (s : State) (c i : Nat) : Nat :=
  s.rd ⟨R.DMA_CHc_RING_LO c, 5, 27⟩ * 32 + s.rd ⟨R.DMA_CHc_RING_HI c, 0, 8⟩ * 2 ^ 32 + i % 2 ^ s.ringLog c * 32

/-- The descriptors given to hardware. -/
def State.given (s : State) (c : Nat) : Nat := (s.rd (swIdx c) + 2 ^ 16 - s.rd (hwIdx c)) % 2 ^ 16

/-- A ring lies in DRAM, SSM or HM (R432); an access elsewhere ends at the default target. -/
def State.ringRead (s : State) (c a : Nat) (host : Option (List Byte)) : State × List Byte :=
  let m := s.dmaMaster c
  match targetOf a with
  | 0 => s.dramRead m a 32
  | 1 => s.ssmRead a 32
  | 5 => s.hostGet m a 32 host
  | t => s.readFails m a 32 t causeUnreachable

def State.ringWrite (s : State) (c a : Nat) (bytes : List Byte) : State :=
  let m := s.dmaMaster c
  match targetOf a with
  | 0 => s.dramWrite m a (bytes.map some)
  | 1 => s.ssmWrite a (bytes.map some)
  | 5 => s.hostPut m a bytes
  | t => s.defaultTarget m a t true causeUnreachable

/-! ## Descriptors (R433) -/

def descWord (d : List Word) (i : Nat) : Word := d.getD i 0
def descOwn (d : List Word) : Bool := (descWord d 0).getLsbD 31
def descIrq (d : List Word) : Bool := (descWord d 0).getLsbD 30
def descEop (d : List Word) : Bool := (descWord d 0).getLsbD 28
def descKind (d : List Word) : Nat := getBits (descWord d 0) 24 4
def descLen (d : List Word) : Nat := getBits (descWord d 0) 0 24
def descSrc (d : List Word) : Nat := (descWord d 1).toNat + getBits (descWord d 3) 0 8 * 2 ^ 32
def descDst (d : List Word) : Nat := (descWord d 2).toNat + getBits (descWord d 3) 8 8 * 2 ^ 32

/-- An event of a channel and its fault: source 128 + c, the bit number as code (19 R481). -/
def State.dmaEvent (s : State) (c code level : Nat) : State :=
  (s.raise (bitAt (R.DMA_CHc_INT_STATUS c) code)).report (128 + c) code level

/-- The channel has stopped: what it had read ahead is read again when it starts (R443, R444). -/
def State.dmaStops (s : State) (c : Nat) : State :=
  ((s.setChan c { s.chan c with fetched := [], moved := 0, frame := [], macWords := none, taken := none, zero := false }).setDmaState c 0).raise
    (R.DMA_CHc_INT_STATUS_stopped c)

/-- The words of completion: 6 and 7, then word 0 with own = 0 and, in frame-rx, eop as the frame gives it (R435, R440). -/
def completedWords (d : List Word) (code moved info : Nat) (eop : Option Bool) : List Byte × List Byte :=
  let err := b2n (code ≠ 0)
  let status := 2 ^ 31 + err * 2 ^ 30 + code * 2 ^ 24 + moved % 2 ^ 24
  let w0 := putBits (descWord d 0) 31 1 0
  let w0 := match eop with | some b => putBits w0 28 1 (b2n b) | none => w0
  (leBytes 4 w0.toNat, leBytes 4 info ++ leBytes 4 status)

/-- The events of a completion at counter value `i` (R442). -/
def State.completionEvents (s : State) (c i : Nat) (irq : Bool) : State :=
  let k := s.ringLog c
  let entry := i % 2 ^ k
  let s := if irq then s.raise (R.DMA_CHc_INT_STATUS_done c) else s
  let s := if entry + 1 = 2 ^ (k - 1) then s.raise (R.DMA_CHc_INT_STATUS_half c) else s
  let s := if entry + 1 = 2 ^ k then s.raise (R.DMA_CHc_INT_STATUS_full c) else s
  if s.given c = 0 ∧ (s.dmaMode c = 0 ∨ s.dmaMode c = 3) then s.raise (R.DMA_CHc_INT_STATUS_empty c) else s

/-- A descriptor completes (R435, R437): write-back, own cleared, HW_IDX advanced, events set; an error is recorded, counted and reported. -/
def State.completeDesc (s : State) (c code moved info : Nat) (eop : Option Bool) : State :=
  match (s.chan c).fetched with
  | [] => s
  | d :: rest =>
    let i := s.rd (hwIdx c)
    let a := s.entryAddr c i
    let (w0, w67) := completedWords d code moved info eop
    let s := (s.ringWrite c (a + 24) w67).ringWrite c a w0
    let s := (s.wr (hwIdx c) (i + 1)).setChan c { s.chan c with fetched := rest, moved := 0, taken := none, zero := false }
    let s := s.completionEvents c i (descIrq d)
    let s := if code = 0 then s else
      let s := s.setReg (R.DMA_CHc_LAST_ERR c) (BitVec.ofNat 32 (i * 2 ^ 16 + code))
      (s.bump (lowHalf (R.DMA_CHc_COUNT1 c))).dmaEvent c 5 0
    if s.dmaState c = 3 then s.dmaStops c
    else if rest = [] ∧ s.dmaState c = 2 then s.setDmaState c 1 else s

/-- The channel has begun the descriptor at its head (R443). -/
def State.inProgress (s : State) (c : Nat) : Bool :=
  let d := s.chan c
  match s.dmaMode c with
  | 0 | 3 => !d.fetched.isEmpty
  | 1 | 2 => decide (0 < d.moved)
  | _ => d.taken.isSome

/-! ## Writes of a channel's registers -/

/-- A write of SW_IDX (R432, R434). -/
def State.writeSwIdx (s : State) (c v : Nat) : State :=
  if 2 ^ s.ringLog c < (v % 2 ^ 16 + 2 ^ 16 - s.rd (hwIdx c)) % 2 ^ 16 then s.raise (R.DMA_CHc_INT_STATUS_idx_err c)
  else
    let s := s.sw (swIdx c) v
    if s.dmaState c = 4 then s.setDmaState c 1 else s

/-- A stopped channel in use starts at HW_IDX (R444). -/
def State.startDma (s : State) (c : Nat) : State := if !s.dmaUsed c || s.dmaState c != 0 then s else s.setDmaState c 1

/-- A channel whose en is 0 drains, or stops at once where no descriptor is in progress (R443). -/
def State.stopDma (s : State) (c : Nat) : State :=
  if s.dmaState c = 0 ∨ s.dmaState c = 3 then s else if s.inProgress c then s.setDmaState c 3 else s.dmaStops c

/-- A write of en = 1 (R444): a draining channel ignores it. -/
def State.enableDma (s : State) (c : Nat) : State :=
  if !s.dmaUsed c || s.dmaState c != 0 then s else (s.sw (R.DMA_CHc_CTRL_en c) 1).startDma c

/-- A write of en = 0 (R443). -/
def State.disableDma (s : State) (c : Nat) : State := (s.sw (R.DMA_CHc_CTRL_en c) 0).stopDma c

/-- A write of abrupt = 1 (R445). -/
def State.abruptDma (s : State) (c : Nat) : State :=
  let s := s.sw (R.DMA_CHc_CTRL_en c) 0
  if s.dmaState c = 0 then s else
  let s := if (s.chan c).fetched.isEmpty then s else s.completeDesc c 7 (s.chan c).moved 0 none
  if s.dmaState c = 0 then s else s.dmaStops c

/-- A write of DMA_CHc_CTRL (R443 to R445, R448). -/
def State.writeDmaCtrl (s : State) (c : Nat) (v : Word) : State :=
  let s := s.sw (R.DMA_CHc_CTRL_burst c) (getBits v 8 3)
  if v.getLsbD 31 then s.abruptDma c else if v.getLsbD 0 then s.enableDma c else s.disableDma c

/-- SW_IDX_WRITE (17 R432, R434). -/
def execSwIdxWrite (c : ChIx) (value : BitVec 16) (s : State) : Res := .next ((s.writeSwIdx c value.toNat).answer [])

/-- DMA_ENABLE (17 R444). -/
def execDmaEnable (c : ChIx) (s : State) : Res := .next ((s.enableDma c).answer [])

/-- DMA_DISABLE (17 R443). -/
def execDmaDisable (c : ChIx) (s : State) : Res := .next ((s.disableDma c).answer [])

/-- DMA_ABRUPT (17 R445). -/
def execDmaAbrupt (c : ChIx) (s : State) : Res := .next ((s.abruptDma c).answer [])

/-- DESCRIPTOR_FETCH (17 R434): at most 4 descriptors read ahead; one with own = 0 is not processed and pauses the channel. -/
def execDescriptorFetch (c : ChIx) (host : Option (List Byte)) (s : State) : Res :=
  .next (let n := (s.chan c).fetched.length
    if s.dmaState c ≠ 1 ∧ s.dmaState c ≠ 2 ∨ s.given c ≤ n ∨ 4 ≤ n then s else
    let (s, bytes) := s.ringRead c (s.entryAddr c (s.rd (hwIdx c) + n)) host
    let d := wordsOf bytes
    if descOwn d then (s.setChan c { s.chan c with fetched := (s.chan c).fetched ++ [d] }).setDmaState c 2
    else (s.bump (highHalf (R.DMA_CHc_COUNT1 c))).dmaEvent c 6 0 |>.setDmaState c 4)

end Sys2Proof.Machine
end

