-- ==== Sys2Proof/Machine/FltRows.lean ====
section
/-!
DEFINITION. The commands of the fault collector (19): reports, acknowledgement, clearing, ERR_N, the watchdog, fault injection and the log.
-/
namespace Sys2Proof.Machine

def State.setFlt (s : State) (f : Flt) : State := { s with flt := f }

/-- FAULT_REPORT (19 R481 to R485). -/
def execFaultReport (source : Byte) (code : Fin 32) (level : Fin 5) (s : State) : Res :=
  .next (s.report source.toNat code level)

/-- FLT_ACK (19 R484): every record of each named level is acknowledged. -/
def execFltAck (value : Word) (s : State) : Res :=
  .next (s.setFlt { s.flt with records := s.flt.records.map fun r => if value.toNat.testBit r.level then { r with acked := true } else r }).pruneRecords

/-- The end of a level's forced safe state is accepted (19 R492). -/
def State.clearable (s : State) (l : Nat) : Bool := s.flt.records.all fun r => r.level != l || (r.acked && !r.cause)

/-- The forced safe state of level 2 or 3 ends (19 R492, R493). -/
def State.clearLevel (s : State) (l : Nat) : State :=
  if s.clearable l then
    let s := (s.wr (bitAt R.FLT_STATUS (16 + l)) 0).raise R.FLT_INT_STATUS_cleared
    let s := if l = 2 then s.setFlt { s.flt with scopes := [] } else s.hwMode 11 false
    s.applySafe
  else s.raise R.FLT_INT_STATUS_clear_refused

/-- FLT_CLEAR (19 R492): bits 2 and 3 only. -/
def execFltClear (value : Word) (s : State) : Res :=
  .next (let s := if value.getLsbD 2 then s.clearLevel 2 else s
    if value.getLsbD 3 then s.clearLevel 3 else s)

/-- PERSISTENT_CAUSE_END (19 R491): that of OSC_IN stopped lasts until reset. -/
def execPersistentCauseEnd (source : Byte) (code : Fin 32) (s : State) : Res :=
  .next (if source = 2 ∧ code = 0 then s else (s.endCause source.toNat code).pruneRecords)

/-! ## ERR_N (R494) -/

/-- A level-4 record fixes hold at 1. -/
def State.errFixed (s : State) : Bool := s.is (bitAt R.FLT_STATUS 20)

/-- ERR_N is released. -/
def State.releaseErr (s : State) : State :=
  if s.is R.FLT_STATUS_err_n then (s.wr R.FLT_STATUS_err_n 0).emit (.errN false) else s

/-- The pulse has lasted its µs, at least 20, from the latest assertion (19 R494, R500). -/
def State.pulseOver (s : State) : Bool := s.flt.pulse && decide (s.flt.errAt + 250 * max 20 (s.rd R.FLT_ERR_CTRL_pulse) ≤ s.now)

/-- ERR_N_PULSE_END (19 R494): ERR_N follows hold. -/
def execErrNPulseEnd (s : State) : Res :=
  .next (if !s.pulseOver then s else
    let clear := s.flt.clearAtPulseEnd && !s.errFixed
    let s := s.setFlt { s.flt with pulse := false, clearAtPulseEnd := false }
    let s := if clear then s.hw R.FLT_ERR_CTRL_hold 0 else s
    if s.is R.FLT_ERR_CTRL_hold then s else s.releaseErr)

/-- ERR_HOLD_WRITE (19 R494, R500): a write of FLT_ERR_CTRL. [DEDUCED, log entry 38] -/
def execErrHoldWrite (value : Word) (s : State) : Res :=
  .next (let s := s.sw ⟨R.FLT_ERR_CTRL, 0, 10⟩ (getBits value 0 10)
    if value.getLsbD 31 then (s.hw R.FLT_ERR_CTRL_hold 1).setFlt { s.flt with clearAtPulseEnd := false }
    else if s.errFixed then s
    else if s.flt.pulse then s.setFlt { s.flt with clearAtPulseEnd := true }
    else (s.hw R.FLT_ERR_CTRL_hold 0).releaseErr)

/-! ## Watchdog (R495) -/

def wdogPeriod : FieldAt := ⟨R.FLT_WDOG, 16, 16⟩
def wdogLevel : FieldAt := ⟨R.FLT_WDOG, 0, 2⟩

/-- WATCHDOG_EXPIRY (19 R495): the count of period ms has ended. -/
def execWatchdogExpiry (s : State) : Res :=
  .next (if s.rd wdogPeriod = 0 ∨ s.now < s.flt.watchdogAt + 250000 * s.rd wdogPeriod then s else
    let s := (s.report 2 3 (max 1 (s.rd wdogLevel))).raise R.FLT_INT_STATUS_wdog
    s.setFlt { s.flt with watchdogAt := s.now })

/-- WATCHDOG_KICK (19 R495): any other value is ignored. [DEDUCED, log entry 92] -/
def execWatchdogKick (value : Word) (s : State) : Res :=
  .next (if value = 0x0000A55A then s.setFlt { s.flt with watchdogAt := s.now } else s)

/-! ## Injection (R496 to R498) -/

/-- The target and the word or unit it names exist (R496, R498). -/
def State.injectable (s : State) (target : Nat) : Bool :=
  let lo := (s.reg R.FLT_INJ_ADDR_LO).toNat
  let a := lo + (s.rd ⟨R.FLT_INJ_ADDR_HI, 0, 8⟩) * 2 ^ 32
  if target = 0 then
    (decide (0x10000000 ≤ a) && decide (a < 0x10880000)) || (decide (0x20000000 ≤ a) && decide (a < 0x20800000))
      || (decide (0x30000000 ≤ a) && decide (a < 0x30800000))
      || (decide (0x100000000 ≤ a) && decide (a < 0x100000000 + s.wide R.DMC_SIZE_LO R.DMC_SIZE_HI))
  else if target = 1 then decide (lo % 64 ≤ 33)
  else if target = 2 then s.router.dests.any fun d => d.number == lo % 8192
  else if target = 3 then true
  else if target = 4 then decide (lo % 128 ≤ 79)
  else false

/-- INJECTION_ARM (19 R496, R498): a write of FLT_INJ_CTRL; arm = 0 disarms. -/
def execInjectionArm (value : Word) (s : State) : Res :=
  .next (let flips := getBits value 28 2
    if value.getLsbD 31 ∧ (!s.holds 9 ∨ flips = 0 ∨ flips = 3 ∨ !s.injectable (getBits value 0 4)) then
      s.raise R.FLT_INT_STATUS_inj_refused
    else ((s.hw R.FLT_INJ_CTRL_arm (getBits value 31 1)).sw R.FLT_INJ_CTRL_flips flips).sw R.FLT_INJ_CTRL_target (getBits value 0 4))

/-- INJECTION_FIRE (19 R496): the selected word is written with inverted check bits; what its next read finds comes with that read. [DESIGN CHOICE, log entry 10] -/
def execInjectionFire (s : State) : Res :=
  .next (if s.is R.FLT_INJ_CTRL_arm then (s.hw R.FLT_INJ_CTRL_arm 0).raise R.FLT_INT_STATUS_inj_done else s)

/-- The release of MAINTENANCE disarms an injection (19 R498). -/
def State.disarm (s : State) : State := if s.is R.FLT_INJ_CTRL_arm then s.hw R.FLT_INJ_CTRL_arm 0 else s

/-- INJECTED_REPORT (19 R497, R498): a write of FLT_INJ_REPORT. -/
def execInjectedReport (value : Word) (s : State) : Res :=
  .next (if !value.getLsbD 31 then s
    else if !s.holds 9 ∨ 3 < getBits value 24 3 then s.raise R.FLT_INT_STATUS_inj_refused
    else s.reportAs (getBits value 0 8) (getBits value 16 5) (getBits value 24 3) true)

/-! ## The log (R499, R500) -/

/-- FLT_LOG0 of a record. -/
def FaultRecord.word0 (r : FaultRecord) : Word :=
  BitVec.ofNat 32 (2 ^ 31 + b2n r.injected * 2 ^ 30 + b2n r.escalated * 2 ^ 29 + r.level * 2 ^ 26 + r.reported * 2 ^ 23
    + r.code * 2 ^ 16 + r.repeats * 2 ^ 8 + r.source)

/-- The records without the oldest one of the log, which stays outside the log while it matters. -/
def popRecord : List FaultRecord → List FaultRecord
  | [] => []
  | r :: t => if r.inLog then { r with inLog := false } :: t else r :: popRecord t

/-- FAULT_LOG_POP (19 R499): a read of FLT_LOG0. -/
def execFaultLogPop (s : State) : Res :=
  .next (match s.faultLog with
    | [] => s.answer [0]
    | r :: _ =>
      let s := ((s.setSnap R.FLT_LOG1 (some r.time1)).setSnap R.FLT_LOG2 (some r.time2)).setSnap R.FLT_LOG3 (some r.time3)
      ((s.setFlt { s.flt with records := popRecord s.flt.records }).pruneRecords).answer [r.word0])

end Sys2Proof.Machine
end

