-- ==== Sys2Proof/Machine/Fmp.lean ====
section
/-!
DEFINITION. The fast monitor path (06 R194 to R198): feeds, their terms and their crossfades.
-/
namespace Sys2Proof.Machine

def State.feed (s : State) (n : Nat) : Feed := Tab.get (fun _ => {}) s.feeds n
def Feed.term (f : Feed) (k : Nat) : FmpTerm := Tab.get (fun _ => {}) f.terms k
def Feed.setTerm (f : Feed) (k : Nat) (t : FmpTerm) : Feed := { f with terms := Tab.set (fun _ => {}) f.terms k t }

/-- The registers of term `k` of feed `n`. -/
def fmpSrc (n k : Nat) : Nat := R.FMPn_SRC0 n + 4 * k
def fmpGain (n k : Nat) : Nat := R.FMPn_GAIN0 n + 4 * k

/-- Modes 1 and 2 put the feed in an output; 0 and 3 are off (06 R200). -/
def fmpActive (mode : Nat) : Bool := mode == 1 || mode == 2

/-- The destination number of a feed's output: a TDM output channel, or an AMP channel (06 R186, R200). -/
def fmpDest (amp : Bool) (out : Nat) : Nat := if amp then 0x0E00 + out else out

/-- The descriptor of a feed's output; no AMP channel lies past 31 (06 R186, R200). -/
def State.outputDesc (s : State) (amp : Bool) (out : Nat) : Option DescSpec :=
  if amp ∧ 32 ≤ out then none else s.dstDesc (fmpDest amp out)

/-- Store a feed, and FMPn_STATUS with it (06 R200). -/
def State.setFeed (s : State) (n : Nat) (f : Feed) : State :=
  let dom := if fmpActive f.mode then (match s.outputDesc f.amp f.out with | some d => d.domain | none => 3) else 3
  let fading := f.fadeFrom.isSome || f.moveTo.isSome
  { s with feeds := Tab.set (fun _ => {}) s.feeds n f }.setReg (R.FMPn_STATUS n)
    (BitVec.ofNat 32 (dom * 16 + b2n fading * 2 + b2n (fmpActive f.mode)))

/-- The gain of a term at its position (06 R180, R195). -/
def FmpTerm.gain (t : FmpTerm) : Int := rampValue t.g0 t.g1 t.t t.len

/-- A ramp from the gain last applied to `target` over `len` samples. -/
def FmpTerm.rampTo (t : FmpTerm) (target : Int) (len : Nat) : FmpTerm :=
  let cur := if t.t = 0 then t.g0 else rampValue t.g0 t.g1 (t.t - 1) t.len
  { t with g0 := cur, g1 := target, t := 0, len := len }

/-- One sample passes; a term that has come down to zero switches its source and ramps back up (06 R195). -/
def FmpTerm.pass (t : FmpTerm) (gain : Int) (len : Nat) : FmpTerm :=
  let t := { t with t := t.t + 1 }
  match t.switchTo with
  | some src => if t.len ≤ t.t then { t with source := src, switchTo := none, g0 := 0, g1 := gain, t := 0, len := len } else t
  | none => if t.len ≤ t.t then { t with g0 := t.g1, t := 0, len := 0 } else t

/-- New settings of a term take effect (06 R195). -/
def FmpTerm.apply (t : FmpTerm) (on : Bool) (src : Nat) (gain : Int) (len : Nat) : FmpTerm :=
  if on then
    if src ≠ t.source ∧ (t.on ∨ t.g0 ≠ 0) then { (t.rampTo 0 len) with on := true, switchTo := some src }
    else { (({ t with source := src }).rampTo gain len) with on := true, switchTo := none }
  else { (t.rampTo 0 len) with on := false, switchTo := none }

/-- The gain in effect in FMPn_GAINk. -/
def State.fmpGainOf (s : State) (n k : Nat) : Int := toSigned 24 (s.rd ⟨fmpGain n k, 0, 24⟩)

/-- Some other feed holds the output (06 R194, R198). -/
def State.outputHeld (s : State) (n : Nat) (amp : Bool) (out : Nat) : Bool :=
  (List.range 64).any fun m => m != n && fmpActive (s.pendingField (R.FMPn_CTRL_mode m)) &&
    s.pendingField (R.FMPn_CTRL_out m) == out && (s.pendingField (R.FMPn_CTRL_amp m) == 1) == amp

/-- A term that is enabled names an assigned input of the output's domain (06 R194, R198). -/
def State.fmpInputOk (s : State) (src : Nat) (outDomain : Option Nat) : Bool :=
  match s.srcDesc src with
  | none => false
  | some d => match outDomain with | some x => d.domain == x | none => true

/-- A write of FMPn_CTRL that R198 (06) allows: whatever its mode it names an assigned output that no other feed holds. [DEDUCED, log entry 112] -/
def State.fmpCtrlOk (s : State) (n : Nat) (v : Word) : Bool :=
  let mode := getBits v 0 2
  let amp := getBits v 2 1 == 1
  let out := getBits v 4 9
  match s.outputDesc amp out with
  | none => false
  | some d => !s.outputHeld n amp out && (!fmpActive mode || (List.range 4).all fun k =>
      let src := s.layered (fmpSrc n k)
      getBits src 31 1 == 0 || s.fmpInputOk (getBits src 0 9) (some d.domain))

/-- The domain of a feed's pending output, if it has one. -/
def State.fmpOutDomain (s : State) (n : Nat) : Option Nat :=
  if fmpActive (s.pendingField (R.FMPn_CTRL_mode n)) then
    (s.outputDesc (s.pendingField (R.FMPn_CTRL_amp n) == 1) (s.pendingField (R.FMPn_CTRL_out n))).map (·.domain)
  else none

/-- A refused write keeps the register (06 R198). -/
def State.fmpRefuse (s : State) : State := s.raise R.RTR_INT_STATUS_fmp_refused

/-- A write of an SH register of a feed: stored until the frame boundary of its output port (06 R200). -/
def State.fmpStore (s : State) (a : Nat) (v : Word) : State := (s.soften a (shMask a) v).setShWaits a true

/-- A write of FMPn_SRCk (06 R198): an unassigned input is refused, and an enabled one of another domain than the output's. [DEDUCED, log entry 112] -/
def State.fmpWriteSrc (s : State) (n k : Nat) (v : Word) : State :=
  if ¬ s.fmpInputOk (getBits v 0 9) (if getBits v 31 1 = 1 then s.fmpOutDomain n else none) then s.fmpRefuse else s.fmpStore (fmpSrc n k) v

def State.fmpWriteCtrl (s : State) (n : Nat) (v : Word) : State :=
  if s.fmpCtrlOk n v then s.fmpStore (R.FMPn_CTRL n) v else s.fmpRefuse

/-- The settings of term `k` take effect at the frame boundary (06 R195). -/
def State.fmpTermTakes (s : State) (n k : Nat) (a : Nat) : State :=
  if !s.shWaits a then s else
  let s := s.shTake a
  let src := s.reg (fmpSrc n k)
  let f := s.feed n
  s.setFeed n (f.setTerm k ((f.term k).apply (getBits src 31 1 == 1) (getBits src 0 9) (s.fmpGainOf n k) (s.rd ⟨R.FMPn_RAMP n, 0, 16⟩)))

/-- FMP_GAIN_WRITE (06 R195, R198): a write of FMPn_SRCk (`source`) or FMPn_GAINk, or its taking effect at the frame boundary. -/
def execFmpGainWrite (n : Fin 64) (k : Fin 4) (source : Bool) (write : Option Word) (s : State) : Res :=
  .next (match write with
    | some v => (if source then s.fmpWriteSrc n k v else s.fmpStore (fmpGain n k) v).answer []
    | none => s.fmpTermTakes n k (if source then fmpSrc n k else fmpGain n k))

/-- FMPn_CTRL takes effect at the frame boundary (06 R197): a crossfade of the content over 32 samples; a change of the output of an active
feed fades the old output to its router content first. A change while the old output still fades replaces where the feed goes. [DEDUCED, log entry 113] -/
def State.fmpCtrlTakes (s : State) (n : Nat) : State :=
  if !s.shWaits (R.FMPn_CTRL n) then s else
  let s := s.shTake (R.FMPn_CTRL n)
  let f := s.feed n
  let mode := s.rd (R.FMPn_CTRL_mode n)
  let amp := s.is (R.FMPn_CTRL_amp n)
  let out := s.rd (R.FMPn_CTRL_out n)
  if f.moveTo.isSome then s.setFeed n { f with moveTo := some (mode, amp, out) }
  else if fmpActive f.mode && (f.amp != amp || f.out != out) then
    s.setFeed n { f with mode := 0, fadeFrom := some (f.mode, 0), moveTo := some (mode, amp, out) }
  else if f.mode = mode then s.setFeed n { f with amp := amp, out := out }
  else s.setFeed n { f with amp := amp, out := out, mode := mode, fadeFrom := some (f.mode, 0) }

/-- FMP_CTRL_CHANGE (06 R197, R198): a write of FMPn_CTRL, or its taking effect at the frame boundary. -/
def execFmpCtrlChange (n : Fin 64) (write : Option Word) (s : State) : Res :=
  .next (match write with
    | some v => (s.fmpWriteCtrl n v).answer []
    | none => s.fmpCtrlTakes n)

/-! ## One sample of a feed (06 R195, R197), used at each sample edge -/

/-- Limit to 24 bits; the flag says that it limited. -/
def limit24 (v : Int) : Sample × Bool :=
  if v < -(2 ^ 23) then (0x800000, true) else if 2 ^ 23 - 1 < v then (0x7FFFFF, true) else (BitVec.ofInt 24 v, false)

/-- The feed sum of an input frame. -/
def State.fmpSum (s : State) (n : Nat) (frame : List (Nat × Sample)) : Int :=
  let f := s.feed n
  ((List.range 4).foldl (fun acc k =>
    let t := f.term k
    let x := match frame.find? (fun e => e.1 = t.source) with | some e => e.2.toInt | none => 0
    acc + x * t.gain) 0) / 2 ^ 19

/-- The content of an output under a mode, over its router sample (06 R195). -/
def fmpContent (mode : Nat) (sum : Int) (router : Sample) : Sample × Bool :=
  if mode = 1 then limit24 sum else if mode = 2 then limit24 (sum + router.toInt) else (router, false)

/-- The output sample of a feed, and whether it saturated (06 R195, R197). [DESIGN CHOICE, log entry 51] -/
def State.fmpOut (s : State) (n : Nat) (frame : List (Nat × Sample)) (router : Sample) : Sample × Bool :=
  let f := s.feed n
  let sum := s.fmpSum n frame
  let new := fmpContent f.mode sum router
  match f.fadeFrom with
  | none => new
  | some (old, j) =>
    let was := fmpContent old sum router
    (BitVec.ofInt 24 (was.1.toInt + (new.1.toInt - was.1.toInt) * (lineWeight j : Int) / 2 ^ 16), new.2 || was.2)

/-- A saturated output sample sets the feed's bit (06 R195). -/
def State.fmpSaturates (s : State) (n : Nat) (b : Bool) : State :=
  if b then (s.raise (bitAt (R.FMP_SAT_LO + 4 * (n / 32)) (n % 32))).raise R.RTR_INT_STATUS_fmp_sat else s

/-- One sample passes in feed `n`: ramps and crossfade advance (06 R195, R197). [DEDUCED, log entry 91] -/
def State.fmpPass (s : State) (n : Nat) : State :=
  let f := s.feed n
  let len := s.rd ⟨R.FMPn_RAMP n, 0, 16⟩
  let f := (List.range 4).foldl (fun f k => f.setTerm k ((f.term k).pass (s.fmpGainOf n k) len)) f
  let f := match f.fadeFrom with
    | some (old, j) =>
      if j + 1 < 32 then { f with fadeFrom := some (old, j + 1) }
      else match f.moveTo with
        | some (mode, amp, out) => { f with amp := amp, out := out, mode := mode, fadeFrom := some (0, 0), moveTo := none }
        | none => { f with fadeFrom := none }
    | none => f
  s.setFeed n f

end Sys2Proof.Machine
end

