-- ==== Sys2Proof/Machine/EngineIsa.lean ====
section
/-!
DEFINITION. The operations of engine instructions (05 R136 to R165). An operation acts on engine `n` while it runs a segment; it reads
the registers as they stand before the instruction, and the last operation of an instruction ends it (`Engine.endIf`).
-/
namespace Sys2Proof.Machine

/-! ## Shared forms -/

/-- A multiply on one lane (05 R137): `base` is the accumulator it adds to or subtracts from, 0 for mpy. -/
def Engine.multiply (e : Engine) (lane a s1 s2 : Nat) (base : Acc) (minus : Bool) (last : Bool) : Engine :=
  let term := productTerm (e.dReg s1) (e.dReg s2)
  let y := BitVec.ofInt 56 term
  let r := if minus then base.toInt - term else base.toInt + term
  let c := if minus then carrySub base y else carryAdd base y
  let v := BitVec.ofInt 56 r
  ((e.result lane 1 (.a a) v).laneFlags lane (flagsOf v c (accOverflow r))).endIf last

/-- An ALU operation of lane 0 (05 R142): its result into accumulator `a` with carry `c` and overflow `v`. -/
def Engine.alu (e : Engine) (a : Nat) (r : Acc) (c v : Bool) (last : Bool) : Engine :=
  ((e.result 0 1 (.a a) r).laneFlags 0 (flagsOf r c v)).endIf last

/-- x + y with its carry and overflow. -/
def Engine.aluAdd (e : Engine) (a : Nat) (x y : Acc) (last : Bool) : Engine :=
  e.alu a (x + y) (carryAdd x y) (accOverflow (x.toInt + y.toInt)) last

/-- x - y with its carry and overflow. -/
def Engine.aluSub (e : Engine) (a : Nat) (x y : Acc) (last : Bool) : Engine :=
  e.alu a (x - y) (carrySub x y) (accOverflow (x.toInt - y.toInt)) last

/-- The pointer update of a memory move (05 R144, R146, R147), as a result of its slot. -/
def Engine.movePtr (e : Engine) (slot p : Nat) (u : Update) : Engine :=
  match u with
  | .none => e
  | u => e.result slot 1 (.p p) ((ptrUpdate (e.pReg p) (e.step p u) (e.lReg p).toNat).setWidth 56)

/-- The result slot of a memory move. -/
def busSlot : Bus → Nat
  | .x => 2
  | .y => 3

/-- A store move: the word `v` into memory `b` at the pointer, then the pointer's update (05 R144; 04 R113). -/
def Engine.storeMove (e : Engine) (cur : Nat) (b : Bus) (p : Nat) (v : Sample) (u : Update) (last : Bool) : Engine :=
  ((e.store cur b (e.pReg p) v).movePtr (busSlot b) p u).endIf last

/-- Raise `overread` and report it like `short` (04 R119, R120, R135). -/
def State.overread (s : State) (n : Nat) : State := s.engFault n 4 2

/-- Send the word `v` to outlet `o` (04 R119, R120, R122; 05 R145): to an unbound outlet, or beyond the barge, it is discarded with
overread; to an outlet without credit it is discarded. -/
def State.sendWord (s : State) (n o : Nat) (v : Sample) : State :=
  let e := s.eng n
  match e.outlets[o]? with
  | none => s.overread n
  | some _ =>
    if e.dropped.contains o then s
    else if (e.sentWords o).length < s.outletSize e o then
      s.setEng n { e with sent := Tab.set (fun _ => []) e.sent o (e.sentWords o ++ [v]) }
    else s.overread n

/-- End the instruction of engine `n`, if this was its last operation. -/
def State.endOp (s : State) (n : Nat) (last : Bool) : State := s.setEng n ((s.eng n).endIf last)

/-! ## Class 0: lanes and ALU -/

/-- NOP (05 R139, R165): one cycle. `fetch` other than clean is a fetch of whatever instruction stands at the program counter (04 R126): a
corrected one is reported and takes no cycle, and the instruction's own operations follow; an uncorrectable one ends the segment as if
parked. [DESIGN CHOICE, log entry 100] -/
def execNop (n : EngIx) (fetch : Ecc) (s : State) : Res :=
  .next (if !s.engRuns n then s else
    match fetch with
    | .clean => s.setEng n ((s.eng n).finish 1 none)
    | .corrected => s.engEcc n .corrected
    | .uncorrectable => ((s.engEcc n .uncorrectable).endSegment n).serveWaits n)

/-- MPY (05 R137). -/
def execMpy (n : EngIx) (lane : Fin 2) (a : AccIx) (s1 s2 : RegIx) (last : Bool) (s : State) : Res :=
  .next (s.issue n fun e => e.multiply lane a s1 s2 0 false last)

/-- MAC (05 R137). -/
def execMac (n : EngIx) (lane : Fin 2) (a : AccIx) (s1 s2 : RegIx) (last : Bool) (s : State) : Res :=
  .next (s.issue n fun e => e.multiply lane a s1 s2 (e.acc a) false last)

/-- MACN (05 R137). -/
def execMacn (n : EngIx) (lane : Fin 2) (a : AccIx) (s1 s2 : RegIx) (last : Bool) (s : State) : Res :=
  .next (s.issue n fun e => e.multiply lane a s1 s2 (e.acc a) true last)

/-- CLR (05 R142). -/
def execClr (n : EngIx) (a : AccIx) (last : Bool) (s : State) : Res :=
  .next (s.issue n fun e => e.alu a 0 false false last)

/-- LDA (05 R142). -/
def execLda (n : EngIx) (a : AccIx) (d : RegIx) (last : Bool) (s : State) : Res :=
  .next (s.issue n fun e => e.alu a (alignWord (e.dReg d)) false false last)

/-- ADD (05 R142). -/
def execAdd (n : EngIx) (a : AccIx) (d : RegIx) (last : Bool) (s : State) : Res :=
  .next (s.issue n fun e => e.aluAdd a (e.acc a) (alignWord (e.dReg d)) last)

/-- SUB (05 R142). -/
def execSub (n : EngIx) (a : AccIx) (d : RegIx) (last : Bool) (s : State) : Res :=
  .next (s.issue n fun e => e.aluSub a (e.acc a) (alignWord (e.dReg d)) last)

/-- ADDA (05 R142). -/
def execAdda (n : EngIx) (a a' : AccIx) (last : Bool) (s : State) : Res :=
  .next (s.issue n fun e => e.aluAdd a (e.acc a) (e.acc a') last)

/-- SUBA (05 R142). -/
def execSuba (n : EngIx) (a a' : AccIx) (last : Bool) (s : State) : Res :=
  .next (s.issue n fun e => e.aluSub a (e.acc a) (e.acc a') last)

/-- NEG: 0 - a (05 R142, R163). -/
def execNeg (n : EngIx) (a : AccIx) (last : Bool) (s : State) : Res :=
  .next (s.issue n fun e => e.aluSub a 0 (e.acc a) last)

/-- ABS: as NEG when a is negative; c clear otherwise (05 R142, R163). -/
def execAbs (n : EngIx) (a : AccIx) (last : Bool) (s : State) : Res :=
  .next (s.issue n fun e => if (e.acc a).msb then e.aluSub a 0 (e.acc a) last else e.alu a (e.acc a) false false last)

/-- CMP: the flags of a - d; a unchanged (05 R142). -/
def execCmp (n : EngIx) (a : AccIx) (d : RegIx) (last : Bool) (s : State) : Res :=
  .next (s.issue n fun e =>
    let x := e.acc a
    let y := alignWord (e.dReg d)
    (e.laneFlags 0 (flagsOf (x - y) (carrySub x y) (accOverflow (x.toInt - y.toInt)))).endIf last)

/-- MAX (05 R142). -/
def execMax (n : EngIx) (a : AccIx) (d : RegIx) (last : Bool) (s : State) : Res :=
  .next (s.issue n fun e =>
    let y := alignWord (e.dReg d)
    e.alu a (if (e.acc a).toInt < y.toInt then y else e.acc a) false false last)

/-- MIN (05 R142). -/
def execMin (n : EngIx) (a : AccIx) (d : RegIx) (last : Bool) (s : State) : Res :=
  .next (s.issue n fun e =>
    let y := alignWord (e.dReg d)
    e.alu a (if y.toInt < (e.acc a).toInt then y else e.acc a) false false last)

/-- LIM (05 R142): beyond a data word's range, full scale of the sign, and sl. -/
def execLim (n : EngIx) (a : AccIx) (last : Bool) (s : State) : Res :=
  .next (s.issue n fun e =>
    let x := e.acc a
    if fitsWord x then e.alu a x false false last
    else (e.saturated true).alu a (if x.msb then 0xFF800000000000 else 0x007FFFFFFFFFFF) false false last)

/-- EXP (05 R151): the shift count into d; flags from a. -/
def execExp (n : EngIx) (a : AccIx) (d : RegIx) (last : Bool) (s : State) : Res :=
  .next (s.issue n fun e =>
    let x := e.acc a
    ((e.result 0 1 (.d d) (BitVec.ofInt 56 (shiftCount x))).laneFlags 0 (flagsOf x false false)).endIf last)

/-- NORM (05 R151): the shift count into d, and a shifted by it. -/
def execNorm (n : EngIx) (a : AccIx) (d : RegIx) (last : Bool) (s : State) : Res :=
  .next (s.issue n fun e =>
    let x := e.acc a
    (e.result 0 1 (.d d) (BitVec.ofInt 56 (shiftCount x))).alu a (shiftAcc x (shiftCount x)).1 false false last)

/-- ASH (05 R150). -/
def execAsh (n : EngIx) (a : AccIx) (d : RegIx) (last : Bool) (s : State) : Res :=
  .next (s.issue n fun e =>
    let r := shiftAcc (e.acc a) (e.dReg d).toInt
    e.alu a r.1 false r.2 last)

/-! ## Class 0: moves -/

/-- LD (05 R144, R161; 04 R126): readable two cycles on; an uncorrectable word reads as 0. [DESIGN CHOICE, log entry 9] -/
def execLd (n : EngIx) (bus : Bus) (p d : RegIx) (update : Update) (ecc : Ecc) (last : Bool) (s : State) : Res :=
  .next (if !s.engRuns n then s else
    let s := s.engEcc n ecc
    let e := s.eng n
    let v := if ecc = .uncorrectable then 0 else e.load (s.paramPage n) bus (e.pReg p)
    s.setEng n (((e.result (busSlot bus) 2 (.d d) (v.setWidth 56)).movePtr (busSlot bus) p update).endIf last))

/-- ST (05 R144). -/
def execSt (n : EngIx) (bus : Bus) (p d : RegIx) (update : Update) (last : Bool) (s : State) : Res :=
  .next (s.issue n fun e => e.storeMove (s.paramPage n) bus p (e.dReg d) update last)

/-- ST_SAT (05 R138, R144). -/
def execStSat (n : EngIx) (bus : Bus) (p : RegIx) (a : AccIx) (update : Update) (last : Bool) (s : State) : Res :=
  .next (s.issue n fun e =>
    let r := sat24 (e.acc a)
    (e.saturated r.2).storeMove (s.paramPage n) bus p r.1 update last)

/-- TAKE (01 R23; 04 R119, R122, R126; 05 R145): the next unread word of the awaited barge, whose credit returns with its last word; 0 for an
absent barge; 0 with overread beyond the barge or at an inlet unbound or bound to the tick source. [DESIGN CHOICE, log entry 9] -/
def execTake (n : EngIx) (inlet : Fin 16) (d : RegIx) (ecc : Ecc) (last : Bool) (s : State) : Res :=
  .next (if !s.engRuns n then s else
    let s := s.engEcc n ecc
    let e := s.eng n
    let k := Tab.get (fun _ => 0) e.read inlet
    let size := match e.inletLock inlet with
      | some l => match s.lock l with | some q => s.bargeWords q | none => 0
      | none => 0
    let v : Sample :=
      if ecc = .uncorrectable || e.absent.contains inlet.val then 0
      else match e.inletLock inlet with
        | some l => match s.awaits l e.tick with | some b => b.words.getD k 0 | none => 0
        | none => 0
    if k < size then
      let e := { e with read := Tab.set (fun _ => 0) e.read inlet (k + 1) }
      let s := s.setEng n ((e.result 2 2 (.d d) (v.setWidth 56)).endIf last)
      match e.inletLock inlet with
      | some l => if k + 1 = size then s.consume l e.tick else s
      | none => s
    else (s.setEng n ((e.result 2 2 (.d d) 0).endIf last)).overread n)

/-- SEND (04 R119; 05 R145): the source is read in the cycle of issue. -/
def execSend (n : EngIx) (outlet : Fin 16) (d : RegIx) (last : Bool) (s : State) : Res :=
  .next (if !s.engRuns n then s else (s.sendWord n outlet ((s.eng n).dReg d)).endOp n last)

/-- SEND_SAT (05 R138, R145). -/
def execSendSat (n : EngIx) (outlet : Fin 16) (a : AccIx) (last : Bool) (s : State) : Res :=
  .next (if !s.engRuns n then s else
    let r := sat24 ((s.eng n).acc a)
    ((s.setEng n ((s.eng n).saturated r.2)).sendWord n outlet r.1).endOp n last)

/-- STORE_BUFFER_WRITE (04 R113): the oldest store of the buffer reaches its memory in the second cycle after the one in which it issued. -/
def execStoreBufferWrite (n : EngIx) (bus : Bus) (s : State) : Res :=
  .next (s.setEng n ((s.eng n).drainDue (s.paramPage n) bus))

/-! ## Class 1: registers, shifts, pointers -/

/-- LDI (05 R148, R149). -/
def execLdi (n : EngIx) (r : Fin 64) (imm : Sample) (s : State) : Res :=
  .next (s.issue n fun e =>
    let q := codeReg r
    (e.result 0 (codeLatency q) q (codeValue q imm)).endIf true)

/-- MOV (05 R148, R149): between accumulators all 56 bits; a saturating read sets sl. -/
def execMov (n : EngIx) (r r' : Fin 64) (s : State) : Res :=
  .next (s.issue n fun e =>
    let q := codeReg r
    match q, codeReg r' with
    | .a _, .a j => (e.result 0 1 q (e.acc j)).endIf true
    | _, _ =>
      let v := e.readCode r'
      ((e.saturated v.2).result 0 (codeLatency q) q (codeValue q v.1)).endIf true)

/-- ASHI (05 R150). -/
def execAshi (n : EngIx) (a : AccIx) (sh : BitVec 7) (s : State) : Res :=
  .next (s.issue n fun e =>
    let r := shiftAcc (e.acc a) sh.toInt
    e.alu a r.1 false r.2 true)

/-- LEA (05 R147, R148). -/
def execLea (n : EngIx) (p : RegIx) (imm : Ptr) (s : State) : Res :=
  .next (s.issue n fun e =>
    (e.result 0 1 (.p p) ((ptrUpdate (e.pReg p) imm.toInt (e.lReg p).toNat).setWidth 56)).endIf true)

/-! ## Class 1: flow -/

/-- BRA (05 R152, R154, R156): 2 cycles when taken, 1 when the target lies in a valid loop cache of an active loop. -/
def execBra (n : EngIx) (cc : Fin 32) (target : BitVec 13) (s : State) : Res :=
  .next (s.issue n fun e =>
    if condition cc e.srValue then e.finish (if e.inCache target then 1 else 2) (some target)
    else e.finish 1 none)

/-- A do or dor with `count` at the program counter (05 R155, R157, R158). Every one invalidates the loop cache. -/
def Engine.loopStart (e : Engine) (count : BitVec 16) (stop : BitVec 13) : Engine :=
  let x := e.pc
  let atEnd := e.stack.any fun l => l.stop == x
  let e := { e with cache := none, cacheValid := false }
  if stop ≤ x || atEnd then ({ e with cur := { e.cur with error := true } }).finish 1 none
  else if count = 0 then e.finish 2 (some (stop + 1))
  else if 4 ≤ e.stack.length then ({ e with cur := { e.cur with error := true } }).finish 1 none
  else
    let start := x + 1
    let body := stop.toNat + 1 - start.toNat
    let e := { e with stack := ⟨start, stop, e.lc, false⟩ :: e.stack,
                      cache := if body ≤ 16 then some (start, stop) else none }
    (e.result 0 1 .lc (count.setWidth 56)).finish 1 (some start)

/-- DO (05 R155). -/
def execDoLoop (n : EngIx) (count : BitVec 16) (stop : BitVec 13) (s : State) : Res :=
  .next (s.issue n fun e => e.loopStart count stop)

/-- DOR (05 R148, R155): the count is the register's value [15:0]; reading an accumulator may saturate. -/
def execDor (n : EngIx) (r : Fin 64) (stop : BitVec 13) (s : State) : Res :=
  .next (s.issue n fun e =>
    let v := e.readCode r
    (e.saturated v.2).loopStart (v.1.setWidth 16) stop)

/-- BRK (05 R158): pops the innermost level, control passes to its e + 1 in 2 cycles; a nop with no loop active. -/
def execBrk (n : EngIx) (s : State) : Res :=
  .next (s.issue n fun e =>
    match e.stack with
    | [] => e.finish 1 none
    | l :: t => ({ e with stack := t, lc := l.savedLc }).finish 2 (some (l.stop + 1)))

/-- PARK (05 R159; 04 R112, R120). -/
def execPark (n : EngIx) (s : State) : Res :=
  .next (if s.engRuns n then (s.endSegment n).serveWaits n else s)

end Sys2Proof.Machine
end

