-- ==== Sys2Proof/Machine/EngineSeg.lean ====
section
/-!
DEFINITION. The tick strobe, gate, deadline and outlets of an engine, its memory window, its page swaps and its clock (04 R109 to R127).
-/
namespace Sys2Proof.Machine

/-! ## Strobe, gate, deadline -/

/-- The engine skips the awaited tick (04 R123): no barge is committed, its inlet barges are given up, `late` is set and reported. -/
def State.skipTick (s : State) (n : Nat) : State :=
  let e := s.eng n
  let s := (s.giveUpInlets e).subSegment n ⟨e.tick, true, false, false, []⟩
  let e := s.eng n
  let e := { e with tick := e.tick + 1, lateNext := false, faulty := true }
  (s.setEng n e.countFails).engFault n 2 2

/-- The running segment is parked at the strobe of boundary k + 3, as if park had issued (05 R160), and the tick after it is skipped (R123),
held or not. -/
def State.forcedPark (s : State) (n : Nat) : State :=
  let e := s.eng n
  let s := (s.setEng n { e with lateNext := false, faulty := true }).endSegment n
  (s.skipTick n).serveWaits n

/-- ENGINE_TICK_STROBE (04 R122, R123; 05 R160): the strobe of the boundary that began the domain's current tick reaches the engine.
`slack` is the count of cycles from the last commit to this strobe, offered to ENGn_SLACK_MIN (04 R135). -/
def execEngineTickStrobe (n : EngIx) (slack : Nat) (s : State) : Res :=
  .next (if s.halted ∨ s.engDomain n = 3 then s else
    let b := s.tick (s.engDomain n)
    let st := s.engState n
    let s := if st = 2 ∨ st = 3 then s.least ⟨R.ENGn_SLACK_MIN n, 0, 20⟩ slack else s
    if st = 3 ∧ (s.eng n).tick + 3 ≤ b then s.forcedPark n
    else if (st = 1 ∨ st = 2) ∧ (s.eng n).tick + 2 ≤ b then s.skipTick n else s)

/-- The gate of the awaited tick may open (01 R25): every awaited barge is present and every outlet holds a credit. -/
def State.gateReady (s : State) (n : Nat) : Bool :=
  let e := s.eng n
  s.engState n == 2 && decide (e.tick + 1 ≤ s.tick (s.engDomain n)) && s.inletsPresent e && (s.isPrepared n || s.outletsReady e)

/-- ENGINE_GATE_OPEN (01 R25; 04 R118): older barges are discarded, then the segment starts if the gate conditions hold. [DESIGN CHOICE, log entry 3] -/
def execEngineGateOpen (n : EngIx) (s : State) : Res :=
  .next (if s.halted then s else
    let s := s.dropOlder (s.eng n)
    if s.gateReady n then s.startSegment n false else s)

/-- A held engine at a deadline (04 R124): its awaited barges are discarded and an all-zero barge is committed to each outlet with credit. -/
def State.heldTick (s : State) (n : Nat) : State :=
  let e := s.eng n
  let s := s.giveUpInlets e
  let s := (List.range e.outlets.length).foldl (fun s i => match e.outlets[i]? with
    | some l => s.commit l ⟨e.tick, List.replicate (s.outletSize e i) 0⟩
    | none => s) s
  let e := s.eng n
  s.setEng n ({ e with tick := e.tick + 1 } : Engine).countFails

/-- ENGINE_START_DEADLINE (04 R122 to R124): an engine still at its gate starts in any case; one still running an earlier tick starts the
next at its park, late; a held one discards and commits zeros. A deadline of a tick already done changes nothing. [DESIGN CHOICE, log entry 1] -/
def execEngineStartDeadline (n : EngIx) (s : State) : Res :=
  .next (if s.halted ∨ s.engDomain n = 3 then s else
    let b := s.tick (s.engDomain n)
    let e := s.eng n
    let st := s.engState n
    if st = 2 ∧ e.tick + 1 ≤ b then (s.dropOlder e).startSegment n false
    else if st = 3 ∧ e.tick + 1 < b then s.setEng n { e with lateNext := true }
    else if st = 4 ∧ e.tick + 1 ≤ b then s.heldTick n
    else s)

/-- ENGINE_OUTLET_COMMIT (04 R119; 02 R60): a complete outlet of the running segment is committed, one cycle after its final send. -/
def execEngineOutletCommit (n : EngIx) (outlet : Fin 16) (s : State) : Res :=
  .next (let e := s.eng n
    if s.engRuns n && decide (outlet.val < e.outlets.length) && decide (s.outletSize e outlet ≤ (e.sentWords outlet).length)
    then s.commitOutlet n outlet else s)

/-- The engine takes part in a substitution in states 1 to 5, so a write of hold is stored without effect (04 R134). -/
def State.inSubstitution (s : State) (n : Nat) : Bool :=
  s.rd (R.ENGn_STATUS_subst n) == 1 || s.rd (R.ENGn_STATUS_subst n) == 4

/-- ENGn_CTRL.hold takes effect at a boundary (04 R124, R134): an engine at its gate becomes held, a held one returns to its gate. -/
def State.holdTakes (s : State) (n : Nat) : State :=
  if s.inSubstitution n then s else
  let s := s.shTake (R.ENGn_CTRL n)
  if s.engHeld n && s.engState n == 2 then s.setEngState n 4
  else if !s.engHeld n && s.engState n == 4 then s.setEngState n 2
  else s

/-! ## Window accesses (04 R110, R114, R126) -/

/-- The bus master that presents a window access of each class (17 R420, R421). -/
def windowMaster : WindowUser → Nat
  | .substitution => 3 | .foregroundDma => 2 | .towpath => 4 | .otherDma => 5 | .dredger => 6

/-- ENGINE_WINDOW_ACCESS (04 R110, R111, R114, R126): served while the engine runs no segment, its stores drained; else it waits for the park. -/
def execEngineWindowAccess (n : EngIx) (user : WindowUser) (offset : BitVec 18) (write : Option Word) (ecc : Ecc) (s : State) : Res :=
  .next (let w : WindowWait := ⟨n, user, windowMaster user, offset.toNat / 4 * 4, write.map fun v => [v], ecc, false⟩
    if s.engState n = 3 then s.windowWaits w else s.serveWindow w)

/-! ## Page swaps and the clock -/

/-- An engine without a gate: stopped, or of no domain (04 R125). -/
def State.gateless (s : State) (n : Nat) : Bool := s.engState n == 0 || s.engDomain n == 3

/-- PROGRAM_PAGE_SWAP_REQUEST (04 R125): at once on an engine without a gate, else at its first gate from the next boundary on. -/
def State.requestSwap (s : State) (n : Nat) : State :=
  if s.gateless n then (s.setEng n { s.eng n with swapAt := [] }).pageTurns n
  else
    let t := s.tick (s.engDomain n) + 1
    let e := s.eng n
    (s.wr (R.ENGn_PAGE_pending n) 1).setEng n { e with swapAt := if e.swapAt.contains t then e.swapAt else e.swapAt ++ [t] }

/-- PARAM_PAGE_SWAP_REQUEST (04 R116, R125). -/
def State.requestParamSwap (s : State) (n : Nat) : State :=
  if s.gateless n && !s.is (R.ENGn_PARAM_copy_busy n) then (s.setEng n { s.eng n with paramSwapAt := [] }).paramTurns n
  else
    let t := if s.gateless n then 0 else s.tick (s.engDomain n) + 1
    let e := s.eng n
    (s.wr (R.ENGn_PARAM_pending n) 1).setEng n { e with paramSwapAt := if e.paramSwapAt.contains t then e.paramSwapAt else e.paramSwapAt ++ [t] }

def execProgramPageSwapRequest (n : EngIx) (s : State) : Res := .next (s.requestSwap n)

def execParamPageSwapRequest (n : EngIx) (s : State) : Res := .next (s.requestParamSwap n)

/-- PARAM_COPY_END (04 R116): the new current page has been copied into the new inactive page, except words an external master wrote
since (`Engine.paramTouched`); a swap requested meanwhile may then act. -/
def execParamCopyEnd (n : EngIx) (s : State) : Res :=
  .next (if !s.is (R.ENGn_PARAM_copy_busy n) then s else
    let e := s.eng n
    let cur := s.paramPage n
    let page := (List.range 256).foldl (fun p i =>
      if e.paramTouched.contains i then p else Tab.set (fun _ => 0) p (256 * (1 - cur) + i) (Tab.get (fun _ => 0) e.param (256 * cur + i))) e.param
    let s := (s.setEng n { e with param := page, paramTouched := [] }).wr (R.ENGn_PARAM_copy_busy n) 0
    if !e.paramSwapAt.isEmpty && s.gateless n then (s.setEng n { s.eng n with paramSwapAt := [] }).paramTurns n else s)

/-- ENGINE_RELOCK_END (04 R127): the engine sets relocked and may open its gate. -/
def execEngineRelockEnd (n : EngIx) (s : State) : Res :=
  .next (if s.engState n = 1 then (s.raise (R.ENGn_INT_STATUS_relocked n)).setEngState n (if s.engHeld n then 4 else 2) else s)

end Sys2Proof.Machine
end

