-- ==== Sys2Proof/Machine/Clock.lean ====
section
/-!
DEFINITION. Reference selection and clock synthesis (10 R268 to R297): qualification of the candidates, selection, the DPLL's stages,
switches, cocoon, followers, sample-number alignment and the pulse outputs. A command carries what CLK measured.
-/
namespace Sys2Proof.Machine

def State.cand (s : State) (c : Nat) : Cand := Tab.get (fun _ => {}) s.cands c
def State.setCand (s : State) (c : Nat) (k : Cand) : State := { s with cands := Tab.set (fun _ => {}) s.cands c k }
def State.dpll (s : State) (x : Nat) : Dpll := Tab.get (fun _ => {}) s.dplls x
def State.setDpll (s : State) (x : Nat) (d : Dpll) : State := { s with dplls := Tab.set (fun _ => {}) s.dplls x d }

/-- CLK_CANDc_STATUS.state: 0 disabled, 1 absent, 2 qualifying, 3 qualified (R271, R297). -/
def State.candState (s : State) (c : Nat) : Nat := s.rd (R.CLK_CANDc_STATUS_state c)
def State.qualified (s : State) (c : Nat) : Bool := s.candState c == 3

/-- The priority domain `x` gives candidate `c`; 15 excludes it (R276). LEAD is absent for a domain whose rate or B differs from the lead
timing's (14 R375). -/
def State.prio (s : State) (x c : Nat) : Nat :=
  if c = 8 ∧ (s.dpll x).leadAbsent then 15
  else if c < 8 then s.rd ⟨R.CLK_DOMx_PRIO x, 4 * c, 4⟩ else s.rd ⟨R.CLK_DOMx_PRIO_HI x, 0, 4⟩

/-- Domain `x` forces candidate `c` (R278). -/
def State.forces (s : State) (x c : Nat) : Bool :=
  s.is (R.CLK_DOMx_CTRL_force_en x) && s.rd (R.CLK_DOMx_CTRL_force_sel x) == c

/-- The eligible candidate of a domain (R276). -/
def State.eligible (s : State) (x : Nat) : Option Nat :=
  let f := s.rd (R.CLK_DOMx_CTRL_force_sel x)
  if s.is (R.CLK_DOMx_CTRL_force_en x) ∧ f ≤ 8 ∧ s.qualified f then some f
  else (List.range 9).foldl (fun best c =>
    if s.prio x c < 15 ∧ s.qualified c then
      match best with
      | none => some c
      | some b => if s.prio x c < s.prio x b then some c else some b
    else best) none

/-- CLK_DOMx_STATUS.state: 0 not started, 1 free, 2 acquiring, 3 locked, 4 switching, 5 cocoon, 6 following (R297). -/
def State.domState (s : State) (x : Nat) : Nat := s.rd (R.CLK_DOMx_STATUS_state x)
def State.setDomState (s : State) (x v : Nat) : State := s.wr (R.CLK_DOMx_STATUS_state x) v
def State.selected (s : State) (x : Nat) : Nat := s.rd (R.CLK_DOMx_STATUS_selected x)
def State.capturing (s : State) (x : Nat) : Nat := s.rd (R.CLK_DOMx_STATUS_capturing x)
def State.ramping (s : State) (x : Nat) : Bool := s.is (R.CLK_DOMx_STATUS_ramp x)
def State.stage (s : State) (x : Nat) : Nat := s.rd (R.CLK_DOMx_STATUS_stage x)

/-- An event of a domain, and its level-1 fault; source 5 + x (18 R463). -/
def State.domFault (s : State) (x : Nat) (f : FieldAt) : State := (s.raise f).report (5 + x) f.lsb 1

/-- The domain has a DPLL of its own (R289). -/
def State.ownDpll (s : State) (x : Nat) : Bool := s.rd (R.CLK_DOMx_CFG_rate x) != 0 && s.rd (R.CLK_DOMx_CFG_follow x) == 0

/-- The domain at the head of the follow relations that start at `x` (R289). -/
def State.leader (s : State) (x : Nat) : Nat → Nat
  | 0 => x
  | fuel + 1 => if s.rd (R.CLK_DOMx_CFG_follow x) = 0 then x else s.leader (s.rd (R.CLK_DOMx_CFG_follow x) - 1) fuel

/-! ## The media clock -/

/-- slew_max in ppb/s (R280, R297). -/
def State.slewMax (s : State) (x : Nat) : Nat := 10 * max 1 (min 0xC8 (s.rd (R.CLK_DOMx_LOOP_slew_max x)))

/-- The frequency of the DPLL without a ramp: on its way from `f0` to `target` at slew_max; before first audio at once (R280). -/
def State.loopFreq (s : State) (x : Nat) : Int :=
  let d := s.dpll x
  if !s.running then d.target else
  let gone : Int := s.slewMax x * (s.now - d.since) * 4 / 10 ^ 9
  if d.f0 ≤ d.target then min d.target (d.f0 + gone) else max d.target (d.f0 - gone)

/-- The media clock's offset from nominal in ppb, which never leaves ±500 ppm (R281); a follower's is its leader's (R289). -/
def State.mediaFreq (s : State) (x : Nat) : Int :=
  let y := s.leader x 3
  clampTo 500000 (s.loopFreq y + (s.dpll y).ramp)

/-- A frequency that would leave ±500 ppm is clamped at the limit: clamp and a level-1 fault (R281). -/
def State.judgeClamp (s : State) (x : Nat) : State :=
  let d := s.dpll x
  if (d.target + d.ramp).natAbs ≤ 500000 then s.wr (R.CLK_DOMx_STATUS_clamp x) 0
  else if s.is (R.CLK_DOMx_STATUS_clamp x) then s
  else (s.wr (R.CLK_DOMx_STATUS_clamp x) 1).domFault x (R.CLK_DOMx_INT_STATUS_clamp x)

/-- The DPLL's frequency moves toward `ppb` (R280). -/
def State.steer (s : State) (x : Nat) (ppb : Int) : State :=
  (s.setDpll x { s.dpll x with f0 := s.loopFreq x, target := ppb, since := s.now }).judgeClamp x

/-- A pass-through ramp starts or ends: an offset in ppb (R282, R285). -/
def State.setRamp (s : State) (x : Nat) (ppb : Int) : State :=
  ((s.setDpll x { s.dpll x with ramp := ppb }).wr (R.CLK_DOMx_STATUS_ramp x) (b2n (ppb ≠ 0))).judgeClamp x

/-! ## Sample-number alignment (R291; 14 R375) -/

/-- The LEAD candidate decides the sample numbers of the domain: selected on a device that holds MEMBER (14 R375). -/
def State.leadNumbers (s : State) (x : Nat) : Bool := s.holds 7 && s.selected x == 8

/-- The domain's sample number less floor(T × fs) of its bound time base, or less the lead's (R291; 02 R49). -/
def State.numberDrift (s : State) (x : Nat) : Int :=
  if s.leadNumbers x then (s.dpll x).leadOffset
  else
    let t := (s.tb (s.rd (R.CLK_DOMx_CFG_tb x))).value
    ((s.dom x).sample.toNat : Int) - (t * s.fs x / (10 ^ 9 * 2 ^ 48) : Nat)

/-- |phase error| ≤ 1/64 of a sample (R291, R292), the phase in ps. -/
def State.phaseNear (s : State) (x : Nat) (ps : Int) : Bool := decide (ps.natAbs * 64 * s.fs x ≤ 10 ^ 12)

/-- The phase error last measured, in ps. -/
def State.phase (s : State) (x : Nat) : Int := (s.reg (R.CLK_DOMx_PHASE x)).toInt

/-- aligned as R291 defines it; its clearing sets align_lost. -/
def State.judgeAligned (s : State) (x : Nat) : State :=
  let ok := s.started x && decide (s.numberDrift x = 0) && s.phaseNear x (s.phase x)
  let was := s.is (R.CLK_DOMx_STATUS_aligned x)
  let s := s.wr (R.CLK_DOMx_STATUS_aligned x) (b2n ok)
  if was && !ok then s.raise (R.CLK_DOMx_INT_STATUS_align_lost x) else s

/-- A phase error is measured and reported. -/
def State.measurePhase (s : State) (x : Nat) (ps : Ps) : State := (s.setReg (R.CLK_DOMx_PHASE x) ps).judgeAligned x

/-- CLK_DOMx_DIVERGE: [31] big, [30:0] in 1/1024 sample, saturating (R291, R297). -/
def State.divergeWord (s : State) (x : Nat) : Word :=
  let d := s.numberDrift x
  BitVec.ofNat 32 (b2n (2 ^ 20 ≤ d.natAbs) * 2 ^ 31 + ofSigned 31 (clampS 31 (d * 1024)))

/-! ## Global state (R288, R290, R295) -/

/-- Follow relations, the HOLDOVER request and CLK_OK as the domains' states decide them. -/
def State.settleClocks (s : State) : State :=
  let f := fun (x : Nat) => s.rd (R.CLK_DOMx_CFG_follow x)
  let common := fun (x y : Nat) => s.started x && s.started y && (f x == y + 1 || f y == x + 1)
  let s := s.wr R.CLK_STATUS_common (b2n (common 0 1) + 2 * b2n (common 0 2) + 4 * b2n (common 1 2))
  let on := [0, 1, 2].filter s.started
  -- a member asks for HOLDOVER only once the lead's timing is lost (03 R104, note e)
  let timed := s.holds 7 && (List.range 4).any fun k => s.is (R.NRXk_CFG_upstream k) && s.is (R.NRXk_STATUS_timing_valid k)
  let want := on.any (fun x => (s.dpll (s.leader x 3)).cocoon) && s.is R.CFG_HWREQ_EN_holdover && !timed
  let s := if s.is R.CLK_STATUS_hw_holdover = want then s
    else ((s.wr R.CLK_STATUS_hw_holdover (b2n want)).raise R.CLK_INT_STATUS_holdover_chg).hwMode 8 want
  let ok := s.running && !s.halted && on.all fun x =>
    let st := s.domState (s.leader x 3)
    st == 3 || st == 4
  if s.is R.CLK_STATUS_clk_ok = ok then s else (s.wr R.CLK_STATUS_clk_ok (b2n ok)).emit (.clkOk ok)

/-! ## Selection and switching -/

/-- Acquisition starts on candidate `c` in instar 1 (R279). -/
def State.acquire (s : State) (x c : Nat) : State :=
  let s := (s.wr (R.CLK_DOMx_STATUS_selected x) c).wr (R.CLK_DOMx_STATUS_stage x) 1
  let s := s.setDpll x { s.dpll x with locked := false }
  if s.domState x = 1 then s.setDomState x 2 else s

/-- Capture of candidate `c` begins; a running ramp ends at the phase it has reached (R283, R284). -/
def State.startCapture (s : State) (x c : Nat) : State :=
  let s := if s.ramping x then s.setRamp x 0 else s
  (s.wr (R.CLK_DOMx_STATUS_capturing x) c).setDomState x 4

/-- The domain selects again, as R276 to R278 and R284 decide. [DEDUCED, log entry 61] -/
def State.reselect (s : State) (x : Nat) : State :=
  if !s.ownDpll x then s else
  match s.eligible x with
  | none => s
  | some e =>
    let sel := s.selected x
    let st := s.domState x
    if st = 0 ∨ st = 1 then (if sel = e then s else s.acquire x e)
    else if st = 2 then (if sel = e then s else s.startCapture x e)
    else if st = 3 then
      let leaves := !s.qualified sel || (s.prio x sel == 15 && !s.forces x sel) || s.forces x e
        || (s.is (R.CLK_DOMx_CTRL_revertive x) && s.rd (R.CLK_DOMx_CTRL_wtr x) == 0)
      if sel ≠ e ∧ leaves then s.startCapture x e else s
    else if st = 4 then
      if s.ramping x then (if sel = e then s else s.startCapture x e)
      else if s.capturing x = e then s else s.startCapture x e
    else s

/-- Every domain selects again, and the global state follows. -/
def State.reselectAll (s : State) : State := (((s.reselect 0).reselect 1).reselect 2).settleClocks

/-- A listed candidate changed state: cand_change in every domain that lists it (R297). -/
def State.setCandState (s : State) (c v : Nat) : State :=
  if s.candState c = v then s else
  let s := s.wr (R.CLK_CANDc_STATUS_state c) v
  [0, 1, 2].foldl (fun s x =>
    if s.ownDpll x ∧ s.prio x c < 15 then s.raise (R.CLK_DOMx_INT_STATUS_cand_change x) else s) s

/-- What a lost candidate does to one domain: ref_lost and its fault, a ramp or capture of it ends, force_lost (R276, R278, R284, R285). -/
def State.loseFrom (s : State) (c x : Nat) : State :=
  if !s.ownDpll x then s else
  let s := if s.forces x c then s.raise (R.CLK_DOMx_INT_STATUS_force_lost x) else s
  let s := if s.capturing x = c then s.wr (R.CLK_DOMx_STATUS_capturing x) 15 else s
  if s.selected x = c then
    let s := s.domFault x (R.CLK_DOMx_INT_STATUS_ref_lost x)
    if s.ramping x then s.setRamp x 0 else s
  else s

/-- A candidate is disqualified with a reason; `next` is the state it goes to (R271 to R276). One not yet qualified only restarts. [DEDUCED, log entry 62] -/
def State.disqualify (s : State) (c reason next : Nat) : State :=
  let was := s.qualified c
  let s := (s.setCand c {}).setCandState c next
  if was then
    let s := ((s.wr (R.CLK_CANDc_STATUS_reason c) reason).bump (highHalf (R.CLK_CANDc_COUNT c)))
    ([0, 1, 2].foldl (fun s x => s.loseFrom c x) s).reselectAll
  else s

/-- CLK_CANDc_CFG.en as it stands: 0 disqualifies the candidate with reason disabled; 1 makes a disabled one absent (R271, R297). -/
def State.candEnable (s : State) (c : Nat) : State :=
  if s.is (R.CLK_CANDc_CFG_en c) then (if s.candState c = 0 then s.setCandState c 1 else s)
  else if s.candState c = 0 then s
  else s.disqualify c 7 0

/-- An edge candidate: WCLK_IN, FP_IN, LP_IN, PPS_IN (R269). -/
def edgeCandidate (c : Nat) : Bool := 2 ≤ c && c ≤ 5
/-- A time candidate: TIMEA, TIMEB, LEAD (R269). -/
def timeCandidate (c : Nat) : Bool := 6 ≤ c && c ≤ 8

def State.missMax (s : State) (c : Nat) : Nat := max 1 (s.rd (R.CLK_CANDc_QUAL_miss_max c))

/-- The selected candidate of a domain misses edges: the DPLL holds its frequency (R272). -/
def State.coast (s : State) (c : Nat) : State :=
  [0, 1, 2].foldl (fun s x => if s.ownDpll x ∧ s.selected x = c ∧ s.domState x ≠ 5 then s.steer x (s.loopFreq x) else s) s

/-- A miss: counted; miss_max consecutive ones disqualify, with reason activity (1) or phase hits (3) (R272). -/
def State.candMiss (s : State) (c reason : Nat) : State :=
  let s := s.bump (lowHalf (R.CLK_CANDc_COUNT c))
  let k := s.cand c
  let s := (s.setCand c { k with misses := k.misses + 1 }).coast c
  if s.missMax c ≤ k.misses + 1 then s.disqualify c reason (if reason = 1 then 1 else 2) else s

/-- CANDIDATE_WINDOW_CLOSE (10 R272): the period is good, or a miss when its window held no edge or it holds a stray edge already counted. [DEDUCED, log entry 62] -/
def execCandidateWindowClose (c : CandIx) (edge : Bool) (s : State) : Res :=
  .next (if !edgeCandidate c || s.candState c < 2 then s else
    let stray := (s.cand c).stray
    let s := s.setCand c { s.cand c with stray := false }
    if stray then s
    else if edge then s.setCand c { s.cand c with misses := 0 }
    else s.candMiss c 1)

/-- CANDIDATE_STRAY_EDGE (10 R272): the period counts as a miss, once. -/
def execCandidateStrayEdge (c : CandIx) (s : State) : Res :=
  .next (if !edgeCandidate c || s.candState c < 2 || (s.cand c).stray then s else
    (s.setCand c { s.cand c with stray := true }).candMiss c 3)

/-- A time candidate is present: its time base reports lock; LEAD while MEMBER is held and a link carries valid lead timing (R270). -/
def State.candPresent (s : State) (c : Nat) : Bool :=
  if c < 6 then true
  else if c = 8 then s.holds 7 && (List.range 4).any fun k => s.is (bitAt (R.NRXk_STATUS k) 31)
  else s.is (R.TBn_STATUS_locked (s.rd (R.CLK_CANDc_CFG_tb c)))

/-- CANDIDATE_FIRST_EDGE (10 R271): an absent candidate starts qualifying. -/
def execCandidateFirstEdge (c : CandIx) (s : State) : Res :=
  .next (if s.candState c = 1 ∧ s.candPresent c then (s.setCand c {}).setCandState c 2 else s)

/-- CANDIDATE_QUALIFIED (10 R271, R276, R277): a candidate that has qualified becomes qualified, and the domains select again. -/
def execCandidateQualified (c : CandIx) (s : State) : Res :=
  .next (if s.candState c = 2 ∧ (s.cand c).misses = 0 ∧ (s.cand c).outside = 0 ∧ s.candPresent c then
      (s.setCandState c 3).reselectAll
    else s)

/-- A frequency offset within ±freq_win of nominal (R273). -/
def State.inFreqWin (s : State) (c : Nat) (ppb : Int) : Bool :=
  decide (ppb.natAbs ≤ 2000 * min 0xE1 (s.rd (R.CLK_CANDc_QUAL_freq_win c)))

/-- The edge rate of a candidate in Hz, where it has edges (R269): none for a time candidate. -/
def State.edgeRate (s : State) (c : Nat) : Option Rat :=
  let n := s.rd (R.CLK_CANDc_CFG_nominal c)
  let frames : Rat := match n % 16 with
    | 1 => 24000 / 1001 | 2 => 24 | 3 => 25 | 4 => 30000 / 1001 | 5 => 30 | 6 => 50 | 7 => 60000 / 1001 | 8 => 60 | _ => 0
  match c with
  | 0 | 1 => some n
  | 2 => some (rateOf n)
  | 3 => some frames
  | 4 => some (frames * (n / 16 % 4096 : Nat))
  | 5 => some 1
  | _ => none

/-- The bandwidth of a domain's DPLL in Hz: its stage's, and none above f_edge / 20 (R279). -/
def State.loopBandwidth (s : State) (x : Nat) : Rat :=
  let own : Rat := match s.stage x with
    | 1 => 200 | 2 => 20 | 3 => 2
    | _ => match s.rd (R.CLK_DOMx_LOOP_bw x) with | 0 => 1 / 10 | 2 => 10 | _ => 1
  match s.edgeRate (s.selected x) with
  | some f => min own (f / 20)
  | none => own

/-- The DPLLs that follow candidate `c` come nearer to its measured frequency by as much as their bandwidth lets them (R279, R280); one that coasts,
captures, ramps or is in cocoon does not. [DESIGN CHOICE, log entry 116] -/
def State.follows (s : State) (c : Nat) (ppb : Int) : State :=
  [0, 1, 2].foldl (fun s x =>
    if s.ownDpll x ∧ s.selected x = c ∧ s.stage x ≠ 0 ∧ s.capturing x = 15 ∧ s.ramping x = false ∧ (s.dpll x).cocoon = false
        ∧ (s.cand c).misses = 0 then
      let f := s.loopFreq x
      s.steer x (max (min f ppb) (min (max f ppb) (Config.dpllFollows (s.loopBandwidth x) f ppb)))
    else s) s

/-- FREQUENCY_INTERVAL (10 R271, R273, R274, R279): the measured offset is reported and kept for the drift fit, and the DPLLs on the candidate follow it;
two consecutive intervals outside ±freq_win disqualify. Without an edge in the interval it counts as outside, and the candidate becomes absent as
it is disqualified or while it qualifies. [DEDUCED, log entry 62] -/
def execFrequencyInterval (c : CandIx) (freq : Option Ppb) (s : State) : Res :=
  .next (if s.candState c < 2 then s else
    let k := s.cand c
    let outside := fun (s : State) (next : Nat) =>
      let s := s.setCand c { s.cand c with outside := k.outside + 1 }
      if 2 ≤ k.outside + 1 then s.disqualify c 2 next else s
    match freq with
    | none => if s.candState c = 2 then (s.setCand c {}).setCandState c 1 else outside s 1
    | some f =>
      let s := s.setReg (R.CLK_CANDc_FREQ c) f
      let s := s.setCand c { k with freqs := (s.now, f.toInt) :: k.freqs.filter fun e => decide (s.now ≤ e.1 + 255 * 250000000) }
      if s.inFreqWin c f.toInt then (s.setCand c { s.cand c with outside := 0 }).follows c f.toInt else outside s 2)

/-- The slope limit in ppb/s (R274). -/
def State.driftMax (s : State) (c : Nat) : Nat := 10 * max 1 (min 0xC8 (s.rd (R.CLK_CANDc_DRIFT_drift_max c)))

/-- The qualified candidates other than `c`. -/
def State.others (s : State) (c : Nat) : List Nat := (List.range 9).filter fun d => d ≠ c && s.qualified d

/-- The slope in ppb/s of the least-squares line through measurements (cycles of 4 ns, ppb); none where they lie at one time (R274). -/
def leastSquares (ps : List (Nat × Int)) : Option Rat :=
  let n : Rat := (ps.length : Nat)
  let xs : List (Rat × Rat) := ps.map fun p => ((p.1 : Rat) / 250000000, (p.2 : Rat))
  let sx := (xs.map (·.1)).foldl (· + ·) 0
  let sy := (xs.map (·.2)).foldl (· + ·) 0
  let sxx := (xs.map fun p => p.1 * p.1).foldl (· + ·) 0
  let sxy := (xs.map fun p => p.1 * p.2).foldl (· + ·) 0
  let den := n * sxx - sx * sx
  if den = 0 then none else some ((n * sxy - sx * sy) / den)

/-- The fit of a candidate over its last drift_win seconds (R274, R297). [DEDUCED, log entry 62] -/
def State.driftFit (s : State) (c : Nat) : Option (BitVec 16) :=
  let win := max 8 (s.rd (R.CLK_CANDc_DRIFT_drift_win c))
  (leastSquares ((s.cand c).freqs.filter fun e => decide (s.now ≤ e.1 + win * 250000000))).map fun r =>
    BitVec.ofInt 16 (clampS 16 r.floor)

/-- DRIFT_FIT (10 R274): the fitted slope is reported; beyond drift_max it disqualifies, or is attributed to OSC_IN when two others share it. -/
def execDriftFit (c : CandIx) (s : State) : Res :=
  .next (if !s.is (R.CLK_CANDc_DRIFT_drift_en c) || s.candState c < 2 then s else
    match s.driftFit c with
    | none => s
    | some slope =>
    let s := s.setReg (R.CLK_CANDc_SLOPE c) (BitVec.ofNat 32 (2 ^ 31 + slope.toNat))
    let m := s.driftMax c
    if slope.toInt.natAbs ≤ m then s else
    let alike := (s.others c).filter fun d =>
      let w := s.reg (R.CLK_CANDc_SLOPE d)
      w.getLsbD 31 && decide (2 * ((w.setWidth 16).toInt - slope.toInt).natAbs ≤ m)
    if 2 ≤ alike.length then s.raise R.CLK_INT_STATUS_osc_drift
    else if s.qualified c then s.disqualify c 4 2 else s)

/-- Candidate `c` differs by more than xc from two other qualified candidates that agree within xc (R275). -/
def State.outvoted (s : State) (c : Nat) : Bool :=
  let xc := 100 * max 1 (s.rd (R.CLK_CANDc_DRIFT_xc c))
  let f := fun (d : Nat) => (s.reg (R.CLK_CANDc_FREQ d)).toInt
  (s.others c).any fun a => (s.others c).any fun b =>
    a ≠ b && decide ((f a - f b).natAbs ≤ xc) && decide (xc < (f c - f a).natAbs) && decide (xc < (f c - f b).natAbs)

/-- CROSS_CHECK_OUTVOTED (10 R275): a candidate outvoted for 16 s is disqualified. -/
def execCrossCheckOutvoted (c : CandIx) (s : State) : Res :=
  .next (if s.is (R.CLK_CANDc_DRIFT_xc_en c) && s.qualified c && s.outvoted c then s.disqualify c 5 2 else s)

/-- A time candidate loses its source (R273). -/
def State.sourceLoss (s : State) (c : Nat) : State := if s.candState c < 2 then s else s.disqualify c 6 1

/-- TIME_CANDIDATE_SOURCE_LOSS (10 R273). -/
def execTimeCandidateSourceLoss (c : CandIx) (s : State) : Res := .next (if timeCandidate c then s.sourceLoss c else s)

/-- WAIT_TO_RESTORE_EXPIRY (10 R277): in a revertive locked domain the higher-ranked candidate, which is the eligible one, is taken. -/
def execWaitToRestoreExpiry (x : DomIx) (s : State) : Res :=
  .next (match s.eligible x with
    | some e =>
      if s.ownDpll x ∧ s.domState x = 3 ∧ s.is (R.CLK_DOMx_CTRL_revertive x) ∧ e ≠ s.selected x
      then (s.startCapture x e).settleClocks else s
    | none => s)

/-- What the force fields decide after a write (R278). -/
def State.forceEffect (s : State) (x : Nat) : State :=
  let f := s.rd (R.CLK_DOMx_CTRL_force_sel x)
  let s := if s.is (R.CLK_DOMx_CTRL_force_en x) && !(decide (f ≤ 8) && s.qualified f)
    then s.raise (R.CLK_DOMx_INT_STATUS_force_lost x) else s
  (s.reselect x).settleClocks

/-- FORCE_WRITE (10 R278). -/
def execForceWrite (x : DomIx) (en : Bool) (sel : BitVec 4) (s : State) : Res :=
  .next (((s.sw (R.CLK_DOMx_CTRL_force_en x) (b2n en)).sw (R.CLK_DOMx_CTRL_force_sel x) sel.toNat).forceEffect x)

/-- SWITCH_CAPTURE_START (10 R283): the domain takes the eligible candidate where R276 and R277 let it. -/
def execSwitchCaptureStart (x : DomIx) (s : State) : Res := .next ((s.reselect x).settleClocks)

/-- A switch is complete: switched, and cocoon_out where it left cocoon (R283, R287). -/
def State.switchDone (s : State) (x : Nat) : State :=
  let s := (s.raise (R.CLK_DOMx_INT_STATUS_switched x)).bump (lowHalf (R.CLK_DOMx_COUNT x))
  let s := s.setDomState x (if s.stage x = 4 then 3 else 2)
  if (s.dpll x).cocoon then
    (s.setDpll x { s.dpll x with cocoon := false }).raise (R.CLK_DOMx_INT_STATUS_cocoon_out x)
  else s

/-- The phase offset a pass-through removes: by the shortest way, at most half a sample (R282). -/
def State.shortest (s : State) (x : Nat) (ps : Int) : Int :=
  let t : Int := (10 ^ 12 / s.fs x : Nat)
  if t = 0 then ps else (let r := ps % t; if 2 * r ≤ t then r else r - t)

/-- SWITCH_CAPTURE_END (10 R282, R283): `offset` is the new reference's phase less the output's, in ps, later positive. The build-out offset is
loaded and the switch is complete, or the pass-through ramp runs, slow where the reference lags. [DEDUCED, log entry 64] -/
def execSwitchCaptureEnd (x : DomIx) (offset : Ps) (s : State) : Res :=
  .next (let c := s.capturing x
    if c = 15 ∨ s.domState x ≠ 4 ∨ ¬s.qualified c then s else
    let s := (s.wr (R.CLK_DOMx_STATUS_selected x) c).wr (R.CLK_DOMx_STATUS_capturing x) 15
    let pass := timeCandidate c || (edgeCandidate c && s.is (R.CLK_DOMx_CTRL_step_mode x))
    if !pass then ((s.setReg (R.CLK_DOMx_BOFF x) offset).switchDone x).settleClocks
    else
      let s := s.setReg (R.CLK_DOMx_BOFF x) 0
      let d := s.shortest x offset.toInt
      if d = 0 then (s.switchDone x).settleClocks
      else
        let pt : Int := 1000 * max 50 (min 450 (s.rd (R.CLK_DOMx_LOOP_pt_ppm x)))
        (s.setRamp x (if 0 < d then -pt else pt)).settleClocks)

/-- PASS_THROUGH_RAMP_END (10 R282, R283): the ramp reaches the reference phase. -/
def execPassThroughRampEnd (x : DomIx) (s : State) : Res :=
  .next (if s.ramping x then ((s.setRamp x 0).switchDone x).settleClocks else s)

/-- The limit on |phase error| of a stage, in ps (R279). -/
def stageLimit : Nat → Nat
  | 1 => 1000000 | 2 => 100000 | _ => 20000

/-- The loader starts a domain (R280): following, locked, acquiring, or free without a selected candidate. -/
def State.startDomain (s : State) (x : Nat) : State :=
  let s := s.wr (R.CLK_DOMx_CFG_started x) 1
  let s := { s with glb := { s.glb with clocksWaiting := s.glb.clocksWaiting.filter (· ≠ x) } }
  let st := if s.rd (R.CLK_DOMx_CFG_follow x) ≠ 0 then 6
    else if s.selected x = 15 then 1 else if s.stage x = 4 then 3 else 2
  (s.setDomState x st).settleClocks

/-- A domain is started, and with it every waiting domain that follows it (R280). [DEDUCED, log entry 43] -/
def State.startDomains (s : State) (x : Nat) : State :=
  let s := s.startDomain x
  (s.glb.clocksWaiting.filter fun y => s.leader y 3 = x).foldl (fun s y => s.startDomain y) s

/-- DPLL_STAGE_ADVANCE (10 R279, R280): the phase error has stayed within the stage's limit; the first imago of an acquisition sets
locked, and at instar 3 the loader starts a domain it waits for. -/
def execDpllStageAdvance (x : DomIx) (phase : Ps) (freq : Ppb) (s : State) : Res :=
  .next (let g := s.stage x
    if !s.ownDpll x || s.selected x == 15 || !s.qualified (s.selected x) || s.capturing x != 15 || s.ramping x || g == 0 || 4 ≤ g
        || (s.cand (s.selected x)).misses != 0 || (s.dpll x).cocoon || decide (stageLimit g < phase.toInt.natAbs) then s else
    let s := ((s.wr (R.CLK_DOMx_STATUS_stage x) (g + 1)).steer x freq.toInt).measurePhase x phase
    let s := if 3 ≤ g + 1 ∧ s.glb.clocksWaiting.contains x.val then s.startDomains x else s
    if g + 1 < 4 then s.settleClocks
    else
      let first := !(s.dpll x).locked
      let s := s.setDpll x { s.dpll x with everImago := true, locked := true }
      let s := if first then s.raise (R.CLK_DOMx_INT_STATUS_locked x) else s
      (if s.domState x = 2 then s.setDomState x 3 else s).settleClocks)

/-- IMAGO_FALLBACK (10 R279): an imago whose phase error exceeds 1 µs for 1 s falls back to instar 3. -/
def execImagoFallback (x : DomIx) (phase : Ps) (s : State) : Res :=
  .next (if s.stage x = 4 ∧ s.selected x ≠ 15 ∧ 1000000 < phase.toInt.natAbs then
      (s.wr (R.CLK_DOMx_STATUS_stage x) 3).measurePhase x phase
    else s)

/-- The cocoon frequency (R286). -/
def State.cocoonFreq (s : State) (x : Nat) (r : FreqRecord) : Int :=
  if !(s.dpll x).everImago then s.loopFreq x
  else if r.imagoMs < 60500 then r.meanImago.toInt
  else r.mean60.toInt

/-- The domain enters cocoon; a running switch is abandoned at the phase it has reached (R286, R287). [DEDUCED, log entry 63] -/
def State.enterCocoon (s : State) (x : Nat) (r : FreqRecord) : State :=
  let f := s.cocoonFreq x r
  let s := if s.ramping x then s.setRamp x 0 else s
  let s := (s.wr (R.CLK_DOMx_STATUS_capturing x) 15).wr (R.CLK_DOMx_STATUS_selected x) 15
  let s := (s.setReg (R.CLK_DOMx_HOLD x) (BitVec.ofInt 32 f)).steer x f
  let s := (s.setDpll x { s.dpll x with cocoon := true }).setDomState x 5
  ((s.bump (highHalf (R.CLK_DOMx_COUNT x))).domFault x (R.CLK_DOMx_INT_STATUS_cocoon_in x)).settleClocks

/-- Nothing keeps the domain on a reference: no candidate is eligible and its own is lost, or hold is 1 (R286). -/
def State.cocoonDue (s : State) (x : Nat) : Bool :=
  let sel := s.selected x
  let kept := s.qualified sel && (decide (s.prio x sel < 15) || s.forces x sel)
  s.is (R.CLK_DOMx_CTRL_hold x) || (s.eligible x == none && (s.domState x == 4 || sel != 15) && !kept)

/-- COCOON_ENTRY (10 R286). [DEDUCED, log entry 21] -/
def execCocoonEntry (x : DomIx) (rec : FreqRecord) (s : State) : Res :=
  .next (if s.ownDpll x && s.started x && s.domState x != 5 && s.cocoonDue x then s.enterCocoon x rec else s)

/-- The domain leaves cocoon by a switch to the eligible candidate (R287). [DEDUCED, log entry 63] -/
def State.leaveCocoon (s : State) (x : Nat) : State :=
  match s.eligible x with
  | some e => if s.domState x = 5 ∧ s.is (R.CLK_DOMx_CTRL_hold x) = false then (s.startCapture x e).settleClocks else s
  | none => s

/-- COCOON_EXIT (10 R287). [DEDUCED, log entry 63] -/
def execCocoonExit (x : DomIx) (s : State) : Res := .next (s.leaveCocoon x)

/-- CLK_HOLD_WRITE (10 R286, R287). [DEDUCED, log entry 21] -/
def execClkHoldWrite (x : DomIx) (hold : Bool) (rec : FreqRecord) (s : State) : Res :=
  .next (let s := s.sw (R.CLK_DOMx_CTRL_hold x) (b2n hold)
    if s.is (R.CLK_DOMx_CTRL_hold x) then
      (if s.ownDpll x && s.started x && s.domState x != 5 then s.enterCocoon x rec else s)
    else s.leaveCocoon x)

/-- ALIGN_LOST (10 R291): a measurement after which the limits of R291 no longer hold clears aligned and sets align_lost. -/
def execAlignLost (x : DomIx) (phase : Ps) (s : State) : Res := .next (s.measurePhase x phase)

/-- The selected candidate is a time candidate on the domain's own time base (R292; 14 R375 for LEAD). -/
def State.ownTime (s : State) (x : Nat) : Bool :=
  let c := s.selected x
  (c == 8 && s.holds 7) || ((c == 6 || c == 7) && s.rd (R.CLK_CANDc_CFG_tb c) == s.rd (R.CLK_DOMx_CFG_tb x))

/-- A write of realign: accepted under R292, with the boundary at the first tick boundary at least 32 samples ahead, or refused. -/
def State.requestRealign (s : State) (x : Nat) : State :=
  let d := s.dom x
  if s.started x ∧ s.ownTime x ∧ s.domState x = 3 ∧ s.stage x = 4 ∧ s.phaseNear x (s.phase x)
      ∧ s.is (R.CLK_DOMx_STATUS_realign_pending x) = false ∧ d.b ≠ 0 then
    -- the outputs have 32 samples to fade, after a fade or a zero interval that runs
    let at_ := ceilDiv (d.freeFrom + 33) d.b * d.b
    (s.setDom x { d with realignAt := some (BitVec.ofNat 64 at_) }).wr (R.CLK_DOMx_STATUS_realign_pending x) 1
  else s.raise (R.CLK_DOMx_INT_STATUS_align_refused x)

/-- REALIGN_WRITE (10 R292). -/
def execRealignWrite (x : DomIx) (s : State) : Res := .next (s.requestRealign x)

/-- A follow relation is removed at a take: the former follower's DPLL starts in the imago at its current phase and frequency, then
selects from its own list (R290). -/
def State.unfollow (s : State) (x from_ : Nat) : State :=
  let f := s.mediaFreq from_
  let s := s.setDpll x { s.dpll x with f0 := f, target := f, since := s.now, ramp := 0, everImago := true, locked := true, cocoon := false }
  let s := ((s.wr (R.CLK_DOMx_STATUS_stage x) 4).wr (R.CLK_DOMx_STATUS_selected x) 15).setDomState x 4
  (s.reselect x).settleClocks

/-! ## Outputs and OSC_IN (R294, R296) -/

def State.pulseOut (s : State) (o : Nat) : Pulse := Tab.get (fun _ => {}) s.pulses o
def State.setPulse (s : State) (o : Nat) (p : Pulse) : State := { s with pulses := Tab.set (fun _ => {}) s.pulses o p }

/-- PULSE_OUTPUT_REALIGN (10 R294): after the pulse in progress, the next one starts at an alignment point. -/
def execPulseOutputRealign (o : Fin 3) (s : State) : Res := .next (s.setPulse o { s.pulseOut o with realign := true })

/-- The next edge of a pulse output: the cycles of 1024 × fs to the nearest edge, and the placement error carried forward (R294). -/
def pulseStep (num den : Nat) (error : Int) : Int × Int :=
  let den := max 1 den
  let due : Int := num * 1024 + error
  let cycles := (2 * due + den) / (2 * den)
  (cycles, due - cycles * den)

/-- PULSE_OUTPUT_PULSE (10 R294): an enabled pulse output emits a pulse after its period; a realigned one at its alignment point. The
misalignment CLK measures is reported, 0x8000_0000 while the alignment source is absent. -/
def execPulseOutputPulse (o : Fin 3) (misalignment : Option (BitVec 32)) (s : State) : Res :=
  .next (let r := 4 + o.val
    if !s.is (R.CLK_OUTo_CTRL_en r) then s else
    let p := s.pulseOut o
    let num := s.rd ⟨R.CLK_OUTo_PERIOD r, 0, 20⟩
    let den := s.rd ⟨R.CLK_OUTo_PERIOD r, 20, 12⟩
    let (cycles, err) := if o = 2 ∨ p.realign then (0, 0) else pulseStep num den p.error
    let s := s.setPulse o { error := err, realign := false }
    let s := s.setReg (R.CLK_OUTo_OFFSET r) (if p.realign then 0 else misalignment.getD 0x80000000)
    s.emit (.pulse o cycles.toNat (max 1 (s.rd (R.CLK_OUTo_CTRL_width r))) (s.is (R.CLK_OUTo_CTRL_inv r))))

/-- OSC_IN_STOPPED (10 R296; 19 R481): a level-4 fault of source 2, code 0. -/
def execOscInStopped (s : State) : Res := .next (s.report 2 0 4)

/-- The median of the frequencies of the qualified candidates, in ppb against OSC_IN (R296). [DEDUCED, log entry 62] -/
def State.medianFreq (s : State) : Option Int :=
  let fs := (((List.range 9).filter s.qualified).map fun c => (s.reg (R.CLK_CANDc_FREQ c)).toInt).insertionSort (· ≤ ·)
  if fs = [] then none else some ((fs.getD ((fs.length - 1) / 2) 0 + fs.getD (fs.length / 2) 0) / 2)

/-- OSC_WARN (10 R296): OSC_IN is compared with the median of the qualified candidates and its offset reported; beyond ±100 ppm it sets osc_warn and
reports a level-1 fault. -/
def execOscWarn (s : State) : Res :=
  .next (match s.medianFreq with
    | none => s
    | some m =>
    let offset := -m
    let s := s.setReg R.CLK_OSC_DEV (BitVec.ofInt 32 offset)
    if offset.natAbs ≤ 100000 then s.wr R.CLK_STATUS_osc_warn 0
    else if s.is R.CLK_STATUS_osc_warn then s
    else ((s.wr R.CLK_STATUS_osc_warn 1).raise R.CLK_INT_STATUS_osc_warn).report 4 2 1)

end Sys2Proof.Machine
end

