-- ==== Sys2Proof/Machine/Time.lean ====
section
/-!
DEFINITION. Time bases and network time (11 R298 to R318): counting, setting and stepping, the PI servo, derived time bases, and the
transmit timestamp queues.
-/
namespace Sys2Proof.Machine

/-- TBn_CTRL.mode: 0 off, 1 free, 2 servo, 3 derived (R300). -/
def State.tbMode (s : State) (n : Nat) : Nat := s.rd (R.TBn_CTRL_mode n)
/-- TBn_STATUS.state (R300). -/
def State.tbState (s : State) (n : Nat) : Nat := s.rd (R.TBn_STATUS_state n)
def State.setTbState (s : State) (n v : Nat) : State := s.wr (R.TBn_STATUS_state n) v
/-- The rate adjustment in force, in 2^-16 ppm. -/
def State.tbAdj (s : State) (n : Nat) : Int := (s.reg (R.TBn_ADJ n)).toInt

/-- One nanosecond, and one second, in units of 2^-48 ns. -/
def oneNs : Nat := 2 ^ 48
def oneSecond : Nat := 10 ^ 9 * 2 ^ 48

/-- What a control-clock cycle adds to a time base: 4 ns × (1 + adj × 10^-6), in 2^-48 ns (R298). [DEDUCED, log entry 65] -/
def tbIncrement (adj : Int) : Int := 2 ^ 50 + adj * 2 ^ 34 / 10 ^ 6

/-- A rate adjustment in ppm, clamped to ±500 ppm and put in force; a clamped one sets clamp (R301, R303). [DEDUCED, log entry 65] -/
def State.setTbAdj (s : State) (n : Nat) (ppm : Rat) : State :=
  let c := max (-500) (min 500 ppm)
  let s := s.setReg (R.TBn_ADJ n) (BitVec.ofInt 32 (c * 65536).floor)
  if c = ppm then s else s.raise (R.TBn_INT_STATUS_clamp n)

/-- A value moved by a number of 2^-48 ns; the format wraps at 2^48 seconds (R298). [DEDUCED, log entry 65] -/
def tbMove (v : Nat) (d : Int) : Nat := (((v : Int) + d) % ((2 ^ 48 * oneSecond : Nat) : Int)).toNat

/-- The derived time bases whose source in use is `n`. -/
def State.derivedFrom (s : State) (n : Nat) : List Nat :=
  (List.range 4).filter fun d => s.tbMode d = 3 ∧ (s.tbState d = 5 ∨ s.tbState d = 6) ∧ s.rd (R.TBn_STATUS_source d) = n

/-- The offset o of derived time base `d` against its source `n`, from their values (R307), shown in TBn_OFFSET (R308). -/
def State.loadOffset (s : State) (d n : Nat) : State :=
  let o : Rat := (((s.tb d).value : Int) - (s.tb n).value : Int) / ((oneNs : Nat) : Rat)
  (s.setTb d { s.tb d with o := o }).setReg (R.TBn_OFFSET d) (BitVec.ofInt 32 (clampS 32 o.floor))

/-- The CLK time candidates that name time base `n` lose their source (R273, R304). -/
def State.timeSourceLoss (s : State) (n : Nat) : State :=
  [6, 7].foldl (fun s c => if s.rd (R.CLK_CANDc_CFG_tb c) = n then s.sourceLoss c else s) s

/-- A time base has been stepped or loaded: stepped is set and counted, its time candidates are disqualified (10 R273), and the derived
time bases on it keep their value (R307). -/
def State.tbStepped (s : State) (n : Nat) : State :=
  let s := ((s.raise (R.TBn_INT_STATUS_stepped n)).bump (lowHalf (R.TBn_COUNT n))).timeSourceLoss n
  (s.derivedFrom n).foldl (fun s d => s.loadOffset d n) s

/-- Add a signed offset in 2^-16 ns to a time base (R302); off, its value holds at 0 (R300). -/
def State.stepTb (s : State) (n : Nat) (off : Int) : State :=
  let v := if s.tbMode n = 0 then 0 else tbMove (s.tb n).value (off * 2 ^ 32)
  (s.setTb n { s.tb n with value := v }).tbStepped n

/-- Load a value in 2^-48 ns into a time base (R302). [DEDUCED, log entry 65] -/
def State.loadTb (s : State) (n v : Nat) : State :=
  (s.setTb n { s.tb n with value := if s.tbMode n = 0 then 0 else v }).tbStepped n

/-! ## Reading (R299) -/

/-- The four words of a time base value: fraction, nanoseconds, seconds [31:0], seconds [47:32] (R299). -/
def timeWords (v : Nat) : Word × Word × Word × Word :=
  (BitVec.ofNat 32 (tbFrac v), BitVec.ofNat 32 (tbNanos v), BitVec.ofNat 32 (tbSeconds v), BitVec.ofNat 32 (tbSeconds v / 2 ^ 32))

/-- TIME_SNAP (11 R299): all four time bases captured in one cycle; a second snap replaces captures not yet read. -/
def State.snapTimes (s : State) : State :=
  [0, 1, 2, 3].foldl (fun s n => s.setTb n { s.tb n with capture := some (timeWords (s.tb n).value) }) s

def execTimeSnap (s : State) : Res := .next s.snapTimes

/-- A read of TBn_TIME0: the capture of an unread snap, or the value as R17 copies it (R299). -/
def State.readTime0 (s : State) (n : Nat) : Word × State :=
  let t := s.tb n
  let (w0, w1, w2, w3) := t.capture.getD (timeWords t.value)
  let s := ((s.setSnap (R.TBn_TIME1 n) (some w1)).setSnap (R.TBn_TIME2 n) (some w2)).setSnap (R.TBn_TIME3 n) (some w3)
  (w0, s.setTb n { t with capture := none })

/-! ## Wide writes (00 R17) -/

/-- The lower word of a wide value as it stands at the write of the highest one, which now takes effect. -/
def State.takeLow (s : State) (a : Nat) : State :=
  match s.heldLow a with
  | some w => (s.setReg a w).setHeldLow a none
  | none => s

/-- A signed 64-bit offset of TBn_STEP or TBn_MEAS, with [15:0] the fraction of a nanosecond (R302). -/
def State.offset64 (s : State) (lo hi : Nat) : Int := (BitVec.ofNat 64 (s.wide lo hi)).toInt

/-- TIME_BASE_LOAD (11 R302): the write of TBn_SET3 loads the value of the four words; in derived mode it is stored. -/
def execTimeBaseLoad (n : TbIx) (set3 : Word) (s : State) : Res :=
  .next (let s := (((s.takeLow (R.TBn_SET0 n)).takeLow (R.TBn_SET1 n)).takeLow (R.TBn_SET2 n)).setReg (R.TBn_SET3 n) set3
    let secs := (s.reg (R.TBn_SET2 n)).toNat + getBits set3 0 16 * 2 ^ 32
    let v := (secs * oneSecond + (s.reg (R.TBn_SET1 n)).toNat * oneNs + getBits (s.reg (R.TBn_SET0 n)) 0 16 * 2 ^ 32)
      % (2 ^ 48 * oneSecond)
    if s.tbMode n = 3 then s.setTb n { s.tb n with storedLoad := some v, storedStep := none } else s.loadTb n v)

/-- TIME_BASE_STEP (11 R302): the write of TBn_STEP_HI adds the offset; in derived mode it is stored. -/
def execTimeBaseStep (n : TbIx) (stepHi : Word) (s : State) : Res :=
  .next (let s := (s.takeLow (R.TBn_STEP_LO n)).setReg (R.TBn_STEP_HI n) stepHi
    let off := s.offset64 (R.TBn_STEP_LO n) (R.TBn_STEP_HI n)
    if s.tbMode n = 3 then s.setTb n { s.tb n with storedStep := some (((s.tb n).storedStep.getD 0) + off) } else s.stepTb n off)

/-- TIME_BASE_ADJ_WRITE (11 R301): in free mode the clamped adjustment takes effect; in every other mode the write is ignored. -/
def execTimeBaseAdjWrite (n : TbIx) (value : Word) (s : State) : Res :=
  .next (if s.tbMode n = 1 then s.setTbAdj n (value.toInt / 65536 : Rat) else s)

/-! ## Derived time bases (R306 to R308) -/

/-- A source counts as locked: free, or a servo in state 3 (R306). -/
def State.sourceLocked (s : State) (n : Nat) : Bool := s.tbMode n == 1 || (s.tbMode n == 2 && s.tbState n == 3)

/-- A time base reports lock to PTP (R300). -/
def State.reportsLock (s : State) (n : Nat) : Bool :=
  s.tbState n == 3 || ((s.tbState n == 5 || s.tbState n == 6) && s.tbState (s.rd (R.TBn_STATUS_source n)) == 3)

/-- TBn_STATUS.locked follows; a time base that loses lock disqualifies its time candidates (10 R273). -/
def State.judgeLock (s : State) (n : Nat) : State :=
  let was := s.is (R.TBn_STATUS_locked n)
  let is_ := s.reportsLock n
  let s := s.wr (R.TBn_STATUS_locked n) (b2n is_)
  if was && !is_ then s.timeSourceLoss n else s

/-- A change of the source in use: o and f are loaded so that value and rate are continuous; switched, and into state 7 a level-1 fault
(R307, R308). -/
def State.useSource (s : State) (d st src : Nat) : State :=
  let s := (s.setTbState d st).raise (R.TBn_INT_STATUS_switched d)
  let s := s.setTb d { s.tb d with restoring := false }
  if st = 7 then s.report (8 + d) 3 1
  else
    let s := (s.wr (R.TBn_STATUS_source d) src).loadOffset d src
    s.setTb d { s.tb d with f := (s.tbAdj d - s.tbAdj src : Int) / (65536 : Rat) }

/-- The source in use of a derived time base as R306 chooses it; a primary that locks while the secondary is in use waits wtr seconds. -/
def State.judgeDerived (s : State) (d : Nat) : State :=
  if s.tbMode d ≠ 3 then s else
  let p := s.rd (R.TBn_DERIVE_primary d)
  let q := s.rd (R.TBn_DERIVE_secondary d)
  let pOk := s.sourceLocked p
  let qOk := s.is (R.TBn_DERIVE_sec_en d) && s.sourceLocked q
  match s.tbState d with
  | 5 => if pOk then s else if qOk then s.useSource d 6 q else s.useSource d 7 0
  | 6 =>
    if qOk then
      if pOk then (if s.rd (R.TBn_DERIVE_wtr d) = 0 then s.useSource d 5 p else s.setTb d { s.tb d with restoring := true })
      else s.setTb d { s.tb d with restoring := false }
    else if pOk then s.useSource d 5 p else s.useSource d 7 0
  | 7 => if pOk then s.useSource d 5 p else if qOk then s.useSource d 6 q else s
  | _ => if pOk then s.useSource d 5 p else if qOk then s.useSource d 6 q else s.setTbState d 7

/-- A servo's or a mode's change reaches the derived time bases and the lock reports in the same cycle. -/
def State.settleTimes (s : State) : State :=
  let s := [0, 1, 2, 3].foldl (fun s d => s.judgeDerived d) s
  [0, 1, 2, 3].foldl (fun s n => s.judgeLock n) s

/-- DERIVED_SOURCE_CHANGE (11 R306 to R308). -/
def execDerivedSourceChange (n : TbIx) (s : State) : Res := .next ((s.judgeDerived n).judgeLock n)

/-- DERIVED_WTR_EXPIRY (11 R306): the primary, locked for wtr seconds, replaces the secondary in use. -/
def execDerivedWtrExpiry (n : TbIx) (s : State) : Res :=
  .next (let p := s.rd (R.TBn_DERIVE_primary n)
    if s.tbMode n = 3 ∧ s.tbState n = 6 ∧ (s.tb n).restoring ∧ s.sourceLocked p then (s.useSource n 5 p).judgeLock n else s)

/-- fo_max in ppm (R307, R318). -/
def State.foMax (s : State) (d : Nat) : Rat := ((max 1 (min 0x64 (s.rd (R.TBn_DERIVE_fo_max d))) : Nat) : Rat) / 10

/-- 0.1 ppm/s over one control-clock cycle, in ppm (R307). -/
def foSlope : Rat := 4 / 10 ^ 10

/-- One cycle of the fastest return of o and f to zero (R307): f moves against o at the full slope until it must turn back to reach zero
together with o. [DEDUCED, log entry 66] -/
def returnStep (foMax o f : Rat) : Rat × Rat :=
  -- the offset, in ns, that f still adds while it falls to zero at 0.1 ppm/s: 1000 f² / (2 × 0.1)
  let rest := o + 5000 * f * f * (if f < 0 then -1 else 1)
  let f' := if 0 < rest then f - foSlope else if rest < 0 then f + foSlope else f
  let f' := max (-foMax) (min foMax f')
  (o + f' * 4 / 10 ^ 6, f')

/-- One control-clock cycle of time base `n` (R298, R307). [DEDUCED, log entry 66] -/
def State.tbCycle (s : State) (n : Nat) : State :=
  if s.tbMode n = 0 then s
  else if s.tbMode n = 3 ∧ (s.tbState n = 5 ∨ s.tbState n = 6) then
    let src := s.rd (R.TBn_STATUS_source n)
    let t := s.tb n
    let (o, f) := returnStep (s.foMax n) t.o t.f
    let v := tbMove (s.tb src).value (o * oneNs).floor
    let s := s.setTb n { t with value := v, o := o, f := f }
    let s := s.setReg (R.TBn_OFFSET n) (BitVec.ofInt 32 (clampS 32 o.floor))
    s.setReg (R.TBn_ADJ n) (BitVec.ofInt 32 (s.tbAdj src + (f * 65536).floor))
  else s.setTb n { s.tb n with value := tbMove (s.tb n).value (tbIncrement (s.tbAdj n)) }

/-- One control-clock cycle of every time base, the derived ones after their sources. [DESIGN CHOICE, log entry 2] -/
def State.timeCycle (s : State) : State :=
  let derived := fun (n : Nat) => s.tbMode n == 3
  let s' := [0, 1, 2, 3].foldl (fun s n => if derived n then s else s.tbCycle n) s
  [0, 1, 2, 3].foldl (fun s n => if derived n then s.tbCycle n else s) s'

/-- DERIVED_PROFILE_END (11 R307): o and f have come to zero, within the resolution of the time format. [DEDUCED, log entry 66] -/
def execDerivedProfileEnd (n : TbIx) (s : State) : Res :=
  .next (let t := s.tb n
    let small := fun (r : Rat) => decide (-1 ≤ r * 65536) && decide (r * 65536 ≤ 1)
    if s.tbMode n = 3 ∧ (s.tbState n = 5 ∨ s.tbState n = 6) ∧ small t.o ∧ small t.f then
      let src := s.rd (R.TBn_STATUS_source n)
      let s := s.setTb n { t with value := (s.tb src).value, o := 0, f := 0 }
      (s.setReg (R.TBn_OFFSET n) 0).setReg (R.TBn_ADJ n) (BitVec.ofInt 32 (s.tbAdj src))
    else s)

/-- A new mode starts at a take, from the current value and rate; a stored load or step acts in a non-derived mode (R300, R302). -/
def State.tbModeStarts (s : State) (n : Nat) : State :=
  let t := s.tb n
  let m := s.tbMode n
  let s := s.setTb n { t with good := 0, restoring := false, integral := (s.tbAdj n : Int) / (65536 : Rat)
                              storedLoad := if m = 3 then t.storedLoad else none
                              storedStep := if m = 3 then t.storedStep else none
                              value := if m = 0 then 0 else t.value }
  let s := s.setTbState n (match m with | 0 => 0 | 1 => 1 | 2 => 2 | _ => 7)
  let s := if m = 0 then s.setReg (R.TBn_ADJ n) 0 else s
  let s := if m = 3 then s else
    let s := match t.storedLoad with | some v => s.loadTb n v | none => s
    match t.storedStep with | some d => s.stepTb n d | none => s
  s.settleTimes

/-! ## The servo (R303 to R305) -/

/-- The time base leaves locked: unlocked, a level-1 fault, the lock loss counted (R304). -/
def State.unlockTb (s : State) (n : Nat) : State :=
  ((s.raise (R.TBn_INT_STATUS_unlocked n)).bump (highHalf (R.TBn_COUNT n))).report (8 + n) 1 1

/-- The time base moves to state `st`, with the effects of leaving locked (R304). -/
def State.servoState (s : State) (n st : Nat) : State :=
  let was := s.tbState n
  let s := (s.setTbState n st).setTb n { s.tb n with good := 0 }
  (if was = 3 ∧ st ≠ 3 then s.unlockTb n else s).settleTimes

/-- The measurement counts toward lock, or against it (R304); `o` in ns. -/
def State.countMeasurement (s : State) (n : Nat) (o : Rat) : State :=
  let mag := max o (-o)
  if s.tbState n = 3 then
    if (s.rd (R.TBn_THRESH_unlock_thr n) * 10 : Nat) < mag then s.servoState n 2 else s
  else
    let good := if mag ≤ (s.rd (R.TBn_THRESH_lock_thr n) : Nat) then (s.tb n).good + 1 else 0
    let s := s.setTb n { s.tb n with good := good }
    if max 1 (s.rd (R.TBn_SERVO_CFG_lock_n n)) ≤ good then
      ((s.setTbState n 3).raise (R.TBn_INT_STATUS_locked n)).settleTimes
    else s

/-- kp or ki in ppm per ns: u8.16 ppb per ns (R303). -/
def State.gain (s : State) (a : Nat) : Rat := ((s.rd ⟨a, 0, 24⟩ : Nat) : Rat) / 65536 / 1000

/-- The servo acts on a measured offset of `o` ns (R303). -/
def State.servo (s : State) (n : Nat) (o : Rat) : State :=
  let mag := max o (-o)
  let hold := s.is (R.TBn_CTRL_servo_hold n)
  if !hold && s.is (R.TBn_SERVO_CFG_step_en n) && s.tbState n == 2
      && decide (((max 1 (s.rd (R.TBn_THRESH_step_thr n)) * 1000 : Nat) : Rat) < mag) then
    (s.setTb n { s.tb n with good := 0 }).stepTb n (-(o * 65536).floor)
  else
    let s := if hold then s else
      let i := max (-500) (min 500 ((s.tb n).integral - s.gain (R.TBn_KI n) * o))
      (s.setTb n { s.tb n with integral := i }).setTbAdj n (i - s.gain (R.TBn_KP n) * o)
    s.countMeasurement n o

/-- SERVO_MEASUREMENT (11 R303 to R305): the write of TBn_MEAS_HI in servo mode; in the cycle of a step or load (`withStep`) it is discarded. -/
def execServoMeasurement (n : TbIx) (measHi : Word) (withStep : Bool) (s : State) : Res :=
  .next (let s := (s.takeLow (R.TBn_MEAS_LO n)).setReg (R.TBn_MEAS_HI n) measHi
    if withStep then s.raise (R.TBn_INT_STATUS_meas_drop n)
    else if s.tbMode n ≠ 2 then s
    else
      let raw := s.offset64 (R.TBn_MEAS_LO n) (R.TBn_MEAS_HI n)
      let s := s.setReg (R.TBn_LAST_OFS n) (BitVec.ofInt 32 (clampS 32 (raw / 65536)))
      let s := if s.tbState n = 4 then s.servoState n 2 else s
      s.servo n ((raw : Rat) / 65536))

/-- MEASUREMENT_TIMEOUT (11 R304): no measurement within meas_to moves the servo to holding. -/
def execMeasurementTimeout (n : TbIx) (s : State) : Res :=
  .next (if s.tbMode n = 2 ∧ s.tbState n ≠ 4 then (s.raise (R.TBn_INT_STATUS_meas_timeout n)).servoState n 4 else s)

/-- MAC `m` loses its link: the time bases servoed through it move to holding in the same cycle (R304). -/
def State.servoLinkLoss (s : State) (m : Nat) : State :=
  [0, 1, 2, 3].foldl (fun s n =>
    if s.tbMode n = 2 ∧ s.rd (R.TBn_SERVO_CFG_port n) = m + 1 ∧ s.tbState n ≠ 4 then s.servoState n 4 else s) s

/-! ## Timestamps (R309 to R315) -/

/-- The words TXQ1 to TXQ3 of a time (R318). -/
def stampWords (v : Nat) : Word × Word × Word :=
  (BitVec.ofNat 32 (tbSeconds v / 2 ^ 32 * 2 ^ 16 + tbFrac v), BitVec.ofNat 32 (tbNanos v), BitVec.ofNat 32 (tbSeconds v))

/-- The time of time base `n` at the balls, moved by a signed number of ps (R310). -/
def State.stamp (s : State) (n : Nat) (ps : Int) : Word × Word × Word := stampWords (tbMove (s.tb n).value (ps * oneNs / 1000))

def State.txq (s : State) (m : Nat) : List TxqEntry := Tab.get (fun _ => []) s.txqs m
def State.setTxq (s : State) (m : Nat) (q : List TxqEntry) : State :=
  ({ s with txqs := Tab.set (fun _ => []) s.txqs m q } : State).wr ⟨R.TIME_MACm_TXQ_STATUS m, 0, 5⟩ q.length

/-- An entry for a requesting frame (R313, R314): appended, or lost at a full queue. -/
def State.txStamp (s : State) (m : Nat) (tag : BitVec 16) (tb : Nat) (discarded : Bool) : State :=
  let w0 := BitVec.ofNat 32 (2 ^ 31 + b2n discarded * 2 ^ 30 + tb % 4 * 2 ^ 28 + tag.toNat)
  let (w1, w2, w3) := if discarded then (0, 0, 0) else s.stamp tb (s.reg (R.TIME_MACm_ASYM_TX m)).toInt
  let s := if discarded then s.raise (R.TIME_MACm_INT_STATUS_no_ts m) else s
  if (s.txq m).length < 16 then (s.setTxq m (s.txq m ++ [⟨w0, w1, w2, w3⟩])).raise (R.TIME_MACm_INT_STATUS_txq_ready m)
  else
    let s := (s.wr (lowHalf (R.TIME_MACm_TXQ_LOST m)) tag.toNat).bump (highHalf (R.TIME_MACm_TXQ_LOST m))
    (s.raise (R.TIME_MACm_INT_STATUS_txq_ovf m)).report (12 + m) 1 0

/-- TX_TIMESTAMP_ENTRY (11 R313, R314). -/
def execTxTimestampEntry (m : Fin 2) (tag : BitVec 16) (tb : TbIx) (discarded : Bool) (s : State) : Res :=
  .next (s.txStamp m tag tb discarded)

/-- TXQ_POP (11 R315): the head leaves the queue and its words are copied into TXQ1 to TXQ3; an empty queue answers valid = 0. -/
def execTxqPop (m : Fin 2) (s : State) : Res :=
  .next (match s.txq m with
    | [] => s.answer [0]
    | e :: t =>
      let s := ((s.setSnap (R.TIME_MACm_TXQ1 m) (some e.w1)).setSnap (R.TIME_MACm_TXQ2 m) (some e.w2)).setSnap (R.TIME_MACm_TXQ3 m) (some e.w3)
      (s.setTxq m t).answer [e.w0])

end Sys2Proof.Machine
end

