-- ==== Sys2Proof/Machine/Idle.lean ====
section
/-!
DEFINITION. What a step does when no command waits (log entry 2): one towpath cycle passes for the time bases, and every engine that runs a
segment and has nothing queued puts the operations of the instruction at its program counter in the queue, decoded from its program
memory by the encodings of 05 R139 to R148.
-/
namespace Sys2Proof.Machine

/-- Bits [hi:lo] of an instruction word. -/
def opBits (w : BitVec 48) (lo width : Nat) : Nat := (w.toNat >>> lo) % 2 ^ width

def fin (k n : Nat) [NeZero k] : Fin k := Fin.ofNat k n

/-- The multiply code of a lane (05 R141). -/
def decodeLane (n : EngIx) (lane : Fin 2) (code : Nat) (a : AccIx) (s1 s2 : RegIx) : List Instr :=
  match code with
  | 1 => [.mpy n lane a s1 s2 false]
  | 2 => [.mac n lane a s1 s2 false]
  | 3 => [.macn n lane a s1 s2 false]
  | _ => []

/-- The ALU operation 0x10 + `k` (05 R142). -/
def decodeAlu (n : EngIx) (k : Nat) (a : AccIx) (d : RegIx) (a' : AccIx) : List Instr :=
  match k with
  | 0 => [.clr n a false]
  | 1 => [.lda n a d false]
  | 2 => [.add n a d false]
  | 3 => [.sub n a d false]
  | 4 => [.adda n a a' false]
  | 5 => [.suba n a a' false]
  | 6 => [.neg n a false]
  | 7 => [.abs n a false]
  | 8 => [.cmp n a d false]
  | 9 => [.max n a d false]
  | 10 => [.lim n a false]
  | 11 => [.exp n a d false]
  | 12 => [.norm n a d false]
  | 13 => [.ash n a d false]
  | 14 => [.min n a d false]
  | _ => []

/-- The update field of a memory move (05 R144). -/
def decodeUpdate (k : Nat) : Update :=
  match k with
  | 1 => .inc
  | 2 => .dec
  | 3 => .addM
  | _ => .none

/-- A 13-bit move slot (05 R144). -/
def decodeMove (n : EngIx) (bus : Bus) (m : Nat) : List Instr :=
  let p : RegIx := fin 8 (m / 2 ^ 7)
  let d : RegIx := fin 8 (m / 2 ^ 4)
  let u := decodeUpdate (m / 4 % 4)
  match m / 2 ^ 10, bus with
  | 1, _ => [.ld n bus p d u .clean false]
  | 2, _ => [.st n bus p d u false]
  | 3, _ => [.stSat n bus p (fin 4 (m / 2 ^ 4)) u false]
  | 4, .x => [.take n (fin 16 (m / 2 ^ 6)) (fin 8 (m / 2 ^ 3)) .clean false]
  | 5, .y => [.send n (fin 16 (m / 2 ^ 6)) (fin 8 (m / 2 ^ 3)) false]
  | 6, .y => [.sendSat n (fin 16 (m / 2 ^ 6)) (fin 4 (m / 2 ^ 3)) false]
  | _, _ => []

/-- Mark an operation as the last of its instruction. -/
def markLast (i : Instr) : Instr :=
  match i with
  | .mpy n l a s1 s2 _ => .mpy n l a s1 s2 true
  | .mac n l a s1 s2 _ => .mac n l a s1 s2 true
  | .macn n l a s1 s2 _ => .macn n l a s1 s2 true
  | .clr n a _ => .clr n a true
  | .lda n a d _ => .lda n a d true
  | .add n a d _ => .add n a d true
  | .sub n a d _ => .sub n a d true
  | .adda n a b _ => .adda n a b true
  | .suba n a b _ => .suba n a b true
  | .neg n a _ => .neg n a true
  | .abs n a _ => .abs n a true
  | .cmp n a d _ => .cmp n a d true
  | .max n a d _ => .max n a d true
  | .min n a d _ => .min n a d true
  | .lim n a _ => .lim n a true
  | .exp n a d _ => .exp n a d true
  | .norm n a d _ => .norm n a d true
  | .ash n a d _ => .ash n a d true
  | .ld n b p d u e _ => .ld n b p d u e true
  | .st n b p d u _ => .st n b p d u true
  | .stSat n b p a u _ => .stSat n b p a u true
  | .take n i d e _ => .take n i d e true
  | .send n o d _ => .send n o d true
  | .sendSat n o a _ => .sendSat n o a true
  | i => i

/-- The operations of a class-0 word (05 R140), the last marked; a word that holds none is a nop (R139). -/
def decodeClass0 (n : EngIx) (w : BitVec 48) : List Instr :=
  let op := opBits w 42 5
  let a0 : AccIx := fin 4 (opBits w 40 2)
  let s10 : RegIx := fin 8 (opBits w 37 3)
  let s20 : RegIx := fin 8 (opBits w 34 3)
  let a1 : AccIx := fin 4 (opBits w 32 2)
  let s11 : RegIx := fin 8 (opBits w 29 3)
  let s21 : RegIx := fin 8 (opBits w 26 3)
  let ops := if op < 16 then decodeLane n 0 (op / 4) a0 s10 s20 ++ decodeLane n 1 (op % 4) a1 s11 s21
    else decodeAlu n (op - 16) a0 s10 a1
  let all := ops ++ decodeMove n .x (opBits w 13 13) ++ decodeMove n .y (opBits w 0 13)
  match all.reverse with
  | [] => [.nop n .clean]
  | l :: t => t.reverse ++ [markLast l]

/-- The operation of a class-1 word (05 R148); reserved opcodes act as nop. -/
def decodeClass1 (n : EngIx) (w : BitVec 48) : Instr :=
  let r : Fin 64 := fin 64 (opBits w 36 6)
  match opBits w 42 5 with
  | 0x01 => .ldi n r (BitVec.ofNat 24 (opBits w 0 24))
  | 0x02 => .mov n r (fin 64 (opBits w 30 6))
  | 0x03 => .ashi n (fin 4 (opBits w 40 2)) (BitVec.ofNat 7 (opBits w 33 7))
  | 0x04 => .lea n (fin 8 (opBits w 39 3)) (BitVec.ofNat 14 (opBits w 0 14))
  | 0x08 => .bra n (fin 32 (opBits w 37 5)) (BitVec.ofNat 13 (opBits w 0 13))
  | 0x09 => .doLoop n (BitVec.ofNat 16 (opBits w 24 16)) (BitVec.ofNat 13 (opBits w 0 13))
  | 0x0A => .dor n r (BitVec.ofNat 13 (opBits w 0 13))
  | 0x0B => .brk n
  | 0x0F => .park n
  | _ => .nop n .clean

/-- The operations of an instruction word of engine `n` (05 R139). -/
def decodeEngineWord (n : EngIx) (w : BitVec 48) : List Instr :=
  if w.getLsbD 47 then [decodeClass1 n w] else decodeClass0 n w

/-- The instruction at the program counter, on the page the segment runs from (04 R125; 05 R153), after the stores due in memory (04 R113). [DESIGN CHOICE, log entry 2] -/
def State.engineCycle (s : State) (n : EngIx) : List Instr :=
  if s.engRuns n then
    let e := s.eng n
    let due := fun (l : List Buffered) => l.any fun b => b.wait = 0
    (if due e.storesX then [.storeBufferWrite n .x] else []) ++ (if due e.storesY then [.storeBufferWrite n .y] else [])
      ++ decodeEngineWord n (s.progWord n (8192 * s.rd (R.ENGn_PAGE_cur n) + e.pc.toNat))
  else []

/-- One towpath cycle with no command waiting (log entry 2). [DESIGN CHOICE, log entry 2] -/
def State.idleCycle (s : State) : State :=
  let s := { s with now := s.now + 1 }.timeCycle
  { s with pending := (List.finRange 34).flatMap s.engineCycle }

end Sys2Proof.Machine
end

