-- ==== Sys2Proof/Machine/Mac.lean ====
section
/-!
DEFINITION. Ethernet MACs and audio streams (12): links, the receive path, software frames, transmit and receive streams, energy-efficient
Ethernet.
-/
namespace Sys2Proof.Machine

def State.mac (s : State) (m : Nat) : Mac := Tab.get (fun _ => {}) s.macs m
def State.setMac (s : State) (m : Nat) (k : Mac) : State := { s with macs := Tab.set (fun _ => {}) s.macs m k }
def State.tx (s : State) (n : Nat) : TxStream := Tab.get (fun _ => {}) s.txStreams n
def State.setTx (s : State) (n : Nat) (t : TxStream) : State := { s with txStreams := Tab.set (fun _ => {}) s.txStreams n t }
def State.rx (s : State) (n : Nat) : RxStream := Tab.get (fun _ => {}) s.rxStreams n
def State.setRx (s : State) (n : Nat) (t : RxStream) : State := { s with rxStreams := Tab.set (fun _ => {}) s.rxStreams n t }

def State.linkIsUp (s : State) (m : Nat) : Bool := s.is (R.MACm_STATUS_link m)
/-- A 32-bit count of a MAC (R341). -/
def State.macCount (s : State) (a : Nat) : State := s.bump (whole a)

/-! ## Links (R319, R320) -/

/-- MACm_CFG.speed (0 1G, 1 2.5G, 2 10G, 3 25G) and fec (0 none, 1 FC-FEC, 2 RS-FEC) (R341). -/
def State.speed (s : State) (m : Nat) : Nat := s.rd ⟨R.MACm_CFG m, 0, 2⟩
def State.fec (s : State) (m : Nat) : Nat := s.rd ⟨R.MACm_CFG m, 4, 2⟩

/-- The bit rate of a speed, in Mb/s. -/
def megabits : Nat → Nat
  | 0 => 1000 | 1 => 2500 | 2 => 10000 | _ => 25000

/-- The internal corrections of a link, transmit then receive, in 0.1 ns (11 R309). -/
def corrections (speed fec : Nat) : Nat × Nat :=
  match speed, fec with
  | 0, _ => (1120, 1840)
  | 1, _ => (544, 864)
  | 2, 0 => (384, 576)
  | 2, _ => (512, 1248)
  | _, 0 => (256, 384)
  | _, 1 => (320, 832)
  | _, _ => (819, 2048)

/-- LINK_UP (12 R320): PCS lock held for 10 ms and, where an_en asks for it, auto-negotiation complete. STATUS.pcs_lock is shown with the
link. [DEDUCED, log entry 117] -/
def execLinkUp (m : Fin 2) (negotiated : Bool) (s : State) : Res :=
  .next (let needs := s.is (R.MACm_CTRL_an_en m) && s.speed m == 0
    if s.linkIsUp m || (needs && !negotiated) then s else
    let (t, r) := corrections (s.speed m) (s.fec m)
    let s := s.setReg (R.TIME_MACm_CORR m) (BitVec.ofNat 32 (r * 2 ^ 16 + t))
    let s := ((s.wr (R.MACm_STATUS_pcs_lock m) 1).wr (R.MACm_STATUS_an_done m) (b2n needs)).wr (R.MACm_STATUS_link m) 1
    s.raise (R.MACm_INT_STATUS_link_up m))

/-- The link of MAC `m` goes down: its event, a level-1 fault, and the servos on it move to holding in the same cycle (R320; 11 R304). -/
def State.linkLoss (s : State) (m : Nat) : State :=
  if s.linkIsUp m then
    let s := s.setReg (R.MACm_STATUS m) 0
    ((s.raise (R.MACm_INT_STATUS_link_down m)).report (14 + m) 1 1).servoLinkLoss m
  else (s.wr (R.MACm_STATUS_pcs_lock m) 0)

/-- LINK_DOWN (12 R320): while the lane is in receive idle the PCS lock is reported as held (13 R358). -/
def execLinkDown (m : Fin 2) (s : State) : Res := .next (if s.is (R.LANEn_STATUS_rx_idle (2 + m)) then s else s.linkLoss m)

/-- The transmit path of MAC `m` is there: the link is up and no far-end loop discards the data, which acts as a link fault (13 R352). -/
def State.txPath (s : State) (m : Nat) : Bool := s.linkIsUp m && s.rd ⟨R.LANEn_LOOP (2 + m), 0, 2⟩ != 3

/-- A frame leaves MAC `m`, unless a generator has replaced the lane's data (13 R353). -/
def State.sendFrame (s : State) (m offset : Nat) (bytes : List Byte) (badFcs : Bool) : State :=
  if patternOn (s.rd (R.LANEn_PRBS_CTRL_gen_pat (2 + m))) then s else s.emit (.frame m offset bytes badFcs)

/-! ## Reading a frame -/

/-- The byte at `i`, 0 beyond the end. -/
def byteAt (f : List Byte) (i : Nat) : Nat := (f.getD i 0).toNat
/-- A big-endian number of `n` bytes at `i`. -/
def beAt (f : List Byte) (i : Nat) : Nat → Nat
  | 0 => 0
  | n + 1 => beAt f i n * 256 + byteAt f (i + n)

/-- The frame carries an 802.1Q tag; two of them; the TCI of the outermost; where its header ends; its Ethertype (R325). -/
def tagged (f : List Byte) : Bool := beAt f 12 2 == 0x8100
def twoTags (f : List Byte) : Bool := tagged f && beAt f 16 2 == 0x8100
def tci (f : List Byte) : Nat := if tagged f then beAt f 14 2 else 0
def vid (f : List Byte) : Nat := tci f % 4096
def headerEnd (f : List Byte) : Nat := if tagged f then 18 else 14
def ethertype (f : List Byte) : Nat := beAt f (headerEnd f - 2) 2

/-- Where the IPv4 payload starts. -/
def ipEnd (f : List Byte) : Nat := headerEnd f + byteAt f (headerEnd f) % 16 * 4
def isIpv4 (f : List Byte) : Bool := ethertype f == 0x0800 && byteAt f (headerEnd f) / 16 == 4
def isUdp4 (f : List Byte) : Bool := isIpv4 f && byteAt f (headerEnd f + 9) == 17
def isUdp6 (f : List Byte) : Bool := ethertype f == 0x86DD && byteAt f (headerEnd f) / 16 == 6 && byteAt f (headerEnd f + 6) == 17
/-- The UDP destination port, if the frame is UDP. -/
def udpPort (f : List Byte) : Option Nat :=
  if isUdp4 f then some (beAt f (ipEnd f + 2) 2) else if isUdp6 f then some (beAt f (headerEnd f + 42) 2) else none

/-- Class 0 (PTP): Ethertype 0x88F7, or UDP port 319 or 320 (R326). -/
def ptpClass (f : List Byte) : Bool := ethertype f == 0x88F7 || udpPort f == some 319 || udpPort f == some 320

/-- The start of the PTP message of an event frame, in the encapsulations of R311 (11). -/
def ptpStart (f : List Byte) : Option Nat :=
  if ethertype f = 0x88F7 then some (headerEnd f)
  else if udpPort f = some 319 then some (if isUdp4 f then ipEnd f + 8 else headerEnd f + 48)
  else none

/-- The domainNumber of a PTP event message: Sync, Delay_Req, Pdelay_Req or Pdelay_Resp (11 R311). -/
def ptpEventDomain (f : List Byte) : Option Nat :=
  match ptpStart f with
  | some i => if byteAt f i % 16 < 4 then some (byteAt f (i + 4)) else none
  | none => none

/-- The time base a received frame is stamped from (11 R311). -/
def State.stampBase (s : State) (m : Nat) (f : List Byte) : Option Nat :=
  let dflt := s.rd ⟨R.TIME_MACm_CFG m, 4, 2⟩
  match ptpEventDomain f with
  | some d =>
    if s.is (R.TIME_MACm_RXMAP_en0 m) ∧ s.rd (R.TIME_MACm_RXMAP_dom0 m) = d then some (s.rd (R.TIME_MACm_RXMAP_tb0 m))
    else if s.is (R.TIME_MACm_RXMAP_en1 m) ∧ s.rd (R.TIME_MACm_RXMAP_dom1 m) = d then some (s.rd (R.TIME_MACm_RXMAP_tb1 m))
    else some dflt
  | none => if s.is ⟨R.TIME_MACm_CFG m, 0, 1⟩ then some dflt else none

/-! ## Receive filters (R322 to R325) -/

/-- MACm_MAXLEN: values outside 64 to 9600 act as 1522 (R341). -/
def State.maxLen (s : State) (m : Nat) : Nat :=
  let v := s.rd ⟨R.MACm_MAXLEN m, 0, 14⟩
  if 64 ≤ v ∧ v ≤ 9600 then v else 1522

/-- The station address and the enabled address entries of a MAC (R324). -/
def State.station (s : State) (m : Nat) : Nat := (s.reg (R.MACm_STA_LO m)).toNat + s.rd ⟨R.MACm_STA_HI m, 0, 16⟩ * 2 ^ 32
def State.addrEntry (s : State) (m k : Nat) : Option Nat :=
  if s.is (bitAt (R.MACm_ADDRk_HI m k) 31) then
    some ((s.reg (R.MACm_ADDRk_LO m k)).toNat + s.rd ⟨R.MACm_ADDRk_HI m k, 0, 16⟩ * 2 ^ 32)
  else none

/-- The address filter but for its stream case (R324). -/
def State.addrPass (s : State) (m : Nat) (f : List Byte) : Bool :=
  let dst := beAt f 0 6
  s.is (R.MACm_CTRL_promisc m) || dst == s.station m
    || (List.range 32).any (fun k => s.addrEntry m k == some dst)
    || (dst == 0xFFFFFFFFFFFF && s.is (R.MACm_CTRL_bcast m))

/-- The VLAN filter (R325); a tag with VID 0 counts as untagged. -/
def State.vlanPass (s : State) (m : Nat) (f : List Byte) : Bool :=
  if !s.is (R.MACm_CTRL_vid_filt m) then true
  else if tagged f && vid f != 0 then
    (List.range 4).any fun i =>
      let w := s.reg (R.MACm_VID0 m + 4 * i)
      (w.getLsbD 31 && getBits w 16 12 == vid f) || (w.getLsbD 15 && getBits w 0 12 == vid f)
  else s.is (R.MACm_CTRL_untagged m)

/-! ## Receive streams (R336 to R339) -/

/-- The stream uses MAC `m`; 2 names both (R342). -/
def onMac (cfg m : Nat) : Bool := cfg == m || cfg == 2

/-- The frame is a stream packet of receive stream `n` on MAC `m` (R336). [DEDUCED, log entry 68] -/
def State.rxMatches (s : State) (m n : Nat) (f : List Byte) : Bool :=
  let mac := s.rd (R.STRM_RXn_CFG_mac n)
  let dst := s.reg (if mac = 2 ∧ m = 1 then R.STRM_RXn_DST_IP_B n else R.STRM_RXn_DST_IP n)
  s.is (R.STRM_RXn_CFG_assigned n) && s.is (R.STRM_RXn_CTRL_en n) && onMac mac m && !twoTags f
    && (!tagged f || vid f == 0 || !s.is (bitAt (R.STRM_RXn_TAG n) 31) || vid f == s.rd ⟨R.STRM_RXn_TAG n, 0, 12⟩)
    && isUdp4 f && beAt f (headerEnd f + 16) 4 == dst.toNat
    && (!s.is (R.STRM_RXn_CTRL_ssm n) || beAt f (headerEnd f + 12) 4 == (s.reg (R.STRM_RXn_SRC_IP n)).toNat)
    && beAt f (ipEnd f + 2) 2 == s.rd ⟨R.STRM_RXn_PORTS n, 0, 16⟩

/-- The receive stream a frame belongs to. -/
def State.rxStreamOf (s : State) (m : Nat) (f : List Byte) : Option Nat := (List.range 256).find? fun n => s.rxMatches m n f

/-- An event of a receive or transmit stream, with its bit of STRM_RXEV or STRM_TXEV (R342). -/
def State.rxEvent (s : State) (n : Nat) (e : FieldAt) : State := (s.raise e).raise (bitAt (R.STRM_RXEV0 + n / 32 * 4) (n % 32))
def State.txEvent (s : State) (n : Nat) (e : FieldAt) : State := (s.raise e).raise (bitAt (R.STRM_TXEV0 + n / 32 * 4) (n % 32))

/-- The one's complement sum of 16-bit words from `i` to the end `e`, an odd last byte padded with zero. -/
def onesSum (f : List Byte) (i e : Nat) : Nat :=
  (List.range ((e - i + 1) / 2)).foldl (fun a k =>
    let w := byteAt f (i + 2 * k) * 256 + (if i + 2 * k + 1 < e then byteAt f (i + 2 * k + 1) else 0)
    let t := a + w
    t % 65536 + t / 65536) 0

/-- The UDP checksum is zero or right (R336). -/
def udpOk (f : List Byte) : Bool :=
  let u := ipEnd f
  let len := beAt f (u + 4) 2
  let sum := onesSum f u (u + len) + onesSum f (headerEnd f + 12) (headerEnd f + 20) + 17 + len
  beAt f (u + 6) 2 == 0 || sum % 65535 == 0

/-- The place and length of the RTP payload, without CSRC list, extension and padding (R336). -/
def rtpPayload (f : List Byte) : Nat × Nat :=
  let r := ipEnd f + 8
  let stop := ipEnd f + beAt f (ipEnd f + 4) 2
  let b0 := byteAt f r
  let p := r + 12 + 4 * (b0 % 16)
  let p := if b0 / 16 % 2 = 1 then p + 4 + 4 * beAt f (p + 2) 2 else p
  let stop := if b0 / 32 % 2 = 1 then stop - byteAt f (stop - 1) else stop
  (p, stop - p)

def State.rxChannels (s : State) (n : Nat) : Nat := s.rd (R.STRM_RXn_CFG_channels n) + 1
def State.rxP (s : State) (n : Nat) : Nat := s.rd (R.STRM_RXn_CFG_p n) + 1
def State.rxWidth (s : State) (n : Nat) : Nat := if s.is (R.STRM_RXn_CFG_l16 n) then 2 else 3
/-- The state of a receive stream: 0 off, 1 waiting, 2 running, 3 lost (R342). -/
def rxState (n : Nat) : FieldAt := ⟨R.STRM_RXn_STATUS n, 0, 2⟩

/-- The packet is bad (R336). -/
def State.rxBad (s : State) (n : Nat) (f : List Byte) : Bool :=
  let frag := beAt f (headerEnd f + 6) 2
  let r := ipEnd f + 8
  decide (frag % 0x4000 ≠ 0) || !udpOk f || byteAt f r / 64 != 2 || byteAt f (r + 1) % 128 != s.rd ⟨R.STRM_RXn_RTP n, 0, 7⟩
    || decide ((rtpPayload f).2 ≠ s.rxChannels n * s.rxP n * s.rxWidth n)

/-- The samples of position `j` of a packet: L24 as it is, L16 in [23:8] (R331). -/
def State.rxSamples (s : State) (n : Nat) (f : List Byte) (j : Nat) : List Sample :=
  let ch := s.rxChannels n
  let w := s.rxWidth n
  (List.range ch).map fun c => BitVec.ofNat 24 (beAt f ((rtpPayload f).1 + (j * ch + c) * w) w * (if w = 2 then 256 else 1))

/-- A packet's capture position and timestamp (R337): N is the sample number nearest the current one with N ≡ t − TSOFS. -/
def State.rxPosition (s : State) (n : Nat) (f : List Byte) : Int × Word :=
  let t := BitVec.ofNat 32 (beAt f (ipEnd f + 12) 4)
  let now := (s.dom (s.rd (R.STRM_RXn_CFG_domain n))).sample
  let d := (t - s.reg (R.STRM_RXn_TSOFS n) - now.setWidth 32).toInt
  ((now.toNat : Int) + d + s.rd ⟨R.STRM_RXn_LINK n, 0, 16⟩, t)

/-- µs from now to the capture commit of the tick of a position: 24 media-clock cycles after its end (02 R53; R342, MARGIN). [DEDUCED, log entry 69] -/
def State.rxMargin (s : State) (n pos : Nat) : Nat :=
  let x := s.rd (R.STRM_RXn_CFG_domain n)
  s.commitUs x (pos / (s.dom x).b)

/-- A stream packet is placed, or discarded as late, early, bad or duplicate (R337, R339). [DEDUCED, log entry 69] -/
def State.rxPlace (s : State) (m n : Nat) (f : List Byte) : State :=
  if s.rxBad n f then (s.bump (highHalf (R.STRM_RXn_COUNT1 n))).rxEvent n R.STRM_INT_STATUS_rx_bad else
  let x := s.rd (R.STRM_RXn_CFG_domain n)
  let d := s.dom x
  let r := s.rx n
  let p := s.rxP n
  let (pos, stamp) := s.rxPosition n f
  if pos < 0 ∨ pos.toNat / d.b < r.next then (s.bump (highHalf (R.STRM_RXn_COUNT0 n))).rxEvent n R.STRM_INT_STATUS_rx_late
  else
    let pos := pos.toNat
    if d.sample.toNat + s.rd ⟨R.STRM_RXn_DEPTH n, 0, 16⟩ < pos + p - 1 then
      (s.bump (lowHalf (R.STRM_RXn_COUNT1 n))).rxEvent n R.STRM_INT_STATUS_rx_early
    else
      let held := r.slots.filter fun k => pos ≤ k.pos ∧ k.pos < pos + p
      if held.any fun k => k.stamp ≠ stamp then (s.bump (highHalf (R.STRM_RXn_COUNT1 n))).rxEvent n R.STRM_INT_STATUS_rx_bad
      else if held ≠ [] then
        s.setRx n { r with slots := r.slots.map fun k =>
          if pos ≤ k.pos ∧ k.pos < pos + p then { k with paths := k.paths ||| (m + 1) } else k }
      else
        let new := (List.range p).map fun j => ⟨pos + j, stamp, j == 0, m + 1, s.rxSamples n f j⟩
        let s := s.setRx n { r with slots := r.slots ++ new, from_ := some (r.from_.getD pos) }
        let s := s.least ⟨R.STRM_RXn_MARGIN n, 0, 16⟩ (s.rxMargin n pos)
        if s.rd (rxState n) = 2 then s else (s.wr (rxState n) 2).rxEvent n R.STRM_INT_STATUS_rx_running

/-- One capture position at its commit (R338, R339): its samples, and the state. -/
def State.rxCapture (s : State) (n pos : Nat) : List Sample × State :=
  let ch := s.rxChannels n
  let r := s.rx n
  let st := s.rd (rxState n)
  if st = 0 then (List.replicate ch 0, s) else
  match r.slots.find? fun k => k.pos = pos with
  | some k =>
    let out := if r.good < 32 then k.samples.map fun x => faded x [.into r.good] else k.samples
    let s := s.setRx n { r with run := 0, good := min 32 (r.good + 1), last := k.samples }
    let s := if k.first ∧ s.rd (R.STRM_RXn_CFG_mac n) = 2 ∧ k.paths ≠ 3 then
        (s.bump (if k.paths = 1 then lowHalf (R.STRM_RXn_COUNT2 n) else highHalf (R.STRM_RXn_COUNT2 n))).rxEvent n
          R.STRM_INT_STATUS_path_single
      else s
    (out, s)
  | none =>
    if st = 1 ∨ r.from_.any (fun p => pos < p) then (List.replicate ch 0, s)
    else
      let j := r.run
      let out := (List.range ch).map fun c => if j < 32 then faded (r.last.getD c 0) [.out j] else 0
      let s := s.setRx n { r with run := j + 1, good := 0 }
      let packet := decide (((pos : Int) - s.rd ⟨R.STRM_RXn_LINK n, 0, 16⟩) % (s.rxP n : Int) = s.rd (R.STRM_RXn_CFG_phase n))
      let s := if packet then (s.bump (lowHalf (R.STRM_RXn_COUNT0 n))).rxEvent n R.STRM_INT_STATUS_rx_missing else s
      let s := if j + 1 = 32 ∧ st = 2 then
          ((s.wr (rxState n) 3).rxEvent n R.STRM_INT_STATUS_rx_lost).report 16 1 1
        else s
      (out, s)

/-- The capture barge of tick `k` of a receive stream, sample-major (R338; 04 R117); the positions leave the buffer. -/
def State.rxBarge (s : State) (n k : Nat) : List Sample × State :=
  let b := (s.dom (s.rd (R.STRM_RXn_CFG_domain n))).b
  let (words, s) := (List.range b).foldl (fun (acc : List Sample × State) j =>
    let (w, s) := acc.2.rxCapture n (k * b + j)
    (acc.1 ++ w, s)) ([], s)
  let r := s.rx n
  (words, s.setRx n { r with next := k + 1, slots := r.slots.filter fun p => (k + 1) * b ≤ p.pos })

/-- RX_STREAM_ENABLE (12 R338): CTRL.en takes effect at a tick boundary; enabled, the stream waits. -/
def State.rxEnable (s : State) (n : Nat) : State :=
  let was := s.is (R.STRM_RXn_CTRL_en n)
  let s := s.shTake (R.STRM_RXn_CTRL n)
  let on := s.is (R.STRM_RXn_CTRL_en n)
  if was = on then s
  else if on then (s.setRx n { next := s.tick (s.rd (R.STRM_RXn_CFG_domain n)) }).wr (rxState n) 1
  else (s.setRx n {}).wr (rxState n) 0

def execRxStreamEnable (n : Fin 256) (s : State) : Res :=
  .next (if s.atBoundary (s.rd (R.STRM_RXn_CFG_domain n)) then s.rxEnable n else s)

/-! ## The receive path (R322, R326, R340) -/

/-- The bytes of a class in the software receive buffer. -/
def State.rxUsed (s : State) (m cls : Nat) : Nat := (((s.mac m).rx.filter fun f => f.cls = cls).map fun f => f.bytes.length).sum

/-- A software frame is admitted whole or refused whole: 128 KiB, of which ptp_res KiB is for class 0 (R340). -/
def State.admits (s : State) (m cls len : Nat) : Bool :=
  let res := 1024 * min 64 (s.rd ⟨R.MACm_RX_SHARE m, 0, 8⟩)
  let u0 := s.rxUsed m 0
  let u1 := s.rxUsed m 1
  if cls = 0 then decide (u0 + u1 + len ≤ 131072) else decide (u1 + len + max res u0 ≤ 131072)

/-- Deliver a software frame of class 0 (PTP) or 1 with its status words, or refuse it (R325, R326, R340; 11 R311). -/
def State.rxSoftware (s : State) (m : Nat) (f : List Byte) (trunc : Bool) : State :=
  let cls := if !trunc && ptpClass f then 0 else 1
  let strip := s.is (R.MACm_CTRL_strip m) && tagged f
  let bytes := if strip then f.take 12 ++ f.drop 16 else f
  let base := if trunc then none else s.stampBase m f
  let (w1, w2, w3) := match base with
    | some n => s.stamp n (-(s.reg (R.TIME_MACm_ASYM_RX m)).toInt)
    | none => (0, 0, 0)
  let w0 := b2n base.isSome * 2 ^ 31 + b2n trunc * 2 ^ 30 + b2n strip * 2 ^ 29 + base.getD 0 * 2 ^ 26 + cls * 2 ^ 24
    + (if strip then tci f else 0)
  if s.admits m cls bytes.length then
    (s.setMac m { s.mac m with rx := (s.mac m).rx ++ [⟨cls, [BitVec.ofNat 32 w0, w1, w2, w3], bytes⟩] }).macCount (R.MACm_RX_OK m)
  else (s.bump (if cls = 0 then lowHalf (R.MACm_RX_DROP m) else highHalf (R.MACm_RX_DROP m))).raise (R.MACm_INT_STATUS_rx_drop m)

/-- FRAME_RECEIVE (12 R321 to R326, R336, R337): `error` is a PCS error, an uncorrectable FEC block or an FCS error; `frame` runs from the
destination address to the last FCS byte. RX_OK counts stream packets and admitted software frames. [DEDUCED, log entry 117] -/
def execFrameReceive (m : Fin 2) (error : Bool) (frame : List Byte) (s : State) : Res :=
  .next (if error then s.macCount (R.MACm_RX_FCS m)
    else if !s.is (R.MACm_CTRL_rx_en m) || !s.linkIsUp m then s
    else if frame.length < 64 then s.macCount (R.MACm_RX_RUNT m)
    else
      let max := s.maxLen m
      let trunc := decide (max < frame.length)
      let f := frame.take max
      let s := if trunc then (s.macCount (R.MACm_RX_TRUNC m)).raise (R.MACm_INT_STATUS_rx_trunc m) else s
      if ethertype f = 0x8808 then (s.macCount (R.MACm_RX_PAUSE m)).raise (R.MACm_INT_STATUS_pause_rx m)
      else
        let stream := s.rxStreamOf m f
        if !s.addrPass m f && stream.isNone then s.macCount (R.MACm_RX_FILT m)
        else if !s.vlanPass m f then s.macCount (R.MACm_RX_FILT m)
        else match if trunc then none else stream with
          | some n => (s.macCount (R.MACm_RX_OK m)).rxPlace m n f
          | none => s.rxSoftware m f trunc)

/-! ## Software frames on transmit (R327, R328, R334) -/

/-- The bytes a software frame has on the wire before its FCS: the inserted tag, the padding, or the cut at MAXLEN − 4 (R327, R328). -/
def State.txBytes (s : State) (m : Nat) (t : TxFrame) : List Byte × Bool :=
  let b := if t.w1.getLsbD 31 then
      t.bytes.take 12 ++ [0x81, 0x00, t.w1.extractLsb' 8 8, t.w1.extractLsb' 0 8] ++ t.bytes.drop 12
    else t.bytes
  if s.maxLen m < b.length + 4 then (b.take (s.maxLen m - 4), true)
  else (b ++ List.replicate (60 - b.length) 0, false)

/-- ns that preamble, frame, FCS and minimum inter-frame gap take (R334). -/
def State.txTime (s : State) (m : Nat) (len : Nat) : Nat := ceilDiv ((8 + len + 4 + 12) * 8 * 1000) (megabits (s.speed m))

/-- The frame at the head leaves without being sent; a timestamp request gets its entry with no_ts (11 R313). -/
def State.txDiscard (s : State) (m : Nat) (t : TxFrame) : State :=
  let s := s.setMac m { s.mac m with head := none }
  if t.w0.getLsbD 31 then s.txStamp m (t.w0.setWidth 16) (getBits t.w0 28 2) true else s

/-- SOFTWARE_FRAME_TRANSMIT (12 R320, R327, R328, R334): `gapNs` ns remain to the MAC's next launch point. [DEDUCED, log entry 67] -/
def execSoftwareFrameTransmit (m : Fin 2) (gapNs : Nat) (s : State) : Res :=
  .next (match (s.mac m).head with
    | none => s
    | some t =>
      if s.halted then s
      else if !s.txPath m then (s.macCount (R.MACm_TX_LINKDROP m)).txDiscard m t
      else if !s.is (R.MACm_CTRL_tx_en m) then s.txDiscard m t
      else
        let (b, bad) := s.txBytes m t
        let time := s.txTime m b.length
        if s.rd ⟨R.MACm_GAP m, 0, 24⟩ < time then
          ((s.macCount (R.MACm_TX_NOFIT m)).raise (R.MACm_INT_STATUS_tx_nofit m)).txDiscard m t
        else if gapNs < time ∨ s.is (R.MACm_STATUS_tx_lpi m) then s
        else
          let s := (s.setMac m { s.mac m with head := none }).macCount (R.MACm_TX_OK m)
          let s := if bad then s.macCount (R.MACm_TX_TRUNC m) else s
          let s := s.sendFrame m 0 b bad
          if t.w0.getLsbD 31 then s.txStamp m (t.w0.setWidth 16) (getBits t.w0 28 2) false else s)

/-- MACm_TX_AGE in towpath cycles (R341: 10 µs units, 0 acts as 1). -/
def State.txAge (s : State) (m : Nat) : Nat := 2500 * max 1 (s.rd ⟨R.MACm_TX_AGE m, 0, 16⟩)

/-- SOFTWARE_FRAME_AGED (12 R334): the head has waited longer than MACm_TX_AGE. -/
def execSoftwareFrameAged (m : Fin 2) (s : State) : Res :=
  .next (match (s.mac m).head with
    | none => s
    | some t =>
      if s.now ≤ t.since + s.txAge m then s
      else ((s.macCount (R.MACm_TX_AGED m)).raise (R.MACm_INT_STATUS_tx_aged m)).txDiscard m t)

/-! ## Transmit streams (R329 to R333; 15 R394, R400) -/

def State.txChannels (s : State) (n : Nat) : Nat := s.rd (R.STRM_TXn_CFG_channels n) + 1
def State.txP (s : State) (n : Nat) : Nat := s.rd (R.STRM_TXn_CFG_p n) + 1
def State.txDomain (s : State) (n : Nat) : Nat := s.rd (R.STRM_TXn_CFG_domain n)
def txState (n : Nat) : FieldAt := ⟨R.STRM_TXn_STATUS n, 0, 2⟩

/-- TX_STREAM_ENABLE (12 R333): CTRL.en takes effect at a tick boundary of the stream's domain. -/
def State.txEnable (s : State) (n : Nat) : State :=
  let was := s.is ⟨R.STRM_TXn_CTRL n, 0, 1⟩
  let s := s.shTake (R.STRM_TXn_CTRL n)
  let on := s.is ⟨R.STRM_TXn_CTRL n, 0, 1⟩
  let now := (s.dom (s.txDomain n)).sample.toNat
  if was = on then s
  else if on then (s.setTx n { s.tx n with start := some now, stop := none, seq := 0, silent := false, fade := .into 0 }).wr (txState n) 1
  else (s.setTx n { s.tx n with stop := some now }).wr (txState n) 0

def execTxStreamEnable (n : Fin 256) (s : State) : Res :=
  .next (if s.atBoundary (s.txDomain n) then s.txEnable n else s)

/-- A barge of the stream's egress lock, present by its egress deadline, is staged by emit position (R332; 02 R54, R70). -/
def State.txStage (s : State) (n firstPos : Nat) (b : Barge) : State :=
  let ch := s.txChannels n
  let len := (s.dom (s.txDomain n)).b
  let t := s.tx n
  let new := (List.range len).map fun j => (firstPos + j, (List.range ch).map fun c => b.word ch j c)
  s.setTx n { t with stage := t.stage.filter (fun e => firstPos ≤ e.1 + 2 ^ 10) ++ new }

/-- The fade of the domain acts on the staged sample of an emit position (02 R51). -/
def State.txFade (s : State) (n pos : Nat) (f : Fade) : State :=
  let t := s.tx n
  s.setTx n { t with stage := t.stage.map fun e => if e.1 = pos then (e.1, e.2.map fun x => faded x [f]) else e }

/-- Bytes of a number, most significant first. -/
def beBytes (n v : Nat) : List Byte := (leBytes n v).reverse

/-- The IPv4 header checksum of ten 16-bit words. -/
def ipSum (h : List Byte) : Nat := 65535 - onesSum h 0 h.length

/-- The bytes of a stream packet on MAC `m` (R331): Ethernet, IPv4, UDP and RTP headers, then the payload. -/
def State.packet (s : State) (n m : Nat) (seq stamp : Nat) (payload : List Byte) : List Byte :=
  let b := s.rd (R.STRM_TXn_CFG_mac n) == 2 && m == 1
  let dmac := if b then s.rd ⟨R.STRM_TXn_DMAC_B_HI n, 0, 16⟩ * 2 ^ 32 + (s.reg (R.STRM_TXn_DMAC_B_LO n)).toNat
    else s.rd ⟨R.STRM_TXn_DMAC_HI n, 0, 16⟩ * 2 ^ 32 + (s.reg (R.STRM_TXn_DMAC_LO n)).toNat
  let dip := (s.reg (if b then R.STRM_TXn_DST_IP_B n else R.STRM_TXn_DST_IP n)).toNat
  let tag := s.reg (R.STRM_TXn_TAG n)
  let vlan := if tag.getLsbD 31 then beBytes 2 0x8100 ++ beBytes 2 (getBits tag 0 16) else []
  let udpLen := 8 + 12 + payload.length
  let ip0 := beBytes 1 0x45 ++ beBytes 1 (s.rd ⟨R.STRM_TXn_IP n, 0, 6⟩ * 4) ++ beBytes 2 (20 + udpLen) ++ beBytes 2 0 ++ beBytes 2 0x4000
    ++ beBytes 1 (s.rd ⟨R.STRM_TXn_IP n, 8, 8⟩) ++ beBytes 1 17
  let ip1 := beBytes 4 (s.reg (R.MACm_IPV4 m)).toNat ++ beBytes 4 dip
  let ports := s.reg (R.STRM_TXn_PORTS n)
  let frame := beBytes 6 dmac ++ beBytes 6 (s.station m) ++ vlan ++ beBytes 2 0x0800
    ++ ip0 ++ beBytes 2 (ipSum (ip0 ++ [0, 0] ++ ip1)) ++ ip1
    ++ beBytes 2 (getBits ports 16 16) ++ beBytes 2 (getBits ports 0 16) ++ beBytes 2 udpLen ++ beBytes 2 0
    ++ beBytes 1 0x80 ++ beBytes 1 (s.rd ⟨R.STRM_TXn_RTP n, 0, 7⟩) ++ beBytes 2 (seq % 2 ^ 16) ++ beBytes 4 (stamp % 2 ^ 32)
    ++ beBytes 4 (s.reg (R.STRM_TXn_SSRC n)).toNat ++ payload
  frame ++ List.replicate (60 - frame.length) 0

/-- The MACs on which this device sends the stream now (R339; 15 R394, R400): a keeper-only stream none while fenced; a cross-node leg path A
from side 0 and path B from side 1, while keeper or, on a standby, while sync reads 3. -/
def State.txMacs (s : State) (n : Nat) : List Nat :=
  let cfg := s.rd (R.STRM_TXn_CFG_mac n)
  if s.legs.contains n ∧ s.is R.FOV_CFG_paired ∧ s.fovState ≠ 0 then
    if !s.fenced || s.rd R.FOV_STATUS_sync == 3 then [s.rd R.FOV_CTRL_side] else []
  else if s.fenced then []
  else [0, 1].filter fun m => onMac cfg m

/-- The payload samples of the packet whose first sample is `first`: zeros for what is absent, all zero in the safe state (R333). -/
def State.txSamples (s : State) (n first : Nat) : List (Option (List Sample)) :=
  (List.range (s.txP n)).map fun j => ((s.tx n).stage.find? fun e => e.1 = first + j).map (·.2)

/-- Samples of successive positions under a fade that passes with each position (08 R234). -/
def fadeRun : Fade → List (List Sample) → Fade × List (List Sample)
  | f, [] => (f, [])
  | f, x :: t =>
    let (f', r) := fadeRun f.pass t
    (f', (x.map fun v => faded v [f]) :: r)

/-- One copy of a packet on MAC `m`: sent in its train, or discarded while the link is down (R320, R332). -/
def State.txCopy (s : State) (n m : Nat) (bytes : List Byte) : State :=
  if !s.txPath m then
    ((s.bump (highHalf (R.STRM_TXn_COUNT n))).macCount (R.MACm_TX_LINKDROP m)).txEvent n R.STRM_INT_STATUS_tx_drop
  else if !s.is (R.MACm_CTRL_tx_en m) then s
  else (s.macCount (R.MACm_TX_OK m)).sendFrame m (s.rd ⟨R.STRM_TXn_OFS n, 16 * m, 16⟩) bytes false

/-- STREAM_PACKET_LAUNCH (12 R331 to R333, R339; 15 R394, R400): at sample edge E + P + B of the stream's domain, E the emit position of the
packet's first sample. [DEDUCED, log entry 67] -/
def execStreamPacketLaunch (n : Fin 256) (s : State) : Res :=
  .next (let x := s.txDomain n
    let d := s.dom x
    let p := s.txP n
    let now := d.sample.toNat
    let first := now - p - d.b
    let t := s.tx n
    let due := s.is (R.STRM_TXn_CFG_assigned n) && decide (p + d.b ≤ now) && decide (first % p = s.rd (R.STRM_TXn_CFG_phase n))
      && t.start.any (fun a => a ≤ first) && t.stop.all (fun z => first < z) && !s.halted
    if !due then s else
    let macs := s.txMacs n
    let released := s.legs.contains n || (s.fov.releasedAt.find? fun e => e.1 = x).all fun e => e.2 ≤ first
    let macs := if released then macs else []
    let held := s.txSamples n first
    let ch := s.txChannels n
    let soft := s.soft 6 x
    let s := s.wr ⟨R.STRM_TXn_STATUS n, 16, 16⟩ t.seq
    let t' := { t with seq := (t.seq + 1) % 2 ^ 16, stage := t.stage.filter fun e => first + p ≤ e.1 }
    let s := s.wr (txState n) (if t.stop.isSome then 0 else if soft then 2 else 1)
    if macs = [] then s.setTx n { t' with silent := true }
    else
      let s := if held.any (·.isNone) then (s.bump (lowHalf (R.STRM_TXn_COUNT n))).txEvent n R.STRM_INT_STATUS_tx_zero else s
      let zeros := List.replicate ch (0 : Sample)
      let (f, rows) := if soft then (t.fade, held.map fun _ => zeros)
        else fadeRun (if t.silent then .into 0 else t.fade) (held.map fun o => o.getD zeros)
      let s := s.setTx n { t' with silent := soft, fade := f }
      let l16 := s.is (R.STRM_TXn_CFG_l16 n)
      let payload := rows.flatMap fun r => r.flatMap fun v => if l16 then beBytes 2 (v.toNat / 256) else beBytes 3 v.toNat
      macs.foldl (fun s m => s.txCopy n m (s.packet n m t.seq first payload)) s)

/-! ## Energy-efficient Ethernet (R335; 13 R357) -/

/-- The lane is under an eye scan, a PRBS test or a loop: it stays out of electrical idle (03 R104, note g). -/
def State.laneTested (s : State) (n : Nat) : Bool :=
  s.is ⟨R.LANEn_SCAN_STATUS n, 0, 1⟩ || patternOn (s.rd (R.LANEn_PRBS_CTRL_chk_pat n)) || patternOn (s.rd (R.LANEn_PRBS_CTRL_gen_pat n))
    || s.rd ⟨R.LANEn_LOOP n, 0, 2⟩ != 0

/-- LPI_ENTRY (12 R335): EEE on, no software frame waiting; the idle time and the distance to the next launch point are the sender's. -/
def execLpiEntry (m : Fin 2) (s : State) : Res :=
  .next (if s.is (R.MACm_EEE_en m) ∧ s.linkIsUp m ∧ (s.mac m).head = none ∧ s.is (R.MACm_STATUS_tx_lpi m) = false then
      let s := s.wr (R.MACm_STATUS_tx_lpi m) 1
      if s.is (R.LANEn_CTRL_idle_en (2 + m)) ∧ (s.speed m = 0 ∨ s.speed m = 2) ∧ !s.laneTested (2 + m) then s.wr (R.LANEn_STATUS_tx_idle (2 + m)) 1 else s
    else s)

/-- LPI_WAKE (12 R335). -/
def execLpiWake (m : Fin 2) (s : State) : Res :=
  .next (if s.is (R.MACm_STATUS_tx_lpi m) then
      (s.wr (R.MACm_STATUS_tx_lpi m) 0).wr (R.LANEn_STATUS_tx_idle (2 + m)) 0
    else s)

end Sys2Proof.Machine
end

