-- ==== Sys2Proof/Machine/NeraxLink.lean ====
section
/-!
DEFINITION. The states of a Nerax link and its fall (14 R365, R368, R371, R377), which a lane, a received frame and a register write share.
-/
namespace Sys2Proof.Machine

def State.link (s : State) (k : Nat) : Nerax := Tab.get (fun _ => {}) s.links k
def State.setLink (s : State) (k : Nat) (l : Nerax) : State := { s with links := Tab.set (fun _ => {}) s.links k l }

/-- NRXk_STATUS.state: 0 off, 1 lanes, 2 align, 3 identify, 4 measure, 5 up, 6 refused (R368). -/
def State.linkState (s : State) (k : Nat) : Nat := s.rd (R.NRXk_STATUS_state k)
def State.setLinkState (s : State) (k v : Nat) : State := s.wr (R.NRXk_STATUS_state k) v

/-- An event of link `k` and its fault; source 86 + k (18 R463). -/
def State.linkFault (s : State) (k : Nat) (f : FieldAt) (level : Nat) : State := (s.raise f).report (86 + k) f.lsb level

/-- The link is the pair's mirror link (15 R384). -/
def State.isMirror (s : State) (k : Nat) : Bool := s.is R.FOV_CFG_paired && s.rd R.FOV_CFG_mirror == k

/-- The link is the member's upstream link (R374). -/
def State.isUpstream (s : State) (k : Nat) : Bool := s.holds 7 && s.is (R.NRXk_CFG_upstream k)

/-- The receive locks of link `k`, in the order of their group numbers. -/
def State.rxLocks (s : State) (k : Nat) : List Nat := s.locksWhere fun l => l.spec.producer = .nerax k
/-- The transmit locks of link `k`, in the order of their group numbers. -/
def State.txLocks (s : State) (k : Nat) : List Nat := s.locksWhere fun l => l.spec.consumer = .nerax k

/-- The receive sources of the link conceal the loss from the first missing tick (R371). -/
def State.concealLink (s : State) (k : Nat) : State :=
  (s.rxLocks k).foldl (fun s l =>
    { s with conceal := Tab.set (fun _ => none) s.conceal l (Tab.get (fun _ => none) s.lastGood l) }) s

/-- Lead timing on link `k` is lost: LEAD is disqualified with reason source (R377; 10 R273). -/
def State.leadLoss (s : State) (k : Nat) : State :=
  let was := s.is (R.NRXk_STATUS_timing_valid k)
  let s := s.wr (R.NRXk_STATUS_timing_valid k) 0
  if was && s.isUpstream k then (s.sourceLoss 8).settleClocks else s

/-- A lane that comes up from the release of POR_N, before an image is loaded (21 R525; 14 R379): LN0 and LN1, and the lanes of NX0 under
BOOT[1:0] = 0b10. [DEDUCED, log entry 59] -/
def State.earlyLane (s : State) (n : Nat) : Bool :=
  !s.is R.CFG_STATUS_loaded && (decide (n < 2) || ((n == 4 || n == 5) && s.rd ⟨R.GLB_STRAP, 0, 2⟩ == 2))

/-- Both lanes of link `k` track: its frame alignment starts (R368). -/
def State.lanesReady (s : State) (k : Nat) : State :=
  if (s.linkState k = 1 ∨ (s.linkState k = 0 ∧ s.earlyLane (4 + 2 * k))) ∧ s.laneState (4 + 2 * k) = 6 ∧ s.laneState (5 + 2 * k) = 6 then s.setLinkState k 2 else s

def State.setFov (s : State) (f : Fov) : State := { s with fov := f }
def State.sync (s : State) : Nat := s.rd R.FOV_STATUS_sync

/-- A resynchronisation ends with sync 0 (15 R401). -/
def State.endResync (s : State) : State :=
  let s := if s.sync = 1 ∨ s.sync = 2 then s.wr R.FOV_STATUS_sync 0 else s
  let s := s.setFov { s.fov with matching := 0 }
  if s.fov.copying ∨ (s.requester 2).pending then (s.setFov { s.fov with copying := false }).weirDrop 2 else s

/-- The link leaves its state: from up, with everything R371 states; every unacknowledged message is discarded and counted (R367); the loss
of the mirror link ends a resynchronisation (15 R401). -/
def State.linkFall (s : State) (k : Nat) : State :=
  let st := s.linkState k
  if st < 2 then s else
  let l := s.link k
  let lost := (l.held.filter fun h => h.ends && h.frame.type == 2).length
  let s := (s.bump (highHalf (R.NRXk_COUNT2 k)) lost).setLinkState k 1
  let s := s.setLink k { head := l.head, slots := l.slots }
  if st = 5 then
    let s := ((s.bump (highHalf (R.NRXk_COUNT1 k))).linkFault k (R.NRXk_INT_STATUS_link_down k) 2)
    let s := if s.isMirror k then s.endResync else s
    ((s.concealLink k).leadLoss k).lanesReady k
  else (s.leadLoss k).lanesReady k

/-- The Nerax link of a lane. -/
def linkOf (n : Nat) : Option Nat := if 4 ≤ n then some ((n - 4) / 2) else none

/-- NRXk_CTRL.en as it stands: a used link starts with it and stops without it (R368). -/
def State.linkEnable (s : State) (k : Nat) : State :=
  if s.is (R.NRXk_CFG_used k) && s.is ⟨R.NRXk_CTRL k, 0, 1⟩ then
    (if s.linkState k = 0 then (s.setLinkState k 1).lanesReady k else s)
  else if s.linkState k = 0 then s
  else (s.linkFall k).setLinkState k 0

end Sys2Proof.Machine
end

