-- ==== Sys2Proof/Machine/Fov.lean ====
section
/-!
DEFINITION. Fail-over (15): the lease, the roles, the fence, the handover and the resynchronisation of a pair. What mirror records write,
and the handover itself, are in Machine/Mirror.lean.
-/
namespace Sys2Proof.Machine

/-! ## Shared operations -/

/-- An event of FOV (15 R402) and its fault: source 17, code the event's bit (18 R463; 19 R481). -/
def State.fovFault (s : State) (f : FieldAt) (level : Nat) : State := (s.raise f).report 17 f.lsb level

def State.setFovState (s : State) (v : Nat) : State := s.wr R.FOV_STATUS_state v

/-- The lease expiry T_exp in 4 ns cycles (15 R402: 10 µs units). -/
def State.leaseExpiry (s : State) : Nat := s.rd ⟨R.FOV_LEASE_CFG, 0, 14⟩ * 2500

/-- The arming time t_arm in 4 ns cycles (15 R402: 10 ms units, values below 0x32 act as 0x32). -/
def State.armingTime (s : State) : Nat := max 0x32 (s.rd ⟨R.FOV_LEASE_CFG, 24, 8⟩) * 2500000

/-- How long a joining or standby device waits before it takes (15 R386): T_exp after the last renewal; never having seen one, t_arm and T_exp
on side 0, t_arm and twice T_exp on side 1, after its entry. -/
def State.takeWait (s : State) : Nat :=
  if s.fov.seenAt.isSome then s.leaseExpiry
  else s.armingTime + (if s.is R.FOV_CTRL_side then 2 * s.leaseExpiry else s.leaseExpiry)

/-- That wait is over. -/
def State.waitOver (s : State) : Bool := decide (max (s.fov.seenAt.getD 0) s.fov.entryAt + s.takeWait ≤ s.now)

/-- The mirror link is up (15 R388). -/
def State.mirrorUp (s : State) : Bool := s.is R.FOV_CFG_paired && s.linkState (s.rd R.FOV_CFG_mirror) == 5

/-- A lease record is sent on the mirror link while it runs (15 R384). -/
def State.sendLease (s : State) (kind number at_ : Nat) : State :=
  if s.mirrorUp then s.emit (.lease kind number at_ s.sync) else s

/-- LEASE_OUT toggles, unless the device has departed and holds it low (15 R385). -/
def State.toggleLease (s : State) : State :=
  if s.fov.departed then s else (s.setFov { s.fov with leaseOut := !s.fov.leaseOut }).emit (.leaseOut !s.fov.leaseOut)

/-- The peer is sole-absent: PEER_ALIVE low, or the peer departed (15 R386). -/
def State.soleNow (s : State) : Bool := !s.is R.FOV_STATUS_peer_alive || s.fov.peerDeparted

/-- FOV_STATUS.sole follows R386 while the device is in the pair; when sole ends, the keeper awaits an echo or t_arm before it is armed. [DEDUCED, log entry 82] -/
def State.judgeSole (s : State) : State :=
  if s.fovState = 0 ∨ s.is R.FOV_STATUS_sole = s.soleNow then s
  else if s.soleNow then (s.wr R.FOV_STATUS_sole 1).raise R.FOV_INT_STATUS_peer_gone
  else
    let s := ((s.wr R.FOV_STATUS_sole 0).wr R.FOV_STATUS_armed 0).raise R.FOV_INT_STATUS_peer_back
    s.setFov { s.fov with soleEnded := some s.now }

/-- A renewal or echo is seen on a path: ball_ok or link_ok, with path_ok where the path had run before (15 R402). [DEDUCED, log entry 82] -/
def State.seePath (s : State) (p : LeasePath) : State :=
  let f := match p with | .balls => R.FOV_STATUS_ball_ok | .mirrorLink => R.FOV_STATUS_link_ok
  let before := match p with | .balls => s.fov.ballAt | .mirrorLink => s.fov.linkAt
  let s := if before.isSome && !s.is f then s.raise R.FOV_INT_STATUS_path_ok else s
  (s.wr f 1).setFov (match p with | .balls => { s.fov with ballAt := some s.now } | .mirrorLink => { s.fov with linkAt := some s.now })

/-- The peer signals again after a departure (15 R386). -/
def State.peerSignals (s : State) : State := (s.setFov { s.fov with peerDeparted := false }).judgeSole

/-- FOV_SWITCH: the take-domain sample number of the last role change (15 R402). -/
def State.noteSwitch (s : State) : State :=
  s.setWide R.FOV_SWITCH_LO R.FOV_SWITCH_HI (s.dom s.takeDom).sample.toNat

/-- The lease logic's choice within the group (03 R101; 15 R387): ACTIVE or STANDBY, requested for the next boundary of R96. -/
def State.requestRole (s : State) (keeper : Bool) : State := (s.hwMode 1 keeper).hwMode 2 (!keeper)

/-- The device becomes keeper (15 R386, R387): unarmed; the outputs wait for the ACTIVE boundary. -/
def State.becomeKeeper (s : State) : State :=
  let s := ((s.setFovState 3).wr R.FOV_STATUS_armed 0).raise R.FOV_INT_STATUS_took
  let s := (s.setFov { s.fov with yieldAt := none, yieldEchoed := false, soleEnded := none, echoAt := s.now }).noteSwitch
  (s.requestRole true).applySafe

/-- A take, which is counted (15 R386, R402). [DEDUCED, log entry 82] -/
def State.takeLease (s : State) : State := (s.bump (lowHalf R.FOV_COUNT0)).becomeKeeper

/-- With fast_take a joining or standby device takes while PEER_ALIVE is low (15 R386). -/
def State.fastTake (s : State) : State :=
  if s.is R.FOV_CFG_fast_take ∧ !s.is R.FOV_STATUS_peer_alive ∧ (s.fovState = 1 ∨ s.fovState = 2) ∧ !s.halted then s.takeLease else s

/-- The device stops being keeper and is fenced at once (15 R387, R394). -/
def State.stopKeeper (s : State) (next : Nat) : State :=
  let s := ((s.setFovState next).wr R.FOV_STATUS_armed 0).raise R.FOV_INT_STATUS_gave
  let s := (s.setFov { s.fov with yieldAt := none, yieldEchoed := false, soleEnded := none }).noteSwitch
  (s.requestRole false).applySafe

/-- The device enters the pair at a take boundary (03 R101; 15 R386): joining, in STANDBY. [DEDUCED, log entry 82] -/
def State.enterPair (s : State) : State :=
  let s := s.setFov { s.fov with
    seenAt := none, entryAt := s.now, ballAt := none, linkAt := none, leaseOut := false, number := 0, peerDeparted := false, departed := false,
    yieldAt := none, yieldEchoed := false, matching := 0, soleEnded := none, departing := false, copying := false, waiting := [], crcs := [] }
  let s := ((s.setFovState 1).wr R.FOV_STATUS_sync 0).wr R.FOV_STATUS_armed 0
  (((s.requestRole false).judgeSole).applySafe).fastTake

/-- A take releases the device from the pair, out of STANDBY (15 R390): it departs. -/
def State.leavePair (s : State) : State :=
  let s := s.endResync
  let s := ((s.setFovState 0).wr R.FOV_STATUS_sync 0).wr R.FOV_STATUS_armed 0
  let s := ((s.wr R.FOV_STATUS_sole 0).wr R.FOV_STATUS_ball_ok 0).wr R.FOV_STATUS_link_ok 0
  let s := (s.hwMode 1 false).hwMode 2 false
  (s.setFov { s.fov with departing := true, yieldAt := none, waiting := [], crcs := [] }).applySafe

/-- A resynchronisation starts (15 R401): a joining or standby device begins to copy; the keeper asks for leave. -/
def State.startResync (s : State) : State :=
  if s.fovState = 1 ∨ s.fovState = 2 then (if s.sync = 0 then (s.wr R.FOV_STATUS_sync 1).setFov { s.fov with matching := 0 } else s)
  else if s.fovState = 3 ∧ !s.fov.copying ∧ !(s.requester 2).pending then s.weirRequest 2 (s.weirCost 2)
  else s

/-- sync falls to 0 (15 R397, R398): sync_lost with a level-1 fault, and a new resynchronisation where auto_resync is 1. -/
def State.loseSync (s : State) : State :=
  if s.sync = 0 then s else
  let s := ((s.wr R.FOV_STATUS_sync 0).setFov { s.fov with matching := 0 }).fovFault R.FOV_INT_STATUS_sync_lost 1
  if s.is R.FOV_CTRL_auto_resync then s.startResync else s

/-- A barge of an exact lock is committed (15 R398): the keeper sends its CRC, the standby keeps its own. -/
def State.noteExact (s : State) (l : Nat) (b : Barge) : State :=
  if !s.fov.exact.contains l then s
  else if s.fovState = 3 ∧ s.mirrorUp then s.emit (.mirrorCrc l b.tick (Config.bargeCrc b.words))
  else if s.fovState = 2 then s.setFov { s.fov with crcs := ((l, b.tick, Config.bargeCrc b.words) :: s.fov.crcs).take 4096 }
  else s

/-! ## The lease (R385 to R393) -/

/-- LEASE_RENEWAL (15 R385, R392): every t_ren, on both paths, unless a level-3 or level-4 safe state is in force. -/
def execLeaseRenewal (s : State) : Res :=
  .next (if s.fovState = 3 ∧ !s.forced3 ∧ !s.halted then
      let n := (s.fov.number + 1) % 2 ^ 16
      let s := (s.setFov { s.fov with number := n, renewedAt := some s.now }).toggleLease
      s.sendLease 1 n 0
    else s)

/-- A renewal is seen by a joining, standby or isolated device (15 R386): echoed on its path; isolation ends. -/
def State.takeRenewal (s : State) (p : LeasePath) (number : Nat) : State :=
  let isolated := s.fovState == 4
  let s := ((s.setFov { s.fov with seenAt := some s.now }).seePath p).peerSignals
  let s := match p with | .balls => s.toggleLease | .mirrorLink => s.sendLease 2 number 0
  let s := s.setFovState 2
  if isolated then (s.endCause 17 2).applySafe else s

/-- A foreign LEASE_IN edge at a keeper (15 R391). -/
def State.foreignEdge (s : State) : State := if s.fovState = 3 then s.bump (highHalf R.FOV_COUNT1) else s

/-- A keeper receives a keeper's renewal record (15 R391): side 1 fences and becomes standby; both report the conflict. -/
def State.secondKeeper (s : State) : State :=
  if s.fovState = 3 then
    let s := if s.is R.FOV_CTRL_side then (s.setFov { s.fov with seenAt := some s.now }).stopKeeper 2 else s
    s.fovFault R.FOV_INT_STATUS_conflict 2
  else s

/-- LEASE_RENEWAL_RECEIVED (15 R385, R386, R389, R391). -/
def execLeaseRenewalReceived (p : LeasePath) (r : LeaseRecord) (s : State) : Res :=
  .next (if (s.fovState = 1 ∨ s.fovState = 2 ∨ s.fovState = 4) ∧ !s.fov.departed ∧ !s.halted then s.takeRenewal p r.number.toNat
    else match p with | .balls => s.foreignEdge | .mirrorLink => s.secondKeeper)

/-- LEASE_ECHO_RECEIVED (15 R385, R386): a LEASE_IN edge later than 2 µs after the keeper's own renewal edge is foreign. The link's record
carries the standby's sync. [DEDUCED, log entry 82] -/
def execLeaseEchoReceived (p : LeasePath) (r : LeaseRecord) (s : State) : Res :=
  .next (if s.fovState ≠ 3 then s
    else if p = .balls ∧ !(s.fov.renewedAt.any fun t => decide (s.now ≤ t + 500)) then s.foreignEdge
    else
      let s := (s.seePath p).peerSignals
      let s := if p = .mirrorLink then s.wr R.FOV_STATUS_sync r.sync else s
      (s.setFov { s.fov with echoAt := s.now, soleEnded := none }).wr R.FOV_STATUS_armed 1)

/-- FOREIGN_LEASE_EDGE (15 R391). -/
def execForeignLeaseEdge (s : State) : Res := .next s.foreignEdge

/-- DEPART_PATTERN (15 R385, R390): LEASE_OUT ends low and stays low until the device next enters a pair or is reset. -/
def execDepartPattern (s : State) : Res :=
  .next (if s.fov.departing then
      let s := (s.emit .depart).sendLease 4 s.fov.number 0
      s.setFov { s.fov with departing := false, departed := true, leaseOut := false }
    else s)

/-- DEPART_RECEIVED (15 R385, R386). -/
def execDepartReceived (s : State) : Res :=
  .next (if s.fovState = 0 then s else (s.setFov { s.fov with peerDeparted := true }).judgeSole)

/-- PEER_ALIVE_LOW (15 R383, R386): low for 10 µs; with fast_take a standby takes at once, R388 permitting it. -/
def execPeerAliveLow (s : State) : Res :=
  .next ((s.wr R.FOV_STATUS_peer_alive 0).judgeSole).fastTake

/-- PEER_ALIVE_HIGH (15 R386). -/
def execPeerAliveHigh (s : State) : Res := .next (s.wr R.FOV_STATUS_peer_alive 1).judgeSole

/-- KEEPER_FENCE_TIMEOUT (15 R386, R389): T_exp / 2 after the last echo. -/
def execKeeperFenceTimeout (s : State) : Res :=
  .next (if s.fovState = 3 ∧ s.is R.FOV_STATUS_armed ∧ !s.is R.FOV_STATUS_sole ∧ s.fov.echoAt + s.leaseExpiry / 2 ≤ s.now then
      ((s.stopKeeper 4).raise R.FOV_INT_STATUS_isolated).fovFault R.FOV_INT_STATUS_fenced_self 2
    else s)

/-- LEASE_TAKE (15 R386 to R388): the wait of a joining or standby device has expired. [DEDUCED, log entry 82] -/
def execLeaseTake (s : State) : Res :=
  .next (if (s.fovState = 1 ∨ s.fovState = 2) ∧ !s.halted
      ∧ (s.fov.seenAt.isSome ∨ s.mirrorUp ∨ !s.is R.FOV_STATUS_peer_alive) ∧ s.waitOver then s.takeLease else s)

/-- SECOND_KEEPER_FOUND (15 R391): a keeper's renewal record at a keeper. -/
def execSecondKeeperFound (s : State) : Res := .next s.secondKeeper

/-- CLAIM (15 R393): keeper at once, unarmed; refused where a renewal has been received within T_exp. [DEDUCED, log entry 82] -/
def execClaim (s : State) : Res :=
  .next (if s.fovState ≠ 0 ∧ s.fovState ≠ 3 ∧ !s.halted ∧ s.fov.seenAt.all (fun t => decide (t + s.leaseExpiry ≤ s.now)) then
      let s := if s.fovState = 4 then s.endCause 17 2 else s
      s.becomeKeeper
    else s)

/-- PATH_LOST (15 R393, R402): no renewal or echo on a path within T_exp; path_lost where the other path runs. -/
def execPathLost (p : LeasePath) (s : State) : Res :=
  let f := match p with | .balls => R.FOV_STATUS_ball_ok | .mirrorLink => R.FOV_STATUS_link_ok
  let other := match p with | .balls => R.FOV_STATUS_link_ok | .mirrorLink => R.FOV_STATUS_ball_ok
  let seen := match p with | .balls => s.fov.ballAt | .mirrorLink => s.fov.linkAt
  .next (if s.is f ∧ seen.all (fun t => decide (t + s.leaseExpiry ≤ s.now)) then
      let s := s.wr f 0
      if s.is other then s.fovFault R.FOV_INT_STATUS_path_lost 1 else s
    else s)

/-- ARMING_TIME_EXPIRY (15 R386): t_arm after sole ended, with no echo received. -/
def execArmingTimeExpiry (s : State) : Res :=
  .next (if s.fovState = 3 ∧ s.fov.soleEnded.any (fun t => decide (t + s.armingTime ≤ s.now)) ∧ !s.is R.FOV_STATUS_sole then
      (s.setFov { s.fov with soleEnded := none }).wr R.FOV_STATUS_armed 1
    else s)

/-! ## Handover (R399) -/

/-- The handover boundary: FOV_YIELD_AT rounded up to a tick boundary of the take domain. -/
def State.yieldBoundary (s : State) : Nat :=
  let b := (s.dom s.takeDom).b
  ceilDiv (s.wide R.FOV_YIELD_AT_LO R.FOV_YIELD_AT_HI) b * b

/-- YIELD_REQUEST (15 R399): refused without a standby in sync, with a path down, or less than 1 ms ahead. -/
def execYieldRequest (s : State) : Res :=
  .next (if s.fovState ≠ 3 then s else
    let at_ := s.yieldBoundary
    let now := (s.dom s.takeDom).sample.toNat
    if s.sync ≠ 3 ∨ !s.is R.FOV_STATUS_ball_ok ∨ !s.is R.FOV_STATUS_link_ok ∨ at_ * 1000 < now * 1000 + s.fs s.takeDom then
      s.raise R.FOV_INT_STATUS_yield_refused
    else (s.setFov { s.fov with yieldAt := some at_, yieldEchoed := false }).sendLease 3 s.fov.number at_)

/-- YIELD_CANCEL (15 R399): 100 µs before the boundary the standby has not echoed the yield. -/
def execYieldCancel (s : State) : Res :=
  .next (let now := (s.dom s.takeDom).sample.toNat
    if s.fovState = 3 ∧ s.fov.yieldAt.any (fun t => decide (t * 10000 ≤ now * 10000 + s.fs s.takeDom)) ∧ !s.fov.yieldEchoed then
      (s.setFov { s.fov with yieldAt := none }).raise R.FOV_INT_STATUS_yield_refused
    else s)

/-- The lease record of a timing frame on the mirror link (15 R384, R399, R402): the peer's edge offset; a yield at the standby, answered by an
echo; the echo of its yield at the keeper. -/
def State.takeLeaseRecord (s : State) (r : LeaseRecord) : State :=
  let s := s.setReg R.FOV_SKEW r.skew
  if r.kind = 3 ∧ s.fovState = 2 then
    (s.setFov { s.fov with yieldAt := some r.at_.toNat }).sendLease 2 r.number.toNat r.at_.toNat
  else if r.kind = 2 ∧ s.fovState = 3 ∧ s.fov.yieldAt = some r.at_.toNat then s.setFov { s.fov with yieldEchoed := true }
  else s

/-! ## Mirroring and resynchronisation (R398, R401) -/

/-- MIRROR_CRC_COMPARE (15 R398): the keeper's CRC of one exact group's barge against the standby's own. A tick matches with its last group. [DESIGN CHOICE, log entry 81] -/
def execMirrorCrcCompare (lock tick : Nat) (crc : Word) (late : Bool) (s : State) : Res :=
  .next (if s.fovState ≠ 2 ∨ !s.fov.exact.contains lock ∨ s.sync < 2 then s else
    let own := s.fov.crcs.any fun e => e = (lock, tick, crc)
    if late then s.loseSync
    else if !own then (s.bump (lowHalf R.FOV_COUNT1)).loseSync
    else if s.fov.exact.getLast? = some lock then s.setFov { s.fov with matching := min 256 (s.fov.matching + 1) } else s)

/-- RESYNC_START (15 R401). -/
def execResyncStart (s : State) : Res := .next s.startResync

/-- The weir grants leave for the copy (15 R401). -/
def State.resyncLeave (s : State) : State :=
  if s.fovState = 3 then ((s.setFov { s.fov with copying := true }).wr R.FOV_STATUS_sync 1).emit .mirrorCopy else s.weirReturn 2

/-- RESYNC_COPY_END (15 R401), at a take-domain tick boundary: the keeper returns its leave; the compare stage begins. -/
def execResyncCopyEnd (s : State) : Res :=
  .next (if s.fovState = 3 ∧ s.fov.copying then
      ((s.setFov { s.fov with copying := false }).wr R.FOV_STATUS_sync 2).weirReturn 2
    else if (s.fovState = 1 ∨ s.fovState = 2) ∧ s.sync = 1 then (s.setFov { s.fov with matching := 0 }).wr R.FOV_STATUS_sync 2
    else s)

/-- RESYNC_COMPARE_END (15 R401): 256 consecutive ticks have matched. -/
def execResyncCompareEnd (s : State) : Res :=
  .next (if s.fovState = 2 ∧ s.sync = 2 ∧ 256 ≤ s.fov.matching then (s.wr R.FOV_STATUS_sync 3).raise R.FOV_INT_STATUS_sync_ok else s)

/-- RESYNC_ABORT (15 R401): the mirror link is lost, or abort_resync is written. -/
def execResyncAbort (s : State) : Res := .next s.endResync

end Sys2Proof.Machine
end

