-- ==== Sys2Proof/Machine/Lane.lean ====
section
/-!
DEFINITION. Serial lanes (13): bring-up and adaptation, clock compensation, test features, electrical idle.
-/
namespace Sys2Proof.Machine

def State.laneUsed (s : State) (n : Nat) : Bool := s.rd (R.LANEn_CFG_protocol n) != 0 || s.earlyLane n
def State.pcieUp (s : State) : Bool := s.is (bitAt R.PCIE_STATUS 31)

/-- The reference clock of a lane: 0 REFCLK_PCIE, 1 REFCLK_NET, 2 REFCLK_NRX (R343). -/
def refclkOf (n : Nat) : Nat := if n < 2 then 0 else if n < 4 then 1 else 2
def State.refclk (s : State) (r : Nat) : Bool := s.is (bitAt R.LANE_REFCLK_STATUS r)

/-- The lane moves to a state below tracking, and its Nerax link falls (14 R365). -/
def State.laneTo (s : State) (n v : Nat) : State :=
  let s := s.laneBelow n v
  match linkOf n with
  | some k => s.linkFall k
  | none => s

/-- The loader starts the bring-up of a used lane (R357; 21 R531). -/
def State.laneStart (s : State) (n : Nat) : State :=
  if s.laneState n ≠ 0 then s
  else if s.laneUsed n then (s.wr (R.LANEn_STATUS_tx_idle n) 0).wr (R.LANEn_STATUS_state n) 1 else s.wr (R.LANEn_STATUS_tx_idle n) 1

/-- A step of bring-up from state `a` to `b` (R346). -/
def State.laneStep (s : State) (n a b : Nat) : State := if s.laneState n = a then s.wr (R.LANEn_STATUS_state n) b else s

/-- LANE_SYNTH_LOCK (13 R346). -/
def execLaneSynthLock (n : LaneIx) (s : State) : Res :=
  .next (if !s.refclk (refclkOf n) then s
    else if s.earlyLane n ∧ s.laneState n = 0 then (s.wr (R.LANEn_STATUS_tx_idle n) 0).wr (R.LANEn_STATUS_state n) 2
    else s.laneStep n 1 2)

/-- LANE_SIGNAL_DETECT (13 R346). -/
def execLaneSignalDetect (n : LaneIx) (s : State) : Res :=
  .next (if s.laneState n = 2 then (s.laneTo n 3).wr (R.LANEn_STATUS_sig_det n) 1 else s)

/-- LANE_CDR_LOCK (13 R346). -/
def execLaneCdrLock (n : LaneIx) (s : State) : Res :=
  .next (if s.laneState n = 3 then (s.laneStep n 3 4).wr (R.LANEn_STATUS_cdr_lock n) 1 else s)

/-- LANE_CTLE_CONVERGED (13 R346). -/
def execLaneCtleConverged (n : LaneIx) (ctle : Byte) (s : State) : Res :=
  .next (if s.laneState n = 4 then (s.wr ⟨R.LANEn_RXEQ n, 24, 8⟩ ctle.toNat).laneStep n 4 5 else s)

/-- LANE_DFE_CONVERGED (13 R346; 14 R368). -/
def execLaneDfeConverged (n : LaneIx) (taps : BitVec 24) (s : State) : Res :=
  .next (if s.laneState n = 5 then
      let s := (s.wr ⟨R.LANEn_RXEQ n, 0, 24⟩ taps.toNat).laneStep n 5 6
      let s := s.raise (R.LANEn_INT_STATUS_ready n)
      match linkOf n with
      | some k => s.lanesReady k
      | none => s
    else s)

/-- LANE_ADAPT_TIMEOUT (13 R346): a bring-up state has exceeded its limit. -/
def execLaneAdaptTimeout (n : LaneIx) (s : State) : Res :=
  .next (if 3 ≤ s.laneState n ∧ s.laneState n ≤ 5 then (s.laneTo n 2).raise (R.LANEn_INT_STATUS_adapt_fail n) else s)

/-- Signal detect is lost for good (R346, R358). -/
def State.laneLoss (s : State) (n : Nat) : State :=
  ((s.wr (R.LANEn_STATUS_rx_idle n) 0).laneTo n 2 |>.bump (highHalf (R.LANEn_COUNT n))).raise (R.LANEn_INT_STATUS_sig_lost n)

/-- LANE_SIGNAL_LOSS (13 R346, R358): after the partner's LPI signal a MAC's lane enters receive idle and holds its state. -/
def execLaneSignalLoss (n : LaneIx) (afterLpi : Bool) (s : State) : Res :=
  .next (if s.laneState n < 3 then s
    else if afterLpi && (n == 2 || n == 3) && s.laneState n == 6 then
      (s.wr (R.LANEn_STATUS_rx_idle n) 1).wr (R.LANEn_STATUS_sig_det n) 0
    else s.laneLoss n)

/-- READAPT_WRITE (13 R347, R355): asks the weir for leave in state 6, or is refused. [DEDUCED, log entry 74] -/
def State.readapt (s : State) (n : Nat) : State :=
  if s.laneState n = 6 ∧ s.is ⟨R.LANEn_SCAN_STATUS n, 0, 1⟩ = false then s.weirRequest (9 + n) (s.weirCost (9 + n))
  else s.raise (R.LANEn_INT_STATUS_readapt_refused n)

def execReadaptWrite (n : LaneIx) (s : State) : Res := .next (if s.laneUsed n then s.readapt n else s)

/-- Leave is granted to a lane (READAPT_START, 13 R347): state 7, the searches rerun on live traffic. [DEDUCED, log entry 74] -/
def State.laneLeave (s : State) (n : Nat) : State :=
  if s.laneState n = 6 then ((s.scanAbort n).wr (R.LANEn_STATUS_leave n) 1).wr (R.LANEn_STATUS_state n) 7 else s.weirReturn (9 + n)

/-- READAPT_END (13 R347). -/
def execReadaptEnd (n : LaneIx) (ctle : Byte) (taps : BitVec 24) (s : State) : Res :=
  .next (if s.laneState n = 7 then
      let s := s.setReg (R.LANEn_RXEQ n) (ctle ++ taps)
      ((s.readaptDrop n).wr (R.LANEn_STATUS_state n) 6).raise (R.LANEn_INT_STATUS_readapt_done n)
    else s)

/-! ## Elastic buffer and embedded clocking (R348 to R350) -/

/-- The lane's receiver uses the elastic buffer: independent mode, or an embedded pair on fallback (R348, R350). -/
def State.elastic (s : State) (n : Nat) : Bool :=
  decide (3 ≤ s.laneState n) && (!s.is (R.LANEn_CFG_embedded n) || s.is (R.LANEn_STATUS_clk_fallback n))

/-- The fill of the elastic buffer, with its least and greatest since the last read of LANEn_EB (R359). [DESIGN CHOICE, log entry 71] -/
def State.setFill (s : State) (n fill : Nat) : State :=
  let fresh := (s.lane n).read
  let lo := if fresh then fill else min fill (s.rd ⟨R.LANEn_EB n, 8, 6⟩)
  let hi := if fresh then fill else max fill (s.rd ⟨R.LANEn_EB n, 16, 6⟩)
  (s.setReg (R.LANEn_EB n) (BitVec.ofNat 32 (hi * 2 ^ 16 + lo * 2 ^ 8 + fill))).setLane n { s.lane n with read := false }

/-- ELASTIC_BUFFER_UNIT (13 R348): a unit that arrives above 20 is deleted, below 12 written twice; `fill` counts it once. [DESIGN CHOICE, log entry 71] -/
def execElasticBufferUnit (n : LaneIx) (fill : Fin 33) (s : State) : Res :=
  .next (if s.elastic n then
      s.setFill n (if 20 < fill.val then fill.val - 1 else if fill.val < 12 then fill.val + 1 else fill.val)
    else s)

/-- ELASTIC_BUFFER_RECENTRE (13 R349): a fill of 0 or 32 re-centres to 16. -/
def execElasticBufferRecentre (n : LaneIx) (full : Bool) (s : State) : Res :=
  .next (if s.elastic n then
      let s := (s.setFill n (if full then 32 else 0)).setFill n 16
      ((s.bump (lowHalf (R.LANEn_COUNT n))).raise (R.LANEn_INT_STATUS_eb_err n)).report (74 + n) 5 1
    else s)

/-- Link `k` is an embedded pair (R350). -/
def State.embeddedPair (s : State) (k : Nat) : Bool := s.is (R.LANEn_CFG_embedded (4 + 2 * k))

/-- EMBEDDED_CLOCK_FALLBACK (13 R350): the lower lane has left state 6; the pair falls back to REFCLK_NRX. [DEDUCED, log entry 70] -/
def execEmbeddedClockFallback (k : LinkIx) (s : State) : Res :=
  .next (let n := 4 + 2 * k.val
    if s.embeddedPair k ∧ s.laneState n ≠ 6 ∧ s.laneState n ≠ 7 ∧ s.is (R.LANEn_STATUS_clk_fallback n) = false then
      [n, n + 1].foldl (fun s n => (s.wr (R.LANEn_STATUS_clk_fallback n) 1).raise (R.LANEn_INT_STATUS_clk_fallback n)) s
    else s)

/-- EMBEDDED_CLOCK_RETURN (13 R350). [DEDUCED, log entry 70] -/
def execEmbeddedClockReturn (k : LinkIx) (s : State) : Res :=
  .next (let n := 4 + 2 * k.val
    if s.laneState n = 6 then (s.wr (R.LANEn_STATUS_clk_fallback n) 0).wr (R.LANEn_STATUS_clk_fallback (n + 1)) 0 else s)

/-! ## Reference clocks (R344) -/

/-- The tests of a lane stop and their fields clear (R351, R356). -/
def State.stopTests (s : State) (n : Nat) : State :=
  let s := s.scanAbort n
  let s := s.setLane n { s.lane n with genWaits := false }
  ((s.hw ⟨R.LANEn_PRBS_CTRL n, 0, 4⟩ 0).hw ⟨R.LANEn_LOOP n, 0, 2⟩ 0).hw (R.LANEn_CTRL_inj_rate n) 0

/-- Release of MAINTENANCE: each lane returns to mission data, one on a loop restarting its bring-up from state 3 (R351, R352). -/
def State.maintenanceEnds (s : State) : State :=
  (List.range 12).foldl (fun s n =>
    let looped := s.rd ⟨R.LANEn_LOOP n, 0, 2⟩ != 0
    let s := s.stopTests n
    if looped && decide (3 ≤ s.laneState n) then (s.laneTo n 3).wr (R.LANEn_STATUS_sig_det n) 1 else s) s

/-- REFCLK_LOST (13 R344, R356). -/
def execRefclkLost (r : Fin 3) (s : State) : Res :=
  .next (if !s.refclk r then s else
    let s := s.wr (bitAt R.LANE_REFCLK_STATUS r) 0
    (List.range 12).foldl (fun s n =>
      if refclkOf n = r ∧ s.laneUsed n ∧ s.laneState n ≠ 0 then
        (((s.stopTests n).laneTo n 1).raise (R.LANEn_INT_STATUS_refclk_lost n)).report (74 + n) 4 2
      else s) s)

/-- REFCLK_RETURN (13 R344; 19 R491): present again after 1 ms of edges. -/
def execRefclkReturn (r : Fin 3) (s : State) : Res :=
  .next (let s := s.wr (bitAt R.LANE_REFCLK_STATUS r) 1
    (List.range 12).foldl (fun s n => if refclkOf n = r then s.endCause (74 + n) 4 else s) s)

/-! ## Tests (R351 to R355) -/

/-- Injection and eye scans act only while MAINTENANCE is held; loops and generators on LN0 and LN1 only while the PCIe link is down too
(R351). -/
def State.testsMay (s : State) : Bool := s.holds 9
def State.loopsMay (s : State) (n : Nat) : Bool := s.testsMay && (decide (2 ≤ n) || !s.pcieUp)
def State.testRefused (s : State) (n : Nat) : State := s.raise (R.LANEn_INT_STATUS_test_refused n)

/-- A generator and a far-end loop are both set: the generator waits for the next write of mode 0 (R356). -/
def State.judgeGen (s : State) (n : Nat) : State :=
  if s.rd ⟨R.LANEn_LOOP n, 0, 2⟩ = 3 ∧ patternOn (s.rd (R.LANEn_PRBS_CTRL_gen_pat n)) then s.setLane n { s.lane n with genWaits := true } else s

/-- A write of LANEn_LOOP.mode (R351, R352): the lane restarts bring-up from state 3 on its new input; the loop decides the transmitter. -/
def State.writeLoop (s : State) (n mode : Nat) : State :=
  if !s.laneUsed n then s
  else if mode ≠ 0 ∧ !s.loopsMay n then s.testRefused n
  else
    let s := if mode = 0 then s.setLane n { s.lane n with genWaits := false } else s
    if s.rd ⟨R.LANEn_LOOP n, 0, 2⟩ = mode then s else
    let s := (s.sw ⟨R.LANEn_LOOP n, 0, 2⟩ mode).judgeGen n
    if 2 ≤ s.laneState n then (s.laneTo n 3).wr (R.LANEn_STATUS_sig_det n) 1 else s

/-- LOOP_MODE_WRITE (13 R352). -/
def execLoopModeWrite (n : LaneIx) (mode : Fin 4) (s : State) : Res := .next (s.writeLoop n mode)

/-- A write of LANEn_PRBS_CTRL (R351, R353): the generator's fields under R351, the checker's at any time, which clears its counts. -/
def State.writePrbs (s : State) (n : Nat) (v : Word) : State :=
  if !s.laneUsed n then s else
  let gen := getBits v 0 4
  let s := if patternOn gen ∧ !s.loopsMay n then s.testRefused n
    else ((s.sw (R.LANEn_PRBS_CTRL_gen_pat n) gen).sw (R.LANEn_PRBS_CTRL_gen_inv n) (getBits v 8 1)).judgeGen n
  let s := (s.sw (R.LANEn_PRBS_CTRL_chk_pat n) (getBits v 4 4)).sw (R.LANEn_PRBS_CTRL_chk_inv n) (getBits v 9 1)
  ((s.setReg (R.LANEn_PRBS_ERR n) 0).setWide (R.LANEn_PRBS_BITS_LO n) (R.LANEn_PRBS_BITS_HI n) 0).setReg (R.LANEn_PRBS_STATUS n) 0

/-- PRBS_CTRL_WRITE (13 R353). -/
def execPrbsCtrlWrite (n : LaneIx) (value : Word) (s : State) : Res := .next (s.writePrbs n value)

/-- PRBS_CHECKER_LOCK (13 R353): the bits compared and in error while locked are counted; then the checker locks, or loses lock. -/
def execPrbsCheckerLock (n : LaneIx) (lock : Bool) (bits errors : Nat) (s : State) : Res :=
  .next (let pat := s.rd (R.LANEn_PRBS_CTRL_chk_pat n)
    if !s.laneUsed n || !patternOn pat then s else
    let f : FieldAt := ⟨R.LANEn_PRBS_STATUS n, 0, 1⟩
    let s := if s.is f then
        (s.bump (whole (R.LANEn_PRBS_ERR n)) errors).setWide (R.LANEn_PRBS_BITS_LO n) (R.LANEn_PRBS_BITS_HI n)
          ((s.wide (R.LANEn_PRBS_BITS_LO n) (R.LANEn_PRBS_BITS_HI n) + bits) % 2 ^ 48)
      else s
    let s := s.wr f (b2n lock)
    if lock then s.raise (R.LANEn_INT_STATUS_chk_lock n) else s)

/-- A write of inj_once (R351, R354). -/
def State.injectOnce (s : State) (n : Nat) : State :=
  if !s.laneUsed n then s
  else if s.testsMay then s.emit (.inverted n) else s.testRefused n

/-- inj_rate inverts one transmitted bit in this many (R354): 1 to 7 act as 8, 0 is off. -/
def State.injectPeriod (s : State) (n : Nat) : Option Nat :=
  let k := s.rd (R.LANEn_CTRL_inj_rate n)
  if k = 0 then none else some (2 ^ max 8 k)

/-- The bits a scan point compares (R355): dwell values below 10 act as 10. -/
def State.scanBits (s : State) (n : Nat) : Nat := 2 ^ max 10 (s.rd (R.LANEn_SCAN_CTRL_dwell n))

/-- INJECT_ONCE (13 R354): one bit of the next transmitted word is inverted. -/
def execInjectOnce (n : LaneIx) (s : State) : Res := .next (s.injectOnce n)

/-- A write of LANEn_SCAN_CTRL (R351, R355). [DEDUCED, log entry 74] -/
def State.writeScan (s : State) (n : Nat) (v : Word) : State :=
  if !s.laneUsed n then s else
  let s := ((s.sw (R.LANEn_SCAN_CTRL_dwell n) (getBits v 24 5)).sw (R.LANEn_SCAN_CTRL_volt n) (getBits v 16 8)).sw
    (R.LANEn_SCAN_CTRL_phase n) (getBits v 0 7)
  if !v.getLsbD 31 then s
  else if s.testsMay && s.laneState n == 6 && !s.is ⟨R.LANEn_SCAN_STATUS n, 0, 1⟩ then s.setReg (R.LANEn_SCAN_STATUS n) 1
  else s.testRefused n

/-- SCAN_START (13 R355). -/
def execScanStart (n : LaneIx) (value : Word) (s : State) : Res := .next (s.writeScan n (value ||| 0x80000000))

/-- SCAN_DONE (13 R355): the bits that differed, of those compared, are written and tracking resumes. -/
def execScanDone (n : LaneIx) (errors : Word) (s : State) : Res :=
  .next (if s.is ⟨R.LANEn_SCAN_STATUS n, 0, 1⟩ then
      ((s.setReg (R.LANEn_SCAN_ERR n) (BitVec.ofNat 32 (min errors.toNat (s.scanBits n)))).setReg (R.LANEn_SCAN_STATUS n) 2).raise (R.LANEn_INT_STATUS_scan_done n)
    else s)

/-! ## Receive idle (R358) -/

/-- RX_IDLE_TIMEOUT (13 R358): no signal within 10 ms of receive idle. -/
def execRxIdleTimeout (n : LaneIx) (s : State) : Res := .next (if s.is (R.LANEn_STATUS_rx_idle n) then s.laneLoss n else s)

/-- RECEIVE_IDLE_SIGNAL_RETURN (13 R358): valid data again, without states 2 to 5. -/
def execReceiveIdleSignalReturn (n : LaneIx) (s : State) : Res :=
  .next (if s.is (R.LANEn_STATUS_rx_idle n) then (s.wr (R.LANEn_STATUS_rx_idle n) 0).wr (R.LANEn_STATUS_sig_det n) 1 else s)

end Sys2Proof.Machine
end

