-- ==== Sys2Proof/Machine/Nerax.lean ====
section
/-!
DEFINITION. Nerax links (14): frames, acknowledgement and replay, barges and messages, link states, delay measurement and lead timing.
-/
namespace Sys2Proof.Machine

/-- Frames with a sequence number: audio, message, identity, boot (R363). -/
def numbered (type : Nat) : Bool := type == 1 || type == 2 || type == 4 || type == 5

/-- The replay buffer has room for `n` more frames (R364). -/
def Nerax.room (l : Nerax) (n : Nat) : Bool := decide (l.held.length + n ≤ 64)

/-- The acknowledgement that rides an outgoing frame (R363): it is no longer owed. -/
def Nerax.withAck (l : Nerax) (f : NrxFrame) : NrxFrame :=
  { f with ack := l.last, ackKind := if l.owed = 2 then 2 else 1 }

/-- Send a new numbered frame: it takes the next number and is held for replay (R363, R364). -/
def State.neraxSend (s : State) (k type : Nat) (body : BitVec 26) (payload : List Byte) (domain : Nat) (tick : Option Nat) (ends : Bool) :
    State :=
  let l := s.link k
  let f := l.withAck { type := type, seq := l.seq, ack := 0, ackKind := 0, body := body, payload := payload }
  (s.setLink k { l with seq := l.seq + 1, owed := 0, held := l.held ++ [⟨f, domain, tick, ends⟩],
                        window := ((type == 2) :: l.window).take 64 }).emit (.nerax k f)

/-- Bytes in blocks of 256, the last padded with zeros. -/
def blocks256 : List Byte → Nat → List (List Byte)
  | _, 0 => []
  | b, n + 1 => (b.take 256 ++ List.replicate (256 - b.length) 0) :: blocks256 (b.drop 256) n

/-- A word's three bytes, most significant first (R362). -/
def wordBytes (w : Sample) : List Byte := [w.extractLsb' 16 8, w.extractLsb' 8 8, w.extractLsb' 0 8]

/-- The link carries audio of tick `t` of domain `x` (R370, R373). -/
def State.audioOn (s : State) (k x t : Nat) : Bool :=
  let l := s.link k
  s.linkState k == 5 && (l.start.find? fun e => e.1 = x).any (fun e => e.2 ≤ t)
    && (l.stop.find? fun e => e.1 = x).all (fun e => t < e.2)

/-! ## Audio barges (R362, R371, R376) -/

/-- Send the words of a barge as audio frames of group `g` (R362). -/
def State.neraxSendWords (s : State) (k g domain tick : Nat) (words : List Sample) : State :=
  let bytes := words.flatMap wordBytes
  let body := fun (i : Nat) => BitVec.ofNat 26 (domain * 2 ^ 24 + tick % 256 * 2 ^ 16 + i % 32 * 2 ^ 11 + g % 2 ^ 11)
  (blocks256 bytes (ceilDiv bytes.length 256)).zipIdx.foldl (fun s e => s.neraxSend k 1 (body e.2) e.1 domain (some tick) false) s

/-- Frames that `n` words take. -/
def audioFrames (n : Nat) : Nat := ceilDiv (3 * n) 256

/-- Send the oldest barge of transmit lock number `g`, or drop it where the link carries no audio; without room it waits (R364, R371). -/
def State.neraxSendBarge (s : State) (k g lock : Nat) : State :=
  match s.lock lock with
  | none => s
  | some q =>
    match q.present with
    | [] => s
    | b :: _ =>
      if !s.audioOn k q.spec.domain b.tick then s.consume lock b.tick
      else if !(s.link k).room (audioFrames b.words.length) then s
      else (s.neraxSendWords k g q.spec.domain b.tick b.words).consume lock b.tick

/-- The capture locks of mirrored TDM groups, in order (15 R396, R397). -/
def State.mirrorLocks (s : State) : List Nat :=
  s.locksWhere fun l => match l.spec.producer with | .tdm g => s.fov.mirrored.contains g | _ => false

/-- The TDM group a capture lock belongs to. -/
def State.tdmOf (s : State) (lock : Nat) : Option Nat :=
  (s.lock lock).bind fun q => match q.spec.producer with | .tdm g => some g | _ => none

/-- The group field of a mirrored capture lock on the mirror link names its TDM group (15 R384): g for the group's first capture lock, g + 4i for
a further one. [DEDUCED, log entry 73] -/
def State.mirrorGroup (s : State) (lock : Nat) : Nat :=
  match s.tdmOf lock with
  | some g => g + 4 * ((s.mirrorLocks.filter fun l => s.tdmOf l == some g).idxOf lock)
  | none => 0

/-- The keeper sends a mirrored capture barge at its commit (15 R397). -/
def State.mirrorBarge (s : State) (lock tick : Nat) (words : List Sample) : State :=
  let k := s.rd R.FOV_CFG_mirror
  match s.lock lock with
  | some q =>
    if s.fovState = 3 ∧ s.is R.FOV_CFG_paired ∧ s.linkState k = 5 ∧ s.mirrorLocks.contains lock ∧ (s.link k).room (audioFrames words.length) then
      s.neraxSendWords k (s.mirrorGroup lock) q.spec.domain tick words
    else s
  | none => s

/-- The lock that audio frames of group `g` of link `k` fill: a receive lock, or at a standby a mirrored capture lock. [DEDUCED, log entry 73] -/
def State.groupLock (s : State) (k g : Nat) : Option Nat :=
  if s.isMirror k then
    (if s.rd R.FOV_STATUS_state = 1 ∨ s.rd R.FOV_STATUS_state = 2 then s.mirrorLocks.find? fun l => s.mirrorGroup l == g else none)
  else (s.rxLocks k)[g]?

/-- Send what waits in the transmit locks of link `k`. -/
def State.neraxPump (s : State) (k : Nat) : State :=
  (s.txLocks k).zipIdx.foldl (fun s e => s.neraxSendBarge k e.2 e.1) s

/-- NERAX_BARGE_ASSEMBLED (14 R362, R370, R376): every part of the barge is present, and it is committed to its router lock; one whose tick lies
more than one from the awaited tick is discarded with tick_mm. [DEDUCED, log entry 73] -/
def execNeraxBargeAssembled (k : LinkIx) (group : BitVec 11) (tag : BitVec 8) (s : State) : Res :=
  .next (let l := s.link k
    let (mine, rest) := l.parts.partition fun p => p.group = group.toNat && p.tag = tag.toNat
    match s.groupLock k group.toNat with
    | none => s
    | some lock =>
      match s.lock lock with
      | none => s
      | some q =>
        let words := s.bargeWords q
        let need := ceilDiv (3 * words) 256
        if need = 0 ∨ (List.range need).any (fun i => !mine.any fun p => p.part = i) then s else
        let s := s.setLink k { l with parts := rest }
        let bytes := (List.range need).flatMap fun i => ((mine.find? fun p => p.part = i).map (·.bytes)).getD []
        let x := q.spec.domain.val
        -- the awaited tick is the one in compute: one before the current
        let now := s.tick x
        let d := ((tag.toNat : Int) - (now - 1 : Nat) + 128) % 256 - 128
        if d < -1 ∨ 1 < d then s.linkFault k (R.NRXk_INT_STATUS_tick_mm k) 2 else
        -- a barge of compute tick m is one of the peer's tick m + 1 (02 R72); a mirrored capture barge keeps its tick (15 R397)
        let t := (((now - 1 : Nat) : Int) + d).toNat + (if s.mirrorLocks.contains lock then 0 else 1)
        if !s.audioOn k x now && !s.mirrorLocks.contains lock then s else
        let ws := (List.range words).map fun i =>
          (bytes.getD (3 * i) 0) ++ (bytes.getD (3 * i + 1) 0) ++ (bytes.getD (3 * i + 2) 0)
        let n := q.spec.channels.length
        let good : Conceal := ⟨t + 1, ws.drop (words - n)⟩
        let s := { s with conceal := Tab.set (fun _ => none) s.conceal lock (if l.late then some good else none),
                          lastGood := Tab.set (fun _ => none) s.lastGood lock (some good) }
        if s.hasCredit lock then s.commit lock ⟨t, ws⟩ else s.overrun (.nerax k) false)

/-! ## Acknowledgement and replay (R363 to R365) -/

/-- The frames up to `ack` have been received: they leave the replay buffer, and the run of naks and timeouts ends (R363, R365). -/
def State.neraxAcked (s : State) (k : Nat) (ack : BitVec 12) : State :=
  let l := s.link k
  match l.held.findIdx? fun h => h.frame.seq = ack with
  | some i => s.setLink k { l with held := l.held.drop (i + 1), fails := 0 }
  | none => s

/-- An audio frame whose tick is older than the tick in compute is skipped by a replay (R364). -/
def State.tooOld (s : State) (h : Held) : Bool := h.tick.any fun t => t + 1 < s.tick h.domain

/-- A replay from the frame after `seq`, or from the oldest held frame: never out of order (R364); the eighth nak or timeout in a row takes the
link down (R365). -/
def State.neraxReplay (s : State) (k : Nat) (after : Option (BitVec 12)) : State :=
  let s := match after with | some q => s.neraxAcked k q | none => s
  let l := s.link k
  if s.linkState k ≠ 5 ∧ s.linkState k ≠ 3 ∧ s.linkState k ≠ 4 then s
  else if 8 ≤ l.fails + 1 then s.linkFall k
  else
    let (skip, again) := l.held.partition fun h => s.tooOld h
    let s := s.bump (lowHalf (R.NRXk_COUNT1 k)) skip.length
    let s := (s.bump (highHalf (R.NRXk_COUNT0 k))).raise (R.NRXk_INT_STATUS_replay k)
    let s := s.setLink k { l with fails := l.fails + 1, owed := if again = [] then l.owed else 0 }
    again.foldl (fun s h => s.emit (.nerax k (l.withAck h.frame))) s

/-- NERAX_NAK_REPLAY (14 R364). -/
def execNeraxNakReplay (k : LinkIx) (seq : BitVec 12) (s : State) : Res := .next (s.neraxReplay k (some seq))

/-- NERAX_ACK_TIMEOUT (14 R364): 4 µs without an acknowledgement of the oldest held frame. -/
def execNeraxAckTimeout (k : LinkIx) (s : State) : Res :=
  .next (if (s.link k).held = [] then s else s.neraxReplay k none)

/-- NERAX_ACK_SEND (14 R363): no frame was ready, so a control frame carries the acknowledgement owed. -/
def execNeraxAckSend (k : LinkIx) (s : State) : Res :=
  .next (let l := s.link k
    if l.owed = 0 then s else
    (s.setLink k { l with owed := 0 }).emit (.nerax k (l.withAck
      { type := 6, seq := 0, ack := 0, ackKind := 0, body := 0, payload := List.replicate 256 0 })))

/-- The bytes of a message that has arrived so far; complete, it takes a receive slot (R367). -/
def State.neraxMessage (s : State) (k : Nat) (f : NrxFrame) : State :=
  let l := s.link k
  let len := f.body.toNat % 2 ^ 16
  let got := l.message ++ f.payload.take (len - l.message.length)
  if got.length < len then s.setLink k { l with message := got }
  else if 16 ≤ l.slots.length then s.setLink k { l with message := [] }
  else s.setLink k { l with message := [], slots := l.slots ++ [got] }

/-- A frame is bad or leaves a gap: it draws a nak, and what follows is discarded until the replayed frame arrives (R363). [DEDUCED, log entry 118] -/
def State.neraxNak (s : State) (k : Nat) : State :=
  if (s.link k).discarding then s else s.setLink k { s.link k with owed := 2, discarding := true }

/-- A timing frame with a bad CRC counts as a missed one: the fourth in a row on the upstream link loses the lead's timing (R363, R377). -/
def State.timingMissed (s : State) (k : Nat) : State :=
  let m := (s.link k).missed + 1
  let s := s.setLink k { s.link k with missed := m }
  if m = 4 then s.leadLoss k else s

/-- The parts that a new part leaves standing: of its group, those whose tick lies within two of its own. The others can no longer be
assembled in time (R376). -/
def keepParts (ps : List BargePart) (g tag : Nat) : List BargePart :=
  ps.filter fun p => p.group ≠ g ∨ (p.tag + 256 + 2 - tag) % 256 ≤ 4

/-- NERAX_FRAME_RECEIVE (14 R361, R363, R367): checked by CRC and sequence, acknowledged or naked; `credits` message credits come back with
it. [DEDUCED, log entry 118] -/
def execNeraxFrameReceive (k : LinkIx) (f : NrxFrame) (crcOk : Bool) (credits : Nat) (s : State) : Res :=
  .next (if s.linkState k < 2 then s else
    let l := s.link k
    if !crcOk || f.type == 0 || decide (6 < f.type) then
      let s := s.bump (lowHalf (R.NRXk_COUNT0 k))
      if f.type = 3 then s.timingMissed k else s.neraxNak k
    else
      let s := s.setLink k { l with credits := min 16 (l.credits + credits) }
      let s := if f.ackKind = 1 then s.neraxAcked k f.ack else if f.ackKind = 2 then s.neraxReplay k (some f.ack) else s
      let s := s.neraxPump k
      if !numbered f.type || s.linkState k < 2 then s
      else
        let l := s.link k
        if f.seq ≠ l.last + 1 then s.neraxNak k
        else
          let l := { l with last := f.seq, owed := 1, discarding := false }
          if f.type = 1 ∧ s.linkState k = 5 then
            let b := f.body.toNat
            let p : BargePart := ⟨b % 2 ^ 11, b / 2 ^ 16 % 256, b / 2 ^ 11 % 32, f.payload⟩
            s.setLink k { l with parts := keepParts l.parts p.group p.tag ++ [p] }
          else if f.type = 2 ∧ s.linkState k = 5 ∧ f.body.toNat / 2 ^ 24 = 0 then (s.setLink k l).neraxMessage k f
          else s.setLink k l)

/-- A message may take its frames of the next 64 numbered ones: any while no audio waits, else msg_share (R367). -/
def State.msgShare (s : State) (k frames : Nat) : Bool :=
  let waits := (s.txLocks k).any fun t => (s.lock t).any fun q => !q.present.isEmpty
  let used := (((s.link k).window.take (64 - frames)).filter id).length
  !waits || decide (used + frames ≤ min 32 (s.rd ⟨R.NRX_MSG_SHARE, 0, 6⟩))

/-- NERAX_MESSAGE_SEND (14 R367): the message at the head goes out in 1 to 4 frames, against a credit. -/
def execNeraxMessageSend (k : LinkIx) (s : State) : Res :=
  .next (let l := s.link k
    match l.head with
    | none => s
    | some m =>
      let n := ceilDiv m.length 256
      if s.linkState k ≠ 5 ∨ l.credits = 0 ∨ !l.room n ∨ !s.msgShare k n then s else
      let s := s.setLink k { l with head := none, credits := l.credits - 1 }
      (blocks256 m n).zipIdx.foldl (fun s e => s.neraxSend k 2 (BitVec.ofNat 26 (m.length % 2 ^ 16)) e.1 0 none (e.2 + 1 == n)) s)

/-! ## Link states (R368 to R371) -/

/-- The device's own identity frame leaves link `k` (R369; 15 R384), with build_id 0 while no image is loaded (R379). [DEDUCED, log entry 118] -/
def State.sendIdentity (s : State) (k : Nat) : State :=
  let id := if s.is R.CFG_STATUS_loaded then s.wide R.CFG_IMAGE_ID_LO R.CFG_IMAGE_ID_HI else 0
  s.neraxSend k 4 0 (Config.identityBytes (s.rd ⟨R.NRX_ID, 0, 3⟩) (BitVec.ofNat 64 id)
    [s.holds 6, s.holds 7, s.holds 1 || s.holds 2, s.is R.FOV_CTRL_side]) 0 none true

/-- NERAX_ALIGNED (14 R368, R369): frame alignment and deskew held for 64 frames; the identity frames are exchanged. -/
def execNeraxAligned (k : LinkIx) (s : State) : Res := .next (if s.linkState k = 2 then (s.setLinkState k 3).sendIdentity k else s)

/-- The identity is accepted (R369; 15 R384 on a mirror link; R379 for a peer that boots over the link). -/
def State.acceptsIdentity (s : State) (k : Nat) (id : Identity) : Bool :=
  let own := s.wide R.CFG_IMAGE_ID_LO R.CFG_IMAGE_ID_HI
  let build := id.buildId.toNat == own
  if k = 0 ∧ !s.is R.CFG_STATUS_loaded ∧ s.rd ⟨R.GLB_STRAP, 0, 2⟩ = 2 then true
  else if s.isMirror k then build && id.inPair && id.side != s.is R.FOV_CTRL_side
  else
    id.devid.val == s.rd (R.NRXk_CFG_peer k) && id.devid.val != s.rd ⟨R.NRX_ID, 0, 3⟩
      && (build || (s.holds 6 && id.buildId == 0)) && !(id.lead && s.holds 6)

/-- An up link keeps the cycle since which its peer reports another build_id (21 R537); a lead does not judge a peer that boots over the link
(R379). -/
def State.judgeBuild (s : State) (k : Nat) : State :=
  let peer := s.wide (R.NRXk_PEER_ID_LO k) (R.NRXk_PEER_ID_HI k)
  let other := s.linkState k == 5 && peer != s.wide R.CFG_IMAGE_ID_LO R.CFG_IMAGE_ID_HI && !(peer == 0 && s.holds 6)
  s.setLink k { s.link k with differs := if other then some ((s.link k).differs.getD s.now) else none }

/-- IDENTITY_FRAME (14 R369; 21 R537): it is judged while the link identifies its peer; an up link reports the peer's identity. [DEDUCED, log
entry 52] -/
def execIdentityFrame (k : LinkIx) (id : Identity) (s : State) : Res :=
  .next (if s.linkState k ≠ 3 ∧ s.linkState k ≠ 5 then s else
    let s := s.setWide (R.NRXk_PEER_ID_LO k) (R.NRXk_PEER_ID_HI k) id.buildId.toNat
    let s := ((s.wr (R.NRXk_STATUS_peer_devid k) id.devid).wr (R.NRXk_STATUS_peer_lead k) (b2n id.lead)).wr (R.NRXk_STATUS_peer_member k)
      (b2n id.member)
    if s.linkState k = 5 then s.judgeBuild k
    else if s.acceptsIdentity k id then (s.setLink k { s.link k with delays := [] }).setLinkState k 4
    else (s.setLinkState k 6).linkFault k (R.NRXk_INT_STATUS_id_refused k) 2)

/-- Audio runs in each domain from its first tick boundary at least 1 µs from now (R370). -/
def State.audioStarts (s : State) (k : Nat) : State := s.setLink k { s.link k with start := [], stop := [], upSince := s.now }

/-- A tick boundary of domain `x`: audio starts on the links that have been up for 1 µs (R370). -/
def State.audioBoundary (s : State) (x : Nat) : State :=
  (List.range 4).foldl (fun s k =>
    let l := s.link k
    if s.linkState k = 5 ∧ (l.start.any fun e => e.1 = x) = false ∧ l.upSince + 250 ≤ s.now then s.setLink k { l with start := (x, s.tick x) :: l.start }
    else s) s

/-- NERAX_LINK_UP (14 R368, R370): 16 delay measurements are complete. -/
def execNeraxLinkUp (k : LinkIx) (s : State) : Res :=
  .next (if s.linkState k = 4 ∧ 16 ≤ (s.link k).delays.length then
      let s := (((s.setLinkState k 5).raise (R.NRXk_INT_STATUS_link_up k)).audioStarts k).judgeBuild k
      ((s.endCause (86 + k) 1).endCause (86 + k) 4)
    else s)

/-- NERAX_STATE_TIMEOUT (14 R368): states 2 to 4 that exceed their limit. -/
def execNeraxStateTimeout (k : LinkIx) (s : State) : Res :=
  .next (if 2 ≤ s.linkState k ∧ s.linkState k ≤ 4 then
      (((s.setLinkState k 1).bump (lowHalf (R.NRXk_COUNT2 k))).raise (R.NRXk_INT_STATUS_bringup_fail k)).lanesReady k
    else s)

/-- NERAX_LINK_DOWN (14 R365, R371). -/
def execNeraxLinkDown (k : LinkIx) (s : State) : Res := .next (s.linkFall k)

/-! ## Delay measurement and lead timing (R372 to R377) -/

/-- One delay measurement in ps, from timestamps in 1/16 ns (R372). [DESIGN CHOICE, log entry 77] -/
def State.delayOf (s : State) (k : Nat) (t : Stamps) : Int :=
  ((t.t4 - t.t1) - (t.t3 - t.t2)) * 1000 / 32 + (s.reg (R.NRXk_ASYM k)).toInt

/-- A measurement is judged against the link's bound (R373). [DEDUCED, log entry 72] -/
def State.judgeDelay (s : State) (k : Nat) (d : Int) : State :=
  let l := s.link k
  let ds := (d :: l.delays).take 16
  let s := s.setReg (R.NRXk_DELAY k) (BitVec.ofInt 32 (ds.sum / ds.length))
  let bound : Int := (s.reg (R.NRXk_DELAY_MAX k)).toNat
  if s.linkState k < 5 then s.setLink k { l with delays := ds }
  else if bound < d then
    let s := s.setLink k { l with delays := ds, within := 0 }
    if l.late then s else
    let stops := [0, 1, 2].map fun x => (x, if (s.dom x).b = 0 then 0 else s.tick x + 1)
    ((s.setLink k { s.link k with late := true, stop := stops }).concealLink k).linkFault k (R.NRXk_INT_STATUS_delay_over k) 2
  else if l.late ∧ 16 ≤ l.within + 1 then
    ((s.setLink k { l with delays := ds, within := 0, late := false }).audioStarts k).endCause (86 + k) 5
  else s.setLink k { l with delays := ds, within := l.within + 1 }

/-- Lead timing arrives where R374 ignores it. -/
def State.timingConflict (s : State) (k : Nat) : State :=
  let f := R.NRXk_INT_STATUS_timing_conflict k
  if s.is f then s else s.linkFault k f 1

/-- The sample number a timing frame reports for the present instant: at the departure, plus its phase and the link delay (R375). -/
def State.reportedSample (s : State) (k : Nat) (d : LeadDomain) : Nat :=
  let gone : Nat := d.phase.toNat * 10 ^ 12 + (s.reg (R.NRXk_DELAY k)).toNat * s.fs d.domain * 2 ^ 16
  d.sample + gone / (10 ^ 12 * 2 ^ 16)

/-- A sample number on the mirror link that differs from the standby's own clears sync (15 R398). -/
def State.checkSample (s : State) (k : Nat) (d : LeadDomain) : State :=
  if s.fovState = 2 ∧ s.reportedSample k d ≠ (s.dom d.domain).sample.toNat then s.loseSync else s

/-- The lead's timing of one domain (R375, R377). -/
def State.takeLead (s : State) (k : Nat) (d : LeadDomain) : State :=
  let x := d.domain.val
  let f : FieldAt := ⟨R.NRXk_STATUS k, 24 + 2 * x, 2⟩
  let s := if s.rd f = d.state then s else (s.wr f d.state).raise (R.NRXk_INT_STATUS_lead_state_chg k)
  if s.rd (R.CLK_DOMx_CFG_rate x) ≠ d.rate ∨ (s.dom x).b ≠ d.b then
    (s.setDpll x { s.dpll x with leadAbsent := true }).raise (R.NRXk_INT_STATUS_rate_mm k)
  else
    s.setDpll x { s.dpll x with leadAbsent := false, leadOffset := (s.dom x).sample.toNat - (s.reportedSample k d : Int) }

/-- TIMING_FRAME_RECEIVE (14 R372 to R375, R377). -/
def execTimingFrameReceive (k : LinkIx) (stamps : Stamps) (lead : Option LeadTiming) (lease : Option LeaseRecord) (s : State) : Res :=
  .next (if s.linkState k < 4 ∨ s.linkState k = 6 then s else
    let s := s.setLink k { s.link k with missed := 0 }
    let s := s.judgeDelay k (s.delayOf k stamps)
    if s.isMirror k then
      let s := match lease with | some r => s.takeLeaseRecord r | none => s
      match lead with | some t => t.domains.foldl (fun s d => s.checkSample k d) s | none => s
    else match lead with
    | none => s
    | some t =>
      if !s.isUpstream k || decide (2 < t.hop.val) || s.holds 6 then s.timingConflict k
      else
        let s := (s.wr (R.NRXk_STATUS_timing_valid k) 1).wr (R.NRXk_STATUS_hop k) t.hop
        ((t.domains.foldl (fun s d => s.takeLead k d) s).reselectAll).settleClocks)

/-- LEAD_TIMING_LOSS (14 R377): four consecutive timing frames missed. -/
def execLeadTimingLoss (k : LinkIx) (s : State) : Res := .next (s.leadLoss k)

/-- The lead timing a device sends (R374, R375): a lead with hop count 0, a member one hop on from its upstream link; on a mirror link the
device's own sample numbers (15 R384); none otherwise. The phase at the departure is a free value. [DESIGN CHOICE, log entry 119] -/
def State.ownLead (s : State) (k free : Nat) : Option LeadTiming :=
  let domains := ([0, 1, 2] : List DomIx).filterMap fun (d : DomIx) =>
    let x : Nat := d.val
    if s.started x then
      let st := s.domState (s.leader x 3)
      let code : Fin 4 := if st = 4 then 1 else if st = 5 then 2 else if st = 3 then 0 else 3
      some (⟨d, s.rd (R.CLK_DOMx_CFG_rate x), (s.dom x).b, (s.dom x).sample.toNat, BitVec.ofNat 16 (Config.freeNat free / 2 ^ (16 * x)), code⟩ : LeadDomain)
    else none
  if s.isMirror k || s.holds 6 then some ⟨0, domains⟩
  else match (List.range 4).find? fun u => s.isUpstream u && s.is (R.NRXk_STATUS_timing_valid u) with
    | some u => if u = k then none else some ⟨Fin.ofNat 8 (s.rd (R.NRXk_STATUS_hop u) + 1), domains⟩
    | none => none

/-- TIMING_FRAME_SEND (14 R372, R374). -/
def execTimingFrameSend (k : LinkIx) (s : State) : Res :=
  .next (if s.linkState k = 4 ∨ s.linkState k = 5 then
      let (free, s) := s.draw
      s.emit (.timing k (s.ownLead k free))
    else s)

end Sys2Proof.Machine
end

