-- ==== Sys2Proof/Machine/Subst.lean ====
section
/-!
DEFINITION. The reserve engines: substitution units ENG_SUB0 and ENG_SUB1 (04 R129 to R134, R562).
-/
namespace Sys2Proof.Machine

/-- The content of the image's section (03 R78) of a type and instance. -/
def State.sectionContent (s : State) (kind inst : Nat) : Option Content :=
  (s.cfg.contents.find? fun c => c.kind = kind ∧ c.inst = inst).bind (·.content)

/-- Write a word of the image into an engine's memory (03 R78, ENGDATA): both parameter pages take it. -/
def State.imageWord (s : State) (n o : Nat) (v : Word) : State :=
  let i := (o - 0x20000) / 4
  if o < 0x20000 then s.windowPut n o v
  else if o < 0x30000 ∧ (s.eng n).paramOn = true ∧ 0x3F00 ≤ i then
    s.setEng n (((s.eng n).poke 0 .x i (v.setWidth 24)).poke 1 .x i (v.setWidth 24))
  else s.windowPut n o v

/-- Load the ENGDATA contents of engine `src` into engine `n` (04 R129, warm); words it does not name are zero. [DESIGN CHOICE, log entry 101] -/
def State.loadEngData (s : State) (src n : Nat) : State :=
  match s.sectionContent 6 src with
  | none => s
  | some c => c.words.foldl (fun s w =>
      if engineWindow src ≤ w.1 ∧ w.1 < engineWindow (src + 1) then s.imageWord n (w.1 - engineWindow src) w.2 else s)
      (s.setEng n { s.eng n with x := [], y := [], param := [] })

/-- The current program page of one engine copied to the current page of another. -/
def State.copyPage (s : State) (src n : Nat) : State :=
  let p := s.rd (R.ENGn_PAGE_cur src)
  let q := s.rd (R.ENGn_PAGE_cur n)
  let words := (s.eng src).prog.filter fun e => e.1 / 8192 = p
  let other := (s.eng n).prog.filter fun e => e.1 / 8192 ≠ q
  s.setEng n { s.eng n with prog := words.foldl (fun t e => Tab.set (fun _ => 0) t (8192 * q + e.1 % 8192) e.2) other }

/-- X, Y, parameter pages and register file of engine `src` copied to engine `n` (04 R130, state 3, copy). -/
def State.copyState (s : State) (src n : Nat) : State :=
  let a := s.eng src
  let flip := s.paramPage src ≠ s.paramPage n
  let param := if flip then a.param.foldl (fun t e => Tab.set (fun _ => 0) t ((e.1 + 256) % 512) e.2) [] else a.param
  s.setEng n { s.eng n with x := a.x, y := a.y, param := param, paramOn := a.paramOn, d := a.d, a := a.a, p := a.p, m := a.m,
                            l := a.l, lc := a.lc, sr := a.sr }

/-! ## Feeds -/

/-- The number of the duplicate of lock `l` for unit `u` (04 R130, state 4). -/
def feedLock (u l : Nat) : Nat := l + 2 ^ 20 * (u + 1)

/-- Duplicate the inlet feeds of the working engine for the prepared one. -/
def State.duplicateFeeds (s : State) (u : Nat) : State :=
  let locks := (s.eng (s.working u)).inletLocks
  let s := locks.foldl (fun s l => match s.lock l with
    | some k => s.setLock (feedLock u l) { k with spec := { k.spec with consumer := .engine (s.prepared u) } }
    | none => s) s
  s.setSub u { s.sub u with feeds := locks.map fun l => (l, feedLock u l) }

/-- Remove a lock. -/
def State.dropLock (s : State) (l : Nat) : State := { s with locks := Tab.set (fun _ => none) s.locks l none }

/-- Remove the duplicated feeds. -/
def State.removeFeeds (s : State) (u : Nat) : State :=
  let s := (s.sub u).feeds.foldl (fun s e => s.dropLock e.2) s
  s.setSub u { s.sub u with feeds := [] }

/-- The prepared engine takes over the original inlet locks, with what its copies hold (04 R130, state 6). -/
def State.adoptFeeds (s : State) (u : Nat) : State :=
  let s := (s.sub u).feeds.foldl (fun s e => match s.lock e.1, s.lock e.2 with
    | some k, some c => s.setLock e.1 { k with present := c.present, missed := c.missed, credit := min k.spec.depth c.credit,
                                               spec := { k.spec with consumer := .engine (s.prepared u) } }
    | _, _ => s) s
  s.removeFeeds u

/-! ## Start to ready -/

/-- A start is refused (04 R130). -/
def State.substRefuses (s : State) (u target method : Nat) : Bool :=
  s.subState u != 0 || decide (31 < target) || s.engDomain target == 3 || (method != 1 && method != 2)
    || (s.subState (1 - u) != 0 && s.subTarget (1 - u) == target)

/-- Start a substitution, or refuse it (04 R130). -/
def State.substStart (s : State) (u target method : Nat) : State :=
  if s.substRefuses u target method then s.wr (subF u R.ENG_SUB0_STATUS_refused) 1
  else
    let s := ((s.wr (subF u R.ENG_SUB0_STATUS_refused) 0).wr (subF u R.ENG_SUB0_STATUS_target) target).setSubState u 1
    let s := (s.wr (R.ENGn_STATUS_subst target) 1).wr (R.ENGn_STATUS_subst (32 + u)) 4
    (s.setSub u { method := method, domain := s.engDomain target }).weirRequest u (s.weirCost u)

/-- SUBSTITUTION_START (04 R130): with the settings of ENG_SUBx_CTRL. -/
def execSubstitutionStart (u : Fin 2) (s : State) : Res :=
  .next (s.substStart u (s.rd (subF u R.ENG_SUB0_CTRL_target)) (s.rd (subF u R.ENG_SUB0_CTRL_method)))

/-- Leave is granted (04 R130, state 2): the reserve's clock starts at the target's frequency. -/
def State.substLeave (s : State) (u : Nat) : State :=
  if s.subState u = 1 then
    ((s.setReg (R.ENGn_CLK (32 + u)) (s.reg (R.ENGn_CLK (s.subTarget u)))).setEngState (32 + u) 1).setSubState u 2
  else s

/-- The relock of the prepared engine ends (04 R127, R130). -/
def State.substRelocked (s : State) (n : Nat) : State := (s.raise (R.ENGn_INT_STATUS_relocked n)).setEngState n 2

/-- SUBSTITUTION_RELOCK_END (04 R130): state 3, or stage 3 of state 7. -/
def execSubstitutionRelockEnd (u : Fin 2) (s : State) : Res :=
  .next (if s.subState u = 2 then (s.substRelocked (32 + u)).setSubState u 3
    else if s.subState u = 7 ∧ (s.sub u).stage = 2 then
      let s := (s.raise (R.ENGn_INT_STATUS_relocked (s.subTarget u))).setEngState (s.subTarget u) 4
      s.setSub u { s.sub u with stage := 3 }
    else s)

/-- The prepared engine takes the schedule of the working one (04, reserve engines): bindings, deadline, domain and phase, from the tick
after the one the working engine runs. -/
def State.adoptSchedule (s : State) (u : Nat) : State :=
  let w := s.working u
  let n := s.prepared u
  let e := s.eng w
  let tick := if s.engState w = 3 then e.tick + 1 else e.tick
  let s := s.setEng n { s.eng n with inlets := e.inlets.map fun i => i.map (feedLock u), outlets := e.outlets, tick := tick,
                                     lateNext := false, fails := 0 }
  let s := (s.setReg (R.ENGn_DEADLINE n) (s.reg (R.ENGn_DEADLINE w))).setReg (R.ENGn_SEGLEN n) (s.reg (R.ENGn_SEGLEN w))
  ((s.wr (R.ENGn_STATUS_domain n) (s.engDomain w)).wr (R.ENGn_STATUS_phase n) (s.rd (R.ENGn_STATUS_phase w))).setEngState n 2

/-- Both engines run from this boundary (04 R130, state 4): feeds duplicated, count and mismatch cleared. -/
def State.bothStart (s : State) (u : Nat) : State :=
  let s := (s.duplicateFeeds u).adoptSchedule u
  let s := (s.wr (subF u R.ENG_SUB0_STATUS_count) 0).wr (subF u R.ENG_SUB0_STATUS_mismatch) 0
  s.setSub u { s.sub u with workEnds := [], prepEnds := [] }

/-- SUBSTITUTION_COPY_END (04 R129, R130): the copy or warm load is complete, and the next tick boundary is reached. -/
def execSubstitutionCopyEnd (u : Fin 2) (s : State) : Res :=
  .next (let w := s.working u
    let n := s.prepared u
    if !s.atBoundary (s.engDomain w) then s
    else if s.subState u = 3 then
      let s := s.copyPage w n
      let s := if (s.sub u).method = 1 then s.copyState w n
        else (s.setEng n { s.eng n with paramOn := (s.eng w).paramOn }).loadEngData w n
      (s.bothStart u).setSubState u 4
    else if s.subState u = 7 ∧ (s.sub u).stage = 3 then
      let s := (s.copyPage w n).copyState w n
      let s := s.bothStart u
      s.setSub u { s.sub u with stage := 4 }
    else s)

/-- The count ENG_SUBx_WARM asks for; 0 acts as 1 (04 R135). -/
def State.warmCount (s : State) (u : Nat) : Nat := max 1 (s.rd ⟨R.ENG_SUB0_WARM + 16 * u, 0, 16⟩)

/-- SUBSTITUTION_READY (04 R130, R131, R562): with auto_cut the cut falls at the next boundary. -/
def execSubstitutionReady (u : Fin 2) (s : State) : Res :=
  .next (if s.rd (subF u R.ENG_SUB0_STATUS_count) < s.warmCount u then s
    else
      let cut := fun (s : State) => if s.is (subF u R.ENG_SUB0_CTRL_auto_cut)
        then s.setSub u { s.sub u with cutAt := some (s.tick (s.engDomain (s.working u)) + 1) } else s
      if s.subState u = 4 then cut ((s.setSubState u 5).subEvent u 0)
      else if s.subState u = 7 ∧ (s.sub u).stage = 4 then cut ((s.setSub u { s.sub u with stage := 5 }).subEvent u 0)
      else s)

/-! ## Cut, release, abort -/

/-- SUBSTITUTION_CUT_COMMAND (04 R131): acts in state 5, in state 4 as a forced cut, and likewise in state 7 for the cut back. -/
def execSubstitutionCutCommand (u : Fin 2) (s : State) : Res :=
  .next (if s.bothRun u then s.setSub u { s.sub u with cutAt := some (s.tick (s.engDomain (s.working u)) + 1) } else s)

/-- The requested cut may be made at the current boundary. -/
def State.cutDue (s : State) (u : Nat) : Bool :=
  let x := s.engDomain (s.working u)
  s.bothRun u && s.atBoundary x && (match (s.sub u).cutAt with | some t => decide (t ≤ s.tick x) | none => false)

/-- The router makes the change as a cut, or with its one-tick crossfade for the warm method or with mismatch set, in whichever state the cut
falls (04 R131): from the source of the held engine, whose barge of that tick is all zero (R124; R130, state 6), to that of the new one.
[DEDUCED, log entry 102] -/
def State.cutFade (s : State) (u : Nat) : State :=
  if s.subMethod u = 2 ∨ s.is (subF u R.ENG_SUB0_STATUS_mismatch) then
    let e := s.eng (s.prepared u)
    let marks := s.router.hops.flatMap fun h => e.outlets.map fun l => (h.lock, l, e.tick - 1)
    s.setRouter { s.router with absent := s.router.absent ++ marks }
  else s

/-- The prepared engine's outlets replace the working one's at a tick boundary, and the working engine is held and then stopped. -/
def State.makeCut (s : State) (u : Nat) : State :=
  let w := s.working u
  let n := s.prepared u
  let x := s.engDomain w
  let s := s.cutFade u
  let inlets := (s.eng w).inlets
  let s := s.adoptFeeds u
  let s := s.setEng n { s.eng n with inlets := inlets }
  let s := (s.setEng w { s.eng w with inlets := [], outlets := [] }).setEngState w 0
  (s.setReg (R.ENG_SUB0_CUT_TICK + 16 * u) (BitVec.ofNat 32 (s.tick x))).subEvent u 1

/-- SUBSTITUTION_CUT (04 R130, R131): state 6 at the cut boundary. -/
def execSubstitutionCut (u : Fin 2) (s : State) : Res :=
  .next (if s.cutDue u ∧ s.subState u ≠ 7 then
      let s := (s.makeCut u).setSubState u 6
      let s := (s.wr (R.ENGn_STATUS_subst (s.subTarget u)) 2).wr (R.ENGn_STATUS_subst (32 + u)) 3
      s.setSub u { s.sub u with cutAt := none, workEnds := [], prepEnds := [] }
    else s)

/-- SUBSTITUTION_RELEASE (04 R130): state 7 from state 6; the target's clock relocks at the reserve's frequency. -/
def execSubstitutionRelease (u : Fin 2) (s : State) : Res :=
  .next (if s.subState u = 6 then
      let t := s.subTarget u
      let s := (s.setReg (R.ENGn_CLK t) (s.reg (R.ENGn_CLK (32 + u)))).setEngState t 1
      (s.setSub u { s.sub u with stage := 2, cutAt := none }).setSubState u 7
    else s)

/-- The unit is idle: the reserve is stopped, without domain, and its leave is returned (04 R130, R132). -/
def State.substIdle (s : State) (u : Nat) : State :=
  let t := s.subTarget u
  let s := (s.wr (R.ENGn_STATUS_subst t) 0).wr (R.ENGn_STATUS_subst (32 + u)) 0
  let s := ((s.wr (R.ENGn_STATUS_domain (32 + u)) 3).wr (R.ENGn_STATUS_phase (32 + u)) 3).setEngState (32 + u) 0
  let s := s.setEng (32 + u) { s.eng (32 + u) with inlets := [], outlets := [], lateNext := false }
  ((s.setSub u {}).setSubState u 0).weirDrop u

/-- SUBSTITUTION_CUT_BACK (04 R130, R131): the target's outlets return at the cut-back boundary. -/
def execSubstitutionCutBack (u : Fin 2) (s : State) : Res :=
  .next (if s.cutDue u ∧ s.subState u = 7 then (s.makeCut u).substIdle u else s)

/-- An abort, or a take that changes the target, in states 1 to 5 takes effect at the next tick boundary of the domain in which the
substitution started (04 R132). -/
def State.substAbort (s : State) (u : Nat) : State :=
  if 1 ≤ s.subState u ∧ s.subState u ≤ 5 then s.setSub u { s.sub u with abortAt := some (s.tick (s.sub u).domain + 1) } else s

/-- SUBSTITUTION_ABORT (04 R132): the unit becomes idle at the next tick boundary of the target's domain. -/
def execSubstitutionAbort (u : Fin 2) (s : State) : Res := .next (s.substAbort u)

/-- The aborts of domain `x` that its boundary brings (04 R132). -/
def State.abortsAt (s : State) (x : Nat) : State :=
  (List.range 2).foldl (fun s u =>
    match (s.sub u).abortAt with
    | some t =>
      if (s.sub u).domain = x ∧ t ≤ s.tick x ∧ 1 ≤ s.subState u ∧ s.subState u ≤ 5 then
        ((s.removeFeeds u).substIdle u).subEvent u 2
      else s
    | none => s) s

/-- SUBSTITUTION_AUTO_FAIL (04 R133): a target with fail_n consecutive failed ticks starts a warm substitution; fail_n of 0 acts as 1. -/
def execSubstitutionAutoFail (u : Fin 2) (target : Fin 32) (s : State) : Res :=
  .next (if s.is (subF u R.ENG_SUB0_CTRL_auto_fail) && s.subState u == 0 && s.rd (subF u R.ENG_SUB0_CTRL_target) == target.val
      && decide (max 1 (s.rd (subF u R.ENG_SUB0_CTRL_fail_n)) ≤ (s.eng target).fails) then
      s.substStart u target 2
    else s)

end Sys2Proof.Machine
end

