-- ==== Sys2Proof/Machine/Access.lean ====
section
/-!
DEFINITION. A read and a write of one control register by its address, with every side effect its chapter gives it (00 R10 to R18; the
register tables of every chapter). A block's part of the space has a function of its own; what is not special there follows the
access types of R13.
-/
namespace Sys2Proof.Machine

/-- Run a row's meaning inside a larger one. -/
def State.via (s : State) (f : State → Res) : State := match f s with | .next t => t | _ => s

/-! ## Access types (00 R13 to R17) -/

/-- Registers of instances the image does not place, and reserved ones, read as 0 and ignore writes (08 R245; 09 R248, R267; 19 R500). -/
def State.hidden (s : State) (a : Nat) : Bool :=
  let o := a % 0x10000
  match a / 0x10000 with
  | 3 => decide (0x1000 ≤ o) && decide (o < 0x1400) && reservedSource ((o - 0x1000) / 4)
  | 16 =>
    if 0x100 ≤ o ∧ o < 0x200 then !s.tdmAssigned ((o - 0x100) / 0x40)
    else if 0x400 ≤ o ∧ o < 0x500 then !s.tdmAssigned ((o - 0x400) / 0x40) else false
  | 17 =>
    if 0x100 ≤ o ∧ o < 0x200 then !s.ampAssigned ((o - 0x100) / 0x40)
    else if 0x400 ≤ o ∧ o < 0xC00 then
      let c := (o - 0x400) / 0x40
      !s.ampAssigned (c / 8) || (s.ampTied c && c % 2 == 1 && (o - 0x400) % 0x40 != 4)
    else false
  | _ => false

/-- The RW, SH and W1C bits of a write. -/
def State.plainWrite (s : State) (a : Nat) (d : RegDesc) (v : Word) : State :=
  let s := if d.rw = 0 then s else (s.soften a (BitVec.ofNat 32 d.rw) v).settle a (BitVec.ofNat 32 d.rw)
  let s := if d.sh = 0 then s else (s.soften a (BitVec.ofNat 32 d.sh) v).setShWaits a true
  if d.w1c = 0 then s else s.setReg a (s.reg a &&& ~~~(v &&& BitVec.ofNat 32 d.w1c))

/-- A lower word of a wide value written earlier takes effect (00 R17). -/
def State.lowTakes (s : State) (a : Nat) : State :=
  match s.heldLow a, descAt a with
  | some w, some d => (s.plainWrite a d w).setHeldLow a none
  | _, _ => s

/-- A write by the access types alone; a wide value takes effect with its highest word (00 R13, R17). -/
def State.commonWrite (s : State) (a : Nat) (v : Word) : State :=
  match descAt a with
  | none => s
  | some d =>
    if d.wlen ≤ 1 ∨ d.rw = 0 then s.plainWrite a d v
    else if d.wpos + 1 < d.wlen then s.setHeldLow a (some (v &&& BitVec.ofNat 32 d.rw))
    else ((List.range d.wpos).foldl (fun s i => s.lowTakes (a - 4 * (d.wpos - i))) s).plainWrite a d v

/-! ## Values that are formed when they are read -/

/-- Bits `f 0`, `f 1`, … of a word. -/
def bitsOf (n : Nat) (f : Nat → Bool) : Nat := (List.range n).foldl (fun v i => v + b2n (f i) * 2 ^ i) 0

/-- The block event source whose enabled events an INT_SUM bit shows (18 R463). -/
def State.sourcePends (s : State) (n : Nat) : Bool := match sourceRegs n with | some (a, e) => s.pendingEvent a e | none => false

/-- HOLDOVER and SAFE as they are requested, by hardware or software (03 R102, R105); a HOLDOVER whose overlay is absent is never held (R90). -/
def State.residentWanted (s : State) : BitVec 12 :=
  ((s.reg R.CFG_MODE_HWREQ ||| s.reg R.CFG_MODE_REQ) &&& (if s.modeAbsent 8 then 0x800 else 0x900)).setWidth 12

/-- CFG_STATUS (03 R106). -/
def State.viewCfgStatus (s : State) : Word :=
  let pend := decide (stagedPart s.cfg.pendingSet ≠ stagedPart s.held) || s.residentWanted != (s.held &&& 0x900)
  putBits (putBits (s.reg R.CFG_STATUS) 8 4 ((List.range 12).filter s.holds).length) 7 1 (b2n pend)

/-- FLT_STATUS (19 R500): the levels with an active cause and with an unacknowledged record. -/
def State.viewFltStatus (s : State) : Word :=
  let v := putBits (s.reg R.FLT_STATUS) 24 5 (bitsOf 5 fun l => s.flt.records.any fun r => r.level == l && r.cause)
  putBits v 0 5 (bitsOf 5 fun l => s.flt.records.any fun r => r.level == l && !r.acked)

/-- FOV_TIMER (15 R402): the time since the last renewal (standby) or echo (keeper), in 10 µs. -/
def State.viewFovTimer (s : State) : Nat :=
  let since := if s.fovState = 3 then s.fov.echoAt else s.fov.seenAt.getD 0
  if s.fovState = 0 then 0 else min 0xFFFF ((s.now - since) / 2500)

/-- ENGn_GATE (04 R135): inlets present and outlets with credit for the awaited tick; an inlet bound to the tick source is always present. [DEDUCED, log entry 25] -/
def State.viewGate (s : State) (n : Nat) : Nat :=
  let e := s.eng n
  bitsOf 16 (fun i => match e.inlets[i]? with
      | some (some l) => (s.awaits l e.tick).isSome
      | some none => true
      | none => false)
    + bitsOf 16 (fun i => match e.outlets[i]? with | some l => s.hasCredit l | none => false) * 2 ^ 16

/-- A layer holds 32 reads or 32 writes that wait or run (17 R421). -/
def State.layerFull (s : State) (m : Nat) : Bool :=
  let mine := s.xbar.waiting.filter fun e => e.1.master.val = m
  decide (32 ≤ (mine.filter (·.1.write)).length) || decide (32 ≤ (mine.filter fun e => !e.1.write).length)

/-- The peripheral request of a channel (17 R438; 07 R213). -/
def State.dmaRequested (s : State) (c : Nat) : Bool :=
  let n := s.rd (R.DMA_CHc_CFG_binding c)
  (s.dmaMode c == 1) && decide (n < 80) && (s.cic n).request

/-- DMC_DLINE_CFG of the selected line (16 R419). -/
def State.viewDline (s : State) : Nat :=
  match s.dline (s.rd ⟨R.DMC_DLINE_SEL, 0, 11⟩) with
  | some x => 2 ^ 31 + x.spec.domain.val * 2 ^ 28 + x.spec.r % 32 * 2 ^ 22 + x.spec.d % 2 ^ 22
  | none => 0

/-- The slots the delay lines use: 1, 2 or 4 by the rate class (16 R412). -/
def State.slotsUsed (s : State) : Nat :=
  ((s.dmc.lines.filterMap (·.2)).map fun x => match s.rd (R.CLK_DOMx_CFG_rate x.spec.domain) with | 1 | 2 => 1 | 3 | 4 => 2 | _ => 4).sum

/-- The channel FLC_MA_SEL selects, and its configuration as an SH register reads (07 R217, R221). -/
def State.maSel (s : State) : Nat := s.rd ⟨R.FLC_MA_SEL, 0, 10⟩
def State.viewMaCfg (s : State) : Word := s.layered (maCfg s.maSel) &&& 0x3FFFF

/-- Word 1 + `i` of the oldest record of the log, live (00 R17; 19 R499). -/
def State.liveLog (s : State) (i : Nat) : Word :=
  match s.faultLog with
  | r :: _ => if i = 0 then r.time1 else if i = 1 then r.time2 else r.time3
  | [] => 0

/-- Word 1 + `i` of the head entry of a transmit timestamp queue, live (00 R17; 11 R315). -/
def State.liveTxq (s : State) (m i : Nat) : Word :=
  match s.txq m with
  | e :: _ => if i = 0 then e.w1 else if i = 1 then e.w2 else e.w3
  | [] => 0

/-- The value a register shows: the stored one, or one formed from the state. [DEDUCED, log entry 24] -/
def State.view (s : State) (a : Nat) : Word :=
  let o := a % 0x10000
  match a / 0x10000 with
  | 1 => if o = 0 then s.viewCfgStatus else if a = R.CFG_OWNED_MASK then s.owned (s.reg R.CFG_OWNED_ADDR).toNat else s.reg a
  | 2 =>
    if R.EVT_LEVEL0 ≤ a ∧ a ≤ R.EVT_LEVEL7 then BitVec.ofNat 32 (bitsOf 32 fun i => s.level ((a - R.EVT_LEVEL0) * 8 + i))
    else if a = R.EVT_VREQ_LO then BitVec.ofNat 32 (bitsOf 32 s.request)
    else if a = R.EVT_VREQ_HI then BitVec.ofNat 32 (bitsOf 32 fun i => s.request (32 + i))
    else s.reg a
  | 3 =>
    if a = R.FLT_STATUS then s.viewFltStatus
    else if R.FLT_LOG1 ≤ a ∧ a ≤ R.FLT_LOG3 then s.liveLog ((a - R.FLT_LOG1) / 4)
    else if a = R.FLT_LOG_STATUS then putBits (s.reg a) 0 7 s.faultLog.length
    else s.reg a
  | 4 =>
    if a = R.WEIR_STATUS then putBits (putBits (s.reg a) 16 12 s.freeUnits) 0 12 s.granted
    else if a = R.WEIR_REQ then BitVec.ofNat 32 (bitsOf 22 fun r => (s.requester r).pending)
    else if a = R.WEIR_GRANT then
      BitVec.ofNat 32 (bitsOf 22 fun r => decide (0 < (s.requester r).grant) || (r == 3 && decide (0 < (s.weir.modeLeave.map (·.2)).sum)))
    else s.reg a
  | 5 =>
    if a = R.CLK_INT_SUM then BitVec.ofNat 32 (bitsOf 3 (fun x => s.sourcePends (5 + x)) + b2n (s.sourcePends 4) * 256)
    else if 0x400 ≤ o ∧ o < 0x4C0 ∧ o % 0x40 = 0x1C then BitVec.ofInt 32 (s.mediaFreq ((o - 0x400) / 0x40))
    else if 0x400 ≤ o ∧ o < 0x4C0 ∧ o % 0x40 = 0x24 then s.divergeWord ((o - 0x400) / 0x40)
    else s.reg a
  | 6 =>
    if a = R.TIME_INT_SUM then
      BitVec.ofNat 32 (bitsOf 4 (fun n => s.sourcePends (8 + n)) + bitsOf 2 (fun m => s.sourcePends (12 + m)) * 256)
    else if 0x400 ≤ o ∧ o < 0x480 ∧ 0x1C ≤ o % 0x40 ∧ o % 0x40 ≤ 0x24 then s.liveTxq ((o - 0x400) / 0x40) ((o % 0x40 - 0x1C) / 4)
    else s.reg a
  | 10 => if a = R.LANE_INT_SUM then BitVec.ofNat 32 (bitsOf 12 fun n => s.sourcePends (74 + n)) else s.reg a
  | 11 => if a = R.NRX_INT_SUM then BitVec.ofNat 32 (bitsOf 4 fun k => s.sourcePends (86 + k)) else s.reg a
  | 12 => if a = R.FOV_TIMER then BitVec.ofNat 32 s.viewFovTimer else s.reg a
  | 13 =>
    if a = R.DMC_DLINE_CFG then BitVec.ofNat 32 s.viewDline
    else if a = R.DMC_RT_STATUS then putBits (putBits (s.reg a) 16 16 s.slotsUsed) 8 8 (min 255 (s.rtFill * 256 / 131072))
    else s.reg a
  | 14 =>
    if a = R.DMA_INT_SUM then BitVec.ofNat 32 (bitsOf 32 fun c => s.sourcePends (128 + c))
    else if 0x100 ≤ o ∧ o < 0x900 ∧ o % 0x40 = 8 then putBits (s.reg a) 8 1 (b2n (s.dmaRequested ((o - 0x100) / 0x40)))
    else s.reg a
  | 15 => if a = R.XBAR_MSTATUS then putBits (s.reg a) 8 8 (bitsOf 8 s.layerFull) else s.reg a
  | 16 => if a = R.TDM_INT_SUM then BitVec.ofNat 32 (bitsOf 4 fun g => s.sourcePends (66 + g)) else s.reg a
  | 17 =>
    if a = R.AMP_INT_SUM then
      BitVec.ofNat 32 (bitsOf 4 fun g => s.sourcePends (70 + g) || (List.range 8).any fun i => s.sourcePends (96 + 8 * g + i))
    -- the odd channel of a bridge-tied pair reports the shared state (09 R248)
    else if 0x400 ≤ o ∧ o < 0xC00 ∧ (o - 0x400) % 0x40 = 4 then s.reg (R.AMPc_STATUS (s.ampMain ((o - 0x400) / 0x40)))
    else s.reg a
  | 18 =>
    if a = R.FLC_MA_CFG then s.viewMaCfg
    else if a = R.FLC_MA_SRC then s.reg (maSrc s.maSel)
    else if a = R.FLC_MA_RES_LO then ((s.ma s.maSel).result).setWidth 32
    else if a = R.FLC_MA_RES_HI then ((s.ma s.maSel).result >>> 32).setWidth 32
    else if 0x4000 ≤ o then ((s.reg a).setWidth 24).signExtend 32  -- [31:24] are copies of bit 23 (07 R214)
    else s.reg a
  | 21 =>
    if a = R.RTR_STATUS then s.routerStatus
    else if a = R.RTR_DESC then s.descriptor (s.is ⟨R.RTR_DESC_SEL, 16, 1⟩) (s.rd ⟨R.RTR_DESC_SEL, 0, 13⟩)
    else if 0x8000 ≤ o ∧ (s.dstDesc ((o - 0x8000) / 4)).isNone then 0x1FFF
    else s.reg a
  | 22 =>
    if a = R.ENG_INT_SUM_LO then BitVec.ofNat 32 (bitsOf 32 fun n => s.sourcePends (32 + n))
    else if a = R.ENG_INT_SUM_HI then BitVec.ofNat 32 (bitsOf 2 fun n => s.sourcePends (64 + n))
    else if 0x100 ≤ o ∧ o % 0x100 = 0x34 then BitVec.ofNat 32 (s.viewGate (o / 0x100 - 1))
    else s.reg a
  | 26 => if a = R.SVC_I2C_DATA then (s.svc.fifo.headD 0).setWidth 32 else s.reg a
  | _ => s.reg a

/-! ## Reads -/

/-- What a read of one word returns by the access types: SH bits as pending, WO bits as 0, a written low word as written (R13, R17). -/
def State.shown (s : State) (a : Nat) (d : RegDesc) : Word :=
  let v := (s.heldLow a).getD (s.view a)
  let sh := if a = R.FLC_MA_CFG then 0 else BitVec.ofNat 32 d.sh
  ((v &&& ~~~sh) ||| (s.layered a &&& sh)) &&& ~~~(BitVec.ofNat 32 d.wo)

/-- A read by the access types alone: RC bits return to their reset value, a low word takes the snapshot of the higher ones (R13, R14, R17). -/
def State.commonRead (s : State) (a : Nat) (d : RegDesc) : State × Word :=
  let v := if d.wpos = 0 then s.shown a d else (s.snap a).getD (s.shown a d)
  let rc := BitVec.ofNat 32 d.rc
  let s := if d.rc = 0 then s else s.setReg a ((s.reg a &&& ~~~rc) ||| (resetValue a &&& rc))
  let s := if d.wlen ≤ 1 ∨ d.wpos ≠ 0 then s else
    (List.range (d.wlen - 1)).foldl (fun s i =>
      let b := a + 4 * (i + 1)
      match descAt b with | some e => s.setSnap b (some (s.shown b e)) | none => s) s
  (s, v)

/-- Instance and offset of a strided register file at `base`. -/
def slot (o base stride : Nat) : Nat × Nat := ((o - base) / stride, (o - base) % stride)

/-- A read of the control register at `a` (00 R11, R13): the value, and the state after it. [DEDUCED, log entry 24] -/
def State.regRead (s : State) (a : Nat) : State × Word :=
  if s.hidden a then (s, 0) else
  match descAt a with
  | none => (s, 0)
  | some d =>
    let o := a % 0x10000
    let (s', v) := s.commonRead a d
    match a / 0x10000 with
    | 3 =>
      if a = R.FLT_LOG0 then let t := s.via execFaultLogPop; (t, t.reply.data.headD 0)
      else if R.FLT_LOG1 ≤ a ∧ a ≤ R.FLT_LOG3 then (s, (s.snap a).getD v)
      else (s', v)
    | 4 => if a = R.WEIR_COUNT then (s'.wr ⟨R.WEIR_MEAS, 16, 12⟩ 0, v) else (s', v)
    | 6 =>
      if 0x100 ≤ o ∧ o < 0x300 ∧ o % 0x80 = 0x10 then
        let (w, t) := s.readTime0 ((o - 0x100) / 0x80)
        (t, w)
      else if 0x400 ≤ o ∧ o < 0x480 ∧ o % 0x40 = 0x18 then
        let t := s.via (execTxqPop (Fin.ofNat 2 ((o - 0x400) / 0x40)))
        (t, t.reply.data.headD 0)
      else if 0x400 ≤ o ∧ o < 0x480 ∧ 0x1C ≤ o % 0x40 ∧ o % 0x40 ≤ 0x24 then (s, (s.snap a).getD v)
      else if 0x100 ≤ o ∧ o < 0x300 ∧ 0x14 ≤ o % 0x80 ∧ o % 0x80 ≤ 0x1C ∧ (s.snap a).isNone then
        -- no snapshot yet: the word's live value (R17)
        let (w0, w1, w2, w3) := timeWords (s.tb ((o - 0x100) / 0x80)).value
        (s, if o % 0x80 = 0x14 then w1 else if o % 0x80 = 0x18 then w2 else if o % 0x80 = 0x1C then w3 else w0)
      else (s', v)
    | 10 =>
      let (n, r) := slot o 0x100 0x80
      if 0x100 ≤ o ∧ r = 0x38 then (s.setLane n { s.lane n with read := true }, v) else (s', v)
    | 18 =>
      let (n, r) := slot o 0x1000 0x20
      if 0x1000 ≤ o ∧ o < 0x4000 ∧ r = 0x10 then (s.setCic n { s.cic n with unread := false }, v) else (s', v)
    | 24 => if a = R.TLM_TJ then (s.wr (highHalf R.TLM_TJ) 0x8000, v) else (s', v)
    | 26 => if a = R.SVC_I2C_DATA then (s.setFifo (s.svc.fifo.drop 1), v) else (s', v)
    | _ => (s', v)

/-! ## Writes with an effect of their own, block by block; `none` where the access types say it all -/

def State.writeGlb (s : State) (a : Nat) (v : Word) : Option State :=
  if a = R.GLB_PUSH then some (s.writePush v)
  else if a = R.GLB_RST then some (s.writeRst v)
  else if a = R.GLB_REPL_CTRL then
    let s := s.sw R.GLB_REPL_CTRL_at_en (getBits v 0 1)
    some (if v.getLsbD 30 then s.abortReplacement else s)
  else none

def State.writeCfg (s : State) (a : Nat) (v : Word) : Option State :=
  if a = R.CFG_MODE_REQ then some (s.requestModes v)
  else if a = R.CFG_TAKE_CTRL then
    let s := s.sw R.CFG_TAKE_CTRL_at_en (getBits v 0 1)
    some (if v.getLsbD 1 then s.abortTake else s)
  else if a = R.CFG_HWREQ_EN then some ((s.commonWrite a v).settleClocks)
  else none

def State.writeEvt (s : State) (a : Nat) (v : Word) : Option State :=
  if a = R.EVT_EOI then some (s.via (execEvtEoi (Fin.ofNat 64 (getBits v 0 6))))
  else if a = R.EVT_SW then some (s.via (execEvtSw v))
  else if 0x400 ≤ a % 0x10000 ∧ a % 0x10000 < 0x800 then some (s.via (execEvtRouteWrite (BitVec.ofNat 8 ((a % 0x10000 - 0x400) / 4)) v))
  else none

def State.writeFlt (s : State) (a : Nat) (v : Word) : Option State :=
  if a = R.FLT_ACK then some (s.via (execFltAck v))
  else if a = R.FLT_CLEAR then some (s.via (execFltClear v))
  else if a = R.FLT_ERR_CTRL then some (s.via (execErrHoldWrite v))
  else if a = R.FLT_KICK then some (s.via (execWatchdogKick v))
  else if a = R.FLT_INJ_CTRL then some (s.via (execInjectionArm v))
  else if a = R.FLT_INJ_REPORT then some (s.via (execInjectedReport v))
  else if a = R.FLT_WDOG then
    let t := s.commonWrite a v
    some (t.setFlt { t.flt with watchdogAt := t.now })
  else none

def State.writeWeir (s : State) (a : Nat) (v : Word) : Option State :=
  if a = R.WEIR_BUDGET then some (s.via (execBudgetWrite v))
  else if a = R.WEIR_CTRL then some (s.commonWrite a v).judgeHold
  else none

/-- CLK_DOMx_CTRL (10 R278, R286, R287, R292). Where hold becomes 1, COCOON_ENTRY follows with CLK's own record. [DEDUCED, log entry 21] -/
def State.writeDomCtrl (s : State) (x : Nat) (v : Word) : State :=
  let was := s.is (R.CLK_DOMx_CTRL_hold x)
  let s := (s.commonWrite (R.CLK_DOMx_CTRL x) v).forceEffect x
  let s := if was && !s.is (R.CLK_DOMx_CTRL_hold x) then s.leaveCocoon x else s
  if v.getLsbD 31 then s.requestRealign x else s

def State.writeClk (s : State) (a : Nat) (v : Word) : Option State :=
  let o := a % 0x10000
  if 0x100 ≤ o ∧ o < 0x220 ∧ (o - 0x100) % 0x20 = 0 then some ((s.commonWrite a v).candEnable ((o - 0x100) / 0x20))
  else if 0x400 ≤ o ∧ o < 0x4C0 then
    let (x, r) := slot o 0x400 0x40
    if r = 0xC then some (s.writeDomCtrl x v)
    else if r = 4 ∨ r = 8 then some (((s.commonWrite a v).reselect x).settleClocks)
    else none
  else if 0x600 ≤ o ∧ o < 0x670 ∧ o % 16 = 8 then
    let n := (o - 0x600) / 16
    let s := s.commonWrite a v
    some (if v.getLsbD 2 ∧ 4 ≤ n then s.setPulse (n - 4) { s.pulseOut (n - 4) with realign := true } else s)
  else none

def State.writeTime (s : State) (a : Nat) (v : Word) : Option State :=
  let o := a % 0x10000
  if a = R.TIME_SNAP then some (if v.getLsbD 0 then s.snapTimes else s)
  else if 0x100 ≤ o ∧ o < 0x300 then
    let n : TbIx := Fin.ofNat 4 ((o - 0x100) / 0x80)
    let r := (o - 0x100) % 0x80
    if r = 8 then some (s.via (execTimeBaseAdjWrite n v))
    else if r = 0x2C then some (s.via (execTimeBaseLoad n v))
    else if r = 0x34 then some (s.via (execTimeBaseStep n v))
    else if r = 0x3C then some (s.via (execServoMeasurement n v false))
    else none
  else none

/-- The addressing registers of a stream accept writes only while en is 0, in effect and pending (12 R333, R337). [DEDUCED, log entry 22] -/
def State.writeStrm (s : State) (a : Nat) (v : Word) : Option State :=
  let o := a % 0x10000
  if o < 0x1000 then none
  else if o < 0x5000 then
    let (n, r) := slot o 0x1000 0x40
    let en := bitAt (R.STRM_TXn_CTRL n) 0
    if r ≠ 4 ∧ (s.is en ∨ s.pendingField en = 1) ∧ (descAt a).any (fun d => d.rw != 0) then
      some (s.txEvent n R.STRM_INT_STATUS_wr_refused) else none
  else
    let (n, r) := slot o 0x5000 0x40
    let en := R.STRM_RXn_CTRL_en n
    let ssm := R.STRM_RXn_CTRL_ssm n
    if r = 4 ∧ (s.is en ∨ s.pendingField en = 1) ∧ getBits v 1 1 ≠ s.rd ssm then
      some ((s.commonWrite a (putBits v 1 1 (s.rd ssm))).rxEvent n R.STRM_INT_STATUS_wr_refused)
    else if r ≠ 4 ∧ (s.is en ∨ s.pendingField en = 1) ∧ (descAt a).any (fun d => d.rw != 0) then
      some (s.rxEvent n R.STRM_INT_STATUS_wr_refused) else none

/-- LANEn_CTRL (13 R347, R351, R354, R358): error injection starts under R351. -/
def State.writeLaneCtrl (s : State) (n : Nat) (v : Word) : State :=
  if !s.laneUsed n then s else
  let s := s.sw (R.LANEn_CTRL_idle_en n) (getBits v 0 1)
  let rate := getBits v 8 5
  let s := if rate ≠ 0 ∧ !s.testsMay then s.testRefused n else s.sw (R.LANEn_CTRL_inj_rate n) rate
  let s := if v.getLsbD 31 then s.readapt n else s
  if v.getLsbD 30 then s.injectOnce n else s

def State.writeLane (s : State) (a : Nat) (v : Word) : Option State :=
  let o := a % 0x10000
  if o < 0x100 then none else
  let (n, r) := slot o 0x100 0x80
  if r = 4 then some (s.writeLaneCtrl n v)
  else if r = 0x14 then some (s.writeLoop n (getBits v 0 2))
  else if r = 0x18 then some (s.writePrbs n v)
  else if r = 0x2C then some (s.writeScan n v)
  else if r ≠ 0x44 ∧ !s.laneUsed n then some s
  else none

def State.writeNrx (s : State) (a : Nat) (v : Word) : Option State :=
  let o := a % 0x10000
  if 0x100 ≤ o ∧ o % 0x40 = 4 then some ((s.commonWrite a v).linkEnable ((o - 0x100) / 0x40)) else none

/-- FOV_CTRL (15 R387, R391, R399, R401, R402): side is writable outside the pair alone. -/
def State.writeFov (s : State) (a : Nat) (v : Word) : Option State :=
  if a = R.FOV_CTRL then
    let s := s.sw R.FOV_CTRL_auto_resync (getBits v 8 1)
    let s := if s.fovState = 0 then s.sw R.FOV_CTRL_side (getBits v 0 1) else s
    let s := if v.getLsbD 31 then s.via execYieldRequest else s
    let s := if v.getLsbD 30 then s.via execClaim else s
    let s := if v.getLsbD 29 then s.startResync else s
    some (if v.getLsbD 28 then s.endResync else s)
  else none

def State.writeDmc (s : State) (a : Nat) (v : Word) : Option State :=
  if a = R.DMC_RETRAIN then
    let s := s.commonWrite a v
    some (if v.getLsbD 31 then s.beginRetrain 0xF else s)
  else none

def State.writeDma (s : State) (a : Nat) (v : Word) : Option State :=
  let o := a % 0x10000
  if o < 0x100 then none else
  let (c, r) := slot o 0x100 0x40
  if r = 4 then some (s.writeDmaCtrl c v)
  else if r = 0x14 then some (s.writeSwIdx c (getBits v 0 16))
  else if (r = 0xC ∨ r = 0x10) ∧ s.dmaState c ≠ 0 then some s
  else none

def State.writeXbar (s : State) (a : Nat) (v : Word) : Option State :=
  if a = R.XBAR_INT_STATUS then
    let s := s.commonWrite a v
    some (if v.getLsbD 0 then s.wr R.XBAR_ERR_INFO_valid 0 else s)
  else none

def State.writeTdm (s : State) (a : Nat) (v : Word) : Option State :=
  let o := a % 0x10000
  if 0x100 ≤ o ∧ o < 0x200 ∧ o % 0x40 = 0xC then some (if v.getLsbD 0 then s.applyFormat ((o - 0x100) / 0x40) else s) else none

/-- AMP_GRPa_CM (09 R257): cm_len = 0 is refused for a group with a single-ended channel. -/
def State.writeCm (s : State) (g : Nat) (v : Word) : State :=
  let s := s.sw (R.AMP_GRPa_CM_boot_len g) (getBits v 16 8)
  if getBits v 0 8 = 0 ∧ s.rd (R.AMP_GRPa_CFG_btl g) ≠ 15 then s.raise (R.AMP_GRPa_INT_STATUS_cm_refused g)
  else s.sw (R.AMP_GRPa_CM_cm_len g) (getBits v 0 8)

def State.writeAmp (s : State) (a : Nat) (v : Word) : Option State :=
  let o := a % 0x10000
  if 0x100 ≤ o ∧ o < 0x200 then
    let (g, r) := slot o 0x100 0x40
    if r = 4 then some ((s.sw (R.AMP_GRPa_CTRL_sc_grp g) (getBits v 1 1)).ampWriteEn g (v.getLsbD 0))
    else if r = 0x10 then some (s.writeCm g v)
    else none
  else if 0x400 ≤ o ∧ o % 0x40 = 0 then
    let s := s.commonWrite a v
    some (if v.getLsbD 1 then s.ampClr ((o - 0x400) / 0x40) else s)
  else none

/-- FLC: a write of FLC_MA_CFG goes to the selected channel (07 R217, R221); coefficients and bank swaps (R214, R215). -/
def State.writeFlc (s : State) (m a : Nat) (v : Word) : Option State :=
  let o := a % 0x10000
  if a = R.FLC_MA_CFG then some ((s.soften (maCfg s.maSel) 0x3FFFF v).setShWaits (maCfg s.maSel) true)
  else if 0x4000 ≤ o then some (s.writeCoefficient m ((o - 0x4000) / 4) v)
  else if 0x1000 ≤ o ∧ o % 0x20 = 4 then
    let s := s.commonWrite a v
    some (if v.getLsbD 4 then s.firRequest ((o - 0x1000) / 0x20) else s)
  else none

/-- BRG_PAIRp_CTRL (07 R208, R209): a write of sync = 1 stands until BRIDGE_SYNC_REQUEST judges it at the boundary. -/
def State.writeBrg (s : State) (a : Nat) (v : Word) : Option State :=
  let o := a % 0x10000
  if 0x100 ≤ o ∧ o % 0x20 = 4 then
    let s := s.commonWrite a v
    some (if v.getLsbD 8 then s.unlockPair ((o - 0x100) / 0x20) else s)
  else none

def State.writeMtx (s : State) (a : Nat) (v : Word) : Option State :=
  if a = R.MTX_CTRL then
    let s := s.commonWrite a v
    some (if v.getLsbD 16 then s.requestCopy else s)
  else if a = R.MTX_TAKE then
    let s := s.hw R.MTX_TAKE_at_en (getBits v 1 1)
    some (if v.getLsbD 0 then s.requestTake else s)
  else if a = R.MTX_RQ_PUSH then some (s.pushRamp (getBits v 0 16) (v.getLsbD 16))
  else none

def State.writeRtr (s : State) (a : Nat) (v : Word) : Option State :=
  let o := a % 0x10000
  if 0x8000 ≤ o then some (s.writeRoute ((o - 0x8000) / 4) v)
  else if 0x4000 ≤ o ∧ o < 0x5000 then
    let (n, r) := slot o 0x4000 0x40
    if r = 0 then some (s.fmpWriteCtrl n v)
    else if 0x10 ≤ r ∧ r < 0x20 then some (s.fmpWriteSrc n ((r - 0x10) / 4) v)
    else if 0x20 ≤ r ∧ r < 0x30 then some (s.fmpStore a v)
    else none
  else none

/-- ENG_SUBx_CTRL (04 R130 to R132, R135): the settings, then what its command bits ask for. -/
def State.writeSub (s : State) (u : Fin 2) (a : Nat) (v : Word) : State :=
  let s := s.commonWrite a v
  let s := if v.getLsbD 28 then s.via (execSubstitutionStart u) else s
  let s := if v.getLsbD 29 then s.via (execSubstitutionCutCommand u) else s
  let s := if v.getLsbD 30 then s.via (execSubstitutionRelease u) else s
  if v.getLsbD 31 then s.substAbort u else s

def State.writeEngReg (s : State) (a : Nat) (v : Word) : Option State :=
  let o := a % 0x10000
  if a = R.ENG_SUB0_CTRL then some (s.writeSub 0 a v)
  else if a = R.ENG_SUB1_CTRL then some (s.writeSub 1 a v)
  else if 0x100 ≤ o ∧ o % 0x100 = 0xC then some (if v.getLsbD 4 then s.requestSwap (o / 0x100 - 1) else s)
  else if 0x100 ≤ o ∧ o % 0x100 = 0x10 then some (if v.getLsbD 4 then s.requestParamSwap (o / 0x100 - 1) else s)
  else none

/-- TLM: the ring's base while telemetry is off (20 R521); a window no wider than the image's (R516). -/
def State.writeTlm (s : State) (a : Nat) (v : Word) : Option State :=
  if a = R.TLM_RING_LO ∨ a = R.TLM_RING_HI then (if s.is tlmEnabled then some s else none)
  else if a = R.TLM_EN then some ((s.commonWrite a v).tlmStarts (s.is tlmEnabled))
  else if 0x180100 ≤ a ∧ a < 0x180124 then
    let img := Tab.get resetValue s.layers.image a
    let hi := min (getBits v 16 16) (getBits img 16 16)
    let lo := max (getBits v 0 16) (getBits img 0 16)
    some (s.commonWrite a (BitVec.ofNat 32 (hi * 2 ^ 16 + lo)))
  else none

def State.writeSvc (s : State) (a : Nat) (v : Word) : Option State :=
  if a = R.SVC_I2C_CMD then some (s.via (execI2cCommand v))
  else if a = R.SVC_I2C_DATA then some (if s.svc.fifo.length < 32 then s.setFifo (s.svc.fifo ++ [v.setWidth 8]) else s)
  else if a = R.SVC_MDIO_CMD then
    let (k, t) := s.draw
    some (t.via (execMdioCommand v (Config.mdioData k)))
  else none

/-- The effect of a write where the access types do not say it all. -/
def State.specialWrite (s : State) (m a : Nat) (v : Word) : Option State :=
  match a / 0x10000 with
  | 0 => s.writeGlb a v | 1 => s.writeCfg a v | 2 => s.writeEvt a v | 3 => s.writeFlt a v | 4 => s.writeWeir a v
  | 5 => s.writeClk a v | 6 => s.writeTime a v | 9 => s.writeStrm a v | 10 => s.writeLane a v | 11 => s.writeNrx a v
  | 12 => s.writeFov a v | 13 => s.writeDmc a v | 14 => s.writeDma a v | 15 => s.writeXbar a v | 16 => s.writeTdm a v
  | 17 => s.writeAmp a v | 18 => s.writeFlc m a v | 19 => s.writeBrg a v | 20 => s.writeMtx a v | 21 => s.writeRtr a v
  | 22 => s.writeEngReg a v | 23 => if a = R.DRG_CTRL then some (s.via (execDredgerEnableWrite v)) else none
  | 24 => s.writeTlm a v | 26 => s.writeSvc a v
  | _ => none

/-- A write of the control register at `a` by master `m` (00 R11, R13). -/
def State.regWrite (s : State) (m a : Nat) (v : Word) : State :=
  if s.hidden a || (descAt a).isNone then s
  else
    let t := match s.specialWrite m a v with | some t => t | none => s.commonWrite a v
    t.judgeFalls

/-! ## Mirrored writes (15 R396) -/

/-- The registers whose software writes a keeper mirrors and a standby ignores (15 R396). -/
def mirroredBlock (a : Nat) : Bool := [9, 16, 17, 18, 19, 20, 21, 22].contains (a / 0x10000)

/-- The boundary of the take domain at which a mirrored write acts: the first at least 20 µs and the link's greatest delay ahead. [DESIGN CHOICE, log entry 23] -/
def State.mirrorBoundary (s : State) : Nat :=
  let x := s.takeDom
  let b := (s.dom x).b
  let ns := 20000 + ceilDiv (s.reg (R.NRXk_DELAY_MAX (s.rd R.FOV_CFG_mirror))).toNat 1000
  ceilDiv ((s.dom x).sample.toNat + ceilDiv (ns * s.fs x) (10 ^ 9)) b * b

/-- A keeper of a pair with its mirror link up mirrors. -/
def State.mirrors (s : State) : Bool := s.fovState == 3 && s.mirrorUp && !s.is R.FOV_STATUS_sole
/-- A standby or a joining device takes these writes from the mirror link alone. -/
def State.mirrored (s : State) : Bool := s.fovState == 1 || s.fovState == 2

/-- A mirrored write waits for its boundary and goes to the peer. [DESIGN CHOICE, log entry 23] -/
def State.deferWrite (s : State) (a : Nat) (mask v : Word) : State :=
  let at_ := s.mirrorBoundary
  let item : MirrorItem := .write (BitVec.ofNat 40 a) mask v
  (s.setFov { s.fov with waiting := s.fov.waiting ++ [(at_, item)] }).emit (.mirror (some (BitVec.ofNat 64 at_)) item)

/-- A write of the towpath in software's hand: deferred by a keeper, ignored by a standby, else at once (15 R396). Of CFG_MODE_REQ the
group bits act at once. [DESIGN CHOICE, log entry 23] -/
def State.softWrite (s : State) (m a : Nat) (v : Word) : State :=
  if mirroredBlock a && (descAt a).isSome then
    if s.mirrors then s.deferWrite a 0xFFFFFFFF v
    else if s.mirrored then s.raise R.FOV_INT_STATUS_mirror_wr
    else s.regWrite m a v
  else if a = R.CFG_MODE_REQ then
    let kept := (v &&& 7) ||| (s.reg a &&& 0xFF8)
    if s.mirrors ∧ v &&& 0xFF8 ≠ s.reg a &&& 0xFF8 then (s.regWrite m a kept).deferWrite a 0xFF8 v
    else if s.mirrored ∧ v &&& 0xFF8 ≠ s.reg a &&& 0xFF8 then (s.regWrite m a kept).raise R.FOV_INT_STATUS_mirror_wr
    else s.regWrite m a v
  else s.regWrite m a v

/-! ## Towpath accesses (00 R10, R11; 17 R420) -/

/-- A read of the control register space by master `m`. -/
def State.towpathRead (s : State) (m a n : Nat) : State × List Byte :=
  if a % 4 ≠ 0 ∨ n ≠ 4 then s.readFails m a n 4 causeSize
  else
    let (s, v) := s.regRead a
    ((s.answer [v]).judgeFalls, leBytes 4 v.toNat)

/-- A write of the control register space by master `m`. -/
def State.towpathWrite (s : State) (m a n : Nat) (v : Word) : State :=
  if a % 4 ≠ 0 ∨ n ≠ 4 then s.defaultTarget m a 4 true causeSize
  else (s.answer []).softWrite m a v

end Sys2Proof.Machine
end

