-- ==== Sys2Proof/Machine/Effects.lean ====
section
/-!
DEFINITION. How a changed value comes into effect: SH registers at their boundary (00 R15, R16), and registers that a take, a resident mode or
the loader changes (03 R87 to R89, R92), with what each block does when they change.
-/
namespace Sys2Proof.Machine

/-- The SH bits of the register at `a` take effect at their boundary, with the effect its block gives them. -/
def State.shEffect (s : State) (a : Nat) : State :=
  let o := a % 0x10000
  if 2 ^ 40 ≤ a then s.maCfgTakes ((a - 2 ^ 40) / 8) else
  match a / 0x10000 with
  | 9 =>
    if o % 0x40 ≠ 4 then s.shTake a
    else if o < 0x5000 then s.txEnable ((o - 0x1000) / 0x40)
    else s.rxEnable ((o - 0x5000) / 0x40)
  | 16 =>
    let (p, r) := slot o 0x400 0x10
    if r = 4 then s.inmaskTakes p else if r = 8 then s.outmaskTakes p else s.tdmCtrlTakes p
  | 17 => if o % 0x40 = 0 then s.ampJudge ((o - 0x400) / 0x40) else s.shTake a
  | 18 => s.maCfgTakes s.maSel
  | 21 =>
    if 0x8000 ≤ o then s.via (execRouteTakesEffect (BitVec.ofNat 13 ((o - 0x8000) / 4)))
    else
      let (n, r) := slot o 0x4000 0x40
      if r = 0 then s.fmpCtrlTakes n
      else if 0x20 ≤ r then s.fmpTermTakes n ((r - 0x20) / 4) a
      else s.fmpTermTakes n ((r - 0x10) / 4) a
  | 22 => s.holdTakes (o / 0x100 - 1)
  | _ => s.shTake a

/-! ## Registers that a take changes -/

/-- The bits of a register that an image field may hold, beside status bits of the device. -/
def imageMask (a : Nat) : Word :=
  let o := a % 0x10000
  if a / 0x10000 = 22 ∧ 0x100 ≤ o ∧ o % 0x100 = 0 then 0xF000            -- ENGn_STATUS: domain, phase
  else if a / 0x10000 = 16 ∧ 0x100 ≤ o ∧ o < 0x200 ∧ o % 0x40 = 4 then 0x300  -- TDM_GRPg_STATUS: domain
  else if a / 0x10000 = 18 ∧ 0x1000 ≤ o ∧ o < 0x4000 ∧ o % 0x20 = 8 then 0x3F000000  -- CICn_STATUS: taps
  else if a / 0x10000 = 5 ∧ 0x400 ≤ o ∧ o < 0x4C0 ∧ o % 0x40 = 0 then 0xF7FFFFFF  -- CLK_DOMx_CFG: all but started
  else 0xFFFFFFFF

/-- What the blocks do when the plain register at `a` has changed from `old`. An engine whose clock changes drops the segment it runs and starts
again after the relock. [DESIGN CHOICE, log entry 109] -/
def State.changed (s : State) (a : Nat) (old : Word) : State :=
  let o := a % 0x10000
  match a / 0x10000 with
  | 1 => if a = R.CFG_HWREQ_EN then s.settleClocks else s
  | 4 => if a = R.WEIR_BUDGET then s.judgeFit else if a = R.WEIR_CTRL then s.judgeHold else s
  | 5 =>
    if 0x100 ≤ o ∧ o < 0x220 ∧ (o - 0x100) % 0x20 = 0 then s.candEnable ((o - 0x100) / 0x20)
    else if 0x400 ≤ o ∧ o < 0x4C0 then
      let (x, r) := slot o 0x400 0x40
      if r = 0 then
        let f := getBits old 30 2
        if f ≠ 0 ∧ s.rd (R.CLK_DOMx_CFG_follow x) = 0 ∧ s.started x then s.unfollow x (f - 1) else s.settleClocks
      else if r = 4 ∨ r = 8 then (s.reselect x).settleClocks
      else if r = 0xC then
        let s := s.forceEffect x
        if old.getLsbD 4 ∧ s.is (R.CLK_DOMx_CTRL_hold x) = false then s.leaveCocoon x else s
      else s
    else s
  | 6 => if 0x100 ≤ o ∧ o < 0x300 ∧ o % 0x80 = 0 ∧ getBits old 0 3 ≠ s.tbMode ((o - 0x100) / 0x80) then s.tbModeStarts ((o - 0x100) / 0x80) else s
  | 10 =>
    let (n, r) := slot o 0x100 0x80
    if 0x100 ≤ o ∧ r = 0x14 ∧ getBits old 0 2 ≠ s.rd ⟨R.LANEn_LOOP n, 0, 2⟩ ∧ 2 ≤ s.laneState n then
      ((s.judgeGen n).laneTo n 3).wr (R.LANEn_STATUS_sig_det n) 1
    else s
  | 11 => if 0x100 ≤ o ∧ o % 0x40 = 4 then s.linkEnable ((o - 0x100) / 0x40) else s
  | 14 =>
    let (c, r) := slot o 0x100 0x40
    if 0x100 ≤ o ∧ r = 4 then
      if s.is (R.DMA_CHc_CTRL_en c) && !old.getLsbD 0 then s.startDma c
      else if !s.is (R.DMA_CHc_CTRL_en c) && old.getLsbD 0 then s.stopDma c else s
    else s
  | 17 => if 0x100 ≤ o ∧ o < 0x200 ∧ o % 0x40 = 4 then s.ampEnChanged ((o - 0x100) / 0x40) (old.getLsbD 0) else s
  | 22 =>
    if 0x100 ≤ o ∧ o % 0x100 = 8 ∧ s.engState (o / 0x100 - 1) ≠ 0 then (s.setEngState (o / 0x100 - 1) 1).serveWaits (o / 0x100 - 1) else s
  | 23 => if a = R.DRG_CTRL then (if s.is drgEn then s.dredgerAsk else s.stopDredger) else s
  | 24 => if a = R.TLM_EN then s.tlmStarts (old.getLsbD 0) else s
  | _ => s

/-- Bits `mask` of the register at `a` come to their layered value at a boundary (03 R87 to R89). -/
def State.bring (s : State) (a : Nat) (mask : Word) : State :=
  let mask := mask &&& imageMask a
  let old := s.reg a
  if 2 ^ 40 ≤ a then
    let s := s.settle a mask
    if s.reg a = old ∨ (a - 2 ^ 40) % 8 ≠ 0 then s else s.maRestart ((a - 2 ^ 40) / 8)
  else if R.RTR_ROUTEd 0 ≤ a ∧ a < R.RTR_ROUTEd 8192 then s.routeSettles ((a - R.RTR_ROUTEd 0) / 4)
  else
    let sh := shMask a
    let s := s.settle a (mask &&& ~~~sh)
    let s := if s.reg a = old then s else s.changed a old
    if mask &&& sh = 0 then s else (s.setShWaits a true).shEffect a

/-- A domain number of a register; the take domain where it names none. -/
def State.orTakeDom (s : State) (x : Nat) : Nat := if x < 3 then x else s.takeDom

/-- The rate domain at whose boundary a register of a take comes into effect (03 R93): that of its block instance, else the take domain. -/
def State.domainOf (s : State) (a : Nat) : Nat :=
  let o := a % 0x10000
  if 2 ^ 40 ≤ a then s.orTakeDom (s.rd ⟨maSrc ((a - 2 ^ 40) / 8), 28, 2⟩) else
  match a / 0x10000 with
  | 9 =>
    if 0x5000 ≤ o then s.rd (R.STRM_RXn_CFG_domain ((o - 0x5000) / 0x40))
    else if 0x1000 ≤ o then s.txDomain ((o - 0x1000) / 0x40) else s.takeDom
  | 16 =>
    if 0x400 ≤ o then s.tdmDomain ((o - 0x400) / 0x40) else if 0x100 ≤ o then s.tdmDomain ((o - 0x100) / 0x40) else s.takeDom
  | 17 =>
    if 0x400 ≤ o then s.rd (R.AMP_GRPa_CFG_domain ((o - 0x400) / 0x200))
    else if 0x100 ≤ o then s.rd (R.AMP_GRPa_CFG_domain ((o - 0x100) / 0x40)) else s.takeDom
  | 18 =>
    if 0x4000 ≤ o then s.orTakeDom (s.rd (R.CICn_CFG_domain ((o - 0x4000) / 0x200)))
    else if 0x1000 ≤ o then s.orTakeDom (s.rd (R.CICn_CFG_domain ((o - 0x1000) / 0x20))) else s.takeDom
  | 19 => if 0x100 ≤ o ∧ o < 0x1C0 then pairOut ((o - 0x100) / 0x20) else s.takeDom
  | 20 => s.mtxDomain
  | 21 =>
    if 0x8000 ≤ o then (match s.dstDesc ((o - 0x8000) / 4) with | some d => d.domain | none => s.takeDom)
    else if 0x4000 ≤ o ∧ o < 0x5000 then (s.fmpOutDomain ((o - 0x4000) / 0x40)).getD s.takeDom else s.takeDom
  | 22 => if 0x100 ≤ o then s.engDomain (o / 0x100 - 1) else s.takeDom
  | _ => s.takeDom

/-! ## SH fields at their boundary (00 R15) -/

/-- The SH bits of the register at `a` take effect at a frame boundary of their port: those of TDMp and of a monitor feed (06 R199; 08 R245). -/
def frameField (a : Nat) : Bool := a / 0x10000 == 16 || (a / 0x10000 == 21 && decide (a % 0x10000 < 0x8000))

/-- A boundary of the register's kind stands: a frame boundary falls on every sample edge of the port's domain, a tick boundary on those of
R28 (01). [DEDUCED, log entry 95] -/
def State.shBoundary (s : State) (a : Nat) : Bool :=
  let x := s.domainOf a
  s.started x && decide ((s.dom x).b ≠ 0) && (frameField a || s.atBoundary x)

/-- SH_FIELD_TAKES_EFFECT (00 R15, R16): at a boundary of the field's kind; registers without SH bits have nothing to take. [DEDUCED, log entry 95] -/
def execShFieldTakesEffect (addr : Addr) (s : State) : Res :=
  .next (if shMask addr.toNat = 0 ∨ !s.shBoundary addr.toNat then s else s.shEffect addr.toNat)

/-- The SH registers of domain `x` whose last write is at least 1 µs old take effect at the boundary that stands: those of frames, or those of
ticks (00 R15). [DEDUCED, log entry 95] -/
def State.shBoundaryTakes (s : State) (x : Nat) (frames : Bool) : State :=
  (s.layers.shPending.filter fun a => s.domainOf a == x && frameField a == frames && s.shDue a).foldl (fun s a => s.shEffect a) s

end Sys2Proof.Machine
end

