-- ==== Sys2Proof/Machine/Matrix.lean ====
section
/-!
DEFINITION. A burst at the bus matrix (17 R420 to R430): its target, its data and its response, whichever master sends it; and the commands by
which software and the host reach a register or a window (00 R10 to R17; 18 R452 to R454, R474; 22 R551).
-/
namespace Sys2Proof.Machine

/-! ## The targets -/

/-- An engine window whose engine runs a segment serves no access (04 R110), and the DMC takes none while a block waits for an entry (16 R408). -/
def State.busReady (s : State) (a : Nat) : Bool :=
  match targetOf a with
  | 0 => s.dmcRoom
  | 3 => s.engState ((a - engineWindow 0) / 0x40000) != 3
  | _ => true

/-- The class of a master at an engine window (04 R110; 17 R420). -/
def userOf : Nat → WindowUser
  | 2 => .foregroundDma | 3 => .substitution | 5 => .otherDma | 6 => .dredger | _ => .towpath

/-- An access of master `m` at address `a` of an engine window: it waits while the engine runs (01 R41; 04 R110). [DESIGN CHOICE, log entry 96] -/
def State.windowAsks (s : State) (m a : Nat) (write : Option (List Word)) (inbound : Bool) : State :=
  let o := a - engineWindow 0
  s.windowWaits ⟨o / 0x40000, userOf m, m, o % 0x40000, write, .clean, inbound⟩

/-- Read the words of an engine window from offset `o` of engine `n`. [DEDUCED, log entry 19] -/
def State.emWords (s : State) (n o : Nat) : Nat → State × List Word
  | 0 => (s, [])
  | k + 1 =>
    let (w, s) := s.windowRead n o
    let (s, ws) := s.emWords n (o + 4) k
    (s, w :: ws)

/-- Bytes of words, little-endian. -/
def bytesOf (ws : List Word) : List Byte := ws.flatMap fun w => leBytes 4 w.toNat

/-- Master, address and length of a burst that no target takes: the cause (17 R447). -/
def burstCause (m a : Nat) : Option Nat :=
  let t := targetOf a
  if t = 7 then some causeNoTarget
  else if m = 4 ∧ t = 5 then some causeInboundHm
  else if !reaches m t then some causeUnreachable
  else none

/-- A read burst of `n` bytes by master `m` (17 R422, R425, R426); `host` is what a completion from host memory carries. -/
def State.busRead (s : State) (m a n : Nat) (host : Option (List Byte) := none) : State × List Byte :=
  match burstCause m a with
  | some c => s.readFails m a n (targetOf a) c
  | none =>
    match targetOf a with
    | 0 => s.dramRead m a n
    | 1 => s.ssmRead a n
    | 2 =>
      if n ≠ 4 ∨ a % 4 ≠ 0 then s.readFails m a n 2 causeSize
      else
        let o := a - bankWindow
        if s.basin.now.dead.contains (o / 0x400000, o % 0x400000 / 4) then (s.dataError [0], List.replicate 4 0)
        else s.answerBytes (leBytes 4 (s.bankRead o).toNat)
    | 3 =>
      if n % 4 ≠ 0 ∨ a % 4 ≠ 0 then s.readFails m a n 3 causeSize
      else
        let o := a - engineWindow 0
        let (s, ws) := s.emWords (o / 0x40000) (o % 0x40000) (n / 4)
        s.answerBytes (bytesOf ws)
    | 4 => s.towpathRead m a n
    | _ => s.hostGet m a n host

/-- A write of the engine or bank windows by master `m`. -/
def State.windowsPut (s : State) (m a : Nat) (ws : List Word) : State :=
  if targetOf a = 3 then
    let o := a - engineWindow 0
    if s.busReady a then s.emPut m (o / 0x40000) (o % 0x40000) ws else s.windowAsks m a (some ws) false
  else s.bankWrite m (a - bankWindow) (ws.headD 0)

/-- Software's write of a window is mirrored: a keeper defers it, a standby ignores it (15 R396, R397). [DEDUCED, log entry 19] -/
def State.windowsSoft (s : State) (m a : Nat) (ws : List Word) : State :=
  if m = 3 ∨ m = 6 then s.windowsPut m a ws
  else if s.mirrors then (ws.zipIdx.foldl (fun s e => s.deferWrite (a + 4 * e.2) 0xFFFFFFFF e.1) s).answer []
  else if s.mirrored then (s.raise R.FOV_INT_STATUS_mirror_wr).answer []
  else s.windowsPut m a ws

/-- A write burst by master `m`: the bytes whose enables are set (17 R422, R425, R426). [DEDUCED, log entry 19] -/
def State.busWrite (s : State) (m a : Nat) (bytes : List (Option Byte)) : State :=
  match burstCause m a with
  | some c => s.defaultTarget m a (targetOf a) true c
  | none =>
    let n := bytes.length
    let data := bytes.map (·.getD 0)
    match targetOf a with
    | 0 => s.dramWrite m a bytes
    | 1 => s.ssmWrite a bytes
    | 2 => if n ≠ 4 ∨ a % 4 ≠ 0 then s.defaultTarget m a 2 true causeSize else s.windowsSoft m a (wordsOf data)
    | 3 => if n % 4 ≠ 0 ∨ a % 4 ≠ 0 then s.defaultTarget m a 3 true causeSize else s.windowsSoft m a (wordsOf data)
    | 4 => s.towpathWrite m a n (BitVec.ofNat 32 (leNat data))
    | _ => s.hostPut m a data

/-- Serve a burst; a read of host memory awaits its completion. -/
def State.serve (s : State) (b : Burst) : State :=
  let m := b.master.val
  let a := b.addr.toNat
  if burstCause m a = none ∧ targetOf a = 5 then s.outboundBurst b
  else if b.write then s.busWrite m a (b.data.map some)
  else
    -- the words of an engine window come through check bits (04 R126)
    let found := if burstCause m a = none ∧ targetOf a = 3 ∧ a % 4 = 0 ∧ b.data.length % 4 = 0 then b.ecc else []
    let s := found.foldl (fun s e => s.engEcc ((a - engineWindow 0) / 0x40000) e.2) s
    let s := (s.busRead m a b.data.length).1
    if found.any (fun e => e.2 = .uncorrectable) then s.dataError s.reply.data else s

/-! ## Registers (00) -/

/-- W1C bits that hardware sets in the towpath cycle of a write: the set prevails over the write's clear (00 R14). -/
def State.setWith (s : State) (a : Nat) (sets : Word) : State :=
  match descAt a with
  | some d => if s.hidden a ∨ sets &&& BitVec.ofNat 32 d.w1c = 0 then s else s.setReg a (s.reg a ||| (sets &&& BitVec.ofNat 32 d.w1c))
  | none => s

/-- REGISTER_WRITE (00 R10 to R14): `sets` are the W1C bits of the register that hardware sets in the same towpath cycle. [DESIGN CHOICE, log entry 1] -/
def execRegisterWrite (m : MasterIx) (addr : Addr) (bytes : Nat) (data sets : Word) (s : State) : Res :=
  .next ((s.busWrite m addr.toNat ((leBytes bytes data.toNat).map some)).setWith addr.toNat sets)

/-- What a field takes in the cycle of its read: a count its amount, a least or highest value the one offered (00 R14). -/
def State.rcUpdate (s : State) (a : Nat) (u : RcUpdate) : State :=
  let rc := match descAt a with | some d => d.rc | none => 0
  let inside (l w : Nat) : Bool := (List.range w).all fun i => rc.testBit (l + i)
  match u with
  | .add l w n => if inside l w then s.bump ⟨a, l, w⟩ n else s
  | .offer l w v =>
    if !inside l w then s
    else if getBits (resetValue a) l w = 2 ^ w - 1 then s.least ⟨a, l, w⟩ v else s.highest ⟨a, l, w⟩ v

/-- RC_READ (00 R14): the value before the read's cycle; each RC field then holds its reset value updated by that cycle alone. -/
def execRcRead (addr : Addr) (updates : List RcUpdate) (s : State) : Res :=
  .next (updates.foldl (fun s u => s.rcUpdate addr.toNat u) (s.towpathRead 4 addr.toNat 4).1)

/-- WIDE_LOW_WORD_READ (00 R17). -/
def execWideLowWordRead (addr : Addr) (s : State) : Res :=
  .next (if s.busReady addr.toNat then (s.busRead 4 addr.toNat 4).1
    else if targetOf addr.toNat = 3 then s.windowAsks 4 addr.toNat none false else s)

/-- WIDE_HIGH_WORD_WRITE (00 R17). -/
def execWideHighWordWrite (addr : Addr) (data : Word) (s : State) : Res :=
  .next (s.busWrite 4 addr.toNat ((leBytes 4 data.toNat).map some))

/-! ## Service ports (18 R474; 22 R551) -/

/-- The port's access has ended: whether in a default-target error (R474). -/
def State.spiDone (s : State) (write : Bool) : State :=
  let bad := s.reply.response == .defaultTarget
  let s := s.setSvc { s.svc with spiError := bad }
  if bad then s.raise (svcEvent 1) else if write then s.raise (svcEvent 0) else s

def spiEnable : FieldAt := ⟨R.SVC_CTRL, 0, 1⟩

/-- A control register access of the service ports; they reach no other space (R474). [DESIGN CHOICE, log entry 30] -/
def State.serviceWrite (s : State) (a : Nat) (v : Word) : State :=
  let m := Config.serviceMaster % 8
  if 0x1C0000 ≤ a then s.defaultTarget m a 7 true causeNoTarget else s.towpathWrite m a 4 v
def State.serviceRead (s : State) (a : Nat) : State :=
  let m := Config.serviceMaster % 8
  if 0x1C0000 ≤ a then (s.readFails m a 4 7 causeNoTarget).1 else (s.towpathRead m a 4).1

/-- SPI_WRITE (18 R474): performed after exactly 8 bytes, otherwise discarded. -/
def execSpiWrite (addr : BitVec 24) (data : Word) (bytes : Nat) (s : State) : Res :=
  .next (if !s.is spiEnable || bytes != 8 then s else (s.serviceWrite addr.toNat data).spiDone true)

/-- SPI_READ (18 R474). -/
def execSpiRead (addr : BitVec 24) (s : State) : Res :=
  .next (if !s.is spiEnable then s else (s.serviceRead addr.toNat).spiDone false)

/-- SPI_STATUS (18 R474): an access is complete before the next command, so busy is 0. -/
def execSpiStatus (s : State) : Res :=
  .next (if !s.is spiEnable then s else s.answer [BitVec.ofNat 32 (b2n s.svc.spiError)])

/-- JTAG_REGACC (22 R551): the accesses of the service SPI port, without its pins. [DESIGN CHOICE, log entry 30] -/
def execJtagRegacc (write : Bool) (addr : BitVec 24) (data : Word) (s : State) : Res :=
  .next (if write then s.serviceWrite addr.toNat data else s.serviceRead addr.toNat)

/-! ## PCIe inbound (18 R452 to R454, R456; 21 R527, R529) -/

/-- The internal address a request's window reaches, where the window decodes it. [DEDUCED, log entry 28] -/
def State.inboundAddr (s : State) (bar : Bar) (o : Nat) : Option Nat :=
  let boot := s.rd R.GLB_BOOT_STATUS_state
  let early := boot == 7 || boot == 8
  match bar with
  | .bar0 =>
    let w := o / 2 ^ 24
    if 4 ≤ w ∨ (early ∧ w = 2) then none else some (w * 0x10000000 + o % 2 ^ 24)
  | .bar2 =>
    if early ∨ 2 ^ s.pcie.bar2Log ≤ o then none else some (dramBase + s.wide R.PCIE_BAR2_WIN_LO R.PCIE_BAR2_WIN_HI % 2 ^ 34 + o)

/-- A request is aborted or discarded: ib_err and its count (R454, R478). -/
def State.inboundError (s : State) : State := (s.raise (pcieEvent 5)).bump (lowHalf R.PCIE_REQ_ERR)

/-- The response to a request (R454). -/
def State.inboundEnds (s : State) (write : Bool) (bytes : List Byte) : State :=
  match s.reply.response with
  | .okay => if write then s else s.emit (.completion bytes false)
  | .dataError => if write then s else s.emit (.completion bytes true)
  | .defaultTarget => s.inboundError.emit (.completerAbort write)

/-- PCIE_INBOUND_REQUEST (18 R452 to R454): in D3hot, or with the link down, no window decodes. [DEDUCED, log entry 28] -/
def execPcieInboundRequest (bar : Bar) (offset : Nat) (write poisoned : Bool) (data : List (Option Byte)) (s : State) : Res :=
  .next (if !s.is pcieLink || s.rd pcieD != 0 then s
    else match s.inboundAddr bar offset with
      | none => s
      | some a =>
        if write ∧ poisoned then s.inboundError
        else if bar = .bar0 ∧ (data.length ≠ 4 ∨ data.any (·.isNone) ∨ a % 4 ≠ 0) then
          ((s.defaultTarget 4 a (targetOf a) write causeSize).inboundEnds write [])
        else if !s.busReady a ∧ targetOf a = 0 then s
        else if !s.busReady a ∧ !write then s.windowAsks 4 a none true
        else if write then (s.busWrite 4 a data).inboundEnds true []
        else
          let (s, bytes) := s.busRead 4 a data.length
          s.inboundEnds false bytes)

/-! ## Arbitration (17 R421 to R424, R426, R430) -/

/-- The effective value of a burst in QoS mode (R424): waiting is counted in cycles of 800 MHz. -/
def State.qosValue (s : State) (m since : Nat) : Nat :=
  let q := s.rd ⟨R.XBAR_QOS, 4 * (m - 3), 4⟩
  let age := max 1 (s.rd ⟨R.XBAR_CTRL, 8, 8⟩)
  min 15 (q + (s.now - since) * 16 / 5 / (age * 16))

/-- The rank of a pending burst, the greater first (R423, R424). -/
def State.burstRank (s : State) (e : Burst × Nat) : Nat :=
  let m := e.1.master.val
  if m < 3 then 1000 - m
  else if s.is ⟨R.XBAR_CTRL, 0, 1⟩ then s.qosValue m e.2 * 8 + (7 - m) else 7 - m

/-- The bursts a target may be granted: of each master the oldest to it, none of a master in reset. -/
def State.pendingAt (s : State) (t : Nat) : List (Burst × Nat) :=
  (List.range 8).filterMap fun m =>
    if s.is (drainBit m) then none
    else s.xbar.waiting.find? fun e =>
      e.1.master.val = m && burstCause m e.1.addr.toNat == none && targetOf e.1.addr.toNat == t && s.busReady e.1.addr.toNat

/-- The burst that a target's arbiter grants (R423, R424). -/
def State.grantee (s : State) (t : Nat) : Option (Burst × Nat) :=
  (s.pendingAt t).foldl (fun best e =>
    match best with
    | none => some e
    | some b => if s.burstRank b < s.burstRank e then some e else some b) none

/-- A burst is 1 to 256 bytes long and lies within one aligned region of 256 bytes (17 R422). -/
def burstLegal (b : Burst) : Bool := decide (1 ≤ b.data.length ∧ b.addr.toNat % 256 + b.data.length ≤ 256)

/-- A burst joins its master's layer; one for which the layer has no room stays in the master, which offers it again (01 R24; 17 R421). -/
def State.layerTakes (s : State) (b : Burst) : State :=
  let mine := s.xbar.waiting.filter fun e => decide (e.1.master = b.master) && e.1.write == b.write
  if 32 ≤ mine.length ∨ !burstLegal b then s else { s with xbar := { s.xbar with waiting := s.xbar.waiting ++ [(b, s.now)] } }

/-- BURST_GRANT (17 R421 to R424): new bursts join their layers; the target runs the granted one to its end. -/
def execBurstGrant (target : Fin 6) (arrivals : List Burst) (s : State) : Res :=
  .next (let s := arrivals.foldl (fun s b => s.layerTakes b) s
    match s.grantee target with
    | none => s
    | some e =>
      let s := { s with xbar := { s.xbar with waiting := s.xbar.waiting.erase e } }
      (s.bump (whole (R.XBAR_BWm e.1.master))).serve e.1)

/-- DEFAULT_TARGET_BURST (17 R426): a burst that a target takes is not one of these. -/
def execDefaultTargetBurst (b : Burst) (s : State) : Res :=
  .next (let t := (s.answer []).serve b
    if t.reply.response = .defaultTarget then t else s)

/-- MASTER_RESET (17 R430). [DEDUCED, log entry 29] -/
def execMasterReset (m : MasterIx) (s : State) : Res := .next (s.resetMaster m)

end Sys2Proof.Machine
end

