-- ==== Sys2Proof/Machine/Load.lean ====
section
/-!
DEFINITION. The bytes of a configuration image: header, tables, CRCs, records and the checks of the loader (03 R75 to R84, R90, R91, R103; 20
R504; 21 R530). What section bodies hold comes with the image as data (03 R83: their byte layout is not in the manual).
-/
namespace Sys2Proof.Machine

/-! ## Bytes and CRC (R75, R76) -/

/-- The little-endian field of `n` bytes at offset `off` of an image. -/
def imageField (b : List Byte) (off n : Nat) : Nat := leNat ((b.drop off).take n)

/-- The body of `n` bytes at offset `off`. -/
def bodyAt (b : List Byte) (off n : Nat) : List Byte := (b.drop off).take n

/-- One bit, then one byte of CRC-32C: the reflected form of polynomial 0x1EDC_6F41 (R76). -/
def crcBit (c : Word) : Word := if c.getLsbD 0 then (c >>> 1) ^^^ 0x82F63B78 else c >>> 1
def crcByte (c : Word) (x : Byte) : Word :=
  crcBit (crcBit (crcBit (crcBit (crcBit (crcBit (crcBit (crcBit (c ^^^ x.setWidth 32))))))))

/-- CRC-32C (R76). -/
def crc32c (b : List Byte) : Word := ~~~ (b.foldl crcByte 0xFFFFFFFF)

/-- 32-bit words of a byte string; bytes short of a word make none. -/
def wholeWords : List Byte → List Word
  | a :: b :: c :: d :: t => BitVec.ofNat 32 (leNat [a, b, c, d]) :: wholeWords t
  | _ => []

/-! ## Tables (R75, R77, R90) -/

/-- An entry of the section table (R77). -/
structure SecEntry where
  kind : Nat
  inst : Nat
  off : Nat
  len : Nat
  crc : Word
  deriving DecidableEq, Repr

/-- An entry of the overlay table (R90). -/
structure OvEntry where
  mode : Nat
  flags : Nat
  off : Nat
  len : Nat
  crc : Word
  deriving DecidableEq, Repr

def OvEntry.needsLeave (e : OvEntry) : Bool := bit e.flags 0
def OvEntry.hasReplace (e : OvEntry) : Bool := bit e.flags 1
def OvEntry.absent (e : OvEntry) : Bool := bit e.flags 2
def OvEntry.resident (e : OvEntry) : Bool := bit e.flags 3

def imageLen (b : List Byte) : Nat := imageField b 0x10 4
def sectionCount (b : List Byte) : Nat := imageField b 0x14 2
def imageSigned (b : List Byte) : Bool := bit (imageField b 0xD 1) 0
def imageModes (b : List Byte) : BitVec 12 := BitVec.ofNat 12 (imageField b 0x2C 2)
def imageTakeDomain (b : List Byte) : Nat := imageField b 0x2E 1
def imageShadowLen (b : List Byte) : Nat := imageField b 0x30 4

/-- The section table. -/
def secTable (b : List Byte) : List SecEntry :=
  (List.range (sectionCount b)).map fun i =>
    let o := imageField b 0x18 4 + 16 * i
    ⟨imageField b o 2, imageField b (o + 2) 2, imageField b (o + 4) 4, imageField b (o + 8) 4, BitVec.ofNat 32 (imageField b (o + 12) 4)⟩

/-- The overlay table. -/
def ovTable (b : List Byte) : List OvEntry :=
  (List.range 12).map fun i =>
    let o := imageField b 0x1C 4 + 16 * i
    ⟨imageField b o 1, imageField b (o + 1) 1, imageField b (o + 4) 4, imageField b (o + 8) 4, BitVec.ofNat 32 (imageField b (o + 12) 4)⟩

/-- The table entry of a mode's overlay. -/
def ovEntry (b : List Byte) (m : Nat) : Option OvEntry := (ovTable b).find? fun e => e.mode = m

/-- The entry of a section. -/
def secEntry (b : List Byte) (kind inst : Nat) : Option SecEntry := (secTable b).find? fun e => e.kind = kind ∧ e.inst = inst

/-- Instances a section type may have (R78); 0 for a type that is not defined. -/
def kindRange (kind : Nat) : Nat :=
  match kind with
  | 5 | 6 => 34 | 7 => 3 | 0x13 => 4 | 0xFE => 1
  | k => if 1 ≤ k ∧ k ≤ 0x12 then 1 else 0

/-- Load-only sections (R78). -/
def loadOnly (kind : Nat) : Bool := kind == 0xC || kind == 0x11 || kind == 0x12

/-! ## Records (R79, R80) -/

/-- A record of a stream (R79). -/
inductive Rec where
  | write (addr : Nat) (data : List Word)
  | masked (addr : Nat) (pairs : List (Word × Word))
  | fill (addr count : Nat) (value : Word)
  | replace (kind inst off len : Nat)
  deriving DecidableEq, Repr

/-- `n` words from `a` lie whole in the control register space, or in the engine, bank or sample memory windows (R80). -/
def recordTarget (a n : Nat) : Bool :=
  let t := targetOf a
  a % 4 == 0 && (t == 1 || t == 2 || t == 3 || t == 4) && targetOf (a + 4 * (n - 1)) == t

/-- Mask and value pairs. -/
def pairsOf : List Word → List (Word × Word)
  | m :: v :: t => (m, v) :: pairsOf t
  | _ => []

/-- The records of a stream up to its END, or none where R80 calls it invalid; `fuel` bounds the number of records. -/
def parseRecords : Nat → List Word → Option (List Rec)
  | 0, _ => none
  | _ + 1, [] => none
  | fuel + 1, h :: t =>
    let op := getBits h 28 4
    let n := getBits h 16 12
    let hi := getBits h 0 8
    if getBits h 8 8 ≠ 0 then none
    else if op = 0 then (if n = 0 ∧ hi = 0 then some [] else none)
    else if op = 4 then
      match t with
      | ti :: off :: len :: rest =>
        let kind := getBits ti 0 16
        let inst := getBits ti 16 16
        if n ≠ 0 ∨ hi ≠ 0 ∨ loadOnly kind ∨ kind = 0xFE ∨ kindRange kind ≤ inst then none
        else (parseRecords fuel rest).map (Rec.replace kind inst off.toNat len.toNat :: ·)
      | _ => none
    else
      match t with
      | [] => none
      | lo :: t =>
        let a := hi * 2 ^ 32 + lo.toNat
        if op = 1 then
          if t.length < n + 1 ∨ !recordTarget a (n + 1) then none
          else (parseRecords fuel (t.drop (n + 1))).map (Rec.write a (t.take (n + 1)) :: ·)
        else if op = 2 then
          if t.length < 2 * (n + 1) ∨ !recordTarget a (n + 1) then none
          else (parseRecords fuel (t.drop (2 * (n + 1)))).map (Rec.masked a (pairsOf (t.take (2 * (n + 1)))) :: ·)
        else if op = 3 then
          match t with
          | c :: v :: rest =>
            if c = 0 ∨ 2 ^ 20 < c.toNat ∨ !recordTarget a c.toNat then none
            else (parseRecords fuel rest).map (Rec.fill a c.toNat v :: ·)
          | _ => none
        else none

/-- The records of a body. -/
def recordsOf (body : List Byte) : Option (List Rec) :=
  let ws := wholeWords body
  parseRecords (ws.length + 1) ws

/-- The word writes of a record, in order (R79, R81): address, mask, value. -/
def Rec.words : Rec → List OvWrite
  | .write a data => data.zipIdx.map fun e => ⟨a + 4 * e.2, 0xFFFFFFFF, e.1⟩
  | .masked a pairs => pairs.zipIdx.map fun e => ⟨a + 4 * e.2, e.1.1, e.1.2⟩
  | .fill a count v => (List.range count).map fun i => ⟨a + 4 * i, 0xFFFFFFFF, v⟩
  | .replace _ _ _ _ => []

/-- The bits of a register that an image or an overlay may set: no W1C, WO or RC bit (00 R13). -/
def recordMask (a : Nat) : Word :=
  match descAt a with
  | some d => ~~~ (BitVec.ofNat 32 (d.w1c ||| d.wo ||| d.rc))
  | none => 0

/-- The settings bits of a register: those that software may write and read back (R87). -/
def settingsMask (a : Nat) : Word :=
  match descAt a with
  | some d => BitVec.ofNat 32 (d.rw ||| d.sh)
  | none => 0

/-! ## Overlays compiled (R79, R81, R87, R90, R561) -/

/-- The register writes of a stream: addresses below the windows. -/
def streamWrites (rs : List Rec) : List OvWrite := (rs.flatMap Rec.words).filter fun w => w.addr < 0x1C0000

/-- The window words of a stream. -/
def streamWords (rs : List Rec) : List (Nat × Word × Word) :=
  ((rs.flatMap Rec.words).filter fun w => 0x1C0000 ≤ w.addr).map fun w => (w.addr, w.mask, w.value)

/-- The sections a stream replaces, each with the number of register writes and of window words before it. -/
def streamReplaces : Nat → Nat → List Rec → List Replaced
  | _, _, [] => []
  | k, w, .replace kind inst _ _ :: t => ⟨kind, inst, k, w⟩ :: streamReplaces k w t
  | k, w, r :: t => streamReplaces (k + (streamWrites [r]).length) (w + (streamWords [r]).length) t

/-- The value of a route entry: its source and change kind (06 R189, R200). -/
def routeValue (src : Nat) (xf : Bool) : Word := BitVec.ofNat 32 (src % 2 ^ 13 + b2n xf * 2 ^ 14)

/-- What a replaced section writes to registers while its overlay is held: its fields; ROUTES decides every entry of the 8192, an
unnamed one being silence with a crossfade (R82). -/
def contentWrites (kind : Nat) (c : Content) : List OvWrite :=
  let fields := c.regs.map fun e => (⟨e.1, 0xFFFFFFFF, e.2⟩ : OvWrite)
  if kind = 8 then
    fields ++ (c.dests.map (·.number)).map fun d =>
      match c.routes.find? fun r => r.1 = d with
      | some r => ⟨R.RTR_ROUTEd d, 0x5FFF, routeValue r.2.1 r.2.2⟩
      | none => ⟨R.RTR_ROUTEd d, 0x5FFF, routeValue silence true⟩
  else fields

/-- The writes in force of an overlay: its stream's, with each payload's at the place of its REPLACE (R81). `dests` are the router's
destinations. [DEDUCED, log entry 53] -/
def inForceOf (dests : List Nat) (o : Overlay) (contents : List SectionContent) : List OvWrite :=
  let rec go (done : Nat) (reps : List Replaced) : List OvWrite :=
    match reps with
    | [] => o.writes.drop done
    | r :: t =>
      let c := (contents.find? fun c => c.kind = r.kind ∧ c.inst = r.inst).bind (·.content)
      let here := match c with
        | some c => contentWrites r.kind (if r.kind = 8 then { c with dests := dests.map fun d => ⟨d, 0, 0, 0, 0⟩ } else c)
        | none => []
      (o.writes.drop done).take (r.writes - done) ++ here ++ go r.writes t
  go 0 o.replaces

/-- The overlay of a table entry, its stream compiled; payload contents come at its staging. -/
def compileOverlay (b : List Byte) (e : OvEntry) : Overlay :=
  let rs := recordsOf (bodyAt b e.off e.len)
  let writes := streamWrites (rs.getD [])
  { mode := e.mode, needsLeave := e.needsLeave, hasReplace := e.hasReplace, absent := e.absent, resident := e.resident,
    off := e.off, len := e.len, crc := e.crc, valid := rs.isSome,
    writes := writes.map fun w => { w with mask := w.mask &&& recordMask w.addr },
    inForce := writes.map fun w => { w with mask := w.mask &&& recordMask w.addr },
    words := streamWords (rs.getD []), replaces := streamReplaces 0 0 (rs.getD []), contents := [] }

/-! ## Checks (R83) -/

/-- The content of a section of an image. -/
def contentOf (cs : List SectionContent) (kind inst : Nat) : Option Content :=
  (cs.find? fun c => c.kind = kind ∧ c.inst = inst).bind (·.content)

/-- The value a section gives a register; 0 where it names none. -/
def contentReg (cs : List SectionContent) (kind : Nat) (a : Nat) : Word :=
  match contentOf cs kind 0 with
  | some c => match c.regs.find? fun e => e.1 = a with | some e => e.2 | none => 0
  | none => 0

/-- The device capacity in GiB by DMC_CFG.size (16 R419), and the usable bytes: 7/8 of it (16 R406). -/
def capacityGiB : Nat → Nat
  | 0 => 2 | 1 => 4 | 2 => 6 | 3 => 8 | 4 => 12 | 5 => 16 | _ => 0
def usableBytes (cs : List SectionContent) : Nat := capacityGiB (getBits (contentReg cs 0x11 R.DMC_CFG) 4 3) * 2 ^ 30 / 8 * 7

/-- Check 1 (R75). -/
def checkHeader (b : List Byte) : Option Nat :=
  if imageField b 0 4 ≠ 0x36394753 ∨ imageField b 4 2 ≠ 3 ∨ imageField b 6 2 ≠ 0x100 ∨ imageField b 0x16 2 ≠ 12 ∨ 2 < imageTakeDomain b
      ∨ 2 ^ 25 < imageLen b ∨ 1 < imageField b 0xD 1 ∨ imageField b 0xE 2 ≠ 0 ∨ 0xFFF < imageField b 0x2C 2 ∨ imageField b 0x2F 1 ≠ 0
      ∨ imageField b 0x34 200 ≠ 0 then some 0x10
  else if imageField b 8 4 ≠ 0x9632 then some 0x11
  else none

/-- Checks 2 to 4. -/
def State.checkAdmission (s : State) (b : List Byte) : Option Nat :=
  if s.rd ⟨R.GLB_ID, 8, 8⟩ < imageField b 0xC 1 then some 0x11
  else if crc32c (bodyAt b 0 0xFC) ≠ BitVec.ofNat 32 (imageField b 0xFC 4) then some 0x12
  else if s.glb.fuses.authReq ∧ !imageSigned b then some 0x14
  else none

/-- The bodies of an image: offset and length of every section and overlay. [DESIGN CHOICE, log entry 44] -/
def bodies (b : List Byte) : List (Nat × Nat) :=
  (secTable b).map (fun e => (e.off, e.len)) ++ ((ovTable b).filter fun e => !e.absent).map (fun e => (e.off, e.len))

/-- Check 5: the SIGNATURE entry, the key hash, the signature and sec_version (R84). [DESIGN CHOICE, log entry 78] -/
def State.checkSignature (s : State) (b : List Byte) : Option Nat :=
  if !imageSigned b then none else
  match (secTable b).filter fun e => e.kind = 0xFE with
  | [e] =>
    if e.inst ≠ 0 ∨ e.len ≠ 128 ∨ e.crc ≠ 0 ∨ e.off + e.len ≠ imageLen b ∨ (bodies b).any (fun x => decide (e.off < x.1)) then some 0x16
    else
      let key := bodyAt b e.off 64
      if Config.sha256 key ≠ s.glb.fuses.keyHash then some 0x15
      else if !Config.ecdsaP256 key (Config.sha256 (b.take e.off)) (bodyAt b (e.off + 64) 64) then some 0x16
      else if imageField b 0x20 4 < s.glb.fuses.minVersion then some 0x17
      else none
  | _ => some 0x16

/-- No two byte ranges of the list overlap. -/
def apart : List (Nat × Nat) → Bool
  | [] => true
  | x :: t => t.all (fun y => decide (x.1 + x.2 ≤ y.1) || decide (y.1 + y.2 ≤ x.1) || y.2 == 0 || x.2 == 0) && apart t

/-- No pair of type and instance appears twice. -/
def distinctPairs (es : List SecEntry) : Bool := (es.map fun e => (e.kind, e.inst)).eraseDups.length == es.length

/-- The section table obeys R77, R78 and R530. [DESIGN CHOICE, log entry 44] -/
def sectionsOk (b : List Byte) : Bool :=
  let es := secTable b
  decide (1 ≤ sectionCount b) && decide (sectionCount b ≤ 512) && imageField b 0x18 4 % 16 == 0 && imageField b 0x1C 4 % 16 == 0
    && es.all (fun e => decide (e.inst < kindRange e.kind) && e.off % 16 == 0 && decide (e.off + e.len ≤ imageLen b))
    && distinctPairs es
    && ([1, 2, 3, 4, 0xF, 0xC, 0x11, 0x12].all fun k => es.any fun e => e.kind == k) && es.any (fun e => e.kind == 7)
    && (imageSigned b || es.all fun e => e.kind != 0xFE)
    && es.all (fun e => e.kind != 0x11 || decide (e.off + e.len ≤ 2 ^ 20))
    && apart ((0, 256) :: bodies b)

/-- The overlay table obeys R90. [DESIGN CHOICE, log entry 44] -/
def overlaysOk (b : List Byte) : Bool :=
  let os := ovTable b
  ((List.range 12).all fun m => os.any fun e => e.mode == m)
    && os.all fun e => decide (e.len ≤ 2 ^ 22) && (!e.absent || e.len == 0) && !(e.hasReplace && e.resident)
      && decide (e.off + e.len ≤ imageLen b ∨ e.len = 0)

/-- boot_modes obeys R103, and its needs_leave modes fit B_w beside F (20 R504). -/
def bootModesOk (b : List Byte) (cs : List SectionContent) : Bool :=
  let v := imageModes b
  let group := [hasMode v 0, hasMode v 1, hasMode v 2]
  let costs := ((ovTable b).filter fun e => hasMode v e.mode && e.needsLeave).map fun e =>
    getBits (contentReg cs 0xF (R.WEIR_MODE_COSTm e.mode)) 0 12
  !(hasMode v 6 && hasMode v 7) && group.any id && !(hasMode v 0 && (hasMode v 1 || hasMode v 2))
    && (ovTable b).all (fun e => !(hasMode v e.mode && e.absent))
    && decide (getBits (contentReg cs 0xF R.WEIR_RESERVE) 0 12 + costs.sum ≤ getBits (contentReg cs 0xF R.WEIR_BUDGET) 0 12)

/-- Check 6. [DESIGN CHOICE, log entry 44] -/
def checkTables (b : List Byte) (cs : List SectionContent) : Option Nat :=
  if sectionsOk b && overlaysOk b && bootModesOk b cs then none else some 0x18

/-- Check 7: the CRC of every section but SIGNATURE, and of every overlay. -/
def checkCrcs (b : List Byte) : Option Nat :=
  if (secTable b).all (fun e => e.kind == 0xFE || crc32c (bodyAt b e.off e.len) == e.crc)
      && (ovTable b).all (fun e => e.absent || crc32c (bodyAt b e.off e.len) == e.crc) then none
  else some 0x13

/-- Check 8: shadow_len fits the DRAM that the DRAM section describes. -/
def checkShadow (b : List Byte) (cs : List SectionContent) : Option Nat := if usableBytes cs < imageShadowLen b then some 0x19 else none

/-- A resident overlay holds only MASKED records, and only on settings fields (R91). -/
def residentOk (b : List Byte) (e : OvEntry) : Bool :=
  match recordsOf (bodyAt b e.off e.len) with
  | none => false
  | some rs => rs.all fun r => match r with
    | .masked a ps => decide (a < 0x1C0000) && (ps.zipIdx.all fun p => p.1.1 &&& ~~~ (settingsMask (a + 4 * p.2)) == 0)
    | _ => false

/-- The mask and value pairs of an overlay. -/
def pairCount (b : List Byte) (e : OvEntry) : Nat := ((recordsOf (bodyAt b e.off e.len)).getD []).flatMap Rec.words |>.length

/-- Check 9 (R91). -/
def checkResident (b : List Byte) : Option Nat :=
  let os := ovTable b
  let mine := os.filter fun e => e.resident
  if os.all (fun e => e.resident == (!e.absent && [1, 2, 8, 11].contains e.mode)) && os.all (fun e => e.mode != 11 || !e.absent)
      && mine.all (residentOk b) && decide ((mine.map (pairCount b)).sum ≤ 4096) then none
  else some 0x18

/-- The registers that hold the structural fields of the block instances (the RO fields of reset img): first instance, stride, count, offsets. -/
def structuralRegs : List (Nat × Nat × Nat × List Nat) :=
  [(R.ENGn_STATUS 0, 0x100, 34, [0, 8, 0x14, 0x18]), (R.MTX_INFO, 0x28, 1, [0, 0x24]), (R.CICn_CFG 0, 0x20, 80, [0, 8]),
   (2 ^ 40, 8, 1024, [4]), (R.BRG_PAIRp_CFG 0, 0x20, 6, [0]), (R.TDM_GRPg_CFG 0, 0x40, 4, [0]), (R.AMP_GRPa_CFG 0, 0x40, 4, [0, 0xC, 0x14]),
   (R.AMPc_CTRL 0, 0x40, 32, [8]), (R.CLK_DOMx_CFG 0, 0x40, 3, [0]), (R.TBn_CTRL 0, 0x80, 4, [0]), (R.STRM_TXn_CFG 0, 0x40, 256, [0, 0x28]),
   (R.STRM_RXn_CFG 0, 0x40, 256, [0, 0x28]), (R.LANEn_CFG 0, 0x80, 12, [0, 0xC]), (R.NRXk_CFG 0, 0x40, 4, [0, 0x10]),
   (R.DMA_CHc_CFG 0, 0x40, 32, [0])]

/-- Every instance of which the sections hold a register has all its structural fields (00 R18). An instance is assigned where a section names a
register of it. [DEDUCED, log entry 110] -/
def structureWhole (cs : List Content) : Bool :=
  let named := cs.flatMap fun c => c.regs.map (·.1)
  named.all fun a => structuralRegs.all fun r =>
    let i := (a - r.1) / r.2.1
    a < r.1 || decide (r.2.2.1 ≤ i) || r.2.2.2.all fun o => named.contains (r.1 + i * r.2.1 + o)

/-- A lock has 2 to 16 barges (01 R22), an egress lock 2 or 3 (02 R65). -/
def lockOk (q : LockSpec) : Bool :=
  let most := match q.consumer with | .tdm _ | .amp _ | .txStream _ => 3 | _ => 16
  decide (2 ≤ q.depth) && decide (q.depth ≤ most)

/-- Every receive stream that the sections hold has L of at least P + B (02 R70). -/
def linksOk (cs : List Content) : Bool :=
  let value := fun a => (cs.findSome? fun c => (c.regs.find? fun e => e.1 = a).map (·.2))
  let length := fun x => ((cs.flatMap (·.tickLength)).find? fun e => e.1 = x).map (·.2)
  (List.range 256).all fun n => match value (R.STRM_RXn_CFG n), value (R.STRM_RXn_LINK n) with
    | some cfg, some l => decide (getBits cfg 17 9 + 1 + (length (getBits cfg 27 2)).getD 0 ≤ getBits l 0 16)
    | _, _ => true

/-- The contents of sections and payloads keep to the rules on them: whole structure, lock depths, an inlet for every engine (04 R121; a tick source
where no other), link offsets. [DEDUCED, log entry 110] -/
def contentsOk (cs : List Content) : Bool :=
  structureWhole cs && cs.all (fun c => c.locks.all lockOk && c.engines.all fun e => e.inlets != []) && linksOk cs

/-- Check 10 on the sections; then the REGINIT stream (R80, code 0x1A). -/
def checkBodies (i : Image) : Option Nat :=
  let b := i.bytes
  if !contentsOk (i.sections.filterMap (·.content)) then some 0x1B
  else if (secTable b).any fun e => e.kind != 0x10 && e.kind != 0xFE && (contentOf i.sections e.kind e.inst).isNone then some 0x1B
  else match secEntry b 0x10 0 with
    | none => none
    | some e => match recordsOf (bodyAt b e.off e.len) with
      | none => some 0x1A
      | some rs => if rs.any (fun r => match r with | .replace _ _ _ _ => true | _ => false) then some 0x1A else none

/-- The payload content of an overlay's REPLACE. -/
def payloadOf (ps : List PayloadContent) (m kind inst : Nat) : Option Content :=
  (ps.find? fun p => p.mode = m ∧ p.kind = kind ∧ p.inst = inst).bind (·.content)

/-- The sections an overlay replaces, with their payloads. -/
def Overlay.contentsFrom (o : Overlay) (ps : List PayloadContent) : List SectionContent :=
  o.replaces.map fun r => ⟨r.kind, r.inst, payloadOf ps o.mode r.kind r.inst⟩

/-- The window word at `a` lies in a store that a REPLACE rewrites (03 R82; `bank`: the gain bank it fills): the program of its engine, the
rest of its engine's window, the bank. -/
def Replaced.covers (r : Replaced) (bank a : Nat) : Bool :=
  match r.kind with
  | 5 => targetOf a == 3 && (a - 0x10000000) / 0x40000 == r.inst && decide ((a - 0x10000000) % 0x40000 < 0x20000)
  | 6 => targetOf a == 3 && (a - 0x10000000) / 0x40000 == r.inst && decide (0x20000 ≤ (a - 0x10000000) % 0x40000)
  | 9 => targetOf a == 2 && (a - 0x20000000) / 0x400000 == bank
  | _ => false

/-- The window words of overlays in the order in which they write, without those that a later REPLACE of the same stream (03 R81) or of a
later overlay (R105) overrides. -/
def wordsInOrder (bank : Nat) : List Overlay → List (Nat × Word × Word)
  | [] => []
  | o :: t =>
    ((o.words.zipIdx.filter fun w => !(o.replaces.any fun r => decide (w.2 < r.words) && r.covers bank w.1.1)
        && !(t.any fun p => p.replaces.any fun r => r.covers bank w.1.1)).map (·.1)) ++ wordsInOrder bank t

/-- The overlays of boot_modes: their streams, then their payloads (R80, R82, R531). A mode of the pair boots as STANDBY (R103). -/
def checkBootOverlays (i : Image) : Option Nat :=
  let b := i.bytes
  let os := ((ovTable b).filter fun e => hasMode (imageModes b) e.mode).map (compileOverlay b)
  if os.any fun o => !o.valid then some 0x1A
  else if os.any fun o => o.replaces.any fun r => match payloadOf i.payloads o.mode r.kind r.inst with
      | none => true
      | some c => !contentsOk (c :: i.sections.filterMap (·.content)) then some 0x1B
  else none

/-- The first of the failures, in the order of R83; 0x01 where there is none. -/
def firstCode (l : List (Option Nat)) : Nat := (l.findSome? id).getD 1

/-- The checks of R83 in their order: the code of the first failure, or 0x01. A bad REGINIT or overlay stream is found after check 9 and the section
contents of check 10. [DESIGN CHOICE, log entry 122] -/
def State.imageCheck (s : State) (i : Image) : Nat :=
  let b := i.bytes
  firstCode [checkHeader b, s.checkAdmission b, s.checkSignature b, checkTables b i.sections, checkCrcs b, checkShadow b i.sections,
    checkResident b, checkBodies i, checkBootOverlays i]

end Sys2Proof.Machine
end

