-- ==== Sys2Proof/Machine/Balls.lean ====
section
/-!
DEFINITION. What the balls of the AIO bank, the GPIO balls, the lanes and the clock outputs carry (08 R223, R224, R228, R230; 09 R246; 10 R293; 13 R352;
18 R469):
roles, directions and levels, as the state decides them. Times within a frame are BCLK cycles from the active FS edge and halves of them; within a sample they are 1/2048 of it.
-/
namespace Sys2Proof.Machine

/-- A ball of the AIO bank (08 R224): its input buffer off and its output at high impedance with the weak pull-down; an input; or an output
with its level, none at high impedance. -/
inductive Ball where
  | unused | input | output (level : Option Bool)
  deriving DecidableEq, Repr

/-! ## Serial ports -/

/-- BCLK of a master group (08 R228, R230): data changes as a cycle begins and is sampled in its middle. -/
def bclkLevel (f : Word) (half : Nat) : Bool := (half == 1) != f.getLsbD 15

/-- FS of a master group in BCLK cycle `cell` of its frame (08 R228): one cycle, one slot or half a frame. -/
def fsLevel (f : Word) (cell : Nat) : Bool :=
  let len := match getBits f 11 2 with | 0 => 1 | 1 => fmtSlotWidth f | _ => fmtFrameBits f / 2
  decide (cell < len) != f.getLsbD 13

/-- Bit `pos` of a frame, counted from the first of slot 0, as the slots carry it (08 R228): MSB first; the rest of a slot and of the frame is 0. -/
def frameBit (f : Word) (slots : Nat → Option Sample) (pos : Nat) : Option Bool :=
  let c := pos / fmtSlotWidth f
  let i := pos % fmtSlotWidth f
  if fmtSlots f ≤ c then some false
  else (slots c).map fun x => decide (i < 24) && x.getLsbD (23 - i)

/-- SDO of port `p` in cycle `cell` of the frame in progress (08 R228, R241): with delay 1 the first cycle still carries the frame before; when
BCLK has stopped the level of its last cycle stands. [DEDUCED, log entry 114] -/
def State.sdoLevel (s : State) (p cell : Nat) : Option Bool :=
  let r := s.grp (p / 4)
  let cell := if s.tdmMaster (p / 4) then cell else r.stopAt.getD cell
  let delay := getBits r.fmt 14 1
  let line := fun (t : List (Nat × Option Sample)) (c : Nat) => Tab.get (fun _ => some 0) t (32 * p + c)
  if cell < delay then frameBit r.fmt (line s.tdm.prior) (fmtFrameBits r.fmt - 1) else frameBit r.fmt (line s.tdm.line) (cell - delay)

/-- The ball at an offset of a TDM group's section (08 R224, R230); until first audio SDO, BCLK and FS are at high impedance (21
R525), at the level-4 halt low (19 R486). -/
def State.tdmBall (s : State) (g offset cell half : Nat) : Ball :=
  let m := s.tdmMaster g
  let f := (s.grp g).fmt
  match offset with
  | 0 => if m then .output (if s.running then some (!s.halted && bclkLevel f half) else none) else .input
  | 1 => if m then .output (if s.running then some (!s.halted && fsLevel f cell) else none) else .input
  | 2 | 3 | 4 | 5 => .input
  | _ => .output (if !s.running then none else if s.halted then some false else s.sdoLevel (4 * g + (offset - 6)) cell)

/-! ## Amplifier groups -/

/-- The PWM ball of channel `c` (09 R246, R256, R261): high impedance outside boot and switching; low in boot and after a falling ramp; else its
level since the last edge, or the one the limit drives. -/
def State.pwmLevel (s : State) (c : Nat) : Option Bool :=
  let ch := s.amp c
  let k := s.rd (ampState c)
  if k = 1 then some false
  else if ampSwitching k then some (if ch.low then false else ch.forced.getD ch.level)
  else none

/-- The ball at an offset of an amplifier group (09 R246): SCLK, RAIL, DRV_EN, DRV_FLT_N, PWM and SEN; `half` is the half of the SCLK period. -/
def State.ampBall (s : State) (a offset half : Nat) : Ball :=
  if offset = 0 then .output (some (half == 0))
  else if offset = 2 then .output (some (s.is (R.AMP_GRPa_STATUS_drv_en a)))
  else if 4 ≤ offset ∧ offset < 12 then .output (s.pwmLevel (8 * a + (offset - 4)))
  else .input

/-- The group a section holds (08 R223; 09 R246): a TDM group by its section, amplifier group a in sections 2a and 2a + 1. -/
def State.sectionTdm (s : State) (sec : Nat) : Option Nat :=
  (List.range 4).find? fun g => s.tdmAssigned g && s.rd (R.TDM_GRPg_CFG_section g) == sec

/-- Ball AIO(n) of the bank (08 R223, R224). -/
def State.aioBall (s : State) (n cell half : Nat) : Ball :=
  match s.sectionTdm (n / 10) with
  | some g => s.tdmBall g (n % 10) cell half
  | none => if s.ampAssigned (n / 20) then s.ampBall (n / 20) (n % 20) half else .unused

/-! ## GPIO (18 R469) -/

/-- GPIOi by its role: unused, input, output, or event input. -/
def State.gpioBall (s : State) (i : Nat) : Ball :=
  match s.rd ⟨R.PAD_GPIO_ROLE, 2 * i, 2⟩ with
  | 0 => .unused
  | 2 => .output (some (s.is (bitAt R.PAD_GPIO_OUT i)))
  | _ => .input

/-! ## Serial lanes (13 R345, R352 to R357) -/

/-- What the transmit balls of a lane carry: electrical idle, the protocol's data, a generator's pattern and whether it is inverted, or the
recovered receive data of a far-end loop. -/
inductive LaneOut where
  | idle | protocol | pattern (code : Nat) (inverted : Bool) | recovered
  deriving DecidableEq, Repr

/-- A lane is idle until its bring-up starts, unused, and where R357 puts it there; a far-end loop prevails over a generator (R356). -/
def State.laneOut (s : State) (n : Nat) : LaneOut :=
  if s.laneState n = 0 ∨ s.is (R.LANEn_STATUS_tx_idle n) then .idle
  else if s.rd ⟨R.LANEn_LOOP n, 0, 2⟩ = 3 then .recovered
  else
    let k := s.rd (R.LANEn_PRBS_CTRL_gen_pat n)
    if patternOn k ∧ (s.lane n).genWaits = false then .pattern k (s.is (R.LANEn_PRBS_CTRL_gen_inv n)) else .protocol

/-- What the receiver and the protocol of a lane see: the receive balls, the lane's own serial output, or its own transmit words (R352). -/
inductive LaneIn where
  | balls | ownSerial | ownWords
  deriving DecidableEq, Repr

def State.laneIn (s : State) (n : Nat) : LaneIn :=
  match s.rd ⟨R.LANEn_LOOP n, 0, 2⟩ with | 1 => .ownSerial | 2 => .ownWords | _ => .balls

/-! ## Clock outputs (10 R293) -/

/-- MCLK_OUT0 to 2 and WCLK_OUT (outputs 0 to 3) at point `p` of 2048 of the sample of their domain: a clock of mult × fs, or one of fs, rising on
each sample edge; low before the domain starts, and at its inactive level while it is not enabled. -/
def State.clkOut (s : State) (o p : Nat) : Bool :=
  let half := if o = 3 then 1024 else match s.rd (R.CLK_OUTo_CFG_mult o) with | 0 => 16 | 1 => 8 | 3 => 2 | 4 => 1 | _ => 4
  let runs := s.started (s.rd (R.CLK_OUTo_CFG_src o)) && s.is (R.CLK_OUTo_CTRL_en o)
  if !s.started (s.rd (R.CLK_OUTo_CFG_src o)) then false
  else (runs && p / half % 2 == 0) != s.is (R.CLK_OUTo_CTRL_inv o)

end Sys2Proof.Machine
end

