-- ==== Sys2Proof/Machine/Samples.lean ====
section
/-!
DEFINITION. Locks, sample edges and the pipeline of a domain (01 R22 to R35; 02 R48 to R56): commits, crossings, captures, deadlines, the outputs
of one sample, and the start of a pipeline. Machine/Take.lean has what a tick boundary brings.
-/
namespace Sys2Proof.Machine

/-! ## Locks (01 R22 to R26, R34) -/

/-- BARGE_COMMIT (01 R23, R24): without credit nothing is committed. -/
def execBargeCommit (lock : Nat) (tick : Nat) (words : List Sample) (s : State) : Res := .next (s.commit lock ⟨tick, words⟩)

/-- CREDIT_RETURN (01 R23): the consumer has taken the last word of its oldest barge. [DESIGN CHOICE, log entry 3] -/
def execCreditReturn (lock : Nat) (s : State) : Res :=
  .next (match s.lock lock with
    | some k => (match k.present with | b :: _ => s.consume lock b.tick | [] => s)
    | none => s)

/-- An ECC result on a word of a barge (01 R47), for the memory that holds the barge: that of its consumer, or shared sample memory (06 R193). -/
def State.bargeEcc (s : State) (e : Endpoint) (ecc : Ecc) : State :=
  match e, ecc with
  | _, .clean => s
  | .engine n, ecc => s.engEcc n ecc
  | .bridge _, ecc => s.bridgeEcc ecc
  | .basin, e => s.bankEccEvent e
  | .filter, .corrected => s.filterCorrected
  | .filter, .uncorrectable => ((s.bump (highHalf R.FLC_ECC_COUNT)).raise R.FLC_INT_STATUS_ecc_uncorr).report 22 7 2
  | _, .corrected => ((s.bump (lowHalf R.RTR_ECC_COUNT)).raise R.RTR_INT_STATUS_ecc_corr).report 21 4 0
  | _, .uncorrectable => ((s.bump (highHalf R.RTR_ECC_COUNT)).raise R.RTR_INT_STATUS_ecc_uncorr).report 21 5 2

/-- The consumer no longer awaits tick `t`: a barge of it is late (01 R34). -/
def Lock.gaveUp (k : Lock) (t : Nat) : Bool := k.missed.any fun m => tagDistance m t = 0

/-- A late barge is discarded and its credit returns (01 R34); a late mirrored one clears sync (15 R397). -/
def State.discardLate (s : State) (l : Nat) : State :=
  match s.lock l with
  | some k =>
    match k.flight with
    | b :: rest =>
      if k.gaveUp b.tick then
        let s := s.setLock l { k with flight := rest, credit := min k.spec.depth (k.credit + 1),
                                      missed := k.missed.filter fun m => tagDistance m b.tick ≠ 0 }
        if s.mirrored && s.mirrorLocks.contains l then (s.raise R.FOV_INT_STATUS_mirror_late).loseSync else s
      else s
    | [] => s
  | none => s

/-- LATE_BARGE_DISCARD (01 R34). -/
def execLateBargeDiscard (lock : Nat) (s : State) : Res := .next (s.discardLate lock)

/-- The channel words of a barge of `n` channels. -/
def Barge.channel (b : Barge) (n c : Nat) : List Sample := (List.range (b.words.length / n)).map fun j => b.word n j c

/-- The filter chain takes the samples of a barge by destination number (07 R211, R217). -/
def State.filterTakes (s : State) (l : Nat) (k : Lock) (b : Barge) : State :=
  let n := k.spec.channels.length
  let s := k.spec.channels.zipIdx.foldl (fun s e => s.feedFromRouter e.1 b.tick (b.tick * (s.dom k.spec.domain).b) (b.channel n e.2)) s
  match s.lock l with
  | some k => s.setLock l { k with last := some b.tick }
  | none => s

/-- A duplicated feed gets the barge too (04 R130). -/
def State.feedCopies (s : State) (l : Nat) (b : Barge) : State :=
  (List.range 2).foldl (fun s u =>
    ((s.sub u).feeds.filter fun e => e.1 = l).foldl (fun s e => match s.lock e.2 with
      | some k => if k.credit = 0 then s else s.setLock e.2 { k with present := k.present ++ [b], credit := k.credit - 1 }
      | none => s) s) s

/-- A barge is present at its consumer: what the consumer does with it at once. -/
def State.arrives (s : State) (l : Nat) (k : Lock) (b : Barge) : State :=
  let s := (s.setLock l { k with flight := k.flight.drop 1, present := k.present ++ [b] }).noteExact l b
  match k.spec.consumer with
  | .engine _ => s.feedCopies l b
  | .router => s.retireSources
  | .filter => (s.filterTakes l k b).consume l b.tick
  | .nerax n => s.neraxPump n
  | _ => s

/-- LOCK_CROSSING_COMPLETE (01 R26, R34, R47): the oldest barge in flight is present; a late one is discarded. [DESIGN CHOICE, log entry 3] -/
def execLockCrossingComplete (lock : Nat) (ecc : List (Nat × Ecc)) (s : State) : Res :=
  .next (if s.halted then s else
    match s.lock lock with
    | none => s
    | some k =>
      match k.flight with
      | [] => s
      | b :: _ =>
        if k.gaveUp b.tick then s.discardLate lock
        else
          let words := b.words.zipIdx.map fun e => if ecc.contains (e.2, .uncorrectable) then 0 else e.1
          let s := (ecc.filter fun e => decide (e.1 < b.words.length)).foldl (fun s e => s.bargeEcc k.spec.consumer e.2) s
          s.arrives lock k { b with words := words })

/-- A consumer gives up tick `t` of a lock, with an overrun (01 R34). -/
def State.absentAt (s : State) (l t : Nat) (out : Bool) : State :=
  match s.lock l with
  | some k => (s.setLock l { k with missed := k.missed ++ [t] }).overrun k.spec.consumer out
  | none => s

/-! ## Egress (02 R54, R55, R70, R71) -/

/-- The tick an egress lock emits while the domain is in tick `k`; none before the pipeline has delivered (02 R54, R67). -/
def State.emitTick (s : State) (q : Lock) (k : Nat) : Option Nat :=
  let first := (s.dom q.spec.domain).first
  if first + q.spec.hops ≤ k then some (k - q.spec.hops) else none

/-- The fade of an egress path whose latency changes, at output sample `n` (03 R99; 02 R51): out before the boundary planned, zero until the
new pipeline delivers after the boundary of the change. [DEDUCED, log entry 49] -/
def State.pathFade (s : State) (q : Lock) (n : Nat) : Fade :=
  match q.refade with
  | none => .none
  | some (t, none) => if n + 32 < t then .none else if n < t then .out (n + 32 - t) else .zero
  | some (t, some u) =>
    let z := u + 2 * (s.dom q.spec.domain).b + 2
    if z + 32 ≤ n then .none else if z ≤ n then .into (n - z) else if n < t then .out (n + 32 - t) else .zero

/-- A barge under the fade of its path; a stream's sample of emit position E leaves with output sample E + 2. -/
def State.fadeBarge (s : State) (q : Lock) (at_ : Nat) (b : Barge) : Barge :=
  if q.refade.isNone then b
  else { b with words := b.words.zipIdx.map fun e => faded e.1 [s.pathFade q (at_ + e.2 / q.spec.channels.length + 2)] }

/-- The egress deadline of the current tick's barge: whole barges are taken, an absent one is handled (R55; 12 R332; 17 R441). -/
def State.egress (s : State) (l : Nat) : State :=
  match s.lock l with
  | none => s
  | some q =>
    let x := q.spec.domain.val
    let at_ := s.tick x * (s.dom x).b
    match s.emitTick q (s.tick x) with
    | none => s
    | some t =>
      match q.spec.consumer, s.awaits l t with
      | .txStream n, some b => (s.txStage n at_ (s.fadeBarge q at_ b)).consume l t
      | .delayLine d, some b => (s.dlineWrite d at_ b.words).consume l t
      | .tdm _, some _ | .amp _, some _ | .dma _, some _ | .nerax _, some _ => s
      | .delayLine d, none =>
        if q.gaveUp t then s else (s.absentAt l t true).dlineWrite d at_ (List.replicate (s.dom x).b 0)
      | .dma c, none =>
        if q.gaveUp t ∨ (s.chan c).taken ≠ some t then s
        else
          let s := s.absentAt l t true
          s.setChan c { s.chan c with zero := true }
      | .txStream _, none | .tdm _, none | .amp _, none | .nerax _, none => if q.gaveUp t then s else s.absentAt l t true
      | _, _ => s

/-- EGRESS_DEADLINE (02 R55; 01 R34). [DESIGN CHOICE, log entry 1] -/
def execEgressDeadline (lock : Nat) (s : State) : Res :=
  .next (if s.halted then s else match s.lock lock with
    | some q => if (s.dom q.spec.domain).b = 0 ∨ !s.started q.spec.domain then s else s.egress lock
    | none => s)

/-- The groups a source lock of the router feeds take its absent barge as zeros (06 R192). -/
def State.routerGivesUp (s : State) (l : Nat) : State :=
  s.router.hops.foldl (fun s h =>
    if (s.lacking h (s.hopNext h.lock)).any fun e => e.2.1 = l then s.via (execRouterDeadline h.lock) else s) s

/-- The filter chain takes zeros for the tick in compute (01 R34; 07 R211). -/
def State.filterGivesUp (s : State) (l : Nat) (k : Lock) : State :=
  let x := k.spec.domain.val
  let t := s.tick x - 1
  if s.tick x ≤ (s.dom x).first ∨ k.last.any (fun u => decide (t ≤ u)) ∨ k.gaveUp t then s
  else
    let s := s.filterTakes l k ⟨t, List.replicate (s.bargeWords k) 0⟩
    s.absentAt l t false

/-- CONSUMER_DEADLINE (01 R34, R35): by the consumer of the lock; absent barges are zeros, each an overrun. [DEDUCED, log entry 90] -/
def execConsumerDeadline (lock : Nat) (s : State) : Res :=
  .next (if s.halted then s else match s.lock lock with
    | none => s
    | some k =>
      if (s.dom k.spec.domain).b = 0 ∨ !s.started k.spec.domain then s else
      match k.spec.consumer with
      | .engine n => s.via (execEngineStartDeadline (Fin.ofNat 34 n))
      | .basin => s.via execBasinDeadline
      | .router => s.routerGivesUp lock
      | .bridge _ => s.flc.groups.zipIdx.foldl (fun s e => if e.1.input = lock then s.via (execBridgeInputTake e.2 []) else s) s
      | .filter => s.filterGivesUp lock k
      | _ => s.egress lock)

/-! ## Capture (02 R53) -/

/-- The units whose results a lock from the filter chain carries: the index within the class of each source (06 R186, R200; 07 R213, R219), decimators
from 0 and moving-average channels from 80 on. [DEDUCED, log entry 104] -/
def State.lockUnits (s : State) (k : Lock) : List Nat := k.spec.channels.map fun n => match s.srcDesc n with | some d => d.loc | none => 0

/-- The samples of tick `k` of such a unit, where they are complete (07 R213, R219). -/
def State.unitColumn (s : State) (u k b : Nat) : Option (List Sample) :=
  if 80 ≤ u then some (List.replicate b (s.maSource (u - 80) k))
  else
    let xs := (s.cic u).outs.filter fun e => decide (k * b ≤ e.1) && decide (e.1 < k * b + b)
    if xs.length = b then some (xs.map (·.2)) else none

/-- Words in sample-major order from columns of `b` samples (04 R117). -/
def sampleMajor (b : Nat) (cols : List (List Sample)) : List Sample :=
  (List.range b).flatMap fun j => cols.map fun c => c.getD j 0

/-- The capture barge of tick `k`, where it is complete, as its producer has it (R53; 07 R213; 12 R338; 16 R412; 17 R441). -/
def State.captured (s : State) (q : Lock) (k : Nat) : Option (List Sample) × State :=
  let b := (s.dom q.spec.domain).b
  match q.spec.producer with
  | .tdm _ => (if q.asm.length = s.bargeWords q then some q.asm else none, s)
  | .rxStream n => let (w, s) := s.rxBarge n k; (some w, s)
  | .delayLine l => s.dlineRead l k
  | .filter =>
    let us := s.lockUnits q
    let cols := us.map fun u => s.unitColumn u k b
    let s' := (us.filter (· < 80)).eraseDups.foldl (fun s n =>
      s.setCic n { s.cic n with outs := (s.cic n).outs.filter fun e => decide (k * b + b ≤ e.1) }) s
    (if cols.all (·.isSome) then some (sampleMajor b (cols.map fun c => c.getD [])) else none, s')
  | .dma c =>
    let s := if (s.chan c).taken = some k then s.setChan c { s.chan c with zero := true } else s
    (if q.asm.length = s.bargeWords q then some q.asm else none, s)
  | _ => (none, s)

/-- What a standby captures at its own balls but takes from the mirror link (15 R396). -/
def State.fromMirror (s : State) (l : Nat) : Bool := s.mirrored && s.mirrorLocks.contains l

/-- The capture barge of tick `k` is committed, or discarded without credit (R53; 01 R34). -/
def State.capture (s : State) (l : Nat) (q : Lock) (k : Nat) : State :=
  let (words, s) := s.captured q k
  let s := match s.lock l with | some q => s.setLock l { q with asm := [] } | none => s
  match words with
  | none => s
  | some w =>
    if s.fromMirror l then s
    else
      let s := s.mirrorBarge l k w
      if s.hasCredit l then s.commit l ⟨k, w⟩ else s.overrun q.spec.producer (q.spec.producer == .filter)

/-- CAPTURE_COMMIT (02 R53): 24 media-clock cycles after boundary k + 1; a bridge commits by its own row. -/
def execCaptureCommit (lock : Nat) (s : State) : Res :=
  .next (if s.halted then s else match s.lock lock with
    | none => s
    | some q =>
      let x := q.spec.domain.val
      if (s.dom x).b = 0 ∨ !s.started x ∨ s.tick x ≤ (s.dom x).first then s else s.capture lock q (s.tick x - 1))

/-! ## Fades of a domain (02 R51, R52) -/

/-- The fade at the sample edge of number `n`: it begins 32 samples before a coming boundary, and the outputs return once the zeros end. [DEDUCED, log entry 50] -/
def Domain.fadeAt (d : Domain) (n : Nat) : Fade :=
  let coming := match d.pendingB, d.realignAt with
    | some (t, _), _ => some t
    | none, some t => some t.toNat
    | none, none => none
  match coming with
  | some t => if n < t ∧ t ≤ n + 32 then .out (n + 32 - t) else if n < t then d.fade.pass else d.fade
  | none => if d.fade = .zero then (if d.zeroTo ≤ n then .into 0 else .zero) else d.fade.pass

/-- After a boundary the outputs of the domain carry zeros until the new pipeline delivers (R51, R52). [DEDUCED, log entry 50] -/
def State.zeroOutputs (s : State) (x : Nat) : State :=
  let d := s.dom x
  s.setDom x { d with fade := .zero, zeroTo := d.first * d.b + 2 * d.b + 2 }

/-- An engine of the domain waits at the gate of tick `k` of the new pipeline. -/
def State.engineRestarts (s : State) (n k : Nat) : State :=
  let st := s.engState n
  let s := s.setEng n { s.eng n with tick := k, read := [], absent := [], dropped := [], sent := [], complete := [], committed := [],
                                     late := false, lateNext := false }
  if st = 3 then s.setEngState n 2 else s

/-- The pipeline of a domain starts with its first whole tick (10 R292): locks are empty with full credit, and every consumer awaits that tick. -/
def State.startPipeline (s : State) (x : Nat) : State :=
  let d := s.dom x
  let k := ceilDiv d.sample.toNat d.b
  let s := s.setDom x { d with first := k }
  let mine := s.locksWhere fun q => q.spec.domain.val = x
  let s := mine.foldl (fun s l => s.clearLock l) s
  let s := (List.range 34).foldl (fun s n => if s.engDomain n = x then s.engineRestarts n k else s) s
  let s := if s.mtxDomain = x then s.setBasin { s.basin with tick := k, sums := [], done := [], zero := [], wasZero := if k = 0 then [] else List.range s.basin.ins.length } else s
  let groups := s.router.hops.filter fun h => mine.contains h.lock
  let sources := mine.filter fun l => match s.lock l with | some q => q.spec.consumer = .router | none => false
  let s := s.setRouter { s.router with
    next := groups.foldl (fun t h => Tab.set (fun _ => 0) t h.lock k) s.router.next
    kept := s.router.kept.filter fun e => !mine.contains e.1
    absent := (s.router.absent.filter fun e => !mine.contains e.1) ++
      (if k = 0 then [] else groups.flatMap fun h => sources.map fun l => (h.lock, l, k - 1)) }
  let s := s.flc.groups.zipIdx.foldl (fun s e =>
    let r := s.brun e.2
    let r := if pairIn e.1.pair = x then { r with nextIn := k } else r
    s.setBrun e.2 (if pairOut e.1.pair = x then { r with nextOut := k } else r)) s
  let s := (List.range 6).foldl (fun s p => s.pairRealigned p x) s
  let s := (s.rxStreams.filter fun e => s.rd (R.STRM_RXn_CFG_domain e.1) = x).foldl (fun s e => s.setRx e.1 { e.2 with slots := [], next := k }) s
  (s.txStreams.filter fun e => s.txDomain e.1 = x).foldl (fun s e => s.setTx e.1 { e.2 with
    stage := [], start := e.2.start.map fun _ => k * (s.dom x).b, stop := e.2.stop.map fun _ => 0 }) s

/-- DOMAIN_REALIGNMENT (02 R51; 10 R292): the counter takes the number of the time base; samples before the first new boundary belong to no tick. [DEDUCED, log entry 89] -/
def execDomainRealignment (x : DomIx) (s : State) : Res :=
  .next (let d := s.dom x
    match d.realignAt with
    | none => s
    | some t =>
      if t ≠ d.sample ∨ !s.atBoundary x then s else
      let drift := s.numberDrift x
      let new := d.sample - BitVec.ofInt 64 drift
      let s := (s.setDom x { d with sample := new, realignAt := none }).setFov { s.fov with
        releasedAt := s.fov.releasedAt.map fun e => if e.1 = x.val ∧ e.2 ≤ d.sample.toNat then (e.1, 0) else e }
      let s := (s.basinRenumber x drift).tdmRenumber x drift
      let s := ((s.startPipeline x).zeroOutputs x).wr (R.CLK_DOMx_STATUS_realign_pending x) 0
      (s.raise (R.CLK_DOMx_INT_STATUS_realigned x)).judgeAligned x)

/-! ## One sample of the ports (02 R53, R56; 06 R195, R196; 08; 09 R250) -/

/-- The sample that an egress lock releases for channel `ch` of `e` at emit position `pos`; zero where the barge is absent (01 R27, R34). -/
def State.released (s : State) (e : Endpoint) (ch pos : Nat) : Sample :=
  match s.locks.findSome? fun p => match p.2 with
    | some q => if q.spec.consumer = e ∧ q.spec.channels.contains ch then some (p.1, q) else none
    | none => none with
  | none => 0
  | some (l, q) =>
    let b := (s.dom q.spec.domain).b
    match (s.emitTick q (pos / b)).bind (s.awaits l) with
    | some bg =>
      -- a TDM output's sample is on the line one sample after it is loaded (R56)
      let n := (s.dom q.spec.domain).sample.toNat + (match e with | .tdm _ => 1 | _ => 0)
      -- the barge carries the destinations of its router group in their order (06 R186, R192; 09 R246)
      let at_ := match s.hop l, e with
        | some h, .tdm _ => h.dests.idxOf ch
        | some h, .amp _ => h.dests.idxOf (0x0E00 + ch)
        | _, _ => q.spec.channels.idxOf ch
      faded (bg.word q.spec.channels.length (pos % b) at_) [s.pathFade q n]
    | none => 0

/-- The feed whose content an output carries, or that fades out of it (06 R194, R197). -/
def State.feedAt (s : State) (amp : Bool) (out : Nat) : Option Nat :=
  (s.feeds.find? fun e => e.2.amp == amp && e.2.out == out && (fmpActive e.2.mode || e.2.fadeFrom.isSome)).map (·.1)

/-- The sample of an output at emit position `pos`: the router's, with a fast monitor feed over it; `frame` is the input frame of R196 (06). [DEDUCED, log entry 91] -/
def State.outputSample (s : State) (amp : Bool) (out pos : Nat) (frame : List (Nat × Sample)) : Sample × State :=
  let r := s.released (if amp then .amp (out / 8) else .tdm (out / 128)) out pos
  match s.feedAt amp out with
  | none => (r, s)
  | some n => let (v, sat) := s.fmpOut n frame r; (v, s.fmpSaturates n sat)

/-- The channels of the TDM groups of a domain that exist. -/
def State.tdmChannels (s : State) (x : Nat) : List Nat :=
  (s.tdmGroupsOf x).flatMap fun g => ((List.range 128).map fun i => 128 * g + i).filter s.slotExists

/-- The AMP channels of a domain: the main channel of each. -/
def State.ampChannels (s : State) (x : Nat) : List Nat :=
  (List.range 32).filter fun c => s.ampAssigned (c / 8) && s.rd (R.AMP_GRPa_CFG_domain (c / 8)) == x && s.ampMain c == c

/-- The output frame that begins carries the holding registers; they load emit position `pos` (R56; 08 R228, R236). -/
def State.tdmOutputs (s : State) (x pos : Nat) (frame : List (Nat × Sample)) : State :=
  let s := (s.tdmGroupsOf x).foldl (fun s g => s.tdmBegins g) s
  let chs := s.tdmChannels x
  let s := chs.foldl (fun s ch =>
    let held := Tab.get (fun _ => 0) s.tdm.hold ch
    let line := Tab.get (fun _ => some 0) s.tdm.line ch
    let (v, s) := s.outputSample false ch pos frame
    s.setTdm { s.tdm with words := Tab.set (fun _ => 0) s.tdm.words ch held, hold := Tab.set (fun _ => 0) s.tdm.hold ch v
                          prior := Tab.set (fun _ => some 0) s.tdm.prior ch line }) s
  s.formLine chs

/-- The AMP channels take emit position `pos` (R56; 09 R250). -/
def State.ampOutputs (s : State) (x pos : Nat) (frame : List (Nat × Sample)) : State :=
  (s.ampChannels x).foldl (fun s c =>
    let (v, s) := s.outputSample true c pos frame
    s.ampTake c (faded v [(s.dom x).fade])) s

/-- The last sample of an egress barge has been released: its credit returns (01 R23, R27). -/
def State.releaseEnds (s : State) (x pos : Nat) : State :=
  let b := (s.dom x).b
  if (pos + 1) % b ≠ 0 then s else
  (s.locksWhere fun q => q.spec.domain.val = x && (match q.spec.consumer with | .tdm _ | .amp _ => true | _ => false)).foldl (fun s l =>
    match s.lock l with
    | some q => (match s.emitTick q (pos / b) with | some t => s.consume l t | none => s)
    | none => s) s

/-- The input frame of sample `n` of the domain ends: its words are captured (R53; 08 R229, R240). [DEDUCED, log entry 91] -/
def State.tdmInputs (s : State) (x n : Nat) (inputs : List (Nat × List Bool)) : State :=
  let b := (s.dom x).b
  let bits := fun (ch : Nat) => match inputs.find? (fun e => e.1 = ch / 32) with | some e => e.2 | none => []
  let chans := s.tdmChannels x
  let frame := (chans.map fun ch => (ch, s.tdmInput ch n (bits ch))).filter fun e => e.2 ≠ 0
  let kept := chans.map fun ch => (ch, s.tdmKeep ch n (bits ch))
  let s := s.setTdm { s.tdm with last := kept.foldl (fun t e => Tab.set (fun _ => 0) t e.1 e.2) s.tdm.last }
  let s := { s with frames := Tab.set (fun _ => []) s.frames x frame }
  if n / b < (s.dom x).first then s else
  (s.locksWhere fun q => q.spec.domain.val = x && (match q.spec.producer with | .tdm _ => true | _ => false)).foldl (fun s l =>
    match s.lock l with
    | none => s
    | some q =>
      let words := q.spec.channels.map fun ch => match frame.find? (fun e => e.1 = ch) with | some e => e.2 | none => 0
      let old := if n % b = 0 then [] else q.asm
      if old.length = n % b * q.spec.channels.length then s.setLock l { q with asm := old ++ words } else s) s

/-- The feeds whose output lies in domain `x`. -/
def State.feedsOf (s : State) (x : Nat) : List Nat :=
  (s.feeds.filter fun e => (if e.2.amp then s.rd (R.AMP_GRPa_CFG_domain (e.2.out / 8)) else s.tdmDomain (e.2.out / 128)) == x).map (·.1)

/-- A sample edge brings number `n` (02 R49): the fade of the domain, the outputs, and the input frame of sample n − 1 that has ended. [DEDUCED, log entry 89] -/
def State.samplePasses (s : State) (x n : Nat) (inputs : List (Nat × List Bool)) : State :=
  let frame := Tab.get (fun _ => []) s.frames x
  let s := if n = 0 then s else ((s.tdmOutputs x (n - 1) frame).ampOutputs x (n - 1) frame).releaseEnds x (n - 1)
  let s := if n = 0 then s else (s.tdmGroupsOf x).foldl (fun s g => s.tdmPass g (n - 1)) (s.tdmInputs x (n - 1) inputs)
  let s := (s.feedsOf x).foldl (fun s f => s.fmpPass f) s
  if (s.dom x).fade = .none ∨ n < 2 then s
  else (s.txStreams.filter fun e => s.txDomain e.1 = x).foldl (fun s e => s.txFade e.1 (n - 2) (s.dom x).fade) s

/-- SAMPLE_EDGE (02 R49, R51 to R53, R56). `inputs` are the bits of the input frame that has ended, by port, from the first bit of slot 0 on (08 R228).
Under the level-4 halt the count runs on alone (19 R488). [DEDUCED, log entry 89] -/
def execSampleEdge (x : DomIx) (inputs : List (Nat × List Bool)) (s : State) : Res :=
  .next (let d := s.dom x
    if !s.started x ∨ d.b = 0 then s else
    let n := if d.fresh then d.sample else d.sample + 1
    let s := s.setDom x { d with sample := n, fresh := false, fade := d.fadeAt n.toNat }
    if s.halted then s else ((s.samplePasses x n.toNat inputs).basinBoundary x).shBoundaryTakes x true)

end Sys2Proof.Machine
end

