-- ==== Sys2Proof/Machine/Install.lean ====
section
/-!
DEFINITION. How the content of a section comes into the blocks: by the loader at boot, and live at a take or a replacement (03 R78, R82, R89, R92;
01 R22; 02 R52; 04 R121, R125, R132; 06 R177). Register values come through the layers (Machine/Effects.lean); this file has the rest.
-/
namespace Sys2Proof.Machine

/-! ## Window words (03 R79, R561) -/

/-- A masked word into an engine, bank or sample memory window, no rule against it. -/
def State.putWindow (s : State) (a : Nat) (mask v : Word) : State :=
  match targetOf a with
  | 3 =>
    let n := (a - engineWindow 0) / 0x40000
    let o := (a - engineWindow 0) % 0x40000
    let old := (s.windowRead n o).1
    s.windowPut n o ((old &&& ~~~ mask) ||| (v &&& mask))
  | 2 =>
    let o := a - bankWindow
    let b := o / 0x400000
    let node := o % 0x400000 / 4
    let old := (s.basin.now.word b node).signExtend 32
    if s.inShape node then
      s.putGain b node (((old &&& ~~~ mask) ||| (v &&& mask)).setWidth 24)
    else s
  | 1 =>
    let old := BitVec.ofNat 32 (leNat (s.ssmBytes (a - ssmBase) 4))
    s.setSsmBytes (a - ssmBase) (leBytes 4 ((old &&& ~~~ mask) ||| (v &&& mask)).toNat)
  | _ => s

/-- The rate domain at whose boundary a window word of a take is written (R92). -/
def State.windowDomain (s : State) (a : Nat) : Nat :=
  match targetOf a with
  | 3 => let x := s.engDomain ((a - engineWindow 0) / 0x40000); if x = 3 then s.takeDom else x
  | 2 => s.mtxDomain
  | _ => s.takeDom

/-! ## Structure -/

/-- A lock fresh from the image: empty, its credit at its depth (01 R22). -/
def newLock (q : LockSpec) : Lock := ⟨q, q.depth, [], [], [], [], none, none⟩

/-- The consumer of a lock while a reserve carries the work of an engine (04 R132). [DEDUCED, log entry 54] -/
def State.carried (s : State) (e : Endpoint) : Endpoint := match e with | .engine n => .engine (s.carrier n) | e => e

/-- The lock topology of domain `x`: a lock whose entry is unchanged keeps what it holds, another is cleared; locks no longer named go, but the
duplicated feeds of a substitution stay (01 R22; 04 R130). -/
def State.placeLocks (s : State) (x : Nat) (qs : List LockSpec) : State :=
  let gone := s.locks.filter fun e => decide (e.1 < 2 ^ 20) && (e.2.any fun k => k.spec.domain.val == x) && !qs.any fun q => q.id == e.1
  let s := gone.foldl (fun s e => s.dropLock e.1) s
  (qs.filter fun q => q.domain.val = x).foldl (fun s q =>
    let q := { q with consumer := s.carried q.consumer }
    match s.lock q.id with
    | some k => if k.spec = q then s else s.setLock q.id { newLock q with refade := k.refade }
    | none => s.setLock q.id (newLock q)) s

/-- A take that changes the program, clock, domain or schedule of engine `n` aborts its substitution (04 R132). [DEDUCED, log entry 54] -/
def State.engineChanges (s : State) (n : Nat) : State :=
  (List.range 2).foldl (fun s u => if s.subTarget u = n ∧ s.subState u ≠ 0 then s.substAbort u else s) s

/-- The bindings of an engine (04 R117, R121), or of the reserve that carries its work. [DEDUCED, log entry 54] -/
def State.placeEngine (s : State) (e : EngineSpec) : State :=
  let n := s.carrier e.engine
  let old := s.eng n
  if old.inlets = e.inlets ∧ old.outlets = e.outlets ∧ old.paramOn = e.paramPages then s
  else (s.setEng n { old with inlets := e.inlets, outlets := e.outlets, paramOn := e.paramPages }).engineChanges e.engine

/-- Words of a program page. -/
def putPage (prog : List (Nat × BitVec 48)) (page : Nat) (words : List (BitVec 48)) : List (Nat × BitVec 48) :=
  words.zipIdx.foldl (fun t e => Tab.set (fun _ => 0) t (8192 * page + e.2) e.1) (prog.filter fun e => e.1 / 8192 ≠ page)

/-- A program page at boot: page 0, the current one (04 R111). -/
def State.loadProgram (s : State) (n : Nat) (words : List (BitVec 48)) : State :=
  s.setEng n { s.eng n with prog := putPage (s.eng n).prog (s.rd (R.ENGn_PAGE_cur n)) words }

/-- A REPLACE of ENGPROG: the idle page, current from the first gate at or after this boundary (03 R82; 04 R125, R132). -/
def State.takeProgram (s : State) (inst : Nat) (words : List (BitVec 48)) : State :=
  let n := s.carrier inst
  let page := 1 - s.rd (R.ENGn_PAGE_cur n)
  let s := s.setEng n { s.eng n with prog := putPage (s.eng n).prog page words, stagingPage := false }
  let s := if (s.eng n).swapAt = [] then s else s.raise (R.ENGn_INT_STATUS_page_lost n)
  let s := if s.gateless n then (s.setEng n { s.eng n with swapAt := [] }).pageTurns n
    else (s.wr (R.ENGn_PAGE_pending n) 1).setEng n { s.eng n with swapAt := [s.tick (s.engDomain n)] }
  s.engineChanges inst

/-- The words of an ENGDATA section for its engine (R78); the carrier takes them at a take (04 R132). [DEDUCED, log entry 54] -/
def State.placeData (s : State) (inst : Nat) (ws : List (Nat × Word)) : State :=
  let n := s.carrier inst
  ws.foldl (fun s w => if engineWindow inst ≤ w.1 ∧ w.1 < engineWindow (inst + 1) then s.imageWord n (w.1 - engineWindow inst) w.2 else s) s

/-- A gain bank: the named nodes of the shape, every other node 0 (03 R82; 06 R177). [DESIGN CHOICE, log entry 58] -/
def bankOf (gs : List (Nat × Nat × Sample)) : List (Nat × Sample) :=
  gs.foldl (fun t g => Tab.set (fun _ => 0) t (g.1 * 1024 + g.2.1) g.2.2) []

/-- The inactive gain bank gets the gains of a section (06 R177). -/
def State.stageGains (s : State) (c : Content) : State :=
  let g := s.basin.now
  s.setGains (g.setBank (1 - g.bank) (bankOf c.gains))

/-- A REPLACE of basin gains at its take (06 R177): the inactive bank is replaced and a scene take occurs; a pending software take or copy
is cancelled. [DESIGN CHOICE, log entry 58; DEDUCED, log entry 76] -/
def State.takeGains (s : State) (c : Content) : State :=
  let b := s.basin
  let cancelled := b.take.isSome || s.is R.MTX_STATUS_copy_busy
  let s := (s.setBasin { b with staging := false, take := none, touched := [] }).wr R.MTX_STATUS_take_pending 0
  let s := s.wr R.MTX_STATUS_copy_busy 0
  let s := if cancelled then s.raise R.MTX_INT_STATUS_bank_lost else s
  (s.stageGains c).sceneTake (s.atLeastMin c.crossfade)

/-- The tick length of a domain changes (02 R52): the pipeline starts anew and its outputs are zero until it delivers. -/
def State.changeB (s : State) (x b : Nat) : State :=
  if (s.dom x).b = b then s
  else ((s.setDom x { s.dom x with b := b, pendingB := none }).startPipeline x).zeroOutputs x

/-- Delay lines of domain `x` (16 R412): a line whose entry is unchanged keeps its ring. -/
def State.placeDelays (s : State) (x : Nat) (ds : List DelaySpec) : State :=
  let gone := s.dmc.lines.filter fun e => (e.2.any fun d => d.spec.domain.val == x) && !ds.any fun d => d.line == e.1
  let s := gone.foldl (fun s e => s.setDline e.1 none) s
  (ds.filter fun d => d.domain.val = x).foldl (fun s d => match s.dline d.line with
    | some l => if l.spec = d then s else s.setDline d.line (some { spec := d })
    | none => s.setDline d.line (some { spec := d })) s

/-- Descriptors of domain `x` from `new`, with those that other domains keep. -/
def mergeDescs (x : Nat) (old new : List DescSpec) : List DescSpec :=
  let mine := new.filter fun d => d.domain = x
  mine ++ old.filter fun d => decide (d.domain ≠ x) && !mine.any fun e => e.number == d.number

/-- The domain of a lock; 3 for none. -/
def State.lockDomain (s : State) (l : Nat) : Nat := match s.lock l with | some k => k.spec.domain.val | none => 3

/-- The router's tables of domain `x` (06 R186 to R188). A group that is new awaits the tick that begins, its sources absent in the tick before. [DEDUCED, log entry 55] -/
def State.placeRouter (s : State) (x : Nat) (c : Content) : State :=
  let r := s.router
  let hops := (c.hops.filter fun h => s.lockDomain h.lock = x)
  let fresh := hops.filter fun h => !r.hops.any fun g => g.lock == h.lock
  let k := s.tick x
  let sources := s.locksWhere fun q => q.spec.domain.val == x && q.spec.consumer == .router
  s.setRouter { r with
    sources := mergeDescs x r.sources c.sources, dests := mergeDescs x r.dests c.dests
    hops := hops ++ r.hops.filter fun h => decide (s.lockDomain h.lock ≠ x) && decide (s.lockDomain h.lock < 3)
    next := fresh.foldl (fun t h => Tab.set (fun _ => 0) t h.lock k) r.next
    absent := r.absent ++ (if k = 0 then [] else fresh.flatMap fun h => sources.map fun l => (h.lock, l, k - 1)) }

/-- Bridge groups (07 R202): a pair with a group acquires; one without is idle (07 R222). -/
def State.placeBridges (s : State) (gs : List BridgeSpec) : State :=
  let s := if s.flc.groups = gs then s else
    let s := s.setFlc { s.flc with groups := gs, runs := [] }
    gs.zipIdx.foldl (fun s e =>
      s.setBrun e.2 { s.brun e.2 with nextIn := s.tick (pairIn e.1.pair), nextOut := s.tick (pairOut e.1.pair) }) s
  (List.range 6).foldl (fun s p =>
    let used := gs.any fun g => g.pair = p
    if used ∧ s.rd (pairState p) = 0 then s.wr (pairState p) 1 else if !used then s.wr (pairState p) 0 else s) s

/-- Moving-average channels in use: those the content configures. -/
def maChannels (c : Content) : List Nat := ((c.regs.filter fun e => 2 ^ 40 ≤ e.1).map fun e => (e.1 - 2 ^ 40) / 8).eraseDups

/-- What a section holds of domain `x` apart: its locks, its part of the router's tables, its delay lines and its tick length. -/
def holdsDomain (c : Content) (x : Nat) : Bool :=
  !c.locks.isEmpty || !c.sources.isEmpty || !c.dests.isEmpty || !c.hops.isEmpty || !c.delays.isEmpty || c.tickLength.any fun e => e.1 == x

/-- The structure of domain `x`: a list the section does not carry leaves the block as it is. [DEDUCED, log entry 53] -/
def State.placeDomain (s : State) (x : Nat) (c : Content) : State :=
  let s := if c.locks.isEmpty then s else s.placeLocks x c.locks
  let s := if c.sources.isEmpty ∧ c.dests.isEmpty ∧ c.hops.isEmpty then s else s.placeRouter x c
  if c.delays.isEmpty then s else s.placeDelays x c.delays

/-- The structure of a section that no register shows and no one domain holds. [DESIGN CHOICE, log entry 58] -/
def State.placeStructure (s : State) (kind : Nat) (c : Content) : State :=
  let s := c.engines.foldl (fun s e => s.placeEngine e) s
  let s := if c.basinIn.isEmpty ∧ c.basinOut.isEmpty then s else s.setBasin { s.basin with ins := c.basinIn, outs := c.basinOut }
  let s := if c.bridges.isEmpty then s else s.placeBridges c.bridges
  let s := if kind = 0xB then { s with legs := c.legs } else s
  let s := if kind = 0xE then { s with fov := { s.fov with exact := c.exact, mirrored := c.mirrored } } else s
  if maChannels c = [] then s else s.setFlc { s.flc with channels := maChannels c }

/-- The loader applies a section (21 R531): its structure, its words, its program or its gains into the stores in use. -/
def State.loadSection (s : State) (kind inst : Nat) (c : Content) : State :=
  let s := c.tickLength.foldl (fun s e => s.setDom e.1 { s.dom e.1 with b := e.2 }) s
  let s := ([0, 1, 2].foldl (fun s x => s.placeDomain x c) s).placeStructure kind c
  let s := if kind = 5 then s.loadProgram inst c.program else s
  let s := if kind = 9 then (s.setGains (s.basin.now.setBank 0 (bankOf c.gains))).basinStarts else s
  if kind = 6 then s.placeData inst c.words else c.words.foldl (fun s w => s.putWindow w.1 0xFFFFFFFF w.2) s

/-- The part of a section that domain `x` holds takes effect at its boundary (03 R93). -/
def State.takeDomainPart (s : State) (x : Nat) (c : Content) : State :=
  (c.tickLength.filter fun e => e.1 = x).foldl (fun s e => s.changeB e.1 e.2) (s.placeDomain x c)

/-- The rest of a section takes effect live, at the boundary of its domain (03 R82, R92). [DEDUCED, log entry 53] -/
def State.takeSection (s : State) (kind inst : Nat) (c : Content) : State :=
  let s := s.placeStructure kind c
  let s := if kind = 5 then s.takeProgram inst c.program else s
  let s := if kind = 9 then s.takeGains c else if kind = 10 then s.takeBanks c else s
  if kind = 6 then s.placeData inst c.words else c.words.foldl (fun s w => s.putWindow w.1 0xFFFFFFFF w.2) s

/-- The domain at whose boundary a section of a take comes into effect (03 R93). -/
def State.sectionDomain (s : State) (kind inst : Nat) : Nat :=
  match kind with
  | 5 | 6 => let x := s.engDomain (s.carrier inst); if x = 3 then s.takeDom else x
  | 7 => inst
  | 9 => s.mtxDomain
  | _ => s.takeDom

/-- The part of a FILTERS section whose coefficients lie in domain `x` (03 R93). -/
def State.coefsOf (s : State) (x : Nat) (c : Content) : Content := { c with coefs := c.coefs.filter fun e => s.rd (R.CICn_CFG_domain e.1) == x }

/-! ## The image layer (03 R87) -/

/-- Coefficients of an image go into bank 0, the active one after a load (07 R214, R221). [DEDUCED, log entry 104] -/
def coefWrites (c : Content) : List OvWrite :=
  c.coefs.flatMap fun e => e.2.zipIdx.map fun w => ⟨R.FIR_COEF (firIndex e.1 0 w.2), 0xFFFFFF, w.1.setWidth 32⟩

/-- The register values of the image: what each section gives, the routes among them, then the REGINIT stream on settings bits. -/
def imageRegisters (i : Image) : List (Nat × Word) :=
  let fields := i.sections.flatMap fun sc => match sc.content with
    | some c => (coefWrites c) ++ (contentWrites sc.kind { c with dests := i.sections.flatMap fun e => match e.content with | some c => c.dests | none => [] })
    | none => []
  let init := match secEntry i.bytes 0x10 0 with
    | some e => streamWrites ((recordsOf (bodyAt i.bytes e.off e.len)).getD [])
    | none => []
  let t := fields.foldl (fun t w => Tab.set resetValue t w.addr ((Tab.get resetValue t w.addr &&& ~~~ w.mask) ||| (w.value &&& w.mask))) []
  init.foldl (fun t w =>
    let m := w.mask &&& settingsMask w.addr
    Tab.set resetValue t w.addr ((Tab.get resetValue t w.addr &&& ~~~ m) ||| (w.value &&& m))) t

/-- The window words of the REGINIT stream. -/
def imageWords (i : Image) : List (Nat × Word × Word) :=
  match secEntry i.bytes 0x10 0 with
  | some e => streamWords ((recordsOf (bodyAt i.bytes e.off e.len)).getD [])
  | none => []

/-- Every section in the order of R531, step 6 (21). -/
def sectionOrder : List Nat := [0x11, 1, 2, 3, 4, 0xC, 0x12, 0xF, 0xD, 0xE, 5, 6, 7, 8, 9, 0xA, 0x13, 0xB]
def inOrder (cs : List SectionContent) : List SectionContent := sectionOrder.flatMap fun k => cs.filter fun c => c.kind = k

/-- A route entry in effect at boot, delayed by R187 (06). [DEDUCED, log entry 55] -/
def State.bootRoutes (s : State) : State :=
  s.router.dests.foldl (fun s d =>
    s.wr (R.RTR_ROUTEd_delayed d.number) (b2n (s.isDelayed d.number (s.rd (R.RTR_ROUTEd_src d.number))))) s

/-- The settings of the image are in effect in the blocks, without a fade, before first audio. -/
def State.bootSettings (s : State) : State :=
  let s := s.bootRoutes
  let s := (List.range 4).foldl (fun s g =>
    if s.tdmAssigned g then (s.setGrp g { s.grp g with fmt := s.reg (R.TDM_GRPg_FMT g) }).slotsFollow g else s) s
  (List.range 64).foldl (fun s n =>
    let term := fun (k : Nat) =>
      let src := s.reg (fmpSrc n k)
      let gain := if getBits src 31 1 = 1 then s.fmpGainOf n k else 0
      (k, ({ source := getBits src 0 9, on := getBits src 31 1 == 1, g0 := gain, g1 := gain } : FmpTerm))
    let f : Feed := { mode := s.rd (R.FMPn_CTRL_mode n), amp := s.is (R.FMPn_CTRL_amp n), out := s.rd (R.FMPn_CTRL_out n) }
    let f := [0, 1, 2, 3].foldl (fun f k => f.setTerm k (term k).2) f
    if f = {} then s else s.setFeed n f) s

end Sys2Proof.Machine
end

