-- ==== Sys2Proof/Machine/Boot.lean ====
section
/-!
DEFINITION. The loader (21 R526 to R533): an attempt on a boot source, the image applied, the wait for the clocks, and first audio.
-/
namespace Sys2Proof.Machine

/-- BOOT[1:0] as sampled (R524). [DESIGN CHOICE, log entry 7] -/
def State.bootStrap (s : State) : Nat := s.rd ⟨R.GLB_STRAP, 0, 2⟩

/-- The source of the next attempt (R526): 0 QSPI slot 0, 1 QSPI slot 1, 2 host push, 3 Nerax; none while halted. -/
def State.bootSource (s : State) : Option Nat :=
  if s.rd R.GLB_BOOT_STATUS_state = 8 then some 2 else
  match s.bootStrap with
  | 0 => some (min 1 s.glb.attempts)
  | 1 => some 2
  | 2 => some 3
  | _ => none

/-- No load is complete: the loader still makes attempts. -/
def State.mayLoad (s : State) : Bool := !s.is R.CFG_STATUS_loaded && s.bootSource.isSome

/-- Awaiting push after every QSPI attempt has failed (R526): boot_fail, and a level-3 fault of source 0. -/
def State.awaitPush (s : State) : State :=
  (((s.wr R.GLB_BOOT_STATUS_state 8).wr R.GLB_BOOT_STATUS_source 2).raise R.GLB_INT_STATUS_boot_fail).report 0 1 3

/-- An attempt on `source` fails with a code (R526): the next source follows. A failed attempt leaves nothing of its image behind (log
entry 41). [DEDUCED, log entry 41] -/
def State.attemptFails (s : State) (source code : Nat) : State :=
  let s := s.wr R.GLB_BOOT_STATUS_code code
  let s := if code < 0x20 then s.setReg R.CFG_LOAD_STATUS (BitVec.ofNat 32 code) else s
  let s := s.setGlb { s.glb with attempts := s.glb.attempts + 1, pushed := [], pushLast := false }
  let s := s.wr R.GLB_BOOT_STATUS_source source
  match source with
  | 0 => (s.wr R.GLB_BOOT_STATUS_state 1).wr R.GLB_BOOT_STATUS_source 1
  | 1 => s.awaitPush
  | 2 => s.wr R.GLB_BOOT_STATUS_state 8
  | _ => s.wr R.GLB_BOOT_STATUS_state 1

/-! ## The codes of an attempt (R526, R531) -/

/-- The source gives no readable header: fewer than 256 bytes, or on QSPI no valid magic (R528). -/
def unreadable (source : Nat) (b : List Byte) : Bool := decide (b.length < 256) || (decide (source < 2) && imageField b 0 4 != 0x36394753)

/-- The end of both tables, and of the DRAM section. -/
def tablesEnd (b : List Byte) : Nat := max (imageField b 0x18 4 + 16 * sectionCount b) (imageField b 0x1C 4 + 192)
def dramEnd (b : List Byte) : Nat := match secEntry b 0x11 0 with | some e => e.off + e.len | none => 0

/-- The code of an attempt and whether DRAM was trained in it. A failure of the source is reported in place of every check not yet made. [DEDUCED, log entry 40] -/
def State.attemptCode (s : State) (source : Nat) (i : Image) (t : Training) : Nat × Bool :=
  let b := i.bytes
  if unreadable source b then (0x20, false) else
  match [checkHeader b, s.checkAdmission b].findSome? id with
  | some c => (c, false)
  | none =>
    let short := decide (b.length < imageLen b)
    if b.length < tablesEnd b then (0x22, false)
    else if (checkTables b i.sections).isSome then (if short then (0x18, false) else (firstCode [s.checkSignature b, some 0x18], false))
    else if b.length < dramEnd b then (0x22, false)
    else if t = .failed then (0x21, true)
    else if short then (if (checkShadow b i.sections).isSome then 0x19 else 0x22, true)
    else (firstCode [s.checkSignature b, checkCrcs b, checkShadow b i.sections, checkResident b, checkBodies i, checkBootOverlays i], true)

/-- DRAM initialisation (16 R405): all four lanes trained, at once or by the repeated sequence, or failed; how many lanes a failure leaves
trained the manual does not state. [DEDUCED, log entry 40] -/
def State.trainDram (s : State) : Training → State
  | .trained => (s.setReg R.DMC_TRAIN 0xF).wr R.DMC_STATUS_state 2
  | .retried => (s.setReg R.DMC_TRAIN 0x10F).wr R.DMC_STATUS_state 2
  | .failed =>
    let (k, s) := s.draw
    (s.setReg R.DMC_TRAIN (BitVec.ofNat 32 (0x100 + Config.freeNat k % 16))).wr R.DMC_STATUS_state 3

/-! ## A load (R531, steps 4 to 7; 03 R85) -/

/-- The address of the image shadow of an image of DRAM size `size` (03 R85). -/
def shadowBase (size len : Nat) : Nat := (dramBase + (size - len)) / 2 ^ 16 * 2 ^ 16

/-- The bytes of the loaded image, from the shadow. [DEDUCED, log entry 57] -/
def State.shadowBytes (s : State) : List Byte :=
  s.dramBytes (s.wide R.CFG_SHADOW_BASE_LO R.CFG_SHADOW_BASE_HI - dramBase) s.cfg.imageBytes

/-- The registers that report the loaded image (03 R106). -/
def State.reportImage (s : State) (b : List Byte) (base : Nat) : State :=
  let s := s.setWide R.CFG_IMAGE_ID_LO R.CFG_IMAGE_ID_HI (imageField b 0x24 8)
  let s := s.setReg R.CFG_SECVER (BitVec.ofNat 32 (imageField b 0x20 4))
  let s := (s.setWide R.CFG_SHADOW_BASE_LO R.CFG_SHADOW_BASE_HI base).wr R.CFG_STATUS_loaded 1
  s.setReg R.CFG_LOAD_STATUS 1

/-- boot_modes as held at first audio: the pair is entered as STANDBY (03 R101, R103). [DESIGN CHOICE, log entry 42] -/
def bootHeld (v : BitVec 12) : BitVec 12 := if hasMode v 1 || hasMode v 2 then (v &&& 0xFF8) ||| 4 else v

/-- The overlays of an image: compiled, those of `set` with their payloads. -/
def imageOverlays (i : Image) (set : BitVec 12) : List Overlay :=
  let dests := i.sections.flatMap fun sc => match sc.content with | some c => c.dests.map (·.number) | none => []
  (ovTable i.bytes).map fun e =>
    let o := compileOverlay i.bytes e
    if hasMode set o.mode then
      let contents := o.contentsFrom i.payloads
      { o with contents := contents, inForce := inForceOf dests o contents }
    else o

/-- The registers that overlays of `set` write. -/
def writtenBy (os : List Overlay) (set : BitVec 12) : List Nat :=
  ((os.filter fun o => hasMode set o.mode).flatMap fun o => o.inForce.map (·.addr)).eraseDups

/-- The configuration of a loaded image: its layer, its overlays and its header. -/
def State.adoptImage (s : State) (i : Image) (set : BitVec 12) : State :=
  let s := s.setCfg { s.cfg with
    overlays := imageOverlays i set, bootModes := imageModes i.bytes, takeDomain := Fin.ofNat 3 (imageTakeDomain i.bytes),
    shadowLen := imageShadowLen i.bytes, imageBytes := imageLen i.bytes, contents := i.sections }
  { s with layers := { s.layers with image := Tab.set resetValue (imageRegisters i) R.CFG_MODE_REQ ((imageModes i.bytes).setWidth 32) } }

/-- The overlays of boot_modes are applied (R531, step 6): their registers, their words, their replaced sections, and their leave (20 R504). [DESIGN CHOICE, log entry 42] -/
def State.bootOverlays (s : State) (set : BitVec 12) : State :=
  -- the layers decide with the modes of boot_modes, which are held from first audio (step 9)
  let s := s.setReg R.CFG_MODE_HELD (set.setWidth 32)
  let s := (writtenBy s.cfg.overlays set).foldl (fun s a => s.settle a (imageMask a)) s
  let s := s.setReg R.CFG_MODE_HELD 0
  let added := (modesByRank.filter fun m => hasMode set m).filterMap s.overlay
  let s := added.foldl (fun s o =>
    let s := o.contents.foldl (fun s c => match c.content with | some x => s.loadSection c.kind c.inst x | none => s) s
    if o.needsLeave then s.setModeLeave o.mode (s.modeCost o.mode) else s) s
  (wordsInOrder s.basin.now.bank added).foldl (fun s w => s.putWindow w.1 w.2.1 w.2.2) s

/-- Every register of the image layer comes into effect (03 R87). -/
def State.settleImage (s : State) : State := s.layers.image.foldl (fun s e => s.settle e.1 (imageMask e.1)) s

/-- Step 7: lane bring-up, the Nerax links, the reference candidates and every DPLL of the image. -/
def State.startClocks (s : State) : State :=
  let s := (List.range 12).foldl (fun s n => s.laneStart n) s
  let s := (List.range 4).foldl (fun s k => s.linkEnable k) s
  let s := (List.range 9).foldl (fun s c => s.candEnable c) s
  let s := s.setGlb { s.glb with clocksWaiting := [0, 1, 2].filter fun x => s.rd (R.CLK_DOMx_CFG_rate x) ≠ 0 }
  ((s.reselectAll).wr R.GLB_BOOT_STATUS_state 5)

/-- The accepted image is loaded (R531, steps 4 to 7). -/
def State.loadImage (s : State) (source : Nat) (i : Image) : State :=
  let size := usableBytes i.sections
  let base := shadowBase size (imageShadowLen i.bytes)
  let set := bootHeld (imageModes i.bytes)
  let s := s.setDramBytes (base - dramBase) (i.bytes.take (imageLen i.bytes))
  let s := s.adoptImage i set
  let s := (s.setWide R.DMC_SIZE_LO R.DMC_SIZE_HI size).settleImage
  let s := s.setWide R.DMC_SIZE_LO R.DMC_SIZE_HI size
  let s := (inOrder i.sections).foldl (fun s sc => match sc.content with | some c => s.loadSection sc.kind sc.inst c | none => s) s
  let s := (imageWords i).foldl (fun s w => s.putWindow w.1 w.2.1 w.2.2) s
  let s := ((s.bootOverlays set).bootSettings).reportImage i.bytes base
  let s := s.wr R.GLB_BOOT_STATUS_source source
  -- under host push the endpoint keeps its identity and BAR2 until a reset (R529)
  let s := if source = 2 then s else { s with pcie := { s.pcie with bar2Log := 28 + s.rd ⟨R.PCIE_CFG, 16, 4⟩ } }
  s.startClocks

/-- BOOT_ATTEMPT (R526, R531): `image` is what the QSPI slot holds; a push or a Nerax boot takes the bytes pushed or received, once the last
have come. [DEDUCED, log entry 41] -/
def execBootAttempt (image : Image) (training : Training) (s : State) : Res :=
  .next (match s.bootSource with
    | none => s
    | some source =>
      if !s.mayLoad || (decide (2 ≤ source) && !s.glb.pushLast) then s
      else
        let i := if source < 2 then image else { image with bytes := s.glb.pushed }
        let (code, trained) := s.attemptCode source i training
        let s := if trained then s.trainDram training else s
        if code = 1 then s.loadImage source i else s.attemptFails source code)

/-- BOOT_SOURCE_FAILURE (R526, R529): codes 0x20 to 0x22 stop the attempt; 0x27 refuses a chunk and does not end the push. -/
def execBootSourceFailure (code : Nat) (s : State) : Res :=
  .next (match s.bootSource with
    | none => s
    | some source =>
      if !s.mayLoad then s
      else if code = 0x27 then (if source = 2 then (s.wr R.GLB_BOOT_STATUS_code 0x27).raise R.GLB_INT_STATUS_push_ready else s)
      else if code = 0x21 then (s.trainDram .failed).attemptFails source 0x21
      else if code = 0x20 ∨ code = 0x22 then s.attemptFails source code
      else s)

/-- NERAX_BOOT_FRAME (14 R379): the bytes of a boot frame on NX0. -/
def execNeraxBootFrame (bytes : List Byte) (last : Bool) (s : State) : Res :=
  .next (if s.bootStrap = 2 ∧ s.mayLoad ∧ s.linkState 0 = 5 then
      let old := if s.glb.pushLast then [] else s.glb.pushed
      (s.setGlb { s.glb with pushed := old ++ bytes, pushLast := last }).wr R.GLB_BOOT_STATUS_state 1
    else s)

/-- DPLL_BOOT_WAIT_EXPIRY (10 R280): the loader starts the domain in the free state, at the nominal frequency. Its candidate, if it has one,
is acquired anew from there. [DEDUCED, log entry 43] -/
def execDpllBootWaitExpiry (x : DomIx) (s : State) : Res :=
  .next (if !s.glb.clocksWaiting.contains x.val then s
    else if !s.ownDpll x then s.startDomain x
    else
      let s := ((s.wr (R.CLK_DOMx_STATUS_selected x) 15).wr (R.CLK_DOMx_STATUS_stage x) 0).setDpll x { s.dpll x with f0 := 0, target := 0, ramp := 0 }
      ((s.startDomains x).reselect x).settleClocks)

/-! ## First audio (R531, step 9; R532) -/

/-- A tick boundary of domain `x` raises its strobe event once in 2^d ticks (18 R464). -/
def State.strobe (s : State) (x : Nat) : State :=
  if s.tick x % 2 ^ s.rd ⟨R.EVT_TICK_DIV, 8 * x, 4⟩ = 0 then s.raise (bitAt R.EVT_LOCAL_STATUS x) else s

/-- The delay lines of domain `x` queue the reads of the tick that begins (16 R412). -/
def State.fetchDelays (s : State) (x : Nat) : State :=
  ((s.dmc.lines.filterMap (·.2)).filter fun d => d.spec.domain.val = x).foldl (fun s d => s.dlineFetch d.spec.line (s.tick x)) s

/-- The number of the first sample edge (02 R49, R51): on a time base locked to PTP the number after floor(T × fs), else 0. -/
def State.firstSample (s : State) (x : Nat) : Nat :=
  let t := s.rd (R.CLK_DOMx_CFG_tb x)
  if s.is (R.TBn_STATUS_locked t) then (s.tb t).value * s.fs x / (10 ^ 9 * 2 ^ 48) + 1 else 0

/-- A domain starts to count with its first sample edge, its engines wait at their gates, and its outputs carry zero (R531, R532; 04 R128). -/
def State.beginDomain (s : State) (x : Nat) : State :=
  let s := s.setDom x { s.dom x with sample := BitVec.ofNat 64 (s.firstSample x), fresh := true }
  let s := (List.range 32).foldl (fun s n => if s.engDomain n = x then s.setEngState n (if s.engHeld n then 4 else 2) else s) s
  (s.startPipeline x).zeroOutputs x

/-- Streams that the image enables start with the domain (12 R333, R337). -/
def State.beginStreams (s : State) : State :=
  let s := (List.range 256).foldl (fun s n =>
    if s.is ⟨R.STRM_TXn_CTRL n, 0, 1⟩ then
      (s.setTx n { s.tx n with start := some (s.dom (s.txDomain n)).sample.toNat, fade := .into 0 }).wr (txState n) 1
    else s) s
  (List.range 256).foldl (fun s n =>
    if s.is (R.STRM_RXn_CTRL_en n) then
      let x := s.rd (R.STRM_RXn_CFG_domain n)
      (s.setRx n { next := s.tick x }).wr (rxState n) 1
    else s) s

/-- Amplifier channels wait for their rail, which is unqualified until it has been watched (09 R259). -/
def State.beginAmps (s : State) : State :=
  (List.range 32).foldl (fun s c => if s.ampAssigned (c / 8) ∧ s.rd (ampState c) = 0 then s.ampOff c else s) s

/-- FIRST_AUDIO (R531, step 9): every domain has been started; `ms` is the time since the release of POR_N. [DESIGN CHOICE, log entry 42] -/
def execFirstAudio (ms : Nat) (s : State) : Res :=
  .next (if s.rd R.GLB_BOOT_STATUS_state ≠ 5 ∨ s.glb.clocksWaiting ≠ [] then s else
    let set := bootHeld s.cfg.bootModes
    let s := (s.setReg R.CFG_MODE_HELD (set.setWidth 32)).setCfg { s.cfg with pendingSet := set }
    -- from here on the slew limit holds, from the frequency that stands (10 R280)
    let s := [0, 1, 2].foldl (fun s x => s.setDpll x { s.dpll x with f0 := s.loopFreq x, since := s.now }) s
    let s := ([0, 1, 2].filter s.started).foldl (fun s x => s.beginDomain x) s
    let s := (s.beginStreams).beginAmps
    let s := (s.wr (lowHalf R.GLB_BOOT_TIME) (min ms 0xFFFF)).wr R.GLB_BOOT_STATUS_state 6
    let s := s.raise R.GLB_INT_STATUS_first_audio
    let s := if s.inPair then s.enterPair else s
    s.settleClocks.applySafe)

end Sys2Proof.Machine
end

