-- ==== Sys2Proof/Machine/Dma.lean ====
section
/-!
DEFINITION. What DMA descriptors move (17 R433 to R441): the pieces of a transfer, its errors, and its ends at memory, at the barges of tick-mode
channels, and at the frames and messages of the MACs and Nerax links.
-/
namespace Sys2Proof.Machine

/-! ## The pieces of a transfer (R436) -/

/-- The burst size of a channel in bytes (R448). -/
def State.dmaBurst (s : State) (c : Nat) : Nat := 4 * 2 ^ min 6 (s.rd (R.DMA_CHc_CTRL_burst c))

/-- The bursts of a run of `len` bytes at `off` (source `src`, destination `dst`): none crosses a 256-byte boundary (R422). The first number bounds
the count. -/
def copyPieces (burst src dst : Nat) : Nat → Nat → Nat → List (Nat × Nat × Nat)
  | 0, _, _ => []
  | k + 1, off, len =>
    if len = 0 then []
    else
      let n := max 1 (min (min burst len) (min (256 - (src + off) % 256) (256 - (dst + off) % 256)))
      (off, off, n) :: copyPieces burst src dst k (off + n) (len - n)

/-- Element size e, channels n and plane stride s of the interleave kinds (R433). -/
def descElem (d : List Word) : Nat := match getBits (descWord d 4) 24 2 with | 0 => 2 | 1 => 3 | 2 => 4 | _ => 8
def descChannels (d : List Word) : Nat := getBits (descWord d 4) 0 11
def descStride (d : List Word) : Nat := getBits (descWord d 5) 0 24

/-- The elements of the interleave kinds, in the order of R436: (interleaved offset, plane offset). -/
def elements (d : List Word) : List (Nat × Nat) :=
  let e := descElem d
  let n := descChannels d
  (List.range (descLen d / (n * e))).flatMap fun j => (List.range n).map fun c => ((j * n + c) * e, c * descStride d + j * e)

/-- The pieces of a descriptor: source offset, destination offset, bytes. -/
def descPieces (burst : Nat) (d : List Word) : List (Nat × Nat × Nat) :=
  match descKind d with
  | 0 => copyPieces burst (descSrc d) (descDst d) (descLen d) 0 (descLen d)
  | 1 => copyPieces burst (descDst d) (descDst d) (descLen d) 0 (descLen d)
  | 2 => (elements d).map fun x => (x.2, x.1, descElem d)
  | _ => (elements d).map fun x => (x.1, x.2, descElem d)

/-- Codes 1 to 3 of R437, or 0; `barge` is the size of a tick-mode barge. Frame modes and requests take only copy. [DEDUCED, log entry 16] -/
def descError (mode barge : Nat) (d : List Word) : Nat :=
  let k := descKind d
  let n := descLen d
  if 3 < k ∨ (1 ≤ mode ∧ mode ≤ 3 ∧ k ≠ 0) then 1
  else if n = 0 ∨ (2 ≤ k ∧ (descChannels d = 0 ∨ n % (descChannels d * descElem d) ≠ 0)) ∨ (4 ≤ mode ∧ barge < n) then 2
  else if 2 ≤ k ∧ descStride d < n / (descChannels d * descElem d) * descElem d then 3
  else 0

/-- Move pieces: state, bytes moved, code (R437), and each piece's destination offset and bytes. A read or write leaves its response in
`State.reply`. -/
def State.movePieces (read : State → Nat → Nat → Nat → State × List Byte) (write : State → Nat → List Byte → State) :
    List (Nat × Nat × Nat) → State → Nat → Nat → List (Nat × List Byte) → State × Nat × Nat × List (Nat × List Byte)
  | [], s, moved, code, acc => (s, moved, code, acc)
  | (src, dst, n) :: t, s, moved, code, acc =>
    let (s, bytes) := read s moved src n
    if s.reply.response = .defaultTarget then (s, moved, 4, acc)
    else
      let code := if s.reply.response = .dataError then 6 else code
      let s := write s dst bytes
      if s.reply.response = .defaultTarget then (s, moved, 5, acc)
      else State.movePieces read write t s (moved + n) code (acc ++ [(dst, bytes)])

/-! ## Sources and destinations -/

/-- Source bytes at memory; bytes of host memory come in the order in which they are read. -/
def readMemory (m base : Nat) (host : Option (List Byte)) (s : State) (moved off n : Nat) : State × List Byte :=
  s.busRead m (base + off) n (host.map (·.drop moved))

/-- Source bytes of a fill: byte b of the destination takes pattern byte b mod 4. -/
def readPattern (p : Word) (s : State) (_ off n : Nat) : State × List Byte :=
  (s.answer [], (List.range n).map fun i => (leBytes 4 p.toNat).getD ((off + i) % 4) 0)

/-- Source bytes of a barge. -/
def readBarge (bytes : List Byte) (s : State) (_ off n : Nat) : State × List Byte :=
  (s.answer [], (List.range n).map fun i => bytes.getD (off + i) 0)

def writeMemory (m base : Nat) (s : State) (off : Nat) (bytes : List Byte) : State := s.busWrite m (base + off) (bytes.map some)

/-- Bytes kept in the device: a barge, a frame or a message. -/
def writeKept (s : State) (_ : Nat) (_ : List Byte) : State := s.answer []

/-- The bytes of a barge: 4 for each word, sign-extended (04 R117; 17 R436). -/
def bargeBytes (ws : List Sample) : List Byte := ws.flatMap fun w => leBytes 4 (w.signExtend 32).toNat

/-- The words of a barge of `n` bytes from what a transfer moved, where it moved every byte. -/
def bargeOf (n : Nat) (acc : List (Nat × List Byte)) : Option (List Sample) :=
  let t := acc.foldl (fun t e => e.2.zipIdx.foldl (fun t b => Tab.set (fun _ => none) t (e.1 + b.2) (some b.1)) t)
    ([] : List (Nat × Option Byte))
  let got := (List.range n).map (Tab.get (fun _ => none) t)
  if got.all (·.isSome) then some ((wordsOf (got.map (·.getD 0))).map (·.setWidth 24)) else none

/-! ## The ends of a channel -/

/-- The lock of a tick-mode channel (R441): a tick-in channel takes its barges, a tick-out channel makes them. -/
def State.dmaLock (s : State) (c : Nat) : Option Nat :=
  (s.locksWhere fun k => if s.dmaMode c = 4 then k.spec.consumer == .dma c else k.spec.producer == .dma c).head?

def State.dmaBargeBytes (s : State) (c : Nat) : Nat :=
  match (s.dmaLock c).bind s.lock with | some k => 4 * s.bargeWords k | none => 0

/-- A frame-tx channel's place for a whole frame is free: the head of MAC transmission, or of the mailbox (R440; 12 R340). -/
def State.txFree (s : State) (c : Nat) : Bool :=
  let b := s.rd (R.DMA_CHc_CFG_binding c)
  if b = 84 ∨ b = 85 then (s.mac (b - 84)).head.isNone else if 92 ≤ b ∧ b ≤ 95 then (s.link (b - 92)).head.isNone else true

/-- The frame or message gathered goes to the head of transmission; a message has at most 1024 bytes (14 R367). -/
def State.handFrame (s : State) (c : Nat) : State :=
  let b := s.rd (R.DMA_CHc_CFG_binding c)
  let d := s.chan c
  let s := s.setChan c { d with frame := [], macWords := none }
  if d.frame = [] then s
  else if b = 84 ∨ b = 85 then
    let (w0, w1) := d.macWords.getD (0, 0)
    s.setMac (b - 84) { s.mac (b - 84) with head := some ⟨w0, w1, d.frame, s.now⟩ }
  else if 92 ≤ b ∧ b ≤ 95 then s.setLink (b - 92) { s.link (b - 92) with head := some (d.frame.take 1024) }
  else s

/-- The engine windows that a descriptor's pieces reach serve them: a burst to an engine that runs its segment waits for the park (01 R41; 04
R110). -/
def State.piecesReady (s : State) (d : List Word) (source dest : Bool) (ps : List (Nat × Nat × Nat)) : Bool :=
  ps.all fun p => (!source || descKind d = 1 || s.busReady (descSrc d + p.1)) && (!dest || s.busReady (descDst d + p.2.1))

/-! ## Whole descriptors (R435 to R441) -/

/-- A mem descriptor. -/
def State.memTransfer (s : State) (c : Nat) (d : List Word) (host : Option (List Byte)) : State :=
  let m := s.dmaMaster c
  let read := if descKind d = 1 then readPattern (descWord d 4) else readMemory m (descSrc d) host
  let (s, moved, code, _) := State.movePieces read (writeMemory m (descDst d)) (descPieces (s.dmaBurst c) d) s 0 0 []
  s.completeDesc c code moved 0 none

/-- A frame-tx descriptor: its bytes join the frame, and with eop the frame goes to the head of transmission. -/
def State.txTransfer (s : State) (c : Nat) (d : List Word) (host : Option (List Byte)) : State :=
  if descEop d ∧ !s.txFree c then s
  else
    let m := s.dmaMaster c
    let (s, moved, code, acc) := State.movePieces (readMemory m (descSrc d) host) writeKept (descPieces (s.dmaBurst c) d) s 0 0 []
    let x := s.chan c
    let s := s.setChan c { x with
      frame := x.frame ++ acc.flatMap (·.2), macWords := some (x.macWords.getD (descWord d 4, descWord d 5)) }
    let s := if descEop d then s.handFrame c else s
    s.completeDesc c code moved 0 none

/-- The bytes of a tick-in channel's barge go to their destination; the descriptor completes with the tick number. -/
def State.tickWrite (s : State) (c : Nat) (d : List Word) (tick : Nat) (bytes : List Byte) : State :=
  let read := if descKind d = 1 then readPattern (descWord d 4) else readBarge bytes
  let (s, moved, code, _) :=
    State.movePieces read (writeMemory (s.dmaMaster c) (descDst d)) (descPieces (s.dmaBurst c) d) s 0 0 []
  s.completeDesc c code moved tick none

/-- A tick-in descriptor: the barge is written out once it has arrived, or as zeros after its deadline (R441; 01 R34). -/
def State.tickInTransfer (s : State) (c : Nat) (d : List Word) (tick l : Nat) : State :=
  let zero := (s.chan c).zero
  match s.awaits l tick with
  | none => if zero then s.tickWrite c d tick [] else s
  | some b => (s.tickWrite c d tick (if zero then [] else bargeBytes b.words)).consume l tick
/-- A tick-out descriptor: the barge waits for its capture commit, unless that has passed (R441). [DEDUCED, log entry 16] -/
def State.tickOutTransfer (s : State) (c : Nat) (d : List Word) (tick l : Nat) (host : Option (List Byte)) : State :=
  let n := s.dmaBargeBytes c
  let late := (s.chan c).zero
  let read := if descKind d = 1 then readPattern (descWord d 4) else readMemory (s.dmaMaster c) (descSrc d) host
  let (s, moved, code, acc) := State.movePieces read writeKept (descPieces (s.dmaBurst c) d) s 0 0 []
  let s := match s.lock l, bargeOf n acc with
    | some k, some ws => if late then s else s.setLock l { k with asm := ws }
    | _, _ => s
  s.completeDesc c code moved tick none

/-- DESCRIPTOR_COMPLETE (17 R435 to R437, R440, R441): the descriptor at the head is carried out, as its channel's mode has it. -/
def execDescriptorComplete (c : ChIx) (host : Option (List Byte)) (s : State) : Res :=
  .next (match (s.chan c).fetched with
    | [] => s
    | d :: _ =>
      let mode := s.dmaMode c
      let tick := (s.chan c).taken
      let err := descError mode (s.dmaBargeBytes c) d
      if s.dmaState c ≠ 2 ∧ s.dmaState c ≠ 3 then s
      else if 4 ≤ mode ∧ tick = none then s
      else if err = 0 ∧ !s.piecesReady d (mode ≠ 1 ∧ mode ≠ 4) (mode = 0 ∨ mode = 4) (descPieces (s.dmaBurst c) d) then s
      else if err ≠ 0 then (if mode = 2 then s else s.completeDesc c err 0 (tick.getD 0) none)
      else match mode, tick, s.dmaLock c with
        | 0, _, _ => s.memTransfer c d host
        | 1, _, _ => if descLen d ≤ (s.chan c).moved then s.completeDesc c 0 (s.chan c).moved 0 none else s
        | 3, _, _ => s.txTransfer c d host
        | 4, some t, some l => s.tickInTransfer c d t l
        | 5, some t, some l => s.tickOutTransfer c d t l host
        | _, _, _ => s)

/-! ## Peripheral requests (R438, R439) -/

/-- One burst of a request: the data register, again and again, at the next destination address. -/
def State.requestBurst (s : State) (c : Nat) (d : List Word) : State :=
  let n := s.rd (R.DMA_CHc_CFG_binding c)
  let moved := (s.chan c).moved
  let len := min (s.dmaBurst c) (descLen d - moved)
  let word := leBytes 4 (s.reg (R.CICn_OUT n)).toNat
  let bytes := (List.range len).map fun i => word.getD (i % 4) 0
  let s := s.setCic n { s.cic n with request := false, unread := false }
  let s := s.busWrite (s.dmaMaster c) (descDst d + moved) (bytes.map some)
  if s.reply.response = .defaultTarget then s.completeDesc c 5 moved 0 none
  else s.setChan c { s.chan c with moved := moved + len }

/-- The descriptor a request of channel `c` would move a burst of. -/
def State.requestDesc (s : State) (c : Nat) : Option (List Word) :=
  match (s.chan c).fetched with
  | d :: _ =>
    if s.dmaRequested c ∧ (s.dmaState c = 2 ∨ s.dmaState c = 3) ∧ descError 1 0 d = 0 ∧ (s.chan c).moved < descLen d
        ∧ s.busReady (descDst d + (s.chan c).moved) then some d else none
  | [] => none

/-- PERIPHERAL_REQUEST (17 R438): a request without a descriptor stays pending. -/
def execPeripheralRequest (c : ChIx) (s : State) : Res :=
  .next (match s.requestDesc c with | some d => s.requestBurst c d | none => s)

/-- REQUEST_WITHDRAWN (17 R439): new data replaces the data of a pending request. A granted burst completes with the data held; a request that
was not granted is withdrawn. A new request stands. -/
def execRequestWithdrawn (c : ChIx) (granted : Bool) (s : State) : Res :=
  .next (if !s.dmaRequested c then s
    else
      let n := s.rd (R.DMA_CHc_CFG_binding c)
      match granted, s.requestDesc c with
      | true, some d =>
        let s := s.requestBurst c d
        s.setCic n { s.cic n with request := true }
      | _, _ => (s.bump (highHalf (R.DMA_CHc_COUNT0 c))).raise (R.DMA_CHc_INT_STATUS_withdrawn c))

/-! ## Received frames (R440) -/

/-- The frame or message that waits for channel `c`: its bytes with the status words, and its own length. [DEDUCED, log entry 17] -/
def State.rxWaiting (s : State) (c : Nat) : Option (List Byte × Nat) :=
  let b := s.rd (R.DMA_CHc_CFG_binding c)
  if 80 ≤ b ∧ b < 84 then
    ((s.mac ((b - 80) / 2)).rx.find? fun f => f.cls = (b - 80) % 2).map fun f => (bytesOf f.words ++ f.bytes, f.bytes.length)
  else if 88 ≤ b ∧ b < 92 then (s.link (b - 88)).slots.head?.map fun m => (m, m.length)
  else none

/-- The frame or message has been written out: its buffer space or its slot is free. [DEDUCED, log entry 17] -/
def State.rxTaken (s : State) (c : Nat) : State :=
  let b := s.rd (R.DMA_CHc_CFG_binding c)
  if 80 ≤ b ∧ b < 84 then
    let m := (b - 80) / 2
    s.setMac m { s.mac m with rx := (s.mac m).rx.eraseP fun f => f.cls = (b - 80) % 2 }
  else if 88 ≤ b ∧ b < 92 then s.setLink (b - 88) { s.link (b - 88) with slots := (s.link (b - 88)).slots.drop 1 } |>.emit (.credit (b - 88))
  else s

/-- FRAME_RX_DMA (17 R440): the next piece of the frame fills the descriptor at the head; `DmaChannel.frame` is what is left of a frame begun. [DEDUCED, log entry 17] -/
def execFrameRxDma (c : ChIx) (s : State) : Res :=
  .next (match (s.chan c).fetched, s.rxWaiting c with
    | d :: _, some (all, len) =>
      if s.dmaMode c ≠ 2 ∨ (s.dmaState c ≠ 2 ∧ s.dmaState c ≠ 3) then s
      else
        let err := descError 2 0 d
        if err ≠ 0 then s.completeDesc c err 0 0 none
        else
          let left := if (s.chan c).frame = [] then all else (s.chan c).frame
          let piece := left.take (descLen d)
          let m := s.dmaMaster c
          let pieces := copyPieces (s.dmaBurst c) (descDst d) (descDst d) piece.length 0 piece.length
          if !s.piecesReady d false true pieces then s else
          let (s, moved, code, _) := State.movePieces (readBarge piece) (writeMemory m (descDst d)) pieces s 0 0 []
          let rest := left.drop moved
          let s := s.setChan c { s.chan c with frame := rest }
          let s := if rest = [] then s.rxTaken c else s
          s.completeDesc c code moved (if rest = [] then len else 0) (some (rest == []))
    | _, _ => s)

/-! ## Tick modes (R441) -/

/-- TICK_MODE_TRANSFER (17 R441, R443): a tick boundary of the channel's domain. Without a descriptor the tick is lost: a tick-in barge is dropped, a
tick-out barge is absent; a channel that is not enabled reports nothing. [DEDUCED, log entry 16; DESIGN CHOICE, log entry 18] -/
def execTickModeTransfer (c : ChIx) (s : State) : Res :=
  .next (if s.dmaMode c < 4 ∨ 5 < s.dmaMode c ∨ !s.dmaUsed c ∨ s.halted then s
    else
      let x := s.rd (R.DMA_CHc_CFG_domain c)
      let hops := match (s.dmaLock c).bind s.lock with | some k => k.spec.hops | none => 0
      let on := s.dmaState c = 1 ∨ s.dmaState c = 2 ∨ s.dmaState c = 4
      if !s.atBoundary x ∨ (s.dmaMode c = 4 ∧ s.tick x < hops) then s
      else
        let tick := if s.dmaMode c = 4 then s.tick x - hops else s.tick x
        if s.dmaState c = 2 ∧ (s.chan c).fetched ≠ [] ∧ (s.chan c).taken = none then
          s.setChan c { s.chan c with taken := some tick, zero := false }
        else
          let s := if s.dmaMode c = 4 then (match s.dmaLock c with | some l => s.giveUp l tick | none => s) else s
          if on then (s.bump (lowHalf (R.DMA_CHc_COUNT0 c))).dmaEvent c 4 1 else s)

end Sys2Proof.Machine
end

