-- ==== Sys2Proof/Machine/Take.lean ====
section
/-!
DEFINITION. Takes (03 R92 to R99; 20 R504): a staging completed, the take armed, the armed change applied at its boundary in each domain, and the
changes of resident modes. Machine/Tick.lean has the boundary of the other domains; Machine/Replace.lean the takes of an image.
-/
namespace Sys2Proof.Machine

/-! ## What a change of the mode set changes -/

/-- The overlays with the payloads of the modes that `set` adds (03 R81, R82). -/
def State.overlaysWith (s : State) (set : BitVec 12) (ps : List PayloadContent) : List Overlay :=
  let ovs := s.cfg.overlays.map fun o =>
    if hasMode set o.mode ∧ !s.holds o.mode then { o with contents := o.contentsFrom ps } else o
  -- a destination that the same take assigns is one of those a ROUTES payload decides
  let assigned := (ovs.filter fun o => hasMode set o.mode).flatMap fun o => o.contents.flatMap fun c => match c.content with
    | some c => c.dests.map (·.number)
    | none => []
  let dests := (s.router.dests.map (·.number) ++ assigned).eraseDups
  ovs.map fun o => if hasMode set o.mode ∧ !o.replaces.isEmpty then { o with inForce := inForceOf dests o o.contents } else o

/-- The content in force of a section: the payload of the highest-ranked mode of `set` that replaces it, else the image's (03 R89). [DEDUCED, log entry 53] -/
def effectiveContent (ovs : List Overlay) (image : List SectionContent) (set : BitVec 12) (kind inst : Nat) : Option Content :=
  let held := modesByRank.reverse.flatMap fun m => if hasMode set m then ovs.filter fun o => o.mode = m else []
  match held.findSome? fun o => contentOf o.contents kind inst with
  | some c => some c
  | none => contentOf image kind inst

/-- The highest-ranked mode of `set` whose overlay replaces a section. -/
def ownerOf (ovs : List Overlay) (set : BitVec 12) (kind inst : Nat) : Option Nat :=
  modesByRank.reverse.find? fun m => hasMode set m && ovs.any fun o => o.mode == m && o.replaces.any fun r => r.kind == kind && r.inst == inst

/-- The sections that a change from `old` to `new` gives another content, or that an added overlay replaces (R82). [DEDUCED, log entry 53] -/
def changedSections (ovs ovs' : List Overlay) (image : List SectionContent) (old new : BitVec 12) : List SectionContent :=
  let moved := (ovs ++ ovs').filter fun o => hasMode old o.mode != hasMode new o.mode
  let keys := (moved.flatMap fun o => o.replaces.map fun r => (r.kind, r.inst)).eraseDups
  keys.filterMap fun k =>
    let c := effectiveContent ovs' image new k.1 k.2
    let added := (ownerOf ovs' new k.1 k.2).any fun m => !hasMode old m
    if !added ∧ c = effectiveContent ovs image old k.1 k.2 then none else some ⟨k.1, k.2, c⟩

/-- The register bits that the added and the released overlays write, and those that a kept overlay's ROUTES payload comes to decide. -/
def changedRegs (ovs ovs' : List Overlay) (old new : BitVec 12) : List (Nat × Word) :=
  let ws := ((ovs.filter fun o => hasMode old o.mode && !hasMode new o.mode) ++
    (ovs'.filter fun o => hasMode new o.mode && !hasMode old o.mode)).flatMap (·.inForce) ++
    (ovs'.filter fun o => hasMode new o.mode && hasMode old o.mode).flatMap fun o =>
      o.inForce.filter fun w => !ovs.any fun p => p.mode == o.mode && p.inForce.contains w
  (ws.map (·.addr)).eraseDups.map fun a => (a, (ws.filter fun w => w.addr = a).foldl (fun m w => m ||| w.mask) 0)

/-- The window words of the added overlays, the highest-ranked last (03 R81, R105, R561). -/
def addedWords (bank : Nat) (ovs : List Overlay) (old new : BitVec 12) : List (Nat × Word × Word) :=
  wordsInOrder bank ((modesByRank.filter fun m => hasMode new m && !hasMode old m).flatMap fun m => ovs.filter fun o => o.mode = m)

/-! ## Changes at their boundaries (R93) -/

/-- A domain takes the change now: it is the take domain, or it does not run. [DEDUCED, log entry 46] -/
def State.takesNow (s : State) (x : Nat) : Bool := x == s.takeDom || !s.started x

/-- Register bits of a take come into effect. What a take gives an engine whose work a reserve carries, the reserve takes too; in an earlier
state the substitution is aborted (04 R132). An engine of another domain waits for the tick that begins there. -/
def State.bringRegister (s : State) (a : Nat) (mask : Word) : State :=
  let o := a % 0x10000
  if a / 0x10000 ≠ 22 ∨ o < 0x100 then s.bring a mask
  else
    let n := o / 0x100 - 1
    let x := s.engDomain n
    let old := s.reg a
    let s := s.bring a mask
    let s := if s.engDomain n ≠ x ∧ s.engDomain n < 3 then s.engineRestarts n (s.tick (s.engDomain n)) else s
    if s.reg a = old then s
    else
      let s := if o % 0x100 = 0 ∨ o % 0x100 = 8 ∨ o % 0x100 = 0x14 ∨ o % 0x100 = 0x18 then s.engineChanges n else s
      let k := s.carrier n
      if k = n then s
      else
        let b := a + 0x100 * (k - n)
        let was := s.reg b
        let mask := mask &&& imageMask a
        let s := s.setReg b ((was &&& ~~~mask) ||| (s.reg a &&& mask))
        if s.reg b = was then s else s.changed b was

/-- Register bits of a take, at the boundary of their domain. [DEDUCED, log entry 46] -/
def State.bringAt (s : State) (a : Nat) (mask : Word) : State :=
  let x := s.domainOf a
  if s.takesNow x then s.bringRegister a mask
  else s.setCfg { s.cfg with laterRegs := s.cfg.laterRegs ++ [(x, a, mask)] }

/-- A section of a take, each part at the boundary of its domain. -/
def State.applySection (s : State) (sc : SectionContent) : State :=
  match sc.content with
  | none => s
  | some c =>
    let s := ([0, 1, 2].filter (holdsDomain c)).foldl (fun s x =>
      if s.takesNow x then s.takeDomainPart x c
      else s.setCfg { s.cfg with laterContents := s.cfg.laterContents ++ [(3 + x, sc)] }) s
    -- the coefficients of each decimator swap at the boundary of its own domain
    let s := if sc.kind ≠ 10 then s else [0, 1, 2].foldl (fun s x =>
      let part : Content := { coefs := (s.coefsOf x c).coefs, crossfade := c.crossfade }
      if part.coefs = [] then s
      else if s.takesNow x then s.takeBanks part
      else s.setCfg { s.cfg with laterContents := s.cfg.laterContents ++ [(x, ⟨10, sc.inst, some part⟩)] }) s
    let c := if sc.kind = 10 then { c with coefs := [] } else c
    let x := s.sectionDomain sc.kind sc.inst
    if s.takesNow x then s.takeSection sc.kind sc.inst c
    else s.setCfg { s.cfg with laterContents := s.cfg.laterContents ++ [(x, ⟨sc.kind, sc.inst, some c⟩)] }

/-- A window word of a take. -/
def State.putAt (s : State) (w : Nat × Word × Word) : State :=
  let x := s.windowDomain w.1
  if s.takesNow x then s.putWindow w.1 w.2.1 w.2.2
  else s.setCfg { s.cfg with laterWords := s.cfg.laterWords ++ [(x, w)] }

/-- Egress paths of domain `x` whose latency changes have changed: their zero interval starts (R99). -/
def State.pathsChanged (s : State) (x : Nat) : State :=
  (s.locksWhere fun q => q.spec.domain.val == x && q.refade.any fun e => e.2.isNone).foldl (fun s l => match s.lock l with
    | some q => s.setLock l { q with refade := q.refade.map fun e => (e.1, some (s.dom x).sample.toNat) }
    | none => s) s

/-- What a take has left for domain `x` comes into effect at its boundary (R93), the one its outputs have faded for where they fade. [DEDUCED, log entry 46] -/
def State.takeLater (s : State) (x : Nat) : State :=
  let c := s.cfg
  if c.points.any (fun p => p.1 = x ∧ (s.dom x).sample.toNat < p.2) then s else
  let s := s.setCfg { c with
    points := c.points.filter fun p => p.1 ≠ x
    laterRegs := c.laterRegs.filter fun e => e.1 ≠ x, laterContents := c.laterContents.filter fun e => decide (e.1 ≠ x) && decide (e.1 ≠ 3 + x)
    laterWords := c.laterWords.filter fun e => e.1 ≠ x }
  let due := c.laterContents.any fun e => e.1 = 3 + x
  let s := c.laterContents.foldl (fun s e => match e.2.content with
    | some k => if e.1 = 3 + x then s.takeDomainPart x k else if e.1 = x then s.takeSection e.2.kind e.2.inst k else s
    | none => s) s
  let s := if due then s.pathsChanged x else s
  let s := (c.laterRegs.filter fun e => e.1 = x).foldl (fun s e => s.bringRegister e.2.1 e.2.2) s
  (c.laterWords.filter fun e => e.1 = x).foldl (fun s e => s.putWindow e.2.1 e.2.2.1 e.2.2.2) s

/-! ## Arming (R93 to R95, R99; 02 R51, R52) -/

/-- The boundary at which domain `y` applies a take whose point is sample `t` of the take domain (R93). [DEDUCED, log entry 49] -/
def State.boundaryAfter (s : State) (y t : Nat) : Nat :=
  let x := s.takeDom
  let n := if y = x then t else (s.dom y).sample.toNat + ceilDiv ((t - (s.dom x).sample.toNat) * s.fs y) (s.fs x)
  ceilDiv n (s.dom y).b * (s.dom y).b

/-- What changes the latency of paths in a take: tick lengths that change (domain, B), and egress locks. -/
structure PathChange where
  lengths : List (Nat × Nat)
  locks : List Nat

/-- Sample `t` of the take domain can be the take point: every domain whose outputs fade has 32 samples for it, and one that changes B finds a
multiple of both tick lengths (R93; 02 R51, R52). -/
def State.pointFits (s : State) (c : PathChange) (t : Nat) : Bool :=
  let ys := c.locks.map s.lockDomain
  c.lengths.all (fun e =>
    let p := s.boundaryAfter e.1 t
    p % max (s.dom e.1).b e.2 == 0 && decide ((s.dom e.1).freeFrom + 33 ≤ p))
    && ys.all fun y => decide ((s.dom y).freeFrom + 33 ≤ s.boundaryAfter y t)

/-- The take point of a change that fades outputs: the first boundary that fits, not before the one asked for (R93, R95). [DEDUCED, log entry 49] -/
def State.takePoint (s : State) (c : PathChange) (at_ : Option Nat) : Option Nat :=
  let x := s.takeDom
  let b := (s.dom x).b
  let first := max (at_.getD 0) (ceilDiv ((s.dom x).sample.toNat + 1) b * b)
  ((List.range 4096).map fun i => first + i * b).find? (s.pointFits c)

/-- The take of a change is armed: the outputs of domains that change B, and of paths that change latency, fade for its point (R93, R99). [DEDUCED, log entry 49] -/
def State.planTake (s : State) (at_ : Option Nat) (c : PathChange) : State :=
  if c.lengths = [] ∧ c.locks = [] then s.setCfg { s.cfg with point := none, points := [] } else
  match s.takePoint c at_ with
  | none => s
  | some t =>
    let ys := ((c.lengths.map (·.1)) ++ c.locks.map s.lockDomain).eraseDups
    let s' := s.setCfg { s.cfg with point := some t, points := ys.map fun y => (y, s.boundaryAfter y t) }
    let s' := c.lengths.foldl (fun r e => r.setDom e.1 { r.dom e.1 with pendingB := some (s.boundaryAfter e.1 t, e.2) }) s'
    c.locks.foldl (fun r l => match r.lock l with
      | some k => r.setLock l { k with refade := some (s.boundaryAfter k.spec.domain t, none) }
      | none => r) s'

/-! ## Paths whose latency a take changes (R99) -/

/-- The locks that carry what lock `l` brings to its consumer, one unit further. -/
def State.leadsTo (s : State) (l : Nat) : List Nat :=
  match s.lock l with
  | none => []
  | some k =>
    match k.spec.consumer with
    | .router =>
      (s.router.hops.filter fun h => h.dests.any fun d => k.spec.channels.contains (s.rd (R.RTR_ROUTEd_src d))).map (·.lock)
    | .engine _ | .basin | .filter | .delayLine _ | .bridge _ => s.locksWhere fun q => q.spec.producer == k.spec.consumer
    | _ => []

/-- The egress locks that locks lead to. -/
def State.egressOf (s : State) : Nat → List Nat → List Nat → List Nat
  | 0, seen, _ => seen
  | _, seen, [] => seen
  | fuel + 1, seen, ls =>
    let next := (ls.flatMap s.leadsTo).eraseDups.filter fun l => !seen.contains l && !ls.contains l
    s.egressOf fuel (seen ++ ls) next

/-- Every output behind the locks, by its lock. -/
def State.outputsBehind (s : State) (ls : List Nat) : List Nat :=
  (s.egressOf s.locks.length [] ls.eraseDups).filter fun l => (s.lock l).any fun k => match k.spec.consumer with
    | .tdm _ | .amp _ | .txStream _ | .nerax _ | .dma _ => s.started k.spec.domain
    | _ => false

/-- The destinations whose route a change of the held set moves between same-tick and delayed. -/
def State.delayMoves (s : State) (ovs' : List Overlay) (new : BitVec 12) : List Nat :=
  let t := (s.setCfg { s.cfg with overlays := ovs' }).setReg R.CFG_MODE_HELD (new.setWidth 32)
  (s.router.dests.map (·.number)).filter fun d =>
    s.isDelayed d (getBits (t.layered (R.RTR_ROUTEd d)) 0 13) != s.is (R.RTR_ROUTEd_delayed d)

/-- What a change of sections and routes does to tick lengths and to the latency of paths: an egress lock with other hops, a route moved between
same-tick and delayed, a delay line with another D. [DEDUCED, log entry 49] -/
def State.pathChange (s : State) (cs : List SectionContent) (moved : List Nat) : PathChange :=
  let contents := cs.filterMap (·.content)
  let hops := (contents.flatMap (·.locks)).filterMap fun q => match s.lock q.id with
    | some k => if k.spec.hops ≠ q.hops ∧ s.started k.spec.domain then some q.id else none
    | none => none
  let lines := (contents.flatMap (·.delays)).filter fun d => (s.dline d.line).any fun l => l.spec.d ≠ d.d
  let starts := (s.router.hops.filter fun h => h.dests.any moved.contains).map (·.lock) ++
    s.locksWhere fun q => lines.any fun d => q.spec.producer == .delayLine d.line
  { lengths := (contents.flatMap (·.tickLength)).filter fun e => (s.dom e.1).b ≠ e.2 && s.started e.1
    locks := (hops ++ s.outputsBehind starts).eraseDups }

/-- The group member settled for a pending set, with the resident modes as they are held (R101). -/
def State.settledSet (s : State) (p : BitVec 12) : BitVec 12 :=
  (p &&& 0x6F8) ||| (s.held &&& 0x900) ||| (if hasMode p 0 then 1 else if s.inPair then s.held &&& 6 else 4)

/-- The boundary asked for lies not ahead: a take armed now comes too late for it (R95). -/
def State.pastPoint (s : State) (at_ : Option Nat) : Bool := at_.any fun t => decide (t ≤ (s.dom s.takeDom).sample.toNat)

/-- The take is armed (R94), or refused as late (R95). [DEDUCED, log entry 60] -/
def State.armTake (s : State) : State :=
  let set := s.settledSet s.cfg.pendingSet
  let ovs := s.overlaysWith set s.cfg.stageContents
  if s.pastPoint s.cfgTakeAt then s.discardStaging.raise R.CFG_INT_STATUS_late
  else (s.planTake s.cfgTakeAt (s.pathChange (changedSections s.cfg.overlays ovs s.cfg.contents s.held set) (s.delayMoves ovs set))).setSeq seqArmed

/-- The present sample of the take domain is the take point (R93, R95): the boundary that outputs have faded for, else the one asked for, else any.
[DEDUCED, log entry 60] -/
def State.takeReady (s : State) (at_ : Option Nat) : Bool :=
  let x := s.takeDom
  s.started x && decide ((s.dom x).b ≠ 0) && s.atBoundary x && match s.cfg.point, at_ with
    | some t, _ => t == (s.dom x).sample.toNat
    | none, some t => t == (s.dom x).sample.toNat
    | none, none => true

/-! ## The take (R92) -/

/-- The held set changes to `new`: the registers, sections and words it changes come into effect (R87 to R89, R92, R105). -/
def State.changeHeld (s : State) (new : BitVec 12) (ovs' : List Overlay) : State :=
  let old := s.held
  let ovs := s.cfg.overlays
  let secs := changedSections ovs ovs' s.cfg.contents old new
  let regs := changedRegs ovs ovs' old new
  let bank := 1 - s.basin.now.bank
  let s := (s.setCfg { s.cfg with overlays := ovs' }).setReg R.CFG_MODE_HELD (new.setWidth 32)
  let s := (inOrder secs).foldl (fun s c => s.applySection c) s
  let s := s.pathsChanged s.takeDom
  let s := regs.foldl (fun s r => s.bringAt r.1 r.2) s
  (addedWords bank ovs' old new).foldl (fun s w => s.putAt w) s

/-- Leave of a take (20 R504): the amounts of released modes return, those of added ones are held for each mode apart. -/
def State.moveLeave (s : State) (old new : BitVec 12) : State :=
  (List.range 12).foldl (fun s m =>
    if hasMode new m && !hasMode old m && s.needsLeave m then
      let q := s.requester 3
      (s.setRequester 3 { q with grant := q.grant - s.modeCost m }).setModeLeave m (s.modeCost m)
    else if hasMode old m && !hasMode new m then s.setModeLeave m 0 else s) s

/-- What a change of the held set brings beside the settings: the pair (R101; 15 R390), the end of MAINTENANCE (13 R351; 19 R498), the clocks and
the safe states. -/
def State.modesChanged (s : State) (old new : BitVec 12) : State :=
  let pair (v : BitVec 12) : Bool := hasMode v 1 || hasMode v 2
  let s := if pair new && !pair old then s.enterPair else if pair old && !pair new then s.leavePair else s
  let s := if hasMode old 9 && !hasMode new 9 then s.maintenanceEnds.disarm else s
  s.settleClocks.applySafe

/-- A take has occurred (R95): CFG_TAKE_LAST and take_done. [DEDUCED, log entry 45] -/
def State.takeDone (s : State) : State :=
  let s := s.setCfg { s.cfg with point := none }
  (s.setWide R.CFG_TAKE_LAST_LO R.CFG_TAKE_LAST_HI (s.dom s.takeDom).sample.toNat).raise R.CFG_INT_STATUS_take_done

/-- The take of a pending set with its payloads. -/
def State.takeSet (s : State) (p : BitVec 12) (ps : List PayloadContent) : State :=
  let old := s.held
  let new := s.settledSet p
  let s := s.changeHeld new (s.overlaysWith new ps)
  ((s.moveLeave old new).modesChanged old new).takeDone

/-- The armed take that a newer request was replacing has occurred: the new staging begins from the set in force (R97). [DEDUCED, log entry 56] -/
def State.afterPrior (s : State) : State :=
  let want := s.wantedSet
  if stagedPart want = stagedPart s.held then s.discardStaging else (s.discardStaging).startStaging want

/-- OVERLAY_TAKE (03 R92 to R95): at the take point the armed change takes effect. [DEDUCED, log entry 46] -/
def execOverlayTake (s : State) : Res :=
  .next (if !s.takeReady s.cfgTakeAt then s
    else if s.seq = seqArmed then
      let s := s.takeSet s.cfg.pendingSet s.cfg.stageContents
      (s.setCfg { s.cfg with pendingSet := s.held, staged := false, stageContents := [], needLeave := false, prior := none }).stagingFree.setSeq seqIdle
    else match s.cfg.prior with
      | some p => ((s.setCfg { s.cfg with prior := none }).takeSet p.set p.contents).afterPrior
      | none => s)

/-! ## Staging (R94, R98) -/

/-- The overlays a staging reads: those the new set adds or releases. -/
def State.stagedOverlays (s : State) : List Overlay :=
  let set := s.settledSet s.cfg.pendingSet
  s.cfg.overlays.filter fun o => !o.resident && !o.absent && hasMode set o.mode != s.holds o.mode

/-- An overlay passes its checks: its CRC over the bytes in the shadow, its records, and the payloads it brings (R98). [DEDUCED, log entry 57] -/
def State.overlayGood (s : State) (ps : List PayloadContent) (o : Overlay) : Bool :=
  let base := s.wide R.CFG_SHADOW_BASE_LO R.CFG_SHADOW_BASE_HI - dramBase
  crc32c (s.dramBytes (base + o.off) o.len) == o.crc && o.valid
    && (s.holds o.mode || o.replaces.all fun r => match payloadOf ps o.mode r.kind r.inst with
      | some c => contentsOk (c :: s.cfg.contents.filterMap (·.content))
      | none => false)

/-- An armed take that the completed staging replaces is discarded, and its leave returns (R97). [DEDUCED, log entry 56] -/
def State.dropPrior (s : State) : State :=
  let q := s.requester 3
  ((s.setRequester 3 { q with grant := q.grant - s.priorLeave }).setCfg { s.cfg with prior := none }).cancelB.cancelPaths

/-- Staging writes the idle program page of an engine, or of the reserve that carries its work, and the inactive gain and coefficient banks
(R94; 04 R111; 06 R177; 07 R214). -/
def State.stageSection (s : State) (sc : SectionContent) : State :=
  match sc.content with
  | none => s
  | some c =>
    let n := s.carrier sc.inst
    if sc.kind = 5 then s.setEng n { s.eng n with prog := putPage (s.eng n).prog (1 - s.rd (R.ENGn_PAGE_cur n)) c.program }
    else if sc.kind = 9 then s.stageGains c
    else if sc.kind = 10 then s.stageBanks c
    else s

/-- Staging writes the sections that the change gives another content. -/
def State.stageStores (s : State) : State :=
  let set := s.settledSet s.cfg.pendingSet
  let ovs := s.overlaysWith set s.cfg.stageContents
  (changedSections s.cfg.overlays ovs s.cfg.contents s.held set).foldl (fun s c => s.stageSection c) s

/-- A staging of modes has read and checked its overlays after `us` µs. -/
def State.stagingEnds (s : State) (us : Nat) (ps : List PayloadContent) : State :=
  if s.stagedOverlays.all (s.overlayGood ps) then
    let s := s.dropPrior
    let s := ((s.setCfg { s.cfg with staged := true, stageContents := ps }).setReg R.CFG_STAGE_TIME (BitVec.ofNat 32 us)).stageStores
    if s.cfg.needLeave ∧ (s.requester 3).pending then s.setSeq seqLeave else s.armTake
  else (s.discardStaging.raise R.CFG_INT_STATUS_stage_err).report 1 3 1

/-! ## Resident modes (R96, R101, R102) -/

/-- The resident modes as they are requested: HOLDOVER and SAFE by software or hardware, ACTIVE or STANDBY by the lease logic within the pair; a role
whose overlay is absent is refused (R90). -/
def State.residentSet (s : State) : BitVec 12 :=
  let hw : BitVec 12 := (s.reg R.CFG_MODE_HWREQ).setWidth 12
  let role := if !s.inPair then 0 else if hasMode hw 1 && !s.modeAbsent 1 then modeBit 1
    else if hasMode hw 2 && !s.modeAbsent 2 then modeBit 2 else s.held &&& 6
  s.residentWanted ||| role

/-- RESIDENT_MODE_CHANGE (03 R96): at a take-domain boundary. The change counts as a take (log entry 45). [DEDUCED, log entry 45] -/
def execResidentModeChange (s : State) : Res :=
  .next (if !s.running ∨ !s.atBoundary s.takeDom then s else
    let old := s.held
    let new := (old &&& 0x6F9) ||| s.residentSet
    if new = old then s
    else
      let s := s.changeHeld new s.cfg.overlays
      let s := if s.seq = seqIdle then s.setCfg { s.cfg with pendingSet := new } else s
      (s.modesChanged old new).takeDone)

end Sys2Proof.Machine
end

