-- ==== Sys2Proof/Machine/Mirror.lean ====
section
/-!
DEFINITION. Mirror records and the planned handover (15 R396, R397, R399, R401; 03 R101), and what a tick boundary brings (01 R28, R38).
-/
namespace Sys2Proof.Machine

/-! ## Mirror records (R396, R397, R401) -/

/-- A masked write of a record, to a mirrored block or to CFG_MODE_REQ. -/
def State.mirrorWrite (s : State) (a : Nat) (mask v : Word) : State :=
  if targetOf a = 4 then
    if mirroredBlock a ∨ a = R.CFG_MODE_REQ then
      s.regWrite 4 a (if mask = 0xFFFFFFFF then v else (s.layered a &&& ~~~mask) ||| (v &&& mask))
    else s
  else if targetOf a = 2 ∨ targetOf a = 3 then
    if mask = 0xFFFFFFFF then s.windowsPut 4 a [v] else s.putWindow a mask v
  else s

/-- A register of an engine (04, register file), by its kind in a copy. -/
def Engine.copyReg (e : Engine) (kind index : Nat) (v : Acc) : Engine :=
  match kind with
  | 0 => { e with d := Tab.set (fun _ => 0) e.d index (v.setWidth 24) }
  | 1 => { e with a := Tab.set (fun _ => 0) e.a index v }
  | 2 => { e with p := Tab.set (fun _ => 0) e.p index (v.setWidth 14) }
  | 3 => { e with m := Tab.set (fun _ => 0) e.m index (v.setWidth 14) }
  | 4 => { e with l := Tab.set (fun _ => 0) e.l index (v.setWidth 14) }
  | 5 => { e with lc := v.setWidth 16 }
  | _ => { e with sr := v.setWidth 16 }

/-- What a mirror record carries is applied. [DEDUCED, log entry 83] -/
def State.applyItem (s : State) : MirrorItem → State
  | .write a mask v => s.mirrorWrite a.toNat mask v
  | .engineReg n kind i v => s.setEng n ((s.eng n).copyReg kind i v)
  | .ramp node start g0 g1 len =>
    let g := s.basin.now
    s.setGains { g with ramps := (g.ramps.filter fun r => r.node ≠ node) ++ [⟨node, start, g0.toInt, g1.toInt, len, false⟩] }
  | .delayed l t words =>
    s.setRouter { s.router with kept := (s.router.kept.filter fun e => !(e.1 = l ∧ e.2.tick = t)) ++ [(l, ⟨t, words⟩)] }
  | .bridge g nextIn nextOut history => s.setBrun g { nextIn := nextIn, nextOut := nextOut, history := history }
  | .cic n at_ queue integ comb line odd => s.setCic n { s.cic n with at_ := at_, queue := queue, integ := integ, comb := comb, line := line, odd := odd }
  | .average c at_ queue blocks hops => s.setMa c { s.ma c with at_ := at_, queue := queue, blocks := blocks, hops := hops }
  | .streamSeq n seq => s.setTx n { s.tx n with seq := seq.toNat }

/-- A window word of a record waits while its engine runs (04 R110). [DEDUCED, log entry 83] -/
def State.itemReady (s : State) : MirrorItem → Bool
  | .write a _ _ => s.busReady a.toNat
  | _ => true

/-- MIRROR_RECORD (15 R397, R401): a record is applied at its boundary; one that comes after it is applied at once, sets mirror_late and clears
sync. A copy's records name no boundary. [DEDUCED, log entry 83] -/
def execMirrorRecord (at_ : Option (BitVec 64)) (item : MirrorItem) (s : State) : Res :=
  .next (if !s.mirrored then s else
    match at_ with
    | none => s.applyItem item
    | some t =>
      if (s.dom s.takeDom).sample.toNat < t.toNat then s.setFov { s.fov with waiting := s.fov.waiting ++ [(t.toNat, item)] }
      else ((s.applyItem item).raise R.FOV_INT_STATUS_mirror_late).loseSync)

/-- Mirrored writes whose boundary has come are applied, in order (R397). [DEDUCED, log entry 83] -/
def State.applyWaiting (s : State) : State :=
  let now := (s.dom s.takeDom).sample.toNat
  let (due, rest) := s.fov.waiting.partition fun e => decide (e.1 ≤ now) && s.itemReady e.2
  due.foldl (fun s e => s.applyItem e.2) (s.setFov { s.fov with waiting := rest })

/-! ## Handover (R399) -/

/-- The role of a handover is held from this same boundary (03 R101). [DEDUCED, log entry 85] -/
def State.holdRole (s : State) (role : BitVec 12) : State :=
  let old := s.held
  let new := (old &&& 0xFF9) ||| role
  if new = old then s
  else
    let s := s.changeHeld new s.cfg.overlays
    let s := if s.seq = seqIdle then s.setCfg { s.cfg with pendingSet := new } else s
    (s.modesChanged old new).takeDone

/-- The new keeper's outputs carry samples at once, without a fade (R399). [DEDUCED, log entry 85] -/
def State.noFade (s : State) : State :=
  let s := (List.range 4).foldl (fun s g =>
    let r := s.grp g
    if r.safe then s else s.setGrp g { r with safeFade := .none, frameSafe := false }) s
  s.txStreams.foldl (fun s e => s.setTx e.1 { e.2 with silent := false, fade := match e.2.fade with | .into _ => .none | f => f }) s

/-- YIELD_HANDOVER (15 R399), at the boundary of the yield: the keeper fences and becomes standby; the standby becomes keeper. [DEDUCED, log entry 85] -/
def execYieldHandover (s : State) : Res :=
  .next (let now := (s.dom s.takeDom).sample.toNat
    if !s.atBoundary s.takeDom ∨ !(s.fov.yieldAt.any fun t => decide (t ≤ now)) then s
    else if s.fovState = 3 ∧ s.fov.yieldEchoed then (s.stopKeeper 2).bump (highHalf R.FOV_COUNT0) |>.holdRole 4
    else if s.fovState = 2 then ((s.bump (highHalf R.FOV_COUNT0)).becomeKeeper.holdRole 2).noFade
    else s)

/-! ## The tick boundary (01 R28) -/

/-- What a boundary of domain `x` brings by itself: SH fields (00 R15), aborts of substitutions (04 R132), what a take has left for the domain (03 R93), mirrored
writes at the boundaries of the take domain (15 R397), audio of Nerax links (14 R370), the tick strobe (18 R464), and the delay-line reads of the tick (16 R412). [DEDUCED, log entry 55] -/
def State.beginTick (s : State) (x : Nat) : State :=
  let s := ((s.shBoundaryTakes x false).abortsAt x).takeLater x
  let s := if x = s.takeDom then s.applyWaiting else s
  ((s.audioBoundary x).strobe x).fetchDelays x

/-- TICK_BOUNDARY (01 R28). [DEDUCED, log entry 46; DEDUCED, log entry 60] -/
def execTickBoundary (x : DomIx) (s : State) : Res :=
  .next (if s.halted ∨ !s.started x ∨ (s.dom x).b = 0 ∨ !s.atBoundary x then s else s.beginTick x)

end Sys2Proof.Machine
end

