-- ==== Sys2Proof/Machine/Replace.lean ====
section
/-!
DEFINITION. Image replacement (21 R535 to R538), and the end of a staging, of modes or of an image (03 R94).
-/
namespace Sys2Proof.Machine

/-! ## Start (R535) -/

/-- The sections that a replacement may not change: LANES, DRAM and PCIE. -/
def frozenKinds : List Nat := [0xC, 0x11, 0x12]

/-- The body of a section. -/
def sectionBody (b : List Byte) (kind inst : Nat) : Option (List Byte) := (secEntry b kind inst).map fun e => bodyAt b e.off e.len

/-- The amounts the overlay sequencer holds. -/
def State.sequencerLeave (s : State) : Nat := (s.weir.modeLeave.map fun e => e.2).sum + (s.requester 3).grant

/-- The code of R535 for an image: the checks of R83 first, then in the order of the list; 1 where nothing refuses it. [DEDUCED, log entry 52] -/
def State.replacementCode (s : State) (i : Image) : Nat :=
  let old := s.shadowBytes
  let c := s.imageCheck i
  if c ≠ 1 then c
  else if frozenKinds.any fun k => sectionBody i.bytes k 0 ≠ sectionBody old k 0 then 0x23
  else if (List.range 3).any fun m => s.holds m && (ovEntry i.bytes m).any fun e => e.absent then 0x24
  else if budget s < getBits (contentReg i.sections 0xF R.WEIR_RESERVE) 0 12 + (s.granted - s.sequencerLeave) then 0x25
  else if s.replacing || s.seq != seqIdle then 0x26
  else 1

/-- A replacement is refused: nothing changes but the report. [DEDUCED, log entry 52] -/
def State.refuseReplacement (s : State) (code : Nat) : State :=
  (s.wr R.GLB_REPL_STATUS_code code).raise R.GLB_INT_STATUS_repl_err

/-- The image at GLB_REPL_SRC, with what its bodies hold. -/
def State.imageAt (s : State) (i : Image) : Image :=
  let off := s.wide R.GLB_REPL_SRC_LO R.GLB_REPL_SRC_HI - dramBase
  let len := leNat (s.dramBytes (off + 0x10) 4)
  { i with bytes := s.dramBytes off (min len (2 ^ 25)) }

/-- The held modes that stay at the take: all but those whose overlay the image marks absent (R536). -/
def State.keptSet (s : State) (b : List Byte) : BitVec 12 :=
  (List.range 12).foldl (fun v m => if s.holds m && !(ovEntry b m).any (·.absent) then v ||| modeBit m else v) 0

/-- The leave each held mode needs under an image. -/
def imageLeave (i : Image) (set : BitVec 12) (m : Nat) : Nat :=
  if hasMode set m && (ovEntry i.bytes m).any (·.needsLeave) then getBits (contentReg i.sections 0xF (R.WEIR_MODE_COSTm m)) 0 12 else 0

/-- The leave a replacement asks for: what its held modes need beyond what the sequencer holds (log entry 47). [DESIGN CHOICE, log entry 47] -/
def State.extraLeave (s : State) (i : Image) : Nat :=
  ((List.range 12).map (imageLeave i (s.keptSet i.bytes))).sum - s.sequencerLeave

/-- IMAGE_REPLACEMENT_START (21 R535, R536): the bytes are those in DRAM at GLB_REPL_SRC. [DESIGN CHOICE, log entry 14; DEDUCED, log entry 52] -/
def execImageReplacementStart (image : Image) (s : State) : Res :=
  .next (if !s.running then s else
    let i := s.imageAt image
    let code := s.replacementCode i
    if code ≠ 1 then (s.refuseReplacement code).answer []
    else
      let s := (s.setGlb { s.glb with newImage := some i }).wr R.GLB_REPL_STATUS_state 2
      let extra := s.extraLeave i
      (if extra = 0 then s else s.weirRequest 3 extra).answer [])

/-! ## Staging and arming (R536) -/

/-- The sections whose content in force a replacement changes. -/
def State.replacedSections (s : State) (i : Image) : List SectionContent :=
  let set := s.keptSet i.bytes
  let ovs := imageOverlays i set
  let keys := ((i.sections ++ s.cfg.contents).map (fun c => (c.kind, c.inst)) ++
    (s.cfg.overlays ++ ovs).flatMap fun o => o.replaces.map fun r => (r.kind, r.inst)).eraseDups
  keys.filterMap fun k =>
    let c := effectiveContent ovs i.sections set k.1 k.2
    if c.isNone ∨ c = effectiveContent s.cfg.overlays s.cfg.contents s.held k.1 k.2 then none else some ⟨k.1, k.2, c⟩

/-! ## The take (R536, R537) -/

/-- The software layer is kept where the image's value is equal, and discarded elsewhere. CFG_MODE_REQ keeps what is requested of modes that
stay (log entry 48). [DEDUCED, log entry 48] -/
def State.adoptLayers (s : State) (image : List (Nat × Word)) (released : BitVec 12) : State :=
  let l := s.layers
  let req := s.reg R.CFG_MODE_REQ &&& ~~~(released.setWidth 32)
  let mask := l.softMask.foldl (fun t e =>
    Tab.set (fun _ => 0) t e.1 (e.2 &&& ~~~(Tab.get resetValue l.image e.1 ^^^ Tab.get resetValue image e.1))) l.softMask
  let s := { s with layers := { l with image := image, softMask := mask } }
  s.soften R.CFG_MODE_REQ 0xFFF req

/-- The registers an image and the overlays of a set decide. -/
def decidedRegs (image : List (Nat × Word)) (ovs : List Overlay) (set : BitVec 12) : List Nat := image.map (·.1) ++ writtenBy ovs set

/-- The new image takes effect: its layers, its overlays, its sections. [DEDUCED, log entry 48] -/
def State.applyImage (s : State) (i : Image) : State :=
  let old := s.held
  let set := s.keptSet i.bytes
  let secs := s.replacedSections i
  let image := Tab.set resetValue (imageRegisters i) R.CFG_MODE_REQ ((imageModes i.bytes).setWidth 32)
  let ovs := imageOverlays i set
  let regs := (decidedRegs s.layers.image s.cfg.overlays old ++ decidedRegs image ovs set ++ s.layers.softMask.map (·.1)).eraseDups
  let was := regs.map fun a => (a, s.layered a)
  let s := s.setCfg { s.cfg with
    overlays := ovs, bootModes := imageModes i.bytes, takeDomain := Fin.ofNat 3 (imageTakeDomain i.bytes),
    shadowLen := imageShadowLen i.bytes, imageBytes := imageLen i.bytes, contents := i.sections, pendingSet := set }
  let s := (s.adoptLayers image (old &&& ~~~set)).setReg R.CFG_MODE_HELD (set.setWidth 32)
  let s := (inOrder secs).foldl (fun s c => s.applySection c) s
  let s := s.pathsChanged s.takeDom
  was.foldl (fun s e => if s.layered e.1 = e.2 then s else s.bringAt e.1 (s.layered e.1 ^^^ e.2)) s

/-! ## Arming (R536) -/

/-- The replacement's take is armed, or refused as late (R536; 03 R95). -/
def State.armReplacement (s : State) : State :=
  match s.glb.newImage with
  | some i =>
    if s.pastPoint s.replTakeAt then s.abortReplacement.raise R.GLB_INT_STATUS_repl_late
    else
      let t := s.applyImage i
      let moved := (s.router.dests.map (·.number)).filter fun d =>
        s.isDelayed d (getBits (t.layered (R.RTR_ROUTEd d)) 0 13) != s.is (R.RTR_ROUTEd_delayed d)
      (s.planTake s.replTakeAt (s.pathChange (s.replacedSections i) moved)).wr R.GLB_REPL_STATUS_state 4
  | none => s

/-- STAGING_COMPLETE (03 R94, R98; 21 R536): after `us` µs, with what the payloads read hold. [DEDUCED, log entry 57] -/
def execStagingComplete (us : Nat) (payloads : List PayloadContent) (s : State) : Res :=
  .next (if s.rd R.GLB_REPL_STATUS_state = 2 then
      if (s.requester 3).pending then s.wr R.GLB_REPL_STATUS_state 3 else s.armReplacement
    else if s.seq = seqStaging ∧ !s.cfg.staged then s.stagingEnds us payloads
    else s)

/-- The weir grants the sequencer its leave (R94). -/
def State.sequencerGranted (s : State) : State :=
  if s.rd R.GLB_REPL_STATUS_state = 3 then s.armReplacement
  else if s.seq = seqLeave then s.armTake
  else s

/-- The leave of the held modes under the new image. [DESIGN CHOICE, log entry 47] -/
def State.adoptLeave (s : State) (i : Image) (set : BitVec 12) : State :=
  let s := s.setRequester 3 { s.requester 3 with grant := 0 }
  (List.range 12).foldl (fun s m => s.setModeLeave m (imageLeave i set m)) s

/-- Identity frames leave every link that is up, and each peer's build_id is held to the new image (R537). [DEDUCED, log entry 52] -/
def State.sendIdentities (s : State) : State :=
  (List.range 4).foldl (fun s k => if s.linkState k = 5 then (s.sendIdentity k).judgeBuild k else s) s

/-- IMAGE_REPLACEMENT_TAKE (21 R536): the held set is kept but for modes whose overlay is absent; a forced safe state prevails (R538). -/
def execImageReplacementTake (s : State) : Res :=
  .next (match s.glb.newImage with
    | none => s
    | some i =>
      if s.rd R.GLB_REPL_STATUS_state ≠ 4 ∨ !s.takeReady s.replTakeAt then s
      else
        let old := s.held
        let set := s.keptSet i.bytes
        let base := s.wide R.GLB_REPL_SRC_LO R.GLB_REPL_SRC_HI
        let s := ((s.applyImage i).adoptLeave i set).reportImage i.bytes base
        let s := (s.setGlb { s.glb with newImage := none }).wr R.GLB_REPL_STATUS_state 0
        let s := (s.modesChanged old set).raise R.GLB_INT_STATUS_repl_done
        s.sendIdentities)

/-- REPLACEMENT_BUILD_ID_MISMATCH (21 R537; 14 R371): a peer has reported another build_id for more than 10 ms. -/
def execReplacementBuildIdMismatch (k : LinkIx) (s : State) : Res :=
  .next (if s.linkState k = 5 ∧ (s.link k).differs.any fun t => t + 2500000 < s.now then s.linkFall k else s)

end Sys2Proof.Machine
end

