-- ==== Sys2Proof/Machine/Grant.lean ====
section
/-!
DEFINITION. The weir's grant reaches its requester (20 R505, R509), and telemetry (20 R517, R518).
-/
namespace Sys2Proof.Machine

/-- What requester `r` does with its grant (20 R503). -/
def State.leaveGranted (s : State) (r : Nat) : State :=
  if r < 2 then s.substLeave r
  else if r = 2 then s.resyncLeave
  else if r = 3 then s.sequencerGranted
  else if r < 8 then s.ampLeave (r - 4)
  else if r = 8 then s.retrainLeaveGranted
  else if r < 21 then s.laneLeave (r - 9)
  else (s.wr drgPending 0).wr drgLeave 1

/-- WEIR_GRANT (20 R505, R506, R509): the highest-ranked request that fits, unless a starving one above it holds it back; none while over. -/
def execWeirGrant (s : State) : Res :=
  .next (if s.is weirOver then s else
    match s.weirNext (List.range 22) with
    | some r => (s.weirTake r).leaveGranted r
    | none => s)

/-! ## Telemetry (R517, R518) -/

/-- The word of item `i`, and whether its read ended in a default-target error. [DESIGN CHOICE, log entry 33; DESIGN CHOICE, log entry 34] -/
def State.tlmItem (s : State) (i : Nat) : State × Word × Bool :=
  let kind := s.rd ⟨R.TLM_ITEMi i, 30, 2⟩
  let n := s.rd ⟨R.TLM_ITEMi i, 0, 24⟩
  match kind with
  | 1 => (s, Config.telemetryAverage (s.ma n).result, false)
  | 2 => (s, s.reg (Config.monitorRegister n), false)
  | 3 =>
    let s := (s.busRead 7 n 4).1
    if s.reply.response = .defaultTarget then (s, 0xFFFFFFFF, true) else (s, s.reply.data.headD 0, false)
  | _ => (s, 0, false)

/-- The 64 item words; read errors are counted (R517). -/
def State.tlmItems (s : State) : Nat → State × List Word
  | 0 => (s, [])
  | k + 1 =>
    let (s, ws) := s.tlmItems k
    let (s, w, bad) := s.tlmItem k
    let s := if bad then (s.bump (highHalf R.TLM_COUNT)).raise (bitAt R.TLM_INT_STATUS 3) else s
    (s, ws ++ [w])

/-- The ring: 2^k records, k from 1 to 12 (R521). [DEDUCED, log entry 35] -/
def State.tlmRing (s : State) : Nat := 2 ^ max 1 (min 12 (s.rd ⟨R.TLM_CTRL, 8, 4⟩))

/-- TLM_PERIOD in cycles: 1 to 1000 ms (20 R521). -/
def State.tlmPeriod (s : State) : Nat := max 1 (min 1000 (s.rd (highHalf R.TLM_CTRL))) * 250000

/-- A record of `n` item words goes to the next slot of the ring (20 R518). [DEDUCED, log entry 35] -/
def State.tlmWrite (s : State) (n : Nat) : State :=
  let (t1, t2, t3) := s.logTime (s.rd ⟨R.FLT_CTRL, 4, 2⟩)
  let (s, items) := s.tlmItems n
  let words := [BitVec.ofNat 32 s.tlm.record, t1, t2, t3] ++ items
  let slot := (s.reg R.TLM_WR_IDX).toNat % s.tlmRing
  let s := s.busWrite 7 (s.wide R.TLM_RING_LO R.TLM_RING_HI + 272 * slot) ((bytesOf words).map some)
  s.setReg R.TLM_WR_IDX (s.reg R.TLM_WR_IDX + 1)

/-- TELEMETRY_RECORD (20 R518): once the period has elapsed, 68 words into the next slot, as master 7; an abandoned record keeps its number out of
the ring. [DEDUCED, log entry 35] -/
def execTelemetryRecord (abandoned : Bool) (s : State) : Res :=
  .next (if !s.is tlmEnabled ∨ s.now < s.tlm.since + s.tlmPeriod then s else
    let s := s.setTlm { s.tlm with since := s.tlm.since + s.tlmPeriod }
    let s := if abandoned then (s.bump (lowHalf R.TLM_COUNT)).raise (bitAt R.TLM_INT_STATUS 2) else s.tlmWrite 64
    s.setTlm { s.tlm with record := s.tlm.record + 1 })

end Sys2Proof.Machine
end

