-- ==== Sys2Proof/Machine/Dispatch.lean ====
section
/-! DEFINITION. `exec`: every command goes to its meaning, one arm per row of spec/opcode_table.json. -/
namespace Sys2Proof.Machine

def exec (i : Instr) (s : State) : Host.Outcome State Fault Refusal :=
  match i with
  | .registerWrite m addr bytes data sets => Sys2Proof.Machine.execRegisterWrite m addr bytes data sets s
  | .rcRead addr updates => Sys2Proof.Machine.execRcRead addr updates s
  | .wideLowWordRead addr => Sys2Proof.Machine.execWideLowWordRead addr s
  | .wideHighWordWrite addr data => Sys2Proof.Machine.execWideHighWordWrite addr data s
  | .shFieldTakesEffect addr => Sys2Proof.Machine.execShFieldTakesEffect addr s
  | .tickBoundary x => Sys2Proof.Machine.execTickBoundary x s
  | .sampleEdge x inputs => Sys2Proof.Machine.execSampleEdge x inputs s
  | .bargeCommit lock tick words => Sys2Proof.Machine.execBargeCommit lock tick words s
  | .creditReturn lock => Sys2Proof.Machine.execCreditReturn lock s
  | .lockCrossingComplete lock ecc => Sys2Proof.Machine.execLockCrossingComplete lock ecc s
  | .captureCommit lock => Sys2Proof.Machine.execCaptureCommit lock s
  | .consumerDeadline lock => Sys2Proof.Machine.execConsumerDeadline lock s
  | .lateBargeDiscard lock => Sys2Proof.Machine.execLateBargeDiscard lock s
  | .egressDeadline lock => Sys2Proof.Machine.execEgressDeadline lock s
  | .domainRealignment x => Sys2Proof.Machine.execDomainRealignment x s
  | .bootAttempt image training => Sys2Proof.Machine.execBootAttempt image training s
  | .bootSourceFailure code => Sys2Proof.Machine.execBootSourceFailure code s
  | .dpllBootWaitExpiry x => Sys2Proof.Machine.execDpllBootWaitExpiry x s
  | .firstAudio ms => Sys2Proof.Machine.execFirstAudio ms s
  | .hostPushChunk length last => Sys2Proof.Machine.execHostPushChunk length last s
  | .pushChunkTaken => Sys2Proof.Machine.execPushChunkTaken s
  | .neraxBootFrame bytes last => Sys2Proof.Machine.execNeraxBootFrame bytes last s
  | .powerOnReset boot devid fuses => Sys2Proof.Machine.execPowerOnReset boot devid fuses s
  | .deviceReset => Sys2Proof.Machine.execDeviceReset s
  | .glbRstWrite value => Sys2Proof.Machine.execGlbRstWrite value s
  | .modeRequestWrite value => Sys2Proof.Machine.execModeRequestWrite value s
  | .stagingComplete us payloads => Sys2Proof.Machine.execStagingComplete us payloads s
  | .overlayTake => Sys2Proof.Machine.execOverlayTake s
  | .takeRefusedLate => Sys2Proof.Machine.execTakeRefusedLate s
  | .residentModeChange => Sys2Proof.Machine.execResidentModeChange s
  | .takeAbort => Sys2Proof.Machine.execTakeAbort s
  | .hardwareModeRequest mode on => Sys2Proof.Machine.execHardwareModeRequest mode on s
  | .engineTickStrobe n slack => Sys2Proof.Machine.execEngineTickStrobe n slack s
  | .engineGateOpen n => Sys2Proof.Machine.execEngineGateOpen n s
  | .engineStartDeadline n => Sys2Proof.Machine.execEngineStartDeadline n s
  | .engineOutletCommit n outlet => Sys2Proof.Machine.execEngineOutletCommit n outlet s
  | .engineWindowAccess n user offset write ecc => Sys2Proof.Machine.execEngineWindowAccess n user offset write ecc s
  | .programPageSwapRequest n => Sys2Proof.Machine.execProgramPageSwapRequest n s
  | .paramPageSwapRequest n => Sys2Proof.Machine.execParamPageSwapRequest n s
  | .paramCopyEnd n => Sys2Proof.Machine.execParamCopyEnd n s
  | .engineRelockEnd n => Sys2Proof.Machine.execEngineRelockEnd n s
  | .nop n fetch => Sys2Proof.Machine.execNop n fetch s
  | .mpy n lane a s1 s2 last => Sys2Proof.Machine.execMpy n lane a s1 s2 last s
  | .mac n lane a s1 s2 last => Sys2Proof.Machine.execMac n lane a s1 s2 last s
  | .macn n lane a s1 s2 last => Sys2Proof.Machine.execMacn n lane a s1 s2 last s
  | .clr n a last => Sys2Proof.Machine.execClr n a last s
  | .lda n a d last => Sys2Proof.Machine.execLda n a d last s
  | .add n a d last => Sys2Proof.Machine.execAdd n a d last s
  | .sub n a d last => Sys2Proof.Machine.execSub n a d last s
  | .adda n a a' last => Sys2Proof.Machine.execAdda n a a' last s
  | .suba n a a' last => Sys2Proof.Machine.execSuba n a a' last s
  | .neg n a last => Sys2Proof.Machine.execNeg n a last s
  | .abs n a last => Sys2Proof.Machine.execAbs n a last s
  | .cmp n a d last => Sys2Proof.Machine.execCmp n a d last s
  | .max n a d last => Sys2Proof.Machine.execMax n a d last s
  | .min n a d last => Sys2Proof.Machine.execMin n a d last s
  | .lim n a last => Sys2Proof.Machine.execLim n a last s
  | .exp n a d last => Sys2Proof.Machine.execExp n a d last s
  | .norm n a d last => Sys2Proof.Machine.execNorm n a d last s
  | .ash n a d last => Sys2Proof.Machine.execAsh n a d last s
  | .ld n bus p d update ecc last => Sys2Proof.Machine.execLd n bus p d update ecc last s
  | .st n bus p d update last => Sys2Proof.Machine.execSt n bus p d update last s
  | .stSat n bus p a update last => Sys2Proof.Machine.execStSat n bus p a update last s
  | .take n inlet d ecc last => Sys2Proof.Machine.execTake n inlet d ecc last s
  | .send n outlet d last => Sys2Proof.Machine.execSend n outlet d last s
  | .sendSat n outlet a last => Sys2Proof.Machine.execSendSat n outlet a last s
  | .storeBufferWrite n bus => Sys2Proof.Machine.execStoreBufferWrite n bus s
  | .ldi n r imm => Sys2Proof.Machine.execLdi n r imm s
  | .mov n r r' => Sys2Proof.Machine.execMov n r r' s
  | .ashi n a s_ => Sys2Proof.Machine.execAshi n a s_ s
  | .lea n p imm => Sys2Proof.Machine.execLea n p imm s
  | .bra n cc target => Sys2Proof.Machine.execBra n cc target s
  | .doLoop n count e => Sys2Proof.Machine.execDoLoop n count e s
  | .dor n r e => Sys2Proof.Machine.execDor n r e s
  | .brk n => Sys2Proof.Machine.execBrk n s
  | .park n => Sys2Proof.Machine.execPark n s
  | .substitutionStart u => Sys2Proof.Machine.execSubstitutionStart u s
  | .substitutionRelockEnd u => Sys2Proof.Machine.execSubstitutionRelockEnd u s
  | .substitutionCopyEnd u => Sys2Proof.Machine.execSubstitutionCopyEnd u s
  | .substitutionReady u => Sys2Proof.Machine.execSubstitutionReady u s
  | .substitutionCut u => Sys2Proof.Machine.execSubstitutionCut u s
  | .substitutionCutCommand u => Sys2Proof.Machine.execSubstitutionCutCommand u s
  | .substitutionRelease u => Sys2Proof.Machine.execSubstitutionRelease u s
  | .substitutionCutBack u => Sys2Proof.Machine.execSubstitutionCutBack u s
  | .substitutionAbort u => Sys2Proof.Machine.execSubstitutionAbort u s
  | .substitutionAutoFail u target => Sys2Proof.Machine.execSubstitutionAutoFail u target s
  | .basinGroupProcess group ecc => Sys2Proof.Machine.execBasinGroupProcess group ecc s
  | .basinPhaseEnd => Sys2Proof.Machine.execBasinPhaseEnd s
  | .basinDeadline => Sys2Proof.Machine.execBasinDeadline s
  | .bankWindowAccess m offset bytes write ecc reached => Sys2Proof.Machine.execBankWindowAccess m offset bytes write ecc reached s
  | .bankCopyRequest => Sys2Proof.Machine.execBankCopyRequest s
  | .bankCopyEnd => Sys2Proof.Machine.execBankCopyEnd s
  | .sceneTakeRequest atEn => Sys2Proof.Machine.execSceneTakeRequest atEn s
  | .sceneTake => Sys2Proof.Machine.execSceneTake s
  | .sceneTakeLate => Sys2Proof.Machine.execSceneTakeLate s
  | .crossfadeEnd => Sys2Proof.Machine.execCrossfadeEnd s
  | .rampPush length gang => Sys2Proof.Machine.execRampPush length gang s
  | .rampStart recent reached => Sys2Proof.Machine.execRampStart recent reached s
  | .rampEnd => Sys2Proof.Machine.execRampEnd s
  | .routeWrite d value => Sys2Proof.Machine.execRouteWrite d value s
  | .routeTakesEffect d => Sys2Proof.Machine.execRouteTakesEffect d s
  | .routerHoldRelease => Sys2Proof.Machine.execRouterHoldRelease s
  | .routerHop lock ecc => Sys2Proof.Machine.execRouterHop lock ecc s
  | .routerDeadline lock => Sys2Proof.Machine.execRouterDeadline lock s
  | .fmpGainWrite n k source write => Sys2Proof.Machine.execFmpGainWrite n k source write s
  | .fmpCtrlChange n write => Sys2Proof.Machine.execFmpCtrlChange n write s
  | .bridgeInputTake group ecc => Sys2Proof.Machine.execBridgeInputTake group ecc s
  | .bridgeOutputCommit group dev phase instant => Sys2Proof.Machine.execBridgeOutputCommit group dev phase instant s
  | .bridgeUnlock p dev phase => Sys2Proof.Machine.execBridgeUnlock p dev phase s
  | .bridgeResync p => Sys2Proof.Machine.execBridgeResync p s
  | .bridgeLock p dev phase => Sys2Proof.Machine.execBridgeLock p dev phase s
  | .bridgeSyncRequest p phase => Sys2Proof.Machine.execBridgeSyncRequest p phase s
  | .bridgeSyncLost p => Sys2Proof.Machine.execBridgeSyncLost p s
  | .cicOutput n bits corrected => Sys2Proof.Machine.execCicOutput n bits corrected s
  | .firSwapRequest n => Sys2Proof.Machine.execFirSwapRequest n s
  | .firSwap n => Sys2Proof.Machine.execFirSwap n s
  | .firSwapCrossfadeEnd n => Sys2Proof.Machine.execFirSwapCrossfadeEnd n s
  | .movingAverageHop ch corrected => Sys2Proof.Machine.execMovingAverageHop ch corrected s
  | .maCfgTakesEffect ch => Sys2Proof.Machine.execMaCfgTakesEffect ch s
  | .flcEccUncorrectable w => Sys2Proof.Machine.execFlcEccUncorrectable w s
  | .inmaskChange p => Sys2Proof.Machine.execInmaskChange p s
  | .outmaskChange p => Sys2Proof.Machine.execOutmaskChange p s
  | .formatApply g => Sys2Proof.Machine.execFormatApply g s
  | .formatChangeFadeOut g => Sys2Proof.Machine.execFormatChangeFadeOut g s
  | .formatChangeTake g => Sys2Proof.Machine.execFormatChangeTake g s
  | .formatChangeDone g => Sys2Proof.Machine.execFormatChangeDone g s
  | .slaveFrameStart g delta bits period => Sys2Proof.Machine.execSlaveFrameStart g delta bits period s
  | .bclkStopped g bits => Sys2Proof.Machine.execBclkStopped g bits s
  | .fsLost g => Sys2Proof.Machine.execFsLost g s
  | .slaveLock g => Sys2Proof.Machine.execSlaveLock g s
  | .rateGateEnd g rate => Sys2Proof.Machine.execRateGateEnd g rate s
  | .ampLoopPeriod c rail drvFlt => Sys2Proof.Machine.execAmpLoopPeriod c rail drvFlt s
  | .ampGroupEnable a en => Sys2Proof.Machine.execAmpGroupEnable a en s
  | .ampChannelEnable c => Sys2Proof.Machine.execAmpChannelEnable c s
  | .ampBootEnd c => Sys2Proof.Machine.execAmpBootEnd c s
  | .ampCmRampEnd c => Sys2Proof.Machine.execAmpCmRampEnd c s
  | .ampFadeOutEnd c => Sys2Proof.Machine.execAmpFadeOutEnd c s
  | .ampOffReached c => Sys2Proof.Machine.execAmpOffReached c s
  | .cycleByCycleLimit c bits => Sys2Proof.Machine.execCycleByCycleLimit c bits s
  | .shortCircuitTrip c bits => Sys2Proof.Machine.execShortCircuitTrip c bits s
  | .driverFault a => Sys2Proof.Machine.execDriverFault a s
  | .senseLost c => Sys2Proof.Machine.execSenseLost c s
  | .ampRetry c => Sys2Proof.Machine.execAmpRetry c s
  | .ampRetryReset c => Sys2Proof.Machine.execAmpRetryReset c s
  | .ampClear c => Sys2Proof.Machine.execAmpClear c s
  | .drvFltReleaseHoldEnd a => Sys2Proof.Machine.execDrvFltReleaseHoldEnd a s
  | .railQualified a => Sys2Proof.Machine.execRailQualified a s
  | .ampSafeRelease a => Sys2Proof.Machine.execAmpSafeRelease a s
  | .calibrationWindow c vgain => Sys2Proof.Machine.execCalibrationWindow c vgain s
  | .candidateWindowClose c edge => Sys2Proof.Machine.execCandidateWindowClose c edge s
  | .candidateStrayEdge c => Sys2Proof.Machine.execCandidateStrayEdge c s
  | .candidateFirstEdge c => Sys2Proof.Machine.execCandidateFirstEdge c s
  | .candidateQualified c => Sys2Proof.Machine.execCandidateQualified c s
  | .frequencyInterval c freq => Sys2Proof.Machine.execFrequencyInterval c freq s
  | .driftFit c => Sys2Proof.Machine.execDriftFit c s
  | .crossCheckOutvoted c => Sys2Proof.Machine.execCrossCheckOutvoted c s
  | .timeCandidateSourceLoss c => Sys2Proof.Machine.execTimeCandidateSourceLoss c s
  | .waitToRestoreExpiry x => Sys2Proof.Machine.execWaitToRestoreExpiry x s
  | .forceWrite x en sel => Sys2Proof.Machine.execForceWrite x en sel s
  | .switchCaptureStart x => Sys2Proof.Machine.execSwitchCaptureStart x s
  | .switchCaptureEnd x offset => Sys2Proof.Machine.execSwitchCaptureEnd x offset s
  | .passThroughRampEnd x => Sys2Proof.Machine.execPassThroughRampEnd x s
  | .dpllStageAdvance x phase freq => Sys2Proof.Machine.execDpllStageAdvance x phase freq s
  | .imagoFallback x phase => Sys2Proof.Machine.execImagoFallback x phase s
  | .cocoonEntry x rec => Sys2Proof.Machine.execCocoonEntry x rec s
  | .cocoonExit x => Sys2Proof.Machine.execCocoonExit x s
  | .clkHoldWrite x hold rec => Sys2Proof.Machine.execClkHoldWrite x hold rec s
  | .alignLost x phase => Sys2Proof.Machine.execAlignLost x phase s
  | .realignWrite x => Sys2Proof.Machine.execRealignWrite x s
  | .pulseOutputRealign o => Sys2Proof.Machine.execPulseOutputRealign o s
  | .pulseOutputPulse o misalignment => Sys2Proof.Machine.execPulseOutputPulse o misalignment s
  | .oscInStopped => Sys2Proof.Machine.execOscInStopped s
  | .oscWarn => Sys2Proof.Machine.execOscWarn s
  | .timeSnap => Sys2Proof.Machine.execTimeSnap s
  | .timeBaseLoad n set3 => Sys2Proof.Machine.execTimeBaseLoad n set3 s
  | .timeBaseStep n stepHi => Sys2Proof.Machine.execTimeBaseStep n stepHi s
  | .timeBaseAdjWrite n value => Sys2Proof.Machine.execTimeBaseAdjWrite n value s
  | .servoMeasurement n measHi withStep => Sys2Proof.Machine.execServoMeasurement n measHi withStep s
  | .measurementTimeout n => Sys2Proof.Machine.execMeasurementTimeout n s
  | .derivedSourceChange n => Sys2Proof.Machine.execDerivedSourceChange n s
  | .derivedWtrExpiry n => Sys2Proof.Machine.execDerivedWtrExpiry n s
  | .derivedProfileEnd n => Sys2Proof.Machine.execDerivedProfileEnd n s
  | .txTimestampEntry m tag tb discarded => Sys2Proof.Machine.execTxTimestampEntry m tag tb discarded s
  | .txqPop m => Sys2Proof.Machine.execTxqPop m s
  | .linkUp m negotiated => Sys2Proof.Machine.execLinkUp m negotiated s
  | .linkDown m => Sys2Proof.Machine.execLinkDown m s
  | .frameReceive m error frame => Sys2Proof.Machine.execFrameReceive m error frame s
  | .softwareFrameTransmit m gapNs => Sys2Proof.Machine.execSoftwareFrameTransmit m gapNs s
  | .softwareFrameAged m => Sys2Proof.Machine.execSoftwareFrameAged m s
  | .streamPacketLaunch n => Sys2Proof.Machine.execStreamPacketLaunch n s
  | .txStreamEnable n => Sys2Proof.Machine.execTxStreamEnable n s
  | .rxStreamEnable n => Sys2Proof.Machine.execRxStreamEnable n s
  | .lpiEntry m => Sys2Proof.Machine.execLpiEntry m s
  | .lpiWake m => Sys2Proof.Machine.execLpiWake m s
  | .laneSynthLock n => Sys2Proof.Machine.execLaneSynthLock n s
  | .laneSignalDetect n => Sys2Proof.Machine.execLaneSignalDetect n s
  | .laneCdrLock n => Sys2Proof.Machine.execLaneCdrLock n s
  | .laneCtleConverged n ctle => Sys2Proof.Machine.execLaneCtleConverged n ctle s
  | .laneDfeConverged n taps => Sys2Proof.Machine.execLaneDfeConverged n taps s
  | .laneAdaptTimeout n => Sys2Proof.Machine.execLaneAdaptTimeout n s
  | .laneSignalLoss n afterLpi => Sys2Proof.Machine.execLaneSignalLoss n afterLpi s
  | .readaptWrite n => Sys2Proof.Machine.execReadaptWrite n s
  | .readaptEnd n ctle taps => Sys2Proof.Machine.execReadaptEnd n ctle taps s
  | .elasticBufferUnit n fill => Sys2Proof.Machine.execElasticBufferUnit n fill s
  | .elasticBufferRecentre n full => Sys2Proof.Machine.execElasticBufferRecentre n full s
  | .embeddedClockFallback k => Sys2Proof.Machine.execEmbeddedClockFallback k s
  | .embeddedClockReturn k => Sys2Proof.Machine.execEmbeddedClockReturn k s
  | .refclkLost r => Sys2Proof.Machine.execRefclkLost r s
  | .refclkReturn r => Sys2Proof.Machine.execRefclkReturn r s
  | .loopModeWrite n mode => Sys2Proof.Machine.execLoopModeWrite n mode s
  | .prbsCtrlWrite n value => Sys2Proof.Machine.execPrbsCtrlWrite n value s
  | .prbsCheckerLock n lock bits errors => Sys2Proof.Machine.execPrbsCheckerLock n lock bits errors s
  | .injectOnce n => Sys2Proof.Machine.execInjectOnce n s
  | .scanStart n value => Sys2Proof.Machine.execScanStart n value s
  | .scanDone n errors => Sys2Proof.Machine.execScanDone n errors s
  | .rxIdleTimeout n => Sys2Proof.Machine.execRxIdleTimeout n s
  | .neraxFrameReceive k f crcOk credits => Sys2Proof.Machine.execNeraxFrameReceive k f crcOk credits s
  | .neraxAckSend k => Sys2Proof.Machine.execNeraxAckSend k s
  | .neraxNakReplay k seq => Sys2Proof.Machine.execNeraxNakReplay k seq s
  | .neraxAckTimeout k => Sys2Proof.Machine.execNeraxAckTimeout k s
  | .neraxBargeAssembled k group tag => Sys2Proof.Machine.execNeraxBargeAssembled k group tag s
  | .neraxMessageSend k => Sys2Proof.Machine.execNeraxMessageSend k s
  | .neraxAligned k => Sys2Proof.Machine.execNeraxAligned k s
  | .identityFrame k id => Sys2Proof.Machine.execIdentityFrame k id s
  | .neraxLinkUp k => Sys2Proof.Machine.execNeraxLinkUp k s
  | .neraxStateTimeout k => Sys2Proof.Machine.execNeraxStateTimeout k s
  | .neraxLinkDown k => Sys2Proof.Machine.execNeraxLinkDown k s
  | .timingFrameSend k => Sys2Proof.Machine.execTimingFrameSend k s
  | .timingFrameReceive k stamps lead lease => Sys2Proof.Machine.execTimingFrameReceive k stamps lead lease s
  | .leadTimingLoss k => Sys2Proof.Machine.execLeadTimingLoss k s
  | .leaseRenewal => Sys2Proof.Machine.execLeaseRenewal s
  | .leaseRenewalReceived path r => Sys2Proof.Machine.execLeaseRenewalReceived path r s
  | .leaseEchoReceived path r => Sys2Proof.Machine.execLeaseEchoReceived path r s
  | .foreignLeaseEdge => Sys2Proof.Machine.execForeignLeaseEdge s
  | .departPattern => Sys2Proof.Machine.execDepartPattern s
  | .departReceived => Sys2Proof.Machine.execDepartReceived s
  | .peerAliveLow => Sys2Proof.Machine.execPeerAliveLow s
  | .peerAliveHigh => Sys2Proof.Machine.execPeerAliveHigh s
  | .keeperFenceTimeout => Sys2Proof.Machine.execKeeperFenceTimeout s
  | .leaseTake => Sys2Proof.Machine.execLeaseTake s
  | .secondKeeperFound => Sys2Proof.Machine.execSecondKeeperFound s
  | .claim => Sys2Proof.Machine.execClaim s
  | .yieldRequest => Sys2Proof.Machine.execYieldRequest s
  | .yieldHandover => Sys2Proof.Machine.execYieldHandover s
  | .yieldCancel => Sys2Proof.Machine.execYieldCancel s
  | .mirrorRecord at_ item => Sys2Proof.Machine.execMirrorRecord at_ item s
  | .mirrorCrcCompare lock tick crc late => Sys2Proof.Machine.execMirrorCrcCompare lock tick crc late s
  | .resyncStart => Sys2Proof.Machine.execResyncStart s
  | .resyncCopyEnd => Sys2Proof.Machine.execResyncCopyEnd s
  | .resyncCompareEnd => Sys2Proof.Machine.execResyncCompareEnd s
  | .resyncAbort => Sys2Proof.Machine.execResyncAbort s
  | .dramRequest busy found => Sys2Proof.Machine.execDramRequest busy found s
  | .dramRefresh bank due => Sys2Proof.Machine.execDramRefresh bank due s
  | .mr4Read code hot => Sys2Proof.Machine.execMr4Read code hot s
  | .rtPanicEntry => Sys2Proof.Machine.execRtPanicEntry s
  | .rtBargeLost line tick write => Sys2Proof.Machine.execRtBargeLost line tick write s
  | .driftMeasurement drift => Sys2Proof.Machine.execDriftMeasurement drift s
  | .retrainStart => Sys2Proof.Machine.execRetrainStart s
  | .retrainSlice lane narrow => Sys2Proof.Machine.execRetrainSlice lane narrow s
  | .retrainDone => Sys2Proof.Machine.execRetrainDone s
  | .burstGrant target arrivals => Sys2Proof.Machine.execBurstGrant target arrivals s
  | .defaultTargetBurst b => Sys2Proof.Machine.execDefaultTargetBurst b s
  | .masterReset m => Sys2Proof.Machine.execMasterReset m s
  | .swIdxWrite c value => Sys2Proof.Machine.execSwIdxWrite c value s
  | .descriptorFetch c host => Sys2Proof.Machine.execDescriptorFetch c host s
  | .descriptorComplete c host => Sys2Proof.Machine.execDescriptorComplete c host s
  | .peripheralRequest c => Sys2Proof.Machine.execPeripheralRequest c s
  | .requestWithdrawn c granted => Sys2Proof.Machine.execRequestWithdrawn c granted s
  | .frameRxDma c => Sys2Proof.Machine.execFrameRxDma c s
  | .tickModeTransfer c => Sys2Proof.Machine.execTickModeTransfer c s
  | .dmaDisable c => Sys2Proof.Machine.execDmaDisable c s
  | .dmaEnable c => Sys2Proof.Machine.execDmaEnable c s
  | .dmaAbrupt c => Sys2Proof.Machine.execDmaAbrupt c s
  | .pcieInboundRequest bar offset write poisoned data => Sys2Proof.Machine.execPcieInboundRequest bar offset write poisoned data s
  | .pcieOutboundRequest b => Sys2Proof.Machine.execPcieOutboundRequest b s
  | .pcieReset kind => Sys2Proof.Machine.execPcieReset kind s
  | .msixMessageSend v => Sys2Proof.Machine.execMsixMessageSend v s
  | .evtEoi v => Sys2Proof.Machine.execEvtEoi v s
  | .evtSw value => Sys2Proof.Machine.execEvtSw value s
  | .evtRouteWrite source value => Sys2Proof.Machine.execEvtRouteWrite source value s
  | .sampleCompare n => Sys2Proof.Machine.execSampleCompare n s
  | .eventLevelRise source => Sys2Proof.Machine.execEventLevelRise source s
  | .irqRelease k => Sys2Proof.Machine.execIrqRelease k s
  | .gpioSample ix level => Sys2Proof.Machine.execGpioSample ix level s
  | .gpioChatterEnd ix => Sys2Proof.Machine.execGpioChatterEnd ix s
  | .gpioStuck ix => Sys2Proof.Machine.execGpioStuck ix s
  | .spiWrite addr data bytes => Sys2Proof.Machine.execSpiWrite addr data bytes s
  | .spiRead addr => Sys2Proof.Machine.execSpiRead addr s
  | .spiStatus => Sys2Proof.Machine.execSpiStatus s
  | .i2cCommand value => Sys2Proof.Machine.execI2cCommand value s
  | .i2cCommandEnd nak data => Sys2Proof.Machine.execI2cCommandEnd nak data s
  | .mdioCommand value data => Sys2Proof.Machine.execMdioCommand value data s
  | .faultReport source code level => Sys2Proof.Machine.execFaultReport source code level s
  | .fltAck value => Sys2Proof.Machine.execFltAck value s
  | .fltClear value => Sys2Proof.Machine.execFltClear value s
  | .persistentCauseEnd source code => Sys2Proof.Machine.execPersistentCauseEnd source code s
  | .errNPulseEnd => Sys2Proof.Machine.execErrNPulseEnd s
  | .errHoldWrite value => Sys2Proof.Machine.execErrHoldWrite value s
  | .watchdogExpiry => Sys2Proof.Machine.execWatchdogExpiry s
  | .watchdogKick value => Sys2Proof.Machine.execWatchdogKick value s
  | .injectionArm value => Sys2Proof.Machine.execInjectionArm value s
  | .injectionFire => Sys2Proof.Machine.execInjectionFire s
  | .injectedReport value => Sys2Proof.Machine.execInjectedReport value s
  | .faultLogPop => Sys2Proof.Machine.execFaultLogPop s
  | .weirRequest r => Sys2Proof.Machine.execWeirRequest r s
  | .weirGrant => Sys2Proof.Machine.execWeirGrant s
  | .weirReturn r => Sys2Proof.Machine.execWeirReturn r s
  | .weirWithdraw r => Sys2Proof.Machine.execWeirWithdraw r s
  | .requestStarving r => Sys2Proof.Machine.execRequestStarving r s
  | .budgetWrite value => Sys2Proof.Machine.execBudgetWrite value s
  | .coreCurrentMeasurement units => Sys2Proof.Machine.execCoreCurrentMeasurement units s
  | .dredgerBurst found => Sys2Proof.Machine.execDredgerBurst found s
  | .dredgerBurstDue dram => Sys2Proof.Machine.execDredgerBurstDue dram s
  | .dredgerPassEnd dram => Sys2Proof.Machine.execDredgerPassEnd dram s
  | .dredgerEnableWrite value => Sys2Proof.Machine.execDredgerEnableWrite value s
  | .monitorSample m => Sys2Proof.Machine.execMonitorSample m s
  | .telemetryRecord abandoned => Sys2Proof.Machine.execTelemetryRecord abandoned s
  | .imageReplacementStart image => Sys2Proof.Machine.execImageReplacementStart image s
  | .imageReplacementTake => Sys2Proof.Machine.execImageReplacementTake s
  | .imageReplacementAbort => Sys2Proof.Machine.execImageReplacementAbort s
  | .replacementBuildIdMismatch k => Sys2Proof.Machine.execReplacementBuildIdMismatch k s
  | .receiveIdleSignalReturn n => Sys2Proof.Machine.execReceiveIdleSignalReturn n s
  | .pcieLinkUp speed width => Sys2Proof.Machine.execPcieLinkUp speed width s
  | .pcieConfigRequest c => Sys2Proof.Machine.execPcieConfigRequest c s
  | .outboundCompletion ok data => Sys2Proof.Machine.execOutboundCompletion ok data s
  | .outboundCompletionTimeout => Sys2Proof.Machine.execOutboundCompletionTimeout s
  | .jtagRegacc write addr data => Sys2Proof.Machine.execJtagRegacc write addr data s
  | .pathLost path => Sys2Proof.Machine.execPathLost path s
  | .armingTimeExpiry => Sys2Proof.Machine.execArmingTimeExpiry s

end Sys2Proof.Machine
end

