-- ==== Sys2Proof/Safety.lean ====
section
/-!
DEFINITION. What counts as a safe run, in the terms statements use: the canonical form of every table of the state (Machine/Tab.lean), so
that equal contents are equal data, and the bounds a lock keeps (01 R22, R23).
-/
namespace Sys2Proof.Machine

/-- The registers and memories are in canonical form. -/
def State.memWf (s : State) : Bool :=
  Tab.wf resetValue s.regs && Tab.wf (fun _ => 0) s.ssm && Tab.wf (fun _ => 0) s.dram

/-- A lock never holds more credit than its depth (01 R22, R23). -/
def Lock.bounded (k : Lock) : Bool := decide (k.credit ≤ k.spec.depth)

def State.locksWf (s : State) : Bool :=
  s.locks.all fun e => match e.2 with | some k => k.bounded | none => true

/-- The canonical form of the state: registers, memories and locks. -/
def State.canon (s : State) : Prop := s.memWf = true ∧ s.locksWf = true

/-- The state has no command waiting: the block idles. -/
def State.idle (s : State) : Bool := s.pending.isEmpty

/-- The command completes from `s` in a state of which `P` holds. -/
def Completes (c : Instr) (s : State) (P : State → Prop) : Prop := ∃ t, exec c s = .next t ∧ P t

/-- Between `s` and `t` nothing but control registers differs, and none but those at the addresses `as`. -/
def OnlyRegs (as : List Nat) (s t : State) : Prop := { t with regs := s.regs } = s ∧ ∀ a, a ∉ as → t.reg a = s.reg a

/-- Every byte of shared sample memory and of DRAM reads in `t` as in `s`. -/
def SameMemory (s t : State) : Prop := ∀ o, t.ssmByte o = s.ssmByte o ∧ t.dramByte o = s.dramByte o

/-! ## Registers -/

/-- The registers of due messages: a vector request that has fallen clears its bit in the same command (18 R466). -/
def dueRegs : List Nat := [R.MSIX_PBA 0, R.MSIX_PBA 1]

/-- A write of `v` by master `m` to the register at `a` acts by its access types alone: the register exists, has no side effect of its own,
and no fail-over pair mirrors the write. -/
def State.plainTarget (s : State) (m a : Nat) (v : Word) (d : RegDesc) : Prop :=
  a < 0x1C0000 ∧ a % 4 = 0 ∧ s.hidden a = false ∧ descAt a = some d ∧ (s.answer []).specialWrite m a v = none ∧
  a ≠ R.CFG_MODE_REQ ∧ (mirroredBlock a = true → s.mirrors = false ∧ s.mirrored = false)

/-- A read of the register at `a` acts by its access types alone. -/
def State.plainSource (s : State) (a : Nat) (d : RegDesc) : Prop :=
  a < 0x1C0000 ∧ a % 4 = 0 ∧ s.hidden a = false ∧ descAt a = some d ∧ s.regRead a = s.commonRead a d

/-- The bits `mask` of the register at `a`, written with `v`, are in effect in `t`: `v` where no held overlay owns the bit (03 R88). -/
def State.tookBits (s t : State) (a : Nat) (mask v : Word) : Prop :=
  t.reg a &&& mask &&& ~~~(s.owned a) = v &&& mask &&& ~~~(s.owned a) ∧
  t.reg a &&& mask &&& s.owned a = s.layered a &&& mask &&& s.owned a

/-- Beside registers, their layers, due messages and the answer, nothing differs; no register but those at `as` and the due ones does. -/
def AccessOnly (as : List Nat) (s t : State) : Prop :=
  { t with regs := s.regs, layers := s.layers, evt := s.evt, reply := s.reply } = s ∧ ∀ b, b ∉ as → b ∉ dueRegs → t.reg b = s.reg b

/-! ## Takes -/

/-- Registers whose change has no effect beside their value: those of the blocks TLM, PCIE, SVC and PAD but TLM_EN. -/
def quietReg (a : Nat) : Bool := [24, 25, 26, 27].contains (a / 0x10000) && a != R.TLM_EN

/-- A change of the held set to `new`, with the overlays `ovs`, that changes register bits of quiet registers alone, keeps the pair as it is
and does not leave MAINTENANCE. -/
def State.quietChange (s : State) (new : BitVec 12) (ovs : List Overlay) : Prop :=
  changedSections s.cfg.overlays ovs s.cfg.contents s.held new = [] ∧ addedWords (1 - s.basin.now.bank) ovs s.held new = [] ∧
  (∀ r ∈ changedRegs s.cfg.overlays ovs s.held new, quietReg r.1 = true) ∧
  (hasMode new 1 || hasMode new 2) = s.inPair ∧ (s.holds 9 = true → hasMode new 9 = true)

/-- A take to `new` has occurred between `s` and `t`: the held set, the register bits it changes, CFG_TAKE_LAST and take_done (03 R92, R95). -/
def State.took (s t : State) (new : BitVec 12) (ovs : List Overlay) : Prop :=
  t.held = new ∧ (∀ r ∈ changedRegs s.cfg.overlays ovs s.held new, t.reg r.1 &&& r.2 = t.layered r.1 &&& r.2) ∧
  t.wide R.CFG_TAKE_LAST_LO R.CFG_TAKE_LAST_HI = (s.dom s.takeDom).sample.toNat ∧ t.is R.CFG_INT_STATUS_take_done = true

/-! ## Engines -/

/-- Engine `n` is running a segment. -/
def State.engIssues (s : State) (n : EngIx) : Prop := s.engState n = 3 ∧ s.halted = false

/-- Engine `n` is running a segment and begins an instruction: nothing of an earlier one is in flight and no loop is active. -/
def State.engReady (s : State) (n : EngIx) : Prop :=
  s.engIssues n ∧ (s.eng n).cur = {} ∧ (s.eng n).delayed = [] ∧ (s.eng n).stack = []

/-- Engine `n` is left as `e`, at the next instruction, one cycle later, in which its buffered stores have aged. -/
def State.engNext (s : State) (n : EngIx) (e : Engine) : State := s.setEng n ({ e with pc := e.pc + 1, cycles := e.cycles + 1 }.ageStores 1)

/-- The integer lies outside an accumulator's range (05 R137). -/
def outside (r : Int) : Bool := decide (r < -2 ^ 55) || decide (2 ^ 55 ≤ r)

/-- Accumulator `a` holds `r` modulo 2^56; the flags are those of that result, with carry `c` and overflow `v` (05 R163). -/
def Engine.accumulated (e : Engine) (a : AccIx) (r : Int) (c v : Bool) : Engine :=
  let w := BitVec.ofInt 56 r
  { e with a := Tab.set (fun _ => 0) e.a a w, sr := srWith e.sr { z := w == 0, n := w.msb, gu := guardUse w, c := c, v := v } }

/-- Data register `d` holds `v`. -/
def Engine.withD (e : Engine) (d : RegIx) (v : Sample) : Engine := { e with d := Tab.set (fun _ => 0) e.d d v }

/-- Pointer `p` holds `v`. -/
def Engine.withP (e : Engine) (p : RegIx) (v : Ptr) : Engine := { e with p := Tab.set (fun _ => 0) e.p p v }

end Sys2Proof.Machine
end

