-- ==== Sys2Proof/Certificates/Slice0/Obligations.lean ====
section
/-!
DEFINITION. The statements about the model: what each command does, what it leaves alone, and what every step keeps. A statement that
rests on a choice of the model says so and names the log entry.
-/
open Sys2Proof Sys2Proof.Machine


/-! ## Registers and the bus (00, 17, 18, 22) -/

/-- A REGISTER_WRITE of 32 bits to a register without a side effect of its own completes: RW bits take the value (a bit an overlay owns keeps
the overlay's), a 1 clears a W1C bit unless hardware sets it in the same cycle, SH bits wait, and every other bit and register stays. A
SH_FIELD_TAKES_EFFECT at a boundary of the field's kind in its domain brings all SH bits of the register to their layered value together;
elsewhere nothing changes (00 R13, R14, R15; 03 R88).
Readings: log entries 8, 95. Completes: registerWrite, shFieldTakesEffect. -/
def Obligations.RegisterWritesByAccessType : Prop :=
  ∀ (s : State) (m : MasterIx) (a : Addr) (v sets : Word) (d : RegDesc),
    (s.plainTarget m a.toNat v d → reaches m 4 = true → d.wlen ≤ 1 →
      let rw := BitVec.ofNat 32 d.rw
      let w1c := BitVec.ofNat 32 d.w1c
      let sh := BitVec.ofNat 32 d.sh
      (rw ||| w1c ||| sh ≠ 0 → Completes (.registerWrite m a 4 v sets) s fun t =>
        s.tookBits t a.toNat rw v ∧ t.reg a.toNat &&& w1c = (s.reg a.toNat &&& ~~~v ||| sets) &&& w1c ∧
        t.reg a.toNat &&& ~~~(rw ||| w1c) = s.reg a.toNat &&& ~~~(rw ||| w1c) ∧
        t.layered a.toNat &&& sh &&& ~~~(s.owned a.toNat) = v &&& sh &&& ~~~(s.owned a.toNat) ∧ (sh ≠ 0 → t.shWaits a.toNat = true) ∧
        AccessOnly [a.toNat] s t) ∧
      (rw ||| w1c ||| sh = 0 → Completes (.registerWrite m a 4 v sets) s fun t => AccessOnly [] s t ∧ t.layers = s.layers)) ∧
    (s.shBoundary a.toNat = false → exec (.shFieldTakesEffect a) s = .next s) ∧
    (descAt a.toNat = some d → d.sh ≠ 0 → s.shBoundary a.toNat = true → s.shWaits a.toNat = true → s.shEffect a.toNat = s.shTake a.toNat →
      Completes (.shFieldTakesEffect a) s fun t =>
        t.reg a.toNat &&& BitVec.ofNat 32 d.sh = s.layered a.toNat &&& BitVec.ofNat 32 d.sh ∧
        t.reg a.toNat &&& ~~~(BitVec.ofNat 32 d.sh) = s.reg a.toNat &&& ~~~(BitVec.ofNat 32 d.sh) ∧
        t.shWaits a.toNat = false ∧ AccessOnly [a.toNat] s t)

/-- RC_READ returns what the register shows and leaves each RC bit at its reset value; an amount counted in the read's own cycle stays in a
16-bit counter in the low half. WIDE_LOW_WORD_READ of the lower word of a two-word value answers it and takes a snapshot of the higher word,
which a read of that word returns; a lower word written waits, and takes effect with WIDE_HIGH_WORD_WRITE of the higher one; no other
register changes (00 R13, R14, R17).
Completes: rcRead, wideLowWordRead, wideHighWordWrite. -/
def Obligations.ReadsThatClearAndWideValues : Prop :=
  (∀ (s : State) (a : Addr) (d : RegDesc), s.plainSource a.toNat d → d.wpos = 0 → a.toNat ∉ dueRegs →
     let rc := BitVec.ofNat 32 d.rc
     (Completes (.rcRead a []) s fun t => t.reply = ⟨[s.shown a.toNat d], .okay⟩ ∧
       t.reg a.toNat &&& rc = resetValue a.toNat &&& rc ∧ t.reg a.toNat &&& ~~~rc = s.reg a.toNat &&& ~~~rc ∧ AccessOnly [a.toNat] s t) ∧
     (∀ n, d.rc % 2 ^ 16 = 0xFFFF → resetValue a.toNat = 0 → Completes (.rcRead a [.add 0 16 n]) s fun t =>
       t.reply = ⟨[s.shown a.toNat d], .okay⟩ ∧ t.rd (lowHalf a.toNat) = min n 0xFFFF ∧ AccessOnly [a.toNat] s t)) ∧
  (∀ (s : State) (a b : Addr) (d e : RegDesc) (v w : Word), b.toNat = a.toNat + 4 → d.wlen = 2 → d.wpos = 0 → e.wlen = 2 → e.wpos = 1 →
     a.toNat ∉ dueRegs → b.toNat ∉ dueRegs →
     (s.plainSource a.toNat d → descAt b.toNat = some e → d.rc = 0 → Completes (.wideLowWordRead a) s fun t =>
       t.reply = ⟨[s.shown a.toNat d], .okay⟩ ∧ t.snap b.toNat = some (s.shown b.toNat e) ∧ AccessOnly [] s t) ∧
     (s.plainSource b.toNat e → e.rc = 0 → Completes (.wideLowWordRead b) s fun t =>
       t.reply = ⟨[(s.snap b.toNat).getD (s.shown b.toNat e)], .okay⟩ ∧ AccessOnly [] s t) ∧
     (s.plainTarget 4 a.toNat v d → d.rw ≠ 0 → Completes (.registerWrite 4 a 4 v 0) s fun t =>
       t.heldLow a.toNat = some v ∧ AccessOnly [] s t) ∧
     (s.plainTarget 4 b.toNat w e → descAt a.toNat = some d → d.rw ≠ 0 → e.rw ≠ 0 → d.w1c = 0 → e.w1c = 0 → d.sh = 0 → e.sh = 0 →
       Completes (.wideHighWordWrite b w) s fun t =>
         s.tookBits t b.toNat (BitVec.ofNat 32 e.rw) w ∧ t.heldLow a.toNat = none ∧ AccessOnly [a.toNat, b.toNat] s t ∧
         (match s.heldLow a.toNat with
         | some u => s.tookBits t a.toNat (BitVec.ofNat 32 d.rw) u
         | none => t.reg a.toNat = s.reg a.toNat)))

/-- A write of the control register space that is not an aligned 32-bit one, a read of it that is not aligned, and a write or read at
0x1C_0000 to 0x0FFF_FFFF are default-target errors; an aligned offset to which no register is assigned reads as 0 and ignores writes without
error (00 R10, R11). -/
def Obligations.UnassignedAndMisalignedAccesses : Prop :=
  ∀ (s : State) (m : MasterIx) (a : Addr) (n : Nat) (v : Word), reaches m 4 = true →
    (a.toNat < 0x1C0000 → (a.toNat % 4 ≠ 0 ∨ n ≠ 4) → exec (.registerWrite m a n v 0) s
      = .next (s.defaultTarget m a.toNat 4 true causeSize)) ∧
    (a.toNat < 0x1C0000 → a.toNat % 4 ≠ 0 → exec (.wideLowWordRead a) s
      = .next ((s.defaultTarget 4 a.toNat 4 false causeSize).answer [0] .defaultTarget)) ∧
    (0x1C0000 ≤ a.toNat → a.toNat < 0x10000000 →
      exec (.registerWrite m a 4 v 0) s = .next (s.defaultTarget m a.toNat 7 true causeNoTarget) ∧
      exec (.wideLowWordRead a) s = .next ((s.defaultTarget 4 a.toNat 7 false causeNoTarget).answer [0] .defaultTarget)) ∧
    (a.toNat < 0x1C0000 → a.toNat % 4 = 0 → descAt a.toNat = none →
      Completes (.registerWrite m a 4 v 0) s (fun t => t.reply = ⟨[], .okay⟩ ∧ AccessOnly [] s t ∧ t.layers = s.layers) ∧
      Completes (.wideLowWordRead a) s fun t => t.reply = ⟨[0], .okay⟩ ∧ AccessOnly [] s t ∧ t.layers = s.layers)

/-- While spi_en is 0 SPI_WRITE, SPI_READ and SPI_STATUS change nothing. A SPI_WRITE of other than 8 bytes is discarded; one of 8 bytes writes
the RW bits of its register and sets the write event, and outside the control register space sets the error event. SPI_READ answers its
register; SPI_STATUS answers whether the last access ended in a default-target error; JTAG_REGACC writes and reads a register in the same way
(18 R474; 22 R551).
Readings: log entry 30. Completes: spiWrite, spiRead, spiStatus, jtagRegacc. -/
def Obligations.ServicePorts : Prop :=
  ∀ (s : State) (a : BitVec 24) (v : Word) (d : RegDesc) (n : Nat),
    (s.is spiEnable = false → exec (.spiWrite a v n) s = .next s ∧ exec (.spiRead a) s = .next s ∧ exec .spiStatus s = .next s) ∧
    (n ≠ 8 → exec (.spiWrite a v n) s = .next s) ∧
    (s.is spiEnable = true → exec .spiStatus s = .next (s.answer [BitVec.ofNat 32 (b2n s.svc.spiError)])) ∧
    (s.is spiEnable = true → 0x1C0000 ≤ a.toNat → Completes (.spiWrite a v 8) s fun t =>
      t.svc.spiError = true ∧ t.reply.response = .defaultTarget ∧ t.is (svcEvent 1) = true ∧ SameMemory s t ∧ t.locks = s.locks) ∧
    (s.plainTarget (Config.serviceMaster % 8) a.toNat v d → d.wlen ≤ 1 → d.rw ≠ 0 → d.sh = 0 → d.w1c = 0 →
      Completes (.jtagRegacc true a v) s fun t =>
        s.tookBits t a.toNat (BitVec.ofNat 32 d.rw) v ∧ AccessOnly [a.toNat] s t) ∧
    (s.plainTarget (Config.serviceMaster % 8) a.toNat v d → d.wlen ≤ 1 → d.rw ≠ 0 → d.sh = 0 → d.w1c = 0 → s.is spiEnable = true →
      Completes (.spiWrite a v 8) s fun t =>
        s.tookBits t a.toNat (BitVec.ofNat 32 d.rw) v ∧ t.is (svcEvent 0) = true ∧ t.svc.spiError = false ∧
        AccessOnly [a.toNat, R.SVC_INT_STATUS] s { t with svc := s.svc }) ∧
    (s.plainSource a.toNat d → d.wpos = 0 → d.rc = 0 →
      Completes (.jtagRegacc false a v) s (fun t => t.reply = ⟨[s.shown a.toNat d], .okay⟩ ∧ AccessOnly [] s t) ∧
      (s.is spiEnable = true → Completes (.spiRead a) s fun t =>
        t.reply = ⟨[s.shown a.toNat d], .okay⟩ ∧ AccessOnly [] s { t with svc := s.svc }))

/-- DEFAULT_TARGET_BURST: a burst that no target takes is a default-target error that reads as zeros, moves no byte of memory and no lock, is
counted, and where no error is held is latched with its cause, master and address; one that shared sample memory takes is none of these.
BURST_GRANT takes no burst of over 256 bytes or across a 256-byte boundary; at shared sample memory it writes or reads the burst's own bytes alone and counts in its master's register; of a burst of master 0
and one of master 3 that arrive at DRAM together it serves master 0's and the other waits. MASTER_RESET discards what the master has queued
and not been granted, changes no register but XBAR_MSTATUS, and shows the master draining while a granted read is outstanding
(17 R420, R422, R424, R426, R430).
Readings: log entry 29. Completes: defaultTargetBurst, burstGrant, masterReset. -/
def Obligations.BusBursts : Prop :=
  ∀ (s : State) (b : Burst),
    (burstCause b.master b.addr.toNat = none → ssmBase ≤ b.addr.toNat → b.addr.toNat < ssmBase + 0x800000 →
      exec (.defaultTargetBurst b) s = .next s) ∧
    (∀ c, burstCause b.master b.addr.toNat = some c → Completes (.defaultTargetBurst b) s fun t =>
      t.reply.response = .defaultTarget ∧ (b.write = false → t.reply.data = wordsOf (List.replicate b.data.length 0)) ∧
      SameMemory s t ∧ t.locks = s.locks ∧ t.rd (lowHalf R.XBAR_ERR_COUNT)
        = min (s.rd (lowHalf R.XBAR_ERR_COUNT) + 1) 0xFFFF ∧
      (s.is R.XBAR_ERR_INFO_valid = false → t.is (bitAt R.XBAR_INT_STATUS 0) = true ∧ t.rd ⟨R.XBAR_ERR_INFO, 0, 4⟩ = c ∧
        t.rd ⟨R.XBAR_ERR_INFO, 16, 3⟩ = b.master ∧ t.reg R.XBAR_ERR_ADDR_LO = BitVec.ofNat 32 b.addr.toNat)) ∧
    (∀ t, burstLegal b = false → exec (.burstGrant t [b]) s = exec (.burstGrant t []) s) ∧
    (s.xbar.waiting = [] → burstLegal b = true → burstCause b.master b.addr.toNat = none → targetOf b.addr.toNat = 1 → s.is (drainBit b.master) = false →
      (b.write = true → Completes (.burstGrant 1 [b]) s fun t =>
        (∀ o, t.ssmByte o = if b.addr.toNat - ssmBase ≤ o ∧ o < b.addr.toNat - ssmBase + b.data.length
          then b.data.getD (o - (b.addr.toNat - ssmBase)) 0 else s.ssmByte o) ∧
        (∀ o, t.dramByte o = s.dramByte o) ∧ t.xbar.waiting = [] ∧ ∀ r, r ≠ R.XBAR_BWm b.master → t.reg r = s.reg r) ∧
      (b.write = false → Completes (.burstGrant 1 [b]) s fun t =>
        t.reply = ⟨wordsOf (s.ssmBytes (b.addr.toNat - ssmBase) b.data.length), .okay⟩ ∧ SameMemory s t ∧ t.xbar.waiting = [] ∧
        ∀ r, r ≠ R.XBAR_BWm b.master → t.reg r = s.reg r)) ∧
    (∀ c : Burst, s.xbar.waiting = [] → burstLegal b = true → burstLegal c = true → s.dmcRoom = true → b.master = 0 → c.master = 3 → c.write = false → b.write = false →
      targetOf b.addr.toNat = 0 → targetOf c.addr.toNat = 0 → s.is (drainBit 0) = false → s.is (drainBit 3) = false →
      Completes (.burstGrant 0 [c, b]) s fun t => t.xbar.waiting = [(c, s.now)]) ∧
    (∀ m : MasterIx, Completes (.masterReset m) s fun t =>
      (∀ e, e ∈ t.xbar.waiting ↔ e ∈ s.xbar.waiting ∧ e.1.master ≠ m) ∧ SameMemory s t ∧
      (s.pcie.outstanding.any (·.1 = m) = true → t.is (drainBit m) = true) ∧ ∀ r, r ≠ R.XBAR_MSTATUS → t.reg r = s.reg r)

/-- PCIE_INBOUND_REQUEST: with the link down or outside D0, and beyond the windows of BAR0, nothing happens; a request to the first window of
BAR0 that is not of four bytes is aborted with the event, a poisoned write is discarded and counted, a write of four bytes of shared sample
memory stores them, and a read of four is completed with them, memory and registers unchanged (18 R452, R454).
Readings: log entry 28. Completes: pcieInboundRequest. -/
def Obligations.InboundRequests : Prop :=
  ∀ (s : State) (o : Nat) (b0 b1 b2 b3 : Byte) (data : List (Option Byte)) (bar : Bar) (write poisoned : Bool),
    ((s.is pcieLink = false ∨ s.rd pcieD ≠ 0) → exec (.pcieInboundRequest bar o write poisoned data) s = .next s) ∧
    (s.is pcieLink = true → s.rd pcieD = 0 → s.rd R.GLB_BOOT_STATUS_state < 7 →
      (2 ^ 26 ≤ o → exec (.pcieInboundRequest .bar0 o write poisoned data) s = .next s) ∧
      (o < 2 ^ 26 → exec (.pcieInboundRequest .bar0 o true true data) s
        = .next ((s.raise (pcieEvent 5)).bump (lowHalf R.PCIE_REQ_ERR))) ∧
      (o < 2 ^ 24 → data.length ≠ 4 → Completes (.pcieInboundRequest .bar0 o write false data) s fun t =>
        t.outbox.getLast? = some (.completerAbort write) ∧ t.is (pcieEvent 5) = true ∧ SameMemory s t ∧ t.locks = s.locks) ∧
      (3 * 2 ^ 24 ≤ o → o + 4 ≤ 3 * 2 ^ 24 + 0x800000 → o % 4 = 0 →
        exec (.pcieInboundRequest .bar0 o true false [some b0, some b1, some b2, some b3]) s
          = .next ((s.setSsmBytes (o - 3 * 2 ^ 24) [b0, b1, b2, b3]).answer []) ∧
        Completes (.pcieInboundRequest .bar0 o false false [some 0, some 0, some 0, some 0]) s fun t =>
          t.outbox = s.outbox ++ [.completion (s.ssmBytes (o - 3 * 2 ^ 24) 4) false] ∧ t.regs = s.regs ∧ SameMemory s t))

/-! ## The step -/

/-- A step with a command waiting is the command's meaning on the state with the rest of the queue. With no command waiting one cycle passes,
and no lock and no byte of memory changes (the model's choice, log entry 2). -/
def Obligations.StepRunsTheFrontCommand : Prop :=
  (∀ (c : Instr) (s : State) (rest : List Instr), s.pending = c :: rest → step s = exec c { s with pending := rest }) ∧
  (∀ s : State, s.pending = [] → ∃ t, step s = .next t ∧ t.now = s.now + 1 ∧ t.locks = s.locks ∧ SameMemory s t)

/-- No command stops the machine: in every state each answers a next state (the model has no fault or refusal). None of its own takes from
the queue, passes time, or takes back what has left the device. -/
def Obligations.EveryCommandCompletes : Prop :=
  ∀ (c : Instr) (s : State), Completes c s fun t => t.pending = s.pending ∧ t.now = s.now ∧ s.outbox <+: t.outbox

/-- Every step keeps the canonical form: the register and memory tables strictly rising with no entry at its unlisted value, and every lock
with at most as much credit as its depth (01 R22, R23). -/
def Obligations.StepKeepsCanonicalForm : Prop := ∀ s t : State, s.canon → step s = .next t → t.canon

/-- The state after reset is in canonical form, idle, at cycle 0, with nothing sent. -/
def Obligations.ResetIsCanonical : Prop :=
  State.reset.canon ∧ State.reset.pending = [] ∧ State.reset.now = 0 ∧ State.reset.outbox = []

/-! ## Locks, samples and ticks (01, 02) -/

/-- BARGE_COMMIT puts the barge in flight and takes one credit, and without credit changes nothing; CREDIT_RETURN of a lock with a barge present
takes the oldest one and gives one credit, never beyond the depth; in either order together they leave the count as it was (01 R22, R23).
Completes: bargeCommit, creditReturn. -/
def Obligations.BargesMoveByCredit : Prop :=
  ∀ (s : State) (l tick : Nat) (words : List Sample) (k : Lock), s.lock l = some k →
    (0 < k.credit → exec (.bargeCommit l tick words) s
      = .next (s.setLock l { k with credit := k.credit - 1, flight := k.flight ++ [⟨tick, words⟩] })) ∧
    (k.credit = 0 → exec (.bargeCommit l tick words) s = .next s) ∧
    (∀ b rest, k.present = b :: rest → exec (.creditReturn l) s
      = .next (s.setLock l { k with present := rest, credit := min k.spec.depth (k.credit + 1) })) ∧
    (k.present = [] → exec (.creditReturn l) s = .next s) ∧
    (0 < k.credit → k.credit < k.spec.depth → k.present ≠ [] →
      ∀ c d, (c = .bargeCommit l tick words ∧ d = .creditReturn l ∨ c = .creditReturn l ∧ d = .bargeCommit l tick words) →
        ∃ t u, exec c s = .next t ∧ exec d t = .next u ∧ (u.lock l).map (·.credit) = some k.credit)

/-- LOCK_CROSSING_COMPLETE makes the oldest barge in flight present at a consumer outside the engines, the router, the filter chain and Nerax; a
barge the consumer gave up is discarded and its credit returns, by this row as by LATE_BARGE_DISCARD. EGRESS_DEADLINE and CONSUMER_DEADLINE of
an amplifier's lock leave a present barge to be released, and make an absent one an overrun with its event, count and fault, no longer
awaited. CAPTURE_COMMIT commits a TDM group's complete barge of the tick before, and without credit discards it as an overrun
(01 R26, R34; 02 R53, R55).
Readings: log entry 90. Completes: lockCrossingComplete, lateBargeDiscard, egressDeadline, consumerDeadline, captureCommit. -/
def Obligations.CrossingsAndDeadlines : Prop :=
  ∀ (s : State) (l : Nat) (k : Lock) (b : Barge) (rest : List Barge), s.halted = false → s.lock l = some k →
    (k.flight = b :: rest → k.gaveUp b.tick = false → s.fov.exact.contains l = false →
      (match k.spec.consumer with | .tdm _ | .amp _ | .txStream _ | .delayLine _ | .dma _ | .basin | .bridge _ => true | _ => false) = true →
      exec (.lockCrossingComplete l []) s = .next (s.setLock l { k with flight := rest, present := k.present ++ [b] })) ∧
    (k.flight = b :: rest → k.gaveUp b.tick = true → s.mirrored = false →
      exec (.lateBargeDiscard l) s = .next (s.setLock l { k with
        flight := rest, credit := min k.spec.depth (k.credit + 1), missed := k.missed.filter fun m => tagDistance m b.tick ≠ 0 }) ∧
      exec (.lockCrossingComplete l []) s = exec (.lateBargeDiscard l) s) ∧
    (∀ (a t : Nat), k.spec.consumer = .amp a → s.started k.spec.domain = true → (s.dom k.spec.domain).b ≠ 0 →
      s.emitTick k (s.tick k.spec.domain) = some t → s.awaits l t = none → k.gaveUp t = false →
      ∀ c ∈ [Instr.egressDeadline l, .consumerDeadline l],
        exec c s = .next ((((s.setLock l { k with missed := k.missed ++ [t] }).raise (R.AMP_GRPa_INT_STATUS_ovr_out a)).bump
          (lowHalf (R.AMP_GRPa_OVR_COUNT a))).report (70 + a) 6 2)) ∧
    (∀ (a t : Nat), k.spec.consumer = .amp a → s.started k.spec.domain = true → (s.dom k.spec.domain).b ≠ 0 →
      s.emitTick k (s.tick k.spec.domain) = some t → (s.awaits l t).isSome →
      exec (.egressDeadline l) s = .next s ∧ exec (.consumerDeadline l) s = .next s) ∧
    (∀ g : Nat, k.spec.producer = .tdm g → s.started k.spec.domain = true → (s.dom k.spec.domain).b ≠ 0 →
      (s.dom k.spec.domain).first < s.tick k.spec.domain → k.asm.length = s.bargeWords k → s.fovState = 0 →
      (0 < k.credit → exec (.captureCommit l) s = .next (s.setLock l
        { k with asm := [], credit := k.credit - 1, flight := k.flight ++ [⟨s.tick k.spec.domain - 1, k.asm⟩] })) ∧
      (k.credit = 0 → exec (.captureCommit l) s = .next
        ((((s.setLock l { k with asm := [] }).raise (R.TDM_GRPg_INT_STATUS_ovr_in g)).bump (lowHalf (R.TDM_GRPg_OVR_COUNT g))).report
          (66 + g) 10 2)))

/-- SAMPLE_EDGE counts one sample of its own domain, the first edge giving the number the domain starts with, and in the halt does nothing
else; TICK_BOUNDARY with nothing waiting for it raises the strobe event once in 2^d ticks and has the delay lines read;
DOMAIN_REALIGNMENT at its boundary takes the difference to the time base off the counter, empties the domain's locks with full credit, sets
realigned and withdraws the pending state (01 R22, R28; 02 R49, R51; 18 R464; 19 R488).
Readings: log entry 89. Completes: sampleEdge, tickBoundary, domainRealignment. -/
def Obligations.SamplesAndTickBoundaries : Prop :=
  ∀ (s : State) (x : DomIx), s.started x = true → (s.dom x).b ≠ 0 →
    let d := s.dom x
    (∀ inputs, s.halted = true → Completes (.sampleEdge x inputs) s fun t =>
      (t.dom x).sample = (if d.fresh then d.sample else d.sample + 1) ∧ t.regs = s.regs ∧ t.locks = s.locks ∧ SameMemory s t ∧ ∀ y, y ≠ x.val → t.dom y = s.dom y) ∧
    (∀ inputs, Completes (.sampleEdge x inputs) s fun t =>
      (t.dom x).sample = (if d.fresh then d.sample else d.sample + 1) ∧ ∀ y, y ≠ x.val → t.dom y = s.dom y) ∧
    (s.halted = false → s.atBoundary x = true → (∀ u < 2, (s.sub u).abortAt = none) → s.cfg.laterRegs = [] → s.cfg.laterContents = [] →
      s.cfg.laterWords = [] → s.fov.waiting = [] → s.layers.shPending = [] → (∀ k < 4, s.linkState k ≠ 5) →
      exec (.tickBoundary x) s = .next
        ((if s.tick x % 2 ^ s.rd ⟨R.EVT_TICK_DIV, 8 * x, 4⟩ = 0 then s.wr (bitAt R.EVT_LOCAL_STATUS x) 1 else s).fetchDelays x)) ∧
    (d.realignAt = some d.sample → s.atBoundary x = true → Completes (.domainRealignment x) s fun t =>
      (t.dom x).sample = d.sample - BitVec.ofInt 64 (s.numberDrift x) ∧ (t.dom x).realignAt = none ∧
      t.is (R.CLK_DOMx_INT_STATUS_realigned x) = true ∧ t.is (R.CLK_DOMx_STATUS_realign_pending x) = false ∧ SameMemory s t ∧
      ∀ l k, t.lock l = some k → k.spec.domain = x → k.credit = k.spec.depth ∧ k.flight = [] ∧ k.present = [])


/-! ## Modes, takes, boot and resets (03, 21) -/

/-- MODE_REQUEST_WRITE: the group bits change only where the write asks for one side of the group; a mode whose overlay is absent, LEAD while
MEMBER is held or asked for with it, and MEMBER while LEAD is held are refused, each recorded; all other modes are requested as written, and a
change of what is staged starts a staging at once, or ends one where nothing is left to stage. While a replacement runs every change is refused
(03 R90, R94, R97, R101, R104, R105; 21 R538). The bit of a refused mode is not stored, which is the model's choice (log entry 107); said outside
fail-over state 3, without overlay-owned bits, with free gain banks (06 R177) and with the overlay of STANDBY where the pair is entered.
Completes: modeRequestWrite. -/
def Obligations.ModeRequests : Prop :=
  ∀ (s : State) (v : Word),
    let r : BitVec 12 := v.setWidth 12
    (s.replacing = true → exec (.modeRequestWrite v) s = .next ((s.refuseModes (r ^^^ s.modeReq)).answer [])) ∧
    (s.replacing = false → s.basinRefusals r = 0 → s.owned R.CFG_MODE_REQ = 0 → s.rd R.FOV_STATUS_state ≠ 3 →
      ((hasMode r 1 || hasMode r 2) = true → s.wantsSolo = true → s.modeAbsent 2 = false) →
      Completes (.modeRequestWrite v) s fun t =>
        let no (m : Nat) : Bool := hasMode r m && ((!hasMode s.modeReq m && s.modeAbsent m) ||
          (m == 6 && (s.holds 7 || (hasMode r 7 && !s.holds 6))) || (m == 7 && s.holds 6))
        (hasMode r 0 = (hasMode r 1 || hasMode r 2) → t.modeReq &&& 7 = s.modeReq &&& 7 ∧ t.is R.CFG_REFUSED_group = true) ∧
        (hasMode r 0 ≠ (hasMode r 1 || hasMode r 2) → (∀ m < 3, no m = false) → t.modeReq &&& 7 = r &&& 7) ∧
        (∀ m < 12, 3 ≤ m → hasMode t.modeReq m = (hasMode r m && !no m)) ∧
        (∀ m < 12, no m = true → t.is (bitAt R.CFG_REFUSED m) = true ∧ t.is R.CFG_INT_STATUS_refused = true) ∧
        (s.seq = seqIdle → stagedPart t.wantedSet ≠ stagedPart s.held → t.seq = seqStaging ∧ t.cfg.pendingSet = t.wantedSet) ∧
        (s.seq = seqStaging → stagedPart t.wantedSet = stagedPart s.held → stagedPart s.cfg.pendingSet ≠ stagedPart s.held →
          t.seq = seqIdle ∧ t.cfg.pendingSet = s.held ∧ (t.requester 3).pending = false ∧ (t.requester 3).grant = 0) ∧
        SameMemory s t ∧ ∀ a, a ∉ [R.CFG_MODE_REQ, R.CFG_REFUSED, R.CFG_INT_STATUS, R.CFG_STATUS, R.WEIR_INT_STATUS] → t.reg a = s.reg a)

/-- STAGING_COMPLETE arms the take, or waits for leave, or discards a staging with a bad overlay, with an event and a fault of level 1; TAKE_ABORT
discards staging and armed take; TAKE_REFUSED_LATE does so for a take not armed by the sample before the boundary of CFG_TAKE_AT, with the event
late, and does nothing for a take with no boundary asked for. The held set stays (03 R94, R95, R97, R98, R106).
Readings: log entries 56, 57, 60. Completes: stagingComplete, takeAbort, takeRefusedLate. -/
def Obligations.StagingEnds : Prop :=
  ∀ (s : State) (us : Nat) (ps : List PayloadContent),
    (s.rd R.GLB_REPL_STATUS_state ≠ 2 → s.seq = seqStaging → s.cfg.staged = false → s.cfg.prior = none → us < 2 ^ 32 →
      (s.stagedOverlays.all (s.overlayGood ps) = true → s.pastPoint s.cfgTakeAt = false → Completes (.stagingComplete us ps) s fun t =>
        t.seq = (if s.cfg.needLeave && (s.requester 3).pending then seqLeave else seqArmed) ∧ t.held = s.held ∧
        t.cfg.pendingSet = s.cfg.pendingSet ∧ t.reg R.CFG_STAGE_TIME = BitVec.ofNat 32 us ∧ SameMemory s t ∧
        ∀ a, a ∉ [R.CFG_STATUS, R.CFG_STAGE_TIME] → t.reg a = s.reg a) ∧
      (s.stagedOverlays.all (s.overlayGood ps) = false →
        exec (.stagingComplete us ps) s = .next ((s.discardStaging.raise R.CFG_INT_STATUS_stage_err).report 1 3 1))) ∧
    (s.seq = seqIdle → exec .takeAbort s = .next ((s.resetMaster 3).answer [])) ∧
    (s.seq ≠ seqIdle → Completes .takeAbort s fun t =>
      t.seq = seqIdle ∧ t.held = s.held ∧ t.cfg.pendingSet = s.held ∧ t.cfg.prior = none ∧ (t.requester 3).pending = false ∧
      (t.requester 3).grant = 0 ∧ SameMemory s t ∧ ∀ a, a ∉ [R.CFG_STATUS, R.XBAR_MSTATUS] → t.reg a = s.reg a) ∧
    (∀ p, s.seq ≠ seqIdle → s.seq ≠ seqArmed → s.cfgTakeAt = some p → p ≤ (s.dom s.takeDom).sample.toNat + 1 → Completes .takeRefusedLate s fun t =>
      t.seq = seqIdle ∧ t.held = s.held ∧ t.cfg.pendingSet = s.held ∧ t.is R.CFG_INT_STATUS_late = true ∧ SameMemory s t ∧
      ∀ a, a ∉ [R.CFG_STATUS, R.CFG_INT_STATUS] → t.reg a = s.reg a) ∧
    (s.replacing = false → (s.seq = seqIdle ∨ s.cfgTakeAt = none) → exec .takeRefusedLate s = .next s)

/-- OVERLAY_TAKE at the take point and RESIDENT_MODE_CHANGE at a take-domain boundary change the held set and bring the register bits of the
overlays it adds and releases to the values the layers decide, and report the boundary; said of changes whose register bits act by their value
alone (03 R87, R92, R95, R96, R101; that a change of resident modes counts as a take is the model's choice, log entry 45). Elsewhere nothing
happens. HARDWARE_MODE_REQUEST sets and withdraws the request for SAFE in CFG_MODE_HWREQ, with the event hw_mode; one for HOLDOVER acts only
where CFG_HWREQ_EN lets it (03 R102).
Readings: log entries 45, 46, 60. Completes: overlayTake, residentModeChange, hardwareModeRequest. -/
def Obligations.TakesChangeTheHeldSet : Prop :=
  ∀ s : State,
    (s.takeReady s.cfgTakeAt = false → exec .overlayTake s = .next s) ∧
    (s.seq = seqIdle → s.cfg.prior = none → exec .overlayTake s = .next s) ∧
    (s.takeReady s.cfgTakeAt = true → s.seq = seqArmed →
      let new := s.settledSet s.cfg.pendingSet
      let ovs := s.overlaysWith new s.cfg.stageContents
      s.quietChange new ovs → Completes .overlayTake s fun t =>
        s.took t new ovs ∧ t.seq = seqIdle ∧ t.cfg.pendingSet = new ∧ SameMemory s t) ∧
    (let new := (s.held &&& 0x6F9) ||| s.residentSet;
      (s.running = false ∨ s.atBoundary s.takeDom = false ∨ new = s.held → exec .residentModeChange s = .next s) ∧
      (s.running = true → s.atBoundary s.takeDom = true → new ≠ s.held → s.quietChange new s.cfg.overlays →
        Completes .residentModeChange s fun t => s.took t new s.cfg.overlays ∧ t.seq = s.seq ∧ SameMemory s t)) ∧
    (∀ on, exec (.hardwareModeRequest 11 on) s = .next (if s.is (bitAt R.CFG_MODE_HWREQ 11) = on then s
      else (s.wr (bitAt R.CFG_MODE_HWREQ 11) (b2n on)).wr R.CFG_INT_STATUS_hw_mode 1)) ∧
    (s.is R.CFG_HWREQ_EN_holdover = false → exec (.hardwareModeRequest 8 true) s = .next s)

/-- A power-on reset samples the straps and puts every register at its reset value, with the cause, FOV_CTRL.side at the level of DEVID[0] and
NRX_ID at DEVID; RST_N and the key in GLB_RST do the same and keep straps and fuses; any other value written to GLB_RST does nothing (00 R18;
15 R402; 21 R523, R524, R526). The queue, the cycle count and what has left the device are the model's own and stay.
Readings: log entries 7, 12. Completes: powerOnReset, deviceReset, glbRstWrite. -/
def Obligations.Resets : Prop :=
  ∀ (s : State) (boot : Fin 4) (devid : Fin 8) (fuses : Fuses) (v : Word),
    let after (t : State) (cause : Nat) (strap : Word) (f : Fuses) : Prop :=
      t.reg R.GLB_RESET_CAUSE = BitVec.ofNat 32 cause ∧ t.reg R.GLB_STRAP = strap ∧ t.glb.fuses = f ∧ t.locks = [] ∧ t.cfg = State.reset.cfg ∧
      t.rd R.GLB_BOOT_STATUS_state = (match getBits strap 0 2 with | 1 => 8 | 3 => 7 | _ => 0) ∧ t.halted = false ∧
      t.rd ⟨R.NRX_ID, 0, 3⟩ = getBits strap 2 3 ∧ t.rd R.FOV_CTRL_side = getBits strap 2 1 ∧
      (∀ a, a ∉ [R.GLB_RESET_CAUSE, R.GLB_STRAP, R.GLB_BOOT_STATUS, R.NRX_ID, R.FOV_CTRL] → t.reg a = resetValue a) ∧
      t.pending = s.pending ∧ t.now = s.now ∧ s.outbox <+: t.outbox
    (Completes (.powerOnReset boot devid fuses) s fun t => after t 1 (BitVec.ofNat 32 (devid * 4 + boot)) fuses) ∧
    (Completes .deviceReset s fun t => after t 2 (s.reg R.GLB_STRAP) s.glb.fuses) ∧
    (Completes (.glbRstWrite 0x5A5A0001) s fun t => after t 4 (s.reg R.GLB_STRAP) s.glb.fuses ∧ t.reply = ⟨[], .okay⟩) ∧
    (v ≠ 0x5A5A0001 → exec (.glbRstWrite v) s = .next (s.answer []))

/-- BOOT_ATTEMPT with an image that passes every check loads it: its bytes lie in the shadow, its identity is reported and the clocks are
awaited; a failed attempt or source writes its code and the next source follows, after the second QSPI slot the push with its level-3 fault
(03 R83, R85, R106; 21 R526, R531).
Readings: log entries 40, 41, 42, 110. Completes: bootAttempt, bootSourceFailure. -/
def Obligations.BootAttempts : Prop :=
  ∀ (s : State) (source : Nat) (image : Image) (training : Training), s.bootSource = some source → s.mayLoad = true →
    (2 ≤ source → s.glb.pushLast = true) →
    let i := if source < 2 then image else { image with bytes := s.glb.pushed }
    (s.attemptCode source i training = (1, true) → Completes (.bootAttempt image training) s fun t =>
      t.is R.CFG_STATUS_loaded = true ∧ t.reg R.CFG_LOAD_STATUS = 1 ∧ t.rd R.GLB_BOOT_STATUS_state = 5 ∧
      t.rd R.GLB_BOOT_STATUS_source = source % 4 ∧ t.wide R.CFG_IMAGE_ID_LO R.CFG_IMAGE_ID_HI = imageField i.bytes 0x24 8 ∧
      t.reg R.CFG_SECVER = BitVec.ofNat 32 (imageField i.bytes 0x20 4) ∧ t.cfg.bootModes = imageModes i.bytes ∧
      t.dramBytes (t.wide R.CFG_SHADOW_BASE_LO R.CFG_SHADOW_BASE_HI - dramBase) (imageLen i.bytes) = i.bytes.take (imageLen i.bytes)) ∧
    (∀ code, (code = 0x20 ∨ code = 0x22) → (source = 0 ∨ 2 ≤ source) → Completes (.bootSourceFailure code) s fun t =>
      t.rd R.GLB_BOOT_STATUS_code = code ∧ t.is R.CFG_STATUS_loaded = false ∧ t.glb.pushed = [] ∧
      t.rd R.GLB_BOOT_STATUS_state = (if source = 2 then 8 else 1) ∧ t.rd R.GLB_BOOT_STATUS_source = (if source = 0 then 1 else source % 4) ∧
      SameMemory s t ∧ ∀ a, a ≠ R.GLB_BOOT_STATUS → t.reg a = s.reg a) ∧
    (source = 1 → ∀ code, (code = 0x20 ∨ code = 0x22) → Completes (.bootSourceFailure code) s fun t =>
      t.rd R.GLB_BOOT_STATUS_code = code ∧ t.rd R.GLB_BOOT_STATUS_state = 8 ∧ t.is R.GLB_INT_STATUS_boot_fail = true ∧
      t.flt.records.any (fun r => r.source == 0 && r.reported == 3) = true) ∧
    (source = 0 → ∀ code < 256, code ≠ 1 → s.attemptCode source i training = (code, false) → Completes (.bootAttempt image training) s fun t =>
      t.rd R.GLB_BOOT_STATUS_code = code ∧ (code < 0x20 → t.reg R.CFG_LOAD_STATUS = BitVec.ofNat 32 code) ∧
      t.is R.CFG_STATUS_loaded = false ∧ t.rd R.GLB_BOOT_STATUS_source = 1 ∧ SameMemory s t ∧
      ∀ a, a ∉ [R.GLB_BOOT_STATUS, R.CFG_LOAD_STATUS] → t.reg a = s.reg a)

/-- HOST_PUSH_CHUNK hands a chunk of 1 byte to 4 MiB to the loader and refuses any other length with code 0x27; PUSH_CHUNK_TAKEN takes its bytes
from shared sample memory and sets push_ready; NERAX_BOOT_FRAME adds the bytes of a boot frame; DPLL_BOOT_WAIT_EXPIRY starts a domain that is
still awaited; FIRST_AUDIO, once every domain is ready, starts the engines of the started domains, holds boot_modes as R103 settles them, stores
the boot time and sets first_audio, and does nothing sooner (03 R101, R103; 10 R280; 14 R379; 21 R529, R531, R539).
Readings: log entries 42, 43. Completes: hostPushChunk, pushChunkTaken, neraxBootFrame, dpllBootWaitExpiry, firstAudio. -/
def Obligations.PushAndFirstAudio : Prop :=
  ∀ (s : State),
    (s.rd R.GLB_BOOT_STATUS_state = 8 →
      (∀ n last, 0 < n → n ≤ 0x400000 → exec (.hostPushChunk n last) s = .next ((s.setGlb { s.glb with chunk := some (n, last) }).answer [])) ∧
      (∀ n last, (n = 0 ∨ 0x400000 < n ∧ n < 2 ^ 23) → exec (.hostPushChunk n last) s
        = .next (((s.wr R.GLB_BOOT_STATUS_code 0x27).wr R.GLB_INT_STATUS_push_ready 1).answer []))) ∧
    (∀ n last, s.glb.chunk = some (n, last) → s.glb.pushLast = false → exec .pushChunkTaken s
      = .next ((s.setGlb { s.glb with pushed := s.glb.pushed ++ s.ssmBytes 0 n, pushLast := last, chunk := none }).wr
        R.GLB_INT_STATUS_push_ready 1)) ∧
    (∀ bytes last, s.bootStrap = 2 → s.mayLoad = true → s.linkState 0 = 5 → s.glb.pushLast = false → exec (.neraxBootFrame bytes last) s
      = .next ((s.setGlb { s.glb with pushed := s.glb.pushed ++ bytes, pushLast := last }).wr R.GLB_BOOT_STATUS_state 1)) ∧
    (∀ x : DomIx, x.val ∉ s.glb.clocksWaiting → exec (.dpllBootWaitExpiry x) s = .next s) ∧
    (∀ x : DomIx, x.val ∈ s.glb.clocksWaiting → Completes (.dpllBootWaitExpiry x) s fun t =>
      t.started x = true ∧ x.val ∉ t.glb.clocksWaiting ∧ SameMemory s t ∧ t.locks = s.locks) ∧
    (∀ ms, (s.rd R.GLB_BOOT_STATUS_state ≠ 5 ∨ s.glb.clocksWaiting ≠ []) → exec (.firstAudio ms) s = .next s) ∧
    (∀ ms, s.rd R.GLB_BOOT_STATUS_state = 5 → s.glb.clocksWaiting = [] → Completes (.firstAudio ms) s fun t =>
      t.running = true ∧ t.is R.GLB_INT_STATUS_first_audio = true ∧
      (∀ x : DomIx, s.started x = true → (t.dom x).fresh = true) ∧
      (∀ n : EngIx, n.val < 32 → s.engDomain n < 3 → s.started (s.engDomain n) = true → s.inPair = false →
        t.engState n = if s.engHeld n then 4 else 2) ∧ t.rd (lowHalf R.GLB_BOOT_TIME) = min ms 0xFFFF ∧
      t.held = (if hasMode s.cfg.bootModes 1 || hasMode s.cfg.bootModes 2 then (s.cfg.bootModes &&& 0xFF8) ||| 4 else s.cfg.bootModes) ∧
      SameMemory s t)

/-- IMAGE_REPLACEMENT_START refuses with the first reason of R535 and changes nothing else, or stages the image at GLB_REPL_SRC;
IMAGE_REPLACEMENT_ABORT discards it and returns every grant; IMAGE_REPLACEMENT_TAKE makes it the image, keeps the held modes whose overlay it
does not mark absent, and reports its identity (said of an image whose sections are those in force); a link that has been up for 10 ms with a
peer that reports another build_id goes down (21 R535 to R538).
Readings: log entries 14, 47, 48, 52. Completes: imageReplacementStart, imageReplacementAbort, imageReplacementTake,
replacementBuildIdMismatch. -/
def Obligations.ImageReplacement : Prop :=
  ∀ (s : State) (image : Image),
    let i := s.imageAt image
    (s.running = false → exec (.imageReplacementStart image) s = .next s) ∧
    (s.running = true → ∀ code, s.replacementCode i = code → code ≠ 1 → exec (.imageReplacementStart image) s
      = .next (((s.wr R.GLB_REPL_STATUS_code code).wr R.GLB_INT_STATUS_repl_err 1).answer [])) ∧
    (s.replacing = true → s.replacementCode i ≠ 1) ∧
    (s.running = true → s.replacementCode i = 1 → Completes (.imageReplacementStart image) s fun t =>
      t.rd R.GLB_REPL_STATUS_state = 2 ∧ t.glb.newImage = some i ∧ t.held = s.held ∧ t.locks = s.locks ∧ SameMemory s t ∧
      (s.extraLeave i ≠ 0 → (t.requester 3).pending = true ∧ (t.requester 3).cost = s.extraLeave i) ∧
      ∀ a, a ∉ [R.GLB_REPL_STATUS, R.WEIR_INT_STATUS] → t.reg a = s.reg a) ∧
    (s.replacing = false → exec .imageReplacementAbort s = .next (s.answer [])) ∧
    (s.replacing = true → Completes .imageReplacementAbort s fun t =>
      t.replacing = false ∧ t.glb.newImage = none ∧ (t.requester 3).grant = 0 ∧ (t.requester 3).pending = false ∧ SameMemory s t ∧
      ∀ a, a ≠ R.GLB_REPL_STATUS → t.reg a = s.reg a) ∧
    (∀ n, s.glb.newImage = some n → s.rd R.GLB_REPL_STATUS_state = 4 → s.takeReady s.replTakeAt = true →
      s.replacedSections n = [] → Completes .imageReplacementTake s fun t =>
        t.replacing = false ∧ t.is R.GLB_INT_STATUS_repl_done = true ∧ t.held = s.keptSet n.bytes ∧ t.cfg.contents = n.sections ∧
        t.wide R.CFG_IMAGE_ID_LO R.CFG_IMAGE_ID_HI = imageField n.bytes 0x24 8 ∧ t.reg R.CFG_SECVER = BitVec.ofNat 32 (imageField n.bytes 0x20 4) ∧
        t.wide R.CFG_SHADOW_BASE_LO R.CFG_SHADOW_BASE_HI = s.wide R.GLB_REPL_SRC_LO R.GLB_REPL_SRC_HI ∧ t.glb.newImage = none ∧ SameMemory s t) ∧
    (∀ (k : LinkIx) t₀, s.linkState k = 5 → (s.link k).differs = some t₀ → t₀ + 2500000 < s.now →
      Completes (.replacementBuildIdMismatch k) s fun t => t.is (R.NRXk_INT_STATUS_link_down k) = true ∧ SameMemory s t ∧
        t.linkState k = (if s.laneState (4 + 2 * k) = 6 ∧ s.laneState (5 + 2 * k) = 6 then 2 else 1)) ∧
    (∀ k : LinkIx, (s.linkState k ≠ 5 ∨ (s.link k).differs = none ∨ (∃ t₀, (s.link k).differs = some t₀ ∧ s.now ≤ t₀ + 2500000)) → exec (.replacementBuildIdMismatch k) s = .next s)


/-! ## Engine gates, windows and substitution (04) -/

/-- ENGINE_GATE_OPEN, with every awaited barge present and a credit in every outlet, starts the segment of the awaited tick at address 0, no
inlet absent and no outlet dropped, and otherwise only discards older barges. ENGINE_START_DEADLINE starts an engine still at its gate in any
case, with the inlets that are absent and the outlets without credit marked and each counted as an overrun; has one that still runs an
earlier tick start the next late; and has a held one give the awaited barge up and commit a barge of zeros. ENGINE_TICK_STROBE offers its slack
to the least one, has a segment three boundaries behind parked and the tick after it skipped, and skips the tick of an engine at its gate two
boundaries behind. ENGINE_OUTLET_COMMIT commits a complete outlet once (01 R25; 04 R118, R119, R122 to R124; 05 R160).
Readings: log entry 1. Completes: engineGateOpen, engineStartDeadline, engineTickStrobe, engineOutletCommit. -/
def Obligations.EngineGatesAndDeadlines : Prop :=
  ∀ (s : State) (n : EngIx), s.halted = false → s.engDomain n < 3 →
    let e := s.eng n
    let b := s.tick (s.engDomain n)
    let w := s.dropOlder e
    let slack0 : FieldAt := ⟨R.ENGn_SLACK_MIN n, 0, 20⟩
    (w.gateReady n = true → Completes (.engineGateOpen n) s fun t =>
      t.engState n = 3 ∧ (t.eng n).pc = 0 ∧ (t.eng n).tick = e.tick ∧ (t.eng n).absent = [] ∧ (t.eng n).dropped = [] ∧
      t.locks = w.locks ∧ SameMemory s t ∧ ∀ m : EngIx, m ≠ n → t.eng m = s.eng m) ∧
    (w.gateReady n = false → exec (.engineGateOpen n) s = .next w) ∧
    (s.engState n = 2 → e.tick + 1 ≤ b → s.isPrepared n = false → Completes (.engineStartDeadline n) s fun t =>
      t.engState n = 3 ∧ (t.eng n).pc = 0 ∧ (t.eng n).tick = e.tick ∧ (t.eng n).absent = w.absentInlets e ∧
      (t.eng n).dropped = w.creditless e ∧ t.locks = w.locks ∧
      t.rd (lowHalf (R.ENGn_OVR_COUNT n)) = min 0xFFFF (s.rd (lowHalf (R.ENGn_OVR_COUNT n)) + (w.absentInlets e).length) ∧
      t.rd (highHalf (R.ENGn_OVR_COUNT n)) = min 0xFFFF (s.rd (highHalf (R.ENGn_OVR_COUNT n)) + (w.creditless e).length)) ∧
    (s.engState n = 3 → e.tick + 1 < b →
      exec (.engineStartDeadline n) s = .next (s.setEng n { e with lateNext := true })) ∧
    (s.engState n = 4 → e.tick + 1 ≤ b → Completes (.engineStartDeadline n) s fun t =>
      (t.eng n).tick = e.tick + 1 ∧ t.regs = s.regs ∧ SameMemory s t ∧ (∀ m : EngIx, m ≠ n → t.eng m = s.eng m) ∧
      (∀ l k, e.outlets = [l] → e.inletLocks = [] → s.lock l = some k → 0 < k.credit → t.lock l = some { k with
        credit := k.credit - 1, flight := k.flight ++ [⟨e.tick, List.replicate (s.bargeWords k) 0⟩] }) ∧
      (∀ l k, e.outlets = [] → e.inletLocks = [l] → s.lock l = some k → s.awaits l e.tick = none →
        t.lock l = some { k with missed := k.missed ++ [e.tick] })) ∧
    (∀ slack, s.engState n = 3 → b < e.tick + 3 → exec (.engineTickStrobe n slack) s
      = .next (if slack < s.rd slack0 then s.wr slack0 slack else s)) ∧
    (∀ slack, s.engState n = 3 → e.tick + 3 ≤ b → Completes (.engineTickStrobe n slack) s fun t =>
      (t.eng n).tick = e.tick + 2 ∧ t.engState n ≠ 3) ∧
    (∀ slack, s.engState n = 1 ∨ s.engState n = 2 → e.tick + 2 ≤ b → Completes (.engineTickStrobe n slack) s fun t =>
      (t.eng n).tick = e.tick + 1 ∧ t.engState n = s.engState n ∧ SameMemory s t ∧ ∀ m : EngIx, m ≠ n → t.eng m = s.eng m) ∧
    (∀ (o : Fin 16) (l : Nat), s.engState n = 3 → e.outlets[o.val]? = some l → s.outletSize e o ≤ (e.sentWords o).length →
      e.committed.contains o.val = false → e.dropped.contains o.val = false → s.isPrepared n = false →
      exec (.engineOutletCommit n o) s = .next ((s.commit l ⟨e.tick, e.sentWords o⟩).setEng n
        { e with committed := e.committed ++ [o.val], lastCommit := e.cycles }))

/-- ENGINE_WINDOW_ACCESS reads and writes a word of X or Y of an engine that runs no segment; while one runs the access waits for its end.
PROGRAM_PAGE_SWAP_REQUEST and PARAM_PAGE_SWAP_REQUEST act at once on a stopped engine and otherwise wait for the first gate from the next
boundary on; PARAM_COPY_END makes the inactive page equal to the current one except where an external master wrote since; ENGINE_RELOCK_END
sets relocked and lets the engine to its gate, or to the held state (04 R109, R110, R116, R125, R127).
Readings: log entries 96, 98. Completes: engineWindowAccess, programPageSwapRequest, paramPageSwapRequest, paramCopyEnd, engineRelockEnd. -/
def Obligations.EngineWindowsAndPages : Prop :=
  ∀ (s : State) (n : EngIx) (user : WindowUser) (o : BitVec 18) (v : Word),
    let e := s.eng n
    let w := o.toNat / 4 * 4
    (s.engState n ≠ 3 → 0x30000 ≤ o.toNat →
      exec (.engineWindowAccess n user o none .clean) s
        = .next (s.answer [(Tab.get (fun _ => 0) e.y ((w - 0x30000) / 4)).signExtend 32]) ∧
      exec (.engineWindowAccess n user o (some v) .clean) s
        = .next ((s.setEng n { e with y := Tab.set (fun _ => 0) e.y ((w - 0x30000) / 4) (v.setWidth 24) }).answer [])) ∧
    (s.engState n ≠ 3 → 0x20000 ≤ o.toNat → o.toNat < 0x30000 → e.paramOn = false →
      exec (.engineWindowAccess n user o none .clean) s
        = .next (s.answer [(Tab.get (fun _ => 0) e.x ((w - 0x20000) / 4)).signExtend 32]) ∧
      exec (.engineWindowAccess n user o (some v) .clean) s
        = .next ((s.setEng n { e with x := Tab.set (fun _ => 0) e.x ((w - 0x20000) / 4) (v.setWidth 24) }).answer [])) ∧
    (s.engState n = 3 → (s.waits.any fun p => p.engine = n.val ∧ p.user = user) = false →
      exec (.engineWindowAccess n user o (some v) .clean) s
        = .next { s with waits := s.waits ++ [⟨n, user, windowMaster user, w, some [v], .clean, false⟩] }) ∧
    (s.engState n ≠ 0 → s.engDomain n ≠ 3 → e.swapAt = [] → e.paramSwapAt = [] →
      exec (.programPageSwapRequest n) s
        = .next ((s.wr (R.ENGn_PAGE_pending n) 1).setEng n { e with swapAt := [s.tick (s.engDomain n) + 1] }) ∧
      exec (.paramPageSwapRequest n) s
        = .next ((s.wr (R.ENGn_PARAM_pending n) 1).setEng n { e with paramSwapAt := [s.tick (s.engDomain n) + 1] })) ∧
    (s.engState n = 0 → Completes (.programPageSwapRequest n) s fun t =>
      t.rd (R.ENGn_PAGE_cur n) = 1 - s.rd (R.ENGn_PAGE_cur n) ∧ t.rd (R.ENGn_STATUS_page n) = t.rd (R.ENGn_PAGE_cur n) ∧
      t.rd (R.ENGn_PAGE_pending n) = 0 ∧ ∀ a, a ≠ R.ENGn_PAGE n → a ≠ R.ENGn_STATUS n → t.reg a = s.reg a) ∧
    (s.engState n = 0 → s.is (R.ENGn_PARAM_copy_busy n) = false → Completes (.paramPageSwapRequest n) s fun t =>
      t.rd (R.ENGn_PARAM_cur n) = 1 - s.rd (R.ENGn_PARAM_cur n) ∧ t.rd (R.ENGn_PARAM_pending n) = 0 ∧
      t.is (R.ENGn_PARAM_copy_busy n) = true ∧ ∀ a, a ≠ R.ENGn_PARAM n → t.reg a = s.reg a) ∧
    (s.is (R.ENGn_PARAM_copy_busy n) = true → e.paramSwapAt = [] → Completes (.paramCopyEnd n) s fun t =>
      t.rd (R.ENGn_PARAM_copy_busy n) = 0 ∧ (∀ a, a ≠ R.ENGn_PARAM n → t.reg a = s.reg a) ∧
      ∀ i < 256, Tab.get (fun _ => 0) (t.eng n).param (256 * (1 - s.paramPage n) + i)
        = Tab.get (fun _ => 0) e.param (if e.paramTouched.contains i then 256 * (1 - s.paramPage n) + i else 256 * s.paramPage n + i)) ∧
    (s.engState n = 1 → exec (.engineRelockEnd n) s
      = .next ((s.wr (R.ENGn_INT_STATUS_relocked n) 1).wr (R.ENGn_STATUS_state n) (if s.is (R.ENGn_CTRL_hold n) then 4 else 2)))

/-- The rows of a substitution. SUBSTITUTION_START from idle asks the weir for leave and enters state 1, and otherwise sets refused;
SUBSTITUTION_RELOCK_END leads from state 2 to 3; SUBSTITUTION_COPY_END at a tick boundary to state 4, the reserve at its gate with the
target's feeds duplicated and the count at 0; SUBSTITUTION_READY, once the count is reached, to state 5 with its event;
SUBSTITUTION_CUT_COMMAND asks for the cut at the next boundary, where SUBSTITUTION_CUT gives the reserve the target's inlets, stops the target
and enters state 6; SUBSTITUTION_RELEASE enters state 7, the target relocking at the reserve's clock, and SUBSTITUTION_CUT_BACK leaves the unit
idle with its grant returned; SUBSTITUTION_ABORT waits for the next boundary of the domain, whose TICK_BOUNDARY leaves the unit idle;
SUBSTITUTION_AUTO_FAIL starts a warm substitution after fail_n failed ticks (04 R129 to R133).
Readings: log entry 54. Completes: substitutionStart, substitutionRelockEnd, substitutionCopyEnd, substitutionReady, substitutionCutCommand,
substitutionCut, substitutionRelease, substitutionCutBack, substitutionAbort, substitutionAutoFail. -/
def Obligations.SubstitutionStates : Prop :=
  ∀ (s : State) (u : Fin 2),
    let ctrl (f : FieldAt) : Nat := s.rd (subF u f)
    let x := s.engDomain (s.working u)
    (s.subState u = 0 → s.substRefuses u (ctrl R.ENG_SUB0_CTRL_target) (ctrl R.ENG_SUB0_CTRL_method) = false →
      Completes (.substitutionStart u) s fun t =>
        t.subState u = 1 ∧ t.subTarget u = ctrl R.ENG_SUB0_CTRL_target ∧ (t.requester u).pending = true ∧
        (t.requester u).cost = s.weirCost u ∧ t.engines = s.engines ∧ SameMemory s t) ∧
    (s.subState u ≠ 0 ∨ s.substRefuses u (ctrl R.ENG_SUB0_CTRL_target) (ctrl R.ENG_SUB0_CTRL_method) = true →
      exec (.substitutionStart u) s = .next (s.wr (subF u R.ENG_SUB0_STATUS_refused) 1)) ∧
    (s.subState u = 2 → Completes (.substitutionRelockEnd u) s fun t =>
      t.subState u = 3 ∧ t.engState (32 + u) = 2 ∧ t.is (R.ENGn_INT_STATUS_relocked (32 + u)) = true ∧ t.engines = s.engines) ∧
    (s.subState u = 3 → s.subTarget u < 32 → s.atBoundary x = true → Completes (.substitutionCopyEnd u) s fun t =>
      t.subState u = 4 ∧ t.engState (32 + u) = 2 ∧ (t.sub u).feeds = (s.eng (s.subTarget u)).inletLocks.map (fun l => (l, feedLock u l)) ∧
      t.rd (subF u R.ENG_SUB0_STATUS_count) = 0 ∧ t.rd (subF u R.ENG_SUB0_STATUS_mismatch) = 0 ∧ SameMemory s t) ∧
    (s.subState u = 4 → s.warmCount u ≤ s.rd (subF u R.ENG_SUB0_STATUS_count) → Completes (.substitutionReady u) s fun t =>
      t.subState u = 5 ∧ t.is (bitAt R.ENG_SUB_INT_STATUS (8 * u)) = true ∧ t.engines = s.engines ∧ t.locks = s.locks) ∧
    (s.bothRun u = true → exec (.substitutionCutCommand u) s
      = .next (s.setSub u { s.sub u with cutAt := some (s.tick x + 1) })) ∧
    (s.cutDue u = true → s.subState u ≠ 7 → s.subTarget u < 32 → Completes (.substitutionCut u) s fun t =>
      t.subState u = 6 ∧ (t.sub u).cutAt = none ∧ SameMemory s t ∧ t.engState (s.working u) = 0 ∧
      (t.eng (32 + u)).inlets = (s.eng (s.working u)).inlets ∧ t.is (bitAt R.ENG_SUB_INT_STATUS (8 * u + 1)) = true) ∧
    (s.subState u = 6 → s.subTarget u < 32 → Completes (.substitutionRelease u) s fun t =>
      t.subState u = 7 ∧ (t.sub u).stage = 2 ∧ t.engState (s.subTarget u) = 1 ∧
      t.reg (R.ENGn_CLK (s.subTarget u)) = s.reg (R.ENGn_CLK (32 + u)) ∧ t.engines = s.engines) ∧
    (s.cutDue u = true → s.subState u = 7 → s.subTarget u < 32 → Completes (.substitutionCutBack u) s fun t =>
      t.subState u = 0 ∧ t.sub u = {} ∧ (t.requester u).grant = 0 ∧ SameMemory s t) ∧
    (1 ≤ s.subState u → s.subState u ≤ 5 → exec (.substitutionAbort u) s
      = .next (s.setSub u { s.sub u with abortAt := some (s.tick (s.sub u).domain + 1) })) ∧
    (∀ (x : DomIx) (at_ : Nat), (s.sub u).abortAt = some at_ → (s.sub u).domain = x → at_ ≤ s.tick x → (s.sub (1 - u)).abortAt = none →
      1 ≤ s.subState u → s.subState u ≤ 5 → s.subTarget u < 32 → s.halted = false → s.started x = true → (s.dom x).b ≠ 0 →
      s.atBoundary x = true → s.cfg.laterRegs = [] → s.cfg.laterContents = [] → s.cfg.laterWords = [] → s.fov.waiting = [] →
      s.layers.shPending = [] → (∀ k < 4, s.linkState k ≠ 5) → Completes (.tickBoundary x) s fun t =>
        t.subState u = 0 ∧ t.sub u = {} ∧ (t.requester u).grant = 0 ∧ t.is (bitAt R.ENG_SUB_INT_STATUS (8 * u + 2)) = true) ∧
    (∀ target : Fin 32, s.is (subF u R.ENG_SUB0_CTRL_auto_fail) = true → s.subState u = 0 →
      ctrl R.ENG_SUB0_CTRL_target = target → max 1 (ctrl R.ENG_SUB0_CTRL_fail_n) ≤ (s.eng target).fails →
      s.substRefuses u target 2 = false → Completes (.substitutionAutoFail u target) s fun t =>
        t.subState u = 1 ∧ t.subTarget u = target ∧ (t.sub u).method = 2 ∧ (t.requester u).pending = true)

/-! ## Engine instructions (05) -/

/-- MPY, MAC and MACN, either lane, as an instruction of their own: the exact product shifted left by one is written to the accumulator,
added to it or subtracted from it. CLR, LDA, ADD, SUB, ADDA, SUBA, NEG and ABS: the accumulator takes 0, the aligned word, the sum, the
difference, 0 - a or the absolute value. All modulo 2^56, with v where the exact result lies outside the range; the engine is otherwise as it
was, at the next instruction (05 R136, R137, R142, R163).
Completes: mpy, mac, macn, clr, lda, add, sub, adda, suba, neg, abs. -/
def Obligations.MultiplyAndAccumulatorArithmetic : Prop :=
  (∀ (s : State) (n : EngIx) (lane : Fin 2) (a : AccIx) (d1 d2 : RegIx), s.engReady n →
     let e := s.eng n
     let term : Int := (e.dReg d1).toInt * (e.dReg d2).toInt * 2
     let x : Int := (e.acc a).toInt
     let w : Acc := BitVec.ofInt 56 term
     exec (.mpy n lane a d1 d2 true) s = .next (s.engNext n (e.accumulated a term false false)) ∧
     exec (.mac n lane a d1 d2 true) s = .next (s.engNext n (e.accumulated a (x + term) (carryAdd (e.acc a) w) (outside (x + term)))) ∧
     exec (.macn n lane a d1 d2 true) s = .next (s.engNext n (e.accumulated a (x - term) (carrySub (e.acc a) w) (outside (x - term))))) ∧
  (∀ (s : State) (n : EngIx) (a b : AccIx) (d : RegIx), s.engReady n →
     let e := s.eng n
     let w := alignWord (e.dReg d)
     let y : Int := (e.dReg d).toInt * 2 ^ 24
     let x := e.acc a
     let z := e.acc b
     exec (.clr n a true) s = .next (s.engNext n (e.accumulated a 0 false false)) ∧
     exec (.lda n a d true) s = .next (s.engNext n (e.accumulated a y false false)) ∧
     exec (.add n a d true) s = .next (s.engNext n (e.accumulated a (x.toInt + y) (carryAdd x w) (outside (x.toInt + y)))) ∧
     exec (.sub n a d true) s = .next (s.engNext n (e.accumulated a (x.toInt - y) (carrySub x w) (outside (x.toInt - y)))) ∧
     exec (.adda n a b true) s = .next (s.engNext n (e.accumulated a (x.toInt + z.toInt) (carryAdd x z) (outside (x.toInt + z.toInt)))) ∧
     exec (.suba n a b true) s = .next (s.engNext n (e.accumulated a (x.toInt - z.toInt) (carrySub x z) (outside (x.toInt - z.toInt)))) ∧
     exec (.neg n a true) s = .next (s.engNext n (e.accumulated a (-x.toInt) (carrySub 0 x) (outside (-x.toInt)))) ∧
     exec (.abs n a true) s = .next (s.engNext n (if x.toInt < 0 then e.accumulated a (-x.toInt) (carrySub 0 x) (outside (-x.toInt))
       else e.accumulated a x.toInt false false)))

/-- CMP writes only the flags of a - d; MAX and MIN leave the larger and the smaller of a and the aligned word; LIM holds a within a
data word's range and sets sl where it had to. ASH and ASHI shift an accumulator by a signed amount clamped to ±56, the left shift modulo
2^56 with v from the exact result, the right shift rounding toward minus infinity; EXP writes the shift count of a to d with flags from a;
NORM also shifts a by it (05 R142, R150, R151, R163).
Completes: cmp, max, min, lim, ash, ashi, exp, norm. -/
def Obligations.CompareLimitAndShiftInstructions : Prop :=
  (∀ (s : State) (n : EngIx) (a : AccIx) (d : RegIx), s.engReady n →
     let e := s.eng n
     let w := alignWord (e.dReg d)
     let x := e.acc a
     let y : Int := (e.dReg d).toInt * 2 ^ 24
     let lim : Int := max (-(2 ^ 47)) (min (2 ^ 47 - 1) x.toInt)
     exec (.cmp n a d true) s
       = .next (s.engNext n { e.accumulated a (x.toInt - y) (carrySub x w) (outside (x.toInt - y)) with a := e.a }) ∧
     exec (.max n a d true) s = .next (s.engNext n (e.accumulated a (max x.toInt y) false false)) ∧
     exec (.min n a d true) s = .next (s.engNext n (e.accumulated a (min x.toInt y) false false)) ∧
     exec (.lim n a true) s = .next (s.engNext n
       (let e' := e.accumulated a lim false false
        if lim = x.toInt then e' else { e' with sr := e'.sr ||| 0x0020 }))) ∧
  (∀ (s : State) (n : EngIx) (a : AccIx) (d : RegIx) (sh : BitVec 7), s.engReady n →
     let e := s.eng n
     let x := e.acc a
     let shifted (k : Int) : Engine :=
       let k := max (-56) (min 56 k)
       if 0 ≤ k then e.accumulated a (x.toInt * 2 ^ k.toNat) false (outside (x.toInt * 2 ^ k.toNat)) else e.accumulated a (x.toInt / 2 ^ (-k).toNat) false false
     let count := shiftCount x
     exec (.ash n a d true) s = .next (s.engNext n (shifted (e.dReg d).toInt)) ∧
     exec (.ashi n a sh) s = .next (s.engNext n (shifted sh.toInt)) ∧
     exec (.exp n a d true) s
       = .next (s.engNext n ({ e.accumulated a x.toInt false false with a := e.a }.withD d (BitVec.ofInt 24 count))) ∧
     exec (.norm n a d true) s = .next (s.engNext n
       ((e.accumulated a (if 0 ≤ count then x.toInt * 2 ^ count.toNat else x.toInt / 2 ^ (-count).toNat) false false).withD d
         (BitVec.ofInt 24 count))))

/-- An arithmetic operation or a store that is not the last of its instruction adds to the instruction in progress and, for a store, to the
store buffer, the rest of the engine as it was; as the last one it also ends the instruction (05 R139, R140, R161). -/
def Obligations.OperationsOfOneInstruction : Prop :=
  ∀ (s : State) (n : EngIx) (lane : Fin 2) (a b : AccIx) (x y : RegIx) (p : RegIx) (bus : Bus) (u : Update), s.engIssues n →
    ∀ i ∈ [Instr.mpy n lane a x y, .mac n lane a x y, .macn n lane a x y, .clr n a, .lda n a x, .add n a x, .sub n a x, .adda n a b,
        .suba n a b, .neg n a, .abs n a, .cmp n a x, .max n a x, .min n a x, .lim n a, .exp n a x, .norm n a x, .ash n a x,
        .st n bus p x u, .stSat n bus p a u],
      ∃ e : Engine, { e with cur := (s.eng n).cur, x := (s.eng n).x, y := (s.eng n).y, param := (s.eng n).param,
                             storesX := (s.eng n).storesX, storesY := (s.eng n).storesY } = s.eng n ∧
        exec (i false) s = .next (s.setEng n e) ∧ exec (i true) s = .next (s.setEng n (e.finish 1 none))

/-- LD reads the word at the pointer, the store buffer before the memory, into d two cycles on; an uncorrectable word reads as 0, is
counted and reported; ST and ST_SAT put the register or the saturated accumulator into the store buffer; the pointer takes its update. LDI,
MOV and LEA write the register their code names, a data register two cycles on and any other at once; MOV between accumulators carries all
56 bits, and a saturating read sets sl (04 R113, R126; 05 R138, R144, R147 to R149, R161).
Completes: ld, st, stSat, ldi, mov, lea. -/
def Obligations.MemoryAndRegisterMoves : Prop :=
  (∀ (s : State) (n : EngIx) (bus : Bus) (p d : RegIx) (a : AccIx) (u : Update), s.engReady n →
     let e := s.eng n
     let page := s.paramPage n
     let slot := match bus with | .x => 2 | .y => 3
     let moved (e : Engine) : Engine :=
       if u = .none then e else e.withP p (ptrUpdate (e.pReg p) (e.step p u) (e.lReg p).toNat)
     exec (.ld n bus p d u .clean true) s
       = .next (s.engNext n { moved e with delayed := [⟨slot, 1, .d d, (e.load page bus (e.pReg p)).setWidth 56⟩] }) ∧
     (∃ t, ((s.bump (highHalf (R.ENGn_ECC_COUNT n))).raise (R.ENGn_INT_STATUS_ecc_uncorr n)).report (32 + n) 8 2 = t ∧
       exec (.ld n bus p d u .uncorrectable true) s
         = .next (t.engNext n { moved e with faulty := true, delayed := [⟨slot, 1, .d d, 0⟩] })) ∧
     exec (.st n bus p d u true) s = .next (s.engNext n (moved (e.store page bus (e.pReg p) (e.dReg d)))) ∧
     exec (.stSat n bus p a u true) s = .next (s.engNext n
       (let r := sat24 (e.acc a)
        let e := moved (e.store page bus (e.pReg p) r.1)
        if r.2 then { e with sr := e.sr ||| 0x0020 } else e))) ∧
  (∀ (s : State) (n : EngIx) (c c' : Fin 64) (imm : Sample) (p : RegIx) (step : Ptr) (i j : AccIx), s.engReady n →
     let e := s.eng n
     let written (e : Engine) (v : Acc) : Engine :=
       if (0x18 ≤ c.val ∧ c.val < 0x28) then { e with delayed := [⟨0, 1, codeReg c, v⟩] } else e.put (codeReg c) v
     let r := e.readCode c'
     exec (.ldi n c imm) s = .next (s.engNext n (written e (codeValue (codeReg c) imm))) ∧
     exec (.mov n ⟨8 + i, by omega⟩ ⟨8 + j, by omega⟩) s
       = .next (s.engNext n { e with a := Tab.set (fun _ => 0) e.a i (e.acc j) }) ∧
     (¬(codeReg c = .a (c.val - 8) ∧ codeReg c' = .a (c'.val - 8)) → exec (.mov n c c') s
       = .next (s.engNext n
           (let e := written e (codeValue (codeReg c) r.1)
            if r.2 then { e with sr := e.sr ||| 0x0020 } else e))) ∧
     exec (.lea n p step) s = .next (s.engNext n (e.withP p (ptrUpdate (e.pReg p) step.toInt (e.lReg p).toNat))))

/-- TAKE reads the next word of the inlet's awaited barge into d two cycles on, and with the last word returns the barge's credit; SEND and SEND_SAT append d or the saturated accumulator to
the outlet's barge; a TAKE of an inlet that was absent at the start reads 0, one beyond the barge or of an unbound inlet reads 0 and is reported as overread, as is
a SEND beyond the barge or to an unbound outlet, which is discarded; a word for an outlet that had no credit at the start is discarded in
silence (04 R119, R120, R122; 05 R145).
Completes: take, send, sendSat. -/
def Obligations.PortTransfers : Prop :=
  ∀ (s : State) (n : EngIx) (port : Fin 16) (d : RegIx) (a : AccIx) (l : Nat) (k : Lock) (b : Barge), s.engReady n →
    let e := s.eng n
    let r := sat24 (e.acc a)
    let at_ := Tab.get (fun _ => 0) e.read port
    let sat (e : Engine) : Engine := if r.2 then { e with sr := e.sr ||| 0x0020 } else e
    let overread (s : State) : State := (s.raise (R.ENGn_INT_STATUS_overread n)).report (32 + n) 4 2
    let size := k.spec.channels.length * (s.dom k.spec.domain).b
    let read (s : State) : State := if at_ + 1 = size then s.consume l e.tick else s
    let room := (e.sentWords port).length < s.outletSize e port
    (e.inletLock port = some l → s.lock l = some k → s.awaits l e.tick = some b → e.absent.contains port.val = false → at_ < size →
      exec (.take n port d .clean true) s = .next (read (s.engNext n
        { e with read := Tab.set (fun _ => 0) e.read port (at_ + 1), delayed := [⟨2, 1, .d d, (b.words.getD at_ 0).setWidth 56⟩] }))) ∧
    (e.inletLock port = some l → s.lock l = some k → e.absent.contains port.val = true → at_ < size →
      exec (.take n port d .clean true) s = .next (read (s.engNext n
        { e with read := Tab.set (fun _ => 0) e.read port (at_ + 1), delayed := [⟨2, 1, .d d, 0⟩] }))) ∧
    (e.inletLock port = none ∨ e.inletLock port = some l ∧ s.lock l = some k ∧ size ≤ at_ →
      exec (.take n port d .clean true) s = .next (overread (s.engNext n { e with delayed := [⟨2, 1, .d d, 0⟩] }))) ∧
    (port.val < e.outlets.length → e.dropped.contains port.val = false → room →
      exec (.send n port d true) s
        = .next (s.engNext n { e with sent := Tab.set (fun _ => []) e.sent port (e.sentWords port ++ [e.dReg d]) }) ∧
      exec (.sendSat n port a true) s
        = .next (s.engNext n (sat { e with sent := Tab.set (fun _ => []) e.sent port (e.sentWords port ++ [r.1]) }))) ∧
    (port.val < e.outlets.length → e.dropped.contains port.val = true →
      exec (.send n port d true) s = .next (s.engNext n e) ∧ exec (.sendSat n port a true) s = .next (s.engNext n (sat e))) ∧
    (e.outlets.length ≤ port.val ∨ e.dropped.contains port.val = false ∧ ¬room →
      exec (.send n port d true) s = .next ((overread s).engNext n e) ∧
      ∃ t, exec (.sendSat n port a true) s = .next t ∧ t.engines = (s.engNext n (sat e)).engines)

/-- Of an engine with nothing in flight: BRA goes to its target in 2 cycles when the condition holds and on otherwise; DO and DOR, outside every
loop, enter a loop whose count is the immediate or the register's value, pass over the body for a count of 0, and set sv without entering where
the end does not lie beyond; BRK leaves the innermost loop in 2 cycles; NOP takes a cycle, and at the end of the innermost loop goes back to its
start while more than one pass is left. PARK ends the segment of the tick with no loop active, the stores written and the sticky flags clear;
every outlet barge that had credit is committed. STORE_BUFFER_WRITE writes the oldest store of a buffer to its memory in its cycle, and not before
(04 R112, R113, R120; 05 R152, R154 to R159, R165).
Readings: log entry 97. Completes: bra, doLoop, dor, brk, nop, park, storeBufferWrite. -/
def Obligations.FlowInstructionsAndPark : Prop :=
  (∀ (s : State) (n : EngIx) (cc : Fin 32) (target stop : BitVec 13) (count : BitVec 16) (c : Fin 64), s.engIssues n →
     let e := s.eng n
     e.cur = {} → e.delayed = [] →
     let goes (e : Engine) (k : Nat) (pc : BitVec 13) : State := s.setEng n ({ e with pc := pc, cycles := e.cycles + k }.ageStores k)
     (e.stack = [] →
       exec (.bra n cc target) s = .next (if condition cc e.srValue then goes e 2 target else goes e 1 (e.pc + 1)) ∧
       (e.pc < stop → count ≠ 0 → exec (.doLoop n count stop) s = .next (goes
         { e with stack := [⟨e.pc + 1, stop, e.lc, false⟩], lc := count, cacheValid := false,
                  cache := if stop.toNat - e.pc.toNat ≤ 16 then some (e.pc + 1, stop) else none } 1 (e.pc + 1))) ∧
       (e.pc < stop → exec (.doLoop n 0 stop) s = .next (goes { e with cache := none, cacheValid := false } 2 (stop + 1))) ∧
       (stop ≤ e.pc → exec (.doLoop n count stop) s
         = .next (goes { e with cache := none, cacheValid := false, sr := e.sr ||| 0x0040 } 1 (e.pc + 1))) ∧
       ((e.readCode c).2 = false → exec (.dor n c stop) s = exec (.doLoop n ((e.readCode c).1.setWidth 16) stop) s) ∧
       exec (.brk n) s = .next (goes e 1 (e.pc + 1)) ∧
       exec (.nop n .clean) s = .next (goes e 1 (e.pc + 1))) ∧
     (∀ lv rest, e.stack = lv :: rest →
       exec (.brk n) s = .next (goes { e with stack := rest, lc := lv.savedLc } 2 (lv.stop + 1)) ∧
       (lv.stop = e.pc → 1 < e.lc.toNat → e.cache = none → exec (.nop n .clean) s = .next (goes
         { e with stack := { lv with looped := true } :: rest, lc := e.lc - 1 } 2 lv.start)))) ∧
  ((∀ (s : State) (n : EngIx), s.engIssues n → (s.eng n).lateNext = false →
     (s.eng n).storesX.length ≤ 2 → (s.eng n).storesY.length ≤ 2 →
     Completes (.park n) s fun t =>
       let e := t.eng n
       e.tick = (s.eng n).tick + 1 ∧ e.stack = [] ∧ e.cache = none ∧ e.cur = {} ∧ e.storesX = [] ∧ e.storesY = [] ∧
       e.sr.getLsbD 5 = false ∧ e.sr.getLsbD 6 = false ∧ (∀ m : EngIx, m ≠ n → t.eng m = s.eng m) ∧ SameMemory s t ∧
       (∀ i l, e.outlets[i]? = some l → e.dropped.contains i = false → i ∈ e.committed)) ∧
   (∀ (s : State) (n : EngIx) (w : Buffered) (rest : List Buffered),
     let e := s.eng n
     (e.storesX = w :: rest → exec (.storeBufferWrite n .x) s = .next (s.setEng n (if w.wait = 0
       then ({ e with storesX := rest }).poke (s.paramPage n) .x w.addr.toNat w.data else e))) ∧
     (e.storesY = w :: rest → exec (.storeBufferWrite n .y) s = .next (s.setEng n (if w.wait = 0
       then { e with storesY := rest, y := Tab.set (fun _ => 0) e.y w.addr.toNat w.data } else e)))))


/-! ## Basin, router and fast monitor path (06) -/

/-- BASIN_GROUP_PROCESS adds a present input group into every output sum by the gains of its tick and returns its credit; BASIN_DEADLINE takes
an absent group as zeros, an overrun; BASIN_PHASE_END commits the floors of the sums, saturated to 24 bits and counted where they saturate
(06 R166, R169, R183, R185; 01 R34; 02 R61). The two phases are said of one group in hand.
Completes: basinGroupProcess, basinDeadline, basinPhaseEnd. -/
def Obligations.BasinSums : Prop :=
  ∀ (s : State) (i : Nat) (g : GroupSpec), s.halted = false → s.basin.tick < s.mtxTick →
    (∀ bg k, s.basin.ins[i]? = some g → s.awaits g.lock s.basin.tick = some bg → s.lock g.lock = some k → s.groupsLeft.contains i = true →
      Completes (.basinGroupProcess i []) s fun t =>
        (∀ o j, o < s.mtxOut → j < s.mtxB → Tab.get (fun _ => 0) t.basin.sums (o * s.mtxB + j)
          = Tab.get (fun _ => 0) s.basin.sums (o * s.mtxB + j) + ((List.range g.count).map fun c =>
              let x := (bg.word j g.count c).toInt
              (if s.basin.wasZero.contains i then x * tickWeight s.mtxB j / 2 ^ 16 else x)
                * s.basin.was.at (s.basin.tick * s.mtxB + j) (o * 1024 + (g.first + c))).sum) ∧
        t.basin.done = s.basin.done ++ [i] ∧ (t.lock g.lock).map (·.credit) = some (min k.spec.depth (k.credit + 1)) ∧
        (∀ l, l ≠ g.lock → t.lock l = s.lock l) ∧ t.regs = s.regs ∧ SameMemory s t) ∧
    (∀ k, s.groupsLeft = [i] → s.basin.ins[i]? = some g → s.awaits g.lock s.basin.tick = none → s.lock g.lock = some k →
      exec .basinDeadline s = .next (((((s.setLock g.lock { k with missed := k.missed ++ [s.basin.tick] }).setBasin
        { s.basin with zero := s.basin.zero ++ [i] }).wr R.MTX_INT_STATUS_ovr_in 1).bump (lowHalf R.MTX_OVR_COUNT)).report 20 8 2)) ∧
    (∀ k, s.groupsLeft = [] → s.basin.outs = [g] → s.lock g.lock = some k → 0 < k.credit → (s.outputWords g).2 = 0 →
      let words := (List.range s.mtxB).flatMap fun j => (List.range g.count).map fun c =>
        BitVec.ofInt 24 (Tab.get (fun _ => 0) s.basin.sums ((g.first + c) * s.mtxB + j) / 2 ^ 19)
      exec .basinPhaseEnd s = .next (((s.setLock g.lock { k with credit := k.credit - 1, flight := k.flight ++ [⟨s.basin.tick, words⟩] })).setBasin
        { s.basin with tick := s.basin.tick + 1, sums := [], done := [], zero := [], wasZero := s.basin.zero })) ∧
    (∀ k, s.groupsLeft = [] → s.basin.outs = [g] → s.lock g.lock = some k → 0 < k.credit → 0 < (s.outputWords g).2 →
      Completes .basinPhaseEnd s fun t =>
        t.lock g.lock = some { k with
          credit := k.credit - 1
          flight := k.flight ++ [⟨s.basin.tick, (List.range s.mtxB).flatMap fun j => (List.range g.count).map fun c =>
            (basinOutput (Tab.get (fun _ => 0) s.basin.sums ((g.first + c) * s.mtxB + j))).1⟩] } ∧
        t.is R.MTX_INT_STATUS_sat = true ∧ t.rd ⟨R.MTX_SAT_COUNT, 0, 16⟩ = min (s.rd ⟨R.MTX_SAT_COUNT, 0, 16⟩ + (s.outputWords g).2) 0xFFFF ∧
        t.basin.tick = s.basin.tick + 1 ∧ t.basin.sums = [] ∧ SameMemory s t) ∧
    (∀ v : Int, 2 ^ 42 ≤ v → basinOutput v = (0x7FFFFF, true) ∧ basinOutput (-v - 1) = (0x800000, true)) ∧
    (∀ v : Int, -(2 ^ 42) ≤ v → v < 2 ^ 42 → basinOutput v = (BitVec.ofInt 24 (v / 2 ^ 19), false))

/-- BANK_WINDOW_ACCESS reads either bank and writes the inactive one alone; BANK_COPY_END makes the inactive bank equal to the active one but for
what software wrote meanwhile; SCENE_TAKE turns the banks with a crossfade, reported with its sample number, and CROSSFADE_END ends it; a timed
take that was requested too late or is held back at its boundary is refused (00 R15; 06 R171 to R176). An access that is not an aligned 32-bit
one, and a write to a bank that is not inactive, are default-target errors; a write during overlay staging is dropped with bank_lost.
Readings: log entries 76, 95. Completes: bankWindowAccess, bankCopyRequest, bankCopyEnd, sceneTakeRequest, sceneTake, sceneTakeLate,
crossfadeEnd. -/
def Obligations.BanksAndScenes : Prop :=
  ∀ (s : State) (m : MasterIx) (o : BitVec 23) (v : Word),
    let b := o.toNat / 0x400000
    let node := o.toNat % 0x400000 / 4
    let g := s.basin.now
    (o.toNat % 4 ≠ 0 → exec (.bankWindowAccess m o 4 (some v) .clean false) s
      = .next (s.defaultTarget m (bankWindow + o.toNat) 2 true causeSize)) ∧
    (o.toNat % 4 = 0 → s.inShape node = true →
      exec (.bankWindowAccess m o 4 none .clean false) s = .next (s.answer [(g.word b node).signExtend 32]) ∧
      ((b = g.bank ∨ g.fade ≠ none) → exec (.bankWindowAccess m o 4 (some v) .clean false) s
        = .next (s.defaultTarget m (bankWindow + o.toNat) 2 true causeRefused)) ∧
      (b ≠ g.bank → g.fade = none → s.basin.staging = true → exec (.bankWindowAccess m o 4 (some v) .clean false) s
        = .next ((s.wr R.MTX_INT_STATUS_bank_lost 1).answer [])) ∧
      (b ≠ g.bank → g.fade = none → s.basin.staging = false → Completes (.bankWindowAccess m o 4 (some v) .clean false) s fun t =>
        t.basin.now = g.setWord b node (v.setWidth 24) ∧ t.regs = s.regs ∧ SameMemory s t)) ∧
    (s.is R.MTX_STATUS_copy_busy = false →
      exec .bankCopyRequest s = .next ((s.setBasin { s.basin with touched := [] }).wr R.MTX_STATUS_copy_busy 1)) ∧
    (s.is R.MTX_STATUS_copy_busy = true → g.fade = none → s.basin.staging = false → g.bank < 2 → Completes .bankCopyEnd s fun t =>
      t.is R.MTX_STATUS_copy_busy = false ∧ t.basin.now.bank = g.bank ∧ SameMemory s t ∧ ∀ n, t.basin.now.word g.bank n = g.word g.bank n ∧
      t.basin.now.word (1 - g.bank) n = g.word (if s.basin.touched.contains n then 1 - g.bank else g.bank) n) ∧
    (s.basin.take = none → Completes (.sceneTakeRequest false) s fun t =>
      t.basin.take = some none ∧ t.is R.MTX_STATUS_take_pending = true ∧ t.basin.now = g ∧ SameMemory s t) ∧
    (s.basin.take = none → Completes (.sceneTakeRequest true) s fun t =>
      t.basin.take = some (some (roundUp (s.wide R.MTX_TAKE_AT_LO R.MTX_TAKE_AT_HI) s.mtxB)) ∧ t.basin.now = g ∧ SameMemory s t) ∧
    (∀ at_, s.basin.take = some at_ → s.atBoundary s.mtxDomain = true → s.takeFree = true →
      (∀ n, at_ = some n → n = s.mtxSample ∧ s.basin.takeSince + 250 ≤ s.now) → g.bank < 2 → Completes .sceneTake s fun t =>
        t.basin.now.bank = 1 - g.bank ∧ t.basin.take = none ∧ t.is R.MTX_INT_STATUS_take_done = true ∧
        t.basin.now.fade = some ⟨s.mtxSample, max (s.rd ⟨R.MTX_XFADE, 0, 16⟩) (s.rd R.MTX_CTRL_min_len), []⟩ ∧
        t.wide R.MTX_TAKE_LAST_LO R.MTX_TAKE_LAST_HI = (s.dom s.mtxDomain).sample.toNat ∧ (∀ r ∈ t.basin.now.ramps, r.held = true) ∧
        (∀ c n, t.basin.now.word c n = g.word c n) ∧ SameMemory s t) ∧
    (∀ n, s.basin.take = some (some n) → (n < s.mtxSample ∨ n = s.mtxSample ∧ s.atBoundary s.mtxDomain = true ∧
        (s.is R.MTX_STATUS_copy_busy = true ∨ s.basin.staging = true ∨ s.now < s.basin.takeSince + 250)) → Completes .sceneTakeLate s fun t =>
      t.basin.take = none ∧ t.is R.MTX_INT_STATUS_late = true ∧ t.basin.now = g ∧ SameMemory s t ∧
      ∀ a, a ∉ [R.MTX_STATUS, R.MTX_INT_STATUS] → t.reg a = s.reg a) ∧
    (∀ n, s.basin.take = some (some n) → s.mtxSample < n → exec .sceneTakeLate s = .next s) ∧
    (∀ f, g.fade = some f → s.atBoundary s.mtxDomain = true → f.start < s.mtxSample → f.start + f.len ≤ s.mtxSample →
      Completes .crossfadeEnd s fun t => t.basin.now.fade = none ∧ t.basin.now.bank = g.bank ∧ t.is R.MTX_INT_STATUS_xfade_done = true ∧
        (∀ r, r ∈ t.basin.now.ramps ↔ r ∈ g.ramps ∧ r.held = false) ∧ SameMemory s t)

/-- RAMP_PUSH queues a command with its length raised to min_len, refuses a full queue and discards a node outside the shape; RAMP_START starts
a lone command, pushed at least 1 µs before the boundary, from the gain in effect before it and writes its target to the active bank; the gain
of each sample of the ramp follows R180, and RAMP_END frees the slots of the ramps that are over (00 R15; 06 R170, R178 to R182).
Readings: log entry 95. Completes: rampPush, rampStart, rampEnd. -/
def Obligations.NodeRamps : Prop :=
  ∀ (s : State) (len : BitVec 16) (gang : Bool),
    let node := s.rd ⟨R.MTX_RQ_NODE, 16, 10⟩ * 1024 + s.rd ⟨R.MTX_RQ_NODE, 0, 10⟩
    let g := s.basin.now
    (s.inShape node = false → exec (.rampPush len gang) s = .next (s.wr R.MTX_INT_STATUS_rq_bad 1)) ∧
    (s.inShape node = true → s.basin.queue.length < 1024 → Completes (.rampPush len gang) s fun t =>
      t.basin.queue = s.basin.queue ++ [⟨node, BitVec.ofNat 24 (s.rd ⟨R.MTX_RQ_GAIN, 0, 24⟩), max len.toNat (s.rd R.MTX_CTRL_min_len), gang, s.now⟩] ∧
      t.basin.gang = gang ∧ t.basin.now = g ∧ SameMemory s t ∧ t.rd R.MTX_RQ_STATUS_queued = s.basin.queue.length + 1 ∧
      ∀ a, a ≠ R.MTX_RQ_STATUS → t.reg a = s.reg a) ∧
    (s.inShape node = true → 1024 ≤ s.basin.queue.length → s.basin.gang = false → Completes (.rampPush len gang) s fun t =>
      t.basin.queue = s.basin.queue ∧ t.is R.MTX_INT_STATUS_rq_full = true ∧ t.basin.now = g ∧ SameMemory s t) ∧
    (∀ c, s.atBoundary s.mtxDomain = true → s.basin.queue = [c] → c.gang = false → g.ramps = [] → g.fade = none → c.pushed + 250 ≤ s.now →
      Completes (.rampStart false []) s fun t =>
        t.basin.now.ramps = [⟨c.node, s.mtxSample, s.basin.was.at (s.mtxSample - 1) c.node, c.gain.toInt, c.len, false⟩] ∧ t.basin.queue = [] ∧
        t.basin.now.word g.bank c.node = c.gain ∧ (∀ n, n ≠ c.node → t.basin.now.word g.bank n = g.word g.bank n) ∧ SameMemory s t ∧
        ∀ j : Nat, t.basin.now.at (s.mtxSample + j) c.node = rampValue (s.basin.was.at (s.mtxSample - 1) c.node) c.gain.toInt j c.len) ∧
    (∀ (a b : Int) (n : Nat), rampValue a b n n = b ∧ (0 < n → rampValue a b (n - 1) n = b)) ∧
    (s.atBoundary s.mtxDomain = true → Completes .rampEnd s fun t =>
      (∀ r, r ∈ t.basin.now.ramps ↔ r ∈ g.ramps ∧ s.rampOver r = false) ∧ t.basin.now.bank = g.bank ∧ t.basin.now.words0 = g.words0 ∧
      t.basin.now.words1 = g.words1 ∧ t.basin.now.fade = g.fade ∧ SameMemory s t)

/-- ROUTE_WRITE is refused with the lowest-numbered reason, or pends; ROUTE_TAKES_EFFECT brings the source into effect at a boundary, as a cut or
a one-tick crossfade, unless the router holds, and ROUTER_HOLD_RELEASE ends the hold. ROUTER_HOP of a group of one destination commits the
samples of its source for the group's next tick, of the tick before on a delayed route, and silence where it is routed to silence;
ROUTER_DEADLINE takes a source that is absent as zeros, an overrun of level 2 (06 R186 to R190, R192; 01 R34).
Readings: log entries 90, 111. Completes: routeWrite, routeTakesEffect, routerHoldRelease, routerHop, routerDeadline. -/
def Obligations.RouterRoutesAndHops : Prop :=
  (∀ (s : State) (d : BitVec 13) (v : Word),
     let a := R.RTR_ROUTEd d.toNat
     (∀ reason, s.routeRefusal d.toNat (v.toNat % 2 ^ 13) = some reason → exec (.routeWrite d v) s
       = .next (((s.setReg R.RTR_REFUSED (BitVec.ofNat 32 (reason * 2 ^ 16 + d.toNat))).wr R.RTR_INT_STATUS_refused 1).answer [])) ∧
     (s.dstDesc d.toNat = none → s.routeRefusal d.toNat (v.toNat % 2 ^ 13) = some 1) ∧
     (∀ e, s.dstDesc d.toNat = some e → s.routeRefusal d.toNat 0x1FFF = none) ∧
     (∀ e f, s.dstDesc d.toNat = some e → v.toNat % 2 ^ 13 ≠ 0x1FFF → s.srcDesc (v.toNat % 2 ^ 13) = some f → f.domain ≠ e.domain →
       s.routeRefusal d.toNat (v.toNat % 2 ^ 13) = some 3) ∧
     (s.routeRefusal d.toNat (v.toNat % 2 ^ 13) = none → Completes (.routeWrite d v) s fun t =>
       t.is (R.RTR_ROUTEd_pend d.toNat) = true ∧ t.shWaits a = true ∧ (s.owned a &&& 0x5FFF = 0 → t.layered a &&& 0x5FFF = v &&& 0x5FFF) ∧
       t.rd (R.RTR_ROUTEd_src d.toNat) = s.rd (R.RTR_ROUTEd_src d.toNat) ∧ SameMemory s t ∧ ∀ b, b ≠ a → t.reg b = s.reg b) ∧
     (∀ e, s.dstDesc d.toNat = some e → s.is (bitAt R.RTR_CTRL 0) = true → exec (.routeTakesEffect d) s = .next s) ∧
     (∀ e, s.dstDesc d.toNat = some e → s.shWaits a = true → s.atBoundary e.domain = true → s.is (bitAt R.RTR_CTRL 0) = false →
       s.owned a &&& 0x5FFF = 0 → Completes (.routeTakesEffect d) s fun t =>
         let src := s.connected d.toNat (getBits (s.layered a) 0 13)
         (src ≠ (s.baseRoute d.toNat).source → s.routeChanges d.toNat = [] → t.routeAt d.toNat (s.tick e.domain)
           = (⟨s.tick e.domain, src, s.isDelayed d.toNat src, (s.layered a).getLsbD 14⟩,
              if (s.layered a).getLsbD 14 then some (s.baseRoute d.toNat) else none)) ∧
         t.rd (R.RTR_ROUTEd_src d.toNat) = getBits (s.layered a) 0 13 ∧ t.is (R.RTR_ROUTEd_pend d.toNat) = false ∧
         t.is R.RTR_INT_STATUS_route_done = true ∧ t.shWaits a = false ∧
         t.is (R.RTR_ROUTEd_delayed d.toNat) = s.isDelayed d.toNat src ∧ SameMemory s t ∧
         ∀ b, b ∉ [a, R.RTR_INT_STATUS] → t.reg b = s.reg b) ∧
     (Completes .routerHoldRelease s fun t => t.is (bitAt R.RTR_CTRL 0) = false ∧ t.reply = ⟨[], .okay⟩ ∧ SameMemory s t ∧
       ∀ b, b ≠ R.RTR_CTRL → t.reg b = s.reg b)) ∧
  (∀ (s : State) (l : Nat) (h : HopSpec) (q : Lock) (d : Nat), s.halted = false → s.hop l = some h → h.lock = l → h.dests = [d] →
     s.lock l = some q → s.hopNext l < s.tick q.spec.domain → 0 < q.credit → s.routeChanges d = [] → s.router.dead = [] →
     let b := (s.dom q.spec.domain).b
     let k := s.hopNext l
     (s.rd (R.RTR_ROUTEd_src d) = 0x1FFF → s.srcLock 0x1FFF = none → s.locksWhere (fun e => e.spec.consumer = .router) = [] →
       Completes (.routerHop l []) s fun t =>
         t.lock l = some { q with credit := q.credit - 1, flight := q.flight ++ [⟨k, List.replicate b 0⟩] } ∧ t.hopNext l = k + 1 ∧
         t.regs = s.regs ∧ (∀ m, m ≠ l → t.lock m = s.lock m) ∧ SameMemory s t) ∧
     (∀ sl i n bg, s.connected d (s.rd (R.RTR_ROUTEd_src d)) = s.rd (R.RTR_ROUTEd_src d) →
       s.srcLock (s.rd (R.RTR_ROUTEd_src d)) = some (sl, i, n) → sl ≠ l →
       let r := if s.is (R.RTR_ROUTEd_delayed d) then k - 1 else k
       s.srcBarge sl r = some bg → s.tookAbsent l sl r = false → (r = 0 ∨ s.wasAbsent sl (r - 1) = false) →
       q.spec.consumer ≠ .router → Completes (.routerHop l []) s fun t =>
         t.lock l = some { q with credit := q.credit - 1, flight := q.flight ++ [⟨k, (List.range b).map fun j => bg.word j n i⟩] } ∧
         t.hopNext l = k + 1 ∧ t.regs = s.regs ∧ SameMemory s t) ∧
     (∀ sl i n, s.connected d (s.rd (R.RTR_ROUTEd_src d)) = s.rd (R.RTR_ROUTEd_src d) →
       s.srcLock (s.rd (R.RTR_ROUTEd_src d)) = some (sl, i, n) → s.is (R.RTR_ROUTEd_delayed d) = false →
       s.srcBarge sl k = none → s.tookAbsent l sl k = false →
       exec (.routerHop l []) s = .next s ∧
       exec (.routerDeadline l) s = .next ((((s.setRouter { s.router with absent := s.router.absent ++ [(l, sl, k)] }).wr
         R.RTR_INT_STATUS_ovr_in 1).bump (lowHalf R.RTR_OVR_COUNT)).report 21 2 2)))

/-- FMP_CTRL_CHANGE and FMP_GAIN_WRITE keep a refused write out, hold an accepted one until the frame boundary of the feed's output, and there
start the crossfade to the new mode's content and the ramp of FMPn_RAMP samples to the new gain; replace gives the limited feed sum, add the
limited sum with the router's sample, off and the reserved mode the router's sample alone (06 R194, R195, R197, R198).
Readings: log entries 51, 91, 112. Completes: fmpCtrlChange, fmpGainWrite. -/
def Obligations.MonitorFeeds : Prop :=
  ∀ (s : State) (n : Fin 64) (k : Fin 4) (v : Word),
    (s.fmpCtrlOk n v = false → exec (.fmpCtrlChange n (some v)) s = .next ((s.wr R.RTR_INT_STATUS_fmp_refused 1).answer [])) ∧
    (s.fmpCtrlOk n v = true → Completes (.fmpCtrlChange n (some v)) s fun t =>
      t.regs = s.regs ∧ t.feeds = s.feeds ∧ t.shWaits (R.FMPn_CTRL n) = true ∧ SameMemory s t) ∧
    (getBits v 0 2 = 1 → s.dstDesc (fmpDest (getBits v 2 1 == 1) (getBits v 4 9)) = none → s.fmpCtrlOk n v = false) ∧
    (s.shWaits (R.FMPn_CTRL n) = true → (s.feed n).mode = 0 → fmpActive (getBits (s.layered (R.FMPn_CTRL n)) 0 2) = true →
      (s.feed n).amp = (getBits (s.layered (R.FMPn_CTRL n)) 2 1 == 1) → (s.feed n).out = getBits (s.layered (R.FMPn_CTRL n)) 4 9 →
      Completes (.fmpCtrlChange n none) s fun t =>
        (t.feed n).mode = getBits (s.layered (R.FMPn_CTRL n)) 0 2 ∧ (t.feed n).fadeFrom = some (0, 0) ∧ (t.feed n).terms = (s.feed n).terms ∧
        t.is ⟨R.FMPn_STATUS n, 1, 1⟩ = true ∧ SameMemory s t) ∧
    (getBits v 31 1 = 1 → s.srcDesc (getBits v 0 9) = none →
      exec (.fmpGainWrite n k true (some v)) s = .next ((s.wr R.RTR_INT_STATUS_fmp_refused 1).answer [])) ∧
    (Completes (.fmpGainWrite n k false (some v)) s fun t =>
      t.regs = s.regs ∧ t.feeds = s.feeds ∧ t.shWaits (fmpGain n k) = true ∧
      (s.owned (fmpGain n k) = 0 → t.layered (fmpGain n k) &&& 0xFFFFFF = v &&& 0xFFFFFF) ∧ SameMemory s t) ∧
    (s.shWaits (fmpGain n k) = true → s.is ⟨fmpSrc n k, 31, 1⟩ = true → ((s.feed n).term k).on = true →
      ((s.feed n).term k).source = s.rd ⟨fmpSrc n k, 0, 9⟩ → ((s.feed n).term k).t = 0 → Completes (.fmpGainWrite n k false none) s fun t =>
        let e := (t.feed n).term k
        e.g0 = ((s.feed n).term k).g0 ∧ e.g1 = toSigned 24 (getBits (s.layered (fmpGain n k)) 0 24) ∧ e.t = 0 ∧
        e.len = s.rd ⟨R.FMPn_RAMP n, 0, 16⟩ ∧ e.on = true ∧ (∀ j, j ≠ k.val → (t.feed n).term j = (s.feed n).term j) ∧ SameMemory s t) ∧
    (∀ (sum : Int) (x : Sample), fmpContent 1 sum x = limit24 sum ∧ fmpContent 2 sum x = limit24 (sum + x.toInt) ∧ fmpContent 0 sum x = (x, false) ∧
      fmpContent 3 sum x = (x, false))


/-! ## Rate bridges and filter chain (07) -/

/-- BRIDGE_INPUT_TAKE takes the awaited barge or, at the deadline, zeros, an overrun; BRIDGE_OUTPUT_COMMIT commits one barge of every output tick,
zeros while the pair acquires (what a locked pair's filter gives is a free value); BRIDGE_LOCK, BRIDGE_UNLOCK, BRIDGE_RESYNC, BRIDGE_SYNC_REQUEST
and BRIDGE_SYNC_LOST move the pair between its states, each with its event; a request not free to be followed is refused (07 R202, R206 to R209).
Readings: log entries 26, 105. Completes: bridgeInputTake, bridgeOutputCommit, bridgeLock, bridgeUnlock, bridgeResync, bridgeSyncRequest,
bridgeSyncLost. -/
def Obligations.RateBridges : Prop :=
  ∀ (s : State) (group : Nat) (g : BridgeSpec) (p : Fin 6) (dev : BitVec 32) (phase : BitVec 16) (instant : BitVec 64),
    (∀ b k, s.halted = false → s.flc.groups[group]? = some g → s.lock g.input = some k → (s.brun group).nextIn < s.tick (pairIn g.pair) →
      let keep := historyLength / max 1 (s.dom (pairIn g.pair)).b + 1
      (s.awaits g.input (s.brun group).nextIn = some b → exec (.bridgeInputTake group []) s
        = .next ((s.consume g.input (s.brun group).nextIn).setBrun group { s.brun group with
          nextIn := (s.brun group).nextIn + 1, history := (b.words :: (s.brun group).history).take keep })) ∧
      (s.awaits g.input (s.brun group).nextIn = none → exec (.bridgeInputTake group []) s
        = .next (((((s.setLock g.input { k with missed := k.missed ++ [(s.brun group).nextIn] }).wr R.BRG_INT_STATUS_ovr_in 1).bump
          (lowHalf R.BRG_OVR_COUNT)).report 23 24 2).setBrun group { s.brun group with
            nextIn := (s.brun group).nextIn + 1, history := (List.replicate (s.bargeWords k) 0 :: (s.brun group).history).take keep }))) ∧
    (∀ k, s.halted = false → s.flc.groups[group]? = some g → s.lock g.output = some k → 0 < k.credit →
      (s.brun group).nextOut < s.tick (pairOut g.pair) → Completes (.bridgeOutputCommit group dev phase instant) s fun t =>
        (t.brun group).nextOut = (s.brun group).nextOut + 1 ∧ (∀ l, l ≠ g.output → t.lock l = s.lock l) ∧ SameMemory s t ∧
        (∃ q, t.lock g.output = some q ∧ q.credit = k.credit - 1 ∧ q.flight.dropLast = k.flight ∧ q.flight.getLast?.map (fun e =>
          (e.tick, e.words.length)) = some ((s.brun group).nextOut, (s.dom (pairOut g.pair)).b * k.spec.channels.length)) ∧
        (s.rd (pairState g.pair) = 1 → t.lock g.output = some { k with credit := k.credit - 1, flight := k.flight ++
          [⟨(s.brun group).nextOut, List.replicate ((s.dom (pairOut g.pair)).b * k.spec.channels.length) 0⟩] } ∧
          ((s.bpair g.pair).seen ≠ some (s.brun group).nextOut →
            t.reg (R.BRG_PAIRp_DEV g.pair) = dev ∧ t.reg (R.BRG_PAIRp_PHASE g.pair) = phase.setWidth 32))) ∧
    (s.rd (pairState p) = 1 → s.atBoundary (pairOut p) = true → phase.toInt.natAbs ≤ 8 → 16 ≤ (s.bpair p).good →
      Completes (.bridgeLock p dev phase) s fun t =>
        t.rd (pairState p) = 2 ∧ (t.bpair p).outAt = none ∧ (t.bpair p).inAt = some (s.tick (pairOut p)) ∧ t.is (pairEvent p 0) = true ∧
        t.locks = s.locks ∧ SameMemory s t) ∧
    (s.rd (pairState p) = 1 → (s.bpair p).good < 16 → exec (.bridgeLock p dev phase) s = .next s) ∧
    (let unlocked (s : State) := (((((s.hw (R.BRG_PAIRp_CTRL_sync p) 0).wr (pairState p) 4).setBpair p
        { s.bpair p with outAt := some (s.tick (pairOut p) + 1), good := 0, base := none }).wr (pairEvent p 1) 1)).report 23 (4 * p + 1) 1;
      (s.rd (pairState p) = 2 ∨ s.rd (pairState p) = 3) →
        exec (.bridgeUnlock p dev phase) s = .next (unlocked (s.trackPair p dev phase)) ∧ exec (.bridgeResync p) s = .next (unlocked s)) ∧
    (s.rd (pairState p) < 2 → exec (.bridgeResync p) s = .next s) ∧
    (s.rd (pairState p) = 2 → s.atBoundary (pairOut p) = true → phase.toInt.natAbs ≤ 8 → s.commonSource (pairIn p) (pairOut p) = true →
      Completes (.bridgeSyncRequest p phase) s fun t => t.rd (pairState p) = 3 ∧ t.is (R.BRG_PAIRp_CTRL_sync p) = true ∧
        t.reg (R.BRG_PAIRp_DEV p) = 0 ∧ t.reg (R.BRG_PAIRp_PHASE p) = 0 ∧ t.locks = s.locks ∧ SameMemory s t) ∧
    (s.rd (pairState p) ≠ 3 → s.atBoundary (pairOut p) = true → (8 < phase.toInt.natAbs ∨ s.rd (pairState p) ≠ 2 ∨
        s.commonSource (pairIn p) (pairOut p) = false) → Completes (.bridgeSyncRequest p phase) s fun t =>
      t.rd (pairState p) = s.rd (pairState p) ∧ t.is (R.BRG_PAIRp_CTRL_sync p) = false ∧ t.is (pairEvent p 3) = true ∧ SameMemory s t) ∧
    (s.rd (pairState p) = 3 → s.atBoundary (pairOut p) = true → s.commonSource (pairIn p) (pairOut p) = false → Completes (.bridgeSyncLost p) s fun t => t.rd (pairState p) = 2 ∧ t.is (R.BRG_PAIRp_CTRL_sync p) = false ∧
      t.is (pairEvent p 2) = true ∧ t.locks = s.locks ∧ SameMemory s t)

/-- CIC_OUTPUT gives one output for R inputs, through integrator and comb modulo 2^64, rounded convergently and saturated (said of a unit of
order 1 on a bitstream); FIR_SWAP turns the banks with its crossfade of at most 64 outputs and FIR_SWAP_CROSSFADE_END ends it; an uncorrectable
word is a zero coefficient, clears its unit or restarts its channel; MOVING_AVERAGE_HOP forms a result over the newest blocks of a channel by its
mode; a written FLC_MA_CFG clears the channel's blocks (07 R201, R212, R215, R217 to R220).
Readings: log entries 9, 104. Completes: cicOutput, firSwapRequest, firSwap, firSwapCrossfadeEnd, flcEccUncorrectable, movingAverageHop,
maCfgTakesEffect. -/
def Obligations.FilterChain : Prop :=
  (∀ (s : State) (n : Fin 80) (bits : List Bool),
     (s.halted = false → s.is (R.CICn_CFG_pdm n) = true → bits.length = s.rd (R.CICn_CFG_ratio n) + 1 → s.rd (R.CICn_CFG_order n) = 1 →
       s.rd (R.CICn_CFG_domain n) ≠ 3 → s.is (R.CICn_CFG_fir_en n) = false → s.rd (R.CICn_CFG_kind n) = 0 → (s.cic n).recover = none →
       let r := s.rd (R.CICn_CFG_ratio n) + 1
       let i := (bits.map pdmInput).foldl (· + ·) (word64 (s.cic n).integ 0)
       let v := i - word64 (s.cic n).comb 0
       let y := roundConv v.toInt (2 ^ ceilLog2 r)
       Completes (.cicOutput n bits false) s fun t =>
         (t.cic n).integ = [i] ∧ (t.cic n).comb = [i] ∧
         (t.cic n).last = (if y < -(2 ^ 23) then 0x800000 else if 2 ^ 23 - 1 < y then 0x7FFFFF else BitVec.ofInt 24 y) ∧
         (-(2 ^ 23) ≤ y → y < 2 ^ 23 → t.regs = s.regs) ∧
         ((y < -(2 ^ 23) ∨ 2 ^ 23 ≤ y) → t.is R.FLC_INT_STATUS_sat = true) ∧ (∀ m, m ≠ n.val → t.cic m = s.cic m) ∧
         t.locks = s.locks ∧ SameMemory s t) ∧
     (∀ v : Int, roundConv (2 * v) 2 = v ∧ roundConv (4 * v + 1) 2 = 2 * v ∧ roundConv (4 * v + 3) 2 = 2 * v + 2) ∧
     exec (.firSwapRequest n) s = .next (s.wr (R.CICn_STATUS_pending n) 1) ∧
     (s.is (R.CICn_STATUS_pending n) = true → s.is (R.CICn_STATUS_xfading n) = false → Completes (.firSwap n) s fun t =>
       let len := min 64 (s.rd (R.CICn_CTRL_xf_len n))
       t.rd (R.CICn_STATUS_bank n) = 1 - s.rd (R.CICn_STATUS_bank n) ∧ t.is (R.CICn_STATUS_pending n) = false ∧
       t.is (R.CICn_STATUS_xfading n) = decide (0 < len) ∧ (t.cic n).fade = (if 0 < len then some (0, len) else none) ∧
       t.is R.FLC_INT_STATUS_swap_done = true ∧ (∀ a, a ∉ [R.CICn_STATUS n, R.FLC_INT_STATUS] → t.reg a = s.reg a) ∧ SameMemory s t) ∧
     ((s.is (R.CICn_STATUS_pending n) = false ∨ s.is (R.CICn_STATUS_xfading n) = true) → exec (.firSwap n) s = .next s) ∧
     (∀ j len, (s.cic n).fade = some (j, len) → len ≤ j → exec (.firSwapCrossfadeEnd n) s
       = .next ((s.setCic n { s.cic n with fade := none }).wr (R.CICn_STATUS_xfading n) 0)) ∧
     (∀ k : Fin 64, exec (.flcEccUncorrectable (.coefficient n k)) s
       = .next (let t := ((s.bump (highHalf R.FLC_ECC_COUNT)).wr R.FLC_INT_STATUS_ecc_uncorr 1).report 22 7 2
         t.setCic n { t.cic n with dead := (64 * t.rd (R.CICn_STATUS_bank n) + k.val) :: (t.cic n).dead })) ∧
     (exec (.flcEccUncorrectable (.state n)) s
       = .next (let t := ((s.bump (highHalf R.FLC_ECC_COUNT)).wr R.FLC_INT_STATUS_ecc_uncorr 1).report 22 7 2
         t.setCic n { t.cic n with integ := [], comb := [], line := [], odd := false, recover := some (0, (t.cic n).last) }))) ∧
  (∀ (s : State) (ch : Fin 1024),
     let m := s.ma ch
     let q := s.maHop ch
     let p := s.maBlocks ch
     let k := q - m.at_ % q
     let blocks (mode : Nat) := (maBlock mode (m.queue.take k) :: m.blocks).take p
     (s.halted = false → k ≤ m.queue.length → s.flc.channels.contains ch.val = true → Completes (.movingAverageHop ch false) s fun t =>
       (t.ma ch).queue = m.queue.drop k ∧ (t.ma ch).at_ = m.at_ + k ∧ (t.ma ch).blocks = blocks (s.maMode ch) ∧ (t.ma ch).hops = m.hops + 1 ∧
       (s.maMode ch < 2 → (t.ma ch).result.setWidth 48 = (flcSat (roundConv (blocks (s.maMode ch)).sum (p * q))).1.signExtend 48) ∧
       (s.maMode ch = 2 → (t.ma ch).result.setWidth 48 = BitVec.ofInt 48 (roundConv (blocks 2).sum (p * q))) ∧
       (s.maMode ch = 3 → (t.ma ch).result.setWidth 48 = BitVec.ofInt 48 (min ((blocks 3).foldl max 0) 0x7FFFFF)) ∧
       (t.ma ch).result.getLsbD 63 = true ∧ (t.ma ch).result.getLsbD 62 = decide (m.hops + 1 < p) ∧
       ((t.ma ch).result >>> 48).toNat % 256 = (m.hops + 1) % 256 ∧ (∀ c, c ≠ ch.val → t.ma c = s.ma c) ∧
       (∀ a, a ∉ [R.FLC_SAT_COUNT, R.FLC_INT_STATUS] → t.reg a = s.reg a) ∧ t.locks = s.locks ∧ SameMemory s t) ∧
     (m.queue.length < k → exec (.movingAverageHop ch false) s = .next s) ∧
     (s.shWaits (maCfg ch) = true → Completes (.maCfgTakesEffect ch) s fun t =>
       t.reg (maCfg ch) &&& 0x3FFFF = s.layered (maCfg ch) &&& 0x3FFFF ∧ t.ma ch = { words := m.words, at_ := m.at_ + m.queue.length } ∧
       t.shWaits (maCfg ch) = false ∧
       (∀ a, a ≠ maCfg ch → t.reg a = s.reg a) ∧ SameMemory s t) ∧
     (s.shWaits (maCfg ch) = false → exec (.maCfgTakesEffect ch) s = .next s) ∧
     (exec (.flcEccUncorrectable (.block ch)) s
       = .next ((((s.bump (highHalf R.FLC_ECC_COUNT)).wr R.FLC_INT_STATUS_ecc_uncorr 1).report 22 7 2).setMa ch
         { words := m.words, at_ := m.at_ + m.queue.length })))


/-! ## Serial audio ports (08) -/

/-- A mask takes effect at a frame boundary, its slots beginning to fade in or out, or released at once; FORMAT_APPLY refuses a format that breaks
R227 and starts the change otherwise, which fades out, takes the format at a boundary 32 samples later and is done when the fade-in has ended; an
FS edge of a slave measures its frame; the group locks after its run of good frames, latched to the sample edge that comes, and unlocks when an
offset passes the window or its FS or BCLK stops; RATE_GATE_END classifies the measured rate (08 R227, R231, R235 to R243).
Readings: log entry 114. Completes: inmaskChange, outmaskChange, formatApply, formatChangeFadeOut, formatChangeTake, formatChangeDone,
slaveFrameStart, slaveLock, fsLost, bclkStopped, rateGateEnd. -/
def Obligations.AudioPorts : Prop :=
  ∀ (s : State) (g : Fin 4) (p : Fin 16),
    let r := s.grp g
    let x := s.tdmDomain g
    (s.shWaits (R.TDMp_INMASK p) = true → Completes (.inmaskChange p) s fun t =>
      t.reg (R.TDMp_INMASK p) = s.layered (R.TDMp_INMASK p) ∧ t.shWaits (R.TDMp_INMASK p) = false ∧
      (∀ c < 32, t.inFade (32 * p + c) = (if s.slotExists (32 * p + c) = false ∨
          (s.layered (R.TDMp_INMASK p)).getLsbD c = (s.reg (R.TDMp_INMASK p)).getLsbD c then s.inFade (32 * p + c)
        else s.inFade (32 * p + c) ++ [if (s.layered (R.TDMp_INMASK p)).getLsbD c then .into 0 else .out 0])) ∧
      (∀ a, a ≠ R.TDMp_INMASK p → t.reg a = s.reg a) ∧ t.locks = s.locks ∧ SameMemory s t) ∧
    (s.shWaits (R.TDMp_OUTMASK p) = true → Completes (.outmaskChange p) s fun t =>
      t.reg (R.TDMp_OUTMASK p) = s.layered (R.TDMp_OUTMASK p) ∧ t.shWaits (R.TDMp_OUTMASK p) = false ∧
      (∀ c < 32, t.outFade (32 * p + c) = (if s.slotExists (32 * p + c) = false ∨
          (s.layered (R.TDMp_OUTMASK p)).getLsbD c = (s.reg (R.TDMp_OUTMASK p)).getLsbD c then s.outFade (32 * p + c)
        else if (s.layered (R.TDMp_OUTMASK p)).getLsbD c then s.outFade (32 * p + c) ++ [.into 0]
        else if s.is (R.TDMp_CTRL_out_hiz p) then [] else s.outFade (32 * p + c) ++ [.out 0])) ∧
      (∀ a, a ≠ R.TDMp_OUTMASK p → t.reg a = s.reg a) ∧ t.locks = s.locks ∧ SameMemory s t) ∧
    (s.tdmAssigned g = true → formatOk (s.reg (R.TDM_GRPg_FMT g)) (s.fs x) = false → exec (.formatApply g) s
      = .next (s.wr (bitAt (R.TDM_GRPg_INT_STATUS g) 9) 1)) ∧
    (∀ f : Word, (fmtFrameBits f < fmtSlots f * fmtSlotWidth f ∨ 49152000 < fmtFrameBits f * s.fs x) → formatOk f (s.fs x) = false) ∧
    (s.tdmAssigned g = true → formatOk (s.reg (R.TDM_GRPg_FMT g)) (s.fs x) = true → r.step = 0 → exec (.formatApply g) s
      = .next ((s.setGrp g { r with next := some (s.reg (R.TDM_GRPg_FMT g)), step := 1, applied := s.now }).wr (R.TDM_GRPg_FMT_CTRL_pending g) 1)) ∧
    (r.step = 1 → s.atBoundary x = true → Completes (.formatChangeFadeOut g) s fun t =>
      t.grp g = { r with step := 2, k0 := (s.dom x).sample.toNat, fadeIn := r.fadeIn ++ [.out 0], fadeOut := r.fadeOut ++ [.out 0] } ∧
      t.regs = s.regs ∧ t.locks = s.locks ∧ SameMemory s t) ∧
    (∀ f, r.next = some f → r.step = 2 → s.atBoundary x = true → r.k0 + 32 ≤ (s.dom x).sample.toNat → r.applied + 250 ≤ s.now →
      Completes (.formatChangeTake g) s fun t =>
        (t.grp g).fmt = f ∧ (t.grp g).step = 3 ∧ (t.grp g).next = none ∧
        (t.grp g).fadeIn = (if s.tdmMaster g then [.into 0] else []) ∧ (t.grp g).fadeOut = (if s.tdmMaster g then [.into 0] else []) ∧
        (s.tdmMaster g = false → (t.grp g).locked = false ∧ (t.grp g).good = 0) ∧ t.regs = s.regs ∧ t.locks = s.locks ∧ SameMemory s t) ∧
    (r.step = 3 → r.fadeIn = [] → r.fadeOut = [] → r.later = none → (s.tdmMaster g = true ∨ r.locked = true ∧ r.frameLocked = true) → exec (.formatChangeDone g) s
      = .next (((s.setGrp g { r with step := 0 }).wr (R.TDM_GRPg_FMT_CTRL_pending g) 0).wr (bitAt (R.TDM_GRPg_INT_STATUS g) 8) 1)) ∧
    (s.tdmSlave g = true → r.locked = false →
      (∀ (delta : BitVec 9), delta.toInt.natAbs ≤ 112 → Completes (.slaveFrameStart g delta (fmtFrameBits r.fmt) 256) s fun t =>
        (t.grp g).good = r.good + 1 ∧ (t.grp g).locked = false ∧ t.is (R.TDM_GRPg_STATUS_fs_present g) = true ∧
        t.reg (R.TDM_GRPg_OFFSET g) = delta.setWidth 32 ∧ t.locks = s.locks ∧ SameMemory s t) ∧
      (∀ (delta : BitVec 9) (bits period : Nat), bits ≠ fmtFrameBits r.fmt → Completes (.slaveFrameStart g delta bits period) s fun t =>
        (t.grp g).good = 0 ∧ (t.grp g).locked = false ∧ t.reg (R.TDM_GRPg_OFFSET g) = delta.setWidth 32) ∧
      (s.rd (R.TDM_GRPg_QUAL_qual_n g) < r.good → Completes (.slaveLock g) s fun t =>
        (t.grp g).locked = true ∧ (t.grp g).unlocked = false ∧ (t.grp g).fadeIn = r.fadeIn ++ [.into 0] ∧
        (t.grp g).number = some ((s.dom x).sample.toNat + 1, (s.dom x).sample.toNat + 1) ∧
        t.is (bitAt (R.TDM_GRPg_INT_STATUS g) 0) = true ∧ t.locks = s.locks ∧ SameMemory s t ∧
        ∀ a, a ∉ [R.TDM_GRPg_STATUS g, R.TDM_GRPg_INT_STATUS g] → t.reg a = s.reg a) ∧
      (r.good ≤ s.rd (R.TDM_GRPg_QUAL_qual_n g) → exec (.slaveLock g) s = .next s)) ∧
    (s.tdmSlave g = true → r.locked = true →
      let gone := { r with locked := false, unlocked := true, good := 0, bad := 0, slow := 0, drifted := false, number := none, held := some 0 }
      let i (k : Nat) := bitAt (R.TDM_GRPg_INT_STATUS g) k
      exec (.fsLost g) s = .next ((((((s.wr (R.TDM_GRPg_STATUS_fs_present g) 0).wr (i 3) 1).bump (highHalf (R.TDM_GRPg_ERR_COUNT g))).setGrp g
        gone).wr (i 1) 1).report (66 + g) 1 2) ∧
      (∀ bits, Completes (.bclkStopped g bits) s fun t => t.grp g = { gone with stopAt := some bits } ∧ t.is (i 1) = true ∧ t.is (i 2) = true ∧
        t.is (i 4) = true ∧ t.is (R.TDM_GRPg_STATUS_bclk_present g) = false ∧ t.locks = s.locks ∧ SameMemory s t) ∧
      (∀ (delta : BitVec 9) (bits period : Nat), 112 < delta.toInt.natAbs → Completes (.slaveFrameStart g delta bits period) s fun t =>
        (t.grp g).locked = false ∧ (t.grp g).unlocked = true ∧ t.is (i 1) = true ∧ t.locks = s.locks ∧ SameMemory s t)) ∧
    (∀ (rate : BitVec 24), s.tdmAssigned g = true → Completes (.rateGateEnd g rate) s fun t =>
      t.reg (R.TDM_GRPg_RATE g) &&& 0x80FFFFFF = 0x80000000 ||| rate.setWidth 32 ∧ t.locks = s.locks ∧ SameMemory s t ∧
      (∀ a, a ∉ [R.TDM_GRPg_RATE g, R.TDM_GRPg_STATUS g, R.TDM_GRPg_INT_STATUS g] → t.reg a = s.reg a) ∧
      (∀ c ∈ [1, 2, 3, 4, 5, 6], ((rate.toNat : Int) - (16 * rateOf c : Nat)).natAbs * 10 ^ 6 ≤ 2000 * 16 * rateOf c →
        t.rd (R.TDM_GRPg_RATE_class g) = c) ∧
      (t.rd (R.TDM_GRPg_RATE_class g) ≠ s.rd (R.TDM_GRPg_RATE_class g) → t.is (bitAt (R.TDM_GRPg_INT_STATUS g) 7) = true))


/-! ## Amplifier control (09) -/

/-- A group that is enabled asks the weir for leave; a channel in off whose conditions hold boots at a tick boundary, ramps up, runs, fades out
and ramps down to off; a tripped channel retries or goes off, its retry held while a driver fault holds boots back; a latched one leaves by clr
alone; a rail that has kept its inner window for 100 ms lets its channels out of rail_wait, and released safe states let theirs out of mute and
hard (09 R256 to R259, R264, R265). Completes: ampGroupEnable, ampChannelEnable, ampBootEnd, ampCmRampEnd, ampFadeOutEnd, ampOffReached, ampRetry,
ampRetryReset, ampClear, drvFltReleaseHoldEnd, railQualified, ampSafeRelease. -/
def Obligations.AmplifierStates : Prop :=
  ∀ (s : State) (a : Fin 4) (c : Fin 32),
    let n := s.ampMain c
    let k := s.rd (ampState n)
    let off := if s.is (R.AMP_GRPa_STATUS_rail_ok (c / 8)) then 0 else 8
    (∀ en, s.ampAssigned a = false → exec (.ampGroupEnable a en) s = .next s) ∧
    (s.ampAssigned a = true → s.is (R.AMP_GRPa_CTRL_en a) = false → s.is (R.AMP_GRPa_STATUS_leave a) = false → s.owned (R.AMP_GRPa_CTRL a) = 0 →
      Completes (.ampGroupEnable a true) s fun t =>
        t.is (R.AMP_GRPa_CTRL_en a) = true ∧ (t.requester (4 + a)).pending = true ∧ (t.requester (4 + a)).cost = s.weirCost (4 + a) ∧
        t.amps = s.amps ∧ SameMemory s t ∧ ∀ r, r ∉ [R.AMP_GRPa_CTRL a, R.WEIR_INT_STATUS] → t.reg r = s.reg r) ∧
    (s.ampAssigned (c / 8) = true → s.atBoundary (s.rd (R.AMP_GRPa_CFG_domain (c / 8))) = true →
      let may := (s.shTake (R.AMPc_CTRL n)).ampMay n
      (k = 0 → may = true → (s.ampGroup (c / 8)).hold = false → Completes (.ampChannelEnable c) s fun t =>
        t.rd (ampState n) = 1 ∧ t.is (R.AMP_GRPa_STATUS_drv_en (c / 8)) = true ∧ t.locks = s.locks ∧ SameMemory s t) ∧
      (k = 3 → may = false → (s.amp n).fade = .none → Completes (.ampChannelEnable c) s fun t =>
        (t.amp n).fade = .out 0 ∧ t.rd (ampState n) = 3 ∧ SameMemory s t)) ∧
    (k = 1 → Completes (.ampBootEnd c) s fun t => t.rd (ampState n) = 2 ∧ (t.amp n).rampPos = 0 ∧
      (t.amp n).rampLen = s.rd (R.AMP_GRPa_CM_cm_len (c / 8)) ∧ SameMemory s t) ∧
    (k ≠ 1 → exec (.ampBootEnd c) s = .next s) ∧
    (k = 2 → s.rampFull n ≤ (s.amp n).rampPos → s.is (R.AMP_GRPa_STATUS_mute (c / 8)) = false → Completes (.ampCmRampEnd c) s fun t =>
      t.rd (ampState n) = 3 ∧ (t.amp n).fade = .into 0 ∧ t.is (bitAt (R.AMPc_INT_STATUS n) 0) = true ∧ SameMemory s t) ∧
    (k = 2 → s.rampFull n ≤ (s.amp n).rampPos → s.is (R.AMP_GRPa_STATUS_mute (c / 8)) = true → Completes (.ampCmRampEnd c) s fun t => t.rd (ampState n) = 4 ∧ SameMemory s t) ∧
    (k = 2 → (s.amp n).rampPos < s.rampFull n → exec (.ampCmRampEnd c) s = .next s) ∧
    (k = 5 → (s.amp n).rampPos = 0 → exec (.ampCmRampEnd c) s = .next (s.setAmp n { s.amp n with low := true })) ∧
    ((k = 3 ∨ k = 4) → (s.amp n).fade = .zero → Completes (.ampFadeOutEnd c) s fun t => t.rd (ampState n) = 5 ∧
      (t.amp n).rampLen = s.rd (R.AMP_GRPa_CM_cm_len (c / 8)) ∧ (t.amp n).rampPos = t.rampFull n ∧ SameMemory s t) ∧
    (k = 5 → (s.amp n).low = true → Completes (.ampOffReached c) s fun t => t.rd (ampState n) = off ∧
      t.is (bitAt (R.AMPc_INT_STATUS n) 1) = true ∧ SameMemory s t) ∧
    (k = 6 → (s.ampGroup (c / 8)).hold = false → s.ampMay n = true → Completes (.ampRetry c) s fun t =>
      t.rd (ampState n) = 1 ∧ t.rd (R.AMPc_STATUS_retries n) = (s.rd (R.AMPc_STATUS_retries n) + 1) % 2 ^ (R.AMPc_STATUS_retries n).width ∧
      SameMemory s t) ∧
    (k = 6 → (s.ampGroup (c / 8)).hold = false → s.ampMay n = false → Completes (.ampRetry c) s fun t =>
      t.rd (ampState n) = off ∧ SameMemory s t) ∧
    (k ≠ 6 → exec (.ampRetry c) s = .next s) ∧
    (k = 6 → (s.ampGroup (c / 8)).hold = true → exec (.ampRetry c) s = .next (s.setAmp n { s.amp n with retryDue := true })) ∧
    (k = 3 → exec (.ampRetryReset c) s = .next (s.wr (R.AMPc_STATUS_retries n) 0)) ∧
    (k = 7 → Completes (.ampClear c) s fun t => t.rd (ampState n) = off ∧ t.rd (R.AMPc_STATUS_retries n) = 0 ∧ SameMemory s t) ∧
    (k ≠ 7 → exec (.ampClear c) s = .next s) ∧
    ((s.ampGroup a).hold = true → (∀ i < 8, (s.amp (8 * a + i)).retryDue = false) → exec (.drvFltReleaseHoldEnd a) s
      = .next (((s.setAmpGroup a { s.ampGroup a with hold := false }).wr (R.AMP_GRPa_STATUS_drv_flt a) 0).endCause (70 + a) 4)) ∧
    ((s.ampGroup a).hold = true → c.val / 8 = a.val → n = c.val → k = 6 → s.ampMay c = true →
      (∀ i < 8, (s.amp (8 * a + i)).retryDue = decide (8 * a.val + i = c.val)) → Completes (.drvFltReleaseHoldEnd a) s fun t =>
        t.rd (ampState c) = 1 ∧ (t.ampGroup a).hold = false ∧ SameMemory s t) ∧
    (s.ampAssigned a = true → s.is (R.AMP_GRPa_STATUS_rail_ok a) = false → s.ampLoopRate a ≤ (s.ampGroup a).inner * 10 → Completes (.railQualified a) s fun t =>
      t.is (R.AMP_GRPa_STATUS_rail_ok a) = true ∧ t.is (bitAt (R.AMP_GRPa_INT_STATUS a) 3) = true ∧
      (∀ i < 8, s.rd (ampState (8 * a + i)) = 8 → t.rd (ampState (8 * a + i)) = 0) ∧ SameMemory s t) ∧
    (s.muteAmp a = false → s.hardAmp = false → Completes (.ampSafeRelease a) s fun t =>
      t.is (R.AMP_GRPa_STATUS_mute a) = false ∧ t.is (R.AMP_GRPa_STATUS_hard a) = false ∧ SameMemory s t ∧
      (c.val / 8 = a.val → s.is (R.AMP_GRPa_STATUS_mute a) = true → (∀ e ∈ s.ampPair c, s.rd (ampState e) = 4) → t.rd (ampState c) = 3) ∧
      (c.val / 8 = a.val → s.is (R.AMP_GRPa_STATUS_hard a) = true → (∀ e ∈ s.ampPair c, s.rd (ampState e) = 9) → t.rd (ampState c) = off))

/-- An estimate at the cycle limit turns the conducting switch off and is counted; a short circuit, or a limit acting in cbc_max carrier periods,
trips the channel, or latches it when its retries are used, and with sc_grp the group; a driver fault trips every driven channel, lost sense
latches, and a rail below its window for 16 loop periods unqualifies. A loop period of channel 0 measures the rail; one of a channel in run or mute
follows R254's equations, keeps the duty within the least pulse and moves the voltage offset by no more than its step; a window of 2^21 periods
forms the estimate of that offset (09 R252 to R254, R259, R261 to R264, R266).
Readings: log entries 80, 115. Completes: cycleByCycleLimit, shortCircuitTrip, driverFault, senseLost, ampLoopPeriod, calibrationWindow. -/
def Obligations.AmplifierProtection : Prop :=
  ∀ (s : State) (a : Fin 4) (c : Fin 32),
    let n := s.ampMain c
    let k := s.rd (ampState n)
    let tripped (t : State) (e : Nat) : Prop :=
      t.rd (ampState e) = (if s.rd (R.AMPc_STATUS_retries e) = s.rd (R.AMP_GRPa_RETRY_retry_max (e / 8)) then 7 else 6) ∧
      t.is (bitAt (R.AMPc_INT_STATUS e) 3) = true ∧ t.rd ⟨R.AMPc_TRIPS e, 0, 8⟩ = min (s.rd ⟨R.AMPc_TRIPS e, 0, 8⟩ + 1) 255
    (fastCurrent (List.replicate 31 true) = 256 ∧ fastCurrent (List.replicate 31 false) = -256) ∧
    (∀ bits, (s.ampLive c = false ∨ (fastCurrent bits).natAbs < s.rd (R.AMPc_ILIM_i_lim n)) → exec (.cycleByCycleLimit c bits) s = .next s) ∧
    (∀ bits, s.ampLive c = true → s.rd (R.AMPc_ILIM_i_lim n) ≤ (fastCurrent bits).natAbs → exec (.cycleByCycleLimit c bits) s
      = .next (((s.setAmp c { s.amp c with forced := some (decide (fastCurrent bits < 0)), limited := true }).bump ⟨R.AMPc_TRIPS n, 16, 16⟩).wr
        (bitAt (R.AMPc_INT_STATUS n) 2) 1)) ∧
    (∀ bits, s.ampLive c = true → (s.rd (R.AMPc_ILIM_i_sc n) ≤ (fastCurrent bits).natAbs ∨
        (s.amp c).limited = true ∧ max 1 (s.rd (R.AMPc_ILIM_cbc_max n)) ≤ (s.amp c).run + 1) →
      ∃ u, exec (.shortCircuitTrip c bits) s = .next (if s.unackedTrip c then u else u.report (96 + n) 3 2) ∧ tripped u n ∧
        SameMemory s u ∧ u.locks = s.locks ∧ (s.is (R.AMP_GRPa_CTRL_sc_grp (c / 8)) = true → u.is (R.AMP_GRPa_STATUS_drv_en (c / 8)) = false ∧
          ∀ i < 8, s.ampMain (8 * (c / 8) + i) = 8 * (c / 8) + i → s.ampLive (8 * (c / 8) + i) = true → tripped u (8 * (c / 8) + i))) ∧
    (s.ampAssigned a = true → ∃ u, exec (.driverFault a) s = .next (u.report (70 + a) 4 2) ∧ u.is (R.AMP_GRPa_STATUS_drv_flt a) = true ∧ (u.ampGroup a).hold = true ∧
      u.is (R.AMP_GRPa_STATUS_drv_en a) = false ∧ u.is (bitAt (R.AMP_GRPa_INT_STATUS a) 4) = true ∧ SameMemory s u ∧
      ∀ i < 8, s.ampMain (8 * a + i) = 8 * a + i → s.ampLive (8 * a + i) = true → tripped u (8 * a + i)) ∧
    (s.ampAssigned (c / 8) = true → ∃ u, exec (.senseLost c) s = .next (u.report (96 + n) 5 2) ∧ u.rd (ampState n) = 7 ∧
      u.is (bitAt (R.AMPc_INT_STATUS n) 5) = true ∧ SameMemory s u) ∧
    (∀ rail flt, (s.ampAssigned (c / 8) = false ∨ s.halted = true) → exec (.ampLoopPeriod c rail flt) s = .next s) ∧
    (∀ rail flt, s.ampAssigned (c / 8) = true → s.halted = false →
      let x := (decimate 3 8 (rail.map pdmInput) (s.ampGroup (c / 8)).cic).2.1
      let vbus : Rat := max 0 ((x.toInt : Rat) * (s.rd (highHalf (R.AMP_GRPa_RAIL (c / 8))) : Nat) / 2 ^ 23)
      (c.val % 8 = 0 → Completes (.ampLoopPeriod c rail flt) s fun t =>
        (t.ampGroup (c / 8)).vbus = vbus ∧ t.rd (lowHalf (R.AMP_GRPa_RAIL (c / 8))) = min 0xFFFF vbus.floor.toNat ∧ SameMemory s t ∧
        (vbus < (s.rd (lowHalf (R.AMP_GRPa_RAIL_WIN (c / 8))) : Nat) → (s.ampGroup (c / 8)).low = 15 →
          t.is (R.AMP_GRPa_STATUS_rail_ok (c / 8)) = false ∧ t.is (bitAt (R.AMP_GRPa_INT_STATUS (c / 8)) 1) = true)) ∧
      (c.val % 8 ≠ 0 → n = c.val → (k = 3 ∨ k = 4) → Completes (.ampLoopPeriod c rail flt) s fun t =>
        let ch := s.amp c
        let field (f : FieldAt) (d : Nat) : Rat := ((s.rd f : Nat) : Rat) / 2 ^ d
        let dmin : Rat := ((s.rd ⟨R.AMP_GRPa_PWM (c / 8), 0, 8⟩ : Nat) : Rat) * (s.ampCarrier (c / 8) : Nat) / 10 ^ 9
        let r0 := s.ampReference c s.freeCount
        let r := r0 * (s.ampLimiter c r0).2 * s.muteWeight c
        let v := ((if s.ampTied c then s.sense c false - s.sense (c + 1) false else s.sense c false) - ch.voff) * (1 + ch.vgain)
        let e := r - v
        let q := if ch.clamped then ch.q else max (-(1 / 4)) (min (1 / 4) (ch.q + field (highHalf (R.AMPc_KV c)) 16 * e))
        let u := r + field (lowHalf (R.AMPc_KV c)) 14 * e + q - field (lowHalf (R.AMPc_KD c)) 14 * (s.sense c true - ch.ioff)
        let g := (s.ampGroup (c / 8)).vbus
        let d := 1 / 2 + railDiv (u * field ⟨R.AMPc_VFS c, 0, 16⟩ 0) (if s.ampTied c then 2 * g else g)
        (t.amp c).q = q ∧ (t.amp c).duty = max dmin (min (1 - dmin) d) ∧
        (s.ampTied c = true → (t.amp (c + 1)).duty = 1 - (t.amp c).duty) ∧
        (t.amp c).voff - ch.voff ≤ 1 / 2 ^ 28 ∧ ch.voff - (t.amp c).voff ≤ 1 / 2 ^ 28 ∧
        (∀ e, e ≠ c.val → e ≠ c.val + 1 → t.amp e = s.amp e) ∧ t.rd (ampState c) = k ∧ t.locks = s.locks ∧ SameMemory s t ∧
        ∀ a, a ∉ [R.AMPc_VMEAS c, R.AMPc_IMEAS c, R.AMPc_LIMGAIN c, R.AMPc_STATUS c, R.AMPc_INT_STATUS c, R.AMPc_CAL_VOFF c, R.AMPc_CAL_VGAIN c,
          R.AMPc_CAL_IOFF c] → t.reg a = s.reg a)) ∧
    (∀ vgain, n = c.val → k = 3 → 2 ^ 21 ≤ (s.amp c).window → getBits (s.reg (R.AMPc_CAL_CTRL c)) 0 3 = 1 →
      let ch := s.amp c
      let est : Rat := ch.sumV / (ch.window : Nat) - ch.sumD / (ch.window : Nat)
      Completes (.calibrationWindow c vgain) s fun t =>
        t.amp c = { ch with window := 0, sumV := 0, sumD := 0, sumI := 0, toVoff := some (max (-(1 / 64)) (min (1 / 64) est)) } ∧
        ((est < -(1 / 64) ∨ 1 / 64 < est) → t.is (bitAt (R.AMPc_INT_STATUS c) 6) = true) ∧
        ((-(1 / 64) ≤ est ∧ est ≤ 1 / 64) → t.regs = s.regs) ∧ (∀ e, e ≠ c.val → t.amp e = s.amp e) ∧ SameMemory s t) ∧
    (∀ vgain, (n ≠ c.val ∨ s.rd (ampState c) ≠ 3 ∨ (s.amp c).window < 2 ^ 21) → exec (.calibrationWindow c vgain) s = .next s)

/-! ## References and clocks (10) -/

/-- Good periods clear the miss count, misses and stray edges raise it, and miss_max of them, two intervals outside the frequency window, a
slope beyond the limit, a lost vote and a lost source disqualify the candidate, each with its reason, its reset record and ref_lost where it was
selected; while the selected candidate misses, the DPLL coasts; an absent candidate's first edge starts qualification, and one that has qualified
is taken by a free domain (10 R271 to R276). The slope is that of the least-squares line through the stored frequency measurements.
Readings: log entries 62, 116. Completes: candidateWindowClose, candidateStrayEdge, candidateFirstEdge, candidateQualified, frequencyInterval,
driftFit, crossCheckOutvoted, timeCandidateSourceLoss. -/
def Obligations.CandidateQualification : Prop :=
  ∀ (s : State) (c : CandIx),
    let k := s.cand c
    let st := s.candState c
    let missed := s.bump (lowHalf (R.CLK_CANDc_COUNT c))
    let kept (t : State) : Prop := SameMemory s t ∧ t.locks = s.locks ∧ t.doms = s.doms ∧ ∀ d, d ≠ c.val → t.cand d = s.cand d
    let lost (t : State) (next reason : Nat) : Prop := t.candState c = next ∧ t.cand c = {} ∧ kept t ∧
      (st = 3 → t.rd (R.CLK_CANDc_STATUS_reason c) = reason ∧
        ∀ x : DomIx, s.ownDpll x = true → s.selected x = c.val → t.is (R.CLK_DOMx_INT_STATUS_ref_lost x) = true)
    (edgeCandidate c = true → 2 ≤ st →
      (k.stray = false → exec (.candidateWindowClose c true) s = .next (s.setCand c { k with misses := 0 })) ∧
      (k.stray = true → ∀ edge, exec (.candidateWindowClose c edge) s = .next (s.setCand c { k with stray := false })) ∧
      (k.stray = false → k.misses + 1 < s.missMax c →
        exec (.candidateWindowClose c false) s = .next ((missed.setCand c { k with misses := k.misses + 1 }).coast c) ∧
        exec (.candidateStrayEdge c) s = .next ((missed.setCand c { k with misses := k.misses + 1, stray := true }).coast c)) ∧
      (k.stray = false → s.missMax c ≤ k.misses + 1 →
        Completes (.candidateWindowClose c false) s (lost · 1 1) ∧ Completes (.candidateStrayEdge c) s (lost · 2 3))) ∧
    (edgeCandidate c = false ∨ st < 2 → (∀ edge, exec (.candidateWindowClose c edge) s = .next s) ∧ exec (.candidateStrayEdge c) s = .next s) ∧
    (st = 1 → s.candPresent c = true → Completes (.candidateFirstEdge c) s fun t =>
      t.candState c = 2 ∧ t.cand c = {} ∧ kept t ∧
      (∀ x : DomIx, s.ownDpll x = true → s.prio x c < 15 → t.is (R.CLK_DOMx_INT_STATUS_cand_change x) = true) ∧
      ∀ r, r ∉ [R.CLK_CANDc_STATUS c, R.CLK_DOMx_INT_STATUS 0, R.CLK_DOMx_INT_STATUS 1, R.CLK_DOMx_INT_STATUS 2] → t.reg r = s.reg r) ∧
    (st = 2 → k.misses = 0 → k.outside = 0 → s.candPresent c = true → Completes (.candidateQualified c) s fun t =>
      t.candState c = 3 ∧ t.cands = s.cands ∧ kept t ∧
      ∀ x : DomIx, s.ownDpll x = true → s.domState x = 1 → ∀ e, t.eligible x = some e →
        t.selected x = e ∧ (s.selected x ≠ e → t.stage x = 1 ∧ t.domState x = 2)) ∧
    (st ≠ 2 → exec (.candidateQualified c) s = .next s) ∧
    (∀ f : Ppb, 2 ≤ st →
      let measured := s.setReg (R.CLK_CANDc_FREQ c) f
      let kept := { k with freqs := (s.now, f.toInt) :: k.freqs.filter fun e => decide (s.now ≤ e.1 + 255 * 250000000) }
      (s.inFreqWin c f.toInt = true →
        exec (.frequencyInterval c (some f)) s = .next ((measured.setCand c { kept with outside := 0 }).follows c f.toInt)) ∧
      (s.inFreqWin c f.toInt = false → k.outside = 0 →
        exec (.frequencyInterval c (some f)) s = .next (measured.setCand c { kept with outside := 1 })) ∧
      (s.inFreqWin c f.toInt = false → 1 ≤ k.outside →
        Completes (.frequencyInterval c (some f)) s fun t => lost t 2 2 ∧ t.reg (R.CLK_CANDc_FREQ c) = f)) ∧
    (st = 3 → k.outside = 0 → exec (.frequencyInterval c none) s = .next (s.setCand c { k with outside := 1 })) ∧
    (st = 3 → 1 ≤ k.outside → Completes (.frequencyInterval c none) s (lost · 1 2)) ∧
    (∀ a b : Int, leastSquares [(0, a), (250000000, b)] = some ((b - a : Int) : Rat)) ∧
    (∀ slope : BitVec 16, s.driftFit c = some slope → s.is (R.CLK_CANDc_DRIFT_drift_en c) = true → 2 ≤ st →
      let fitted := s.setReg (R.CLK_CANDc_SLOPE c) (BitVec.ofNat 32 (2 ^ 31 + slope.toNat))
      let alike (d : Nat) : Prop := d ∈ s.others c ∧ (s.reg (R.CLK_CANDc_SLOPE d)).getLsbD 31 = true ∧
        2 * (((s.reg (R.CLK_CANDc_SLOPE d)).setWidth 16).toInt - slope.toInt).natAbs ≤ s.driftMax c
      (slope.toInt.natAbs ≤ s.driftMax c → exec (.driftFit c) s = .next fitted) ∧
      (s.driftMax c < slope.toInt.natAbs → (∃ d e, d ≠ e ∧ alike d ∧ alike e) →
        exec (.driftFit c) s = .next (fitted.raise R.CLK_INT_STATUS_osc_drift)) ∧
      (s.driftMax c < slope.toInt.natAbs → (∀ d, ¬alike d) → st = 3 → Completes (.driftFit c) s (lost · 2 4))) ∧
    (s.driftFit c = none → exec (.driftFit c) s = .next s) ∧
    (s.is (R.CLK_CANDc_DRIFT_xc_en c) = true → st = 3 →
      (s.outvoted c = true → Completes (.crossCheckOutvoted c) s (lost · 2 5)) ∧
      (s.outvoted c = false → exec (.crossCheckOutvoted c) s = .next s)) ∧
    (timeCandidate c = true → 2 ≤ st → Completes (.timeCandidateSourceLoss c) s (lost · 1 6)) ∧
    (timeCandidate c = false ∨ st < 2 → exec (.timeCandidateSourceLoss c) s = .next s)

/-- A domain captures the eligible candidate where R276 to R278 let it, and a switch ends built out or by a pass-through ramp; the DPLL's stages
advance and fall back; cocoon is entered without a reference or by hold, at the stored frequency, and left by a switch; alignment is judged,
realignment accepted at a tick boundary at least 32 samples ahead or refused, pulses emitted with the placement error carried forward, and
OSC_IN's faults reported (10 R276 to R279, R282, R283, R286, R287, R291, R292, R294, R296).
Readings: log entries 21, 49, 61, 62, 63, 64, 116. Completes: switchCaptureStart, waitToRestoreExpiry, forceWrite, switchCaptureEnd,
passThroughRampEnd, dpllStageAdvance, imagoFallback, cocoonEntry, cocoonExit, clkHoldWrite, alignLost, realignWrite, pulseOutputRealign,
pulseOutputPulse, oscInStopped, oscWarn. -/
def Obligations.ClocksFollowReferences : Prop :=
  ∀ (s : State) (x : DomIx),
    let st := s.domState x
    let d := s.dpll x
    let other (t : State) : Prop := SameMemory s t ∧ t.locks = s.locks ∧ t.cands = s.cands ∧ ∀ y, y ≠ x.val → t.dpll y = s.dpll y
    let captures (t : State) (e : Nat) : Prop := t.capturing x = e ∧ t.domState x = 4 ∧ t.selected x = s.selected x ∧ other t
    let switched (t : State) : Prop := t.is (R.CLK_DOMx_INT_STATUS_switched x) = true ∧ t.domState x = (if s.stage x = 4 then 3 else 2) ∧
      t.rd (lowHalf (R.CLK_DOMx_COUNT x)) = min (s.rd (lowHalf (R.CLK_DOMx_COUNT x)) + 1) 65535 ∧ t.capturing x = 15 ∧
      (t.dpll x).cocoon = false ∧ (d.cocoon = true → t.is (R.CLK_DOMx_INT_STATUS_cocoon_out x) = true) ∧ other t
    let cocooned (t : State) (r : FreqRecord) : Prop := t.domState x = 5 ∧ t.selected x = 15 ∧ t.capturing x = 15 ∧ (t.dpll x).cocoon = true ∧
      t.is (R.CLK_DOMx_INT_STATUS_cocoon_in x) = true ∧ other t ∧
      (d.everImago = true → 60500 ≤ r.imagoMs → t.reg (R.CLK_DOMx_HOLD x) = r.mean60 ∧ (t.dpll x).target = r.mean60.toInt) ∧
      (d.everImago = true → r.imagoMs < 60500 → t.reg (R.CLK_DOMx_HOLD x) = r.meanImago ∧ (t.dpll x).target = r.meanImago.toInt) ∧
      (d.everImago = false → (t.dpll x).target = s.loopFreq x)
    (∀ e, s.ownDpll x = true → st = 3 → s.eligible x = some e → e ≠ s.selected x →
      (s.qualified (s.selected x) = false → Completes (.switchCaptureStart x) s (captures · e)) ∧
      (s.is (R.CLK_DOMx_CTRL_revertive x) = true →
        Completes (.waitToRestoreExpiry x) s (captures · e))) ∧
    (s.eligible x = none → exec (.switchCaptureStart x) s = .next s.settleClocks ∧ exec (.waitToRestoreExpiry x) s = .next s) ∧
    (∀ (en : Bool) (sel : BitVec 4), s.owned (R.CLK_DOMx_CTRL x) = 0 → Completes (.forceWrite x en sel) s fun t =>
      t.is (R.CLK_DOMx_CTRL_force_en x) = en ∧ t.rd (R.CLK_DOMx_CTRL_force_sel x) = sel.toNat ∧ other t ∧
      (en = true → s.qualified sel.toNat = false → t.is (R.CLK_DOMx_INT_STATUS_force_lost x) = true) ∧
      (en = true → s.qualified sel.toNat = true → sel.toNat ≤ 8 → s.ownDpll x = true → st = 3 → s.selected x ≠ sel.toNat →
        captures t sel.toNat)) ∧
    (∀ offset : Ps, s.capturing x ≠ 15 → st = 4 → s.qualified (s.capturing x) = true →
      let passes := timeCandidate (s.capturing x) || (edgeCandidate (s.capturing x) && s.is (R.CLK_DOMx_CTRL_step_mode x))
      (passes = false → Completes (.switchCaptureEnd x offset) s fun t =>
        switched t ∧ t.selected x = s.capturing x ∧ t.reg (R.CLK_DOMx_BOFF x) = offset) ∧
      (passes = true → s.shortest x offset.toInt = 0 → Completes (.switchCaptureEnd x offset) s fun t =>
        switched t ∧ t.selected x = s.capturing x ∧ t.reg (R.CLK_DOMx_BOFF x) = 0) ∧
      (passes = true → s.shortest x offset.toInt ≠ 0 → Completes (.switchCaptureEnd x offset) s fun t =>
        t.ramping x = true ∧ t.selected x = s.capturing x ∧ t.capturing x = 15 ∧ t.reg (R.CLK_DOMx_BOFF x) = 0 ∧ other t ∧
        (t.dpll x).ramp.natAbs = 1000 * max 50 (min 450 (s.rd (R.CLK_DOMx_LOOP_pt_ppm x))) ∧
        ((t.dpll x).ramp < 0 ↔ 0 < s.shortest x offset.toInt))) ∧
    (s.ramping x = true → s.capturing x = 15 → Completes (.passThroughRampEnd x) s fun t =>
      switched t ∧ t.ramping x = false ∧ (t.dpll x).ramp = 0) ∧
    (s.ramping x = false → exec (.passThroughRampEnd x) s = .next s) ∧
    (∀ (phase : Ps) (freq : Ppb), s.ownDpll x = true → s.selected x ≠ 15 → s.qualified (s.selected x) = true → s.capturing x = 15 →
      s.ramping x = false → d.cocoon = false → (s.cand (s.selected x)).misses = 0 → phase.toInt.natAbs ≤ stageLimit (s.stage x) →
      (1 ≤ s.stage x → s.stage x ≤ 3 → Completes (.dpllStageAdvance x phase freq) s fun t =>
        t.stage x = s.stage x + 1 ∧ t.reg (R.CLK_DOMx_PHASE x) = phase ∧ (t.dpll x).target = freq.toInt ∧ other t ∧
        (2 ≤ s.stage x → x.val ∈ s.glb.clocksWaiting → t.started x = true) ∧
        (s.stage x = 3 → (t.dpll x).locked = true ∧ (t.dpll x).everImago = true ∧
          (d.locked = false → t.is (R.CLK_DOMx_INT_STATUS_locked x) = true) ∧
          (st = 2 → x.val ∉ s.glb.clocksWaiting → t.domState x = 3)))) ∧
    (∀ phase : Ps, s.stage x = 4 → s.selected x ≠ 15 → 1000000 < phase.toInt.natAbs → Completes (.imagoFallback x phase) s fun t =>
      t.stage x = 3 ∧ t.reg (R.CLK_DOMx_PHASE x) = phase ∧ other t ∧ t.dplls = s.dplls ∧
      ∀ r, r ∉ [R.CLK_DOMx_STATUS x, R.CLK_DOMx_PHASE x, R.CLK_DOMx_INT_STATUS x] → t.reg r = s.reg r) ∧
    (∀ phase : Ps, phase.toInt.natAbs ≤ 1000000 → exec (.imagoFallback x phase) s = .next s) ∧
    (∀ r : FreqRecord, s.ownDpll x = true → s.started x = true → st ≠ 5 →
      (s.cocoonDue x = true → Completes (.cocoonEntry x r) s (cocooned · r)) ∧
      (s.cocoonDue x = false → exec (.cocoonEntry x r) s = .next s) ∧
      (s.owned (R.CLK_DOMx_CTRL x) = 0 → Completes (.clkHoldWrite x true r) s fun t =>
        cocooned t r ∧ t.is (R.CLK_DOMx_CTRL_hold x) = true)) ∧
    (∀ (r : FreqRecord) (e : Nat), st = 5 → s.eligible x = some e →
      (s.is (R.CLK_DOMx_CTRL_hold x) = false → Completes (.cocoonExit x) s (captures · e)) ∧
      (s.is (R.CLK_DOMx_CTRL_hold x) = true → exec (.cocoonExit x) s = .next s) ∧
      (s.owned (R.CLK_DOMx_CTRL x) = 0 → Completes (.clkHoldWrite x false r) s fun t =>
        captures t e ∧ t.is (R.CLK_DOMx_CTRL_hold x) = false)) ∧
    (∀ phase : Ps, Completes (.alignLost x phase) s fun t =>
      t.reg (R.CLK_DOMx_PHASE x) = phase ∧ other t ∧ t.dplls = s.dplls ∧
      (t.is (R.CLK_DOMx_STATUS_aligned x) = true ↔ s.started x = true ∧ s.numberDrift x = 0 ∧ phase.toInt.natAbs * 64 * s.fs x ≤ 10 ^ 12) ∧
      (s.is (R.CLK_DOMx_STATUS_aligned x) = true → t.is (R.CLK_DOMx_STATUS_aligned x) = false →
        t.is (R.CLK_DOMx_INT_STATUS_align_lost x) = true) ∧
      ∀ r, r ∉ [R.CLK_DOMx_STATUS x, R.CLK_DOMx_PHASE x, R.CLK_DOMx_INT_STATUS x] → t.reg r = s.reg r) ∧
    (let may := s.started x && s.ownTime x && st == 3 && s.stage x == 4 && s.phaseNear x (s.phase x) &&
        !s.is (R.CLK_DOMx_STATUS_realign_pending x) && (s.dom x).b != 0;
      (may = true → ∃ n, (s.dom x).freeFrom + 33 ≤ n ∧ n < (s.dom x).freeFrom + 33 + (s.dom x).b ∧ n % (s.dom x).b = 0 ∧
        exec (.realignWrite x) s = .next ((s.setDom x { s.dom x with realignAt := some (BitVec.ofNat 64 n) }).wr
          (R.CLK_DOMx_STATUS_realign_pending x) 1)) ∧
      (may = false → exec (.realignWrite x) s = .next (s.wr (R.CLK_DOMx_INT_STATUS_align_refused x) 1))) ∧
    (∀ o : Fin 3, exec (.pulseOutputRealign o) s = .next (s.setPulse o { s.pulseOut o with realign := true })) ∧
    (∀ (o : Fin 3) (m : Option (BitVec 32)), s.is (R.CLK_OUTo_CTRL_en (4 + o)) = false → exec (.pulseOutputPulse o m) s = .next s) ∧
    (∀ (o : Fin 3) (m : Option (BitVec 32)), s.is (R.CLK_OUTo_CTRL_en (4 + o)) = true →
      let num := s.rd ⟨R.CLK_OUTo_PERIOD (4 + o), 0, 20⟩
      let den := max 1 (s.rd ⟨R.CLK_OUTo_PERIOD (4 + o), 20, 12⟩)
      let width := max 1 (s.rd (R.CLK_OUTo_CTRL_width (4 + o)))
      let inverted := s.is (R.CLK_OUTo_CTRL_inv (4 + o))
      (o.val < 2 → (s.pulseOut o).realign = false → 0 ≤ (num : Int) * 1024 + (s.pulseOut o).error →
        Completes (.pulseOutputPulse o m) s fun t => ∃ n : Nat, t.outbox = s.outbox ++ [.pulse o n width inverted] ∧
          (t.pulseOut o).error = (num : Int) * 1024 + (s.pulseOut o).error - n * den ∧ 2 * (t.pulseOut o).error.natAbs ≤ den ∧
          t.reg (R.CLK_OUTo_OFFSET (4 + o)) = m.getD 0x80000000 ∧ SameMemory s t ∧ t.locks = s.locks ∧
          ∀ r, r ≠ R.CLK_OUTo_OFFSET (4 + o) → t.reg r = s.reg r) ∧
      ((s.pulseOut o).realign = true → Completes (.pulseOutputPulse o m) s fun t =>
        t.outbox = s.outbox ++ [.pulse o 0 width inverted] ∧ t.pulseOut o = {} ∧ t.reg (R.CLK_OUTo_OFFSET (4 + o)) = 0 ∧ SameMemory s t)) ∧
    exec .oscInStopped s = .next (s.report 2 0 4) ∧
    (s.medianFreq = none → exec .oscWarn s = .next s) ∧
    (∀ m : Int, s.medianFreq = some m →
      let measured := s.setReg R.CLK_OSC_DEV (BitVec.ofInt 32 (-m))
      (m.natAbs ≤ 100000 → exec .oscWarn s = .next (measured.wr R.CLK_STATUS_osc_warn 0)) ∧
      (100000 < m.natAbs → s.is R.CLK_STATUS_osc_warn = true → exec .oscWarn s = .next measured) ∧
      (100000 < m.natAbs → s.is R.CLK_STATUS_osc_warn = false → exec .oscWarn s
        = .next (((measured.wr R.CLK_STATUS_osc_warn 1).wr R.CLK_INT_STATUS_osc_warn 1).report 4 2 1)))

/-! ## Network time (11) -/

/-- A snap captures all time bases; a load and a step act in one write, or are stored in derived mode; an adjustment acts in free mode, clamped
to 500 ppm; a derived time base changes its source without a jump; the servo steps or steers by a measurement and locks, unlocks and holds; and
a transmit timestamp is queued, lost at a full queue, and popped (11 R298, R299, R301 to R304, R306, R307, R313 to R315). That an idle step
counts one control-clock cycle is the model's choice (log entry 2).
Readings: log entries 65, 66. Completes: timeSnap, timeBaseLoad, timeBaseStep, timeBaseAdjWrite, servoMeasurement, measurementTimeout,
derivedSourceChange, derivedWtrExpiry, derivedProfileEnd, txTimestampEntry, txqPop. -/
def Obligations.TimeBases : Prop :=
  ∀ (s : State) (n : TbIx),
    let b := s.tb n
    let mode := s.tbMode n
    let st := s.tbState n
    let low (a : Nat) : Word := (s.heldLow a).getD (s.reg a)
    let wrap : Int := 2 ^ 48 * (10 ^ 9 * 2 ^ 48)
    let kept (t : State) : Prop := SameMemory s t ∧ t.locks = s.locks ∧ t.doms = s.doms ∧ t.txqs = s.txqs ∧
      ∀ d, d ≠ n.val → (t.tb d).value = (s.tb d).value
    let stepped (t : State) : Prop := t.is (R.TBn_INT_STATUS_stepped n) = true ∧
      t.rd (lowHalf (R.TBn_COUNT n)) = min (s.rd (lowHalf (R.TBn_COUNT n)) + 1) 65535 ∧ kept t ∧
      ∀ c ∈ [6, 7], s.rd (R.CLK_CANDc_CFG_tb c) = n.val → 2 ≤ s.candState c → t.candState c = 1
    let uses (t : State) (src : Nat) : Prop := t.rd (R.TBn_STATUS_source n) = src ∧ t.is (R.TBn_INT_STATUS_switched n) = true ∧
      (t.tb n).value = b.value ∧ (t.tb n).o = ((b.value : Int) - ((s.tb src).value : Int) : Int) / ((2 ^ 48 : Nat) : Rat) ∧
      (t.tb n).f = (s.tbAdj n - s.tbAdj src : Int) / (65536 : Rat) ∧ kept t
    (s.pending = [] → mode = 1 ∨ mode = 2 → ∃ t, step s = .next t ∧
      ((t.tb n).value : Int) = ((b.value : Int) + (2 ^ 50 + s.tbAdj n * 2 ^ 34 / 10 ^ 6)) % wrap) ∧
    Completes .timeSnap s (fun t => { t with tbs := s.tbs } = s ∧ ∀ i < 4, (t.tb i).value = (s.tb i).value ∧
      (t.tb i).capture = some (timeWords (s.tb i).value)) ∧
    (∀ set3 : Word,
      let secs := (low (R.TBn_SET2 n)).toNat + getBits set3 0 16 * 2 ^ 32
      let v : Int := ((secs * 10 ^ 9 + (low (R.TBn_SET1 n)).toNat) * 2 ^ 48 + getBits (low (R.TBn_SET0 n)) 0 16 * 2 ^ 32 : Nat)
      (mode = 1 ∨ mode = 2 → Completes (.timeBaseLoad n set3) s fun t => ((t.tb n).value : Int) = v % wrap ∧ stepped t) ∧
      (mode = 3 → Completes (.timeBaseLoad n set3) s fun t => (∃ w, (t.tb n).storedLoad = some w ∧ (w : Int) = v % wrap) ∧
        (t.tb n).storedStep = none ∧ (t.tb n).value = b.value ∧ kept t)) ∧
    (∀ hi : Word,
      let off := (BitVec.ofNat 64 ((low (R.TBn_STEP_LO n)).toNat + hi.toNat * 2 ^ 32)).toInt
      (mode = 1 ∨ mode = 2 → Completes (.timeBaseStep n hi) s fun t =>
        ((t.tb n).value : Int) = ((b.value : Int) + off * 2 ^ 32) % wrap ∧ stepped t) ∧
      (mode = 0 → Completes (.timeBaseStep n hi) s fun t => (t.tb n).value = 0 ∧ stepped t) ∧
      (mode = 3 → Completes (.timeBaseStep n hi) s fun t => (t.tb n).storedStep = some (b.storedStep.getD 0 + off) ∧
        (t.tb n).value = b.value ∧ kept t)) ∧
    (∀ v : Word, mode = 1 → v.toInt.natAbs ≤ 500 * 65536 → exec (.timeBaseAdjWrite n v) s = .next (s.setReg (R.TBn_ADJ n) v)) ∧
    (∀ v : Word, mode = 1 → 500 * 65536 < v.toInt.natAbs → exec (.timeBaseAdjWrite n v) s
      = .next ((s.setReg (R.TBn_ADJ n) (BitVec.ofInt 32 (500 * 65536 * v.toInt.sign))).wr (R.TBn_INT_STATUS_clamp n) 1)) ∧
    (∀ v : Word, mode ≠ 1 → exec (.timeBaseAdjWrite n v) s = .next s) ∧
    (mode = 3 →
      let p := s.rd (R.TBn_DERIVE_primary n)
      let q := s.rd (R.TBn_DERIVE_secondary n)
      let pOk := s.sourceLocked p
      let qOk := s.is (R.TBn_DERIVE_sec_en n) && s.sourceLocked q
      (st = 5 → pOk = false → qOk = true → Completes (.derivedSourceChange n) s fun t => t.tbState n = 6 ∧ uses t q) ∧
      (st = 5 ∨ st = 6 → pOk = false → qOk = false → Completes (.derivedSourceChange n) s fun t =>
        t.tbState n = 7 ∧ t.is (R.TBn_INT_STATUS_switched n) = true ∧ (t.tb n).value = b.value ∧ kept t) ∧
      (st = 7 → pOk = false → qOk = true → Completes (.derivedSourceChange n) s fun t => t.tbState n = 6 ∧ uses t q) ∧
      (st = 7 → pOk = true → Completes (.derivedSourceChange n) s fun t => t.tbState n = 5 ∧ uses t p) ∧
      (st = 6 → pOk = true → qOk = true → s.rd (R.TBn_DERIVE_wtr n) = 0 → Completes (.derivedSourceChange n) s fun t =>
        t.tbState n = 5 ∧ uses t p) ∧
      (st = 6 → pOk = true → qOk = true → s.rd (R.TBn_DERIVE_wtr n) ≠ 0 → Completes (.derivedSourceChange n) s fun t =>
        t.tbState n = 6 ∧ (t.tb n).restoring = true ∧ (t.tb n).value = b.value ∧ kept t) ∧
      (st = 6 → b.restoring = true → pOk = true → Completes (.derivedWtrExpiry n) s fun t => t.tbState n = 5 ∧ uses t p) ∧
      (st ≠ 6 ∨ b.restoring = false → exec (.derivedWtrExpiry n) s = .next s) ∧
      (st = 5 ∨ st = 6 → b.o = 0 → b.f = 0 →
        let src := s.rd (R.TBn_STATUS_source n)
        exec (.derivedProfileEnd n) s = .next (((s.setTb n { b with value := (s.tb src).value, o := 0, f := 0 }).setReg (R.TBn_OFFSET n) 0).setReg
          (R.TBn_ADJ n) (s.reg (R.TBn_ADJ src)))) ∧
      (b.o * 65536 < -1 ∨ 1 < b.o * 65536 → exec (.derivedProfileEnd n) s = .next s)) ∧
    (∀ hi : Word,
      let raw := (BitVec.ofNat 64 ((low (R.TBn_MEAS_LO n)).toNat + hi.toNat * 2 ^ 32)).toInt
      let o : Rat := (raw : Rat) / 65536
      let hold := s.is (R.TBn_CTRL_servo_hold n)
      let steps := s.is (R.TBn_SERVO_CFG_step_en n) && st == 2
      let i := max (-500) (min 500 (b.integral - s.gain (R.TBn_KI n) * o))
      let ppm := max (-500) (min 500 (i - s.gain (R.TBn_KP n) * o))
      let least := s.rd (R.TBn_THRESH_lock_thr n)
      Completes (.servoMeasurement n hi true) s (fun t => t.is (R.TBn_INT_STATUS_meas_drop n) = true ∧ t.tbs = s.tbs ∧ t.tbState n = st ∧
        t.reg (R.TBn_ADJ n) = s.reg (R.TBn_ADJ n) ∧ kept t) ∧
      (mode = 2 → Completes (.servoMeasurement n hi false) s fun t => kept t ∧
        t.reg (R.TBn_LAST_OFS n) = BitVec.ofInt 32 (max (-(2 ^ 31)) (min (2 ^ 31 - 1) (raw / 65536)))) ∧
      (mode = 2 → hold = false → steps = true → (((max 1 (s.rd (R.TBn_THRESH_step_thr n)) * 1000 : Nat) : Rat) < max o (-o)) →
        Completes (.servoMeasurement n hi false) s fun t => ((t.tb n).value : Int) = ((b.value : Int) - raw * 2 ^ 32) % wrap ∧ stepped t) ∧
      (mode = 2 → hold = false → st ≠ 4 → steps = false → Completes (.servoMeasurement n hi false) s fun t =>
        (t.tb n).integral = i ∧ t.reg (R.TBn_ADJ n) = BitVec.ofInt 32 (ppm * 65536).floor ∧ (t.tb n).value = b.value) ∧
      (mode = 2 → hold = true → st ≠ 4 → Completes (.servoMeasurement n hi false) s fun t =>
        (t.tb n).integral = b.integral ∧ t.reg (R.TBn_ADJ n) = s.reg (R.TBn_ADJ n) ∧ (t.tb n).value = b.value) ∧
      (mode = 2 → st = 2 → steps = false → max o (-o) ≤ (least : Rat) → max 1 (s.rd (R.TBn_SERVO_CFG_lock_n n)) ≤ b.good + 1 →
        Completes (.servoMeasurement n hi false) s fun t =>
          t.tbState n = 3 ∧ t.is (R.TBn_INT_STATUS_locked n) = true ∧ t.is (R.TBn_STATUS_locked n) = true) ∧
      (mode = 2 → st = 3 → ((s.rd (R.TBn_THRESH_unlock_thr n) * 10 : Nat) : Rat) < max o (-o) →
        Completes (.servoMeasurement n hi false) s fun t =>
          t.tbState n = 2 ∧ t.is (R.TBn_INT_STATUS_unlocked n) = true ∧ t.is (R.TBn_STATUS_locked n) = false)) ∧
    (mode = 2 → st ≠ 4 → Completes (.measurementTimeout n) s fun t => t.tbState n = 4 ∧ t.is (R.TBn_INT_STATUS_meas_timeout n) = true ∧
      (st = 3 → t.is (R.TBn_INT_STATUS_unlocked n) = true) ∧ (t.tb n).value = b.value ∧ kept t) ∧
    (mode ≠ 2 ∨ st = 4 → exec (.measurementTimeout n) s = .next s) ∧
    (∀ (m : Fin 2) (tag : BitVec 16) (discarded : Bool),
      let w := if discarded then (0, 0, 0) else s.stamp n (s.reg (R.TIME_MACm_ASYM_TX m)).toInt
      let w0 : Word := BitVec.ofNat 32 (2 ^ 31 + b2n discarded * 2 ^ 30 + n * 2 ^ 28 + tag.toNat)
      ((s.txq m).length < 16 → Completes (.txTimestampEntry m tag n discarded) s fun t =>
        t.txq m = s.txq m ++ [⟨w0, w.1, w.2.1, w.2.2⟩] ∧ t.is (R.TIME_MACm_INT_STATUS_txq_ready m) = true ∧
        (discarded = true → t.is (R.TIME_MACm_INT_STATUS_no_ts m) = true) ∧ SameMemory s t ∧ t.locks = s.locks ∧ t.tbs = s.tbs ∧
        ∀ r, r ∉ [R.TIME_MACm_TXQ_STATUS m, R.TIME_MACm_INT_STATUS m] → t.reg r = s.reg r) ∧
      (16 ≤ (s.txq m).length → ∃ u, exec (.txTimestampEntry m tag n discarded) s = .next (u.report (12 + m) 1 0) ∧
        u.rd (lowHalf (R.TIME_MACm_TXQ_LOST m)) = tag.toNat ∧ u.is (R.TIME_MACm_INT_STATUS_txq_ovf m) = true ∧ u.txqs = s.txqs ∧
        u.rd (highHalf (R.TIME_MACm_TXQ_LOST m)) = min (s.rd (highHalf (R.TIME_MACm_TXQ_LOST m)) + 1) 65535 ∧ SameMemory s u)) ∧
    (∀ m : Fin 2, (s.txq m = [] → exec (.txqPop m) s = .next (s.answer [0])) ∧
      (∀ e rest, s.txq m = e :: rest → Completes (.txqPop m) s fun t =>
        t.reply = ⟨[e.w0], .okay⟩ ∧ t.txq m = rest ∧ t.snap (R.TIME_MACm_TXQ1 m) = some e.w1 ∧ t.snap (R.TIME_MACm_TXQ2 m) = some e.w2 ∧
        t.snap (R.TIME_MACm_TXQ3 m) = some e.w3 ∧ SameMemory s t ∧ t.locks = s.locks ∧
        ∀ r, r ≠ R.TIME_MACm_TXQ_STATUS m → t.reg r = s.reg r))

/-! ## Ethernet and streams (12) -/

/-- A link comes up with the corrections of its speed and goes down with its servos holding; a received frame fails the checks in order, each
with its count, or is delivered as a software frame or placed in its stream's buffer; a software frame is sent, waits, is discarded, or ages after
MACm_TX_AGE at the head; a stream packet is sent with its samples (said of L24 samples that are all present, outside the safe and fail-over
states); streams start and stop at tick boundaries; and a port enters and leaves low power idle (11 R304, R309, R313; 12 R319 to R340; 13 R358).
Readings: log entries 67, 68, 69, 117. Completes: linkUp, linkDown, frameReceive, softwareFrameTransmit, softwareFrameAged, streamPacketLaunch,
txStreamEnable, rxStreamEnable, lpiEntry, lpiWake. -/
def Obligations.EthernetAndStreams : Prop :=
  ∀ (s : State) (m : Fin 2) (n : Fin 256),
    let up := s.linkIsUp m
    let kept (t : State) : Prop := SameMemory s t ∧ t.locks = s.locks ∧ t.doms = s.doms
    let needs := s.is (R.MACm_CTRL_an_en m) && s.speed m == 0
    (∀ neg, up = false → needs = false ∨ neg = true → Completes (.linkUp m neg) s fun t =>
      t.linkIsUp m = true ∧ t.is (R.MACm_STATUS_pcs_lock m) = true ∧ t.is (R.MACm_INT_STATUS_link_up m) = true ∧
      t.reg (R.TIME_MACm_CORR m) = BitVec.ofNat 32 ((corrections (s.speed m) (s.fec m)).2 * 2 ^ 16 + (corrections (s.speed m) (s.fec m)).1) ∧
      kept t ∧ ∀ r, r ∉ [R.TIME_MACm_CORR m, R.MACm_STATUS m, R.MACm_INT_STATUS m] → t.reg r = s.reg r) ∧
    (∀ neg, up = true ∨ (needs = true ∧ neg = false) → exec (.linkUp m neg) s = .next s) ∧
    (up = true → s.is (R.LANEn_STATUS_rx_idle (2 + m)) = false → Completes (.linkDown m) s fun t => t.linkIsUp m = false ∧ t.is (R.MACm_INT_STATUS_link_down m) = true ∧ kept t ∧
      ∀ b < 4, s.tbMode b = 2 → s.rd (R.TBn_SERVO_CFG_port b) = m + 1 → t.tbState b = 4) ∧
    (s.is (R.LANEn_STATUS_rx_idle (2 + m)) = true → exec (.linkDown m) s = .next s) ∧
    -- received frames
    (∀ f, exec (.frameReceive m true f) s = .next (s.macCount (R.MACm_RX_FCS m))) ∧
    (∀ f, s.is (R.MACm_CTRL_rx_en m) = false ∨ up = false → exec (.frameReceive m false f) s = .next s) ∧
    (s.is (R.MACm_CTRL_rx_en m) = true → up = true →
      (∀ f, f.length < 64 → exec (.frameReceive m false f) s = .next (s.macCount (R.MACm_RX_RUNT m))) ∧
      (∀ f, 64 ≤ f.length → f.length ≤ s.maxLen m →
        let strip := s.is (R.MACm_CTRL_strip m) && tagged f
        let cls := if ptpClass f then 0 else 1
        let bytes := if strip then f.take 12 ++ f.drop 16 else f
        (ethertype f = 0x8808 → exec (.frameReceive m false f) s
          = .next ((s.macCount (R.MACm_RX_PAUSE m)).wr (R.MACm_INT_STATUS_pause_rx m) 1)) ∧
        (ethertype f ≠ 0x8808 → s.addrPass m f = false ∧ s.rxStreamOf m f = none ∨ s.vlanPass m f = false →
          exec (.frameReceive m false f) s = .next (s.macCount (R.MACm_RX_FILT m))) ∧
        (ethertype f ≠ 0x8808 → s.addrPass m f = true → s.vlanPass m f = true → s.rxStreamOf m f = none →
          (s.admits m cls bytes.length = true → Completes (.frameReceive m false f) s fun t =>
            (∃ w, (t.mac m).rx = (s.mac m).rx ++ [⟨cls, w, bytes⟩] ∧ ∀ b, s.stampBase m f = some b → w.drop 1 =
              let (x, y, z) := s.stamp b (-(s.reg (R.TIME_MACm_ASYM_RX m)).toInt)
              [x, y, z]) ∧
            t.regs = (s.macCount (R.MACm_RX_OK m)).regs ∧ kept t) ∧
          (s.admits m cls bytes.length = false → exec (.frameReceive m false f) s = .next ((s.bump (if cls = 0 then lowHalf (R.MACm_RX_DROP m)
            else highHalf (R.MACm_RX_DROP m))).wr (R.MACm_INT_STATUS_rx_drop m) 1))) ∧
        (ethertype f ≠ 0x8808 → s.vlanPass m f = true → s.rxStreamOf m f = some n.val →
          let ok := s.macCount (R.MACm_RX_OK m)
          let b := (s.dom (s.rd (R.STRM_RXn_CFG_domain n))).b
          let now := (s.dom (s.rd (R.STRM_RXn_CFG_domain n))).sample.toNat
          let pos := (s.rxPosition n f).1
          (s.rxBad n f = true → exec (.frameReceive m false f) s
            = .next ((ok.bump (highHalf (R.STRM_RXn_COUNT1 n))).rxEvent n R.STRM_INT_STATUS_rx_bad)) ∧
          (s.rxBad n f = false → pos < 0 ∨ pos.toNat / b < (s.rx n).next → exec (.frameReceive m false f) s
            = .next ((ok.bump (highHalf (R.STRM_RXn_COUNT0 n))).rxEvent n R.STRM_INT_STATUS_rx_late)) ∧
          (s.rxBad n f = false → 0 ≤ pos → (s.rx n).next ≤ pos.toNat / b → pos + s.rxP n - 1 ≤ now + s.rd ⟨R.STRM_RXn_DEPTH n, 0, 16⟩ →
            (∀ k ∈ (s.rx n).slots, (k.pos : Int) < pos ∨ pos + s.rxP n ≤ k.pos) → Completes (.frameReceive m false f) s fun t =>
              (t.rx n).slots = (s.rx n).slots ++ (List.range (s.rxP n)).map (fun j =>
                ⟨pos.toNat + j, (s.rxPosition n f).2, j == 0, m + 1, s.rxSamples n f j⟩) ∧
              t.rd (rxState n) = 2 ∧ kept t ∧ ∀ k, k ≠ n.val → t.rx k = s.rx k))) ∧
      (∀ f, 64 ≤ f.length → s.maxLen m < f.length → let g := f.take (s.maxLen m);
        ethertype g ≠ 0x8808 → s.addrPass m g = true → s.vlanPass m g = true → s.is (R.MACm_CTRL_strip m) = false → s.admits m 1 g.length = true →
        Completes (.frameReceive m false f) s fun t =>
          (t.mac m).rx = (s.mac m).rx ++ [⟨1, [BitVec.ofNat 32 (2 ^ 30 + 2 ^ 24), 0, 0, 0], g⟩] ∧
          t.is (R.MACm_INT_STATUS_rx_trunc m) = true ∧ kept t)) ∧
    -- software frames on transmit
    (∀ h gap, (s.mac m).head = some h → s.halted = false →
      let sent := s.txBytes m h
      let time := s.txTime m sent.1.length
      let path := s.txPath m
      (path = true → s.is (R.MACm_CTRL_tx_en m) = true → time ≤ s.rd ⟨R.MACm_GAP m, 0, 24⟩ → s.is (R.MACm_STATUS_tx_lpi m) = false →
        patternOn (s.rd (R.LANEn_PRBS_CTRL_gen_pat (2 + m))) = false →
        (gap < time → exec (.softwareFrameTransmit m gap) s = .next s) ∧
        (time ≤ gap → Completes (.softwareFrameTransmit m gap) s fun t =>
          t.outbox.take (s.outbox.length + 1) = s.outbox ++ [.frame m 0 sent.1 sent.2] ∧ (t.mac m).head = none ∧ (t.mac m).rx = (s.mac m).rx ∧
          t.rd (whole (R.MACm_TX_OK m)) = min (s.rd (whole (R.MACm_TX_OK m)) + 1) (2 ^ 32 - 1) ∧ kept t ∧
          (h.w0.getLsbD 31 = false → t.txqs = s.txqs) ∧
          (h.w0.getLsbD 31 = true → (s.txq m).length < 16 → ∃ e, t.txq m = s.txq m ++ [e] ∧ e.w0.setWidth 16 = h.w0.setWidth 16))) ∧
      (h.w0.getLsbD 31 = false →
        let gone (t : State) := t.setMac m { s.mac m with head := none }
        (path = false → exec (.softwareFrameTransmit m gap) s = .next (gone (s.macCount (R.MACm_TX_LINKDROP m)))) ∧
        (path = true → s.is (R.MACm_CTRL_tx_en m) = false → exec (.softwareFrameTransmit m gap) s = .next (gone s)) ∧
        (path = true → s.is (R.MACm_CTRL_tx_en m) = true → s.rd ⟨R.MACm_GAP m, 0, 24⟩ < time → exec (.softwareFrameTransmit m gap) s
          = .next (gone ((s.macCount (R.MACm_TX_NOFIT m)).wr (R.MACm_INT_STATUS_tx_nofit m) 1))) ∧
        (h.since + 2500 * max 1 (s.rd ⟨R.MACm_TX_AGE m, 0, 16⟩) < s.now → exec (.softwareFrameAged m) s
          = .next (gone ((s.macCount (R.MACm_TX_AGED m)).wr (R.MACm_INT_STATUS_tx_aged m) 1)))) ∧
      (s.now ≤ h.since + 2500 * max 1 (s.rd ⟨R.MACm_TX_AGE m, 0, 16⟩) → exec (.softwareFrameAged m) s = .next s)) ∧
    ((s.mac m).head = none → (∀ gap, exec (.softwareFrameTransmit m gap) s = .next s) ∧ exec (.softwareFrameAged m) s = .next s) ∧
    -- streams
    (s.atBoundary (s.txDomain n) = true →
      let now := (s.dom (s.txDomain n)).sample.toNat
      let en (t : State) := t.is ⟨R.STRM_TXn_CTRL n, 0, 1⟩
      let next := s.shTake (R.STRM_TXn_CTRL n)
      (en s = false → en next = true → Completes (.txStreamEnable n) s fun t => (t.tx n).start = some now ∧ (t.tx n).stop = none ∧
        (t.tx n).seq = 0 ∧ (t.tx n).fade = .into 0 ∧ t.rd (txState n) = 1 ∧ kept t ∧ ∀ k, k ≠ n.val → t.tx k = s.tx k) ∧
      (en s = true → en next = false → Completes (.txStreamEnable n) s fun t =>
        t.tx n = { s.tx n with stop := some now } ∧ t.rd (txState n) = 0 ∧ kept t ∧ ∀ k, k ≠ n.val → t.tx k = s.tx k)) ∧
    (s.atBoundary (s.txDomain n) = false → exec (.txStreamEnable n) s = .next s) ∧
    (s.atBoundary (s.rd (R.STRM_RXn_CFG_domain n)) = true →
      let next := s.shTake (R.STRM_RXn_CTRL n)
      (s.is (R.STRM_RXn_CTRL_en n) = false → next.is (R.STRM_RXn_CTRL_en n) = true → Completes (.rxStreamEnable n) s fun t =>
        t.rx n = { next := s.tick (s.rd (R.STRM_RXn_CFG_domain n)) } ∧ t.rd (rxState n) = 1 ∧ kept t ∧ ∀ k, k ≠ n.val → t.rx k = s.rx k) ∧
      (s.is (R.STRM_RXn_CTRL_en n) = true → next.is (R.STRM_RXn_CTRL_en n) = false → Completes (.rxStreamEnable n) s fun t =>
        t.rx n = {} ∧ t.rd (rxState n) = 0 ∧ kept t ∧ ∀ k, k ≠ n.val → t.rx k = s.rx k)) ∧
    (∀ (first : Nat) (rows : List (List Sample)),
      let d := s.dom (s.txDomain n)
      let t₀ := s.tx n
      s.is (R.STRM_TXn_CFG_assigned n) = true → d.sample.toNat = first + s.txP n + d.b → first % s.txP n = s.rd (R.STRM_TXn_CFG_phase n) →
      (∃ a, t₀.start = some a ∧ a ≤ first) → t₀.stop = none → s.halted = false → s.legs.contains n.val = false → s.fenced = false →
      s.fov.releasedAt = [] → s.soft 6 (s.txDomain n) = false → s.rd (R.STRM_TXn_CFG_mac n) = m.val → s.txPath m = true →
      patternOn (s.rd (R.LANEn_PRBS_CTRL_gen_pat (2 + m))) = false →
      s.is (R.MACm_CTRL_tx_en m) = true → t₀.silent = false → t₀.fade = .none → s.txSamples n first = rows.map some →
      s.is (R.STRM_TXn_CFG_l16 n) = false →
      Completes (.streamPacketLaunch n) s fun t =>
        t.outbox = s.outbox ++ [.frame m (s.rd ⟨R.STRM_TXn_OFS n, 16 * m, 16⟩)
          (s.packet n m t₀.seq first (rows.flatMap fun r => r.flatMap fun v => beBytes 3 v.toNat)) false] ∧
        (t.tx n).seq = (t₀.seq + 1) % 2 ^ 16 ∧ (∀ e ∈ (t.tx n).stage, first + s.txP n ≤ e.1) ∧ t.rd (txState n) = 1 ∧ kept t) ∧
    (s.is (R.STRM_TXn_CFG_assigned n) = false ∨ s.halted = true → exec (.streamPacketLaunch n) s = .next s) ∧
    -- energy-efficient Ethernet
    (s.is (R.MACm_EEE_en m) = true → up = true → (s.mac m).head = none → s.is (R.MACm_STATUS_tx_lpi m) = false → Completes (.lpiEntry m) s fun t =>
      t.is (R.MACm_STATUS_tx_lpi m) = true ∧ kept t ∧ (∀ r, r ∉ [R.MACm_STATUS m, R.LANEn_STATUS (2 + m)] → t.reg r = s.reg r) ∧
      (s.is (R.LANEn_CTRL_idle_en (2 + m)) = true → (s.speed m = 0 ∨ s.speed m = 2) → s.laneTested (2 + m) = false →
        t.is (R.LANEn_STATUS_tx_idle (2 + m)) = true)) ∧
    ((s.mac m).head ≠ none ∨ s.is (R.MACm_EEE_en m) = false → exec (.lpiEntry m) s = .next s) ∧
    (s.is (R.MACm_STATUS_tx_lpi m) = true → exec (.lpiWake m) s
      = .next ((s.wr (R.MACm_STATUS_tx_lpi m) 0).wr (R.LANEn_STATUS_tx_idle (2 + m)) 0)) ∧
    (s.is (R.MACm_STATUS_tx_lpi m) = false → exec (.lpiWake m) s = .next s)

/-! ## Serial lanes (13) -/

/-- A lane climbs from reset to tracking by its locks and searches, falls on a timeout, a lost signal or a lost reference clock (dropping a scan,
a readapt and its leave), readapts by leave of the weir, keeps the elastic buffer's fill near its middle, and falls back from an embedded clock;
tests start under MAINTENANCE alone (loops and generators of LN0 and LN1 with the PCIe link down) and are refused otherwise; the checker counts
while it is locked, and a scan ends with at most the errors of the bits it compared (13 R344, R346 to R355, R358).
Readings: log entries 70, 71, 74. Completes: laneSynthLock, laneSignalDetect, laneCdrLock, laneCtleConverged, laneDfeConverged, laneAdaptTimeout,
laneSignalLoss, readaptWrite, readaptEnd, elasticBufferUnit, elasticBufferRecentre, embeddedClockFallback, embeddedClockReturn, refclkLost,
refclkReturn, loopModeWrite, prbsCtrlWrite, prbsCheckerLock, injectOnce, scanStart, scanDone, rxIdleTimeout, receiveIdleSignalReturn. -/
def Obligations.SerialLanes : Prop :=
  ∀ (s : State) (n : LaneIx),
    let k := s.laneState n
    let i (b : Nat) := bitAt (R.LANEn_INT_STATUS n) b
    let scanning := s.is ⟨R.LANEn_SCAN_STATUS n, 0, 1⟩
    let kept (t : State) : Prop := SameMemory s t ∧ t.locks = s.locks ∧ t.doms = s.doms ∧ t.dplls = s.dplls
    let fell (t : State) (v : Nat) : Prop := t.laneState n = v ∧ SameMemory s t ∧ t.locks = s.locks ∧ t.doms = s.doms ∧
      t.is (R.LANEn_STATUS_leave n) = false ∧ (t.requester (9 + n)).pending = false ∧ (t.requester (9 + n)).grant = 0 ∧
      t.is ⟨R.LANEn_SCAN_STATUS n, 0, 1⟩ = false ∧ (scanning = true → t.is (R.LANEn_INT_STATUS_scan_abort n) = true)
    let lost (t : State) : Prop := fell t 2 ∧ t.is (R.LANEn_INT_STATUS_sig_lost n) = true ∧
      t.is (R.LANEn_STATUS_sig_det n) = false ∧ t.is (R.LANEn_STATUS_rx_idle n) = false
    -- bring-up
    (s.refclk (refclkOf n) = false → exec (.laneSynthLock n) s = .next s) ∧
    (s.refclk (refclkOf n) = true → k = 1 → exec (.laneSynthLock n) s = .next (s.wr (R.LANEn_STATUS_state n) 2)) ∧
    (k = 2 → Completes (.laneSignalDetect n) s fun t => fell t 3 ∧ t.is (R.LANEn_STATUS_sig_det n) = true ∧ t.reg (R.LANEn_EB n) = 0x101010) ∧
    (k ≠ 2 → exec (.laneSignalDetect n) s = .next s) ∧
    (k = 3 → exec (.laneCdrLock n) s = .next ((s.wr (R.LANEn_STATUS_state n) 4).wr (R.LANEn_STATUS_cdr_lock n) 1)) ∧
    (k ≠ 3 → exec (.laneCdrLock n) s = .next s) ∧
    (∀ ctle : Byte, (k = 4 → exec (.laneCtleConverged n ctle) s
        = .next ((s.wr ⟨R.LANEn_RXEQ n, 24, 8⟩ ctle.toNat).wr (R.LANEn_STATUS_state n) 5)) ∧
      (k ≠ 4 → exec (.laneCtleConverged n ctle) s = .next s)) ∧
    (∀ taps : BitVec 24, (k = 5 → Completes (.laneDfeConverged n taps) s fun t => t.laneState n = 6 ∧ t.is (R.LANEn_INT_STATUS_ready n) = true ∧
        t.rd ⟨R.LANEn_RXEQ n, 0, 24⟩ = taps.toNat ∧ kept t ∧
        (∀ l : LinkIx, linkOf n = some l.val → s.linkState l = 1 → s.laneState (4 + 2 * l + (1 - n % 2)) = 6 → t.linkState l = 2) ∧
        ∀ r, r ∉ [R.LANEn_STATUS n, R.LANEn_RXEQ n, R.LANEn_INT_STATUS n] → (∀ l < 4, r ≠ R.NRXk_STATUS l) → t.reg r = s.reg r) ∧
      (k ≠ 5 → exec (.laneDfeConverged n taps) s = .next s)) ∧
    (3 ≤ k → k ≤ 5 → Completes (.laneAdaptTimeout n) s fun t => fell t 2 ∧ t.is (R.LANEn_INT_STATUS_adapt_fail n) = true) ∧
    (k < 3 ∨ 5 < k → exec (.laneAdaptTimeout n) s = .next s) ∧
    -- loss and receive idle
    (∀ lpi, k < 3 → exec (.laneSignalLoss n lpi) s = .next s) ∧
    (k = 6 → n = 2 ∨ n = 3 → exec (.laneSignalLoss n true) s
      = .next ((s.wr (R.LANEn_STATUS_rx_idle n) 1).wr (R.LANEn_STATUS_sig_det n) 0)) ∧
    (3 ≤ k → Completes (.laneSignalLoss n false) s lost) ∧
    (s.is (R.LANEn_STATUS_rx_idle n) = true → Completes (.rxIdleTimeout n) s lost ∧
      exec (.receiveIdleSignalReturn n) s = .next ((s.wr (R.LANEn_STATUS_rx_idle n) 0).wr (R.LANEn_STATUS_sig_det n) 1)) ∧
    (s.is (R.LANEn_STATUS_rx_idle n) = false → exec (.rxIdleTimeout n) s = .next s ∧ exec (.receiveIdleSignalReturn n) s = .next s) ∧
    -- readapt
    (s.laneUsed n = true → k = 6 → scanning = false → Completes (.readaptWrite n) s fun t => (t.requester (9 + n)).pending = true ∧
      (t.requester (9 + n)).cost = s.weirCost (9 + n) ∧ t.laneState n = 6 ∧ kept t ∧ ∀ r, r ≠ R.WEIR_INT_STATUS → t.reg r = s.reg r) ∧
    (s.laneUsed n = true → k ≠ 6 ∨ scanning = true → exec (.readaptWrite n) s = .next (s.wr (R.LANEn_INT_STATUS_readapt_refused n) 1)) ∧
    (∀ (ctle : Byte) (taps : BitVec 24), (k = 7 → Completes (.readaptEnd n ctle taps) s fun t => t.laneState n = 6 ∧
        t.reg (R.LANEn_RXEQ n) = ctle ++ taps ∧ t.is (R.LANEn_INT_STATUS_readapt_done n) = true ∧ t.is (R.LANEn_STATUS_leave n) = false ∧
        (t.requester (9 + n)).grant = 0 ∧ kept t ∧
        ∀ r, r ∉ [R.LANEn_STATUS n, R.LANEn_RXEQ n, R.LANEn_INT_STATUS n] → t.reg r = s.reg r) ∧
      (k ≠ 7 → exec (.readaptEnd n ctle taps) s = .next s)) ∧
    -- clocks
    (s.elastic n = true → (∀ fill : Fin 33, Completes (.elasticBufferUnit n fill) s fun t =>
        t.rd ⟨R.LANEn_EB n, 0, 6⟩ = (if 20 < fill.val then fill.val - 1 else if fill.val < 12 then fill.val + 1 else fill.val) ∧
        kept t ∧ ∀ r, r ≠ R.LANEn_EB n → t.reg r = s.reg r) ∧
      (∀ full, ∃ u, exec (.elasticBufferRecentre n full) s = .next (u.report (74 + n) 5 1) ∧ u.rd ⟨R.LANEn_EB n, 0, 6⟩ = 16 ∧
        u.is (R.LANEn_INT_STATUS_eb_err n) = true ∧ u.rd (lowHalf (R.LANEn_COUNT n)) = min (s.rd (lowHalf (R.LANEn_COUNT n)) + 1) 65535 ∧ kept u)) ∧
    (s.elastic n = false → (∀ fill, exec (.elasticBufferUnit n fill) s = .next s) ∧ ∀ full, exec (.elasticBufferRecentre n full) s = .next s) ∧
    (∀ l : LinkIx, let a := 4 + 2 * l.val;
      (s.embeddedPair l = true → s.laneState a ≠ 6 → s.laneState a ≠ 7 → s.is (R.LANEn_STATUS_clk_fallback a) = false →
        Completes (.embeddedClockFallback l) s fun t => (∀ e ∈ [a, a + 1], t.is (R.LANEn_STATUS_clk_fallback e) = true ∧
          t.is (R.LANEn_INT_STATUS_clk_fallback e) = true ∧ t.laneState e = s.laneState e) ∧ kept t) ∧
      (s.laneState a = 6 → exec (.embeddedClockFallback l) s = .next s ∧ exec (.embeddedClockReturn l) s
        = .next ((s.wr (R.LANEn_STATUS_clk_fallback a) 0).wr (R.LANEn_STATUS_clk_fallback (a + 1)) 0)) ∧
      (s.laneState a ≠ 6 → exec (.embeddedClockReturn l) s = .next s)) ∧
    (∀ r : Fin 3, (s.refclk r = true → Completes (.refclkLost r) s fun t => t.refclk r = false ∧ SameMemory s t ∧ t.locks = s.locks ∧
        (refclkOf n = r.val → s.laneUsed n = true → k ≠ 0 → t.laneState n = 1 ∧ t.is (R.LANEn_INT_STATUS_refclk_lost n) = true)) ∧
      (s.refclk r = false → exec (.refclkLost r) s = .next s) ∧
      Completes (.refclkReturn r) s (fun t => t.refclk r = true ∧ kept t ∧ (∀ a, a ≠ R.LANE_REFCLK_STATUS → t.reg a = s.reg a) ∧
        (refclkOf n = r.val → ∀ e ∈ t.flt.records, e.source = 74 + n.val → e.code = 4 → e.cause = false))) ∧
    -- tests
    (s.laneUsed n = true → s.loopsMay n = false → ∀ mode : Fin 4, mode ≠ 0 → exec (.loopModeWrite n mode) s = .next (s.wr (i 10) 1)) ∧
    (s.laneUsed n = true → exec (.injectOnce n) s = .next (if s.testsMay then s.emit (.inverted n) else s.wr (i 10) 1)) ∧
    (s.laneUsed n = true → s.loopsMay n = true →
      (∀ mode : Fin 4, s.owned (R.LANEn_LOOP n) = 0 → s.rd ⟨R.LANEn_LOOP n, 0, 2⟩ ≠ mode.val → Completes (.loopModeWrite n mode) s fun t =>
        t.rd ⟨R.LANEn_LOOP n, 0, 2⟩ = mode ∧ (2 ≤ k → fell t 3 ∧ t.is (R.LANEn_STATUS_sig_det n) = true) ∧ (k < 2 → t.laneState n = k))) ∧
    (∀ v : Word, s.laneUsed n = true → s.owned (R.LANEn_PRBS_CTRL n) = 0 → Completes (.prbsCtrlWrite n v) s fun t =>
      t.rd (R.LANEn_PRBS_CTRL_chk_pat n) = getBits v 4 4 ∧ t.rd (R.LANEn_PRBS_CTRL_chk_inv n) = getBits v 9 1 ∧
      t.reg (R.LANEn_PRBS_ERR n) = 0 ∧ t.reg (R.LANEn_PRBS_STATUS n) = 0 ∧ t.wide (R.LANEn_PRBS_BITS_LO n) (R.LANEn_PRBS_BITS_HI n) = 0 ∧ kept t ∧
      (patternOn (getBits v 0 4) = true → s.loopsMay n = false → t.is (i 10) = true ∧ t.rd (R.LANEn_PRBS_CTRL_gen_pat n) = s.rd (R.LANEn_PRBS_CTRL_gen_pat n)) ∧
      (patternOn (getBits v 0 4) = false ∨ s.loopsMay n = true → t.rd (R.LANEn_PRBS_CTRL_gen_pat n) = getBits v 0 4)) ∧
    (∀ (lock : Bool) (bits errors : Nat), s.laneUsed n = true → s.rd (R.LANEn_PRBS_CTRL_chk_pat n) ∈ [1, 2, 3, 4, 5, 6] →
      Completes (.prbsCheckerLock n lock bits errors) s fun t => t.is ⟨R.LANEn_PRBS_STATUS n, 0, 1⟩ = lock ∧ kept t ∧
        (lock = true → t.is (R.LANEn_INT_STATUS_chk_lock n) = true) ∧
        (s.is ⟨R.LANEn_PRBS_STATUS n, 0, 1⟩ = true →
          (t.reg (R.LANEn_PRBS_ERR n)).toNat = min ((s.reg (R.LANEn_PRBS_ERR n)).toNat + errors) (2 ^ 32 - 1) ∧
          t.wide (R.LANEn_PRBS_BITS_LO n) (R.LANEn_PRBS_BITS_HI n) = (s.wide (R.LANEn_PRBS_BITS_LO n) (R.LANEn_PRBS_BITS_HI n) + bits) % 2 ^ 48) ∧
        (s.is ⟨R.LANEn_PRBS_STATUS n, 0, 1⟩ = false → t.reg (R.LANEn_PRBS_ERR n) = s.reg (R.LANEn_PRBS_ERR n))) ∧
    (∀ v : Word, s.laneUsed n = true → s.owned (R.LANEn_SCAN_CTRL n) = 0 → Completes (.scanStart n v) s fun t =>
      t.rd (R.LANEn_SCAN_CTRL_dwell n) = getBits v 24 5 ∧ t.rd (R.LANEn_SCAN_CTRL_volt n) = getBits v 16 8 ∧
      t.rd (R.LANEn_SCAN_CTRL_phase n) = getBits v 0 7 ∧ kept t ∧ t.laneState n = k ∧
      (s.testsMay = true → k = 6 → scanning = false → t.reg (R.LANEn_SCAN_STATUS n) = 1) ∧
      (s.testsMay = false ∨ k ≠ 6 ∨ scanning = true → t.is (i 10) = true ∧ t.reg (R.LANEn_SCAN_STATUS n) = s.reg (R.LANEn_SCAN_STATUS n))) ∧
    (∀ errors : Word, (scanning = true → exec (.scanDone n errors) s
        = .next (((s.setReg (R.LANEn_SCAN_ERR n) (BitVec.ofNat 32 (min errors.toNat (s.scanBits n)))).setReg (R.LANEn_SCAN_STATUS n) 2).wr (R.LANEn_INT_STATUS_scan_done n) 1)) ∧
      (scanning = false → exec (.scanDone n errors) s = .next s))

/-! ## Nerax links (14) -/

/-- Numbered frames are accepted in sequence and acknowledged; a bad CRC, a reserved type or a gap draws one nak until the replayed frame arrives,
and a bad timing frame counts as a missed one; held frames are replayed in order but for audio too old, and the eighth nak or timeout in a row takes
the link down; a whole barge within one tick of the awaited one enters its receive lock as a barge of the next tick with a credit, and another is a
tick mismatch or an overrun; a message goes out against a credit and arrives in a free slot (14 R361 to R367, R376; 02 R72).
Readings: log entries 73, 108, 118. Completes: neraxFrameReceive, neraxAckSend, neraxNakReplay, neraxAckTimeout, neraxBargeAssembled,
neraxMessageSend. -/
def Obligations.NeraxFrames : Prop :=
  ∀ (s : State) (k : LinkIx),
    let st := s.linkState k
    let l := s.link k
    -- reception
    (∀ f crc c, st < 2 → exec (.neraxFrameReceive k f crc c) s = .next s) ∧
    (∀ f c ok, 2 ≤ st → ok = false ∨ f.type = 0 ∨ 6 < f.type →
      let counted := s.bump (lowHalf (R.NRXk_COUNT0 k))
      (f.type ≠ 3 → exec (.neraxFrameReceive k f ok c) s
        = .next (if l.discarding then counted else counted.setLink k { l with owed := 2, discarding := true })) ∧
      (f.type = 3 → l.missed ≠ 3 → exec (.neraxFrameReceive k f ok c) s = .next (counted.setLink k { l with missed := l.missed + 1 })) ∧
      (f.type = 3 → l.missed = 3 → exec (.neraxFrameReceive k f ok c) s = exec (.leadTimingLoss k) (counted.setLink k { l with missed := 4 }))) ∧
    (∀ (f : NrxFrame) (c : Nat), 2 ≤ st → 1 ≤ f.type → f.type ≤ 6 → s.txLocks k = [] →
      let credited := min 16 (l.credits + c)
      (f.ackKind = 0 → numbered f.type = false → exec (.neraxFrameReceive k f true c) s = .next (s.setLink k { l with credits := credited })) ∧
      (∀ i, f.ackKind = 1 → numbered f.type = false → l.held.findIdx? (fun h => h.frame.seq = f.ack) = some i →
        exec (.neraxFrameReceive k f true c) s = .next (s.setLink k { l with credits := credited, held := l.held.drop (i + 1), fails := 0 })) ∧
      (f.ackKind = 2 → numbered f.type = false →
        exec (.neraxFrameReceive k f true c) s = exec (.neraxNakReplay k f.ack) (s.setLink k { l with credits := credited })) ∧
      (f.ackKind = 0 → numbered f.type = true → f.seq ≠ l.last + 1 → exec (.neraxFrameReceive k f true c) s
        = .next (s.setLink k (if l.discarding then { l with credits := credited }
          else { l with credits := credited, owed := 2, discarding := true }))) ∧
      (f.ackKind = 0 → f.seq = l.last + 1 →
        let took : Nerax := { l with credits := credited, last := f.seq, owed := 1, discarding := false }
        (f.type = 1 → st = 5 → exec (.neraxFrameReceive k f true c) s = .next (s.setLink k { took with
          parts := keepParts l.parts (f.body.toNat % 2 ^ 11) (f.body.toNat / 2 ^ 16 % 256) ++
            [⟨f.body.toNat % 2 ^ 11, f.body.toNat / 2 ^ 16 % 256, f.body.toNat / 2 ^ 11 % 32, f.payload⟩] })) ∧
        (f.type = 2 → st = 5 → f.body.toNat / 2 ^ 24 = 0 →
          let len := f.body.toNat % 2 ^ 16
          let got := l.message ++ f.payload.take (len - l.message.length)
          exec (.neraxFrameReceive k f true c) s = .next (s.setLink k
            (if got.length < len then { took with message := got }
             else { took with message := [], slots := if l.slots.length < 16 then l.slots ++ [got] else l.slots }))) ∧
        (f.type = 4 ∨ f.type = 5 → exec (.neraxFrameReceive k f true c) s = .next (s.setLink k took)))) ∧
    -- acknowledgement and replay
    (l.owed = 0 → exec (.neraxAckSend k) s = .next s) ∧
    (l.owed ≠ 0 → exec (.neraxAckSend k) s = .next ((s.setLink k { l with owed := 0 }).emit (.nerax k
      { type := 6, seq := 0, ack := l.last, ackKind := if l.owed = 2 then 2 else 1, body := 0, payload := List.replicate 256 0 }))) ∧
    (st = 3 ∨ st = 4 ∨ st = 5 →
      let resent (t : State) (held : List Held) (fails : Nat) : Prop :=
        let again := held.filter fun h => !s.tooOld h
        t.outbox = s.outbox ++ (again.map fun h => .nerax k (l.withAck h.frame)) ∧
        t.link k = { l with held := held, fails := fails, owed := if again.isEmpty then l.owed else 0 } ∧ t.is (R.NRXk_INT_STATUS_replay k) = true ∧
        t.locks = s.locks ∧ SameMemory s t ∧
        ∀ r, r ∉ [R.NRXk_COUNT0 k, R.NRXk_COUNT1 k, R.NRXk_INT_STATUS k] → t.reg r = s.reg r
      let fell (t : State) : Prop := t.locks = s.locks ∧ SameMemory s t ∧
        t.linkState k = if s.laneState (4 + 2 * k) = 6 ∧ s.laneState (5 + 2 * k) = 6 then 2 else 1
      (∀ (q : BitVec 12) i, l.held.findIdx? (fun h => h.frame.seq = q) = some i →
        Completes (.neraxNakReplay k q) s (resent · (l.held.drop (i + 1)) 1)) ∧
      (∀ q : BitVec 12, l.held.findIdx? (fun h => h.frame.seq = q) = none →
        (l.fails < 7 → Completes (.neraxNakReplay k q) s (resent · l.held (l.fails + 1))) ∧
        (7 ≤ l.fails → Completes (.neraxNakReplay k q) s fell)) ∧
      (l.held ≠ [] → (l.fails < 7 → Completes (.neraxAckTimeout k) s (resent · l.held (l.fails + 1))) ∧
        (7 ≤ l.fails → Completes (.neraxAckTimeout k) s fell))) ∧
    (l.held = [] → exec (.neraxAckTimeout k) s = .next s) ∧
    -- barges
    (∀ (g : BitVec 11) (tag : BitVec 8) (lock tick : Nat) (q : Lock), s.groupLock k g.toNat = some lock → s.lock lock = some q →
      0 < s.bargeWords q →
      let x := q.spec.domain
      let mine (p : BargePart) : Bool := p.group = g.toNat && p.tag = tag.toNat
      let need := ceilDiv (3 * s.bargeWords q) 256
      let mirrored := s.mirrorLocks.contains lock
      let whole := (List.range need).all fun i => l.parts.any fun p => mine p && p.part = i
      let rest := l.parts.filter fun p => !mine p
      let bytes : List Byte := (List.range need).flatMap fun i => ((l.parts.find? fun p => mine p && p.part = i).map (·.bytes)).getD []
      (whole = false → exec (.neraxBargeAssembled k g tag) s = .next s) ∧
      (whole = true → 1 ≤ s.tick x → tag.toNat = tick % 256 → s.tick x ≤ tick + 2 → tick ≤ s.tick x →
        let entered := if mirrored then tick else tick + 1
        let words := (List.range (s.bargeWords q)).map fun i =>
          (bytes.getD (3 * i) 0 ++ bytes.getD (3 * i + 1) 0 ++ bytes.getD (3 * i + 2) 0 : Sample)
        (s.audioOn k x (s.tick x) = true ∨ mirrored = true →
          (0 < q.credit → Completes (.neraxBargeAssembled k g tag) s fun t =>
            t.lock lock = some { q with credit := q.credit - 1, flight := q.flight ++ [⟨entered, words⟩] } ∧
            Tab.get (fun _ => none) t.lastGood lock = some ⟨entered + 1, words.drop (words.length - q.spec.channels.length)⟩ ∧
            (t.link k).parts = rest ∧ t.regs = s.regs ∧ SameMemory s t ∧ ∀ n, n ≠ lock → t.lock n = s.lock n) ∧
          (q.credit = 0 → ∃ u, exec (.neraxBargeAssembled k g tag) s = .next (u.report (86 + k) 7 2) ∧
            u.is (R.NRXk_INT_STATUS_tick_mm k) = true ∧ u.locks = s.locks ∧ SameMemory s u ∧
            u.rd (lowHalf (R.NRXk_COUNT1 k)) = min (s.rd (lowHalf (R.NRXk_COUNT1 k)) + 1) 65535)) ∧
        (s.audioOn k x (s.tick x) = false → mirrored = false →
          exec (.neraxBargeAssembled k g tag) s = .next (s.setLink k { l with parts := rest }))) ∧
      (whole = true → 2 ≤ (((tag.toNat : Int) - (s.tick x - 1 : Nat) + 128) % 256 - 128).natAbs →
        ∃ u, exec (.neraxBargeAssembled k g tag) s = .next (u.report (86 + k) 7 2) ∧ u.is (R.NRXk_INT_STATUS_tick_mm k) = true ∧
          u.locks = s.locks ∧ SameMemory s u)) ∧
    -- messages
    (∀ m, l.head = some m →
      let n := ceilDiv m.length 256
      (st = 5 → 0 < l.credits → l.held.length + n ≤ 64 → s.msgShare k n = true → Completes (.neraxMessageSend k) s fun t =>
        (t.link k).head = none ∧ (t.link k).credits = l.credits - 1 ∧ (t.link k).held.length = l.held.length + n ∧
        (t.link k).seq = l.seq + BitVec.ofNat 12 n ∧ t.outbox.length = s.outbox.length + n ∧ s.outbox <+: t.outbox ∧
        t.regs = s.regs ∧ t.locks = s.locks ∧ SameMemory s t) ∧
      (st ≠ 5 ∨ l.credits = 0 ∨ 64 < l.held.length + n ∨ s.msgShare k n = false → exec (.neraxMessageSend k) s = .next s)) ∧
    (l.head = none → exec (.neraxMessageSend k) s = .next s)

/-- A link climbs by alignment (which sends its own identity), an accepted identity and 16 delays, and falls by a timeout, a refused identity or a
fault, which conceals its sources and empties its record; audio of a domain starts at its first boundary 1 µs after the entry into up, and a delay
over its bound stops it; timing frames carry and take lead timing, and its loss disqualifies LEAD (14 R365, R368 to R377).
Readings: log entries 52, 72, 118. Completes: neraxAligned, identityFrame, neraxLinkUp, neraxStateTimeout, neraxLinkDown, timingFrameSend,
timingFrameReceive, leadTimingLoss. -/
def Obligations.NeraxStatesAndTiming : Prop :=
  ∀ (s : State) (k : LinkIx),
    let st := s.linkState k
    let l := s.link k
    let kept (t : State) : Prop := SameMemory s t ∧ t.locks = s.locks ∧ t.doms = s.doms
    let own := s.wide R.CFG_IMAGE_ID_LO R.CFG_IMAGE_ID_HI
    let lanes := if s.laneState (4 + 2 * k) = 6 ∧ s.laneState (5 + 2 * k) = 6 then 2 else 1
    (st = 2 → Completes (.neraxAligned k) s fun t => t.linkState k = 3 ∧ OnlyRegs [R.NRXk_STATUS k] s
        { t with outbox := s.outbox, links := s.links } ∧
      ∃ f : NrxFrame, t.outbox = s.outbox ++ [.nerax k f] ∧ f.type = 4 ∧ f.seq = l.seq ∧ f.ack = l.last ∧
        f.payload = Config.identityBytes (s.rd ⟨R.NRX_ID, 0, 3⟩) (BitVec.ofNat 64 (if s.is R.CFG_STATUS_loaded then own else 0))
          [s.holds 6, s.holds 7, s.holds 1 || s.holds 2, s.is R.FOV_CTRL_side] ∧
        (t.link k).seq = l.seq + 1 ∧ (t.link k).held = l.held ++ [⟨f, 0, none, true⟩]) ∧
    (st ≠ 2 → exec (.neraxAligned k) s = .next s) ∧
    (∀ id : Identity, st = 3 ∨ st = 5 →
      let peer (t : State) : Prop := t.wide (R.NRXk_PEER_ID_LO k) (R.NRXk_PEER_ID_HI k) = id.buildId.toNat ∧
        t.rd (R.NRXk_STATUS_peer_devid k) = id.devid.val ∧ t.is (R.NRXk_STATUS_peer_lead k) = id.lead ∧
        t.is (R.NRXk_STATUS_peer_member k) = id.member ∧ kept t
      (st = 3 → s.acceptsIdentity k id = true → Completes (.identityFrame k id) s fun t =>
        peer t ∧ t.linkState k = 4 ∧ t.link k = { l with delays := [] } ∧
        ∀ r, r ∉ [R.NRXk_PEER_ID_LO k, R.NRXk_PEER_ID_HI k, R.NRXk_STATUS k] → t.reg r = s.reg r) ∧
      (st = 3 → s.acceptsIdentity k id = false → ∃ u, exec (.identityFrame k id) s = .next (u.report (86 + k) 4 2) ∧ peer u ∧
        u.linkState k = 6 ∧ u.is (R.NRXk_INT_STATUS_id_refused k) = true) ∧
      (st = 5 → Completes (.identityFrame k id) s fun t => peer t ∧ t.linkState k = 5 ∧
        let same := id.buildId.toNat = own ∨ (id.buildId = 0 ∧ s.holds 6 = true)
        t.link k = { l with differs := if same then none else some (l.differs.getD s.now) })) ∧
    (∀ id : Identity, s.is R.CFG_STATUS_loaded = true → (s.acceptsIdentity k id = true ↔
      if s.isMirror k then id.buildId.toNat = own ∧ id.inPair = true ∧ id.side ≠ s.is R.FOV_CTRL_side
      else id.devid.val = s.rd (R.NRXk_CFG_peer k) ∧ id.devid.val ≠ s.rd ⟨R.NRX_ID, 0, 3⟩ ∧ (id.lead = true → s.holds 6 = false) ∧
        (id.buildId.toNat = own ∨ (s.holds 6 = true ∧ id.buildId = 0)))) ∧
    (∀ id, st ≠ 3 → st ≠ 5 → exec (.identityFrame k id) s = .next s) ∧
    (st = 4 → 16 ≤ l.delays.length → Completes (.neraxLinkUp k) s fun t =>
      t.linkState k = 5 ∧ t.is (R.NRXk_INT_STATUS_link_up k) = true ∧ kept t ∧ (t.link k).start = [] ∧ (t.link k).stop = [] ∧
      (t.link k).upSince = s.now ∧
      (∀ e ∈ t.flt.records, e.source = 86 + k.val → e.code = 1 ∨ e.code = 4 → e.cause = false) ∧
      ∀ r, r ∉ [R.NRXk_STATUS k, R.NRXk_INT_STATUS k] → t.reg r = s.reg r) ∧
    (st ≠ 4 ∨ l.delays.length < 16 → exec (.neraxLinkUp k) s = .next s) ∧
    (∀ x : DomIx, ((s.audioBoundary x).link k).start
      = if st = 5 ∧ (∀ e ∈ l.start, e.1 ≠ x.val) ∧ l.upSince + 250 ≤ s.now then (x.val, s.tick x) :: l.start else l.start) ∧
    (2 ≤ st → st ≤ 4 → Completes (.neraxStateTimeout k) s fun t => t.linkState k = lanes ∧
      t.is (R.NRXk_INT_STATUS_bringup_fail k) = true ∧ t.rd (lowHalf (R.NRXk_COUNT2 k)) = min (s.rd (lowHalf (R.NRXk_COUNT2 k)) + 1) 65535 ∧
      OnlyRegs [R.NRXk_STATUS k, R.NRXk_COUNT2 k, R.NRXk_INT_STATUS k] s t) ∧
    (st < 2 ∨ 4 < st → exec (.neraxStateTimeout k) s = .next s) ∧
    (2 ≤ st → Completes (.neraxLinkDown k) s fun t => t.linkState k = lanes ∧ t.link k = { head := l.head, slots := l.slots } ∧ kept t ∧
      t.rd (highHalf (R.NRXk_COUNT2 k)) = min (s.rd (highHalf (R.NRXk_COUNT2 k)) +
        (l.held.filter fun h => h.ends && h.frame.type == 2).length) 65535 ∧ t.is (R.NRXk_STATUS_timing_valid k) = false ∧
      (st = 5 → t.is (R.NRXk_INT_STATUS_link_down k) = true ∧
        t.rd (highHalf (R.NRXk_COUNT1 k)) = min (s.rd (highHalf (R.NRXk_COUNT1 k)) + 1) 65535 ∧
        ∀ n ∈ s.rxLocks k, Tab.get (fun _ => none) t.conceal n = Tab.get (fun _ => none) s.lastGood n)) ∧
    (st < 2 → exec (.neraxLinkDown k) s = .next s) ∧
    -- delays and lead timing
    (∀ (w : Stamps) (lease : Option LeaseRecord),
      let d := s.delayOf k w
      let ds := (d :: l.delays).take 16
      let measured := s.setReg (R.NRXk_DELAY k) (BitVec.ofInt 32 (ds.sum / ds.length))
      let noted := measured.setLink k { l with missed := 0, delays := ds }
      let bound : Int := (s.reg (R.NRXk_DELAY_MAX k)).toNat
      (st < 4 ∨ st = 6 → ∀ lead, exec (.timingFrameReceive k w lead lease) s = .next s) ∧
      (st = 4 → s.isMirror k = false → exec (.timingFrameReceive k w none lease) s = .next noted) ∧
      (st = 4 → s.isMirror k = true → exec (.timingFrameReceive k w none lease) s
        = .next (match lease with | some r => noted.takeLeaseRecord r | none => noted)) ∧
      (st = 5 → s.isMirror k = false → d ≤ bound → l.late = false → exec (.timingFrameReceive k w none lease) s
        = .next (measured.setLink k { l with missed := 0, delays := ds, within := l.within + 1 })) ∧
      (st = 5 → s.isMirror k = false → bound < d → l.late = false → ∃ u, exec (.timingFrameReceive k w none lease) s
        = .next (u.report (86 + k) 5 2) ∧ u.is (R.NRXk_INT_STATUS_delay_over k) = true ∧ (u.link k).late = true ∧ kept u ∧
          (∀ x : DomIx, (s.dom x).b ≠ 0 → (x.val, s.tick x + 1) ∈ (u.link k).stop) ∧
          ∀ n ∈ s.rxLocks k, Tab.get (fun _ => none) u.conceal n = Tab.get (fun _ => none) s.lastGood n) ∧
      (∀ lead : LeadTiming, st = 4 → s.isMirror k = false → s.isUpstream k = true → lead.hop.val ≤ 2 → s.holds 6 = false →
        Completes (.timingFrameReceive k w (some lead) lease) s fun t =>
          t.is (R.NRXk_STATUS_timing_valid k) = true ∧ t.rd (R.NRXk_STATUS_hop k) = lead.hop.val ∧ t.link k = noted.link k ∧
          SameMemory s t ∧ t.locks = s.locks ∧
          ∀ g : LeadDomain, lead.domains = [g] →
            (s.rd (R.CLK_DOMx_CFG_rate g.domain) = g.rate → (s.dom g.domain).b = g.b → (t.dpll g.domain).leadAbsent = false ∧
              (t.dpll g.domain).leadOffset = ((s.dom g.domain).sample.toNat : Int) - (measured.reportedSample k g : Int)) ∧
            (s.rd (R.CLK_DOMx_CFG_rate g.domain) ≠ g.rate ∨ (s.dom g.domain).b ≠ g.b →
              (t.dpll g.domain).leadAbsent = true ∧ t.is (R.NRXk_INT_STATUS_rate_mm k) = true)) ∧
      (∀ lead : LeadTiming, st = 4 → s.isMirror k = false → (s.isUpstream k = false ∨ 2 < lead.hop.val ∨ s.holds 6 = true) →
        exec (.timingFrameReceive k w (some lead) lease) s = .next (if s.is (R.NRXk_INT_STATUS_timing_conflict k) then noted
          else (noted.wr (R.NRXk_INT_STATUS_timing_conflict k) 1).report (86 + k) 6 1))) ∧
    (s.is (R.NRXk_STATUS_timing_valid k) = false ∨ s.isUpstream k = false →
      exec (.leadTimingLoss k) s = .next (s.wr (R.NRXk_STATUS_timing_valid k) 0)) ∧
    (s.is (R.NRXk_STATUS_timing_valid k) = true → s.isUpstream k = true → 2 ≤ s.candState 8 → Completes (.leadTimingLoss k) s fun t =>
      t.candState 8 = 1 ∧ (s.candState 8 = 3 → t.rd (R.CLK_CANDc_STATUS_reason 8) = 6) ∧ kept t) ∧
    (st ≠ 4 → st ≠ 5 → exec (.timingFrameSend k) s = .next s) ∧
    (st = 4 ∨ st = 5 → ∃ o, exec (.timingFrameSend k) s = .next ({ s with freeCount := s.freeCount + 1 }.emit (.timing k o)) ∧
      let reports (hop : Nat) : Prop := ∃ lead : LeadTiming, o = some lead ∧ lead.hop.val = hop ∧
        ∀ x : DomIx, s.started x = true → ∃ g ∈ lead.domains, g.domain = x ∧ g.rate = s.rd (R.CLK_DOMx_CFG_rate x) ∧ g.b = (s.dom x).b ∧
          g.sample = (s.dom x).sample.toNat ∧
          g.state.val = match s.domState (s.leader x 3) with | 3 => 0 | 4 => 1 | 5 => 2 | _ => 3
      (s.holds 6 = true ∨ s.isMirror k = true → reports 0) ∧
      (s.holds 6 = false → s.isMirror k = false →
        ((∀ v : LinkIx, s.isUpstream v = true → s.is (R.NRXk_STATUS_timing_valid v) = false) → o = none) ∧
        ∀ u : LinkIx, s.isUpstream u = true → s.is (R.NRXk_STATUS_timing_valid u) = true → (∀ v : LinkIx, s.isUpstream v = true → v = u) →
          (u = k → o = none) ∧ (u ≠ k → reports (s.rd (R.NRXk_STATUS_hop u) + 1))))

/-! ## Fail-over (15) -/

/-- The keeper renews and is armed by echoes; a standby answers renewals, takes over when its wait ends or at once (which is counted), and a claim
is refused while renewals arrive; the keeper fences itself when echoes have stopped for half the expiry and yields to a second keeper on side 0;
departures and PEER_ALIVE decide sole; a path silent for the expiry is reported; a planned handover is refused, cancelled, or changes the roles at
its boundary (15 R384 to R394, R399; 03 R101).
Readings: log entries 82, 85. Completes: leaseRenewal, leaseRenewalReceived, leaseEchoReceived, foreignLeaseEdge, departPattern, departReceived,
peerAliveLow, peerAliveHigh, keeperFenceTimeout, leaseTake, secondKeeperFound, claim, pathLost, armingTimeExpiry, yieldRequest, yieldCancel,
yieldHandover. -/
def Obligations.FailOverRoles : Prop :=
  ∀ (s : State) (p : LeasePath) (r : LeaseRecord),
    let st := s.fovState
    let f := s.fov
    let ok (p : LeasePath) : FieldAt := match p with | .balls => R.FOV_STATUS_ball_ok | .mirrorLink => R.FOV_STATUS_link_ok
    let other (p : LeasePath) : FieldAt := match p with | .balls => R.FOV_STATUS_link_ok | .mirrorLink => R.FOV_STATUS_ball_ok
    let now := (s.dom s.takeDom).sample.toNat
    let kept (t : State) : Prop := SameMemory s t ∧ t.locks = s.locks ∧ t.doms = s.doms ∧ t.held = s.held
    let asks (t : State) (keeper : Bool) : Prop := t.is (bitAt R.CFG_MODE_HWREQ 1) = keeper ∧ t.is (bitAt R.CFG_MODE_HWREQ 2) = !keeper ∧
      t.is R.FOV_STATUS_armed = false ∧ t.wide R.FOV_SWITCH_LO R.FOV_SWITCH_HI = now
    let seen (p : LeasePath) : Option Nat := match p with | .balls => f.ballAt | .mirrorLink => f.linkAt
    let keeper (takes : Nat) (t : State) : Prop := t.fovState = 3 ∧ t.is R.FOV_INT_STATUS_took = true ∧ asks t true ∧
      t.rd (lowHalf R.FOV_COUNT0) = min (s.rd (lowHalf R.FOV_COUNT0) + takes) 65535 ∧ kept t
    let stopped (t : State) (next : Nat) : Prop := t.fovState = next ∧ t.is R.FOV_INT_STATUS_gave = true ∧ asks t false ∧ kept t ∧
      (s.holds 0 = false → t.fenced = true)
    (st = 3 → s.forced3 = false → s.halted = false → Completes .leaseRenewal s fun t =>
      let n := (f.number + 1) % 2 ^ 16
      t.fov = { f with number := n, renewedAt := some s.now, leaseOut := if f.departed then f.leaseOut else !f.leaseOut } ∧
      t.outbox = s.outbox ++ (if f.departed then [] else [.leaseOut (!f.leaseOut)]) ++ (if s.mirrorUp then [.lease 1 n 0 s.sync] else []) ∧
      t.regs = s.regs ∧ kept t) ∧
    (st ≠ 3 ∨ s.forced3 = true ∨ s.halted = true → exec .leaseRenewal s = .next s) ∧
    (st = 1 ∨ st = 2 ∨ st = 4 → f.departed = false → s.halted = false → Completes (.leaseRenewalReceived p r) s fun t =>
      let echo : List Emission := match p with
        | .balls => [.leaseOut (!f.leaseOut)]
        | .mirrorLink => if s.mirrorUp then [.lease 2 r.number.toNat 0 s.sync] else []
      t.fovState = 2 ∧ t.fov.seenAt = some s.now ∧ t.is (ok p) = true ∧ t.fov.peerDeparted = false ∧ kept t ∧
      s.outbox ++ echo <+: t.outbox ∧ (st ≠ 4 → t.outbox = s.outbox ++ echo)) ∧
    (st ≠ 3 → st = 0 ∨ f.departed = true ∨ s.halted = true → exec (.leaseRenewalReceived p r) s = .next s) ∧
    (st = 3 → exec (.leaseRenewalReceived p r) s = match p with
      | .balls => .next (s.bump (highHalf R.FOV_COUNT1))
      | .mirrorLink => exec .secondKeeperFound s) ∧
    (st = 3 → (p = .balls → ∃ a, f.renewedAt = some a ∧ s.now ≤ a + 500) → Completes (.leaseEchoReceived p r) s fun t =>
      t.is R.FOV_STATUS_armed = true ∧ t.is (ok p) = true ∧ t.fov.echoAt = s.now ∧ t.fovState = 3 ∧ kept t ∧
      (p = .mirrorLink → t.sync = r.sync.val)) ∧
    (st = 3 → f.renewedAt = none ∨ (∃ a, f.renewedAt = some a ∧ a + 500 < s.now) →
      exec (.leaseEchoReceived .balls r) s = .next (s.bump (highHalf R.FOV_COUNT1))) ∧
    (st = 3 → exec .foreignLeaseEdge s = .next (s.bump (highHalf R.FOV_COUNT1))) ∧
    (st ≠ 3 → exec .foreignLeaseEdge s = .next s ∧ exec (.leaseEchoReceived p r) s = .next s) ∧
    -- departure and presence
    (f.departing = true → Completes .departPattern s fun t =>
      t.fov = { f with departing := false, departed := true, leaseOut := false } ∧ t.regs = s.regs ∧ kept t ∧
      t.outbox = s.outbox ++ [.depart] ++ (if s.mirrorUp then [.lease 4 f.number 0 s.sync] else [])) ∧
    (f.departing = false → exec .departPattern s = .next s) ∧
    (st ≠ 0 → Completes .departReceived s fun t => t.is R.FOV_STATUS_sole = true ∧ t.fov.peerDeparted = true ∧ t.fovState = st ∧ kept t ∧
      (s.is R.FOV_STATUS_sole = false → t.is R.FOV_INT_STATUS_peer_gone = true)) ∧
    (st = 0 → exec .departReceived s = .next s) ∧
    (s.is R.FOV_CFG_fast_take = false ∨ s.halted = true ∨ (st ≠ 1 ∧ st ≠ 2) → Completes .peerAliveLow s fun t =>
      t.is R.FOV_STATUS_peer_alive = false ∧ t.fovState = st ∧ kept t ∧ (st ≠ 0 → t.is R.FOV_STATUS_sole = true)) ∧
    (s.is R.FOV_CFG_fast_take = true → st = 1 ∨ st = 2 → s.halted = false → Completes .peerAliveLow s fun t =>
      keeper 1 t ∧ t.is R.FOV_STATUS_peer_alive = false ∧ t.is R.FOV_STATUS_sole = true) ∧
    Completes .peerAliveHigh s (fun t => t.is R.FOV_STATUS_peer_alive = true ∧ t.fovState = st ∧ kept t ∧
      (st ≠ 0 → s.is R.FOV_STATUS_sole = true → f.peerDeparted = false → t.is R.FOV_STATUS_sole = false ∧
        t.is R.FOV_STATUS_armed = false ∧ t.is R.FOV_INT_STATUS_peer_back = true ∧ t.fov.soleEnded = some s.now)) ∧
    -- the fence and the roles
    (st = 3 → s.is R.FOV_STATUS_armed = true → s.is R.FOV_STATUS_sole = false → f.echoAt + s.leaseExpiry / 2 ≤ s.now →
      ∃ u, exec .keeperFenceTimeout s = .next (u.report 17 2 2) ∧
      stopped u 4 ∧ u.is R.FOV_INT_STATUS_isolated = true ∧ u.is R.FOV_INT_STATUS_fenced_self = true) ∧
    (st ≠ 3 ∨ s.is R.FOV_STATUS_armed = false ∨ s.is R.FOV_STATUS_sole = true ∨ s.now < f.echoAt + s.leaseExpiry / 2 →
      exec .keeperFenceTimeout s = .next s) ∧
    (∀ a, f.seenAt = some a → (s.waitOver = true ↔ max a f.entryAt + s.leaseExpiry ≤ s.now)) ∧
    (f.seenAt = none → (s.waitOver = true ↔
      f.entryAt + s.armingTime + (if s.is R.FOV_CTRL_side then 2 else 1) * s.leaseExpiry ≤ s.now)) ∧
    (st = 1 ∨ st = 2 → s.halted = false → s.waitOver = true →
      (f.seenAt.isSome ∨ s.mirrorUp = true ∨ s.is R.FOV_STATUS_peer_alive = false) → Completes .leaseTake s (keeper 1)) ∧
    (st = 0 ∨ 3 ≤ st ∨ s.halted = true ∨ s.waitOver = false ∨
      (f.seenAt = none ∧ s.mirrorUp = false ∧ s.is R.FOV_STATUS_peer_alive = true) → exec .leaseTake s = .next s) ∧
    (st = 3 → s.is R.FOV_CTRL_side = true → ∃ u, exec .secondKeeperFound s = .next (u.report 17 4 2) ∧ stopped u 2 ∧
      u.is R.FOV_INT_STATUS_conflict = true) ∧
    (st = 3 → s.is R.FOV_CTRL_side = false → exec .secondKeeperFound s = .next ((s.wr R.FOV_INT_STATUS_conflict 1).report 17 4 2)) ∧
    (st ≠ 3 → exec .secondKeeperFound s = .next s) ∧
    (st ≠ 0 → st ≠ 3 → s.halted = false → (∀ a, f.seenAt = some a → a + s.leaseExpiry ≤ s.now) → Completes .claim s (keeper 0)) ∧
    (st = 0 ∨ st = 3 ∨ s.halted = true ∨ (∃ a, f.seenAt = some a ∧ s.now < a + s.leaseExpiry) → exec .claim s = .next s) ∧
    (s.is (ok p) = true → (∀ a, seen p = some a → a + s.leaseExpiry ≤ s.now) → exec (.pathLost p) s = .next (if s.is (other p) then
      ((s.wr (ok p) 0).wr R.FOV_INT_STATUS_path_lost 1).report 17 5 1 else s.wr (ok p) 0)) ∧
    (s.is (ok p) = false ∨ (∃ a, seen p = some a ∧ s.now < a + s.leaseExpiry) → exec (.pathLost p) s = .next s) ∧
    (∀ a, st = 3 → f.soleEnded = some a → a + s.armingTime ≤ s.now → s.is R.FOV_STATUS_sole = false → exec .armingTimeExpiry s
      = .next ((s.setFov { f with soleEnded := none }).wr R.FOV_STATUS_armed 1)) ∧
    (st ≠ 3 ∨ f.soleEnded = none ∨ s.is R.FOV_STATUS_sole = true ∨ (∃ a, f.soleEnded = some a ∧ s.now < a + s.armingTime) → exec .armingTimeExpiry s = .next s) ∧
    -- handover
    (st = 3 → (s.dom s.takeDom).b ≠ 0 →
      let at_ := s.yieldBoundary
      let asked := s.wide R.FOV_YIELD_AT_LO R.FOV_YIELD_AT_HI
      let early := at_ * 1000 < now * 1000 + s.fs s.takeDom
      let able := s.sync = 3 ∧ s.is R.FOV_STATUS_ball_ok = true ∧ s.is R.FOV_STATUS_link_ok = true
      at_ % (s.dom s.takeDom).b = 0 ∧ asked ≤ at_ ∧ at_ < asked + (s.dom s.takeDom).b ∧
      (able → ¬early → exec .yieldRequest s
        = .next ((s.setFov { f with yieldAt := some at_, yieldEchoed := false }).sendLease 3 f.number at_)) ∧
      (¬able ∨ early → exec .yieldRequest s = .next (s.wr R.FOV_INT_STATUS_yield_refused 1))) ∧
    (st ≠ 3 → exec .yieldRequest s = .next s ∧ exec .yieldCancel s = .next s) ∧
    (∀ a, st = 3 → f.yieldAt = some a → a * 10000 ≤ now * 10000 + s.fs s.takeDom → f.yieldEchoed = false → exec .yieldCancel s
      = .next ((s.setFov { f with yieldAt := none }).wr R.FOV_INT_STATUS_yield_refused 1)) ∧
    (f.yieldEchoed = true ∨ f.yieldAt = none ∨ (∃ a, f.yieldAt = some a ∧ now * 10000 + s.fs s.takeDom < a * 10000) →
      exec .yieldCancel s = .next s) ∧
    ((st ≠ 2 ∧ st ≠ 3) ∨ (st = 3 ∧ f.yieldEchoed = false) → exec .yieldHandover s = .next s) ∧
    ((s.atBoundary s.takeDom = false ∨ f.yieldAt = none ∨ ∃ a, f.yieldAt = some a ∧ now < a) → exec .yieldHandover s = .next s) ∧
    (∀ a, s.atBoundary s.takeDom = true → f.yieldAt = some a → a ≤ now →
      let role (v : BitVec 12) : BitVec 12 := (s.held &&& 0xFF9) ||| v
      (st = 3 → f.yieldEchoed = true → s.quietChange (role 4) s.cfg.overlays → Completes .yieldHandover s fun t =>
        t.fovState = 2 ∧ t.held = role 4 ∧ t.is R.FOV_INT_STATUS_gave = true ∧ asks t false ∧ SameMemory s t ∧
        t.rd (highHalf R.FOV_COUNT0) = min (s.rd (highHalf R.FOV_COUNT0) + 1) 65535) ∧
      (st = 2 → s.quietChange (role 2) s.cfg.overlays → Completes .yieldHandover s fun t =>
        t.fovState = 3 ∧ t.held = role 2 ∧ t.is R.FOV_INT_STATUS_took = true ∧ asks t true ∧ SameMemory s t ∧
        t.rd (highHalf R.FOV_COUNT0) = min (s.rd (highHalf R.FOV_COUNT0) + 1) 65535))

/-- A mirror record waits for its boundary and is applied there, or is applied at once with mirror_late and loss of sync; each tick's CRCs raise
or clear sync; and a resynchronisation starts, copies by leave of the weir, compares and ends or aborts (15 R397, R398, R401).
Readings: log entries 81, 83. Completes: mirrorRecord, mirrorCrcCompare, resyncStart, resyncCopyEnd, resyncCompareEnd, resyncAbort. -/
def Obligations.FailOverMirroring : Prop :=
  ∀ (s : State),
    let st := s.fovState
    let f := s.fov
    let now := (s.dom s.takeDom).sample.toNat
    let kept (t : State) : Prop := SameMemory s t ∧ t.locks = s.locks ∧ t.doms = s.doms
    let lost (t : State) : Prop := t.is R.FOV_INT_STATUS_sync_lost = true ∧ t.fov.matching = 0 ∧ kept t
    let loses (c : Instr) (counted : Nat) : Prop :=
      (s.is R.FOV_CTRL_auto_resync = false → ∃ u, exec c s = .next (u.report 17 10 1) ∧ lost u ∧ u.sync = 0 ∧
        u.rd (lowHalf R.FOV_COUNT1) = min (s.rd (lowHalf R.FOV_COUNT1) + counted) 65535) ∧
      (s.is R.FOV_CTRL_auto_resync = true → Completes c s fun t => lost t ∧ t.sync = 1 ∧
        t.rd (lowHalf R.FOV_COUNT1) = min (s.rd (lowHalf R.FOV_COUNT1) + counted) 65535)
    (∀ at_ item, s.mirrored = false → exec (.mirrorRecord at_ item) s = .next s) ∧
    (s.mirrored = true →
      (∀ (at_ : BitVec 64) item, now < at_.toNat → exec (.mirrorRecord (some at_) item) s
        = .next (s.setFov { f with waiting := f.waiting ++ [(at_.toNat, item)] })) ∧
      (∀ (t : Nat) (n : EngIx) (i : Fin 8) (v : BitVec 56), f.waiting = [(t, .engineReg n 0 i v)] → s.applyWaiting
        = if t ≤ now then (s.setFov { f with waiting := [] }).setEng n ((s.eng n).withD i (v.setWidth 24)) else s) ∧
      (∀ (node : Nat) (start : Int) (g0 g1 : Sample) (len : Nat), Completes (.mirrorRecord none (.ramp node start g0 g1 len)) s fun u =>
        u.basin.now.ramps = (s.basin.now.ramps.filter fun r => r.node ≠ node) ++ [⟨node, start, g0.toInt, g1.toInt, len, false⟩] ∧
        (∀ a, a ≠ R.MTX_STATUS → u.reg a = s.reg a) ∧ kept u) ∧
      (∀ (n : EngIx) (i : Fin 8) (v : BitVec 56),
        exec (.mirrorRecord none (.engineReg n 0 i v)) s = .next (s.setEng n ((s.eng n).withD i (v.setWidth 24))) ∧
        exec (.mirrorRecord none (.engineReg n 2 i v)) s = .next (s.setEng n ((s.eng n).withP i (v.setWidth 14))) ∧
        (∀ at_ : BitVec 64, at_.toNat ≤ now → s.sync = 0 → exec (.mirrorRecord (some at_) (.engineReg n 0 i v)) s
          = .next ((s.setEng n ((s.eng n).withD i (v.setWidth 24))).wr R.FOV_INT_STATUS_mirror_late 1)) ∧
        (∀ at_ : BitVec 64, at_.toNat ≤ now → s.sync ≠ 0 → s.is R.FOV_CTRL_auto_resync = false →
          ∃ u, exec (.mirrorRecord (some at_) (.engineReg n 0 i v)) s = .next (u.report 17 10 1) ∧ lost u ∧ u.sync = 0 ∧
            u.is R.FOV_INT_STATUS_mirror_late = true ∧ u.eng n = (s.eng n).withD i (v.setWidth 24))) ∧
      (∀ (n : Fin 256) (q : BitVec 16), exec (.mirrorRecord none (.streamSeq n q)) s = .next (s.setTx n { s.tx n with seq := q.toNat })) ∧
      (∀ (l t : Nat) (ws : List Sample), Completes (.mirrorRecord none (.delayed l t ws)) s fun u =>
        (l, ⟨t, ws⟩) ∈ u.router.kept ∧ (∀ e ∈ s.router.kept, e.1 ≠ l → e ∈ u.router.kept) ∧ u.regs = s.regs ∧ kept u)) ∧
    -- CRC comparison
    (∀ (l t : Nat) (crc : Word) (late : Bool), st ≠ 2 ∨ s.sync < 2 ∨ f.exact.contains l = false →
      exec (.mirrorCrcCompare l t crc late) s = .next s) ∧
    (∀ (l t : Nat) (crc : Word), st = 2 → 2 ≤ s.sync → f.exact.contains l = true →
      loses (.mirrorCrcCompare l t crc true) 0 ∧
      ((l, t, crc) ∉ f.crcs → loses (.mirrorCrcCompare l t crc false) 1) ∧
      ((l, t, crc) ∈ f.crcs → exec (.mirrorCrcCompare l t crc false) s
        = .next (if f.exact.getLast? = some l then s.setFov { f with matching := min 256 (f.matching + 1) } else s))) ∧
    -- resynchronisation
    (st = 1 ∨ st = 2 → s.sync = 0 → exec .resyncStart s = .next ((s.wr R.FOV_STATUS_sync 1).setFov { f with matching := 0 })) ∧
    (st = 1 ∨ st = 2 → s.sync ≠ 0 → exec .resyncStart s = .next s) ∧
    (st = 3 → f.copying = false → (s.requester 2).pending = false → Completes .resyncStart s fun t => (t.requester 2).pending = true ∧
      (t.requester 2).cost = s.weirCost 2 ∧ t.sync = s.sync ∧ kept t ∧ ∀ r, r ≠ R.WEIR_INT_STATUS → t.reg r = s.reg r) ∧
    (st = 3 → f.copying = true → Completes .resyncCopyEnd s fun t => t.sync = 2 ∧ t.fov = { f with copying := false } ∧
      (t.requester 2).grant = 0 ∧ kept t ∧ ∀ r, r ≠ R.FOV_STATUS → t.reg r = s.reg r) ∧
    (st = 1 ∨ st = 2 → s.sync = 1 → exec .resyncCopyEnd s = .next ((s.setFov { f with matching := 0 }).wr R.FOV_STATUS_sync 2)) ∧
    (st = 2 → s.sync = 2 → 256 ≤ f.matching → exec .resyncCompareEnd s
      = .next ((s.wr R.FOV_STATUS_sync 3).wr R.FOV_INT_STATUS_sync_ok 1)) ∧
    (st ≠ 2 ∨ s.sync ≠ 2 ∨ f.matching < 256 → exec .resyncCompareEnd s = .next s) ∧
    Completes .resyncAbort s (fun t => t.sync = (if s.sync = 1 ∨ s.sync = 2 then 0 else s.sync) ∧ t.fov.matching = 0 ∧ t.fov.copying = false ∧
      (t.requester 2).pending = false ∧ (f.copying = true → (t.requester 2).grant = 0) ∧ kept t ∧ ∀ r, r ≠ R.FOV_STATUS → t.reg r = s.reg r)

/-! ## LPDDR5 controller (16) -/

/-- The DMC issues one request at a time out of the non-busy ones, in the order of panic, age, row hits and arrival, opening its row, and corrects,
zeroes or reports what its check finds; idle rows close; panic begins at the fill or a due read; lost barges are recorded; refreshes are owed, issued
and forced at the limit; temperature and drift are reported, and retraining runs by leave of the weir, slice by slice, 250 µs apart (16 R407 to
R418).
Readings: log entries 11, 86, 87. Completes: dramRequest, rtPanicEntry, rtBargeLost, dramRefresh, mr4Read, driftMeasurement, retrainStart,
retrainSlice, retrainDone. -/
def Obligations.DramController : Prop :=
  ∀ (s : State),
    let d := s.dmc
    let kept (t : State) : Prop := SameMemory s t ∧ t.doms = s.doms
    let await (k : Fin 4) : FieldAt := ⟨R.DMC_RETRAIN_STATUS, k, 1⟩
    -- requests
    let a := s.setDmc (d.aged s.now (s.rd ⟨R.DMC_SCHED, 8, 8⟩))
    (∀ e, e ∈ a.dmc.rows ↔ e ∈ d.rows ∧ (s.now - Tab.get (fun _ => 0) d.used e.1) * 16 / 5 ≤ s.rd ⟨R.DMC_SCHED, 8, 8⟩) ∧
    (∀ busy found, s.rd R.DMC_STATUS_state ≠ 2 → exec (.dramRequest busy found) s = .next s) ∧
    (∀ busy found, s.rd R.DMC_STATUS_state = 2 → (∀ e ∈ d.queue, Config.dramBank e.block ∈ busy) →
      exec (.dramRequest busy found) s = .next a) ∧
    (∀ busy e, s.dmcPick busy = some e → e ∈ d.queue ∧ Config.dramBank e.block ∉ busy ∧
      ((∃ x ∈ d.queue, Config.dramBank x.block ∉ busy ∧ x.write = d.draining) → e.write = d.draining) ∧
      let cs := d.candidates busy
      let old (x : DramEntry) : Prop := s.rd ⟨R.DMC_SCHED, 24, 8⟩ * 64 < (s.now - x.since) * 16 / 5
      (s.panic = true → (∃ x ∈ cs, x.rt.isSome) → e.rt.isSome) ∧
      (s.panic = false → ((∃ x ∈ cs, old x) → old e) ∧
        ((∀ x ∈ cs, ¬old x) → (∃ x ∈ cs, d.hit x = true) →
          d.hit e = true ∨ (d.hits.1 = Config.dramBank e.block ∧ max 1 (s.rd ⟨R.DMC_SCHED, 0, 4⟩) ≤ d.hits.2)) ∧
        ((∀ x ∈ cs, ¬old x ∧ d.hit x = false) → cs.head? = some e))) ∧
    (∀ busy e, s.rd R.DMC_STATUS_state = 2 → a.dmcPick busy = some e → d.waiting = [] →
      let rest := d.queue.erase e
      (∀ found : Fin 3, e.write = true ∨ found = 0 → Completes (.dramRequest busy found) s fun t =>
        t.dmc.queue = rest ∧ t.dmc.waiting = [] ∧ t.dmc.row (Config.dramBank e.block) = some (Config.dramRow e.block) ∧ kept t ∧
        t.locks = s.locks ∧ t.dmc.draining = (if d.draining then decide (16 < (rest.filter (·.write)).length)
          else decide (48 ≤ (rest.filter (·.write)).length)) ∧
        (∀ r, r ∉ [R.DMC_RT_LEAD_MIN, R.DMC_RT_STATUS] → t.reg r = s.reg r) ∧
        (∀ l k, e.write = false → e.rt = some (l, k) →
          t.rd ⟨R.DMC_RT_LEAD_MIN, 0, 16⟩ = min (s.rd ⟨R.DMC_RT_LEAD_MIN, 0, 16⟩) (s.rtLead l k)) ∧
        (t.panic = true ↔ s.panic = true ∧ t.panicWanted = true)) ∧
      (e.write = false → Completes (.dramRequest busy 1) s fun t => t.is R.DMC_INT_STATUS_ecc_corr = true ∧
        t.rd (lowHalf R.DMC_ECC_COUNT) = min (s.rd (lowHalf R.DMC_ECC_COUNT) + 1) 65535 ∧ kept t ∧ t.locks = s.locks ∧
        ∃ x ∈ t.dmc.queue ++ t.dmc.waiting, x.write = true ∧ x.rewrite = true ∧ x.block = e.block) ∧
      (∀ l k x, e.write = false → e.rt = some (l, k) → s.dline l = some x → Completes (.dramRequest busy 2) s fun t =>
        t.is R.DMC_INT_STATUS_ecc_uncorr = true ∧
        t.dline l = some { x with ring := x.ring.filter fun w => Config.ringBlock l w.1 != e.block } ∧ kept t ∧ t.locks = s.locks) ∧
      (e.write = false → e.rt = none → Completes (.dramRequest busy 2) s fun t => t.is R.DMC_INT_STATUS_ecc_uncorr = true ∧
        t.rd (highHalf R.DMC_ECC_COUNT) = min (s.rd (highHalf R.DMC_ECC_COUNT) + 1) 65535 ∧ e.block ∈ t.dmc.bad ∧
        t.wide R.DMC_ECC_ADDR_LO R.DMC_ECC_ADDR_HI = (2 ^ 32 + e.block * 64) % 2 ^ 64 ∧ t.reply = ⟨[0], .dataError⟩ ∧ kept t ∧ t.locks = s.locks)) ∧
    -- the real-time port
    (s.panicWanted = true ↔
      (∃ e ∈ d.queue ++ d.waiting, e.write = false ∧ ∃ l k, e.rt = some (l, k) ∧ s.rtLead l k < max 1 (s.rd ⟨R.DMC_RT_CFG, 16, 8⟩)) ∨
      max 1 (s.rd ⟨R.DMC_RT_CFG, 0, 4⟩) * 131072 ≤ s.rtFill * 16) ∧
    (s.panicWanted = true → s.panic = false → exec .rtPanicEntry s
      = .next (((s.wr ⟨R.DMC_RT_STATUS, 0, 1⟩ 1).wr R.DMC_INT_STATUS_rt_panic 1).bump (lowHalf R.DMC_COUNT))) ∧
    (s.panicWanted = false ∨ s.panic = true → exec .rtPanicEntry s = .next s) ∧
    (∀ line tick w, s.dline line = none → exec (.rtBargeLost line tick w) s = .next s) ∧
    (∀ line tick x, s.dline line = some x →
      (s.dlineReady line tick = true → exec (.rtBargeLost line tick false) s = .next s) ∧
      (s.dlineReady line tick = false → Completes (.rtBargeLost line tick false) s fun t => (line, tick) ∈ t.dmc.incomplete ∧ (∀ e ∈ d.incomplete, e ∈ t.dmc.incomplete) ∧
        t.dlineReady line tick = false ∧ t.regs = s.regs ∧ kept t ∧ t.locks = s.locks) ∧
      (∀ l k rest, s.locksWhere (fun k => k.spec.consumer = .delayLine line) = l :: rest → s.lock l = some k →
        let b := (s.dom k.spec.domain).b
        let first := (tick + k.spec.hops) * b
        ((s.awaits l tick).isSome → s.rtRoom (x.blocks line first b) = false → Completes (.rtBargeLost line tick true) s fun t =>
          t.locks = (s.consume l tick).locks ∧ (d.lost.length < 64 → t.dmc.lost = d.lost ++ [(line, first)]) ∧
          (64 ≤ d.lost.length → t.dline line = some { x with zeroUntil := first + (s.dom x.spec.domain).b + 2 ^ x.spec.r }) ∧
          t.is R.DMC_INT_STATUS_rt_lost = true ∧ t.rd (highHalf R.DMC_COUNT) = min (s.rd (highHalf R.DMC_COUNT) + 1) 65535 ∧ kept t) ∧
        (s.awaits l tick = none ∨ s.rtRoom (x.blocks line first b) = true → exec (.rtBargeLost line tick true) s = .next s))) ∧
    -- refresh and temperature
    (∀ bank due, s.rd R.DMC_STATUS_state ≠ 2 → exec (.dramRefresh bank due) s = .next s) ∧
    (∀ bank : Nat, s.rd R.DMC_STATUS_state = 2 →
      let b := if s.allBank then 0 else bank
      let busy := s.panic || d.queue.any fun e => (s.allBank || Config.dramBank e.block == b) && d.hit e
      let only (t : State) : Prop := kept t ∧ t.locks = s.locks ∧ (∀ r, r ∉ [R.DMC_REF_STATUS, R.DMC_INT_STATUS] → t.reg r = s.reg r) ∧
        ∀ c, c ≠ b → t.debt c = s.debt c
      ((s.postMax : Int) ≤ s.debt b → Completes (.dramRefresh bank true) s fun t =>
        t.debt b = s.debt b ∧ t.dmc.row b = none ∧ t.is R.DMC_INT_STATUS_ref_limit = true ∧ only t) ∧
      (s.debt b < s.postMax → busy = true → Completes (.dramRefresh bank true) s fun t =>
        t.debt b = s.debt b + 1 ∧ t.dmc.rows = d.rows ∧ only t) ∧
      (0 < s.debt b → s.debt b ≤ s.postMax → busy = false → Completes (.dramRefresh bank false) s fun t =>
        t.debt b = s.debt b - 1 ∧ t.dmc.row b = none ∧ only t) ∧
      (s.debt b ≤ 0 → -8 < s.debt b → d.queue = [] → Completes (.dramRefresh bank false) s fun t =>
        t.debt b = s.debt b - 1 ∧ only t) ∧
      (s.debt b = -8 → Completes (.dramRefresh bank false) s fun t => t.debt b = -8 ∧ only t)) ∧
    (∀ code : Byte, exec (.mr4Read code true) s = .next ((((s.wr ⟨R.DMC_REF_STATUS, 8, 8⟩ code.toNat).wr R.DMC_STATUS_temp_hi 1).wr
        R.DMC_INT_STATUS_temp_hi 1).report 18 5 2) ∧
      exec (.mr4Read code false) s = .next (((s.wr ⟨R.DMC_REF_STATUS, 8, 8⟩ code.toNat).wr R.DMC_STATUS_temp_hi 0).endCause 18 5)) ∧
    -- retraining
    (∀ v : Word,
      let thr : Int := (max 1 (s.rd ⟨R.DMC_RETRAIN, 0, 8⟩) : Nat)
      let off (k : Fin 4) : Prop := thr < (toSigned 8 (getBits v (8 * k) 8)).natAbs
      ((∀ k, ¬off k) → exec (.driftMeasurement v) s = .next (s.setReg R.DMC_DRIFT v)) ∧
      ((∃ k, off k) → Completes (.driftMeasurement v) s fun t => t.reg R.DMC_DRIFT = v ∧ t.is R.DMC_INT_STATUS_drift = true ∧ kept t ∧
        t.locks = s.locks ∧ (s.retraining = false → (∀ k, t.is (await k) = true ↔ off k) ∧ (t.requester 8).pending = true ∧
          (t.requester 8).cost = s.weirCost 8) ∧ (s.retraining = true → t.weir = s.weir))) ∧
    (s.retraining = true → exec .retrainStart s = .next s) ∧
    (s.retraining = false → Completes .retrainStart s fun t => t.rd retrainAwait = 15 ∧ (t.requester 8).pending = true ∧
      (t.requester 8).cost = s.weirCost 8 ∧ kept t ∧ t.locks = s.locks ∧ t.dmc = d ∧
      ∀ r, r ∉ [R.DMC_RETRAIN_STATUS, R.WEIR_INT_STATUS] → t.reg r = s.reg r) ∧
    let clear := (∀ e ∈ d.debt, e.2 < (s.postMax : Int) ∨ e.2 ≤ 0) ∧ ∀ t, d.sliceAt = some t → t + 62500 ≤ s.now
    (∀ (k : Fin 4), s.is retrainLeave = true → s.is (await k) = true → s.panic = false → clear →
      let sliced := (s.wr (await k) 0).setDmc
        { d with rows := d.rows.filter fun e => Config.dramChannel e.1 != k.val / 2, sliceAt := some s.now }
      exec (.retrainSlice k false) s = .next sliced ∧
      exec (.retrainSlice k true) s = .next ((sliced.wr R.DMC_INT_STATUS_retrain_fail 1).report 18 7 1)) ∧
    (∀ k narrow, s.is retrainLeave = false ∨ s.is (await k) = false ∨ s.panic = true ∨ ¬clear → exec (.retrainSlice k narrow) s = .next s) ∧
    (s.is retrainLeave = true → s.retraining = false → Completes .retrainDone s fun t => t.is retrainLeave = false ∧
      (t.requester 8).grant = 0 ∧ t.is R.DMC_INT_STATUS_retrain_done = true ∧ kept t ∧ t.locks = s.locks ∧
      ∀ r, r ∉ [R.DMC_RETRAIN_STATUS, R.DMC_INT_STATUS] → t.reg r = s.reg r) ∧
    (s.is retrainLeave = false ∨ s.retraining = true → exec .retrainDone s = .next s)

/-! ## DMA (17) -/

/-- A channel starts, drains, stops and is abandoned by writes of its registers; a SW_IDX beyond the ring is refused; a descriptor is fetched
where hardware owns it, and pauses the channel otherwise; requests move one burst or are withdrawn; and ticks take a descriptor or starve
(17 R432, R434, R438 to R445).
Readings: log entries 16, 18. Completes: swIdxWrite, descriptorFetch, dmaEnable, dmaDisable, dmaAbrupt, peripheralRequest, requestWithdrawn,
tickModeTransfer. -/
def Obligations.DmaChannels : Prop :=
  ∀ (s : State) (c : ChIx),
    let st := s.dmaState c
    let x := s.chan c
    let kept (t : State) : Prop := SameMemory s t ∧ t.locks = s.locks ∧ t.doms = s.doms
    let stopped (t : State) : Prop := t.dmaState c = 0 ∧ (t.chan c).fetched = [] ∧ (t.chan c).taken = none ∧
      t.is (R.DMA_CHc_INT_STATUS_stopped c) = true ∧ kept t
    -- rings
    (∀ v : BitVec 16, let ahead := (v.toNat + 2 ^ 16 - s.rd (hwIdx c)) % 2 ^ 16;
      (2 ^ s.ringLog c < ahead → exec (.swIdxWrite c v) s = .next ((s.wr (R.DMA_CHc_INT_STATUS_idx_err c) 1).answer [])) ∧
      (ahead ≤ 2 ^ s.ringLog c → s.owned (R.DMA_CHc_SW_IDX c) = 0 → Completes (.swIdxWrite c v) s fun t =>
        t.rd (swIdx c) = v.toNat ∧ t.dmaState c = (if st = 4 then 1 else st) ∧ t.given c = ahead ∧ t.chan c = x ∧ kept t ∧
        ∀ r, r ∉ [R.DMA_CHc_SW_IDX c, R.DMA_CHc_STATUS c] → t.reg r = s.reg r)) ∧
    (∀ host, (st ≠ 1 ∧ st ≠ 2) ∨ s.given c ≤ x.fetched.length ∨ 4 ≤ x.fetched.length → exec (.descriptorFetch c host) s = .next s) ∧
    (let a := s.entryAddr c (s.rd (hwIdx c) + x.fetched.length)
      let d := wordsOf (s.ssmBytes (a - ssmBase) 32);
      (st = 1 ∨ st = 2) → x.fetched.length < s.given c → x.fetched.length < 4 → targetOf a = 1 →
        (descOwn d = true → Completes (.descriptorFetch c none) s fun t =>
          (t.chan c).fetched = x.fetched ++ [d] ∧ t.dmaState c = 2 ∧ kept t ∧ ∀ r, r ≠ R.DMA_CHc_STATUS c → t.reg r = s.reg r) ∧
        (descOwn d = false → Completes (.descriptorFetch c none) s fun t => t.chan c = x ∧ t.dmaState c = 4 ∧ kept t ∧
          t.is (R.DMA_CHc_INT_STATUS_own_err c) = true ∧
          t.rd (highHalf (R.DMA_CHc_COUNT1 c)) = min (s.rd (highHalf (R.DMA_CHc_COUNT1 c)) + 1) 65535)) ∧
    -- start and stop
    (s.dmaUsed c = true → st = 0 → s.owned (R.DMA_CHc_CTRL c) = 0 → Completes (.dmaEnable c) s fun t =>
      t.dmaState c = 1 ∧ t.is (R.DMA_CHc_CTRL_en c) = true ∧ kept t ∧
      ∀ r, r ∉ [R.DMA_CHc_CTRL c, R.DMA_CHc_STATUS c] → t.reg r = s.reg r) ∧
    (s.dmaUsed c = false ∨ st ≠ 0 → exec (.dmaEnable c) s = .next (s.answer [])) ∧
    (s.owned (R.DMA_CHc_CTRL c) = 0 →
      (st = 0 ∨ st = 3 → Completes (.dmaDisable c) s fun t => t.is (R.DMA_CHc_CTRL_en c) = false ∧ t.dmaState c = st ∧ t.chan c = x ∧ kept t) ∧
      (st ≠ 0 → st ≠ 3 → s.inProgress c = true → Completes (.dmaDisable c) s fun t =>
        t.is (R.DMA_CHc_CTRL_en c) = false ∧ t.dmaState c = 3 ∧ t.chan c = x ∧ kept t) ∧
      (st ≠ 0 → st ≠ 3 → s.inProgress c = false → Completes (.dmaDisable c) s fun t => t.is (R.DMA_CHc_CTRL_en c) = false ∧ stopped t) ∧
      (st = 0 → Completes (.dmaAbrupt c) s fun t => t.is (R.DMA_CHc_CTRL_en c) = false ∧ t.dmaState c = 0 ∧ t.chan c = x ∧ kept t) ∧
      (st ≠ 0 → x.fetched = [] → Completes (.dmaAbrupt c) s fun t => t.is (R.DMA_CHc_CTRL_en c) = false ∧ stopped t)) ∧
    (∀ d rest, st ≠ 0 → x.fetched = d :: rest → Completes (.dmaAbrupt c) s fun t => t.dmaState c = 0 ∧ (t.chan c).fetched = [] ∧
      t.rd (hwIdx c) = (s.rd (hwIdx c) + 1) % 2 ^ 16 ∧ t.reg (R.DMA_CHc_LAST_ERR c) = BitVec.ofNat 32 (s.rd (hwIdx c) * 2 ^ 16 + 7) ∧
      t.is (R.DMA_CHc_INT_STATUS_stopped c) = true) ∧
    -- peripheral requests
    (s.requestDesc c = none → exec (.peripheralRequest c) s = .next s) ∧
    (∀ d, s.requestDesc c = some d →
      let n := s.rd (R.DMA_CHc_CFG_binding c)
      let len := min (s.dmaBurst c) (descLen d - x.moved)
      let word := leBytes 4 (s.reg (R.CICn_OUT n)).toNat
      let moves (i : Instr) (again : Bool) : Prop := Completes i s fun t =>
        (t.chan c).moved = x.moved + len ∧ (t.chan c).fetched = x.fetched ∧ (t.cic n).request = again ∧
        (∀ j < len, t.ssmByte (descDst d + x.moved - ssmBase + j) = word.getD (j % 4) 0) ∧
        (∀ o, (o < descDst d + x.moved - ssmBase ∨ descDst d + x.moved - ssmBase + len ≤ o) → t.ssmByte o = s.ssmByte o) ∧
        (∀ o, t.dramByte o = s.dramByte o) ∧ t.regs = s.regs ∧ t.locks = s.locks
      targetOf (descDst d + x.moved) = 1 → moves (.peripheralRequest c) false ∧ moves (.requestWithdrawn c true) true) ∧
    (∀ granted, s.dmaRequested c = false → exec (.requestWithdrawn c granted) s = .next s) ∧
    (s.dmaRequested c = true → exec (.requestWithdrawn c false) s
      = .next ((s.bump (highHalf (R.DMA_CHc_COUNT0 c))).wr (R.DMA_CHc_INT_STATUS_withdrawn c) 1)) ∧
    -- tick modes
    let dom := s.rd (R.DMA_CHc_CFG_domain c)
    let ready := st = 2 ∧ x.fetched ≠ [] ∧ x.taken = none
    let on := st = 1 ∨ st = 2 ∨ st = 4
    (s.dmaMode c < 4 ∨ 5 < s.dmaMode c ∨ s.dmaUsed c = false ∨ s.halted = true ∨ s.atBoundary dom = false →
      exec (.tickModeTransfer c) s = .next s) ∧
    (s.dmaMode c = 5 → s.dmaUsed c = true → s.halted = false → s.atBoundary dom = true →
      (ready → exec (.tickModeTransfer c) s = .next (s.setChan c { x with taken := some (s.tick dom), zero := false })) ∧
      (on → ¬ready → exec (.tickModeTransfer c) s
        = .next (((s.bump (lowHalf (R.DMA_CHc_COUNT0 c))).wr (R.DMA_CHc_INT_STATUS_starved c) 1).report (128 + c) 4 1)) ∧
      (¬on → exec (.tickModeTransfer c) s = .next s)) ∧
    (∀ l k, s.dmaMode c = 4 → s.dmaUsed c = true → s.halted = false → s.atBoundary dom = true → s.dmaLock c = some l → s.lock l = some k →
      k.spec.hops ≤ s.tick dom →
      let tick := s.tick dom - k.spec.hops
      (ready → exec (.tickModeTransfer c) s = .next (s.setChan c { x with taken := some tick, zero := false })) ∧
      (¬on → exec (.tickModeTransfer c) s = .next (s.giveUp l tick)) ∧
      (on → ¬ready → ∃ u, exec (.tickModeTransfer c) s = .next (u.report (128 + c) 4 1) ∧ u.locks = (s.giveUp l tick).locks ∧ u.dma = s.dma ∧
        SameMemory s u ∧ u.rd (lowHalf (R.DMA_CHc_COUNT0 c)) = min (s.rd (lowHalf (R.DMA_CHc_COUNT0 c)) + 1) 65535))

/-- A descriptor that breaks a rule completes with its code and moves nothing. One piece of shared sample memory, with its ring there: a copy, a
frame or message for transmission, a received frame and a tick's barge move exactly their bytes; the write-back clears own, and HW_IDX advances
(17 R433 to R437, R440, R441).
Completes: descriptorComplete, frameRxDma. -/
def Obligations.DmaTransfers : Prop :=
  ∀ (s : State) (c : ChIx) (d : List Word) (rest : List (List Word)),
    let x := s.chan c
    let i := s.rd (hwIdx c)
    let mode := s.dmaMode c
    let n := descLen d
    let ring := s.entryAddr c i
    let inside (a len : Nat) : Prop := ssmBase ≤ a ∧ a + len ≤ ssmBase + 0x800000
    let ends (t : State) : Prop := t.rd (hwIdx c) = (i + 1) % 2 ^ 16 ∧ (t.chan c).fetched = rest
    let wrote (t : State) : Prop := ends t ∧
      t.ssmBytes (ring - ssmBase) 4 = leBytes 4 (putBits (descWord d 0) 31 1 0).toNat ∧
      t.ssmBytes (ring - ssmBase + 28) 4 = leBytes 4 (2 ^ 31 + n) ∧ (∀ o, t.dramByte o = s.dramByte o) ∧
      ∀ r, r ∉ [R.DMA_CHc_HW_IDX c, R.DMA_CHc_STATUS c, R.DMA_CHc_INT_STATUS c] → t.reg r = s.reg r
    let others (t : State) (dst len : Nat) : Prop := ∀ o, (o + ssmBase < dst ∨ dst + len ≤ o + ssmBase) →
      (o + ssmBase < ring ∨ ring + 32 ≤ o + ssmBase) → t.ssmByte o = s.ssmByte o
    x.fetched = d :: rest → s.dmaState c = 2 →
    -- errors
    (∀ host e, e = descError mode (s.dmaBargeBytes c) d → e ≠ 0 → mode ≠ 2 → (4 ≤ mode → x.taken.isSome) →
      Completes (.descriptorComplete c host) s fun t => ends t ∧
        t.reg (R.DMA_CHc_LAST_ERR c) = BitVec.ofNat 32 (i * 2 ^ 16 + e) ∧ t.is (R.DMA_CHc_INT_STATUS_desc_err c) = true ∧
        t.rd (lowHalf (R.DMA_CHc_COUNT1 c)) = min (s.rd (lowHalf (R.DMA_CHc_COUNT1 c)) + 1) 65535 ∧ t.locks = s.locks) ∧
    (∀ host, 4 ≤ mode → x.taken = none → exec (.descriptorComplete c host) s = .next s) ∧
    -- transfers
    (descKind d = 0 → 0 < n → n ≤ s.dmaBurst c → descDst d % 256 + n ≤ 256 → inside ring 32 →
      (ring + 32 ≤ descDst d ∨ descDst d + n ≤ ring) →
      (mode = 0 → descSrc d % 256 + n ≤ 256 → inside (descSrc d) n → inside (descDst d) n →
        Completes (.descriptorComplete c none) s fun t => wrote t ∧ others t (descDst d) n ∧ t.locks = s.locks ∧
          t.ssmBytes (descDst d - ssmBase) n = s.ssmBytes (descSrc d - ssmBase) n) ∧
      (mode = 3 → descSrc d % 256 + n ≤ 256 → inside (descSrc d) n → descEop d = true → s.txFree c = true → x.frame = [] → x.macWords = none →
        ∀ m < 2, s.rd (R.DMA_CHc_CFG_binding c) = 84 + m → Completes (.descriptorComplete c none) s fun t => wrote t ∧
          others t ring 0 ∧ (t.mac m).head = some ⟨descWord d 4, descWord d 5, s.ssmBytes (descSrc d - ssmBase) n, s.now⟩) ∧
      (mode = 3 → descEop d = true → s.txFree c = false → exec (.descriptorComplete c none) s = .next s) ∧
      (∀ tick l b, mode = 4 → n ≤ s.dmaBargeBytes c → x.taken = some tick → x.zero = false → s.dmaLock c = some l → s.awaits l tick = some b →
        descSrc d % 256 + n ≤ 256 → inside (descDst d) n → Completes (.descriptorComplete c none) s fun t => wrote t ∧ others t (descDst d) n ∧
          t.locks = (s.consume l tick).locks ∧ (∀ j < n, t.ssmByte (descDst d - ssmBase + j) = (bargeBytes b.words).getD j 0)) ∧
      (∀ tick l, mode = 4 → n ≤ s.dmaBargeBytes c → x.taken = some tick → x.zero = false → s.dmaLock c = some l → s.awaits l tick = none →
        exec (.descriptorComplete c none) s = .next s) ∧
      (∀ tick l k, mode = 5 → n = 4 * s.bargeWords k → x.taken = some tick → x.zero = false → s.dmaLock c = some l → s.lock l = some k →
        descSrc d % 256 + n ≤ 256 → inside (descSrc d) n → Completes (.descriptorComplete c none) s fun t => wrote t ∧
          others t ring 0 ∧ t.lock l = some { k with asm := (wordsOf (s.ssmBytes (descSrc d - ssmBase) n)).map (·.setWidth 24) })) ∧
    -- received frames
    (∀ host, mode = 2 → exec (.descriptorComplete c host) s = .next s) ∧
    (∀ host, mode = 1 → n ≤ x.moved → descError 1 (s.dmaBargeBytes c) d = 0 → Completes (.descriptorComplete c host) s ends) ∧
    (mode ≠ 2 ∨ s.rxWaiting c = none → exec (.frameRxDma c) s = .next s) ∧
    (∀ all len, mode = 2 → s.rxWaiting c = some (all, len) → x.frame = [] → descKind d = 0 → all ≠ [] → all.length ≤ n →
      all.length ≤ s.dmaBurst c → descDst d % 256 + all.length ≤ 256 → inside (descDst d) all.length → inside ring 32 →
      (ring + 32 ≤ descDst d ∨ descDst d + all.length ≤ ring) → Completes (.frameRxDma c) s fun t => ends t ∧
        t.ssmBytes (descDst d - ssmBase) all.length = all ∧ others t (descDst d) all.length ∧
        t.ssmBytes (ring - ssmBase + 24) 8 = leBytes 4 len ++ leBytes 4 (2 ^ 31 + all.length) ∧
        (∀ m < 2, ∀ cls < 2, s.rd (R.DMA_CHc_CFG_binding c) = 80 + 2 * m + cls →
          (t.mac m).rx = (s.mac m).rx.eraseP fun f => f.cls = cls))

/-! ## Host interface, events and pins (18) -/

/-- A level that rises makes the message of its vector due once, or asserts its pin; EVT_EOI makes one due while the request stands; a message is
sent under the conditions of R466, and a request that has fallen cancels it; a route acts on requests and pins; a sample compare sets its bit and
clears its arm bit (18 R463 to R468).
Readings: log entry 1. Completes: eventLevelRise, evtEoi, evtSw, evtRouteWrite, sampleCompare, irqRelease, msixMessageSend. -/
def Obligations.EventVectorsAndPins : Prop :=
  ∀ (s : State) (source : Byte) (v : VecIx) (k : Fin 2) (n : Fin 4) (w : Word),
    let e := source.toNat
    let u := s.rd (routeVector e)
    (s.level e = false → exec (.eventLevelRise source) s = .next s) ∧
    (s.level e = true → s.is (routeMsix e) = true → s.is (routeIrq e 0) = false → s.is (routeIrq e 1) = false →
      Completes (.eventLevelRise source) s fun t => t.evt = { s.evt with requests := s.evt.requests ||| (1#64 <<< u) } ∧
        t.is (pba u) = (s.is (pba u) || !s.evt.requests.getLsbD u) ∧ (∀ x : VecIx, x.val ≠ u → t.is (pba x) = s.is (pba x)) ∧
        { t with regs := s.regs, evt := s.evt } = s ∧ ∀ a, a ∉ dueRegs → t.reg a = s.reg a) ∧
    (s.level e = true → s.is (routeMsix e) = false → s.is (routeIrq e 0) = true → s.is (routeIrq e 1) = false → s.evt.irq0 = false →
      exec (.eventLevelRise source) s = .next (({ s with evt := { s.evt with irq0 := true } }).emit (.irqPin 0 true))) ∧
    (Completes (.evtEoi v) s fun t => t.is (pba v) = s.request v ∧ t.evt.requests.getLsbD v = s.request v ∧
      (∀ x : VecIx, x ≠ v → t.is (pba x) = s.is (pba x)) ∧ { t with regs := s.regs, evt := s.evt } = s ∧
      ∀ a, a ∉ dueRegs → t.reg a = s.reg a) ∧
    exec (.evtSw w) s = .next (s.setReg R.EVT_LOCAL_STATUS (s.reg R.EVT_LOCAL_STATUS ||| (w &&& 0xFFFF0000))) ∧
    (s.owned (R.EVT_ROUTEs e) = 0 → Completes (.evtRouteWrite source w) s fun t =>
      t.is (routeMsix e) = w.getLsbD 31 ∧ t.is (routeIrq e 0) = w.getLsbD 28 ∧ t.is (routeIrq e 1) = w.getLsbD 29 ∧
      t.rd (routeVector e) = getBits w 0 6 ∧ t.evt.requests.getLsbD (getBits w 0 6) = t.request (getBits w 0 6) ∧
      t.evt.irq0 = t.irqWanted 0 ∧ t.evt.irq1 = t.irqWanted 1 ∧ SameMemory s t ∧ ∀ a, a ≠ R.EVT_ROUTEs e → a ∉ dueRegs → t.reg a = s.reg a) ∧
    (s.is (cmpArm n) = true → s.rd (cmpDomain n) < 3 → s.started (s.rd (cmpDomain n)) = true →
      s.wide (R.EVT_CMPn_LO n) (R.EVT_CMPn_HI n) ≤ (s.dom (s.rd (cmpDomain n))).sample.toNat → Completes (.sampleCompare n) s fun t =>
        t.is (bitAt R.EVT_LOCAL_STATUS (3 + n)) = true ∧ t.is (cmpArm n) = false ∧ t.rd (cmpDomain n) = s.rd (cmpDomain n) ∧ SameMemory s t ∧
        ∀ a, a ∉ [R.EVT_LOCAL_STATUS, R.EVT_CMP_CTRL] → t.reg a = s.reg a) ∧
    (s.rd (cmpDomain n) = 3 → exec (.sampleCompare n) s = .next s) ∧
    (s.irqWanted k = true → exec (.irqRelease k) s = .next s) ∧
    (s.irqWanted 0 = false → s.evt.irq0 = true →
      exec (.irqRelease 0) s = .next (({ s with evt := { s.evt with irq0 := false } }).emit (.irqPin 0 false))) ∧
    (s.irqWanted 1 = false → s.evt.irq1 = true →
      exec (.irqRelease 1) s = .next (({ s with evt := { s.evt with irq1 := false } }).emit (.irqPin 1 false))) ∧
    (s.is (pba v) = true → s.request v = false → Completes (.msixMessageSend v) s fun t =>
      t.is (pba v) = false ∧ t.outbox = s.outbox ∧ t.evt.lastSent = s.evt.lastSent ∧ ∀ a, a ∉ dueRegs → t.reg a = s.reg a) ∧
    (s.is (pba v) = true → s.request v = true →
      ((s.is pcieLink = false ∨ s.is pcieMsix = false ∨ s.is pcieMasked = true ∨ s.is pcieMaster = false ∨ s.rd pcieD ≠ 0) →
        exec (.msixMessageSend v) s = .next s) ∧
      (s.is pcieLink = true → s.is pcieMsix = true → s.is pcieMasked = false → s.is pcieMaster = true → s.rd pcieD = 0 →
        s.is (bitAt (R.MSIX_TABLE (4 * v + 3)) 0) = false →
        (∀ at_, Tab.get (fun _ => none) s.evt.lastSent v = some at_ → at_ + s.rd ⟨R.EVT_HOLDv v, 0, 10⟩ * 250 ≤ s.now) →
        Completes (.msixMessageSend v) s fun t => t.is (pba v) = false ∧
          t.outbox = s.outbox ++ [.msix v (s.wide (R.MSIX_TABLE (4 * v)) (R.MSIX_TABLE (4 * v + 1))) (s.reg (R.MSIX_TABLE (4 * v + 2)))] ∧
          Tab.get (fun _ => none) t.evt.lastSent v = some s.now ∧ SameMemory s t ∧ ∀ a, a ∉ dueRegs → t.reg a = s.reg a))

/-- PCIE_RESET returns the MSI-X table, the windows and the enables to reset; link up and configuration requests set PCIE_STATUS; an outbound
request leaves while the link is up, Bus Master Enable is 1 and the function is in D0, and otherwise, or on an error or a timeout, ends as a
default-target error with ob_err (18 R451, R455, R456, R466, R478).
Readings: log entries 27, 39. Completes: pcieReset, pcieLinkUp, pcieConfigRequest, pcieOutboundRequest, outboundCompletion,
outboundCompletionTimeout. -/
def Obligations.PcieFunction : Prop :=
  ∀ (s : State) (kind : PcieResetKind) (speed : Fin 5) (width : Fin 3) (c : PcieConfig) (b : Burst) (ok : Bool) (data : List Byte),
    (Completes (.pcieReset kind) s fun t =>
      (∀ i, i < 256 → t.reg (R.MSIX_TABLE i) = resetValue (R.MSIX_TABLE i)) ∧ t.reg (R.MSIX_PBA 0) = 0 ∧ t.reg (R.MSIX_PBA 1) = 0 ∧
      (∀ a ∈ [R.PCIE_BAR2_WIN_LO, R.PCIE_BAR2_WIN_HI, R.PCIE_OB_BASE], t.reg a = 0) ∧
      t.is pcieMaster = false ∧ t.is pcieMsix = false ∧ t.is pcieMasked = false ∧ t.rd pcieD = 0 ∧
      (kind = .hot → t.is (pcieEvent 2) = true) ∧ (kind = .linkDown → t.is (pcieEvent 1) = true ∧ t.is pcieLink = false) ∧
      (kind = .functionLevel → t.is (pcieEvent 3) = true ∧ t.pcie = s.pcie) ∧ (kind ≠ .linkDown → t.is pcieLink = s.is pcieLink) ∧
      t.evt = s.evt ∧ t.locks = s.locks ∧ SameMemory s t) ∧
    (speed ≠ 0 → width ≠ 0 → s.is pcieLink = false → Completes (.pcieLinkUp speed width) s fun t =>
      t.is pcieLink = true ∧ t.rd pcieSpeed = speed ∧ t.rd pcieWidth = width ∧ t.is (pcieEvent 0) = true ∧ SameMemory s t ∧
      t.rd (R.LANEn_CFG_gen 0) = speed.val - 1 ∧ t.rd (R.LANEn_CFG_gen 1) = speed.val - 1 ∧
      ∀ a, a ∉ [R.PCIE_STATUS, R.PCIE_INT_STATUS, R.LANEn_CFG 0, R.LANEn_CFG 1] → t.reg a = s.reg a) ∧
    (speed = 0 ∨ width = 0 ∨ s.is pcieLink = true → exec (.pcieLinkUp speed width) s = .next s) ∧
    (s.is pcieLink = false → exec (.pcieConfigRequest c) s = .next s) ∧
    (s.is pcieLink = true → s.rd R.GLB_BOOT_STATUS_state < 5 → s.rd ⟨R.GLB_STRAP, 0, 2⟩ ≠ 1 →
      exec (.pcieConfigRequest c) s = .next (s.emit .configRetry)) ∧
    (s.is pcieLink = true → 5 ≤ s.rd R.GLB_BOOT_STATUS_state →
      exec (.pcieConfigRequest (.busMaster ok)) s = .next (s.wr pcieMaster (b2n ok)) ∧
      exec (.pcieConfigRequest (.msixEnable ok)) s = .next (s.wr pcieMsix (b2n ok)) ∧
      exec (.pcieConfigRequest (.functionMask ok)) s = .next (s.wr pcieMasked (b2n ok)) ∧
      (s.rd pcieD = 0 → exec (.pcieConfigRequest (.dState true)) s = .next ((s.wr pcieD 3).raise (pcieEvent 4))) ∧
      (s.rd pcieD = 3 → exec (.pcieConfigRequest (.dState false)) s = .next ((s.wr pcieD 0).raise (pcieEvent 4)))) ∧
    (0x8000000000 ≤ b.addr.toNat →
      let host := s.rd ⟨R.PCIE_OB_BASE, 0, 25⟩ * 2 ^ 39 + (b.addr.toNat - 0x8000000000)
      ((s.is pcieLink = false ∨ s.is pcieMaster = false ∨ s.rd pcieD ≠ 0) → exec (.pcieOutboundRequest b) s
        = .next (((s.raise (pcieEvent 6)).bump (highHalf R.PCIE_REQ_ERR)).defaultTarget b.master b.addr.toNat 5 b.write causeOutbound)) ∧
      (s.is pcieLink = true → s.is pcieMaster = true → s.rd pcieD = 0 →
        (b.write = true → exec (.pcieOutboundRequest b) s = .next ((s.emit (.hostWrite host b.data)).answer [])) ∧
        (b.write = false → exec (.pcieOutboundRequest b) s = .next { s.emit (.hostRead host b.data.length) with
          pcie := { s.pcie with outstanding := s.pcie.outstanding ++ [(b.master.val, b.addr.toNat, b.data.length)] } }))) ∧
    (∀ m a len rest, s.pcie.outstanding = (m, a, len) :: rest →
      let left := { s with pcie := { s.pcie with outstanding := rest } }
      let t := if rest.any (·.1 = m) then left else left.wr (drainBit m) 0
      (s.is (drainBit m) = false → exec (.outboundCompletion true data) s = .next (t.answer (wordsOf (data.take len)))) ∧
      (s.is (drainBit m) = true → exec (.outboundCompletion true data) s = .next t) ∧
      exec (.outboundCompletion false data) s
        = .next (((t.raise (pcieEvent 6)).bump (highHalf R.PCIE_REQ_ERR)).defaultTarget m a 5 false causeOutbound) ∧
      exec .outboundCompletionTimeout s = exec (.outboundCompletion false []) s) ∧
    (s.pcie.outstanding = [] → exec (.outboundCompletion ok data) s = .next s ∧ exec .outboundCompletionTimeout s = .next s)

/-- An event input accepts a change after deb + 1 differing samples, the deb of them and the next; an accepted change in the selected
direction sets its edge bit unless the input is chattering (too many changes within the window, until a whole one passes without) or stuck (active
for too long), each of which sets its bit and reports a level-1 fault; the I²C and MDIO ports run one command and set their done bit (18 R469 to
R472, R475, R476; the sample at which a change is accepted: log entry 84).
Readings: log entry 15. Completes: gpioSample, gpioChatterEnd, gpioStuck, i2cCommand, i2cCommandEnd, mdioCommand. -/
def Obligations.PinsAndManagementBuses : Prop :=
  ∀ (s : State) (i : Fin 16) (level : Bool) (w : Word) (d : BitVec 16) (data : List Byte),
    let g := s.gpio i
    let cond := R.PAD_GPIOi_COND i
    let active := level != s.is ⟨cond, 15, 1⟩
    let r := s.wr (bitAt R.PAD_GPIO_IN i) (b2n level)
    let most := s.rd ⟨cond, 8, 7⟩
    let window := max 1 (s.rd ⟨cond, 0, 8⟩) * 1000
    let crowded := most ≠ 0 ∧ most ≤ (g.changes.filter fun t => decide (g.samples + 1 ≤ t + window)).length + 1
    (s.gpioRole i = 0 → exec (.gpioSample i level) s = .next s) ∧
    (s.gpioRole i = 1 ∨ s.gpioRole i = 2 → exec (.gpioSample i level) s = .next r) ∧
    (s.gpioRole i = 3 →
      (active = s.is (gpioAccept i) →
        exec (.gpioSample i level) s = .next (r.setGpio i { g with samples := g.samples + 1, differs := 0 })) ∧
      (active ≠ s.is (gpioAccept i) → g.differs + 1 ≤ s.rd ⟨cond, 20, 12⟩ →
        exec (.gpioSample i level) s = .next (r.setGpio i { g with samples := g.samples + 1, differs := g.differs + 1 })) ∧
      (active ≠ s.is (gpioAccept i) → s.rd ⟨cond, 20, 12⟩ ≤ g.differs → ¬crowded → g.chattering = false → g.stuck = false →
        Completes (.gpioSample i level) s fun t => t.is (gpioAccept i) = active ∧ (t.gpio i).differs = 0 ∧ (t.gpio i).since = g.samples + 1 ∧
          t.is (bitAt R.PAD_EV_EDGE i) = (s.is (bitAt R.PAD_EV_EDGE i) || s.edgeSelected i active) ∧
          t.rd (lowHalf (R.PAD_GPIOi_COUNT i)) = min (s.rd (lowHalf (R.PAD_GPIOi_COUNT i)) + 1) 0xFFFF ∧ SameMemory s t ∧
          ∀ a, a ∉ [R.PAD_GPIO_IN, R.PAD_GPIO_ACCEPT, R.PAD_EV_EDGE, R.PAD_GPIOi_COUNT i] → t.reg a = s.reg a) ∧
      (active ≠ s.is (gpioAccept i) → s.rd ⟨cond, 20, 12⟩ ≤ g.differs → g.chattering = true → Completes (.gpioSample i level) s fun t =>
        t.is (gpioAccept i) = active ∧ (t.gpio i).chattering = true ∧ t.is (bitAt R.PAD_EV_EDGE i) = s.is (bitAt R.PAD_EV_EDGE i) ∧
        t.rd (highHalf (R.PAD_GPIOi_COUNT i)) = min (s.rd (highHalf (R.PAD_GPIOi_COUNT i)) + 1) 0xFFFF ∧ SameMemory s t) ∧
      (active ≠ s.is (gpioAccept i) → s.rd ⟨cond, 20, 12⟩ ≤ g.differs → crowded → g.chattering = false → g.stuck = false →
        Completes (.gpioSample i level) s fun t => t.is (gpioAccept i) = active ∧ (t.gpio i).chattering = true ∧
          t.is (bitAt R.PAD_EV_CHAT i) = true ∧ t.is (gpioSuppressed i) = true ∧
          t.is (bitAt R.PAD_EV_EDGE i) = s.is (bitAt R.PAD_EV_EDGE i) ∧ SameMemory s t)) ∧
    (g.chattering = false ∨ g.samples < g.since + window → exec (.gpioChatterEnd i) s = .next s) ∧
    (g.chattering = true → g.since + window ≤ g.samples → g.stuck = false → Completes (.gpioChatterEnd i) s fun t => (t.gpio i).chattering = false ∧
      t.is (gpioSuppressed i) = false ∧ (t.gpio i).reported = s.is (gpioAccept i) ∧
      t.is (bitAt R.PAD_EV_EDGE i) = (s.is (bitAt R.PAD_EV_EDGE i) || (s.is (gpioAccept i) != g.reported)) ∧ SameMemory s t ∧
      ∀ a, a ∉ [R.PAD_GPIO_ACCEPT, R.PAD_EV_EDGE] → t.reg a = s.reg a) ∧
    let limit := s.rd (lowHalf (R.PAD_GPIOi_STUCK i)) * 1000
    (limit = 0 ∨ g.samples < g.since + limit ∨ s.is (gpioAccept i) = false → exec (.gpioStuck i) s = .next s) ∧
    (s.gpioRole i = 3 → limit ≠ 0 → g.since + limit ≤ g.samples → s.is (gpioAccept i) = true → g.stuck = false →
      exec (.gpioStuck i) s = .next ((((s.setGpio i { g with stuck := true }).wr (gpioSuppressed i) 1).raise (bitAt R.PAD_EV_STUCK i)).report
        (160 + i) i 1)) ∧
    (w.getLsbD 31 = true → s.is svcI2cBusy = true → exec (.i2cCommand w) s = .next s) ∧
    (w.getLsbD 31 = true → s.is svcI2cBusy = false →
      let count := min 32 (getBits w 0 6 + 1)
      let sent := s.svc.fifo.take (if w.getLsbD 8 then (if w.getLsbD 9 then 1 else 0) else count)
      Completes (.i2cCommand w) s fun t => t.is svcI2cBusy = true ∧ t.svc.i2c = some w ∧ t.svc.fifo = s.svc.fifo.drop sent.length ∧
        t.outbox = s.outbox ++ [.i2c (getBits w 16 7) (w.getLsbD 8) sent count] ∧ SameMemory s t ∧
        ∀ a, a ∉ [R.SVC_I2C_CMD, R.SVC_STATUS] → t.reg a = s.reg a) ∧
    (∀ cmd, s.svc.i2c = some cmd →
      exec (.i2cCommandEnd true data) s = .next (((s.setSvc { s.svc with i2c := none }).wr svcI2cBusy 0).raise (svcEvent 3)) ∧
      (cmd.getLsbD 8 = true → s.svc.fifo = [] → Completes (.i2cCommandEnd false data) s fun t =>
        t.svc.fifo = data.take (min 32 (getBits cmd 0 6 + 1)) ∧ t.is svcI2cBusy = false ∧ t.is (svcEvent 2) = true ∧ t.svc.i2c = none ∧
        SameMemory s t)) ∧
    (w.getLsbD 31 = true → Completes (.mdioCommand w d) s fun t =>
      let reads := getBits w 26 2 = (if w.getLsbD 30 then 3 else 2)
      t.outbox = s.outbox ++ [.mdio w] ∧ t.is (svcEvent 4) = true ∧ (reads → t.rd (lowHalf R.SVC_MDIO_DATA) = d.toNat) ∧
      (¬reads → t.reg R.SVC_MDIO_DATA = s.reg R.SVC_MDIO_DATA) ∧ SameMemory s t ∧
      ∀ a, a ∉ [R.SVC_MDIO_CMD, R.SVC_MDIO_DATA, R.SVC_INT_STATUS] → t.reg a = s.reg a)

/-! ## Faults (19) -/

/-- A report from a source that already has an unacknowledged record of that reported level is merged into it: its repeat count increments
(up to 255, what its field of FLT_LOG0 holds), and no new record, escalation, event or reaction follows (19 R482).
Completes: faultReport. -/
def Obligations.RepeatedReportsMerge : Prop :=
  ∀ (s : State) (source : Byte) (code : Fin 32) (level : Fin 5) (pre post : List FaultRecord) (r : FaultRecord),
    s.flt.records = pre ++ r :: post → (∀ q ∈ pre, ¬(q.acked = false ∧ q.source = source.toNat ∧ q.reported = level)) →
    r.acked = false → r.source = source.toNat → r.reported = level → Completes (.faultReport source code level) s fun t =>
      (∃ cause, t.flt = { s.flt with records := pre ++ { r with repeats := min 255 (r.repeats + 1), cause := cause } :: post }) ∧
      { t with flt := s.flt, regs := s.regs } = s ∧ ∀ a, a ≠ R.FLT_COUNTL (min r.level 4) → t.reg a = s.reg a

/-- Any other report makes a record, of the level above where another source's unacknowledged record has the reported one; it is counted, sets its
event, enters the log while that holds less than 64, asserts ERR_N at or above err_level, and has its level's reaction: none below 2, the
scope at 2, all outputs and SAFE at 3, the halt at 4 (19 R483, R485, R494, R499).
Completes: faultReport. -/
def Obligations.ReportsMakeRecords : Prop :=
  ∀ (s : State) (source : Byte) (code : Fin 32) (level : Fin 5),
    (∀ q ∈ s.flt.records, ¬(q.acked = false ∧ q.source = source.toNat ∧ q.reported = level)) →
    let other := s.flt.records.any fun q => !q.acked && q.level == level.val && q.source != source.toNat
    let l : Nat := if level.val < 4 ∧ other = true then level.val + 1 else level.val
    let scope := (s.reg (R.FLT_SCOPEs source.toNat)).toNat
    Completes (.faultReport source code level) s fun t =>
      (∃ r ∈ t.flt.records, r.source = source.toNat ∧ r.code = code ∧ r.level = l ∧ r.reported = level ∧ r.escalated = decide (l ≠ level) ∧
        r.acked = false ∧ r.injected = false ∧ r.repeats = 0 ∧ (r.time1, r.time2, r.time3) = s.logTime (s.rd ⟨R.FLT_CTRL, 4, 2⟩) ∧
        r.inLog = decide (s.faultLog.length < 64)) ∧
      t.flt.records.length = s.flt.records.length + 1 ∧ t.is (bitAt R.FLT_INT_STATUS l) = true ∧
      t.is R.FLT_INT_STATUS_escalated = (s.is R.FLT_INT_STATUS_escalated || decide (l ≠ level)) ∧
      t.rd (lowHalf (R.FLT_COUNTL l)) = min (s.rd (lowHalf (R.FLT_COUNTL l)) + 1) 0xFFFF ∧
      (s.faultLog.length ≥ 64 → t.is R.FLT_INT_STATUS_log_ovf = true) ∧
      ((s.errLevel ≤ l ∨ l = 4) → t.is R.FLT_ERR_CTRL_hold = true ∧ t.is R.FLT_STATUS_err_n = true ∧ t.flt.pulse = true) ∧
      (l < 2 → ∀ a, a ∉ [R.FLT_STATUS, R.FLT_ERR_CTRL, R.FLT_INT_STATUS, R.FLT_COUNTL l, R.FLT_LOG_STATUS] → t.reg a = s.reg a) ∧
      (l = 2 → scope ≠ 0 → t.is (bitAt R.FLT_STATUS 18) = true ∧ t.flt.scopes = s.flt.scopes ++ [scope]) ∧
      (l = 2 → scope = 0 → t.flt.scopes = s.flt.scopes ∧ t.is (bitAt R.FLT_STATUS 18) = s.is (bitAt R.FLT_STATUS 18)) ∧
      (l = 3 → t.is (bitAt R.FLT_STATUS 19) = true ∧ t.is (bitAt R.CFG_MODE_HWREQ 11) = true ∧ t.fenced = true) ∧
      (l = 4 → t.is (bitAt R.FLT_STATUS 20) = true ∧ t.halted = true ∧ t.fov.departing = decide (s.fovState ≠ 0)) ∧ SameMemory s t

/-- FLT_ACK acknowledges every record of its levels; FLT_CLEAR ends a forced safe state whose records are all acknowledged without an active
cause, and otherwise only says it is refused; ERR_N follows hold once its pulse has lasted; the watchdog reports at its level once its period has
passed without a kick; injections act while MAINTENANCE is held; a read of FLT_LOG0 pops the oldest record of the log (19 R484, R491, R492, R494 to
R499).
Readings: log entries 10, 38. Completes: fltAck, fltClear, persistentCauseEnd, errNPulseEnd, errHoldWrite, watchdogExpiry, watchdogKick,
injectionArm, injectionFire, injectedReport, faultLogPop. -/
def Obligations.FaultControls : Prop :=
  ∀ (s : State) (w : Word) (source : Byte) (code : Fin 32),
    (Completes (.fltAck w) s fun t => { t with flt := s.flt } = s ∧ t.flt = { s.flt with records := t.flt.records } ∧
      t.flt.records = (s.flt.records.map fun r => { r with acked := r.acked || w.getLsbD r.level }).filter fun r => r.inLog || !r.acked || r.cause) ∧
    (w.getLsbD 2 = false → w.getLsbD 3 = false → exec (.fltClear w) s = .next s) ∧
    (∀ l, (l = 2 ∧ w.getLsbD 2 = true ∧ w.getLsbD 3 = false ∨ l = 3 ∧ w.getLsbD 2 = false ∧ w.getLsbD 3 = true) →
      ((∃ r ∈ s.flt.records, r.level = l ∧ (r.acked = false ∨ r.cause = true)) →
        exec (.fltClear w) s = .next (s.raise R.FLT_INT_STATUS_clear_refused)) ∧
      ((∀ r ∈ s.flt.records, r.level = l → r.acked = true ∧ r.cause = false) → Completes (.fltClear w) s fun t =>
        t.is (bitAt R.FLT_STATUS (16 + l)) = false ∧ t.is R.FLT_INT_STATUS_cleared = true ∧ (l = 2 → t.flt.scopes = []) ∧
        (l = 3 → t.is (bitAt R.CFG_MODE_HWREQ 11) = false) ∧ t.held = s.held ∧ SameMemory s t)) ∧
    (source.toNat = 2 ∧ code = 0 → exec (.persistentCauseEnd source code) s = .next s) ∧
    (¬(source.toNat = 2 ∧ code = 0) → Completes (.persistentCauseEnd source code) s fun t => { t with flt := s.flt } = s ∧
      t.flt.records = (s.flt.records.map fun r => { r with cause := r.cause && !(r.source == source.toNat && r.code == code.val) }).filter
        fun r => r.inLog || !r.acked || r.cause) ∧
    let lasted := s.flt.pulse = true ∧ s.flt.errAt + 250 * max 20 (s.rd R.FLT_ERR_CTRL_pulse) ≤ s.now
    (¬lasted → exec .errNPulseEnd s = .next s) ∧
    (lasted → s.is R.FLT_ERR_CTRL_hold = true → (s.flt.clearAtPulseEnd = false ∨ s.is (bitAt R.FLT_STATUS 20) = true) → exec .errNPulseEnd s
      = .next (s.setFlt { s.flt with pulse := false, clearAtPulseEnd := false })) ∧
    (lasted → s.is R.FLT_STATUS_err_n = true → s.flt.clearAtPulseEnd = true → s.is (bitAt R.FLT_STATUS 20) = false → Completes .errNPulseEnd s fun t =>
      t.is R.FLT_STATUS_err_n = false ∧ t.is R.FLT_ERR_CTRL_hold = false ∧ t.flt.pulse = false ∧ t.outbox = s.outbox ++ [.errN false] ∧
      SameMemory s t ∧ ∀ a, a ∉ [R.FLT_STATUS, R.FLT_ERR_CTRL] → t.reg a = s.reg a) ∧
    (s.owned R.FLT_ERR_CTRL = 0 →
      (w.getLsbD 31 = true → Completes (.errHoldWrite w) s fun t => t.is R.FLT_ERR_CTRL_hold = true ∧
        t.rd R.FLT_ERR_CTRL_pulse = getBits w 0 10 ∧ t.outbox = s.outbox ∧ ∀ a, a ≠ R.FLT_ERR_CTRL → t.reg a = s.reg a) ∧
      (w.getLsbD 31 = false → s.is (bitAt R.FLT_STATUS 20) = true → Completes (.errHoldWrite w) s fun t =>
        t.is R.FLT_ERR_CTRL_hold = s.is R.FLT_ERR_CTRL_hold ∧ t.is R.FLT_STATUS_err_n = s.is R.FLT_STATUS_err_n ∧ t.outbox = s.outbox) ∧
      (w.getLsbD 31 = false → s.is (bitAt R.FLT_STATUS 20) = false → s.flt.pulse = true → Completes (.errHoldWrite w) s fun t =>
        t.is R.FLT_ERR_CTRL_hold = s.is R.FLT_ERR_CTRL_hold ∧ t.flt.clearAtPulseEnd = true ∧ t.outbox = s.outbox) ∧
      (w.getLsbD 31 = false → s.is (bitAt R.FLT_STATUS 20) = false → s.flt.pulse = false → s.is R.FLT_STATUS_err_n = true →
        Completes (.errHoldWrite w) s fun t => t.is R.FLT_ERR_CTRL_hold = false ∧ t.is R.FLT_STATUS_err_n = false ∧
          t.outbox = s.outbox ++ [.errN false])) ∧
    let barks := s.rd wdogPeriod ≠ 0 ∧ s.flt.watchdogAt + 250000 * s.rd wdogPeriod ≤ s.now
    (¬barks → exec .watchdogExpiry s = .next s) ∧
    (barks → exec .watchdogExpiry s = .next (let t := (s.report 2 3 (max 1 (s.rd wdogLevel))).raise R.FLT_INT_STATUS_wdog
      t.setFlt { t.flt with watchdogAt := s.now })) ∧
    exec (.watchdogKick 0x0000A55A) s = .next (s.setFlt { s.flt with watchdogAt := s.now }) ∧
    (w ≠ 0x0000A55A → exec (.watchdogKick w) s = .next s) ∧
    (w.getLsbD 31 = true → s.holds 9 = false → exec (.injectionArm w) s = .next (s.raise R.FLT_INT_STATUS_inj_refused)) ∧
    (w.getLsbD 31 = true → s.holds 9 = true → (getBits w 28 2 = 1 ∨ getBits w 28 2 = 2) → getBits w 0 4 = 3 → s.owned R.FLT_INJ_CTRL = 0 →
      Completes (.injectionArm w) s fun t => t.is R.FLT_INJ_CTRL_arm = true ∧ t.rd R.FLT_INJ_CTRL_flips = getBits w 28 2 ∧
        t.rd R.FLT_INJ_CTRL_target = 3 ∧ SameMemory s t ∧ ∀ a, a ≠ R.FLT_INJ_CTRL → t.reg a = s.reg a) ∧
    (s.is R.FLT_INJ_CTRL_arm = true → Completes .injectionFire s fun t => t.is R.FLT_INJ_CTRL_arm = false ∧
      t.is R.FLT_INT_STATUS_inj_done = true ∧ SameMemory s t ∧ ∀ a, a ∉ [R.FLT_INJ_CTRL, R.FLT_INT_STATUS] → t.reg a = s.reg a) ∧
    (w.getLsbD 31 = true → (s.holds 9 = false ∨ 3 < getBits w 24 3) →
      exec (.injectedReport w) s = .next (s.raise R.FLT_INT_STATUS_inj_refused)) ∧
    (w.getLsbD 31 = true → s.holds 9 = true → getBits w 24 3 ≤ 3 →
      exec (.injectedReport w) s = .next (s.reportAs (getBits w 0 8) (getBits w 16 5) (getBits w 24 3) true)) ∧
    (s.faultLog = [] → exec .faultLogPop s = .next (s.answer [0])) ∧
    (∀ r rest, s.faultLog = r :: rest → Completes .faultLogPop s fun t => t.reply = ⟨[r.word0], .okay⟩ ∧ t.faultLog = rest ∧
      t.snap R.FLT_LOG1 = some r.time1 ∧ t.snap R.FLT_LOG2 = some r.time2 ∧ t.snap R.FLT_LOG3 = some r.time3 ∧ SameMemory s t ∧ t.regs = s.regs)

/-! ## Power admission and background (20) -/

/-- BUDGET_WRITE is refused, with budget_refused and the register unchanged, for a value below F plus the grants held or above the image value;
any other value is taken, where no overlay owns the register (20 R502).
Completes: budgetWrite. -/
def Obligations.BudgetWritesWithinBounds : Prop :=
  ∀ (s : State) (w : Word),
    let v := getBits w 0 12
    let top := getBits (Tab.get resetValue s.layers.image R.WEIR_BUDGET) 0 12
    ((v < s.rd ⟨R.WEIR_RESERVE, 0, 12⟩ + s.granted ∨ top < v) → Completes (.budgetWrite w) s fun t =>
      t.is R.WEIR_INT_STATUS_budget_refused = true ∧ OnlyRegs [R.WEIR_INT_STATUS] s t) ∧
    (s.rd ⟨R.WEIR_RESERVE, 0, 12⟩ + s.granted ≤ v → v ≤ top → s.owned R.WEIR_BUDGET = 0 → Completes (.budgetWrite w) s fun t =>
      t.rd ⟨R.WEIR_BUDGET, 0, 12⟩ = v ∧ (∀ r, (t.requester r).grant = (s.requester r).grant) ∧ SameMemory s t ∧ ∀ a, a ≠ R.WEIR_BUDGET → t.reg a = s.reg a)

/-- A request enters with its cost and is unfit above B_w - F; the grant goes to the highest-ranked request that fits, none past a starving one
and none while over; it is held until its return; ten measurements above B_w set over, withdraw the dredger's request and report, and ten at or
below B_w - 4 end it; a request that has waited for hold ms is starving (20 R501, R503, R505 to R507, R509).
Readings: log entry 13. Completes: weirRequest, weirGrant, weirReturn, weirWithdraw, requestStarving, coreCurrentMeasurement. -/
def Obligations.WeirGrants : Prop :=
  ∀ (s : State) (r : ReqIx) (units : BitVec 12),
    let q := s.requester r
    (Completes (.weirRequest r) s fun t =>
      let cost := s.rd ⟨R.WEIR_COSTr r, 0, 12⟩
      let unfit := decide (budget s - reservation s < cost)
      t.requester r = { pending := true, cost := cost, since := s.now, starving := false, unfit := unfit, grant := q.grant } ∧
      t.is R.WEIR_INT_STATUS_unfit = (s.is R.WEIR_INT_STATUS_unfit || unfit) ∧ (∀ x, x ≠ r.val → t.requester x = s.requester x) ∧
      SameMemory s t ∧ ∀ a, a ≠ R.WEIR_INT_STATUS → t.reg a = s.reg a) ∧
    (s.is weirOver = true → exec .weirGrant s = .next s) ∧
    ((∀ x : ReqIx, (s.requester x).pending = true → s.freeUnits < (s.requester x).cost) → exec .weirGrant s = .next s) ∧
    (s.is weirOver = false → q.pending = true → q.cost ≤ s.freeUnits →
      (∀ x : ReqIx, x < r → (s.requester x).pending = true → s.freeUnits < (s.requester x).cost ∧ (s.requester x).starving = false) →
      exec .weirGrant s = .next ((s.weirTake r).leaveGranted r) ∧
      (s.weirTake r).requester r = { pending := false, cost := 0, since := 0, starving := false, unfit := false, grant := q.grant + q.cost } ∧
      (r.val = 21 → Completes .weirGrant s fun t => t.is drgLeave = true ∧ t.is drgPending = false ∧ t.is R.WEIR_INT_STATUS_granted = true ∧
        (t.requester 21).grant = q.grant + q.cost ∧ ∀ a, a ∉ [R.WEIR_INT_STATUS, R.DRG_STATUS] → t.reg a = s.reg a)) ∧
    (∀ x : ReqIx, s.is weirOver = false → x < r → (s.requester x).pending = true → (s.requester x).starving = true →
      s.freeUnits < (s.requester x).cost → (∀ y : ReqIx, y < x → (s.requester y).pending = false) → exec .weirGrant s = .next s) ∧
    exec (.weirReturn r) s = .next (s.setRequester r { q with grant := 0 }) ∧
    exec (.weirWithdraw r) s = .next (s.setRequester r { pending := false, cost := 0, since := 0, starving := false, unfit := false, grant := q.grant }) ∧
    let waited := max 1 (s.rd ⟨R.WEIR_CTRL, 0, 8⟩) * 250000 ≤ s.now - q.since
    (q.pending = true → waited → q.starving = false → q.unfit = false → exec (.requestStarving r) s
      = .next (((s.setRequester r { q with starving := true }).raise R.WEIR_INT_STATUS_starving).bump (lowHalf R.WEIR_COUNT))) ∧
    ((q.pending = false ∨ ¬waited ∨ q.unfit = true ∨ q.starving = true) → exec (.requestStarving r) s = .next s) ∧
    (s.is weirOver = false → budget s < units.toNat →
      (s.weir.above < 9 → Completes (.coreCurrentMeasurement units) s fun t => t.weir = { s.weir with above := s.weir.above + 1, below := 0 } ∧
        t.rd ⟨R.WEIR_MEAS, 0, 12⟩ = units.toNat ∧ ∀ a, a ≠ R.WEIR_MEAS → t.reg a = s.reg a) ∧
      (s.weir.above = 9 → Completes (.coreCurrentMeasurement units) s fun t => t.is weirOver = true ∧ t.is R.WEIR_INT_STATUS_over = true ∧
        t.is drgPending = false ∧ (s.is drgPending = true → (t.requester 21).pending = false) ∧
        ((∀ f ∈ s.flt.records, f.acked = true) → ∀ x, (t.requester x).grant = (s.requester x).grant) ∧ SameMemory s t)) ∧
    (s.is weirOver = true → units.toNat + 4 ≤ budget s → s.weir.below = 9 → Completes (.coreCurrentMeasurement units) s fun t =>
      t.is weirOver = false ∧ SameMemory s t ∧ ∀ a, a ∉ [R.WEIR_MEAS, R.WEIR_STATUS] → t.reg a = s.reg a)

/-- A pass begins with its first due burst and spaces its bursts over its period; a due burst asks for leave; with it the words of the pass are
read, errors counted, and the leave returned; a pass of more than twice its period is late, and its end gives its duration; disabling stops the
dredger and returns its grant; Tj is the highest temperature and sets warn; a rail outside its window on the eighth sample reports a level-3
fault; once its period has elapsed a telemetry record goes to the next slot of its ring, and an abandoned one keeps its number (20 R510, R512 to
R514, R516 to R518).
Readings: log entries 24, 31, 32, 35, 36. Completes: dredgerBurst, dredgerBurstDue, dredgerPassEnd, dredgerEnableWrite, monitorSample,
telemetryRecord. -/
def Obligations.DredgerMonitorsTelemetry : Prop :=
  ∀ (s : State) (w : Word) (dram : Bool) (mv : BitVec 16) (v : Fin 9) (t0 t1 t2 t3 : BitVec 16),
    let p := s.pass dram
    (s.is drgEn = true → s.is drgLeave = true → s.drg.region = dram → (s.pass !dram).due = false →
      Completes (.dredgerBurst [.sampleMemory .corrected]) s fun t =>
      t.pass dram = { p with done := p.done + burstWords dram, due := false } ∧ (t.pass !dram) = (s.pass !dram) ∧
      t.rd drgProgress = min 65535 ((p.done + burstWords dram) * 65536 / max 1 (s.passTotal dram)) ∧ t.is drgLeave = false ∧ (t.requester 21).grant = 0 ∧
      t.rd (lowHalf R.DRG_COUNT) = min (s.rd (lowHalf R.DRG_COUNT) + 1) 0xFFFF ∧
      t.rd (lowHalf R.RTR_ECC_COUNT) = min (s.rd (lowHalf R.RTR_ECC_COUNT) + 1) 0xFFFF ∧ SameMemory s t) ∧
    ((s.is drgEn = false ∨ s.is drgLeave = false) → exec (.dredgerBurst []) s = .next s) ∧
    let due := s.is drgEn = true ∧ (dram = true → s.is drgDramEn = true) ∧ p.done < s.passTotal dram ∧ p.next ≤ s.now
    let began := if p.period = 0 then { p with start := s.now, period := s.passPeriod dram } else p
    let next := max began.start began.next + began.period / max 1 ((s.passTotal dram + burstWords dram - 1) / burstWords dram)
    (¬due → exec (.dredgerBurstDue dram) s = .next s) ∧
    (due → s.is drgPending = false → s.is drgLeave = false → (s.pass !dram).due = false → Completes (.dredgerBurstDue dram) s fun t =>
      t.pass dram = { began with due := true, next := next } ∧ (t.pass !dram) = (s.pass !dram) ∧
      t.is drgPending = true ∧ t.is drgRegion = dram ∧ (t.requester 21).pending = true ∧
      (t.requester 21).cost = s.rd ⟨R.WEIR_COSTr 21, 0, 12⟩ ∧ ∀ a, a ∉ [R.DRG_STATUS, R.WEIR_INT_STATUS] → t.reg a = s.reg a) ∧
    let took := s.now - p.start
    let late := p.late = false ∧ 2 * p.period < took
    let passReg := if dram then R.DRG_PASS_DRAM else R.DRG_PASS_SRAM
    (p.period = 0 ∨ (p.done < s.passTotal dram ∧ ¬late) → exec (.dredgerPassEnd dram) s = .next s) ∧
    (p.period ≠ 0 → p.done < s.passTotal dram → late → exec (.dredgerPassEnd dram) s
      = .next (((s.setPass dram { p with late := true }).raise (bitAt R.DRG_INT_STATUS 2)).report 25 2 1)) ∧
    (p.period ≠ 0 → s.passTotal dram ≤ p.done → ¬late → Completes (.dredgerPassEnd dram) s fun t =>
      t.pass dram = { next := p.next } ∧ (t.pass !dram) = (s.pass !dram) ∧
      t.rd (lowHalf passReg) = min 65535 (took / (if dram then 60 * 250000000 else 250000000)) ∧
      t.is (bitAt R.DRG_INT_STATUS (b2n dram)) = true ∧ ∀ a, a ∉ [passReg, R.DRG_INT_STATUS] → t.reg a = s.reg a) ∧
    (s.owned R.DRG_CTRL = 0 → w.getLsbD 0 = false → Completes (.dredgerEnableWrite w) s fun t => t.is drgEn = false ∧
      t.is drgDramEn = w.getLsbD 1 ∧ t.is drgPending = false ∧ t.is drgLeave = false ∧ (t.requester 21).pending = false ∧
      (t.requester 21).grant = 0 ∧ (∀ e ∈ t.xbar.waiting, e.1.master ≠ 6) ∧ t.drg = s.drg ∧ SameMemory s t) ∧
    (s.owned R.DRG_CTRL = 0 → w.getLsbD 0 = true → Completes (.dredgerEnableWrite w) s fun t => t.is drgEn = true ∧
      t.drg.sram = s.drg.sram ∧ t.drg.dram = s.drg.dram ∧ SameMemory s t) ∧
    (let tj := max (max t0.toInt t1.toInt) (max t2.toInt t3.toInt)
     let warnAt : Int := s.rd ⟨R.TLM_CTRL, 0, 8⟩ * 16
     (warnAt ≤ tj → s.tlm.warn = false → tj < 115 * 16 → Completes (.monitorSample (.temperature [t0, t1, t2, t3])) s fun t =>
        t.rdS (lowHalf R.TLM_TJ) = tj ∧ t.is (bitAt R.TLM_INT_STATUS 0) = true ∧ t.tlm.warn = true ∧ t.tlm.hot = 0 ∧ SameMemory s t) ∧
     (tj < warnAt → s.tlm.warn = false → tj < 115 * 16 → 100 * 16 < tj →
        Completes (.monitorSample (.temperature [t0, t1, t2, t3])) s fun t => t.rdS (lowHalf R.TLM_TJ) = tj ∧ t.tlm = { s.tlm with hot := 0 } ∧
          t.flt = s.flt ∧ t.rd (lowHalf (R.TLM_TEMPn 0)) = t0.toNat ∧ t.rd (lowHalf (R.TLM_TEMPn 3)) = t3.toNat ∧
          ∀ a, a ∉ [R.TLM_TJ, R.TLM_TEMPn 0, R.TLM_TEMPn 1, R.TLM_TEMPn 2, R.TLM_TEMPn 3] → t.reg a = s.reg a)) ∧
    (s.reg (R.TLM_VWINv v) ≠ 0 → (mv.toNat < s.rd (lowHalf (R.TLM_VWINv v)) ∨ s.rd (highHalf (R.TLM_VWINv v)) < mv.toNat) →
      let was := Tab.get (fun _ => 0) s.tlm.outside v
      let t := (s.wr (lowHalf (R.TLM_VMEASv v)) mv.toNat).setTlm { s.tlm with inside := Tab.set (fun _ => 0) s.tlm.inside v 0,
                                                                              outside := Tab.set (fun _ => 0) s.tlm.outside v (min 8 (was + 1)) }
      (was ≠ 7 → exec (.monitorSample (.rail v mv)) s = .next t) ∧
      (was = 7 → exec (.monitorSample (.rail v mv)) s = .next (t.report 2 2 3))) ∧
    let elapsed := s.tlm.since + max 1 (min 1000 (s.rd (highHalf R.TLM_CTRL))) * 250000
    (s.is tlmEnabled = false ∨ s.now < elapsed → exec (.telemetryRecord dram) s = .next s) ∧
    (s.is tlmEnabled = true → elapsed ≤ s.now → Completes (.telemetryRecord true) s fun t =>
      t.tlm = { s.tlm with since := elapsed, record := s.tlm.record + 1 } ∧
      t.is (bitAt R.TLM_INT_STATUS 2) = true ∧ t.rd (lowHalf R.TLM_COUNT) = min (s.rd (lowHalf R.TLM_COUNT) + 1) 0xFFFF ∧
      t.reg R.TLM_WR_IDX = s.reg R.TLM_WR_IDX ∧ SameMemory s t) ∧
    (let slot := (s.reg R.TLM_WR_IDX).toNat % 2 ^ max 1 (min 12 (s.rd ⟨R.TLM_CTRL, 8, 4⟩))
     let off := s.wide R.TLM_RING_LO R.TLM_RING_HI + 272 * slot - dramBase
     let (a, b, c) := s.logTime (s.rd ⟨R.FLT_CTRL, 4, 2⟩)
     let bytes := bytesOf ([BitVec.ofNat 32 s.tlm.record, a, b, c] ++ List.replicate 64 0)
     s.is tlmEnabled = true → elapsed ≤ s.now → (∀ i, i < 64 → s.rd ⟨R.TLM_ITEMi i, 30, 2⟩ = 0) → dramBase ≤ s.wide R.TLM_RING_LO R.TLM_RING_HI →
     off + 272 ≤ s.dramSize → s.dramSize ≤ 14 * 2 ^ 30 → s.shielded (off + dramBase) 272 = false → Completes (.telemetryRecord false) s fun t =>
       (∀ o, t.dramByte o = if off ≤ o ∧ o < off + 272 then bytes.getD (o - off) 0 else s.dramByte o) ∧ (∀ o, t.ssmByte o = s.ssmByte o) ∧
       t.reg R.TLM_WR_IDX = s.reg R.TLM_WR_IDX + 1 ∧ t.tlm = { s.tlm with since := elapsed, record := s.tlm.record + 1 } ∧
       ∀ x, x ≠ R.TLM_WR_IDX → t.reg x = s.reg x)
end

