-- ==== Sys2Proof/Laws/Tab.lean ====
section
/-!
SUPPORT. Laws of sparse tables: a read after a write, what a write leaves alone, and that every operation keeps the canonical form.
-/
namespace Sys2Proof.Machine

variable {α : Type}

@[simp] theorem Tab.get_nil (d : Nat → α) (k : Nat) : Tab.get d [] k = d k := rfl

theorem Tab.get_erase (d : Nat → α) (t : List (Nat × α)) (k j : Nat) :
    Tab.get d (Tab.erase k t) j = if j = k then d j else Tab.get d t j := by
  induction t with
  | nil => simp [Tab.erase, Tab.get]
  | cons e t ih =>
    obtain ⟨i, v⟩ := e
    unfold Tab.erase
    split
    · rw [ih]; split <;> rename_i h1 h2
      · rfl
      · simp only [Tab.get]; rw [if_neg (by omega)]
    · simp only [Tab.get]; rw [ih]; split <;> rename_i h1 h2
      · subst h2; rw [if_neg h1]
      · rfl

theorem Tab.get_insert (d : Nat → α) (t : List (Nat × α)) (k j : Nat) (v : α)
    (fresh : ∀ e ∈ t, e.1 ≠ k) : Tab.get d (Tab.insert k v t) j = if j = k then v else Tab.get d t j := by
  induction t with
  | nil => simp only [Tab.insert, Tab.get]; split <;> rename_i h <;> simp [eq_comm, h]
  | cons e t ih =>
    obtain ⟨i, w⟩ := e
    have hi : i ≠ k := fresh (i, w) (List.mem_cons_self ..)
    have ih := ih fun e he => fresh e (List.mem_cons_of_mem _ he)
    unfold Tab.insert
    split
    · simp only [Tab.get]; by_cases hj : j = k
      · subst hj; simp
      · rw [if_neg (Ne.symm hj), if_neg hj]
    · simp only [Tab.get]; rw [ih]; by_cases hj : j = k
      · subst hj; simp [hi]
      · simp [hj]

theorem Tab.mem_erase {t : List (Nat × α)} {k : Nat} {e : Nat × α} (h : e ∈ Tab.erase k t) : e ∈ t ∧ e.1 ≠ k := by
  induction t with
  | nil => simp [Tab.erase] at h
  | cons f t ih =>
    obtain ⟨i, v⟩ := f
    unfold Tab.erase at h
    split at h
    · exact ⟨List.mem_cons_of_mem _ (ih h).1, (ih h).2⟩
    · rcases List.mem_cons.1 h with rfl | h
      · exact ⟨List.mem_cons_self .., ‹_›⟩
      · exact ⟨List.mem_cons_of_mem _ (ih h).1, (ih h).2⟩

theorem Tab.mem_insert {t : List (Nat × α)} {k : Nat} {v : α} {e : Nat × α} (h : e ∈ Tab.insert k v t) : e = (k, v) ∨ e ∈ t := by
  induction t with
  | nil => simp [Tab.insert] at h; exact .inl h
  | cons f t ih =>
    obtain ⟨i, w⟩ := f
    unfold Tab.insert at h
    split at h
    · rcases List.mem_cons.1 h with h | h
      · exact .inl h
      · exact .inr h
    · rcases List.mem_cons.1 h with h | h
      · exact .inr (h ▸ List.mem_cons_self ..)
      · rcases ih h with h | h
        · exact .inl h
        · exact .inr (List.mem_cons_of_mem _ h)

/-- Read after write: the value written at its key, the old value at any other. -/
theorem Tab.get_set [DecidableEq α] (d : Nat → α) (t : List (Nat × α)) (k j : Nat) (v : α) :
    Tab.get d (Tab.set d t k v) j = if j = k then v else Tab.get d t j := by
  unfold Tab.set
  split <;> rename_i h
  · rw [Tab.get_erase]; split
    · rename_i hj; rw [h, hj]
    · rfl
  · rw [Tab.get_insert d _ k j v fun e he => (Tab.mem_erase he).2, Tab.get_erase]
    split <;> rfl

theorem Tab.erase_erase (t : List (Nat × α)) (k : Nat) : Tab.erase k (Tab.erase k t) = Tab.erase k t := by
  induction t with
  | nil => rfl
  | cons e t ih =>
    obtain ⟨i, v⟩ := e
    simp only [Tab.erase]
    split
    · exact ih
    · simp only [Tab.erase, if_neg ‹_›, ih]

theorem Tab.erase_insert (t : List (Nat × α)) (k : Nat) (v : α) : Tab.erase k (Tab.insert k v t) = Tab.erase k t := by
  induction t with
  | nil => simp [Tab.insert, Tab.erase]
  | cons e t ih =>
    obtain ⟨i, w⟩ := e
    simp only [Tab.insert]
    split
    · simp [Tab.erase]
    · simp only [Tab.erase, ih]

/-- A second write of the same key replaces the first. -/
theorem Tab.set_set [DecidableEq α] (d : Nat → α) (t : List (Nat × α)) (k : Nat) (v w : α) :
    Tab.set d (Tab.set d t k v) k w = Tab.set d t k w := by
  have h : Tab.erase k (Tab.set d t k v) = Tab.erase k t := by
    unfold Tab.set
    split
    · exact Tab.erase_erase t k
    · rw [Tab.erase_insert, Tab.erase_erase]
  unfold Tab.set at h ⊢
  rw [h]

@[simp] theorem Tab.get_set_self [DecidableEq α] (d : Nat → α) (t : List (Nat × α)) (k : Nat) (v : α) :
    Tab.get d (Tab.set d t k v) k = v := by rw [Tab.get_set, if_pos rfl]

theorem Tab.get_set_ne [DecidableEq α] (d : Nat → α) (t : List (Nat × α)) {k j : Nat} (v : α) (h : j ≠ k) :
    Tab.get d (Tab.set d t k v) j = Tab.get d t j := by rw [Tab.get_set, if_neg h]

/-! ## The canonical form -/

theorem Tab.above_some {l k : Nat} : Tab.above (some l) k = true ↔ l < k := by simp [Tab.above]

theorem Tab.above_trans {lo : Option Nat} {i k : Nat} (h : Tab.above lo i = true) (hk : i < k) : Tab.above lo k = true := by
  cases lo with
  | none => rfl
  | some l => rw [Tab.above_some] at h ⊢; omega

theorem Tab.rising_weaken {lo : Option Nat} {i : Nat} {t : List (Nat × α)} (h : Tab.rising (some i) t = true)
    (hi : Tab.above lo i = true) : Tab.rising lo t = true := by
  cases t with
  | nil => rfl
  | cons e t =>
    obtain ⟨k, v⟩ := e
    simp only [Tab.rising, Bool.and_eq_true] at h ⊢
    exact ⟨Tab.above_trans hi (Tab.above_some.1 h.1), h.2⟩

theorem Tab.rising_erase {lo : Option Nat} {t : List (Nat × α)} (k : Nat) (h : Tab.rising lo t = true) :
    Tab.rising lo (Tab.erase k t) = true := by
  induction t generalizing lo with
  | nil => rfl
  | cons e t ih =>
    obtain ⟨i, v⟩ := e
    simp only [Tab.rising, Bool.and_eq_true] at h
    unfold Tab.erase
    split
    · exact Tab.rising_weaken (ih h.2) h.1
    · simp only [Tab.rising, Bool.and_eq_true]
      exact ⟨h.1, ih h.2⟩

theorem Tab.rising_insert {lo : Option Nat} {t : List (Nat × α)} {k : Nat} (v : α) (h : Tab.rising lo t = true)
    (hlo : Tab.above lo k = true) (fresh : ∀ e ∈ t, e.1 ≠ k) : Tab.rising lo (Tab.insert k v t) = true := by
  induction t generalizing lo with
  | nil => simp only [Tab.insert, Tab.rising, Bool.and_true]; exact hlo
  | cons e t ih =>
    obtain ⟨i, w⟩ := e
    have hi : i ≠ k := fresh (i, w) (List.mem_cons_self ..)
    simp only [Tab.rising, Bool.and_eq_true] at h
    unfold Tab.insert
    split <;> rename_i hk
    · simp only [Tab.rising, Bool.and_eq_true]
      exact ⟨hlo, Tab.above_some.2 hk, h.2⟩
    · simp only [Tab.rising, Bool.and_eq_true]
      exact ⟨h.1, ih h.2 (Tab.above_some.2 (by omega)) fun e he => fresh e (List.mem_cons_of_mem _ he)⟩

/-- Erasing keeps the canonical form. -/
theorem Tab.wf_erase [DecidableEq α] {d : Nat → α} {t : List (Nat × α)} (k : Nat) (h : Tab.wf d t = true) :
    Tab.wf d (Tab.erase k t) = true := by
  simp only [Tab.wf, Tab.lean, Bool.and_eq_true, List.all_eq_true] at h ⊢
  exact ⟨Tab.rising_erase k h.1, fun e he => h.2 e (Tab.mem_erase he).1⟩

/-- Every write keeps the canonical form. -/
theorem Tab.wf_set [DecidableEq α] {d : Nat → α} {t : List (Nat × α)} (k : Nat) (v : α) (h : Tab.wf d t = true) :
    Tab.wf d (Tab.set d t k v) = true := by
  unfold Tab.set
  split <;> rename_i hv
  · exact Tab.wf_erase k h
  · have h' := Tab.wf_erase k h
    simp only [Tab.wf, Tab.lean, Bool.and_eq_true, List.all_eq_true] at h' ⊢
    refine ⟨Tab.rising_insert v h'.1 rfl fun e he => (Tab.mem_erase he).2, fun e he => ?_⟩
    rcases Tab.mem_insert he with rfl | he
    · simpa using hv
    · exact h'.2 e he

theorem Tab.wf_nil [DecidableEq α] (d : Nat → α) : Tab.wf d ([] : List (Nat × α)) = true := rfl

end Sys2Proof.Machine
end

