-- ==== Sys2Proof/Laws/Regs.lean ====
section
/-!
SUPPORT. Laws of registers and fields: a field read after a field write, in its own register and in another; what the named register
operations of Machine/Ops.lean do to a register; and that each of them keeps the register table canonical.
-/
namespace Sys2Proof.Machine

/-! ## Bit fields -/

theorem getBits_lt (w : Word) (l n : Nat) : getBits w l n < 2 ^ n := Nat.mod_lt _ (Nat.two_pow_pos n)

theorem getBits_testBit (w : Word) (l n i : Nat) : (getBits w l n).testBit i = (decide (i < n) && w.getLsbD (l + i)) := by
  simp [getBits, Nat.testBit_mod_two_pow, Nat.testBit_shiftRight, BitVec.testBit_toNat]

/-- The bits of a word after a field write. -/
theorem putBits_getLsbD (w : Word) (l n v i : Nat) (hi : i < 32) :
    (putBits w l n v).getLsbD i = if l ≤ i ∧ i < l + n then v.testBit (i - l) else w.getLsbD i := by
  simp only [putBits, BitVec.getLsbD_or, BitVec.getLsbD_and, BitVec.getLsbD_not, BitVec.getLsbD_ofNat, hi, decide_true, Bool.true_and,
    Nat.testBit_shiftLeft, Nat.testBit_mod_two_pow]
  by_cases h1 : l ≤ i
  · by_cases h2 : i < l + n
    · have h3 : i - l < n := by omega
      simp [h1, h2, h3, Nat.testBit_two_pow_sub_one]
    · have h3 : ¬ i - l < n := by omega
      simp [h1, h2, h3, Nat.testBit_two_pow_sub_one]
  · simp [h1]

/-- A field read back after it was written holds the low bits written. -/
theorem getBits_putBits_same (w : Word) (l n v : Nat) (h : l + n ≤ 32) : getBits (putBits w l n v) l n = v % 2 ^ n := by
  apply Nat.eq_of_testBit_eq
  intro i
  rw [getBits_testBit, Nat.testBit_mod_two_pow]
  by_cases hi : i < n
  · rw [putBits_getLsbD _ _ _ _ _ (by omega), if_pos (by omega)]
    simp [hi]
  · simp [hi]

/-- A field apart from the one written keeps its value. -/
theorem getBits_putBits_apart (w : Word) (l n v l' n' : Nat) (h : l + n ≤ l' ∨ l' + n' ≤ l) :
    getBits (putBits w l n v) l' n' = getBits w l' n' := by
  apply Nat.eq_of_testBit_eq
  intro i
  rw [getBits_testBit, getBits_testBit]
  by_cases hi : i < n'
  · by_cases h32 : l' + i < 32
    · rw [putBits_getLsbD _ _ _ _ _ h32, if_neg (by omega)]
    · rw [BitVec.getLsbD_of_ge _ _ (by omega), BitVec.getLsbD_of_ge _ _ (by omega)]
  · simp [hi]

/-! ## Registers -/

variable (s : State)

theorem State.reg_setReg (a b : Nat) (v : Word) : (s.setReg a v).reg b = if b = a then v else s.reg b := by
  simp only [State.reg, State.setReg, Tab.get_set]

@[simp] theorem State.reg_setReg_self (a : Nat) (v : Word) : (s.setReg a v).reg a = v := by simp [State.reg_setReg]

theorem State.reg_setReg_ne {a b : Nat} (v : Word) (h : b ≠ a) : (s.setReg a v).reg b = s.reg b := by simp [State.reg_setReg, h]

theorem State.reg_wr (f : FieldAt) (v b : Nat) :
    (s.wr f v).reg b = if b = f.addr then putBits (s.reg f.addr) f.lsb f.width v else s.reg b := by
  simp only [State.wr, State.reg_setReg]

theorem State.reg_wr_ne {f : FieldAt} {b : Nat} (v : Nat) (h : b ≠ f.addr) : (s.wr f v).reg b = s.reg b := by simp [State.reg_wr, h]

/-- A field holds what was written to it. -/
theorem State.rd_wr_same (f : FieldAt) (v : Nat) (h : f.lsb + f.width ≤ 32) : (s.wr f v).rd f = v % 2 ^ f.width := by
  simp only [State.rd, State.reg_wr, if_true]
  exact getBits_putBits_same _ _ _ _ h

/-- A field of another register keeps its value. -/
theorem State.rd_wr_other {f g : FieldAt} (v : Nat) (h : g.addr ≠ f.addr) : (s.wr f v).rd g = s.rd g := by
  simp [State.rd, State.reg_wr, h]

/-- A field beside the one written keeps its value. -/
theorem State.rd_wr_apart {f g : FieldAt} (v : Nat) (h : f.lsb + f.width ≤ g.lsb ∨ g.lsb + g.width ≤ f.lsb) :
    (s.wr f v).rd g = s.rd g := by
  simp only [State.rd, State.reg_wr]
  split
  · rename_i ha; rw [ha]; exact getBits_putBits_apart _ _ _ _ _ _ h
  · rfl

theorem State.rd_setReg_other {f : FieldAt} {a : Nat} (v : Word) (h : f.addr ≠ a) : (s.setReg a v).rd f = s.rd f := by
  simp [State.rd, State.reg_setReg, h]

theorem State.rd_setReg_self (f : FieldAt) (v : Word) : (s.setReg f.addr v).rd f = getBits v f.lsb f.width := by
  simp [State.rd]

/-- An event raised is set. -/
theorem State.is_raise (f : FieldAt) (h : f.lsb + f.width ≤ 32) (hw : 0 < f.width) : (s.raise f).is f = true := by
  have h1 : 1 % 2 ^ f.width = 1 := Nat.mod_eq_of_lt (Nat.one_lt_two_pow (by omega))
  simp [State.raise, State.is, State.rd_wr_same _ f 1 h, h1]

theorem State.reg_raise_ne {f : FieldAt} {b : Nat} (h : b ≠ f.addr) : (s.raise f).reg b = s.reg b := State.reg_wr_ne s 1 h

theorem State.reg_bump_ne {f : FieldAt} {b : Nat} (n : Nat) (h : b ≠ f.addr) : (s.bump f n).reg b = s.reg b := State.reg_wr_ne s _ h

/-- A count saturates at the top of its field. -/
theorem State.rd_bump (f : FieldAt) (n : Nat) (h : f.lsb + f.width ≤ 32) : (s.bump f n).rd f = min (s.rd f + n) (2 ^ f.width - 1) := by
  rw [State.bump, State.rd_wr_same _ _ _ h]
  have := Nat.two_pow_pos f.width
  exact Nat.mod_eq_of_lt (by omega)

/-! ## The canonical form -/

theorem State.wf_setReg (a : Nat) (v : Word) (h : Tab.wf resetValue s.regs = true) : Tab.wf resetValue (s.setReg a v).regs = true :=
  Tab.wf_set a v h

theorem State.wf_setDramByte (o : Nat) (b : Byte) (h : Tab.wf (fun _ => 0) s.dram = true) :
    Tab.wf (fun _ => (0 : Byte)) (s.setDramByte o b).dram = true := Tab.wf_set o b h

theorem State.wf_setSsmByte (o : Nat) (b : Byte) (h : Tab.wf (fun _ => 0) s.ssm = true) :
    Tab.wf (fun _ => (0 : Byte)) (s.setSsmByte o b).ssm = true := Tab.wf_set o b h

/-! ## Memories -/

theorem State.dramByte_set (o p : Nat) (b : Byte) : (s.setDramByte o b).dramByte p = if p = o then b else s.dramByte p := by
  simp only [State.dramByte, State.setDramByte, Tab.get_set]

theorem State.ssmByte_set (o p : Nat) (b : Byte) : (s.setSsmByte o b).ssmByte p = if p = o then b else s.ssmByte p := by
  simp only [State.ssmByte, State.setSsmByte, Tab.get_set]

/-- A run of bytes written is what those addresses read, and every other address reads as before. -/
theorem State.dramByte_setBytes (o p : Nat) (bs : List Byte) :
    (s.setDramBytes o bs).dramByte p = if h : o ≤ p ∧ p - o < bs.length then bs[p - o] else s.dramByte p := by
  induction bs generalizing s o with
  | nil => simp [State.setDramBytes]
  | cons b t ih =>
    rw [State.setDramBytes, ih, State.dramByte_set]
    by_cases h0 : p = o
    · subst h0; simp
    · by_cases h1 : o + 1 ≤ p ∧ p - (o + 1) < t.length
      · rw [dif_pos h1, dif_pos (by simp only [List.length_cons]; omega)]
        have : p - o = (p - (o + 1)) + 1 := by omega
        simp [this]
      · rw [dif_neg h1, dif_neg (by simp only [List.length_cons]; omega), if_neg h0]

theorem State.ssmByte_setBytes (o p : Nat) (bs : List Byte) :
    (s.setSsmBytes o bs).ssmByte p = if h : o ≤ p ∧ p - o < bs.length then bs[p - o] else s.ssmByte p := by
  induction bs generalizing s o with
  | nil => simp [State.setSsmBytes]
  | cons b t ih =>
    rw [State.setSsmBytes, ih, State.ssmByte_set]
    by_cases h0 : p = o
    · subst h0; simp
    · by_cases h1 : o + 1 ≤ p ∧ p - (o + 1) < t.length
      · rw [dif_pos h1, dif_pos (by simp only [List.length_cons]; omega)]
        have : p - o = (p - (o + 1)) + 1 := by omega
        simp [this]
      · rw [dif_neg h1, dif_neg (by simp only [List.length_cons]; omega), if_neg h0]

end Sys2Proof.Machine
end

