-- ==== Sys2Proof/Laws/State.lean ====
section
/-!
SUPPORT. What each basic update of the state leaves alone and what it stores: one lemma per field per update.
-/
namespace Sys2Proof.Machine

variable (s : State)

@[simp] theorem State.setReg_pending (a : Nat) (v : Word) : (s.setReg a v).pending = s.pending := rfl
@[simp] theorem State.setReg_now (a : Nat) (v : Word) : (s.setReg a v).now = s.now := rfl
@[simp] theorem State.setReg_freeCount (a : Nat) (v : Word) : (s.setReg a v).freeCount = s.freeCount := rfl
@[simp] theorem State.setReg_layers (a : Nat) (v : Word) : (s.setReg a v).layers = s.layers := rfl
@[simp] theorem State.setReg_reply (a : Nat) (v : Word) : (s.setReg a v).reply = s.reply := rfl
@[simp] theorem State.setReg_outbox (a : Nat) (v : Word) : (s.setReg a v).outbox = s.outbox := rfl
@[simp] theorem State.setReg_doms (a : Nat) (v : Word) : (s.setReg a v).doms = s.doms := rfl
@[simp] theorem State.setReg_locks (a : Nat) (v : Word) : (s.setReg a v).locks = s.locks := rfl
@[simp] theorem State.setReg_glb (a : Nat) (v : Word) : (s.setReg a v).glb = s.glb := rfl
@[simp] theorem State.setReg_cfg (a : Nat) (v : Word) : (s.setReg a v).cfg = s.cfg := rfl
@[simp] theorem State.setReg_flt (a : Nat) (v : Word) : (s.setReg a v).flt = s.flt := rfl
@[simp] theorem State.setReg_weir (a : Nat) (v : Word) : (s.setReg a v).weir = s.weir := rfl
@[simp] theorem State.setReg_evt (a : Nat) (v : Word) : (s.setReg a v).evt = s.evt := rfl
@[simp] theorem State.setReg_ssm (a : Nat) (v : Word) : (s.setReg a v).ssm = s.ssm := rfl
@[simp] theorem State.setReg_dram (a : Nat) (v : Word) : (s.setReg a v).dram = s.dram := rfl
@[simp] theorem State.setReg_engines (a : Nat) (v : Word) : (s.setReg a v).engines = s.engines := rfl
@[simp] theorem State.setReg_waits (a : Nat) (v : Word) : (s.setReg a v).waits = s.waits := rfl
@[simp] theorem State.setReg_substs (a : Nat) (v : Word) : (s.setReg a v).substs = s.substs := rfl
@[simp] theorem State.setReg_basin (a : Nat) (v : Word) : (s.setReg a v).basin = s.basin := rfl
@[simp] theorem State.setReg_router (a : Nat) (v : Word) : (s.setReg a v).router = s.router := rfl
@[simp] theorem State.setReg_feeds (a : Nat) (v : Word) : (s.setReg a v).feeds = s.feeds := rfl
@[simp] theorem State.setReg_frames (a : Nat) (v : Word) : (s.setReg a v).frames = s.frames := rfl
@[simp] theorem State.setReg_flc (a : Nat) (v : Word) : (s.setReg a v).flc = s.flc := rfl
@[simp] theorem State.setReg_tdm (a : Nat) (v : Word) : (s.setReg a v).tdm = s.tdm := rfl
@[simp] theorem State.setReg_amps (a : Nat) (v : Word) : (s.setReg a v).amps = s.amps := rfl
@[simp] theorem State.setReg_ampGroups (a : Nat) (v : Word) : (s.setReg a v).ampGroups = s.ampGroups := rfl
@[simp] theorem State.setReg_cands (a : Nat) (v : Word) : (s.setReg a v).cands = s.cands := rfl
@[simp] theorem State.setReg_dplls (a : Nat) (v : Word) : (s.setReg a v).dplls = s.dplls := rfl
@[simp] theorem State.setReg_pulses (a : Nat) (v : Word) : (s.setReg a v).pulses = s.pulses := rfl
@[simp] theorem State.setReg_tbs (a : Nat) (v : Word) : (s.setReg a v).tbs = s.tbs := rfl
@[simp] theorem State.setReg_txqs (a : Nat) (v : Word) : (s.setReg a v).txqs = s.txqs := rfl
@[simp] theorem State.setReg_macs (a : Nat) (v : Word) : (s.setReg a v).macs = s.macs := rfl
@[simp] theorem State.setReg_txStreams (a : Nat) (v : Word) : (s.setReg a v).txStreams = s.txStreams := rfl
@[simp] theorem State.setReg_rxStreams (a : Nat) (v : Word) : (s.setReg a v).rxStreams = s.rxStreams := rfl
@[simp] theorem State.setReg_legs (a : Nat) (v : Word) : (s.setReg a v).legs = s.legs := rfl
@[simp] theorem State.setReg_lanes (a : Nat) (v : Word) : (s.setReg a v).lanes = s.lanes := rfl
@[simp] theorem State.setReg_links (a : Nat) (v : Word) : (s.setReg a v).links = s.links := rfl
@[simp] theorem State.setReg_conceal (a : Nat) (v : Word) : (s.setReg a v).conceal = s.conceal := rfl
@[simp] theorem State.setReg_lastGood (a : Nat) (v : Word) : (s.setReg a v).lastGood = s.lastGood := rfl
@[simp] theorem State.setReg_fov (a : Nat) (v : Word) : (s.setReg a v).fov = s.fov := rfl
@[simp] theorem State.setReg_dmc (a : Nat) (v : Word) : (s.setReg a v).dmc = s.dmc := rfl
@[simp] theorem State.setReg_xbar (a : Nat) (v : Word) : (s.setReg a v).xbar = s.xbar := rfl
@[simp] theorem State.setReg_dma (a : Nat) (v : Word) : (s.setReg a v).dma = s.dma := rfl
@[simp] theorem State.setReg_gpios (a : Nat) (v : Word) : (s.setReg a v).gpios = s.gpios := rfl
@[simp] theorem State.setReg_svc (a : Nat) (v : Word) : (s.setReg a v).svc = s.svc := rfl
@[simp] theorem State.setReg_pcie (a : Nat) (v : Word) : (s.setReg a v).pcie = s.pcie := rfl
@[simp] theorem State.setReg_drg (a : Nat) (v : Word) : (s.setReg a v).drg = s.drg := rfl
@[simp] theorem State.setReg_tlm (a : Nat) (v : Word) : (s.setReg a v).tlm = s.tlm := rfl

@[simp] theorem State.wr_pending (f : FieldAt) (v : Nat) : (s.wr f v).pending = s.pending := rfl
@[simp] theorem State.wr_now (f : FieldAt) (v : Nat) : (s.wr f v).now = s.now := rfl
@[simp] theorem State.wr_freeCount (f : FieldAt) (v : Nat) : (s.wr f v).freeCount = s.freeCount := rfl
@[simp] theorem State.wr_layers (f : FieldAt) (v : Nat) : (s.wr f v).layers = s.layers := rfl
@[simp] theorem State.wr_reply (f : FieldAt) (v : Nat) : (s.wr f v).reply = s.reply := rfl
@[simp] theorem State.wr_outbox (f : FieldAt) (v : Nat) : (s.wr f v).outbox = s.outbox := rfl
@[simp] theorem State.wr_doms (f : FieldAt) (v : Nat) : (s.wr f v).doms = s.doms := rfl
@[simp] theorem State.wr_locks (f : FieldAt) (v : Nat) : (s.wr f v).locks = s.locks := rfl
@[simp] theorem State.wr_glb (f : FieldAt) (v : Nat) : (s.wr f v).glb = s.glb := rfl
@[simp] theorem State.wr_cfg (f : FieldAt) (v : Nat) : (s.wr f v).cfg = s.cfg := rfl
@[simp] theorem State.wr_flt (f : FieldAt) (v : Nat) : (s.wr f v).flt = s.flt := rfl
@[simp] theorem State.wr_weir (f : FieldAt) (v : Nat) : (s.wr f v).weir = s.weir := rfl
@[simp] theorem State.wr_evt (f : FieldAt) (v : Nat) : (s.wr f v).evt = s.evt := rfl
@[simp] theorem State.wr_ssm (f : FieldAt) (v : Nat) : (s.wr f v).ssm = s.ssm := rfl
@[simp] theorem State.wr_dram (f : FieldAt) (v : Nat) : (s.wr f v).dram = s.dram := rfl
@[simp] theorem State.wr_engines (f : FieldAt) (v : Nat) : (s.wr f v).engines = s.engines := rfl
@[simp] theorem State.wr_waits (f : FieldAt) (v : Nat) : (s.wr f v).waits = s.waits := rfl
@[simp] theorem State.wr_substs (f : FieldAt) (v : Nat) : (s.wr f v).substs = s.substs := rfl
@[simp] theorem State.wr_basin (f : FieldAt) (v : Nat) : (s.wr f v).basin = s.basin := rfl
@[simp] theorem State.wr_router (f : FieldAt) (v : Nat) : (s.wr f v).router = s.router := rfl
@[simp] theorem State.wr_feeds (f : FieldAt) (v : Nat) : (s.wr f v).feeds = s.feeds := rfl
@[simp] theorem State.wr_frames (f : FieldAt) (v : Nat) : (s.wr f v).frames = s.frames := rfl
@[simp] theorem State.wr_flc (f : FieldAt) (v : Nat) : (s.wr f v).flc = s.flc := rfl
@[simp] theorem State.wr_tdm (f : FieldAt) (v : Nat) : (s.wr f v).tdm = s.tdm := rfl
@[simp] theorem State.wr_amps (f : FieldAt) (v : Nat) : (s.wr f v).amps = s.amps := rfl
@[simp] theorem State.wr_ampGroups (f : FieldAt) (v : Nat) : (s.wr f v).ampGroups = s.ampGroups := rfl
@[simp] theorem State.wr_cands (f : FieldAt) (v : Nat) : (s.wr f v).cands = s.cands := rfl
@[simp] theorem State.wr_dplls (f : FieldAt) (v : Nat) : (s.wr f v).dplls = s.dplls := rfl
@[simp] theorem State.wr_pulses (f : FieldAt) (v : Nat) : (s.wr f v).pulses = s.pulses := rfl
@[simp] theorem State.wr_tbs (f : FieldAt) (v : Nat) : (s.wr f v).tbs = s.tbs := rfl
@[simp] theorem State.wr_txqs (f : FieldAt) (v : Nat) : (s.wr f v).txqs = s.txqs := rfl
@[simp] theorem State.wr_macs (f : FieldAt) (v : Nat) : (s.wr f v).macs = s.macs := rfl
@[simp] theorem State.wr_txStreams (f : FieldAt) (v : Nat) : (s.wr f v).txStreams = s.txStreams := rfl
@[simp] theorem State.wr_rxStreams (f : FieldAt) (v : Nat) : (s.wr f v).rxStreams = s.rxStreams := rfl
@[simp] theorem State.wr_legs (f : FieldAt) (v : Nat) : (s.wr f v).legs = s.legs := rfl
@[simp] theorem State.wr_lanes (f : FieldAt) (v : Nat) : (s.wr f v).lanes = s.lanes := rfl
@[simp] theorem State.wr_links (f : FieldAt) (v : Nat) : (s.wr f v).links = s.links := rfl
@[simp] theorem State.wr_conceal (f : FieldAt) (v : Nat) : (s.wr f v).conceal = s.conceal := rfl
@[simp] theorem State.wr_lastGood (f : FieldAt) (v : Nat) : (s.wr f v).lastGood = s.lastGood := rfl
@[simp] theorem State.wr_fov (f : FieldAt) (v : Nat) : (s.wr f v).fov = s.fov := rfl
@[simp] theorem State.wr_dmc (f : FieldAt) (v : Nat) : (s.wr f v).dmc = s.dmc := rfl
@[simp] theorem State.wr_xbar (f : FieldAt) (v : Nat) : (s.wr f v).xbar = s.xbar := rfl
@[simp] theorem State.wr_dma (f : FieldAt) (v : Nat) : (s.wr f v).dma = s.dma := rfl
@[simp] theorem State.wr_gpios (f : FieldAt) (v : Nat) : (s.wr f v).gpios = s.gpios := rfl
@[simp] theorem State.wr_svc (f : FieldAt) (v : Nat) : (s.wr f v).svc = s.svc := rfl
@[simp] theorem State.wr_pcie (f : FieldAt) (v : Nat) : (s.wr f v).pcie = s.pcie := rfl
@[simp] theorem State.wr_drg (f : FieldAt) (v : Nat) : (s.wr f v).drg = s.drg := rfl
@[simp] theorem State.wr_tlm (f : FieldAt) (v : Nat) : (s.wr f v).tlm = s.tlm := rfl

@[simp] theorem State.raise_pending (f : FieldAt) : (s.raise f).pending = s.pending := rfl
@[simp] theorem State.raise_now (f : FieldAt) : (s.raise f).now = s.now := rfl
@[simp] theorem State.raise_freeCount (f : FieldAt) : (s.raise f).freeCount = s.freeCount := rfl
@[simp] theorem State.raise_layers (f : FieldAt) : (s.raise f).layers = s.layers := rfl
@[simp] theorem State.raise_reply (f : FieldAt) : (s.raise f).reply = s.reply := rfl
@[simp] theorem State.raise_outbox (f : FieldAt) : (s.raise f).outbox = s.outbox := rfl
@[simp] theorem State.raise_doms (f : FieldAt) : (s.raise f).doms = s.doms := rfl
@[simp] theorem State.raise_locks (f : FieldAt) : (s.raise f).locks = s.locks := rfl
@[simp] theorem State.raise_glb (f : FieldAt) : (s.raise f).glb = s.glb := rfl
@[simp] theorem State.raise_cfg (f : FieldAt) : (s.raise f).cfg = s.cfg := rfl
@[simp] theorem State.raise_flt (f : FieldAt) : (s.raise f).flt = s.flt := rfl
@[simp] theorem State.raise_weir (f : FieldAt) : (s.raise f).weir = s.weir := rfl
@[simp] theorem State.raise_evt (f : FieldAt) : (s.raise f).evt = s.evt := rfl
@[simp] theorem State.raise_ssm (f : FieldAt) : (s.raise f).ssm = s.ssm := rfl
@[simp] theorem State.raise_dram (f : FieldAt) : (s.raise f).dram = s.dram := rfl
@[simp] theorem State.raise_engines (f : FieldAt) : (s.raise f).engines = s.engines := rfl
@[simp] theorem State.raise_waits (f : FieldAt) : (s.raise f).waits = s.waits := rfl
@[simp] theorem State.raise_substs (f : FieldAt) : (s.raise f).substs = s.substs := rfl
@[simp] theorem State.raise_basin (f : FieldAt) : (s.raise f).basin = s.basin := rfl
@[simp] theorem State.raise_router (f : FieldAt) : (s.raise f).router = s.router := rfl
@[simp] theorem State.raise_feeds (f : FieldAt) : (s.raise f).feeds = s.feeds := rfl
@[simp] theorem State.raise_frames (f : FieldAt) : (s.raise f).frames = s.frames := rfl
@[simp] theorem State.raise_flc (f : FieldAt) : (s.raise f).flc = s.flc := rfl
@[simp] theorem State.raise_tdm (f : FieldAt) : (s.raise f).tdm = s.tdm := rfl
@[simp] theorem State.raise_amps (f : FieldAt) : (s.raise f).amps = s.amps := rfl
@[simp] theorem State.raise_ampGroups (f : FieldAt) : (s.raise f).ampGroups = s.ampGroups := rfl
@[simp] theorem State.raise_cands (f : FieldAt) : (s.raise f).cands = s.cands := rfl
@[simp] theorem State.raise_dplls (f : FieldAt) : (s.raise f).dplls = s.dplls := rfl
@[simp] theorem State.raise_pulses (f : FieldAt) : (s.raise f).pulses = s.pulses := rfl
@[simp] theorem State.raise_tbs (f : FieldAt) : (s.raise f).tbs = s.tbs := rfl
@[simp] theorem State.raise_txqs (f : FieldAt) : (s.raise f).txqs = s.txqs := rfl
@[simp] theorem State.raise_macs (f : FieldAt) : (s.raise f).macs = s.macs := rfl
@[simp] theorem State.raise_txStreams (f : FieldAt) : (s.raise f).txStreams = s.txStreams := rfl
@[simp] theorem State.raise_rxStreams (f : FieldAt) : (s.raise f).rxStreams = s.rxStreams := rfl
@[simp] theorem State.raise_legs (f : FieldAt) : (s.raise f).legs = s.legs := rfl
@[simp] theorem State.raise_lanes (f : FieldAt) : (s.raise f).lanes = s.lanes := rfl
@[simp] theorem State.raise_links (f : FieldAt) : (s.raise f).links = s.links := rfl
@[simp] theorem State.raise_conceal (f : FieldAt) : (s.raise f).conceal = s.conceal := rfl
@[simp] theorem State.raise_lastGood (f : FieldAt) : (s.raise f).lastGood = s.lastGood := rfl
@[simp] theorem State.raise_fov (f : FieldAt) : (s.raise f).fov = s.fov := rfl
@[simp] theorem State.raise_dmc (f : FieldAt) : (s.raise f).dmc = s.dmc := rfl
@[simp] theorem State.raise_xbar (f : FieldAt) : (s.raise f).xbar = s.xbar := rfl
@[simp] theorem State.raise_dma (f : FieldAt) : (s.raise f).dma = s.dma := rfl
@[simp] theorem State.raise_gpios (f : FieldAt) : (s.raise f).gpios = s.gpios := rfl
@[simp] theorem State.raise_svc (f : FieldAt) : (s.raise f).svc = s.svc := rfl
@[simp] theorem State.raise_pcie (f : FieldAt) : (s.raise f).pcie = s.pcie := rfl
@[simp] theorem State.raise_drg (f : FieldAt) : (s.raise f).drg = s.drg := rfl
@[simp] theorem State.raise_tlm (f : FieldAt) : (s.raise f).tlm = s.tlm := rfl

@[simp] theorem State.bump_pending (f : FieldAt) (n : Nat) : (s.bump f n).pending = s.pending := rfl
@[simp] theorem State.bump_now (f : FieldAt) (n : Nat) : (s.bump f n).now = s.now := rfl
@[simp] theorem State.bump_freeCount (f : FieldAt) (n : Nat) : (s.bump f n).freeCount = s.freeCount := rfl
@[simp] theorem State.bump_layers (f : FieldAt) (n : Nat) : (s.bump f n).layers = s.layers := rfl
@[simp] theorem State.bump_reply (f : FieldAt) (n : Nat) : (s.bump f n).reply = s.reply := rfl
@[simp] theorem State.bump_outbox (f : FieldAt) (n : Nat) : (s.bump f n).outbox = s.outbox := rfl
@[simp] theorem State.bump_doms (f : FieldAt) (n : Nat) : (s.bump f n).doms = s.doms := rfl
@[simp] theorem State.bump_locks (f : FieldAt) (n : Nat) : (s.bump f n).locks = s.locks := rfl
@[simp] theorem State.bump_glb (f : FieldAt) (n : Nat) : (s.bump f n).glb = s.glb := rfl
@[simp] theorem State.bump_cfg (f : FieldAt) (n : Nat) : (s.bump f n).cfg = s.cfg := rfl
@[simp] theorem State.bump_flt (f : FieldAt) (n : Nat) : (s.bump f n).flt = s.flt := rfl
@[simp] theorem State.bump_weir (f : FieldAt) (n : Nat) : (s.bump f n).weir = s.weir := rfl
@[simp] theorem State.bump_evt (f : FieldAt) (n : Nat) : (s.bump f n).evt = s.evt := rfl
@[simp] theorem State.bump_ssm (f : FieldAt) (n : Nat) : (s.bump f n).ssm = s.ssm := rfl
@[simp] theorem State.bump_dram (f : FieldAt) (n : Nat) : (s.bump f n).dram = s.dram := rfl
@[simp] theorem State.bump_engines (f : FieldAt) (n : Nat) : (s.bump f n).engines = s.engines := rfl
@[simp] theorem State.bump_waits (f : FieldAt) (n : Nat) : (s.bump f n).waits = s.waits := rfl
@[simp] theorem State.bump_substs (f : FieldAt) (n : Nat) : (s.bump f n).substs = s.substs := rfl
@[simp] theorem State.bump_basin (f : FieldAt) (n : Nat) : (s.bump f n).basin = s.basin := rfl
@[simp] theorem State.bump_router (f : FieldAt) (n : Nat) : (s.bump f n).router = s.router := rfl
@[simp] theorem State.bump_feeds (f : FieldAt) (n : Nat) : (s.bump f n).feeds = s.feeds := rfl
@[simp] theorem State.bump_frames (f : FieldAt) (n : Nat) : (s.bump f n).frames = s.frames := rfl
@[simp] theorem State.bump_flc (f : FieldAt) (n : Nat) : (s.bump f n).flc = s.flc := rfl
@[simp] theorem State.bump_tdm (f : FieldAt) (n : Nat) : (s.bump f n).tdm = s.tdm := rfl
@[simp] theorem State.bump_amps (f : FieldAt) (n : Nat) : (s.bump f n).amps = s.amps := rfl
@[simp] theorem State.bump_ampGroups (f : FieldAt) (n : Nat) : (s.bump f n).ampGroups = s.ampGroups := rfl
@[simp] theorem State.bump_cands (f : FieldAt) (n : Nat) : (s.bump f n).cands = s.cands := rfl
@[simp] theorem State.bump_dplls (f : FieldAt) (n : Nat) : (s.bump f n).dplls = s.dplls := rfl
@[simp] theorem State.bump_pulses (f : FieldAt) (n : Nat) : (s.bump f n).pulses = s.pulses := rfl
@[simp] theorem State.bump_tbs (f : FieldAt) (n : Nat) : (s.bump f n).tbs = s.tbs := rfl
@[simp] theorem State.bump_txqs (f : FieldAt) (n : Nat) : (s.bump f n).txqs = s.txqs := rfl
@[simp] theorem State.bump_macs (f : FieldAt) (n : Nat) : (s.bump f n).macs = s.macs := rfl
@[simp] theorem State.bump_txStreams (f : FieldAt) (n : Nat) : (s.bump f n).txStreams = s.txStreams := rfl
@[simp] theorem State.bump_rxStreams (f : FieldAt) (n : Nat) : (s.bump f n).rxStreams = s.rxStreams := rfl
@[simp] theorem State.bump_legs (f : FieldAt) (n : Nat) : (s.bump f n).legs = s.legs := rfl
@[simp] theorem State.bump_lanes (f : FieldAt) (n : Nat) : (s.bump f n).lanes = s.lanes := rfl
@[simp] theorem State.bump_links (f : FieldAt) (n : Nat) : (s.bump f n).links = s.links := rfl
@[simp] theorem State.bump_conceal (f : FieldAt) (n : Nat) : (s.bump f n).conceal = s.conceal := rfl
@[simp] theorem State.bump_lastGood (f : FieldAt) (n : Nat) : (s.bump f n).lastGood = s.lastGood := rfl
@[simp] theorem State.bump_fov (f : FieldAt) (n : Nat) : (s.bump f n).fov = s.fov := rfl
@[simp] theorem State.bump_dmc (f : FieldAt) (n : Nat) : (s.bump f n).dmc = s.dmc := rfl
@[simp] theorem State.bump_xbar (f : FieldAt) (n : Nat) : (s.bump f n).xbar = s.xbar := rfl
@[simp] theorem State.bump_dma (f : FieldAt) (n : Nat) : (s.bump f n).dma = s.dma := rfl
@[simp] theorem State.bump_gpios (f : FieldAt) (n : Nat) : (s.bump f n).gpios = s.gpios := rfl
@[simp] theorem State.bump_svc (f : FieldAt) (n : Nat) : (s.bump f n).svc = s.svc := rfl
@[simp] theorem State.bump_pcie (f : FieldAt) (n : Nat) : (s.bump f n).pcie = s.pcie := rfl
@[simp] theorem State.bump_drg (f : FieldAt) (n : Nat) : (s.bump f n).drg = s.drg := rfl
@[simp] theorem State.bump_tlm (f : FieldAt) (n : Nat) : (s.bump f n).tlm = s.tlm := rfl

@[simp] theorem State.settle_pending (a : Nat) (m : Word) : (s.settle a m).pending = s.pending := rfl
@[simp] theorem State.settle_now (a : Nat) (m : Word) : (s.settle a m).now = s.now := rfl
@[simp] theorem State.settle_freeCount (a : Nat) (m : Word) : (s.settle a m).freeCount = s.freeCount := rfl
@[simp] theorem State.settle_layers (a : Nat) (m : Word) : (s.settle a m).layers = s.layers := rfl
@[simp] theorem State.settle_reply (a : Nat) (m : Word) : (s.settle a m).reply = s.reply := rfl
@[simp] theorem State.settle_outbox (a : Nat) (m : Word) : (s.settle a m).outbox = s.outbox := rfl
@[simp] theorem State.settle_doms (a : Nat) (m : Word) : (s.settle a m).doms = s.doms := rfl
@[simp] theorem State.settle_locks (a : Nat) (m : Word) : (s.settle a m).locks = s.locks := rfl
@[simp] theorem State.settle_glb (a : Nat) (m : Word) : (s.settle a m).glb = s.glb := rfl
@[simp] theorem State.settle_cfg (a : Nat) (m : Word) : (s.settle a m).cfg = s.cfg := rfl
@[simp] theorem State.settle_flt (a : Nat) (m : Word) : (s.settle a m).flt = s.flt := rfl
@[simp] theorem State.settle_weir (a : Nat) (m : Word) : (s.settle a m).weir = s.weir := rfl
@[simp] theorem State.settle_evt (a : Nat) (m : Word) : (s.settle a m).evt = s.evt := rfl
@[simp] theorem State.settle_ssm (a : Nat) (m : Word) : (s.settle a m).ssm = s.ssm := rfl
@[simp] theorem State.settle_dram (a : Nat) (m : Word) : (s.settle a m).dram = s.dram := rfl
@[simp] theorem State.settle_engines (a : Nat) (m : Word) : (s.settle a m).engines = s.engines := rfl
@[simp] theorem State.settle_waits (a : Nat) (m : Word) : (s.settle a m).waits = s.waits := rfl
@[simp] theorem State.settle_substs (a : Nat) (m : Word) : (s.settle a m).substs = s.substs := rfl
@[simp] theorem State.settle_basin (a : Nat) (m : Word) : (s.settle a m).basin = s.basin := rfl
@[simp] theorem State.settle_router (a : Nat) (m : Word) : (s.settle a m).router = s.router := rfl
@[simp] theorem State.settle_feeds (a : Nat) (m : Word) : (s.settle a m).feeds = s.feeds := rfl
@[simp] theorem State.settle_frames (a : Nat) (m : Word) : (s.settle a m).frames = s.frames := rfl
@[simp] theorem State.settle_flc (a : Nat) (m : Word) : (s.settle a m).flc = s.flc := rfl
@[simp] theorem State.settle_tdm (a : Nat) (m : Word) : (s.settle a m).tdm = s.tdm := rfl
@[simp] theorem State.settle_amps (a : Nat) (m : Word) : (s.settle a m).amps = s.amps := rfl
@[simp] theorem State.settle_ampGroups (a : Nat) (m : Word) : (s.settle a m).ampGroups = s.ampGroups := rfl
@[simp] theorem State.settle_cands (a : Nat) (m : Word) : (s.settle a m).cands = s.cands := rfl
@[simp] theorem State.settle_dplls (a : Nat) (m : Word) : (s.settle a m).dplls = s.dplls := rfl
@[simp] theorem State.settle_pulses (a : Nat) (m : Word) : (s.settle a m).pulses = s.pulses := rfl
@[simp] theorem State.settle_tbs (a : Nat) (m : Word) : (s.settle a m).tbs = s.tbs := rfl
@[simp] theorem State.settle_txqs (a : Nat) (m : Word) : (s.settle a m).txqs = s.txqs := rfl
@[simp] theorem State.settle_macs (a : Nat) (m : Word) : (s.settle a m).macs = s.macs := rfl
@[simp] theorem State.settle_txStreams (a : Nat) (m : Word) : (s.settle a m).txStreams = s.txStreams := rfl
@[simp] theorem State.settle_rxStreams (a : Nat) (m : Word) : (s.settle a m).rxStreams = s.rxStreams := rfl
@[simp] theorem State.settle_legs (a : Nat) (m : Word) : (s.settle a m).legs = s.legs := rfl
@[simp] theorem State.settle_lanes (a : Nat) (m : Word) : (s.settle a m).lanes = s.lanes := rfl
@[simp] theorem State.settle_links (a : Nat) (m : Word) : (s.settle a m).links = s.links := rfl
@[simp] theorem State.settle_conceal (a : Nat) (m : Word) : (s.settle a m).conceal = s.conceal := rfl
@[simp] theorem State.settle_lastGood (a : Nat) (m : Word) : (s.settle a m).lastGood = s.lastGood := rfl
@[simp] theorem State.settle_fov (a : Nat) (m : Word) : (s.settle a m).fov = s.fov := rfl
@[simp] theorem State.settle_dmc (a : Nat) (m : Word) : (s.settle a m).dmc = s.dmc := rfl
@[simp] theorem State.settle_xbar (a : Nat) (m : Word) : (s.settle a m).xbar = s.xbar := rfl
@[simp] theorem State.settle_dma (a : Nat) (m : Word) : (s.settle a m).dma = s.dma := rfl
@[simp] theorem State.settle_gpios (a : Nat) (m : Word) : (s.settle a m).gpios = s.gpios := rfl
@[simp] theorem State.settle_svc (a : Nat) (m : Word) : (s.settle a m).svc = s.svc := rfl
@[simp] theorem State.settle_pcie (a : Nat) (m : Word) : (s.settle a m).pcie = s.pcie := rfl
@[simp] theorem State.settle_drg (a : Nat) (m : Word) : (s.settle a m).drg = s.drg := rfl
@[simp] theorem State.settle_tlm (a : Nat) (m : Word) : (s.settle a m).tlm = s.tlm := rfl

@[simp] theorem State.soften_pending (a : Nat) (m v : Word) : (s.soften a m v).pending = s.pending := rfl
@[simp] theorem State.soften_now (a : Nat) (m v : Word) : (s.soften a m v).now = s.now := rfl
@[simp] theorem State.soften_freeCount (a : Nat) (m v : Word) : (s.soften a m v).freeCount = s.freeCount := rfl
@[simp] theorem State.soften_regs (a : Nat) (m v : Word) : (s.soften a m v).regs = s.regs := rfl
@[simp] theorem State.soften_reply (a : Nat) (m v : Word) : (s.soften a m v).reply = s.reply := rfl
@[simp] theorem State.soften_outbox (a : Nat) (m v : Word) : (s.soften a m v).outbox = s.outbox := rfl
@[simp] theorem State.soften_doms (a : Nat) (m v : Word) : (s.soften a m v).doms = s.doms := rfl
@[simp] theorem State.soften_locks (a : Nat) (m v : Word) : (s.soften a m v).locks = s.locks := rfl
@[simp] theorem State.soften_glb (a : Nat) (m v : Word) : (s.soften a m v).glb = s.glb := rfl
@[simp] theorem State.soften_cfg (a : Nat) (m v : Word) : (s.soften a m v).cfg = s.cfg := rfl
@[simp] theorem State.soften_flt (a : Nat) (m v : Word) : (s.soften a m v).flt = s.flt := rfl
@[simp] theorem State.soften_weir (a : Nat) (m v : Word) : (s.soften a m v).weir = s.weir := rfl
@[simp] theorem State.soften_evt (a : Nat) (m v : Word) : (s.soften a m v).evt = s.evt := rfl
@[simp] theorem State.soften_ssm (a : Nat) (m v : Word) : (s.soften a m v).ssm = s.ssm := rfl
@[simp] theorem State.soften_dram (a : Nat) (m v : Word) : (s.soften a m v).dram = s.dram := rfl
@[simp] theorem State.soften_engines (a : Nat) (m v : Word) : (s.soften a m v).engines = s.engines := rfl
@[simp] theorem State.soften_waits (a : Nat) (m v : Word) : (s.soften a m v).waits = s.waits := rfl
@[simp] theorem State.soften_substs (a : Nat) (m v : Word) : (s.soften a m v).substs = s.substs := rfl
@[simp] theorem State.soften_basin (a : Nat) (m v : Word) : (s.soften a m v).basin = s.basin := rfl
@[simp] theorem State.soften_router (a : Nat) (m v : Word) : (s.soften a m v).router = s.router := rfl
@[simp] theorem State.soften_feeds (a : Nat) (m v : Word) : (s.soften a m v).feeds = s.feeds := rfl
@[simp] theorem State.soften_frames (a : Nat) (m v : Word) : (s.soften a m v).frames = s.frames := rfl
@[simp] theorem State.soften_flc (a : Nat) (m v : Word) : (s.soften a m v).flc = s.flc := rfl
@[simp] theorem State.soften_tdm (a : Nat) (m v : Word) : (s.soften a m v).tdm = s.tdm := rfl
@[simp] theorem State.soften_amps (a : Nat) (m v : Word) : (s.soften a m v).amps = s.amps := rfl
@[simp] theorem State.soften_ampGroups (a : Nat) (m v : Word) : (s.soften a m v).ampGroups = s.ampGroups := rfl
@[simp] theorem State.soften_cands (a : Nat) (m v : Word) : (s.soften a m v).cands = s.cands := rfl
@[simp] theorem State.soften_dplls (a : Nat) (m v : Word) : (s.soften a m v).dplls = s.dplls := rfl
@[simp] theorem State.soften_pulses (a : Nat) (m v : Word) : (s.soften a m v).pulses = s.pulses := rfl
@[simp] theorem State.soften_tbs (a : Nat) (m v : Word) : (s.soften a m v).tbs = s.tbs := rfl
@[simp] theorem State.soften_txqs (a : Nat) (m v : Word) : (s.soften a m v).txqs = s.txqs := rfl
@[simp] theorem State.soften_macs (a : Nat) (m v : Word) : (s.soften a m v).macs = s.macs := rfl
@[simp] theorem State.soften_txStreams (a : Nat) (m v : Word) : (s.soften a m v).txStreams = s.txStreams := rfl
@[simp] theorem State.soften_rxStreams (a : Nat) (m v : Word) : (s.soften a m v).rxStreams = s.rxStreams := rfl
@[simp] theorem State.soften_legs (a : Nat) (m v : Word) : (s.soften a m v).legs = s.legs := rfl
@[simp] theorem State.soften_lanes (a : Nat) (m v : Word) : (s.soften a m v).lanes = s.lanes := rfl
@[simp] theorem State.soften_links (a : Nat) (m v : Word) : (s.soften a m v).links = s.links := rfl
@[simp] theorem State.soften_conceal (a : Nat) (m v : Word) : (s.soften a m v).conceal = s.conceal := rfl
@[simp] theorem State.soften_lastGood (a : Nat) (m v : Word) : (s.soften a m v).lastGood = s.lastGood := rfl
@[simp] theorem State.soften_fov (a : Nat) (m v : Word) : (s.soften a m v).fov = s.fov := rfl
@[simp] theorem State.soften_dmc (a : Nat) (m v : Word) : (s.soften a m v).dmc = s.dmc := rfl
@[simp] theorem State.soften_xbar (a : Nat) (m v : Word) : (s.soften a m v).xbar = s.xbar := rfl
@[simp] theorem State.soften_dma (a : Nat) (m v : Word) : (s.soften a m v).dma = s.dma := rfl
@[simp] theorem State.soften_gpios (a : Nat) (m v : Word) : (s.soften a m v).gpios = s.gpios := rfl
@[simp] theorem State.soften_svc (a : Nat) (m v : Word) : (s.soften a m v).svc = s.svc := rfl
@[simp] theorem State.soften_pcie (a : Nat) (m v : Word) : (s.soften a m v).pcie = s.pcie := rfl
@[simp] theorem State.soften_drg (a : Nat) (m v : Word) : (s.soften a m v).drg = s.drg := rfl
@[simp] theorem State.soften_tlm (a : Nat) (m v : Word) : (s.soften a m v).tlm = s.tlm := rfl

@[simp] theorem State.hw_pending (f : FieldAt) (v : Nat) : (s.hw f v).pending = s.pending := rfl
@[simp] theorem State.hw_now (f : FieldAt) (v : Nat) : (s.hw f v).now = s.now := rfl
@[simp] theorem State.hw_freeCount (f : FieldAt) (v : Nat) : (s.hw f v).freeCount = s.freeCount := rfl
@[simp] theorem State.hw_reply (f : FieldAt) (v : Nat) : (s.hw f v).reply = s.reply := rfl
@[simp] theorem State.hw_outbox (f : FieldAt) (v : Nat) : (s.hw f v).outbox = s.outbox := rfl
@[simp] theorem State.hw_doms (f : FieldAt) (v : Nat) : (s.hw f v).doms = s.doms := rfl
@[simp] theorem State.hw_locks (f : FieldAt) (v : Nat) : (s.hw f v).locks = s.locks := rfl
@[simp] theorem State.hw_glb (f : FieldAt) (v : Nat) : (s.hw f v).glb = s.glb := rfl
@[simp] theorem State.hw_cfg (f : FieldAt) (v : Nat) : (s.hw f v).cfg = s.cfg := rfl
@[simp] theorem State.hw_flt (f : FieldAt) (v : Nat) : (s.hw f v).flt = s.flt := rfl
@[simp] theorem State.hw_weir (f : FieldAt) (v : Nat) : (s.hw f v).weir = s.weir := rfl
@[simp] theorem State.hw_evt (f : FieldAt) (v : Nat) : (s.hw f v).evt = s.evt := rfl
@[simp] theorem State.hw_ssm (f : FieldAt) (v : Nat) : (s.hw f v).ssm = s.ssm := rfl
@[simp] theorem State.hw_dram (f : FieldAt) (v : Nat) : (s.hw f v).dram = s.dram := rfl
@[simp] theorem State.hw_engines (f : FieldAt) (v : Nat) : (s.hw f v).engines = s.engines := rfl
@[simp] theorem State.hw_waits (f : FieldAt) (v : Nat) : (s.hw f v).waits = s.waits := rfl
@[simp] theorem State.hw_substs (f : FieldAt) (v : Nat) : (s.hw f v).substs = s.substs := rfl
@[simp] theorem State.hw_basin (f : FieldAt) (v : Nat) : (s.hw f v).basin = s.basin := rfl
@[simp] theorem State.hw_router (f : FieldAt) (v : Nat) : (s.hw f v).router = s.router := rfl
@[simp] theorem State.hw_feeds (f : FieldAt) (v : Nat) : (s.hw f v).feeds = s.feeds := rfl
@[simp] theorem State.hw_frames (f : FieldAt) (v : Nat) : (s.hw f v).frames = s.frames := rfl
@[simp] theorem State.hw_flc (f : FieldAt) (v : Nat) : (s.hw f v).flc = s.flc := rfl
@[simp] theorem State.hw_tdm (f : FieldAt) (v : Nat) : (s.hw f v).tdm = s.tdm := rfl
@[simp] theorem State.hw_amps (f : FieldAt) (v : Nat) : (s.hw f v).amps = s.amps := rfl
@[simp] theorem State.hw_ampGroups (f : FieldAt) (v : Nat) : (s.hw f v).ampGroups = s.ampGroups := rfl
@[simp] theorem State.hw_cands (f : FieldAt) (v : Nat) : (s.hw f v).cands = s.cands := rfl
@[simp] theorem State.hw_dplls (f : FieldAt) (v : Nat) : (s.hw f v).dplls = s.dplls := rfl
@[simp] theorem State.hw_pulses (f : FieldAt) (v : Nat) : (s.hw f v).pulses = s.pulses := rfl
@[simp] theorem State.hw_tbs (f : FieldAt) (v : Nat) : (s.hw f v).tbs = s.tbs := rfl
@[simp] theorem State.hw_txqs (f : FieldAt) (v : Nat) : (s.hw f v).txqs = s.txqs := rfl
@[simp] theorem State.hw_macs (f : FieldAt) (v : Nat) : (s.hw f v).macs = s.macs := rfl
@[simp] theorem State.hw_txStreams (f : FieldAt) (v : Nat) : (s.hw f v).txStreams = s.txStreams := rfl
@[simp] theorem State.hw_rxStreams (f : FieldAt) (v : Nat) : (s.hw f v).rxStreams = s.rxStreams := rfl
@[simp] theorem State.hw_legs (f : FieldAt) (v : Nat) : (s.hw f v).legs = s.legs := rfl
@[simp] theorem State.hw_lanes (f : FieldAt) (v : Nat) : (s.hw f v).lanes = s.lanes := rfl
@[simp] theorem State.hw_links (f : FieldAt) (v : Nat) : (s.hw f v).links = s.links := rfl
@[simp] theorem State.hw_conceal (f : FieldAt) (v : Nat) : (s.hw f v).conceal = s.conceal := rfl
@[simp] theorem State.hw_lastGood (f : FieldAt) (v : Nat) : (s.hw f v).lastGood = s.lastGood := rfl
@[simp] theorem State.hw_fov (f : FieldAt) (v : Nat) : (s.hw f v).fov = s.fov := rfl
@[simp] theorem State.hw_dmc (f : FieldAt) (v : Nat) : (s.hw f v).dmc = s.dmc := rfl
@[simp] theorem State.hw_xbar (f : FieldAt) (v : Nat) : (s.hw f v).xbar = s.xbar := rfl
@[simp] theorem State.hw_dma (f : FieldAt) (v : Nat) : (s.hw f v).dma = s.dma := rfl
@[simp] theorem State.hw_gpios (f : FieldAt) (v : Nat) : (s.hw f v).gpios = s.gpios := rfl
@[simp] theorem State.hw_svc (f : FieldAt) (v : Nat) : (s.hw f v).svc = s.svc := rfl
@[simp] theorem State.hw_pcie (f : FieldAt) (v : Nat) : (s.hw f v).pcie = s.pcie := rfl
@[simp] theorem State.hw_drg (f : FieldAt) (v : Nat) : (s.hw f v).drg = s.drg := rfl
@[simp] theorem State.hw_tlm (f : FieldAt) (v : Nat) : (s.hw f v).tlm = s.tlm := rfl

@[simp] theorem State.emit_pending (e : Emission) : (s.emit e).pending = s.pending := rfl
@[simp] theorem State.emit_now (e : Emission) : (s.emit e).now = s.now := rfl
@[simp] theorem State.emit_freeCount (e : Emission) : (s.emit e).freeCount = s.freeCount := rfl
@[simp] theorem State.emit_regs (e : Emission) : (s.emit e).regs = s.regs := rfl
@[simp] theorem State.emit_layers (e : Emission) : (s.emit e).layers = s.layers := rfl
@[simp] theorem State.emit_reply (e : Emission) : (s.emit e).reply = s.reply := rfl
@[simp] theorem State.emit_doms (e : Emission) : (s.emit e).doms = s.doms := rfl
@[simp] theorem State.emit_locks (e : Emission) : (s.emit e).locks = s.locks := rfl
@[simp] theorem State.emit_glb (e : Emission) : (s.emit e).glb = s.glb := rfl
@[simp] theorem State.emit_cfg (e : Emission) : (s.emit e).cfg = s.cfg := rfl
@[simp] theorem State.emit_flt (e : Emission) : (s.emit e).flt = s.flt := rfl
@[simp] theorem State.emit_weir (e : Emission) : (s.emit e).weir = s.weir := rfl
@[simp] theorem State.emit_evt (e : Emission) : (s.emit e).evt = s.evt := rfl
@[simp] theorem State.emit_ssm (e : Emission) : (s.emit e).ssm = s.ssm := rfl
@[simp] theorem State.emit_dram (e : Emission) : (s.emit e).dram = s.dram := rfl
@[simp] theorem State.emit_engines (e : Emission) : (s.emit e).engines = s.engines := rfl
@[simp] theorem State.emit_waits (e : Emission) : (s.emit e).waits = s.waits := rfl
@[simp] theorem State.emit_substs (e : Emission) : (s.emit e).substs = s.substs := rfl
@[simp] theorem State.emit_basin (e : Emission) : (s.emit e).basin = s.basin := rfl
@[simp] theorem State.emit_router (e : Emission) : (s.emit e).router = s.router := rfl
@[simp] theorem State.emit_feeds (e : Emission) : (s.emit e).feeds = s.feeds := rfl
@[simp] theorem State.emit_frames (e : Emission) : (s.emit e).frames = s.frames := rfl
@[simp] theorem State.emit_flc (e : Emission) : (s.emit e).flc = s.flc := rfl
@[simp] theorem State.emit_tdm (e : Emission) : (s.emit e).tdm = s.tdm := rfl
@[simp] theorem State.emit_amps (e : Emission) : (s.emit e).amps = s.amps := rfl
@[simp] theorem State.emit_ampGroups (e : Emission) : (s.emit e).ampGroups = s.ampGroups := rfl
@[simp] theorem State.emit_cands (e : Emission) : (s.emit e).cands = s.cands := rfl
@[simp] theorem State.emit_dplls (e : Emission) : (s.emit e).dplls = s.dplls := rfl
@[simp] theorem State.emit_pulses (e : Emission) : (s.emit e).pulses = s.pulses := rfl
@[simp] theorem State.emit_tbs (e : Emission) : (s.emit e).tbs = s.tbs := rfl
@[simp] theorem State.emit_txqs (e : Emission) : (s.emit e).txqs = s.txqs := rfl
@[simp] theorem State.emit_macs (e : Emission) : (s.emit e).macs = s.macs := rfl
@[simp] theorem State.emit_txStreams (e : Emission) : (s.emit e).txStreams = s.txStreams := rfl
@[simp] theorem State.emit_rxStreams (e : Emission) : (s.emit e).rxStreams = s.rxStreams := rfl
@[simp] theorem State.emit_legs (e : Emission) : (s.emit e).legs = s.legs := rfl
@[simp] theorem State.emit_lanes (e : Emission) : (s.emit e).lanes = s.lanes := rfl
@[simp] theorem State.emit_links (e : Emission) : (s.emit e).links = s.links := rfl
@[simp] theorem State.emit_conceal (e : Emission) : (s.emit e).conceal = s.conceal := rfl
@[simp] theorem State.emit_lastGood (e : Emission) : (s.emit e).lastGood = s.lastGood := rfl
@[simp] theorem State.emit_fov (e : Emission) : (s.emit e).fov = s.fov := rfl
@[simp] theorem State.emit_dmc (e : Emission) : (s.emit e).dmc = s.dmc := rfl
@[simp] theorem State.emit_xbar (e : Emission) : (s.emit e).xbar = s.xbar := rfl
@[simp] theorem State.emit_dma (e : Emission) : (s.emit e).dma = s.dma := rfl
@[simp] theorem State.emit_gpios (e : Emission) : (s.emit e).gpios = s.gpios := rfl
@[simp] theorem State.emit_svc (e : Emission) : (s.emit e).svc = s.svc := rfl
@[simp] theorem State.emit_pcie (e : Emission) : (s.emit e).pcie = s.pcie := rfl
@[simp] theorem State.emit_drg (e : Emission) : (s.emit e).drg = s.drg := rfl
@[simp] theorem State.emit_tlm (e : Emission) : (s.emit e).tlm = s.tlm := rfl
@[simp] theorem State.emit_outbox (e : Emission) : (s.emit e).outbox = s.outbox ++ [e] := rfl

@[simp] theorem State.answer_pending (d : List Word) (r : Response) : (s.answer d r).pending = s.pending := rfl
@[simp] theorem State.answer_now (d : List Word) (r : Response) : (s.answer d r).now = s.now := rfl
@[simp] theorem State.answer_freeCount (d : List Word) (r : Response) : (s.answer d r).freeCount = s.freeCount := rfl
@[simp] theorem State.answer_regs (d : List Word) (r : Response) : (s.answer d r).regs = s.regs := rfl
@[simp] theorem State.answer_layers (d : List Word) (r : Response) : (s.answer d r).layers = s.layers := rfl
@[simp] theorem State.answer_outbox (d : List Word) (r : Response) : (s.answer d r).outbox = s.outbox := rfl
@[simp] theorem State.answer_doms (d : List Word) (r : Response) : (s.answer d r).doms = s.doms := rfl
@[simp] theorem State.answer_locks (d : List Word) (r : Response) : (s.answer d r).locks = s.locks := rfl
@[simp] theorem State.answer_glb (d : List Word) (r : Response) : (s.answer d r).glb = s.glb := rfl
@[simp] theorem State.answer_cfg (d : List Word) (r : Response) : (s.answer d r).cfg = s.cfg := rfl
@[simp] theorem State.answer_flt (d : List Word) (r : Response) : (s.answer d r).flt = s.flt := rfl
@[simp] theorem State.answer_weir (d : List Word) (r : Response) : (s.answer d r).weir = s.weir := rfl
@[simp] theorem State.answer_evt (d : List Word) (r : Response) : (s.answer d r).evt = s.evt := rfl
@[simp] theorem State.answer_ssm (d : List Word) (r : Response) : (s.answer d r).ssm = s.ssm := rfl
@[simp] theorem State.answer_dram (d : List Word) (r : Response) : (s.answer d r).dram = s.dram := rfl
@[simp] theorem State.answer_engines (d : List Word) (r : Response) : (s.answer d r).engines = s.engines := rfl
@[simp] theorem State.answer_waits (d : List Word) (r : Response) : (s.answer d r).waits = s.waits := rfl
@[simp] theorem State.answer_substs (d : List Word) (r : Response) : (s.answer d r).substs = s.substs := rfl
@[simp] theorem State.answer_basin (d : List Word) (r : Response) : (s.answer d r).basin = s.basin := rfl
@[simp] theorem State.answer_router (d : List Word) (r : Response) : (s.answer d r).router = s.router := rfl
@[simp] theorem State.answer_feeds (d : List Word) (r : Response) : (s.answer d r).feeds = s.feeds := rfl
@[simp] theorem State.answer_frames (d : List Word) (r : Response) : (s.answer d r).frames = s.frames := rfl
@[simp] theorem State.answer_flc (d : List Word) (r : Response) : (s.answer d r).flc = s.flc := rfl
@[simp] theorem State.answer_tdm (d : List Word) (r : Response) : (s.answer d r).tdm = s.tdm := rfl
@[simp] theorem State.answer_amps (d : List Word) (r : Response) : (s.answer d r).amps = s.amps := rfl
@[simp] theorem State.answer_ampGroups (d : List Word) (r : Response) : (s.answer d r).ampGroups = s.ampGroups := rfl
@[simp] theorem State.answer_cands (d : List Word) (r : Response) : (s.answer d r).cands = s.cands := rfl
@[simp] theorem State.answer_dplls (d : List Word) (r : Response) : (s.answer d r).dplls = s.dplls := rfl
@[simp] theorem State.answer_pulses (d : List Word) (r : Response) : (s.answer d r).pulses = s.pulses := rfl
@[simp] theorem State.answer_tbs (d : List Word) (r : Response) : (s.answer d r).tbs = s.tbs := rfl
@[simp] theorem State.answer_txqs (d : List Word) (r : Response) : (s.answer d r).txqs = s.txqs := rfl
@[simp] theorem State.answer_macs (d : List Word) (r : Response) : (s.answer d r).macs = s.macs := rfl
@[simp] theorem State.answer_txStreams (d : List Word) (r : Response) : (s.answer d r).txStreams = s.txStreams := rfl
@[simp] theorem State.answer_rxStreams (d : List Word) (r : Response) : (s.answer d r).rxStreams = s.rxStreams := rfl
@[simp] theorem State.answer_legs (d : List Word) (r : Response) : (s.answer d r).legs = s.legs := rfl
@[simp] theorem State.answer_lanes (d : List Word) (r : Response) : (s.answer d r).lanes = s.lanes := rfl
@[simp] theorem State.answer_links (d : List Word) (r : Response) : (s.answer d r).links = s.links := rfl
@[simp] theorem State.answer_conceal (d : List Word) (r : Response) : (s.answer d r).conceal = s.conceal := rfl
@[simp] theorem State.answer_lastGood (d : List Word) (r : Response) : (s.answer d r).lastGood = s.lastGood := rfl
@[simp] theorem State.answer_fov (d : List Word) (r : Response) : (s.answer d r).fov = s.fov := rfl
@[simp] theorem State.answer_dmc (d : List Word) (r : Response) : (s.answer d r).dmc = s.dmc := rfl
@[simp] theorem State.answer_xbar (d : List Word) (r : Response) : (s.answer d r).xbar = s.xbar := rfl
@[simp] theorem State.answer_dma (d : List Word) (r : Response) : (s.answer d r).dma = s.dma := rfl
@[simp] theorem State.answer_gpios (d : List Word) (r : Response) : (s.answer d r).gpios = s.gpios := rfl
@[simp] theorem State.answer_svc (d : List Word) (r : Response) : (s.answer d r).svc = s.svc := rfl
@[simp] theorem State.answer_pcie (d : List Word) (r : Response) : (s.answer d r).pcie = s.pcie := rfl
@[simp] theorem State.answer_drg (d : List Word) (r : Response) : (s.answer d r).drg = s.drg := rfl
@[simp] theorem State.answer_tlm (d : List Word) (r : Response) : (s.answer d r).tlm = s.tlm := rfl
@[simp] theorem State.answer_reply (d : List Word) (r : Response) : (s.answer d r).reply = ⟨d, r⟩ := rfl

@[simp] theorem State.setDom_pending (x : Nat) (d : Domain) : (s.setDom x d).pending = s.pending := rfl
@[simp] theorem State.setDom_now (x : Nat) (d : Domain) : (s.setDom x d).now = s.now := rfl
@[simp] theorem State.setDom_freeCount (x : Nat) (d : Domain) : (s.setDom x d).freeCount = s.freeCount := rfl
@[simp] theorem State.setDom_regs (x : Nat) (d : Domain) : (s.setDom x d).regs = s.regs := rfl
@[simp] theorem State.setDom_layers (x : Nat) (d : Domain) : (s.setDom x d).layers = s.layers := rfl
@[simp] theorem State.setDom_reply (x : Nat) (d : Domain) : (s.setDom x d).reply = s.reply := rfl
@[simp] theorem State.setDom_outbox (x : Nat) (d : Domain) : (s.setDom x d).outbox = s.outbox := rfl
@[simp] theorem State.setDom_locks (x : Nat) (d : Domain) : (s.setDom x d).locks = s.locks := rfl
@[simp] theorem State.setDom_glb (x : Nat) (d : Domain) : (s.setDom x d).glb = s.glb := rfl
@[simp] theorem State.setDom_cfg (x : Nat) (d : Domain) : (s.setDom x d).cfg = s.cfg := rfl
@[simp] theorem State.setDom_flt (x : Nat) (d : Domain) : (s.setDom x d).flt = s.flt := rfl
@[simp] theorem State.setDom_weir (x : Nat) (d : Domain) : (s.setDom x d).weir = s.weir := rfl
@[simp] theorem State.setDom_evt (x : Nat) (d : Domain) : (s.setDom x d).evt = s.evt := rfl
@[simp] theorem State.setDom_ssm (x : Nat) (d : Domain) : (s.setDom x d).ssm = s.ssm := rfl
@[simp] theorem State.setDom_dram (x : Nat) (d : Domain) : (s.setDom x d).dram = s.dram := rfl
@[simp] theorem State.setDom_engines (x : Nat) (d : Domain) : (s.setDom x d).engines = s.engines := rfl
@[simp] theorem State.setDom_waits (x : Nat) (d : Domain) : (s.setDom x d).waits = s.waits := rfl
@[simp] theorem State.setDom_substs (x : Nat) (d : Domain) : (s.setDom x d).substs = s.substs := rfl
@[simp] theorem State.setDom_basin (x : Nat) (d : Domain) : (s.setDom x d).basin = s.basin := rfl
@[simp] theorem State.setDom_router (x : Nat) (d : Domain) : (s.setDom x d).router = s.router := rfl
@[simp] theorem State.setDom_feeds (x : Nat) (d : Domain) : (s.setDom x d).feeds = s.feeds := rfl
@[simp] theorem State.setDom_frames (x : Nat) (d : Domain) : (s.setDom x d).frames = s.frames := rfl
@[simp] theorem State.setDom_flc (x : Nat) (d : Domain) : (s.setDom x d).flc = s.flc := rfl
@[simp] theorem State.setDom_tdm (x : Nat) (d : Domain) : (s.setDom x d).tdm = s.tdm := rfl
@[simp] theorem State.setDom_amps (x : Nat) (d : Domain) : (s.setDom x d).amps = s.amps := rfl
@[simp] theorem State.setDom_ampGroups (x : Nat) (d : Domain) : (s.setDom x d).ampGroups = s.ampGroups := rfl
@[simp] theorem State.setDom_cands (x : Nat) (d : Domain) : (s.setDom x d).cands = s.cands := rfl
@[simp] theorem State.setDom_dplls (x : Nat) (d : Domain) : (s.setDom x d).dplls = s.dplls := rfl
@[simp] theorem State.setDom_pulses (x : Nat) (d : Domain) : (s.setDom x d).pulses = s.pulses := rfl
@[simp] theorem State.setDom_tbs (x : Nat) (d : Domain) : (s.setDom x d).tbs = s.tbs := rfl
@[simp] theorem State.setDom_txqs (x : Nat) (d : Domain) : (s.setDom x d).txqs = s.txqs := rfl
@[simp] theorem State.setDom_macs (x : Nat) (d : Domain) : (s.setDom x d).macs = s.macs := rfl
@[simp] theorem State.setDom_txStreams (x : Nat) (d : Domain) : (s.setDom x d).txStreams = s.txStreams := rfl
@[simp] theorem State.setDom_rxStreams (x : Nat) (d : Domain) : (s.setDom x d).rxStreams = s.rxStreams := rfl
@[simp] theorem State.setDom_legs (x : Nat) (d : Domain) : (s.setDom x d).legs = s.legs := rfl
@[simp] theorem State.setDom_lanes (x : Nat) (d : Domain) : (s.setDom x d).lanes = s.lanes := rfl
@[simp] theorem State.setDom_links (x : Nat) (d : Domain) : (s.setDom x d).links = s.links := rfl
@[simp] theorem State.setDom_conceal (x : Nat) (d : Domain) : (s.setDom x d).conceal = s.conceal := rfl
@[simp] theorem State.setDom_lastGood (x : Nat) (d : Domain) : (s.setDom x d).lastGood = s.lastGood := rfl
@[simp] theorem State.setDom_fov (x : Nat) (d : Domain) : (s.setDom x d).fov = s.fov := rfl
@[simp] theorem State.setDom_dmc (x : Nat) (d : Domain) : (s.setDom x d).dmc = s.dmc := rfl
@[simp] theorem State.setDom_xbar (x : Nat) (d : Domain) : (s.setDom x d).xbar = s.xbar := rfl
@[simp] theorem State.setDom_dma (x : Nat) (d : Domain) : (s.setDom x d).dma = s.dma := rfl
@[simp] theorem State.setDom_gpios (x : Nat) (d : Domain) : (s.setDom x d).gpios = s.gpios := rfl
@[simp] theorem State.setDom_svc (x : Nat) (d : Domain) : (s.setDom x d).svc = s.svc := rfl
@[simp] theorem State.setDom_pcie (x : Nat) (d : Domain) : (s.setDom x d).pcie = s.pcie := rfl
@[simp] theorem State.setDom_drg (x : Nat) (d : Domain) : (s.setDom x d).drg = s.drg := rfl
@[simp] theorem State.setDom_tlm (x : Nat) (d : Domain) : (s.setDom x d).tlm = s.tlm := rfl

@[simp] theorem State.setLock_pending (l : Nat) (k : Lock) : (s.setLock l k).pending = s.pending := rfl
@[simp] theorem State.setLock_now (l : Nat) (k : Lock) : (s.setLock l k).now = s.now := rfl
@[simp] theorem State.setLock_freeCount (l : Nat) (k : Lock) : (s.setLock l k).freeCount = s.freeCount := rfl
@[simp] theorem State.setLock_regs (l : Nat) (k : Lock) : (s.setLock l k).regs = s.regs := rfl
@[simp] theorem State.setLock_layers (l : Nat) (k : Lock) : (s.setLock l k).layers = s.layers := rfl
@[simp] theorem State.setLock_reply (l : Nat) (k : Lock) : (s.setLock l k).reply = s.reply := rfl
@[simp] theorem State.setLock_outbox (l : Nat) (k : Lock) : (s.setLock l k).outbox = s.outbox := rfl
@[simp] theorem State.setLock_doms (l : Nat) (k : Lock) : (s.setLock l k).doms = s.doms := rfl
@[simp] theorem State.setLock_glb (l : Nat) (k : Lock) : (s.setLock l k).glb = s.glb := rfl
@[simp] theorem State.setLock_cfg (l : Nat) (k : Lock) : (s.setLock l k).cfg = s.cfg := rfl
@[simp] theorem State.setLock_flt (l : Nat) (k : Lock) : (s.setLock l k).flt = s.flt := rfl
@[simp] theorem State.setLock_weir (l : Nat) (k : Lock) : (s.setLock l k).weir = s.weir := rfl
@[simp] theorem State.setLock_evt (l : Nat) (k : Lock) : (s.setLock l k).evt = s.evt := rfl
@[simp] theorem State.setLock_ssm (l : Nat) (k : Lock) : (s.setLock l k).ssm = s.ssm := rfl
@[simp] theorem State.setLock_dram (l : Nat) (k : Lock) : (s.setLock l k).dram = s.dram := rfl
@[simp] theorem State.setLock_engines (l : Nat) (k : Lock) : (s.setLock l k).engines = s.engines := rfl
@[simp] theorem State.setLock_waits (l : Nat) (k : Lock) : (s.setLock l k).waits = s.waits := rfl
@[simp] theorem State.setLock_substs (l : Nat) (k : Lock) : (s.setLock l k).substs = s.substs := rfl
@[simp] theorem State.setLock_basin (l : Nat) (k : Lock) : (s.setLock l k).basin = s.basin := rfl
@[simp] theorem State.setLock_router (l : Nat) (k : Lock) : (s.setLock l k).router = s.router := rfl
@[simp] theorem State.setLock_feeds (l : Nat) (k : Lock) : (s.setLock l k).feeds = s.feeds := rfl
@[simp] theorem State.setLock_frames (l : Nat) (k : Lock) : (s.setLock l k).frames = s.frames := rfl
@[simp] theorem State.setLock_flc (l : Nat) (k : Lock) : (s.setLock l k).flc = s.flc := rfl
@[simp] theorem State.setLock_tdm (l : Nat) (k : Lock) : (s.setLock l k).tdm = s.tdm := rfl
@[simp] theorem State.setLock_amps (l : Nat) (k : Lock) : (s.setLock l k).amps = s.amps := rfl
@[simp] theorem State.setLock_ampGroups (l : Nat) (k : Lock) : (s.setLock l k).ampGroups = s.ampGroups := rfl
@[simp] theorem State.setLock_cands (l : Nat) (k : Lock) : (s.setLock l k).cands = s.cands := rfl
@[simp] theorem State.setLock_dplls (l : Nat) (k : Lock) : (s.setLock l k).dplls = s.dplls := rfl
@[simp] theorem State.setLock_pulses (l : Nat) (k : Lock) : (s.setLock l k).pulses = s.pulses := rfl
@[simp] theorem State.setLock_tbs (l : Nat) (k : Lock) : (s.setLock l k).tbs = s.tbs := rfl
@[simp] theorem State.setLock_txqs (l : Nat) (k : Lock) : (s.setLock l k).txqs = s.txqs := rfl
@[simp] theorem State.setLock_macs (l : Nat) (k : Lock) : (s.setLock l k).macs = s.macs := rfl
@[simp] theorem State.setLock_txStreams (l : Nat) (k : Lock) : (s.setLock l k).txStreams = s.txStreams := rfl
@[simp] theorem State.setLock_rxStreams (l : Nat) (k : Lock) : (s.setLock l k).rxStreams = s.rxStreams := rfl
@[simp] theorem State.setLock_legs (l : Nat) (k : Lock) : (s.setLock l k).legs = s.legs := rfl
@[simp] theorem State.setLock_lanes (l : Nat) (k : Lock) : (s.setLock l k).lanes = s.lanes := rfl
@[simp] theorem State.setLock_links (l : Nat) (k : Lock) : (s.setLock l k).links = s.links := rfl
@[simp] theorem State.setLock_conceal (l : Nat) (k : Lock) : (s.setLock l k).conceal = s.conceal := rfl
@[simp] theorem State.setLock_lastGood (l : Nat) (k : Lock) : (s.setLock l k).lastGood = s.lastGood := rfl
@[simp] theorem State.setLock_fov (l : Nat) (k : Lock) : (s.setLock l k).fov = s.fov := rfl
@[simp] theorem State.setLock_dmc (l : Nat) (k : Lock) : (s.setLock l k).dmc = s.dmc := rfl
@[simp] theorem State.setLock_xbar (l : Nat) (k : Lock) : (s.setLock l k).xbar = s.xbar := rfl
@[simp] theorem State.setLock_dma (l : Nat) (k : Lock) : (s.setLock l k).dma = s.dma := rfl
@[simp] theorem State.setLock_gpios (l : Nat) (k : Lock) : (s.setLock l k).gpios = s.gpios := rfl
@[simp] theorem State.setLock_svc (l : Nat) (k : Lock) : (s.setLock l k).svc = s.svc := rfl
@[simp] theorem State.setLock_pcie (l : Nat) (k : Lock) : (s.setLock l k).pcie = s.pcie := rfl
@[simp] theorem State.setLock_drg (l : Nat) (k : Lock) : (s.setLock l k).drg = s.drg := rfl
@[simp] theorem State.setLock_tlm (l : Nat) (k : Lock) : (s.setLock l k).tlm = s.tlm := rfl

@[simp] theorem State.setEng_pending (n : Nat) (e : Engine) : (s.setEng n e).pending = s.pending := rfl
@[simp] theorem State.setEng_now (n : Nat) (e : Engine) : (s.setEng n e).now = s.now := rfl
@[simp] theorem State.setEng_freeCount (n : Nat) (e : Engine) : (s.setEng n e).freeCount = s.freeCount := rfl
@[simp] theorem State.setEng_regs (n : Nat) (e : Engine) : (s.setEng n e).regs = s.regs := rfl
@[simp] theorem State.setEng_layers (n : Nat) (e : Engine) : (s.setEng n e).layers = s.layers := rfl
@[simp] theorem State.setEng_reply (n : Nat) (e : Engine) : (s.setEng n e).reply = s.reply := rfl
@[simp] theorem State.setEng_outbox (n : Nat) (e : Engine) : (s.setEng n e).outbox = s.outbox := rfl
@[simp] theorem State.setEng_doms (n : Nat) (e : Engine) : (s.setEng n e).doms = s.doms := rfl
@[simp] theorem State.setEng_locks (n : Nat) (e : Engine) : (s.setEng n e).locks = s.locks := rfl
@[simp] theorem State.setEng_glb (n : Nat) (e : Engine) : (s.setEng n e).glb = s.glb := rfl
@[simp] theorem State.setEng_cfg (n : Nat) (e : Engine) : (s.setEng n e).cfg = s.cfg := rfl
@[simp] theorem State.setEng_flt (n : Nat) (e : Engine) : (s.setEng n e).flt = s.flt := rfl
@[simp] theorem State.setEng_weir (n : Nat) (e : Engine) : (s.setEng n e).weir = s.weir := rfl
@[simp] theorem State.setEng_evt (n : Nat) (e : Engine) : (s.setEng n e).evt = s.evt := rfl
@[simp] theorem State.setEng_ssm (n : Nat) (e : Engine) : (s.setEng n e).ssm = s.ssm := rfl
@[simp] theorem State.setEng_dram (n : Nat) (e : Engine) : (s.setEng n e).dram = s.dram := rfl
@[simp] theorem State.setEng_waits (n : Nat) (e : Engine) : (s.setEng n e).waits = s.waits := rfl
@[simp] theorem State.setEng_substs (n : Nat) (e : Engine) : (s.setEng n e).substs = s.substs := rfl
@[simp] theorem State.setEng_basin (n : Nat) (e : Engine) : (s.setEng n e).basin = s.basin := rfl
@[simp] theorem State.setEng_router (n : Nat) (e : Engine) : (s.setEng n e).router = s.router := rfl
@[simp] theorem State.setEng_feeds (n : Nat) (e : Engine) : (s.setEng n e).feeds = s.feeds := rfl
@[simp] theorem State.setEng_frames (n : Nat) (e : Engine) : (s.setEng n e).frames = s.frames := rfl
@[simp] theorem State.setEng_flc (n : Nat) (e : Engine) : (s.setEng n e).flc = s.flc := rfl
@[simp] theorem State.setEng_tdm (n : Nat) (e : Engine) : (s.setEng n e).tdm = s.tdm := rfl
@[simp] theorem State.setEng_amps (n : Nat) (e : Engine) : (s.setEng n e).amps = s.amps := rfl
@[simp] theorem State.setEng_ampGroups (n : Nat) (e : Engine) : (s.setEng n e).ampGroups = s.ampGroups := rfl
@[simp] theorem State.setEng_cands (n : Nat) (e : Engine) : (s.setEng n e).cands = s.cands := rfl
@[simp] theorem State.setEng_dplls (n : Nat) (e : Engine) : (s.setEng n e).dplls = s.dplls := rfl
@[simp] theorem State.setEng_pulses (n : Nat) (e : Engine) : (s.setEng n e).pulses = s.pulses := rfl
@[simp] theorem State.setEng_tbs (n : Nat) (e : Engine) : (s.setEng n e).tbs = s.tbs := rfl
@[simp] theorem State.setEng_txqs (n : Nat) (e : Engine) : (s.setEng n e).txqs = s.txqs := rfl
@[simp] theorem State.setEng_macs (n : Nat) (e : Engine) : (s.setEng n e).macs = s.macs := rfl
@[simp] theorem State.setEng_txStreams (n : Nat) (e : Engine) : (s.setEng n e).txStreams = s.txStreams := rfl
@[simp] theorem State.setEng_rxStreams (n : Nat) (e : Engine) : (s.setEng n e).rxStreams = s.rxStreams := rfl
@[simp] theorem State.setEng_legs (n : Nat) (e : Engine) : (s.setEng n e).legs = s.legs := rfl
@[simp] theorem State.setEng_lanes (n : Nat) (e : Engine) : (s.setEng n e).lanes = s.lanes := rfl
@[simp] theorem State.setEng_links (n : Nat) (e : Engine) : (s.setEng n e).links = s.links := rfl
@[simp] theorem State.setEng_conceal (n : Nat) (e : Engine) : (s.setEng n e).conceal = s.conceal := rfl
@[simp] theorem State.setEng_lastGood (n : Nat) (e : Engine) : (s.setEng n e).lastGood = s.lastGood := rfl
@[simp] theorem State.setEng_fov (n : Nat) (e : Engine) : (s.setEng n e).fov = s.fov := rfl
@[simp] theorem State.setEng_dmc (n : Nat) (e : Engine) : (s.setEng n e).dmc = s.dmc := rfl
@[simp] theorem State.setEng_xbar (n : Nat) (e : Engine) : (s.setEng n e).xbar = s.xbar := rfl
@[simp] theorem State.setEng_dma (n : Nat) (e : Engine) : (s.setEng n e).dma = s.dma := rfl
@[simp] theorem State.setEng_gpios (n : Nat) (e : Engine) : (s.setEng n e).gpios = s.gpios := rfl
@[simp] theorem State.setEng_svc (n : Nat) (e : Engine) : (s.setEng n e).svc = s.svc := rfl
@[simp] theorem State.setEng_pcie (n : Nat) (e : Engine) : (s.setEng n e).pcie = s.pcie := rfl
@[simp] theorem State.setEng_drg (n : Nat) (e : Engine) : (s.setEng n e).drg = s.drg := rfl
@[simp] theorem State.setEng_tlm (n : Nat) (e : Engine) : (s.setEng n e).tlm = s.tlm := rfl

@[simp] theorem State.setCfg_pending (c : Cfg) : (s.setCfg c).pending = s.pending := rfl
@[simp] theorem State.setCfg_now (c : Cfg) : (s.setCfg c).now = s.now := rfl
@[simp] theorem State.setCfg_freeCount (c : Cfg) : (s.setCfg c).freeCount = s.freeCount := rfl
@[simp] theorem State.setCfg_regs (c : Cfg) : (s.setCfg c).regs = s.regs := rfl
@[simp] theorem State.setCfg_layers (c : Cfg) : (s.setCfg c).layers = s.layers := rfl
@[simp] theorem State.setCfg_reply (c : Cfg) : (s.setCfg c).reply = s.reply := rfl
@[simp] theorem State.setCfg_outbox (c : Cfg) : (s.setCfg c).outbox = s.outbox := rfl
@[simp] theorem State.setCfg_doms (c : Cfg) : (s.setCfg c).doms = s.doms := rfl
@[simp] theorem State.setCfg_locks (c : Cfg) : (s.setCfg c).locks = s.locks := rfl
@[simp] theorem State.setCfg_glb (c : Cfg) : (s.setCfg c).glb = s.glb := rfl
@[simp] theorem State.setCfg_flt (c : Cfg) : (s.setCfg c).flt = s.flt := rfl
@[simp] theorem State.setCfg_weir (c : Cfg) : (s.setCfg c).weir = s.weir := rfl
@[simp] theorem State.setCfg_evt (c : Cfg) : (s.setCfg c).evt = s.evt := rfl
@[simp] theorem State.setCfg_ssm (c : Cfg) : (s.setCfg c).ssm = s.ssm := rfl
@[simp] theorem State.setCfg_dram (c : Cfg) : (s.setCfg c).dram = s.dram := rfl
@[simp] theorem State.setCfg_engines (c : Cfg) : (s.setCfg c).engines = s.engines := rfl
@[simp] theorem State.setCfg_waits (c : Cfg) : (s.setCfg c).waits = s.waits := rfl
@[simp] theorem State.setCfg_substs (c : Cfg) : (s.setCfg c).substs = s.substs := rfl
@[simp] theorem State.setCfg_basin (c : Cfg) : (s.setCfg c).basin = s.basin := rfl
@[simp] theorem State.setCfg_router (c : Cfg) : (s.setCfg c).router = s.router := rfl
@[simp] theorem State.setCfg_feeds (c : Cfg) : (s.setCfg c).feeds = s.feeds := rfl
@[simp] theorem State.setCfg_frames (c : Cfg) : (s.setCfg c).frames = s.frames := rfl
@[simp] theorem State.setCfg_flc (c : Cfg) : (s.setCfg c).flc = s.flc := rfl
@[simp] theorem State.setCfg_tdm (c : Cfg) : (s.setCfg c).tdm = s.tdm := rfl
@[simp] theorem State.setCfg_amps (c : Cfg) : (s.setCfg c).amps = s.amps := rfl
@[simp] theorem State.setCfg_ampGroups (c : Cfg) : (s.setCfg c).ampGroups = s.ampGroups := rfl
@[simp] theorem State.setCfg_cands (c : Cfg) : (s.setCfg c).cands = s.cands := rfl
@[simp] theorem State.setCfg_dplls (c : Cfg) : (s.setCfg c).dplls = s.dplls := rfl
@[simp] theorem State.setCfg_pulses (c : Cfg) : (s.setCfg c).pulses = s.pulses := rfl
@[simp] theorem State.setCfg_tbs (c : Cfg) : (s.setCfg c).tbs = s.tbs := rfl
@[simp] theorem State.setCfg_txqs (c : Cfg) : (s.setCfg c).txqs = s.txqs := rfl
@[simp] theorem State.setCfg_macs (c : Cfg) : (s.setCfg c).macs = s.macs := rfl
@[simp] theorem State.setCfg_txStreams (c : Cfg) : (s.setCfg c).txStreams = s.txStreams := rfl
@[simp] theorem State.setCfg_rxStreams (c : Cfg) : (s.setCfg c).rxStreams = s.rxStreams := rfl
@[simp] theorem State.setCfg_legs (c : Cfg) : (s.setCfg c).legs = s.legs := rfl
@[simp] theorem State.setCfg_lanes (c : Cfg) : (s.setCfg c).lanes = s.lanes := rfl
@[simp] theorem State.setCfg_links (c : Cfg) : (s.setCfg c).links = s.links := rfl
@[simp] theorem State.setCfg_conceal (c : Cfg) : (s.setCfg c).conceal = s.conceal := rfl
@[simp] theorem State.setCfg_lastGood (c : Cfg) : (s.setCfg c).lastGood = s.lastGood := rfl
@[simp] theorem State.setCfg_fov (c : Cfg) : (s.setCfg c).fov = s.fov := rfl
@[simp] theorem State.setCfg_dmc (c : Cfg) : (s.setCfg c).dmc = s.dmc := rfl
@[simp] theorem State.setCfg_xbar (c : Cfg) : (s.setCfg c).xbar = s.xbar := rfl
@[simp] theorem State.setCfg_dma (c : Cfg) : (s.setCfg c).dma = s.dma := rfl
@[simp] theorem State.setCfg_gpios (c : Cfg) : (s.setCfg c).gpios = s.gpios := rfl
@[simp] theorem State.setCfg_svc (c : Cfg) : (s.setCfg c).svc = s.svc := rfl
@[simp] theorem State.setCfg_pcie (c : Cfg) : (s.setCfg c).pcie = s.pcie := rfl
@[simp] theorem State.setCfg_drg (c : Cfg) : (s.setCfg c).drg = s.drg := rfl
@[simp] theorem State.setCfg_tlm (c : Cfg) : (s.setCfg c).tlm = s.tlm := rfl
@[simp] theorem State.setCfg_cfg (c : Cfg) : (s.setCfg c).cfg = c := rfl

@[simp] theorem State.setGlb_pending (g : Glb) : (s.setGlb g).pending = s.pending := rfl
@[simp] theorem State.setGlb_now (g : Glb) : (s.setGlb g).now = s.now := rfl
@[simp] theorem State.setGlb_freeCount (g : Glb) : (s.setGlb g).freeCount = s.freeCount := rfl
@[simp] theorem State.setGlb_regs (g : Glb) : (s.setGlb g).regs = s.regs := rfl
@[simp] theorem State.setGlb_layers (g : Glb) : (s.setGlb g).layers = s.layers := rfl
@[simp] theorem State.setGlb_reply (g : Glb) : (s.setGlb g).reply = s.reply := rfl
@[simp] theorem State.setGlb_outbox (g : Glb) : (s.setGlb g).outbox = s.outbox := rfl
@[simp] theorem State.setGlb_doms (g : Glb) : (s.setGlb g).doms = s.doms := rfl
@[simp] theorem State.setGlb_locks (g : Glb) : (s.setGlb g).locks = s.locks := rfl
@[simp] theorem State.setGlb_cfg (g : Glb) : (s.setGlb g).cfg = s.cfg := rfl
@[simp] theorem State.setGlb_flt (g : Glb) : (s.setGlb g).flt = s.flt := rfl
@[simp] theorem State.setGlb_weir (g : Glb) : (s.setGlb g).weir = s.weir := rfl
@[simp] theorem State.setGlb_evt (g : Glb) : (s.setGlb g).evt = s.evt := rfl
@[simp] theorem State.setGlb_ssm (g : Glb) : (s.setGlb g).ssm = s.ssm := rfl
@[simp] theorem State.setGlb_dram (g : Glb) : (s.setGlb g).dram = s.dram := rfl
@[simp] theorem State.setGlb_engines (g : Glb) : (s.setGlb g).engines = s.engines := rfl
@[simp] theorem State.setGlb_waits (g : Glb) : (s.setGlb g).waits = s.waits := rfl
@[simp] theorem State.setGlb_substs (g : Glb) : (s.setGlb g).substs = s.substs := rfl
@[simp] theorem State.setGlb_basin (g : Glb) : (s.setGlb g).basin = s.basin := rfl
@[simp] theorem State.setGlb_router (g : Glb) : (s.setGlb g).router = s.router := rfl
@[simp] theorem State.setGlb_feeds (g : Glb) : (s.setGlb g).feeds = s.feeds := rfl
@[simp] theorem State.setGlb_frames (g : Glb) : (s.setGlb g).frames = s.frames := rfl
@[simp] theorem State.setGlb_flc (g : Glb) : (s.setGlb g).flc = s.flc := rfl
@[simp] theorem State.setGlb_tdm (g : Glb) : (s.setGlb g).tdm = s.tdm := rfl
@[simp] theorem State.setGlb_amps (g : Glb) : (s.setGlb g).amps = s.amps := rfl
@[simp] theorem State.setGlb_ampGroups (g : Glb) : (s.setGlb g).ampGroups = s.ampGroups := rfl
@[simp] theorem State.setGlb_cands (g : Glb) : (s.setGlb g).cands = s.cands := rfl
@[simp] theorem State.setGlb_dplls (g : Glb) : (s.setGlb g).dplls = s.dplls := rfl
@[simp] theorem State.setGlb_pulses (g : Glb) : (s.setGlb g).pulses = s.pulses := rfl
@[simp] theorem State.setGlb_tbs (g : Glb) : (s.setGlb g).tbs = s.tbs := rfl
@[simp] theorem State.setGlb_txqs (g : Glb) : (s.setGlb g).txqs = s.txqs := rfl
@[simp] theorem State.setGlb_macs (g : Glb) : (s.setGlb g).macs = s.macs := rfl
@[simp] theorem State.setGlb_txStreams (g : Glb) : (s.setGlb g).txStreams = s.txStreams := rfl
@[simp] theorem State.setGlb_rxStreams (g : Glb) : (s.setGlb g).rxStreams = s.rxStreams := rfl
@[simp] theorem State.setGlb_legs (g : Glb) : (s.setGlb g).legs = s.legs := rfl
@[simp] theorem State.setGlb_lanes (g : Glb) : (s.setGlb g).lanes = s.lanes := rfl
@[simp] theorem State.setGlb_links (g : Glb) : (s.setGlb g).links = s.links := rfl
@[simp] theorem State.setGlb_conceal (g : Glb) : (s.setGlb g).conceal = s.conceal := rfl
@[simp] theorem State.setGlb_lastGood (g : Glb) : (s.setGlb g).lastGood = s.lastGood := rfl
@[simp] theorem State.setGlb_fov (g : Glb) : (s.setGlb g).fov = s.fov := rfl
@[simp] theorem State.setGlb_dmc (g : Glb) : (s.setGlb g).dmc = s.dmc := rfl
@[simp] theorem State.setGlb_xbar (g : Glb) : (s.setGlb g).xbar = s.xbar := rfl
@[simp] theorem State.setGlb_dma (g : Glb) : (s.setGlb g).dma = s.dma := rfl
@[simp] theorem State.setGlb_gpios (g : Glb) : (s.setGlb g).gpios = s.gpios := rfl
@[simp] theorem State.setGlb_svc (g : Glb) : (s.setGlb g).svc = s.svc := rfl
@[simp] theorem State.setGlb_pcie (g : Glb) : (s.setGlb g).pcie = s.pcie := rfl
@[simp] theorem State.setGlb_drg (g : Glb) : (s.setGlb g).drg = s.drg := rfl
@[simp] theorem State.setGlb_tlm (g : Glb) : (s.setGlb g).tlm = s.tlm := rfl
@[simp] theorem State.setGlb_glb (g : Glb) : (s.setGlb g).glb = g := rfl

@[simp] theorem State.setFlt_pending (f : Flt) : (s.setFlt f).pending = s.pending := rfl
@[simp] theorem State.setFlt_now (f : Flt) : (s.setFlt f).now = s.now := rfl
@[simp] theorem State.setFlt_freeCount (f : Flt) : (s.setFlt f).freeCount = s.freeCount := rfl
@[simp] theorem State.setFlt_regs (f : Flt) : (s.setFlt f).regs = s.regs := rfl
@[simp] theorem State.setFlt_layers (f : Flt) : (s.setFlt f).layers = s.layers := rfl
@[simp] theorem State.setFlt_reply (f : Flt) : (s.setFlt f).reply = s.reply := rfl
@[simp] theorem State.setFlt_outbox (f : Flt) : (s.setFlt f).outbox = s.outbox := rfl
@[simp] theorem State.setFlt_doms (f : Flt) : (s.setFlt f).doms = s.doms := rfl
@[simp] theorem State.setFlt_locks (f : Flt) : (s.setFlt f).locks = s.locks := rfl
@[simp] theorem State.setFlt_glb (f : Flt) : (s.setFlt f).glb = s.glb := rfl
@[simp] theorem State.setFlt_cfg (f : Flt) : (s.setFlt f).cfg = s.cfg := rfl
@[simp] theorem State.setFlt_weir (f : Flt) : (s.setFlt f).weir = s.weir := rfl
@[simp] theorem State.setFlt_evt (f : Flt) : (s.setFlt f).evt = s.evt := rfl
@[simp] theorem State.setFlt_ssm (f : Flt) : (s.setFlt f).ssm = s.ssm := rfl
@[simp] theorem State.setFlt_dram (f : Flt) : (s.setFlt f).dram = s.dram := rfl
@[simp] theorem State.setFlt_engines (f : Flt) : (s.setFlt f).engines = s.engines := rfl
@[simp] theorem State.setFlt_waits (f : Flt) : (s.setFlt f).waits = s.waits := rfl
@[simp] theorem State.setFlt_substs (f : Flt) : (s.setFlt f).substs = s.substs := rfl
@[simp] theorem State.setFlt_basin (f : Flt) : (s.setFlt f).basin = s.basin := rfl
@[simp] theorem State.setFlt_router (f : Flt) : (s.setFlt f).router = s.router := rfl
@[simp] theorem State.setFlt_feeds (f : Flt) : (s.setFlt f).feeds = s.feeds := rfl
@[simp] theorem State.setFlt_frames (f : Flt) : (s.setFlt f).frames = s.frames := rfl
@[simp] theorem State.setFlt_flc (f : Flt) : (s.setFlt f).flc = s.flc := rfl
@[simp] theorem State.setFlt_tdm (f : Flt) : (s.setFlt f).tdm = s.tdm := rfl
@[simp] theorem State.setFlt_amps (f : Flt) : (s.setFlt f).amps = s.amps := rfl
@[simp] theorem State.setFlt_ampGroups (f : Flt) : (s.setFlt f).ampGroups = s.ampGroups := rfl
@[simp] theorem State.setFlt_cands (f : Flt) : (s.setFlt f).cands = s.cands := rfl
@[simp] theorem State.setFlt_dplls (f : Flt) : (s.setFlt f).dplls = s.dplls := rfl
@[simp] theorem State.setFlt_pulses (f : Flt) : (s.setFlt f).pulses = s.pulses := rfl
@[simp] theorem State.setFlt_tbs (f : Flt) : (s.setFlt f).tbs = s.tbs := rfl
@[simp] theorem State.setFlt_txqs (f : Flt) : (s.setFlt f).txqs = s.txqs := rfl
@[simp] theorem State.setFlt_macs (f : Flt) : (s.setFlt f).macs = s.macs := rfl
@[simp] theorem State.setFlt_txStreams (f : Flt) : (s.setFlt f).txStreams = s.txStreams := rfl
@[simp] theorem State.setFlt_rxStreams (f : Flt) : (s.setFlt f).rxStreams = s.rxStreams := rfl
@[simp] theorem State.setFlt_legs (f : Flt) : (s.setFlt f).legs = s.legs := rfl
@[simp] theorem State.setFlt_lanes (f : Flt) : (s.setFlt f).lanes = s.lanes := rfl
@[simp] theorem State.setFlt_links (f : Flt) : (s.setFlt f).links = s.links := rfl
@[simp] theorem State.setFlt_conceal (f : Flt) : (s.setFlt f).conceal = s.conceal := rfl
@[simp] theorem State.setFlt_lastGood (f : Flt) : (s.setFlt f).lastGood = s.lastGood := rfl
@[simp] theorem State.setFlt_fov (f : Flt) : (s.setFlt f).fov = s.fov := rfl
@[simp] theorem State.setFlt_dmc (f : Flt) : (s.setFlt f).dmc = s.dmc := rfl
@[simp] theorem State.setFlt_xbar (f : Flt) : (s.setFlt f).xbar = s.xbar := rfl
@[simp] theorem State.setFlt_dma (f : Flt) : (s.setFlt f).dma = s.dma := rfl
@[simp] theorem State.setFlt_gpios (f : Flt) : (s.setFlt f).gpios = s.gpios := rfl
@[simp] theorem State.setFlt_svc (f : Flt) : (s.setFlt f).svc = s.svc := rfl
@[simp] theorem State.setFlt_pcie (f : Flt) : (s.setFlt f).pcie = s.pcie := rfl
@[simp] theorem State.setFlt_drg (f : Flt) : (s.setFlt f).drg = s.drg := rfl
@[simp] theorem State.setFlt_tlm (f : Flt) : (s.setFlt f).tlm = s.tlm := rfl
@[simp] theorem State.setFlt_flt (f : Flt) : (s.setFlt f).flt = f := rfl

@[simp] theorem State.setFov_pending (f : Fov) : (s.setFov f).pending = s.pending := rfl
@[simp] theorem State.setFov_now (f : Fov) : (s.setFov f).now = s.now := rfl
@[simp] theorem State.setFov_freeCount (f : Fov) : (s.setFov f).freeCount = s.freeCount := rfl
@[simp] theorem State.setFov_regs (f : Fov) : (s.setFov f).regs = s.regs := rfl
@[simp] theorem State.setFov_layers (f : Fov) : (s.setFov f).layers = s.layers := rfl
@[simp] theorem State.setFov_reply (f : Fov) : (s.setFov f).reply = s.reply := rfl
@[simp] theorem State.setFov_outbox (f : Fov) : (s.setFov f).outbox = s.outbox := rfl
@[simp] theorem State.setFov_doms (f : Fov) : (s.setFov f).doms = s.doms := rfl
@[simp] theorem State.setFov_locks (f : Fov) : (s.setFov f).locks = s.locks := rfl
@[simp] theorem State.setFov_glb (f : Fov) : (s.setFov f).glb = s.glb := rfl
@[simp] theorem State.setFov_cfg (f : Fov) : (s.setFov f).cfg = s.cfg := rfl
@[simp] theorem State.setFov_flt (f : Fov) : (s.setFov f).flt = s.flt := rfl
@[simp] theorem State.setFov_weir (f : Fov) : (s.setFov f).weir = s.weir := rfl
@[simp] theorem State.setFov_evt (f : Fov) : (s.setFov f).evt = s.evt := rfl
@[simp] theorem State.setFov_ssm (f : Fov) : (s.setFov f).ssm = s.ssm := rfl
@[simp] theorem State.setFov_dram (f : Fov) : (s.setFov f).dram = s.dram := rfl
@[simp] theorem State.setFov_engines (f : Fov) : (s.setFov f).engines = s.engines := rfl
@[simp] theorem State.setFov_waits (f : Fov) : (s.setFov f).waits = s.waits := rfl
@[simp] theorem State.setFov_substs (f : Fov) : (s.setFov f).substs = s.substs := rfl
@[simp] theorem State.setFov_basin (f : Fov) : (s.setFov f).basin = s.basin := rfl
@[simp] theorem State.setFov_router (f : Fov) : (s.setFov f).router = s.router := rfl
@[simp] theorem State.setFov_feeds (f : Fov) : (s.setFov f).feeds = s.feeds := rfl
@[simp] theorem State.setFov_frames (f : Fov) : (s.setFov f).frames = s.frames := rfl
@[simp] theorem State.setFov_flc (f : Fov) : (s.setFov f).flc = s.flc := rfl
@[simp] theorem State.setFov_tdm (f : Fov) : (s.setFov f).tdm = s.tdm := rfl
@[simp] theorem State.setFov_amps (f : Fov) : (s.setFov f).amps = s.amps := rfl
@[simp] theorem State.setFov_ampGroups (f : Fov) : (s.setFov f).ampGroups = s.ampGroups := rfl
@[simp] theorem State.setFov_cands (f : Fov) : (s.setFov f).cands = s.cands := rfl
@[simp] theorem State.setFov_dplls (f : Fov) : (s.setFov f).dplls = s.dplls := rfl
@[simp] theorem State.setFov_pulses (f : Fov) : (s.setFov f).pulses = s.pulses := rfl
@[simp] theorem State.setFov_tbs (f : Fov) : (s.setFov f).tbs = s.tbs := rfl
@[simp] theorem State.setFov_txqs (f : Fov) : (s.setFov f).txqs = s.txqs := rfl
@[simp] theorem State.setFov_macs (f : Fov) : (s.setFov f).macs = s.macs := rfl
@[simp] theorem State.setFov_txStreams (f : Fov) : (s.setFov f).txStreams = s.txStreams := rfl
@[simp] theorem State.setFov_rxStreams (f : Fov) : (s.setFov f).rxStreams = s.rxStreams := rfl
@[simp] theorem State.setFov_legs (f : Fov) : (s.setFov f).legs = s.legs := rfl
@[simp] theorem State.setFov_lanes (f : Fov) : (s.setFov f).lanes = s.lanes := rfl
@[simp] theorem State.setFov_links (f : Fov) : (s.setFov f).links = s.links := rfl
@[simp] theorem State.setFov_conceal (f : Fov) : (s.setFov f).conceal = s.conceal := rfl
@[simp] theorem State.setFov_lastGood (f : Fov) : (s.setFov f).lastGood = s.lastGood := rfl
@[simp] theorem State.setFov_dmc (f : Fov) : (s.setFov f).dmc = s.dmc := rfl
@[simp] theorem State.setFov_xbar (f : Fov) : (s.setFov f).xbar = s.xbar := rfl
@[simp] theorem State.setFov_dma (f : Fov) : (s.setFov f).dma = s.dma := rfl
@[simp] theorem State.setFov_gpios (f : Fov) : (s.setFov f).gpios = s.gpios := rfl
@[simp] theorem State.setFov_svc (f : Fov) : (s.setFov f).svc = s.svc := rfl
@[simp] theorem State.setFov_pcie (f : Fov) : (s.setFov f).pcie = s.pcie := rfl
@[simp] theorem State.setFov_drg (f : Fov) : (s.setFov f).drg = s.drg := rfl
@[simp] theorem State.setFov_tlm (f : Fov) : (s.setFov f).tlm = s.tlm := rfl
@[simp] theorem State.setFov_fov (f : Fov) : (s.setFov f).fov = f := rfl

@[simp] theorem State.setBasin_pending (b : Basin) : (s.setBasin b).pending = s.pending := rfl
@[simp] theorem State.setBasin_now (b : Basin) : (s.setBasin b).now = s.now := rfl
@[simp] theorem State.setBasin_freeCount (b : Basin) : (s.setBasin b).freeCount = s.freeCount := rfl
@[simp] theorem State.setBasin_regs (b : Basin) : (s.setBasin b).regs = s.regs := rfl
@[simp] theorem State.setBasin_layers (b : Basin) : (s.setBasin b).layers = s.layers := rfl
@[simp] theorem State.setBasin_reply (b : Basin) : (s.setBasin b).reply = s.reply := rfl
@[simp] theorem State.setBasin_outbox (b : Basin) : (s.setBasin b).outbox = s.outbox := rfl
@[simp] theorem State.setBasin_doms (b : Basin) : (s.setBasin b).doms = s.doms := rfl
@[simp] theorem State.setBasin_locks (b : Basin) : (s.setBasin b).locks = s.locks := rfl
@[simp] theorem State.setBasin_glb (b : Basin) : (s.setBasin b).glb = s.glb := rfl
@[simp] theorem State.setBasin_cfg (b : Basin) : (s.setBasin b).cfg = s.cfg := rfl
@[simp] theorem State.setBasin_flt (b : Basin) : (s.setBasin b).flt = s.flt := rfl
@[simp] theorem State.setBasin_weir (b : Basin) : (s.setBasin b).weir = s.weir := rfl
@[simp] theorem State.setBasin_evt (b : Basin) : (s.setBasin b).evt = s.evt := rfl
@[simp] theorem State.setBasin_ssm (b : Basin) : (s.setBasin b).ssm = s.ssm := rfl
@[simp] theorem State.setBasin_dram (b : Basin) : (s.setBasin b).dram = s.dram := rfl
@[simp] theorem State.setBasin_engines (b : Basin) : (s.setBasin b).engines = s.engines := rfl
@[simp] theorem State.setBasin_waits (b : Basin) : (s.setBasin b).waits = s.waits := rfl
@[simp] theorem State.setBasin_substs (b : Basin) : (s.setBasin b).substs = s.substs := rfl
@[simp] theorem State.setBasin_router (b : Basin) : (s.setBasin b).router = s.router := rfl
@[simp] theorem State.setBasin_feeds (b : Basin) : (s.setBasin b).feeds = s.feeds := rfl
@[simp] theorem State.setBasin_frames (b : Basin) : (s.setBasin b).frames = s.frames := rfl
@[simp] theorem State.setBasin_flc (b : Basin) : (s.setBasin b).flc = s.flc := rfl
@[simp] theorem State.setBasin_tdm (b : Basin) : (s.setBasin b).tdm = s.tdm := rfl
@[simp] theorem State.setBasin_amps (b : Basin) : (s.setBasin b).amps = s.amps := rfl
@[simp] theorem State.setBasin_ampGroups (b : Basin) : (s.setBasin b).ampGroups = s.ampGroups := rfl
@[simp] theorem State.setBasin_cands (b : Basin) : (s.setBasin b).cands = s.cands := rfl
@[simp] theorem State.setBasin_dplls (b : Basin) : (s.setBasin b).dplls = s.dplls := rfl
@[simp] theorem State.setBasin_pulses (b : Basin) : (s.setBasin b).pulses = s.pulses := rfl
@[simp] theorem State.setBasin_tbs (b : Basin) : (s.setBasin b).tbs = s.tbs := rfl
@[simp] theorem State.setBasin_txqs (b : Basin) : (s.setBasin b).txqs = s.txqs := rfl
@[simp] theorem State.setBasin_macs (b : Basin) : (s.setBasin b).macs = s.macs := rfl
@[simp] theorem State.setBasin_txStreams (b : Basin) : (s.setBasin b).txStreams = s.txStreams := rfl
@[simp] theorem State.setBasin_rxStreams (b : Basin) : (s.setBasin b).rxStreams = s.rxStreams := rfl
@[simp] theorem State.setBasin_legs (b : Basin) : (s.setBasin b).legs = s.legs := rfl
@[simp] theorem State.setBasin_lanes (b : Basin) : (s.setBasin b).lanes = s.lanes := rfl
@[simp] theorem State.setBasin_links (b : Basin) : (s.setBasin b).links = s.links := rfl
@[simp] theorem State.setBasin_conceal (b : Basin) : (s.setBasin b).conceal = s.conceal := rfl
@[simp] theorem State.setBasin_lastGood (b : Basin) : (s.setBasin b).lastGood = s.lastGood := rfl
@[simp] theorem State.setBasin_fov (b : Basin) : (s.setBasin b).fov = s.fov := rfl
@[simp] theorem State.setBasin_dmc (b : Basin) : (s.setBasin b).dmc = s.dmc := rfl
@[simp] theorem State.setBasin_xbar (b : Basin) : (s.setBasin b).xbar = s.xbar := rfl
@[simp] theorem State.setBasin_dma (b : Basin) : (s.setBasin b).dma = s.dma := rfl
@[simp] theorem State.setBasin_gpios (b : Basin) : (s.setBasin b).gpios = s.gpios := rfl
@[simp] theorem State.setBasin_svc (b : Basin) : (s.setBasin b).svc = s.svc := rfl
@[simp] theorem State.setBasin_pcie (b : Basin) : (s.setBasin b).pcie = s.pcie := rfl
@[simp] theorem State.setBasin_drg (b : Basin) : (s.setBasin b).drg = s.drg := rfl
@[simp] theorem State.setBasin_tlm (b : Basin) : (s.setBasin b).tlm = s.tlm := rfl
@[simp] theorem State.setBasin_basin (b : Basin) : (s.setBasin b).basin = b := rfl

@[simp] theorem State.setRouter_pending (r : Router) : (s.setRouter r).pending = s.pending := rfl
@[simp] theorem State.setRouter_now (r : Router) : (s.setRouter r).now = s.now := rfl
@[simp] theorem State.setRouter_freeCount (r : Router) : (s.setRouter r).freeCount = s.freeCount := rfl
@[simp] theorem State.setRouter_regs (r : Router) : (s.setRouter r).regs = s.regs := rfl
@[simp] theorem State.setRouter_layers (r : Router) : (s.setRouter r).layers = s.layers := rfl
@[simp] theorem State.setRouter_reply (r : Router) : (s.setRouter r).reply = s.reply := rfl
@[simp] theorem State.setRouter_outbox (r : Router) : (s.setRouter r).outbox = s.outbox := rfl
@[simp] theorem State.setRouter_doms (r : Router) : (s.setRouter r).doms = s.doms := rfl
@[simp] theorem State.setRouter_locks (r : Router) : (s.setRouter r).locks = s.locks := rfl
@[simp] theorem State.setRouter_glb (r : Router) : (s.setRouter r).glb = s.glb := rfl
@[simp] theorem State.setRouter_cfg (r : Router) : (s.setRouter r).cfg = s.cfg := rfl
@[simp] theorem State.setRouter_flt (r : Router) : (s.setRouter r).flt = s.flt := rfl
@[simp] theorem State.setRouter_weir (r : Router) : (s.setRouter r).weir = s.weir := rfl
@[simp] theorem State.setRouter_evt (r : Router) : (s.setRouter r).evt = s.evt := rfl
@[simp] theorem State.setRouter_ssm (r : Router) : (s.setRouter r).ssm = s.ssm := rfl
@[simp] theorem State.setRouter_dram (r : Router) : (s.setRouter r).dram = s.dram := rfl
@[simp] theorem State.setRouter_engines (r : Router) : (s.setRouter r).engines = s.engines := rfl
@[simp] theorem State.setRouter_waits (r : Router) : (s.setRouter r).waits = s.waits := rfl
@[simp] theorem State.setRouter_substs (r : Router) : (s.setRouter r).substs = s.substs := rfl
@[simp] theorem State.setRouter_basin (r : Router) : (s.setRouter r).basin = s.basin := rfl
@[simp] theorem State.setRouter_feeds (r : Router) : (s.setRouter r).feeds = s.feeds := rfl
@[simp] theorem State.setRouter_frames (r : Router) : (s.setRouter r).frames = s.frames := rfl
@[simp] theorem State.setRouter_flc (r : Router) : (s.setRouter r).flc = s.flc := rfl
@[simp] theorem State.setRouter_tdm (r : Router) : (s.setRouter r).tdm = s.tdm := rfl
@[simp] theorem State.setRouter_amps (r : Router) : (s.setRouter r).amps = s.amps := rfl
@[simp] theorem State.setRouter_ampGroups (r : Router) : (s.setRouter r).ampGroups = s.ampGroups := rfl
@[simp] theorem State.setRouter_cands (r : Router) : (s.setRouter r).cands = s.cands := rfl
@[simp] theorem State.setRouter_dplls (r : Router) : (s.setRouter r).dplls = s.dplls := rfl
@[simp] theorem State.setRouter_pulses (r : Router) : (s.setRouter r).pulses = s.pulses := rfl
@[simp] theorem State.setRouter_tbs (r : Router) : (s.setRouter r).tbs = s.tbs := rfl
@[simp] theorem State.setRouter_txqs (r : Router) : (s.setRouter r).txqs = s.txqs := rfl
@[simp] theorem State.setRouter_macs (r : Router) : (s.setRouter r).macs = s.macs := rfl
@[simp] theorem State.setRouter_txStreams (r : Router) : (s.setRouter r).txStreams = s.txStreams := rfl
@[simp] theorem State.setRouter_rxStreams (r : Router) : (s.setRouter r).rxStreams = s.rxStreams := rfl
@[simp] theorem State.setRouter_legs (r : Router) : (s.setRouter r).legs = s.legs := rfl
@[simp] theorem State.setRouter_lanes (r : Router) : (s.setRouter r).lanes = s.lanes := rfl
@[simp] theorem State.setRouter_links (r : Router) : (s.setRouter r).links = s.links := rfl
@[simp] theorem State.setRouter_conceal (r : Router) : (s.setRouter r).conceal = s.conceal := rfl
@[simp] theorem State.setRouter_lastGood (r : Router) : (s.setRouter r).lastGood = s.lastGood := rfl
@[simp] theorem State.setRouter_fov (r : Router) : (s.setRouter r).fov = s.fov := rfl
@[simp] theorem State.setRouter_dmc (r : Router) : (s.setRouter r).dmc = s.dmc := rfl
@[simp] theorem State.setRouter_xbar (r : Router) : (s.setRouter r).xbar = s.xbar := rfl
@[simp] theorem State.setRouter_dma (r : Router) : (s.setRouter r).dma = s.dma := rfl
@[simp] theorem State.setRouter_gpios (r : Router) : (s.setRouter r).gpios = s.gpios := rfl
@[simp] theorem State.setRouter_svc (r : Router) : (s.setRouter r).svc = s.svc := rfl
@[simp] theorem State.setRouter_pcie (r : Router) : (s.setRouter r).pcie = s.pcie := rfl
@[simp] theorem State.setRouter_drg (r : Router) : (s.setRouter r).drg = s.drg := rfl
@[simp] theorem State.setRouter_tlm (r : Router) : (s.setRouter r).tlm = s.tlm := rfl
@[simp] theorem State.setRouter_router (r : Router) : (s.setRouter r).router = r := rfl

@[simp] theorem State.setFlc_pending (f : Filters) : (s.setFlc f).pending = s.pending := rfl
@[simp] theorem State.setFlc_now (f : Filters) : (s.setFlc f).now = s.now := rfl
@[simp] theorem State.setFlc_freeCount (f : Filters) : (s.setFlc f).freeCount = s.freeCount := rfl
@[simp] theorem State.setFlc_regs (f : Filters) : (s.setFlc f).regs = s.regs := rfl
@[simp] theorem State.setFlc_layers (f : Filters) : (s.setFlc f).layers = s.layers := rfl
@[simp] theorem State.setFlc_reply (f : Filters) : (s.setFlc f).reply = s.reply := rfl
@[simp] theorem State.setFlc_outbox (f : Filters) : (s.setFlc f).outbox = s.outbox := rfl
@[simp] theorem State.setFlc_doms (f : Filters) : (s.setFlc f).doms = s.doms := rfl
@[simp] theorem State.setFlc_locks (f : Filters) : (s.setFlc f).locks = s.locks := rfl
@[simp] theorem State.setFlc_glb (f : Filters) : (s.setFlc f).glb = s.glb := rfl
@[simp] theorem State.setFlc_cfg (f : Filters) : (s.setFlc f).cfg = s.cfg := rfl
@[simp] theorem State.setFlc_flt (f : Filters) : (s.setFlc f).flt = s.flt := rfl
@[simp] theorem State.setFlc_weir (f : Filters) : (s.setFlc f).weir = s.weir := rfl
@[simp] theorem State.setFlc_evt (f : Filters) : (s.setFlc f).evt = s.evt := rfl
@[simp] theorem State.setFlc_ssm (f : Filters) : (s.setFlc f).ssm = s.ssm := rfl
@[simp] theorem State.setFlc_dram (f : Filters) : (s.setFlc f).dram = s.dram := rfl
@[simp] theorem State.setFlc_engines (f : Filters) : (s.setFlc f).engines = s.engines := rfl
@[simp] theorem State.setFlc_waits (f : Filters) : (s.setFlc f).waits = s.waits := rfl
@[simp] theorem State.setFlc_substs (f : Filters) : (s.setFlc f).substs = s.substs := rfl
@[simp] theorem State.setFlc_basin (f : Filters) : (s.setFlc f).basin = s.basin := rfl
@[simp] theorem State.setFlc_router (f : Filters) : (s.setFlc f).router = s.router := rfl
@[simp] theorem State.setFlc_feeds (f : Filters) : (s.setFlc f).feeds = s.feeds := rfl
@[simp] theorem State.setFlc_frames (f : Filters) : (s.setFlc f).frames = s.frames := rfl
@[simp] theorem State.setFlc_tdm (f : Filters) : (s.setFlc f).tdm = s.tdm := rfl
@[simp] theorem State.setFlc_amps (f : Filters) : (s.setFlc f).amps = s.amps := rfl
@[simp] theorem State.setFlc_ampGroups (f : Filters) : (s.setFlc f).ampGroups = s.ampGroups := rfl
@[simp] theorem State.setFlc_cands (f : Filters) : (s.setFlc f).cands = s.cands := rfl
@[simp] theorem State.setFlc_dplls (f : Filters) : (s.setFlc f).dplls = s.dplls := rfl
@[simp] theorem State.setFlc_pulses (f : Filters) : (s.setFlc f).pulses = s.pulses := rfl
@[simp] theorem State.setFlc_tbs (f : Filters) : (s.setFlc f).tbs = s.tbs := rfl
@[simp] theorem State.setFlc_txqs (f : Filters) : (s.setFlc f).txqs = s.txqs := rfl
@[simp] theorem State.setFlc_macs (f : Filters) : (s.setFlc f).macs = s.macs := rfl
@[simp] theorem State.setFlc_txStreams (f : Filters) : (s.setFlc f).txStreams = s.txStreams := rfl
@[simp] theorem State.setFlc_rxStreams (f : Filters) : (s.setFlc f).rxStreams = s.rxStreams := rfl
@[simp] theorem State.setFlc_legs (f : Filters) : (s.setFlc f).legs = s.legs := rfl
@[simp] theorem State.setFlc_lanes (f : Filters) : (s.setFlc f).lanes = s.lanes := rfl
@[simp] theorem State.setFlc_links (f : Filters) : (s.setFlc f).links = s.links := rfl
@[simp] theorem State.setFlc_conceal (f : Filters) : (s.setFlc f).conceal = s.conceal := rfl
@[simp] theorem State.setFlc_lastGood (f : Filters) : (s.setFlc f).lastGood = s.lastGood := rfl
@[simp] theorem State.setFlc_fov (f : Filters) : (s.setFlc f).fov = s.fov := rfl
@[simp] theorem State.setFlc_dmc (f : Filters) : (s.setFlc f).dmc = s.dmc := rfl
@[simp] theorem State.setFlc_xbar (f : Filters) : (s.setFlc f).xbar = s.xbar := rfl
@[simp] theorem State.setFlc_dma (f : Filters) : (s.setFlc f).dma = s.dma := rfl
@[simp] theorem State.setFlc_gpios (f : Filters) : (s.setFlc f).gpios = s.gpios := rfl
@[simp] theorem State.setFlc_svc (f : Filters) : (s.setFlc f).svc = s.svc := rfl
@[simp] theorem State.setFlc_pcie (f : Filters) : (s.setFlc f).pcie = s.pcie := rfl
@[simp] theorem State.setFlc_drg (f : Filters) : (s.setFlc f).drg = s.drg := rfl
@[simp] theorem State.setFlc_tlm (f : Filters) : (s.setFlc f).tlm = s.tlm := rfl
@[simp] theorem State.setFlc_flc (f : Filters) : (s.setFlc f).flc = f := rfl

@[simp] theorem State.setTdm_pending (d : Tdm) : (s.setTdm d).pending = s.pending := rfl
@[simp] theorem State.setTdm_now (d : Tdm) : (s.setTdm d).now = s.now := rfl
@[simp] theorem State.setTdm_freeCount (d : Tdm) : (s.setTdm d).freeCount = s.freeCount := rfl
@[simp] theorem State.setTdm_regs (d : Tdm) : (s.setTdm d).regs = s.regs := rfl
@[simp] theorem State.setTdm_layers (d : Tdm) : (s.setTdm d).layers = s.layers := rfl
@[simp] theorem State.setTdm_reply (d : Tdm) : (s.setTdm d).reply = s.reply := rfl
@[simp] theorem State.setTdm_outbox (d : Tdm) : (s.setTdm d).outbox = s.outbox := rfl
@[simp] theorem State.setTdm_doms (d : Tdm) : (s.setTdm d).doms = s.doms := rfl
@[simp] theorem State.setTdm_locks (d : Tdm) : (s.setTdm d).locks = s.locks := rfl
@[simp] theorem State.setTdm_glb (d : Tdm) : (s.setTdm d).glb = s.glb := rfl
@[simp] theorem State.setTdm_cfg (d : Tdm) : (s.setTdm d).cfg = s.cfg := rfl
@[simp] theorem State.setTdm_flt (d : Tdm) : (s.setTdm d).flt = s.flt := rfl
@[simp] theorem State.setTdm_weir (d : Tdm) : (s.setTdm d).weir = s.weir := rfl
@[simp] theorem State.setTdm_evt (d : Tdm) : (s.setTdm d).evt = s.evt := rfl
@[simp] theorem State.setTdm_ssm (d : Tdm) : (s.setTdm d).ssm = s.ssm := rfl
@[simp] theorem State.setTdm_dram (d : Tdm) : (s.setTdm d).dram = s.dram := rfl
@[simp] theorem State.setTdm_engines (d : Tdm) : (s.setTdm d).engines = s.engines := rfl
@[simp] theorem State.setTdm_waits (d : Tdm) : (s.setTdm d).waits = s.waits := rfl
@[simp] theorem State.setTdm_substs (d : Tdm) : (s.setTdm d).substs = s.substs := rfl
@[simp] theorem State.setTdm_basin (d : Tdm) : (s.setTdm d).basin = s.basin := rfl
@[simp] theorem State.setTdm_router (d : Tdm) : (s.setTdm d).router = s.router := rfl
@[simp] theorem State.setTdm_feeds (d : Tdm) : (s.setTdm d).feeds = s.feeds := rfl
@[simp] theorem State.setTdm_frames (d : Tdm) : (s.setTdm d).frames = s.frames := rfl
@[simp] theorem State.setTdm_flc (d : Tdm) : (s.setTdm d).flc = s.flc := rfl
@[simp] theorem State.setTdm_amps (d : Tdm) : (s.setTdm d).amps = s.amps := rfl
@[simp] theorem State.setTdm_ampGroups (d : Tdm) : (s.setTdm d).ampGroups = s.ampGroups := rfl
@[simp] theorem State.setTdm_cands (d : Tdm) : (s.setTdm d).cands = s.cands := rfl
@[simp] theorem State.setTdm_dplls (d : Tdm) : (s.setTdm d).dplls = s.dplls := rfl
@[simp] theorem State.setTdm_pulses (d : Tdm) : (s.setTdm d).pulses = s.pulses := rfl
@[simp] theorem State.setTdm_tbs (d : Tdm) : (s.setTdm d).tbs = s.tbs := rfl
@[simp] theorem State.setTdm_txqs (d : Tdm) : (s.setTdm d).txqs = s.txqs := rfl
@[simp] theorem State.setTdm_macs (d : Tdm) : (s.setTdm d).macs = s.macs := rfl
@[simp] theorem State.setTdm_txStreams (d : Tdm) : (s.setTdm d).txStreams = s.txStreams := rfl
@[simp] theorem State.setTdm_rxStreams (d : Tdm) : (s.setTdm d).rxStreams = s.rxStreams := rfl
@[simp] theorem State.setTdm_legs (d : Tdm) : (s.setTdm d).legs = s.legs := rfl
@[simp] theorem State.setTdm_lanes (d : Tdm) : (s.setTdm d).lanes = s.lanes := rfl
@[simp] theorem State.setTdm_links (d : Tdm) : (s.setTdm d).links = s.links := rfl
@[simp] theorem State.setTdm_conceal (d : Tdm) : (s.setTdm d).conceal = s.conceal := rfl
@[simp] theorem State.setTdm_lastGood (d : Tdm) : (s.setTdm d).lastGood = s.lastGood := rfl
@[simp] theorem State.setTdm_fov (d : Tdm) : (s.setTdm d).fov = s.fov := rfl
@[simp] theorem State.setTdm_dmc (d : Tdm) : (s.setTdm d).dmc = s.dmc := rfl
@[simp] theorem State.setTdm_xbar (d : Tdm) : (s.setTdm d).xbar = s.xbar := rfl
@[simp] theorem State.setTdm_dma (d : Tdm) : (s.setTdm d).dma = s.dma := rfl
@[simp] theorem State.setTdm_gpios (d : Tdm) : (s.setTdm d).gpios = s.gpios := rfl
@[simp] theorem State.setTdm_svc (d : Tdm) : (s.setTdm d).svc = s.svc := rfl
@[simp] theorem State.setTdm_pcie (d : Tdm) : (s.setTdm d).pcie = s.pcie := rfl
@[simp] theorem State.setTdm_drg (d : Tdm) : (s.setTdm d).drg = s.drg := rfl
@[simp] theorem State.setTdm_tlm (d : Tdm) : (s.setTdm d).tlm = s.tlm := rfl
@[simp] theorem State.setTdm_tdm (d : Tdm) : (s.setTdm d).tdm = d := rfl

@[simp] theorem State.setDmc_pending (d : Dmc) : (s.setDmc d).pending = s.pending := rfl
@[simp] theorem State.setDmc_now (d : Dmc) : (s.setDmc d).now = s.now := rfl
@[simp] theorem State.setDmc_freeCount (d : Dmc) : (s.setDmc d).freeCount = s.freeCount := rfl
@[simp] theorem State.setDmc_regs (d : Dmc) : (s.setDmc d).regs = s.regs := rfl
@[simp] theorem State.setDmc_layers (d : Dmc) : (s.setDmc d).layers = s.layers := rfl
@[simp] theorem State.setDmc_reply (d : Dmc) : (s.setDmc d).reply = s.reply := rfl
@[simp] theorem State.setDmc_outbox (d : Dmc) : (s.setDmc d).outbox = s.outbox := rfl
@[simp] theorem State.setDmc_doms (d : Dmc) : (s.setDmc d).doms = s.doms := rfl
@[simp] theorem State.setDmc_locks (d : Dmc) : (s.setDmc d).locks = s.locks := rfl
@[simp] theorem State.setDmc_glb (d : Dmc) : (s.setDmc d).glb = s.glb := rfl
@[simp] theorem State.setDmc_cfg (d : Dmc) : (s.setDmc d).cfg = s.cfg := rfl
@[simp] theorem State.setDmc_flt (d : Dmc) : (s.setDmc d).flt = s.flt := rfl
@[simp] theorem State.setDmc_weir (d : Dmc) : (s.setDmc d).weir = s.weir := rfl
@[simp] theorem State.setDmc_evt (d : Dmc) : (s.setDmc d).evt = s.evt := rfl
@[simp] theorem State.setDmc_ssm (d : Dmc) : (s.setDmc d).ssm = s.ssm := rfl
@[simp] theorem State.setDmc_dram (d : Dmc) : (s.setDmc d).dram = s.dram := rfl
@[simp] theorem State.setDmc_engines (d : Dmc) : (s.setDmc d).engines = s.engines := rfl
@[simp] theorem State.setDmc_waits (d : Dmc) : (s.setDmc d).waits = s.waits := rfl
@[simp] theorem State.setDmc_substs (d : Dmc) : (s.setDmc d).substs = s.substs := rfl
@[simp] theorem State.setDmc_basin (d : Dmc) : (s.setDmc d).basin = s.basin := rfl
@[simp] theorem State.setDmc_router (d : Dmc) : (s.setDmc d).router = s.router := rfl
@[simp] theorem State.setDmc_feeds (d : Dmc) : (s.setDmc d).feeds = s.feeds := rfl
@[simp] theorem State.setDmc_frames (d : Dmc) : (s.setDmc d).frames = s.frames := rfl
@[simp] theorem State.setDmc_flc (d : Dmc) : (s.setDmc d).flc = s.flc := rfl
@[simp] theorem State.setDmc_tdm (d : Dmc) : (s.setDmc d).tdm = s.tdm := rfl
@[simp] theorem State.setDmc_amps (d : Dmc) : (s.setDmc d).amps = s.amps := rfl
@[simp] theorem State.setDmc_ampGroups (d : Dmc) : (s.setDmc d).ampGroups = s.ampGroups := rfl
@[simp] theorem State.setDmc_cands (d : Dmc) : (s.setDmc d).cands = s.cands := rfl
@[simp] theorem State.setDmc_dplls (d : Dmc) : (s.setDmc d).dplls = s.dplls := rfl
@[simp] theorem State.setDmc_pulses (d : Dmc) : (s.setDmc d).pulses = s.pulses := rfl
@[simp] theorem State.setDmc_tbs (d : Dmc) : (s.setDmc d).tbs = s.tbs := rfl
@[simp] theorem State.setDmc_txqs (d : Dmc) : (s.setDmc d).txqs = s.txqs := rfl
@[simp] theorem State.setDmc_macs (d : Dmc) : (s.setDmc d).macs = s.macs := rfl
@[simp] theorem State.setDmc_txStreams (d : Dmc) : (s.setDmc d).txStreams = s.txStreams := rfl
@[simp] theorem State.setDmc_rxStreams (d : Dmc) : (s.setDmc d).rxStreams = s.rxStreams := rfl
@[simp] theorem State.setDmc_legs (d : Dmc) : (s.setDmc d).legs = s.legs := rfl
@[simp] theorem State.setDmc_lanes (d : Dmc) : (s.setDmc d).lanes = s.lanes := rfl
@[simp] theorem State.setDmc_links (d : Dmc) : (s.setDmc d).links = s.links := rfl
@[simp] theorem State.setDmc_conceal (d : Dmc) : (s.setDmc d).conceal = s.conceal := rfl
@[simp] theorem State.setDmc_lastGood (d : Dmc) : (s.setDmc d).lastGood = s.lastGood := rfl
@[simp] theorem State.setDmc_fov (d : Dmc) : (s.setDmc d).fov = s.fov := rfl
@[simp] theorem State.setDmc_xbar (d : Dmc) : (s.setDmc d).xbar = s.xbar := rfl
@[simp] theorem State.setDmc_dma (d : Dmc) : (s.setDmc d).dma = s.dma := rfl
@[simp] theorem State.setDmc_gpios (d : Dmc) : (s.setDmc d).gpios = s.gpios := rfl
@[simp] theorem State.setDmc_svc (d : Dmc) : (s.setDmc d).svc = s.svc := rfl
@[simp] theorem State.setDmc_pcie (d : Dmc) : (s.setDmc d).pcie = s.pcie := rfl
@[simp] theorem State.setDmc_drg (d : Dmc) : (s.setDmc d).drg = s.drg := rfl
@[simp] theorem State.setDmc_tlm (d : Dmc) : (s.setDmc d).tlm = s.tlm := rfl
@[simp] theorem State.setDmc_dmc (d : Dmc) : (s.setDmc d).dmc = d := rfl

@[simp] theorem State.setRequester_pending (r : Nat) (q : Requester) : (s.setRequester r q).pending = s.pending := rfl
@[simp] theorem State.setRequester_now (r : Nat) (q : Requester) : (s.setRequester r q).now = s.now := rfl
@[simp] theorem State.setRequester_freeCount (r : Nat) (q : Requester) : (s.setRequester r q).freeCount = s.freeCount := rfl
@[simp] theorem State.setRequester_regs (r : Nat) (q : Requester) : (s.setRequester r q).regs = s.regs := rfl
@[simp] theorem State.setRequester_layers (r : Nat) (q : Requester) : (s.setRequester r q).layers = s.layers := rfl
@[simp] theorem State.setRequester_reply (r : Nat) (q : Requester) : (s.setRequester r q).reply = s.reply := rfl
@[simp] theorem State.setRequester_outbox (r : Nat) (q : Requester) : (s.setRequester r q).outbox = s.outbox := rfl
@[simp] theorem State.setRequester_doms (r : Nat) (q : Requester) : (s.setRequester r q).doms = s.doms := rfl
@[simp] theorem State.setRequester_locks (r : Nat) (q : Requester) : (s.setRequester r q).locks = s.locks := rfl
@[simp] theorem State.setRequester_glb (r : Nat) (q : Requester) : (s.setRequester r q).glb = s.glb := rfl
@[simp] theorem State.setRequester_cfg (r : Nat) (q : Requester) : (s.setRequester r q).cfg = s.cfg := rfl
@[simp] theorem State.setRequester_flt (r : Nat) (q : Requester) : (s.setRequester r q).flt = s.flt := rfl
@[simp] theorem State.setRequester_evt (r : Nat) (q : Requester) : (s.setRequester r q).evt = s.evt := rfl
@[simp] theorem State.setRequester_ssm (r : Nat) (q : Requester) : (s.setRequester r q).ssm = s.ssm := rfl
@[simp] theorem State.setRequester_dram (r : Nat) (q : Requester) : (s.setRequester r q).dram = s.dram := rfl
@[simp] theorem State.setRequester_engines (r : Nat) (q : Requester) : (s.setRequester r q).engines = s.engines := rfl
@[simp] theorem State.setRequester_waits (r : Nat) (q : Requester) : (s.setRequester r q).waits = s.waits := rfl
@[simp] theorem State.setRequester_substs (r : Nat) (q : Requester) : (s.setRequester r q).substs = s.substs := rfl
@[simp] theorem State.setRequester_basin (r : Nat) (q : Requester) : (s.setRequester r q).basin = s.basin := rfl
@[simp] theorem State.setRequester_router (r : Nat) (q : Requester) : (s.setRequester r q).router = s.router := rfl
@[simp] theorem State.setRequester_feeds (r : Nat) (q : Requester) : (s.setRequester r q).feeds = s.feeds := rfl
@[simp] theorem State.setRequester_frames (r : Nat) (q : Requester) : (s.setRequester r q).frames = s.frames := rfl
@[simp] theorem State.setRequester_flc (r : Nat) (q : Requester) : (s.setRequester r q).flc = s.flc := rfl
@[simp] theorem State.setRequester_tdm (r : Nat) (q : Requester) : (s.setRequester r q).tdm = s.tdm := rfl
@[simp] theorem State.setRequester_amps (r : Nat) (q : Requester) : (s.setRequester r q).amps = s.amps := rfl
@[simp] theorem State.setRequester_ampGroups (r : Nat) (q : Requester) : (s.setRequester r q).ampGroups = s.ampGroups := rfl
@[simp] theorem State.setRequester_cands (r : Nat) (q : Requester) : (s.setRequester r q).cands = s.cands := rfl
@[simp] theorem State.setRequester_dplls (r : Nat) (q : Requester) : (s.setRequester r q).dplls = s.dplls := rfl
@[simp] theorem State.setRequester_pulses (r : Nat) (q : Requester) : (s.setRequester r q).pulses = s.pulses := rfl
@[simp] theorem State.setRequester_tbs (r : Nat) (q : Requester) : (s.setRequester r q).tbs = s.tbs := rfl
@[simp] theorem State.setRequester_txqs (r : Nat) (q : Requester) : (s.setRequester r q).txqs = s.txqs := rfl
@[simp] theorem State.setRequester_macs (r : Nat) (q : Requester) : (s.setRequester r q).macs = s.macs := rfl
@[simp] theorem State.setRequester_txStreams (r : Nat) (q : Requester) : (s.setRequester r q).txStreams = s.txStreams := rfl
@[simp] theorem State.setRequester_rxStreams (r : Nat) (q : Requester) : (s.setRequester r q).rxStreams = s.rxStreams := rfl
@[simp] theorem State.setRequester_legs (r : Nat) (q : Requester) : (s.setRequester r q).legs = s.legs := rfl
@[simp] theorem State.setRequester_lanes (r : Nat) (q : Requester) : (s.setRequester r q).lanes = s.lanes := rfl
@[simp] theorem State.setRequester_links (r : Nat) (q : Requester) : (s.setRequester r q).links = s.links := rfl
@[simp] theorem State.setRequester_conceal (r : Nat) (q : Requester) : (s.setRequester r q).conceal = s.conceal := rfl
@[simp] theorem State.setRequester_lastGood (r : Nat) (q : Requester) : (s.setRequester r q).lastGood = s.lastGood := rfl
@[simp] theorem State.setRequester_fov (r : Nat) (q : Requester) : (s.setRequester r q).fov = s.fov := rfl
@[simp] theorem State.setRequester_dmc (r : Nat) (q : Requester) : (s.setRequester r q).dmc = s.dmc := rfl
@[simp] theorem State.setRequester_xbar (r : Nat) (q : Requester) : (s.setRequester r q).xbar = s.xbar := rfl
@[simp] theorem State.setRequester_dma (r : Nat) (q : Requester) : (s.setRequester r q).dma = s.dma := rfl
@[simp] theorem State.setRequester_gpios (r : Nat) (q : Requester) : (s.setRequester r q).gpios = s.gpios := rfl
@[simp] theorem State.setRequester_svc (r : Nat) (q : Requester) : (s.setRequester r q).svc = s.svc := rfl
@[simp] theorem State.setRequester_pcie (r : Nat) (q : Requester) : (s.setRequester r q).pcie = s.pcie := rfl
@[simp] theorem State.setRequester_drg (r : Nat) (q : Requester) : (s.setRequester r q).drg = s.drg := rfl
@[simp] theorem State.setRequester_tlm (r : Nat) (q : Requester) : (s.setRequester r q).tlm = s.tlm := rfl

end Sys2Proof.Machine
end

