-- ==== Sys2Proof/Laws/Kept.lean ====
section
/-!
SUPPORT. What every operation of the machine keeps: the relation `Kept`, and its laws for the basic updates. The files Kept<Part>.lean prove
it once for every operation and every meaning; nothing there unfolds an operation below the one it speaks of.
-/
namespace Sys2Proof.Machine

/-- What no command does: `t` after `s` has the same queue and the same cycle count, what has left the device has only grown, and
the canonical form is kept. -/
structure Kept (s t : State) : Prop where
  pending : t.pending = s.pending
  now : t.now = s.now
  outbox : s.outbox <+: t.outbox
  canon : s.canon → t.canon

/-- Every next state of an outcome is kept from `s`. -/
structure KeptRes (s : State) (r : Res) : Prop where
  of : ∀ t, r = .next t → Kept s t
/-- The state of an optional effect is kept from `s`. -/
structure KeptOpt (s : State) (o : Option State) : Prop where
  of : ∀ t, o = some t → Kept s t

variable {s₀ s t u : State}

theorem Kept.refl (s : State) : Kept s s := ⟨rfl, rfl, List.prefix_refl _, id⟩
theorem Kept.congr (h : Kept s₀ s) (hp : t.pending = s.pending) (hn : t.now = s.now) (ho : t.outbox = s.outbox) (hr : t.regs = s.regs)
    (hs : t.ssm = s.ssm) (hd : t.dram = s.dram) (hl : t.locks = s.locks) : Kept s₀ t :=
  ⟨hp.trans h.pending, hn.trans h.now, by rw [ho]; exact h.outbox, fun hc => by
    have := h.canon hc
    simpa [State.canon, State.memWf, State.locksWf, hr, hs, hd, hl] using this⟩
theorem Kept.ite {c : Prop} [Decidable c] (h : Kept s₀ s) (h' : Kept s₀ t) : Kept s₀ (if c then s else t) := by split <;> assumption
theorem KeptRes.ite {c : Prop} [Decidable c] {r q : Res} (h : KeptRes s₀ r) (h' : KeptRes s₀ q) : KeptRes s₀ (if c then r else q) := by
  split <;> assumption
theorem KeptOpt.ite {c : Prop} [Decidable c] {r q : Option State} (h : KeptOpt s₀ r) (h' : KeptOpt s₀ q) :
    KeptOpt s₀ (if c then r else q) := by split <;> assumption
theorem KeptRes.next (h : Kept s₀ s) : KeptRes s₀ (.next s) := ⟨fun _ e => by cases e; exact h⟩
theorem KeptRes.fault (f : Fault) : KeptRes s₀ (.fault f) := ⟨fun _ e => by cases e⟩
theorem KeptRes.refused (f : Refusal) : KeptRes s₀ (.refused f) := ⟨fun _ e => by cases e⟩
theorem KeptOpt.some (h : Kept s₀ s) : KeptOpt s₀ (.some s) := ⟨fun _ e => by cases e; exact h⟩
theorem KeptOpt.none : KeptOpt s₀ .none := ⟨fun _ e => by cases e⟩
theorem KeptOpt.of_eq {o : Option State} (e : o = .some s) (h : KeptOpt s₀ o) : Kept s₀ s := h.of _ e
theorem Kept.cut {P : Prop} (h : Kept s₀ t) (k : Kept s₀ t → P) : P := k h
theorem Kept.fst_of_eq {α : Type} {p : State × α} {x : α} (e : p = (t, x)) (h : Kept s₀ p.1) : Kept s₀ t := by subst e; exact h
theorem Kept.snd_of_eq {α : Type} {p : α × State} {x : α} (e : p = (x, t)) (h : Kept s₀ p.2) : Kept s₀ t := by subst e; exact h
theorem Kept.foldl {α : Type} {l : List α} {f : State → α → State} (h : Kept s₀ s) (k : ∀ t x, Kept s₀ t → Kept s₀ (f t x)) :
    Kept s₀ (l.foldl f s) := by
  induction l generalizing s with
  | nil => exact h
  | cons x l ih => exact ih (k _ _ h)
theorem Kept.getD {o : Option State} (h : Kept s₀ s) (k : KeptOpt s₀ o) : Kept s₀ (o.getD s) := by
  cases o with
  | none => exact h
  | some t => exact k.of _ rfl

theorem State.setReg_kept (a : Nat) (v : Word) (h : Kept s₀ s) : Kept s₀ (s.setReg a v) :=
  ⟨h.pending, h.now, h.outbox, fun hc => by
    have := h.canon hc
    simp only [State.canon, State.memWf, Bool.and_eq_true] at this ⊢
    exact ⟨⟨⟨Tab.wf_set _ _ this.1.1.1, this.1.1.2⟩, this.1.2⟩, this.2⟩⟩
theorem State.setDramByte_kept (o : Nat) (b : Byte) (h : Kept s₀ s) : Kept s₀ (s.setDramByte o b) :=
  ⟨h.pending, h.now, h.outbox, fun hc => by
    have := h.canon hc
    simp only [State.canon, State.memWf, Bool.and_eq_true] at this ⊢
    exact ⟨⟨this.1.1, Tab.wf_set _ _ this.1.2⟩, this.2⟩⟩
theorem State.setSsmByte_kept (o : Nat) (b : Byte) (h : Kept s₀ s) : Kept s₀ (s.setSsmByte o b) :=
  ⟨h.pending, h.now, h.outbox, fun hc => by
    have := h.canon hc
    simp only [State.canon, State.memWf, Bool.and_eq_true] at this ⊢
    exact ⟨⟨⟨this.1.1.1, Tab.wf_set _ _ this.1.1.2⟩, this.1.2⟩, this.2⟩⟩
theorem State.emit_kept (e : Emission) (h : Kept s₀ s) : Kept s₀ (s.emit e) :=
  ⟨h.pending, h.now, h.outbox.trans (List.prefix_append ..), h.canon⟩
theorem Tab.mem_set {α : Type} [DecidableEq α] {d : Nat → α} {t : List (Nat × α)} {k : Nat} {v : α} {e : Nat × α} (h : e ∈ Tab.set d t k v) :
    e = (k, v) ∨ e ∈ t := by
  unfold Tab.set at h
  split at h
  · exact .inr (Tab.mem_erase h).1
  · rcases Tab.mem_insert h with h | h
    · exact .inl h
    · exact .inr (Tab.mem_erase h).1
theorem State.setLock_kept (l : Nat) (k : Lock) (h : Kept s₀ s) (hk : s₀.canon → k.credit ≤ k.spec.depth) : Kept s₀ (s.setLock l k) :=
  ⟨h.pending, h.now, h.outbox, fun hc => by
    have h' := h.canon hc
    refine ⟨h'.1, ?_⟩
    simp only [State.locksWf, List.all_eq_true, State.setLock]
    intro e he
    rcases Tab.mem_set he with rfl | he
    · simpa [Lock.bounded] using hk hc
    · have := h'.2
      simp only [State.locksWf, List.all_eq_true] at this
      exact this e he⟩
theorem State.lock_bounded {l : Nat} {k : Lock} (hc : s₀.canon) (hk : s.lock l = some k) (h : Kept s₀ s) : k.credit ≤ k.spec.depth := by
  have h := h.canon hc
  have h := h.2
  clear hc
  unfold State.locksWf at h
  unfold State.lock at hk
  generalize s.locks = t at *
  induction t with
  | nil => simp at hk
  | cons e t ih =>
    obtain ⟨i, v⟩ := e
    simp only [Tab.get, List.all_cons, Bool.and_eq_true] at hk h
    split at hk
    · subst hk; simpa [Lock.bounded] using h.1
    · exact ih hk h.2
/-- An update of fields the relation does not speak of. -/
theorem Kept.upd
    {x0 : Nat} {x1 : Layers} {x2 : BusReply} {x3 : List (Nat × Domain)} {x4 : Glb}
    {x5 : Cfg} {x6 : Flt} {x7 : Weir} {x8 : Evt} {x9 : List (Nat × Engine)}
    {x10 : List WindowWait} {x11 : List (Nat × Subst)} {x12 : Basin} {x13 : Router} {x14 : List (Nat × Feed)}
    {x15 : List (Nat × List (Nat × Sample))} {x16 : Filters} {x17 : Tdm} {x18 : List (Nat × AmpChannel)} {x19 : List (Nat × AmpGroup)}
    {x20 : List (Nat × Cand)} {x21 : List (Nat × Dpll)} {x22 : List (Nat × Pulse)} {x23 : List (Nat × TimeBase)} {x24 : List (Nat × List TxqEntry)}
    {x25 : List (Nat × Mac)} {x26 : List (Nat × TxStream)} {x27 : List (Nat × RxStream)} {x28 : List Nat} {x29 : List (Nat × Lane)}
    {x30 : List (Nat × Nerax)} {x31 : List (Nat × Option Conceal)} {x32 : List (Nat × Option Conceal)} {x33 : Fov} {x34 : Dmc}
    {x35 : Xbar} {x36 : List (Nat × DmaChannel)} {x37 : List (Nat × Gpio)} {x38 : Svc} {x39 : Pcie}
    {x40 : Dredger} {x41 : Tlm}
    (h : Kept s₀ s) : Kept s₀ { s with
      freeCount := x0, layers := x1, reply := x2, doms := x3, glb := x4, cfg := x5
      flt := x6, weir := x7, evt := x8, engines := x9, waits := x10, substs := x11
      basin := x12, router := x13, feeds := x14, frames := x15, flc := x16, tdm := x17
      amps := x18, ampGroups := x19, cands := x20, dplls := x21, pulses := x22, tbs := x23
      txqs := x24, macs := x25, txStreams := x26, rxStreams := x27, legs := x28, lanes := x29
      links := x30, conceal := x31, lastGood := x32, fov := x33, dmc := x34, xbar := x35
      dma := x36, gpios := x37, svc := x38, pcie := x39, drg := x40, tlm := x41 } :=
  Kept.congr h rfl rfl rfl rfl rfl rfl rfl
theorem newLock_le (q : LockSpec) : (newLock q).credit ≤ (newLock q).spec.depth := Nat.le_refl _
end Sys2Proof.Machine
end

