-- ==== Sys2Proof/Laws/KeptOps.lean ====
section
/-!
SUPPORT. The relation `Kept` for the shared operations, power admission, the safe state, faults, serial audio and the bus.
-/
namespace Sys2Proof.Machine

set_option linter.unreachableTactic false
set_option linter.unusedTactic false

theorem State.wr_kept {s₀ : State} {s : State} (f : FieldAt) (v : Nat) (hK : Kept s₀ s) : Kept s₀ (State.wr s f v) := by
  unfold State.wr
  with_reducible repeat' first
    | assumption | apply State.setReg_kept

theorem State.wrS_kept {s₀ : State} {s : State} (f : FieldAt) (i : Int) (hK : Kept s₀ s) : Kept s₀ (State.wrS s f i) := by
  unfold State.wrS
  with_reducible repeat' first
    | assumption | apply State.wr_kept

theorem State.bump_kept {s₀ : State} {s : State} (f : FieldAt) (n : Nat) (hK : Kept s₀ s) : Kept s₀ (State.bump s f n) := by
  unfold State.bump
  with_reducible repeat' first
    | assumption | apply State.wr_kept

theorem State.least_kept {s₀ : State} {s : State} (f : FieldAt) (v : Nat) (hK : Kept s₀ s) : Kept s₀ (State.least s f v) := by
  unfold State.least
  with_reducible repeat' first
    | assumption | apply Kept.ite | apply State.wr_kept

theorem State.highest_kept {s₀ : State} {s : State} (f : FieldAt) (v : Nat) (hK : Kept s₀ s) : Kept s₀ (State.highest s f v) := by
  unfold State.highest
  with_reducible repeat' first
    | assumption | apply Kept.ite | apply State.wr_kept

theorem State.raise_kept {s₀ : State} {s : State} (f : FieldAt) (hK : Kept s₀ s) : Kept s₀ (State.raise s f) := by
  unfold State.raise
  with_reducible repeat' first
    | assumption | apply State.wr_kept

theorem State.setWide_kept {s₀ : State} {s : State} (lo hi v : Nat) (hK : Kept s₀ s) : Kept s₀ (State.setWide s lo hi v) := by
  unfold State.setWide
  with_reducible repeat' first
    | assumption | apply State.setReg_kept

theorem State.draw_kept {s₀ : State} {s : State} (hK : Kept s₀ s) : Kept s₀ (State.draw s).2 := by
  exact Kept.congr hK rfl rfl rfl rfl rfl rfl rfl

theorem State.answer_kept {s₀ : State} {s : State} (data : List Word) (r : Response) (hK :
    Kept s₀ s) : Kept s₀ (State.answer s data r) := by
  unfold State.answer
  with_reducible repeat' first
    | assumption | fail_if_no_progress (apply Kept.upd)

theorem State.settle_kept {s₀ : State} {s : State} (a : Nat) (mask : Word) (hK : Kept s₀ s) : Kept s₀ (State.settle s a mask) := by
  unfold State.settle
  with_reducible repeat' first
    | assumption | apply State.setReg_kept

theorem State.soften_kept {s₀ : State} {s : State} (a : Nat) (mask v : Word) (hK : Kept s₀ s) : Kept s₀ (State.soften s a mask v) := by
  unfold State.soften
  repeat' first
    | (extract_lets +onlyGivenNames x; refine Kept.cut (t := x) ?_ fun _ => ?_; on_goal 1 => subst x; on_goal 2 => clear_value x)
    | (extract_lets +onlyGivenNames x; subst x)
    | (with_reducible first
        | assumption | intro _ | fail_if_no_progress (apply Kept.upd))

theorem State.setShWaits_kept {s₀ : State} {s : State} (a : Nat) (on : Bool) (hK : Kept s₀ s) : Kept s₀ (State.setShWaits s a on) := by
  unfold State.setShWaits
  with_reducible repeat' first
    | assumption | intro _ | apply Kept.ite | fail_if_no_progress (apply Kept.upd)

theorem State.shTake_kept {s₀ : State} {s : State} (a : Nat) (hK : Kept s₀ s) : Kept s₀ (State.shTake s a) := by
  unfold State.shTake
  with_reducible repeat' first
    | assumption | apply Kept.ite | apply State.setShWaits_kept | apply State.settle_kept

theorem State.hw_kept {s₀ : State} {s : State} (f : FieldAt) (v : Nat) (hK : Kept s₀ s) : Kept s₀ (State.hw s f v) := by
  unfold State.hw
  with_reducible repeat' first
    | assumption | apply State.soften_kept | apply State.wr_kept

theorem State.sw_kept {s₀ : State} {s : State} (f : FieldAt) (v : Nat) (hK : Kept s₀ s) : Kept s₀ (State.sw s f v) := by
  unfold State.sw
  repeat' first
    | (extract_lets +onlyGivenNames x; refine Kept.cut (t := x) ?_ fun _ => ?_; on_goal 1 => subst x; on_goal 2 => clear_value x)
    | (extract_lets +onlyGivenNames x; subst x)
    | (with_reducible first
        | assumption | apply State.settle_kept | apply State.soften_kept)

theorem State.setSnap_kept {s₀ : State} {s : State} (a : Nat) (w : Option Word) (hK : Kept s₀ s) : Kept s₀ (State.setSnap s a w) := by
  unfold State.setSnap
  with_reducible repeat' first
    | assumption | intro _ | fail_if_no_progress (apply Kept.upd)

theorem State.setHeldLow_kept {s₀ : State} {s : State} (a : Nat) (w : Option Word) (hK : Kept s₀ s) : Kept s₀ (State.setHeldLow s a w) := by
  unfold State.setHeldLow
  with_reducible repeat' first
    | assumption | intro _ | fail_if_no_progress (apply Kept.upd)

theorem State.hwMode_kept {s₀ : State} {s : State} (m : Nat) (on : Bool) (hK : Kept s₀ s) : Kept s₀ (State.hwMode s m on) := by
  unfold State.hwMode
  repeat' first
    | (extract_lets +onlyGivenNames x; refine Kept.cut (t := x) ?_ fun _ => ?_; on_goal 1 => subst x; on_goal 2 => clear_value x)
    | (extract_lets +onlyGivenNames x; subst x)
    | (with_reducible first
        | assumption | apply Kept.ite | apply State.raise_kept | apply State.wr_kept)

theorem State.setDramBytes_kept {s₀ : State} {s : State} (o : Nat) (y0 : List Byte) (hK :
    Kept s₀ s) : Kept s₀ (State.setDramBytes s o y0) := by
  induction y0 generalizing s o with
  | nil => exact hK
  | cons b t ih => exact ih _ (State.setDramByte_kept o b hK)

theorem State.setSsmBytes_kept {s₀ : State} {s : State} (o : Nat) (y0 : List Byte) (hK :
    Kept s₀ s) : Kept s₀ (State.setSsmBytes s o y0) := by
  induction y0 generalizing s o with
  | nil => exact hK
  | cons b t ih => exact ih _ (State.setSsmByte_kept o b hK)

theorem State.setDom_kept {s₀ : State} {s : State} (x : Nat) (d : Domain) (hK : Kept s₀ s) : Kept s₀ (State.setDom s x d) := by
  unfold State.setDom
  with_reducible repeat' first
    | assumption | intro _ | fail_if_no_progress (apply Kept.upd)

theorem State.commit_kept {s₀ : State} {s : State} (l : Nat) (b : Barge) (hK : Kept s₀ s) : Kept s₀ (State.commit s l b) := by
  unfold State.commit
  repeat' first
    | (with_reducible first
        | assumption | intro _ | apply Kept.ite | apply State.setLock_kept)
    | (with_reducible first
         | exact Nat.min_le_left _ _
         | exact Nat.le_refl _
         | refine State.lock_bounded (by assumption) (by assumption) ?_
         | refine (Nat.sub_le _ _).trans (State.lock_bounded (by assumption) (by assumption) ?_))
    | (with_reducible show (_ : Nat) ≤ _; dsimp only)
    | split

theorem State.giveCredit_kept {s₀ : State} {s : State} (l : Nat) (hK : Kept s₀ s) : Kept s₀ (State.giveCredit s l) := by
  unfold State.giveCredit
  repeat' first
    | (with_reducible first
        | assumption | intro _ | apply State.setLock_kept)
    | (with_reducible first
         | exact Nat.min_le_left _ _
         | exact Nat.le_refl _
         | refine State.lock_bounded (by assumption) (by assumption) ?_
         | refine (Nat.sub_le _ _).trans (State.lock_bounded (by assumption) (by assumption) ?_))
    | (with_reducible show (_ : Nat) ≤ _; dsimp only)
    | split

theorem State.consume_kept {s₀ : State} {s : State} (l t : Nat) (hK : Kept s₀ s) : Kept s₀ (State.consume s l t) := by
  unfold State.consume
  repeat' first
    | (with_reducible first
        | assumption | intro _ | apply Kept.ite | apply State.setLock_kept)
    | (with_reducible first
         | exact Nat.min_le_left _ _
         | exact Nat.le_refl _
         | refine State.lock_bounded (by assumption) (by assumption) ?_
         | refine (Nat.sub_le _ _).trans (State.lock_bounded (by assumption) (by assumption) ?_))
    | (with_reducible show (_ : Nat) ≤ _; dsimp only)
    | split

theorem State.clearLock_kept {s₀ : State} {s : State} (l : Nat) (hK : Kept s₀ s) : Kept s₀ (State.clearLock s l) := by
  unfold State.clearLock
  repeat' first
    | (with_reducible first
        | assumption | intro _ | apply State.setLock_kept)
    | (with_reducible first
         | exact Nat.min_le_left _ _
         | exact Nat.le_refl _
         | refine State.lock_bounded (by assumption) (by assumption) ?_
         | refine (Nat.sub_le _ _).trans (State.lock_bounded (by assumption) (by assumption) ?_))
    | (with_reducible show (_ : Nat) ≤ _; dsimp only)
    | split

theorem State.setTb_kept {s₀ : State} {s : State} (n : Nat) (t : TimeBase) (hK : Kept s₀ s) : Kept s₀ (State.setTb s n t) := by
  unfold State.setTb
  with_reducible repeat' first
    | assumption | intro _ | fail_if_no_progress (apply Kept.upd)

theorem State.setRequester_kept {s₀ : State} {s : State} (r : Nat) (q : Requester) (hK :
    Kept s₀ s) : Kept s₀ (State.setRequester s r q) := by
  unfold State.setRequester
  with_reducible repeat' first
    | assumption | intro _ | fail_if_no_progress (apply Kept.upd)

theorem State.setModeLeave_kept {s₀ : State} {s : State} (m n : Nat) (hK : Kept s₀ s) : Kept s₀ (State.setModeLeave s m n) := by
  unfold State.setModeLeave
  with_reducible repeat' first
    | assumption | intro _ | fail_if_no_progress (apply Kept.upd)

theorem State.weirWithdraw_kept {s₀ : State} {s : State} (r : Nat) (hK : Kept s₀ s) : Kept s₀ (State.weirWithdraw s r) := by
  unfold State.weirWithdraw
  with_reducible repeat' first
    | assumption | apply State.setRequester_kept

theorem State.weirReturn_kept {s₀ : State} {s : State} (r : Nat) (hK : Kept s₀ s) : Kept s₀ (State.weirReturn s r) := by
  unfold State.weirReturn
  with_reducible repeat' first
    | assumption | apply State.setRequester_kept

theorem State.weirDrop_kept {s₀ : State} {s : State} (r : Nat) (hK : Kept s₀ s) : Kept s₀ (State.weirDrop s r) := by
  unfold State.weirDrop
  with_reducible repeat' first
    | assumption | apply State.weirReturn_kept | apply State.weirWithdraw_kept

theorem State.weirRequest_kept {s₀ : State} {s : State} (r cost : Nat) (hK : Kept s₀ s) : Kept s₀ (State.weirRequest s r cost) := by
  unfold State.weirRequest
  repeat' first
    | (extract_lets +onlyGivenNames x; refine Kept.cut (t := x) ?_ fun _ => ?_; on_goal 1 => subst x; on_goal 2 => clear_value x)
    | (extract_lets +onlyGivenNames x; subst x)
    | (with_reducible first
        | assumption | apply Kept.ite | apply State.raise_kept | apply State.setRequester_kept)

theorem State.weirTake_kept {s₀ : State} {s : State} (r : Nat) (hK : Kept s₀ s) : Kept s₀ (State.weirTake s r) := by
  unfold State.weirTake
  repeat' first
    | (extract_lets +onlyGivenNames x; refine Kept.cut (t := x) ?_ fun _ => ?_; on_goal 1 => subst x; on_goal 2 => clear_value x)
    | (extract_lets +onlyGivenNames x; subst x)
    | (with_reducible first
        | assumption | apply State.raise_kept | apply State.setRequester_kept)

theorem State.endCause_kept {s₀ : State} {s : State} (source code : Nat) (hK : Kept s₀ s) : Kept s₀ (State.endCause s source code) := by
  unfold State.endCause
  with_reducible repeat' first
    | assumption | intro _ | apply Kept.ite | fail_if_no_progress (apply Kept.upd)

theorem State.setTdm_kept {s₀ : State} {s : State} (t : Tdm) (hK : Kept s₀ s) : Kept s₀ (State.setTdm s t) := by
  unfold State.setTdm
  with_reducible repeat' first
    | assumption | fail_if_no_progress (apply Kept.upd)

theorem State.setGrp_kept {s₀ : State} {s : State} (g : Nat) (r : TdmGroup) (hK : Kept s₀ s) : Kept s₀ (State.setGrp s g r) := by
  unfold State.setGrp
  repeat' first
    | (extract_lets +onlyGivenNames x; refine Kept.cut (t := x) ?_ fun _ => ?_; on_goal 1 => subst x; on_goal 2 => clear_value x)
    | (extract_lets +onlyGivenNames x; subst x)
    | (with_reducible first
        | assumption | intro _ | apply Kept.ite | apply State.setTdm_kept | apply State.wr_kept)

theorem State.tdmSafe_kept {s₀ : State} {s : State} (g : Nat) (on : Bool) (hK : Kept s₀ s) : Kept s₀ (State.tdmSafe s g on) := by
  unfold State.tdmSafe
  repeat' first
    | (extract_lets +onlyGivenNames x; refine Kept.cut (t := x) ?_ fun _ => ?_; on_goal 1 => subst x; on_goal 2 => clear_value x)
    | (extract_lets +onlyGivenNames x; subst x)
    | (with_reducible first
        | assumption | apply Kept.ite | apply State.setGrp_kept)

theorem State.setAmp_kept {s₀ : State} {s : State} (c : Nat) (a : AmpChannel) (hK : Kept s₀ s) : Kept s₀ (State.setAmp s c a) := by
  unfold State.setAmp
  with_reducible repeat' first
    | assumption | intro _ | fail_if_no_progress (apply Kept.upd)

theorem State.setAmpGroup_kept {s₀ : State} {s : State} (a : Nat) (g : AmpGroup) (hK : Kept s₀ s) : Kept s₀ (State.setAmpGroup s a g) := by
  unfold State.setAmpGroup
  with_reducible repeat' first
    | assumption | intro _ | fail_if_no_progress (apply Kept.upd)

theorem State.ampEnter_kept {s₀ : State} {s : State} (c k : Nat) (hK : Kept s₀ s) : Kept s₀ (State.ampEnter s c k) := by
  unfold State.ampEnter
  with_reducible repeat' first
    | assumption | intro _ | apply State.wr_kept | apply Kept.foldl

theorem State.ampRelease_kept {s₀ : State} {s : State} (a : Nat) (hK : Kept s₀ s) : Kept s₀ (State.ampRelease s a) := by
  unfold State.ampRelease
  repeat' first
    | (extract_lets +onlyGivenNames x; refine Kept.cut (t := x) ?_ fun _ => ?_; on_goal 1 => subst x; on_goal 2 => clear_value x)
    | (extract_lets +onlyGivenNames x; subst x)
    | (with_reducible first
        | assumption | intro _ | apply Kept.ite | apply State.weirReturn_kept | apply State.wr_kept)

theorem State.ampOff_kept {s₀ : State} {s : State} (c : Nat) (hK : Kept s₀ s) : Kept s₀ (State.ampOff s c) := by
  unfold State.ampOff
  with_reducible repeat' first
    | assumption | apply Kept.ite | apply State.ampEnter_kept

theorem State.ampCauseEnds_kept {s₀ : State} {s : State} (c : Nat) (hK : Kept s₀ s) : Kept s₀ (State.ampCauseEnds s c) := by
  unfold State.ampCauseEnds
  with_reducible repeat' first
    | assumption | apply State.endCause_kept

theorem State.ampSafe_kept {s₀ : State} {s : State} (a : Nat) (mute hard : Bool) (hK :
    Kept s₀ s) : Kept s₀ (State.ampSafe s a mute hard) := by
  unfold State.ampSafe
  repeat' first
    | (extract_lets +onlyGivenNames x; refine Kept.cut (t := x) ?_ fun _ => ?_; on_goal 1 => subst x; on_goal 2 => clear_value x)
    | (extract_lets +onlyGivenNames x; subst x)
    | (with_reducible first
        | assumption | intro _ | apply Kept.ite | apply State.ampCauseEnds_kept | apply State.ampEnter_kept | apply State.ampRelease_kept
        | apply State.setAmp_kept | apply State.wr_kept | apply Kept.foldl)

theorem State.ampUnsafe_kept {s₀ : State} {s : State} (a : Nat) (mute hard : Bool) (hK :
    Kept s₀ s) : Kept s₀ (State.ampUnsafe s a mute hard) := by
  unfold State.ampUnsafe
  repeat' first
    | (extract_lets +onlyGivenNames x; refine Kept.cut (t := x) ?_ fun _ => ?_; on_goal 1 => subst x; on_goal 2 => clear_value x)
    | (extract_lets +onlyGivenNames x; subst x)
    | (with_reducible first
        | assumption | intro _ | apply Kept.ite | apply State.ampEnter_kept | apply State.ampOff_kept | apply State.raise_kept
        | apply State.setAmp_kept | apply State.wr_kept | apply Kept.foldl)
    | split

theorem State.judgeFence_kept {s₀ : State} {s : State} (hK : Kept s₀ s) : Kept s₀ (State.judgeFence s) := by
  unfold State.judgeFence
  repeat' first
    | (extract_lets +onlyGivenNames x; refine Kept.cut (t := x) ?_ fun _ => ?_; on_goal 1 => subst x; on_goal 2 => clear_value x)
    | (extract_lets +onlyGivenNames x; subst x)
    | (with_reducible first
        | assumption | intro _ | apply Kept.ite | apply State.emit_kept | apply State.wr_kept | fail_if_no_progress (apply Kept.upd))

theorem State.setLane_kept {s₀ : State} {s : State} (n : Nat) (l : Lane) (hK : Kept s₀ s) : Kept s₀ (State.setLane s n l) := by
  unfold State.setLane
  with_reducible repeat' first
    | assumption | intro _ | fail_if_no_progress (apply Kept.upd)

theorem State.scanAbort_kept {s₀ : State} {s : State} (n : Nat) (hK : Kept s₀ s) : Kept s₀ (State.scanAbort s n) := by
  unfold State.scanAbort
  with_reducible repeat' first
    | assumption | apply Kept.ite | apply State.raise_kept | apply State.setReg_kept

theorem State.readaptDrop_kept {s₀ : State} {s : State} (n : Nat) (hK : Kept s₀ s) : Kept s₀ (State.readaptDrop s n) := by
  unfold State.readaptDrop
  with_reducible repeat' first
    | assumption | apply State.weirDrop_kept | apply State.wr_kept

theorem State.laneBelow_kept {s₀ : State} {s : State} (n v : Nat) (hK : Kept s₀ s) : Kept s₀ (State.laneBelow s n v) := by
  unfold State.laneBelow
  repeat' first
    | (extract_lets +onlyGivenNames x; refine Kept.cut (t := x) ?_ fun _ => ?_; on_goal 1 => subst x; on_goal 2 => clear_value x)
    | (extract_lets +onlyGivenNames x; subst x)
    | (with_reducible first
        | assumption | apply Kept.ite | apply State.readaptDrop_kept | apply State.scanAbort_kept | apply State.setLane_kept
        | apply State.setReg_kept | apply State.wr_kept)

theorem State.stopNetTests_kept {s₀ : State} {s : State} (hK : Kept s₀ s) : Kept s₀ (State.stopNetTests s) := by
  unfold State.stopNetTests
  repeat' first
    | (extract_lets +onlyGivenNames x; refine Kept.cut (t := x) ?_ fun _ => ?_; on_goal 1 => subst x; on_goal 2 => clear_value x)
    | (extract_lets +onlyGivenNames x; subst x)
    | (with_reducible first
        | assumption | intro _ | apply Kept.ite | apply State.hw_kept | apply State.laneBelow_kept | apply State.raise_kept
        | apply State.setLane_kept | apply State.wr_kept | apply Kept.foldl)

theorem State.applySafe_kept {s₀ : State} {s : State} (hK : Kept s₀ s) : Kept s₀ (State.applySafe s) := by
  unfold State.applySafe
  repeat' first
    | (extract_lets +onlyGivenNames x; refine Kept.cut (t := x) ?_ fun _ => ?_; on_goal 1 => subst x; on_goal 2 => clear_value x)
    | (extract_lets +onlyGivenNames x; subst x)
    | (with_reducible first
        | assumption | intro _ | apply Kept.ite | apply State.ampSafe_kept | apply State.ampUnsafe_kept | apply State.emit_kept
        | apply State.judgeFence_kept | apply State.setGrp_kept | apply State.stopNetTests_kept | apply State.tdmSafe_kept
        | apply State.wr_kept | apply Kept.foldl)

theorem State.assertErr_kept {s₀ : State} {s : State} (l : Nat) (hK : Kept s₀ s) : Kept s₀ (State.assertErr s l) := by
  unfold State.assertErr
  repeat' first
    | (extract_lets +onlyGivenNames x; refine Kept.cut (t := x) ?_ fun _ => ?_; on_goal 1 => subst x; on_goal 2 => clear_value x)
    | (extract_lets +onlyGivenNames x; subst x)
    | (with_reducible first
        | assumption | apply Kept.ite | apply State.emit_kept | apply State.hw_kept | apply State.wr_kept
        | fail_if_no_progress (apply Kept.upd))

theorem State.react_kept {s₀ : State} {s : State} (source l : Nat) (hK : Kept s₀ s) : Kept s₀ (State.react s source l) := by
  unfold State.react
  repeat' first
    | (extract_lets +onlyGivenNames x; refine Kept.cut (t := x) ?_ fun _ => ?_; on_goal 1 => subst x; on_goal 2 => clear_value x)
    | (extract_lets +onlyGivenNames x; subst x)
    | (with_reducible first
        | assumption | apply Kept.ite | apply State.applySafe_kept | apply State.hwMode_kept | apply State.wr_kept
        | fail_if_no_progress (apply Kept.upd))

theorem State.logRecord_kept {s₀ : State} {s : State} (r : FaultRecord) (hK : Kept s₀ s) : Kept s₀ (State.logRecord s r) := by
  unfold State.logRecord
  repeat' first
    | (extract_lets +onlyGivenNames x; refine Kept.cut (t := x) ?_ fun _ => ?_; on_goal 1 => subst x; on_goal 2 => clear_value x)
    | (extract_lets +onlyGivenNames x; subst x)
    | (with_reducible first
        | assumption | apply Kept.ite | apply State.bump_kept | apply State.raise_kept | fail_if_no_progress (apply Kept.upd))

theorem State.reportAs_kept {s₀ : State} {s : State} (source code level : Nat) (injected : Bool) (hK :
    Kept s₀ s) : Kept s₀ (State.reportAs s source code level injected) := by
  unfold State.reportAs
  repeat' first
    | (extract_lets +onlyGivenNames x; refine Kept.cut (t := x) ?_ fun _ => ?_; on_goal 1 => subst x; on_goal 2 => clear_value x)
    | (extract_lets +onlyGivenNames x; subst x)
    | (with_reducible first
        | assumption | apply Kept.ite | apply State.assertErr_kept | apply State.bump_kept | apply State.logRecord_kept
        | apply State.raise_kept | apply State.react_kept | fail_if_no_progress (apply Kept.upd))
    | split

theorem State.report_kept {s₀ : State} {s : State} (source code level : Nat) (hK :
    Kept s₀ s) : Kept s₀ (State.report s source code level) := by
  unfold State.report
  with_reducible repeat' first
    | assumption | apply State.reportAs_kept

theorem State.pruneRecords_kept {s₀ : State} {s : State} (hK : Kept s₀ s) : Kept s₀ (State.pruneRecords s) := by
  unfold State.pruneRecords
  with_reducible repeat' first
    | assumption | intro _ | fail_if_no_progress (apply Kept.upd)

theorem State.overrun_kept {s₀ : State} {s : State} (e : Endpoint) (out : Bool) (hK : Kept s₀ s) : Kept s₀ (State.overrun s e out) := by
  unfold State.overrun
  repeat' first
    | (extract_lets +onlyGivenNames x; refine Kept.cut (t := x) ?_ fun _ => ?_; on_goal 1 => subst x; on_goal 2 => clear_value x)
    | (extract_lets +onlyGivenNames x; subst x)
    | (with_reducible first
        | assumption | apply Kept.ite | apply State.bump_kept | apply State.capture_kept | apply State.egress_kept
        | apply State.raise_kept | apply State.report_kept)
    | split

theorem State.tdmEvent_kept {s₀ : State} {s : State} (g k : Nat) (hK : Kept s₀ s) : Kept s₀ (State.tdmEvent s g k) := by
  unfold State.tdmEvent
  with_reducible repeat' first
    | assumption | apply State.raise_kept

theorem State.tdmFault_kept {s₀ : State} {s : State} (g k level : Nat) (hK : Kept s₀ s) : Kept s₀ (State.tdmFault s g k level) := by
  unfold State.tdmFault
  with_reducible repeat' first
    | assumption | apply State.report_kept | apply State.tdmEvent_kept

theorem State.setInFade_kept {s₀ : State} {s : State} (ch : Nat) (f : List Fade) (hK : Kept s₀ s) : Kept s₀ (State.setInFade s ch f) := by
  unfold State.setInFade
  with_reducible repeat' first
    | assumption | intro _ | apply State.setTdm_kept

theorem State.setOutFade_kept {s₀ : State} {s : State} (ch : Nat) (f : List Fade) (hK : Kept s₀ s) : Kept s₀ (State.setOutFade s ch f) := by
  unfold State.setOutFade
  with_reducible repeat' first
    | assumption | intro _ | apply State.setTdm_kept

theorem State.inmaskTakes_kept {s₀ : State} {s : State} (p : Nat) (hK : Kept s₀ s) : Kept s₀ (State.inmaskTakes s p) := by
  unfold State.inmaskTakes
  repeat' first
    | (extract_lets +onlyGivenNames x; refine Kept.cut (t := x) ?_ fun _ => ?_; on_goal 1 => subst x; on_goal 2 => clear_value x)
    | (extract_lets +onlyGivenNames x; subst x)
    | (with_reducible first
        | assumption | intro _ | apply Kept.ite | apply State.setInFade_kept | apply State.setTdm_kept | apply State.shTake_kept
        | apply Kept.foldl)

theorem execInmaskChange_kept {s₀ : State} (p : Fin 16) {s : State} (hK : Kept s₀ s) : KeptRes s₀ (execInmaskChange p s) := by
  unfold execInmaskChange
  with_reducible repeat' first
    | assumption | apply KeptRes.next | apply State.inmaskTakes_kept

theorem State.formLine_kept {s₀ : State} {s : State} (chs : List Nat) (hK : Kept s₀ s) : Kept s₀ (State.formLine s chs) := by
  unfold State.formLine
  repeat' first
    | (extract_lets +onlyGivenNames x; refine Kept.cut (t := x) ?_ fun _ => ?_; on_goal 1 => subst x; on_goal 2 => clear_value x)
    | (extract_lets +onlyGivenNames x; subst x)
    | (with_reducible first
        | assumption | intro _ | apply Kept.ite | apply State.setTdm_kept | apply Kept.foldl)

theorem State.outmaskTakes_kept {s₀ : State} {s : State} (p : Nat) (hK : Kept s₀ s) : Kept s₀ (State.outmaskTakes s p) := by
  unfold State.outmaskTakes
  repeat' first
    | (extract_lets +onlyGivenNames x; refine Kept.cut (t := x) ?_ fun _ => ?_; on_goal 1 => subst x; on_goal 2 => clear_value x)
    | (extract_lets +onlyGivenNames x; subst x)
    | (with_reducible first
        | assumption | intro _ | apply Kept.ite | apply State.formLine_kept | apply State.setOutFade_kept | apply State.shTake_kept
        | apply Kept.foldl)

theorem execOutmaskChange_kept {s₀ : State} (p : Fin 16) {s : State} (hK : Kept s₀ s) : KeptRes s₀ (execOutmaskChange p s) := by
  unfold execOutmaskChange
  with_reducible repeat' first
    | assumption | apply KeptRes.next | apply State.outmaskTakes_kept

theorem State.tdmCtrlTakes_kept {s₀ : State} {s : State} (p : Nat) (hK : Kept s₀ s) : Kept s₀ (State.tdmCtrlTakes s p) := by
  unfold State.tdmCtrlTakes
  repeat' first
    | (extract_lets +onlyGivenNames x; refine Kept.cut (t := x) ?_ fun _ => ?_; on_goal 1 => subst x; on_goal 2 => clear_value x)
    | (extract_lets +onlyGivenNames x; subst x)
    | (with_reducible first
        | assumption | intro _ | apply Kept.ite | apply State.formLine_kept | apply State.setOutFade_kept | apply State.shTake_kept
        | apply Kept.foldl)

theorem State.slotsFollow_kept {s₀ : State} {s : State} (g : Nat) (hK : Kept s₀ s) : Kept s₀ (State.slotsFollow s g) := by
  unfold State.slotsFollow
  with_reducible repeat' first
    | assumption | intro _ | apply Kept.ite | apply State.setInFade_kept | apply State.setOutFade_kept | apply Kept.foldl

theorem State.applyFormat_kept {s₀ : State} {s : State} (g : Nat) (hK : Kept s₀ s) : Kept s₀ (State.applyFormat s g) := by
  unfold State.applyFormat
  repeat' first
    | (extract_lets +onlyGivenNames x; refine Kept.cut (t := x) ?_ fun _ => ?_; on_goal 1 => subst x; on_goal 2 => clear_value x)
    | (extract_lets +onlyGivenNames x; subst x)
    | (with_reducible first
        | assumption | apply Kept.ite | apply State.setGrp_kept | apply State.tdmEvent_kept | apply State.wr_kept | apply step_kept)

theorem execFormatApply_kept {s₀ : State} (g : Fin 4) {s : State} (hK : Kept s₀ s) : KeptRes s₀ (execFormatApply g s) := by
  unfold execFormatApply
  with_reducible repeat' first
    | assumption | apply KeptRes.next | apply State.applyFormat_kept

theorem execFormatChangeFadeOut_kept {s₀ : State} (g : Fin 4) {s : State} (hK : Kept s₀ s) : KeptRes s₀ (execFormatChangeFadeOut g s) := by
  unfold execFormatChangeFadeOut
  repeat' first
    | (extract_lets +onlyGivenNames x; refine Kept.cut (t := x) ?_ fun _ => ?_; on_goal 1 => subst x; on_goal 2 => clear_value x)
    | (extract_lets +onlyGivenNames x; subst x)
    | (with_reducible first
        | assumption | apply Kept.ite | apply KeptRes.next | apply KeptRes.ite | apply State.formLine_kept | apply State.setGrp_kept
        | apply step_kept)

theorem execFormatChangeTake_kept {s₀ : State} (g : Fin 4) {s : State} (hK : Kept s₀ s) : KeptRes s₀ (execFormatChangeTake g s) := by
  unfold execFormatChangeTake
  repeat' first
    | (extract_lets +onlyGivenNames x; refine Kept.cut (t := x) ?_ fun _ => ?_; on_goal 1 => subst x; on_goal 2 => clear_value x)
    | (extract_lets +onlyGivenNames x; subst x)
    | (with_reducible first
        | assumption | apply Kept.ite | apply KeptRes.next | apply KeptRes.ite | apply State.formLine_kept | apply State.setGrp_kept
        | apply State.slotsFollow_kept | apply step_kept)
    | split

theorem execFormatChangeDone_kept {s₀ : State} (g : Fin 4) {s : State} (hK : Kept s₀ s) : KeptRes s₀ (execFormatChangeDone g s) := by
  unfold execFormatChangeDone
  repeat' first
    | (extract_lets +onlyGivenNames x; refine Kept.cut (t := x) ?_ fun _ => ?_; on_goal 1 => subst x; on_goal 2 => clear_value x)
    | (extract_lets +onlyGivenNames x; subst x)
    | (with_reducible first
        | assumption | apply Kept.ite | apply KeptRes.next | apply KeptRes.ite | apply State.setGrp_kept | apply State.tdmEvent_kept
        | apply State.wr_kept | apply step_kept)
    | split

theorem State.tdmUnlock_kept {s₀ : State} {s : State} (g : Nat) (hK : Kept s₀ s) : Kept s₀ (State.tdmUnlock s g) := by
  unfold State.tdmUnlock
  repeat' first
    | (extract_lets +onlyGivenNames x; refine Kept.cut (t := x) ?_ fun _ => ?_; on_goal 1 => subst x; on_goal 2 => clear_value x)
    | (extract_lets +onlyGivenNames x; subst x)
    | (with_reducible first
        | assumption | apply Kept.ite | apply State.bump_kept | apply State.setGrp_kept | apply State.tdmFault_kept)

theorem State.frameError_kept {s₀ : State} {s : State} (g : Nat) (hK : Kept s₀ s) : Kept s₀ (State.frameError s g) := by
  unfold State.frameError
  with_reducible repeat' first
    | assumption | apply State.bump_kept | apply State.tdmFault_kept

theorem State.judgeFrame_kept {s₀ : State} {s : State} (g : Nat) (delta : Int) (bits period : Nat) (hK :
    Kept s₀ s) : Kept s₀ (State.judgeFrame s g delta bits period) := by
  unfold State.judgeFrame
  repeat' first
    | (extract_lets +onlyGivenNames x; refine Kept.cut (t := x) ?_ fun _ => ?_; on_goal 1 => subst x; on_goal 2 => clear_value x)
    | (extract_lets +onlyGivenNames x; subst x)
    | (with_reducible first
        | assumption | apply Kept.ite | apply State.frameError_kept | apply State.highest_kept | apply State.setGrp_kept
        | apply State.tdmEvent_kept | apply State.tdmFault_kept | apply State.tdmUnlock_kept)

theorem execSlaveFrameStart_kept {s₀ : State} (g : Fin 4) (delta : BitVec 9) (bits period : Nat) {s : State} (hK :
    Kept s₀ s) : KeptRes s₀ (execSlaveFrameStart g delta bits period s) := by
  unfold execSlaveFrameStart
  repeat' first
    | (extract_lets +onlyGivenNames x; refine Kept.cut (t := x) ?_ fun _ => ?_; on_goal 1 => subst x; on_goal 2 => clear_value x)
    | (extract_lets +onlyGivenNames x; subst x)
    | (with_reducible first
        | assumption | intro _ | apply Kept.ite | apply KeptRes.next | apply KeptRes.ite | apply State.judgeFrame_kept
        | apply State.setGrp_kept | apply State.setReg_kept | apply State.wr_kept)

theorem execBclkStopped_kept {s₀ : State} (g : Fin 4) (bits : Nat) {s : State} (hK :
    Kept s₀ s) : KeptRes s₀ (execBclkStopped g bits s) := by
  unfold execBclkStopped
  repeat' first
    | (extract_lets +onlyGivenNames x; refine Kept.cut (t := x) ?_ fun _ => ?_; on_goal 1 => subst x; on_goal 2 => clear_value x)
    | (extract_lets +onlyGivenNames x; subst x)
    | (with_reducible first
        | assumption | apply Kept.ite | apply KeptRes.next | apply KeptRes.ite | apply State.bump_kept | apply State.setGrp_kept
        | apply State.tdmEvent_kept | apply State.tdmUnlock_kept | apply State.wr_kept)

theorem execFsLost_kept {s₀ : State} (g : Fin 4) {s : State} (hK : Kept s₀ s) : KeptRes s₀ (execFsLost g s) := by
  unfold execFsLost
  repeat' first
    | (extract_lets +onlyGivenNames x; refine Kept.cut (t := x) ?_ fun _ => ?_; on_goal 1 => subst x; on_goal 2 => clear_value x)
    | (extract_lets +onlyGivenNames x; subst x)
    | (with_reducible first
        | assumption | apply Kept.ite | apply KeptRes.next | apply KeptRes.ite | apply State.setGrp_kept | apply State.tdmEvent_kept
        | apply State.tdmUnlock_kept | apply State.wr_kept)

theorem execSlaveLock_kept {s₀ : State} (g : Fin 4) {s : State} (hK : Kept s₀ s) : KeptRes s₀ (execSlaveLock g s) := by
  unfold execSlaveLock
  repeat' first
    | (extract_lets +onlyGivenNames x; refine Kept.cut (t := x) ?_ fun _ => ?_; on_goal 1 => subst x; on_goal 2 => clear_value x)
    | (extract_lets +onlyGivenNames x; subst x)
    | (with_reducible first
        | assumption | apply Kept.ite | apply KeptRes.next | apply KeptRes.ite | apply State.endCause_kept | apply State.setGrp_kept
        | apply State.tdmEvent_kept)

theorem execRateGateEnd_kept {s₀ : State} (g : Fin 4) (rate : BitVec 24) {s : State} (hK :
    Kept s₀ s) : KeptRes s₀ (execRateGateEnd g rate s) := by
  unfold execRateGateEnd
  repeat' first
    | (extract_lets +onlyGivenNames x; refine Kept.cut (t := x) ?_ fun _ => ?_; on_goal 1 => subst x; on_goal 2 => clear_value x)
    | (extract_lets +onlyGivenNames x; subst x)
    | (with_reducible first
        | assumption | apply Kept.ite | apply KeptRes.next | apply KeptRes.ite | apply State.setGrp_kept | apply State.setReg_kept
        | apply State.tdmEvent_kept)

theorem State.tdmBegins_kept {s₀ : State} {s : State} (g : Nat) (hK : Kept s₀ s) : Kept s₀ (State.tdmBegins s g) := by
  unfold State.tdmBegins
  repeat' first
    | (extract_lets +onlyGivenNames x; refine Kept.cut (t := x) ?_ fun _ => ?_; on_goal 1 => subst x; on_goal 2 => clear_value x)
    | (extract_lets +onlyGivenNames x; subst x)
    | (with_reducible first
        | assumption | intro _ | apply Kept.ite | apply State.setGrp_kept | apply State.setOutFade_kept | apply step_kept
        | apply Kept.foldl)

theorem State.tdmPass_kept {s₀ : State} {s : State} (g n : Nat) (hK : Kept s₀ s) : Kept s₀ (State.tdmPass s g n) := by
  unfold State.tdmPass
  repeat' first
    | (extract_lets +onlyGivenNames x; refine Kept.cut (t := x) ?_ fun _ => ?_; on_goal 1 => subst x; on_goal 2 => clear_value x)
    | (extract_lets +onlyGivenNames x; subst x)
    | (with_reducible first
        | assumption | intro _ | apply Kept.ite | apply State.setGrp_kept | apply State.setInFade_kept | apply step_kept
        | apply Kept.foldl)

theorem State.tdmRenumber_kept {s₀ : State} {s : State} (x : Nat) (d : Int) (hK : Kept s₀ s) : Kept s₀ (State.tdmRenumber s x d) := by
  unfold State.tdmRenumber
  repeat' first
    | (extract_lets +onlyGivenNames x; refine Kept.cut (t := x) ?_ fun _ => ?_; on_goal 1 => subst x; on_goal 2 => clear_value x)
    | (extract_lets +onlyGivenNames x; subst x)
    | (with_reducible first
        | assumption | intro _ | apply State.setGrp_kept | apply Kept.foldl)

theorem State.defaultTarget_kept {s₀ : State} {s : State} (m addr target : Nat) (write : Bool) (cause : Nat) (hK :
    Kept s₀ s) : Kept s₀ (State.defaultTarget s m addr target write cause) := by
  unfold State.defaultTarget
  repeat' first
    | (extract_lets +onlyGivenNames x; refine Kept.cut (t := x) ?_ fun _ => ?_; on_goal 1 => subst x; on_goal 2 => clear_value x)
    | (extract_lets +onlyGivenNames x; subst x)
    | (with_reducible first
        | assumption | apply Kept.ite | apply State.answer_kept | apply State.bump_kept | apply State.raise_kept | apply State.report_kept
        | apply State.setReg_kept)

theorem State.dataError_kept {s₀ : State} {s : State} (data : List Word) (hK : Kept s₀ s) : Kept s₀ (State.dataError s data) := by
  unfold State.dataError
  with_reducible repeat' first
    | assumption | apply State.answer_kept | apply State.bump_kept | apply State.raise_kept

end Sys2Proof.Machine
end

