-- ==== Sys2Proof/Laws/Aside.lean ====
section
/-!
SUPPORT. What a fault report reaches (19 R482 to R490): beside the registers and their layers, the record of what leaves the device, the
collector, FOV, TDM, AMP, the lanes and the weir; every other part of the state is as it was. Engines, locks, domains, memories and queues are among
the rest, so that a meaning that reports keeps what it said of them.
-/
namespace Sys2Proof.Machine

set_option linter.unreachableTactic false
set_option linter.unusedTactic false

/-- `t` differs from `s` at most in what a fault report reaches. -/
structure Aside (s t : State) : Prop where
  rest : { t with regs := s.regs, layers := s.layers, outbox := s.outbox, flt := s.flt, fov := s.fov, tdm := s.tdm, amps := s.amps, weir := s.weir, lanes := s.lanes } = s

variable {s₀ s t : State}

theorem Aside.refl (s : State) : Aside s s := ⟨rfl⟩
theorem Aside.ite {c : Prop} [Decidable c] (h : Aside s₀ s) (h' : Aside s₀ t) : Aside s₀ (if c then s else t) := by split <;> assumption
theorem Aside.cut {P : Prop} (h : Aside s₀ t) (k : Aside s₀ t → P) : P := k h
theorem Aside.foldl {α : Type} {l : List α} {f : State → α → State} (h : Aside s₀ s) (k : ∀ t x, Aside s₀ t → Aside s₀ (f t x)) :
    Aside s₀ (l.foldl f s) := by
  induction l generalizing s with
  | nil => exact h
  | cons x l ih => exact ih (k _ _ h)
theorem Aside.upd {x0 : List (Nat × Word)} {x1 : Layers} {x2 : List Emission} {x3 : Flt} {x4 : Fov} {x5 : Tdm} {x6 : List (Nat × AmpChannel)} {x7 : Weir} {x8 : List (Nat × Lane)}
    (h : Aside s₀ s) : Aside s₀ { s with regs := x0, layers := x1, outbox := x2, flt := x3, fov := x4, tdm := x5, amps := x6, weir := x7, lanes := x8 } := ⟨h.rest⟩
theorem Aside.pending (h : Aside s t) : t.pending = s.pending := (congrArg State.pending h.rest :)
theorem Aside.now (h : Aside s t) : t.now = s.now := (congrArg State.now h.rest :)
theorem Aside.freeCount (h : Aside s t) : t.freeCount = s.freeCount := (congrArg State.freeCount h.rest :)
theorem Aside.reply (h : Aside s t) : t.reply = s.reply := (congrArg State.reply h.rest :)
theorem Aside.doms (h : Aside s t) : t.doms = s.doms := (congrArg State.doms h.rest :)
theorem Aside.locks (h : Aside s t) : t.locks = s.locks := (congrArg State.locks h.rest :)
theorem Aside.glb (h : Aside s t) : t.glb = s.glb := (congrArg State.glb h.rest :)
theorem Aside.cfg (h : Aside s t) : t.cfg = s.cfg := (congrArg State.cfg h.rest :)
theorem Aside.evt (h : Aside s t) : t.evt = s.evt := (congrArg State.evt h.rest :)
theorem Aside.ssm (h : Aside s t) : t.ssm = s.ssm := (congrArg State.ssm h.rest :)
theorem Aside.dram (h : Aside s t) : t.dram = s.dram := (congrArg State.dram h.rest :)
theorem Aside.engines (h : Aside s t) : t.engines = s.engines := (congrArg State.engines h.rest :)
theorem Aside.waits (h : Aside s t) : t.waits = s.waits := (congrArg State.waits h.rest :)
theorem Aside.substs (h : Aside s t) : t.substs = s.substs := (congrArg State.substs h.rest :)
theorem Aside.basin (h : Aside s t) : t.basin = s.basin := (congrArg State.basin h.rest :)
theorem Aside.router (h : Aside s t) : t.router = s.router := (congrArg State.router h.rest :)
theorem Aside.feeds (h : Aside s t) : t.feeds = s.feeds := (congrArg State.feeds h.rest :)
theorem Aside.frames (h : Aside s t) : t.frames = s.frames := (congrArg State.frames h.rest :)
theorem Aside.flc (h : Aside s t) : t.flc = s.flc := (congrArg State.flc h.rest :)
theorem Aside.ampGroups (h : Aside s t) : t.ampGroups = s.ampGroups := (congrArg State.ampGroups h.rest :)
theorem Aside.cands (h : Aside s t) : t.cands = s.cands := (congrArg State.cands h.rest :)
theorem Aside.dplls (h : Aside s t) : t.dplls = s.dplls := (congrArg State.dplls h.rest :)
theorem Aside.pulses (h : Aside s t) : t.pulses = s.pulses := (congrArg State.pulses h.rest :)
theorem Aside.tbs (h : Aside s t) : t.tbs = s.tbs := (congrArg State.tbs h.rest :)
theorem Aside.txqs (h : Aside s t) : t.txqs = s.txqs := (congrArg State.txqs h.rest :)
theorem Aside.macs (h : Aside s t) : t.macs = s.macs := (congrArg State.macs h.rest :)
theorem Aside.txStreams (h : Aside s t) : t.txStreams = s.txStreams := (congrArg State.txStreams h.rest :)
theorem Aside.rxStreams (h : Aside s t) : t.rxStreams = s.rxStreams := (congrArg State.rxStreams h.rest :)
theorem Aside.legs (h : Aside s t) : t.legs = s.legs := (congrArg State.legs h.rest :)
theorem Aside.links (h : Aside s t) : t.links = s.links := (congrArg State.links h.rest :)
theorem Aside.conceal (h : Aside s t) : t.conceal = s.conceal := (congrArg State.conceal h.rest :)
theorem Aside.lastGood (h : Aside s t) : t.lastGood = s.lastGood := (congrArg State.lastGood h.rest :)
theorem Aside.dmc (h : Aside s t) : t.dmc = s.dmc := (congrArg State.dmc h.rest :)
theorem Aside.xbar (h : Aside s t) : t.xbar = s.xbar := (congrArg State.xbar h.rest :)
theorem Aside.dma (h : Aside s t) : t.dma = s.dma := (congrArg State.dma h.rest :)
theorem Aside.gpios (h : Aside s t) : t.gpios = s.gpios := (congrArg State.gpios h.rest :)
theorem Aside.svc (h : Aside s t) : t.svc = s.svc := (congrArg State.svc h.rest :)
theorem Aside.pcie (h : Aside s t) : t.pcie = s.pcie := (congrArg State.pcie h.rest :)
theorem Aside.drg (h : Aside s t) : t.drg = s.drg := (congrArg State.drg h.rest :)
theorem Aside.tlm (h : Aside s t) : t.tlm = s.tlm := (congrArg State.tlm h.rest :)

theorem State.setReg_aside {s₀ : State} {s : State} (a : Nat) (v : Word) (h : Aside s₀ s) : Aside s₀ (State.setReg s a v) := ⟨h.rest⟩

theorem State.wr_aside {s₀ : State} {s : State} (f : FieldAt) (v : Nat) (h : Aside s₀ s) : Aside s₀ (State.wr s f v) := by
  unfold State.wr
  with_reducible repeat' first
    | assumption | apply State.setReg_aside

theorem State.bump_aside {s₀ : State} {s : State} (f : FieldAt) (n : Nat) (h : Aside s₀ s) : Aside s₀ (State.bump s f n) := by
  unfold State.bump
  with_reducible repeat' first
    | assumption | apply State.wr_aside

theorem State.raise_aside {s₀ : State} {s : State} (f : FieldAt) (h : Aside s₀ s) : Aside s₀ (State.raise s f) := by
  unfold State.raise
  with_reducible repeat' first
    | assumption | apply State.wr_aside

theorem State.emit_aside {s₀ : State} {s : State} (e : Emission) (h : Aside s₀ s) : Aside s₀ (State.emit s e) := ⟨h.rest⟩

theorem State.soften_aside {s₀ : State} {s : State} (a : Nat) (mask v : Word) (h : Aside s₀ s) : Aside s₀ (State.soften s a mask v) := by
  unfold State.soften
  repeat' first
    | (extract_lets +onlyGivenNames x; refine Aside.cut (t := x) ?_ fun _ => ?_; on_goal 1 => subst x; on_goal 2 => clear_value x)
    | (extract_lets +onlyGivenNames x; subst x)
    | (with_reducible first
        | assumption | intro _ | fail_if_no_progress (apply Aside.upd))

theorem State.hw_aside {s₀ : State} {s : State} (f : FieldAt) (v : Nat) (h : Aside s₀ s) : Aside s₀ (State.hw s f v) := by
  unfold State.hw
  with_reducible repeat' first
    | assumption | apply State.soften_aside | apply State.wr_aside

theorem State.hwMode_aside {s₀ : State} {s : State} (m : Nat) (on : Bool) (h : Aside s₀ s) : Aside s₀ (State.hwMode s m on) := by
  unfold State.hwMode
  repeat' first
    | (extract_lets +onlyGivenNames x; refine Aside.cut (t := x) ?_ fun _ => ?_; on_goal 1 => subst x; on_goal 2 => clear_value x)
    | (extract_lets +onlyGivenNames x; subst x)
    | (with_reducible first
        | assumption | apply Aside.ite | apply State.raise_aside | apply State.wr_aside)

theorem State.setRequester_aside {s₀ : State} {s : State} (r : Nat) (q : Requester) (h : Aside s₀ s) : Aside s₀ (State.setRequester s r q) := by
  unfold State.setRequester
  with_reducible repeat' first
    | assumption | intro _ | fail_if_no_progress (apply Aside.upd)

theorem State.weirWithdraw_aside {s₀ : State} {s : State} (r : Nat) (h : Aside s₀ s) : Aside s₀ (State.weirWithdraw s r) := by
  unfold State.weirWithdraw
  with_reducible repeat' first
    | assumption | apply State.setRequester_aside

theorem State.weirReturn_aside {s₀ : State} {s : State} (r : Nat) (h : Aside s₀ s) : Aside s₀ (State.weirReturn s r) := by
  unfold State.weirReturn
  with_reducible repeat' first
    | assumption | apply State.setRequester_aside

theorem State.weirDrop_aside {s₀ : State} {s : State} (r : Nat) (h : Aside s₀ s) : Aside s₀ (State.weirDrop s r) := by
  unfold State.weirDrop
  with_reducible repeat' first
    | assumption | apply State.weirReturn_aside | apply State.weirWithdraw_aside

theorem State.endCause_aside {s₀ : State} {s : State} (source code : Nat) (h : Aside s₀ s) : Aside s₀ (State.endCause s source code) := by
  unfold State.endCause
  with_reducible repeat' first
    | assumption | intro _ | apply Aside.ite | fail_if_no_progress (apply Aside.upd)

theorem State.setTdm_aside {s₀ : State} {s : State} (t : Tdm) (h : Aside s₀ s) : Aside s₀ (State.setTdm s t) := by
  unfold State.setTdm
  with_reducible repeat' first
    | assumption | fail_if_no_progress (apply Aside.upd)

theorem State.setGrp_aside {s₀ : State} {s : State} (g : Nat) (r : TdmGroup) (h : Aside s₀ s) : Aside s₀ (State.setGrp s g r) := by
  unfold State.setGrp
  repeat' first
    | (extract_lets +onlyGivenNames x; refine Aside.cut (t := x) ?_ fun _ => ?_; on_goal 1 => subst x; on_goal 2 => clear_value x)
    | (extract_lets +onlyGivenNames x; subst x)
    | (with_reducible first
        | assumption | intro _ | apply Aside.ite | apply State.setTdm_aside | apply State.wr_aside)

theorem State.tdmSafe_aside {s₀ : State} {s : State} (g : Nat) (on : Bool) (h : Aside s₀ s) : Aside s₀ (State.tdmSafe s g on) := by
  unfold State.tdmSafe
  repeat' first
    | (extract_lets +onlyGivenNames x; refine Aside.cut (t := x) ?_ fun _ => ?_; on_goal 1 => subst x; on_goal 2 => clear_value x)
    | (extract_lets +onlyGivenNames x; subst x)
    | (with_reducible first
        | assumption | apply Aside.ite | apply State.setGrp_aside)

theorem State.setAmp_aside {s₀ : State} {s : State} (c : Nat) (a : AmpChannel) (h : Aside s₀ s) : Aside s₀ (State.setAmp s c a) := by
  unfold State.setAmp
  with_reducible repeat' first
    | assumption | intro _ | fail_if_no_progress (apply Aside.upd)

theorem State.ampEnter_aside {s₀ : State} {s : State} (c k : Nat) (h : Aside s₀ s) : Aside s₀ (State.ampEnter s c k) := by
  unfold State.ampEnter
  with_reducible repeat' first
    | assumption | intro _ | apply State.wr_aside | apply Aside.foldl

theorem State.ampRelease_aside {s₀ : State} {s : State} (a : Nat) (h : Aside s₀ s) : Aside s₀ (State.ampRelease s a) := by
  unfold State.ampRelease
  repeat' first
    | (extract_lets +onlyGivenNames x; refine Aside.cut (t := x) ?_ fun _ => ?_; on_goal 1 => subst x; on_goal 2 => clear_value x)
    | (extract_lets +onlyGivenNames x; subst x)
    | (with_reducible first
        | assumption | intro _ | apply Aside.ite | apply State.weirReturn_aside | apply State.wr_aside)

theorem State.ampOff_aside {s₀ : State} {s : State} (c : Nat) (h : Aside s₀ s) : Aside s₀ (State.ampOff s c) := by
  unfold State.ampOff
  with_reducible repeat' first
    | assumption | apply Aside.ite | apply State.ampEnter_aside

theorem State.ampCauseEnds_aside {s₀ : State} {s : State} (c : Nat) (h : Aside s₀ s) : Aside s₀ (State.ampCauseEnds s c) := by
  unfold State.ampCauseEnds
  with_reducible repeat' first
    | assumption | apply State.endCause_aside

theorem State.ampSafe_aside {s₀ : State} {s : State} (a : Nat) (mute hard : Bool) (h : Aside s₀ s) : Aside s₀ (State.ampSafe s a mute hard) := by
  unfold State.ampSafe
  repeat' first
    | (extract_lets +onlyGivenNames x; refine Aside.cut (t := x) ?_ fun _ => ?_; on_goal 1 => subst x; on_goal 2 => clear_value x)
    | (extract_lets +onlyGivenNames x; subst x)
    | (with_reducible first
        | assumption | intro _ | apply Aside.ite | apply State.ampCauseEnds_aside | apply State.ampEnter_aside
        | apply State.ampRelease_aside | apply State.setAmp_aside | apply State.wr_aside | apply Aside.foldl)

theorem State.ampUnsafe_aside {s₀ : State} {s : State} (a : Nat) (mute hard : Bool) (h : Aside s₀ s) : Aside s₀ (State.ampUnsafe s a mute hard) := by
  unfold State.ampUnsafe
  repeat' first
    | (extract_lets +onlyGivenNames x; refine Aside.cut (t := x) ?_ fun _ => ?_; on_goal 1 => subst x; on_goal 2 => clear_value x)
    | (extract_lets +onlyGivenNames x; subst x)
    | (with_reducible first
        | assumption | intro _ | apply Aside.ite | apply State.ampEnter_aside | apply State.ampOff_aside | apply State.raise_aside
        | apply State.setAmp_aside | apply State.wr_aside | apply Aside.foldl)
    | split

theorem State.judgeFence_aside {s₀ : State} {s : State} (h : Aside s₀ s) : Aside s₀ (State.judgeFence s) := by
  unfold State.judgeFence
  repeat' first
    | (extract_lets +onlyGivenNames x; refine Aside.cut (t := x) ?_ fun _ => ?_; on_goal 1 => subst x; on_goal 2 => clear_value x)
    | (extract_lets +onlyGivenNames x; subst x)
    | (with_reducible first
        | assumption | intro _ | apply Aside.ite | apply State.emit_aside | apply State.wr_aside | fail_if_no_progress (apply Aside.upd))

theorem State.setLane_aside {s₀ : State} {s : State} (n : Nat) (l : Lane) (h : Aside s₀ s) : Aside s₀ (State.setLane s n l) := by
  unfold State.setLane
  with_reducible repeat' first
    | assumption | intro _ | fail_if_no_progress (apply Aside.upd)

theorem State.scanAbort_aside {s₀ : State} {s : State} (n : Nat) (h : Aside s₀ s) : Aside s₀ (State.scanAbort s n) := by
  unfold State.scanAbort
  with_reducible repeat' first
    | assumption | apply Aside.ite | apply State.raise_aside | apply State.setReg_aside

theorem State.readaptDrop_aside {s₀ : State} {s : State} (n : Nat) (h : Aside s₀ s) : Aside s₀ (State.readaptDrop s n) := by
  unfold State.readaptDrop
  with_reducible repeat' first
    | assumption | apply State.weirDrop_aside | apply State.wr_aside

theorem State.laneBelow_aside {s₀ : State} {s : State} (n v : Nat) (h : Aside s₀ s) : Aside s₀ (State.laneBelow s n v) := by
  unfold State.laneBelow
  repeat' first
    | (extract_lets +onlyGivenNames x; refine Aside.cut (t := x) ?_ fun _ => ?_; on_goal 1 => subst x; on_goal 2 => clear_value x)
    | (extract_lets +onlyGivenNames x; subst x)
    | (with_reducible first
        | assumption | apply Aside.ite | apply State.readaptDrop_aside | apply State.scanAbort_aside | apply State.setLane_aside
        | apply State.setReg_aside | apply State.wr_aside)

theorem State.stopNetTests_aside {s₀ : State} {s : State} (h : Aside s₀ s) : Aside s₀ (State.stopNetTests s) := by
  unfold State.stopNetTests
  repeat' first
    | (extract_lets +onlyGivenNames x; refine Aside.cut (t := x) ?_ fun _ => ?_; on_goal 1 => subst x; on_goal 2 => clear_value x)
    | (extract_lets +onlyGivenNames x; subst x)
    | (with_reducible first
        | assumption | intro _ | apply Aside.ite | apply State.hw_aside | apply State.laneBelow_aside | apply State.raise_aside
        | apply State.setLane_aside | apply State.wr_aside | apply Aside.foldl)

theorem State.applySafe_aside {s₀ : State} {s : State} (h : Aside s₀ s) : Aside s₀ (State.applySafe s) := by
  unfold State.applySafe
  repeat' first
    | (extract_lets +onlyGivenNames x; refine Aside.cut (t := x) ?_ fun _ => ?_; on_goal 1 => subst x; on_goal 2 => clear_value x)
    | (extract_lets +onlyGivenNames x; subst x)
    | (with_reducible first
        | assumption | intro _ | apply Aside.ite | apply State.ampSafe_aside | apply State.ampUnsafe_aside | apply State.emit_aside
        | apply State.judgeFence_aside | apply State.setGrp_aside | apply State.stopNetTests_aside | apply State.tdmSafe_aside
        | apply State.wr_aside | apply Aside.foldl)

theorem State.assertErr_aside {s₀ : State} {s : State} (l : Nat) (h : Aside s₀ s) : Aside s₀ (State.assertErr s l) := by
  unfold State.assertErr
  repeat' first
    | (extract_lets +onlyGivenNames x; refine Aside.cut (t := x) ?_ fun _ => ?_; on_goal 1 => subst x; on_goal 2 => clear_value x)
    | (extract_lets +onlyGivenNames x; subst x)
    | (with_reducible first
        | assumption | apply Aside.ite | apply State.emit_aside | apply State.hw_aside | apply State.wr_aside
        | fail_if_no_progress (apply Aside.upd))

theorem State.react_aside {s₀ : State} {s : State} (source l : Nat) (h : Aside s₀ s) : Aside s₀ (State.react s source l) := by
  unfold State.react
  repeat' first
    | (extract_lets +onlyGivenNames x; refine Aside.cut (t := x) ?_ fun _ => ?_; on_goal 1 => subst x; on_goal 2 => clear_value x)
    | (extract_lets +onlyGivenNames x; subst x)
    | (with_reducible first
        | assumption | apply Aside.ite | apply State.applySafe_aside | apply State.hwMode_aside | apply State.wr_aside
        | fail_if_no_progress (apply Aside.upd))

theorem State.logRecord_aside {s₀ : State} {s : State} (r : FaultRecord) (h : Aside s₀ s) : Aside s₀ (State.logRecord s r) := by
  unfold State.logRecord
  repeat' first
    | (extract_lets +onlyGivenNames x; refine Aside.cut (t := x) ?_ fun _ => ?_; on_goal 1 => subst x; on_goal 2 => clear_value x)
    | (extract_lets +onlyGivenNames x; subst x)
    | (with_reducible first
        | assumption | apply Aside.ite | apply State.bump_aside | apply State.raise_aside | fail_if_no_progress (apply Aside.upd))

theorem State.reportAs_aside {s₀ : State} {s : State} (source code level : Nat) (injected : Bool) (h : Aside s₀ s) : Aside s₀ (State.reportAs s source code level injected) := by
  unfold State.reportAs
  repeat' first
    | (extract_lets +onlyGivenNames x; refine Aside.cut (t := x) ?_ fun _ => ?_; on_goal 1 => subst x; on_goal 2 => clear_value x)
    | (extract_lets +onlyGivenNames x; subst x)
    | (with_reducible first
        | assumption | apply Aside.ite | apply State.assertErr_aside | apply State.bump_aside | apply State.logRecord_aside
        | apply State.raise_aside | apply State.react_aside | fail_if_no_progress (apply Aside.upd))
    | split

theorem State.report_aside {s₀ : State} {s : State} (source code level : Nat) (h : Aside s₀ s) : Aside s₀ (State.report s source code level) := by
  unfold State.report
  with_reducible repeat' first
    | assumption | apply State.reportAs_aside

end Sys2Proof.Machine
end

