-- ==== Sys2Proof/Laws/Engine.lean ====
section
/-!
SUPPORT. Laws of the engine's instruction cycle and arithmetic: what issuing to a running engine does, how an instruction of one lane or
ALU operation ends when nothing else is in flight, and the integers behind aligned words, products and shifts.
-/
namespace Sys2Proof.Machine

theorem State.engRuns_of {s : State} {n : EngIx} (h : s.engIssues n) : s.engRuns n = true := by simp [State.engRuns, h.1, h.2]

/-- An engine that issues applies the operation and nothing else. -/
theorem State.issue_eq {s : State} {n : EngIx} (h : s.engIssues n) (f : Engine → Engine) : s.issue n f = s.setEng n (f (s.eng n)) := by
  simp [State.issue, State.engRuns_of h]

/-- An instruction whose one result goes to an accumulator, with the flags of its lane. -/
theorem Engine.finish_acc {e : Engine} (hc : e.cur = {}) (hd : e.delayed = []) (hs : e.stack = []) {lane : Nat} (hl : lane < 2) (a : Nat)
    (r : Acc) (f : LaneFlags) : ((e.result lane 1 (.a a) r).laneFlags lane f).finish 1 none =
      { e with a := Tab.set (fun _ => 0) e.a a r, sr := srWith e.sr f, pc := e.pc + 1, cycles := e.cycles + 1 }.ageStores 1 := by
  obtain rfl | rfl : lane = 0 ∨ lane = 1 := by omega
  all_goals
    simp [Engine.finish, Engine.laneFlags, Engine.result, hc, Engine.mature, hd, hs, Engine.putAll, Engine.put, InFlight.flags, loopTest]

/-- The integer of an aligned word. -/
theorem toInt_alignWord (d : Sample) : (alignWord d).toInt = d.toInt * 2 ^ 24 := by
  have hs : alignWord d = (d.signExtend 56) <<< 24 := by
    apply BitVec.eq_of_getLsbD_eq
    intro i hi
    simp only [alignWord, BitVec.getLsbD_append, BitVec.getLsbD_signExtend, BitVec.getLsbD_shiftLeft]
    by_cases h : i < 24
    · simp [h]
    · have h1 : i - 24 < 32 := by omega
      have h2 : i - 24 < 56 := by omega
      simp [h, hi, h1, h2]
  have e : (d.signExtend 56).toInt = d.toInt := by rw [BitVec.toInt_signExtend_of_le]; omega
  have h1 := d.toInt_lt
  have h2 := d.le_toInt
  have e2 : ((d.signExtend 56).toNat : Int) = d.toInt + (if d.toInt < 0 then 2 ^ 56 else 0) := by
    rw [← e, BitVec.toInt_eq_toNat_cond]
    have := (d.signExtend 56).isLt
    split <;> split <;> omega
  rw [hs, BitVec.toInt_shiftLeft, Nat.shiftLeft_eq]
  push_cast
  rw [e2]
  simp only [Int.bmod]
  split <;> split <;> omega

/-- A product of two data words stays within an accumulator's range. -/
theorem productTerm_range (x y : Sample) : -2 ^ 55 ≤ productTerm x y ∧ productTerm x y < 2 ^ 55 := by
  have h1 : x.toInt < 8388608 := x.toInt_lt
  have h2 : -8388608 ≤ x.toInt := x.le_toInt
  have h3 : y.toInt < 8388608 := y.toInt_lt
  have h4 : -8388608 ≤ y.toInt := y.le_toInt
  unfold productTerm
  generalize x.toInt = a at *
  generalize y.toInt = b at *
  constructor <;> nlinarith

/-- Adding to 0 carries nothing. -/
theorem carryAdd_zero (x : Acc) : carryAdd 0 x = false := by
  have := x.isLt
  simp [carryAdd]
  omega

/-- Sums and differences of accumulators are those of their integers, modulo 2^56. -/
theorem acc_ofInt_add (x y : Acc) : BitVec.ofInt 56 (x.toInt + y.toInt) = x + y := by
  apply BitVec.eq_of_toInt_eq
  rw [BitVec.toInt_ofInt, BitVec.toInt_add]
theorem acc_ofInt_sub (x y : Acc) : BitVec.ofInt 56 (x.toInt - y.toInt) = x - y := by
  apply BitVec.eq_of_toInt_eq
  rw [BitVec.toInt_ofInt, BitVec.toInt_sub]

/-- The engine after a result in an accumulator, by the integer it is the wrap of. -/
theorem Engine.accumulated_eq (e : Engine) (a : AccIx) {r : Int} {w : Acc} (h : BitVec.ofInt 56 r = w) (c v : Bool) :
    e.accumulated a r c v = { e with a := Tab.set (fun _ => 0) e.a a w, sr := srWith e.sr (flagsOf w c v) } := by
  subst h; rfl

end Sys2Proof.Machine
end

