-- ==== Sys2Proof/Laws/KeptAudio.lean ====
section
/-!
SUPPORT. The relation `Kept` for rate bridges, filters, amplifiers, DRAM, the gain matrix, the router and the engine core.
-/
namespace Sys2Proof.Machine

set_option linter.unreachableTactic false
set_option linter.unusedTactic false

theorem State.setFlc_kept {s₀ : State} {s : State} (f : Filters) (hK : Kept s₀ s) : Kept s₀ (State.setFlc s f) := by
  unfold State.setFlc
  with_reducible repeat' first
    | assumption | fail_if_no_progress (apply Kept.upd)

theorem State.setBrun_kept {s₀ : State} {s : State} (g : Nat) (r : BridgeGroup) (hK : Kept s₀ s) : Kept s₀ (State.setBrun s g r) := by
  unfold State.setBrun
  with_reducible repeat' first
    | assumption | intro _ | apply State.setFlc_kept

theorem State.setBpair_kept {s₀ : State} {s : State} (p : Nat) (r : BridgePair) (hK : Kept s₀ s) : Kept s₀ (State.setBpair s p r) := by
  unfold State.setBpair
  with_reducible repeat' first
    | assumption | intro _ | apply State.setFlc_kept

theorem State.trackPair_kept {s₀ : State} {s : State} (p : Nat) (dev : BitVec 32) (phase : BitVec 16) (hK :
    Kept s₀ s) : Kept s₀ (State.trackPair s p dev phase) := by
  unfold State.trackPair
  repeat' first
    | (extract_lets +onlyGivenNames x; refine Kept.cut (t := x) ?_ fun _ => ?_; on_goal 1 => subst x; on_goal 2 => clear_value x)
    | (extract_lets +onlyGivenNames x; subst x)
    | (with_reducible first
        | assumption | apply Kept.ite | apply State.highest_kept | apply State.setBpair_kept | apply State.setReg_kept)

theorem State.bridgeEcc_kept {s₀ : State} {s : State} (y0 : Ecc) (hK : Kept s₀ s) : Kept s₀ (State.bridgeEcc s y0) := by
  unfold State.bridgeEcc
  repeat' first
    | (with_reducible first
        | assumption | intro _ | apply State.bump_kept | apply State.raise_kept | apply State.report_kept)
    | split

theorem execBridgeInputTake_kept {s₀ : State} (group : Nat) (ecc : List (Nat × Ecc)) {s : State} (hK :
    Kept s₀ s) : KeptRes s₀ (execBridgeInputTake group ecc s) := by
  unfold execBridgeInputTake
  repeat' first
    | (extract_lets +onlyGivenNames x; refine Kept.cut (t := x) ?_ fun _ => ?_; on_goal 1 => subst x; on_goal 2 => clear_value x)
    | (extract_lets +onlyGivenNames x; subst x)
    | (with_reducible first
        | assumption | intro _ | apply Kept.ite | apply KeptRes.next | apply KeptRes.ite | apply State.bridgeEcc_kept
        | apply State.consume_kept | apply State.overrun_kept | apply State.setBrun_kept | apply State.setLock_kept | apply Kept.foldl)
    | (with_reducible first
         | exact Nat.min_le_left _ _
         | exact Nat.le_refl _
         | refine State.lock_bounded (by assumption) (by assumption) ?_
         | refine (Nat.sub_le _ _).trans (State.lock_bounded (by assumption) (by assumption) ?_))
    | (with_reducible show (_ : Nat) ≤ _; dsimp only)
    | split

theorem State.zeroHistory_kept {s₀ : State} {s : State} (g age word : Nat) (hK : Kept s₀ s) : Kept s₀ (State.zeroHistory s g age word) := by
  unfold State.zeroHistory
  repeat' first
    | (extract_lets +onlyGivenNames x; refine Kept.cut (t := x) ?_ fun _ => ?_; on_goal 1 => subst x; on_goal 2 => clear_value x)
    | (extract_lets +onlyGivenNames x; subst x)
    | (with_reducible first
        | assumption | intro _ | apply State.setBrun_kept)

theorem State.pairFades_kept {s₀ : State} {s : State} (p k : Nat) (hK : Kept s₀ s) : Kept s₀ (State.pairFades s p k) := by
  unfold State.pairFades
  repeat' first
    | (with_reducible first
        | assumption | apply Kept.ite | apply State.wr_kept)
    | split

theorem State.unlockPair_kept {s₀ : State} {s : State} (p : Nat) (hK : Kept s₀ s) : Kept s₀ (State.unlockPair s p) := by
  unfold State.unlockPair
  repeat' first
    | (extract_lets +onlyGivenNames x; refine Kept.cut (t := x) ?_ fun _ => ?_; on_goal 1 => subst x; on_goal 2 => clear_value x)
    | (extract_lets +onlyGivenNames x; subst x)
    | (with_reducible first
        | assumption | apply Kept.ite | apply State.hw_kept | apply State.raise_kept | apply State.report_kept | apply State.setBpair_kept
        | apply State.wr_kept)

theorem State.measurePair_kept {s₀ : State} {s : State} (p k : Nat) (dev : BitVec 32) (phase : BitVec 16) (hK :
    Kept s₀ s) : Kept s₀ (State.measurePair s p k dev phase) := by
  unfold State.measurePair
  repeat' first
    | (extract_lets +onlyGivenNames x; refine Kept.cut (t := x) ?_ fun _ => ?_; on_goal 1 => subst x; on_goal 2 => clear_value x)
    | (extract_lets +onlyGivenNames x; subst x)
    | (with_reducible first
        | assumption | apply Kept.ite | apply State.setBpair_kept | apply State.trackPair_kept | apply State.unlockPair_kept)

theorem execBridgeOutputCommit_kept {s₀ : State} (group : Nat) (dev : BitVec 32) (phase : BitVec 16) (instant : BitVec 64) {s : State} (hK :
    Kept s₀ s) : KeptRes s₀ (execBridgeOutputCommit group dev phase instant s) := by
  unfold execBridgeOutputCommit
  repeat' first
    | (extract_lets +onlyGivenNames x; refine Kept.cut (t := x) ?_ fun _ => ?_; on_goal 1 => subst x; on_goal 2 => clear_value x)
    | (extract_lets +onlyGivenNames x; subst x)
    | (with_reducible first
        | assumption | apply Kept.ite | apply KeptRes.next | apply KeptRes.ite | apply State.commit_kept | apply State.measurePair_kept
        | apply State.overrun_kept | apply State.pairFades_kept | apply State.setBpair_kept | apply State.setBrun_kept)
    | split

theorem State.pairRealigned_kept {s₀ : State} {s : State} (p x : Nat) (hK : Kept s₀ s) : Kept s₀ (State.pairRealigned s p x) := by
  unfold State.pairRealigned
  repeat' first
    | (extract_lets +onlyGivenNames x; refine Kept.cut (t := x) ?_ fun _ => ?_; on_goal 1 => subst x; on_goal 2 => clear_value x)
    | (extract_lets +onlyGivenNames x; subst x)
    | (with_reducible first
        | assumption | apply Kept.ite | apply State.setBpair_kept | apply State.unlockPair_kept | apply State.wr_kept)

theorem execBridgeUnlock_kept {s₀ : State} (p : Fin 6) (dev : BitVec 32) (phase : BitVec 16) {s : State} (hK :
    Kept s₀ s) : KeptRes s₀ (execBridgeUnlock p dev phase s) := by
  unfold execBridgeUnlock
  with_reducible repeat' first
    | assumption | apply KeptRes.next | apply State.trackPair_kept | apply State.unlockPair_kept

theorem execBridgeResync_kept {s₀ : State} (p : Fin 6) {s : State} (hK : Kept s₀ s) : KeptRes s₀ (execBridgeResync p s) := by
  unfold execBridgeResync
  with_reducible repeat' first
    | assumption | apply KeptRes.next | apply State.unlockPair_kept

theorem execBridgeLock_kept {s₀ : State} (p : Fin 6) (dev : BitVec 32) (phase : BitVec 16) {s : State} (hK :
    Kept s₀ s) : KeptRes s₀ (execBridgeLock p dev phase s) := by
  unfold execBridgeLock
  repeat' first
    | (extract_lets +onlyGivenNames x; refine Kept.cut (t := x) ?_ fun _ => ?_; on_goal 1 => subst x; on_goal 2 => clear_value x)
    | (extract_lets +onlyGivenNames x; subst x)
    | (with_reducible first
        | assumption | apply Kept.ite | apply KeptRes.next | apply KeptRes.ite | apply State.raise_kept | apply State.setBpair_kept
        | apply State.trackPair_kept | apply State.wr_kept)

theorem execBridgeSyncRequest_kept {s₀ : State} (p : Fin 6) (phase : BitVec 16) {s : State} (hK :
    Kept s₀ s) : KeptRes s₀ (execBridgeSyncRequest p phase s) := by
  unfold execBridgeSyncRequest
  repeat' first
    | (extract_lets +onlyGivenNames x; refine Kept.cut (t := x) ?_ fun _ => ?_; on_goal 1 => subst x; on_goal 2 => clear_value x)
    | (extract_lets +onlyGivenNames x; subst x)
    | (with_reducible first
        | assumption | apply Kept.ite | apply KeptRes.next | apply KeptRes.ite | apply State.hw_kept | apply State.raise_kept
        | apply State.setReg_kept | apply State.wr_kept)

theorem execBridgeSyncLost_kept {s₀ : State} (p : Fin 6) {s : State} (hK : Kept s₀ s) : KeptRes s₀ (execBridgeSyncLost p s) := by
  unfold execBridgeSyncLost
  with_reducible repeat' first
    | assumption | apply Kept.ite | apply KeptRes.next | apply KeptRes.ite | apply State.hw_kept | apply State.raise_kept
    | apply State.wr_kept

theorem State.flcSaturates_kept {s₀ : State} {s : State} (k : Nat) (hK : Kept s₀ s) : Kept s₀ (State.flcSaturates s k) := by
  unfold State.flcSaturates
  with_reducible repeat' first
    | assumption | apply Kept.ite | apply State.bump_kept | apply State.raise_kept

theorem State.setCic_kept {s₀ : State} {s : State} (n : Nat) (c : Cic) (hK : Kept s₀ s) : Kept s₀ (State.setCic s n c) := by
  unfold State.setCic
  with_reducible repeat' first
    | assumption | intro _ | apply State.setFlc_kept

theorem State.setMa_kept {s₀ : State} {s : State} (ch : Nat) (m : MovingAverage) (hK : Kept s₀ s) : Kept s₀ (State.setMa s ch m) := by
  unfold State.setMa
  with_reducible repeat' first
    | assumption | intro _ | apply State.setFlc_kept

theorem State.maFeed_kept {s₀ : State} {s : State} (ch t i : Nat) (xs : List Sample) (hK :
    Kept s₀ s) : Kept s₀ (State.maFeed s ch t i xs) := by
  unfold State.maFeed
  repeat' first
    | (extract_lets +onlyGivenNames x; refine Kept.cut (t := x) ?_ fun _ => ?_; on_goal 1 => subst x; on_goal 2 => clear_value x)
    | (extract_lets +onlyGivenNames x; subst x)
    | (with_reducible first
        | assumption | apply State.setMa_kept)
    | split

theorem State.feedFromCic_kept {s₀ : State} {s : State} (n t i : Nat) (x : Sample) (hK :
    Kept s₀ s) : Kept s₀ (State.feedFromCic s n t i x) := by
  unfold State.feedFromCic
  with_reducible repeat' first
    | assumption | intro _ | apply State.maFeed_kept | apply Kept.foldl

theorem State.feedFromRouter_kept {s₀ : State} {s : State} (d t i : Nat) (xs : List Sample) (hK :
    Kept s₀ s) : Kept s₀ (State.feedFromRouter s d t i xs) := by
  unfold State.feedFromRouter
  repeat' first
    | (extract_lets +onlyGivenNames x; refine Kept.cut (t := x) ?_ fun _ => ?_; on_goal 1 => subst x; on_goal 2 => clear_value x)
    | (extract_lets +onlyGivenNames x; subst x)
    | (with_reducible first
        | assumption | intro _ | apply Kept.ite | apply State.maFeed_kept | apply State.setCic_kept | apply Kept.foldl)
    | split

theorem State.cicResult_kept {s₀ : State} {s : State} (n t i : Nat) (x : Sample) (hK :
    Kept s₀ s) : Kept s₀ (State.cicResult s n t i x) := by
  unfold State.cicResult
  repeat' first
    | (extract_lets +onlyGivenNames x; refine Kept.cut (t := x) ?_ fun _ => ?_; on_goal 1 => subst x; on_goal 2 => clear_value x)
    | (extract_lets +onlyGivenNames x; subst x)
    | (with_reducible first
        | assumption | apply Kept.ite | apply State.bump_kept | apply State.feedFromCic_kept | apply State.raise_kept
        | apply State.setCic_kept | apply State.wr_kept)
    | split

theorem State.filterCorrected_kept {s₀ : State} {s : State} (hK : Kept s₀ s) : Kept s₀ (State.filterCorrected s) := by
  unfold State.filterCorrected
  with_reducible repeat' first
    | assumption | apply State.bump_kept | apply State.raise_kept | apply State.report_kept

theorem execCicOutput_kept {s₀ : State} (n : Fin 80) (bits : List Bool) (corrected : Bool) {s : State} (hK :
    Kept s₀ s) : KeptRes s₀ (execCicOutput n bits corrected s) := by
  unfold execCicOutput
  repeat' first
    | (extract_lets +onlyGivenNames x; refine Kept.cut (t := x) ?_ fun _ => ?_; on_goal 1 => subst x; on_goal 2 => clear_value x)
    | (extract_lets +onlyGivenNames x; subst x)
    | (with_reducible first
        | assumption | intro _ | apply Kept.ite | apply KeptRes.next | apply KeptRes.ite | apply State.cicResult_kept
        | apply State.filterCorrected_kept | apply State.flcSaturates_kept | apply State.setCic_kept)
    | split

theorem State.firRequest_kept {s₀ : State} {s : State} (n : Nat) (hK : Kept s₀ s) : Kept s₀ (State.firRequest s n) := by
  unfold State.firRequest
  with_reducible repeat' first
    | assumption | apply State.wr_kept

theorem execFirSwapRequest_kept {s₀ : State} (n : Fin 80) {s : State} (hK : Kept s₀ s) : KeptRes s₀ (execFirSwapRequest n s) := by
  unfold execFirSwapRequest
  with_reducible repeat' first
    | assumption | apply KeptRes.next | apply State.firRequest_kept

theorem State.firSwaps_kept {s₀ : State} {s : State} (n len : Nat) (hK : Kept s₀ s) : Kept s₀ (State.firSwaps s n len) := by
  unfold State.firSwaps
  repeat' first
    | (extract_lets +onlyGivenNames x; refine Kept.cut (t := x) ?_ fun _ => ?_; on_goal 1 => subst x; on_goal 2 => clear_value x)
    | (extract_lets +onlyGivenNames x; subst x)
    | (with_reducible first
        | assumption | apply Kept.ite | apply State.raise_kept | apply State.setCic_kept | apply State.wr_kept)

theorem execFirSwap_kept {s₀ : State} (n : Fin 80) {s : State} (hK : Kept s₀ s) : KeptRes s₀ (execFirSwap n s) := by
  unfold execFirSwap
  with_reducible repeat' first
    | assumption | apply Kept.ite | apply KeptRes.next | apply KeptRes.ite | apply State.firSwaps_kept

theorem execFirSwapCrossfadeEnd_kept {s₀ : State} (n : Fin 80) {s : State} (hK : Kept s₀ s) : KeptRes s₀ (execFirSwapCrossfadeEnd n s) := by
  unfold execFirSwapCrossfadeEnd
  repeat' first
    | (with_reducible first
        | assumption | apply Kept.ite | apply KeptRes.next | apply KeptRes.ite | apply State.setCic_kept | apply State.wr_kept)
    | split

theorem State.rewriteCoef_kept {s₀ : State} {s : State} (i : Nat) (hK : Kept s₀ s) : Kept s₀ (State.rewriteCoef s i) := by
  unfold State.rewriteCoef
  with_reducible repeat' first
    | assumption | apply State.setCic_kept

theorem State.writeCoefficient_kept {s₀ : State} {s : State} (m i : Nat) (v : Word) (hK :
    Kept s₀ s) : Kept s₀ (State.writeCoefficient s m i v) := by
  unfold State.writeCoefficient
  repeat' first
    | (extract_lets +onlyGivenNames x; refine Kept.cut (t := x) ?_ fun _ => ?_; on_goal 1 => subst x; on_goal 2 => clear_value x)
    | (extract_lets +onlyGivenNames x; subst x)
    | (with_reducible first
        | assumption | apply Kept.ite | apply State.answer_kept | apply State.defaultTarget_kept | apply State.raise_kept
        | apply State.rewriteCoef_kept | apply State.settle_kept | apply State.soften_kept)

theorem State.stageBanks_kept {s₀ : State} {s : State} (c : Content) (hK : Kept s₀ s) : Kept s₀ (State.stageBanks s c) := by
  unfold State.stageBanks
  repeat' first
    | (extract_lets +onlyGivenNames x; refine Kept.cut (t := x) ?_ fun _ => ?_; on_goal 1 => subst x; on_goal 2 => clear_value x)
    | (extract_lets +onlyGivenNames x; subst x)
    | (with_reducible first
        | assumption | intro _ | apply State.hw_kept | apply State.rewriteCoef_kept | apply Kept.foldl)

theorem State.takeBanks_kept {s₀ : State} {s : State} (c : Content) (hK : Kept s₀ s) : Kept s₀ (State.takeBanks s c) := by
  unfold State.takeBanks
  repeat' first
    | (extract_lets +onlyGivenNames x; refine Kept.cut (t := x) ?_ fun _ => ?_; on_goal 1 => subst x; on_goal 2 => clear_value x)
    | (extract_lets +onlyGivenNames x; subst x)
    | (with_reducible first
        | assumption | intro _ | apply Kept.ite | apply State.firSwaps_kept | apply State.raise_kept | apply State.stageBanks_kept
        | apply Kept.foldl)

theorem execMovingAverageHop_kept {s₀ : State} (ch : Fin 1024) (corrected : Bool) {s : State} (hK :
    Kept s₀ s) : KeptRes s₀ (execMovingAverageHop ch corrected s) := by
  unfold execMovingAverageHop
  repeat' first
    | (extract_lets +onlyGivenNames x; refine Kept.cut (t := x) ?_ fun _ => ?_; on_goal 1 => subst x; on_goal 2 => clear_value x)
    | (extract_lets +onlyGivenNames x; subst x)
    | (with_reducible first
        | assumption | intro _ | apply Kept.ite | apply KeptRes.next | apply KeptRes.ite | apply State.filterCorrected_kept
        | apply State.flcSaturates_kept | apply State.setMa_kept)
    | split

theorem State.maRestart_kept {s₀ : State} {s : State} (ch : Nat) (hK : Kept s₀ s) : Kept s₀ (State.maRestart s ch) := by
  unfold State.maRestart
  with_reducible repeat' first
    | assumption | apply State.setMa_kept

theorem State.maCfgTakes_kept {s₀ : State} {s : State} (ch : Nat) (hK : Kept s₀ s) : Kept s₀ (State.maCfgTakes s ch) := by
  unfold State.maCfgTakes
  with_reducible repeat' first
    | assumption | apply Kept.ite | apply State.maRestart_kept | apply State.setShWaits_kept | apply State.settle_kept

theorem execMaCfgTakesEffect_kept {s₀ : State} (ch : Fin 1024) {s : State} (hK : Kept s₀ s) : KeptRes s₀ (execMaCfgTakesEffect ch s) := by
  unfold execMaCfgTakesEffect
  with_reducible repeat' first
    | assumption | apply KeptRes.next | apply State.maCfgTakes_kept

theorem State.filterEcc_kept {s₀ : State} {s : State} (w : FilterWord) (hK : Kept s₀ s) : Kept s₀ (State.filterEcc s w) := by
  unfold State.filterEcc
  repeat' first
    | (extract_lets +onlyGivenNames x; refine Kept.cut (t := x) ?_ fun _ => ?_; on_goal 1 => subst x; on_goal 2 => clear_value x)
    | (extract_lets +onlyGivenNames x; subst x)
    | (with_reducible first
        | assumption | apply State.bump_kept | apply State.maRestart_kept | apply State.raise_kept | apply State.report_kept
        | apply State.setCic_kept)
    | split

theorem execFlcEccUncorrectable_kept {s₀ : State} (w : FilterWord) {s : State} (hK :
    Kept s₀ s) : KeptRes s₀ (execFlcEccUncorrectable w s) := by
  unfold execFlcEccUncorrectable
  with_reducible repeat' first
    | assumption | apply KeptRes.next | apply State.filterEcc_kept

theorem State.ampEvent_kept {s₀ : State} {s : State} (c k : Nat) (hK : Kept s₀ s) : Kept s₀ (State.ampEvent s c k) := by
  unfold State.ampEvent
  with_reducible repeat' first
    | assumption | apply State.raise_kept

theorem State.ampGrpEvent_kept {s₀ : State} {s : State} (a k : Nat) (hK : Kept s₀ s) : Kept s₀ (State.ampGrpEvent s a k) := by
  unfold State.ampGrpEvent
  with_reducible repeat' first
    | assumption | apply State.raise_kept

theorem State.ampBoot_kept {s₀ : State} {s : State} (c : Nat) (hK : Kept s₀ s) : Kept s₀ (State.ampBoot s c) := by
  unfold State.ampBoot
  with_reducible repeat' first
    | assumption | apply State.ampEnter_kept | apply State.wr_kept

theorem State.ampEnChanged_kept {s₀ : State} {s : State} (a : Nat) (was : Bool) (hK :
    Kept s₀ s) : Kept s₀ (State.ampEnChanged s a was) := by
  unfold State.ampEnChanged
  repeat' first
    | (extract_lets +onlyGivenNames x; refine Kept.cut (t := x) ?_ fun _ => ?_; on_goal 1 => subst x; on_goal 2 => clear_value x)
    | (extract_lets +onlyGivenNames x; subst x)
    | (with_reducible first
        | assumption | apply Kept.ite | apply State.ampRelease_kept | apply State.weirRequest_kept | apply State.weirWithdraw_kept)

theorem State.ampWriteEn_kept {s₀ : State} {s : State} (a : Nat) (en : Bool) (hK : Kept s₀ s) : Kept s₀ (State.ampWriteEn s a en) := by
  unfold State.ampWriteEn
  with_reducible repeat' first
    | assumption | apply Kept.ite | apply State.ampEnChanged_kept | apply State.sw_kept

theorem execAmpGroupEnable_kept {s₀ : State} (a : Fin 4) (en : Bool) {s : State} (hK :
    Kept s₀ s) : KeptRes s₀ (execAmpGroupEnable a en s) := by
  unfold execAmpGroupEnable
  with_reducible repeat' first
    | assumption | apply KeptRes.next | apply State.ampWriteEn_kept

theorem State.ampLeave_kept {s₀ : State} {s : State} (a : Nat) (hK : Kept s₀ s) : Kept s₀ (State.ampLeave s a) := by
  unfold State.ampLeave
  repeat' first
    | (extract_lets +onlyGivenNames x; refine Kept.cut (t := x) ?_ fun _ => ?_; on_goal 1 => subst x; on_goal 2 => clear_value x)
    | (extract_lets +onlyGivenNames x; subst x)
    | (with_reducible first
        | assumption | apply State.ampGrpEvent_kept | apply State.wr_kept)

theorem State.ampStartRamp_kept {s₀ : State} {s : State} (c : Nat) (hK : Kept s₀ s) : Kept s₀ (State.ampStartRamp s c) := by
  unfold State.ampStartRamp
  repeat' first
    | (extract_lets +onlyGivenNames x; refine Kept.cut (t := x) ?_ fun _ => ?_; on_goal 1 => subst x; on_goal 2 => clear_value x)
    | (extract_lets +onlyGivenNames x; subst x)
    | (with_reducible first
        | assumption | apply State.setAmp_kept)

theorem State.ampJudge_kept {s₀ : State} {s : State} (c : Nat) (hK : Kept s₀ s) : Kept s₀ (State.ampJudge s c) := by
  unfold State.ampJudge
  repeat' first
    | (extract_lets +onlyGivenNames x; refine Kept.cut (t := x) ?_ fun _ => ?_; on_goal 1 => subst x; on_goal 2 => clear_value x)
    | (extract_lets +onlyGivenNames x; subst x)
    | (with_reducible first
        | assumption | apply Kept.ite | apply State.ampBoot_kept | apply State.ampEnter_kept | apply State.ampOff_kept
        | apply State.ampRelease_kept | apply State.setAmp_kept | apply State.shTake_kept)
    | split

theorem execAmpChannelEnable_kept {s₀ : State} (c : Fin 32) {s : State} (hK : Kept s₀ s) : KeptRes s₀ (execAmpChannelEnable c s) := by
  unfold execAmpChannelEnable
  with_reducible repeat' first
    | assumption | apply Kept.ite | apply KeptRes.next | apply KeptRes.ite | apply State.ampJudge_kept

theorem execAmpBootEnd_kept {s₀ : State} (c : Fin 32) {s : State} (hK : Kept s₀ s) : KeptRes s₀ (execAmpBootEnd c s) := by
  unfold execAmpBootEnd
  with_reducible repeat' first
    | assumption | apply Kept.ite | apply KeptRes.next | apply KeptRes.ite | apply State.ampEnter_kept | apply State.ampStartRamp_kept

theorem execAmpCmRampEnd_kept {s₀ : State} (c : Fin 32) {s : State} (hK : Kept s₀ s) : KeptRes s₀ (execAmpCmRampEnd c s) := by
  unfold execAmpCmRampEnd
  repeat' first
    | (extract_lets +onlyGivenNames x; refine Kept.cut (t := x) ?_ fun _ => ?_; on_goal 1 => subst x; on_goal 2 => clear_value x)
    | (extract_lets +onlyGivenNames x; subst x)
    | (with_reducible first
        | assumption | apply Kept.ite | apply KeptRes.next | apply KeptRes.ite | apply State.ampEnter_kept | apply State.ampEvent_kept
        | apply State.setAmp_kept)
    | split

theorem execAmpFadeOutEnd_kept {s₀ : State} (c : Fin 32) {s : State} (hK : Kept s₀ s) : KeptRes s₀ (execAmpFadeOutEnd c s) := by
  unfold execAmpFadeOutEnd
  repeat' first
    | (extract_lets +onlyGivenNames x; refine Kept.cut (t := x) ?_ fun _ => ?_; on_goal 1 => subst x; on_goal 2 => clear_value x)
    | (extract_lets +onlyGivenNames x; subst x)
    | (with_reducible first
        | assumption | apply Kept.ite | apply KeptRes.next | apply KeptRes.ite | apply State.ampEnter_kept | apply State.setAmp_kept)

theorem execAmpOffReached_kept {s₀ : State} (c : Fin 32) {s : State} (hK : Kept s₀ s) : KeptRes s₀ (execAmpOffReached c s) := by
  unfold execAmpOffReached
  repeat' first
    | (extract_lets +onlyGivenNames x; refine Kept.cut (t := x) ?_ fun _ => ?_; on_goal 1 => subst x; on_goal 2 => clear_value x)
    | (extract_lets +onlyGivenNames x; subst x)
    | (with_reducible first
        | assumption | apply Kept.ite | apply KeptRes.next | apply KeptRes.ite | apply State.ampEvent_kept | apply State.ampOff_kept
        | apply State.ampRelease_kept)

theorem State.ampTripOne_kept {s₀ : State} {s : State} (c : Nat) (hK : Kept s₀ s) : Kept s₀ (State.ampTripOne s c) := by
  unfold State.ampTripOne
  repeat' first
    | (extract_lets +onlyGivenNames x; refine Kept.cut (t := x) ?_ fun _ => ?_; on_goal 1 => subst x; on_goal 2 => clear_value x)
    | (extract_lets +onlyGivenNames x; subst x)
    | (with_reducible first
        | assumption | apply Kept.ite | apply State.ampEnter_kept | apply State.ampEvent_kept | apply State.bump_kept)

theorem State.ampTripGroup_kept {s₀ : State} {s : State} (a : Nat) (hK : Kept s₀ s) : Kept s₀ (State.ampTripGroup s a) := by
  unfold State.ampTripGroup
  repeat' first
    | (extract_lets +onlyGivenNames x; refine Kept.cut (t := x) ?_ fun _ => ?_; on_goal 1 => subst x; on_goal 2 => clear_value x)
    | (extract_lets +onlyGivenNames x; subst x)
    | (with_reducible first
        | assumption | intro _ | apply Kept.ite | apply State.ampRelease_kept | apply State.ampTripOne_kept | apply State.wr_kept
        | apply Kept.foldl)

theorem State.ampTrip_kept {s₀ : State} {s : State} (c : Nat) (hK : Kept s₀ s) : Kept s₀ (State.ampTrip s c) := by
  unfold State.ampTrip
  repeat' first
    | (extract_lets +onlyGivenNames x; refine Kept.cut (t := x) ?_ fun _ => ?_; on_goal 1 => subst x; on_goal 2 => clear_value x)
    | (extract_lets +onlyGivenNames x; subst x)
    | (with_reducible first
        | assumption | apply Kept.ite | apply State.ampRelease_kept | apply State.ampTripGroup_kept | apply State.ampTripOne_kept
        | apply State.report_kept)

theorem execCycleByCycleLimit_kept {s₀ : State} (c : Fin 32) (bits : List Bool) {s : State} (hK :
    Kept s₀ s) : KeptRes s₀ (execCycleByCycleLimit c bits s) := by
  unfold execCycleByCycleLimit
  repeat' first
    | (extract_lets +onlyGivenNames x; refine Kept.cut (t := x) ?_ fun _ => ?_; on_goal 1 => subst x; on_goal 2 => clear_value x)
    | (extract_lets +onlyGivenNames x; subst x)
    | (with_reducible first
        | assumption | apply Kept.ite | apply KeptRes.next | apply KeptRes.ite | apply State.ampEvent_kept | apply State.bump_kept
        | apply State.setAmp_kept)

theorem execShortCircuitTrip_kept {s₀ : State} (c : Fin 32) (bits : List Bool) {s : State} (hK :
    Kept s₀ s) : KeptRes s₀ (execShortCircuitTrip c bits s) := by
  unfold execShortCircuitTrip
  repeat' first
    | (extract_lets +onlyGivenNames x; refine Kept.cut (t := x) ?_ fun _ => ?_; on_goal 1 => subst x; on_goal 2 => clear_value x)
    | (extract_lets +onlyGivenNames x; subst x)
    | (with_reducible first
        | assumption | apply Kept.ite | apply KeptRes.next | apply KeptRes.ite | apply State.ampTrip_kept)

theorem execDriverFault_kept {s₀ : State} (a : Fin 4) {s : State} (hK : Kept s₀ s) : KeptRes s₀ (execDriverFault a s) := by
  unfold execDriverFault
  repeat' first
    | (extract_lets +onlyGivenNames x; refine Kept.cut (t := x) ?_ fun _ => ?_; on_goal 1 => subst x; on_goal 2 => clear_value x)
    | (extract_lets +onlyGivenNames x; subst x)
    | (with_reducible first
        | assumption | apply Kept.ite | apply KeptRes.next | apply KeptRes.ite | apply State.ampGrpEvent_kept
        | apply State.ampTripGroup_kept | apply State.report_kept | apply State.setAmpGroup_kept | apply State.wr_kept)

theorem execSenseLost_kept {s₀ : State} (c : Fin 32) {s : State} (hK : Kept s₀ s) : KeptRes s₀ (execSenseLost c s) := by
  unfold execSenseLost
  with_reducible repeat' first
    | assumption | apply Kept.ite | apply KeptRes.next | apply KeptRes.ite | apply State.ampEnter_kept | apply State.ampEvent_kept
    | apply State.ampRelease_kept | apply State.report_kept

theorem State.ampRetries_kept {s₀ : State} {s : State} (n : Nat) (hK : Kept s₀ s) : Kept s₀ (State.ampRetries s n) := by
  unfold State.ampRetries
  repeat' first
    | (extract_lets +onlyGivenNames x; refine Kept.cut (t := x) ?_ fun _ => ?_; on_goal 1 => subst x; on_goal 2 => clear_value x)
    | (extract_lets +onlyGivenNames x; subst x)
    | (with_reducible first
        | assumption | apply Kept.ite | apply State.ampBoot_kept | apply State.ampCauseEnds_kept | apply State.ampOff_kept
        | apply State.ampRelease_kept | apply State.bump_kept | apply State.setAmp_kept | apply State.wr_kept)

theorem execAmpRetry_kept {s₀ : State} (c : Fin 32) {s : State} (hK : Kept s₀ s) : KeptRes s₀ (execAmpRetry c s) := by
  unfold execAmpRetry
  repeat' first
    | (extract_lets +onlyGivenNames x; refine Kept.cut (t := x) ?_ fun _ => ?_; on_goal 1 => subst x; on_goal 2 => clear_value x)
    | (extract_lets +onlyGivenNames x; subst x)
    | (with_reducible first
        | assumption | apply Kept.ite | apply KeptRes.next | apply KeptRes.ite | apply State.ampRetries_kept | apply State.setAmp_kept)

theorem execAmpRetryReset_kept {s₀ : State} (c : Fin 32) {s : State} (hK : Kept s₀ s) : KeptRes s₀ (execAmpRetryReset c s) := by
  unfold execAmpRetryReset
  repeat' first
    | (extract_lets +onlyGivenNames x; refine Kept.cut (t := x) ?_ fun _ => ?_; on_goal 1 => subst x; on_goal 2 => clear_value x)
    | (extract_lets +onlyGivenNames x; subst x)
    | (with_reducible first
        | assumption | apply Kept.ite | apply KeptRes.next | apply KeptRes.ite | apply State.wr_kept)

theorem State.ampClr_kept {s₀ : State} {s : State} (c : Nat) (hK : Kept s₀ s) : Kept s₀ (State.ampClr s c) := by
  unfold State.ampClr
  repeat' first
    | (extract_lets +onlyGivenNames x; refine Kept.cut (t := x) ?_ fun _ => ?_; on_goal 1 => subst x; on_goal 2 => clear_value x)
    | (extract_lets +onlyGivenNames x; subst x)
    | (with_reducible first
        | assumption | apply Kept.ite | apply State.ampCauseEnds_kept | apply State.ampOff_kept | apply State.wr_kept)

theorem execAmpClear_kept {s₀ : State} (c : Fin 32) {s : State} (hK : Kept s₀ s) : KeptRes s₀ (execAmpClear c s) := by
  unfold execAmpClear
  with_reducible repeat' first
    | assumption | apply KeptRes.next | apply State.ampClr_kept

theorem execDrvFltReleaseHoldEnd_kept {s₀ : State} (a : Fin 4) {s : State} (hK :
    Kept s₀ s) : KeptRes s₀ (execDrvFltReleaseHoldEnd a s) := by
  unfold execDrvFltReleaseHoldEnd
  repeat' first
    | (extract_lets +onlyGivenNames x; refine Kept.cut (t := x) ?_ fun _ => ?_; on_goal 1 => subst x; on_goal 2 => clear_value x)
    | (extract_lets +onlyGivenNames x; subst x)
    | (with_reducible first
        | assumption | intro _ | apply Kept.ite | apply KeptRes.next | apply KeptRes.ite | apply State.ampRetries_kept
        | apply State.endCause_kept | apply State.setAmpGroup_kept | apply State.wr_kept | apply Kept.foldl)

theorem State.railFault_kept {s₀ : State} {s : State} (a k : Nat) (hK : Kept s₀ s) : Kept s₀ (State.railFault s a k) := by
  unfold State.railFault
  repeat' first
    | (extract_lets +onlyGivenNames x; refine Kept.cut (t := x) ?_ fun _ => ?_; on_goal 1 => subst x; on_goal 2 => clear_value x)
    | (extract_lets +onlyGivenNames x; subst x)
    | (with_reducible first
        | assumption | intro _ | apply Kept.ite | apply State.ampCauseEnds_kept | apply State.ampEnter_kept | apply State.ampGrpEvent_kept
        | apply State.ampRelease_kept | apply State.report_kept | apply State.wr_kept | apply Kept.foldl)

theorem State.railMeasure_kept {s₀ : State} {s : State} (a : Nat) (bits : List Bool) (hK :
    Kept s₀ s) : Kept s₀ (State.railMeasure s a bits) := by
  unfold State.railMeasure
  repeat' first
    | (extract_lets +onlyGivenNames x; refine Kept.cut (t := x) ?_ fun _ => ?_; on_goal 1 => subst x; on_goal 2 => clear_value x)
    | (extract_lets +onlyGivenNames x; subst x)
    | (with_reducible first
        | assumption | apply State.setAmpGroup_kept | apply State.wr_kept)
    | split

theorem State.railJudge_kept {s₀ : State} {s : State} (a : Nat) (hK : Kept s₀ s) : Kept s₀ (State.railJudge s a) := by
  unfold State.railJudge
  repeat' first
    | (extract_lets +onlyGivenNames x; refine Kept.cut (t := x) ?_ fun _ => ?_; on_goal 1 => subst x; on_goal 2 => clear_value x)
    | (extract_lets +onlyGivenNames x; subst x)
    | (with_reducible first
        | assumption | apply Kept.ite | apply State.railFault_kept | apply State.setAmpGroup_kept)

theorem execRailQualified_kept {s₀ : State} (a : Fin 4) {s : State} (hK : Kept s₀ s) : KeptRes s₀ (execRailQualified a s) := by
  unfold execRailQualified
  repeat' first
    | (extract_lets +onlyGivenNames x; refine Kept.cut (t := x) ?_ fun _ => ?_; on_goal 1 => subst x; on_goal 2 => clear_value x)
    | (extract_lets +onlyGivenNames x; subst x)
    | (with_reducible first
        | assumption | intro _ | apply Kept.ite | apply KeptRes.next | apply KeptRes.ite | apply State.ampEnter_kept
        | apply State.ampGrpEvent_kept | apply State.endCause_kept | apply State.wr_kept | apply Kept.foldl)

theorem State.carrierBegins_kept {s₀ : State} {s : State} (c : Nat) (hK : Kept s₀ s) : Kept s₀ (State.carrierBegins s c) := by
  unfold State.carrierBegins
  repeat' first
    | (extract_lets +onlyGivenNames x; refine Kept.cut (t := x) ?_ fun _ => ?_; on_goal 1 => subst x; on_goal 2 => clear_value x)
    | (extract_lets +onlyGivenNames x; subst x)
    | (with_reducible first
        | assumption | apply Kept.ite | apply State.least_kept | apply State.setAmp_kept | apply State.wr_kept)

theorem State.pwmEdge_kept {s₀ : State} {s : State} (c : Nat) (rising : Bool) (hK : Kept s₀ s) : Kept s₀ (State.pwmEdge s c rising) := by
  unfold State.pwmEdge
  repeat' first
    | (extract_lets +onlyGivenNames x; refine Kept.cut (t := x) ?_ fun _ => ?_; on_goal 1 => subst x; on_goal 2 => clear_value x)
    | (extract_lets +onlyGivenNames x; subst x)
    | (with_reducible first
        | assumption | apply Kept.ite | apply State.emit_kept | apply State.setAmp_kept)

theorem State.carrierStep_kept {s₀ : State} {s : State} (c : Nat) (hK : Kept s₀ s) : Kept s₀ (State.carrierStep s c) := by
  unfold State.carrierStep
  repeat' first
    | (extract_lets +onlyGivenNames x; refine Kept.cut (t := x) ?_ fun _ => ?_; on_goal 1 => subst x; on_goal 2 => clear_value x)
    | (extract_lets +onlyGivenNames x; subst x)
    | (with_reducible first
        | assumption | apply Kept.ite | apply State.carrierBegins_kept | apply State.pwmEdge_kept | apply State.setAmp_kept)

theorem State.calibrates_kept {s₀ : State} {s : State} (c : Nat) (vdec idec duty : Rat) (hK :
    Kept s₀ s) : Kept s₀ (State.calibrates s c vdec idec duty) := by
  unfold State.calibrates
  repeat' first
    | (extract_lets +onlyGivenNames x; refine Kept.cut (t := x) ?_ fun _ => ?_; on_goal 1 => subst x; on_goal 2 => clear_value x)
    | (extract_lets +onlyGivenNames x; subst x)
    | (with_reducible first
        | assumption | intro _ | apply Kept.ite | apply State.setAmp_kept | apply State.setReg_kept)

theorem State.ampLoop_kept {s₀ : State} {s : State} (c : Nat) (hK : Kept s₀ s) : Kept s₀ (State.ampLoop s c) := by
  unfold State.ampLoop
  repeat' first
    | (extract_lets +onlyGivenNames x; refine Kept.cut (t := x) ?_ fun _ => ?_; on_goal 1 => subst x; on_goal 2 => clear_value x)
    | (extract_lets +onlyGivenNames x; subst x)
    | (with_reducible first
        | assumption | apply Kept.ite | apply State.ampEvent_kept | apply State.calibrates_kept | apply State.draw_kept
        | (refine Kept.snd_of_eq (by assumption) ?_; apply State.draw_kept) | apply State.least_kept | apply State.setAmp_kept
        | apply State.setReg_kept | apply State.wr_kept)
    | split

theorem execAmpLoopPeriod_kept {s₀ : State} (c : Fin 32) (rail : List Bool) (drvFlt : Bool) {s : State} (hK :
    Kept s₀ s) : KeptRes s₀ (execAmpLoopPeriod c rail drvFlt s) := by
  unfold execAmpLoopPeriod
  repeat' first
    | (extract_lets +onlyGivenNames x; refine Kept.cut (t := x) ?_ fun _ => ?_; on_goal 1 => subst x; on_goal 2 => clear_value x)
    | (extract_lets +onlyGivenNames x; subst x)
    | (with_reducible first
        | assumption | apply Kept.ite | apply KeptRes.next | apply KeptRes.ite | apply State.ampLoop_kept | apply State.carrierStep_kept
        | apply State.railJudge_kept | apply State.railMeasure_kept | apply State.wr_kept)

theorem State.ampTake_kept {s₀ : State} {s : State} (c : Nat) (x : Sample) (hK : Kept s₀ s) : Kept s₀ (State.ampTake s c x) := by
  unfold State.ampTake
  repeat' first
    | (extract_lets +onlyGivenNames x; refine Kept.cut (t := x) ?_ fun _ => ?_; on_goal 1 => subst x; on_goal 2 => clear_value x)
    | (extract_lets +onlyGivenNames x; subst x)
    | (with_reducible first
        | assumption | apply State.setAmp_kept)

theorem State.estimate_kept {s₀ : State} {s : State} (c : Nat) (est range : Rat) (hK :
    Kept s₀ s) : Kept s₀ (State.estimate s c est range).1 := by
  unfold State.estimate
  repeat' first
    | (extract_lets +onlyGivenNames x; refine Kept.cut (t := x) ?_ fun _ => ?_; on_goal 1 => subst x; on_goal 2 => clear_value x)
    | (extract_lets +onlyGivenNames x; subst x)
    | (with_reducible first
        | assumption | apply Kept.ite | apply State.ampEvent_kept | apply State.report_kept)

theorem execCalibrationWindow_kept {s₀ : State} (c : Fin 32) (vgain : Option (BitVec 24)) {s : State} (hK :
    Kept s₀ s) : KeptRes s₀ (execCalibrationWindow c vgain s) := by
  unfold execCalibrationWindow
  repeat' first
    | (extract_lets +onlyGivenNames x; refine Kept.cut (t := x) ?_ fun _ => ?_; on_goal 1 => subst x; on_goal 2 => clear_value x)
    | (extract_lets +onlyGivenNames x; subst x)
    | (with_reducible first
        | assumption | intro _ | apply Kept.ite | apply KeptRes.next | apply KeptRes.ite | apply State.estimate_kept
        | (refine Kept.fst_of_eq (by assumption) ?_; apply State.estimate_kept) | apply State.setAmp_kept)
    | split

theorem execAmpSafeRelease_kept {s₀ : State} (a : Fin 4) {s : State} (hK : Kept s₀ s) : KeptRes s₀ (execAmpSafeRelease a s) := by
  unfold execAmpSafeRelease
  with_reducible repeat' first
    | assumption | apply KeptRes.next | apply State.ampUnsafe_kept

theorem State.setDmc_kept {s₀ : State} {s : State} (d : Dmc) (hK : Kept s₀ s) : Kept s₀ (State.setDmc s d) := by
  unfold State.setDmc
  with_reducible repeat' first
    | assumption | fail_if_no_progress (apply Kept.upd)

theorem State.dmcFault_kept {s₀ : State} {s : State} (f : FieldAt) (level : Nat) (hK : Kept s₀ s) : Kept s₀ (State.dmcFault s f level) := by
  unfold State.dmcFault
  with_reducible repeat' first
    | assumption | apply State.raise_kept | apply State.report_kept

theorem State.dmcEnqueue_kept {s₀ : State} {s : State} (es : List DramEntry) (hK : Kept s₀ s) : Kept s₀ (State.dmcEnqueue s es) := by
  unfold State.dmcEnqueue
  repeat' first
    | (extract_lets +onlyGivenNames x; refine Kept.cut (t := x) ?_ fun _ => ?_; on_goal 1 => subst x; on_goal 2 => clear_value x)
    | (extract_lets +onlyGivenNames x; subst x)
    | (with_reducible first
        | assumption | intro _ | apply State.setDmc_kept)
    | split

theorem State.dmcAccess_kept {s₀ : State} {s : State} (write : Bool) (off len : Nat) (hK :
    Kept s₀ s) : Kept s₀ (State.dmcAccess s write off len) := by
  unfold State.dmcAccess
  with_reducible repeat' first
    | assumption | intro _ | apply State.dmcEnqueue_kept

theorem State.setDline_kept {s₀ : State} {s : State} (l : Nat) (x : Option DLine) (hK : Kept s₀ s) : Kept s₀ (State.setDline s l x) := by
  unfold State.setDline
  with_reducible repeat' first
    | assumption | intro _ | apply State.setDmc_kept

theorem State.rtLost_kept {s₀ : State} {s : State} (l : Nat) (out : Bool) (hK : Kept s₀ s) : Kept s₀ (State.rtLost s l out) := by
  unfold State.rtLost
  with_reducible repeat' first
    | assumption | apply State.overrun_kept

theorem State.rtLostWrite_kept {s₀ : State} {s : State} (l first : Nat) (hK : Kept s₀ s) : Kept s₀ (State.rtLostWrite s l first) := by
  unfold State.rtLostWrite
  repeat' first
    | (extract_lets +onlyGivenNames x; refine Kept.cut (t := x) ?_ fun _ => ?_; on_goal 1 => subst x; on_goal 2 => clear_value x)
    | (extract_lets +onlyGivenNames x; subst x)
    | (with_reducible first
        | assumption | apply Kept.ite | apply State.rtLost_kept | apply State.setDline_kept | apply State.setDmc_kept)
    | split

theorem State.dlineWrite_kept {s₀ : State} {s : State} (l first : Nat) (words : List Sample) (hK :
    Kept s₀ s) : Kept s₀ (State.dlineWrite s l first words) := by
  unfold State.dlineWrite
  repeat' first
    | (extract_lets +onlyGivenNames x; refine Kept.cut (t := x) ?_ fun _ => ?_; on_goal 1 => subst x; on_goal 2 => clear_value x)
    | (extract_lets +onlyGivenNames x; subst x)
    | (with_reducible first
        | assumption | intro _ | apply Kept.ite | apply State.dmcEnqueue_kept | apply State.rtLostWrite_kept | apply State.setDline_kept
        | apply Kept.foldl)
    | split

theorem State.dlineFetch_kept {s₀ : State} {s : State} (l k : Nat) (hK : Kept s₀ s) : Kept s₀ (State.dlineFetch s l k) := by
  unfold State.dlineFetch
  repeat' first
    | (extract_lets +onlyGivenNames x; refine Kept.cut (t := x) ?_ fun _ => ?_; on_goal 1 => subst x; on_goal 2 => clear_value x)
    | (extract_lets +onlyGivenNames x; subst x)
    | (with_reducible first
        | assumption | intro _ | apply Kept.ite | apply State.dmcEnqueue_kept)
    | split

theorem State.dlineRead_kept {s₀ : State} {s : State} (l k : Nat) (hK : Kept s₀ s) : Kept s₀ (State.dlineRead s l k).2 := by
  unfold State.dlineRead
  repeat' first
    | (extract_lets +onlyGivenNames x; refine Kept.cut (t := x) ?_ fun _ => ?_; on_goal 1 => subst x; on_goal 2 => clear_value x)
    | (extract_lets +onlyGivenNames x; subst x)
    | (with_reducible first
        | assumption | intro _ | apply Kept.ite | apply State.rtLost_kept | apply State.setDmc_kept)
    | split

theorem State.zeroRing_kept {s₀ : State} {s : State} (l block : Nat) (hK : Kept s₀ s) : Kept s₀ (State.zeroRing s l block) := by
  unfold State.zeroRing
  repeat' first
    | (with_reducible first
        | assumption | intro _ | apply State.setDline_kept)
    | split

theorem State.dramFound_kept {s₀ : State} {s : State} (e : DramEntry) (found : Nat) (hK :
    Kept s₀ s) : Kept s₀ (State.dramFound s e found) := by
  unfold State.dramFound
  repeat' first
    | (extract_lets +onlyGivenNames x; refine Kept.cut (t := x) ?_ fun _ => ?_; on_goal 1 => subst x; on_goal 2 => clear_value x)
    | (extract_lets +onlyGivenNames x; subst x)
    | (with_reducible first
        | assumption | intro _ | apply Kept.ite | apply State.bump_kept | apply State.dataError_kept | apply State.dmcEnqueue_kept
        | apply State.dmcFault_kept | apply State.setDmc_kept | apply State.setWide_kept | apply State.zeroRing_kept
        | fail_if_no_progress (apply Kept.upd))
    | split

theorem execDramRequest_kept {s₀ : State} (busy : List Nat) (found : Fin 3) {s : State} (hK :
    Kept s₀ s) : KeptRes s₀ (execDramRequest busy found s) := by
  unfold execDramRequest
  repeat' first
    | (extract_lets +onlyGivenNames x; refine Kept.cut (t := x) ?_ fun _ => ?_; on_goal 1 => subst x; on_goal 2 => clear_value x)
    | (extract_lets +onlyGivenNames x; subst x)
    | (with_reducible first
        | assumption | intro _ | apply Kept.ite | apply KeptRes.next | apply KeptRes.ite | apply State.dramFound_kept
        | apply State.least_kept | apply State.setDmc_kept | apply State.wr_kept)
    | split

theorem execRtPanicEntry_kept {s₀ : State} {s : State} (hK : Kept s₀ s) : KeptRes s₀ (execRtPanicEntry s) := by
  unfold execRtPanicEntry
  with_reducible repeat' first
    | assumption | apply Kept.ite | apply KeptRes.next | apply KeptRes.ite | apply State.bump_kept | apply State.raise_kept
    | apply State.wr_kept

theorem execRtBargeLost_kept {s₀ : State} (line tick : Nat) (write : Bool) {s : State} (hK :
    Kept s₀ s) : KeptRes s₀ (execRtBargeLost line tick write s) := by
  unfold execRtBargeLost
  repeat' first
    | (extract_lets +onlyGivenNames x; refine Kept.cut (t := x) ?_ fun _ => ?_; on_goal 1 => subst x; on_goal 2 => clear_value x)
    | (extract_lets +onlyGivenNames x; subst x)
    | (with_reducible first
        | assumption | intro _ | apply Kept.ite | apply KeptRes.next | apply KeptRes.ite | apply State.consume_kept
        | apply State.rtLostWrite_kept | apply State.setDmc_kept)
    | split

theorem State.setDebt_kept {s₀ : State} {s : State} (bank : Nat) (v : Int) (hK : Kept s₀ s) : Kept s₀ (State.setDebt s bank v) := by
  unfold State.setDebt
  with_reducible repeat' first
    | assumption | intro _ | apply State.setDmc_kept

theorem State.noteDebt_kept {s₀ : State} {s : State} (hK : Kept s₀ s) : Kept s₀ (State.noteDebt s) := by
  unfold State.noteDebt
  with_reducible repeat' first
    | assumption | intro _ | apply State.wr_kept | apply Kept.foldl

theorem State.issueRefresh_kept {s₀ : State} {s : State} (bank : Nat) (hK : Kept s₀ s) : Kept s₀ (State.issueRefresh s bank) := by
  unfold State.issueRefresh
  repeat' first
    | (extract_lets +onlyGivenNames x; refine Kept.cut (t := x) ?_ fun _ => ?_; on_goal 1 => subst x; on_goal 2 => clear_value x)
    | (extract_lets +onlyGivenNames x; subst x)
    | (with_reducible first
        | assumption | apply Kept.ite | apply State.setDebt_kept | apply State.setDmc_kept)

theorem execDramRefresh_kept {s₀ : State} (bank : Nat) (due : Bool) {s : State} (hK :
    Kept s₀ s) : KeptRes s₀ (execDramRefresh bank due s) := by
  unfold execDramRefresh
  repeat' first
    | (extract_lets +onlyGivenNames x; refine Kept.cut (t := x) ?_ fun _ => ?_; on_goal 1 => subst x; on_goal 2 => clear_value x)
    | (extract_lets +onlyGivenNames x; subst x)
    | (with_reducible first
        | assumption | intro _ | apply Kept.ite | apply KeptRes.next | apply KeptRes.ite | apply State.issueRefresh_kept
        | apply State.noteDebt_kept | apply State.raise_kept | apply State.setDebt_kept)

theorem execMr4Read_kept {s₀ : State} (code : Byte) (hot : Bool) {s : State} (hK : Kept s₀ s) : KeptRes s₀ (execMr4Read code hot s) := by
  unfold execMr4Read
  repeat' first
    | (extract_lets +onlyGivenNames x; refine Kept.cut (t := x) ?_ fun _ => ?_; on_goal 1 => subst x; on_goal 2 => clear_value x)
    | (extract_lets +onlyGivenNames x; subst x)
    | (with_reducible first
        | assumption | apply Kept.ite | apply KeptRes.next | apply KeptRes.ite | apply State.dmcFault_kept | apply State.endCause_kept
        | apply State.wr_kept)

theorem State.beginRetrain_kept {s₀ : State} {s : State} (mask : Nat) (hK : Kept s₀ s) : Kept s₀ (State.beginRetrain s mask) := by
  unfold State.beginRetrain
  with_reducible repeat' first
    | assumption | apply Kept.ite | apply State.weirRequest_kept | apply State.wr_kept

theorem execDriftMeasurement_kept {s₀ : State} (drift : Word) {s : State} (hK : Kept s₀ s) : KeptRes s₀ (execDriftMeasurement drift s) := by
  unfold execDriftMeasurement
  repeat' first
    | (extract_lets +onlyGivenNames x; refine Kept.cut (t := x) ?_ fun _ => ?_; on_goal 1 => subst x; on_goal 2 => clear_value x)
    | (extract_lets +onlyGivenNames x; subst x)
    | (with_reducible first
        | assumption | intro _ | apply Kept.ite | apply KeptRes.next | apply KeptRes.ite | apply State.beginRetrain_kept
        | apply State.raise_kept | apply State.setReg_kept | apply Kept.foldl)

theorem execRetrainStart_kept {s₀ : State} {s : State} (hK : Kept s₀ s) : KeptRes s₀ (execRetrainStart s) := by
  unfold execRetrainStart
  with_reducible repeat' first
    | assumption | apply KeptRes.next | apply State.beginRetrain_kept

theorem State.retrainLeaveGranted_kept {s₀ : State} {s : State} (hK : Kept s₀ s) : Kept s₀ (State.retrainLeaveGranted s) := by
  unfold State.retrainLeaveGranted
  with_reducible repeat' first
    | assumption | apply Kept.ite | apply State.weirReturn_kept | apply State.wr_kept

theorem execRetrainSlice_kept {s₀ : State} (lane : Fin 4) (narrow : Bool) {s : State} (hK :
    Kept s₀ s) : KeptRes s₀ (execRetrainSlice lane narrow s) := by
  unfold execRetrainSlice
  repeat' first
    | (extract_lets +onlyGivenNames x; refine Kept.cut (t := x) ?_ fun _ => ?_; on_goal 1 => subst x; on_goal 2 => clear_value x)
    | (extract_lets +onlyGivenNames x; subst x)
    | (with_reducible first
        | assumption | intro _ | apply Kept.ite | apply KeptRes.next | apply KeptRes.ite | apply State.dmcFault_kept
        | apply State.setDmc_kept | apply State.wr_kept)

theorem execRetrainDone_kept {s₀ : State} {s : State} (hK : Kept s₀ s) : KeptRes s₀ (execRetrainDone s) := by
  unfold execRetrainDone
  with_reducible repeat' first
    | assumption | apply Kept.ite | apply KeptRes.next | apply KeptRes.ite | apply State.raise_kept | apply State.weirReturn_kept
    | apply State.wr_kept

theorem State.setBasin_kept {s₀ : State} {s : State} (b : Basin) (hK : Kept s₀ s) : Kept s₀ (State.setBasin s b) := by
  unfold State.setBasin
  with_reducible repeat' first
    | assumption | fail_if_no_progress (apply Kept.upd)

theorem State.setGains_kept {s₀ : State} {s : State} (g : Gains) (hK : Kept s₀ s) : Kept s₀ (State.setGains s g) := by
  unfold State.setGains
  with_reducible repeat' first
    | assumption | apply State.setBasin_kept | apply State.wr_kept

theorem State.basinBoundary_kept {s₀ : State} {s : State} (x : Nat) (hK : Kept s₀ s) : Kept s₀ (State.basinBoundary s x) := by
  unfold State.basinBoundary
  with_reducible repeat' first
    | assumption | apply Kept.ite | apply State.setBasin_kept

theorem State.basinStarts_kept {s₀ : State} {s : State} (hK : Kept s₀ s) : Kept s₀ (State.basinStarts s) := by
  unfold State.basinStarts
  with_reducible repeat' first
    | assumption | apply State.setBasin_kept

theorem State.basinRenumber_kept {s₀ : State} {s : State} (x : Nat) (d : Int) (hK : Kept s₀ s) : Kept s₀ (State.basinRenumber s x d) := by
  unfold State.basinRenumber
  with_reducible repeat' first
    | assumption | apply Kept.ite | apply State.setBasin_kept

theorem State.addInput_kept {s₀ : State} {s : State} (i : Nat) (x : List Sample) (fadeIn : Bool) (hK :
    Kept s₀ s) : Kept s₀ (State.addInput s i x fadeIn) := by
  unfold State.addInput
  repeat' first
    | (extract_lets +onlyGivenNames x; refine Kept.cut (t := x) ?_ fun _ => ?_; on_goal 1 => subst x; on_goal 2 => clear_value x)
    | (extract_lets +onlyGivenNames x; subst x)
    | (with_reducible first
        | assumption | intro _ | apply Kept.ite | apply State.setBasin_kept | apply Kept.foldl)

theorem State.bankEccEvent_kept {s₀ : State} {s : State} (y0 : Ecc) (hK : Kept s₀ s) : Kept s₀ (State.bankEccEvent s y0) := by
  unfold State.bankEccEvent
  repeat' first
    | (with_reducible first
        | assumption | intro _ | apply State.bump_kept | apply State.raise_kept | apply State.report_kept)
    | split

theorem State.bankEcc_kept {s₀ : State} {s : State} (node : Nat) (y0 : Ecc) (hK : Kept s₀ s) : Kept s₀ (State.bankEcc s node y0) := by
  unfold State.bankEcc
  repeat' first
    | (extract_lets +onlyGivenNames x; refine Kept.cut (t := x) ?_ fun _ => ?_; on_goal 1 => subst x; on_goal 2 => clear_value x)
    | (extract_lets +onlyGivenNames x; subst x)
    | (with_reducible first
        | assumption | intro _ | apply Kept.ite | apply State.bankEccEvent_kept | apply State.setBasin_kept)
    | split

theorem execBasinGroupProcess_kept {s₀ : State} (group : Nat) (ecc : List (Nat × Ecc)) {s : State} (hK :
    Kept s₀ s) : KeptRes s₀ (execBasinGroupProcess group ecc s) := by
  unfold execBasinGroupProcess
  repeat' first
    | (extract_lets +onlyGivenNames x; refine Kept.cut (t := x) ?_ fun _ => ?_; on_goal 1 => subst x; on_goal 2 => clear_value x)
    | (extract_lets +onlyGivenNames x; subst x)
    | (with_reducible first
        | assumption | intro _ | apply Kept.ite | apply KeptRes.next | apply KeptRes.ite | apply State.addInput_kept
        | apply State.bankEcc_kept | apply State.consume_kept | apply State.setBasin_kept | apply Kept.foldl)
    | split

theorem execBasinDeadline_kept {s₀ : State} {s : State} (hK : Kept s₀ s) : KeptRes s₀ (execBasinDeadline s) := by
  unfold execBasinDeadline
  repeat' first
    | (extract_lets +onlyGivenNames x; refine Kept.cut (t := x) ?_ fun _ => ?_; on_goal 1 => subst x; on_goal 2 => clear_value x)
    | (extract_lets +onlyGivenNames x; subst x)
    | (with_reducible first
        | assumption | intro _ | apply Kept.ite | apply KeptRes.next | apply KeptRes.ite | apply State.overrun_kept
        | apply State.setBasin_kept | apply State.setLock_kept | apply Kept.foldl)
    | (with_reducible first
         | exact Nat.min_le_left _ _
         | exact Nat.le_refl _
         | refine State.lock_bounded (by assumption) (by assumption) ?_
         | refine (Nat.sub_le _ _).trans (State.lock_bounded (by assumption) (by assumption) ?_))
    | (with_reducible show (_ : Nat) ≤ _; dsimp only)
    | split

theorem execBasinPhaseEnd_kept {s₀ : State} {s : State} (hK : Kept s₀ s) : KeptRes s₀ (execBasinPhaseEnd s) := by
  unfold execBasinPhaseEnd
  repeat' first
    | (extract_lets +onlyGivenNames x; refine Kept.cut (t := x) ?_ fun _ => ?_; on_goal 1 => subst x; on_goal 2 => clear_value x)
    | (extract_lets +onlyGivenNames x; subst x)
    | (with_reducible first
        | assumption | intro _ | apply Kept.ite | apply KeptRes.next | apply KeptRes.ite | apply State.bump_kept | apply State.commit_kept
        | apply State.overrun_kept | apply State.raise_kept | apply State.setBasin_kept | apply Kept.foldl)
    | split

theorem State.putGain_kept {s₀ : State} {s : State} (b node : Nat) (v : Sample) (hK : Kept s₀ s) : Kept s₀ (State.putGain s b node v) := by
  unfold State.putGain
  repeat' first
    | (extract_lets +onlyGivenNames x; refine Kept.cut (t := x) ?_ fun _ => ?_; on_goal 1 => subst x; on_goal 2 => clear_value x)
    | (extract_lets +onlyGivenNames x; subst x)
    | (with_reducible first
        | assumption | apply Kept.ite | apply State.setBasin_kept)

theorem State.copyReaches_kept {s₀ : State} {s : State} (nodes : List Nat) (hK : Kept s₀ s) : Kept s₀ (State.copyReaches s nodes) := by
  unfold State.copyReaches
  repeat' first
    | (extract_lets +onlyGivenNames x; refine Kept.cut (t := x) ?_ fun _ => ?_; on_goal 1 => subst x; on_goal 2 => clear_value x)
    | (extract_lets +onlyGivenNames x; subst x)
    | (with_reducible first
        | assumption | intro _ | apply Kept.ite | apply State.putGain_kept | apply Kept.foldl)

theorem State.bankWrite_kept {s₀ : State} {s : State} (m o : Nat) (v : Word) (hK : Kept s₀ s) : Kept s₀ (State.bankWrite s m o v) := by
  unfold State.bankWrite
  repeat' first
    | (extract_lets +onlyGivenNames x; refine Kept.cut (t := x) ?_ fun _ => ?_; on_goal 1 => subst x; on_goal 2 => clear_value x)
    | (extract_lets +onlyGivenNames x; subst x)
    | (with_reducible first
        | assumption | apply Kept.ite | apply State.answer_kept | apply State.defaultTarget_kept | apply State.putGain_kept
        | apply State.raise_kept)

theorem execBankWindowAccess_kept {s₀ : State} (m : MasterIx) (offset : BitVec 23) (bytes : Nat) (write : Option Word) (ecc : Ecc) (reached : Bool) {s : State} (hK :
    Kept s₀ s) : KeptRes s₀ (execBankWindowAccess m offset bytes write ecc reached s) := by
  unfold execBankWindowAccess
  repeat' first
    | (extract_lets +onlyGivenNames x; refine Kept.cut (t := x) ?_ fun _ => ?_; on_goal 1 => subst x; on_goal 2 => clear_value x)
    | (extract_lets +onlyGivenNames x; subst x)
    | (with_reducible first
        | assumption | apply Kept.ite | apply KeptRes.next | apply KeptRes.ite | apply State.answer_kept | apply State.bankEccEvent_kept
        | apply State.bankWrite_kept | apply State.copyReaches_kept | apply State.dataError_kept | apply State.defaultTarget_kept)
    | split

theorem State.requestCopy_kept {s₀ : State} {s : State} (hK : Kept s₀ s) : Kept s₀ (State.requestCopy s) := by
  unfold State.requestCopy
  with_reducible repeat' first
    | assumption | apply Kept.ite | apply State.setBasin_kept | apply State.wr_kept

theorem execBankCopyRequest_kept {s₀ : State} {s : State} (hK : Kept s₀ s) : KeptRes s₀ (execBankCopyRequest s) := by
  unfold execBankCopyRequest
  with_reducible repeat' first
    | assumption | apply KeptRes.next | apply State.requestCopy_kept

theorem execBankCopyEnd_kept {s₀ : State} {s : State} (hK : Kept s₀ s) : KeptRes s₀ (execBankCopyEnd s) := by
  unfold execBankCopyEnd
  repeat' first
    | (extract_lets +onlyGivenNames x; refine Kept.cut (t := x) ?_ fun _ => ?_; on_goal 1 => subst x; on_goal 2 => clear_value x)
    | (extract_lets +onlyGivenNames x; subst x)
    | (with_reducible first
        | assumption | intro _ | apply Kept.ite | apply KeptRes.next | apply KeptRes.ite | apply State.setBasin_kept
        | apply State.setGains_kept | apply State.wr_kept)

theorem State.freeRamps_kept {s₀ : State} {s : State} (hK : Kept s₀ s) : Kept s₀ (State.freeRamps s) := by
  unfold State.freeRamps
  with_reducible repeat' first
    | assumption | intro _ | apply State.setGains_kept

theorem State.requestTake_kept {s₀ : State} {s : State} (hK : Kept s₀ s) : Kept s₀ (State.requestTake s) := by
  unfold State.requestTake
  repeat' first
    | (extract_lets +onlyGivenNames x; refine Kept.cut (t := x) ?_ fun _ => ?_; on_goal 1 => subst x; on_goal 2 => clear_value x)
    | (extract_lets +onlyGivenNames x; subst x)
    | (with_reducible first
        | assumption | apply Kept.ite | apply State.setBasin_kept | apply State.wr_kept)

theorem execSceneTakeRequest_kept {s₀ : State} (atEn : Bool) {s : State} (hK : Kept s₀ s) : KeptRes s₀ (execSceneTakeRequest atEn s) := by
  unfold execSceneTakeRequest
  with_reducible repeat' first
    | assumption | apply KeptRes.next | apply State.hw_kept | apply State.requestTake_kept

theorem State.dropTake_kept {s₀ : State} {s : State} (hK : Kept s₀ s) : Kept s₀ (State.dropTake s) := by
  unfold State.dropTake
  with_reducible repeat' first
    | assumption | apply State.setBasin_kept | apply State.wr_kept

theorem State.sceneTake_kept {s₀ : State} {s : State} (n : Nat) (hK : Kept s₀ s) : Kept s₀ (State.sceneTake s n) := by
  unfold State.sceneTake
  repeat' first
    | (extract_lets +onlyGivenNames x; refine Kept.cut (t := x) ?_ fun _ => ?_; on_goal 1 => subst x; on_goal 2 => clear_value x)
    | (extract_lets +onlyGivenNames x; subst x)
    | (with_reducible first
        | assumption | intro _ | apply State.freeRamps_kept | apply State.raise_kept | apply State.setGains_kept
        | apply State.setWide_kept)

theorem execSceneTake_kept {s₀ : State} {s : State} (hK : Kept s₀ s) : KeptRes s₀ (execSceneTake s) := by
  unfold execSceneTake
  repeat' first
    | (with_reducible first
        | assumption | intro _ | apply Kept.ite | apply KeptRes.next | apply KeptRes.ite | apply State.dropTake_kept
        | apply State.sceneTake_kept)
    | split

theorem execSceneTakeLate_kept {s₀ : State} {s : State} (hK : Kept s₀ s) : KeptRes s₀ (execSceneTakeLate s) := by
  unfold execSceneTakeLate
  repeat' first
    | (extract_lets +onlyGivenNames x; refine Kept.cut (t := x) ?_ fun _ => ?_; on_goal 1 => subst x; on_goal 2 => clear_value x)
    | (extract_lets +onlyGivenNames x; subst x)
    | (with_reducible first
        | assumption | apply Kept.ite | apply KeptRes.next | apply KeptRes.ite | apply State.dropTake_kept | apply State.raise_kept)
    | split

theorem execCrossfadeEnd_kept {s₀ : State} {s : State} (hK : Kept s₀ s) : KeptRes s₀ (execCrossfadeEnd s) := by
  unfold execCrossfadeEnd
  repeat' first
    | (extract_lets +onlyGivenNames x; refine Kept.cut (t := x) ?_ fun _ => ?_; on_goal 1 => subst x; on_goal 2 => clear_value x)
    | (extract_lets +onlyGivenNames x; subst x)
    | (with_reducible first
        | assumption | intro _ | apply Kept.ite | apply KeptRes.next | apply KeptRes.ite | apply State.raise_kept
        | apply State.setGains_kept)

theorem State.rqStatus_kept {s₀ : State} {s : State} (hK : Kept s₀ s) : Kept s₀ (State.rqStatus s) := by
  unfold State.rqStatus
  with_reducible repeat' first
    | assumption | apply State.wr_kept

theorem State.pushRamp_kept {s₀ : State} {s : State} (len : Nat) (gang : Bool) (hK : Kept s₀ s) : Kept s₀ (State.pushRamp s len gang) := by
  unfold State.pushRamp
  repeat' first
    | (extract_lets +onlyGivenNames x; refine Kept.cut (t := x) ?_ fun _ => ?_; on_goal 1 => subst x; on_goal 2 => clear_value x)
    | (extract_lets +onlyGivenNames x; subst x)
    | (with_reducible first
        | assumption | apply Kept.ite | apply State.raise_kept | apply State.rqStatus_kept | apply State.setBasin_kept)

theorem execRampPush_kept {s₀ : State} (length : BitVec 16) (gang : Bool) {s : State} (hK :
    Kept s₀ s) : KeptRes s₀ (execRampPush length gang s) := by
  unfold execRampPush
  with_reducible repeat' first
    | assumption | apply KeptRes.next | apply State.pushRamp_kept

theorem State.startRamp_kept {s₀ : State} {s : State} (c : RampCmd) (hK : Kept s₀ s) : Kept s₀ (State.startRamp s c) := by
  unfold State.startRamp
  repeat' first
    | (extract_lets +onlyGivenNames x; refine Kept.cut (t := x) ?_ fun _ => ?_; on_goal 1 => subst x; on_goal 2 => clear_value x)
    | (extract_lets +onlyGivenNames x; subst x)
    | (with_reducible first
        | assumption | intro _ | apply Kept.ite | apply State.setGains_kept)

theorem State.startRamps_kept {s₀ : State} {s : State} (recent : Bool) (y0 : Nat) (hK :
    Kept s₀ s) : Kept s₀ (State.startRamps s recent y0) := by
  induction y0 generalizing s with
  | zero => exact hK
  | succ n ih =>
    unfold State.startRamps
    repeat' first
      | with_reducible assumption
      | with_reducible intro _
      | with_reducible apply Kept.ite
      | with_reducible apply ih
      | with_reducible apply Kept.foldl
      | with_reducible apply State.startRamp_kept
      | with_reducible apply State.setBasin_kept
      | with_reducible apply State.raise_kept
      | split

theorem execRampStart_kept {s₀ : State} (recent : Bool) (reached : List Nat) {s : State} (hK :
    Kept s₀ s) : KeptRes s₀ (execRampStart recent reached s) := by
  unfold execRampStart
  repeat' first
    | (extract_lets +onlyGivenNames x; refine Kept.cut (t := x) ?_ fun _ => ?_; on_goal 1 => subst x; on_goal 2 => clear_value x)
    | (extract_lets +onlyGivenNames x; subst x)
    | (with_reducible first
        | assumption | apply Kept.ite | apply KeptRes.next | apply KeptRes.ite | apply State.copyReaches_kept | apply State.freeRamps_kept
        | apply State.rqStatus_kept | apply State.startRamps_kept)

theorem execRampEnd_kept {s₀ : State} {s : State} (hK : Kept s₀ s) : KeptRes s₀ (execRampEnd s) := by
  unfold execRampEnd
  with_reducible repeat' first
    | assumption | apply Kept.ite | apply KeptRes.next | apply KeptRes.ite | apply State.freeRamps_kept

theorem State.setRouter_kept {s₀ : State} {s : State} (r : Router) (hK : Kept s₀ s) : Kept s₀ (State.setRouter s r) := by
  unfold State.setRouter
  with_reducible repeat' first
    | assumption | fail_if_no_progress (apply Kept.upd)

theorem State.retireSource_kept {s₀ : State} {s : State} (l : Nat) (hK : Kept s₀ s) : Kept s₀ (State.retireSource s l) := by
  unfold State.retireSource
  repeat' first
    | (extract_lets +onlyGivenNames x; refine Kept.cut (t := x) ?_ fun _ => ?_; on_goal 1 => subst x; on_goal 2 => clear_value x)
    | (extract_lets +onlyGivenNames x; subst x)
    | (with_reducible first
        | assumption | intro _ | apply Kept.ite | apply State.consume_kept | apply State.setRouter_kept | apply Kept.foldl)
    | split

theorem State.retireSources_kept {s₀ : State} {s : State} (hK : Kept s₀ s) : Kept s₀ (State.retireSources s) := by
  unfold State.retireSources
  with_reducible repeat' first
    | assumption | intro _ | apply State.retireSource_kept | apply Kept.foldl

theorem State.routeEcc_kept {s₀ : State} {s : State} (d : Nat) (y0 : Ecc) (hK : Kept s₀ s) : Kept s₀ (State.routeEcc s d y0) := by
  unfold State.routeEcc
  repeat' first
    | (extract_lets +onlyGivenNames x; refine Kept.cut (t := x) ?_ fun _ => ?_; on_goal 1 => subst x; on_goal 2 => clear_value x)
    | (extract_lets +onlyGivenNames x; subst x)
    | (with_reducible first
        | assumption | intro _ | apply State.bump_kept | apply State.raise_kept | apply State.report_kept | apply State.setRouter_kept)
    | split

theorem State.hopCommit_kept {s₀ : State} {s : State} (h : HopSpec) (k : Nat) (hK : Kept s₀ s) : Kept s₀ (State.hopCommit s h k) := by
  unfold State.hopCommit
  repeat' first
    | (extract_lets +onlyGivenNames x; refine Kept.cut (t := x) ?_ fun _ => ?_; on_goal 1 => subst x; on_goal 2 => clear_value x)
    | (extract_lets +onlyGivenNames x; subst x)
    | (with_reducible first
        | assumption | intro _ | apply Kept.ite | apply State.commit_kept | apply State.overrun_kept | apply State.retireSources_kept
        | apply State.setRouter_kept)
    | split

theorem execRouterHop_kept {s₀ : State} (lock : Nat) (ecc : List (Nat × Ecc)) {s : State} (hK :
    Kept s₀ s) : KeptRes s₀ (execRouterHop lock ecc s) := by
  unfold execRouterHop
  repeat' first
    | (extract_lets +onlyGivenNames x; refine Kept.cut (t := x) ?_ fun _ => ?_; on_goal 1 => subst x; on_goal 2 => clear_value x)
    | (extract_lets +onlyGivenNames x; subst x)
    | (with_reducible first
        | assumption | intro _ | apply Kept.ite | apply KeptRes.next | apply KeptRes.ite | apply State.hopCommit_kept
        | apply State.routeEcc_kept | apply Kept.foldl)
    | split

theorem execRouterDeadline_kept {s₀ : State} (lock : Nat) {s : State} (hK : Kept s₀ s) : KeptRes s₀ (execRouterDeadline lock s) := by
  unfold execRouterDeadline
  repeat' first
    | (extract_lets +onlyGivenNames x; refine Kept.cut (t := x) ?_ fun _ => ?_; on_goal 1 => subst x; on_goal 2 => clear_value x)
    | (extract_lets +onlyGivenNames x; subst x)
    | (with_reducible first
        | assumption | intro _ | apply Kept.ite | apply KeptRes.next | apply KeptRes.ite | apply State.overrun_kept
        | apply State.setRouter_kept | apply Kept.foldl)
    | split

theorem State.writeRoute_kept {s₀ : State} {s : State} (d : Nat) (v : Word) (hK : Kept s₀ s) : Kept s₀ (State.writeRoute s d v) := by
  unfold State.writeRoute
  repeat' first
    | (extract_lets +onlyGivenNames x; refine Kept.cut (t := x) ?_ fun _ => ?_; on_goal 1 => subst x; on_goal 2 => clear_value x)
    | (extract_lets +onlyGivenNames x; subst x)
    | (with_reducible first
        | assumption | apply State.raise_kept | apply State.setReg_kept | apply State.setRouter_kept | apply State.setShWaits_kept
        | apply State.soften_kept | apply State.wr_kept)
    | split

theorem execRouteWrite_kept {s₀ : State} (d : BitVec 13) (value : Word) {s : State} (hK :
    Kept s₀ s) : KeptRes s₀ (execRouteWrite d value s) := by
  unfold execRouteWrite
  with_reducible repeat' first
    | assumption | apply KeptRes.next | apply State.answer_kept | apply State.writeRoute_kept

theorem State.routeSettles_kept {s₀ : State} {s : State} (d : Nat) (hK : Kept s₀ s) : Kept s₀ (State.routeSettles s d) := by
  unfold State.routeSettles
  repeat' first
    | (extract_lets +onlyGivenNames x; refine Kept.cut (t := x) ?_ fun _ => ?_; on_goal 1 => subst x; on_goal 2 => clear_value x)
    | (extract_lets +onlyGivenNames x; subst x)
    | (with_reducible first
        | assumption | intro _ | apply Kept.ite | apply State.setRouter_kept | apply State.settle_kept | apply State.wr_kept)
    | split

theorem execRouteTakesEffect_kept {s₀ : State} (d : BitVec 13) {s : State} (hK : Kept s₀ s) : KeptRes s₀ (execRouteTakesEffect d s) := by
  unfold execRouteTakesEffect
  repeat' first
    | (extract_lets +onlyGivenNames x; refine Kept.cut (t := x) ?_ fun _ => ?_; on_goal 1 => subst x; on_goal 2 => clear_value x)
    | (extract_lets +onlyGivenNames x; subst x)
    | (with_reducible first
        | assumption | apply Kept.ite | apply KeptRes.next | apply KeptRes.ite | apply State.raise_kept | apply State.routeSettles_kept
        | apply State.setShWaits_kept | apply State.wr_kept)
    | split

theorem execRouterHoldRelease_kept {s₀ : State} {s : State} (hK : Kept s₀ s) : KeptRes s₀ (execRouterHoldRelease s) := by
  unfold execRouterHoldRelease
  with_reducible repeat' first
    | assumption | apply KeptRes.next | apply State.answer_kept | apply State.hw_kept

theorem State.setEng_kept {s₀ : State} {s : State} (n : Nat) (e : Engine) (hK : Kept s₀ s) : Kept s₀ (State.setEng s n e) := by
  unfold State.setEng
  with_reducible repeat' first
    | assumption | intro _ | fail_if_no_progress (apply Kept.upd)

theorem State.setEngState_kept {s₀ : State} {s : State} (n k : Nat) (hK : Kept s₀ s) : Kept s₀ (State.setEngState s n k) := by
  unfold State.setEngState
  with_reducible repeat' first
    | assumption | apply State.wr_kept

theorem State.engFault_kept {s₀ : State} {s : State} (n code level : Nat) (hK : Kept s₀ s) : Kept s₀ (State.engFault s n code level) := by
  unfold State.engFault
  with_reducible repeat' first
    | assumption | apply State.raise_kept | apply State.report_kept

theorem State.engEcc_kept {s₀ : State} {s : State} (n : Nat) (y0 : Ecc) (hK : Kept s₀ s) : Kept s₀ (State.engEcc s n y0) := by
  unfold State.engEcc
  repeat' first
    | (extract_lets +onlyGivenNames x; refine Kept.cut (t := x) ?_ fun _ => ?_; on_goal 1 => subst x; on_goal 2 => clear_value x)
    | (extract_lets +onlyGivenNames x; subst x)
    | (with_reducible first
        | assumption | intro _ | apply State.bump_kept | apply State.engFault_kept | apply State.setEng_kept)
    | split

theorem State.setProgWord_kept {s₀ : State} {s : State} (n i : Nat) (w : BitVec 48) (hK :
    Kept s₀ s) : Kept s₀ (State.setProgWord s n i w) := by
  unfold State.setProgWord
  with_reducible repeat' first
    | assumption | intro _ | apply State.setEng_kept

theorem State.windowRead_kept {s₀ : State} {s : State} (n o : Nat) (hK : Kept s₀ s) : Kept s₀ (State.windowRead s n o).2 := by
  unfold State.windowRead
  repeat' first
    | (extract_lets +onlyGivenNames x; refine Kept.cut (t := x) ?_ fun _ => ?_; on_goal 1 => subst x; on_goal 2 => clear_value x)
    | (extract_lets +onlyGivenNames x; subst x)
    | (with_reducible first
        | assumption | intro _ | apply Kept.ite | apply State.setSnap_kept | fail_if_no_progress (apply Kept.upd))
    | split

theorem State.windowPut_kept {s₀ : State} {s : State} (n o : Nat) (v : Word) (hK : Kept s₀ s) : Kept s₀ (State.windowPut s n o v) := by
  unfold State.windowPut
  repeat' first
    | (extract_lets +onlyGivenNames x; refine Kept.cut (t := x) ?_ fun _ => ?_; on_goal 1 => subst x; on_goal 2 => clear_value x)
    | (extract_lets +onlyGivenNames x; subst x)
    | (with_reducible first
        | assumption | apply Kept.ite | apply State.setEng_kept | apply State.setHeldLow_kept | apply State.setProgWord_kept)

theorem State.windowWrite_kept {s₀ : State} {s : State} (m n o : Nat) (v : Word) (hK :
    Kept s₀ s) : Kept s₀ (State.windowWrite s m n o v) := by
  unfold State.windowWrite
  repeat' first
    | (extract_lets +onlyGivenNames x; refine Kept.cut (t := x) ?_ fun _ => ?_; on_goal 1 => subst x; on_goal 2 => clear_value x)
    | (extract_lets +onlyGivenNames x; subst x)
    | (with_reducible first
        | assumption | apply Kept.ite | apply State.answer_kept | apply State.defaultTarget_kept | apply State.raise_kept
        | apply State.windowPut_kept)

theorem State.emPut_kept {s₀ : State} {s : State} (m n o : Nat) (y0 : List Word) (hK : Kept s₀ s) : Kept s₀ (State.emPut s m n o y0) := by
  induction y0 generalizing s o with
  | nil => exact hK
  | cons v t ih =>
    unfold State.emPut
    have h := State.windowWrite_kept m n o v hK
    dsimp only
    split
    · exact ih _ h
    · exact h

theorem State.serveWindow_kept {s₀ : State} {s : State} (w : WindowWait) (hK : Kept s₀ s) : Kept s₀ (State.serveWindow s w) := by
  unfold State.serveWindow
  repeat' first
    | (extract_lets +onlyGivenNames x; refine Kept.cut (t := x) ?_ fun _ => ?_; on_goal 1 => subst x; on_goal 2 => clear_value x)
    | (extract_lets +onlyGivenNames x; subst x)
    | (with_reducible first
        | assumption | apply Kept.ite | apply State.answer_kept | apply State.dataError_kept | apply State.emPut_kept
        | apply State.emit_kept | apply State.engEcc_kept | apply State.windowRead_kept
        | (refine Kept.snd_of_eq (by assumption) ?_; apply State.windowRead_kept))
    | split

theorem State.windowWaits_kept {s₀ : State} {s : State} (w : WindowWait) (hK : Kept s₀ s) : Kept s₀ (State.windowWaits s w) := by
  unfold State.windowWaits
  with_reducible repeat' first
    | assumption | intro _ | apply Kept.ite | fail_if_no_progress (apply Kept.upd)

theorem State.serveWaits_kept {s₀ : State} {s : State} (n : Nat) (hK : Kept s₀ s) : Kept s₀ (State.serveWaits s n) := by
  unfold State.serveWaits
  repeat' first
    | (extract_lets +onlyGivenNames x; refine Kept.cut (t := x) ?_ fun _ => ?_; on_goal 1 => subst x; on_goal 2 => clear_value x)
    | (extract_lets +onlyGivenNames x; subst x)
    | (with_reducible first
        | assumption | intro _ | apply Kept.ite | apply State.serveWindow_kept | apply Kept.foldl | fail_if_no_progress (apply Kept.upd))

theorem State.issue_kept {s₀ : State} {s : State} (n : Nat) (f : Engine → Engine) (hK : Kept s₀ s) : Kept s₀ (State.issue s n f) := by
  unfold State.issue
  with_reducible repeat' first
    | assumption | apply Kept.ite | apply State.setEng_kept

theorem State.pageTurns_kept {s₀ : State} {s : State} (n : Nat) (hK : Kept s₀ s) : Kept s₀ (State.pageTurns s n) := by
  unfold State.pageTurns
  repeat' first
    | (extract_lets +onlyGivenNames x; refine Kept.cut (t := x) ?_ fun _ => ?_; on_goal 1 => subst x; on_goal 2 => clear_value x)
    | (extract_lets +onlyGivenNames x; subst x)
    | (with_reducible first
        | assumption | apply State.wr_kept)

theorem State.paramTurns_kept {s₀ : State} {s : State} (n : Nat) (hK : Kept s₀ s) : Kept s₀ (State.paramTurns s n) := by
  unfold State.paramTurns
  with_reducible repeat' first
    | assumption | apply State.wr_kept

theorem State.swapAtGate_kept {s₀ : State} {s : State} (n : Nat) (hK : Kept s₀ s) : Kept s₀ (State.swapAtGate s n) := by
  unfold State.swapAtGate
  repeat' first
    | (extract_lets +onlyGivenNames x; refine Kept.cut (t := x) ?_ fun _ => ?_; on_goal 1 => subst x; on_goal 2 => clear_value x)
    | (extract_lets +onlyGivenNames x; subst x)
    | (with_reducible first
        | assumption | intro _ | apply Kept.ite | apply State.pageTurns_kept | apply State.setEng_kept | apply State.wr_kept)

theorem State.paramSwapAtGate_kept {s₀ : State} {s : State} (n : Nat) (hK : Kept s₀ s) : Kept s₀ (State.paramSwapAtGate s n) := by
  unfold State.paramSwapAtGate
  repeat' first
    | (extract_lets +onlyGivenNames x; refine Kept.cut (t := x) ?_ fun _ => ?_; on_goal 1 => subst x; on_goal 2 => clear_value x)
    | (extract_lets +onlyGivenNames x; subst x)
    | (with_reducible first
        | assumption | intro _ | apply Kept.ite | apply State.paramTurns_kept | apply State.setEng_kept | apply State.wr_kept)

theorem State.setSub_kept {s₀ : State} {s : State} (u : Nat) (x : Subst) (hK : Kept s₀ s) : Kept s₀ (State.setSub s u x) := by
  unfold State.setSub
  with_reducible repeat' first
    | assumption | intro _ | fail_if_no_progress (apply Kept.upd)

theorem State.setSubState_kept {s₀ : State} {s : State} (u k : Nat) (hK : Kept s₀ s) : Kept s₀ (State.setSubState s u k) := by
  unfold State.setSubState
  with_reducible repeat' first
    | assumption | apply State.wr_kept

theorem State.subEvent_kept {s₀ : State} {s : State} (u k : Nat) (hK : Kept s₀ s) : Kept s₀ (State.subEvent s u k) := by
  unfold State.subEvent
  with_reducible repeat' first
    | assumption | apply State.raise_kept

theorem State.subDiffers_kept {s₀ : State} {s : State} (u : Nat) (hK : Kept s₀ s) : Kept s₀ (State.subDiffers s u) := by
  unfold State.subDiffers
  with_reducible repeat' first
    | assumption | apply State.subEvent_kept | apply State.wr_kept

theorem State.subCounts_kept {s₀ : State} {s : State} (u : Nat) (hK : Kept s₀ s) : Kept s₀ (State.subCounts s u) := by
  unfold State.subCounts
  with_reducible repeat' first
    | assumption | apply State.bump_kept

theorem State.judgeCopy_kept {s₀ : State} {s : State} (u : Nat) (a b : SegEnd) (hK : Kept s₀ s) : Kept s₀ (State.judgeCopy s u a b) := by
  unfold State.judgeCopy
  with_reducible repeat' first
    | assumption | apply Kept.ite | apply State.subCounts_kept | apply State.subDiffers_kept

theorem State.subSegment_kept {s₀ : State} {s : State} (n : Nat) (e : SegEnd) (hK : Kept s₀ s) : Kept s₀ (State.subSegment s n e) := by
  unfold State.subSegment
  repeat' first
    | (with_reducible first
        | assumption | intro _ | apply Kept.ite | apply State.judgeCopy_kept | apply State.setSub_kept | apply State.subCounts_kept
        | apply State.wr_kept | apply Kept.foldl)
    | split

theorem State.startSegment_kept {s₀ : State} {s : State} (n : Nat) (late : Bool) (hK :
    Kept s₀ s) : Kept s₀ (State.startSegment s n late) := by
  unfold State.startSegment
  repeat' first
    | (extract_lets +onlyGivenNames x; refine Kept.cut (t := x) ?_ fun _ => ?_; on_goal 1 => subst x; on_goal 2 => clear_value x)
    | (extract_lets +onlyGivenNames x; subst x)
    | (with_reducible first
        | assumption | intro _ | apply Kept.ite | apply State.engFault_kept | apply State.overrun_kept | apply State.paramSwapAtGate_kept
        | apply State.setEng_kept | apply State.setEngState_kept | apply State.swapAtGate_kept | apply Kept.foldl)

theorem State.giveUp_kept {s₀ : State} {s : State} (l t : Nat) (hK : Kept s₀ s) : Kept s₀ (State.giveUp s l t) := by
  unfold State.giveUp
  repeat' first
    | (with_reducible first
        | assumption | intro _ | apply Kept.ite | apply State.consume_kept | apply State.setLock_kept)
    | (with_reducible first
         | exact Nat.min_le_left _ _
         | exact Nat.le_refl _
         | refine State.lock_bounded (by assumption) (by assumption) ?_
         | refine (Nat.sub_le _ _).trans (State.lock_bounded (by assumption) (by assumption) ?_))
    | (with_reducible show (_ : Nat) ≤ _; dsimp only)
    | split

theorem State.giveUpInlets_kept {s₀ : State} {s : State} (e : Engine) (hK : Kept s₀ s) : Kept s₀ (State.giveUpInlets s e) := by
  unfold State.giveUpInlets
  with_reducible repeat' first
    | assumption | intro _ | apply State.giveUp_kept | apply Kept.foldl

theorem State.dropOlder_kept {s₀ : State} {s : State} (e : Engine) (hK : Kept s₀ s) : Kept s₀ (State.dropOlder s e) := by
  unfold State.dropOlder
  repeat' first
    | (extract_lets +onlyGivenNames x; refine Kept.cut (t := x) ?_ fun _ => ?_; on_goal 1 => subst x; on_goal 2 => clear_value x)
    | (extract_lets +onlyGivenNames x; subst x)
    | (with_reducible first
        | assumption | intro _ | apply State.setLock_kept | apply Kept.foldl)
    | (with_reducible first
         | exact Nat.min_le_left _ _
         | exact Nat.le_refl _
         | refine State.lock_bounded (by assumption) (by assumption) ?_
         | refine (Nat.sub_le _ _).trans (State.lock_bounded (by assumption) (by assumption) ?_))
    | (with_reducible show (_ : Nat) ≤ _; dsimp only)
    | split

theorem State.commitOutlet_kept {s₀ : State} {s : State} (n i : Nat) (hK : Kept s₀ s) : Kept s₀ (State.commitOutlet s n i) := by
  unfold State.commitOutlet
  repeat' first
    | (extract_lets +onlyGivenNames x; refine Kept.cut (t := x) ?_ fun _ => ?_; on_goal 1 => subst x; on_goal 2 => clear_value x)
    | (extract_lets +onlyGivenNames x; subst x)
    | (with_reducible first
        | assumption | apply Kept.ite | apply State.commit_kept | apply State.setEng_kept)
    | split

theorem State.parkFlags_kept {s₀ : State} {s : State} (n : Nat) (sr : BitVec 16) (hK : Kept s₀ s) : Kept s₀ (State.parkFlags s n sr) := by
  unfold State.parkFlags
  repeat' first
    | (extract_lets +onlyGivenNames x; refine Kept.cut (t := x) ?_ fun _ => ?_; on_goal 1 => subst x; on_goal 2 => clear_value x)
    | (extract_lets +onlyGivenNames x; subst x)
    | (with_reducible first
        | assumption | apply Kept.ite | apply State.raise_kept)

theorem State.endSegment_kept {s₀ : State} {s : State} (n : Nat) (hK : Kept s₀ s) : Kept s₀ (State.endSegment s n) := by
  unfold State.endSegment
  repeat' first
    | (extract_lets +onlyGivenNames x; refine Kept.cut (t := x) ?_ fun _ => ?_; on_goal 1 => subst x; on_goal 2 => clear_value x)
    | (extract_lets +onlyGivenNames x; subst x)
    | (with_reducible first
        | assumption | intro _ | apply Kept.ite | apply State.commitOutlet_kept | apply State.consume_kept | apply State.engFault_kept
        | apply State.giveUp_kept | apply State.parkFlags_kept | apply State.setEng_kept | apply State.setEngState_kept
        | apply State.setWide_kept | apply State.startSegment_kept | apply State.subSegment_kept | apply State.wr_kept | apply Kept.foldl)

end Sys2Proof.Machine
end

