-- ==== Sys2Proof/Laws/KeptEvents.lean ====
section
/-!
SUPPORT. The relation `Kept` for background work, events, memories, configuration requests, DMA rings and the fault rows.
-/
namespace Sys2Proof.Machine

set_option linter.unreachableTactic false
set_option linter.unusedTactic false

theorem execWeirRequest_kept {s₀ : State} (r : ReqIx) {s : State} (hK : Kept s₀ s) : KeptRes s₀ (execWeirRequest r s) := by
  unfold execWeirRequest
  with_reducible repeat' first
    | assumption | apply KeptRes.next | apply State.weirRequest_kept

theorem execWeirReturn_kept {s₀ : State} (r : ReqIx) {s : State} (hK : Kept s₀ s) : KeptRes s₀ (execWeirReturn r s) := by
  unfold execWeirReturn
  with_reducible repeat' first
    | assumption | apply KeptRes.next | apply State.weirReturn_kept

theorem execWeirWithdraw_kept {s₀ : State} (r : ReqIx) {s : State} (hK : Kept s₀ s) : KeptRes s₀ (execWeirWithdraw r s) := by
  unfold execWeirWithdraw
  with_reducible repeat' first
    | assumption | apply KeptRes.next | apply State.weirWithdraw_kept

theorem State.starve_kept {s₀ : State} {s : State} (r : Nat) (hK : Kept s₀ s) : Kept s₀ (State.starve s r) := by
  unfold State.starve
  repeat' first
    | (extract_lets +onlyGivenNames x; refine Kept.cut (t := x) ?_ fun _ => ?_; on_goal 1 => subst x; on_goal 2 => clear_value x)
    | (extract_lets +onlyGivenNames x; subst x)
    | (with_reducible first
        | assumption | apply Kept.ite | apply State.bump_kept | apply State.raise_kept | apply State.setRequester_kept)

theorem execRequestStarving_kept {s₀ : State} (r : ReqIx) {s : State} (hK : Kept s₀ s) : KeptRes s₀ (execRequestStarving r s) := by
  unfold execRequestStarving
  with_reducible repeat' first
    | assumption | apply Kept.ite | apply KeptRes.next | apply KeptRes.ite | apply State.starve_kept

theorem State.judgeHold_kept {s₀ : State} {s : State} (hK : Kept s₀ s) : Kept s₀ (State.judgeHold s) := by
  unfold State.judgeHold
  with_reducible repeat' first
    | assumption | intro _ | apply Kept.ite | apply State.starve_kept | apply Kept.foldl

theorem State.judgeFit_kept {s₀ : State} {s : State} (hK : Kept s₀ s) : Kept s₀ (State.judgeFit s) := by
  unfold State.judgeFit
  repeat' first
    | (extract_lets +onlyGivenNames x; refine Kept.cut (t := x) ?_ fun _ => ?_; on_goal 1 => subst x; on_goal 2 => clear_value x)
    | (extract_lets +onlyGivenNames x; subst x)
    | (with_reducible first
        | assumption | intro _ | apply Kept.ite | apply State.setRequester_kept | apply Kept.foldl)

theorem execBudgetWrite_kept {s₀ : State} (value : Word) {s : State} (hK : Kept s₀ s) : KeptRes s₀ (execBudgetWrite value s) := by
  unfold execBudgetWrite
  repeat' first
    | (extract_lets +onlyGivenNames x; refine Kept.cut (t := x) ?_ fun _ => ?_; on_goal 1 => subst x; on_goal 2 => clear_value x)
    | (extract_lets +onlyGivenNames x; subst x)
    | (with_reducible first
        | assumption | apply Kept.ite | apply KeptRes.next | apply KeptRes.ite | apply State.judgeFit_kept | apply State.raise_kept
        | apply State.sw_kept)

theorem State.setDrg_kept {s₀ : State} {s : State} (d : Dredger) (hK : Kept s₀ s) : Kept s₀ (State.setDrg s d) := by
  unfold State.setDrg
  with_reducible repeat' first
    | assumption | fail_if_no_progress (apply Kept.upd)

theorem State.setPass_kept {s₀ : State} {s : State} (dram : Bool) (p : Pass) (hK : Kept s₀ s) : Kept s₀ (State.setPass s dram p) := by
  unfold State.setPass
  with_reducible repeat' first
    | assumption | apply Kept.ite | apply State.setDrg_kept

theorem State.dredgerAsk_kept {s₀ : State} {s : State} (hK : Kept s₀ s) : Kept s₀ (State.dredgerAsk s) := by
  unfold State.dredgerAsk
  repeat' first
    | (extract_lets +onlyGivenNames x; refine Kept.cut (t := x) ?_ fun _ => ?_; on_goal 1 => subst x; on_goal 2 => clear_value x)
    | (extract_lets +onlyGivenNames x; subst x)
    | (with_reducible first
        | assumption | apply Kept.ite | apply State.setDrg_kept | apply State.weirRequest_kept | apply State.wr_kept)

theorem State.dredgerWithdraw_kept {s₀ : State} {s : State} (hK : Kept s₀ s) : Kept s₀ (State.dredgerWithdraw s) := by
  unfold State.dredgerWithdraw
  with_reducible repeat' first
    | assumption | apply Kept.ite | apply State.weirWithdraw_kept | apply State.wr_kept

theorem execCoreCurrentMeasurement_kept {s₀ : State} (units : BitVec 12) {s : State} (hK :
    Kept s₀ s) : KeptRes s₀ (execCoreCurrentMeasurement units s) := by
  unfold execCoreCurrentMeasurement
  repeat' first
    | (extract_lets +onlyGivenNames x; refine Kept.cut (t := x) ?_ fun _ => ?_; on_goal 1 => subst x; on_goal 2 => clear_value x)
    | (extract_lets +onlyGivenNames x; subst x)
    | (with_reducible first
        | assumption | apply Kept.ite | apply KeptRes.next | apply KeptRes.ite | apply State.bump_kept | apply State.dredgerWithdraw_kept
        | apply State.highest_kept | apply State.raise_kept | apply State.report_kept | apply State.wr_kept
        | fail_if_no_progress (apply Kept.upd))

theorem State.scrub_kept {s₀ : State} {s : State} (y0 : Scrubbed) (hK : Kept s₀ s) : Kept s₀ (State.scrub s y0) := by
  unfold State.scrub
  repeat' first
    | (with_reducible first
        | assumption | intro _ | apply Kept.ite | apply State.bankEcc_kept | apply State.bridgeEcc_kept | apply State.bump_kept
        | apply State.dramFound_kept | apply State.engEcc_kept | apply State.filterEcc_kept | apply State.raise_kept
        | apply State.report_kept | apply State.routeEcc_kept | apply State.zeroHistory_kept)
    | split

theorem execDredgerBurst_kept {s₀ : State} (found : List Scrubbed) {s : State} (hK :
    Kept s₀ s) : KeptRes s₀ (execDredgerBurst found s) := by
  unfold execDredgerBurst
  repeat' first
    | (extract_lets +onlyGivenNames x; refine Kept.cut (t := x) ?_ fun _ => ?_; on_goal 1 => subst x; on_goal 2 => clear_value x)
    | (extract_lets +onlyGivenNames x; subst x)
    | (with_reducible first
        | assumption | intro _ | apply Kept.ite | apply KeptRes.next | apply KeptRes.ite | apply State.bump_kept
        | apply State.dredgerAsk_kept | apply State.scrub_kept | apply State.setPass_kept | apply State.weirReturn_kept
        | apply State.wr_kept | apply Kept.foldl | fail_if_no_progress (apply Kept.upd))
    | split

theorem execDredgerBurstDue_kept {s₀ : State} (dram : Bool) {s : State} (hK : Kept s₀ s) : KeptRes s₀ (execDredgerBurstDue dram s) := by
  unfold execDredgerBurstDue
  repeat' first
    | (extract_lets +onlyGivenNames x; refine Kept.cut (t := x) ?_ fun _ => ?_; on_goal 1 => subst x; on_goal 2 => clear_value x)
    | (extract_lets +onlyGivenNames x; subst x)
    | (with_reducible first
        | assumption | apply Kept.ite | apply KeptRes.next | apply KeptRes.ite | apply State.dredgerAsk_kept | apply State.setPass_kept)

theorem execDredgerPassEnd_kept {s₀ : State} (dram : Bool) {s : State} (hK : Kept s₀ s) : KeptRes s₀ (execDredgerPassEnd dram s) := by
  unfold execDredgerPassEnd
  repeat' first
    | (extract_lets +onlyGivenNames x; refine Kept.cut (t := x) ?_ fun _ => ?_; on_goal 1 => subst x; on_goal 2 => clear_value x)
    | (extract_lets +onlyGivenNames x; subst x)
    | (with_reducible first
        | assumption | apply Kept.ite | apply KeptRes.next | apply KeptRes.ite | apply State.raise_kept | apply State.report_kept
        | apply State.setPass_kept | apply State.wr_kept)

theorem State.resetMaster_kept {s₀ : State} {s : State} (m : Nat) (hK : Kept s₀ s) : Kept s₀ (State.resetMaster s m) := by
  unfold State.resetMaster
  repeat' first
    | (extract_lets +onlyGivenNames x; refine Kept.cut (t := x) ?_ fun _ => ?_; on_goal 1 => subst x; on_goal 2 => clear_value x)
    | (extract_lets +onlyGivenNames x; subst x)
    | (with_reducible first
        | assumption | intro _ | apply Kept.ite | apply State.wr_kept | fail_if_no_progress (apply Kept.upd))

theorem State.stopDredger_kept {s₀ : State} {s : State} (hK : Kept s₀ s) : Kept s₀ (State.stopDredger s) := by
  unfold State.stopDredger
  with_reducible repeat' first
    | assumption | apply State.resetMaster_kept | apply State.weirDrop_kept | apply State.wr_kept

theorem execDredgerEnableWrite_kept {s₀ : State} (value : Word) {s : State} (hK :
    Kept s₀ s) : KeptRes s₀ (execDredgerEnableWrite value s) := by
  unfold execDredgerEnableWrite
  repeat' first
    | (extract_lets +onlyGivenNames x; refine Kept.cut (t := x) ?_ fun _ => ?_; on_goal 1 => subst x; on_goal 2 => clear_value x)
    | (extract_lets +onlyGivenNames x; subst x)
    | (with_reducible first
        | assumption | apply Kept.ite | apply KeptRes.next | apply KeptRes.ite | apply State.dredgerAsk_kept
        | apply State.stopDredger_kept | apply State.sw_kept)

theorem State.setTlm_kept {s₀ : State} {s : State} (t : Tlm) (hK : Kept s₀ s) : Kept s₀ (State.setTlm s t) := by
  unfold State.setTlm
  with_reducible repeat' first
    | assumption | fail_if_no_progress (apply Kept.upd)

theorem State.tlmStarts_kept {s₀ : State} {s : State} (was : Bool) (hK : Kept s₀ s) : Kept s₀ (State.tlmStarts s was) := by
  unfold State.tlmStarts
  with_reducible repeat' first
    | assumption | apply Kept.ite | apply State.setTlm_kept

theorem State.judgeTj_kept {s₀ : State} {s : State} (tj : Int) (hK : Kept s₀ s) : Kept s₀ (State.judgeTj s tj) := by
  unfold State.judgeTj
  repeat' first
    | (extract_lets +onlyGivenNames x; refine Kept.cut (t := x) ?_ fun _ => ?_; on_goal 1 => subst x; on_goal 2 => clear_value x)
    | (extract_lets +onlyGivenNames x; subst x)
    | (with_reducible first
        | assumption | apply Kept.ite | apply State.endCause_kept | apply State.raise_kept | apply State.report_kept
        | apply State.setTlm_kept | apply State.wr_kept)

theorem State.judgeRail_kept {s₀ : State} {s : State} (v : Nat) (mv : Nat) (hK : Kept s₀ s) : Kept s₀ (State.judgeRail s v mv) := by
  unfold State.judgeRail
  repeat' first
    | (extract_lets +onlyGivenNames x; refine Kept.cut (t := x) ?_ fun _ => ?_; on_goal 1 => subst x; on_goal 2 => clear_value x)
    | (extract_lets +onlyGivenNames x; subst x)
    | (with_reducible first
        | assumption | intro _ | apply Kept.ite | apply State.endCause_kept | apply State.report_kept | apply State.setTlm_kept
        | apply State.wr_kept)

theorem execMonitorSample_kept {s₀ : State} (m : Monitor) {s : State} (hK : Kept s₀ s) : KeptRes s₀ (execMonitorSample m s) := by
  unfold execMonitorSample
  repeat' first
    | (extract_lets +onlyGivenNames x; refine Kept.cut (t := x) ?_ fun _ => ?_; on_goal 1 => subst x; on_goal 2 => clear_value x)
    | (extract_lets +onlyGivenNames x; subst x)
    | (with_reducible first
        | assumption | intro _ | apply KeptRes.next | apply State.judgeRail_kept | apply State.judgeTj_kept | apply State.wr_kept
        | apply Kept.foldl)
    | split

theorem State.judgeVector_kept {s₀ : State} {s : State} (v : Nat) (hK : Kept s₀ s) : Kept s₀ (State.judgeVector s v) := by
  unfold State.judgeVector
  repeat' first
    | (extract_lets +onlyGivenNames x; refine Kept.cut (t := x) ?_ fun _ => ?_; on_goal 1 => subst x; on_goal 2 => clear_value x)
    | (extract_lets +onlyGivenNames x; subst x)
    | (with_reducible first
        | assumption | apply Kept.ite | apply State.wr_kept | fail_if_no_progress (apply Kept.upd))

theorem State.judgeIrq_kept {s₀ : State} {s : State} (k : Nat) (hK : Kept s₀ s) : Kept s₀ (State.judgeIrq s k) := by
  unfold State.judgeIrq
  repeat' first
    | (extract_lets +onlyGivenNames x; refine Kept.cut (t := x) ?_ fun _ => ?_; on_goal 1 => subst x; on_goal 2 => clear_value x)
    | (extract_lets +onlyGivenNames x; subst x)
    | (with_reducible first
        | assumption | apply Kept.ite | apply State.emit_kept | fail_if_no_progress (apply Kept.upd))

theorem State.judgeFalls_kept {s₀ : State} {s : State} (hK : Kept s₀ s) : Kept s₀ (State.judgeFalls s) := by
  unfold State.judgeFalls
  with_reducible repeat' first
    | assumption | intro _ | apply Kept.ite | apply State.judgeVector_kept | apply Kept.foldl

theorem execEventLevelRise_kept {s₀ : State} (source : Byte) {s : State} (hK : Kept s₀ s) : KeptRes s₀ (execEventLevelRise source s) := by
  unfold execEventLevelRise
  repeat' first
    | (extract_lets +onlyGivenNames x; refine Kept.cut (t := x) ?_ fun _ => ?_; on_goal 1 => subst x; on_goal 2 => clear_value x)
    | (extract_lets +onlyGivenNames x; subst x)
    | (with_reducible first
        | assumption | apply Kept.ite | apply KeptRes.next | apply KeptRes.ite | apply State.judgeIrq_kept | apply State.judgeVector_kept)

theorem execEvtEoi_kept {s₀ : State} (v : VecIx) {s : State} (hK : Kept s₀ s) : KeptRes s₀ (execEvtEoi v s) := by
  unfold execEvtEoi
  with_reducible repeat' first
    | assumption | apply Kept.ite | apply KeptRes.next | apply KeptRes.ite | apply State.judgeVector_kept | apply State.wr_kept

theorem execEvtSw_kept {s₀ : State} (value : Word) {s : State} (hK : Kept s₀ s) : KeptRes s₀ (execEvtSw value s) := by
  unfold execEvtSw
  with_reducible repeat' first
    | assumption | apply KeptRes.next | apply State.setReg_kept

theorem execEvtRouteWrite_kept {s₀ : State} (source : Byte) (value : Word) {s : State} (hK :
    Kept s₀ s) : KeptRes s₀ (execEvtRouteWrite source value s) := by
  unfold execEvtRouteWrite
  repeat' first
    | (extract_lets +onlyGivenNames x; refine Kept.cut (t := x) ?_ fun _ => ?_; on_goal 1 => subst x; on_goal 2 => clear_value x)
    | (extract_lets +onlyGivenNames x; subst x)
    | (with_reducible first
        | assumption | apply KeptRes.next | apply State.judgeIrq_kept | apply State.judgeVector_kept | apply State.sw_kept)

theorem execSampleCompare_kept {s₀ : State} (n : Fin 4) {s : State} (hK : Kept s₀ s) : KeptRes s₀ (execSampleCompare n s) := by
  unfold execSampleCompare
  repeat' first
    | (extract_lets +onlyGivenNames x; refine Kept.cut (t := x) ?_ fun _ => ?_; on_goal 1 => subst x; on_goal 2 => clear_value x)
    | (extract_lets +onlyGivenNames x; subst x)
    | (with_reducible first
        | assumption | apply Kept.ite | apply KeptRes.next | apply KeptRes.ite | apply State.hw_kept | apply State.raise_kept)

theorem execIrqRelease_kept {s₀ : State} (k : Fin 2) {s : State} (hK : Kept s₀ s) : KeptRes s₀ (execIrqRelease k s) := by
  unfold execIrqRelease
  with_reducible repeat' first
    | assumption | apply Kept.ite | apply KeptRes.next | apply KeptRes.ite | apply State.judgeIrq_kept

theorem execMsixMessageSend_kept {s₀ : State} (v : VecIx) {s : State} (hK : Kept s₀ s) : KeptRes s₀ (execMsixMessageSend v s) := by
  unfold execMsixMessageSend
  repeat' first
    | (extract_lets +onlyGivenNames x; refine Kept.cut (t := x) ?_ fun _ => ?_; on_goal 1 => subst x; on_goal 2 => clear_value x)
    | (extract_lets +onlyGivenNames x; subst x)
    | (with_reducible first
        | assumption | intro _ | apply Kept.ite | apply KeptRes.next | apply KeptRes.ite | apply State.emit_kept
        | apply State.judgeVector_kept | apply State.wr_kept | fail_if_no_progress (apply Kept.upd))

theorem State.restore_kept {s₀ : State} {s : State} (a : Nat) (hK : Kept s₀ s) : Kept s₀ (State.restore s a) := by
  unfold State.restore
  with_reducible repeat' first
    | assumption | apply State.setReg_kept | apply State.soften_kept

theorem State.pcieGen_kept {s₀ : State} {s : State} (g : Nat) (hK : Kept s₀ s) : Kept s₀ (State.pcieGen s g) := by
  unfold State.pcieGen
  with_reducible repeat' first
    | assumption | apply State.wr_kept

theorem execPcieReset_kept {s₀ : State} (kind : PcieResetKind) {s : State} (hK : Kept s₀ s) : KeptRes s₀ (execPcieReset kind s) := by
  unfold execPcieReset
  repeat' first
    | (extract_lets +onlyGivenNames x; refine Kept.cut (t := x) ?_ fun _ => ?_; on_goal 1 => subst x; on_goal 2 => clear_value x)
    | (extract_lets +onlyGivenNames x; subst x)
    | (with_reducible first
        | assumption | intro _ | apply Kept.ite | apply KeptRes.next | apply KeptRes.ite | apply State.pcieGen_kept
        | apply State.raise_kept | apply State.resetMaster_kept | apply State.restore_kept | apply State.setReg_kept | apply State.wr_kept
        | apply Kept.foldl | fail_if_no_progress (apply Kept.upd))
    | split

theorem execPcieLinkUp_kept {s₀ : State} (speed : Fin 5) (width : Fin 3) {s : State} (hK :
    Kept s₀ s) : KeptRes s₀ (execPcieLinkUp speed width s) := by
  unfold execPcieLinkUp
  with_reducible repeat' first
    | assumption | apply Kept.ite | apply KeptRes.next | apply KeptRes.ite | apply State.pcieGen_kept | apply State.raise_kept
    | apply State.wr_kept

theorem execPcieConfigRequest_kept {s₀ : State} (c : PcieConfig) {s : State} (hK : Kept s₀ s) : KeptRes s₀ (execPcieConfigRequest c s) := by
  unfold execPcieConfigRequest
  repeat' first
    | (extract_lets +onlyGivenNames x; refine Kept.cut (t := x) ?_ fun _ => ?_; on_goal 1 => subst x; on_goal 2 => clear_value x)
    | (extract_lets +onlyGivenNames x; subst x)
    | (with_reducible first
        | assumption | apply Kept.ite | apply KeptRes.next | apply KeptRes.ite | apply State.emit_kept | apply State.raise_kept
        | apply State.wr_kept)
    | split

theorem State.outboundError_kept {s₀ : State} {s : State} (m addr : Nat) (write : Bool) (hK :
    Kept s₀ s) : Kept s₀ (State.outboundError s m addr write) := by
  unfold State.outboundError
  with_reducible repeat' first
    | assumption | apply State.bump_kept | apply State.defaultTarget_kept | apply State.raise_kept

theorem State.outboundBurst_kept {s₀ : State} {s : State} (b : Burst) (hK : Kept s₀ s) : Kept s₀ (State.outboundBurst s b) := by
  unfold State.outboundBurst
  repeat' first
    | (extract_lets +onlyGivenNames x; refine Kept.cut (t := x) ?_ fun _ => ?_; on_goal 1 => subst x; on_goal 2 => clear_value x)
    | (extract_lets +onlyGivenNames x; subst x)
    | (with_reducible first
        | assumption | intro _ | apply Kept.ite | apply State.answer_kept | apply State.emit_kept | apply State.outboundError_kept
        | fail_if_no_progress (apply Kept.upd))
    | split

theorem execPcieOutboundRequest_kept {s₀ : State} (b : Burst) {s : State} (hK : Kept s₀ s) : KeptRes s₀ (execPcieOutboundRequest b s) := by
  unfold execPcieOutboundRequest
  with_reducible repeat' first
    | assumption | apply Kept.ite | apply KeptRes.next | apply KeptRes.ite | apply State.outboundBurst_kept

theorem State.outboundDone_kept {s₀ : State} {s : State} (m : Nat) (rest : List (Nat × Nat × Nat)) (hK :
    Kept s₀ s) : Kept s₀ (State.outboundDone s m rest) := by
  unfold State.outboundDone
  repeat' first
    | (extract_lets +onlyGivenNames x; refine Kept.cut (t := x) ?_ fun _ => ?_; on_goal 1 => subst x; on_goal 2 => clear_value x)
    | (extract_lets +onlyGivenNames x; subst x)
    | (with_reducible first
        | assumption | apply Kept.ite | apply State.wr_kept | fail_if_no_progress (apply Kept.upd))

theorem execOutboundCompletion_kept {s₀ : State} (ok : Bool) (data : List Byte) {s : State} (hK :
    Kept s₀ s) : KeptRes s₀ (execOutboundCompletion ok data s) := by
  unfold execOutboundCompletion
  repeat' first
    | (extract_lets +onlyGivenNames x; refine Kept.cut (t := x) ?_ fun _ => ?_; on_goal 1 => subst x; on_goal 2 => clear_value x)
    | (extract_lets +onlyGivenNames x; subst x)
    | (with_reducible first
        | assumption | apply Kept.ite | apply KeptRes.next | apply KeptRes.ite | apply State.answer_kept | apply State.outboundDone_kept
        | apply State.outboundError_kept)
    | split

theorem execOutboundCompletionTimeout_kept {s₀ : State} {s : State} (hK : Kept s₀ s) : KeptRes s₀ (execOutboundCompletionTimeout s) := by
  unfold execOutboundCompletionTimeout
  repeat' first
    | (with_reducible first
        | assumption | apply KeptRes.next | apply State.outboundDone_kept | apply State.outboundError_kept)
    | split

theorem State.setGpio_kept {s₀ : State} {s : State} (i : Nat) (g : Gpio) (hK : Kept s₀ s) : Kept s₀ (State.setGpio s i g) := by
  unfold State.setGpio
  with_reducible repeat' first
    | assumption | intro _ | fail_if_no_progress (apply Kept.upd)

theorem State.setSuppressed_kept {s₀ : State} {s : State} (i : Nat) (hK : Kept s₀ s) : Kept s₀ (State.setSuppressed s i) := by
  unfold State.setSuppressed
  repeat' first
    | (extract_lets +onlyGivenNames x; refine Kept.cut (t := x) ?_ fun _ => ?_; on_goal 1 => subst x; on_goal 2 => clear_value x)
    | (extract_lets +onlyGivenNames x; subst x)
    | (with_reducible first
        | assumption | apply State.wr_kept)

theorem State.reportEdge_kept {s₀ : State} {s : State} (i : Nat) (active : Bool) (hK :
    Kept s₀ s) : Kept s₀ (State.reportEdge s i active) := by
  unfold State.reportEdge
  with_reducible repeat' first
    | assumption | apply State.raise_kept | apply State.setGpio_kept

theorem State.acceptChange_kept {s₀ : State} {s : State} (i : Nat) (active : Bool) (hK :
    Kept s₀ s) : Kept s₀ (State.acceptChange s i active) := by
  unfold State.acceptChange
  repeat' first
    | (extract_lets +onlyGivenNames x; refine Kept.cut (t := x) ?_ fun _ => ?_; on_goal 1 => subst x; on_goal 2 => clear_value x)
    | (extract_lets +onlyGivenNames x; subst x)
    | (with_reducible first
        | assumption | intro _ | apply Kept.ite | apply State.bump_kept | apply State.raise_kept | apply State.report_kept
        | apply State.reportEdge_kept | apply State.setGpio_kept | apply State.setSuppressed_kept | apply State.wr_kept)

theorem execGpioSample_kept {s₀ : State} (i : Fin 16) (level : Bool) {s : State} (hK :
    Kept s₀ s) : KeptRes s₀ (execGpioSample i level s) := by
  unfold execGpioSample
  repeat' first
    | (extract_lets +onlyGivenNames x; refine Kept.cut (t := x) ?_ fun _ => ?_; on_goal 1 => subst x; on_goal 2 => clear_value x)
    | (extract_lets +onlyGivenNames x; subst x)
    | (with_reducible first
        | assumption | apply Kept.ite | apply KeptRes.next | apply KeptRes.ite | apply State.acceptChange_kept | apply State.setGpio_kept
        | apply State.wr_kept)

theorem execGpioChatterEnd_kept {s₀ : State} (i : Fin 16) {s : State} (hK : Kept s₀ s) : KeptRes s₀ (execGpioChatterEnd i s) := by
  unfold execGpioChatterEnd
  repeat' first
    | (extract_lets +onlyGivenNames x; refine Kept.cut (t := x) ?_ fun _ => ?_; on_goal 1 => subst x; on_goal 2 => clear_value x)
    | (extract_lets +onlyGivenNames x; subst x)
    | (with_reducible first
        | assumption | apply Kept.ite | apply KeptRes.next | apply KeptRes.ite | apply State.reportEdge_kept | apply State.setGpio_kept
        | apply State.setSuppressed_kept)

theorem execGpioStuck_kept {s₀ : State} (i : Fin 16) {s : State} (hK : Kept s₀ s) : KeptRes s₀ (execGpioStuck i s) := by
  unfold execGpioStuck
  repeat' first
    | (extract_lets +onlyGivenNames x; refine Kept.cut (t := x) ?_ fun _ => ?_; on_goal 1 => subst x; on_goal 2 => clear_value x)
    | (extract_lets +onlyGivenNames x; subst x)
    | (with_reducible first
        | assumption | apply Kept.ite | apply KeptRes.next | apply KeptRes.ite | apply State.raise_kept | apply State.report_kept
        | apply State.setGpio_kept | apply State.setSuppressed_kept)

theorem State.setSvc_kept {s₀ : State} {s : State} (v : Svc) (hK : Kept s₀ s) : Kept s₀ (State.setSvc s v) := by
  unfold State.setSvc
  with_reducible repeat' first
    | assumption | fail_if_no_progress (apply Kept.upd)

theorem State.setFifo_kept {s₀ : State} {s : State} (f : List Byte) (hK : Kept s₀ s) : Kept s₀ (State.setFifo s f) := by
  unfold State.setFifo
  with_reducible repeat' first
    | assumption | apply State.setSvc_kept | apply State.wr_kept

theorem execI2cCommand_kept {s₀ : State} (value : Word) {s : State} (hK : Kept s₀ s) : KeptRes s₀ (execI2cCommand value s) := by
  unfold execI2cCommand
  repeat' first
    | (extract_lets +onlyGivenNames x; refine Kept.cut (t := x) ?_ fun _ => ?_; on_goal 1 => subst x; on_goal 2 => clear_value x)
    | (extract_lets +onlyGivenNames x; subst x)
    | (with_reducible first
        | assumption | apply Kept.ite | apply KeptRes.next | apply KeptRes.ite | apply State.emit_kept | apply State.setFifo_kept
        | apply State.setSvc_kept | apply State.sw_kept | apply State.wr_kept)

theorem execI2cCommandEnd_kept {s₀ : State} (nak : Bool) (data : List Byte) {s : State} (hK :
    Kept s₀ s) : KeptRes s₀ (execI2cCommandEnd nak data s) := by
  unfold execI2cCommandEnd
  repeat' first
    | (extract_lets +onlyGivenNames x; refine Kept.cut (t := x) ?_ fun _ => ?_; on_goal 1 => subst x; on_goal 2 => clear_value x)
    | (extract_lets +onlyGivenNames x; subst x)
    | (with_reducible first
        | assumption | apply Kept.ite | apply KeptRes.next | apply KeptRes.ite | apply State.raise_kept | apply State.setFifo_kept
        | apply State.setSvc_kept | apply State.wr_kept)
    | split

theorem execMdioCommand_kept {s₀ : State} (value : Word) (data : BitVec 16) {s : State} (hK :
    Kept s₀ s) : KeptRes s₀ (execMdioCommand value data s) := by
  unfold execMdioCommand
  repeat' first
    | (extract_lets +onlyGivenNames x; refine Kept.cut (t := x) ?_ fun _ => ?_; on_goal 1 => subst x; on_goal 2 => clear_value x)
    | (extract_lets +onlyGivenNames x; subst x)
    | (with_reducible first
        | assumption | apply Kept.ite | apply KeptRes.next | apply KeptRes.ite | apply State.emit_kept | apply State.raise_kept
        | apply State.sw_kept | apply State.wr_kept)

theorem State.answerBytes_kept {s₀ : State} {s : State} (bytes : List Byte) (hK : Kept s₀ s) : Kept s₀ (State.answerBytes s bytes).1 := by
  unfold State.answerBytes
  with_reducible repeat' first
    | assumption | apply State.answer_kept

theorem State.readFails_kept {s₀ : State} {s : State} (m a n t cause : Nat) (hK :
    Kept s₀ s) : Kept s₀ (State.readFails s m a n t cause).1 := by
  unfold State.readFails
  with_reducible repeat' first
    | assumption | apply State.answer_kept | apply State.defaultTarget_kept

theorem State.dramRead_kept {s₀ : State} {s : State} (m a n : Nat) (hK : Kept s₀ s) : Kept s₀ (State.dramRead s m a n).1 := by
  unfold State.dramRead
  repeat' first
    | (extract_lets +onlyGivenNames x; refine Kept.cut (t := x) ?_ fun _ => ?_; on_goal 1 => subst x; on_goal 2 => clear_value x)
    | (extract_lets +onlyGivenNames x; subst x)
    | (with_reducible first
        | assumption | intro _ | apply Kept.ite | apply State.answerBytes_kept
        | (refine Kept.fst_of_eq (by assumption) ?_; apply State.answerBytes_kept) | apply State.dataError_kept
        | apply State.dmcAccess_kept | apply State.readFails_kept | (refine Kept.fst_of_eq (by assumption) ?_; apply State.readFails_kept)
        | fail_if_no_progress (apply Kept.upd))
    | split

theorem State.putDram_kept {s₀ : State} {s : State} (off : Nat) (y0 : List (Option Byte)) (hK :
    Kept s₀ s) : Kept s₀ (State.putDram s off y0) := by
  induction y0 generalizing s off with
  | nil => exact hK
  | cons b t ih => cases b with
    | none => exact ih _ hK
    | some b => exact ih _ (State.setDramByte_kept off b hK)

theorem State.putSsm_kept {s₀ : State} {s : State} (off : Nat) (y0 : List (Option Byte)) (hK :
    Kept s₀ s) : Kept s₀ (State.putSsm s off y0) := by
  induction y0 generalizing s off with
  | nil => exact hK
  | cons b t ih => cases b with
    | none => exact ih _ hK
    | some b => exact ih _ (State.setSsmByte_kept off b hK)

theorem State.dramWrite_kept {s₀ : State} {s : State} (m a : Nat) (bytes : List (Option Byte)) (hK :
    Kept s₀ s) : Kept s₀ (State.dramWrite s m a bytes) := by
  unfold State.dramWrite
  repeat' first
    | (extract_lets +onlyGivenNames x; refine Kept.cut (t := x) ?_ fun _ => ?_; on_goal 1 => subst x; on_goal 2 => clear_value x)
    | (extract_lets +onlyGivenNames x; subst x)
    | (with_reducible first
        | assumption | intro _ | apply Kept.ite | apply State.answer_kept | apply State.defaultTarget_kept | apply State.dmcAccess_kept
        | apply State.putDram_kept | apply State.setDmc_kept)

theorem State.ssmRead_kept {s₀ : State} {s : State} (a n : Nat) (hK : Kept s₀ s) : Kept s₀ (State.ssmRead s a n).1 := by
  unfold State.ssmRead
  with_reducible repeat' first
    | assumption | apply State.answerBytes_kept | (refine Kept.fst_of_eq (by assumption) ?_; apply State.answerBytes_kept)

theorem State.ssmWrite_kept {s₀ : State} {s : State} (a : Nat) (bytes : List (Option Byte)) (hK :
    Kept s₀ s) : Kept s₀ (State.ssmWrite s a bytes) := by
  unfold State.ssmWrite
  with_reducible repeat' first
    | assumption | apply State.answer_kept | apply State.putSsm_kept

theorem State.hostPut_kept {s₀ : State} {s : State} (m a : Nat) (bytes : List Byte) (hK :
    Kept s₀ s) : Kept s₀ (State.hostPut s m a bytes) := by
  unfold State.hostPut
  with_reducible repeat' first
    | assumption | apply Kept.ite | apply State.answer_kept | apply State.emit_kept | apply State.outboundError_kept

theorem State.hostGet_kept {s₀ : State} {s : State} (m a n : Nat) (data : Option (List Byte)) (hK :
    Kept s₀ s) : Kept s₀ (State.hostGet s m a n data).1 := by
  unfold State.hostGet
  repeat' first
    | (with_reducible first
        | assumption | apply State.answer_kept | apply State.answerBytes_kept
        | (refine Kept.fst_of_eq (by assumption) ?_; apply State.answerBytes_kept) | apply State.defaultTarget_kept
        | apply State.emit_kept | apply State.outboundError_kept)
    | split

theorem State.setCfg_kept {s₀ : State} {s : State} (c : Cfg) (hK : Kept s₀ s) : Kept s₀ (State.setCfg s c) := by
  unfold State.setCfg
  with_reducible repeat' first
    | assumption | fail_if_no_progress (apply Kept.upd)

theorem State.setGlb_kept {s₀ : State} {s : State} (g : Glb) (hK : Kept s₀ s) : Kept s₀ (State.setGlb s g) := by
  unfold State.setGlb
  with_reducible repeat' first
    | assumption | fail_if_no_progress (apply Kept.upd)

theorem State.setSeq_kept {s₀ : State} {s : State} (k : Nat) (hK : Kept s₀ s) : Kept s₀ (State.setSeq s k) := by
  unfold State.setSeq
  with_reducible repeat' first
    | assumption | apply State.wr_kept

theorem State.cancelB_kept {s₀ : State} {s : State} (hK : Kept s₀ s) : Kept s₀ (State.cancelB s) := by
  unfold State.cancelB
  repeat' first
    | (extract_lets +onlyGivenNames x; refine Kept.cut (t := x) ?_ fun _ => ?_; on_goal 1 => subst x; on_goal 2 => clear_value x)
    | (extract_lets +onlyGivenNames x; subst x)
    | (with_reducible first
        | assumption | intro _ | apply Kept.ite | apply State.setCfg_kept | apply State.setDom_kept | apply Kept.foldl)

theorem State.cancelPaths_kept {s₀ : State} {s : State} (hK : Kept s₀ s) : Kept s₀ (State.cancelPaths s) := by
  unfold State.cancelPaths
  repeat' first
    | (extract_lets +onlyGivenNames x; refine Kept.cut (t := x) ?_ fun _ => ?_; on_goal 1 => subst x; on_goal 2 => clear_value x)
    | (extract_lets +onlyGivenNames x; subst x)
    | (with_reducible first
        | assumption | intro _ | apply Kept.ite | apply State.setLock_kept | apply Kept.foldl)
    | (with_reducible first
         | exact Nat.min_le_left _ _
         | exact Nat.le_refl _
         | refine State.lock_bounded (by assumption) (by assumption) ?_
         | refine (Nat.sub_le _ _).trans (State.lock_bounded (by assumption) (by assumption) ?_))
    | (with_reducible show (_ : Nat) ≤ _; dsimp only)
    | split

theorem State.stagingFree_kept {s₀ : State} {s : State} (hK : Kept s₀ s) : Kept s₀ (State.stagingFree s) := by
  unfold State.stagingFree
  repeat' first
    | (extract_lets +onlyGivenNames x; refine Kept.cut (t := x) ?_ fun _ => ?_; on_goal 1 => subst x; on_goal 2 => clear_value x)
    | (extract_lets +onlyGivenNames x; subst x)
    | (with_reducible first
        | assumption | intro _ | apply Kept.ite | apply State.setEng_kept | apply Kept.foldl | fail_if_no_progress (apply Kept.upd))

theorem State.dropStaging_kept {s₀ : State} {s : State} (hK : Kept s₀ s) : Kept s₀ (State.dropStaging s) := by
  unfold State.dropStaging
  repeat' first
    | (extract_lets +onlyGivenNames x; refine Kept.cut (t := x) ?_ fun _ => ?_; on_goal 1 => subst x; on_goal 2 => clear_value x)
    | (extract_lets +onlyGivenNames x; subst x)
    | (with_reducible first
        | assumption | apply State.cancelB_kept | apply State.cancelPaths_kept | apply State.setCfg_kept | apply State.setRequester_kept
        | apply State.setSeq_kept | apply State.stagingFree_kept | apply State.weirWithdraw_kept)

theorem State.discardStaging_kept {s₀ : State} {s : State} (hK : Kept s₀ s) : Kept s₀ (State.discardStaging s) := by
  unfold State.discardStaging
  with_reducible repeat' first
    | assumption | apply State.dropStaging_kept | apply State.setCfg_kept

theorem State.startStaging_kept {s₀ : State} {s : State} (set : BitVec 12) (hK : Kept s₀ s) : Kept s₀ (State.startStaging s set) := by
  unfold State.startStaging
  repeat' first
    | (extract_lets +onlyGivenNames x; refine Kept.cut (t := x) ?_ fun _ => ?_; on_goal 1 => subst x; on_goal 2 => clear_value x)
    | (extract_lets +onlyGivenNames x; subst x)
    | (with_reducible first
        | assumption | intro _ | apply Kept.ite | apply State.setCfg_kept | apply State.setEng_kept | apply State.setSeq_kept
        | apply State.weirRequest_kept | apply Kept.foldl | fail_if_no_progress (apply Kept.upd))

theorem State.keepPrior_kept {s₀ : State} {s : State} (hK : Kept s₀ s) : Kept s₀ (State.keepPrior s) := by
  unfold State.keepPrior
  with_reducible repeat' first
    | assumption | apply State.setCfg_kept

theorem State.restage_kept {s₀ : State} {s : State} (hK : Kept s₀ s) : Kept s₀ (State.restage s) := by
  unfold State.restage
  repeat' first
    | (extract_lets +onlyGivenNames x; refine Kept.cut (t := x) ?_ fun _ => ?_; on_goal 1 => subst x; on_goal 2 => clear_value x)
    | (extract_lets +onlyGivenNames x; subst x)
    | (with_reducible first
        | assumption | apply Kept.ite | apply State.discardStaging_kept | apply State.dropStaging_kept | apply State.keepPrior_kept
        | apply State.startStaging_kept)

theorem State.abortTake_kept {s₀ : State} {s : State} (hK : Kept s₀ s) : Kept s₀ (State.abortTake s) := by
  unfold State.abortTake
  with_reducible repeat' first
    | assumption | apply Kept.ite | apply State.discardStaging_kept | apply State.resetMaster_kept

theorem State.refuseModes_kept {s₀ : State} {s : State} (v : BitVec 12) (hK : Kept s₀ s) : Kept s₀ (State.refuseModes s v) := by
  unfold State.refuseModes
  with_reducible repeat' first
    | assumption | apply Kept.ite | apply State.raise_kept | apply State.setReg_kept

theorem State.requestModes_kept {s₀ : State} {s : State} (v : Word) (hK : Kept s₀ s) : Kept s₀ (State.requestModes s v) := by
  unfold State.requestModes
  repeat' first
    | (extract_lets +onlyGivenNames x; refine Kept.cut (t := x) ?_ fun _ => ?_; on_goal 1 => subst x; on_goal 2 => clear_value x)
    | (extract_lets +onlyGivenNames x; subst x)
    | (with_reducible first
        | assumption | apply Kept.ite | apply State.raise_kept | apply State.refuseModes_kept | apply State.restage_kept
        | apply State.sw_kept)

theorem execModeRequestWrite_kept {s₀ : State} (value : Word) {s : State} (hK : Kept s₀ s) : KeptRes s₀ (execModeRequestWrite value s) := by
  unfold execModeRequestWrite
  with_reducible repeat' first
    | assumption | apply KeptRes.next | apply State.answer_kept | apply State.requestModes_kept

theorem execHardwareModeRequest_kept {s₀ : State} (mode : Fin 12) (on : Bool) {s : State} (hK :
    Kept s₀ s) : KeptRes s₀ (execHardwareModeRequest mode on s) := by
  unfold execHardwareModeRequest
  repeat' first
    | (extract_lets +onlyGivenNames x; refine Kept.cut (t := x) ?_ fun _ => ?_; on_goal 1 => subst x; on_goal 2 => clear_value x)
    | (extract_lets +onlyGivenNames x; subst x)
    | (with_reducible first
        | assumption | apply Kept.ite | apply KeptRes.next | apply KeptRes.ite | apply State.hwMode_kept)

theorem execTakeAbort_kept {s₀ : State} {s : State} (hK : Kept s₀ s) : KeptRes s₀ (execTakeAbort s) := by
  unfold execTakeAbort
  with_reducible repeat' first
    | assumption | apply KeptRes.next | apply State.abortTake_kept | apply State.answer_kept

theorem State.writePush_kept {s₀ : State} {s : State} (v : Word) (hK : Kept s₀ s) : Kept s₀ (State.writePush s v) := by
  unfold State.writePush
  repeat' first
    | (extract_lets +onlyGivenNames x; refine Kept.cut (t := x) ?_ fun _ => ?_; on_goal 1 => subst x; on_goal 2 => clear_value x)
    | (extract_lets +onlyGivenNames x; subst x)
    | (with_reducible first
        | assumption | apply Kept.ite | apply State.raise_kept | apply State.setGlb_kept | apply State.wr_kept)

theorem execPushChunkTaken_kept {s₀ : State} {s : State} (hK : Kept s₀ s) : KeptRes s₀ (execPushChunkTaken s) := by
  unfold execPushChunkTaken
  repeat' first
    | (extract_lets +onlyGivenNames x; refine Kept.cut (t := x) ?_ fun _ => ?_; on_goal 1 => subst x; on_goal 2 => clear_value x)
    | (extract_lets +onlyGivenNames x; subst x)
    | (with_reducible first
        | assumption | apply Kept.ite | apply KeptRes.next | apply KeptRes.ite | apply State.raise_kept | apply State.setGlb_kept)
    | split

theorem execHostPushChunk_kept {s₀ : State} (length : Nat) (last : Bool) {s : State} (hK :
    Kept s₀ s) : KeptRes s₀ (execHostPushChunk length last s) := by
  unfold execHostPushChunk
  with_reducible repeat' first
    | assumption | apply KeptRes.next | apply State.answer_kept | apply State.writePush_kept

theorem State.resetBalls_kept {s₀ : State} {s : State} {t : State} (_ : Kept s₀ s) (hK1 : Kept s₀ t) : Kept s₀ (State.resetBalls s t) := by
  unfold State.resetBalls
  repeat' first
    | (extract_lets +onlyGivenNames x; refine Kept.cut (t := x) ?_ fun _ => ?_; on_goal 1 => subst x; on_goal 2 => clear_value x)
    | (extract_lets +onlyGivenNames x; subst x)
    | (with_reducible first
        | assumption | apply Kept.ite | apply State.emit_kept)

theorem State.resetWith_kept {s₀ : State} {s : State} (strap : Word) (fuses : Fuses) (cause : Nat) (hK :
    Kept s₀ s) : Kept s₀ (State.resetWith s strap fuses cause) := by
  have h : Kept s₀ { State.reset with pending := s.pending, now := s.now, freeCount := s.freeCount, outbox := s.outbox, reply := s.reply } :=
    ⟨hK.pending, hK.now, hK.outbox, fun _ => ⟨rfl, rfl⟩⟩
  exact State.resetBalls_kept hK 
    (State.wr_kept _ _ (State.setGlb_kept _ (State.wr_kept _ _ (State.setReg_kept _ _ (State.setReg_kept _ _ (State.setReg_kept _ _ h))))))

theorem execPowerOnReset_kept {s₀ : State} (boot : Fin 4) (devid : Fin 8) (fuses : Fuses) {s : State} (hK :
    Kept s₀ s) : KeptRes s₀ (execPowerOnReset boot devid fuses s) := by
  unfold execPowerOnReset
  with_reducible repeat' first
    | assumption | apply KeptRes.next | apply State.resetWith_kept

theorem State.deviceReset_kept {s₀ : State} {s : State} (cause : Nat) (hK : Kept s₀ s) : Kept s₀ (State.deviceReset s cause) := by
  unfold State.deviceReset
  with_reducible repeat' first
    | assumption | apply State.resetWith_kept

theorem execDeviceReset_kept {s₀ : State} {s : State} (hK : Kept s₀ s) : KeptRes s₀ (execDeviceReset s) := by
  unfold execDeviceReset
  with_reducible repeat' first
    | assumption | apply KeptRes.next | apply State.deviceReset_kept

theorem State.writeRst_kept {s₀ : State} {s : State} (v : Word) (hK : Kept s₀ s) : Kept s₀ (State.writeRst s v) := by
  unfold State.writeRst
  with_reducible repeat' first
    | assumption | apply Kept.ite | apply State.deviceReset_kept

theorem execGlbRstWrite_kept {s₀ : State} (value : Word) {s : State} (hK : Kept s₀ s) : KeptRes s₀ (execGlbRstWrite value s) := by
  unfold execGlbRstWrite
  with_reducible repeat' first
    | assumption | apply KeptRes.next | apply State.answer_kept | apply State.writeRst_kept

theorem State.abortReplacement_kept {s₀ : State} {s : State} (hK : Kept s₀ s) : Kept s₀ (State.abortReplacement s) := by
  unfold State.abortReplacement
  with_reducible repeat' first
    | assumption | apply Kept.ite | apply State.cancelB_kept | apply State.cancelPaths_kept | apply State.setGlb_kept
    | apply State.weirDrop_kept | apply State.wr_kept

theorem execImageReplacementAbort_kept {s₀ : State} {s : State} (hK : Kept s₀ s) : KeptRes s₀ (execImageReplacementAbort s) := by
  unfold execImageReplacementAbort
  with_reducible repeat' first
    | assumption | apply KeptRes.next | apply State.abortReplacement_kept | apply State.answer_kept

theorem execTakeRefusedLate_kept {s₀ : State} {s : State} (hK : Kept s₀ s) : KeptRes s₀ (execTakeRefusedLate s) := by
  unfold execTakeRefusedLate
  with_reducible repeat' first
    | assumption | apply Kept.ite | apply KeptRes.next | apply KeptRes.ite | apply State.abortReplacement_kept
    | apply State.discardStaging_kept | apply State.raise_kept

theorem State.setChan_kept {s₀ : State} {s : State} (c : Nat) (d : DmaChannel) (hK : Kept s₀ s) : Kept s₀ (State.setChan s c d) := by
  unfold State.setChan
  with_reducible repeat' first
    | assumption | intro _ | fail_if_no_progress (apply Kept.upd)

theorem State.setDmaState_kept {s₀ : State} {s : State} (c k : Nat) (hK : Kept s₀ s) : Kept s₀ (State.setDmaState s c k) := by
  unfold State.setDmaState
  with_reducible repeat' first
    | assumption | apply State.wr_kept

theorem State.ringRead_kept {s₀ : State} {s : State} (c a : Nat) (host : Option (List Byte)) (hK :
    Kept s₀ s) : Kept s₀ (State.ringRead s c a host).1 := by
  unfold State.ringRead
  repeat' first
    | (extract_lets +onlyGivenNames x; refine Kept.cut (t := x) ?_ fun _ => ?_; on_goal 1 => subst x; on_goal 2 => clear_value x)
    | (extract_lets +onlyGivenNames x; subst x)
    | (with_reducible first
        | assumption | apply State.dramRead_kept | (refine Kept.fst_of_eq (by assumption) ?_; apply State.dramRead_kept)
        | apply State.hostGet_kept | (refine Kept.fst_of_eq (by assumption) ?_; apply State.hostGet_kept) | apply State.readFails_kept
        | (refine Kept.fst_of_eq (by assumption) ?_; apply State.readFails_kept) | apply State.ssmRead_kept
        | (refine Kept.fst_of_eq (by assumption) ?_; apply State.ssmRead_kept))
    | split

theorem State.ringWrite_kept {s₀ : State} {s : State} (c a : Nat) (bytes : List Byte) (hK :
    Kept s₀ s) : Kept s₀ (State.ringWrite s c a bytes) := by
  unfold State.ringWrite
  repeat' first
    | (extract_lets +onlyGivenNames x; refine Kept.cut (t := x) ?_ fun _ => ?_; on_goal 1 => subst x; on_goal 2 => clear_value x)
    | (extract_lets +onlyGivenNames x; subst x)
    | (with_reducible first
        | assumption | apply State.defaultTarget_kept | apply State.dramWrite_kept | apply State.hostPut_kept | apply State.ssmWrite_kept)
    | split

theorem State.dmaEvent_kept {s₀ : State} {s : State} (c code level : Nat) (hK : Kept s₀ s) : Kept s₀ (State.dmaEvent s c code level) := by
  unfold State.dmaEvent
  with_reducible repeat' first
    | assumption | apply State.raise_kept | apply State.report_kept

theorem State.dmaStops_kept {s₀ : State} {s : State} (c : Nat) (hK : Kept s₀ s) : Kept s₀ (State.dmaStops s c) := by
  unfold State.dmaStops
  with_reducible repeat' first
    | assumption | apply State.raise_kept | apply State.setChan_kept | apply State.setDmaState_kept

theorem State.completionEvents_kept {s₀ : State} {s : State} (c i : Nat) (irq : Bool) (hK :
    Kept s₀ s) : Kept s₀ (State.completionEvents s c i irq) := by
  unfold State.completionEvents
  repeat' first
    | (extract_lets +onlyGivenNames x; refine Kept.cut (t := x) ?_ fun _ => ?_; on_goal 1 => subst x; on_goal 2 => clear_value x)
    | (extract_lets +onlyGivenNames x; subst x)
    | (with_reducible first
        | assumption | apply Kept.ite | apply State.raise_kept)

theorem State.completeDesc_kept {s₀ : State} {s : State} (c code moved info : Nat) (eop : Option Bool) (hK :
    Kept s₀ s) : Kept s₀ (State.completeDesc s c code moved info eop) := by
  unfold State.completeDesc
  split
  · exact hK
  extract_lets +onlyGivenNames i a
  clear_value a i
  split
  extract_lets +onlyGivenNames s1 e s2 s3 s4 s5
  have h1 : Kept s₀ s1 := State.ringWrite_kept _ _ _ (State.ringWrite_kept _ _ _ hK)
  clear_value s1 e
  have h2 : Kept s₀ s2 := State.setChan_kept _ _ (State.wr_kept _ _ h1)
  clear_value s2
  have h3 : Kept s₀ s3 := State.completionEvents_kept _ _ _ h2
  clear_value s3
  have h4 : Kept s₀ s4 := State.setReg_kept _ _ h3
  clear_value s4
  have h5 : Kept s₀ s5 := Kept.ite h3 (State.dmaEvent_kept _ _ _ (State.bump_kept _ _ h4))
  clear_value s5
  exact Kept.ite (State.dmaStops_kept _ h5) (Kept.ite (State.setDmaState_kept _ _ h5) h5)

theorem State.writeSwIdx_kept {s₀ : State} {s : State} (c v : Nat) (hK : Kept s₀ s) : Kept s₀ (State.writeSwIdx s c v) := by
  unfold State.writeSwIdx
  repeat' first
    | (extract_lets +onlyGivenNames x; refine Kept.cut (t := x) ?_ fun _ => ?_; on_goal 1 => subst x; on_goal 2 => clear_value x)
    | (extract_lets +onlyGivenNames x; subst x)
    | (with_reducible first
        | assumption | apply Kept.ite | apply State.raise_kept | apply State.setDmaState_kept | apply State.sw_kept)

theorem State.startDma_kept {s₀ : State} {s : State} (c : Nat) (hK : Kept s₀ s) : Kept s₀ (State.startDma s c) := by
  unfold State.startDma
  with_reducible repeat' first
    | assumption | apply Kept.ite | apply State.setDmaState_kept

theorem State.stopDma_kept {s₀ : State} {s : State} (c : Nat) (hK : Kept s₀ s) : Kept s₀ (State.stopDma s c) := by
  unfold State.stopDma
  with_reducible repeat' first
    | assumption | apply Kept.ite | apply State.dmaStops_kept | apply State.setDmaState_kept

theorem State.enableDma_kept {s₀ : State} {s : State} (c : Nat) (hK : Kept s₀ s) : Kept s₀ (State.enableDma s c) := by
  unfold State.enableDma
  with_reducible repeat' first
    | assumption | apply Kept.ite | apply State.startDma_kept | apply State.sw_kept

theorem State.disableDma_kept {s₀ : State} {s : State} (c : Nat) (hK : Kept s₀ s) : Kept s₀ (State.disableDma s c) := by
  unfold State.disableDma
  with_reducible repeat' first
    | assumption | apply State.stopDma_kept | apply State.sw_kept

theorem State.abruptDma_kept {s₀ : State} {s : State} (c : Nat) (hK : Kept s₀ s) : Kept s₀ (State.abruptDma s c) := by
  unfold State.abruptDma
  repeat' first
    | (extract_lets +onlyGivenNames x; refine Kept.cut (t := x) ?_ fun _ => ?_; on_goal 1 => subst x; on_goal 2 => clear_value x)
    | (extract_lets +onlyGivenNames x; subst x)
    | (with_reducible first
        | assumption | apply Kept.ite | apply State.completeDesc_kept | apply State.dmaStops_kept | apply State.sw_kept)

theorem State.writeDmaCtrl_kept {s₀ : State} {s : State} (c : Nat) (v : Word) (hK : Kept s₀ s) : Kept s₀ (State.writeDmaCtrl s c v) := by
  unfold State.writeDmaCtrl
  repeat' first
    | (extract_lets +onlyGivenNames x; refine Kept.cut (t := x) ?_ fun _ => ?_; on_goal 1 => subst x; on_goal 2 => clear_value x)
    | (extract_lets +onlyGivenNames x; subst x)
    | (with_reducible first
        | assumption | apply Kept.ite | apply State.abruptDma_kept | apply State.disableDma_kept | apply State.enableDma_kept
        | apply State.sw_kept)

theorem execSwIdxWrite_kept {s₀ : State} (c : ChIx) (value : BitVec 16) {s : State} (hK :
    Kept s₀ s) : KeptRes s₀ (execSwIdxWrite c value s) := by
  unfold execSwIdxWrite
  with_reducible repeat' first
    | assumption | apply KeptRes.next | apply State.answer_kept | apply State.writeSwIdx_kept

theorem execDmaEnable_kept {s₀ : State} (c : ChIx) {s : State} (hK : Kept s₀ s) : KeptRes s₀ (execDmaEnable c s) := by
  unfold execDmaEnable
  with_reducible repeat' first
    | assumption | apply KeptRes.next | apply State.answer_kept | apply State.enableDma_kept

theorem execDmaDisable_kept {s₀ : State} (c : ChIx) {s : State} (hK : Kept s₀ s) : KeptRes s₀ (execDmaDisable c s) := by
  unfold execDmaDisable
  with_reducible repeat' first
    | assumption | apply KeptRes.next | apply State.answer_kept | apply State.disableDma_kept

theorem execDmaAbrupt_kept {s₀ : State} (c : ChIx) {s : State} (hK : Kept s₀ s) : KeptRes s₀ (execDmaAbrupt c s) := by
  unfold execDmaAbrupt
  with_reducible repeat' first
    | assumption | apply KeptRes.next | apply State.abruptDma_kept | apply State.answer_kept

theorem execDescriptorFetch_kept {s₀ : State} (c : ChIx) (host : Option (List Byte)) {s : State} (hK :
    Kept s₀ s) : KeptRes s₀ (execDescriptorFetch c host s) := by
  unfold execDescriptorFetch
  refine KeptRes.next ?_
  extract_lets n
  split
  · exact hK
  · have h := State.ringRead_kept c.val (s.entryAddr c.val (s.rd (hwIdx c.val) + n)) host hK
    revert h
    generalize State.ringRead s c.val _ host = p
    intro h
    obtain ⟨t, bytes⟩ := p
    dsimp only at h ⊢
    split
    · exact State.setDmaState_kept _ _ (State.setChan_kept _ _ h)
    · exact State.setDmaState_kept _ _ (State.dmaEvent_kept _ _ _ (State.bump_kept _ _ h))

theorem State.setFlt_kept {s₀ : State} {s : State} (f : Flt) (hK : Kept s₀ s) : Kept s₀ (State.setFlt s f) := by
  unfold State.setFlt
  with_reducible repeat' first
    | assumption | fail_if_no_progress (apply Kept.upd)

theorem execFaultReport_kept {s₀ : State} (source : Byte) (code : Fin 32) (level : Fin 5) {s : State} (hK :
    Kept s₀ s) : KeptRes s₀ (execFaultReport source code level s) := by
  unfold execFaultReport
  with_reducible repeat' first
    | assumption | apply KeptRes.next | apply State.report_kept

theorem execFltAck_kept {s₀ : State} (value : Word) {s : State} (hK : Kept s₀ s) : KeptRes s₀ (execFltAck value s) := by
  unfold execFltAck
  with_reducible repeat' first
    | assumption | intro _ | apply Kept.ite | apply KeptRes.next | apply KeptRes.ite | apply State.pruneRecords_kept
    | apply State.setFlt_kept

theorem State.clearLevel_kept {s₀ : State} {s : State} (l : Nat) (hK : Kept s₀ s) : Kept s₀ (State.clearLevel s l) := by
  unfold State.clearLevel
  repeat' first
    | (extract_lets +onlyGivenNames x; refine Kept.cut (t := x) ?_ fun _ => ?_; on_goal 1 => subst x; on_goal 2 => clear_value x)
    | (extract_lets +onlyGivenNames x; subst x)
    | (with_reducible first
        | assumption | apply Kept.ite | apply State.applySafe_kept | apply State.hwMode_kept | apply State.raise_kept
        | apply State.setFlt_kept | apply State.wr_kept)

theorem execFltClear_kept {s₀ : State} (value : Word) {s : State} (hK : Kept s₀ s) : KeptRes s₀ (execFltClear value s) := by
  unfold execFltClear
  repeat' first
    | (extract_lets +onlyGivenNames x; refine Kept.cut (t := x) ?_ fun _ => ?_; on_goal 1 => subst x; on_goal 2 => clear_value x)
    | (extract_lets +onlyGivenNames x; subst x)
    | (with_reducible first
        | assumption | apply Kept.ite | apply KeptRes.next | apply KeptRes.ite | apply State.clearLevel_kept)

theorem execPersistentCauseEnd_kept {s₀ : State} (source : Byte) (code : Fin 32) {s : State} (hK :
    Kept s₀ s) : KeptRes s₀ (execPersistentCauseEnd source code s) := by
  unfold execPersistentCauseEnd
  with_reducible repeat' first
    | assumption | apply Kept.ite | apply KeptRes.next | apply KeptRes.ite | apply State.endCause_kept | apply State.pruneRecords_kept

theorem State.releaseErr_kept {s₀ : State} {s : State} (hK : Kept s₀ s) : Kept s₀ (State.releaseErr s) := by
  unfold State.releaseErr
  with_reducible repeat' first
    | assumption | apply Kept.ite | apply State.emit_kept | apply State.wr_kept

theorem execErrNPulseEnd_kept {s₀ : State} {s : State} (hK : Kept s₀ s) : KeptRes s₀ (execErrNPulseEnd s) := by
  unfold execErrNPulseEnd
  repeat' first
    | (extract_lets +onlyGivenNames x; refine Kept.cut (t := x) ?_ fun _ => ?_; on_goal 1 => subst x; on_goal 2 => clear_value x)
    | (extract_lets +onlyGivenNames x; subst x)
    | (with_reducible first
        | assumption | apply Kept.ite | apply KeptRes.next | apply KeptRes.ite | apply State.hw_kept | apply State.releaseErr_kept
        | apply State.setFlt_kept)

theorem execErrHoldWrite_kept {s₀ : State} (value : Word) {s : State} (hK : Kept s₀ s) : KeptRes s₀ (execErrHoldWrite value s) := by
  unfold execErrHoldWrite
  repeat' first
    | (extract_lets +onlyGivenNames x; refine Kept.cut (t := x) ?_ fun _ => ?_; on_goal 1 => subst x; on_goal 2 => clear_value x)
    | (extract_lets +onlyGivenNames x; subst x)
    | (with_reducible first
        | assumption | apply Kept.ite | apply KeptRes.next | apply KeptRes.ite | apply State.hw_kept | apply State.releaseErr_kept
        | apply State.setFlt_kept | apply State.sw_kept)

theorem execWatchdogExpiry_kept {s₀ : State} {s : State} (hK : Kept s₀ s) : KeptRes s₀ (execWatchdogExpiry s) := by
  unfold execWatchdogExpiry
  repeat' first
    | (extract_lets +onlyGivenNames x; refine Kept.cut (t := x) ?_ fun _ => ?_; on_goal 1 => subst x; on_goal 2 => clear_value x)
    | (extract_lets +onlyGivenNames x; subst x)
    | (with_reducible first
        | assumption | apply Kept.ite | apply KeptRes.next | apply KeptRes.ite | apply State.raise_kept | apply State.report_kept
        | apply State.setFlt_kept)

theorem execWatchdogKick_kept {s₀ : State} (value : Word) {s : State} (hK : Kept s₀ s) : KeptRes s₀ (execWatchdogKick value s) := by
  unfold execWatchdogKick
  with_reducible repeat' first
    | assumption | apply Kept.ite | apply KeptRes.next | apply KeptRes.ite | apply State.setFlt_kept

theorem execInjectionArm_kept {s₀ : State} (value : Word) {s : State} (hK : Kept s₀ s) : KeptRes s₀ (execInjectionArm value s) := by
  unfold execInjectionArm
  repeat' first
    | (extract_lets +onlyGivenNames x; refine Kept.cut (t := x) ?_ fun _ => ?_; on_goal 1 => subst x; on_goal 2 => clear_value x)
    | (extract_lets +onlyGivenNames x; subst x)
    | (with_reducible first
        | assumption | apply Kept.ite | apply KeptRes.next | apply KeptRes.ite | apply State.hw_kept | apply State.raise_kept
        | apply State.sw_kept)

theorem execInjectionFire_kept {s₀ : State} {s : State} (hK : Kept s₀ s) : KeptRes s₀ (execInjectionFire s) := by
  unfold execInjectionFire
  with_reducible repeat' first
    | assumption | apply Kept.ite | apply KeptRes.next | apply KeptRes.ite | apply State.hw_kept | apply State.raise_kept

theorem State.disarm_kept {s₀ : State} {s : State} (hK : Kept s₀ s) : Kept s₀ (State.disarm s) := by
  unfold State.disarm
  with_reducible repeat' first
    | assumption | apply Kept.ite | apply State.hw_kept

theorem execInjectedReport_kept {s₀ : State} (value : Word) {s : State} (hK : Kept s₀ s) : KeptRes s₀ (execInjectedReport value s) := by
  unfold execInjectedReport
  with_reducible repeat' first
    | assumption | apply Kept.ite | apply KeptRes.next | apply KeptRes.ite | apply State.raise_kept | apply State.reportAs_kept

theorem execFaultLogPop_kept {s₀ : State} {s : State} (hK : Kept s₀ s) : KeptRes s₀ (execFaultLogPop s) := by
  unfold execFaultLogPop
  repeat' first
    | (extract_lets +onlyGivenNames x; refine Kept.cut (t := x) ?_ fun _ => ?_; on_goal 1 => subst x; on_goal 2 => clear_value x)
    | (extract_lets +onlyGivenNames x; subst x)
    | (with_reducible first
        | assumption | apply KeptRes.next | exact KeptRes.fault _ | apply State.answer_kept | apply State.pruneRecords_kept
        | apply State.setFlt_kept | apply State.setSnap_kept)
    | split

end Sys2Proof.Machine
end

