-- ==== Sys2Proof/Laws/KeptLinks.lean ====
section
/-!
SUPPORT. The relation `Kept` for clocks, lanes, failover, Nerax links and time.
-/
namespace Sys2Proof.Machine

set_option linter.unreachableTactic false
set_option linter.unusedTactic false

theorem State.setCand_kept {s₀ : State} {s : State} (c : Nat) (k : Cand) (hK : Kept s₀ s) : Kept s₀ (State.setCand s c k) := by
  unfold State.setCand
  with_reducible repeat' first
    | assumption | intro _ | fail_if_no_progress (apply Kept.upd)

theorem State.setDpll_kept {s₀ : State} {s : State} (x : Nat) (d : Dpll) (hK : Kept s₀ s) : Kept s₀ (State.setDpll s x d) := by
  unfold State.setDpll
  with_reducible repeat' first
    | assumption | intro _ | fail_if_no_progress (apply Kept.upd)

theorem State.setDomState_kept {s₀ : State} {s : State} (x v : Nat) (hK : Kept s₀ s) : Kept s₀ (State.setDomState s x v) := by
  unfold State.setDomState
  with_reducible repeat' first
    | assumption | apply State.wr_kept

theorem State.domFault_kept {s₀ : State} {s : State} (x : Nat) (f : FieldAt) (hK : Kept s₀ s) : Kept s₀ (State.domFault s x f) := by
  unfold State.domFault
  with_reducible repeat' first
    | assumption | apply State.raise_kept | apply State.report_kept

theorem State.judgeClamp_kept {s₀ : State} {s : State} (x : Nat) (hK : Kept s₀ s) : Kept s₀ (State.judgeClamp s x) := by
  unfold State.judgeClamp
  repeat' first
    | (extract_lets +onlyGivenNames x; refine Kept.cut (t := x) ?_ fun _ => ?_; on_goal 1 => subst x; on_goal 2 => clear_value x)
    | (extract_lets +onlyGivenNames x; subst x)
    | (with_reducible first
        | assumption | apply Kept.ite | apply State.domFault_kept | apply State.wr_kept)

theorem State.steer_kept {s₀ : State} {s : State} (x : Nat) (ppb : Int) (hK : Kept s₀ s) : Kept s₀ (State.steer s x ppb) := by
  unfold State.steer
  with_reducible repeat' first
    | assumption | apply State.judgeClamp_kept | apply State.setDpll_kept

theorem State.setRamp_kept {s₀ : State} {s : State} (x : Nat) (ppb : Int) (hK : Kept s₀ s) : Kept s₀ (State.setRamp s x ppb) := by
  unfold State.setRamp
  with_reducible repeat' first
    | assumption | apply State.judgeClamp_kept | apply State.setDpll_kept | apply State.wr_kept

theorem State.judgeAligned_kept {s₀ : State} {s : State} (x : Nat) (hK : Kept s₀ s) : Kept s₀ (State.judgeAligned s x) := by
  unfold State.judgeAligned
  repeat' first
    | (extract_lets +onlyGivenNames x; refine Kept.cut (t := x) ?_ fun _ => ?_; on_goal 1 => subst x; on_goal 2 => clear_value x)
    | (extract_lets +onlyGivenNames x; subst x)
    | (with_reducible first
        | assumption | apply Kept.ite | apply State.raise_kept | apply State.wr_kept)

theorem State.measurePhase_kept {s₀ : State} {s : State} (x : Nat) (ps : Ps) (hK : Kept s₀ s) : Kept s₀ (State.measurePhase s x ps) := by
  unfold State.measurePhase
  with_reducible repeat' first
    | assumption | apply State.judgeAligned_kept | apply State.setReg_kept

theorem State.settleClocks_kept {s₀ : State} {s : State} (hK : Kept s₀ s) : Kept s₀ (State.settleClocks s) := by
  unfold State.settleClocks
  repeat' first
    | (extract_lets +onlyGivenNames x; refine Kept.cut (t := x) ?_ fun _ => ?_; on_goal 1 => subst x; on_goal 2 => clear_value x)
    | (extract_lets +onlyGivenNames x; subst x)
    | (with_reducible first
        | assumption | intro _ | apply Kept.ite | apply State.emit_kept | apply State.hwMode_kept | apply State.raise_kept
        | apply State.wr_kept)

theorem State.acquire_kept {s₀ : State} {s : State} (x c : Nat) (hK : Kept s₀ s) : Kept s₀ (State.acquire s x c) := by
  unfold State.acquire
  repeat' first
    | (extract_lets +onlyGivenNames x; refine Kept.cut (t := x) ?_ fun _ => ?_; on_goal 1 => subst x; on_goal 2 => clear_value x)
    | (extract_lets +onlyGivenNames x; subst x)
    | (with_reducible first
        | assumption | apply Kept.ite | apply State.setDomState_kept | apply State.setDpll_kept | apply State.wr_kept)

theorem State.startCapture_kept {s₀ : State} {s : State} (x c : Nat) (hK : Kept s₀ s) : Kept s₀ (State.startCapture s x c) := by
  unfold State.startCapture
  repeat' first
    | (extract_lets +onlyGivenNames x; refine Kept.cut (t := x) ?_ fun _ => ?_; on_goal 1 => subst x; on_goal 2 => clear_value x)
    | (extract_lets +onlyGivenNames x; subst x)
    | (with_reducible first
        | assumption | apply Kept.ite | apply State.setDomState_kept | apply State.setRamp_kept | apply State.wr_kept)

theorem State.reselect_kept {s₀ : State} {s : State} (x : Nat) (hK : Kept s₀ s) : Kept s₀ (State.reselect s x) := by
  unfold State.reselect
  repeat' first
    | (extract_lets +onlyGivenNames x; refine Kept.cut (t := x) ?_ fun _ => ?_; on_goal 1 => subst x; on_goal 2 => clear_value x)
    | (extract_lets +onlyGivenNames x; subst x)
    | (with_reducible first
        | assumption | apply Kept.ite | apply State.acquire_kept | apply State.startCapture_kept)
    | split

theorem State.reselectAll_kept {s₀ : State} {s : State} (hK : Kept s₀ s) : Kept s₀ (State.reselectAll s) := by
  unfold State.reselectAll
  with_reducible repeat' first
    | assumption | apply State.reselect_kept | apply State.settleClocks_kept

theorem State.setCandState_kept {s₀ : State} {s : State} (c v : Nat) (hK : Kept s₀ s) : Kept s₀ (State.setCandState s c v) := by
  unfold State.setCandState
  repeat' first
    | (extract_lets +onlyGivenNames x; refine Kept.cut (t := x) ?_ fun _ => ?_; on_goal 1 => subst x; on_goal 2 => clear_value x)
    | (extract_lets +onlyGivenNames x; subst x)
    | (with_reducible first
        | assumption | intro _ | apply Kept.ite | apply State.raise_kept | apply State.wr_kept | apply Kept.foldl)

theorem State.loseFrom_kept {s₀ : State} {s : State} (c x : Nat) (hK : Kept s₀ s) : Kept s₀ (State.loseFrom s c x) := by
  unfold State.loseFrom
  repeat' first
    | (extract_lets +onlyGivenNames x; refine Kept.cut (t := x) ?_ fun _ => ?_; on_goal 1 => subst x; on_goal 2 => clear_value x)
    | (extract_lets +onlyGivenNames x; subst x)
    | (with_reducible first
        | assumption | apply Kept.ite | apply State.domFault_kept | apply State.raise_kept | apply State.setRamp_kept
        | apply State.wr_kept)

theorem State.disqualify_kept {s₀ : State} {s : State} (c reason next : Nat) (hK :
    Kept s₀ s) : Kept s₀ (State.disqualify s c reason next) := by
  unfold State.disqualify
  repeat' first
    | (extract_lets +onlyGivenNames x; refine Kept.cut (t := x) ?_ fun _ => ?_; on_goal 1 => subst x; on_goal 2 => clear_value x)
    | (extract_lets +onlyGivenNames x; subst x)
    | (with_reducible first
        | assumption | intro _ | apply Kept.ite | apply State.bump_kept | apply State.loseFrom_kept | apply State.reselectAll_kept
        | apply State.setCand_kept | apply State.setCandState_kept | apply State.wr_kept | apply Kept.foldl)

theorem State.candEnable_kept {s₀ : State} {s : State} (c : Nat) (hK : Kept s₀ s) : Kept s₀ (State.candEnable s c) := by
  unfold State.candEnable
  with_reducible repeat' first
    | assumption | apply Kept.ite | apply State.disqualify_kept | apply State.setCandState_kept

theorem State.coast_kept {s₀ : State} {s : State} (c : Nat) (hK : Kept s₀ s) : Kept s₀ (State.coast s c) := by
  unfold State.coast
  with_reducible repeat' first
    | assumption | intro _ | apply Kept.ite | apply State.steer_kept | apply Kept.foldl

theorem State.candMiss_kept {s₀ : State} {s : State} (c reason : Nat) (hK : Kept s₀ s) : Kept s₀ (State.candMiss s c reason) := by
  unfold State.candMiss
  repeat' first
    | (extract_lets +onlyGivenNames x; refine Kept.cut (t := x) ?_ fun _ => ?_; on_goal 1 => subst x; on_goal 2 => clear_value x)
    | (extract_lets +onlyGivenNames x; subst x)
    | (with_reducible first
        | assumption | apply Kept.ite | apply State.bump_kept | apply State.coast_kept | apply State.disqualify_kept
        | apply State.setCand_kept)

theorem execCandidateWindowClose_kept {s₀ : State} (c : CandIx) (edge : Bool) {s : State} (hK :
    Kept s₀ s) : KeptRes s₀ (execCandidateWindowClose c edge s) := by
  unfold execCandidateWindowClose
  repeat' first
    | (extract_lets +onlyGivenNames x; refine Kept.cut (t := x) ?_ fun _ => ?_; on_goal 1 => subst x; on_goal 2 => clear_value x)
    | (extract_lets +onlyGivenNames x; subst x)
    | (with_reducible first
        | assumption | apply Kept.ite | apply KeptRes.next | apply KeptRes.ite | apply State.candMiss_kept | apply State.setCand_kept)

theorem execCandidateStrayEdge_kept {s₀ : State} (c : CandIx) {s : State} (hK : Kept s₀ s) : KeptRes s₀ (execCandidateStrayEdge c s) := by
  unfold execCandidateStrayEdge
  with_reducible repeat' first
    | assumption | apply Kept.ite | apply KeptRes.next | apply KeptRes.ite | apply State.candMiss_kept | apply State.setCand_kept

theorem execCandidateFirstEdge_kept {s₀ : State} (c : CandIx) {s : State} (hK : Kept s₀ s) : KeptRes s₀ (execCandidateFirstEdge c s) := by
  unfold execCandidateFirstEdge
  with_reducible repeat' first
    | assumption | apply Kept.ite | apply KeptRes.next | apply KeptRes.ite | apply State.setCand_kept | apply State.setCandState_kept

theorem execCandidateQualified_kept {s₀ : State} (c : CandIx) {s : State} (hK : Kept s₀ s) : KeptRes s₀ (execCandidateQualified c s) := by
  unfold execCandidateQualified
  with_reducible repeat' first
    | assumption | apply Kept.ite | apply KeptRes.next | apply KeptRes.ite | apply State.reselectAll_kept | apply State.setCandState_kept

theorem State.follows_kept {s₀ : State} {s : State} (c : Nat) (ppb : Int) (hK : Kept s₀ s) : Kept s₀ (State.follows s c ppb) := by
  unfold State.follows
  repeat' first
    | (extract_lets +onlyGivenNames x; refine Kept.cut (t := x) ?_ fun _ => ?_; on_goal 1 => subst x; on_goal 2 => clear_value x)
    | (extract_lets +onlyGivenNames x; subst x)
    | (with_reducible first
        | assumption | intro _ | apply Kept.ite | apply State.steer_kept | apply Kept.foldl)

theorem execFrequencyInterval_kept {s₀ : State} (c : CandIx) (freq : Option Ppb) {s : State} (hK :
    Kept s₀ s) : KeptRes s₀ (execFrequencyInterval c freq s) := by
  unfold execFrequencyInterval
  repeat' first
    | (extract_lets +onlyGivenNames x; refine Kept.cut (t := x) ?_ fun _ => ?_; on_goal 1 => subst x; on_goal 2 => clear_value x)
    | (extract_lets +onlyGivenNames x; subst x)
    | (with_reducible first
        | assumption | intro _ | apply Kept.ite | apply KeptRes.next | apply KeptRes.ite | apply State.disqualify_kept
        | apply State.follows_kept | apply State.setCand_kept | apply State.setCandState_kept | apply State.setReg_kept)
    | split

theorem execDriftFit_kept {s₀ : State} (c : CandIx) {s : State} (hK : Kept s₀ s) : KeptRes s₀ (execDriftFit c s) := by
  unfold execDriftFit
  repeat' first
    | (extract_lets +onlyGivenNames x; refine Kept.cut (t := x) ?_ fun _ => ?_; on_goal 1 => subst x; on_goal 2 => clear_value x)
    | (extract_lets +onlyGivenNames x; subst x)
    | (with_reducible first
        | assumption | intro _ | apply Kept.ite | apply KeptRes.next | apply KeptRes.ite | apply State.disqualify_kept
        | apply State.raise_kept | apply State.setReg_kept)
    | split

theorem execCrossCheckOutvoted_kept {s₀ : State} (c : CandIx) {s : State} (hK : Kept s₀ s) : KeptRes s₀ (execCrossCheckOutvoted c s) := by
  unfold execCrossCheckOutvoted
  with_reducible repeat' first
    | assumption | apply Kept.ite | apply KeptRes.next | apply KeptRes.ite | apply State.disqualify_kept

theorem State.sourceLoss_kept {s₀ : State} {s : State} (c : Nat) (hK : Kept s₀ s) : Kept s₀ (State.sourceLoss s c) := by
  unfold State.sourceLoss
  with_reducible repeat' first
    | assumption | apply Kept.ite | apply State.disqualify_kept

theorem execTimeCandidateSourceLoss_kept {s₀ : State} (c : CandIx) {s : State} (hK :
    Kept s₀ s) : KeptRes s₀ (execTimeCandidateSourceLoss c s) := by
  unfold execTimeCandidateSourceLoss
  with_reducible repeat' first
    | assumption | apply Kept.ite | apply KeptRes.next | apply KeptRes.ite | apply State.sourceLoss_kept

theorem execWaitToRestoreExpiry_kept {s₀ : State} (x : DomIx) {s : State} (hK : Kept s₀ s) : KeptRes s₀ (execWaitToRestoreExpiry x s) := by
  unfold execWaitToRestoreExpiry
  repeat' first
    | (with_reducible first
        | assumption | apply Kept.ite | apply KeptRes.next | apply KeptRes.ite | apply State.settleClocks_kept
        | apply State.startCapture_kept)
    | split

theorem State.forceEffect_kept {s₀ : State} {s : State} (x : Nat) (hK : Kept s₀ s) : Kept s₀ (State.forceEffect s x) := by
  unfold State.forceEffect
  repeat' first
    | (extract_lets +onlyGivenNames x; refine Kept.cut (t := x) ?_ fun _ => ?_; on_goal 1 => subst x; on_goal 2 => clear_value x)
    | (extract_lets +onlyGivenNames x; subst x)
    | (with_reducible first
        | assumption | apply Kept.ite | apply State.raise_kept | apply State.reselect_kept | apply State.settleClocks_kept)

theorem execForceWrite_kept {s₀ : State} (x : DomIx) (en : Bool) (sel : BitVec 4) {s : State} (hK :
    Kept s₀ s) : KeptRes s₀ (execForceWrite x en sel s) := by
  unfold execForceWrite
  with_reducible repeat' first
    | assumption | apply KeptRes.next | apply State.forceEffect_kept | apply State.sw_kept

theorem execSwitchCaptureStart_kept {s₀ : State} (x : DomIx) {s : State} (hK : Kept s₀ s) : KeptRes s₀ (execSwitchCaptureStart x s) := by
  unfold execSwitchCaptureStart
  with_reducible repeat' first
    | assumption | apply KeptRes.next | apply State.reselect_kept | apply State.settleClocks_kept

theorem State.switchDone_kept {s₀ : State} {s : State} (x : Nat) (hK : Kept s₀ s) : Kept s₀ (State.switchDone s x) := by
  unfold State.switchDone
  repeat' first
    | (extract_lets +onlyGivenNames x; refine Kept.cut (t := x) ?_ fun _ => ?_; on_goal 1 => subst x; on_goal 2 => clear_value x)
    | (extract_lets +onlyGivenNames x; subst x)
    | (with_reducible first
        | assumption | apply Kept.ite | apply State.bump_kept | apply State.raise_kept | apply State.setDomState_kept
        | apply State.setDpll_kept)

theorem execSwitchCaptureEnd_kept {s₀ : State} (x : DomIx) (offset : Ps) {s : State} (hK :
    Kept s₀ s) : KeptRes s₀ (execSwitchCaptureEnd x offset s) := by
  unfold execSwitchCaptureEnd
  repeat' first
    | (extract_lets +onlyGivenNames x; refine Kept.cut (t := x) ?_ fun _ => ?_; on_goal 1 => subst x; on_goal 2 => clear_value x)
    | (extract_lets +onlyGivenNames x; subst x)
    | (with_reducible first
        | assumption | apply Kept.ite | apply KeptRes.next | apply KeptRes.ite | apply State.setRamp_kept | apply State.setReg_kept
        | apply State.settleClocks_kept | apply State.switchDone_kept | apply State.wr_kept)

theorem execPassThroughRampEnd_kept {s₀ : State} (x : DomIx) {s : State} (hK : Kept s₀ s) : KeptRes s₀ (execPassThroughRampEnd x s) := by
  unfold execPassThroughRampEnd
  with_reducible repeat' first
    | assumption | apply Kept.ite | apply KeptRes.next | apply KeptRes.ite | apply State.setRamp_kept | apply State.settleClocks_kept
    | apply State.switchDone_kept

theorem State.startDomain_kept {s₀ : State} {s : State} (x : Nat) (hK : Kept s₀ s) : Kept s₀ (State.startDomain s x) := by
  unfold State.startDomain
  repeat' first
    | (extract_lets +onlyGivenNames x; refine Kept.cut (t := x) ?_ fun _ => ?_; on_goal 1 => subst x; on_goal 2 => clear_value x)
    | (extract_lets +onlyGivenNames x; subst x)
    | (with_reducible first
        | assumption | apply Kept.ite | apply State.setDomState_kept | apply State.settleClocks_kept | apply State.wr_kept
        | fail_if_no_progress (apply Kept.upd))

theorem State.startDomains_kept {s₀ : State} {s : State} (x : Nat) (hK : Kept s₀ s) : Kept s₀ (State.startDomains s x) := by
  unfold State.startDomains
  repeat' first
    | (extract_lets +onlyGivenNames x; refine Kept.cut (t := x) ?_ fun _ => ?_; on_goal 1 => subst x; on_goal 2 => clear_value x)
    | (extract_lets +onlyGivenNames x; subst x)
    | (with_reducible first
        | assumption | intro _ | apply State.startDomain_kept | apply Kept.foldl)

theorem execDpllStageAdvance_kept {s₀ : State} (x : DomIx) (phase : Ps) (freq : Ppb) {s : State} (hK :
    Kept s₀ s) : KeptRes s₀ (execDpllStageAdvance x phase freq s) := by
  unfold execDpllStageAdvance
  repeat' first
    | (extract_lets +onlyGivenNames x; refine Kept.cut (t := x) ?_ fun _ => ?_; on_goal 1 => subst x; on_goal 2 => clear_value x)
    | (extract_lets +onlyGivenNames x; subst x)
    | (with_reducible first
        | assumption | apply Kept.ite | apply KeptRes.next | apply KeptRes.ite | apply State.measurePhase_kept | apply State.raise_kept
        | apply State.setDomState_kept | apply State.setDpll_kept | apply State.settleClocks_kept | apply State.startDomains_kept
        | apply State.steer_kept | apply State.wr_kept)
    | split

theorem execImagoFallback_kept {s₀ : State} (x : DomIx) (phase : Ps) {s : State} (hK :
    Kept s₀ s) : KeptRes s₀ (execImagoFallback x phase s) := by
  unfold execImagoFallback
  with_reducible repeat' first
    | assumption | apply Kept.ite | apply KeptRes.next | apply KeptRes.ite | apply State.measurePhase_kept | apply State.wr_kept

theorem State.enterCocoon_kept {s₀ : State} {s : State} (x : Nat) (r : FreqRecord) (hK :
    Kept s₀ s) : Kept s₀ (State.enterCocoon s x r) := by
  unfold State.enterCocoon
  repeat' first
    | (extract_lets +onlyGivenNames x; refine Kept.cut (t := x) ?_ fun _ => ?_; on_goal 1 => subst x; on_goal 2 => clear_value x)
    | (extract_lets +onlyGivenNames x; subst x)
    | (with_reducible first
        | assumption | apply Kept.ite | apply State.bump_kept | apply State.domFault_kept | apply State.setDomState_kept
        | apply State.setDpll_kept | apply State.setRamp_kept | apply State.setReg_kept | apply State.settleClocks_kept
        | apply State.steer_kept | apply State.wr_kept)

theorem execCocoonEntry_kept {s₀ : State} (x : DomIx) (rec : FreqRecord) {s : State} (hK :
    Kept s₀ s) : KeptRes s₀ (execCocoonEntry x rec s) := by
  unfold execCocoonEntry
  with_reducible repeat' first
    | assumption | apply Kept.ite | apply KeptRes.next | apply KeptRes.ite | apply State.enterCocoon_kept

theorem State.leaveCocoon_kept {s₀ : State} {s : State} (x : Nat) (hK : Kept s₀ s) : Kept s₀ (State.leaveCocoon s x) := by
  unfold State.leaveCocoon
  repeat' first
    | (with_reducible first
        | assumption | apply Kept.ite | apply State.settleClocks_kept | apply State.startCapture_kept)
    | split

theorem execCocoonExit_kept {s₀ : State} (x : DomIx) {s : State} (hK : Kept s₀ s) : KeptRes s₀ (execCocoonExit x s) := by
  unfold execCocoonExit
  with_reducible repeat' first
    | assumption | apply KeptRes.next | apply State.leaveCocoon_kept

theorem execClkHoldWrite_kept {s₀ : State} (x : DomIx) (hold : Bool) (rec : FreqRecord) {s : State} (hK :
    Kept s₀ s) : KeptRes s₀ (execClkHoldWrite x hold rec s) := by
  unfold execClkHoldWrite
  repeat' first
    | (extract_lets +onlyGivenNames x; refine Kept.cut (t := x) ?_ fun _ => ?_; on_goal 1 => subst x; on_goal 2 => clear_value x)
    | (extract_lets +onlyGivenNames x; subst x)
    | (with_reducible first
        | assumption | apply Kept.ite | apply KeptRes.next | apply KeptRes.ite | apply State.enterCocoon_kept
        | apply State.leaveCocoon_kept | apply State.sw_kept)

theorem execAlignLost_kept {s₀ : State} (x : DomIx) (phase : Ps) {s : State} (hK : Kept s₀ s) : KeptRes s₀ (execAlignLost x phase s) := by
  unfold execAlignLost
  with_reducible repeat' first
    | assumption | apply KeptRes.next | apply State.measurePhase_kept

theorem State.requestRealign_kept {s₀ : State} {s : State} (x : Nat) (hK : Kept s₀ s) : Kept s₀ (State.requestRealign s x) := by
  unfold State.requestRealign
  repeat' first
    | (extract_lets +onlyGivenNames x; refine Kept.cut (t := x) ?_ fun _ => ?_; on_goal 1 => subst x; on_goal 2 => clear_value x)
    | (extract_lets +onlyGivenNames x; subst x)
    | (with_reducible first
        | assumption | apply Kept.ite | apply State.raise_kept | apply State.setDom_kept | apply State.wr_kept)

theorem execRealignWrite_kept {s₀ : State} (x : DomIx) {s : State} (hK : Kept s₀ s) : KeptRes s₀ (execRealignWrite x s) := by
  unfold execRealignWrite
  with_reducible repeat' first
    | assumption | apply KeptRes.next | apply State.requestRealign_kept

theorem State.unfollow_kept {s₀ : State} {s : State} (x from_ : Nat) (hK : Kept s₀ s) : Kept s₀ (State.unfollow s x from_) := by
  unfold State.unfollow
  repeat' first
    | (extract_lets +onlyGivenNames x; refine Kept.cut (t := x) ?_ fun _ => ?_; on_goal 1 => subst x; on_goal 2 => clear_value x)
    | (extract_lets +onlyGivenNames x; subst x)
    | (with_reducible first
        | assumption | apply State.reselect_kept | apply State.setDomState_kept | apply State.setDpll_kept | apply State.settleClocks_kept
        | apply State.wr_kept)

theorem State.setPulse_kept {s₀ : State} {s : State} (o : Nat) (p : Pulse) (hK : Kept s₀ s) : Kept s₀ (State.setPulse s o p) := by
  unfold State.setPulse
  with_reducible repeat' first
    | assumption | intro _ | fail_if_no_progress (apply Kept.upd)

theorem execPulseOutputRealign_kept {s₀ : State} (o : Fin 3) {s : State} (hK : Kept s₀ s) : KeptRes s₀ (execPulseOutputRealign o s) := by
  unfold execPulseOutputRealign
  with_reducible repeat' first
    | assumption | apply KeptRes.next | apply State.setPulse_kept

theorem execPulseOutputPulse_kept {s₀ : State} (o : Fin 3) (misalignment : Option (BitVec 32)) {s : State} (hK :
    Kept s₀ s) : KeptRes s₀ (execPulseOutputPulse o misalignment s) := by
  unfold execPulseOutputPulse
  repeat' first
    | (extract_lets +onlyGivenNames x; refine Kept.cut (t := x) ?_ fun _ => ?_; on_goal 1 => subst x; on_goal 2 => clear_value x)
    | (extract_lets +onlyGivenNames x; subst x)
    | (with_reducible first
        | assumption | apply Kept.ite | apply KeptRes.next | apply KeptRes.ite | apply State.emit_kept | apply State.setPulse_kept
        | apply State.setReg_kept)
    | split

theorem execOscInStopped_kept {s₀ : State} {s : State} (hK : Kept s₀ s) : KeptRes s₀ (execOscInStopped s) := by
  unfold execOscInStopped
  with_reducible repeat' first
    | assumption | apply KeptRes.next | apply State.report_kept

theorem execOscWarn_kept {s₀ : State} {s : State} (hK : Kept s₀ s) : KeptRes s₀ (execOscWarn s) := by
  unfold execOscWarn
  repeat' first
    | (extract_lets +onlyGivenNames x; refine Kept.cut (t := x) ?_ fun _ => ?_; on_goal 1 => subst x; on_goal 2 => clear_value x)
    | (extract_lets +onlyGivenNames x; subst x)
    | (with_reducible first
        | assumption | apply Kept.ite | apply KeptRes.next | apply KeptRes.ite | apply State.raise_kept | apply State.report_kept
        | apply State.setReg_kept | apply State.wr_kept)
    | split

theorem State.setLink_kept {s₀ : State} {s : State} (k : Nat) (l : Nerax) (hK : Kept s₀ s) : Kept s₀ (State.setLink s k l) := by
  unfold State.setLink
  with_reducible repeat' first
    | assumption | intro _ | fail_if_no_progress (apply Kept.upd)

theorem State.setLinkState_kept {s₀ : State} {s : State} (k v : Nat) (hK : Kept s₀ s) : Kept s₀ (State.setLinkState s k v) := by
  unfold State.setLinkState
  with_reducible repeat' first
    | assumption | apply State.wr_kept

theorem State.linkFault_kept {s₀ : State} {s : State} (k : Nat) (f : FieldAt) (level : Nat) (hK :
    Kept s₀ s) : Kept s₀ (State.linkFault s k f level) := by
  unfold State.linkFault
  with_reducible repeat' first
    | assumption | apply State.raise_kept | apply State.report_kept

theorem State.concealLink_kept {s₀ : State} {s : State} (k : Nat) (hK : Kept s₀ s) : Kept s₀ (State.concealLink s k) := by
  unfold State.concealLink
  with_reducible repeat' first
    | assumption | intro _ | apply Kept.foldl | fail_if_no_progress (apply Kept.upd)

theorem State.leadLoss_kept {s₀ : State} {s : State} (k : Nat) (hK : Kept s₀ s) : Kept s₀ (State.leadLoss s k) := by
  unfold State.leadLoss
  repeat' first
    | (extract_lets +onlyGivenNames x; refine Kept.cut (t := x) ?_ fun _ => ?_; on_goal 1 => subst x; on_goal 2 => clear_value x)
    | (extract_lets +onlyGivenNames x; subst x)
    | (with_reducible first
        | assumption | apply Kept.ite | apply State.settleClocks_kept | apply State.sourceLoss_kept | apply State.wr_kept)

theorem State.lanesReady_kept {s₀ : State} {s : State} (k : Nat) (hK : Kept s₀ s) : Kept s₀ (State.lanesReady s k) := by
  unfold State.lanesReady
  with_reducible repeat' first
    | assumption | apply Kept.ite | apply State.setLinkState_kept

theorem State.setFov_kept {s₀ : State} {s : State} (f : Fov) (hK : Kept s₀ s) : Kept s₀ (State.setFov s f) := by
  unfold State.setFov
  with_reducible repeat' first
    | assumption | fail_if_no_progress (apply Kept.upd)

theorem State.endResync_kept {s₀ : State} {s : State} (hK : Kept s₀ s) : Kept s₀ (State.endResync s) := by
  unfold State.endResync
  repeat' first
    | (extract_lets +onlyGivenNames x; refine Kept.cut (t := x) ?_ fun _ => ?_; on_goal 1 => subst x; on_goal 2 => clear_value x)
    | (extract_lets +onlyGivenNames x; subst x)
    | (with_reducible first
        | assumption | apply Kept.ite | apply State.setFov_kept | apply State.weirDrop_kept | apply State.wr_kept)

theorem State.linkFall_kept {s₀ : State} {s : State} (k : Nat) (hK : Kept s₀ s) : Kept s₀ (State.linkFall s k) := by
  unfold State.linkFall
  repeat' first
    | (extract_lets +onlyGivenNames x; refine Kept.cut (t := x) ?_ fun _ => ?_; on_goal 1 => subst x; on_goal 2 => clear_value x)
    | (extract_lets +onlyGivenNames x; subst x)
    | (with_reducible first
        | assumption | intro _ | apply Kept.ite | apply State.bump_kept | apply State.concealLink_kept | apply State.endResync_kept
        | apply State.lanesReady_kept | apply State.leadLoss_kept | apply State.linkFault_kept | apply State.setLink_kept
        | apply State.setLinkState_kept)

theorem State.linkEnable_kept {s₀ : State} {s : State} (k : Nat) (hK : Kept s₀ s) : Kept s₀ (State.linkEnable s k) := by
  unfold State.linkEnable
  with_reducible repeat' first
    | assumption | apply Kept.ite | apply State.lanesReady_kept | apply State.linkFall_kept | apply State.setLinkState_kept

theorem State.laneTo_kept {s₀ : State} {s : State} (n v : Nat) (hK : Kept s₀ s) : Kept s₀ (State.laneTo s n v) := by
  unfold State.laneTo
  repeat' first
    | (extract_lets +onlyGivenNames x; refine Kept.cut (t := x) ?_ fun _ => ?_; on_goal 1 => subst x; on_goal 2 => clear_value x)
    | (extract_lets +onlyGivenNames x; subst x)
    | (with_reducible first
        | assumption | apply State.laneBelow_kept | apply State.linkFall_kept)
    | split

theorem State.laneStart_kept {s₀ : State} {s : State} (n : Nat) (hK : Kept s₀ s) : Kept s₀ (State.laneStart s n) := by
  unfold State.laneStart
  with_reducible repeat' first
    | assumption | apply Kept.ite | apply State.wr_kept

theorem State.laneStep_kept {s₀ : State} {s : State} (n a b : Nat) (hK : Kept s₀ s) : Kept s₀ (State.laneStep s n a b) := by
  unfold State.laneStep
  with_reducible repeat' first
    | assumption | apply Kept.ite | apply State.wr_kept

theorem execLaneSynthLock_kept {s₀ : State} (n : LaneIx) {s : State} (hK : Kept s₀ s) : KeptRes s₀ (execLaneSynthLock n s) := by
  unfold execLaneSynthLock
  with_reducible repeat' first
    | assumption | apply Kept.ite | apply KeptRes.next | apply KeptRes.ite | apply State.laneStep_kept | apply State.wr_kept

theorem execLaneSignalDetect_kept {s₀ : State} (n : LaneIx) {s : State} (hK : Kept s₀ s) : KeptRes s₀ (execLaneSignalDetect n s) := by
  unfold execLaneSignalDetect
  with_reducible repeat' first
    | assumption | apply Kept.ite | apply KeptRes.next | apply KeptRes.ite | apply State.laneTo_kept | apply State.wr_kept

theorem execLaneCdrLock_kept {s₀ : State} (n : LaneIx) {s : State} (hK : Kept s₀ s) : KeptRes s₀ (execLaneCdrLock n s) := by
  unfold execLaneCdrLock
  with_reducible repeat' first
    | assumption | apply Kept.ite | apply KeptRes.next | apply KeptRes.ite | apply State.laneStep_kept | apply State.wr_kept

theorem execLaneCtleConverged_kept {s₀ : State} (n : LaneIx) (ctle : Byte) {s : State} (hK :
    Kept s₀ s) : KeptRes s₀ (execLaneCtleConverged n ctle s) := by
  unfold execLaneCtleConverged
  with_reducible repeat' first
    | assumption | apply Kept.ite | apply KeptRes.next | apply KeptRes.ite | apply State.laneStep_kept | apply State.wr_kept

theorem execLaneDfeConverged_kept {s₀ : State} (n : LaneIx) (taps : BitVec 24) {s : State} (hK :
    Kept s₀ s) : KeptRes s₀ (execLaneDfeConverged n taps s) := by
  unfold execLaneDfeConverged
  repeat' first
    | (extract_lets +onlyGivenNames x; refine Kept.cut (t := x) ?_ fun _ => ?_; on_goal 1 => subst x; on_goal 2 => clear_value x)
    | (extract_lets +onlyGivenNames x; subst x)
    | (with_reducible first
        | assumption | apply Kept.ite | apply KeptRes.next | apply KeptRes.ite | apply State.laneStep_kept | apply State.lanesReady_kept
        | apply State.raise_kept | apply State.wr_kept)
    | split

theorem execLaneAdaptTimeout_kept {s₀ : State} (n : LaneIx) {s : State} (hK : Kept s₀ s) : KeptRes s₀ (execLaneAdaptTimeout n s) := by
  unfold execLaneAdaptTimeout
  with_reducible repeat' first
    | assumption | apply Kept.ite | apply KeptRes.next | apply KeptRes.ite | apply State.laneTo_kept | apply State.raise_kept

theorem State.laneLoss_kept {s₀ : State} {s : State} (n : Nat) (hK : Kept s₀ s) : Kept s₀ (State.laneLoss s n) := by
  unfold State.laneLoss
  with_reducible repeat' first
    | assumption | apply State.bump_kept | apply State.laneTo_kept | apply State.raise_kept | apply State.wr_kept

theorem execLaneSignalLoss_kept {s₀ : State} (n : LaneIx) (afterLpi : Bool) {s : State} (hK :
    Kept s₀ s) : KeptRes s₀ (execLaneSignalLoss n afterLpi s) := by
  unfold execLaneSignalLoss
  with_reducible repeat' first
    | assumption | apply Kept.ite | apply KeptRes.next | apply KeptRes.ite | apply State.laneLoss_kept | apply State.wr_kept

theorem State.readapt_kept {s₀ : State} {s : State} (n : Nat) (hK : Kept s₀ s) : Kept s₀ (State.readapt s n) := by
  unfold State.readapt
  with_reducible repeat' first
    | assumption | apply Kept.ite | apply State.raise_kept | apply State.weirRequest_kept

theorem execReadaptWrite_kept {s₀ : State} (n : LaneIx) {s : State} (hK : Kept s₀ s) : KeptRes s₀ (execReadaptWrite n s) := by
  unfold execReadaptWrite
  with_reducible repeat' first
    | assumption | apply Kept.ite | apply KeptRes.next | apply KeptRes.ite | apply State.readapt_kept

theorem State.laneLeave_kept {s₀ : State} {s : State} (n : Nat) (hK : Kept s₀ s) : Kept s₀ (State.laneLeave s n) := by
  unfold State.laneLeave
  with_reducible repeat' first
    | assumption | apply Kept.ite | apply State.scanAbort_kept | apply State.weirReturn_kept | apply State.wr_kept

theorem execReadaptEnd_kept {s₀ : State} (n : LaneIx) (ctle : Byte) (taps : BitVec 24) {s : State} (hK :
    Kept s₀ s) : KeptRes s₀ (execReadaptEnd n ctle taps s) := by
  unfold execReadaptEnd
  repeat' first
    | (extract_lets +onlyGivenNames x; refine Kept.cut (t := x) ?_ fun _ => ?_; on_goal 1 => subst x; on_goal 2 => clear_value x)
    | (extract_lets +onlyGivenNames x; subst x)
    | (with_reducible first
        | assumption | apply Kept.ite | apply KeptRes.next | apply KeptRes.ite | apply State.raise_kept | apply State.readaptDrop_kept
        | apply State.setReg_kept | apply State.wr_kept)

theorem State.setFill_kept {s₀ : State} {s : State} (n fill : Nat) (hK : Kept s₀ s) : Kept s₀ (State.setFill s n fill) := by
  unfold State.setFill
  repeat' first
    | (extract_lets +onlyGivenNames x; refine Kept.cut (t := x) ?_ fun _ => ?_; on_goal 1 => subst x; on_goal 2 => clear_value x)
    | (extract_lets +onlyGivenNames x; subst x)
    | (with_reducible first
        | assumption | apply Kept.ite | apply State.setLane_kept | apply State.setReg_kept)

theorem execElasticBufferUnit_kept {s₀ : State} (n : LaneIx) (fill : Fin 33) {s : State} (hK :
    Kept s₀ s) : KeptRes s₀ (execElasticBufferUnit n fill s) := by
  unfold execElasticBufferUnit
  with_reducible repeat' first
    | assumption | apply Kept.ite | apply KeptRes.next | apply KeptRes.ite | apply State.setFill_kept

theorem execElasticBufferRecentre_kept {s₀ : State} (n : LaneIx) (full : Bool) {s : State} (hK :
    Kept s₀ s) : KeptRes s₀ (execElasticBufferRecentre n full s) := by
  unfold execElasticBufferRecentre
  repeat' first
    | (extract_lets +onlyGivenNames x; refine Kept.cut (t := x) ?_ fun _ => ?_; on_goal 1 => subst x; on_goal 2 => clear_value x)
    | (extract_lets +onlyGivenNames x; subst x)
    | (with_reducible first
        | assumption | apply Kept.ite | apply KeptRes.next | apply KeptRes.ite | apply State.bump_kept | apply State.raise_kept
        | apply State.report_kept | apply State.setFill_kept)

theorem execEmbeddedClockFallback_kept {s₀ : State} (k : LinkIx) {s : State} (hK :
    Kept s₀ s) : KeptRes s₀ (execEmbeddedClockFallback k s) := by
  unfold execEmbeddedClockFallback
  repeat' first
    | (extract_lets +onlyGivenNames x; refine Kept.cut (t := x) ?_ fun _ => ?_; on_goal 1 => subst x; on_goal 2 => clear_value x)
    | (extract_lets +onlyGivenNames x; subst x)
    | (with_reducible first
        | assumption | intro _ | apply Kept.ite | apply KeptRes.next | apply KeptRes.ite | apply State.raise_kept | apply State.wr_kept
        | apply Kept.foldl)

theorem execEmbeddedClockReturn_kept {s₀ : State} (k : LinkIx) {s : State} (hK : Kept s₀ s) : KeptRes s₀ (execEmbeddedClockReturn k s) := by
  unfold execEmbeddedClockReturn
  repeat' first
    | (extract_lets +onlyGivenNames x; refine Kept.cut (t := x) ?_ fun _ => ?_; on_goal 1 => subst x; on_goal 2 => clear_value x)
    | (extract_lets +onlyGivenNames x; subst x)
    | (with_reducible first
        | assumption | apply Kept.ite | apply KeptRes.next | apply KeptRes.ite | apply State.wr_kept)

theorem State.stopTests_kept {s₀ : State} {s : State} (n : Nat) (hK : Kept s₀ s) : Kept s₀ (State.stopTests s n) := by
  unfold State.stopTests
  repeat' first
    | (extract_lets +onlyGivenNames x; refine Kept.cut (t := x) ?_ fun _ => ?_; on_goal 1 => subst x; on_goal 2 => clear_value x)
    | (extract_lets +onlyGivenNames x; subst x)
    | (with_reducible first
        | assumption | apply State.hw_kept | apply State.scanAbort_kept | apply State.setLane_kept)

theorem State.maintenanceEnds_kept {s₀ : State} {s : State} (hK : Kept s₀ s) : Kept s₀ (State.maintenanceEnds s) := by
  unfold State.maintenanceEnds
  repeat' first
    | (extract_lets +onlyGivenNames x; refine Kept.cut (t := x) ?_ fun _ => ?_; on_goal 1 => subst x; on_goal 2 => clear_value x)
    | (extract_lets +onlyGivenNames x; subst x)
    | (with_reducible first
        | assumption | intro _ | apply Kept.ite | apply State.laneTo_kept | apply State.stopTests_kept | apply State.wr_kept
        | apply Kept.foldl)

theorem execRefclkLost_kept {s₀ : State} (r : Fin 3) {s : State} (hK : Kept s₀ s) : KeptRes s₀ (execRefclkLost r s) := by
  unfold execRefclkLost
  repeat' first
    | (extract_lets +onlyGivenNames x; refine Kept.cut (t := x) ?_ fun _ => ?_; on_goal 1 => subst x; on_goal 2 => clear_value x)
    | (extract_lets +onlyGivenNames x; subst x)
    | (with_reducible first
        | assumption | intro _ | apply Kept.ite | apply KeptRes.next | apply KeptRes.ite | apply State.laneTo_kept
        | apply State.raise_kept | apply State.report_kept | apply State.stopTests_kept | apply State.wr_kept | apply Kept.foldl)

theorem execRefclkReturn_kept {s₀ : State} (r : Fin 3) {s : State} (hK : Kept s₀ s) : KeptRes s₀ (execRefclkReturn r s) := by
  unfold execRefclkReturn
  repeat' first
    | (extract_lets +onlyGivenNames x; refine Kept.cut (t := x) ?_ fun _ => ?_; on_goal 1 => subst x; on_goal 2 => clear_value x)
    | (extract_lets +onlyGivenNames x; subst x)
    | (with_reducible first
        | assumption | intro _ | apply Kept.ite | apply KeptRes.next | apply KeptRes.ite | apply State.endCause_kept | apply State.wr_kept
        | apply Kept.foldl)

theorem State.testRefused_kept {s₀ : State} {s : State} (n : Nat) (hK : Kept s₀ s) : Kept s₀ (State.testRefused s n) := by
  unfold State.testRefused
  with_reducible repeat' first
    | assumption | apply State.raise_kept

theorem State.judgeGen_kept {s₀ : State} {s : State} (n : Nat) (hK : Kept s₀ s) : Kept s₀ (State.judgeGen s n) := by
  unfold State.judgeGen
  with_reducible repeat' first
    | assumption | apply Kept.ite | apply State.setLane_kept

theorem State.writeLoop_kept {s₀ : State} {s : State} (n mode : Nat) (hK : Kept s₀ s) : Kept s₀ (State.writeLoop s n mode) := by
  unfold State.writeLoop
  repeat' first
    | (extract_lets +onlyGivenNames x; refine Kept.cut (t := x) ?_ fun _ => ?_; on_goal 1 => subst x; on_goal 2 => clear_value x)
    | (extract_lets +onlyGivenNames x; subst x)
    | (with_reducible first
        | assumption | apply Kept.ite | apply State.judgeGen_kept | apply State.laneTo_kept | apply State.setLane_kept
        | apply State.sw_kept | apply State.testRefused_kept | apply State.wr_kept)

theorem execLoopModeWrite_kept {s₀ : State} (n : LaneIx) (mode : Fin 4) {s : State} (hK :
    Kept s₀ s) : KeptRes s₀ (execLoopModeWrite n mode s) := by
  unfold execLoopModeWrite
  with_reducible repeat' first
    | assumption | apply KeptRes.next | apply State.writeLoop_kept

theorem State.writePrbs_kept {s₀ : State} {s : State} (n : Nat) (v : Word) (hK : Kept s₀ s) : Kept s₀ (State.writePrbs s n v) := by
  unfold State.writePrbs
  repeat' first
    | (extract_lets +onlyGivenNames x; refine Kept.cut (t := x) ?_ fun _ => ?_; on_goal 1 => subst x; on_goal 2 => clear_value x)
    | (extract_lets +onlyGivenNames x; subst x)
    | (with_reducible first
        | assumption | apply Kept.ite | apply State.judgeGen_kept | apply State.setReg_kept | apply State.setWide_kept
        | apply State.sw_kept | apply State.testRefused_kept)

theorem execPrbsCtrlWrite_kept {s₀ : State} (n : LaneIx) (value : Word) {s : State} (hK :
    Kept s₀ s) : KeptRes s₀ (execPrbsCtrlWrite n value s) := by
  unfold execPrbsCtrlWrite
  with_reducible repeat' first
    | assumption | apply KeptRes.next | apply State.writePrbs_kept

theorem execPrbsCheckerLock_kept {s₀ : State} (n : LaneIx) (lock : Bool) (bits errors : Nat) {s : State} (hK :
    Kept s₀ s) : KeptRes s₀ (execPrbsCheckerLock n lock bits errors s) := by
  unfold execPrbsCheckerLock
  repeat' first
    | (extract_lets +onlyGivenNames x; refine Kept.cut (t := x) ?_ fun _ => ?_; on_goal 1 => subst x; on_goal 2 => clear_value x)
    | (extract_lets +onlyGivenNames x; subst x)
    | (with_reducible first
        | assumption | apply Kept.ite | apply KeptRes.next | apply KeptRes.ite | apply State.bump_kept | apply State.raise_kept
        | apply State.setWide_kept | apply State.wr_kept)

theorem State.injectOnce_kept {s₀ : State} {s : State} (n : Nat) (hK : Kept s₀ s) : Kept s₀ (State.injectOnce s n) := by
  unfold State.injectOnce
  with_reducible repeat' first
    | assumption | apply Kept.ite | apply State.emit_kept | apply State.testRefused_kept

theorem execInjectOnce_kept {s₀ : State} (n : LaneIx) {s : State} (hK : Kept s₀ s) : KeptRes s₀ (execInjectOnce n s) := by
  unfold execInjectOnce
  with_reducible repeat' first
    | assumption | apply KeptRes.next | apply State.injectOnce_kept

theorem State.writeScan_kept {s₀ : State} {s : State} (n : Nat) (v : Word) (hK : Kept s₀ s) : Kept s₀ (State.writeScan s n v) := by
  unfold State.writeScan
  repeat' first
    | (extract_lets +onlyGivenNames x; refine Kept.cut (t := x) ?_ fun _ => ?_; on_goal 1 => subst x; on_goal 2 => clear_value x)
    | (extract_lets +onlyGivenNames x; subst x)
    | (with_reducible first
        | assumption | apply Kept.ite | apply State.setReg_kept | apply State.sw_kept | apply State.testRefused_kept)

theorem execScanStart_kept {s₀ : State} (n : LaneIx) (value : Word) {s : State} (hK :
    Kept s₀ s) : KeptRes s₀ (execScanStart n value s) := by
  unfold execScanStart
  with_reducible repeat' first
    | assumption | apply KeptRes.next | apply State.writeScan_kept

theorem execScanDone_kept {s₀ : State} (n : LaneIx) (errors : Word) {s : State} (hK :
    Kept s₀ s) : KeptRes s₀ (execScanDone n errors s) := by
  unfold execScanDone
  with_reducible repeat' first
    | assumption | apply Kept.ite | apply KeptRes.next | apply KeptRes.ite | apply State.raise_kept | apply State.setReg_kept

theorem execRxIdleTimeout_kept {s₀ : State} (n : LaneIx) {s : State} (hK : Kept s₀ s) : KeptRes s₀ (execRxIdleTimeout n s) := by
  unfold execRxIdleTimeout
  with_reducible repeat' first
    | assumption | apply Kept.ite | apply KeptRes.next | apply KeptRes.ite | apply State.laneLoss_kept

theorem execReceiveIdleSignalReturn_kept {s₀ : State} (n : LaneIx) {s : State} (hK :
    Kept s₀ s) : KeptRes s₀ (execReceiveIdleSignalReturn n s) := by
  unfold execReceiveIdleSignalReturn
  with_reducible repeat' first
    | assumption | apply Kept.ite | apply KeptRes.next | apply KeptRes.ite | apply State.wr_kept

theorem State.fovFault_kept {s₀ : State} {s : State} (f : FieldAt) (level : Nat) (hK : Kept s₀ s) : Kept s₀ (State.fovFault s f level) := by
  unfold State.fovFault
  with_reducible repeat' first
    | assumption | apply State.raise_kept | apply State.report_kept

theorem State.setFovState_kept {s₀ : State} {s : State} (v : Nat) (hK : Kept s₀ s) : Kept s₀ (State.setFovState s v) := by
  unfold State.setFovState
  with_reducible repeat' first
    | assumption | apply State.wr_kept

theorem State.sendLease_kept {s₀ : State} {s : State} (kind number at_ : Nat) (hK :
    Kept s₀ s) : Kept s₀ (State.sendLease s kind number at_) := by
  unfold State.sendLease
  with_reducible repeat' first
    | assumption | apply Kept.ite | apply State.emit_kept

theorem State.toggleLease_kept {s₀ : State} {s : State} (hK : Kept s₀ s) : Kept s₀ (State.toggleLease s) := by
  unfold State.toggleLease
  with_reducible repeat' first
    | assumption | apply Kept.ite | apply State.emit_kept | apply State.setFov_kept

theorem State.judgeSole_kept {s₀ : State} {s : State} (hK : Kept s₀ s) : Kept s₀ (State.judgeSole s) := by
  unfold State.judgeSole
  repeat' first
    | (extract_lets +onlyGivenNames x; refine Kept.cut (t := x) ?_ fun _ => ?_; on_goal 1 => subst x; on_goal 2 => clear_value x)
    | (extract_lets +onlyGivenNames x; subst x)
    | (with_reducible first
        | assumption | apply Kept.ite | apply State.raise_kept | apply State.setFov_kept | apply State.wr_kept)

theorem State.seePath_kept {s₀ : State} {s : State} (p : LeasePath) (hK : Kept s₀ s) : Kept s₀ (State.seePath s p) := by
  unfold State.seePath
  repeat' first
    | (extract_lets +onlyGivenNames x; refine Kept.cut (t := x) ?_ fun _ => ?_; on_goal 1 => subst x; on_goal 2 => clear_value x)
    | (extract_lets +onlyGivenNames x; subst x)
    | (with_reducible first
        | assumption | apply Kept.ite | apply State.raise_kept | apply State.setFov_kept | apply State.wr_kept)
    | split

theorem State.peerSignals_kept {s₀ : State} {s : State} (hK : Kept s₀ s) : Kept s₀ (State.peerSignals s) := by
  unfold State.peerSignals
  with_reducible repeat' first
    | assumption | apply State.judgeSole_kept | apply State.setFov_kept

theorem State.noteSwitch_kept {s₀ : State} {s : State} (hK : Kept s₀ s) : Kept s₀ (State.noteSwitch s) := by
  unfold State.noteSwitch
  with_reducible repeat' first
    | assumption | apply State.setWide_kept

theorem State.requestRole_kept {s₀ : State} {s : State} (keeper : Bool) (hK : Kept s₀ s) : Kept s₀ (State.requestRole s keeper) := by
  unfold State.requestRole
  with_reducible repeat' first
    | assumption | apply State.hwMode_kept

theorem State.becomeKeeper_kept {s₀ : State} {s : State} (hK : Kept s₀ s) : Kept s₀ (State.becomeKeeper s) := by
  unfold State.becomeKeeper
  repeat' first
    | (extract_lets +onlyGivenNames x; refine Kept.cut (t := x) ?_ fun _ => ?_; on_goal 1 => subst x; on_goal 2 => clear_value x)
    | (extract_lets +onlyGivenNames x; subst x)
    | (with_reducible first
        | assumption | apply State.applySafe_kept | apply State.noteSwitch_kept | apply State.raise_kept | apply State.requestRole_kept
        | apply State.setFov_kept | apply State.setFovState_kept | apply State.wr_kept)

theorem State.takeLease_kept {s₀ : State} {s : State} (hK : Kept s₀ s) : Kept s₀ (State.takeLease s) := by
  unfold State.takeLease
  with_reducible repeat' first
    | assumption | apply State.becomeKeeper_kept | apply State.bump_kept

theorem State.fastTake_kept {s₀ : State} {s : State} (hK : Kept s₀ s) : Kept s₀ (State.fastTake s) := by
  unfold State.fastTake
  with_reducible repeat' first
    | assumption | apply Kept.ite | apply State.takeLease_kept

theorem State.stopKeeper_kept {s₀ : State} {s : State} (next : Nat) (hK : Kept s₀ s) : Kept s₀ (State.stopKeeper s next) := by
  unfold State.stopKeeper
  repeat' first
    | (extract_lets +onlyGivenNames x; refine Kept.cut (t := x) ?_ fun _ => ?_; on_goal 1 => subst x; on_goal 2 => clear_value x)
    | (extract_lets +onlyGivenNames x; subst x)
    | (with_reducible first
        | assumption | apply State.applySafe_kept | apply State.noteSwitch_kept | apply State.raise_kept | apply State.requestRole_kept
        | apply State.setFov_kept | apply State.setFovState_kept | apply State.wr_kept)

theorem State.enterPair_kept {s₀ : State} {s : State} (hK : Kept s₀ s) : Kept s₀ (State.enterPair s) := by
  unfold State.enterPair
  repeat' first
    | (extract_lets +onlyGivenNames x; refine Kept.cut (t := x) ?_ fun _ => ?_; on_goal 1 => subst x; on_goal 2 => clear_value x)
    | (extract_lets +onlyGivenNames x; subst x)
    | (with_reducible first
        | assumption | apply State.applySafe_kept | apply State.fastTake_kept | apply State.judgeSole_kept | apply State.requestRole_kept
        | apply State.setFov_kept | apply State.setFovState_kept | apply State.wr_kept)

theorem State.leavePair_kept {s₀ : State} {s : State} (hK : Kept s₀ s) : Kept s₀ (State.leavePair s) := by
  unfold State.leavePair
  repeat' first
    | (extract_lets +onlyGivenNames x; refine Kept.cut (t := x) ?_ fun _ => ?_; on_goal 1 => subst x; on_goal 2 => clear_value x)
    | (extract_lets +onlyGivenNames x; subst x)
    | (with_reducible first
        | assumption | apply State.applySafe_kept | apply State.endResync_kept | apply State.hwMode_kept | apply State.setFov_kept
        | apply State.setFovState_kept | apply State.wr_kept)

theorem State.startResync_kept {s₀ : State} {s : State} (hK : Kept s₀ s) : Kept s₀ (State.startResync s) := by
  unfold State.startResync
  with_reducible repeat' first
    | assumption | apply Kept.ite | apply State.setFov_kept | apply State.weirRequest_kept | apply State.wr_kept

theorem State.loseSync_kept {s₀ : State} {s : State} (hK : Kept s₀ s) : Kept s₀ (State.loseSync s) := by
  unfold State.loseSync
  repeat' first
    | (extract_lets +onlyGivenNames x; refine Kept.cut (t := x) ?_ fun _ => ?_; on_goal 1 => subst x; on_goal 2 => clear_value x)
    | (extract_lets +onlyGivenNames x; subst x)
    | (with_reducible first
        | assumption | apply Kept.ite | apply State.fovFault_kept | apply State.setFov_kept | apply State.startResync_kept
        | apply State.wr_kept)

theorem State.noteExact_kept {s₀ : State} {s : State} (l : Nat) (b : Barge) (hK : Kept s₀ s) : Kept s₀ (State.noteExact s l b) := by
  unfold State.noteExact
  with_reducible repeat' first
    | assumption | apply Kept.ite | apply State.emit_kept | apply State.setFov_kept

theorem execLeaseRenewal_kept {s₀ : State} {s : State} (hK : Kept s₀ s) : KeptRes s₀ (execLeaseRenewal s) := by
  unfold execLeaseRenewal
  repeat' first
    | (extract_lets +onlyGivenNames x; refine Kept.cut (t := x) ?_ fun _ => ?_; on_goal 1 => subst x; on_goal 2 => clear_value x)
    | (extract_lets +onlyGivenNames x; subst x)
    | (with_reducible first
        | assumption | apply Kept.ite | apply KeptRes.next | apply KeptRes.ite | apply State.sendLease_kept | apply State.setFov_kept
        | apply State.toggleLease_kept)

theorem State.takeRenewal_kept {s₀ : State} {s : State} (p : LeasePath) (number : Nat) (hK :
    Kept s₀ s) : Kept s₀ (State.takeRenewal s p number) := by
  unfold State.takeRenewal
  repeat' first
    | (extract_lets +onlyGivenNames x; refine Kept.cut (t := x) ?_ fun _ => ?_; on_goal 1 => subst x; on_goal 2 => clear_value x)
    | (extract_lets +onlyGivenNames x; subst x)
    | (with_reducible first
        | assumption | apply Kept.ite | apply State.applySafe_kept | apply State.endCause_kept | apply State.peerSignals_kept
        | apply State.seePath_kept | apply State.sendLease_kept | apply State.setFov_kept | apply State.setFovState_kept
        | apply State.toggleLease_kept)
    | split

theorem State.foreignEdge_kept {s₀ : State} {s : State} (hK : Kept s₀ s) : Kept s₀ (State.foreignEdge s) := by
  unfold State.foreignEdge
  with_reducible repeat' first
    | assumption | apply Kept.ite | apply State.bump_kept

theorem State.secondKeeper_kept {s₀ : State} {s : State} (hK : Kept s₀ s) : Kept s₀ (State.secondKeeper s) := by
  unfold State.secondKeeper
  repeat' first
    | (extract_lets +onlyGivenNames x; refine Kept.cut (t := x) ?_ fun _ => ?_; on_goal 1 => subst x; on_goal 2 => clear_value x)
    | (extract_lets +onlyGivenNames x; subst x)
    | (with_reducible first
        | assumption | apply Kept.ite | apply State.fovFault_kept | apply State.setFov_kept | apply State.stopKeeper_kept)

theorem execLeaseRenewalReceived_kept {s₀ : State} (p : LeasePath) (r : LeaseRecord) {s : State} (hK :
    Kept s₀ s) : KeptRes s₀ (execLeaseRenewalReceived p r s) := by
  unfold execLeaseRenewalReceived
  repeat' first
    | (with_reducible first
        | assumption | apply Kept.ite | apply KeptRes.next | apply KeptRes.ite | apply State.foreignEdge_kept
        | apply State.secondKeeper_kept | apply State.takeRenewal_kept)
    | split

theorem execLeaseEchoReceived_kept {s₀ : State} (p : LeasePath) (r : LeaseRecord) {s : State} (hK :
    Kept s₀ s) : KeptRes s₀ (execLeaseEchoReceived p r s) := by
  unfold execLeaseEchoReceived
  repeat' first
    | (extract_lets +onlyGivenNames x; refine Kept.cut (t := x) ?_ fun _ => ?_; on_goal 1 => subst x; on_goal 2 => clear_value x)
    | (extract_lets +onlyGivenNames x; subst x)
    | (with_reducible first
        | assumption | intro _ | apply Kept.ite | apply KeptRes.next | apply KeptRes.ite | apply State.foreignEdge_kept
        | apply State.peerSignals_kept | apply State.seePath_kept | apply State.setFov_kept | apply State.wr_kept)

theorem execForeignLeaseEdge_kept {s₀ : State} {s : State} (hK : Kept s₀ s) : KeptRes s₀ (execForeignLeaseEdge s) := by
  unfold execForeignLeaseEdge
  with_reducible repeat' first
    | assumption | apply KeptRes.next | apply State.foreignEdge_kept

theorem execDepartPattern_kept {s₀ : State} {s : State} (hK : Kept s₀ s) : KeptRes s₀ (execDepartPattern s) := by
  unfold execDepartPattern
  repeat' first
    | (extract_lets +onlyGivenNames x; refine Kept.cut (t := x) ?_ fun _ => ?_; on_goal 1 => subst x; on_goal 2 => clear_value x)
    | (extract_lets +onlyGivenNames x; subst x)
    | (with_reducible first
        | assumption | apply Kept.ite | apply KeptRes.next | apply KeptRes.ite | apply State.emit_kept | apply State.sendLease_kept
        | apply State.setFov_kept)

theorem execDepartReceived_kept {s₀ : State} {s : State} (hK : Kept s₀ s) : KeptRes s₀ (execDepartReceived s) := by
  unfold execDepartReceived
  with_reducible repeat' first
    | assumption | apply Kept.ite | apply KeptRes.next | apply KeptRes.ite | apply State.judgeSole_kept | apply State.setFov_kept

theorem execPeerAliveLow_kept {s₀ : State} {s : State} (hK : Kept s₀ s) : KeptRes s₀ (execPeerAliveLow s) := by
  unfold execPeerAliveLow
  with_reducible repeat' first
    | assumption | apply KeptRes.next | apply State.fastTake_kept | apply State.judgeSole_kept | apply State.wr_kept

theorem execPeerAliveHigh_kept {s₀ : State} {s : State} (hK : Kept s₀ s) : KeptRes s₀ (execPeerAliveHigh s) := by
  unfold execPeerAliveHigh
  with_reducible repeat' first
    | assumption | apply KeptRes.next | apply State.judgeSole_kept | apply State.wr_kept

theorem execKeeperFenceTimeout_kept {s₀ : State} {s : State} (hK : Kept s₀ s) : KeptRes s₀ (execKeeperFenceTimeout s) := by
  unfold execKeeperFenceTimeout
  with_reducible repeat' first
    | assumption | apply Kept.ite | apply KeptRes.next | apply KeptRes.ite | apply State.fovFault_kept | apply State.raise_kept
    | apply State.stopKeeper_kept

theorem execLeaseTake_kept {s₀ : State} {s : State} (hK : Kept s₀ s) : KeptRes s₀ (execLeaseTake s) := by
  unfold execLeaseTake
  with_reducible repeat' first
    | assumption | apply Kept.ite | apply KeptRes.next | apply KeptRes.ite | apply State.takeLease_kept

theorem execSecondKeeperFound_kept {s₀ : State} {s : State} (hK : Kept s₀ s) : KeptRes s₀ (execSecondKeeperFound s) := by
  unfold execSecondKeeperFound
  with_reducible repeat' first
    | assumption | apply KeptRes.next | apply State.secondKeeper_kept

theorem execClaim_kept {s₀ : State} {s : State} (hK : Kept s₀ s) : KeptRes s₀ (execClaim s) := by
  unfold execClaim
  repeat' first
    | (extract_lets +onlyGivenNames x; refine Kept.cut (t := x) ?_ fun _ => ?_; on_goal 1 => subst x; on_goal 2 => clear_value x)
    | (extract_lets +onlyGivenNames x; subst x)
    | (with_reducible first
        | assumption | intro _ | apply Kept.ite | apply KeptRes.next | apply KeptRes.ite | apply State.becomeKeeper_kept
        | apply State.endCause_kept)

theorem execPathLost_kept {s₀ : State} (p : LeasePath) {s : State} (hK : Kept s₀ s) : KeptRes s₀ (execPathLost p s) := by
  unfold execPathLost
  repeat' first
    | (extract_lets +onlyGivenNames x; refine Kept.cut (t := x) ?_ fun _ => ?_; on_goal 1 => subst x; on_goal 2 => clear_value x)
    | (extract_lets +onlyGivenNames x; subst x)
    | (with_reducible first
        | assumption | intro _ | apply Kept.ite | apply KeptRes.next | apply KeptRes.ite | apply State.fovFault_kept | apply State.wr_kept)
    | split

theorem execArmingTimeExpiry_kept {s₀ : State} {s : State} (hK : Kept s₀ s) : KeptRes s₀ (execArmingTimeExpiry s) := by
  unfold execArmingTimeExpiry
  with_reducible repeat' first
    | assumption | intro _ | apply Kept.ite | apply KeptRes.next | apply KeptRes.ite | apply State.setFov_kept | apply State.wr_kept

theorem execYieldRequest_kept {s₀ : State} {s : State} (hK : Kept s₀ s) : KeptRes s₀ (execYieldRequest s) := by
  unfold execYieldRequest
  repeat' first
    | (extract_lets +onlyGivenNames x; refine Kept.cut (t := x) ?_ fun _ => ?_; on_goal 1 => subst x; on_goal 2 => clear_value x)
    | (extract_lets +onlyGivenNames x; subst x)
    | (with_reducible first
        | assumption | apply Kept.ite | apply KeptRes.next | apply KeptRes.ite | apply State.raise_kept | apply State.sendLease_kept
        | apply State.setFov_kept)

theorem execYieldCancel_kept {s₀ : State} {s : State} (hK : Kept s₀ s) : KeptRes s₀ (execYieldCancel s) := by
  unfold execYieldCancel
  repeat' first
    | (extract_lets +onlyGivenNames x; refine Kept.cut (t := x) ?_ fun _ => ?_; on_goal 1 => subst x; on_goal 2 => clear_value x)
    | (extract_lets +onlyGivenNames x; subst x)
    | (with_reducible first
        | assumption | intro _ | apply Kept.ite | apply KeptRes.next | apply KeptRes.ite | apply State.raise_kept
        | apply State.setFov_kept)

theorem State.takeLeaseRecord_kept {s₀ : State} {s : State} (r : LeaseRecord) (hK : Kept s₀ s) : Kept s₀ (State.takeLeaseRecord s r) := by
  unfold State.takeLeaseRecord
  repeat' first
    | (extract_lets +onlyGivenNames x; refine Kept.cut (t := x) ?_ fun _ => ?_; on_goal 1 => subst x; on_goal 2 => clear_value x)
    | (extract_lets +onlyGivenNames x; subst x)
    | (with_reducible first
        | assumption | apply Kept.ite | apply State.sendLease_kept | apply State.setFov_kept | apply State.setReg_kept)

theorem execMirrorCrcCompare_kept {s₀ : State} (lock tick : Nat) (crc : Word) (late : Bool) {s : State} (hK :
    Kept s₀ s) : KeptRes s₀ (execMirrorCrcCompare lock tick crc late s) := by
  unfold execMirrorCrcCompare
  repeat' first
    | (extract_lets +onlyGivenNames x; refine Kept.cut (t := x) ?_ fun _ => ?_; on_goal 1 => subst x; on_goal 2 => clear_value x)
    | (extract_lets +onlyGivenNames x; subst x)
    | (with_reducible first
        | assumption | intro _ | apply Kept.ite | apply KeptRes.next | apply KeptRes.ite | apply State.bump_kept
        | apply State.loseSync_kept | apply State.setFov_kept)

theorem execResyncStart_kept {s₀ : State} {s : State} (hK : Kept s₀ s) : KeptRes s₀ (execResyncStart s) := by
  unfold execResyncStart
  with_reducible repeat' first
    | assumption | apply KeptRes.next | apply State.startResync_kept

theorem State.resyncLeave_kept {s₀ : State} {s : State} (hK : Kept s₀ s) : Kept s₀ (State.resyncLeave s) := by
  unfold State.resyncLeave
  with_reducible repeat' first
    | assumption | apply Kept.ite | apply State.emit_kept | apply State.setFov_kept | apply State.weirReturn_kept | apply State.wr_kept

theorem execResyncCopyEnd_kept {s₀ : State} {s : State} (hK : Kept s₀ s) : KeptRes s₀ (execResyncCopyEnd s) := by
  unfold execResyncCopyEnd
  with_reducible repeat' first
    | assumption | apply Kept.ite | apply KeptRes.next | apply KeptRes.ite | apply State.setFov_kept | apply State.weirReturn_kept
    | apply State.wr_kept

theorem execResyncCompareEnd_kept {s₀ : State} {s : State} (hK : Kept s₀ s) : KeptRes s₀ (execResyncCompareEnd s) := by
  unfold execResyncCompareEnd
  with_reducible repeat' first
    | assumption | apply Kept.ite | apply KeptRes.next | apply KeptRes.ite | apply State.raise_kept | apply State.wr_kept

theorem execResyncAbort_kept {s₀ : State} {s : State} (hK : Kept s₀ s) : KeptRes s₀ (execResyncAbort s) := by
  unfold execResyncAbort
  with_reducible repeat' first
    | assumption | apply KeptRes.next | apply State.endResync_kept

theorem State.neraxSend_kept {s₀ : State} {s : State} (k type : Nat) (body : BitVec 26) (payload : List Byte) (domain : Nat) (tick : Option Nat) (ends : Bool) (hK :
    Kept s₀ s) : Kept s₀ (State.neraxSend s k type body payload domain tick ends) := by
  unfold State.neraxSend
  repeat' first
    | (extract_lets +onlyGivenNames x; refine Kept.cut (t := x) ?_ fun _ => ?_; on_goal 1 => subst x; on_goal 2 => clear_value x)
    | (extract_lets +onlyGivenNames x; subst x)
    | (with_reducible first
        | assumption | apply State.emit_kept | apply State.setLink_kept)

theorem State.neraxSendWords_kept {s₀ : State} {s : State} (k g domain tick : Nat) (words : List Sample) (hK :
    Kept s₀ s) : Kept s₀ (State.neraxSendWords s k g domain tick words) := by
  unfold State.neraxSendWords
  repeat' first
    | (extract_lets +onlyGivenNames x; refine Kept.cut (t := x) ?_ fun _ => ?_; on_goal 1 => subst x; on_goal 2 => clear_value x)
    | (extract_lets +onlyGivenNames x; subst x)
    | (with_reducible first
        | assumption | intro _ | apply State.neraxSend_kept | apply Kept.foldl)

theorem State.neraxSendBarge_kept {s₀ : State} {s : State} (k g lock : Nat) (hK :
    Kept s₀ s) : Kept s₀ (State.neraxSendBarge s k g lock) := by
  unfold State.neraxSendBarge
  repeat' first
    | (with_reducible first
        | assumption | apply Kept.ite | apply State.consume_kept | apply State.neraxSendWords_kept)
    | split

theorem State.mirrorBarge_kept {s₀ : State} {s : State} (lock tick : Nat) (words : List Sample) (hK :
    Kept s₀ s) : Kept s₀ (State.mirrorBarge s lock tick words) := by
  unfold State.mirrorBarge
  repeat' first
    | (extract_lets +onlyGivenNames x; refine Kept.cut (t := x) ?_ fun _ => ?_; on_goal 1 => subst x; on_goal 2 => clear_value x)
    | (extract_lets +onlyGivenNames x; subst x)
    | (with_reducible first
        | assumption | apply Kept.ite | apply State.neraxSendWords_kept)
    | split

theorem State.neraxPump_kept {s₀ : State} {s : State} (k : Nat) (hK : Kept s₀ s) : Kept s₀ (State.neraxPump s k) := by
  unfold State.neraxPump
  with_reducible repeat' first
    | assumption | intro _ | apply State.neraxSendBarge_kept | apply Kept.foldl

theorem execNeraxBargeAssembled_kept {s₀ : State} (k : LinkIx) (group : BitVec 11) (tag : BitVec 8) {s : State} (hK :
    Kept s₀ s) : KeptRes s₀ (execNeraxBargeAssembled k group tag s) := by
  unfold execNeraxBargeAssembled
  repeat' first
    | (extract_lets +onlyGivenNames x; refine Kept.cut (t := x) ?_ fun _ => ?_; on_goal 1 => subst x; on_goal 2 => clear_value x)
    | (extract_lets +onlyGivenNames x; subst x)
    | (with_reducible first
        | assumption | intro _ | apply Kept.ite | apply KeptRes.next | apply KeptRes.ite | apply State.capture_kept
        | apply State.commit_kept | apply State.linkFault_kept | apply State.overrun_kept | apply State.setLink_kept
        | fail_if_no_progress (apply Kept.upd))
    | split

theorem State.neraxAcked_kept {s₀ : State} {s : State} (k : Nat) (ack : BitVec 12) (hK :
    Kept s₀ s) : Kept s₀ (State.neraxAcked s k ack) := by
  unfold State.neraxAcked
  repeat' first
    | (extract_lets +onlyGivenNames x; refine Kept.cut (t := x) ?_ fun _ => ?_; on_goal 1 => subst x; on_goal 2 => clear_value x)
    | (extract_lets +onlyGivenNames x; subst x)
    | (with_reducible first
        | assumption | intro _ | apply State.setLink_kept)
    | split

theorem State.neraxReplay_kept {s₀ : State} {s : State} (k : Nat) (after : Option (BitVec 12)) (hK :
    Kept s₀ s) : Kept s₀ (State.neraxReplay s k after) := by
  unfold State.neraxReplay
  repeat' first
    | (extract_lets +onlyGivenNames x; refine Kept.cut (t := x) ?_ fun _ => ?_; on_goal 1 => subst x; on_goal 2 => clear_value x)
    | (extract_lets +onlyGivenNames x; subst x)
    | (with_reducible first
        | assumption | intro _ | apply Kept.ite | apply State.bump_kept | apply State.emit_kept | apply State.linkFall_kept
        | apply State.neraxAcked_kept | apply State.raise_kept | apply State.setLink_kept | apply Kept.foldl)
    | split

theorem execNeraxNakReplay_kept {s₀ : State} (k : LinkIx) (seq : BitVec 12) {s : State} (hK :
    Kept s₀ s) : KeptRes s₀ (execNeraxNakReplay k seq s) := by
  unfold execNeraxNakReplay
  with_reducible repeat' first
    | assumption | apply KeptRes.next | apply State.neraxReplay_kept

theorem execNeraxAckTimeout_kept {s₀ : State} (k : LinkIx) {s : State} (hK : Kept s₀ s) : KeptRes s₀ (execNeraxAckTimeout k s) := by
  unfold execNeraxAckTimeout
  with_reducible repeat' first
    | assumption | apply Kept.ite | apply KeptRes.next | apply KeptRes.ite | apply State.neraxReplay_kept

theorem execNeraxAckSend_kept {s₀ : State} (k : LinkIx) {s : State} (hK : Kept s₀ s) : KeptRes s₀ (execNeraxAckSend k s) := by
  unfold execNeraxAckSend
  repeat' first
    | (extract_lets +onlyGivenNames x; refine Kept.cut (t := x) ?_ fun _ => ?_; on_goal 1 => subst x; on_goal 2 => clear_value x)
    | (extract_lets +onlyGivenNames x; subst x)
    | (with_reducible first
        | assumption | apply Kept.ite | apply KeptRes.next | apply KeptRes.ite | apply State.emit_kept | apply State.setLink_kept)

theorem State.neraxMessage_kept {s₀ : State} {s : State} (k : Nat) (f : NrxFrame) (hK :
    Kept s₀ s) : Kept s₀ (State.neraxMessage s k f) := by
  unfold State.neraxMessage
  repeat' first
    | (extract_lets +onlyGivenNames x; refine Kept.cut (t := x) ?_ fun _ => ?_; on_goal 1 => subst x; on_goal 2 => clear_value x)
    | (extract_lets +onlyGivenNames x; subst x)
    | (with_reducible first
        | assumption | apply Kept.ite | apply State.setLink_kept)

theorem State.neraxNak_kept {s₀ : State} {s : State} (k : Nat) (hK : Kept s₀ s) : Kept s₀ (State.neraxNak s k) := by
  unfold State.neraxNak
  with_reducible repeat' first
    | assumption | apply Kept.ite | apply State.setLink_kept

theorem State.timingMissed_kept {s₀ : State} {s : State} (k : Nat) (hK : Kept s₀ s) : Kept s₀ (State.timingMissed s k) := by
  unfold State.timingMissed
  repeat' first
    | (extract_lets +onlyGivenNames x; refine Kept.cut (t := x) ?_ fun _ => ?_; on_goal 1 => subst x; on_goal 2 => clear_value x)
    | (extract_lets +onlyGivenNames x; subst x)
    | (with_reducible first
        | assumption | apply Kept.ite | apply State.leadLoss_kept | apply State.setLink_kept)

theorem execNeraxFrameReceive_kept {s₀ : State} (k : LinkIx) (f : NrxFrame) (crcOk : Bool) (credits : Nat) {s : State} (hK :
    Kept s₀ s) : KeptRes s₀ (execNeraxFrameReceive k f crcOk credits s) := by
  unfold execNeraxFrameReceive
  repeat' first
    | (extract_lets +onlyGivenNames x; refine Kept.cut (t := x) ?_ fun _ => ?_; on_goal 1 => subst x; on_goal 2 => clear_value x)
    | (extract_lets +onlyGivenNames x; subst x)
    | (with_reducible first
        | assumption | apply Kept.ite | apply KeptRes.next | apply KeptRes.ite | apply State.bump_kept | apply State.neraxAcked_kept
        | apply State.neraxMessage_kept | apply State.neraxNak_kept | apply State.neraxPump_kept | apply State.neraxReplay_kept
        | apply State.setLink_kept | apply State.timingMissed_kept)

theorem execNeraxMessageSend_kept {s₀ : State} (k : LinkIx) {s : State} (hK : Kept s₀ s) : KeptRes s₀ (execNeraxMessageSend k s) := by
  unfold execNeraxMessageSend
  repeat' first
    | (extract_lets +onlyGivenNames x; refine Kept.cut (t := x) ?_ fun _ => ?_; on_goal 1 => subst x; on_goal 2 => clear_value x)
    | (extract_lets +onlyGivenNames x; subst x)
    | (with_reducible first
        | assumption | intro _ | apply Kept.ite | apply KeptRes.next | apply KeptRes.ite | apply State.neraxSend_kept
        | apply State.setLink_kept | apply Kept.foldl)
    | split

theorem State.sendIdentity_kept {s₀ : State} {s : State} (k : Nat) (hK : Kept s₀ s) : Kept s₀ (State.sendIdentity s k) := by
  unfold State.sendIdentity
  repeat' first
    | (extract_lets +onlyGivenNames x; refine Kept.cut (t := x) ?_ fun _ => ?_; on_goal 1 => subst x; on_goal 2 => clear_value x)
    | (extract_lets +onlyGivenNames x; subst x)
    | (with_reducible first
        | assumption | apply Kept.ite | apply State.neraxSend_kept)

theorem execNeraxAligned_kept {s₀ : State} (k : LinkIx) {s : State} (hK : Kept s₀ s) : KeptRes s₀ (execNeraxAligned k s) := by
  unfold execNeraxAligned
  with_reducible repeat' first
    | assumption | apply Kept.ite | apply KeptRes.next | apply KeptRes.ite | apply State.sendIdentity_kept | apply State.setLinkState_kept

theorem State.judgeBuild_kept {s₀ : State} {s : State} (k : Nat) (hK : Kept s₀ s) : Kept s₀ (State.judgeBuild s k) := by
  unfold State.judgeBuild
  repeat' first
    | (extract_lets +onlyGivenNames x; refine Kept.cut (t := x) ?_ fun _ => ?_; on_goal 1 => subst x; on_goal 2 => clear_value x)
    | (extract_lets +onlyGivenNames x; subst x)
    | (with_reducible first
        | assumption | apply Kept.ite | apply State.setLink_kept)

theorem execIdentityFrame_kept {s₀ : State} (k : LinkIx) (id : Identity) {s : State} (hK :
    Kept s₀ s) : KeptRes s₀ (execIdentityFrame k id s) := by
  unfold execIdentityFrame
  repeat' first
    | (extract_lets +onlyGivenNames x; refine Kept.cut (t := x) ?_ fun _ => ?_; on_goal 1 => subst x; on_goal 2 => clear_value x)
    | (extract_lets +onlyGivenNames x; subst x)
    | (with_reducible first
        | assumption | apply Kept.ite | apply KeptRes.next | apply KeptRes.ite | apply State.judgeBuild_kept | apply State.linkFault_kept
        | apply State.setLink_kept | apply State.setLinkState_kept | apply State.setWide_kept | apply State.wr_kept)

theorem State.audioStarts_kept {s₀ : State} {s : State} (k : Nat) (hK : Kept s₀ s) : Kept s₀ (State.audioStarts s k) := by
  unfold State.audioStarts
  with_reducible repeat' first
    | assumption | apply State.setLink_kept

theorem State.audioBoundary_kept {s₀ : State} {s : State} (x : Nat) (hK : Kept s₀ s) : Kept s₀ (State.audioBoundary s x) := by
  unfold State.audioBoundary
  repeat' first
    | (extract_lets +onlyGivenNames x; refine Kept.cut (t := x) ?_ fun _ => ?_; on_goal 1 => subst x; on_goal 2 => clear_value x)
    | (extract_lets +onlyGivenNames x; subst x)
    | (with_reducible first
        | assumption | intro _ | apply Kept.ite | apply State.setLink_kept | apply Kept.foldl)

theorem execNeraxLinkUp_kept {s₀ : State} (k : LinkIx) {s : State} (hK : Kept s₀ s) : KeptRes s₀ (execNeraxLinkUp k s) := by
  unfold execNeraxLinkUp
  repeat' first
    | (extract_lets +onlyGivenNames x; refine Kept.cut (t := x) ?_ fun _ => ?_; on_goal 1 => subst x; on_goal 2 => clear_value x)
    | (extract_lets +onlyGivenNames x; subst x)
    | (with_reducible first
        | assumption | apply Kept.ite | apply KeptRes.next | apply KeptRes.ite | apply State.audioStarts_kept | apply State.endCause_kept
        | apply State.judgeBuild_kept | apply State.raise_kept | apply State.setLinkState_kept)

theorem execNeraxStateTimeout_kept {s₀ : State} (k : LinkIx) {s : State} (hK : Kept s₀ s) : KeptRes s₀ (execNeraxStateTimeout k s) := by
  unfold execNeraxStateTimeout
  with_reducible repeat' first
    | assumption | apply Kept.ite | apply KeptRes.next | apply KeptRes.ite | apply State.bump_kept | apply State.lanesReady_kept
    | apply State.raise_kept | apply State.setLinkState_kept

theorem execNeraxLinkDown_kept {s₀ : State} (k : LinkIx) {s : State} (hK : Kept s₀ s) : KeptRes s₀ (execNeraxLinkDown k s) := by
  unfold execNeraxLinkDown
  with_reducible repeat' first
    | assumption | apply KeptRes.next | apply State.linkFall_kept

theorem State.judgeDelay_kept {s₀ : State} {s : State} (k : Nat) (d : Int) (hK : Kept s₀ s) : Kept s₀ (State.judgeDelay s k d) := by
  unfold State.judgeDelay
  repeat' first
    | (extract_lets +onlyGivenNames x; refine Kept.cut (t := x) ?_ fun _ => ?_; on_goal 1 => subst x; on_goal 2 => clear_value x)
    | (extract_lets +onlyGivenNames x; subst x)
    | (with_reducible first
        | assumption | intro _ | apply Kept.ite | apply State.audioStarts_kept | apply State.concealLink_kept | apply State.endCause_kept
        | apply State.linkFault_kept | apply State.setLink_kept | apply State.setReg_kept)

theorem State.timingConflict_kept {s₀ : State} {s : State} (k : Nat) (hK : Kept s₀ s) : Kept s₀ (State.timingConflict s k) := by
  unfold State.timingConflict
  repeat' first
    | (extract_lets +onlyGivenNames x; refine Kept.cut (t := x) ?_ fun _ => ?_; on_goal 1 => subst x; on_goal 2 => clear_value x)
    | (extract_lets +onlyGivenNames x; subst x)
    | (with_reducible first
        | assumption | apply Kept.ite | apply State.linkFault_kept)

theorem State.checkSample_kept {s₀ : State} {s : State} (k : Nat) (d : LeadDomain) (hK :
    Kept s₀ s) : Kept s₀ (State.checkSample s k d) := by
  unfold State.checkSample
  with_reducible repeat' first
    | assumption | apply Kept.ite | apply State.loseSync_kept

theorem State.takeLead_kept {s₀ : State} {s : State} (k : Nat) (d : LeadDomain) (hK : Kept s₀ s) : Kept s₀ (State.takeLead s k d) := by
  unfold State.takeLead
  repeat' first
    | (extract_lets +onlyGivenNames x; refine Kept.cut (t := x) ?_ fun _ => ?_; on_goal 1 => subst x; on_goal 2 => clear_value x)
    | (extract_lets +onlyGivenNames x; subst x)
    | (with_reducible first
        | assumption | apply Kept.ite | apply State.raise_kept | apply State.setDpll_kept | apply State.wr_kept)

theorem execTimingFrameReceive_kept {s₀ : State} (k : LinkIx) (stamps : Stamps) (lead : Option LeadTiming) (lease : Option LeaseRecord) {s : State} (hK :
    Kept s₀ s) : KeptRes s₀ (execTimingFrameReceive k stamps lead lease s) := by
  unfold execTimingFrameReceive
  repeat' first
    | (extract_lets +onlyGivenNames x; refine Kept.cut (t := x) ?_ fun _ => ?_; on_goal 1 => subst x; on_goal 2 => clear_value x)
    | (extract_lets +onlyGivenNames x; subst x)
    | (with_reducible first
        | assumption | intro _ | apply Kept.ite | apply KeptRes.next | apply KeptRes.ite | apply State.checkSample_kept
        | apply State.judgeDelay_kept | apply State.reselectAll_kept | apply State.setLink_kept | apply State.settleClocks_kept
        | apply State.takeLead_kept | apply State.takeLeaseRecord_kept | apply State.timingConflict_kept | apply State.wr_kept
        | apply Kept.foldl)
    | split

theorem execLeadTimingLoss_kept {s₀ : State} (k : LinkIx) {s : State} (hK : Kept s₀ s) : KeptRes s₀ (execLeadTimingLoss k s) := by
  unfold execLeadTimingLoss
  with_reducible repeat' first
    | assumption | apply KeptRes.next | apply State.leadLoss_kept

theorem execTimingFrameSend_kept {s₀ : State} (k : LinkIx) {s : State} (hK : Kept s₀ s) : KeptRes s₀ (execTimingFrameSend k s) := by
  unfold execTimingFrameSend
  repeat' first
    | (extract_lets +onlyGivenNames x; refine Kept.cut (t := x) ?_ fun _ => ?_; on_goal 1 => subst x; on_goal 2 => clear_value x)
    | (extract_lets +onlyGivenNames x; subst x)
    | (with_reducible first
        | assumption | apply Kept.ite | apply KeptRes.next | apply KeptRes.ite | apply State.draw_kept
        | (refine Kept.snd_of_eq (by assumption) ?_; apply State.draw_kept) | apply State.emit_kept)
    | split

theorem State.setTbState_kept {s₀ : State} {s : State} (n v : Nat) (hK : Kept s₀ s) : Kept s₀ (State.setTbState s n v) := by
  unfold State.setTbState
  with_reducible repeat' first
    | assumption | apply State.wr_kept

theorem State.setTbAdj_kept {s₀ : State} {s : State} (n : Nat) (ppm : Rat) (hK : Kept s₀ s) : Kept s₀ (State.setTbAdj s n ppm) := by
  unfold State.setTbAdj
  repeat' first
    | (extract_lets +onlyGivenNames x; refine Kept.cut (t := x) ?_ fun _ => ?_; on_goal 1 => subst x; on_goal 2 => clear_value x)
    | (extract_lets +onlyGivenNames x; subst x)
    | (with_reducible first
        | assumption | apply Kept.ite | apply State.raise_kept | apply State.setReg_kept)

theorem State.loadOffset_kept {s₀ : State} {s : State} (d n : Nat) (hK : Kept s₀ s) : Kept s₀ (State.loadOffset s d n) := by
  unfold State.loadOffset
  repeat' first
    | (extract_lets +onlyGivenNames x; refine Kept.cut (t := x) ?_ fun _ => ?_; on_goal 1 => subst x; on_goal 2 => clear_value x)
    | (extract_lets +onlyGivenNames x; subst x)
    | (with_reducible first
        | assumption | apply State.setReg_kept | apply State.setTb_kept)

theorem State.timeSourceLoss_kept {s₀ : State} {s : State} (n : Nat) (hK : Kept s₀ s) : Kept s₀ (State.timeSourceLoss s n) := by
  unfold State.timeSourceLoss
  with_reducible repeat' first
    | assumption | intro _ | apply Kept.ite | apply State.sourceLoss_kept | apply Kept.foldl

theorem State.tbStepped_kept {s₀ : State} {s : State} (n : Nat) (hK : Kept s₀ s) : Kept s₀ (State.tbStepped s n) := by
  unfold State.tbStepped
  repeat' first
    | (extract_lets +onlyGivenNames x; refine Kept.cut (t := x) ?_ fun _ => ?_; on_goal 1 => subst x; on_goal 2 => clear_value x)
    | (extract_lets +onlyGivenNames x; subst x)
    | (with_reducible first
        | assumption | intro _ | apply State.bump_kept | apply State.loadOffset_kept | apply State.raise_kept
        | apply State.timeSourceLoss_kept | apply Kept.foldl)

theorem State.stepTb_kept {s₀ : State} {s : State} (n : Nat) (off : Int) (hK : Kept s₀ s) : Kept s₀ (State.stepTb s n off) := by
  unfold State.stepTb
  repeat' first
    | (extract_lets +onlyGivenNames x; refine Kept.cut (t := x) ?_ fun _ => ?_; on_goal 1 => subst x; on_goal 2 => clear_value x)
    | (extract_lets +onlyGivenNames x; subst x)
    | (with_reducible first
        | assumption | apply Kept.ite | apply State.setTb_kept | apply State.tbStepped_kept)

theorem State.loadTb_kept {s₀ : State} {s : State} (n v : Nat) (hK : Kept s₀ s) : Kept s₀ (State.loadTb s n v) := by
  unfold State.loadTb
  with_reducible repeat' first
    | assumption | apply Kept.ite | apply State.setTb_kept | apply State.tbStepped_kept

theorem State.snapTimes_kept {s₀ : State} {s : State} (hK : Kept s₀ s) : Kept s₀ (State.snapTimes s) := by
  unfold State.snapTimes
  with_reducible repeat' first
    | assumption | intro _ | apply State.capture_kept | apply State.setTb_kept | apply Kept.foldl

theorem execTimeSnap_kept {s₀ : State} {s : State} (hK : Kept s₀ s) : KeptRes s₀ (execTimeSnap s) := by
  unfold execTimeSnap
  with_reducible repeat' first
    | assumption | apply KeptRes.next | apply State.snapTimes_kept

theorem State.readTime0_kept {s₀ : State} {s : State} (n : Nat) (hK : Kept s₀ s) : Kept s₀ (State.readTime0 s n).2 := by
  unfold State.readTime0
  repeat' first
    | (extract_lets +onlyGivenNames x; refine Kept.cut (t := x) ?_ fun _ => ?_; on_goal 1 => subst x; on_goal 2 => clear_value x)
    | (extract_lets +onlyGivenNames x; subst x)
    | (with_reducible first
        | assumption | apply State.capture_kept | apply State.setSnap_kept | apply State.setTb_kept)
    | split

theorem State.takeLow_kept {s₀ : State} {s : State} (a : Nat) (hK : Kept s₀ s) : Kept s₀ (State.takeLow s a) := by
  unfold State.takeLow
  repeat' first
    | (with_reducible first
        | assumption | apply State.setHeldLow_kept | apply State.setReg_kept)
    | split

theorem execTimeBaseLoad_kept {s₀ : State} (n : TbIx) (set3 : Word) {s : State} (hK :
    Kept s₀ s) : KeptRes s₀ (execTimeBaseLoad n set3 s) := by
  unfold execTimeBaseLoad
  repeat' first
    | (extract_lets +onlyGivenNames x; refine Kept.cut (t := x) ?_ fun _ => ?_; on_goal 1 => subst x; on_goal 2 => clear_value x)
    | (extract_lets +onlyGivenNames x; subst x)
    | (with_reducible first
        | assumption | apply Kept.ite | apply KeptRes.next | apply KeptRes.ite | apply State.loadTb_kept | apply State.setReg_kept
        | apply State.setTb_kept | apply State.takeLow_kept)

theorem execTimeBaseStep_kept {s₀ : State} (n : TbIx) (stepHi : Word) {s : State} (hK :
    Kept s₀ s) : KeptRes s₀ (execTimeBaseStep n stepHi s) := by
  unfold execTimeBaseStep
  repeat' first
    | (extract_lets +onlyGivenNames x; refine Kept.cut (t := x) ?_ fun _ => ?_; on_goal 1 => subst x; on_goal 2 => clear_value x)
    | (extract_lets +onlyGivenNames x; subst x)
    | (with_reducible first
        | assumption | apply Kept.ite | apply KeptRes.next | apply KeptRes.ite | apply State.setReg_kept | apply State.setTb_kept
        | apply State.stepTb_kept | apply State.takeLow_kept)

theorem execTimeBaseAdjWrite_kept {s₀ : State} (n : TbIx) (value : Word) {s : State} (hK :
    Kept s₀ s) : KeptRes s₀ (execTimeBaseAdjWrite n value s) := by
  unfold execTimeBaseAdjWrite
  with_reducible repeat' first
    | assumption | apply Kept.ite | apply KeptRes.next | apply KeptRes.ite | apply State.setTbAdj_kept

theorem State.judgeLock_kept {s₀ : State} {s : State} (n : Nat) (hK : Kept s₀ s) : Kept s₀ (State.judgeLock s n) := by
  unfold State.judgeLock
  repeat' first
    | (extract_lets +onlyGivenNames x; refine Kept.cut (t := x) ?_ fun _ => ?_; on_goal 1 => subst x; on_goal 2 => clear_value x)
    | (extract_lets +onlyGivenNames x; subst x)
    | (with_reducible first
        | assumption | apply Kept.ite | apply State.timeSourceLoss_kept | apply State.wr_kept)

theorem State.useSource_kept {s₀ : State} {s : State} (d st src : Nat) (hK : Kept s₀ s) : Kept s₀ (State.useSource s d st src) := by
  unfold State.useSource
  repeat' first
    | (extract_lets +onlyGivenNames x; refine Kept.cut (t := x) ?_ fun _ => ?_; on_goal 1 => subst x; on_goal 2 => clear_value x)
    | (extract_lets +onlyGivenNames x; subst x)
    | (with_reducible first
        | assumption | apply Kept.ite | apply State.loadOffset_kept | apply State.raise_kept | apply State.report_kept
        | apply State.setTb_kept | apply State.setTbState_kept | apply State.wr_kept)

theorem State.judgeDerived_kept {s₀ : State} {s : State} (d : Nat) (hK : Kept s₀ s) : Kept s₀ (State.judgeDerived s d) := by
  unfold State.judgeDerived
  repeat' first
    | (extract_lets +onlyGivenNames x; refine Kept.cut (t := x) ?_ fun _ => ?_; on_goal 1 => subst x; on_goal 2 => clear_value x)
    | (extract_lets +onlyGivenNames x; subst x)
    | (with_reducible first
        | assumption | apply Kept.ite | apply State.setTb_kept | apply State.setTbState_kept | apply State.useSource_kept)
    | split

theorem State.settleTimes_kept {s₀ : State} {s : State} (hK : Kept s₀ s) : Kept s₀ (State.settleTimes s) := by
  unfold State.settleTimes
  repeat' first
    | (extract_lets +onlyGivenNames x; refine Kept.cut (t := x) ?_ fun _ => ?_; on_goal 1 => subst x; on_goal 2 => clear_value x)
    | (extract_lets +onlyGivenNames x; subst x)
    | (with_reducible first
        | assumption | intro _ | apply State.judgeDerived_kept | apply State.judgeLock_kept | apply Kept.foldl)

theorem execDerivedSourceChange_kept {s₀ : State} (n : TbIx) {s : State} (hK : Kept s₀ s) : KeptRes s₀ (execDerivedSourceChange n s) := by
  unfold execDerivedSourceChange
  with_reducible repeat' first
    | assumption | apply KeptRes.next | apply State.judgeDerived_kept | apply State.judgeLock_kept

theorem execDerivedWtrExpiry_kept {s₀ : State} (n : TbIx) {s : State} (hK : Kept s₀ s) : KeptRes s₀ (execDerivedWtrExpiry n s) := by
  unfold execDerivedWtrExpiry
  repeat' first
    | (extract_lets +onlyGivenNames x; refine Kept.cut (t := x) ?_ fun _ => ?_; on_goal 1 => subst x; on_goal 2 => clear_value x)
    | (extract_lets +onlyGivenNames x; subst x)
    | (with_reducible first
        | assumption | apply Kept.ite | apply KeptRes.next | apply KeptRes.ite | apply State.judgeLock_kept | apply State.useSource_kept)

theorem State.tbCycle_kept {s₀ : State} {s : State} (n : Nat) (hK : Kept s₀ s) : Kept s₀ (State.tbCycle s n) := by
  unfold State.tbCycle
  repeat' first
    | (extract_lets +onlyGivenNames x; refine Kept.cut (t := x) ?_ fun _ => ?_; on_goal 1 => subst x; on_goal 2 => clear_value x)
    | (extract_lets +onlyGivenNames x; subst x)
    | (with_reducible first
        | assumption | apply Kept.ite | apply State.setReg_kept | apply State.setTb_kept)
    | split

theorem State.timeCycle_kept {s₀ : State} {s : State} (hK : Kept s₀ s) : Kept s₀ (State.timeCycle s) := by
  unfold State.timeCycle
  repeat' first
    | (extract_lets +onlyGivenNames x; refine Kept.cut (t := x) ?_ fun _ => ?_; on_goal 1 => subst x; on_goal 2 => clear_value x)
    | (extract_lets +onlyGivenNames x; subst x)
    | (with_reducible first
        | assumption | intro _ | apply Kept.ite | apply State.tbCycle_kept | apply Kept.foldl)

theorem execDerivedProfileEnd_kept {s₀ : State} (n : TbIx) {s : State} (hK : Kept s₀ s) : KeptRes s₀ (execDerivedProfileEnd n s) := by
  unfold execDerivedProfileEnd
  repeat' first
    | (extract_lets +onlyGivenNames x; refine Kept.cut (t := x) ?_ fun _ => ?_; on_goal 1 => subst x; on_goal 2 => clear_value x)
    | (extract_lets +onlyGivenNames x; subst x)
    | (with_reducible first
        | assumption | intro _ | apply Kept.ite | apply KeptRes.next | apply KeptRes.ite | apply State.setReg_kept
        | apply State.setTb_kept)

theorem State.tbModeStarts_kept {s₀ : State} {s : State} (n : Nat) (hK : Kept s₀ s) : Kept s₀ (State.tbModeStarts s n) := by
  unfold State.tbModeStarts
  repeat' first
    | (extract_lets +onlyGivenNames x; refine Kept.cut (t := x) ?_ fun _ => ?_; on_goal 1 => subst x; on_goal 2 => clear_value x)
    | (extract_lets +onlyGivenNames x; subst x)
    | (with_reducible first
        | assumption | apply Kept.ite | apply State.loadTb_kept | apply State.setReg_kept | apply State.setTb_kept
        | apply State.setTbState_kept | apply State.settleTimes_kept | apply State.stepTb_kept)
    | split

theorem State.unlockTb_kept {s₀ : State} {s : State} (n : Nat) (hK : Kept s₀ s) : Kept s₀ (State.unlockTb s n) := by
  unfold State.unlockTb
  with_reducible repeat' first
    | assumption | apply State.bump_kept | apply State.raise_kept | apply State.report_kept

theorem State.servoState_kept {s₀ : State} {s : State} (n st : Nat) (hK : Kept s₀ s) : Kept s₀ (State.servoState s n st) := by
  unfold State.servoState
  repeat' first
    | (extract_lets +onlyGivenNames x; refine Kept.cut (t := x) ?_ fun _ => ?_; on_goal 1 => subst x; on_goal 2 => clear_value x)
    | (extract_lets +onlyGivenNames x; subst x)
    | (with_reducible first
        | assumption | apply Kept.ite | apply State.setTb_kept | apply State.setTbState_kept | apply State.settleTimes_kept
        | apply State.unlockTb_kept)

theorem State.countMeasurement_kept {s₀ : State} {s : State} (n : Nat) (o : Rat) (hK :
    Kept s₀ s) : Kept s₀ (State.countMeasurement s n o) := by
  unfold State.countMeasurement
  repeat' first
    | (extract_lets +onlyGivenNames x; refine Kept.cut (t := x) ?_ fun _ => ?_; on_goal 1 => subst x; on_goal 2 => clear_value x)
    | (extract_lets +onlyGivenNames x; subst x)
    | (with_reducible first
        | assumption | apply Kept.ite | apply State.raise_kept | apply State.servoState_kept | apply State.setTb_kept
        | apply State.setTbState_kept | apply State.settleTimes_kept)

theorem State.servo_kept {s₀ : State} {s : State} (n : Nat) (o : Rat) (hK : Kept s₀ s) : Kept s₀ (State.servo s n o) := by
  unfold State.servo
  repeat' first
    | (extract_lets +onlyGivenNames x; refine Kept.cut (t := x) ?_ fun _ => ?_; on_goal 1 => subst x; on_goal 2 => clear_value x)
    | (extract_lets +onlyGivenNames x; subst x)
    | (with_reducible first
        | assumption | apply Kept.ite | apply State.countMeasurement_kept | apply State.setTb_kept | apply State.setTbAdj_kept
        | apply State.stepTb_kept)

theorem execServoMeasurement_kept {s₀ : State} (n : TbIx) (measHi : Word) (withStep : Bool) {s : State} (hK :
    Kept s₀ s) : KeptRes s₀ (execServoMeasurement n measHi withStep s) := by
  unfold execServoMeasurement
  repeat' first
    | (extract_lets +onlyGivenNames x; refine Kept.cut (t := x) ?_ fun _ => ?_; on_goal 1 => subst x; on_goal 2 => clear_value x)
    | (extract_lets +onlyGivenNames x; subst x)
    | (with_reducible first
        | assumption | apply Kept.ite | apply KeptRes.next | apply KeptRes.ite | apply State.raise_kept | apply State.servo_kept
        | apply State.servoState_kept | apply State.setReg_kept | apply State.takeLow_kept)

theorem execMeasurementTimeout_kept {s₀ : State} (n : TbIx) {s : State} (hK : Kept s₀ s) : KeptRes s₀ (execMeasurementTimeout n s) := by
  unfold execMeasurementTimeout
  with_reducible repeat' first
    | assumption | apply Kept.ite | apply KeptRes.next | apply KeptRes.ite | apply State.raise_kept | apply State.servoState_kept

theorem State.servoLinkLoss_kept {s₀ : State} {s : State} (m : Nat) (hK : Kept s₀ s) : Kept s₀ (State.servoLinkLoss s m) := by
  unfold State.servoLinkLoss
  with_reducible repeat' first
    | assumption | intro _ | apply Kept.ite | apply State.servoState_kept | apply Kept.foldl

theorem State.setTxq_kept {s₀ : State} {s : State} (m : Nat) (q : List TxqEntry) (hK : Kept s₀ s) : Kept s₀ (State.setTxq s m q) := by
  unfold State.setTxq
  with_reducible repeat' first
    | assumption | intro _ | apply State.wr_kept | fail_if_no_progress (apply Kept.upd)

theorem State.txStamp_kept {s₀ : State} {s : State} (m : Nat) (tag : BitVec 16) (tb : Nat) (discarded : Bool) (hK :
    Kept s₀ s) : Kept s₀ (State.txStamp s m tag tb discarded) := by
  unfold State.txStamp
  repeat' first
    | (extract_lets +onlyGivenNames x; refine Kept.cut (t := x) ?_ fun _ => ?_; on_goal 1 => subst x; on_goal 2 => clear_value x)
    | (extract_lets +onlyGivenNames x; subst x)
    | (with_reducible first
        | assumption | apply Kept.ite | apply State.bump_kept | apply State.raise_kept | apply State.report_kept | apply State.setTxq_kept
        | apply State.wr_kept)
    | split

theorem execTxTimestampEntry_kept {s₀ : State} (m : Fin 2) (tag : BitVec 16) (tb : TbIx) (discarded : Bool) {s : State} (hK :
    Kept s₀ s) : KeptRes s₀ (execTxTimestampEntry m tag tb discarded s) := by
  unfold execTxTimestampEntry
  with_reducible repeat' first
    | assumption | apply KeptRes.next | apply State.txStamp_kept

theorem execTxqPop_kept {s₀ : State} (m : Fin 2) {s : State} (hK : Kept s₀ s) : KeptRes s₀ (execTxqPop m s) := by
  unfold execTxqPop
  repeat' first
    | (extract_lets +onlyGivenNames x; refine Kept.cut (t := x) ?_ fun _ => ?_; on_goal 1 => subst x; on_goal 2 => clear_value x)
    | (extract_lets +onlyGivenNames x; subst x)
    | (with_reducible first
        | assumption | apply KeptRes.next | apply State.answer_kept | apply State.setSnap_kept | apply State.setTxq_kept)
    | split

end Sys2Proof.Machine
end

