-- ==== Sys2Proof/Laws/KeptEngines.lean ====
section
/-!
SUPPORT. The relation `Kept` for Ethernet and streams, monitor feeds, engine segments, substitution and the engine instructions.
-/
namespace Sys2Proof.Machine

set_option linter.unreachableTactic false
set_option linter.unusedTactic false

theorem State.setMac_kept {s₀ : State} {s : State} (m : Nat) (k : Mac) (hK : Kept s₀ s) : Kept s₀ (State.setMac s m k) := by
  unfold State.setMac
  with_reducible repeat' first
    | assumption | intro _ | fail_if_no_progress (apply Kept.upd)

theorem State.setTx_kept {s₀ : State} {s : State} (n : Nat) (t : TxStream) (hK : Kept s₀ s) : Kept s₀ (State.setTx s n t) := by
  unfold State.setTx
  with_reducible repeat' first
    | assumption | intro _ | fail_if_no_progress (apply Kept.upd)

theorem State.setRx_kept {s₀ : State} {s : State} (n : Nat) (t : RxStream) (hK : Kept s₀ s) : Kept s₀ (State.setRx s n t) := by
  unfold State.setRx
  with_reducible repeat' first
    | assumption | intro _ | fail_if_no_progress (apply Kept.upd)

theorem State.macCount_kept {s₀ : State} {s : State} (a : Nat) (hK : Kept s₀ s) : Kept s₀ (State.macCount s a) := by
  unfold State.macCount
  with_reducible repeat' first
    | assumption | apply State.bump_kept

theorem execLinkUp_kept {s₀ : State} (m : Fin 2) (negotiated : Bool) {s : State} (hK :
    Kept s₀ s) : KeptRes s₀ (execLinkUp m negotiated s) := by
  unfold execLinkUp
  repeat' first
    | (extract_lets +onlyGivenNames x; refine Kept.cut (t := x) ?_ fun _ => ?_; on_goal 1 => subst x; on_goal 2 => clear_value x)
    | (extract_lets +onlyGivenNames x; subst x)
    | (with_reducible first
        | assumption | apply Kept.ite | apply KeptRes.next | apply KeptRes.ite | apply State.raise_kept | apply State.setReg_kept
        | apply State.wr_kept)
    | split

theorem State.linkLoss_kept {s₀ : State} {s : State} (m : Nat) (hK : Kept s₀ s) : Kept s₀ (State.linkLoss s m) := by
  unfold State.linkLoss
  repeat' first
    | (extract_lets +onlyGivenNames x; refine Kept.cut (t := x) ?_ fun _ => ?_; on_goal 1 => subst x; on_goal 2 => clear_value x)
    | (extract_lets +onlyGivenNames x; subst x)
    | (with_reducible first
        | assumption | apply Kept.ite | apply State.raise_kept | apply State.report_kept | apply State.servoLinkLoss_kept
        | apply State.setReg_kept | apply State.wr_kept)

theorem execLinkDown_kept {s₀ : State} (m : Fin 2) {s : State} (hK : Kept s₀ s) : KeptRes s₀ (execLinkDown m s) := by
  unfold execLinkDown
  with_reducible repeat' first
    | assumption | apply Kept.ite | apply KeptRes.next | apply KeptRes.ite | apply State.linkLoss_kept

theorem State.sendFrame_kept {s₀ : State} {s : State} (m offset : Nat) (bytes : List Byte) (badFcs : Bool) (hK :
    Kept s₀ s) : Kept s₀ (State.sendFrame s m offset bytes badFcs) := by
  unfold State.sendFrame
  with_reducible repeat' first
    | assumption | apply Kept.ite | apply State.emit_kept

theorem State.rxEvent_kept {s₀ : State} {s : State} (n : Nat) (e : FieldAt) (hK : Kept s₀ s) : Kept s₀ (State.rxEvent s n e) := by
  unfold State.rxEvent
  with_reducible repeat' first
    | assumption | apply State.raise_kept

theorem State.txEvent_kept {s₀ : State} {s : State} (n : Nat) (e : FieldAt) (hK : Kept s₀ s) : Kept s₀ (State.txEvent s n e) := by
  unfold State.txEvent
  with_reducible repeat' first
    | assumption | apply State.raise_kept

theorem State.rxPlace_kept {s₀ : State} {s : State} (m n : Nat) (f : List Byte) (hK : Kept s₀ s) : Kept s₀ (State.rxPlace s m n f) := by
  unfold State.rxPlace
  repeat' first
    | (extract_lets +onlyGivenNames x; refine Kept.cut (t := x) ?_ fun _ => ?_; on_goal 1 => subst x; on_goal 2 => clear_value x)
    | (extract_lets +onlyGivenNames x; subst x)
    | (with_reducible first
        | assumption | intro _ | apply Kept.ite | apply State.bump_kept | apply State.least_kept | apply State.rxEvent_kept
        | apply State.setRx_kept | apply State.wr_kept)
    | split

theorem State.rxCapture_kept {s₀ : State} {s : State} (n pos : Nat) (hK : Kept s₀ s) : Kept s₀ (State.rxCapture s n pos).2 := by
  unfold State.rxCapture
  repeat' first
    | (extract_lets +onlyGivenNames x; refine Kept.cut (t := x) ?_ fun _ => ?_; on_goal 1 => subst x; on_goal 2 => clear_value x)
    | (extract_lets +onlyGivenNames x; subst x)
    | (with_reducible first
        | assumption | intro _ | apply Kept.ite | apply State.bump_kept | apply State.report_kept | apply State.rxEvent_kept
        | apply State.setRx_kept | apply State.wr_kept)
    | split

theorem State.rxBarge_kept {s₀ : State} {s : State} (n k : Nat) (hK : Kept s₀ s) : Kept s₀ (State.rxBarge s n k).2 := by
  have h : ∀ (l : List Nat) (acc : List Sample × State), Kept s₀ acc.2 → Kept s₀ (l.foldl (fun (acc : List Sample × State) j =>
      let (w, s) := acc.2.rxCapture n (k * (s.dom (s.rd (R.STRM_RXn_CFG_domain n))).b + j)
      (acc.1 ++ w, s)) acc).2 := by
    intro l
    induction l with
    | nil => exact fun _ h => h
    | cons j l ih => exact fun acc h => ih _ (State.rxCapture_kept _ _ h)
  exact State.setRx_kept _ _ (h _ _ hK)

theorem State.rxEnable_kept {s₀ : State} {s : State} (n : Nat) (hK : Kept s₀ s) : Kept s₀ (State.rxEnable s n) := by
  unfold State.rxEnable
  repeat' first
    | (extract_lets +onlyGivenNames x; refine Kept.cut (t := x) ?_ fun _ => ?_; on_goal 1 => subst x; on_goal 2 => clear_value x)
    | (extract_lets +onlyGivenNames x; subst x)
    | (with_reducible first
        | assumption | apply Kept.ite | apply State.setRx_kept | apply State.shTake_kept | apply State.wr_kept)

theorem execRxStreamEnable_kept {s₀ : State} (n : Fin 256) {s : State} (hK : Kept s₀ s) : KeptRes s₀ (execRxStreamEnable n s) := by
  unfold execRxStreamEnable
  with_reducible repeat' first
    | assumption | apply Kept.ite | apply KeptRes.next | apply KeptRes.ite | apply State.rxEnable_kept

theorem State.rxSoftware_kept {s₀ : State} {s : State} (m : Nat) (f : List Byte) (trunc : Bool) (hK :
    Kept s₀ s) : Kept s₀ (State.rxSoftware s m f trunc) := by
  unfold State.rxSoftware
  repeat' first
    | (extract_lets +onlyGivenNames x; refine Kept.cut (t := x) ?_ fun _ => ?_; on_goal 1 => subst x; on_goal 2 => clear_value x)
    | (extract_lets +onlyGivenNames x; subst x)
    | (with_reducible first
        | assumption | apply Kept.ite | apply State.bump_kept | apply State.macCount_kept | apply State.raise_kept
        | apply State.setMac_kept)
    | split

theorem execFrameReceive_kept {s₀ : State} (m : Fin 2) (error : Bool) (frame : List Byte) {s : State} (hK :
    Kept s₀ s) : KeptRes s₀ (execFrameReceive m error frame s) := by
  unfold execFrameReceive
  repeat' first
    | (extract_lets +onlyGivenNames x; refine Kept.cut (t := x) ?_ fun _ => ?_; on_goal 1 => subst x; on_goal 2 => clear_value x)
    | (extract_lets +onlyGivenNames x; subst x)
    | (with_reducible first
        | assumption | apply Kept.ite | apply KeptRes.next | apply KeptRes.ite | apply State.macCount_kept | apply State.raise_kept
        | apply State.rxPlace_kept | apply State.rxSoftware_kept)
    | split

theorem State.txDiscard_kept {s₀ : State} {s : State} (m : Nat) (t : TxFrame) (hK : Kept s₀ s) : Kept s₀ (State.txDiscard s m t) := by
  unfold State.txDiscard
  repeat' first
    | (extract_lets +onlyGivenNames x; refine Kept.cut (t := x) ?_ fun _ => ?_; on_goal 1 => subst x; on_goal 2 => clear_value x)
    | (extract_lets +onlyGivenNames x; subst x)
    | (with_reducible first
        | assumption | apply Kept.ite | apply State.setMac_kept | apply State.txStamp_kept)

theorem execSoftwareFrameTransmit_kept {s₀ : State} (m : Fin 2) (gapNs : Nat) {s : State} (hK :
    Kept s₀ s) : KeptRes s₀ (execSoftwareFrameTransmit m gapNs s) := by
  unfold execSoftwareFrameTransmit
  repeat' first
    | (extract_lets +onlyGivenNames x; refine Kept.cut (t := x) ?_ fun _ => ?_; on_goal 1 => subst x; on_goal 2 => clear_value x)
    | (extract_lets +onlyGivenNames x; subst x)
    | (with_reducible first
        | assumption | apply Kept.ite | apply KeptRes.next | apply KeptRes.ite | apply State.macCount_kept | apply State.raise_kept
        | apply State.sendFrame_kept | apply State.setMac_kept | apply State.txDiscard_kept | apply State.txStamp_kept)
    | split

theorem execSoftwareFrameAged_kept {s₀ : State} (m : Fin 2) {s : State} (hK : Kept s₀ s) : KeptRes s₀ (execSoftwareFrameAged m s) := by
  unfold execSoftwareFrameAged
  repeat' first
    | (with_reducible first
        | assumption | apply Kept.ite | apply KeptRes.next | apply KeptRes.ite | apply State.macCount_kept | apply State.raise_kept
        | apply State.txDiscard_kept)
    | split

theorem State.txEnable_kept {s₀ : State} {s : State} (n : Nat) (hK : Kept s₀ s) : Kept s₀ (State.txEnable s n) := by
  unfold State.txEnable
  repeat' first
    | (extract_lets +onlyGivenNames x; refine Kept.cut (t := x) ?_ fun _ => ?_; on_goal 1 => subst x; on_goal 2 => clear_value x)
    | (extract_lets +onlyGivenNames x; subst x)
    | (with_reducible first
        | assumption | apply Kept.ite | apply State.setTx_kept | apply State.shTake_kept | apply State.wr_kept)

theorem execTxStreamEnable_kept {s₀ : State} (n : Fin 256) {s : State} (hK : Kept s₀ s) : KeptRes s₀ (execTxStreamEnable n s) := by
  unfold execTxStreamEnable
  with_reducible repeat' first
    | assumption | apply Kept.ite | apply KeptRes.next | apply KeptRes.ite | apply State.txEnable_kept

theorem State.txStage_kept {s₀ : State} {s : State} (n firstPos : Nat) (b : Barge) (hK :
    Kept s₀ s) : Kept s₀ (State.txStage s n firstPos b) := by
  unfold State.txStage
  repeat' first
    | (extract_lets +onlyGivenNames x; refine Kept.cut (t := x) ?_ fun _ => ?_; on_goal 1 => subst x; on_goal 2 => clear_value x)
    | (extract_lets +onlyGivenNames x; subst x)
    | (with_reducible first
        | assumption | intro _ | apply State.setTx_kept)

theorem State.txFade_kept {s₀ : State} {s : State} (n pos : Nat) (f : Fade) (hK : Kept s₀ s) : Kept s₀ (State.txFade s n pos f) := by
  unfold State.txFade
  repeat' first
    | (extract_lets +onlyGivenNames x; refine Kept.cut (t := x) ?_ fun _ => ?_; on_goal 1 => subst x; on_goal 2 => clear_value x)
    | (extract_lets +onlyGivenNames x; subst x)
    | (with_reducible first
        | assumption | intro _ | apply Kept.ite | apply State.setTx_kept)

theorem State.txCopy_kept {s₀ : State} {s : State} (n m : Nat) (bytes : List Byte) (hK :
    Kept s₀ s) : Kept s₀ (State.txCopy s n m bytes) := by
  unfold State.txCopy
  with_reducible repeat' first
    | assumption | apply Kept.ite | apply State.bump_kept | apply State.macCount_kept | apply State.sendFrame_kept
    | apply State.txEvent_kept

theorem execStreamPacketLaunch_kept {s₀ : State} (n : Fin 256) {s : State} (hK : Kept s₀ s) : KeptRes s₀ (execStreamPacketLaunch n s) := by
  unfold execStreamPacketLaunch
  repeat' first
    | (extract_lets +onlyGivenNames x; refine Kept.cut (t := x) ?_ fun _ => ?_; on_goal 1 => subst x; on_goal 2 => clear_value x)
    | (extract_lets +onlyGivenNames x; subst x)
    | (with_reducible first
        | assumption | intro _ | apply Kept.ite | apply KeptRes.next | apply KeptRes.ite | apply State.bump_kept | apply State.setTx_kept
        | apply State.txCopy_kept | apply State.txEvent_kept | apply State.wr_kept | apply Kept.foldl)
    | split

theorem execLpiEntry_kept {s₀ : State} (m : Fin 2) {s : State} (hK : Kept s₀ s) : KeptRes s₀ (execLpiEntry m s) := by
  unfold execLpiEntry
  repeat' first
    | (extract_lets +onlyGivenNames x; refine Kept.cut (t := x) ?_ fun _ => ?_; on_goal 1 => subst x; on_goal 2 => clear_value x)
    | (extract_lets +onlyGivenNames x; subst x)
    | (with_reducible first
        | assumption | apply Kept.ite | apply KeptRes.next | apply KeptRes.ite | apply State.wr_kept)

theorem execLpiWake_kept {s₀ : State} (m : Fin 2) {s : State} (hK : Kept s₀ s) : KeptRes s₀ (execLpiWake m s) := by
  unfold execLpiWake
  with_reducible repeat' first
    | assumption | apply Kept.ite | apply KeptRes.next | apply KeptRes.ite | apply State.wr_kept

theorem State.setFeed_kept {s₀ : State} {s : State} (n : Nat) (f : Feed) (hK : Kept s₀ s) : Kept s₀ (State.setFeed s n f) := by
  unfold State.setFeed
  repeat' first
    | (extract_lets +onlyGivenNames x; refine Kept.cut (t := x) ?_ fun _ => ?_; on_goal 1 => subst x; on_goal 2 => clear_value x)
    | (extract_lets +onlyGivenNames x; subst x)
    | (with_reducible first
        | assumption | intro _ | apply Kept.ite | apply State.setReg_kept | fail_if_no_progress (apply Kept.upd))
    | split

theorem State.fmpRefuse_kept {s₀ : State} {s : State} (hK : Kept s₀ s) : Kept s₀ (State.fmpRefuse s) := by
  unfold State.fmpRefuse
  with_reducible repeat' first
    | assumption | apply State.raise_kept

theorem State.fmpStore_kept {s₀ : State} {s : State} (a : Nat) (v : Word) (hK : Kept s₀ s) : Kept s₀ (State.fmpStore s a v) := by
  unfold State.fmpStore
  with_reducible repeat' first
    | assumption | apply State.setShWaits_kept | apply State.soften_kept

theorem State.fmpWriteSrc_kept {s₀ : State} {s : State} (n k : Nat) (v : Word) (hK : Kept s₀ s) : Kept s₀ (State.fmpWriteSrc s n k v) := by
  unfold State.fmpWriteSrc
  with_reducible repeat' first
    | assumption | apply Kept.ite | apply State.fmpRefuse_kept | apply State.fmpStore_kept

theorem State.fmpWriteCtrl_kept {s₀ : State} {s : State} (n : Nat) (v : Word) (hK : Kept s₀ s) : Kept s₀ (State.fmpWriteCtrl s n v) := by
  unfold State.fmpWriteCtrl
  with_reducible repeat' first
    | assumption | apply Kept.ite | apply State.fmpRefuse_kept | apply State.fmpStore_kept

theorem State.fmpTermTakes_kept {s₀ : State} {s : State} (n k : Nat) (a : Nat) (hK : Kept s₀ s) : Kept s₀ (State.fmpTermTakes s n k a) := by
  unfold State.fmpTermTakes
  repeat' first
    | (extract_lets +onlyGivenNames x; refine Kept.cut (t := x) ?_ fun _ => ?_; on_goal 1 => subst x; on_goal 2 => clear_value x)
    | (extract_lets +onlyGivenNames x; subst x)
    | (with_reducible first
        | assumption | apply Kept.ite | apply State.setFeed_kept | apply State.shTake_kept)

theorem execFmpGainWrite_kept {s₀ : State} (n : Fin 64) (k : Fin 4) (source : Bool) (write : Option Word) {s : State} (hK :
    Kept s₀ s) : KeptRes s₀ (execFmpGainWrite n k source write s) := by
  unfold execFmpGainWrite
  repeat' first
    | (with_reducible first
        | assumption | apply Kept.ite | apply KeptRes.next | apply KeptRes.ite | apply State.answer_kept | apply State.fmpStore_kept
        | apply State.fmpTermTakes_kept | apply State.fmpWriteSrc_kept)
    | split

theorem State.fmpCtrlTakes_kept {s₀ : State} {s : State} (n : Nat) (hK : Kept s₀ s) : Kept s₀ (State.fmpCtrlTakes s n) := by
  unfold State.fmpCtrlTakes
  repeat' first
    | (extract_lets +onlyGivenNames x; refine Kept.cut (t := x) ?_ fun _ => ?_; on_goal 1 => subst x; on_goal 2 => clear_value x)
    | (extract_lets +onlyGivenNames x; subst x)
    | (with_reducible first
        | assumption | apply Kept.ite | apply State.setFeed_kept | apply State.shTake_kept)

theorem execFmpCtrlChange_kept {s₀ : State} (n : Fin 64) (write : Option Word) {s : State} (hK :
    Kept s₀ s) : KeptRes s₀ (execFmpCtrlChange n write s) := by
  unfold execFmpCtrlChange
  repeat' first
    | (with_reducible first
        | assumption | apply KeptRes.next | apply State.answer_kept | apply State.fmpCtrlTakes_kept | apply State.fmpWriteCtrl_kept)
    | split

theorem State.fmpSaturates_kept {s₀ : State} {s : State} (n : Nat) (b : Bool) (hK : Kept s₀ s) : Kept s₀ (State.fmpSaturates s n b) := by
  unfold State.fmpSaturates
  with_reducible repeat' first
    | assumption | apply Kept.ite | apply State.raise_kept

theorem State.fmpPass_kept {s₀ : State} {s : State} (n : Nat) (hK : Kept s₀ s) : Kept s₀ (State.fmpPass s n) := by
  unfold State.fmpPass
  repeat' first
    | (extract_lets +onlyGivenNames x; refine Kept.cut (t := x) ?_ fun _ => ?_; on_goal 1 => subst x; on_goal 2 => clear_value x)
    | (extract_lets +onlyGivenNames x; subst x)
    | (with_reducible first
        | assumption | intro _ | apply Kept.ite | apply State.setFeed_kept | apply Kept.foldl)
    | split

theorem State.skipTick_kept {s₀ : State} {s : State} (n : Nat) (hK : Kept s₀ s) : Kept s₀ (State.skipTick s n) := by
  unfold State.skipTick
  repeat' first
    | (extract_lets +onlyGivenNames x; refine Kept.cut (t := x) ?_ fun _ => ?_; on_goal 1 => subst x; on_goal 2 => clear_value x)
    | (extract_lets +onlyGivenNames x; subst x)
    | (with_reducible first
        | assumption | apply State.engFault_kept | apply State.giveUpInlets_kept | apply State.setEng_kept | apply State.subSegment_kept)

theorem State.forcedPark_kept {s₀ : State} {s : State} (n : Nat) (hK : Kept s₀ s) : Kept s₀ (State.forcedPark s n) := by
  unfold State.forcedPark
  repeat' first
    | (extract_lets +onlyGivenNames x; refine Kept.cut (t := x) ?_ fun _ => ?_; on_goal 1 => subst x; on_goal 2 => clear_value x)
    | (extract_lets +onlyGivenNames x; subst x)
    | (with_reducible first
        | assumption | apply State.endSegment_kept | apply State.serveWaits_kept | apply State.setEng_kept | apply State.skipTick_kept)

theorem execEngineTickStrobe_kept {s₀ : State} (n : EngIx) (slack : Nat) {s : State} (hK :
    Kept s₀ s) : KeptRes s₀ (execEngineTickStrobe n slack s) := by
  unfold execEngineTickStrobe
  repeat' first
    | (extract_lets +onlyGivenNames x; refine Kept.cut (t := x) ?_ fun _ => ?_; on_goal 1 => subst x; on_goal 2 => clear_value x)
    | (extract_lets +onlyGivenNames x; subst x)
    | (with_reducible first
        | assumption | apply Kept.ite | apply KeptRes.next | apply KeptRes.ite | apply State.forcedPark_kept | apply State.least_kept
        | apply State.skipTick_kept)

theorem execEngineGateOpen_kept {s₀ : State} (n : EngIx) {s : State} (hK : Kept s₀ s) : KeptRes s₀ (execEngineGateOpen n s) := by
  unfold execEngineGateOpen
  repeat' first
    | (extract_lets +onlyGivenNames x; refine Kept.cut (t := x) ?_ fun _ => ?_; on_goal 1 => subst x; on_goal 2 => clear_value x)
    | (extract_lets +onlyGivenNames x; subst x)
    | (with_reducible first
        | assumption | apply Kept.ite | apply KeptRes.next | apply KeptRes.ite | apply State.dropOlder_kept
        | apply State.startSegment_kept)

theorem State.heldTick_kept {s₀ : State} {s : State} (n : Nat) (hK : Kept s₀ s) : Kept s₀ (State.heldTick s n) := by
  unfold State.heldTick
  repeat' first
    | (extract_lets +onlyGivenNames x; refine Kept.cut (t := x) ?_ fun _ => ?_; on_goal 1 => subst x; on_goal 2 => clear_value x)
    | (extract_lets +onlyGivenNames x; subst x)
    | (with_reducible first
        | assumption | intro _ | apply State.commit_kept | apply State.giveUpInlets_kept | apply State.setEng_kept | apply Kept.foldl)
    | split

theorem execEngineStartDeadline_kept {s₀ : State} (n : EngIx) {s : State} (hK : Kept s₀ s) : KeptRes s₀ (execEngineStartDeadline n s) := by
  unfold execEngineStartDeadline
  repeat' first
    | (extract_lets +onlyGivenNames x; refine Kept.cut (t := x) ?_ fun _ => ?_; on_goal 1 => subst x; on_goal 2 => clear_value x)
    | (extract_lets +onlyGivenNames x; subst x)
    | (with_reducible first
        | assumption | apply Kept.ite | apply KeptRes.next | apply KeptRes.ite | apply State.dropOlder_kept | apply State.heldTick_kept
        | apply State.setEng_kept | apply State.startSegment_kept)

theorem execEngineOutletCommit_kept {s₀ : State} (n : EngIx) (outlet : Fin 16) {s : State} (hK :
    Kept s₀ s) : KeptRes s₀ (execEngineOutletCommit n outlet s) := by
  unfold execEngineOutletCommit
  repeat' first
    | (extract_lets +onlyGivenNames x; refine Kept.cut (t := x) ?_ fun _ => ?_; on_goal 1 => subst x; on_goal 2 => clear_value x)
    | (extract_lets +onlyGivenNames x; subst x)
    | (with_reducible first
        | assumption | apply Kept.ite | apply KeptRes.next | apply KeptRes.ite | apply State.commitOutlet_kept)

theorem State.holdTakes_kept {s₀ : State} {s : State} (n : Nat) (hK : Kept s₀ s) : Kept s₀ (State.holdTakes s n) := by
  unfold State.holdTakes
  repeat' first
    | (extract_lets +onlyGivenNames x; refine Kept.cut (t := x) ?_ fun _ => ?_; on_goal 1 => subst x; on_goal 2 => clear_value x)
    | (extract_lets +onlyGivenNames x; subst x)
    | (with_reducible first
        | assumption | apply Kept.ite | apply State.setEngState_kept | apply State.shTake_kept)

theorem execEngineWindowAccess_kept {s₀ : State} (n : EngIx) (user : WindowUser) (offset : BitVec 18) (write : Option Word) (ecc : Ecc) {s : State} (hK :
    Kept s₀ s) : KeptRes s₀ (execEngineWindowAccess n user offset write ecc s) := by
  unfold execEngineWindowAccess
  repeat' first
    | (extract_lets +onlyGivenNames x; refine Kept.cut (t := x) ?_ fun _ => ?_; on_goal 1 => subst x; on_goal 2 => clear_value x)
    | (extract_lets +onlyGivenNames x; subst x)
    | (with_reducible first
        | assumption | intro _ | apply Kept.ite | apply KeptRes.next | apply KeptRes.ite | apply State.serveWindow_kept
        | apply State.windowWaits_kept)

theorem State.requestSwap_kept {s₀ : State} {s : State} (n : Nat) (hK : Kept s₀ s) : Kept s₀ (State.requestSwap s n) := by
  unfold State.requestSwap
  repeat' first
    | (extract_lets +onlyGivenNames x; refine Kept.cut (t := x) ?_ fun _ => ?_; on_goal 1 => subst x; on_goal 2 => clear_value x)
    | (extract_lets +onlyGivenNames x; subst x)
    | (with_reducible first
        | assumption | apply Kept.ite | apply State.pageTurns_kept | apply State.setEng_kept | apply State.wr_kept)

theorem State.requestParamSwap_kept {s₀ : State} {s : State} (n : Nat) (hK : Kept s₀ s) : Kept s₀ (State.requestParamSwap s n) := by
  unfold State.requestParamSwap
  repeat' first
    | (extract_lets +onlyGivenNames x; refine Kept.cut (t := x) ?_ fun _ => ?_; on_goal 1 => subst x; on_goal 2 => clear_value x)
    | (extract_lets +onlyGivenNames x; subst x)
    | (with_reducible first
        | assumption | apply Kept.ite | apply State.paramTurns_kept | apply State.setEng_kept | apply State.wr_kept)

theorem execProgramPageSwapRequest_kept {s₀ : State} (n : EngIx) {s : State} (hK :
    Kept s₀ s) : KeptRes s₀ (execProgramPageSwapRequest n s) := by
  unfold execProgramPageSwapRequest
  with_reducible repeat' first
    | assumption | apply KeptRes.next | apply State.requestSwap_kept

theorem execParamPageSwapRequest_kept {s₀ : State} (n : EngIx) {s : State} (hK :
    Kept s₀ s) : KeptRes s₀ (execParamPageSwapRequest n s) := by
  unfold execParamPageSwapRequest
  with_reducible repeat' first
    | assumption | apply KeptRes.next | apply State.requestParamSwap_kept

theorem execParamCopyEnd_kept {s₀ : State} (n : EngIx) {s : State} (hK : Kept s₀ s) : KeptRes s₀ (execParamCopyEnd n s) := by
  unfold execParamCopyEnd
  repeat' first
    | (extract_lets +onlyGivenNames x; refine Kept.cut (t := x) ?_ fun _ => ?_; on_goal 1 => subst x; on_goal 2 => clear_value x)
    | (extract_lets +onlyGivenNames x; subst x)
    | (with_reducible first
        | assumption | intro _ | apply Kept.ite | apply KeptRes.next | apply KeptRes.ite | apply State.paramTurns_kept
        | apply State.setEng_kept | apply State.wr_kept | apply Kept.foldl)

theorem execEngineRelockEnd_kept {s₀ : State} (n : EngIx) {s : State} (hK : Kept s₀ s) : KeptRes s₀ (execEngineRelockEnd n s) := by
  unfold execEngineRelockEnd
  with_reducible repeat' first
    | assumption | apply Kept.ite | apply KeptRes.next | apply KeptRes.ite | apply State.raise_kept | apply State.setEngState_kept

theorem State.imageWord_kept {s₀ : State} {s : State} (n o : Nat) (v : Word) (hK : Kept s₀ s) : Kept s₀ (State.imageWord s n o v) := by
  unfold State.imageWord
  repeat' first
    | (extract_lets +onlyGivenNames x; refine Kept.cut (t := x) ?_ fun _ => ?_; on_goal 1 => subst x; on_goal 2 => clear_value x)
    | (extract_lets +onlyGivenNames x; subst x)
    | (with_reducible first
        | assumption | apply Kept.ite | apply State.setEng_kept | apply State.windowPut_kept)

theorem State.loadEngData_kept {s₀ : State} {s : State} (src n : Nat) (hK : Kept s₀ s) : Kept s₀ (State.loadEngData s src n) := by
  unfold State.loadEngData
  repeat' first
    | (with_reducible first
        | assumption | intro _ | apply Kept.ite | apply State.imageWord_kept | apply State.setEng_kept | apply Kept.foldl)
    | split

theorem State.copyPage_kept {s₀ : State} {s : State} (src n : Nat) (hK : Kept s₀ s) : Kept s₀ (State.copyPage s src n) := by
  unfold State.copyPage
  repeat' first
    | (extract_lets +onlyGivenNames x; refine Kept.cut (t := x) ?_ fun _ => ?_; on_goal 1 => subst x; on_goal 2 => clear_value x)
    | (extract_lets +onlyGivenNames x; subst x)
    | (with_reducible first
        | assumption | intro _ | apply State.setEng_kept | apply Kept.foldl)

theorem State.copyState_kept {s₀ : State} {s : State} (src n : Nat) (hK : Kept s₀ s) : Kept s₀ (State.copyState s src n) := by
  unfold State.copyState
  repeat' first
    | (extract_lets +onlyGivenNames x; refine Kept.cut (t := x) ?_ fun _ => ?_; on_goal 1 => subst x; on_goal 2 => clear_value x)
    | (extract_lets +onlyGivenNames x; subst x)
    | (with_reducible first
        | assumption | intro _ | apply Kept.ite | apply State.setEng_kept | apply Kept.foldl)

theorem State.duplicateFeeds_kept {s₀ : State} {s : State} (u : Nat) (hK : Kept s₀ s) : Kept s₀ (State.duplicateFeeds s u) := by
  unfold State.duplicateFeeds
  repeat' first
    | (extract_lets +onlyGivenNames x; refine Kept.cut (t := x) ?_ fun _ => ?_; on_goal 1 => subst x; on_goal 2 => clear_value x)
    | (extract_lets +onlyGivenNames x; subst x)
    | (with_reducible first
        | assumption | intro _ | apply State.setLock_kept | apply State.setSub_kept | apply Kept.foldl)
    | (with_reducible first
         | exact Nat.min_le_left _ _
         | exact Nat.le_refl _
         | refine State.lock_bounded (by assumption) (by assumption) ?_
         | refine (Nat.sub_le _ _).trans (State.lock_bounded (by assumption) (by assumption) ?_))
    | (with_reducible show (_ : Nat) ≤ _; dsimp only)
    | split

theorem State.dropLock_kept {s₀ : State} {s : State} (l : Nat) (hK : Kept s₀ s) : Kept s₀ (State.dropLock s l) := by
  exact ⟨hK.pending, hK.now, hK.outbox, fun hc => ⟨(hK.canon hc).1, by
    have h := (hK.canon hc).2
    simp only [State.locksWf, List.all_eq_true, State.dropLock] at h ⊢
    intro e he
    rcases Tab.mem_set he with rfl | he
    · rfl
    · exact h e he⟩⟩

theorem State.removeFeeds_kept {s₀ : State} {s : State} (u : Nat) (hK : Kept s₀ s) : Kept s₀ (State.removeFeeds s u) := by
  unfold State.removeFeeds
  repeat' first
    | (extract_lets +onlyGivenNames x; refine Kept.cut (t := x) ?_ fun _ => ?_; on_goal 1 => subst x; on_goal 2 => clear_value x)
    | (extract_lets +onlyGivenNames x; subst x)
    | (with_reducible first
        | assumption | intro _ | apply State.dropLock_kept | apply State.setSub_kept | apply Kept.foldl)

theorem State.adoptFeeds_kept {s₀ : State} {s : State} (u : Nat) (hK : Kept s₀ s) : Kept s₀ (State.adoptFeeds s u) := by
  unfold State.adoptFeeds
  repeat' first
    | (extract_lets +onlyGivenNames x; refine Kept.cut (t := x) ?_ fun _ => ?_; on_goal 1 => subst x; on_goal 2 => clear_value x)
    | (extract_lets +onlyGivenNames x; subst x)
    | (with_reducible first
        | assumption | intro _ | apply State.removeFeeds_kept | apply State.setLock_kept | apply Kept.foldl)
    | (with_reducible first
         | exact Nat.min_le_left _ _
         | exact Nat.le_refl _
         | refine State.lock_bounded (by assumption) (by assumption) ?_
         | refine (Nat.sub_le _ _).trans (State.lock_bounded (by assumption) (by assumption) ?_))
    | (with_reducible show (_ : Nat) ≤ _; dsimp only)
    | split

theorem State.substStart_kept {s₀ : State} {s : State} (u target method : Nat) (hK :
    Kept s₀ s) : Kept s₀ (State.substStart s u target method) := by
  unfold State.substStart
  repeat' first
    | (extract_lets +onlyGivenNames x; refine Kept.cut (t := x) ?_ fun _ => ?_; on_goal 1 => subst x; on_goal 2 => clear_value x)
    | (extract_lets +onlyGivenNames x; subst x)
    | (with_reducible first
        | assumption | apply Kept.ite | apply State.setSub_kept | apply State.setSubState_kept | apply State.weirRequest_kept
        | apply State.wr_kept)

theorem execSubstitutionStart_kept {s₀ : State} (u : Fin 2) {s : State} (hK : Kept s₀ s) : KeptRes s₀ (execSubstitutionStart u s) := by
  unfold execSubstitutionStart
  with_reducible repeat' first
    | assumption | apply KeptRes.next | apply State.substStart_kept

theorem State.substLeave_kept {s₀ : State} {s : State} (u : Nat) (hK : Kept s₀ s) : Kept s₀ (State.substLeave s u) := by
  unfold State.substLeave
  with_reducible repeat' first
    | assumption | apply Kept.ite | apply State.setEngState_kept | apply State.setReg_kept | apply State.setSubState_kept

theorem State.substRelocked_kept {s₀ : State} {s : State} (n : Nat) (hK : Kept s₀ s) : Kept s₀ (State.substRelocked s n) := by
  unfold State.substRelocked
  with_reducible repeat' first
    | assumption | apply State.raise_kept | apply State.setEngState_kept

theorem execSubstitutionRelockEnd_kept {s₀ : State} (u : Fin 2) {s : State} (hK :
    Kept s₀ s) : KeptRes s₀ (execSubstitutionRelockEnd u s) := by
  unfold execSubstitutionRelockEnd
  repeat' first
    | (extract_lets +onlyGivenNames x; refine Kept.cut (t := x) ?_ fun _ => ?_; on_goal 1 => subst x; on_goal 2 => clear_value x)
    | (extract_lets +onlyGivenNames x; subst x)
    | (with_reducible first
        | assumption | apply Kept.ite | apply KeptRes.next | apply KeptRes.ite | apply State.raise_kept | apply State.setEngState_kept
        | apply State.setSub_kept | apply State.setSubState_kept | apply State.substRelocked_kept)

theorem State.adoptSchedule_kept {s₀ : State} {s : State} (u : Nat) (hK : Kept s₀ s) : Kept s₀ (State.adoptSchedule s u) := by
  unfold State.adoptSchedule
  repeat' first
    | (extract_lets +onlyGivenNames x; refine Kept.cut (t := x) ?_ fun _ => ?_; on_goal 1 => subst x; on_goal 2 => clear_value x)
    | (extract_lets +onlyGivenNames x; subst x)
    | (with_reducible first
        | assumption | intro _ | apply Kept.ite | apply State.setEng_kept | apply State.setEngState_kept | apply State.setReg_kept
        | apply State.wr_kept)

theorem State.bothStart_kept {s₀ : State} {s : State} (u : Nat) (hK : Kept s₀ s) : Kept s₀ (State.bothStart s u) := by
  unfold State.bothStart
  repeat' first
    | (extract_lets +onlyGivenNames x; refine Kept.cut (t := x) ?_ fun _ => ?_; on_goal 1 => subst x; on_goal 2 => clear_value x)
    | (extract_lets +onlyGivenNames x; subst x)
    | (with_reducible first
        | assumption | apply State.adoptSchedule_kept | apply State.duplicateFeeds_kept | apply State.setSub_kept | apply State.wr_kept)

theorem execSubstitutionCopyEnd_kept {s₀ : State} (u : Fin 2) {s : State} (hK : Kept s₀ s) : KeptRes s₀ (execSubstitutionCopyEnd u s) := by
  unfold execSubstitutionCopyEnd
  repeat' first
    | (extract_lets +onlyGivenNames x; refine Kept.cut (t := x) ?_ fun _ => ?_; on_goal 1 => subst x; on_goal 2 => clear_value x)
    | (extract_lets +onlyGivenNames x; subst x)
    | (with_reducible first
        | assumption | apply Kept.ite | apply KeptRes.next | apply KeptRes.ite | apply State.bothStart_kept | apply State.copyPage_kept
        | apply State.copyState_kept | apply State.loadEngData_kept | apply State.setEng_kept | apply State.setSub_kept
        | apply State.setSubState_kept)

theorem execSubstitutionReady_kept {s₀ : State} (u : Fin 2) {s : State} (hK : Kept s₀ s) : KeptRes s₀ (execSubstitutionReady u s) := by
  unfold execSubstitutionReady
  repeat' first
    | (extract_lets +onlyGivenNames x; refine Kept.cut (t := x) ?_ fun _ => ?_; on_goal 1 => subst x; on_goal 2 => clear_value x)
    | (extract_lets +onlyGivenNames x; subst x)
    | (with_reducible first
        | assumption | intro _ | apply Kept.ite | apply KeptRes.next | apply KeptRes.ite | apply State.setSub_kept
        | apply State.setSubState_kept | apply State.subEvent_kept)

theorem execSubstitutionCutCommand_kept {s₀ : State} (u : Fin 2) {s : State} (hK :
    Kept s₀ s) : KeptRes s₀ (execSubstitutionCutCommand u s) := by
  unfold execSubstitutionCutCommand
  with_reducible repeat' first
    | assumption | apply Kept.ite | apply KeptRes.next | apply KeptRes.ite | apply State.setSub_kept

theorem State.cutFade_kept {s₀ : State} {s : State} (u : Nat) (hK : Kept s₀ s) : Kept s₀ (State.cutFade s u) := by
  unfold State.cutFade
  repeat' first
    | (extract_lets +onlyGivenNames x; refine Kept.cut (t := x) ?_ fun _ => ?_; on_goal 1 => subst x; on_goal 2 => clear_value x)
    | (extract_lets +onlyGivenNames x; subst x)
    | (with_reducible first
        | assumption | intro _ | apply Kept.ite | apply State.setRouter_kept)

theorem State.makeCut_kept {s₀ : State} {s : State} (u : Nat) (hK : Kept s₀ s) : Kept s₀ (State.makeCut s u) := by
  unfold State.makeCut
  repeat' first
    | (extract_lets +onlyGivenNames x; refine Kept.cut (t := x) ?_ fun _ => ?_; on_goal 1 => subst x; on_goal 2 => clear_value x)
    | (extract_lets +onlyGivenNames x; subst x)
    | (with_reducible first
        | assumption | apply State.adoptFeeds_kept | apply State.cutFade_kept | apply State.setEng_kept | apply State.setEngState_kept
        | apply State.setReg_kept | apply State.subEvent_kept)

theorem execSubstitutionCut_kept {s₀ : State} (u : Fin 2) {s : State} (hK : Kept s₀ s) : KeptRes s₀ (execSubstitutionCut u s) := by
  unfold execSubstitutionCut
  repeat' first
    | (extract_lets +onlyGivenNames x; refine Kept.cut (t := x) ?_ fun _ => ?_; on_goal 1 => subst x; on_goal 2 => clear_value x)
    | (extract_lets +onlyGivenNames x; subst x)
    | (with_reducible first
        | assumption | apply Kept.ite | apply KeptRes.next | apply KeptRes.ite | apply State.makeCut_kept | apply State.setSub_kept
        | apply State.setSubState_kept | apply State.wr_kept)

theorem execSubstitutionRelease_kept {s₀ : State} (u : Fin 2) {s : State} (hK : Kept s₀ s) : KeptRes s₀ (execSubstitutionRelease u s) := by
  unfold execSubstitutionRelease
  repeat' first
    | (extract_lets +onlyGivenNames x; refine Kept.cut (t := x) ?_ fun _ => ?_; on_goal 1 => subst x; on_goal 2 => clear_value x)
    | (extract_lets +onlyGivenNames x; subst x)
    | (with_reducible first
        | assumption | apply Kept.ite | apply KeptRes.next | apply KeptRes.ite | apply State.setEngState_kept | apply State.setReg_kept
        | apply State.setSub_kept | apply State.setSubState_kept)

theorem State.substIdle_kept {s₀ : State} {s : State} (u : Nat) (hK : Kept s₀ s) : Kept s₀ (State.substIdle s u) := by
  unfold State.substIdle
  repeat' first
    | (extract_lets +onlyGivenNames x; refine Kept.cut (t := x) ?_ fun _ => ?_; on_goal 1 => subst x; on_goal 2 => clear_value x)
    | (extract_lets +onlyGivenNames x; subst x)
    | (with_reducible first
        | assumption | apply State.setEng_kept | apply State.setEngState_kept | apply State.setSub_kept | apply State.setSubState_kept
        | apply State.weirDrop_kept | apply State.wr_kept)

theorem execSubstitutionCutBack_kept {s₀ : State} (u : Fin 2) {s : State} (hK : Kept s₀ s) : KeptRes s₀ (execSubstitutionCutBack u s) := by
  unfold execSubstitutionCutBack
  with_reducible repeat' first
    | assumption | apply Kept.ite | apply KeptRes.next | apply KeptRes.ite | apply State.makeCut_kept | apply State.substIdle_kept

theorem State.substAbort_kept {s₀ : State} {s : State} (u : Nat) (hK : Kept s₀ s) : Kept s₀ (State.substAbort s u) := by
  unfold State.substAbort
  with_reducible repeat' first
    | assumption | apply Kept.ite | apply State.setSub_kept

theorem execSubstitutionAbort_kept {s₀ : State} (u : Fin 2) {s : State} (hK : Kept s₀ s) : KeptRes s₀ (execSubstitutionAbort u s) := by
  unfold execSubstitutionAbort
  with_reducible repeat' first
    | assumption | apply KeptRes.next | apply State.substAbort_kept

theorem State.abortsAt_kept {s₀ : State} {s : State} (x : Nat) (hK : Kept s₀ s) : Kept s₀ (State.abortsAt s x) := by
  unfold State.abortsAt
  repeat' first
    | (with_reducible first
        | assumption | intro _ | apply Kept.ite | apply State.removeFeeds_kept | apply State.subEvent_kept | apply State.substIdle_kept
        | apply Kept.foldl)
    | split

theorem execSubstitutionAutoFail_kept {s₀ : State} (u : Fin 2) (target : Fin 32) {s : State} (hK :
    Kept s₀ s) : KeptRes s₀ (execSubstitutionAutoFail u target s) := by
  unfold execSubstitutionAutoFail
  with_reducible repeat' first
    | assumption | apply Kept.ite | apply KeptRes.next | apply KeptRes.ite | apply State.substStart_kept

theorem State.overread_kept {s₀ : State} {s : State} (n : Nat) (hK : Kept s₀ s) : Kept s₀ (State.overread s n) := by
  unfold State.overread
  with_reducible repeat' first
    | assumption | apply State.engFault_kept

theorem State.sendWord_kept {s₀ : State} {s : State} (n o : Nat) (v : Sample) (hK : Kept s₀ s) : Kept s₀ (State.sendWord s n o v) := by
  unfold State.sendWord
  repeat' first
    | (extract_lets +onlyGivenNames x; refine Kept.cut (t := x) ?_ fun _ => ?_; on_goal 1 => subst x; on_goal 2 => clear_value x)
    | (extract_lets +onlyGivenNames x; subst x)
    | (with_reducible first
        | assumption | intro _ | apply Kept.ite | apply State.overread_kept | apply State.setEng_kept)
    | split

theorem State.endOp_kept {s₀ : State} {s : State} (n : Nat) (last : Bool) (hK : Kept s₀ s) : Kept s₀ (State.endOp s n last) := by
  unfold State.endOp
  with_reducible repeat' first
    | assumption | apply State.setEng_kept

theorem execNop_kept {s₀ : State} (n : EngIx) (fetch : Ecc) {s : State} (hK : Kept s₀ s) : KeptRes s₀ (execNop n fetch s) := by
  unfold execNop
  repeat' first
    | (with_reducible first
        | assumption | apply Kept.ite | apply KeptRes.next | apply KeptRes.ite | apply State.endSegment_kept | apply State.engEcc_kept
        | apply State.serveWaits_kept | apply State.setEng_kept)
    | split

theorem execMpy_kept {s₀ : State} (n : EngIx) (lane : Fin 2) (a : AccIx) (s1 s2 : RegIx) (last : Bool) {s : State} (hK :
    Kept s₀ s) : KeptRes s₀ (execMpy n lane a s1 s2 last s) := by
  unfold execMpy
  with_reducible repeat' first
    | assumption | intro _ | apply KeptRes.next | apply State.issue_kept

theorem execMac_kept {s₀ : State} (n : EngIx) (lane : Fin 2) (a : AccIx) (s1 s2 : RegIx) (last : Bool) {s : State} (hK :
    Kept s₀ s) : KeptRes s₀ (execMac n lane a s1 s2 last s) := by
  unfold execMac
  with_reducible repeat' first
    | assumption | intro _ | apply KeptRes.next | apply State.issue_kept

theorem execMacn_kept {s₀ : State} (n : EngIx) (lane : Fin 2) (a : AccIx) (s1 s2 : RegIx) (last : Bool) {s : State} (hK :
    Kept s₀ s) : KeptRes s₀ (execMacn n lane a s1 s2 last s) := by
  unfold execMacn
  with_reducible repeat' first
    | assumption | intro _ | apply KeptRes.next | apply State.issue_kept

theorem execClr_kept {s₀ : State} (n : EngIx) (a : AccIx) (last : Bool) {s : State} (hK : Kept s₀ s) : KeptRes s₀ (execClr n a last s) := by
  unfold execClr
  with_reducible repeat' first
    | assumption | intro _ | apply KeptRes.next | apply State.issue_kept

theorem execLda_kept {s₀ : State} (n : EngIx) (a : AccIx) (d : RegIx) (last : Bool) {s : State} (hK :
    Kept s₀ s) : KeptRes s₀ (execLda n a d last s) := by
  unfold execLda
  with_reducible repeat' first
    | assumption | intro _ | apply KeptRes.next | apply State.issue_kept

theorem execAdd_kept {s₀ : State} (n : EngIx) (a : AccIx) (d : RegIx) (last : Bool) {s : State} (hK :
    Kept s₀ s) : KeptRes s₀ (execAdd n a d last s) := by
  unfold execAdd
  with_reducible repeat' first
    | assumption | intro _ | apply KeptRes.next | apply State.issue_kept

theorem execSub_kept {s₀ : State} (n : EngIx) (a : AccIx) (d : RegIx) (last : Bool) {s : State} (hK :
    Kept s₀ s) : KeptRes s₀ (execSub n a d last s) := by
  unfold execSub
  with_reducible repeat' first
    | assumption | intro _ | apply KeptRes.next | apply State.issue_kept

theorem execAdda_kept {s₀ : State} (n : EngIx) (a a' : AccIx) (last : Bool) {s : State} (hK :
    Kept s₀ s) : KeptRes s₀ (execAdda n a a' last s) := by
  unfold execAdda
  with_reducible repeat' first
    | assumption | intro _ | apply KeptRes.next | apply State.issue_kept

theorem execSuba_kept {s₀ : State} (n : EngIx) (a a' : AccIx) (last : Bool) {s : State} (hK :
    Kept s₀ s) : KeptRes s₀ (execSuba n a a' last s) := by
  unfold execSuba
  with_reducible repeat' first
    | assumption | intro _ | apply KeptRes.next | apply State.issue_kept

theorem execNeg_kept {s₀ : State} (n : EngIx) (a : AccIx) (last : Bool) {s : State} (hK : Kept s₀ s) : KeptRes s₀ (execNeg n a last s) := by
  unfold execNeg
  with_reducible repeat' first
    | assumption | intro _ | apply KeptRes.next | apply State.issue_kept

theorem execAbs_kept {s₀ : State} (n : EngIx) (a : AccIx) (last : Bool) {s : State} (hK : Kept s₀ s) : KeptRes s₀ (execAbs n a last s) := by
  unfold execAbs
  with_reducible repeat' first
    | assumption | intro _ | apply Kept.ite | apply KeptRes.next | apply KeptRes.ite | apply State.issue_kept

theorem execCmp_kept {s₀ : State} (n : EngIx) (a : AccIx) (d : RegIx) (last : Bool) {s : State} (hK :
    Kept s₀ s) : KeptRes s₀ (execCmp n a d last s) := by
  unfold execCmp
  repeat' first
    | (extract_lets +onlyGivenNames x; refine Kept.cut (t := x) ?_ fun _ => ?_; on_goal 1 => subst x; on_goal 2 => clear_value x)
    | (extract_lets +onlyGivenNames x; subst x)
    | (with_reducible first
        | assumption | intro _ | apply KeptRes.next | apply State.issue_kept)

theorem execMax_kept {s₀ : State} (n : EngIx) (a : AccIx) (d : RegIx) (last : Bool) {s : State} (hK :
    Kept s₀ s) : KeptRes s₀ (execMax n a d last s) := by
  unfold execMax
  repeat' first
    | (extract_lets +onlyGivenNames x; refine Kept.cut (t := x) ?_ fun _ => ?_; on_goal 1 => subst x; on_goal 2 => clear_value x)
    | (extract_lets +onlyGivenNames x; subst x)
    | (with_reducible first
        | assumption | intro _ | apply Kept.ite | apply KeptRes.next | apply KeptRes.ite | apply State.issue_kept)

theorem execMin_kept {s₀ : State} (n : EngIx) (a : AccIx) (d : RegIx) (last : Bool) {s : State} (hK :
    Kept s₀ s) : KeptRes s₀ (execMin n a d last s) := by
  unfold execMin
  repeat' first
    | (extract_lets +onlyGivenNames x; refine Kept.cut (t := x) ?_ fun _ => ?_; on_goal 1 => subst x; on_goal 2 => clear_value x)
    | (extract_lets +onlyGivenNames x; subst x)
    | (with_reducible first
        | assumption | intro _ | apply Kept.ite | apply KeptRes.next | apply KeptRes.ite | apply State.issue_kept)

theorem execLim_kept {s₀ : State} (n : EngIx) (a : AccIx) (last : Bool) {s : State} (hK : Kept s₀ s) : KeptRes s₀ (execLim n a last s) := by
  unfold execLim
  repeat' first
    | (extract_lets +onlyGivenNames x; refine Kept.cut (t := x) ?_ fun _ => ?_; on_goal 1 => subst x; on_goal 2 => clear_value x)
    | (extract_lets +onlyGivenNames x; subst x)
    | (with_reducible first
        | assumption | intro _ | apply Kept.ite | apply KeptRes.next | apply KeptRes.ite | apply State.issue_kept)

theorem execExp_kept {s₀ : State} (n : EngIx) (a : AccIx) (d : RegIx) (last : Bool) {s : State} (hK :
    Kept s₀ s) : KeptRes s₀ (execExp n a d last s) := by
  unfold execExp
  repeat' first
    | (extract_lets +onlyGivenNames x; refine Kept.cut (t := x) ?_ fun _ => ?_; on_goal 1 => subst x; on_goal 2 => clear_value x)
    | (extract_lets +onlyGivenNames x; subst x)
    | (with_reducible first
        | assumption | intro _ | apply KeptRes.next | apply State.issue_kept)

theorem execNorm_kept {s₀ : State} (n : EngIx) (a : AccIx) (d : RegIx) (last : Bool) {s : State} (hK :
    Kept s₀ s) : KeptRes s₀ (execNorm n a d last s) := by
  unfold execNorm
  repeat' first
    | (extract_lets +onlyGivenNames x; refine Kept.cut (t := x) ?_ fun _ => ?_; on_goal 1 => subst x; on_goal 2 => clear_value x)
    | (extract_lets +onlyGivenNames x; subst x)
    | (with_reducible first
        | assumption | intro _ | apply KeptRes.next | apply State.issue_kept)

theorem execAsh_kept {s₀ : State} (n : EngIx) (a : AccIx) (d : RegIx) (last : Bool) {s : State} (hK :
    Kept s₀ s) : KeptRes s₀ (execAsh n a d last s) := by
  unfold execAsh
  repeat' first
    | (extract_lets +onlyGivenNames x; refine Kept.cut (t := x) ?_ fun _ => ?_; on_goal 1 => subst x; on_goal 2 => clear_value x)
    | (extract_lets +onlyGivenNames x; subst x)
    | (with_reducible first
        | assumption | intro _ | apply KeptRes.next | apply State.issue_kept)

theorem execLd_kept {s₀ : State} (n : EngIx) (bus : Bus) (p d : RegIx) (update : Update) (ecc : Ecc) (last : Bool) {s : State} (hK :
    Kept s₀ s) : KeptRes s₀ (execLd n bus p d update ecc last s) := by
  unfold execLd
  repeat' first
    | (extract_lets +onlyGivenNames x; refine Kept.cut (t := x) ?_ fun _ => ?_; on_goal 1 => subst x; on_goal 2 => clear_value x)
    | (extract_lets +onlyGivenNames x; subst x)
    | (with_reducible first
        | assumption | apply Kept.ite | apply KeptRes.next | apply KeptRes.ite | apply State.engEcc_kept | apply State.setEng_kept)

theorem execSt_kept {s₀ : State} (n : EngIx) (bus : Bus) (p d : RegIx) (update : Update) (last : Bool) {s : State} (hK :
    Kept s₀ s) : KeptRes s₀ (execSt n bus p d update last s) := by
  unfold execSt
  with_reducible repeat' first
    | assumption | intro _ | apply KeptRes.next | apply State.issue_kept

theorem execStSat_kept {s₀ : State} (n : EngIx) (bus : Bus) (p : RegIx) (a : AccIx) (update : Update) (last : Bool) {s : State} (hK :
    Kept s₀ s) : KeptRes s₀ (execStSat n bus p a update last s) := by
  unfold execStSat
  repeat' first
    | (extract_lets +onlyGivenNames x; refine Kept.cut (t := x) ?_ fun _ => ?_; on_goal 1 => subst x; on_goal 2 => clear_value x)
    | (extract_lets +onlyGivenNames x; subst x)
    | (with_reducible first
        | assumption | intro _ | apply KeptRes.next | apply State.issue_kept)

theorem execTake_kept {s₀ : State} (n : EngIx) (inlet : Fin 16) (d : RegIx) (ecc : Ecc) (last : Bool) {s : State} (hK :
    Kept s₀ s) : KeptRes s₀ (execTake n inlet d ecc last s) := by
  unfold execTake
  repeat' first
    | (extract_lets +onlyGivenNames x; refine Kept.cut (t := x) ?_ fun _ => ?_; on_goal 1 => subst x; on_goal 2 => clear_value x)
    | (extract_lets +onlyGivenNames x; subst x)
    | (with_reducible first
        | assumption | intro _ | apply Kept.ite | apply KeptRes.next | apply KeptRes.ite | apply State.consume_kept
        | apply State.engEcc_kept | apply State.overread_kept | apply State.setEng_kept)
    | split

theorem execSend_kept {s₀ : State} (n : EngIx) (outlet : Fin 16) (d : RegIx) (last : Bool) {s : State} (hK :
    Kept s₀ s) : KeptRes s₀ (execSend n outlet d last s) := by
  unfold execSend
  repeat' first
    | (with_reducible first
        | assumption | apply Kept.ite | apply KeptRes.next | apply KeptRes.ite | apply State.endOp_kept | apply State.sendWord_kept)
    | split

theorem execSendSat_kept {s₀ : State} (n : EngIx) (outlet : Fin 16) (a : AccIx) (last : Bool) {s : State} (hK :
    Kept s₀ s) : KeptRes s₀ (execSendSat n outlet a last s) := by
  unfold execSendSat
  repeat' first
    | (extract_lets +onlyGivenNames x; refine Kept.cut (t := x) ?_ fun _ => ?_; on_goal 1 => subst x; on_goal 2 => clear_value x)
    | (extract_lets +onlyGivenNames x; subst x)
    | (with_reducible first
        | assumption | apply Kept.ite | apply KeptRes.next | apply KeptRes.ite | apply State.endOp_kept | apply State.sendWord_kept
        | apply State.setEng_kept)

theorem execStoreBufferWrite_kept {s₀ : State} (n : EngIx) (bus : Bus) {s : State} (hK :
    Kept s₀ s) : KeptRes s₀ (execStoreBufferWrite n bus s) := by
  unfold execStoreBufferWrite
  with_reducible repeat' first
    | assumption | apply KeptRes.next | apply State.setEng_kept

theorem execLdi_kept {s₀ : State} (n : EngIx) (r : Fin 64) (imm : Sample) {s : State} (hK :
    Kept s₀ s) : KeptRes s₀ (execLdi n r imm s) := by
  unfold execLdi
  repeat' first
    | (extract_lets +onlyGivenNames x; refine Kept.cut (t := x) ?_ fun _ => ?_; on_goal 1 => subst x; on_goal 2 => clear_value x)
    | (extract_lets +onlyGivenNames x; subst x)
    | (with_reducible first
        | assumption | intro _ | apply KeptRes.next | apply State.issue_kept)

theorem execMov_kept {s₀ : State} (n : EngIx) (r r' : Fin 64) {s : State} (hK : Kept s₀ s) : KeptRes s₀ (execMov n r r' s) := by
  unfold execMov
  repeat' first
    | (extract_lets +onlyGivenNames x; refine Kept.cut (t := x) ?_ fun _ => ?_; on_goal 1 => subst x; on_goal 2 => clear_value x)
    | (extract_lets +onlyGivenNames x; subst x)
    | (with_reducible first
        | assumption | intro _ | apply KeptRes.next | apply State.issue_kept)
    | split

theorem execAshi_kept {s₀ : State} (n : EngIx) (a : AccIx) (sh : BitVec 7) {s : State} (hK :
    Kept s₀ s) : KeptRes s₀ (execAshi n a sh s) := by
  unfold execAshi
  repeat' first
    | (extract_lets +onlyGivenNames x; refine Kept.cut (t := x) ?_ fun _ => ?_; on_goal 1 => subst x; on_goal 2 => clear_value x)
    | (extract_lets +onlyGivenNames x; subst x)
    | (with_reducible first
        | assumption | intro _ | apply KeptRes.next | apply State.issue_kept)

theorem execLea_kept {s₀ : State} (n : EngIx) (p : RegIx) (imm : Ptr) {s : State} (hK : Kept s₀ s) : KeptRes s₀ (execLea n p imm s) := by
  unfold execLea
  with_reducible repeat' first
    | assumption | intro _ | apply KeptRes.next | apply State.issue_kept

theorem execBra_kept {s₀ : State} (n : EngIx) (cc : Fin 32) (target : BitVec 13) {s : State} (hK :
    Kept s₀ s) : KeptRes s₀ (execBra n cc target s) := by
  unfold execBra
  with_reducible repeat' first
    | assumption | intro _ | apply Kept.ite | apply KeptRes.next | apply KeptRes.ite | apply State.issue_kept

theorem execDoLoop_kept {s₀ : State} (n : EngIx) (count : BitVec 16) (stop : BitVec 13) {s : State} (hK :
    Kept s₀ s) : KeptRes s₀ (execDoLoop n count stop s) := by
  unfold execDoLoop
  with_reducible repeat' first
    | assumption | intro _ | apply KeptRes.next | apply State.issue_kept

theorem execDor_kept {s₀ : State} (n : EngIx) (r : Fin 64) (stop : BitVec 13) {s : State} (hK :
    Kept s₀ s) : KeptRes s₀ (execDor n r stop s) := by
  unfold execDor
  repeat' first
    | (extract_lets +onlyGivenNames x; refine Kept.cut (t := x) ?_ fun _ => ?_; on_goal 1 => subst x; on_goal 2 => clear_value x)
    | (extract_lets +onlyGivenNames x; subst x)
    | (with_reducible first
        | assumption | intro _ | apply KeptRes.next | apply State.issue_kept)

theorem execBrk_kept {s₀ : State} (n : EngIx) {s : State} (hK : Kept s₀ s) : KeptRes s₀ (execBrk n s) := by
  unfold execBrk
  repeat' first
    | (with_reducible first
        | assumption | intro _ | apply KeptRes.next | apply State.issue_kept)
    | split

theorem execPark_kept {s₀ : State} (n : EngIx) {s : State} (hK : Kept s₀ s) : KeptRes s₀ (execPark n s) := by
  unfold execPark
  with_reducible repeat' first
    | assumption | apply Kept.ite | apply KeptRes.next | apply KeptRes.ite | apply State.endSegment_kept | apply State.serveWaits_kept

end Sys2Proof.Machine
end

