-- ==== Sys2Proof/Laws/KeptAccess.lean ====
section
/-!
SUPPORT. The relation `Kept` for register access, the bus matrix and the passing of samples.
-/
namespace Sys2Proof.Machine

set_option linter.unreachableTactic false
set_option linter.unusedTactic false

theorem State.via_kept {s₀ : State} {s : State} (f : State → Res) (hf : KeptRes s₀ (f s)) (hK : Kept s₀ s) : Kept s₀ (State.via s f) := by
  unfold State.via
  split <;> rename_i e
  · exact hf.of _ e
  · exact hK

theorem State.plainWrite_kept {s₀ : State} {s : State} (a : Nat) (d : RegDesc) (v : Word) (hK :
    Kept s₀ s) : Kept s₀ (State.plainWrite s a d v) := by
  unfold State.plainWrite
  repeat' first
    | (extract_lets +onlyGivenNames x; refine Kept.cut (t := x) ?_ fun _ => ?_; on_goal 1 => subst x; on_goal 2 => clear_value x)
    | (extract_lets +onlyGivenNames x; subst x)
    | (with_reducible first
        | assumption | apply Kept.ite | apply State.setReg_kept | apply State.setShWaits_kept | apply State.settle_kept
        | apply State.soften_kept)

theorem State.lowTakes_kept {s₀ : State} {s : State} (a : Nat) (hK : Kept s₀ s) : Kept s₀ (State.lowTakes s a) := by
  unfold State.lowTakes
  repeat' first
    | (with_reducible first
        | assumption | apply State.plainWrite_kept | apply State.setHeldLow_kept)
    | split

theorem State.commonWrite_kept {s₀ : State} {s : State} (a : Nat) (v : Word) (hK : Kept s₀ s) : Kept s₀ (State.commonWrite s a v) := by
  unfold State.commonWrite
  repeat' first
    | (with_reducible first
        | assumption | intro _ | apply Kept.ite | apply State.lowTakes_kept | apply State.plainWrite_kept | apply State.setHeldLow_kept
        | apply Kept.foldl)
    | split

theorem State.commonRead_kept {s₀ : State} {s : State} (a : Nat) (d : RegDesc) (hK : Kept s₀ s) : Kept s₀ (State.commonRead s a d).1 := by
  unfold State.commonRead
  repeat' first
    | (extract_lets +onlyGivenNames x; refine Kept.cut (t := x) ?_ fun _ => ?_; on_goal 1 => subst x; on_goal 2 => clear_value x)
    | (extract_lets +onlyGivenNames x; subst x)
    | (with_reducible first
        | assumption | intro _ | apply Kept.ite | apply State.setReg_kept | apply State.setSnap_kept | apply Kept.foldl)
    | split

theorem State.regRead_kept {s₀ : State} {s : State} (a : Nat) (hK : Kept s₀ s) : Kept s₀ (State.regRead s a).1 := by
  unfold State.regRead
  repeat' first
    | (extract_lets +onlyGivenNames x; refine Kept.cut (t := x) ?_ fun _ => ?_; on_goal 1 => subst x; on_goal 2 => clear_value x)
    | (extract_lets +onlyGivenNames x; subst x)
    | (with_reducible first
        | assumption | apply Kept.ite | apply State.commonRead_kept
        | (refine Kept.fst_of_eq (by assumption) ?_; apply State.commonRead_kept) | apply State.readTime0_kept
        | (refine Kept.snd_of_eq (by assumption) ?_; apply State.readTime0_kept) | apply State.setCic_kept | apply State.setFifo_kept
        | apply State.setLane_kept | apply State.via_kept | apply State.wr_kept | apply execFaultLogPop_kept | apply execTxqPop_kept)
    | split

theorem State.writeGlb_kept {s₀ : State} {s : State} (a : Nat) (v : Word) (hK : Kept s₀ s) : KeptOpt s₀ (State.writeGlb s a v) := by
  unfold State.writeGlb
  repeat' first
    | (extract_lets +onlyGivenNames x; refine Kept.cut (t := x) ?_ fun _ => ?_; on_goal 1 => subst x; on_goal 2 => clear_value x)
    | (extract_lets +onlyGivenNames x; subst x)
    | (with_reducible first
        | assumption | apply Kept.ite | apply KeptOpt.some | exact KeptOpt.none | apply KeptOpt.ite | apply State.abortReplacement_kept
        | apply State.sw_kept | apply State.writePush_kept | apply State.writeRst_kept)

theorem State.writeCfg_kept {s₀ : State} {s : State} (a : Nat) (v : Word) (hK : Kept s₀ s) : KeptOpt s₀ (State.writeCfg s a v) := by
  unfold State.writeCfg
  repeat' first
    | (extract_lets +onlyGivenNames x; refine Kept.cut (t := x) ?_ fun _ => ?_; on_goal 1 => subst x; on_goal 2 => clear_value x)
    | (extract_lets +onlyGivenNames x; subst x)
    | (with_reducible first
        | assumption | apply Kept.ite | apply KeptOpt.some | exact KeptOpt.none | apply KeptOpt.ite | apply State.abortTake_kept
        | apply State.commonWrite_kept | apply State.requestModes_kept | apply State.settleClocks_kept | apply State.sw_kept)

theorem State.writeEvt_kept {s₀ : State} {s : State} (a : Nat) (v : Word) (hK : Kept s₀ s) : KeptOpt s₀ (State.writeEvt s a v) := by
  unfold State.writeEvt
  with_reducible repeat' first
    | assumption | apply Kept.ite | apply KeptOpt.some | exact KeptOpt.none | apply KeptOpt.ite | apply State.via_kept
    | apply execEvtEoi_kept | apply execEvtRouteWrite_kept | apply execEvtSw_kept

theorem State.writeFlt_kept {s₀ : State} {s : State} (a : Nat) (v : Word) (hK : Kept s₀ s) : KeptOpt s₀ (State.writeFlt s a v) := by
  unfold State.writeFlt
  repeat' first
    | (extract_lets +onlyGivenNames x; refine Kept.cut (t := x) ?_ fun _ => ?_; on_goal 1 => subst x; on_goal 2 => clear_value x)
    | (extract_lets +onlyGivenNames x; subst x)
    | (with_reducible first
        | assumption | apply Kept.ite | apply KeptOpt.some | exact KeptOpt.none | apply KeptOpt.ite | apply State.commonWrite_kept
        | apply State.setFlt_kept | apply State.via_kept | apply execErrHoldWrite_kept | apply execFltAck_kept | apply execFltClear_kept
        | apply execInjectedReport_kept | apply execInjectionArm_kept | apply execWatchdogKick_kept)

theorem State.writeWeir_kept {s₀ : State} {s : State} (a : Nat) (v : Word) (hK : Kept s₀ s) : KeptOpt s₀ (State.writeWeir s a v) := by
  unfold State.writeWeir
  with_reducible repeat' first
    | assumption | apply Kept.ite | apply KeptOpt.some | exact KeptOpt.none | apply KeptOpt.ite | apply State.commonWrite_kept
    | apply State.judgeHold_kept | apply State.via_kept | apply execBudgetWrite_kept

theorem State.writeDomCtrl_kept {s₀ : State} {s : State} (x : Nat) (v : Word) (hK : Kept s₀ s) : Kept s₀ (State.writeDomCtrl s x v) := by
  unfold State.writeDomCtrl
  repeat' first
    | (extract_lets +onlyGivenNames x; refine Kept.cut (t := x) ?_ fun _ => ?_; on_goal 1 => subst x; on_goal 2 => clear_value x)
    | (extract_lets +onlyGivenNames x; subst x)
    | (with_reducible first
        | assumption | apply Kept.ite | apply State.commonWrite_kept | apply State.forceEffect_kept | apply State.leaveCocoon_kept
        | apply State.requestRealign_kept)

theorem State.writeClk_kept {s₀ : State} {s : State} (a : Nat) (v : Word) (hK : Kept s₀ s) : KeptOpt s₀ (State.writeClk s a v) := by
  unfold State.writeClk
  repeat' first
    | (extract_lets +onlyGivenNames x; refine Kept.cut (t := x) ?_ fun _ => ?_; on_goal 1 => subst x; on_goal 2 => clear_value x)
    | (extract_lets +onlyGivenNames x; subst x)
    | (with_reducible first
        | assumption | apply Kept.ite | apply KeptOpt.some | exact KeptOpt.none | apply KeptOpt.ite | apply State.candEnable_kept
        | apply State.commonWrite_kept | apply State.reselect_kept | apply State.setPulse_kept | apply State.settleClocks_kept
        | apply State.writeDomCtrl_kept)
    | split

theorem State.writeTime_kept {s₀ : State} {s : State} (a : Nat) (v : Word) (hK : Kept s₀ s) : KeptOpt s₀ (State.writeTime s a v) := by
  unfold State.writeTime
  repeat' first
    | (extract_lets +onlyGivenNames x; refine Kept.cut (t := x) ?_ fun _ => ?_; on_goal 1 => subst x; on_goal 2 => clear_value x)
    | (extract_lets +onlyGivenNames x; subst x)
    | (with_reducible first
        | assumption | apply Kept.ite | apply KeptOpt.some | exact KeptOpt.none | apply KeptOpt.ite | apply State.snapTimes_kept
        | apply State.via_kept | apply execServoMeasurement_kept | apply execTimeBaseAdjWrite_kept | apply execTimeBaseLoad_kept
        | apply execTimeBaseStep_kept)

theorem State.writeStrm_kept {s₀ : State} {s : State} (a : Nat) (v : Word) (hK : Kept s₀ s) : KeptOpt s₀ (State.writeStrm s a v) := by
  unfold State.writeStrm
  repeat' first
    | (extract_lets +onlyGivenNames x; refine Kept.cut (t := x) ?_ fun _ => ?_; on_goal 1 => subst x; on_goal 2 => clear_value x)
    | (extract_lets +onlyGivenNames x; subst x)
    | (with_reducible first
        | assumption | intro _ | apply Kept.ite | apply KeptOpt.some | exact KeptOpt.none | apply KeptOpt.ite
        | apply State.commonWrite_kept | apply State.rxEvent_kept | apply State.txEvent_kept)
    | split

theorem State.writeLaneCtrl_kept {s₀ : State} {s : State} (n : Nat) (v : Word) (hK : Kept s₀ s) : Kept s₀ (State.writeLaneCtrl s n v) := by
  unfold State.writeLaneCtrl
  repeat' first
    | (extract_lets +onlyGivenNames x; refine Kept.cut (t := x) ?_ fun _ => ?_; on_goal 1 => subst x; on_goal 2 => clear_value x)
    | (extract_lets +onlyGivenNames x; subst x)
    | (with_reducible first
        | assumption | apply Kept.ite | apply State.injectOnce_kept | apply State.readapt_kept | apply State.sw_kept
        | apply State.testRefused_kept)

theorem State.writeLane_kept {s₀ : State} {s : State} (a : Nat) (v : Word) (hK : Kept s₀ s) : KeptOpt s₀ (State.writeLane s a v) := by
  unfold State.writeLane
  repeat' first
    | (extract_lets +onlyGivenNames x; refine Kept.cut (t := x) ?_ fun _ => ?_; on_goal 1 => subst x; on_goal 2 => clear_value x)
    | (extract_lets +onlyGivenNames x; subst x)
    | (with_reducible first
        | assumption | apply Kept.ite | apply KeptOpt.some | exact KeptOpt.none | apply KeptOpt.ite | apply State.writeLaneCtrl_kept
        | apply State.writeLoop_kept | apply State.writePrbs_kept | apply State.writeScan_kept)
    | split

theorem State.writeNrx_kept {s₀ : State} {s : State} (a : Nat) (v : Word) (hK : Kept s₀ s) : KeptOpt s₀ (State.writeNrx s a v) := by
  unfold State.writeNrx
  repeat' first
    | (extract_lets +onlyGivenNames x; refine Kept.cut (t := x) ?_ fun _ => ?_; on_goal 1 => subst x; on_goal 2 => clear_value x)
    | (extract_lets +onlyGivenNames x; subst x)
    | (with_reducible first
        | assumption | apply Kept.ite | apply KeptOpt.some | exact KeptOpt.none | apply KeptOpt.ite | apply State.commonWrite_kept
        | apply State.linkEnable_kept)

theorem State.writeFov_kept {s₀ : State} {s : State} (a : Nat) (v : Word) (hK : Kept s₀ s) : KeptOpt s₀ (State.writeFov s a v) := by
  unfold State.writeFov
  repeat' first
    | (extract_lets +onlyGivenNames x; refine Kept.cut (t := x) ?_ fun _ => ?_; on_goal 1 => subst x; on_goal 2 => clear_value x)
    | (extract_lets +onlyGivenNames x; subst x)
    | (with_reducible first
        | assumption | apply Kept.ite | apply KeptOpt.some | exact KeptOpt.none | apply KeptOpt.ite | apply State.endResync_kept
        | apply State.startResync_kept | apply State.sw_kept | apply State.via_kept | apply execClaim_kept | apply execYieldRequest_kept)

theorem State.writeDmc_kept {s₀ : State} {s : State} (a : Nat) (v : Word) (hK : Kept s₀ s) : KeptOpt s₀ (State.writeDmc s a v) := by
  unfold State.writeDmc
  repeat' first
    | (extract_lets +onlyGivenNames x; refine Kept.cut (t := x) ?_ fun _ => ?_; on_goal 1 => subst x; on_goal 2 => clear_value x)
    | (extract_lets +onlyGivenNames x; subst x)
    | (with_reducible first
        | assumption | apply Kept.ite | apply KeptOpt.some | exact KeptOpt.none | apply KeptOpt.ite | apply State.beginRetrain_kept
        | apply State.commonWrite_kept)

theorem State.writeDma_kept {s₀ : State} {s : State} (a : Nat) (v : Word) (hK : Kept s₀ s) : KeptOpt s₀ (State.writeDma s a v) := by
  unfold State.writeDma
  repeat' first
    | (extract_lets +onlyGivenNames x; refine Kept.cut (t := x) ?_ fun _ => ?_; on_goal 1 => subst x; on_goal 2 => clear_value x)
    | (extract_lets +onlyGivenNames x; subst x)
    | (with_reducible first
        | assumption | apply Kept.ite | apply KeptOpt.some | exact KeptOpt.none | apply KeptOpt.ite | apply State.writeDmaCtrl_kept
        | apply State.writeSwIdx_kept)
    | split

theorem State.writeXbar_kept {s₀ : State} {s : State} (a : Nat) (v : Word) (hK : Kept s₀ s) : KeptOpt s₀ (State.writeXbar s a v) := by
  unfold State.writeXbar
  repeat' first
    | (extract_lets +onlyGivenNames x; refine Kept.cut (t := x) ?_ fun _ => ?_; on_goal 1 => subst x; on_goal 2 => clear_value x)
    | (extract_lets +onlyGivenNames x; subst x)
    | (with_reducible first
        | assumption | apply Kept.ite | apply KeptOpt.some | exact KeptOpt.none | apply KeptOpt.ite | apply State.commonWrite_kept
        | apply State.wr_kept)

theorem State.writeTdm_kept {s₀ : State} {s : State} (a : Nat) (v : Word) (hK : Kept s₀ s) : KeptOpt s₀ (State.writeTdm s a v) := by
  unfold State.writeTdm
  repeat' first
    | (extract_lets +onlyGivenNames x; refine Kept.cut (t := x) ?_ fun _ => ?_; on_goal 1 => subst x; on_goal 2 => clear_value x)
    | (extract_lets +onlyGivenNames x; subst x)
    | (with_reducible first
        | assumption | apply Kept.ite | apply KeptOpt.some | exact KeptOpt.none | apply KeptOpt.ite | apply State.applyFormat_kept)

theorem State.writeCm_kept {s₀ : State} {s : State} (g : Nat) (v : Word) (hK : Kept s₀ s) : Kept s₀ (State.writeCm s g v) := by
  unfold State.writeCm
  repeat' first
    | (extract_lets +onlyGivenNames x; refine Kept.cut (t := x) ?_ fun _ => ?_; on_goal 1 => subst x; on_goal 2 => clear_value x)
    | (extract_lets +onlyGivenNames x; subst x)
    | (with_reducible first
        | assumption | apply Kept.ite | apply State.raise_kept | apply State.sw_kept)

theorem State.writeAmp_kept {s₀ : State} {s : State} (a : Nat) (v : Word) (hK : Kept s₀ s) : KeptOpt s₀ (State.writeAmp s a v) := by
  unfold State.writeAmp
  repeat' first
    | (extract_lets +onlyGivenNames x; refine Kept.cut (t := x) ?_ fun _ => ?_; on_goal 1 => subst x; on_goal 2 => clear_value x)
    | (extract_lets +onlyGivenNames x; subst x)
    | (with_reducible first
        | assumption | apply Kept.ite | apply KeptOpt.some | exact KeptOpt.none | apply KeptOpt.ite | apply State.ampClr_kept
        | apply State.ampWriteEn_kept | apply State.commonWrite_kept | apply State.sw_kept | apply State.writeCm_kept)
    | split

theorem State.writeFlc_kept {s₀ : State} {s : State} (m a : Nat) (v : Word) (hK : Kept s₀ s) : KeptOpt s₀ (State.writeFlc s m a v) := by
  unfold State.writeFlc
  repeat' first
    | (extract_lets +onlyGivenNames x; refine Kept.cut (t := x) ?_ fun _ => ?_; on_goal 1 => subst x; on_goal 2 => clear_value x)
    | (extract_lets +onlyGivenNames x; subst x)
    | (with_reducible first
        | assumption | apply Kept.ite | apply KeptOpt.some | exact KeptOpt.none | apply KeptOpt.ite | apply State.commonWrite_kept
        | apply State.firRequest_kept | apply State.setShWaits_kept | apply State.soften_kept | apply State.writeCoefficient_kept)

theorem State.writeBrg_kept {s₀ : State} {s : State} (a : Nat) (v : Word) (hK : Kept s₀ s) : KeptOpt s₀ (State.writeBrg s a v) := by
  unfold State.writeBrg
  repeat' first
    | (extract_lets +onlyGivenNames x; refine Kept.cut (t := x) ?_ fun _ => ?_; on_goal 1 => subst x; on_goal 2 => clear_value x)
    | (extract_lets +onlyGivenNames x; subst x)
    | (with_reducible first
        | assumption | apply Kept.ite | apply KeptOpt.some | exact KeptOpt.none | apply KeptOpt.ite | apply State.commonWrite_kept
        | apply State.unlockPair_kept)

theorem State.writeMtx_kept {s₀ : State} {s : State} (a : Nat) (v : Word) (hK : Kept s₀ s) : KeptOpt s₀ (State.writeMtx s a v) := by
  unfold State.writeMtx
  repeat' first
    | (extract_lets +onlyGivenNames x; refine Kept.cut (t := x) ?_ fun _ => ?_; on_goal 1 => subst x; on_goal 2 => clear_value x)
    | (extract_lets +onlyGivenNames x; subst x)
    | (with_reducible first
        | assumption | apply Kept.ite | apply KeptOpt.some | exact KeptOpt.none | apply KeptOpt.ite | apply State.commonWrite_kept
        | apply State.hw_kept | apply State.pushRamp_kept | apply State.requestCopy_kept | apply State.requestTake_kept)

theorem State.writeRtr_kept {s₀ : State} {s : State} (a : Nat) (v : Word) (hK : Kept s₀ s) : KeptOpt s₀ (State.writeRtr s a v) := by
  unfold State.writeRtr
  repeat' first
    | (extract_lets +onlyGivenNames x; refine Kept.cut (t := x) ?_ fun _ => ?_; on_goal 1 => subst x; on_goal 2 => clear_value x)
    | (extract_lets +onlyGivenNames x; subst x)
    | (with_reducible first
        | assumption | apply Kept.ite | apply KeptOpt.some | exact KeptOpt.none | apply KeptOpt.ite | apply State.fmpStore_kept
        | apply State.fmpWriteCtrl_kept | apply State.fmpWriteSrc_kept | apply State.writeRoute_kept)
    | split

theorem State.writeSub_kept {s₀ : State} {s : State} (u : Fin 2) (a : Nat) (v : Word) (hK :
    Kept s₀ s) : Kept s₀ (State.writeSub s u a v) := by
  unfold State.writeSub
  repeat' first
    | (extract_lets +onlyGivenNames x; refine Kept.cut (t := x) ?_ fun _ => ?_; on_goal 1 => subst x; on_goal 2 => clear_value x)
    | (extract_lets +onlyGivenNames x; subst x)
    | (with_reducible first
        | assumption | apply Kept.ite | apply State.commonWrite_kept | apply State.substAbort_kept | apply State.via_kept
        | apply execSubstitutionCutCommand_kept | apply execSubstitutionRelease_kept | apply execSubstitutionStart_kept)

theorem State.writeEngReg_kept {s₀ : State} {s : State} (a : Nat) (v : Word) (hK : Kept s₀ s) : KeptOpt s₀ (State.writeEngReg s a v) := by
  unfold State.writeEngReg
  repeat' first
    | (extract_lets +onlyGivenNames x; refine Kept.cut (t := x) ?_ fun _ => ?_; on_goal 1 => subst x; on_goal 2 => clear_value x)
    | (extract_lets +onlyGivenNames x; subst x)
    | (with_reducible first
        | assumption | apply Kept.ite | apply KeptOpt.some | exact KeptOpt.none | apply KeptOpt.ite | apply State.requestParamSwap_kept
        | apply State.requestSwap_kept | apply State.writeSub_kept)

theorem State.writeTlm_kept {s₀ : State} {s : State} (a : Nat) (v : Word) (hK : Kept s₀ s) : KeptOpt s₀ (State.writeTlm s a v) := by
  unfold State.writeTlm
  repeat' first
    | (extract_lets +onlyGivenNames x; refine Kept.cut (t := x) ?_ fun _ => ?_; on_goal 1 => subst x; on_goal 2 => clear_value x)
    | (extract_lets +onlyGivenNames x; subst x)
    | (with_reducible first
        | assumption | apply Kept.ite | apply KeptOpt.some | exact KeptOpt.none | apply KeptOpt.ite | apply State.commonWrite_kept
        | apply State.tlmStarts_kept)

theorem State.writeSvc_kept {s₀ : State} {s : State} (a : Nat) (v : Word) (hK : Kept s₀ s) : KeptOpt s₀ (State.writeSvc s a v) := by
  unfold State.writeSvc
  repeat' first
    | (extract_lets +onlyGivenNames x; refine Kept.cut (t := x) ?_ fun _ => ?_; on_goal 1 => subst x; on_goal 2 => clear_value x)
    | (extract_lets +onlyGivenNames x; subst x)
    | (with_reducible first
        | assumption | apply Kept.ite | apply KeptOpt.some | exact KeptOpt.none | apply KeptOpt.ite | apply State.draw_kept
        | (refine Kept.snd_of_eq (by assumption) ?_; apply State.draw_kept) | apply State.setFifo_kept | apply State.via_kept
        | apply execI2cCommand_kept | apply execMdioCommand_kept)
    | split

theorem State.specialWrite_kept {s₀ : State} {s : State} (m a : Nat) (v : Word) (hK :
    Kept s₀ s) : KeptOpt s₀ (State.specialWrite s m a v) := by
  unfold State.specialWrite
  repeat' first
    | (with_reducible first
        | assumption | apply Kept.ite | apply KeptOpt.some | exact KeptOpt.none | apply KeptOpt.ite | apply State.via_kept
        | apply State.writeAmp_kept | apply State.writeBrg_kept | apply State.writeCfg_kept | apply State.writeClk_kept
        | apply State.writeDma_kept | apply State.writeDmc_kept | apply State.writeEngReg_kept | apply State.writeEvt_kept
        | apply State.writeFlc_kept | apply State.writeFlt_kept | apply State.writeFov_kept | apply State.writeGlb_kept
        | apply State.writeLane_kept | apply State.writeMtx_kept | apply State.writeNrx_kept | apply State.writeRtr_kept
        | apply State.writeStrm_kept | apply State.writeSvc_kept | apply State.writeTdm_kept | apply State.writeTime_kept
        | apply State.writeTlm_kept | apply State.writeWeir_kept | apply State.writeXbar_kept | apply execDredgerEnableWrite_kept)
    | split

theorem State.regWrite_kept {s₀ : State} {s : State} (m a : Nat) (v : Word) (hK : Kept s₀ s) : Kept s₀ (State.regWrite s m a v) := by
  unfold State.regWrite
  split
  · exact hK
  · have h := State.specialWrite_kept m a v hK
    apply State.judgeFalls_kept
    split <;> rename_i e
    · exact KeptOpt.of_eq e h
    · exact State.commonWrite_kept a v hK

theorem State.deferWrite_kept {s₀ : State} {s : State} (a : Nat) (mask v : Word) (hK :
    Kept s₀ s) : Kept s₀ (State.deferWrite s a mask v) := by
  unfold State.deferWrite
  repeat' first
    | (extract_lets +onlyGivenNames x; refine Kept.cut (t := x) ?_ fun _ => ?_; on_goal 1 => subst x; on_goal 2 => clear_value x)
    | (extract_lets +onlyGivenNames x; subst x)
    | (with_reducible first
        | assumption | apply State.emit_kept | apply State.setFov_kept)

theorem State.softWrite_kept {s₀ : State} {s : State} (m a : Nat) (v : Word) (hK : Kept s₀ s) : Kept s₀ (State.softWrite s m a v) := by
  unfold State.softWrite
  repeat' first
    | (extract_lets +onlyGivenNames x; refine Kept.cut (t := x) ?_ fun _ => ?_; on_goal 1 => subst x; on_goal 2 => clear_value x)
    | (extract_lets +onlyGivenNames x; subst x)
    | (with_reducible first
        | assumption | apply Kept.ite | apply State.deferWrite_kept | apply State.raise_kept | apply State.regWrite_kept)

theorem State.towpathRead_kept {s₀ : State} {s : State} (m a n : Nat) (hK : Kept s₀ s) : Kept s₀ (State.towpathRead s m a n).1 := by
  unfold State.towpathRead
  repeat' first
    | (extract_lets +onlyGivenNames x; refine Kept.cut (t := x) ?_ fun _ => ?_; on_goal 1 => subst x; on_goal 2 => clear_value x)
    | (extract_lets +onlyGivenNames x; subst x)
    | (with_reducible first
        | assumption | apply Kept.ite | apply State.answer_kept | apply State.judgeFalls_kept | apply State.readFails_kept
        | (refine Kept.fst_of_eq (by assumption) ?_; apply State.readFails_kept) | apply State.regRead_kept
        | (refine Kept.fst_of_eq (by assumption) ?_; apply State.regRead_kept))
    | split

theorem State.towpathWrite_kept {s₀ : State} {s : State} (m a n : Nat) (v : Word) (hK :
    Kept s₀ s) : Kept s₀ (State.towpathWrite s m a n v) := by
  unfold State.towpathWrite
  with_reducible repeat' first
    | assumption | apply Kept.ite | apply State.answer_kept | apply State.defaultTarget_kept | apply State.softWrite_kept

theorem State.shEffect_kept {s₀ : State} {s : State} (a : Nat) (hK : Kept s₀ s) : Kept s₀ (State.shEffect s a) := by
  unfold State.shEffect
  repeat' first
    | (extract_lets +onlyGivenNames x; refine Kept.cut (t := x) ?_ fun _ => ?_; on_goal 1 => subst x; on_goal 2 => clear_value x)
    | (extract_lets +onlyGivenNames x; subst x)
    | (with_reducible first
        | assumption | apply Kept.ite | apply State.ampJudge_kept | apply State.fmpCtrlTakes_kept | apply State.fmpTermTakes_kept
        | apply State.holdTakes_kept | apply State.inmaskTakes_kept | apply State.maCfgTakes_kept | apply State.outmaskTakes_kept
        | apply State.rxEnable_kept | apply State.shTake_kept | apply State.tdmCtrlTakes_kept | apply State.txEnable_kept
        | apply State.via_kept | apply execRouteTakesEffect_kept)
    | split

theorem State.changed_kept {s₀ : State} {s : State} (a : Nat) (old : Word) (hK : Kept s₀ s) : Kept s₀ (State.changed s a old) := by
  unfold State.changed
  repeat' first
    | (extract_lets +onlyGivenNames x; refine Kept.cut (t := x) ?_ fun _ => ?_; on_goal 1 => subst x; on_goal 2 => clear_value x)
    | (extract_lets +onlyGivenNames x; subst x)
    | (with_reducible first
        | assumption | apply Kept.ite | apply State.ampEnChanged_kept | apply State.candEnable_kept | apply State.dredgerAsk_kept
        | apply State.forceEffect_kept | apply State.judgeFit_kept | apply State.judgeGen_kept | apply State.judgeHold_kept
        | apply State.laneTo_kept | apply State.leaveCocoon_kept | apply State.linkEnable_kept | apply State.reselect_kept
        | apply State.serveWaits_kept | apply State.setEngState_kept | apply State.settleClocks_kept | apply State.startDma_kept
        | apply State.stopDma_kept | apply State.stopDredger_kept | apply State.tbModeStarts_kept | apply State.tlmStarts_kept
        | apply State.unfollow_kept | apply State.wr_kept)
    | split

theorem State.bring_kept {s₀ : State} {s : State} (a : Nat) (mask : Word) (hK : Kept s₀ s) : Kept s₀ (State.bring s a mask) := by
  unfold State.bring
  repeat' first
    | (extract_lets +onlyGivenNames x; refine Kept.cut (t := x) ?_ fun _ => ?_; on_goal 1 => subst x; on_goal 2 => clear_value x)
    | (extract_lets +onlyGivenNames x; subst x)
    | (with_reducible first
        | assumption | apply Kept.ite | apply State.changed_kept | apply State.maRestart_kept | apply State.routeSettles_kept
        | apply State.setShWaits_kept | apply State.settle_kept | apply State.shEffect_kept)

theorem execShFieldTakesEffect_kept {s₀ : State} (addr : Addr) {s : State} (hK :
    Kept s₀ s) : KeptRes s₀ (execShFieldTakesEffect addr s) := by
  unfold execShFieldTakesEffect
  with_reducible repeat' first
    | assumption | apply Kept.ite | apply KeptRes.next | apply KeptRes.ite | apply State.shEffect_kept

theorem State.shBoundaryTakes_kept {s₀ : State} {s : State} (x : Nat) (frames : Bool) (hK :
    Kept s₀ s) : Kept s₀ (State.shBoundaryTakes s x frames) := by
  unfold State.shBoundaryTakes
  with_reducible repeat' first
    | assumption | intro _ | apply State.shEffect_kept | apply Kept.foldl

theorem State.windowAsks_kept {s₀ : State} {s : State} (m a : Nat) (write : Option (List Word)) (inbound : Bool) (hK :
    Kept s₀ s) : Kept s₀ (State.windowAsks s m a write inbound) := by
  unfold State.windowAsks
  repeat' first
    | (extract_lets +onlyGivenNames x; refine Kept.cut (t := x) ?_ fun _ => ?_; on_goal 1 => subst x; on_goal 2 => clear_value x)
    | (extract_lets +onlyGivenNames x; subst x)
    | (with_reducible first
        | assumption | apply State.windowWaits_kept)

theorem State.emWords_kept {s₀ : State} {s : State} (n o : Nat) (y0 : Nat) (hK : Kept s₀ s) : Kept s₀ (State.emWords s n o y0).1 := by
  induction y0 generalizing s o with
  | zero => exact hK
  | succ k ih => exact ih _ (State.windowRead_kept n o hK)

theorem State.busRead_kept {s₀ : State} {s : State} (m a n : Nat) (host : Option (List Byte)) (hK :
    Kept s₀ s) : Kept s₀ (State.busRead s m a n host).1 := by
  unfold State.busRead
  repeat' first
    | (extract_lets +onlyGivenNames x; refine Kept.cut (t := x) ?_ fun _ => ?_; on_goal 1 => subst x; on_goal 2 => clear_value x)
    | (extract_lets +onlyGivenNames x; subst x)
    | (with_reducible first
        | assumption | apply Kept.ite | apply State.answerBytes_kept
        | (refine Kept.fst_of_eq (by assumption) ?_; apply State.answerBytes_kept) | apply State.dataError_kept
        | apply State.dramRead_kept | (refine Kept.fst_of_eq (by assumption) ?_; apply State.dramRead_kept) | apply State.emWords_kept
        | (refine Kept.fst_of_eq (by assumption) ?_; apply State.emWords_kept) | apply State.hostGet_kept
        | (refine Kept.fst_of_eq (by assumption) ?_; apply State.hostGet_kept) | apply State.readFails_kept
        | (refine Kept.fst_of_eq (by assumption) ?_; apply State.readFails_kept) | apply State.ssmRead_kept
        | (refine Kept.fst_of_eq (by assumption) ?_; apply State.ssmRead_kept) | apply State.towpathRead_kept
        | (refine Kept.fst_of_eq (by assumption) ?_; apply State.towpathRead_kept))
    | split

theorem State.windowsPut_kept {s₀ : State} {s : State} (m a : Nat) (ws : List Word) (hK :
    Kept s₀ s) : Kept s₀ (State.windowsPut s m a ws) := by
  unfold State.windowsPut
  repeat' first
    | (extract_lets +onlyGivenNames x; refine Kept.cut (t := x) ?_ fun _ => ?_; on_goal 1 => subst x; on_goal 2 => clear_value x)
    | (extract_lets +onlyGivenNames x; subst x)
    | (with_reducible first
        | assumption | apply Kept.ite | apply State.bankWrite_kept | apply State.emPut_kept | apply State.windowAsks_kept)

theorem State.windowsSoft_kept {s₀ : State} {s : State} (m a : Nat) (ws : List Word) (hK :
    Kept s₀ s) : Kept s₀ (State.windowsSoft s m a ws) := by
  unfold State.windowsSoft
  with_reducible repeat' first
    | assumption | intro _ | apply Kept.ite | apply State.answer_kept | apply State.deferWrite_kept | apply State.raise_kept
    | apply State.windowsPut_kept | apply Kept.foldl

theorem State.busWrite_kept {s₀ : State} {s : State} (m a : Nat) (bytes : List (Option Byte)) (hK :
    Kept s₀ s) : Kept s₀ (State.busWrite s m a bytes) := by
  unfold State.busWrite
  repeat' first
    | (extract_lets +onlyGivenNames x; refine Kept.cut (t := x) ?_ fun _ => ?_; on_goal 1 => subst x; on_goal 2 => clear_value x)
    | (extract_lets +onlyGivenNames x; subst x)
    | (with_reducible first
        | assumption | apply Kept.ite | apply State.defaultTarget_kept | apply State.dramWrite_kept | apply State.hostPut_kept
        | apply State.ssmWrite_kept | apply State.towpathWrite_kept | apply State.windowsSoft_kept)
    | split

theorem State.serve_kept {s₀ : State} {s : State} (b : Burst) (hK : Kept s₀ s) : Kept s₀ (State.serve s b) := by
  unfold State.serve
  repeat' first
    | (extract_lets +onlyGivenNames x; refine Kept.cut (t := x) ?_ fun _ => ?_; on_goal 1 => subst x; on_goal 2 => clear_value x)
    | (extract_lets +onlyGivenNames x; subst x)
    | (with_reducible first
        | assumption | intro _ | apply Kept.ite | apply State.busRead_kept
        | (refine Kept.fst_of_eq (by assumption) ?_; apply State.busRead_kept) | apply State.busWrite_kept | apply State.dataError_kept
        | apply State.engEcc_kept | apply State.outboundBurst_kept | apply Kept.foldl)

theorem State.setWith_kept {s₀ : State} {s : State} (a : Nat) (sets : Word) (hK : Kept s₀ s) : Kept s₀ (State.setWith s a sets) := by
  unfold State.setWith
  repeat' first
    | (with_reducible first
        | assumption | apply Kept.ite | apply State.setReg_kept)
    | split

theorem execRegisterWrite_kept {s₀ : State} (m : MasterIx) (addr : Addr) (bytes : Nat) (data sets : Word) {s : State} (hK :
    Kept s₀ s) : KeptRes s₀ (execRegisterWrite m addr bytes data sets s) := by
  unfold execRegisterWrite
  with_reducible repeat' first
    | assumption | apply KeptRes.next | apply State.busWrite_kept | apply State.setWith_kept

theorem State.rcUpdate_kept {s₀ : State} {s : State} (a : Nat) (u : RcUpdate) (hK : Kept s₀ s) : Kept s₀ (State.rcUpdate s a u) := by
  unfold State.rcUpdate
  repeat' first
    | (extract_lets +onlyGivenNames x; refine Kept.cut (t := x) ?_ fun _ => ?_; on_goal 1 => subst x; on_goal 2 => clear_value x)
    | (extract_lets +onlyGivenNames x; subst x)
    | (with_reducible first
        | assumption | intro _ | apply Kept.ite | apply State.bump_kept | apply State.highest_kept | apply State.least_kept)
    | split

theorem execRcRead_kept {s₀ : State} (addr : Addr) (updates : List RcUpdate) {s : State} (hK :
    Kept s₀ s) : KeptRes s₀ (execRcRead addr updates s) := by
  unfold execRcRead
  with_reducible repeat' first
    | assumption | intro _ | apply KeptRes.next | apply State.rcUpdate_kept | apply State.towpathRead_kept
    | (refine Kept.fst_of_eq (by assumption) ?_; apply State.towpathRead_kept) | apply Kept.foldl

theorem execWideLowWordRead_kept {s₀ : State} (addr : Addr) {s : State} (hK : Kept s₀ s) : KeptRes s₀ (execWideLowWordRead addr s) := by
  unfold execWideLowWordRead
  with_reducible repeat' first
    | assumption | apply Kept.ite | apply KeptRes.next | apply KeptRes.ite | apply State.busRead_kept
    | (refine Kept.fst_of_eq (by assumption) ?_; apply State.busRead_kept) | apply State.windowAsks_kept

theorem execWideHighWordWrite_kept {s₀ : State} (addr : Addr) (data : Word) {s : State} (hK :
    Kept s₀ s) : KeptRes s₀ (execWideHighWordWrite addr data s) := by
  unfold execWideHighWordWrite
  with_reducible repeat' first
    | assumption | apply KeptRes.next | apply State.busWrite_kept

theorem State.spiDone_kept {s₀ : State} {s : State} (write : Bool) (hK : Kept s₀ s) : Kept s₀ (State.spiDone s write) := by
  unfold State.spiDone
  repeat' first
    | (extract_lets +onlyGivenNames x; refine Kept.cut (t := x) ?_ fun _ => ?_; on_goal 1 => subst x; on_goal 2 => clear_value x)
    | (extract_lets +onlyGivenNames x; subst x)
    | (with_reducible first
        | assumption | apply Kept.ite | apply State.defaultTarget_kept | apply State.raise_kept | apply State.setSvc_kept)

theorem State.serviceWrite_kept {s₀ : State} {s : State} (a : Nat) (v : Word) (hK : Kept s₀ s) : Kept s₀ (State.serviceWrite s a v) := by
  unfold State.serviceWrite
  repeat' first
    | (extract_lets +onlyGivenNames x; refine Kept.cut (t := x) ?_ fun _ => ?_; on_goal 1 => subst x; on_goal 2 => clear_value x)
    | (extract_lets +onlyGivenNames x; subst x)
    | (with_reducible first
        | assumption | apply Kept.ite | apply State.defaultTarget_kept | apply State.towpathWrite_kept)

theorem State.serviceRead_kept {s₀ : State} {s : State} (a : Nat) (hK : Kept s₀ s) : Kept s₀ (State.serviceRead s a) := by
  unfold State.serviceRead
  repeat' first
    | (extract_lets +onlyGivenNames x; refine Kept.cut (t := x) ?_ fun _ => ?_; on_goal 1 => subst x; on_goal 2 => clear_value x)
    | (extract_lets +onlyGivenNames x; subst x)
    | (with_reducible first
        | assumption | apply Kept.ite | apply State.readFails_kept
        | (refine Kept.fst_of_eq (by assumption) ?_; apply State.readFails_kept) | apply State.towpathRead_kept
        | (refine Kept.fst_of_eq (by assumption) ?_; apply State.towpathRead_kept))

theorem execSpiWrite_kept {s₀ : State} (addr : BitVec 24) (data : Word) (bytes : Nat) {s : State} (hK :
    Kept s₀ s) : KeptRes s₀ (execSpiWrite addr data bytes s) := by
  unfold execSpiWrite
  with_reducible repeat' first
    | assumption | apply Kept.ite | apply KeptRes.next | apply KeptRes.ite | apply State.serviceWrite_kept | apply State.spiDone_kept

theorem execSpiRead_kept {s₀ : State} (addr : BitVec 24) {s : State} (hK : Kept s₀ s) : KeptRes s₀ (execSpiRead addr s) := by
  unfold execSpiRead
  with_reducible repeat' first
    | assumption | apply Kept.ite | apply KeptRes.next | apply KeptRes.ite | apply State.serviceRead_kept | apply State.spiDone_kept

theorem execSpiStatus_kept {s₀ : State} {s : State} (hK : Kept s₀ s) : KeptRes s₀ (execSpiStatus s) := by
  unfold execSpiStatus
  with_reducible repeat' first
    | assumption | apply Kept.ite | apply KeptRes.next | apply KeptRes.ite | apply State.answer_kept

theorem execJtagRegacc_kept {s₀ : State} (write : Bool) (addr : BitVec 24) (data : Word) {s : State} (hK :
    Kept s₀ s) : KeptRes s₀ (execJtagRegacc write addr data s) := by
  unfold execJtagRegacc
  with_reducible repeat' first
    | assumption | apply Kept.ite | apply KeptRes.next | apply KeptRes.ite | apply State.serviceRead_kept | apply State.serviceWrite_kept

theorem State.inboundError_kept {s₀ : State} {s : State} (hK : Kept s₀ s) : Kept s₀ (State.inboundError s) := by
  unfold State.inboundError
  with_reducible repeat' first
    | assumption | apply State.bump_kept | apply State.raise_kept

theorem State.inboundEnds_kept {s₀ : State} {s : State} (write : Bool) (bytes : List Byte) (hK :
    Kept s₀ s) : Kept s₀ (State.inboundEnds s write bytes) := by
  unfold State.inboundEnds
  repeat' first
    | (with_reducible first
        | assumption | apply Kept.ite | apply State.dataError_kept | apply State.defaultTarget_kept | apply State.emit_kept
        | apply State.inboundError_kept)
    | split

theorem execPcieInboundRequest_kept {s₀ : State} (bar : Bar) (offset : Nat) (write poisoned : Bool) (data : List (Option Byte)) {s : State} (hK :
    Kept s₀ s) : KeptRes s₀ (execPcieInboundRequest bar offset write poisoned data s) := by
  unfold execPcieInboundRequest
  repeat' first
    | (extract_lets +onlyGivenNames x; refine Kept.cut (t := x) ?_ fun _ => ?_; on_goal 1 => subst x; on_goal 2 => clear_value x)
    | (extract_lets +onlyGivenNames x; subst x)
    | (with_reducible first
        | assumption | apply Kept.ite | apply KeptRes.next | apply KeptRes.ite | apply State.busRead_kept
        | (refine Kept.fst_of_eq (by assumption) ?_; apply State.busRead_kept) | apply State.busWrite_kept
        | apply State.defaultTarget_kept | apply State.inboundEnds_kept | apply State.inboundError_kept | apply State.windowAsks_kept)
    | split

theorem State.layerTakes_kept {s₀ : State} {s : State} (b : Burst) (hK : Kept s₀ s) : Kept s₀ (State.layerTakes s b) := by
  unfold State.layerTakes
  repeat' first
    | (extract_lets +onlyGivenNames x; refine Kept.cut (t := x) ?_ fun _ => ?_; on_goal 1 => subst x; on_goal 2 => clear_value x)
    | (extract_lets +onlyGivenNames x; subst x)
    | (with_reducible first
        | assumption | intro _ | apply Kept.ite | fail_if_no_progress (apply Kept.upd))

theorem execBurstGrant_kept {s₀ : State} (target : Fin 6) (arrivals : List Burst) {s : State} (hK :
    Kept s₀ s) : KeptRes s₀ (execBurstGrant target arrivals s) := by
  unfold execBurstGrant
  repeat' first
    | (extract_lets +onlyGivenNames x; refine Kept.cut (t := x) ?_ fun _ => ?_; on_goal 1 => subst x; on_goal 2 => clear_value x)
    | (extract_lets +onlyGivenNames x; subst x)
    | (with_reducible first
        | assumption | intro _ | apply KeptRes.next | apply State.bump_kept | apply State.layerTakes_kept | apply State.serve_kept
        | apply Kept.foldl | fail_if_no_progress (apply Kept.upd))
    | split

theorem execDefaultTargetBurst_kept {s₀ : State} (b : Burst) {s : State} (hK : Kept s₀ s) : KeptRes s₀ (execDefaultTargetBurst b s) := by
  unfold execDefaultTargetBurst
  repeat' first
    | (extract_lets +onlyGivenNames x; refine Kept.cut (t := x) ?_ fun _ => ?_; on_goal 1 => subst x; on_goal 2 => clear_value x)
    | (extract_lets +onlyGivenNames x; subst x)
    | (with_reducible first
        | assumption | apply Kept.ite | apply KeptRes.next | apply KeptRes.ite | apply State.answer_kept | apply State.defaultTarget_kept
        | apply State.serve_kept)

theorem execMasterReset_kept {s₀ : State} (m : MasterIx) {s : State} (hK : Kept s₀ s) : KeptRes s₀ (execMasterReset m s) := by
  unfold execMasterReset
  with_reducible repeat' first
    | assumption | apply KeptRes.next | apply State.resetMaster_kept

theorem execBargeCommit_kept {s₀ : State} (lock : Nat) (tick : Nat) (words : List Sample) {s : State} (hK :
    Kept s₀ s) : KeptRes s₀ (execBargeCommit lock tick words s) := by
  unfold execBargeCommit
  with_reducible repeat' first
    | assumption | apply KeptRes.next | apply State.commit_kept

theorem execCreditReturn_kept {s₀ : State} (lock : Nat) {s : State} (hK : Kept s₀ s) : KeptRes s₀ (execCreditReturn lock s) := by
  unfold execCreditReturn
  repeat' first
    | (with_reducible first
        | assumption | apply KeptRes.next | apply State.consume_kept)
    | split

theorem State.bargeEcc_kept {s₀ : State} {s : State} (e : Endpoint) (ecc : Ecc) (hK : Kept s₀ s) : Kept s₀ (State.bargeEcc s e ecc) := by
  unfold State.bargeEcc
  repeat' first
    | (with_reducible first
        | assumption | apply State.bankEccEvent_kept | apply State.bridgeEcc_kept | apply State.bump_kept | apply State.engEcc_kept
        | apply State.filterCorrected_kept | apply State.raise_kept | apply State.report_kept)
    | split

theorem State.discardLate_kept {s₀ : State} {s : State} (l : Nat) (hK : Kept s₀ s) : Kept s₀ (State.discardLate s l) := by
  unfold State.discardLate
  repeat' first
    | (extract_lets +onlyGivenNames x; refine Kept.cut (t := x) ?_ fun _ => ?_; on_goal 1 => subst x; on_goal 2 => clear_value x)
    | (extract_lets +onlyGivenNames x; subst x)
    | (with_reducible first
        | assumption | intro _ | apply Kept.ite | apply State.loseSync_kept | apply State.raise_kept | apply State.setLock_kept)
    | (with_reducible first
         | exact Nat.min_le_left _ _
         | exact Nat.le_refl _
         | refine State.lock_bounded (by assumption) (by assumption) ?_
         | refine (Nat.sub_le _ _).trans (State.lock_bounded (by assumption) (by assumption) ?_))
    | (with_reducible show (_ : Nat) ≤ _; dsimp only)
    | split

theorem execLateBargeDiscard_kept {s₀ : State} (lock : Nat) {s : State} (hK : Kept s₀ s) : KeptRes s₀ (execLateBargeDiscard lock s) := by
  unfold execLateBargeDiscard
  with_reducible repeat' first
    | assumption | apply KeptRes.next | apply State.discardLate_kept

theorem State.filterTakes_kept {s₀ : State} {s : State} (l : Nat) (k : Lock) (b : Barge) (hK :
    Kept s₀ s) : Kept s₀ (State.filterTakes s l k b) := by
  unfold State.filterTakes
  repeat' first
    | (extract_lets +onlyGivenNames x; refine Kept.cut (t := x) ?_ fun _ => ?_; on_goal 1 => subst x; on_goal 2 => clear_value x)
    | (extract_lets +onlyGivenNames x; subst x)
    | (with_reducible first
        | assumption | intro _ | apply State.feedFromRouter_kept | apply State.setLock_kept | apply Kept.foldl)
    | (with_reducible first
         | exact Nat.min_le_left _ _
         | exact Nat.le_refl _
         | refine State.lock_bounded (by assumption) (by assumption) ?_
         | refine (Nat.sub_le _ _).trans (State.lock_bounded (by assumption) (by assumption) ?_))
    | (with_reducible show (_ : Nat) ≤ _; dsimp only)
    | split

theorem State.feedCopies_kept {s₀ : State} {s : State} (l : Nat) (b : Barge) (hK : Kept s₀ s) : Kept s₀ (State.feedCopies s l b) := by
  unfold State.feedCopies
  repeat' first
    | (with_reducible first
        | assumption | intro _ | apply Kept.ite | apply State.setLock_kept | apply Kept.foldl)
    | (with_reducible first
         | exact Nat.min_le_left _ _
         | exact Nat.le_refl _
         | refine State.lock_bounded (by assumption) (by assumption) ?_
         | refine (Nat.sub_le _ _).trans (State.lock_bounded (by assumption) (by assumption) ?_))
    | (with_reducible show (_ : Nat) ≤ _; dsimp only)
    | split

theorem State.arrives_kept {s₀ : State} {s : State} (l : Nat) (k : Lock) (b : Barge) (hK : Kept s₀ s)
    (hb : s₀.canon → k.credit ≤ k.spec.depth) : Kept s₀ (State.arrives s l k b) := by
  have h := State.noteExact_kept l b (State.setLock_kept l { k with flight := k.flight.drop 1, present := k.present ++ [b] } hK hb)
  unfold State.arrives
  split
  · exact State.feedCopies_kept _ _ h
  · exact State.retireSources_kept h
  · exact State.consume_kept _ _ (State.filterTakes_kept _ _ _ h)
  · exact State.neraxPump_kept _ h
  · exact h

theorem execLockCrossingComplete_kept {s₀ : State} (lock : Nat) (ecc : List (Nat × Ecc)) {s : State} (hK :
    Kept s₀ s) : KeptRes s₀ (execLockCrossingComplete lock ecc s) := by
  unfold execLockCrossingComplete
  repeat' first
    | (extract_lets +onlyGivenNames x; refine Kept.cut (t := x) ?_ fun _ => ?_; on_goal 1 => subst x; on_goal 2 => clear_value x)
    | (extract_lets +onlyGivenNames x; subst x)
    | (with_reducible first
        | assumption | intro _ | apply Kept.ite | apply KeptRes.next | apply KeptRes.ite | apply State.arrives_kept
        | apply State.bargeEcc_kept | apply State.discardLate_kept | apply Kept.foldl)
    | (with_reducible first
         | exact Nat.min_le_left _ _
         | exact Nat.le_refl _
         | refine State.lock_bounded (by assumption) (by assumption) ?_
         | refine (Nat.sub_le _ _).trans (State.lock_bounded (by assumption) (by assumption) ?_))
    | (with_reducible show (_ : Nat) ≤ _; dsimp only)
    | split

theorem State.absentAt_kept {s₀ : State} {s : State} (l t : Nat) (out : Bool) (hK : Kept s₀ s) : Kept s₀ (State.absentAt s l t out) := by
  unfold State.absentAt
  repeat' first
    | (with_reducible first
        | assumption | intro _ | apply State.overrun_kept | apply State.setLock_kept)
    | (with_reducible first
         | exact Nat.min_le_left _ _
         | exact Nat.le_refl _
         | refine State.lock_bounded (by assumption) (by assumption) ?_
         | refine (Nat.sub_le _ _).trans (State.lock_bounded (by assumption) (by assumption) ?_))
    | (with_reducible show (_ : Nat) ≤ _; dsimp only)
    | split

theorem State.egress_kept {s₀ : State} {s : State} (l : Nat) (hK : Kept s₀ s) : Kept s₀ (State.egress s l) := by
  unfold State.egress
  repeat' first
    | (extract_lets +onlyGivenNames x; refine Kept.cut (t := x) ?_ fun _ => ?_; on_goal 1 => subst x; on_goal 2 => clear_value x)
    | (extract_lets +onlyGivenNames x; subst x)
    | (with_reducible first
        | assumption | apply Kept.ite | apply State.absentAt_kept | apply State.consume_kept | apply State.dlineWrite_kept
        | apply State.setChan_kept | apply State.txStage_kept)
    | split

theorem execEgressDeadline_kept {s₀ : State} (lock : Nat) {s : State} (hK : Kept s₀ s) : KeptRes s₀ (execEgressDeadline lock s) := by
  unfold execEgressDeadline
  repeat' first
    | (with_reducible first
        | assumption | apply Kept.ite | apply KeptRes.next | apply KeptRes.ite | apply State.egress_kept)
    | split

theorem State.routerGivesUp_kept {s₀ : State} {s : State} (l : Nat) (hK : Kept s₀ s) : Kept s₀ (State.routerGivesUp s l) := by
  unfold State.routerGivesUp
  with_reducible repeat' first
    | assumption | intro _ | apply Kept.ite | apply State.via_kept | apply execRouterDeadline_kept | apply Kept.foldl

theorem State.filterGivesUp_kept {s₀ : State} {s : State} (l : Nat) (k : Lock) (hK : Kept s₀ s) : Kept s₀ (State.filterGivesUp s l k) := by
  unfold State.filterGivesUp
  repeat' first
    | (extract_lets +onlyGivenNames x; refine Kept.cut (t := x) ?_ fun _ => ?_; on_goal 1 => subst x; on_goal 2 => clear_value x)
    | (extract_lets +onlyGivenNames x; subst x)
    | (with_reducible first
        | assumption | intro _ | apply Kept.ite | apply State.absentAt_kept | apply State.filterTakes_kept)

theorem execConsumerDeadline_kept {s₀ : State} (lock : Nat) {s : State} (hK : Kept s₀ s) : KeptRes s₀ (execConsumerDeadline lock s) := by
  unfold execConsumerDeadline
  repeat' first
    | (with_reducible first
        | assumption | intro _ | apply Kept.ite | apply KeptRes.next | apply KeptRes.ite | apply State.egress_kept
        | apply State.filterGivesUp_kept | apply State.routerGivesUp_kept | apply State.via_kept | apply execBasinDeadline_kept
        | apply execBridgeInputTake_kept | apply execEngineStartDeadline_kept | apply Kept.foldl)
    | split

theorem State.captured_kept {s₀ : State} {s : State} (q : Lock) (k : Nat) (hK : Kept s₀ s) : Kept s₀ (State.captured s q k).2 := by
  unfold State.captured
  repeat' first
    | (extract_lets +onlyGivenNames x; refine Kept.cut (t := x) ?_ fun _ => ?_; on_goal 1 => subst x; on_goal 2 => clear_value x)
    | (extract_lets +onlyGivenNames x; subst x)
    | (with_reducible first
        | assumption | intro _ | apply Kept.ite | apply State.dlineRead_kept
        | (refine Kept.snd_of_eq (by assumption) ?_; apply State.dlineRead_kept) | apply State.rxBarge_kept
        | (refine Kept.snd_of_eq (by assumption) ?_; apply State.rxBarge_kept) | apply State.setChan_kept | apply State.setCic_kept
        | apply Kept.foldl)
    | split

theorem State.capture_kept {s₀ : State} {s : State} (l : Nat) (q : Lock) (k : Nat) (hK : Kept s₀ s) : Kept s₀ (State.capture s l q k) := by
  unfold State.capture
  repeat' first
    | (extract_lets +onlyGivenNames x; refine Kept.cut (t := x) ?_ fun _ => ?_; on_goal 1 => subst x; on_goal 2 => clear_value x)
    | (extract_lets +onlyGivenNames x; subst x)
    | (with_reducible first
        | assumption | intro _ | apply Kept.ite | apply State.captured_kept
        | (refine Kept.snd_of_eq (by assumption) ?_; apply State.captured_kept) | apply State.commit_kept | apply State.mirrorBarge_kept
        | apply State.overrun_kept | apply State.setLock_kept)
    | (with_reducible first
         | exact Nat.min_le_left _ _
         | exact Nat.le_refl _
         | refine State.lock_bounded (by assumption) (by assumption) ?_
         | refine (Nat.sub_le _ _).trans (State.lock_bounded (by assumption) (by assumption) ?_))
    | (with_reducible show (_ : Nat) ≤ _; dsimp only)
    | split

theorem execCaptureCommit_kept {s₀ : State} (lock : Nat) {s : State} (hK : Kept s₀ s) : KeptRes s₀ (execCaptureCommit lock s) := by
  unfold execCaptureCommit
  repeat' first
    | (extract_lets +onlyGivenNames x; refine Kept.cut (t := x) ?_ fun _ => ?_; on_goal 1 => subst x; on_goal 2 => clear_value x)
    | (extract_lets +onlyGivenNames x; subst x)
    | (with_reducible first
        | assumption | apply Kept.ite | apply KeptRes.next | apply KeptRes.ite | apply State.capture_kept)
    | split

theorem State.zeroOutputs_kept {s₀ : State} {s : State} (x : Nat) (hK : Kept s₀ s) : Kept s₀ (State.zeroOutputs s x) := by
  unfold State.zeroOutputs
  repeat' first
    | (extract_lets +onlyGivenNames x; refine Kept.cut (t := x) ?_ fun _ => ?_; on_goal 1 => subst x; on_goal 2 => clear_value x)
    | (extract_lets +onlyGivenNames x; subst x)
    | (with_reducible first
        | assumption | apply State.setDom_kept)

theorem State.engineRestarts_kept {s₀ : State} {s : State} (n k : Nat) (hK : Kept s₀ s) : Kept s₀ (State.engineRestarts s n k) := by
  unfold State.engineRestarts
  repeat' first
    | (extract_lets +onlyGivenNames x; refine Kept.cut (t := x) ?_ fun _ => ?_; on_goal 1 => subst x; on_goal 2 => clear_value x)
    | (extract_lets +onlyGivenNames x; subst x)
    | (with_reducible first
        | assumption | apply Kept.ite | apply State.setEng_kept | apply State.setEngState_kept)

theorem State.startPipeline_kept {s₀ : State} {s : State} (x : Nat) (hK : Kept s₀ s) : Kept s₀ (State.startPipeline s x) := by
  unfold State.startPipeline
  repeat' first
    | (extract_lets +onlyGivenNames x; refine Kept.cut (t := x) ?_ fun _ => ?_; on_goal 1 => subst x; on_goal 2 => clear_value x)
    | (extract_lets +onlyGivenNames x; subst x)
    | (with_reducible first
        | assumption | intro _ | apply Kept.ite | apply State.clearLock_kept | apply State.engineRestarts_kept
        | apply State.pairRealigned_kept | apply State.setBasin_kept | apply State.setBrun_kept | apply State.setDom_kept
        | apply State.setRouter_kept | apply State.setRx_kept | apply State.setTx_kept | apply Kept.foldl)
    | split

theorem execDomainRealignment_kept {s₀ : State} (x : DomIx) {s : State} (hK : Kept s₀ s) : KeptRes s₀ (execDomainRealignment x s) := by
  unfold execDomainRealignment
  repeat' first
    | (extract_lets +onlyGivenNames x; refine Kept.cut (t := x) ?_ fun _ => ?_; on_goal 1 => subst x; on_goal 2 => clear_value x)
    | (extract_lets +onlyGivenNames x; subst x)
    | (with_reducible first
        | assumption | intro _ | apply Kept.ite | apply KeptRes.next | apply KeptRes.ite | apply State.basinRenumber_kept
        | apply State.judgeAligned_kept | apply State.raise_kept | apply State.setDom_kept | apply State.setFov_kept
        | apply State.startPipeline_kept | apply State.tdmRenumber_kept | apply State.wr_kept | apply State.zeroOutputs_kept)
    | split

theorem State.outputSample_kept {s₀ : State} {s : State} (amp : Bool) (out pos : Nat) (frame : List (Nat × Sample)) (hK :
    Kept s₀ s) : Kept s₀ (State.outputSample s amp out pos frame).2 := by
  unfold State.outputSample
  repeat' first
    | (extract_lets +onlyGivenNames x; refine Kept.cut (t := x) ?_ fun _ => ?_; on_goal 1 => subst x; on_goal 2 => clear_value x)
    | (extract_lets +onlyGivenNames x; subst x)
    | (with_reducible first
        | assumption | apply Kept.ite | apply State.fmpSaturates_kept)
    | split

theorem State.tdmOutputs_kept {s₀ : State} {s : State} (x pos : Nat) (frame : List (Nat × Sample)) (hK :
    Kept s₀ s) : Kept s₀ (State.tdmOutputs s x pos frame) := by
  unfold State.tdmOutputs
  repeat' first
    | (extract_lets +onlyGivenNames x; refine Kept.cut (t := x) ?_ fun _ => ?_; on_goal 1 => subst x; on_goal 2 => clear_value x)
    | (extract_lets +onlyGivenNames x; subst x)
    | (with_reducible first
        | assumption | intro _ | apply State.formLine_kept | apply State.outputSample_kept
        | (refine Kept.snd_of_eq (by assumption) ?_; apply State.outputSample_kept) | apply State.setTdm_kept | apply State.tdmBegins_kept
        | apply Kept.foldl)
    | split

theorem State.ampOutputs_kept {s₀ : State} {s : State} (x pos : Nat) (frame : List (Nat × Sample)) (hK :
    Kept s₀ s) : Kept s₀ (State.ampOutputs s x pos frame) := by
  unfold State.ampOutputs
  repeat' first
    | (extract_lets +onlyGivenNames x; refine Kept.cut (t := x) ?_ fun _ => ?_; on_goal 1 => subst x; on_goal 2 => clear_value x)
    | (extract_lets +onlyGivenNames x; subst x)
    | (with_reducible first
        | assumption | intro _ | apply State.ampTake_kept | apply State.outputSample_kept
        | (refine Kept.snd_of_eq (by assumption) ?_; apply State.outputSample_kept) | apply Kept.foldl)
    | split

theorem State.releaseEnds_kept {s₀ : State} {s : State} (x pos : Nat) (hK : Kept s₀ s) : Kept s₀ (State.releaseEnds s x pos) := by
  unfold State.releaseEnds
  repeat' first
    | (extract_lets +onlyGivenNames x; refine Kept.cut (t := x) ?_ fun _ => ?_; on_goal 1 => subst x; on_goal 2 => clear_value x)
    | (extract_lets +onlyGivenNames x; subst x)
    | (with_reducible first
        | assumption | intro _ | apply Kept.ite | apply State.consume_kept | apply Kept.foldl)
    | split

theorem State.tdmInputs_kept {s₀ : State} {s : State} (x n : Nat) (inputs : List (Nat × List Bool)) (hK :
    Kept s₀ s) : Kept s₀ (State.tdmInputs s x n inputs) := by
  unfold State.tdmInputs
  repeat' first
    | (extract_lets +onlyGivenNames x; refine Kept.cut (t := x) ?_ fun _ => ?_; on_goal 1 => subst x; on_goal 2 => clear_value x)
    | (extract_lets +onlyGivenNames x; subst x)
    | (with_reducible first
        | assumption | intro _ | apply Kept.ite | apply State.setLock_kept | apply State.setTdm_kept | apply Kept.foldl
        | fail_if_no_progress (apply Kept.upd))
    | (with_reducible first
         | exact Nat.min_le_left _ _
         | exact Nat.le_refl _
         | refine State.lock_bounded (by assumption) (by assumption) ?_
         | refine (Nat.sub_le _ _).trans (State.lock_bounded (by assumption) (by assumption) ?_))
    | (with_reducible show (_ : Nat) ≤ _; dsimp only)
    | split

theorem State.samplePasses_kept {s₀ : State} {s : State} (x n : Nat) (inputs : List (Nat × List Bool)) (hK :
    Kept s₀ s) : Kept s₀ (State.samplePasses s x n inputs) := by
  unfold State.samplePasses
  repeat' first
    | (extract_lets +onlyGivenNames x; refine Kept.cut (t := x) ?_ fun _ => ?_; on_goal 1 => subst x; on_goal 2 => clear_value x)
    | (extract_lets +onlyGivenNames x; subst x)
    | (with_reducible first
        | assumption | intro _ | apply Kept.ite | apply State.ampOutputs_kept | apply State.fmpPass_kept | apply State.releaseEnds_kept
        | apply State.tdmInputs_kept | apply State.tdmOutputs_kept | apply State.tdmPass_kept | apply State.txFade_kept | apply Kept.foldl)

theorem execSampleEdge_kept {s₀ : State} (x : DomIx) (inputs : List (Nat × List Bool)) {s : State} (hK :
    Kept s₀ s) : KeptRes s₀ (execSampleEdge x inputs s) := by
  unfold execSampleEdge
  repeat' first
    | (extract_lets +onlyGivenNames x; refine Kept.cut (t := x) ?_ fun _ => ?_; on_goal 1 => subst x; on_goal 2 => clear_value x)
    | (extract_lets +onlyGivenNames x; subst x)
    | (with_reducible first
        | assumption | apply Kept.ite | apply KeptRes.next | apply KeptRes.ite | apply State.basinBoundary_kept
        | apply State.samplePasses_kept | apply State.setDom_kept | apply State.shBoundaryTakes_kept)

end Sys2Proof.Machine
end

