-- ==== Sys2Proof/Laws/KeptTakes.lean ====
section
/-!
SUPPORT. The relation `Kept` for the image, boot, DMA transfers, takes, the mirror, image replacement and grants.
-/
namespace Sys2Proof.Machine

set_option linter.unreachableTactic false
set_option linter.unusedTactic false

theorem State.putWindow_kept {s₀ : State} {s : State} (a : Nat) (mask v : Word) (hK :
    Kept s₀ s) : Kept s₀ (State.putWindow s a mask v) := by
  unfold State.putWindow
  repeat' first
    | (extract_lets +onlyGivenNames x; refine Kept.cut (t := x) ?_ fun _ => ?_; on_goal 1 => subst x; on_goal 2 => clear_value x)
    | (extract_lets +onlyGivenNames x; subst x)
    | (with_reducible first
        | assumption | apply Kept.ite | apply State.putGain_kept | apply State.setSsmBytes_kept | apply State.windowPut_kept
        | apply State.windowRead_kept | (refine Kept.snd_of_eq (by assumption) ?_; apply State.windowRead_kept))
    | split

theorem State.placeLocks_kept {s₀ : State} {s : State} (x : Nat) (qs : List LockSpec) (hK :
    Kept s₀ s) : Kept s₀ (State.placeLocks s x qs) := by
  unfold State.placeLocks
  repeat' first
    | (extract_lets +onlyGivenNames x; refine Kept.cut (t := x) ?_ fun _ => ?_; on_goal 1 => subst x; on_goal 2 => clear_value x)
    | (extract_lets +onlyGivenNames x; subst x)
    | (with_reducible first
        | assumption | intro _ | apply Kept.ite | apply State.dropLock_kept | apply State.setLock_kept | apply Kept.foldl)
    | (with_reducible first
         | exact Nat.min_le_left _ _
         | exact Nat.le_refl _
         | refine State.lock_bounded (by assumption) (by assumption) ?_
         | refine (Nat.sub_le _ _).trans (State.lock_bounded (by assumption) (by assumption) ?_)
         | exact newLock_le _)
    | (with_reducible show (_ : Nat) ≤ _; dsimp only)
    | split

theorem State.engineChanges_kept {s₀ : State} {s : State} (n : Nat) (hK : Kept s₀ s) : Kept s₀ (State.engineChanges s n) := by
  unfold State.engineChanges
  with_reducible repeat' first
    | assumption | intro _ | apply Kept.ite | apply State.substAbort_kept | apply Kept.foldl

theorem State.placeEngine_kept {s₀ : State} {s : State} (e : EngineSpec) (hK : Kept s₀ s) : Kept s₀ (State.placeEngine s e) := by
  unfold State.placeEngine
  repeat' first
    | (extract_lets +onlyGivenNames x; refine Kept.cut (t := x) ?_ fun _ => ?_; on_goal 1 => subst x; on_goal 2 => clear_value x)
    | (extract_lets +onlyGivenNames x; subst x)
    | (with_reducible first
        | assumption | apply Kept.ite | apply State.engineChanges_kept | apply State.setEng_kept)

theorem State.loadProgram_kept {s₀ : State} {s : State} (n : Nat) (words : List (BitVec 48)) (hK :
    Kept s₀ s) : Kept s₀ (State.loadProgram s n words) := by
  unfold State.loadProgram
  with_reducible repeat' first
    | assumption | apply State.setEng_kept

theorem State.takeProgram_kept {s₀ : State} {s : State} (inst : Nat) (words : List (BitVec 48)) (hK :
    Kept s₀ s) : Kept s₀ (State.takeProgram s inst words) := by
  unfold State.takeProgram
  repeat' first
    | (extract_lets +onlyGivenNames x; refine Kept.cut (t := x) ?_ fun _ => ?_; on_goal 1 => subst x; on_goal 2 => clear_value x)
    | (extract_lets +onlyGivenNames x; subst x)
    | (with_reducible first
        | assumption | apply Kept.ite | apply State.engineChanges_kept | apply State.pageTurns_kept | apply State.raise_kept
        | apply State.setEng_kept | apply State.wr_kept)

theorem State.placeData_kept {s₀ : State} {s : State} (inst : Nat) (ws : List (Nat × Word)) (hK :
    Kept s₀ s) : Kept s₀ (State.placeData s inst ws) := by
  unfold State.placeData
  repeat' first
    | (extract_lets +onlyGivenNames x; refine Kept.cut (t := x) ?_ fun _ => ?_; on_goal 1 => subst x; on_goal 2 => clear_value x)
    | (extract_lets +onlyGivenNames x; subst x)
    | (with_reducible first
        | assumption | intro _ | apply Kept.ite | apply State.imageWord_kept | apply Kept.foldl)

theorem State.stageGains_kept {s₀ : State} {s : State} (c : Content) (hK : Kept s₀ s) : Kept s₀ (State.stageGains s c) := by
  unfold State.stageGains
  repeat' first
    | (extract_lets +onlyGivenNames x; refine Kept.cut (t := x) ?_ fun _ => ?_; on_goal 1 => subst x; on_goal 2 => clear_value x)
    | (extract_lets +onlyGivenNames x; subst x)
    | (with_reducible first
        | assumption | apply State.setGains_kept)

theorem State.takeGains_kept {s₀ : State} {s : State} (c : Content) (hK : Kept s₀ s) : Kept s₀ (State.takeGains s c) := by
  unfold State.takeGains
  repeat' first
    | (extract_lets +onlyGivenNames x; refine Kept.cut (t := x) ?_ fun _ => ?_; on_goal 1 => subst x; on_goal 2 => clear_value x)
    | (extract_lets +onlyGivenNames x; subst x)
    | (with_reducible first
        | assumption | apply Kept.ite | apply State.raise_kept | apply State.sceneTake_kept | apply State.setBasin_kept
        | apply State.stageGains_kept | apply State.wr_kept)

theorem State.changeB_kept {s₀ : State} {s : State} (x b : Nat) (hK : Kept s₀ s) : Kept s₀ (State.changeB s x b) := by
  unfold State.changeB
  with_reducible repeat' first
    | assumption | apply Kept.ite | apply State.setDom_kept | apply State.startPipeline_kept | apply State.zeroOutputs_kept

theorem State.placeDelays_kept {s₀ : State} {s : State} (x : Nat) (ds : List DelaySpec) (hK :
    Kept s₀ s) : Kept s₀ (State.placeDelays s x ds) := by
  unfold State.placeDelays
  repeat' first
    | (extract_lets +onlyGivenNames x; refine Kept.cut (t := x) ?_ fun _ => ?_; on_goal 1 => subst x; on_goal 2 => clear_value x)
    | (extract_lets +onlyGivenNames x; subst x)
    | (with_reducible first
        | assumption | intro _ | apply Kept.ite | apply State.setDline_kept | apply Kept.foldl)
    | split

theorem State.placeRouter_kept {s₀ : State} {s : State} (x : Nat) (c : Content) (hK : Kept s₀ s) : Kept s₀ (State.placeRouter s x c) := by
  unfold State.placeRouter
  repeat' first
    | (extract_lets +onlyGivenNames x; refine Kept.cut (t := x) ?_ fun _ => ?_; on_goal 1 => subst x; on_goal 2 => clear_value x)
    | (extract_lets +onlyGivenNames x; subst x)
    | (with_reducible first
        | assumption | intro _ | apply Kept.ite | apply State.setRouter_kept | apply Kept.foldl)

theorem State.placeBridges_kept {s₀ : State} {s : State} (gs : List BridgeSpec) (hK : Kept s₀ s) : Kept s₀ (State.placeBridges s gs) := by
  unfold State.placeBridges
  repeat' first
    | (extract_lets +onlyGivenNames x; refine Kept.cut (t := x) ?_ fun _ => ?_; on_goal 1 => subst x; on_goal 2 => clear_value x)
    | (extract_lets +onlyGivenNames x; subst x)
    | (with_reducible first
        | assumption | intro _ | apply Kept.ite | apply State.setBrun_kept | apply State.setFlc_kept | apply State.wr_kept
        | apply Kept.foldl)

theorem State.placeDomain_kept {s₀ : State} {s : State} (x : Nat) (c : Content) (hK : Kept s₀ s) : Kept s₀ (State.placeDomain s x c) := by
  unfold State.placeDomain
  repeat' first
    | (extract_lets +onlyGivenNames x; refine Kept.cut (t := x) ?_ fun _ => ?_; on_goal 1 => subst x; on_goal 2 => clear_value x)
    | (extract_lets +onlyGivenNames x; subst x)
    | (with_reducible first
        | assumption | apply Kept.ite | apply State.placeDelays_kept | apply State.placeLocks_kept | apply State.placeRouter_kept)

theorem State.placeStructure_kept {s₀ : State} {s : State} (kind : Nat) (c : Content) (hK :
    Kept s₀ s) : Kept s₀ (State.placeStructure s kind c) := by
  unfold State.placeStructure
  repeat' first
    | (extract_lets +onlyGivenNames x; refine Kept.cut (t := x) ?_ fun _ => ?_; on_goal 1 => subst x; on_goal 2 => clear_value x)
    | (extract_lets +onlyGivenNames x; subst x)
    | (with_reducible first
        | assumption | intro _ | apply Kept.ite | apply State.placeBridges_kept | apply State.placeEngine_kept | apply State.setBasin_kept
        | apply State.setFlc_kept | apply Kept.foldl | fail_if_no_progress (apply Kept.upd))

theorem State.loadSection_kept {s₀ : State} {s : State} (kind inst : Nat) (c : Content) (hK :
    Kept s₀ s) : Kept s₀ (State.loadSection s kind inst c) := by
  unfold State.loadSection
  repeat' first
    | (extract_lets +onlyGivenNames x; refine Kept.cut (t := x) ?_ fun _ => ?_; on_goal 1 => subst x; on_goal 2 => clear_value x)
    | (extract_lets +onlyGivenNames x; subst x)
    | (with_reducible first
        | assumption | intro _ | apply Kept.ite | apply State.basinStarts_kept | apply State.loadProgram_kept | apply State.placeData_kept
        | apply State.placeDomain_kept | apply State.placeStructure_kept | apply State.putWindow_kept | apply State.setDom_kept
        | apply State.setGains_kept | apply Kept.foldl)

theorem State.takeDomainPart_kept {s₀ : State} {s : State} (x : Nat) (c : Content) (hK :
    Kept s₀ s) : Kept s₀ (State.takeDomainPart s x c) := by
  unfold State.takeDomainPart
  with_reducible repeat' first
    | assumption | intro _ | apply State.changeB_kept | apply State.placeDomain_kept | apply Kept.foldl

theorem State.takeSection_kept {s₀ : State} {s : State} (kind inst : Nat) (c : Content) (hK :
    Kept s₀ s) : Kept s₀ (State.takeSection s kind inst c) := by
  unfold State.takeSection
  repeat' first
    | (extract_lets +onlyGivenNames x; refine Kept.cut (t := x) ?_ fun _ => ?_; on_goal 1 => subst x; on_goal 2 => clear_value x)
    | (extract_lets +onlyGivenNames x; subst x)
    | (with_reducible first
        | assumption | intro _ | apply Kept.ite | apply State.placeData_kept | apply State.placeStructure_kept
        | apply State.putWindow_kept | apply State.takeBanks_kept | apply State.takeGains_kept | apply State.takeProgram_kept
        | apply Kept.foldl)

theorem State.bootRoutes_kept {s₀ : State} {s : State} (hK : Kept s₀ s) : Kept s₀ (State.bootRoutes s) := by
  unfold State.bootRoutes
  with_reducible repeat' first
    | assumption | intro _ | apply State.wr_kept | apply Kept.foldl

theorem State.bootSettings_kept {s₀ : State} {s : State} (hK : Kept s₀ s) : Kept s₀ (State.bootSettings s) := by
  unfold State.bootSettings
  repeat' first
    | (extract_lets +onlyGivenNames x; refine Kept.cut (t := x) ?_ fun _ => ?_; on_goal 1 => subst x; on_goal 2 => clear_value x)
    | (extract_lets +onlyGivenNames x; subst x)
    | (with_reducible first
        | assumption | intro _ | apply Kept.ite | apply State.bootRoutes_kept | apply State.setFeed_kept | apply State.setGrp_kept
        | apply State.slotsFollow_kept | apply Kept.foldl)

theorem State.awaitPush_kept {s₀ : State} {s : State} (hK : Kept s₀ s) : Kept s₀ (State.awaitPush s) := by
  unfold State.awaitPush
  with_reducible repeat' first
    | assumption | apply State.raise_kept | apply State.report_kept | apply State.wr_kept

theorem State.attemptFails_kept {s₀ : State} {s : State} (source code : Nat) (hK :
    Kept s₀ s) : Kept s₀ (State.attemptFails s source code) := by
  unfold State.attemptFails
  repeat' first
    | (extract_lets +onlyGivenNames x; refine Kept.cut (t := x) ?_ fun _ => ?_; on_goal 1 => subst x; on_goal 2 => clear_value x)
    | (extract_lets +onlyGivenNames x; subst x)
    | (with_reducible first
        | assumption | apply Kept.ite | apply State.awaitPush_kept | apply State.setGlb_kept | apply State.setReg_kept
        | apply State.wr_kept)
    | split

theorem State.trainDram_kept {s₀ : State} {s : State} (y0 : Training) (hK : Kept s₀ s) : Kept s₀ (State.trainDram s y0) := by
  unfold State.trainDram
  repeat' first
    | (extract_lets +onlyGivenNames x; refine Kept.cut (t := x) ?_ fun _ => ?_; on_goal 1 => subst x; on_goal 2 => clear_value x)
    | (extract_lets +onlyGivenNames x; subst x)
    | (with_reducible first
        | assumption | intro _ | apply State.draw_kept | (refine Kept.snd_of_eq (by assumption) ?_; apply State.draw_kept)
        | apply State.setReg_kept | apply State.wr_kept)
    | split

theorem State.reportImage_kept {s₀ : State} {s : State} (b : List Byte) (base : Nat) (hK :
    Kept s₀ s) : Kept s₀ (State.reportImage s b base) := by
  unfold State.reportImage
  repeat' first
    | (extract_lets +onlyGivenNames x; refine Kept.cut (t := x) ?_ fun _ => ?_; on_goal 1 => subst x; on_goal 2 => clear_value x)
    | (extract_lets +onlyGivenNames x; subst x)
    | (with_reducible first
        | assumption | apply State.setReg_kept | apply State.setWide_kept | apply State.wr_kept)

theorem State.adoptImage_kept {s₀ : State} {s : State} (i : Image) (set : BitVec 12) (hK :
    Kept s₀ s) : Kept s₀ (State.adoptImage s i set) := by
  unfold State.adoptImage
  repeat' first
    | (extract_lets +onlyGivenNames x; refine Kept.cut (t := x) ?_ fun _ => ?_; on_goal 1 => subst x; on_goal 2 => clear_value x)
    | (extract_lets +onlyGivenNames x; subst x)
    | (with_reducible first
        | assumption | apply State.setCfg_kept | fail_if_no_progress (apply Kept.upd))

theorem State.bootOverlays_kept {s₀ : State} {s : State} (set : BitVec 12) (hK : Kept s₀ s) : Kept s₀ (State.bootOverlays s set) := by
  unfold State.bootOverlays
  repeat' first
    | (extract_lets +onlyGivenNames x; refine Kept.cut (t := x) ?_ fun _ => ?_; on_goal 1 => subst x; on_goal 2 => clear_value x)
    | (extract_lets +onlyGivenNames x; subst x)
    | (with_reducible first
        | assumption | intro _ | apply Kept.ite | apply State.loadSection_kept | apply State.putWindow_kept
        | apply State.setModeLeave_kept | apply State.setReg_kept | apply State.settle_kept | apply step_kept | apply Kept.foldl)
    | split

theorem State.settleImage_kept {s₀ : State} {s : State} (hK : Kept s₀ s) : Kept s₀ (State.settleImage s) := by
  unfold State.settleImage
  with_reducible repeat' first
    | assumption | intro _ | apply State.settle_kept | apply Kept.foldl

theorem State.startClocks_kept {s₀ : State} {s : State} (hK : Kept s₀ s) : Kept s₀ (State.startClocks s) := by
  unfold State.startClocks
  repeat' first
    | (extract_lets +onlyGivenNames x; refine Kept.cut (t := x) ?_ fun _ => ?_; on_goal 1 => subst x; on_goal 2 => clear_value x)
    | (extract_lets +onlyGivenNames x; subst x)
    | (with_reducible first
        | assumption | intro _ | apply State.candEnable_kept | apply State.laneStart_kept | apply State.linkEnable_kept
        | apply State.reselectAll_kept | apply State.setGlb_kept | apply State.wr_kept | apply Kept.foldl)

theorem State.loadImage_kept {s₀ : State} {s : State} (source : Nat) (i : Image) (hK :
    Kept s₀ s) : Kept s₀ (State.loadImage s source i) := by
  unfold State.loadImage
  repeat' first
    | (extract_lets +onlyGivenNames x; refine Kept.cut (t := x) ?_ fun _ => ?_; on_goal 1 => subst x; on_goal 2 => clear_value x)
    | (extract_lets +onlyGivenNames x; subst x)
    | (with_reducible first
        | assumption | intro _ | apply Kept.ite | apply State.adoptImage_kept | apply State.bootOverlays_kept
        | apply State.bootSettings_kept | apply State.loadSection_kept | apply State.putWindow_kept | apply State.reportImage_kept
        | apply State.setDramBytes_kept | apply State.setWide_kept | apply State.settleImage_kept | apply State.startClocks_kept
        | apply State.wr_kept | apply Kept.foldl | fail_if_no_progress (apply Kept.upd))
    | split

theorem execBootAttempt_kept {s₀ : State} (image : Image) (training : Training) {s : State} (hK :
    Kept s₀ s) : KeptRes s₀ (execBootAttempt image training s) := by
  unfold execBootAttempt
  repeat' first
    | (extract_lets +onlyGivenNames x; refine Kept.cut (t := x) ?_ fun _ => ?_; on_goal 1 => subst x; on_goal 2 => clear_value x)
    | (extract_lets +onlyGivenNames x; subst x)
    | (with_reducible first
        | assumption | apply Kept.ite | apply KeptRes.next | apply KeptRes.ite | apply State.attemptFails_kept
        | apply State.loadImage_kept | apply State.trainDram_kept)
    | split

theorem execBootSourceFailure_kept {s₀ : State} (code : Nat) {s : State} (hK : Kept s₀ s) : KeptRes s₀ (execBootSourceFailure code s) := by
  unfold execBootSourceFailure
  repeat' first
    | (with_reducible first
        | assumption | apply Kept.ite | apply KeptRes.next | apply KeptRes.ite | apply State.attemptFails_kept | apply State.raise_kept
        | apply State.trainDram_kept | apply State.wr_kept)
    | split

theorem execNeraxBootFrame_kept {s₀ : State} (bytes : List Byte) (last : Bool) {s : State} (hK :
    Kept s₀ s) : KeptRes s₀ (execNeraxBootFrame bytes last s) := by
  unfold execNeraxBootFrame
  repeat' first
    | (extract_lets +onlyGivenNames x; refine Kept.cut (t := x) ?_ fun _ => ?_; on_goal 1 => subst x; on_goal 2 => clear_value x)
    | (extract_lets +onlyGivenNames x; subst x)
    | (with_reducible first
        | assumption | apply Kept.ite | apply KeptRes.next | apply KeptRes.ite | apply State.setGlb_kept | apply State.wr_kept)

theorem execDpllBootWaitExpiry_kept {s₀ : State} (x : DomIx) {s : State} (hK : Kept s₀ s) : KeptRes s₀ (execDpllBootWaitExpiry x s) := by
  unfold execDpllBootWaitExpiry
  repeat' first
    | (extract_lets +onlyGivenNames x; refine Kept.cut (t := x) ?_ fun _ => ?_; on_goal 1 => subst x; on_goal 2 => clear_value x)
    | (extract_lets +onlyGivenNames x; subst x)
    | (with_reducible first
        | assumption | apply Kept.ite | apply KeptRes.next | apply KeptRes.ite | apply State.reselect_kept | apply State.setDpll_kept
        | apply State.settleClocks_kept | apply State.startDomain_kept | apply State.startDomains_kept | apply State.wr_kept)

theorem State.strobe_kept {s₀ : State} {s : State} (x : Nat) (hK : Kept s₀ s) : Kept s₀ (State.strobe s x) := by
  unfold State.strobe
  with_reducible repeat' first
    | assumption | apply Kept.ite | apply State.raise_kept

theorem State.fetchDelays_kept {s₀ : State} {s : State} (x : Nat) (hK : Kept s₀ s) : Kept s₀ (State.fetchDelays s x) := by
  unfold State.fetchDelays
  with_reducible repeat' first
    | assumption | intro _ | apply State.dlineFetch_kept | apply Kept.foldl

theorem State.beginDomain_kept {s₀ : State} {s : State} (x : Nat) (hK : Kept s₀ s) : Kept s₀ (State.beginDomain s x) := by
  unfold State.beginDomain
  repeat' first
    | (extract_lets +onlyGivenNames x; refine Kept.cut (t := x) ?_ fun _ => ?_; on_goal 1 => subst x; on_goal 2 => clear_value x)
    | (extract_lets +onlyGivenNames x; subst x)
    | (with_reducible first
        | assumption | intro _ | apply Kept.ite | apply State.setDom_kept | apply State.setEngState_kept | apply State.startPipeline_kept
        | apply State.zeroOutputs_kept | apply Kept.foldl)

theorem State.beginStreams_kept {s₀ : State} {s : State} (hK : Kept s₀ s) : Kept s₀ (State.beginStreams s) := by
  unfold State.beginStreams
  repeat' first
    | (extract_lets +onlyGivenNames x; refine Kept.cut (t := x) ?_ fun _ => ?_; on_goal 1 => subst x; on_goal 2 => clear_value x)
    | (extract_lets +onlyGivenNames x; subst x)
    | (with_reducible first
        | assumption | intro _ | apply Kept.ite | apply State.setRx_kept | apply State.setTx_kept | apply State.wr_kept | apply Kept.foldl)

theorem State.beginAmps_kept {s₀ : State} {s : State} (hK : Kept s₀ s) : Kept s₀ (State.beginAmps s) := by
  unfold State.beginAmps
  with_reducible repeat' first
    | assumption | intro _ | apply Kept.ite | apply State.ampOff_kept | apply Kept.foldl

theorem execFirstAudio_kept {s₀ : State} (ms : Nat) {s : State} (hK : Kept s₀ s) : KeptRes s₀ (execFirstAudio ms s) := by
  unfold execFirstAudio
  repeat' first
    | (extract_lets +onlyGivenNames x; refine Kept.cut (t := x) ?_ fun _ => ?_; on_goal 1 => subst x; on_goal 2 => clear_value x)
    | (extract_lets +onlyGivenNames x; subst x)
    | (with_reducible first
        | assumption | intro _ | apply Kept.ite | apply KeptRes.next | apply KeptRes.ite | apply State.applySafe_kept
        | apply State.beginAmps_kept | apply State.beginDomain_kept | apply State.beginStreams_kept | apply State.enterPair_kept
        | apply State.raise_kept | apply State.setCfg_kept | apply State.setDpll_kept | apply State.setReg_kept
        | apply State.settleClocks_kept | apply State.wr_kept | apply Kept.foldl)

theorem State.movePieces_kept {s₀ : State} (read : State → Nat → Nat → Nat → State × List Byte) (write : State → Nat → List Byte → State)
    (hr : ∀ s m o n, Kept s₀ s → Kept s₀ (read s m o n).1) (hw : ∀ s o b, Kept s₀ s → Kept s₀ (write s o b))
    (l : List (Nat × Nat × Nat)) {s : State} (moved code : Nat) (acc : List (Nat × List Byte)) (hK : Kept s₀ s) :
    Kept s₀ (State.movePieces read write l s moved code acc).1 := by
  induction l generalizing s moved code acc with
  | nil => exact hK
  | cons e t ih =>
    obtain ⟨src, dst, n⟩ := e
    unfold State.movePieces
    have h := hr s moved src n hK
    dsimp only
    split
    · exact h
    · split
      · exact hw _ _ _ h
      · exact ih _ _ _ (hw _ _ _ h)

theorem readMemory_kept {s₀ : State} (m base : Nat) (host : Option (List Byte)) {s : State} (moved off n : Nat) (hK :
    Kept s₀ s) : Kept s₀ (readMemory m base host s moved off n).1 := by
  unfold readMemory
  with_reducible repeat' first
    | assumption | apply State.busRead_kept | (refine Kept.fst_of_eq (by assumption) ?_; apply State.busRead_kept)

theorem readPattern_kept {s₀ : State} (p : Word) {s : State} (w1 off n : Nat) (hK : Kept s₀ s) : Kept s₀ (readPattern p s w1 off n).1 := by
  unfold readPattern
  with_reducible repeat' first
    | assumption | intro _ | apply State.answer_kept

theorem readBarge_kept {s₀ : State} (bytes : List Byte) {s : State} (w1 off n : Nat) (hK :
    Kept s₀ s) : Kept s₀ (readBarge bytes s w1 off n).1 := by
  unfold readBarge
  with_reducible repeat' first
    | assumption | intro _ | apply State.answer_kept

theorem writeMemory_kept {s₀ : State} (m base : Nat) {s : State} (off : Nat) (bytes : List Byte) (hK :
    Kept s₀ s) : Kept s₀ (writeMemory m base s off bytes) := by
  unfold writeMemory
  with_reducible repeat' first
    | assumption | apply State.busWrite_kept

theorem writeKept_kept {s₀ : State} {s : State} (w1 : Nat) (w2 : List Byte) (hK : Kept s₀ s) : Kept s₀ (writeKept s w1 w2) := by
  unfold writeKept
  with_reducible repeat' first
    | assumption | apply State.answer_kept

theorem State.handFrame_kept {s₀ : State} {s : State} (c : Nat) (hK : Kept s₀ s) : Kept s₀ (State.handFrame s c) := by
  unfold State.handFrame
  repeat' first
    | (extract_lets +onlyGivenNames x; refine Kept.cut (t := x) ?_ fun _ => ?_; on_goal 1 => subst x; on_goal 2 => clear_value x)
    | (extract_lets +onlyGivenNames x; subst x)
    | (with_reducible first
        | assumption | apply Kept.ite | apply State.setChan_kept | apply State.setLink_kept | apply State.setMac_kept)
    | split

theorem State.memTransfer_kept {s₀ : State} {s : State} (c : Nat) (d : List Word) (host : Option (List Byte)) (hK :
    Kept s₀ s) : Kept s₀ (State.memTransfer s c d host) := by
  unfold State.memTransfer
  repeat' first
    | (extract_lets +onlyGivenNames x; refine Kept.cut (t := x) ?_ fun _ => ?_; on_goal 1 => subst x; on_goal 2 => clear_value x)
    | (extract_lets +onlyGivenNames x; subst x)
    | (with_reducible first
        | assumption | intro _ | apply Kept.ite | apply State.completeDesc_kept | apply State.movePieces_kept
        | (refine Kept.fst_of_eq (by assumption) ?_; apply State.movePieces_kept) | apply readMemory_kept
        | (refine Kept.fst_of_eq (by assumption) ?_; apply readMemory_kept) | apply readPattern_kept
        | (refine Kept.fst_of_eq (by assumption) ?_; apply readPattern_kept) | apply writeMemory_kept
        | fail_if_no_progress (apply Kept.upd))
    | split

theorem State.txTransfer_kept {s₀ : State} {s : State} (c : Nat) (d : List Word) (host : Option (List Byte)) (hK :
    Kept s₀ s) : Kept s₀ (State.txTransfer s c d host) := by
  unfold State.txTransfer
  repeat' first
    | (extract_lets +onlyGivenNames x; refine Kept.cut (t := x) ?_ fun _ => ?_; on_goal 1 => subst x; on_goal 2 => clear_value x)
    | (extract_lets +onlyGivenNames x; subst x)
    | (with_reducible first
        | assumption | apply Kept.ite | apply State.completeDesc_kept | apply State.handFrame_kept | apply State.movePieces_kept
        | (refine Kept.fst_of_eq (by assumption) ?_; apply State.movePieces_kept) | apply State.setChan_kept | apply readMemory_kept
        | (refine Kept.fst_of_eq (by assumption) ?_; apply readMemory_kept) | apply writeKept_kept)
    | split

theorem State.tickWrite_kept {s₀ : State} {s : State} (c : Nat) (d : List Word) (tick : Nat) (bytes : List Byte) (hK :
    Kept s₀ s) : Kept s₀ (State.tickWrite s c d tick bytes) := by
  unfold State.tickWrite
  repeat' first
    | (extract_lets +onlyGivenNames x; refine Kept.cut (t := x) ?_ fun _ => ?_; on_goal 1 => subst x; on_goal 2 => clear_value x)
    | (extract_lets +onlyGivenNames x; subst x)
    | (with_reducible first
        | assumption | intro _ | apply Kept.ite | apply State.completeDesc_kept | apply State.movePieces_kept
        | (refine Kept.fst_of_eq (by assumption) ?_; apply State.movePieces_kept) | apply readBarge_kept
        | (refine Kept.fst_of_eq (by assumption) ?_; apply readBarge_kept) | apply readPattern_kept
        | (refine Kept.fst_of_eq (by assumption) ?_; apply readPattern_kept) | apply writeMemory_kept
        | fail_if_no_progress (apply Kept.upd))
    | split

theorem State.tickInTransfer_kept {s₀ : State} {s : State} (c : Nat) (d : List Word) (tick l : Nat) (hK :
    Kept s₀ s) : Kept s₀ (State.tickInTransfer s c d tick l) := by
  unfold State.tickInTransfer
  repeat' first
    | (extract_lets +onlyGivenNames x; refine Kept.cut (t := x) ?_ fun _ => ?_; on_goal 1 => subst x; on_goal 2 => clear_value x)
    | (extract_lets +onlyGivenNames x; subst x)
    | (with_reducible first
        | assumption | apply Kept.ite | apply State.consume_kept | apply State.tickWrite_kept)
    | split

theorem State.tickOutTransfer_kept {s₀ : State} {s : State} (c : Nat) (d : List Word) (tick l : Nat) (host : Option (List Byte)) (hK :
    Kept s₀ s) : Kept s₀ (State.tickOutTransfer s c d tick l host) := by
  unfold State.tickOutTransfer
  repeat' first
    | (extract_lets +onlyGivenNames x; refine Kept.cut (t := x) ?_ fun _ => ?_; on_goal 1 => subst x; on_goal 2 => clear_value x)
    | (extract_lets +onlyGivenNames x; subst x)
    | (with_reducible first
        | assumption | intro _ | apply Kept.ite | apply State.completeDesc_kept | apply State.movePieces_kept
        | (refine Kept.fst_of_eq (by assumption) ?_; apply State.movePieces_kept) | apply State.setLock_kept | apply readMemory_kept
        | (refine Kept.fst_of_eq (by assumption) ?_; apply readMemory_kept) | apply readPattern_kept
        | (refine Kept.fst_of_eq (by assumption) ?_; apply readPattern_kept) | apply writeKept_kept)
    | (with_reducible first
         | exact Nat.min_le_left _ _
         | exact Nat.le_refl _
         | refine State.lock_bounded (by assumption) (by assumption) ?_
         | refine (Nat.sub_le _ _).trans (State.lock_bounded (by assumption) (by assumption) ?_))
    | (with_reducible show (_ : Nat) ≤ _; dsimp only)
    | split

theorem execDescriptorComplete_kept {s₀ : State} (c : ChIx) (host : Option (List Byte)) {s : State} (hK :
    Kept s₀ s) : KeptRes s₀ (execDescriptorComplete c host s) := by
  unfold execDescriptorComplete
  repeat' first
    | (extract_lets +onlyGivenNames x; refine Kept.cut (t := x) ?_ fun _ => ?_; on_goal 1 => subst x; on_goal 2 => clear_value x)
    | (extract_lets +onlyGivenNames x; subst x)
    | (with_reducible first
        | assumption | apply Kept.ite | apply KeptRes.next | apply KeptRes.ite | apply State.completeDesc_kept
        | apply State.memTransfer_kept | apply State.tickInTransfer_kept | apply State.tickOutTransfer_kept | apply State.txTransfer_kept)
    | split

theorem State.requestBurst_kept {s₀ : State} {s : State} (c : Nat) (d : List Word) (hK :
    Kept s₀ s) : Kept s₀ (State.requestBurst s c d) := by
  unfold State.requestBurst
  repeat' first
    | (extract_lets +onlyGivenNames x; refine Kept.cut (t := x) ?_ fun _ => ?_; on_goal 1 => subst x; on_goal 2 => clear_value x)
    | (extract_lets +onlyGivenNames x; subst x)
    | (with_reducible first
        | assumption | intro _ | apply Kept.ite | apply State.busWrite_kept | apply State.completeDesc_kept
        | apply State.defaultTarget_kept | apply State.setChan_kept | apply State.setCic_kept)

theorem execPeripheralRequest_kept {s₀ : State} (c : ChIx) {s : State} (hK : Kept s₀ s) : KeptRes s₀ (execPeripheralRequest c s) := by
  unfold execPeripheralRequest
  repeat' first
    | (with_reducible first
        | assumption | apply KeptRes.next | apply State.requestBurst_kept)
    | split

theorem execRequestWithdrawn_kept {s₀ : State} (c : ChIx) (granted : Bool) {s : State} (hK :
    Kept s₀ s) : KeptRes s₀ (execRequestWithdrawn c granted s) := by
  unfold execRequestWithdrawn
  repeat' first
    | (extract_lets +onlyGivenNames x; refine Kept.cut (t := x) ?_ fun _ => ?_; on_goal 1 => subst x; on_goal 2 => clear_value x)
    | (extract_lets +onlyGivenNames x; subst x)
    | (with_reducible first
        | assumption | apply Kept.ite | apply KeptRes.next | apply KeptRes.ite | apply State.bump_kept | apply State.raise_kept
        | apply State.requestBurst_kept | apply State.setCic_kept)
    | split

theorem State.rxTaken_kept {s₀ : State} {s : State} (c : Nat) (hK : Kept s₀ s) : Kept s₀ (State.rxTaken s c) := by
  unfold State.rxTaken
  repeat' first
    | (extract_lets +onlyGivenNames x; refine Kept.cut (t := x) ?_ fun _ => ?_; on_goal 1 => subst x; on_goal 2 => clear_value x)
    | (extract_lets +onlyGivenNames x; subst x)
    | (with_reducible first
        | assumption | intro _ | apply Kept.ite | apply State.emit_kept | apply State.setLink_kept | apply State.setMac_kept)

theorem execFrameRxDma_kept {s₀ : State} (c : ChIx) {s : State} (hK : Kept s₀ s) : KeptRes s₀ (execFrameRxDma c s) := by
  unfold execFrameRxDma
  repeat' first
    | (extract_lets +onlyGivenNames x; refine Kept.cut (t := x) ?_ fun _ => ?_; on_goal 1 => subst x; on_goal 2 => clear_value x)
    | (extract_lets +onlyGivenNames x; subst x)
    | (with_reducible first
        | assumption | apply Kept.ite | apply KeptRes.next | apply KeptRes.ite | apply State.completeDesc_kept
        | apply State.movePieces_kept | (refine Kept.fst_of_eq (by assumption) ?_; apply State.movePieces_kept) | apply State.rxTaken_kept
        | apply State.setChan_kept | apply readBarge_kept | (refine Kept.fst_of_eq (by assumption) ?_; apply readBarge_kept)
        | apply writeMemory_kept)
    | split

theorem execTickModeTransfer_kept {s₀ : State} (c : ChIx) {s : State} (hK : Kept s₀ s) : KeptRes s₀ (execTickModeTransfer c s) := by
  unfold execTickModeTransfer
  repeat' first
    | (extract_lets +onlyGivenNames x; refine Kept.cut (t := x) ?_ fun _ => ?_; on_goal 1 => subst x; on_goal 2 => clear_value x)
    | (extract_lets +onlyGivenNames x; subst x)
    | (with_reducible first
        | assumption | apply Kept.ite | apply KeptRes.next | apply KeptRes.ite | apply State.bump_kept | apply State.dmaEvent_kept
        | apply State.giveUp_kept | apply State.setChan_kept)
    | split

theorem State.bringRegister_kept {s₀ : State} {s : State} (a : Nat) (mask : Word) (hK :
    Kept s₀ s) : Kept s₀ (State.bringRegister s a mask) := by
  unfold State.bringRegister
  repeat' first
    | (extract_lets +onlyGivenNames x; refine Kept.cut (t := x) ?_ fun _ => ?_; on_goal 1 => subst x; on_goal 2 => clear_value x)
    | (extract_lets +onlyGivenNames x; subst x)
    | (with_reducible first
        | assumption | apply Kept.ite | apply State.bring_kept | apply State.changed_kept | apply State.engineChanges_kept
        | apply State.engineRestarts_kept | apply State.setReg_kept)

theorem State.bringAt_kept {s₀ : State} {s : State} (a : Nat) (mask : Word) (hK : Kept s₀ s) : Kept s₀ (State.bringAt s a mask) := by
  unfold State.bringAt
  repeat' first
    | (extract_lets +onlyGivenNames x; refine Kept.cut (t := x) ?_ fun _ => ?_; on_goal 1 => subst x; on_goal 2 => clear_value x)
    | (extract_lets +onlyGivenNames x; subst x)
    | (with_reducible first
        | assumption | apply Kept.ite | apply State.bringRegister_kept | apply State.setCfg_kept)

theorem State.applySection_kept {s₀ : State} {s : State} (sc : SectionContent) (hK : Kept s₀ s) : Kept s₀ (State.applySection s sc) := by
  unfold State.applySection
  repeat' first
    | (extract_lets +onlyGivenNames x; refine Kept.cut (t := x) ?_ fun _ => ?_; on_goal 1 => subst x; on_goal 2 => clear_value x)
    | (extract_lets +onlyGivenNames x; subst x)
    | (with_reducible first
        | assumption | intro _ | apply Kept.ite | apply State.setCfg_kept | apply State.takeBanks_kept | apply State.takeDomainPart_kept
        | apply State.takeSection_kept | apply Kept.foldl)
    | split

theorem State.putAt_kept {s₀ : State} {s : State} (w : Nat × Word × Word) (hK : Kept s₀ s) : Kept s₀ (State.putAt s w) := by
  unfold State.putAt
  repeat' first
    | (extract_lets +onlyGivenNames x; refine Kept.cut (t := x) ?_ fun _ => ?_; on_goal 1 => subst x; on_goal 2 => clear_value x)
    | (extract_lets +onlyGivenNames x; subst x)
    | (with_reducible first
        | assumption | apply Kept.ite | apply State.putWindow_kept | apply State.setCfg_kept)

theorem State.pathsChanged_kept {s₀ : State} {s : State} (x : Nat) (hK : Kept s₀ s) : Kept s₀ (State.pathsChanged s x) := by
  unfold State.pathsChanged
  repeat' first
    | (with_reducible first
        | assumption | intro _ | apply State.setLock_kept | apply Kept.foldl)
    | (with_reducible first
         | exact Nat.min_le_left _ _
         | exact Nat.le_refl _
         | refine State.lock_bounded (by assumption) (by assumption) ?_
         | refine (Nat.sub_le _ _).trans (State.lock_bounded (by assumption) (by assumption) ?_))
    | (with_reducible show (_ : Nat) ≤ _; dsimp only)
    | split

theorem State.takeLater_kept {s₀ : State} {s : State} (x : Nat) (hK : Kept s₀ s) : Kept s₀ (State.takeLater s x) := by
  unfold State.takeLater
  repeat' first
    | (extract_lets +onlyGivenNames x; refine Kept.cut (t := x) ?_ fun _ => ?_; on_goal 1 => subst x; on_goal 2 => clear_value x)
    | (extract_lets +onlyGivenNames x; subst x)
    | (with_reducible first
        | assumption | intro _ | apply Kept.ite | apply State.bringRegister_kept | apply State.pathsChanged_kept
        | apply State.putWindow_kept | apply State.setCfg_kept | apply State.takeDomainPart_kept | apply State.takeSection_kept
        | apply Kept.foldl)
    | split

theorem State.planTake_kept {s₀ : State} {s : State} (at_ : Option Nat) (c : PathChange) (hK :
    Kept s₀ s) : Kept s₀ (State.planTake s at_ c) := by
  unfold State.planTake
  repeat' first
    | (extract_lets +onlyGivenNames x; refine Kept.cut (t := x) ?_ fun _ => ?_; on_goal 1 => subst x; on_goal 2 => clear_value x)
    | (extract_lets +onlyGivenNames x; subst x)
    | (with_reducible first
        | assumption | intro _ | apply Kept.ite | apply State.setCfg_kept | apply State.setDom_kept | apply State.setLock_kept
        | apply Kept.foldl)
    | (with_reducible first
         | exact Nat.min_le_left _ _
         | exact Nat.le_refl _
         | refine State.lock_bounded (by assumption) (by assumption) ?_
         | refine (Nat.sub_le _ _).trans (State.lock_bounded (by assumption) (by assumption) ?_))
    | (with_reducible show (_ : Nat) ≤ _; dsimp only)
    | split

theorem State.armTake_kept {s₀ : State} {s : State} (hK : Kept s₀ s) : Kept s₀ (State.armTake s) := by
  unfold State.armTake
  repeat' first
    | (extract_lets +onlyGivenNames x; refine Kept.cut (t := x) ?_ fun _ => ?_; on_goal 1 => subst x; on_goal 2 => clear_value x)
    | (extract_lets +onlyGivenNames x; subst x)
    | (with_reducible first
        | assumption | apply Kept.ite | apply State.discardStaging_kept | apply State.planTake_kept | apply State.raise_kept
        | apply State.setSeq_kept)

theorem State.changeHeld_kept {s₀ : State} {s : State} (new : BitVec 12) (ovs' : List Overlay) (hK :
    Kept s₀ s) : Kept s₀ (State.changeHeld s new ovs') := by
  unfold State.changeHeld
  repeat' first
    | (extract_lets +onlyGivenNames x; refine Kept.cut (t := x) ?_ fun _ => ?_; on_goal 1 => subst x; on_goal 2 => clear_value x)
    | (extract_lets +onlyGivenNames x; subst x)
    | (with_reducible first
        | assumption | intro _ | apply State.applySection_kept | apply State.bringAt_kept | apply State.pathsChanged_kept
        | apply State.putAt_kept | apply State.setCfg_kept | apply State.setReg_kept | apply Kept.foldl)

theorem State.moveLeave_kept {s₀ : State} {s : State} (old new : BitVec 12) (hK : Kept s₀ s) : Kept s₀ (State.moveLeave s old new) := by
  unfold State.moveLeave
  repeat' first
    | (extract_lets +onlyGivenNames x; refine Kept.cut (t := x) ?_ fun _ => ?_; on_goal 1 => subst x; on_goal 2 => clear_value x)
    | (extract_lets +onlyGivenNames x; subst x)
    | (with_reducible first
        | assumption | intro _ | apply Kept.ite | apply State.setModeLeave_kept | apply State.setRequester_kept | apply Kept.foldl)

theorem State.modesChanged_kept {s₀ : State} {s : State} (old new : BitVec 12) (hK :
    Kept s₀ s) : Kept s₀ (State.modesChanged s old new) := by
  unfold State.modesChanged
  repeat' first
    | (extract_lets +onlyGivenNames x; refine Kept.cut (t := x) ?_ fun _ => ?_; on_goal 1 => subst x; on_goal 2 => clear_value x)
    | (extract_lets +onlyGivenNames x; subst x)
    | (with_reducible first
        | assumption | apply Kept.ite | apply State.applySafe_kept | apply State.disarm_kept | apply State.enterPair_kept
        | apply State.leavePair_kept | apply State.maintenanceEnds_kept | apply State.settleClocks_kept)

theorem State.takeDone_kept {s₀ : State} {s : State} (hK : Kept s₀ s) : Kept s₀ (State.takeDone s) := by
  unfold State.takeDone
  repeat' first
    | (extract_lets +onlyGivenNames x; refine Kept.cut (t := x) ?_ fun _ => ?_; on_goal 1 => subst x; on_goal 2 => clear_value x)
    | (extract_lets +onlyGivenNames x; subst x)
    | (with_reducible first
        | assumption | apply State.raise_kept | apply State.setCfg_kept | apply State.setWide_kept)

theorem State.takeSet_kept {s₀ : State} {s : State} (p : BitVec 12) (ps : List PayloadContent) (hK :
    Kept s₀ s) : Kept s₀ (State.takeSet s p ps) := by
  unfold State.takeSet
  repeat' first
    | (extract_lets +onlyGivenNames x; refine Kept.cut (t := x) ?_ fun _ => ?_; on_goal 1 => subst x; on_goal 2 => clear_value x)
    | (extract_lets +onlyGivenNames x; subst x)
    | (with_reducible first
        | assumption | apply State.changeHeld_kept | apply State.modesChanged_kept | apply State.moveLeave_kept
        | apply State.takeDone_kept)

theorem State.afterPrior_kept {s₀ : State} {s : State} (hK : Kept s₀ s) : Kept s₀ (State.afterPrior s) := by
  unfold State.afterPrior
  repeat' first
    | (extract_lets +onlyGivenNames x; refine Kept.cut (t := x) ?_ fun _ => ?_; on_goal 1 => subst x; on_goal 2 => clear_value x)
    | (extract_lets +onlyGivenNames x; subst x)
    | (with_reducible first
        | assumption | apply Kept.ite | apply State.discardStaging_kept | apply State.startStaging_kept)

theorem execOverlayTake_kept {s₀ : State} {s : State} (hK : Kept s₀ s) : KeptRes s₀ (execOverlayTake s) := by
  unfold execOverlayTake
  repeat' first
    | (extract_lets +onlyGivenNames x; refine Kept.cut (t := x) ?_ fun _ => ?_; on_goal 1 => subst x; on_goal 2 => clear_value x)
    | (extract_lets +onlyGivenNames x; subst x)
    | (with_reducible first
        | assumption | apply Kept.ite | apply KeptRes.next | apply KeptRes.ite | apply State.afterPrior_kept | apply State.setCfg_kept
        | apply State.setSeq_kept | apply State.stagingFree_kept | apply State.takeSet_kept)
    | split

theorem State.dropPrior_kept {s₀ : State} {s : State} (hK : Kept s₀ s) : Kept s₀ (State.dropPrior s) := by
  unfold State.dropPrior
  repeat' first
    | (extract_lets +onlyGivenNames x; refine Kept.cut (t := x) ?_ fun _ => ?_; on_goal 1 => subst x; on_goal 2 => clear_value x)
    | (extract_lets +onlyGivenNames x; subst x)
    | (with_reducible first
        | assumption | apply State.cancelB_kept | apply State.cancelPaths_kept | apply State.setCfg_kept | apply State.setRequester_kept)

theorem State.stageSection_kept {s₀ : State} {s : State} (sc : SectionContent) (hK : Kept s₀ s) : Kept s₀ (State.stageSection s sc) := by
  unfold State.stageSection
  repeat' first
    | (extract_lets +onlyGivenNames x; refine Kept.cut (t := x) ?_ fun _ => ?_; on_goal 1 => subst x; on_goal 2 => clear_value x)
    | (extract_lets +onlyGivenNames x; subst x)
    | (with_reducible first
        | assumption | apply Kept.ite | apply State.setEng_kept | apply State.stageBanks_kept | apply State.stageGains_kept)
    | split

theorem State.stageStores_kept {s₀ : State} {s : State} (hK : Kept s₀ s) : Kept s₀ (State.stageStores s) := by
  unfold State.stageStores
  repeat' first
    | (extract_lets +onlyGivenNames x; refine Kept.cut (t := x) ?_ fun _ => ?_; on_goal 1 => subst x; on_goal 2 => clear_value x)
    | (extract_lets +onlyGivenNames x; subst x)
    | (with_reducible first
        | assumption | intro _ | apply State.stageSection_kept | apply Kept.foldl)

theorem State.stagingEnds_kept {s₀ : State} {s : State} (us : Nat) (ps : List PayloadContent) (hK :
    Kept s₀ s) : Kept s₀ (State.stagingEnds s us ps) := by
  unfold State.stagingEnds
  repeat' first
    | (extract_lets +onlyGivenNames x; refine Kept.cut (t := x) ?_ fun _ => ?_; on_goal 1 => subst x; on_goal 2 => clear_value x)
    | (extract_lets +onlyGivenNames x; subst x)
    | (with_reducible first
        | assumption | apply Kept.ite | apply State.armTake_kept | apply State.discardStaging_kept | apply State.dropPrior_kept
        | apply State.raise_kept | apply State.report_kept | apply State.setCfg_kept | apply State.setReg_kept | apply State.setSeq_kept
        | apply State.stageStores_kept)

theorem execResidentModeChange_kept {s₀ : State} {s : State} (hK : Kept s₀ s) : KeptRes s₀ (execResidentModeChange s) := by
  unfold execResidentModeChange
  repeat' first
    | (extract_lets +onlyGivenNames x; refine Kept.cut (t := x) ?_ fun _ => ?_; on_goal 1 => subst x; on_goal 2 => clear_value x)
    | (extract_lets +onlyGivenNames x; subst x)
    | (with_reducible first
        | assumption | apply Kept.ite | apply KeptRes.next | apply KeptRes.ite | apply State.changeHeld_kept
        | apply State.modesChanged_kept | apply State.setCfg_kept | apply State.takeDone_kept)

theorem State.mirrorWrite_kept {s₀ : State} {s : State} (a : Nat) (mask v : Word) (hK :
    Kept s₀ s) : Kept s₀ (State.mirrorWrite s a mask v) := by
  unfold State.mirrorWrite
  with_reducible repeat' first
    | assumption | apply Kept.ite | apply State.putWindow_kept | apply State.regWrite_kept | apply State.windowsPut_kept

theorem State.applyItem_kept {s₀ : State} {s : State} (y0 : MirrorItem) (hK : Kept s₀ s) : Kept s₀ (State.applyItem s y0) := by
  unfold State.applyItem
  repeat' first
    | (extract_lets +onlyGivenNames x; refine Kept.cut (t := x) ?_ fun _ => ?_; on_goal 1 => subst x; on_goal 2 => clear_value x)
    | (extract_lets +onlyGivenNames x; subst x)
    | (with_reducible first
        | assumption | intro _ | apply State.mirrorWrite_kept | apply State.setBrun_kept | apply State.setCic_kept
        | apply State.setEng_kept | apply State.setGains_kept | apply State.setMa_kept | apply State.setRouter_kept
        | apply State.setTx_kept)
    | split

theorem execMirrorRecord_kept {s₀ : State} (at_ : Option (BitVec 64)) (item : MirrorItem) {s : State} (hK :
    Kept s₀ s) : KeptRes s₀ (execMirrorRecord at_ item s) := by
  unfold execMirrorRecord
  repeat' first
    | (with_reducible first
        | assumption | apply Kept.ite | apply KeptRes.next | apply KeptRes.ite | apply State.applyItem_kept | apply State.loseSync_kept
        | apply State.raise_kept | apply State.setFov_kept)
    | split

theorem State.applyWaiting_kept {s₀ : State} {s : State} (hK : Kept s₀ s) : Kept s₀ (State.applyWaiting s) := by
  unfold State.applyWaiting
  repeat' first
    | (extract_lets +onlyGivenNames x; refine Kept.cut (t := x) ?_ fun _ => ?_; on_goal 1 => subst x; on_goal 2 => clear_value x)
    | (extract_lets +onlyGivenNames x; subst x)
    | (with_reducible first
        | assumption | intro _ | apply State.applyItem_kept | apply State.setFov_kept | apply Kept.foldl)
    | split

theorem State.holdRole_kept {s₀ : State} {s : State} (role : BitVec 12) (hK : Kept s₀ s) : Kept s₀ (State.holdRole s role) := by
  unfold State.holdRole
  repeat' first
    | (extract_lets +onlyGivenNames x; refine Kept.cut (t := x) ?_ fun _ => ?_; on_goal 1 => subst x; on_goal 2 => clear_value x)
    | (extract_lets +onlyGivenNames x; subst x)
    | (with_reducible first
        | assumption | apply Kept.ite | apply State.changeHeld_kept | apply State.modesChanged_kept | apply State.setCfg_kept
        | apply State.takeDone_kept)

theorem State.noFade_kept {s₀ : State} {s : State} (hK : Kept s₀ s) : Kept s₀ (State.noFade s) := by
  unfold State.noFade
  repeat' first
    | (extract_lets +onlyGivenNames x; refine Kept.cut (t := x) ?_ fun _ => ?_; on_goal 1 => subst x; on_goal 2 => clear_value x)
    | (extract_lets +onlyGivenNames x; subst x)
    | (with_reducible first
        | assumption | intro _ | apply Kept.ite | apply State.setGrp_kept | apply State.setTx_kept | apply Kept.foldl)
    | split

theorem execYieldHandover_kept {s₀ : State} {s : State} (hK : Kept s₀ s) : KeptRes s₀ (execYieldHandover s) := by
  unfold execYieldHandover
  repeat' first
    | (extract_lets +onlyGivenNames x; refine Kept.cut (t := x) ?_ fun _ => ?_; on_goal 1 => subst x; on_goal 2 => clear_value x)
    | (extract_lets +onlyGivenNames x; subst x)
    | (with_reducible first
        | assumption | intro _ | apply Kept.ite | apply KeptRes.next | apply KeptRes.ite | apply State.becomeKeeper_kept
        | apply State.bump_kept | apply State.holdRole_kept | apply State.noFade_kept | apply State.stopKeeper_kept)

theorem State.beginTick_kept {s₀ : State} {s : State} (x : Nat) (hK : Kept s₀ s) : Kept s₀ (State.beginTick s x) := by
  unfold State.beginTick
  repeat' first
    | (extract_lets +onlyGivenNames x; refine Kept.cut (t := x) ?_ fun _ => ?_; on_goal 1 => subst x; on_goal 2 => clear_value x)
    | (extract_lets +onlyGivenNames x; subst x)
    | (with_reducible first
        | assumption | apply Kept.ite | apply State.abortsAt_kept | apply State.applyWaiting_kept | apply State.audioBoundary_kept
        | apply State.fetchDelays_kept | apply State.shBoundaryTakes_kept | apply State.strobe_kept | apply State.takeLater_kept)

theorem execTickBoundary_kept {s₀ : State} (x : DomIx) {s : State} (hK : Kept s₀ s) : KeptRes s₀ (execTickBoundary x s) := by
  unfold execTickBoundary
  with_reducible repeat' first
    | assumption | apply Kept.ite | apply KeptRes.next | apply KeptRes.ite | apply State.beginTick_kept

theorem State.refuseReplacement_kept {s₀ : State} {s : State} (code : Nat) (hK : Kept s₀ s) : Kept s₀ (State.refuseReplacement s code) := by
  unfold State.refuseReplacement
  with_reducible repeat' first
    | assumption | apply State.raise_kept | apply State.wr_kept

theorem execImageReplacementStart_kept {s₀ : State} (image : Image) {s : State} (hK :
    Kept s₀ s) : KeptRes s₀ (execImageReplacementStart image s) := by
  unfold execImageReplacementStart
  repeat' first
    | (extract_lets +onlyGivenNames x; refine Kept.cut (t := x) ?_ fun _ => ?_; on_goal 1 => subst x; on_goal 2 => clear_value x)
    | (extract_lets +onlyGivenNames x; subst x)
    | (with_reducible first
        | assumption | apply Kept.ite | apply KeptRes.next | apply KeptRes.ite | apply State.answer_kept
        | apply State.refuseReplacement_kept | apply State.setGlb_kept | apply State.weirRequest_kept | apply State.wr_kept)

theorem State.adoptLayers_kept {s₀ : State} {s : State} (image : List (Nat × Word)) (released : BitVec 12) (hK :
    Kept s₀ s) : Kept s₀ (State.adoptLayers s image released) := by
  unfold State.adoptLayers
  repeat' first
    | (extract_lets +onlyGivenNames x; refine Kept.cut (t := x) ?_ fun _ => ?_; on_goal 1 => subst x; on_goal 2 => clear_value x)
    | (extract_lets +onlyGivenNames x; subst x)
    | (with_reducible first
        | assumption | intro _ | apply State.soften_kept | apply Kept.foldl | fail_if_no_progress (apply Kept.upd))

theorem State.applyImage_kept {s₀ : State} {s : State} (i : Image) (hK : Kept s₀ s) : Kept s₀ (State.applyImage s i) := by
  unfold State.applyImage
  repeat' first
    | (extract_lets +onlyGivenNames x; refine Kept.cut (t := x) ?_ fun _ => ?_; on_goal 1 => subst x; on_goal 2 => clear_value x)
    | (extract_lets +onlyGivenNames x; subst x)
    | (with_reducible first
        | assumption | intro _ | apply Kept.ite | apply State.adoptLayers_kept | apply State.applySection_kept | apply State.bringAt_kept
        | apply State.pathsChanged_kept | apply State.setCfg_kept | apply State.setReg_kept | apply Kept.foldl)

theorem State.armReplacement_kept {s₀ : State} {s : State} (hK : Kept s₀ s) : Kept s₀ (State.armReplacement s) := by
  unfold State.armReplacement
  repeat' first
    | (extract_lets +onlyGivenNames x; refine Kept.cut (t := x) ?_ fun _ => ?_; on_goal 1 => subst x; on_goal 2 => clear_value x)
    | (extract_lets +onlyGivenNames x; subst x)
    | (with_reducible first
        | assumption | intro _ | apply Kept.ite | apply State.abortReplacement_kept | apply State.applyImage_kept
        | apply State.planTake_kept | apply State.raise_kept | apply State.wr_kept)
    | split

theorem execStagingComplete_kept {s₀ : State} (us : Nat) (payloads : List PayloadContent) {s : State} (hK :
    Kept s₀ s) : KeptRes s₀ (execStagingComplete us payloads s) := by
  unfold execStagingComplete
  with_reducible repeat' first
    | assumption | apply Kept.ite | apply KeptRes.next | apply KeptRes.ite | apply State.armReplacement_kept
    | apply State.stagingEnds_kept | apply State.wr_kept

theorem State.sequencerGranted_kept {s₀ : State} {s : State} (hK : Kept s₀ s) : Kept s₀ (State.sequencerGranted s) := by
  unfold State.sequencerGranted
  with_reducible repeat' first
    | assumption | apply Kept.ite | apply State.armReplacement_kept | apply State.armTake_kept

theorem State.adoptLeave_kept {s₀ : State} {s : State} (i : Image) (set : BitVec 12) (hK :
    Kept s₀ s) : Kept s₀ (State.adoptLeave s i set) := by
  unfold State.adoptLeave
  repeat' first
    | (extract_lets +onlyGivenNames x; refine Kept.cut (t := x) ?_ fun _ => ?_; on_goal 1 => subst x; on_goal 2 => clear_value x)
    | (extract_lets +onlyGivenNames x; subst x)
    | (with_reducible first
        | assumption | intro _ | apply State.setModeLeave_kept | apply State.setRequester_kept | apply Kept.foldl)

theorem State.sendIdentities_kept {s₀ : State} {s : State} (hK : Kept s₀ s) : Kept s₀ (State.sendIdentities s) := by
  unfold State.sendIdentities
  with_reducible repeat' first
    | assumption | intro _ | apply Kept.ite | apply State.judgeBuild_kept | apply State.sendIdentity_kept | apply Kept.foldl

theorem execImageReplacementTake_kept {s₀ : State} {s : State} (hK : Kept s₀ s) : KeptRes s₀ (execImageReplacementTake s) := by
  unfold execImageReplacementTake
  repeat' first
    | (extract_lets +onlyGivenNames x; refine Kept.cut (t := x) ?_ fun _ => ?_; on_goal 1 => subst x; on_goal 2 => clear_value x)
    | (extract_lets +onlyGivenNames x; subst x)
    | (with_reducible first
        | assumption | apply Kept.ite | apply KeptRes.next | apply KeptRes.ite | apply State.adoptLeave_kept | apply State.applyImage_kept
        | apply State.modesChanged_kept | apply State.raise_kept | apply State.reportImage_kept | apply State.sendIdentities_kept
        | apply State.setGlb_kept | apply State.wr_kept)
    | split

theorem execReplacementBuildIdMismatch_kept {s₀ : State} (k : LinkIx) {s : State} (hK :
    Kept s₀ s) : KeptRes s₀ (execReplacementBuildIdMismatch k s) := by
  unfold execReplacementBuildIdMismatch
  with_reducible repeat' first
    | assumption | intro _ | apply Kept.ite | apply KeptRes.next | apply KeptRes.ite | apply State.linkFall_kept

theorem State.leaveGranted_kept {s₀ : State} {s : State} (r : Nat) (hK : Kept s₀ s) : Kept s₀ (State.leaveGranted s r) := by
  unfold State.leaveGranted
  with_reducible repeat' first
    | assumption | apply Kept.ite | apply State.ampLeave_kept | apply State.laneLeave_kept | apply State.resyncLeave_kept
    | apply State.retrainLeaveGranted_kept | apply State.sequencerGranted_kept | apply State.substLeave_kept | apply State.wr_kept

theorem execWeirGrant_kept {s₀ : State} {s : State} (hK : Kept s₀ s) : KeptRes s₀ (execWeirGrant s) := by
  unfold execWeirGrant
  repeat' first
    | (with_reducible first
        | assumption | apply Kept.ite | apply KeptRes.next | apply KeptRes.ite | apply State.leaveGranted_kept | apply State.weirTake_kept)
    | split

theorem State.tlmItem_kept {s₀ : State} {s : State} (i : Nat) (hK : Kept s₀ s) : Kept s₀ (State.tlmItem s i).1 := by
  unfold State.tlmItem
  repeat' first
    | (extract_lets +onlyGivenNames x; refine Kept.cut (t := x) ?_ fun _ => ?_; on_goal 1 => subst x; on_goal 2 => clear_value x)
    | (extract_lets +onlyGivenNames x; subst x)
    | (with_reducible first
        | assumption | apply Kept.ite | apply State.busRead_kept | (refine Kept.fst_of_eq (by assumption) ?_; apply State.busRead_kept)
        | apply State.defaultTarget_kept)
    | split

theorem State.tlmItems_kept {s₀ : State} {s : State} (y0 : Nat) (hK : Kept s₀ s) : Kept s₀ (State.tlmItems s y0).1 := by
  induction y0 with
  | zero => exact hK
  | succ k ih =>
    have h := State.tlmItem_kept k ih
    unfold State.tlmItems
    dsimp only
    split
    · exact State.raise_kept _ (State.bump_kept _ _ h)
    · exact h

theorem State.tlmWrite_kept {s₀ : State} {s : State} (n : Nat) (hK : Kept s₀ s) : Kept s₀ (State.tlmWrite s n) := by
  unfold State.tlmWrite
  repeat' first
    | (extract_lets +onlyGivenNames x; refine Kept.cut (t := x) ?_ fun _ => ?_; on_goal 1 => subst x; on_goal 2 => clear_value x)
    | (extract_lets +onlyGivenNames x; subst x)
    | (with_reducible first
        | assumption | apply State.busWrite_kept | apply State.setReg_kept | apply State.tlmItems_kept
        | (refine Kept.fst_of_eq (by assumption) ?_; apply State.tlmItems_kept))
    | split

theorem execTelemetryRecord_kept {s₀ : State} (abandoned : Bool) {s : State} (hK :
    Kept s₀ s) : KeptRes s₀ (execTelemetryRecord abandoned s) := by
  unfold execTelemetryRecord
  repeat' first
    | (extract_lets +onlyGivenNames x; refine Kept.cut (t := x) ?_ fun _ => ?_; on_goal 1 => subst x; on_goal 2 => clear_value x)
    | (extract_lets +onlyGivenNames x; subst x)
    | (with_reducible first
        | assumption | apply Kept.ite | apply KeptRes.next | apply KeptRes.ite | apply State.bump_kept | apply State.raise_kept
        | apply State.setTlm_kept | apply State.tlmWrite_kept)

end Sys2Proof.Machine
end

