-- ==== Sys2Proof/Machine/Pins.lean ====
section
/-!
DEFINITION. The 484 balls of the package: which net each is (22 R540 to R542), and the type, supply and pull of each signal (22 R543, R551). What
the balls of the AIO bank, the GPIO balls, the lanes and the clock outputs carry is in Machine/Balls.lean.
-/
namespace Sys2Proof.Machine

/-- Power and ground nets (22 R542). -/
inductive Rail where
  | vddCore | vddSram | vddaLane | vddhLane | vddq | vdd2 | vddaPll | vddioAio | vddioGen | vss
  deriving DecidableEq, Repr

/-- Signals of one DRAM channel (22 R541). -/
inductive DdrSignal where
  | dq (i : Nat) | rdqs (i : Nat) | ca (i : Nat) | ckT | ckC | cs (i : Nat) | wckT | wckC
  deriving DecidableEq, Repr

/-- The net of a ball (22 R541); a differential signal says whether the ball is its _P half. -/
inductive Net where
  | rail (r : Rail)
  | aio (n : Nat) | gpio (n : Nat)
  | oscIn | refin (i : Nat) | wclkIn | fpIn | lpIn | ppsIn
  | mclkOut (i : Nat) | wclkOut | fpOut | lpOut | ppsOut | clkOk
  | leaseOut | leaseIn | peerAlive | fenceN
  | qspiSck | qspiCsN | qspiIo (i : Nat)
  | svcSck | svcCsN | svcMosi | svcMiso | svcScl | svcSda | mdc | mdio
  | tck | tms | tdi | tdo | trstN
  | porN | rstN | irqN (i : Nat) | errN | boot (i : Nat) | devid (i : Nat)
  | tdiode (p : Bool) | laneRext
  | refclkPcie (p : Bool) | refclkNet (p : Bool) | refclkNrx (p : Bool)
  | laneTx (n : Nat) (p : Bool) | laneRx (n : Nat) (p : Bool)
  | ddr (channel : Nat) (signal : DdrSignal)
  deriving DecidableEq, Repr

/-! ## The ball map (R541); columns count from 1, rows from A = 1 to AC = 22 -/

/-- Row E: references, clock outputs and fail-over. -/
def rowE (c : Nat) : Net :=
  match c with
  | 1 => .oscIn | 2 => .refin 0 | 3 => .refin 1 | 4 => .wclkIn | 5 => .fpIn | 6 => .lpIn | 7 => .ppsIn
  | 8 => .mclkOut 0 | 9 => .mclkOut 1 | 10 => .mclkOut 2 | 11 => .wclkOut | 12 => .fpOut | 13 => .lpOut | 14 => .ppsOut
  | 15 => .clkOk | 16 => .leaseOut | 17 => .leaseIn | 18 => .peerAlive | 19 => .fenceN
  | 20 => .rail .vddioGen | 21 => .rail .vddaPll | _ => .rail .vss

/-- Row F: flash, service ports and JTAG. -/
def rowF (c : Nat) : Net :=
  match c with
  | 1 => .qspiSck | 2 => .qspiCsN | 3 => .qspiIo 0 | 4 => .qspiIo 1 | 5 => .qspiIo 2 | 6 => .qspiIo 3
  | 7 => .svcSck | 8 => .svcCsN | 9 => .svcMosi | 10 => .svcMiso | 11 => .svcScl | 12 => .svcSda | 13 => .mdc | 14 => .mdio
  | 15 => .tck | 16 => .tms | 17 => .tdi | 18 => .tdo | 19 => .trstN
  | 20 => .rail .vddioGen | 21 => .rail .vddaPll | _ => .rail .vss

/-- Row G: resets, interrupts and GPIO. -/
def rowG (c : Nat) : Net :=
  match c with
  | 1 => .porN | 2 => .rstN | 3 => .irqN 0 | 4 => .irqN 1 | 5 => .errN | 22 => .rail .vddioGen | _ => .gpio (c - 6)

/-- Row H: straps and the thermal diode. -/
def rowH (c : Nat) : Net :=
  match c with
  | 1 => .boot 0 | 2 => .boot 1 | 3 => .devid 0 | 4 => .devid 1 | 5 => .devid 2 | 6 => .tdiode true | 7 => .tdiode false
  | _ => if c % 2 = 0 then .rail .vss else .rail .vddCore

/-- Row P. -/
def rowP (c : Nat) : Rail :=
  if c ≤ 4 then .vddSram
  else if c ≤ 11 then (if c % 2 = 1 then .vss else .vddCore)
  else if c ≤ 17 then .vddaLane else if c ≤ 21 then .vddhLane else .vss

/-- The DRAM patterns, columns 1 to 11. -/
def dramPattern (pattern channel c : Nat) : Net :=
  match pattern with
  | 1 => if c ≤ 8 then .ddr channel (.dq (c - 1)) else if c = 9 then .ddr channel (.rdqs 0) else if c = 10 then .rail .vddq else .rail .vss
  | 2 => if c ≤ 8 then .ddr channel (.dq (c + 7)) else if c = 9 then .ddr channel (.rdqs 1) else if c = 10 then .rail .vss else .rail .vddq
  | 3 =>
    if c ≤ 7 then .ddr channel (.ca (c - 1)) else if c = 8 then .ddr channel .ckT else if c = 9 then .ddr channel .ckC
    else if c = 10 then .rail .vddq else .rail .vss
  | _ =>
    match c with
    | 1 => .ddr channel (.cs 0) | 2 => .ddr channel (.cs 1) | 3 => .ddr channel .wckT | 4 => .ddr channel .wckC
    | 6 => .rail .vddq | 8 | 10 => .rail .vdd2 | _ => .rail .vss

/-- The lane pattern, columns 12 to 21, of the three lanes from `n`. -/
def lanePattern (tx : Bool) (n c : Nat) : Net :=
  let lane := n + (c - 13) / 3
  if c % 3 = 0 then .rail .vss else if tx then .laneTx lane (c % 3 == 1) else .laneRx lane (c % 3 == 1)

/-- Rows T to AC: a DRAM pattern, a lane pattern and column 22. -/
def lowerRow (r c : Nat) : Net :=
  let k := r - 15
  if c ≤ 11 then dramPattern (4 - k % 4) (1 - k / 4) c
  else if c ≤ 21 then lanePattern (k % 2 == 1) (9 - 3 * (k / 2)) c
  else match k with
    | 0 => .refclkNrx false | 1 => .refclkNrx true | 2 => .refclkNet false | 3 => .refclkNet true
    | 4 => .refclkPcie false | 5 => .refclkPcie true | 6 => .laneRext | _ => .rail .vss

/-- The ball in row `r` and column `c` (22 R541); none outside the 22 × 22 grid. -/
def ballAt (r c : Nat) : Option Net :=
  if r = 0 ∨ 22 < r ∨ c = 0 ∨ 22 < c then none
  else if r ≤ 4 then some (if c ≤ 20 then .aio (20 * (r - 1) + (c - 1)) else if c = 21 then .rail .vddioAio else .rail .vss)
  else if r = 5 then some (rowE c) else if r = 6 then some (rowF c) else if r = 7 then some (rowG c) else if r = 8 then some (rowH c)
  else if r ≤ 13 then some (.rail (if c = 1 ∨ c = 22 then .vddSram else if (r + c) % 2 = 0 then .vss else .vddCore))
  else if r = 14 then some (.rail (rowP c))
  else some (lowerRow r c)

/-- Every ball of the package, row by row. -/
def allBalls : List Net := (List.range 484).filterMap fun i => ballAt (i / 22 + 1) (i % 22 + 1)

/-! ## Ball functions (R543) -/

/-- The type of a signal ball. -/
inductive BallType where
  | byRole | clockIn | input | output | threeState | bidirectional | openDrain | analogue | cmlOut | cmlIn | differentialIn | lpddr5
  deriving DecidableEq, Repr

/-- The type of a signal ball (22 R543). -/
def Net.type : Net → Option BallType
  | .rail _ => none
  | .aio _ | .gpio _ => some .byRole
  | .oscIn => some .clockIn
  | .refin _ | .wclkIn | .fpIn | .lpIn | .ppsIn | .leaseIn | .peerAlive | .svcSck | .svcCsN | .svcMosi | .tck | .tms | .tdi | .trstN
  | .porN | .rstN | .boot _ | .devid _ => some .input
  | .mclkOut _ | .wclkOut | .fpOut | .lpOut | .ppsOut | .clkOk | .leaseOut | .fenceN | .qspiSck | .qspiCsN | .mdc => some .output
  | .svcMiso | .tdo => some .threeState
  | .qspiIo _ | .mdio => some .bidirectional
  | .svcScl | .svcSda | .irqN _ | .errN => some .openDrain
  | .tdiode _ | .laneRext => some .analogue
  | .laneTx _ _ => some .cmlOut
  | .laneRx _ _ => some .cmlIn
  | .refclkPcie _ | .refclkNet _ | .refclkNrx _ => some .differentialIn
  | .ddr _ _ => some .lpddr5

/-- The supplies of a signal ball (22 R543). -/
def Net.supply : Net → List Rail
  | .rail _ | .tdiode _ => []
  | .aio _ => [.vddioAio]
  | .laneTx _ _ | .laneRx _ _ => [.vddaLane, .vddhLane]
  | .refclkPcie _ | .refclkNet _ | .refclkNrx _ | .laneRext => [.vddaLane]
  | .ddr _ _ => [.vddq, .vdd2]
  | _ => [.vddioGen]

/-- The internal pull of a signal ball: up, down or none (22 R543). -/
def Net.pull : Net → Option Bool
  | .aio _ | .gpio _ | .refin _ | .wclkIn | .fpIn | .lpIn | .ppsIn | .leaseIn | .peerAlive | .trstN => some false
  | .qspiCsN | .qspiIo _ | .svcCsN | .mdio | .tms | .tdi | .rstN => some true
  | _ => none

/-- What the JTAG port's IDCODE reads (22 R551). -/
def jtagIdcode : BitVec 32 := 0x29632A5F

end Sys2Proof.Machine
end

