-- ==== Sys2Proof/WellFormed.lean ====
section
/-!
DEFINITION. Well-formed commands: the operands lie in what the device's fields and bursts can carry. The types of the operands hold most
of it; what stands here is the rest. No meaning rests on it: every meaning is total.
-/
namespace Sys2Proof

/-- An update of an RC field stays within the 32-bit word (00 R10). -/
def RcUpdate.inWord : RcUpdate → Bool
  | .add l w _ => decide (l + w ≤ 32)
  | .offer l w _ => decide (l + w ≤ 32)

/-- A burst carries 1 to 256 bytes (17 R422). -/
def Burst.wellFormed (b : Burst) : Bool := decide (1 ≤ b.data.length) && decide (b.data.length ≤ 256)

/-- A Nerax frame carries 256 payload bytes and a type of four bits (14 R361). -/
def NrxFrame.wellFormed (f : NrxFrame) : Bool := decide (f.payload.length = 256) && decide (f.type < 16)

/-- A temperature sample is of the four sensors (20 R516). -/
def Monitor.wellFormed : Monitor → Bool
  | .temperature t => decide (t.length = 4)
  | .rail _ _ => true

/-- The operands of a command are within their ranges. -/
def Instr.wellFormed (i : Instr) : Bool :=
  match i with
  | .registerWrite _ _ bytes _ _ => decide (1 ≤ bytes) && decide (bytes ≤ 256)
  | .rcRead _ updates => updates.all RcUpdate.inWord
  | .wideLowWordRead _ => true
  | .wideHighWordWrite _ _ => true
  | .shFieldTakesEffect _ => true
  | .tickBoundary _ => true
  | .sampleEdge _ inputs => inputs.all fun e => decide (e.1 < 16)
  | .bargeCommit _ _ _ => true
  | .creditReturn _ => true
  | .lockCrossingComplete _ _ => true
  | .captureCommit _ => true
  | .consumerDeadline _ => true
  | .lateBargeDiscard _ => true
  | .egressDeadline _ => true
  | .domainRealignment _ => true
  | .bootAttempt _ _ => true
  | .bootSourceFailure _ => true
  | .dpllBootWaitExpiry _ => true
  | .firstAudio _ => true
  | .hostPushChunk _ _ => true
  | .pushChunkTaken => true
  | .neraxBootFrame _ _ => true
  | .powerOnReset _ _ _ => true
  | .deviceReset => true
  | .glbRstWrite _ => true
  | .modeRequestWrite _ => true
  | .stagingComplete _ _ => true
  | .overlayTake => true
  | .takeRefusedLate => true
  | .residentModeChange => true
  | .takeAbort => true
  | .hardwareModeRequest _ _ => true
  | .engineTickStrobe _ _ => true
  | .engineGateOpen _ => true
  | .engineStartDeadline _ => true
  | .engineOutletCommit _ _ => true
  | .engineWindowAccess _ _ _ _ _ => true
  | .programPageSwapRequest _ => true
  | .paramPageSwapRequest _ => true
  | .paramCopyEnd _ => true
  | .engineRelockEnd _ => true
  | .nop _ _ => true
  | .mpy _ _ _ _ _ _ => true
  | .mac _ _ _ _ _ _ => true
  | .macn _ _ _ _ _ _ => true
  | .clr _ _ _ => true
  | .lda _ _ _ _ => true
  | .add _ _ _ _ => true
  | .sub _ _ _ _ => true
  | .adda _ _ _ _ => true
  | .suba _ _ _ _ => true
  | .neg _ _ _ => true
  | .abs _ _ _ => true
  | .cmp _ _ _ _ => true
  | .max _ _ _ _ => true
  | .min _ _ _ _ => true
  | .lim _ _ _ => true
  | .exp _ _ _ _ => true
  | .norm _ _ _ _ => true
  | .ash _ _ _ _ => true
  | .ld _ _ _ _ _ _ _ => true
  | .st _ _ _ _ _ _ => true
  | .stSat _ _ _ _ _ _ => true
  | .take _ _ _ _ _ => true
  | .send _ _ _ _ => true
  | .sendSat _ _ _ _ => true
  | .storeBufferWrite _ _ => true
  | .ldi _ _ _ => true
  | .mov _ _ _ => true
  | .ashi _ _ _ => true
  | .lea _ _ _ => true
  | .bra _ _ _ => true
  | .doLoop _ _ _ => true
  | .dor _ _ _ => true
  | .brk _ => true
  | .park _ => true
  | .substitutionStart _ => true
  | .substitutionRelockEnd _ => true
  | .substitutionCopyEnd _ => true
  | .substitutionReady _ => true
  | .substitutionCut _ => true
  | .substitutionCutCommand _ => true
  | .substitutionRelease _ => true
  | .substitutionCutBack _ => true
  | .substitutionAbort _ => true
  | .substitutionAutoFail _ _ => true
  | .basinGroupProcess _ ecc => ecc.all fun e => decide (e.1 < 2 ^ 20)
  | .basinPhaseEnd => true
  | .basinDeadline => true
  | .bankWindowAccess _ _ bytes _ _ _ => decide (1 ≤ bytes) && decide (bytes ≤ 256)
  | .bankCopyRequest => true
  | .bankCopyEnd => true
  | .sceneTakeRequest _ => true
  | .sceneTake => true
  | .sceneTakeLate => true
  | .crossfadeEnd => true
  | .rampPush _ _ => true
  | .rampStart _ _ => true
  | .rampEnd => true
  | .routeWrite _ _ => true
  | .routeTakesEffect _ => true
  | .routerHoldRelease => true
  | .routerHop _ ecc => ecc.all fun e => decide (e.1 < 2 ^ 13)
  | .routerDeadline _ => true
  | .fmpGainWrite _ _ _ _ => true
  | .fmpCtrlChange _ _ => true
  | .bridgeInputTake _ _ => true
  | .bridgeOutputCommit _ _ _ _ => true
  | .bridgeUnlock _ _ _ => true
  | .bridgeResync _ => true
  | .bridgeLock _ _ _ => true
  | .bridgeSyncRequest _ _ => true
  | .bridgeSyncLost _ => true
  | .cicOutput _ _ _ => true
  | .firSwapRequest _ => true
  | .firSwap _ => true
  | .firSwapCrossfadeEnd _ => true
  | .movingAverageHop _ _ => true
  | .maCfgTakesEffect _ => true
  | .flcEccUncorrectable _ => true
  | .inmaskChange _ => true
  | .outmaskChange _ => true
  | .formatApply _ => true
  | .formatChangeFadeOut _ => true
  | .formatChangeTake _ => true
  | .formatChangeDone _ => true
  | .slaveFrameStart _ _ _ _ => true
  | .bclkStopped _ _ => true
  | .fsLost _ => true
  | .slaveLock _ => true
  | .rateGateEnd _ _ => true
  | .ampLoopPeriod _ rail _ => decide (rail.length = 8)
  | .ampGroupEnable _ _ => true
  | .ampChannelEnable _ => true
  | .ampBootEnd _ => true
  | .ampCmRampEnd _ => true
  | .ampFadeOutEnd _ => true
  | .ampOffReached _ => true
  | .cycleByCycleLimit _ bits => decide (bits.length = 31)
  | .shortCircuitTrip _ bits => decide (bits.length = 31)
  | .driverFault _ => true
  | .senseLost _ => true
  | .ampRetry _ => true
  | .ampRetryReset _ => true
  | .ampClear _ => true
  | .drvFltReleaseHoldEnd _ => true
  | .railQualified _ => true
  | .ampSafeRelease _ => true
  | .calibrationWindow _ _ => true
  | .candidateWindowClose _ _ => true
  | .candidateStrayEdge _ => true
  | .candidateFirstEdge _ => true
  | .candidateQualified _ => true
  | .frequencyInterval _ _ => true
  | .driftFit _ => true
  | .crossCheckOutvoted _ => true
  | .timeCandidateSourceLoss _ => true
  | .waitToRestoreExpiry _ => true
  | .forceWrite _ _ _ => true
  | .switchCaptureStart _ => true
  | .switchCaptureEnd _ _ => true
  | .passThroughRampEnd _ => true
  | .dpllStageAdvance _ _ _ => true
  | .imagoFallback _ _ => true
  | .cocoonEntry _ _ => true
  | .cocoonExit _ => true
  | .clkHoldWrite _ _ _ => true
  | .alignLost _ _ => true
  | .realignWrite _ => true
  | .pulseOutputRealign _ => true
  | .pulseOutputPulse _ _ => true
  | .oscInStopped => true
  | .oscWarn => true
  | .timeSnap => true
  | .timeBaseLoad _ _ => true
  | .timeBaseStep _ _ => true
  | .timeBaseAdjWrite _ _ => true
  | .servoMeasurement _ _ _ => true
  | .measurementTimeout _ => true
  | .derivedSourceChange _ => true
  | .derivedWtrExpiry _ => true
  | .derivedProfileEnd _ => true
  | .txTimestampEntry _ _ _ _ => true
  | .txqPop _ => true
  | .linkUp _ _ => true
  | .linkDown _ => true
  | .frameReceive _ _ _ => true
  | .softwareFrameTransmit _ _ => true
  | .softwareFrameAged _ => true
  | .streamPacketLaunch _ => true
  | .txStreamEnable _ => true
  | .rxStreamEnable _ => true
  | .lpiEntry _ => true
  | .lpiWake _ => true
  | .laneSynthLock _ => true
  | .laneSignalDetect _ => true
  | .laneCdrLock _ => true
  | .laneCtleConverged _ _ => true
  | .laneDfeConverged _ _ => true
  | .laneAdaptTimeout _ => true
  | .laneSignalLoss _ _ => true
  | .readaptWrite _ => true
  | .readaptEnd _ _ _ => true
  | .elasticBufferUnit _ _ => true
  | .elasticBufferRecentre _ _ => true
  | .embeddedClockFallback _ => true
  | .embeddedClockReturn _ => true
  | .refclkLost _ => true
  | .refclkReturn _ => true
  | .loopModeWrite _ _ => true
  | .prbsCtrlWrite _ _ => true
  | .prbsCheckerLock _ _ _ _ => true
  | .injectOnce _ => true
  | .scanStart _ _ => true
  | .scanDone _ _ => true
  | .rxIdleTimeout _ => true
  | .neraxFrameReceive _ f _ _ => f.wellFormed
  | .neraxAckSend _ => true
  | .neraxNakReplay _ _ => true
  | .neraxAckTimeout _ => true
  | .neraxBargeAssembled _ _ _ => true
  | .neraxMessageSend _ => true
  | .neraxAligned _ => true
  | .identityFrame _ _ => true
  | .neraxLinkUp _ => true
  | .neraxStateTimeout _ => true
  | .neraxLinkDown _ => true
  | .timingFrameSend _ => true
  | .timingFrameReceive _ _ _ _ => true
  | .leadTimingLoss _ => true
  | .leaseRenewal => true
  | .leaseRenewalReceived _ _ => true
  | .leaseEchoReceived _ _ => true
  | .foreignLeaseEdge => true
  | .departPattern => true
  | .departReceived => true
  | .peerAliveLow => true
  | .peerAliveHigh => true
  | .keeperFenceTimeout => true
  | .leaseTake => true
  | .secondKeeperFound => true
  | .claim => true
  | .yieldRequest => true
  | .yieldHandover => true
  | .yieldCancel => true
  | .mirrorRecord _ _ => true
  | .mirrorCrcCompare _ _ _ _ => true
  | .resyncStart => true
  | .resyncCopyEnd => true
  | .resyncCompareEnd => true
  | .resyncAbort => true
  | .dramRequest _ _ => true
  | .dramRefresh bank _ => decide (bank < 128)
  | .mr4Read _ _ => true
  | .rtPanicEntry => true
  | .rtBargeLost _ _ _ => true
  | .driftMeasurement _ => true
  | .retrainStart => true
  | .retrainSlice _ _ => true
  | .retrainDone => true
  | .burstGrant _ arrivals => arrivals.all Burst.wellFormed
  | .defaultTargetBurst b => b.wellFormed
  | .masterReset _ => true
  | .swIdxWrite _ _ => true
  | .descriptorFetch _ _ => true
  | .descriptorComplete _ _ => true
  | .peripheralRequest _ => true
  | .requestWithdrawn _ _ => true
  | .frameRxDma _ => true
  | .tickModeTransfer _ => true
  | .dmaDisable _ => true
  | .dmaEnable _ => true
  | .dmaAbrupt _ => true
  | .pcieInboundRequest _ _ _ _ data => !data.isEmpty
  | .pcieOutboundRequest b => b.wellFormed
  | .pcieReset _ => true
  | .msixMessageSend _ => true
  | .evtEoi _ => true
  | .evtSw _ => true
  | .evtRouteWrite _ _ => true
  | .sampleCompare _ => true
  | .eventLevelRise _ => true
  | .irqRelease _ => true
  | .gpioSample _ _ => true
  | .gpioChatterEnd _ => true
  | .gpioStuck _ => true
  | .spiWrite _ _ bytes => decide (1 ≤ bytes) && decide (bytes ≤ 4)
  | .spiRead _ => true
  | .spiStatus => true
  | .i2cCommand _ => true
  | .i2cCommandEnd _ _ => true
  | .mdioCommand _ _ => true
  | .faultReport _ _ _ => true
  | .fltAck _ => true
  | .fltClear _ => true
  | .persistentCauseEnd _ _ => true
  | .errNPulseEnd => true
  | .errHoldWrite _ => true
  | .watchdogExpiry => true
  | .watchdogKick _ => true
  | .injectionArm _ => true
  | .injectionFire => true
  | .injectedReport _ => true
  | .faultLogPop => true
  | .weirRequest _ => true
  | .weirGrant => true
  | .weirReturn _ => true
  | .weirWithdraw _ => true
  | .requestStarving _ => true
  | .budgetWrite _ => true
  | .coreCurrentMeasurement _ => true
  | .dredgerBurst _ => true
  | .dredgerBurstDue _ => true
  | .dredgerPassEnd _ => true
  | .dredgerEnableWrite _ => true
  | .monitorSample m => m.wellFormed
  | .telemetryRecord _ => true
  | .imageReplacementStart _ => true
  | .imageReplacementTake => true
  | .imageReplacementAbort => true
  | .replacementBuildIdMismatch _ => true
  | .receiveIdleSignalReturn _ => true
  | .pcieLinkUp _ _ => true
  | .pcieConfigRequest _ => true
  | .outboundCompletion _ _ => true
  | .outboundCompletionTimeout => true
  | .jtagRegacc _ _ _ => true
  | .pathLost _ => true
  | .armingTimeExpiry => true

end Sys2Proof
end

