-- ==== Sys2Proof/Tests/Slice0.lean ====
section
/-!
SUPPORT. Tests of the model: each check of well-formedness refuses an ill-formed command; single commands on small states, with results
from the spec's own examples or by hand from its rules; and, for each statement with hypotheses, states and operands that meet them
(the theorems named witness_<statement>, one conjunct for each case of the statement).
-/
namespace Sys2Proof.Tests
set_option maxRecDepth 20000
set_option Elab.async false
open Sys2Proof Sys2Proof.Machine

/-! ## Well-formedness: an ill-formed command for each check -/

theorem test_wf_write_too_long : (Instr.registerWrite 4 0x20 257 0 0).wellFormed = false := by decide
theorem test_wf_write_empty : (Instr.registerWrite 4 0x20 0 0 0).wellFormed = false := by decide
theorem test_wf_update_outside_word : (Instr.rcRead 0x20 [.add 20 13 1]).wellFormed = false := by decide
theorem test_wf_offer_outside_word : (Instr.rcRead 0x20 [.offer 16 17 1]).wellFormed = false := by decide
theorem test_wf_input_port : (Instr.sampleEdge 0 [(16, [])]).wellFormed = false := by decide
theorem test_wf_rail_bits : (Instr.ampLoopPeriod 0 [true] false).wellFormed = false := by decide
theorem test_wf_limit_bits : (Instr.cycleByCycleLimit 0 [true]).wellFormed = false := by decide
theorem test_wf_trip_bits : (Instr.shortCircuitTrip 0 []).wellFormed = false := by decide
theorem test_wf_basin_word : (Instr.basinGroupProcess 0 [(2 ^ 20, .corrected)]).wellFormed = false := by decide +kernel
theorem test_wf_window_size : (Instr.bankWindowAccess 4 0 0 none .clean false).wellFormed = false := by decide
theorem test_wf_hop_word : (Instr.routerHop 3 [(8192, .corrected)]).wellFormed = false := by decide +kernel
theorem test_wf_frame_type :
    (Instr.neraxFrameReceive 0 ⟨16, 0, 0, 0, 0, List.replicate 256 0⟩ true 0).wellFormed = false := by decide +kernel
theorem test_wf_frame_payload : (Instr.neraxFrameReceive 0 ⟨1, 0, 0, 0, 0, []⟩ true 0).wellFormed = false := by decide +kernel
theorem test_wf_bank : (Instr.dramRefresh 128 true).wellFormed = false := by decide
theorem test_wf_granted_burst : (Instr.burstGrant 0 [⟨3, 0, true, [], []⟩]).wellFormed = false := by decide
theorem test_wf_default_burst : (Instr.defaultTargetBurst ⟨3, 0, true, [], []⟩).wellFormed = false := by decide
theorem test_wf_inbound_data : (Instr.pcieInboundRequest .bar0 0 true false []).wellFormed = false := by decide
theorem test_wf_outbound_burst : (Instr.pcieOutboundRequest ⟨3, 0, true, [], []⟩).wellFormed = false := by decide
theorem test_wf_spi_bytes : (Instr.spiWrite 0 0 5).wellFormed = false := by decide
theorem test_wf_temperatures : (Instr.monitorSample (.temperature [1, 2, 3])).wellFormed = false := by decide
theorem test_wf_update_in_word : (Instr.rcRead 0x20 [.add 20 12 1]).wellFormed = true := by decide

/-! ## Single commands -/

/-- The next state of a command, or the state itself. -/
def after (c : Instr) (s : Machine.State) : Machine.State :=
  match exec c s with
  | .next t => t
  | .fault _ => s
  | .refused _ => s

/-- An engine that runs a segment. -/
def running (e : Engine) : Machine.State :=
  ({ Machine.State.reset with engines := [(3, e)] }.wr (R.ENGn_STATUS_state 3) 3).wr (R.ENGn_STATUS_domain 3) 0

/-- A lock of depth 3 with `credit` credits. -/
def lockOf (credit : Nat) : Machine.Lock :=
  { spec := ⟨7, 3, 0, .tdm 0, .engine 3, [0], 1⟩, credit := credit, flight := [], present := [], missed := [], asm := [], last := none, refade := none }

/-- No row of the table gives bits, so no word spells a command. -/
theorem test_no_word_decodes : decodeTableWord 32 0x12345678 = none := by decide
theorem test_withFetchWord_keeps : Machine.State.reset.withFetchWord 32 5 = Machine.State.reset := by decide +kernel

/-- An empty queue: one cycle of 4 ns passes (log entry 2). -/
theorem test_idle : (match step Machine.State.reset with | .next t => t.now | _ => 0) = 1 := by decide +kernel
theorem test_step_takes_front :
    (match step { Machine.State.reset with pending := [.pulseOutputRealign 1, .deviceReset] } with
      | .next t => decide (t.pending = [.deviceReset]) && (t.pulseOut 1).realign
      | _ => false) = true := by decide +kernel

/-- 00 R13: a W1C bit written 1 clears, one written 0 stays. -/
theorem test_w1c : (after (.registerWrite 4 0x140038 4 1 0) (Machine.State.reset.setReg R.MTX_INT_STATUS 3)).reg R.MTX_INT_STATUS = 2 := by decide +kernel
/-- 21 R525: a power-on reset is cause 1. -/
theorem test_power_on_cause : (after (.powerOnReset 1 5 ⟨false, false, false, 0, 0⟩) Machine.State.reset).reg R.GLB_RESET_CAUSE = 1 := by decide +kernel
/-- 01 R22: a commit takes a credit; a return gives it back up to the depth. -/
theorem test_commit : ((after (.bargeCommit 7 4 [1]) (Machine.State.reset.setLock 7 (lockOf 2))).lock 7).map (·.credit) = some 1 := by decide +kernel
theorem test_credit_limit : ((after (.creditReturn 7) (Machine.State.reset.setLock 7 (lockOf 3))).lock 7).map (·.credit) = some 3 := by decide +kernel

/-- 05 R137: 0.5 times 0.5 is 0.25 in the accumulator frame s8.47. -/
theorem test_mpy : ((after (.mpy 3 0 0 1 2 true) (running { d := [(1, 0x400000), (2, 0x400000)] })).eng 3).acc 0 = 0x200000000000 := by decide +kernel
/-- 05 R151, its example: 0.09375 has the shift count 3 and normalises to 0.75. -/
theorem test_norm :
    ((after (.norm 3 0 4 true) (running { a := [(0, 0x0C0000000000)] })).eng 3).acc 0 = 0x600000000000 ∧
    ((after (.norm 3 0 4 true) (running { a := [(0, 0x0C0000000000)] })).eng 3).dReg 4 = 3 := by decide +kernel
/-- 05 R150: an arithmetic shift right of a negative accumulator keeps its sign. -/
theorem test_ashi : ((after (.ashi 3 0 (-4)) (running { a := [(0, 0xF0000000000000)] })).eng 3).acc 0 = 0xFF000000000000 := by decide +kernel

/-- 03 R76: CRC-32C of the nine bytes "123456789" is the published check value. -/
theorem test_crc32c : crc32c [0x31, 0x32, 0x33, 0x34, 0x35, 0x36, 0x37, 0x38, 0x39] = 0xE3069283 := by decide +kernel
/-- 11 R301: an adjustment above 500 ppm is clamped, and the clamp is reported. -/
theorem test_adjust_clamps :
    (after (.timeBaseAdjWrite 1 (BitVec.ofNat 32 (501 * 65536))) (Machine.State.reset.wr (R.TBn_CTRL_mode 1) 1)).reg (R.TBn_ADJ 1)
      = BitVec.ofNat 32 (500 * 65536) := by decide +kernel
/-- 00 R14: a bit set in the cycle of the write that clears it stays set. -/
theorem test_w1c_same_cycle :
    (after (.registerWrite 4 0x140038 4 3 1) (Machine.State.reset.setReg R.MTX_INT_STATUS 3)).reg R.MTX_INT_STATUS = 1 := by decide +kernel
/-- 22 R540: 484 balls, of which 263 carry signals, and so many of each supply. -/
theorem test_ball_counts : (allBalls.length, (allBalls.filter fun n => n.type.isSome).length) = (484, 263) := by decide +kernel
theorem test_rail_counts :
    ([.vddCore, .vddSram, .vddaLane, .vddhLane, .vddq, .vdd2, .vddaPll, .vddioAio, .vddioGen, .vss] : List Rail).map
      (fun r => (allBalls.filter fun n => n == .rail r).length) = [60, 14, 6, 4, 8, 4, 2, 4, 3, 116] := by decide +kernel
/-- 22 R541, its example: LN4_RXN is ball Y17. -/
theorem test_ball_lane : ballAt 19 17 = some (.laneRx 4 false) := by decide
/-- 13 R348: a compensation unit above the centre takes one unit out. -/
theorem test_elastic :
    (after (.elasticBufferUnit 4 21) ((Machine.State.reset.wr (R.LANEn_CFG_protocol 4) 1).wr (R.LANEn_STATUS_state 4) 6)).rd ⟨R.LANEn_EB 4, 0, 6⟩ = 20 := by
  decide +kernel
/-- 19 R498: a report by software outside MAINTENANCE is refused. -/
theorem test_injection_refused : (after (.injectedReport 0x80030045) Machine.State.reset).is R.FLT_INT_STATUS_inj_refused = true := by decide +kernel

/-! ## States that meet the hypotheses of the statements -/

def sets (s : Machine.State) (l : List (FieldAt × Nat)) : Machine.State := l.foldl (fun s p => s.wr p.1 p.2) s
def run0 : Machine.State := sets { Machine.State.reset with doms := [(0,{b:=96, sample:=960}),(1,{b:=48,sample:=480}),(2,{b:=32,sample:=650})] }
  [(R.GLB_BOOT_STATUS_state,6),(R.CLK_DOMx_CFG_rate 0,4),(R.CLK_DOMx_CFG_rate 1,2),(R.CLK_DOMx_CFG_rate 2,1),(R.CLK_DOMx_CFG_started 0,1),(R.CLK_DOMx_CFG_started 1,1),(R.CLK_DOMx_CFG_started 2,1)]
def ds (a : Nat) : RegDesc := (descAt a).getD ⟨"",0,0,0,0,0,0,0,0,0,0,0,0,0⟩
def secE (kind : Nat) : List Byte := leBytes 2 kind ++ leBytes 2 0 ++ leBytes 4 0x250 ++ leBytes 4 0 ++ leBytes 4 0
def ovE (m fl off len : Nat) (crc : Word) : List Byte := leBytes 1 m ++ leBytes 1 fl ++ leBytes 2 0 ++ leBytes 4 off ++ leBytes 4 len ++ leBytes 4 crc.toNat
def hdr0 (modes : Nat) : List Byte := leBytes 4 0x36394753 ++ leBytes 2 3 ++ leBytes 2 0x100 ++ leBytes 4 0x9632 ++ leBytes 1 0 ++ leBytes 1 0 ++ leBytes 2 0 ++
  leBytes 4 0x264 ++ leBytes 2 9 ++ leBytes 2 12 ++ leBytes 4 0x100 ++ leBytes 4 0x190 ++ leBytes 4 7 ++ leBytes 8 0x1122334455667788 ++ leBytes 2 modes ++ leBytes 1 0 ++ leBytes 1 0 ++ leBytes 4 0x1000 ++ List.replicate 200 0
def imgBytes (modes : Nat) : List Byte :=
  let h := hdr0 modes
  h ++ leBytes 4 (crc32c h).toNat ++ ([1,2,3,4,0xF,0xC,0x11,0x12,7].flatMap secE) ++
  ((List.range 12).flatMap fun m => if m = 0 then ovE m 0 0x250 4 (crc32c [0,0,0,0]) else if m = 11 then ovE m 8 0x260 4 (crc32c [0,0,0,0]) else ovE m 4 0 0 0) ++
  List.replicate 20 0
def cont0 : Content := {}
def img0 : Image := { bytes := imgBytes 1, sections := [1,2,3,4,0xF,0xC,0x11,0x12,7].map fun k => ⟨k, 0, some cont0⟩, payloads := [] }

/-! ### registers and the bus -/
namespace TestAccess

def shs := (match exec (.registerWrite 4 0x110410 4 0x1234 0) (run0.wr (R.AMP_GRPa_CFG_assigned 0) 1) with | .next t => t | _ => run0)
def state1 : Machine.State := (run0.wr (R.AMP_GRPa_CFG_assigned 0) 1)
def state2 : Machine.State := (run0.setReg 0x30020 0x50007)
def state3 : Machine.State := (run0.setReg 0x20 0x50007)
def spi := run0.wr spiEnable 1
def state4 : Machine.State := (run0.wr spiEnable 0)
def bu (m : MasterIx) (a : Addr) (w : Bool) (n : Nat): Burst := ⟨m,a,w,List.replicate n 7,[]⟩
def state5 : Machine.State := (sets {run0 with pcie := {outstanding := [(3,5,6)]}, xbar := { waiting := [(bu 3 0 false 8, 5), (bu 2 0 false 8, 5)]}} [])
def pc := sets run0 [(pcieLink,1),(R.GLB_BOOT_STATUS_state,6)]
def state6 : Machine.State := {shs with doms := [(0,{b:=96, sample:=961}),(1,{b:=48,sample:=481}),(2,{b:=32,sample:=651})]}
def waiting1 : Machine.State := { Machine.State.reset with pending := [.deviceReset] }
/-- A canonical state from which a step answers a next state. -/
theorem witness_StepKeepsCanonicalForm : waiting1.canon ∧ ∃ t, step waiting1 = .next t := ⟨⟨by decide +kernel, by decide +kernel⟩, _, rfl⟩

/-- States and operands that meet the hypotheses of the clauses of RegisterWritesByAccessType. -/
theorem witness_RegisterWritesByAccessType :
    ((56 < 1835008 ∧ 56 % 4 = 0 ∧ run0.hidden 56 = false ∧ descAt 56 = some (ds 56) ∧ (run0.answer []).specialWrite 4 56 21#32 = none ∧ 56 ≠ R.CFG_MODE_REQ ∧
      (mirroredBlock 56 = true → run0.mirrors = false ∧ run0.mirrored = false)) ∧ reaches 4 4 = true ∧ (ds 56).wlen ≤ 1 ∧
      BitVec.ofNat 32 (ds 56).rw ||| BitVec.ofNat 32 (ds 56).w1c ||| BitVec.ofNat 32 (ds 56).sh ≠ 0#32) ∧
    ((0 < 1835008 ∧ 0 % 4 = 0 ∧ run0.hidden 0 = false ∧ descAt 0 = some (ds 0) ∧ (run0.answer []).specialWrite 4 0 21#32 = none ∧ 0 ≠ R.CFG_MODE_REQ ∧
      (mirroredBlock 0 = true → run0.mirrors = false ∧ run0.mirrored = false)) ∧ reaches 4 4 = true ∧ (ds 0).wlen ≤ 1 ∧
      BitVec.ofNat 32 (ds 0).rw ||| BitVec.ofNat 32 (ds 0).w1c ||| BitVec.ofNat 32 (ds 0).sh = 0#32) ∧
    ((1115152 < 1835008 ∧ 1115152 % 4 = 0 ∧ state1.hidden 1115152 = false ∧ descAt 1115152 = some (ds 1115152) ∧
      (state1.answer []).specialWrite 4 1115152 31#32 = none ∧ 1115152 ≠ R.CFG_MODE_REQ ∧ (mirroredBlock 1115152 = true → state1.mirrors = false ∧
      state1.mirrored = false)) ∧ reaches 4 4 = true ∧ (ds 1115152).wlen ≤ 1 ∧
      BitVec.ofNat 32 (ds 1115152).rw ||| BitVec.ofNat 32 (ds 1115152).w1c ||| BitVec.ofNat 32 (ds 1115152).sh ≠ 0#32 ∧ BitVec.ofNat 32 (ds 1115152).sh ≠ 0#32) ∧
    (descAt 1115152 = some (ds 1115152) ∧ (ds 1115152).sh ≠ 0 ∧ shs.shBoundary 1115152 = true ∧ shs.shWaits 1115152 = true ∧ shs.shEffect 1115152 = shs.shTake 1115152) ∧
    (state6.shBoundary 1115152 = false) := by
  refine ⟨?_, ?_, ?_, ?_, ?_⟩ <;> decide +kernel

/-- States and operands that meet the hypotheses of the clauses of ReadsThatClearAndWideValues. -/
theorem witness_ReadsThatClearAndWideValues :
    ((196640 < 1835008 ∧ 196640 % 4 = 0 ∧ state2.hidden 196640 = false ∧ descAt 196640 = some (ds 196640) ∧
      state2.regRead 196640 = state2.commonRead 196640 (ds 196640)) ∧ (ds 196640).wpos = 0 ∧ (ds 196640).rc % 2 ^ 16 = 65535 ∧ resetValue 196640 = 0#32) ∧
    (32 = 28 + 4 ∧ (ds 28).wlen = 2 ∧ (ds 28).wpos = 0 ∧ (ds 32).wlen = 2 ∧ (ds 32).wpos = 1 ∧ (28 < 1835008 ∧ 28 % 4 = 0 ∧ state3.hidden 28 = false ∧
      descAt 28 = some (ds 28) ∧ state3.regRead 28 = state3.commonRead 28 (ds 28)) ∧ descAt 32 = some (ds 32) ∧ (ds 28).rc = 0) ∧
    (32 = 28 + 4 ∧ (ds 28).wlen = 2 ∧ (ds 28).wpos = 0 ∧ (ds 32).wlen = 2 ∧ (ds 32).wpos = 1 ∧ (32 < 1835008 ∧ 32 % 4 = 0 ∧ state3.hidden 32 = false ∧
      descAt 32 = some (ds 32) ∧ state3.regRead 32 = state3.commonRead 32 (ds 32)) ∧ (ds 32).rc = 0) ∧
    (32 = 28 + 4 ∧ (ds 28).wlen = 2 ∧ (ds 28).wpos = 0 ∧ (ds 32).wlen = 2 ∧ (ds 32).wpos = 1 ∧ (28 < 1835008 ∧ 28 % 4 = 0 ∧ state3.hidden 28 = false ∧
      descAt 28 = some (ds 28) ∧ (state3.answer []).specialWrite 4 28 5#32 = none ∧ 28 ≠ R.CFG_MODE_REQ ∧ (mirroredBlock 28 = true → state3.mirrors = false ∧
      state3.mirrored = false)) ∧ (ds 28).rw ≠ 0) ∧
    (32 = 28 + 4 ∧ (ds 28).wlen = 2 ∧ (ds 28).wpos = 0 ∧ (ds 32).wlen = 2 ∧ (ds 32).wpos = 1 ∧ (32 < 1835008 ∧ 32 % 4 = 0 ∧ state3.hidden 32 = false ∧
      descAt 32 = some (ds 32) ∧ (state3.answer []).specialWrite 4 32 6#32 = none ∧ 32 ≠ R.CFG_MODE_REQ ∧ (mirroredBlock 32 = true → state3.mirrors = false ∧
      state3.mirrored = false)) ∧ descAt 28 = some (ds 28) ∧ (ds 28).rw ≠ 0 ∧ (ds 32).rw ≠ 0 ∧ (ds 28).w1c = 0 ∧ (ds 32).w1c = 0 ∧ (ds 28).sh = 0 ∧ (ds 32).sh = 0) := by
  refine ⟨?_, ?_, ?_, ?_, ?_⟩ <;> decide +kernel

/-- States and operands that meet the hypotheses of the clauses of ServicePorts. -/
theorem witness_ServicePorts :
    ((56 < 1835008 ∧ 56 % 4 = 0 ∧ run0.hidden 56 = false ∧ descAt 56 = some (ds 56) ∧ (run0.answer []).specialWrite (Config.serviceMaster % 8) 56 5#32 = none ∧
      56 ≠ R.CFG_MODE_REQ ∧ (mirroredBlock 56 = true → run0.mirrors = false ∧ run0.mirrored = false)) ∧ (ds 56).wlen ≤ 1 ∧ (ds 56).rw ≠ 0 ∧ (ds 56).sh = 0 ∧
      (ds 56).w1c = 0 ∧ run0.is spiEnable = true) ∧
    ((56 < 1835008 ∧ 56 % 4 = 0 ∧ run0.hidden 56 = false ∧ descAt 56 = some (ds 56) ∧ run0.regRead 56 = run0.commonRead 56 (ds 56)) ∧ (ds 56).wpos = 0 ∧
      (ds 56).rc = 0 ∧ run0.is spiEnable = true) ∧
    (spi.is spiEnable = true ∧ 1835008 ≤ 1835008) ∧
    (state4.is spiEnable = false) := by
  refine ⟨?_, ?_, ?_, ?_⟩ <;> decide +kernel

/-- States and operands that meet the hypotheses of the clauses of BusBursts. -/
theorem witness_BusBursts :
    (run0.xbar.waiting = [] ∧ burstLegal (bu 3 (BitVec.ofNat 40 ssmBase) true 8) = true ∧
      burstCause 3 (BitVec.toNat (bu 3 (BitVec.ofNat 40 ssmBase) true 8).addr) = none ∧ targetOf (BitVec.toNat (bu 3 (BitVec.ofNat 40 ssmBase) true 8).addr) = 1 ∧
      run0.is (drainBit 3) = false ∧ (bu 3 (BitVec.ofNat 40 ssmBase) true 8).write = true) ∧
    (run0.xbar.waiting = [] ∧ burstLegal (bu 3 (BitVec.ofNat 40 ssmBase) false 8) = true ∧
      burstCause 3 (BitVec.toNat (bu 3 (BitVec.ofNat 40 ssmBase) false 8).addr) = none ∧ targetOf (BitVec.toNat (bu 3 (BitVec.ofNat 40 ssmBase) false 8).addr) = 1 ∧
      run0.is (drainBit 3) = false ∧ (bu 3 (BitVec.ofNat 40 ssmBase) false 8).write = false) ∧
    (burstCause 3 (BitVec.toNat (bu 3 (1342177280#40) false 8).addr) = some 0 ∧ run0.is R.XBAR_ERR_INFO_valid = false) ∧
    (run0.xbar.waiting = [] ∧ burstLegal (bu 0 (4294967296#40) false 8) = true ∧ burstLegal (bu 3 (4294967296#40) false 8) = true ∧ run0.dmcRoom = true ∧
      (bu 0 (4294967296#40) false 8).master = 0 ∧ (bu 3 (4294967296#40) false 8).master = 3 ∧ (bu 3 (4294967296#40) false 8).write = false ∧
      (bu 0 (4294967296#40) false 8).write = false ∧ targetOf (BitVec.toNat (bu 0 (4294967296#40) false 8).addr) = 0 ∧
      targetOf (BitVec.toNat (bu 3 (4294967296#40) false 8).addr) = 0 ∧ run0.is (drainBit 0) = false ∧ run0.is (drainBit 3) = false) ∧
    (((state5.pcie.outstanding.any fun x => decide (x.1 = 3)) = true)) := by
  refine ⟨?_, ?_, ?_, ?_, ?_⟩ <;> decide +kernel

/-- States and operands that meet the hypotheses of the clauses of InboundRequests. -/
theorem witness_InboundRequests :
    ((run0.is pcieLink = false ∨ run0.rd pcieD ≠ 0)) ∧
    (pc.is pcieLink = true ∧ pc.rd pcieD = 0 ∧ pc.rd R.GLB_BOOT_STATUS_state < 7 ∧ 5 < 2 ^ 26) ∧
    (pc.is pcieLink = true ∧ pc.rd pcieD = 0 ∧ pc.rd R.GLB_BOOT_STATUS_state < 7 ∧ 5 < 2 ^ 24 ∧ ([] : List Byte).length ≠ 4) ∧
    (pc.is pcieLink = true ∧ pc.rd pcieD = 0 ∧ pc.rd R.GLB_BOOT_STATUS_state < 7 ∧ 2 ^ 26 ≤ 2 ^ 26) ∧
    (pc.is pcieLink = true ∧ pc.rd pcieD = 0 ∧ pc.rd R.GLB_BOOT_STATUS_state < 7 ∧ 3 * 2 ^ 24 ≤ 3 * 2 ^ 24 + 16 ∧ 3 * 2 ^ 24 + 16 + 4 ≤ 3 * 2 ^ 24 + 8388608 ∧
      (3 * 2 ^ 24 + 16) % 4 = 0) := by
  refine ⟨?_, ?_, ?_, ?_, ?_⟩ <;> decide +kernel

/-- States and operands that meet the hypotheses of the clauses of UnassignedAndMisalignedAccesses. -/
theorem witness_UnassignedAndMisalignedAccesses :
    (reaches 4 4 = true ∧ (57#40).toNat < 0x1C0000 ∧ (57#40).toNat % 4 ≠ 0) ∧
    (0x1C0000 ≤ (0x1C0000#40).toNat ∧ (0x1C0000#40).toNat < 0x10000000) ∧
    ((68#40).toNat < 0x1C0000 ∧ (68#40).toNat % 4 = 0 ∧ descAt (68#40).toNat = none) := by
  refine ⟨?_, ?_, ?_⟩ <;> decide +kernel

/-- States and operands that meet the hypotheses of the clauses of StepRunsTheFrontCommand. -/
theorem witness_StepRunsTheFrontCommand :
    (waiting1.pending = .deviceReset :: []) ∧
    (Machine.State.reset.pending = []) := by
  refine ⟨?_, ?_⟩ <;> decide +kernel

end TestAccess

/-! ### steps, locks and samples -/
namespace TestLocks

def sp (p c : Endpoint) (dom : DomIx) (depth : Nat) (hops : Nat := 1) : LockSpec := ⟨7, depth, dom, p, c, [0,1], hops⟩
def lk (sp : LockSpec) (credit : Nat) : Lock := { spec := sp, credit := credit, flight := [], present := [], missed := [], asm := [], last := none, refade := none }
def k1 := lk (sp (.tdm 0) (.engine 3) 0 3) 2
def state1 : Machine.State := (run0.setLock 7 k1)
def state2 : Machine.State := (run0.setLock 7 {k1 with credit := 0})
def b1 : Barge := ⟨9,[1,2,3]⟩
def k2 := { lk (sp (.engine 3) (.amp 1) 0 3) 2 with flight := [b1] }
def state3 : Machine.State := (run0.setLock 7 k2)
def state4 : Machine.State := (run0.setLock 7 {k2 with missed := [9]})
def state5 : Machine.State := (run0.setLock 7 {k2 with present := [b1], flight := []})
def k3 := { k1 with asm := List.replicate 192 5 }
def state6 : Machine.State := (run0.setLock 7 k3)
def state7 : Machine.State := (run0.setLock 7 {k3 with credit := 0})
def state8 : Machine.State := (run0.setLock 7 k3)
def state9 : Machine.State := ((run0.setLock 7 k3).wr R.FLT_STATUS_halted 1)
def state10 : Machine.State := ((run0.setLock 7 k3).setDom 0 {b := 96, sample := 960, realignAt := some 960})
def k9 : Machine.Lock := { k1 with present := [b1] }
def state11 : Machine.State := (run0.setLock 7 k9)
def held1 : Machine.Lock := { k2 with flight := [] }

/-- States and operands that meet the hypotheses of the clauses of BargesMoveByCredit. -/
theorem witness_BargesMoveByCredit :
    (state1.lock 7 = some k1 ∧ 0 < k1.credit) ∧
    (state1.lock 7 = some k1 ∧ k1.present = []) ∧
    (state2.lock 7 = some { spec := k1.spec, credit := 0, flight := k1.flight, present := k1.present, missed := k1.missed, asm := k1.asm, last := k1.last, refade := k1.refade : Lock } ∧
      { spec := k1.spec, credit := 0, flight := k1.flight, present := k1.present, missed := k1.missed, asm := k1.asm, last := k1.last, refade := k1.refade : Lock }.credit = 0) ∧
    (state11.lock 7 = some k9 ∧ k9.present = b1 :: default) ∧
    ((run0.setLock 7 k1).lock 7 = some k1 ∧ 0 < k1.credit ∧ k1.credit < k1.spec.depth) := by
  refine ⟨?_, ?_, ?_, ?_, ?_⟩ <;> decide +kernel

/-- States and operands that meet the hypotheses of the clauses of CrossingsAndDeadlines. -/
theorem witness_CrossingsAndDeadlines :
    (state3.halted = false ∧ state3.lock 7 = some k2 ∧ k2.flight = [b1] ∧ k2.gaveUp b1.tick = false ∧ state3.fov.exact.contains 7 = false ∧
      ((match k2.spec.consumer with | Endpoint.tdm _ => true | Endpoint.amp _ => true | Endpoint.txStream _ => true | Endpoint.delayLine _ => true | Endpoint.dma _ => true | Endpoint.basin => true | Endpoint.bridge _ => true | _ => false) = true)) ∧
    (state4.halted = false ∧
      state4.lock 7 = some { spec := k2.spec, credit := k2.credit, flight := k2.flight, present := k2.present, missed := [9], asm := k2.asm, last := k2.last, refade := k2.refade : Lock } ∧
      { spec := k2.spec, credit := k2.credit, flight := k2.flight, present := k2.present, missed := [9], asm := k2.asm, last := k2.last, refade := k2.refade : Lock }.flight = [b1] ∧
      { spec := k2.spec, credit := k2.credit, flight := k2.flight, present := k2.present, missed := [9], asm := k2.asm, last := k2.last, refade := k2.refade : Lock }.gaveUp b1.tick = true ∧
      state4.mirrored = false) ∧
    (state5.halted = false ∧
      state5.lock 7 = some { spec := k2.spec, credit := k2.credit, flight := [], present := [b1], missed := k2.missed, asm := k2.asm, last := k2.last, refade := k2.refade : Lock } ∧
      { spec := k2.spec, credit := k2.credit, flight := [], present := [b1], missed := k2.missed, asm := k2.asm, last := k2.last, refade := k2.refade : Lock }.spec.consumer = Endpoint.amp 1 ∧
      state5.started 0 = true ∧ (state5.dom 0).b ≠ 0 ∧
      state5.emitTick { spec := k2.spec, credit := k2.credit, flight := [], present := [b1], missed := k2.missed, asm := k2.asm, last := k2.last, refade := k2.refade : Lock } (state5.tick 0) = some 9 ∧
      (state5.awaits 7 9).isSome = true) ∧
    (state6.halted = false ∧ state6.lock 7 = some k3 ∧ k3.spec.producer = Endpoint.tdm 0 ∧ state6.started 0 = true ∧ (state6.dom 0).b ≠ 0 ∧
      (state6.dom 0).first < state6.tick 0 ∧ k3.asm.length = state6.bargeWords k3 ∧ state6.fovState = 0 ∧ 0 < k3.credit) ∧
    (state7.halted = false ∧
      state7.lock 7 = some { spec := k3.spec, credit := 0, flight := k3.flight, present := k3.present, missed := k3.missed, asm := k3.asm, last := k3.last, refade := k3.refade : Lock } ∧
      { spec := k3.spec, credit := 0, flight := k3.flight, present := k3.present, missed := k3.missed, asm := k3.asm, last := k3.last, refade := k3.refade : Lock }.spec.producer = Endpoint.tdm 0 ∧
      state7.started 0 = true ∧ (state7.dom 0).b ≠ 0 ∧ (state7.dom 0).first < state7.tick 0 ∧
      { spec := k3.spec, credit := 0, flight := k3.flight, present := k3.present, missed := k3.missed, asm := k3.asm, last := k3.last, refade := k3.refade : Lock }.asm.length = state7.bargeWords { spec := k3.spec, credit := 0, flight := k3.flight, present := k3.present, missed := k3.missed, asm := k3.asm, last := k3.last, refade := k3.refade : Lock } ∧
      state7.fovState = 0 ∧
      { spec := k3.spec, credit := 0, flight := k3.flight, present := k3.present, missed := k3.missed, asm := k3.asm, last := k3.last, refade := k3.refade : Lock }.credit = 0) ∧
    ((run0.setLock 7 held1).halted = false ∧ (run0.setLock 7 held1).lock 7 = some held1 ∧ held1.spec.consumer = .amp 1 ∧ (run0.setLock 7 held1).started 0 = true ∧
      ((run0.setLock 7 held1).dom 0).b ≠ 0 ∧ (run0.setLock 7 held1).emitTick held1 ((run0.setLock 7 held1).tick 0) = some 9 ∧
      (run0.setLock 7 held1).awaits 7 9 = none ∧ held1.gaveUp 9 = false) := by
  refine ⟨?_, ?_, ?_, ?_, ?_, ?_⟩ <;> decide +kernel

/-- States and operands that meet the hypotheses of the clauses of SamplesAndTickBoundaries. -/
theorem witness_SamplesAndTickBoundaries :
    (state8.started 0 = true ∧ (state8.dom 0).b ≠ 0 ∧ state8.halted = false ∧ state8.atBoundary 0 = true ∧ (∀ u < 2, (state8.sub u).abortAt = none) ∧
      state8.cfg.laterRegs = [] ∧ state8.cfg.laterContents = [] ∧ state8.cfg.laterWords = [] ∧ state8.fov.waiting = [] ∧ state8.layers.shPending = [] ∧
      (∀ k < 4, state8.linkState k ≠ 5)) ∧
    (state9.started 1 = true ∧ (state9.dom 1).b ≠ 0 ∧ state9.halted = true) ∧
    (state10.started 0 = true ∧ (state10.dom 0).b ≠ 0 ∧ (state10.dom 0).realignAt = some (state10.dom 0).sample ∧ state10.atBoundary 0 = true) := by
  refine ⟨?_, ?_, ?_⟩ <;> decide +kernel

end TestLocks

/-! ### modes, takes, resets and images -/
namespace TestTakes

def ov (m : Nat) (absent : Bool) (ws : List OvWrite) : Overlay := { mode := m, needsLeave := false, hasReplace := false, absent := absent, resident := m == 11, off := 0, len := 0, crc := crc32c [], valid := true, writes := ws, inForce := ws, words := [], replaces := [], contents := [] }
def ovs0 := (List.range 12).map fun m => ov m (m == 3) [⟨0x1B0100, 0xFF, BitVec.ofNat 32 (m+1)⟩]
def m0 := { (run0.setReg R.CFG_MODE_HELD 1).setReg R.CFG_MODE_REQ 1 with cfg := { overlays := ovs0, bootModes := 1, pendingSet := 1 } }
def state1 : Machine.State := (m0.wr R.GLB_REPL_STATUS_state 2)
def st0 := { m0 with cfg := { m0.cfg with pendingSet := 0x401 } } |>.setSeq seqStaging
def state2 : Machine.State := { st0 with cfg := { st0.cfg with overlays := ovs0.map fun o => { o with crc := 5 } } }
def state3 : Machine.State := (st0.setReg R.CFG_TAKE_CTRL 1)
def ar0 := sets ({ m0 with cfg := { m0.cfg with pendingSet := 0x401, staged := true } } |>.setSeq seqArmed) []
def state4 : Machine.State := (ar0.setDom 0 {b:=96, sample := 961})
def state5 : Machine.State := (m0.setReg R.CFG_MODE_REQ 0x801)
def bt := (State.reset.setReg R.GLB_STRAP 0)
def imgShort : Image := { img0 with bytes := img0.bytes.take 300 }
def state6 : Machine.State := { bt with glb := { attempts := 1 } }
def pu := State.reset.wr R.GLB_BOOT_STATUS_state 8
def state7 : Machine.State := { pu with glb := { chunk := some (5, true) } }
def state8 : Machine.State := (sets State.reset [(⟨R.GLB_STRAP,0,2⟩,2), (R.NRXk_STATUS_state 0,5)])
def state9 : Machine.State := (sets { run0 with glb := { clocksWaiting := [1] } } [(R.GLB_BOOT_STATUS_state,5)])
def state10 : Machine.State := (sets { run0 with cfg := { bootModes := 1 } } [(R.GLB_BOOT_STATUS_state,5)])
/-- A running state whose shadow holds the test image. -/
def shadowed : Machine.State := { run0 with
  dram := (imgBytes 1).zipIdx.filterMap fun e => if e.1 = 0 then none else some (e.2, e.1), cfg := { imageBytes := 612 } }
def imgC : Image := { bytes := imgBytes 1 |>.set 0x191 1, sections := [1,2,3,4,0xF,0xC,0x11,0x12,7].map fun k => ⟨k, 0, some (if k = 0xF then { regs := [(R.WEIR_MODE_COSTm 0, 5), (R.WEIR_BUDGET, 100)] } else cont0)⟩, payloads := [] }
def costly : Machine.State := { run0.setReg R.CFG_MODE_HELD 1 with dram := imgC.bytes.zipIdx.filterMap fun e => if e.1 = 0 then none else some (e.2, e.1), cfg := { imageBytes := 612 } }
def early2 : Machine.State := { run0.wr (R.NRXk_STATUS_state 2) 5 with links := [(2, { differs := some 0 })], now := 2500000 }
def differs2 : Machine.State := { early2 with now := 2500001 }
def both2 : Machine.State := sets differs2 [(R.LANEn_STATUS_state 8, 6), (R.LANEn_STATUS_state 9, 6)]
def noImage : Image := { bytes := [], sections := [], payloads := [] }
def armed1 : Machine.State := { run0 with glb := { newImage := some noImage } }.wr R.GLB_REPL_STATUS_state 4

/-- States and operands that meet the hypotheses of the clauses of ModeRequests. -/
theorem witness_ModeRequests :
    (m0.replacing = false ∧ m0.basinRefusals (BitVec.setWidth 12 1#32) = 0#12 ∧ m0.owned R.CFG_MODE_REQ = 0#32 ∧ m0.rd R.FOV_STATUS_state ≠ 3 ∧
      ((hasMode (BitVec.setWidth 12 1#32) 1 || hasMode (BitVec.setWidth 12 1#32) 2) = true → m0.wantsSolo = true → m0.modeAbsent 2 = false) ∧
      hasMode (BitVec.setWidth 12 1#32) 0 ≠ (hasMode (BitVec.setWidth 12 1#32) 1 || hasMode (BitVec.setWidth 12 1#32) 2) ∧
      (∀ m < 3, (hasMode (BitVec.setWidth 12 1#32) m && (!hasMode m0.modeReq m && m0.modeAbsent m || m == 6 && (m0.holds 7 || hasMode (BitVec.setWidth 12 1#32) 7 && !m0.holds 6) || m == 7 && m0.holds 6)) = false)) ∧
    (m0.replacing = false ∧ m0.basinRefusals (BitVec.setWidth 12 1#32) = 0#12 ∧ m0.owned R.CFG_MODE_REQ = 0#32 ∧ m0.rd R.FOV_STATUS_state ≠ 3 ∧
      ((hasMode (BitVec.setWidth 12 1#32) 1 || hasMode (BitVec.setWidth 12 1#32) 2) = true → m0.wantsSolo = true → m0.modeAbsent 2 = false) ∧ 3 < 12 ∧ 3 ≤ 3) ∧
    (m0.replacing = false ∧ m0.basinRefusals (BitVec.setWidth 12 1033#32) = 0#12 ∧ m0.owned R.CFG_MODE_REQ = 0#32 ∧ m0.rd R.FOV_STATUS_state ≠ 3 ∧
      ((hasMode (BitVec.setWidth 12 1033#32) 1 || hasMode (BitVec.setWidth 12 1033#32) 2) = true → m0.wantsSolo = true → m0.modeAbsent 2 = false) ∧ 3 < 12 ∧
      (hasMode (BitVec.setWidth 12 1033#32) 3 && (!hasMode m0.modeReq 3 && m0.modeAbsent 3 || 3 == 6 && (m0.holds 7 || hasMode (BitVec.setWidth 12 1033#32) 7 && !m0.holds 6) || 3 == 7 && m0.holds 6)) = true) ∧
    (m0.replacing = false ∧ m0.basinRefusals (BitVec.setWidth 12 3#32) = 0#12 ∧ m0.owned R.CFG_MODE_REQ = 0#32 ∧ m0.rd R.FOV_STATUS_state ≠ 3 ∧
      ((hasMode (BitVec.setWidth 12 3#32) 1 || hasMode (BitVec.setWidth 12 3#32) 2) = true → m0.wantsSolo = true → m0.modeAbsent 2 = false) ∧
      hasMode (BitVec.setWidth 12 3#32) 0 = (hasMode (BitVec.setWidth 12 3#32) 1 || hasMode (BitVec.setWidth 12 3#32) 2)) ∧
    (state1.replacing = true) := by
  refine ⟨?_, ?_, ?_, ?_, ?_⟩ <;> decide +kernel

/-- States and operands that meet the hypotheses of the clauses of StagingEnds. -/
theorem witness_StagingEnds :
    (st0.rd R.GLB_REPL_STATUS_state ≠ 2 ∧ st0.seq = seqStaging ∧ st0.cfg.staged = false ∧ st0.cfg.prior = none ∧ 55 < 2 ^ 32 ∧
      st0.stagedOverlays.all (st0.overlayGood []) = true ∧ st0.pastPoint st0.cfgTakeAt = false) ∧
    (st0.seq ≠ seqIdle) ∧
    (st0.replacing = false ∧ (st0.seq = seqIdle ∨ st0.cfgTakeAt = none)) ∧
    (state2.rd R.GLB_REPL_STATUS_state ≠ 2 ∧ state2.seq = seqStaging ∧ state2.cfg.staged = false ∧ state2.cfg.prior = none ∧ 55 < 2 ^ 32 ∧
      state2.stagedOverlays.all (state2.overlayGood []) = false) ∧
    (m0.seq = seqIdle) ∧
    (state3.seq ≠ seqIdle ∧ state3.seq ≠ seqArmed ∧ state3.cfgTakeAt = some 0 ∧ 0 ≤ (state3.dom state3.takeDom).sample.toNat + 1) := by
  refine ⟨?_, ?_, ?_, ?_, ?_, ?_⟩ <;> decide +kernel

/-- States and operands that meet the hypotheses of the clauses of TakesChangeTheHeldSet. -/
theorem witness_TakesChangeTheHeldSet :
    (ar0.takeReady ar0.cfgTakeAt = true ∧ ar0.seq = seqArmed ∧
      (changedSections ar0.cfg.overlays (ar0.overlaysWith (ar0.settledSet ar0.cfg.pendingSet) ar0.cfg.stageContents) ar0.cfg.contents ar0.held (ar0.settledSet ar0.cfg.pendingSet) = [] ∧
      addedWords (1 - ar0.basin.now.bank) (ar0.overlaysWith (ar0.settledSet ar0.cfg.pendingSet) ar0.cfg.stageContents) ar0.held (ar0.settledSet ar0.cfg.pendingSet) = [] ∧
      (∀ r ∈ changedRegs ar0.cfg.overlays (ar0.overlaysWith (ar0.settledSet ar0.cfg.pendingSet) ar0.cfg.stageContents) ar0.held (ar0.settledSet ar0.cfg.pendingSet), quietReg r.1 = true) ∧
      (hasMode (ar0.settledSet ar0.cfg.pendingSet) 1 || hasMode (ar0.settledSet ar0.cfg.pendingSet) 2) = ar0.inPair ∧
      (ar0.holds 9 = true → hasMode (ar0.settledSet ar0.cfg.pendingSet) 9 = true))) ∧
    ((ar0.running = false ∨ ar0.atBoundary ar0.takeDom = false ∨ ar0.held &&& 1785#12 ||| ar0.residentSet = ar0.held)) ∧
    (ar0.is R.CFG_HWREQ_EN_holdover = false) ∧
    (m0.seq = seqIdle ∧ m0.cfg.prior = none) ∧
    (state4.takeReady state4.cfgTakeAt = false) ∧
    (state5.running = true ∧ state5.atBoundary state5.takeDom = true ∧ state5.held &&& 1785#12 ||| state5.residentSet ≠ state5.held ∧
      (changedSections state5.cfg.overlays state5.cfg.overlays state5.cfg.contents state5.held (state5.held &&& 1785#12 ||| state5.residentSet) = [] ∧
      addedWords (1 - state5.basin.now.bank) state5.cfg.overlays state5.held (state5.held &&& 1785#12 ||| state5.residentSet) = [] ∧
      (∀ r ∈ changedRegs state5.cfg.overlays state5.cfg.overlays state5.held (state5.held &&& 1785#12 ||| state5.residentSet), quietReg r.1 = true) ∧
      (hasMode (state5.held &&& 1785#12 ||| state5.residentSet) 1 || hasMode (state5.held &&& 1785#12 ||| state5.residentSet) 2) = state5.inPair ∧
      (state5.holds 9 = true → hasMode (state5.held &&& 1785#12 ||| state5.residentSet) 9 = true))) := by
  refine ⟨?_, ?_, ?_, ?_, ?_, ?_⟩ <;> decide +kernel

/-- States and operands that meet the hypotheses of the clauses of BootAttempts. -/
theorem witness_BootAttempts :
    (bt.bootSource = some 0 ∧ bt.mayLoad = true ∧ (2 ≤ 0 → bt.glb.pushLast = true) ∧
      (bt.attemptCode 0 (if 0 < 2 then img0 else { bytes := bt.glb.pushed, sections := img0.sections, payloads := img0.payloads : Image }) Training.trained = (1, true))) ∧
    (bt.bootSource = some 0 ∧ bt.mayLoad = true ∧ (2 ≤ 0 → bt.glb.pushLast = true) ∧ (32 = 32 ∨ 32 = 34) ∧ (0 = 0 ∨ 2 ≤ 0)) ∧
    (bt.bootSource = some 0 ∧ bt.mayLoad = true ∧ (2 ≤ 0 → bt.glb.pushLast = true) ∧ 0 = 0 ∧ 34 < 256 ∧
      (bt.attemptCode 0 (if 0 < 2 then imgShort else { bytes := bt.glb.pushed, sections := imgShort.sections, payloads := imgShort.payloads : Image }) Training.trained = (34, false))) ∧
    (bt.bootSource = some 0 ∧ bt.mayLoad = true ∧ (2 ≤ 0 → bt.glb.pushLast = true) ∧ 0 = 0 ∧ 18 < 256 ∧
      (bt.attemptCode 0 (if 0 < 2 then { bytes := (List.take 1000 img0.bytes).set 252 9#8, sections := img0.sections, payloads := img0.payloads : Image } else { bytes := bt.glb.pushed, sections := { bytes := (List.take 1000 img0.bytes).set 252 9#8, sections := img0.sections, payloads := img0.payloads : Image }.sections, payloads := { bytes := (List.take 1000 img0.bytes).set 252 9#8, sections := img0.sections, payloads := img0.payloads : Image }.payloads : Image }) Training.trained = (18, false)) ∧
      18 < 32) ∧
    (state6.bootSource = some 1 ∧ state6.mayLoad = true ∧ (2 ≤ 1 → state6.glb.pushLast = true) ∧ 1 = 1 ∧ (32 = 32 ∨ 32 = 34)) := by
  refine ⟨?_, ?_, ?_, ?_, ?_⟩ <;> decide +kernel

/-- States and operands that meet the hypotheses of the clauses of PushAndFirstAudio. -/
theorem witness_PushAndFirstAudio :
    (pu.rd R.GLB_BOOT_STATUS_state = 8 ∧ 0 < 1 ∧ 1 ≤ 4194304) ∧
    (pu.rd R.GLB_BOOT_STATUS_state = 8 ∧ (0 = 0 ∨ 4194304 < 0 ∧ 0 < 2 ^ 23)) ∧
    ((pu.rd R.GLB_BOOT_STATUS_state ≠ 5 ∨ pu.glb.clocksWaiting ≠ [])) ∧
    (state7.glb.chunk = some (5, true) ∧ state7.glb.pushLast = false) ∧
    (state8.bootStrap = 2 ∧ state8.mayLoad = true ∧ state8.linkState 0 = 5 ∧ state8.glb.pushLast = false) ∧
    (1 ∈ state9.glb.clocksWaiting) ∧
    (state10.rd R.GLB_BOOT_STATUS_state = 5 ∧ state10.glb.clocksWaiting = [] ∧ state10.started 0 = true) ∧
    (state10.rd R.GLB_BOOT_STATUS_state = 5 ∧ state10.glb.clocksWaiting = [] ∧ 0 < 32 ∧ state10.engDomain 0 < 3 ∧ state10.started (state10.engDomain 0) = true ∧
      state10.inPair = false) := by
  refine ⟨?_, ?_, ?_, ?_, ?_, ?_, ?_, ?_⟩ <;> decide +kernel

/-- States and operands that meet the hypotheses of the clauses of ImageReplacement. -/
theorem witness_ImageReplacement :
    (bt.running = false) ∧
    (bt.replacing = false) ∧
    ((bt.linkState 0 ≠ 5 ∨ (bt.link 0).differs = none ∨ ∃ t₀, (bt.link 0).differs = some t₀ ∧ bt.now ≤ t₀ + 2500000)) ∧
    (run0.running = true ∧ run0.replacementCode (run0.imageAt img0) = 16) ∧
    (shadowed.running = true ∧ shadowed.replacementCode (shadowed.imageAt img0) = 1) ∧
    (armed1.replacing = true) ∧
    (armed1.glb.newImage = some noImage ∧ armed1.rd R.GLB_REPL_STATUS_state = 4 ∧ armed1.takeReady armed1.replTakeAt = true ∧ armed1.replacedSections noImage = []) ∧
    (differs2.linkState 2 = 5 ∧ (differs2.link 2).differs = some 0 ∧ 0 + 2500000 < differs2.now ∧ ¬(differs2.laneState 8 = 6 ∧ differs2.laneState 9 = 6)) ∧
    (both2.linkState 2 = 5 ∧ (both2.link 2).differs = some 0 ∧ 0 + 2500000 < both2.now ∧ both2.laneState 8 = 6 ∧ both2.laneState 9 = 6) ∧
    (early2.linkState 2 = 5 ∧ (early2.link 2).differs = some 0 ∧ early2.now ≤ 0 + 2500000) ∧
    (run0.linkState 2 ≠ 5 ∧ (run0.link 2).differs = none) ∧
    (costly.running = true ∧ costly.replacementCode (costly.imageAt imgC) = 1 ∧ costly.extraLeave (costly.imageAt imgC) ≠ 0) := by
  refine ⟨?_, ?_, ?_, ?_, ?_, ?_, ?_, ?_, ?_, ?_, ?_, ?_⟩ <;> decide +kernel

/-- States and operands that meet the hypotheses of the clauses of Resets. -/
theorem witness_Resets :
    ((5#32) ≠ 0x5A5A0001) := by
  decide +kernel

end TestTakes

/-! ### engine instructions -/
namespace TestEngines

def sp (id : Nat) (p c : Endpoint) (dom : DomIx) (depth : Nat) (hops : Nat := 1) : LockSpec := ⟨id, depth, dom, p, c, [0,1], hops⟩
def lk (sp : LockSpec) (credit : Nat) : Lock := { spec := sp, credit := credit, flight := [], present := [], missed := [], asm := [], last := none, refade := none }
def e0 : Engine := { a := [(0,0x12345678901234),(1,0x80000000000000),(2,0x00FFFFFFFFFFFF),(3,0xFFF00000000000)], d := [(0,0x800000),(1,0x7FFFFF),(2,0x000001),(3,0xFFFFFF),(4,0x123456),(5,0x7),(6,0xFFFFC0)], p := [(0,5),(1,100)], m := [(0,3),(1,0xFFFF)], l := [(1,7)], pc := 20, tick := 10, outlets := [8], inlets := [some 7, none], sent := [(0,[1,2])] }
def q0 : Machine.State := sets ({ run0 with engines := [(3, e0)] }.setLock 7 { lk (sp 7 .basin (.engine 3) 0 3) 2 with present := [⟨10,[1,2,3]⟩] } |>.setLock 8 (lk (sp 8 (.engine 3) .basin 0 3) 2)) [(R.ENGn_STATUS_state 3, 3),(R.ENGn_STATUS_domain 3,0)]
def k7 := { lk (sp 7 .basin (.engine 3) 0 3) 2 with present := [⟨10,[1,2,3]⟩] }
def state1 : Machine.State := (q0.setEng 3 {e0 with dropped := [0]})
def state2 : Machine.State := (q0.wr (R.ENGn_STATUS_state 3) 2)
def state3 : Machine.State := (q0.setEng 3 { e0 with tick := 8 })
def state4 : Machine.State := ((q0.setEng 3 { e0 with tick := 8 }).wr (R.ENGn_STATUS_state 3) 4)
def state5 : Machine.State := ((q0.setEng 3 { e0 with tick := 8 }).wr (R.ENGn_STATUS_state 3) 1)
def state6 : Machine.State := (q0.setEng 3 {e0 with sent := [(0,List.replicate 192 1)]})
def state7 : Machine.State := (q0.wr (R.ENGn_STATUS_state 3) 2)
def state8 : Machine.State := (q0.wr (R.ENGn_STATUS_state 3) 2)
def state9 : Machine.State := (q0.wr (R.ENGn_STATUS_state 3) 0)
def state10 : Machine.State := (q0.wr (R.ENGn_STATUS_state 3) 1)
def state11 : Machine.State := ((q0.setEng 3 { e0 with param := [(1,5),(256,3),(300,4)], paramTouched := [0,2] }).wr (R.ENGn_PARAM_copy_busy 3) 1)
def q9 := ((q0.setEng 3 { e0 with tick := 9, inlets := [some 7, none] }).setLock 7 { k7 with present := [⟨9,[1,2,3]⟩, ⟨8,[]⟩] }).wr (R.ENGn_STATUS_state 3) 2
def state12 : Machine.State := (q0.setEng 3 { e0 with tick := 7 })
def state13 : Machine.State := (q0.setEng 3 {e0 with absent := [0]})
def looping : Machine.State := q0.setEng 3 { e0 with stack := [⟨5, 20, 3, false⟩], lc := 4 }
def heldEng : Machine.State := (q0.wr (R.ENGn_STATUS_state 3) 4).setEng 3 { e0 with inlets := [] }
def heldIn : Machine.State := (q9.wr (R.ENGn_STATUS_state 3) 4).setEng 3 { q9.eng 3 with outlets := [] , tick := 7 }

/-- States and operands that meet the hypotheses of the clauses of MultiplyAndAccumulatorArithmetic. -/
theorem witness_MultiplyAndAccumulatorArithmetic :
    (((q0.engState 3 = 3 ∧ q0.halted = false) ∧ (q0.eng 3).cur = { : InFlight } ∧ (q0.eng 3).delayed = [] ∧ (q0.eng 3).stack = [])) := by
  decide +kernel

/-- States and operands that meet the hypotheses of the clauses of CompareLimitAndShiftInstructions. -/
theorem witness_CompareLimitAndShiftInstructions :
    (((q0.engState 3 = 3 ∧ q0.halted = false) ∧ (q0.eng 3).cur = { : InFlight } ∧ (q0.eng 3).delayed = [] ∧ (q0.eng 3).stack = [])) := by
  decide +kernel

/-- States and operands that meet the hypotheses of the clauses of MemoryAndRegisterMoves. -/
theorem witness_MemoryAndRegisterMoves :
    (((q0.engState 3 = 3 ∧ q0.halted = false) ∧ (q0.eng 3).cur = { : InFlight } ∧ (q0.eng 3).delayed = [] ∧ (q0.eng 3).stack = []) ∧
      (¬(codeReg 0 = EngReg.a (0 - 8) ∧ codeReg 8 = EngReg.a (8 - 8)))) := by
  decide +kernel

/-- States and operands that meet the hypotheses of the clauses of PortTransfers. -/
theorem witness_PortTransfers :
    (((q0.engState 3 = 3 ∧ q0.halted = false) ∧ (q0.eng 3).cur = { : InFlight } ∧ (q0.eng 3).delayed = [] ∧ (q0.eng 3).stack = []) ∧
      (q0.eng 3).inletLock 0 = some 7 ∧ q0.lock 7 = some k7 ∧ q0.awaits 7 (q0.eng 3).tick = some { tick := 10, words := [1#24, 2#24, 3#24] : Barge } ∧
      (q0.eng 3).absent.contains 0 = false ∧ (Tab.get (fun _ => 0) (q0.eng 3).read 0 < k7.spec.channels.length * (q0.dom 0).b)) ∧
    (((q0.engState 3 = 3 ∧ q0.halted = false) ∧ (q0.eng 3).cur = { : InFlight } ∧ (q0.eng 3).delayed = [] ∧ (q0.eng 3).stack = []) ∧ 0 < (q0.eng 3).outlets.length ∧
      (q0.eng 3).dropped.contains 0 = false ∧ ((q0.eng 3).sentWords 0).length < q0.outletSize (q0.eng 3) 0) ∧
    (((q0.engState 3 = 3 ∧ q0.halted = false) ∧ (q0.eng 3).cur = { : InFlight } ∧ (q0.eng 3).delayed = [] ∧ (q0.eng 3).stack = []) ∧
      ((q0.eng 3).inletLock 1 = none ∨ (q0.eng 3).inletLock 1 = some 7 ∧ q0.lock 7 = some k7 ∧
      k7.spec.channels.length * (q0.dom 0).b ≤ Tab.get (fun _ => 0) (q0.eng 3).read 1)) ∧
    (((q0.engState 3 = 3 ∧ q0.halted = false) ∧ (q0.eng 3).cur = { : InFlight } ∧ (q0.eng 3).delayed = [] ∧ (q0.eng 3).stack = []) ∧
      ((q0.eng 3).outlets.length ≤ 1 ∨ (q0.eng 3).dropped.contains 1 = false ∧ ¬((q0.eng 3).sentWords 1).length < q0.outletSize (q0.eng 3) 1)) ∧
    (((state1.engState 3 = 3 ∧ state1.halted = false) ∧ (state1.eng 3).cur = { : InFlight } ∧ (state1.eng 3).delayed = [] ∧ (state1.eng 3).stack = []) ∧
      0 < (state1.eng 3).outlets.length ∧ (state1.eng 3).dropped.contains 0 = true) ∧
    (((state13.engState 3 = 3 ∧ state13.halted = false) ∧ (state13.eng 3).cur = { : InFlight } ∧ (state13.eng 3).delayed = [] ∧ (state13.eng 3).stack = []) ∧
      (state13.eng 3).inletLock 0 = some 7 ∧ state13.lock 7 = some k7 ∧ (state13.eng 3).absent.contains 0 = true ∧
      (Tab.get (fun _ => 0) (state13.eng 3).read 0 < k7.spec.channels.length * (state13.dom 0).b)) := by
  refine ⟨?_, ?_, ?_, ?_, ?_, ?_⟩ <;> decide +kernel

/-- States and operands that meet the hypotheses of the clauses of FlowInstructionsAndPark. -/
theorem witness_FlowInstructionsAndPark :
    ((q0.engState 3 = 3 ∧ q0.halted = false) ∧ (q0.eng 3).cur = { : InFlight } ∧ (q0.eng 3).delayed = [] ∧ (q0.eng 3).stack = [] ∧ (q0.eng 3).pc < 25#13 ∧ 7#16 ≠ 0#16) ∧
    ((q0.engState 3 = 3 ∧ q0.halted = false) ∧ (q0.eng 3).cur = { : InFlight } ∧ (q0.eng 3).delayed = [] ∧ (q0.eng 3).stack = [] ∧ ((q0.eng 3).readCode 40).2 = false) ∧
    ((q0.engState 3 = 3 ∧ q0.halted = false) ∧ (q0.eng 3).cur = { : InFlight } ∧ (q0.eng 3).delayed = [] ∧ (q0.eng 3).stack = [] ∧ 20#13 ≤ (q0.eng 3).pc) ∧
    ((q0.engState 3 = 3 ∧ q0.halted = false) ∧ (q0.eng 3).lateNext = false ∧ (q0.eng 3).storesX.length ≤ 2 ∧ (q0.eng 3).storesY.length ≤ 2) ∧
    ((looping.engState 3 = 3 ∧ looping.halted = false) ∧ (looping.eng 3).cur = {} ∧ (looping.eng 3).delayed = [] ∧ (looping.eng 3).stack = [⟨5, 20, 3, false⟩] ∧
      (looping.eng 3).pc = 20 ∧ 1 < (looping.eng 3).lc.toNat ∧ (looping.eng 3).cache = none) := by
  refine ⟨?_, ?_, ?_, ?_, ?_⟩ <;> decide +kernel

/-- States and operands that meet the hypotheses of the clauses of EngineGatesAndDeadlines. -/
theorem witness_EngineGatesAndDeadlines :
    (state2.halted = false ∧ state2.engDomain 3 < 3 ∧ (state2.dropOlder (state2.eng 3)).gateReady 3 = false) ∧
    (state3.halted = false ∧ state3.engDomain 3 < 3 ∧ state3.engState 3 = 3 ∧ (state3.eng 3).tick + 1 < state3.tick (state3.engDomain 3)) ∧
    (state3.halted = false ∧ state3.engDomain 3 < 3 ∧ state3.engState 3 = 3 ∧ state3.tick (state3.engDomain 3) < (state3.eng 3).tick + 3) ∧
    (state4.halted = false ∧ state4.engDomain 3 < 3 ∧ state4.engState 3 = 4 ∧ (state4.eng 3).tick + 1 ≤ state4.tick (state4.engDomain 3)) ∧
    (state5.halted = false ∧ state5.engDomain 3 < 3 ∧ (state5.engState 3 = 1 ∨ state5.engState 3 = 2) ∧ (state5.eng 3).tick + 2 ≤ state5.tick (state5.engDomain 3)) ∧
    (state6.halted = false ∧ state6.engDomain 3 < 3 ∧ state6.engState 3 = 3 ∧ (state6.eng 3).outlets[0]? = some 8 ∧
      state6.outletSize (state6.eng 3) 0 ≤ ((state6.eng 3).sentWords 0).length ∧ (state6.eng 3).committed.contains 0 = false ∧
      (state6.eng 3).dropped.contains 0 = false ∧ state6.isPrepared 3 = false) ∧
    (q9.halted = false ∧ q9.engDomain 3 < 3 ∧ (q9.dropOlder (q9.eng 3)).gateReady 3 = true) ∧
    (q9.halted = false ∧ q9.engDomain 3 < 3 ∧ q9.engState 3 = 2 ∧ (q9.eng 3).tick + 1 ≤ q9.tick (q9.engDomain 3) ∧ q9.isPrepared 3 = false) ∧
    (state12.halted = false ∧ state12.engDomain 3 < 3 ∧ state12.engState 3 = 3 ∧ (state12.eng 3).tick + 3 ≤ state12.tick (state12.engDomain 3)) ∧
    (heldEng.engState 3 = 4 ∧ (heldEng.eng 3).outlets = [8] ∧ (heldEng.eng 3).inletLocks = [] ∧ 0 < (((heldEng.lock 8).map (·.credit)).getD 0)) ∧
    (heldIn.engState 3 = 4 ∧ (heldIn.eng 3).tick + 1 ≤ heldIn.tick 0 ∧ (heldIn.eng 3).outlets = [] ∧ (heldIn.eng 3).inletLocks = [7] ∧
      (heldIn.lock 7).isSome = true ∧ heldIn.awaits 7 7 = none) := by
  refine ⟨?_, ?_, ?_, ?_, ?_, ?_, ?_, ?_, ?_, ?_, ?_⟩ <;> decide +kernel

/-- States and operands that meet the hypotheses of the clauses of EngineWindowsAndPages. -/
theorem witness_EngineWindowsAndPages :
    (q0.engState 3 = 3 ∧ ((q0.waits.any fun p => decide (p.engine = 3 ∧ p.user = WindowUser.towpath)) = false)) ∧
    (q0.engState 3 ≠ 0 ∧ q0.engDomain 3 ≠ 3 ∧ (q0.eng 3).swapAt = [] ∧ (q0.eng 3).paramSwapAt = []) ∧
    (state7.engState 3 ≠ 3 ∧ 196608 ≤ 196615) ∧
    (state8.engState 3 ≠ 3 ∧ 131072 ≤ 131079 ∧ 131079 < 196608 ∧ (state8.eng 3).paramOn = false) ∧
    (state9.engState 3 = 0 ∧ state9.is (R.ENGn_PARAM_copy_busy 3) = false) ∧
    (state10.engState 3 = 1) ∧
    (state11.is (R.ENGn_PARAM_copy_busy 3) = true ∧ (state11.eng 3).paramSwapAt = [] ∧ 0 < 256) := by
  refine ⟨?_, ?_, ?_, ?_, ?_, ?_, ?_⟩ <;> decide +kernel

/-- States and operands that meet the hypotheses of the clauses of OperationsOfOneInstruction. -/
theorem witness_OperationsOfOneInstruction :
    (q0.engState 3 = 3 ∧ q0.halted = false) := by
  decide +kernel

end TestEngines

/-! ### substitution -/
namespace TestSubstitution

def e0 : Engine := { a := [(0,0x12345678901234)], d := [(0,0x800000)], pc := 20, tick := 10, outlets := [8], inlets := [some 7, none], sent := [(0,[1,2])], fails := 9 }
def sp (id : Nat) (p c : Endpoint) (dom : DomIx) (depth : Nat) (hops : Nat := 1) : LockSpec := ⟨id, depth, dom, p, c, [0,1], hops⟩
def lk (sp : LockSpec) (credit : Nat) : Lock := { spec := sp, credit := credit, flight := [], present := [], missed := [], asm := [], last := none, refade := none }
def q0 : Machine.State := sets ({ run0 with engines := [(3, e0)] }.setLock 7 { lk (sp 7 .basin (.engine 3) 0 3) 2 with present := [⟨10,[1,2,3]⟩] } |>.setLock 8 (lk (sp 8 (.engine 3) .basin 0 3) 2)) [(R.ENGn_STATUS_state 3, 3),(R.ENGn_STATUS_domain 3,0),(⟨R.ENGn_CLK 3,0,12⟩, 600),(subF 0 R.ENG_SUB0_CTRL_target,3),(subF 0 R.ENG_SUB0_CTRL_method,2),(subF 0 R.ENG_SUB0_CTRL_auto_fail,1),(subF 0 R.ENG_SUB0_CTRL_fail_n,4)]
def qs (k : Nat) : Machine.State := sets q0 [(subF 0 R.ENG_SUB0_STATUS_state,k),(subF 0 R.ENG_SUB0_STATUS_target,3),(subF 0 R.ENG_SUB0_STATUS_count,8)]
def state1 : Machine.State := (qs 1)
def state2 : Machine.State := (qs 2)
def state3 : Machine.State := (qs 3)
def state4 : Machine.State := (qs 4)
def state5 : Machine.State := ({ qs 5 with substs := [(0,{cutAt := some 10, method := 2, feeds := [(7, 9)]})] })
def state6 : Machine.State := (qs 6)
def state7 : Machine.State := ({ qs 7 with engines := [(32,e0)], substs := [(0,{cutAt := some 10, stage := 5})] }.wr (R.ENGn_STATUS_domain 32) 0)
def qa : Machine.State := { qs 3 with substs := [(0,{abortAt := some 10, method := 2, domain := 0})], doms := (qs 3).doms }

/-- States and operands that meet the hypotheses of the clauses of SubstitutionStates. -/
theorem witness_SubstitutionStates :
    (q0.subState 0 = 0 ∧ q0.substRefuses 0 (q0.rd (subF 0 R.ENG_SUB0_CTRL_target)) (q0.rd (subF 0 R.ENG_SUB0_CTRL_method)) = false) ∧
    (q0.is (subF 0 R.ENG_SUB0_CTRL_auto_fail) = true ∧ q0.subState 0 = 0 ∧ q0.rd (subF 0 R.ENG_SUB0_CTRL_target) = 3 ∧
      max 1 (q0.rd (subF 0 R.ENG_SUB0_CTRL_fail_n)) ≤ (q0.eng 3).fails ∧ q0.substRefuses 0 3 2 = false) ∧
    ((state1.subState 0 ≠ 0 ∨ state1.substRefuses 0 (state1.rd (subF 0 R.ENG_SUB0_CTRL_target)) (state1.rd (subF 0 R.ENG_SUB0_CTRL_method)) = true)) ∧
    (1 ≤ state1.subState 0 ∧ state1.subState 0 ≤ 5) ∧
    (state2.subState 0 = 2) ∧
    (state3.subState 0 = 3 ∧ state3.subTarget 0 < 32 ∧ state3.atBoundary (state3.engDomain (state3.working 0)) = true) ∧
    (state4.subState 0 = 4 ∧ state4.warmCount 0 ≤ state4.rd (subF 0 R.ENG_SUB0_STATUS_count)) ∧
    (state4.bothRun 0 = true) ∧
    (state5.cutDue 0 = true ∧ state5.subState 0 ≠ 7 ∧ state5.subTarget 0 < 32) ∧
    (state6.subState 0 = 6 ∧ state6.subTarget 0 < 32) ∧
    (state7.cutDue 0 = true ∧ state7.subState 0 = 7 ∧ state7.subTarget 0 < 32) ∧
    ((qa.sub 0).abortAt = some 10 ∧ (qa.sub 0).domain = 0 ∧ 10 ≤ qa.tick 0 ∧ (qa.sub (1 - 0)).abortAt = none ∧ 1 ≤ qa.subState 0 ∧ qa.subState 0 ≤ 5 ∧
      qa.subTarget 0 < 32 ∧ qa.halted = false ∧ qa.started 0 = true ∧ (qa.dom 0).b ≠ 0 ∧ qa.atBoundary 0 = true ∧ qa.cfg.laterRegs = [] ∧
      qa.cfg.laterContents = [] ∧ qa.cfg.laterWords = [] ∧ qa.fov.waiting = [] ∧ qa.layers.shPending = [] ∧ (∀ k < 4, qa.linkState k ≠ 5)) := by
  refine ⟨?_, ?_, ?_, ?_, ?_, ?_, ?_, ?_, ?_, ?_, ?_, ?_⟩ <;> decide +kernel

end TestSubstitution

/-! ### the basin, the router and feeds -/
namespace TestBasin

def lk (id : Nat) (p c : Endpoint) (dom : DomIx) (ch : List Nat) (credit : Nat) : Lock := { spec := ⟨id, 3, dom, p, c, ch, 1⟩, credit := credit, flight := [], present := [], missed := [], asm := [], last := none, refade := none }
def w4 (n : Nat) : List Sample := (List.range n).map fun i => BitVec.ofNat 24 (0x7F0000 + 70000*i)
def bs0 : Machine.State := sets ({ run0 with now := 1000, doms := [(0,{b:=4,sample:=40}),(1,{b:=4,sample:=40})], basin := { ins := [⟨5, 0, 2⟩], outs := [⟨6, 0, 2⟩], now := { bank := 0, words0 := [(0,0x7FFFFF),(1,0x800000),(1024,0x123456)], words1 := [(1,0x7)] }, was := { bank := 0, words0 := [(0,0x7FFFFF),(1,0x800000),(1024,0x123456)], words1 := [(1,0x7)], fade := some ⟨8,16,[]⟩ }, tick := 9, sums := [(0,5),(7,-3)] } })
   [(R.MTX_INFO_domain,0),(R.MTX_INFO_inputs,2),(R.MTX_INFO_outputs,2)]
def k5 := { lk 5 (.engine 2) .basin 0 [0,1] 2 with present := [⟨9, w4 8⟩] }
def k5e := lk 5 (.engine 2) .basin 0 [0,1] 2
def k6 := lk 6 .basin (.engine 2) 0 [0,1] 2
def b1 := (bs0.setLock 5 k5).setLock 6 k6
def state1 : Machine.State := (b1.setLock 5 k5e)
def state2 : Machine.State := { b1 with basin := { b1.basin with done := [0], sums := [(0,2^19*5),(3, -2^19*5-1)] } }
def state3 : Machine.State := { b1 with basin := { b1.basin with take := some (some 39) } }
def state4 : Machine.State := { b1 with basin := { b1.basin with done := [0], sums := [(0,2^43)], was := {} } }
def state5 : Machine.State := { b1 with basin := { b1.basin with staging := true } }
def state6 : Machine.State := ({ b1 with basin := { b1.basin with touched := [1] } }.wr R.MTX_STATUS_copy_busy 1)
def state7 : Machine.State := { b1 with basin := { b1.basin with take := some (some 50) } }
def state8 : Machine.State := { b1 with basin := { b1.basin with now := { b1.basin.now with fade := some ⟨8,7,[]⟩, ramps := [⟨1,8,0x100000,-5,9,true⟩,⟨2,8,0x100000,-5,9,false⟩] } } }
def b2 := sets b1 [(⟨R.MTX_RQ_NODE,16,10⟩,1),(⟨R.MTX_RQ_NODE,0,10⟩,1),(⟨R.MTX_RQ_GAIN,0,24⟩,0x812345),(R.MTX_CTRL_min_len,48)]
def state9 : Machine.State := (b2.wr ⟨R.MTX_RQ_NODE,0,10⟩ 5)
def state10 : Machine.State := { b2 with basin := { b2.basin with queue := List.replicate 1024 ⟨1,5,6,false,1⟩ } }
def state11 : Machine.State := { b2 with basin := { b2.basin with queue := [⟨1,5,6,false,1⟩] } }
def rt0 : Machine.State := sets ({ b1 with router := { sources := [⟨100,1,0,2,3⟩,⟨101,1,1,2,3⟩], dests := [⟨200,1,0,3,4⟩,⟨201,1,0,1,4⟩], hops := [⟨9,[200]⟩], next := [(9,9)] } } |>.setLock 7 { lk 7 (.tdm 0) .router 0 [100,99] 2 with present := [⟨9, w4 8⟩] } |>.setLock 9 (lk 9 .router (.engine 2) 0 [200] 2)) [(⟨R.RTR_INFO,0,16⟩,8),(R.RTR_ROUTEd_src 200,100)]
def state12 : Machine.State := ((rt0.soften (R.RTR_ROUTEd 201) 0x5FFF 100).setShWaits (R.RTR_ROUTEd 201) true)
def state13 : Machine.State := (((rt0.soften (R.RTR_ROUTEd 200) 0x5FFF 0x5FFF).setShWaits (R.RTR_ROUTEd 200) true).wr (bitAt R.RTR_CTRL 0) 1)
def q9 := lk 9 .router (.engine 2) 0 [200] 2
def state14 : Machine.State := (rt0.setLock 7 (lk 7 (.tdm 0) .router 0 [100,99] 2))
def state15 : Machine.State := ({ rt0 with locks := [] }.setLock 9 q9 |>.wr (R.RTR_ROUTEd_src 200) 0x1FFF)
def state16 : Machine.State := (rt0.setLock 7 { lk 7 (.tdm 0) .router 0 [100,99] 2 with present := [⟨8, w4 8⟩, ⟨9, w4 8⟩] })
def taken : Machine.State := { b1 with basin := { b1.basin with take := some none } }
def fd0 : Machine.State := { run0 with router := { dests := [⟨100,1,0,2,3⟩], sources := [⟨10,1,0,2,3⟩] } }
def fd1 : Machine.State := ((fd0.soften (R.FMPn_CTRL 3) (shMask (R.FMPn_CTRL 3)) 0x641).setShWaits (R.FMPn_CTRL 3) true).setFeed 3 { out := 100 }
def fd2 : Machine.State := (((fd0.setReg (fmpSrc 3 1) 0x8000000A).soften (fmpGain 3 1) (shMask (fmpGain 3 1)) 0xF00005).setShWaits (fmpGain 3 1) true).setFeed 3
  ({ mode := 1, out := 100 : Feed }.setTerm 1 { on := true, source := 10, g0 := 77, g1 := 5 })

/-- States and operands that meet the hypotheses of the clauses of BasinSums. -/
theorem witness_BasinSums :
    (b1.halted = false ∧ b1.basin.tick < b1.mtxTick ∧ b1.basin.ins[0]? = some { lock := 5, first := 0, count := 2 : GroupSpec } ∧
      b1.awaits { lock := 5, first := 0, count := 2 : GroupSpec }.lock b1.basin.tick = some { tick := 9, words := w4 8 : Barge } ∧
      b1.lock { lock := 5, first := 0, count := 2 : GroupSpec }.lock = some k5 ∧ b1.groupsLeft.contains 0 = true ∧ 0 < b1.mtxOut ∧ 0 < b1.mtxB) ∧
    (b1.halted = false ∧ b1.basin.tick < b1.mtxTick ∧ b1.basin.ins[0]? = some { lock := 5, first := 0, count := 2 : GroupSpec } ∧
      b1.awaits { lock := 5, first := 0, count := 2 : GroupSpec }.lock b1.basin.tick = some { tick := 9, words := w4 8 : Barge } ∧
      b1.lock { lock := 5, first := 0, count := 2 : GroupSpec }.lock = some k5 ∧ b1.groupsLeft.contains 0 = true ∧
      0 ≠ { lock := 5, first := 0, count := 2 : GroupSpec }.lock) ∧
    (b1.halted = false ∧ b1.basin.tick < b1.mtxTick ∧ 2 ^ 42 ≤ 2 ^ 42) ∧
    (b1.halted = false ∧ b1.basin.tick < b1.mtxTick ∧ -2 ^ 42 ≤ 0 ∧ 0 < 2 ^ 42) ∧
    (state1.halted = false ∧ state1.basin.tick < state1.mtxTick ∧ state1.groupsLeft = [0] ∧
      state1.basin.ins[0]? = some { lock := 5, first := 0, count := 2 : GroupSpec } ∧
      state1.awaits { lock := 5, first := 0, count := 2 : GroupSpec }.lock state1.basin.tick = none ∧
      state1.lock { lock := 5, first := 0, count := 2 : GroupSpec }.lock = some k5e) ∧
    (state2.halted = false ∧ state2.basin.tick < state2.mtxTick ∧ state2.groupsLeft = [] ∧ state2.basin.outs = [{ lock := 6, first := 0, count := 2 : GroupSpec }] ∧
      state2.lock { lock := 6, first := 0, count := 2 : GroupSpec }.lock = some k6 ∧ 0 < k6.credit ∧
      (state2.outputWords { lock := 6, first := 0, count := 2 : GroupSpec }).2 = 0) ∧
    (state4.halted = false ∧ state4.basin.tick < state4.mtxTick ∧ state4.groupsLeft = [] ∧ state4.basin.outs = [{ lock := 6, first := 0, count := 2 : GroupSpec }] ∧
      state4.lock { lock := 6, first := 0, count := 2 : GroupSpec }.lock = some k6 ∧ 0 < k6.credit ∧
      0 < (state4.outputWords { lock := 6, first := 0, count := 2 : GroupSpec }).2) := by
  refine ⟨?_, ?_, ?_, ?_, ?_, ?_, ?_⟩ <;> decide +kernel

/-- States and operands that meet the hypotheses of the clauses of BanksAndScenes. -/
theorem witness_BanksAndScenes :
    (b1.is R.MTX_STATUS_copy_busy = false) ∧
    (b1.basin.take = none) ∧
    ((4194304#23 + 4#23).toNat % 4 = 0 ∧ state3.inShape ((4194304#23 + 4#23).toNat % 4194304 / 4) = true ∧
      (4194304#23 + 4#23).toNat / 4194304 ≠ state3.basin.now.bank ∧ state3.basin.now.fade = none ∧ state3.basin.staging = false) ∧
    (state3.basin.take = some (some 39) ∧ (39 < state3.mtxSample ∨ 39 = state3.mtxSample ∧ state3.atBoundary state3.mtxDomain = true ∧
      (state3.is R.MTX_STATUS_copy_busy = true ∨ state3.basin.staging = true ∨ state3.now < state3.basin.takeSince + 250))) ∧
    (4 % 4 = 0 ∧ b1.inShape (4 % 4194304 / 4) = true ∧ (4 / 4194304 = b1.basin.now.bank ∨ b1.basin.now.fade ≠ none)) ∧
    ((4194304#23 + 4#23).toNat % 4 = 0 ∧ state5.inShape ((4194304#23 + 4#23).toNat % 4194304 / 4) = true ∧
      (4194304#23 + 4#23).toNat / 4194304 ≠ state5.basin.now.bank ∧ state5.basin.now.fade = none ∧ state5.basin.staging = true) ∧
    (state6.is R.MTX_STATUS_copy_busy = true ∧ state6.basin.now.fade = none ∧ state6.basin.staging = false ∧ state6.basin.now.bank < 2) ∧
    (state7.basin.take = some (some 50) ∧ state7.mtxSample < 50) ∧
    (state8.basin.now.fade = some { start := 8, len := 7, out := [] : SceneFade } ∧ state8.atBoundary state8.mtxDomain = true ∧
      { start := 8, len := 7, out := [] : SceneFade }.start < (↑state8.mtxSample : Int) ∧
      { start := 8, len := 7, out := [] : SceneFade }.start + (↑{ start := 8, len := 7, out := [] : SceneFade }.len : Int) ≤ (↑state8.mtxSample : Int)) ∧
    (taken.basin.take = some none ∧ taken.atBoundary taken.mtxDomain = true ∧ taken.takeFree = true ∧ 0 ≤ (taken.dom taken.mtxDomain).sample.toNat ∧
      taken.basin.now.bank < 2) := by
  refine ⟨?_, ?_, ?_, ?_, ?_, ?_, ?_, ?_, ?_, ?_⟩ <;> decide +kernel

/-- States and operands that meet the hypotheses of the clauses of NodeRamps. -/
theorem witness_NodeRamps :
    (b2.inShape (b2.rd { addr := R.MTX_RQ_NODE, lsb := 16, width := 10 } * 1024 + b2.rd { addr := R.MTX_RQ_NODE, lsb := 0, width := 10 }) = true ∧
      b2.basin.queue.length < 1024) ∧
    (b2.atBoundary b2.mtxDomain = true) ∧
    (state9.inShape (state9.rd { addr := R.MTX_RQ_NODE, lsb := 16, width := 10 } * 1024 + state9.rd { addr := R.MTX_RQ_NODE, lsb := 0, width := 10 }) = false) ∧
    (state10.inShape (state10.rd { addr := R.MTX_RQ_NODE, lsb := 16, width := 10 } * 1024 + state10.rd { addr := R.MTX_RQ_NODE, lsb := 0, width := 10 }) = true ∧
      1024 ≤ state10.basin.queue.length ∧ state10.basin.gang = false) ∧
    (state11.atBoundary state11.mtxDomain = true ∧ state11.basin.queue = [{ node := 1, gain := 5#24, len := 6, gang := false, pushed := 1 : RampCmd }] ∧
      { node := 1, gain := 5#24, len := 6, gang := false, pushed := 1 : RampCmd }.gang = false ∧ state11.basin.now.ramps = [] ∧ state11.basin.now.fade = none ∧
      { node := 1, gain := 5#24, len := 6, gang := false, pushed := 1 : RampCmd }.pushed + 250 ≤ state11.now ∧
      0 ≠ { node := 1, gain := 5#24, len := 6, gang := false, pushed := 1 : RampCmd }.node) := by
  refine ⟨?_, ?_, ?_, ?_, ?_⟩ <;> decide +kernel

/-- States and operands that meet the hypotheses of the clauses of RouterRoutesAndHops. -/
theorem witness_RouterRoutesAndHops :
    (rt0.routeRefusal 200 (100 % 2 ^ 13) = none ∧ rt0.owned (R.RTR_ROUTEd 200) &&& 24575#32 = 0#32) ∧
    (rt0.routeRefusal 200 (101 % 2 ^ 13) = some 3) ∧
    (rt0.dstDesc 200 = some { number := 200, cls := 1, domain := 0, rank := 3, loc := 4 : DescSpec } ∧ 101 % 2 ^ 13 ≠ 8191 ∧
      rt0.srcDesc (101 % 2 ^ 13) = some { number := 101, cls := 1, domain := 1, rank := 2, loc := 3 : DescSpec } ∧
      { number := 101, cls := 1, domain := 1, rank := 2, loc := 3 : DescSpec }.domain ≠ { number := 200, cls := 1, domain := 0, rank := 3, loc := 4 : DescSpec }.domain) ∧
    (rt0.dstDesc 205 = none) ∧
    (state12.dstDesc 201 = some { number := 201, cls := 1, domain := 0, rank := 1, loc := 4 : DescSpec } ∧ state12.shWaits (R.RTR_ROUTEd 201) = true ∧
      state12.atBoundary { number := 201, cls := 1, domain := 0, rank := 1, loc := 4 : DescSpec }.domain = true ∧ state12.is (bitAt R.RTR_CTRL 0) = false ∧
      state12.owned (R.RTR_ROUTEd 201) &&& 24575#32 = 0#32 ∧
      state12.connected 201 (getBits (state12.layered (R.RTR_ROUTEd 201)) 0 13) ≠ (state12.baseRoute 201).source ∧ state12.routeChanges 201 = []) ∧
    (state13.dstDesc 200 = some { number := 200, cls := 1, domain := 0, rank := 3, loc := 4 : DescSpec } ∧ state13.is (bitAt R.RTR_CTRL 0) = true) ∧
    (state14.halted = false ∧ state14.hop 9 = some { lock := 9, dests := [200] : HopSpec } ∧ { lock := 9, dests := [200] : HopSpec }.lock = 9 ∧
      { lock := 9, dests := [200] : HopSpec }.dests = [200] ∧ state14.lock 9 = some q9 ∧ state14.hopNext 9 < state14.tick 0 ∧ 0 < q9.credit ∧
      state14.routeChanges 200 = [] ∧ state14.router.dead = [] ∧ state14.connected 200 (state14.rd (R.RTR_ROUTEd_src 200)) = state14.rd (R.RTR_ROUTEd_src 200) ∧
      state14.srcLock (state14.rd (R.RTR_ROUTEd_src 200)) = some (7, 0, 2) ∧ state14.is (R.RTR_ROUTEd_delayed 200) = false ∧
      state14.srcBarge 7 (state14.hopNext 9) = none ∧ state14.tookAbsent 9 7 (state14.hopNext 9) = false) ∧
    (state15.halted = false ∧ state15.hop 9 = some { lock := 9, dests := [200] : HopSpec } ∧ { lock := 9, dests := [200] : HopSpec }.lock = 9 ∧
      { lock := 9, dests := [200] : HopSpec }.dests = [200] ∧ state15.lock 9 = some q9 ∧ state15.hopNext 9 < state15.tick 0 ∧ 0 < q9.credit ∧
      state15.routeChanges 200 = [] ∧ state15.router.dead = [] ∧ state15.rd (R.RTR_ROUTEd_src 200) = 8191 ∧ state15.srcLock 8191 = none ∧
      ((state15.locksWhere fun e => decide (e.spec.consumer = Endpoint.router)) = [])) ∧
    (state16.halted = false ∧ state16.hop 9 = some { lock := 9, dests := [200] : HopSpec } ∧ { lock := 9, dests := [200] : HopSpec }.lock = 9 ∧
      { lock := 9, dests := [200] : HopSpec }.dests = [200] ∧ state16.lock 9 = some q9 ∧ state16.hopNext 9 < state16.tick 0 ∧ 0 < q9.credit ∧
      state16.routeChanges 200 = [] ∧ state16.router.dead = [] ∧ state16.connected 200 (state16.rd (R.RTR_ROUTEd_src 200)) = state16.rd (R.RTR_ROUTEd_src 200) ∧
      state16.srcLock (state16.rd (R.RTR_ROUTEd_src 200)) = some (7, 0, 2) ∧
      (state16.srcBarge 7 (if state16.is (R.RTR_ROUTEd_delayed 200) = true then state16.hopNext 9 - 1 else state16.hopNext 9) = some { tick := 9, words := w4 8 : Barge }) ∧
      (state16.tookAbsent 9 7 (if state16.is (R.RTR_ROUTEd_delayed 200) = true then state16.hopNext 9 - 1 else state16.hopNext 9) = false) ∧
      ((if state16.is (R.RTR_ROUTEd_delayed 200) = true then state16.hopNext 9 - 1 else state16.hopNext 9) = 0 ∨ state16.wasAbsent 7 ((if state16.is (R.RTR_ROUTEd_delayed 200) = true then state16.hopNext 9 - 1 else state16.hopNext 9) - 1) = false) ∧
      q9.spec.consumer ≠ Endpoint.router) := by
  refine ⟨?_, ?_, ?_, ?_, ?_, ?_, ?_, ?_, ?_⟩ <;> decide +kernel

/-- States and operands that meet the hypotheses of the clauses of MonitorFeeds. -/
theorem witness_MonitorFeeds :
    (fd0.fmpCtrlOk 3 0x651 = false) ∧
    (fd0.fmpCtrlOk 3 0x641 = true) ∧
    (getBits 0x651 0 2 = 1 ∧ fd0.dstDesc (fmpDest (getBits 0x651 2 1 == 1) (getBits 0x651 4 9)) = none) ∧
    (fd1.shWaits (R.FMPn_CTRL 3) = true ∧ (fd1.feed 3).mode = 0 ∧ fmpActive (getBits (fd1.layered (R.FMPn_CTRL 3)) 0 2) = true ∧
      (fd1.feed 3).amp = (getBits (fd1.layered (R.FMPn_CTRL 3)) 2 1 == 1) ∧ (fd1.feed 3).out = getBits (fd1.layered (R.FMPn_CTRL 3)) 4 9) ∧
    (getBits 0x8000000B 31 1 = 1 ∧ fd0.srcDesc (getBits 0x8000000B 0 9) = none) ∧
    (fd0.owned (fmpGain 3 1) = 0) ∧
    (fd2.shWaits (fmpGain 3 1) = true ∧ fd2.is ⟨fmpSrc 3 1, 31, 1⟩ = true ∧ ((fd2.feed 3).term 1).on = true ∧
      ((fd2.feed 3).term 1).source = fd2.rd ⟨fmpSrc 3 1, 0, 9⟩ ∧ ((fd2.feed 3).term 1).t = 0) := by
  refine ⟨?_, ?_, ?_, ?_, ?_, ?_, ?_⟩ <;> decide +kernel

end TestBasin

/-! ### bridges and filters -/
namespace TestRates

def lk (id : Nat) (p c : Endpoint) (dom : DomIx) (ch : List Nat) (credit : Nat) : Lock := { spec := ⟨id, 3, dom, p, c, ch, 1⟩, credit := credit, flight := [], present := [], missed := [], asm := [], last := none, refade := none }
def k5 := { lk 5 (.engine 2) (.bridge 0) 0 [0,1] 2 with present := [⟨9, [1,2,3]⟩] }
def k5e := lk 5 (.engine 2) (.bridge 0) 0 [0,1] 2
def k6 := lk 6 (.bridge 0) (.engine 2) 1 [0,1] 2
def bg : BridgeSpec := ⟨0,5,6⟩
def f0 : Machine.State := sets ({ run0 with flc := { groups := [bg], runs := [(0,{nextIn := 9, nextOut := 9, history := [[1]]})] } }.setLock 5 k5 |>.setLock 6 k6) [(pairState 0,1)]
def state1 : Machine.State := (f0.setLock 5 k5e)
def state2 : Machine.State := (f0.wr (pairState 0) 2)
def state3 : Machine.State := (f0.wr (pairState 0) 3)
def c0 : Machine.State := sets { run0 with flc := { cics := [(3,{ integ := [0x7F000000], comb := [5] }),(4,{fade := some (64,64)})], channels := [5], mas := [(5,{ queue := [1,2,0x800000,7], blocks := [9,8,7], hops := 2 })] } }
  [(R.CICn_CFG_pdm 3,1),(R.CICn_CFG_ratio 3,7),(R.CICn_CFG_order 3,1),(R.CICn_CFG_domain 3,0),(⟨maCfg 5,0,10⟩,2),(⟨maCfg 5,10,6⟩,2)]
def state4 : Machine.State := { c0 with flc := { c0.flc with cics := [(3,{})] } }
def state5 : Machine.State := (sets c0 [(R.CICn_STATUS_pending 3,1),(R.CICn_CTRL_xf_len 3,70)])
def state6 : Machine.State := (c0.wr ⟨maCfg 5,16,2⟩ 3)
def state7 : Machine.State := (c0.wr ⟨maCfg 5,0,10⟩ 9)
def state8 : Machine.State := ((c0.soften (maCfg 5) 0x3FFFF 0x10203).setShWaits (maCfg 5) true)
def state9 : Machine.State := (c0.wr ⟨maCfg 5,16,2⟩ 2)
def common : Machine.State := sets f0 [(pairState 0, 2), (R.CLK_STATUS_common, 7)]
def good16 : Machine.State := f0.setBpair 0 { good := 16 }

/-- States and operands that meet the hypotheses of the clauses of RateBridges. -/
theorem witness_RateBridges :
    (f0.halted = false ∧ f0.flc.groups[0]? = some bg ∧ f0.lock bg.input = some k5 ∧ (f0.brun 0).nextIn < f0.tick (pairIn bg.pair) ∧
      f0.awaits bg.input (f0.brun 0).nextIn = some { tick := 9, words := [1#24, 2#24, 3#24] : Barge }) ∧
    (f0.halted = false ∧ f0.flc.groups[0]? = some bg ∧ f0.lock bg.output = some k6 ∧ 0 < k6.credit ∧ (f0.brun 0).nextOut < f0.tick (pairOut bg.pair) ∧ 0 ≠ bg.output) ∧
    (f0.halted = false ∧ f0.flc.groups[0]? = some bg ∧ f0.lock bg.output = some k6 ∧ 0 < k6.credit ∧ (f0.brun 0).nextOut < f0.tick (pairOut bg.pair) ∧
      f0.rd (pairState bg.pair) = 1 ∧ (f0.bpair bg.pair).seen ≠ some (f0.brun 0).nextOut) ∧
    (f0.rd (pairState 0) = 1 ∧ (f0.bpair 0).good < 16) ∧
    (f0.rd (pairState 0) < 2) ∧
    (f0.rd (pairState 0) ≠ 3 ∧ f0.atBoundary (pairOut 0) = true ∧ (8 < (3#16).toInt.natAbs ∨ f0.rd (pairState 0) ≠ 2 ∨ f0.commonSource (pairIn 0) (pairOut 0) = false)) ∧
    (state1.halted = false ∧ state1.flc.groups[0]? = some bg ∧ state1.lock bg.input = some k5e ∧ (state1.brun 0).nextIn < state1.tick (pairIn bg.pair) ∧
      state1.awaits bg.input (state1.brun 0).nextIn = none) ∧
    ((state2.rd (pairState 0) = 2 ∨ state2.rd (pairState 0) = 3)) ∧
    (state3.rd (pairState 0) = 3 ∧ state3.atBoundary (pairOut 0) = true ∧ state3.commonSource (pairIn 0) (pairOut 0) = false) ∧
    (common.rd (pairState 0) = 2 ∧ (3#16).toInt.natAbs ≤ 8 ∧ common.commonSource (pairIn 0) (pairOut 0) = true) ∧
    (good16.rd (pairState 0) = 1 ∧ good16.atBoundary (pairOut 0) = true ∧ (8#16).toInt.natAbs ≤ 8 ∧ 16 ≤ (good16.bpair 0).good) ∧
    (f0.rd (pairState 0) = 1 ∧ (f0.bpair 0).good < 16) ∧
    (common.atBoundary (pairOut 0) = true ∧ 8 < (9#16).toInt.natAbs) := by
  refine ⟨?_, ?_, ?_, ?_, ?_, ?_, ?_, ?_, ?_, ?_, ?_, ?_, ?_⟩ <;> decide +kernel

/-- States and operands that meet the hypotheses of the clauses of FilterChain. -/
theorem witness_FilterChain :
    (c0.halted = false ∧ c0.is (R.CICn_CFG_pdm 3) = true ∧ [true, false, true, true, false, true, true, true].length = c0.rd (R.CICn_CFG_ratio 3) + 1 ∧
      c0.rd (R.CICn_CFG_order 3) = 1 ∧ c0.rd (R.CICn_CFG_domain 3) ≠ 3 ∧ c0.is (R.CICn_CFG_fir_en 3) = false ∧ c0.rd (R.CICn_CFG_kind 3) = 0 ∧
      (c0.cic 3).recover = none ∧
      (roundConv (List.foldl (fun x1 x2 => x1 + x2) (word64 (c0.cic 3).integ 0) (List.map pdmInput [true, false, true, true, false, true, true, true]) - word64 (c0.cic 3).comb 0).toInt (2 ^ ceilLog2 (c0.rd (R.CICn_CFG_ratio 3) + 1)) < -2 ^ 23 ∨ 2 ^ 23 ≤ roundConv (List.foldl (fun x1 x2 => x1 + x2) (word64 (c0.cic 3).integ 0) (List.map pdmInput [true, false, true, true, false, true, true, true]) - word64 (c0.cic 3).comb 0).toInt (2 ^ ceilLog2 (c0.rd (R.CICn_CFG_ratio 3) + 1)))) ∧
    ((c0.is (R.CICn_STATUS_pending 3) = false ∨ c0.is (R.CICn_STATUS_xfading 3) = true)) ∧
    (state4.halted = false ∧ state4.is (R.CICn_CFG_pdm 3) = true ∧ [true, false, true, true, false, true, true, true].length = state4.rd (R.CICn_CFG_ratio 3) + 1 ∧
      state4.rd (R.CICn_CFG_order 3) = 1 ∧ state4.rd (R.CICn_CFG_domain 3) ≠ 3 ∧ state4.is (R.CICn_CFG_fir_en 3) = false ∧ state4.rd (R.CICn_CFG_kind 3) = 0 ∧
      (state4.cic 3).recover = none ∧
      (-2 ^ 23 ≤ roundConv (List.foldl (fun x1 x2 => x1 + x2) (word64 (state4.cic 3).integ 0) (List.map pdmInput [true, false, true, true, false, true, true, true]) - word64 (state4.cic 3).comb 0).toInt (2 ^ ceilLog2 (state4.rd (R.CICn_CFG_ratio 3) + 1))) ∧
      (roundConv (List.foldl (fun x1 x2 => x1 + x2) (word64 (state4.cic 3).integ 0) (List.map pdmInput [true, false, true, true, false, true, true, true]) - word64 (state4.cic 3).comb 0).toInt (2 ^ ceilLog2 (state4.rd (R.CICn_CFG_ratio 3) + 1)) < 2 ^ 23)) ∧
    (state5.is (R.CICn_STATUS_pending 3) = true ∧ state5.is (R.CICn_STATUS_xfading 3) = false) ∧
    ((c0.cic 4).fade = some (64, 64) ∧ 64 ≤ 64) ∧
    (c0.halted = false ∧ c0.maHop 5 - (c0.ma 5).at_ % c0.maHop 5 ≤ (c0.ma 5).queue.length ∧ c0.flc.channels.contains 5 = true ∧ c0.maMode 5 < 2) ∧
    (c0.shWaits (maCfg 5) = false) ∧
    (state6.halted = false ∧ state6.maHop 5 - (state6.ma 5).at_ % state6.maHop 5 ≤ (state6.ma 5).queue.length ∧ state6.flc.channels.contains 5 = true ∧
      state6.maMode 5 = 3) ∧
    ((state7.ma 5).queue.length < state7.maHop 5 - (state7.ma 5).at_ % state7.maHop 5) ∧
    (state8.shWaits (maCfg 5) = true ∧ 0 ≠ maCfg 5) ∧
    (state9.halted = false ∧ state9.maHop 5 - (state9.ma 5).at_ % state9.maHop 5 ≤ (state9.ma 5).queue.length ∧ state9.flc.channels.contains 5 = true ∧
      state9.maMode 5 = 2) := by
  refine ⟨?_, ?_, ?_, ?_, ?_, ?_, ?_, ?_, ?_, ?_, ?_⟩ <;> decide +kernel

end TestRates

/-! ### TDM ports -/
namespace TestPorts

def fmt0 : Word := 0x62  -- fb code 2 (128 bits), width code 0 (16), slots 4
def t0 : Machine.State := sets { run0 with now := 1000, tdm := { groups := [(0,{ fmt := fmt0 })] } } [(R.TDM_GRPg_CFG_assigned 0,1),(R.TDM_GRPg_CFG_master 0,1),(R.TDM_GRPg_CFG_domain 0,0),(whole (R.TDM_GRPg_FMT 0),0x62)]
def state1 : Machine.State := ((t0.soften (R.TDMp_INMASK 1) 0xFFFFFFFF 0x6).setShWaits (R.TDMp_INMASK 1) true)
def state2 : Machine.State := ((t0.soften (R.TDMp_OUTMASK 1) 0xFFFFFFFF 0x6).setShWaits (R.TDMp_OUTMASK 1) true)
def state3 : Machine.State := (t0.setReg (R.TDM_GRPg_FMT 0) 7)
def state4 : Machine.State := (t0.setGrp 0 { fmt := fmt0, step := 1, next := some 0x82 })
def state5 : Machine.State := (t0.setGrp 0 { fmt := fmt0, step := 3 })
def state6 : Machine.State := ((t0.setGrp 0 { fmt := fmt0, good := 4 }).wr (R.TDM_GRPg_CFG_master 0) 0)
def state7 : Machine.State := ((t0.setGrp 0 { fmt := fmt0, good := 1200 }).wr (R.TDM_GRPg_CFG_master 0) 0)
def state8 : Machine.State := ((t0.setGrp 0 { fmt := fmt0, good := 4, locked := true }).wr (R.TDM_GRPg_CFG_master 0) 0)
def faded : Machine.State := t0.setGrp 0 { fmt := fmt0, step := 2, next := some 0x82, k0 := 928 }

/-- States and operands that meet the hypotheses of the clauses of AudioPorts. -/
theorem witness_AudioPorts :
    (state1.shWaits (R.TDMp_INMASK 1) = true ∧ 0 < 32) ∧
    ((fmtFrameBits 2016#32 < fmtSlots 2016#32 * fmtSlotWidth 2016#32 ∨ 49152000 < fmtFrameBits 2016#32 * state1.fs (state1.tdmDomain 0))) ∧
    (state1.tdmAssigned 0 = true ∧ formatOk (state1.reg (R.TDM_GRPg_FMT 0)) (state1.fs (state1.tdmDomain 0)) = true ∧ (state1.grp 0).step = 0) ∧
    (state1.tdmAssigned 0 = true ∧ 2 ∈ [1, 2, 3, 4, 5, 6] ∧ ((↑768000 : Int) - (↑(16 * rateOf 2) : Int)).natAbs * 10 ^ 6 ≤ 2000 * 16 * rateOf 2) ∧
    (state2.shWaits (R.TDMp_OUTMASK 1) = true ∧ 0 < 32) ∧
    (state3.tdmAssigned 0 = true ∧ formatOk (state3.reg (R.TDM_GRPg_FMT 0)) (state3.fs (state3.tdmDomain 0)) = false) ∧
    ((state4.grp 0).step = 1 ∧ state4.atBoundary (state4.tdmDomain 0) = true) ∧
    ((state5.grp 0).step = 3 ∧ (state5.grp 0).fadeIn = [] ∧ (state5.grp 0).fadeOut = [] ∧ (state5.grp 0).later = none ∧
      (state5.tdmMaster 0 = true ∨ (state5.grp 0).locked = true ∧ (state5.grp 0).frameLocked = true)) ∧
    (state6.tdmSlave 0 = true ∧ (state6.grp 0).locked = false ∧ (0#9).toInt.natAbs ≤ 112) ∧
    (state6.tdmSlave 0 = true ∧ (state6.grp 0).locked = false ∧ 0 ≠ fmtFrameBits (state6.grp 0).fmt) ∧
    (state6.tdmSlave 0 = true ∧ (state6.grp 0).locked = false ∧ (state6.grp 0).good ≤ state6.rd (R.TDM_GRPg_QUAL_qual_n 0)) ∧
    (state7.tdmSlave 0 = true ∧ (state7.grp 0).locked = false ∧ state7.rd (R.TDM_GRPg_QUAL_qual_n 0) < (state7.grp 0).good) ∧
    (state8.tdmSlave 0 = true ∧ (state8.grp 0).locked = true ∧ 112 < (256#9).toInt.natAbs) ∧
    ((faded.grp 0).next = some 0x82 ∧ (faded.grp 0).step = 2 ∧ faded.atBoundary (faded.tdmDomain 0) = true ∧
      (faded.grp 0).k0 + 32 ≤ (faded.dom (faded.tdmDomain 0)).sample.toNat ∧ faded.tdmMaster 0 = true) := by
  refine ⟨?_, ?_, ?_, ?_, ?_, ?_, ?_, ?_, ?_, ?_, ?_, ?_, ?_, ?_⟩ <;> decide +kernel

end TestPorts

/-! ### amplifier outputs -/
namespace TestAmplifiers

def a0 : Machine.State := sets run0 [(R.AMP_GRPa_CFG_assigned 1,1),(R.AMP_GRPa_CFG_domain 1,0),(R.AMPc_ILIM_i_lim 9, 100),(R.AMPc_ILIM_i_sc 9, 200),(R.AMP_GRPa_STATUS_rail_ok 1,1)]
def ak (k : Nat) := a0.wr (ampState 9) k
def am := sets a0 [(R.AMP_GRPa_CTRL_en 1,1),(R.AMP_GRPa_STATUS_leave 1,1),(R.AMPc_CTRL_en 9,1)]
def state1 : Machine.State := (ak 1)
def state2 : Machine.State := (ak 2)
def state3 : Machine.State := ((ak 2).wr (R.AMP_GRPa_STATUS_mute 1) 1)
def state4 : Machine.State := (ak 3)
def state5 : Machine.State := ((ak 3).setAmp 9 { fade := .zero })
def state6 : Machine.State := (ak 5)
def state7 : Machine.State := (ak 6)
def state8 : Machine.State := (ak 7)
def state9 : Machine.State := (sets (ak 4) [(R.AMP_GRPa_STATUS_mute 1,1)])
def state10 : Machine.State := (sets (ak 9) [(R.AMP_GRPa_STATUS_hard 1,1)])
def state11 : Machine.State := (ak 3)
def a8 := sets a0 [(lowHalf (R.AMP_GRPa_RAIL_WIN 1),50),(highHalf (R.AMP_GRPa_RAIL_WIN 1),200)]
def state12 : Machine.State := (a8.setAmpGroup 1 {low := 15})
def a7 : Machine.State := am.wr ⟨R.CFG_MODE_HELD, 0, 16⟩ 0x10
def state13 : Machine.State := (a7.wr (ampState 9) 6)
def state14 : Machine.State := ((a7.wr (ampState 9) 6).setAmpGroup 1 {hold := true})
def state15 : Machine.State := (((a7.wr (ampState 9) 6).setAmpGroup 1 {hold := true}).setAmp 9 {retryDue := true})
def state16 : Machine.State := ((ak 2).setAmp 9 { rampLen := 5})
def state17 : Machine.State := ((ak 5).setAmp 9 { rampLen := 5, low := true})
def state18 : Machine.State := (((sets (ak 8) [(R.AMP_GRPa_STATUS_rail_ok 1,0)])).setAmpGroup 1 {inner := 200000})
def state19 : Machine.State := ((sets (ak 3) [(⟨R.AMPc_CAL_CTRL 9,0,3⟩,1)]).setAmp 9 {window := 2097152, sumV := 10000})
def state20 : Machine.State := ((sets (ak 3) [(⟨R.AMPc_CAL_CTRL 9,0,3⟩,1)]).setAmp 9 {window := 2097152, sumV := 1000000})
def may0 : Machine.State := am.setReg R.CFG_MODE_HELD 0x10
def tied10 : Machine.State := sets a0 [(R.AMP_GRPa_CFG_btl 1, 2), (ampState 10, 3)]

/-- States and operands that meet the hypotheses of the clauses of AmplifierStates. -/
theorem witness_AmplifierStates :
    (run0.ampAssigned 1 = false) ∧
    (run0.rd (ampState (run0.ampMain 9)) ≠ 1) ∧
    (run0.rd (ampState (run0.ampMain 9)) ≠ 6) ∧
    (run0.rd (ampState (run0.ampMain 9)) ≠ 7) ∧
    (run0.muteAmp 1 = false ∧ run0.hardAmp = false) ∧
    (a0.ampAssigned 1 = true ∧ a0.is (R.AMP_GRPa_CTRL_en 1) = false ∧ a0.is (R.AMP_GRPa_STATUS_leave 1) = false ∧ a0.owned (R.AMP_GRPa_CTRL 1) = 0#32) ∧
    (state1.rd (ampState (state1.ampMain 9)) = 1) ∧
    (state2.rd (ampState (state2.ampMain 9)) = 2 ∧ state2.rampFull (state2.ampMain 9) ≤ (state2.amp (state2.ampMain 9)).rampPos ∧
      state2.is (R.AMP_GRPa_STATUS_mute (9 / 8)) = false) ∧
    (state3.rd (ampState (state3.ampMain 9)) = 2 ∧ state3.rampFull (state3.ampMain 9) ≤ (state3.amp (state3.ampMain 9)).rampPos ∧
      state3.is (R.AMP_GRPa_STATUS_mute (9 / 8)) = true) ∧
    (state4.ampAssigned (9 / 8) = true ∧ state4.atBoundary (state4.rd (R.AMP_GRPa_CFG_domain (9 / 8))) = true ∧ state4.rd (ampState (state4.ampMain 9)) = 3 ∧
      (state4.shTake (R.AMPc_CTRL (state4.ampMain 9))).ampMay (state4.ampMain 9) = false ∧ (state4.amp (state4.ampMain 9)).fade = Fade.none) ∧
    ((state5.rd (ampState (state5.ampMain 9)) = 3 ∨ state5.rd (ampState (state5.ampMain 9)) = 4) ∧ (state5.amp (state5.ampMain 9)).fade = Fade.zero) ∧
    (state6.rd (ampState (state6.ampMain 9)) = 5 ∧ (state6.amp (state6.ampMain 9)).rampPos = 0) ∧
    (state7.rd (ampState (state7.ampMain 9)) = 6 ∧ (state7.ampGroup (9 / 8)).hold = false ∧ state7.ampMay (state7.ampMain 9) = false) ∧
    (state8.rd (ampState (state8.ampMain 9)) = 7) ∧
    (state9.muteAmp 1 = false ∧ state9.hardAmp = false ∧ 9 / 8 = 1 ∧ state9.is (R.AMP_GRPa_STATUS_mute 1) = true ∧ (∀ e ∈ state9.ampPair 9, state9.rd (ampState e) = 4)) ∧
    (state10.muteAmp 1 = false ∧ state10.hardAmp = false ∧ 9 / 8 = 1 ∧ state10.is (R.AMP_GRPa_STATUS_hard 1) = true ∧
      (∀ e ∈ state10.ampPair 9, state10.rd (ampState e) = 9)) ∧
    (a7.ampAssigned (9 / 8) = true ∧ a7.atBoundary (a7.rd (R.AMP_GRPa_CFG_domain (9 / 8))) = true ∧ a7.rd (ampState (a7.ampMain 9)) = 0 ∧
      (a7.shTake (R.AMPc_CTRL (a7.ampMain 9))).ampMay (a7.ampMain 9) = true ∧ (a7.ampGroup (9 / 8)).hold = false) ∧
    (state13.rd (ampState (state13.ampMain 9)) = 6 ∧ (state13.ampGroup (9 / 8)).hold = false ∧ state13.ampMay (state13.ampMain 9) = true) ∧
    (state14.rd (ampState (state14.ampMain 9)) = 6 ∧ (state14.ampGroup (9 / 8)).hold = true) ∧
    ((state14.ampGroup 1).hold = true ∧ (∀ i < 8, (state14.amp (8 * 1 + i)).retryDue = false)) ∧
    ((state15.ampGroup 1).hold = true ∧ 9 / 8 = 1 ∧ state15.ampMain 9 = 9 ∧ state15.rd (ampState (state15.ampMain 9)) = 6 ∧ state15.ampMay 9 = true ∧
      (∀ i < 8, (state15.amp (8 * 1 + i)).retryDue = decide (8 * 1 + i = 9))) ∧
    (state16.rd (ampState (state16.ampMain 9)) = 2 ∧ (state16.amp (state16.ampMain 9)).rampPos < state16.rampFull (state16.ampMain 9)) ∧
    (state17.rd (ampState (state17.ampMain 9)) = 5 ∧ (state17.amp (state17.ampMain 9)).low = true) ∧
    (state18.ampAssigned 1 = true ∧ state18.is (R.AMP_GRPa_STATUS_rail_ok 1) = false ∧ state18.ampLoopRate 1 ≤ (state18.ampGroup 1).inner * 10 ∧ 1 < 8 ∧
      state18.rd (ampState (8 * 1 + 1)) = 8) ∧
    (may0.ampAssigned 1 = true ∧ may0.atBoundary (may0.rd (R.AMP_GRPa_CFG_domain 1)) = true ∧ may0.ampMain 9 = 9 ∧ may0.rd (ampState 9) = 0 ∧
      (may0.shTake (R.AMPc_CTRL 9)).ampMay 9 = true ∧ may0.is (R.AMP_GRPa_STATUS_drv_flt 1) = false) ∧
    ((may0.wr (ampState 9) 6).rd (ampState 9) = 6 ∧ (may0.wr (ampState 9) 6).is (R.AMP_GRPa_STATUS_drv_flt 1) = false ∧ (may0.wr (ampState 9) 6).ampMay 9 = true) := by
  refine ⟨?_, ?_, ?_, ?_, ?_, ?_, ?_, ?_, ?_, ?_, ?_, ?_, ?_, ?_, ?_, ?_, ?_, ?_, ?_, ?_, ?_, ?_, ?_, ?_, ?_, ?_⟩ <;> decide +kernel

/-- States and operands that meet the hypotheses of the clauses of AmplifierProtection. -/
theorem witness_AmplifierProtection :
    ((run0.ampLive 9 = false ∨ (fastCurrent []).natAbs < run0.rd (R.AMPc_ILIM_i_lim (run0.ampMain 9)))) ∧
    ((run0.ampAssigned (9 / 8) = false ∨ run0.halted = true)) ∧
    ((run0.ampMain 9 ≠ 9 ∨ run0.rd (ampState 9) ≠ 3 ∨ (run0.amp 9).window < 2 ^ 21)) ∧
    (state11.ampLive 9 = true ∧ state11.rd (R.AMPc_ILIM_i_lim (state11.ampMain 9)) ≤ (fastCurrent []).natAbs) ∧
    (state11.ampLive 9 = true ∧ (state11.rd (R.AMPc_ILIM_i_sc (state11.ampMain 9)) ≤ (fastCurrent []).natAbs ∨ (state11.amp 9).limited = true ∧
      max 1 (state11.rd (R.AMPc_ILIM_cbc_max (state11.ampMain 9))) ≤ (state11.amp 9).run + 1)) ∧
    (state11.ampAssigned 1 = true) ∧
    (state11.ampAssigned (9 / 8) = true ∧ state11.halted = false ∧ 9 % 8 ≠ 0 ∧ state11.ampMain 9 = 9 ∧
      (state11.rd (ampState (state11.ampMain 9)) = 3 ∨ state11.rd (ampState (state11.ampMain 9)) = 4) ∧ 0 ≠ 9 + 1) ∧
    (a8.ampAssigned (8 / 8) = true ∧ a8.halted = false ∧ 8 % 8 = 0) ∧
    (state12.ampAssigned (8 / 8) = true ∧ state12.halted = false ∧ 8 % 8 = 0 ∧
      max 0 ((↑(BitVec.toInt (decimate 3 8 (List.map pdmInput []) (state12.ampGroup (8 / 8)).cic).2.1) : Rat) * (↑(state12.rd (highHalf (R.AMP_GRPa_RAIL (8 / 8)))) : Rat) / 2 ^ 23) < (↑(state12.rd (lowHalf (R.AMP_GRPa_RAIL_WIN (8 / 8)))) : Rat) ∧
      (state12.ampGroup (8 / 8)).low = 15) ∧
    (state19.ampMain 9 = 9 ∧ state19.rd (ampState (state19.ampMain 9)) = 3 ∧ 2 ^ 21 ≤ (state19.amp 9).window ∧ getBits (state19.reg (R.AMPc_CAL_CTRL 9)) 0 3 = 1 ∧
      (-(1 / 64) ≤ (state19.amp 9).sumV / (↑(state19.amp 9).window : Rat) - (state19.amp 9).sumD / (↑(state19.amp 9).window : Rat) ∧
      (state19.amp 9).sumV / (↑(state19.amp 9).window : Rat) - (state19.amp 9).sumD / (↑(state19.amp 9).window : Rat) ≤ 1 / 64)) ∧
    (state20.ampMain 9 = 9 ∧ state20.rd (ampState (state20.ampMain 9)) = 3 ∧ 2 ^ 21 ≤ (state20.amp 9).window ∧ getBits (state20.reg (R.AMPc_CAL_CTRL 9)) 0 3 = 1 ∧
      ((state20.amp 9).sumV / (↑(state20.amp 9).window : Rat) - (state20.amp 9).sumD / (↑(state20.amp 9).window : Rat) < -(1 / 64) ∨ 1 / 64 < (state20.amp 9).sumV / (↑(state20.amp 9).window : Rat) - (state20.amp 9).sumD / (↑(state20.amp 9).window : Rat))) ∧
    (tied10.ampAssigned (10 / 8) = true ∧ tied10.halted = false ∧ 10 % 8 ≠ 0 ∧ tied10.ampMain 10 = 10 ∧ tied10.rd (ampState 10) = 3 ∧ tied10.ampTied 10 = true) := by
  refine ⟨?_, ?_, ?_, ?_, ?_, ?_, ?_, ?_, ?_, ?_, ?_, ?_⟩ <;> decide +kernel

end TestAmplifiers

/-! ### clock candidates -/
namespace TestCandidates

def cs (c k : Nat) (s : Machine.State) : Machine.State := sets s [(R.CLK_CANDc_STATUS_state c,k),(R.CLK_CANDc_CFG_en c,1),(R.CLK_CANDc_QUAL_miss_max c,3)]
def pr (s : Machine.State) : Machine.State := sets s [(⟨R.CLK_DOMx_PRIO 0,0,32⟩,0xFFFF4321),(R.CLK_DOMx_STATUS_selected 0,3),(R.CLK_DOMx_STATUS_stage 0,4),(R.CLK_DOMx_STATUS_state 0,3),(R.CLK_DOMx_STATUS_capturing 0,15)]
def p0 := pr run0
def state1 : Machine.State := (cs 3 1 p0)
def state2 : Machine.State := (cs 3 2 p0)
def state3 : Machine.State := (cs 3 3 p0)
def state4 : Machine.State := ((cs 3 3 p0).setCand 3 { stray := true })
def state5 : Machine.State := ((cs 3 3 p0).setCand 3 { misses := 2 })
def state6 : Machine.State := ((cs 3 2 p0).setCand 3 { misses := 2, outside := 1 })
def state7 : Machine.State := ((cs 6 3 p0).wr (R.CLK_DOMx_STATUS_selected 0) 6)
def dr := sets (cs 2 3 (cs 4 3 (cs 3 3 p0))) [(R.CLK_CANDc_DRIFT_drift_max 3,5),(whole (R.CLK_CANDc_SLOPE 2),0x800001F4),(whole (R.CLK_CANDc_SLOPE 4),0x800001F4),(R.CLK_CANDc_DRIFT_xc_en 3,1),(R.CLK_CANDc_DRIFT_drift_en 3,1),(whole (R.CLK_CANDc_FREQ 3),5000)]
def state8 : Machine.State := ((cs 3 3 p0).setCand 3 { outside := 1 })
def dfr (b : Int) := { (dr.setCand 3 { freqs := [(250000000, b), (0, 0)] }) with now := 250000000 }
def state9 : Machine.State := (dfr 5)
def alone : Machine.State := sets (cs 3 3 p0) [(R.CLK_CANDc_DRIFT_drift_max 3,5),(R.CLK_CANDc_DRIFT_drift_en 3,1)]
def twice : Machine.State := (cs 3 3 p0).setCand 3 { outside := 1 }

def alike (s : Machine.State) (slope : BitVec 16) (d : Nat) : Bool := (s.others 3).contains d && (s.reg (R.CLK_CANDc_SLOPE d)).getLsbD 31 &&
  decide (2 * (((s.reg (R.CLK_CANDc_SLOPE d)).setWidth 16).toInt - slope.toInt).natAbs ≤ s.driftMax 3)
def rising (s : Machine.State) : Machine.State := { s.setCand 3 { freqs := [(250000000, 500), (0, 0)] } with now := 250000000 }
def steady : Machine.State := { alone.setCand 3 { freqs := [(250000000, 1), (0, 1)] } with now := 250000000 }
def lastOut : Machine.State := (cs 3 3 p0).setCand 3 { outside := 1 }

/-- States and operands that meet the hypotheses of the clauses of CandidateQualification. -/
theorem witness_CandidateQualification :
    ((edgeCandidate 3 = false ∨ state1.candState 3 < 2)) ∧
    (state1.candState 3 = 1 ∧ state1.candPresent 3 = true ∧ state1.ownDpll 0 = true ∧ state1.prio 0 3 < 15) ∧
    (state1.candState 3 ≠ 2) ∧
    (state1.driftFit 3 = none) ∧
    ((timeCandidate 3 = false ∨ state1.candState 3 < 2)) ∧
    (edgeCandidate 3 = true ∧ 2 ≤ state2.candState 3 ∧ (state2.cand 3).stray = false ∧ (state2.cand 3).misses + 1 < state2.missMax 3) ∧
    (state2.candState 3 = 2 ∧ (state2.cand 3).misses = 0 ∧ (state2.cand 3).outside = 0 ∧ state2.candPresent 3 = true) ∧
    (2 ≤ state2.candState 3 ∧ state2.inFreqWin 3 (0#32).toInt = true) ∧
    (2 ≤ state2.candState 3 ∧ state2.inFreqWin 3 (100001#32).toInt = false ∧ (state2.cand 3).outside = 0) ∧
    (state3.candState 3 = 3 ∧ (state3.cand 3).outside = 0) ∧
    (state3.is (R.CLK_CANDc_DRIFT_xc_en 3) = true ∧ state3.candState 3 = 3 ∧ state3.outvoted 3 = false) ∧
    (edgeCandidate 3 = true ∧ 2 ≤ state4.candState 3 ∧ (state4.cand 3).stray = true) ∧
    (edgeCandidate 3 = true ∧ 2 ≤ state5.candState 3 ∧ (state5.cand 3).stray = false ∧ state5.missMax 3 ≤ (state5.cand 3).misses + 1 ∧ state5.candState 3 = 3 ∧
      state5.ownDpll 0 = true ∧ state5.selected 0 = 3) ∧
    (2 ≤ state6.candState 3 ∧ state6.inFreqWin 3 (100001#32).toInt = false ∧ 1 ≤ (state6.cand 3).outside) ∧
    (timeCandidate 6 = true ∧ 2 ≤ state7.candState 6 ∧ state7.candState 6 = 3 ∧ state7.ownDpll 0 = true ∧ state7.selected 0 = 6) ∧
    (dr.is (R.CLK_CANDc_DRIFT_xc_en 3) = true ∧ dr.candState 3 = 3 ∧ dr.outvoted 3 = true ∧ dr.candState 3 = 3 ∧ dr.ownDpll 0 = true ∧ dr.selected 0 = 3) ∧
    (2 ≤ state8.candState 3 ∧ state8.inFreqWin 3 (100001#32).toInt = false ∧ 1 ≤ (state8.cand 3).outside ∧ state8.candState 3 = 3 ∧ state8.ownDpll 0 = true ∧
      state8.selected 0 = 3) ∧
    (state9.driftFit 3 = some 5#16 ∧ state9.is (R.CLK_CANDc_DRIFT_drift_en 3) = true ∧ 2 ≤ state9.candState 3 ∧ (5#16).toInt.natAbs ≤ state9.driftMax 3) ∧
    (2 ≤ twice.candState 3 ∧ twice.inFreqWin 3 (3000000#32).toInt = false ∧ 1 ≤ (twice.cand 3).outside ∧ twice.candState 3 = 3 ∧ twice.ownDpll 0 = true ∧
      twice.selected 0 = 3) ∧
    ((rising dr).driftFit 3 = some 500 ∧ (rising dr).is (R.CLK_CANDc_DRIFT_drift_en 3) = true ∧ 2 ≤ (rising dr).candState 3 ∧
      (rising dr).driftMax 3 < (500#16).toInt.natAbs ∧ alike (rising dr) 500 2 = true ∧ alike (rising dr) 500 4 = true) ∧
    ((rising alone).driftFit 3 = some 500 ∧ (rising alone).is (R.CLK_CANDc_DRIFT_drift_en 3) = true ∧ (rising alone).driftMax 3 < (500#16).toInt.natAbs ∧
      (∀ d ∈ (rising alone).others 3, alike (rising alone) 500 d = false) ∧ (rising alone).candState 3 = 3) ∧
    (steady.driftFit 3 = some 0 ∧ steady.is (R.CLK_CANDc_DRIFT_drift_en 3) = true ∧ 2 ≤ steady.candState 3 ∧ (0#16).toInt.natAbs ≤ steady.driftMax 3) ∧
    (alone.driftFit 3 = none) ∧
    (lastOut.candState 3 = 3 ∧ 1 ≤ (lastOut.cand 3).outside) := by
  refine ⟨?_, ?_, ?_, ?_, ?_, ?_, ?_, ?_, ?_, ?_, ?_, ?_, ?_, ?_, ?_, ?_, ?_, ?_, ?_, ?_, ?_, ?_, ?_, ?_⟩ <;> decide +kernel

end TestCandidates

/-! ### domain clocks -/
namespace TestClocks

def cs (c k : Nat) (s : Machine.State) : Machine.State := sets s [(R.CLK_CANDc_STATUS_state c,k),(R.CLK_CANDc_CFG_en c,1),(R.CLK_CANDc_QUAL_miss_max c,3)]
def pr (s : Machine.State) : Machine.State := sets s [(⟨R.CLK_DOMx_PRIO 0,0,32⟩,0xFFFF4321),(R.CLK_DOMx_STATUS_selected 0,3),(R.CLK_DOMx_STATUS_stage 0,4),(R.CLK_DOMx_STATUS_state 0,3),(R.CLK_DOMx_STATUS_capturing 0,15)]
def p0 := pr run0
def cl (s : Machine.State) := cs 2 3 (cs 3 3 s)
def state1 : Machine.State := (cl p0)
def state2 : Machine.State := (cs 2 3 p0)
def state3 : Machine.State := ((cl p0).wr (R.CLK_DOMx_CTRL_revertive 0) 1)
def state4 : Machine.State := (p0)
def sw := sets (cl p0) [(R.CLK_DOMx_STATUS_capturing 0,2),(R.CLK_DOMx_STATUS_state 0,4)]
def state5 : Machine.State := (sw.wr (R.CLK_DOMx_CTRL_step_mode 0) 1)
def state6 : Machine.State := (sets (cl p0) [(R.CLK_DOMx_STATUS_ramp 0,1),(R.CLK_DOMx_STATUS_state 0,4)])
def state7 : Machine.State := (sets (cl p0) [(R.CLK_DOMx_STATUS_stage 0,3),(R.CLK_DOMx_STATUS_state 0,2)])
def state8 : Machine.State := ((sets (cl p0) [(R.CLK_DOMx_STATUS_stage 0,2),(R.CLK_DOMx_STATUS_state 0,2)]) |> fun s => { s with glb := { clocksWaiting := [0] } })
def state9 : Machine.State := (((sets p0 [(R.CLK_DOMx_STATUS_selected 0,3)])).setDpll 0 { everImago := true })
def state10 : Machine.State := ((sets (cs 2 3 p0) [(R.CLK_DOMx_STATUS_state 0,5),(R.CLK_DOMx_STATUS_selected 0,15)]).setDpll 0 { cocoon := true })
def state11 : Machine.State := ((sets (cs 2 3 p0) [(R.CLK_DOMx_STATUS_state 0,5),(R.CLK_DOMx_STATUS_selected 0,15),(R.CLK_DOMx_CTRL_hold 0,1)]).setDpll 0 { cocoon := true })
def pu := sets p0 [(R.CLK_OUTo_CTRL_en 4,1),(⟨R.CLK_OUTo_PERIOD 4,0,20⟩,1),(⟨R.CLK_OUTo_PERIOD 4,20,12⟩,7),(R.CLK_OUTo_CTRL_en 6,1),(R.CLK_STATUS_osc_warn,1)]
def state12 : Machine.State := (pu.setPulse 0 { realign := true })
def state13 : Machine.State := ((sets (cl p0) [(R.CLK_DOMx_STATUS_ramp 0,1),(R.CLK_DOMx_STATUS_state 0,4)]).setDpll 0 { cocoon := true })
def state14 : Machine.State := (sets (cs 6 3 p0) [(R.CLK_DOMx_STATUS_selected 0,6),(R.CLK_CANDc_CFG_tb 6,0),(R.CLK_DOMx_CFG_tb 0,0)])
def hiddenSw : Machine.State := sw.setDpll 0 { cocoon := true }
def aligned0 : Machine.State := sets (cs 3 3 p0) [(R.CLK_DOMx_STATUS_aligned 0, 1)]
def timed : Machine.State := sets (cs 6 3 p0) [(R.CLK_DOMx_STATUS_selected 0, 6)]
def measured (f : Word) (warn : Nat) : Machine.State := sets (cs 3 3 (cs 2 3 (cs 4 3 p0))) [(whole (R.CLK_CANDc_FREQ 2), f.toNat), (whole (R.CLK_CANDc_FREQ 3), f.toNat), (whole (R.CLK_CANDc_FREQ 4), f.toNat), (R.CLK_STATUS_osc_warn, warn)]

/-- States and operands that meet the hypotheses of the clauses of ClocksFollowReferences. -/
theorem witness_ClocksFollowReferences :
    (state1.owned (R.CLK_DOMx_CTRL 0) = 0#32 ∧ state1.qualified 0 = false) ∧
    (state1.ramping 0 = false) ∧
    (state1.stage 0 = 4 ∧ state1.selected 0 ≠ 15 ∧ 1000000 < (3000000#32).toInt.natAbs) ∧
    (state1.ownDpll 0 = true ∧ state1.started 0 = true ∧ state1.domState 0 ≠ 5 ∧ state1.cocoonDue 0 = false) ∧
    (state1.ownDpll 0 = true ∧ state1.started 0 = true ∧ state1.domState 0 ≠ 5 ∧ state1.owned (R.CLK_DOMx_CTRL 0) = 0#32 ∧ (state1.dpll 0).everImago = false) ∧
    ((state1.started 0 && state1.ownTime 0 && state1.domState 0 == 3 && state1.stage 0 == 4 && state1.phaseNear 0 (state1.phase 0) && !state1.is (R.CLK_DOMx_STATUS_realign_pending 0) && (state1.dom 0).b != 0) = false) ∧
    (state1.is (R.CLK_OUTo_CTRL_en (4 + 0)) = false) ∧
    (state1.medianFreq = some 0 ∧ Int.natAbs 0 ≤ 100000) ∧
    (state2.ownDpll 0 = true ∧ state2.domState 0 = 3 ∧ state2.eligible 0 = some 2 ∧ 2 ≠ state2.selected 0 ∧ state2.qualified (state2.selected 0) = false) ∧
    (state3.ownDpll 0 = true ∧ state3.domState 0 = 3 ∧ state3.eligible 0 = some 2 ∧ 2 ≠ state3.selected 0 ∧ state3.is (R.CLK_DOMx_CTRL_revertive 0) = true) ∧
    (state4.eligible 0 = none) ∧
    (state4.ownDpll 0 = true ∧ state4.started 0 = true ∧ state4.domState 0 ≠ 5 ∧ state4.cocoonDue 0 = true ∧ (state4.dpll 0).everImago = false) ∧
    (state4.medianFreq = none) ∧
    (sw.capturing 0 ≠ 15 ∧ sw.domState 0 = 4 ∧ sw.qualified (sw.capturing 0) = true ∧
      (timeCandidate (sw.capturing 0) || edgeCandidate (sw.capturing 0) && sw.is (R.CLK_DOMx_CTRL_step_mode 0)) = false) ∧
    (state5.capturing 0 ≠ 15 ∧ state5.domState 0 = 4 ∧ state5.qualified (state5.capturing 0) = true ∧
      (timeCandidate (state5.capturing 0) || edgeCandidate (state5.capturing 0) && state5.is (R.CLK_DOMx_CTRL_step_mode 0)) = true ∧ state5.shortest 0 (0#32).toInt = 0) ∧
    (state5.capturing 0 ≠ 15 ∧ state5.domState 0 = 4 ∧ state5.qualified (state5.capturing 0) = true ∧
      (timeCandidate (state5.capturing 0) || edgeCandidate (state5.capturing 0) && state5.is (R.CLK_DOMx_CTRL_step_mode 0)) = true ∧ state5.shortest 0 (5#32).toInt ≠ 0) ∧
    (state6.ramping 0 = true ∧ state6.capturing 0 = 15) ∧
    (state7.ownDpll 0 = true ∧ state7.selected 0 ≠ 15 ∧ state7.qualified (state7.selected 0) = true ∧ state7.capturing 0 = 15 ∧ state7.ramping 0 = false ∧
      (state7.dpll 0).cocoon = false ∧ (state7.cand (state7.selected 0)).misses = 0 ∧ (0#32).toInt.natAbs ≤ stageLimit (state7.stage 0) ∧ 1 ≤ state7.stage 0 ∧
      state7.stage 0 ≤ 3 ∧ state7.stage 0 = 3 ∧ (state7.dpll 0).locked = false) ∧
    (state7.ownDpll 0 = true ∧ state7.selected 0 ≠ 15 ∧ state7.qualified (state7.selected 0) = true ∧ state7.capturing 0 = 15 ∧ state7.ramping 0 = false ∧
      (state7.dpll 0).cocoon = false ∧ (state7.cand (state7.selected 0)).misses = 0 ∧ (0#32).toInt.natAbs ≤ stageLimit (state7.stage 0) ∧ 1 ≤ state7.stage 0 ∧
      state7.stage 0 ≤ 3 ∧ state7.stage 0 = 3 ∧ state7.domState 0 = 2) ∧
    (state8.ownDpll 0 = true ∧ state8.selected 0 ≠ 15 ∧ state8.qualified (state8.selected 0) = true ∧ state8.capturing 0 = 15 ∧ state8.ramping 0 = false ∧
      (state8.dpll 0).cocoon = false ∧ (state8.cand (state8.selected 0)).misses = 0 ∧ (0#32).toInt.natAbs ≤ stageLimit (state8.stage 0) ∧ 1 ≤ state8.stage 0 ∧
      state8.stage 0 ≤ 3 ∧ 2 ≤ state8.stage 0 ∧ 0 ∈ state8.glb.clocksWaiting) ∧
    (state9.ownDpll 0 = true ∧ state9.started 0 = true ∧ state9.domState 0 ≠ 5 ∧ state9.cocoonDue 0 = true ∧ (state9.dpll 0).everImago = true ∧
      60500 ≤ { mean60 := 5#32, meanImago := 9#32, imagoMs := 100000 : FreqRecord }.imagoMs) ∧
    (state9.ownDpll 0 = true ∧ state9.started 0 = true ∧ state9.domState 0 ≠ 5 ∧ state9.cocoonDue 0 = true ∧ (state9.dpll 0).everImago = true ∧
      { mean60 := 5#32, meanImago := 9#32, imagoMs := 60499 : FreqRecord }.imagoMs < 60500) ∧
    (state9.ownDpll 0 = true ∧ state9.started 0 = true ∧ state9.domState 0 ≠ 5 ∧ state9.owned (R.CLK_DOMx_CTRL 0) = 0#32 ∧ (state9.dpll 0).everImago = true ∧
      60500 ≤ { mean60 := 5#32, meanImago := 9#32, imagoMs := 100000 : FreqRecord }.imagoMs) ∧
    (state9.ownDpll 0 = true ∧ state9.started 0 = true ∧ state9.domState 0 ≠ 5 ∧ state9.owned (R.CLK_DOMx_CTRL 0) = 0#32 ∧ (state9.dpll 0).everImago = true ∧
      { mean60 := 5#32, meanImago := 9#32, imagoMs := 60499 : FreqRecord }.imagoMs < 60500) ∧
    (state10.domState 0 = 5 ∧ state10.eligible 0 = some 2 ∧ state10.is (R.CLK_DOMx_CTRL_hold 0) = false) ∧
    (state10.domState 0 = 5 ∧ state10.eligible 0 = some 2 ∧ state10.owned (R.CLK_DOMx_CTRL 0) = 0#32) ∧
    (state11.domState 0 = 5 ∧ state11.eligible 0 = some 2 ∧ state11.is (R.CLK_DOMx_CTRL_hold 0) = true) ∧
    (pu.is (R.CLK_OUTo_CTRL_en (4 + 0)) = true ∧ 0 < 2 ∧ (pu.pulseOut 0).realign = false ∧
      0 ≤ (↑(pu.rd { addr := R.CLK_OUTo_PERIOD (4 + 0), lsb := 0, width := 20 }) : Int) * 1024 + (pu.pulseOut 0).error) ∧
    (state12.is (R.CLK_OUTo_CTRL_en (4 + 0)) = true ∧ (state12.pulseOut 0).realign = true) ∧
    (state13.ramping 0 = true ∧ state13.capturing 0 = 15 ∧ (state13.dpll 0).cocoon = true) ∧
    ((state14.started 0 && state14.ownTime 0 && state14.domState 0 == 3 && state14.stage 0 == 4 && state14.phaseNear 0 (state14.phase 0) && !state14.is (R.CLK_DOMx_STATUS_realign_pending 0) && (state14.dom 0).b != 0) = true) ∧
    ((cl p0).owned (R.CLK_DOMx_CTRL 0) = 0 ∧ (cl p0).qualified (2#4).toNat = true ∧ (cl p0).ownDpll 0 = true ∧ (cl p0).domState 0 = 3 ∧
      (cl p0).selected 0 ≠ (2#4).toNat) ∧
    (hiddenSw.capturing 0 ≠ 15 ∧ hiddenSw.domState 0 = 4 ∧ hiddenSw.qualified (hiddenSw.capturing 0) = true ∧
      (timeCandidate (hiddenSw.capturing 0) || (edgeCandidate (hiddenSw.capturing 0) && hiddenSw.is (R.CLK_DOMx_CTRL_step_mode 0))) = false ∧
      (hiddenSw.dpll 0).cocoon = true) ∧
    ((timed.started 0 && timed.ownTime 0 && timed.domState 0 == 3 && timed.stage 0 == 4 && timed.phaseNear 0 (timed.phase 0) && !timed.is (R.CLK_DOMx_STATUS_realign_pending 0) && (timed.dom 0).b != 0) = true) ∧
    ((p0.started 0 && p0.ownTime 0 && p0.domState 0 == 3 && p0.stage 0 == 4 && p0.phaseNear 0 (p0.phase 0) && !p0.is (R.CLK_DOMx_STATUS_realign_pending 0) && (p0.dom 0).b != 0) = false) ∧
    ((measured 100001 0).medianFreq = some 100001 ∧ 100000 < (100001 : Int).natAbs ∧ (measured 100001 0).is R.CLK_STATUS_osc_warn = false) ∧
    ((measured 100001 1).medianFreq = some 100001 ∧ (measured 100001 1).is R.CLK_STATUS_osc_warn = true) ∧
    ((measured 100000 1).medianFreq = some 100000 ∧ (100000 : Int).natAbs ≤ 100000) ∧
    (Machine.State.reset.medianFreq = none) := by
  refine ⟨?_, ?_, ?_, ?_, ?_, ?_, ?_, ?_, ?_, ?_, ?_, ?_, ?_, ?_, ?_, ?_, ?_, ?_, ?_, ?_, ?_, ?_, ?_, ?_, ?_, ?_, ?_, ?_, ?_, ?_, ?_, ?_, ?_, ?_, ?_, ?_, ?_, ?_, ?_⟩ <;> decide +kernel

end TestClocks

/-! ### time bases -/
namespace TestTimeBase

def tm (mode st : Nat) : Machine.State := sets { run0 with tbs := [(0,{value := 5*2^40*10^9, integral := 3, good := 7}),(1,{value := 10^9*2^48 + 12345*2^40, o := 5, f := 1/2}),(2,{value := 99})] }
  [(R.TBn_CTRL_mode 1,mode),(R.TBn_STATUS_state 1,st),(whole (R.TBn_ADJ 1),0x50000),(R.CLK_CANDc_CFG_tb 6,1),(R.CLK_CANDc_STATUS_state 6,3),(R.TBn_DERIVE_primary 1,0),(R.TBn_DERIVE_secondary 1,2),(R.TBn_THRESH_lock_thr 1,100)]
def state1 : Machine.State := (tm 0 0)
def state2 : Machine.State := (tm 1 1)
def state3 : Machine.State := (tm 2 2)
def state4 : Machine.State := (tm 2 3)
def state5 : Machine.State := ((tm 2 2).wr (R.TBn_CTRL_servo_hold 1) 1)
def lkd (l : List Nat) (s : Machine.State) := sets s (l.map fun n => (R.TBn_CTRL_mode n,1))
def state6 : Machine.State := (lkd [] (tm 3 5))
def state7 : Machine.State := (lkd [2] ((tm 3 5).wr (R.TBn_DERIVE_sec_en 1) 1))
def state8 : Machine.State := (lkd [0] (tm 3 7))
def state9 : Machine.State := (lkd [0,2] ((tm 3 6).wr (R.TBn_DERIVE_sec_en 1) 1))
def state10 : Machine.State := (lkd [0,2] (sets (tm 3 6) [(R.TBn_DERIVE_sec_en 1, 1),(R.TBn_DERIVE_wtr 1,4)]))
def state11 : Machine.State := (((lkd [0,2] (sets (tm 3 6) [(R.TBn_DERIVE_sec_en 1, 1),(R.TBn_DERIVE_wtr 1,4)]))).setTb 1 { restoring := true })
def state12 : Machine.State := { tm 0 0 with txqs := [(1,[⟨1,2,3,4⟩]),(0, List.replicate 16 ⟨1,2,3,4⟩)] }
def state13 : Machine.State := (lkd [2] ((tm 3 7).wr (R.TBn_DERIVE_sec_en 1) 1))
def queued : Machine.State := { tm 0 0 with txqs := [(1,[⟨1,2,3,4⟩])] }
def near : Machine.State := ((tm 2 2).wr (R.TBn_SERVO_CFG_step_en 1) 0).setTb 1 { good := 254 }

/-- States and operands that meet the hypotheses of the clauses of TimeBases. -/
theorem witness_TimeBases :
    (state1.tbMode 1 = 0 ∧ 6 ∈ [6, 7] ∧ state1.rd (R.CLK_CANDc_CFG_tb 6) = 1 ∧ 2 ≤ state1.candState 6) ∧
    (state1.tbMode 1 ≠ 1) ∧
    ((state1.tbMode 1 ≠ 2 ∨ state1.tbState 1 = 4)) ∧
    ((state1.txq 0).length < 16) ∧
    (state1.txq 0 = []) ∧
    (state2.pending = [] ∧ (state2.tbMode 1 = 1 ∨ state2.tbMode 1 = 2)) ∧
    ((state2.tbMode 1 = 1 ∨ state2.tbMode 1 = 2) ∧ 6 ∈ [6, 7] ∧ state2.rd (R.CLK_CANDc_CFG_tb 6) = 1 ∧ 2 ≤ state2.candState 6) ∧
    (state2.tbMode 1 = 1 ∧ (0#32).toInt.natAbs ≤ 500 * 65536) ∧
    (state2.tbMode 1 = 1 ∧ 500 * 65536 < (50331648#32).toInt.natAbs) ∧
    (state3.tbMode 1 = 2 ∧ state3.is (R.TBn_CTRL_servo_hold 1) = false ∧ (state3.is (R.TBn_SERVO_CFG_step_en 1) && state3.tbState 1 == 2) = true ∧
      (↑(max 1 (state3.rd (R.TBn_THRESH_step_thr 1)) * 1000) : Rat) < max ((↑(BitVec.ofNat 64 (BitVec.toNat ((state3.heldLow (R.TBn_MEAS_LO 1)).getD (state3.reg (R.TBn_MEAS_LO 1))) + 5 * 2 ^ 32)).toInt : Rat) / 65536) (-((↑(BitVec.ofNat 64 (BitVec.toNat ((state3.heldLow (R.TBn_MEAS_LO 1)).getD (state3.reg (R.TBn_MEAS_LO 1))) + 5 * 2 ^ 32)).toInt : Rat) / 65536)) ∧
      6 ∈ [6, 7] ∧ state3.rd (R.CLK_CANDc_CFG_tb 6) = 1 ∧ 2 ≤ state3.candState 6) ∧
    (state3.tbMode 1 = 2 ∧ state3.tbState 1 ≠ 4) ∧
    (state4.tbMode 1 = 2 ∧ state4.is (R.TBn_CTRL_servo_hold 1) = false ∧ state4.tbState 1 ≠ 4 ∧
      (state4.is (R.TBn_SERVO_CFG_step_en 1) && state4.tbState 1 == 2) = false) ∧
    (state4.tbMode 1 = 2 ∧ state4.tbState 1 = 3 ∧
      (↑(state4.rd (R.TBn_THRESH_unlock_thr 1) * 10) : Rat) < max ((↑(BitVec.ofNat 64 (BitVec.toNat ((state4.heldLow (R.TBn_MEAS_LO 1)).getD (state4.reg (R.TBn_MEAS_LO 1))) + 5 * 2 ^ 32)).toInt : Rat) / 65536) (-((↑(BitVec.ofNat 64 (BitVec.toNat ((state4.heldLow (R.TBn_MEAS_LO 1)).getD (state4.reg (R.TBn_MEAS_LO 1))) + 5 * 2 ^ 32)).toInt : Rat) / 65536))) ∧
    (state4.tbMode 1 = 2 ∧ state4.tbState 1 ≠ 4 ∧ state4.tbState 1 = 3) ∧
    (state5.tbMode 1 = 2 ∧ state5.is (R.TBn_CTRL_servo_hold 1) = true ∧ state5.tbState 1 ≠ 4) ∧
    (state6.tbMode 1 = 3 ∧ (state6.tbState 1 = 5 ∨ state6.tbState 1 = 6) ∧ state6.sourceLocked (state6.rd (R.TBn_DERIVE_primary 1)) = false ∧
      (state6.is (R.TBn_DERIVE_sec_en 1) && state6.sourceLocked (state6.rd (R.TBn_DERIVE_secondary 1))) = false) ∧
    (state6.tbMode 1 = 3 ∧ (state6.tbState 1 ≠ 6 ∨ (state6.tb 1).restoring = false)) ∧
    (state6.tbMode 1 = 3 ∧ ((state6.tb 1).o * 65536 < -1 ∨ 1 < (state6.tb 1).o * 65536)) ∧
    (state7.tbMode 1 = 3 ∧ state7.tbState 1 = 5 ∧ state7.sourceLocked (state7.rd (R.TBn_DERIVE_primary 1)) = false ∧
      (state7.is (R.TBn_DERIVE_sec_en 1) && state7.sourceLocked (state7.rd (R.TBn_DERIVE_secondary 1))) = true) ∧
    (state8.tbMode 1 = 3 ∧ state8.tbState 1 = 7 ∧ state8.sourceLocked (state8.rd (R.TBn_DERIVE_primary 1)) = true) ∧
    (state9.tbMode 1 = 3 ∧ state9.tbState 1 = 6 ∧ state9.sourceLocked (state9.rd (R.TBn_DERIVE_primary 1)) = true ∧
      (state9.is (R.TBn_DERIVE_sec_en 1) && state9.sourceLocked (state9.rd (R.TBn_DERIVE_secondary 1))) = true ∧ state9.rd (R.TBn_DERIVE_wtr 1) = 0) ∧
    (state10.tbMode 1 = 3 ∧ state10.tbState 1 = 6 ∧ state10.sourceLocked (state10.rd (R.TBn_DERIVE_primary 1)) = true ∧
      (state10.is (R.TBn_DERIVE_sec_en 1) && state10.sourceLocked (state10.rd (R.TBn_DERIVE_secondary 1))) = true ∧ state10.rd (R.TBn_DERIVE_wtr 1) ≠ 0) ∧
    (state11.tbMode 1 = 3 ∧ state11.tbState 1 = 6 ∧ (state11.tb 1).restoring = true ∧ state11.sourceLocked (state11.rd (R.TBn_DERIVE_primary 1)) = true) ∧
    (state11.tbMode 1 = 3 ∧ (state11.tbState 1 = 5 ∨ state11.tbState 1 = 6) ∧ (state11.tb 1).o = 0 ∧ (state11.tb 1).f = 0) ∧
    (16 ≤ (state12.txq 0).length) ∧
    (state13.tbMode 1 = 3 ∧ state13.tbState 1 = 7 ∧ state13.sourceLocked (state13.rd (R.TBn_DERIVE_primary 1)) = false ∧
      (state13.is (R.TBn_DERIVE_sec_en 1) && state13.sourceLocked (state13.rd (R.TBn_DERIVE_secondary 1))) = true) ∧
    (queued.txq 1 = ⟨1,2,3,4⟩ :: []) ∧
    (near.tbMode 1 = 2 ∧ near.tbState 1 = 2 ∧ (near.is (R.TBn_SERVO_CFG_step_en 1) && near.tbState 1 == 2) = false ∧
      ((near.heldLow (R.TBn_MEAS_LO 1)).getD (near.reg (R.TBn_MEAS_LO 1))) = 0 ∧ 0 ≤ near.rd (R.TBn_THRESH_lock_thr 1) ∧
      max 1 (near.rd (R.TBn_SERVO_CFG_lock_n 1)) ≤ (near.tb 1).good + 1) := by
  refine ⟨?_, ?_, ?_, ?_, ?_, ?_, ?_, ?_, ?_, ?_, ?_, ?_, ?_, ?_, ?_, ?_, ?_, ?_, ?_, ?_, ?_, ?_, ?_, ?_, ?_, ?_, ?_, ?_⟩ <;> decide +kernel

end TestTimeBase

/-! ### MACs and streams -/
namespace TestEthernet

def be (n v : Nat) : List Byte := (leBytes n v).reverse
def rtp (ts : Nat) (pay : List Byte) (pt : Nat := 97) : List Byte :=
  be 6 0x01005E000001 ++ be 6 0x112233445566 ++ be 2 0x0800 ++ [0x45,0] ++ be 2 (20+8+12+pay.length) ++ be 4 0 ++ [64,17] ++ be 2 0 ++ be 4 0x0A000001 ++ be 4 0xEF000001
   ++ be 2 5004 ++ be 2 5004 ++ be 2 (8+12+pay.length) ++ be 2 0 ++ [0x80, BitVec.ofNat 8 pt] ++ be 2 7 ++ be 4 ts ++ be 4 0xABCD ++ pay
def sw (et : Nat) (n : Nat) : List Byte := be 6 0xFFFFFFFFFFFF ++ be 6 0x112233445566 ++ be 2 et ++ List.replicate (n - 14) 5
def fr1 := rtp 970 ((List.range 12).map (BitVec.ofNat 8 ·))
def m0 : Machine.State := sets { run0 with fov := { releasedAt := [] } } [(R.MACm_STATUS_link 0,1),(R.MACm_CTRL_rx_en 0,1),(R.MACm_CTRL_tx_en 0,1),(R.MACm_CTRL_bcast 0,1),(⟨R.MACm_GAP 0,0,24⟩,100000),(R.FOV_STATUS_fence,0)]
def m1 : Machine.State := sets m0 [(R.STRM_RXn_CFG_assigned 3,1),(R.STRM_RXn_CTRL_en 3,1),(R.STRM_RXn_CFG_mac 3,0),(whole (R.STRM_RXn_DST_IP 3),0xEF000001),(⟨R.STRM_RXn_PORTS 3,0,16⟩,5004),(⟨R.STRM_RXn_RTP 3,0,7⟩,97),(R.STRM_RXn_CFG_p 3,1),(R.STRM_RXn_CFG_channels 3,1),(⟨R.STRM_RXn_DEPTH 3,0,16⟩,1000)]
def state1 : Machine.State := (m0.wr (R.MACm_STATUS_link 0) 0)
def state2 : Machine.State := (sets m0 [(R.TBn_CTRL_mode 1,2),(R.TBn_SERVO_CFG_port 1,1)])
def state3 : Machine.State := { m1 with macs := [(0,{ rx := [⟨1,[],List.replicate 131000 0⟩] })]}
def state4 : Machine.State := { m1 with macs := [(0,{ head := some ⟨0,0,sw 0x9999 80, 0⟩ })]}
def state5 : Machine.State := { m1 with macs := [(0,{ head := some ⟨0x80000007,0,sw 0x9999 80, 0⟩ })]}
def state6 : Machine.State := ({ m1 with macs := [(0,{ head := some ⟨0,0,sw 0x9999 80, 0⟩ })]}.wr (R.MACm_STATUS_link 0) 0)
def state7 : Machine.State := ({ m1 with macs := [(0,{ head := some ⟨0,0,sw 0x9999 80, 0⟩ })]}.wr (R.MACm_CTRL_tx_en 0) 0)
def state8 : Machine.State := ({ m1 with macs := [(0,{ head := some ⟨0,0,sw 0x9999 80, 0⟩ })]}.wr ⟨R.MACm_GAP 0,0,24⟩ 3)
def enp (a : Nat) (v : Word) (s : Machine.State) := (s.soften a 1 v).setShWaits a true
def state9 : Machine.State := (enp (R.STRM_TXn_CTRL 3) 1 m0)
def state10 : Machine.State := (enp (R.STRM_TXn_CTRL 3) 0 (m0.setReg (R.STRM_TXn_CTRL 3) 1))
def state11 : Machine.State := (enp (R.STRM_RXn_CTRL 3) 1 m0)
def state12 : Machine.State := (enp (R.STRM_RXn_CTRL 3) 0 (m0.setReg (R.STRM_RXn_CTRL 3) 1))
def state13 : Machine.State := (enp (R.STRM_RXn_CTRL 3) 0 (m0.setDom 0 {b := 96, sample := 5}))
def tx0 : Machine.State := sets { m0 with txStreams := [(3,{ start := some 50, seq := 65535, stage := [(862,[1,2]),(863,[3,4]),(864,[5,6])] })] } [(R.STRM_TXn_CFG_assigned 3,1),(R.STRM_TXn_CFG_p 3,1),(R.STRM_TXn_CFG_mac 3,0)]
def state14 : Machine.State := (m0.wr (R.MACm_EEE_en 0) 1)
def state15 : Machine.State := (sets m0 [(R.MACm_EEE_en 0, 1),(R.MACm_STATUS_tx_lpi 0,1)])
def state16 : Machine.State := (sets m0 [(R.MACm_EEE_en 0, 1),(R.LANEn_CTRL_idle_en 2,1)])
def state17 : Machine.State := (sets m0 [(R.LANEn_STATUS_rx_idle 2,1)])
def late1 : List Byte := rtp 0xFFFFFF00 ((List.range 12).map (BitVec.ofNat 8 ·))
def fullOf (b : List Byte) : Machine.State := { m1 with macs := [(0, { rx := [⟨1, [], b⟩] })] }
def fullRx : Machine.State := fullOf (List.replicate 131000 0)
theorem fullOf_admits (b : List Byte) (h : 131000 ≤ b.length) : (fullOf b).admits 0 1 80 = false := by
  simp [State.admits, State.rxUsed, State.mac, fullOf, Tab.get]; omega
/-- A receive queue that holds 131000 bytes admits no frame of 80: the refusal clause of EthernetAndStreams. -/
theorem witness_EthernetAndStreams_full : fullRx.admits 0 1 80 = false := fullOf_admits _ (by rw [List.length_replicate])
def old2 : Machine.State := { m0 with now := 250001, macs := [(0, { head := some { w0 := 0, w1 := 0, bytes := sw 1 64, since := 0 } })] }

/-- States and operands that meet the hypotheses of the clauses of EthernetAndStreams. -/
theorem witness_EthernetAndStreams :
    (state1.linkIsUp 0 = false ∧ ((state1.is (R.MACm_CTRL_an_en 0) && state1.speed 0 == 0) = false ∨ false = true)) ∧
    ((state1.is (R.MACm_CTRL_rx_en 0) = false ∨ state1.linkIsUp 0 = false)) ∧
    ((state1.mac 0).head = none) ∧
    ((state1.is (R.STRM_TXn_CFG_assigned 3) = false ∨ state1.halted = true)) ∧
    (((state1.mac 0).head ≠ none ∨ state1.is (R.MACm_EEE_en 0) = false)) ∧
    (state1.is (R.MACm_STATUS_tx_lpi 0) = false) ∧
    ((state2.linkIsUp 0 = true ∨ (state2.is (R.MACm_CTRL_an_en 0) && state2.speed 0 == 0) = true ∧ false = false)) ∧
    (state2.linkIsUp 0 = true ∧ state2.is (R.LANEn_STATUS_rx_idle (2 + 0)) = false ∧ 1 < 4 ∧ state2.tbMode 1 = 2 ∧ state2.rd (R.TBn_SERVO_CFG_port 1) = 0 + 1) ∧
    (state2.is (R.MACm_CTRL_rx_en 0) = true ∧ state2.linkIsUp 0 = true ∧ ([] : List Byte).length < 64) ∧
    (state2.is (R.MACm_CTRL_rx_en 0) = true ∧ state2.linkIsUp 0 = true ∧ 64 ≤ (sw 34824 70).length ∧ (sw 34824 70).length ≤ state2.maxLen 0 ∧
      ethertype (sw 34824 70) = 34824) ∧
    (state2.is (R.MACm_CTRL_rx_en 0) = true ∧ state2.linkIsUp 0 = true ∧ 64 ≤ fr1.length ∧ fr1.length ≤ state2.maxLen 0 ∧ ethertype fr1 ≠ 34824 ∧
      (state2.addrPass 0 fr1 = false ∧ state2.rxStreamOf 0 fr1 = none ∨ state2.vlanPass 0 fr1 = false)) ∧
    (state2.is (R.MACm_CTRL_rx_en 0) = true ∧ state2.linkIsUp 0 = true ∧ 64 ≤ (sw 35063 64).length ∧ (sw 35063 64).length ≤ state2.maxLen 0 ∧
      ethertype (sw 35063 64) ≠ 34824 ∧ state2.addrPass 0 (sw 35063 64) = true ∧ state2.vlanPass 0 (sw 35063 64) = true ∧ state2.rxStreamOf 0 (sw 35063 64) = none ∧
      (state2.admits 0 (if ptpClass (sw 35063 64) = true then 0 else 1) (if (state2.is (R.MACm_CTRL_strip 0) && tagged (sw 35063 64)) = true then List.take 12 (sw 35063 64) ++ List.drop 16 (sw 35063 64) else sw 35063 64).length = true)) ∧
    (state2.is (R.MACm_CTRL_rx_en 0) = true ∧ state2.linkIsUp 0 = true ∧ 64 ≤ (sw 39321 2000).length ∧ state2.maxLen 0 < (sw 39321 2000).length ∧
      ethertype (List.take (state2.maxLen 0) (sw 39321 2000)) ≠ 34824 ∧ state2.addrPass 0 (List.take (state2.maxLen 0) (sw 39321 2000)) = true ∧
      state2.vlanPass 0 (List.take (state2.maxLen 0) (sw 39321 2000)) = true ∧ state2.is (R.MACm_CTRL_strip 0) = false ∧
      state2.admits 0 1 (List.take (state2.maxLen 0) (sw 39321 2000)).length = true) ∧
    (m1.is (R.MACm_CTRL_rx_en 0) = true ∧ m1.linkIsUp 0 = true ∧ 64 ≤ (rtp 970 [1#8, 2#8, 3#8, 4#8, 5#8, 6#8, 7#8, 8#8, 9#8, 10#8, 11#8, 12#8] 96).length ∧
      (rtp 970 [1#8, 2#8, 3#8, 4#8, 5#8, 6#8, 7#8, 8#8, 9#8, 10#8, 11#8, 12#8] 96).length ≤ m1.maxLen 0 ∧
      ethertype (rtp 970 [1#8, 2#8, 3#8, 4#8, 5#8, 6#8, 7#8, 8#8, 9#8, 10#8, 11#8, 12#8] 96) ≠ 34824 ∧
      m1.vlanPass 0 (rtp 970 [1#8, 2#8, 3#8, 4#8, 5#8, 6#8, 7#8, 8#8, 9#8, 10#8, 11#8, 12#8] 96) = true ∧
      m1.rxStreamOf 0 (rtp 970 [1#8, 2#8, 3#8, 4#8, 5#8, 6#8, 7#8, 8#8, 9#8, 10#8, 11#8, 12#8] 96) = some 3 ∧
      m1.rxBad 3 (rtp 970 [1#8, 2#8, 3#8, 4#8, 5#8, 6#8, 7#8, 8#8, 9#8, 10#8, 11#8, 12#8] 96) = true) ∧
    (m1.is (R.MACm_CTRL_rx_en 0) = true ∧ m1.linkIsUp 0 = true ∧ 64 ≤ fr1.length ∧ fr1.length ≤ m1.maxLen 0 ∧ ethertype fr1 ≠ 34824 ∧ m1.vlanPass 0 fr1 = true ∧
      m1.rxStreamOf 0 fr1 = some 3 ∧ m1.rxBad 3 fr1 = false ∧ 0 ≤ (m1.rxPosition 3 fr1).1 ∧
      (m1.rx 3).next ≤ (m1.rxPosition 3 fr1).1.toNat / (m1.dom (m1.rd (R.STRM_RXn_CFG_domain 3))).b ∧
      (m1.rxPosition 3 fr1).1 + (↑(m1.rxP 3) : Int) - 1 ≤ (↑(m1.dom (m1.rd (R.STRM_RXn_CFG_domain 3))).sample.toNat : Int) + (↑(m1.rd { addr := R.STRM_RXn_DEPTH 3, lsb := 0, width := 16 }) : Int) ∧
      (∀ k ∈ (m1.rx 3).slots, (↑k.pos : Int) < (m1.rxPosition 3 fr1).1 ∨ (m1.rxPosition 3 fr1).1 + (↑(m1.rxP 3) : Int) ≤ (↑k.pos : Int))) ∧
    (state3.is (R.MACm_CTRL_rx_en 0) = true ∧ state3.linkIsUp 0 = true ∧ 64 ≤ (sw 39321 80).length ∧ (sw 39321 80).length ≤ state3.maxLen 0 ∧
      ethertype (sw 39321 80) ≠ 34824 ∧ state3.addrPass 0 (sw 39321 80) = true ∧ state3.vlanPass 0 (sw 39321 80) = true ∧ state3.rxStreamOf 0 (sw 39321 80) = none ∧
      (state3.admits 0 (if ptpClass (sw 39321 80) = true then 0 else 1) (if (state3.is (R.MACm_CTRL_strip 0) && tagged (sw 39321 80)) = true then List.take 12 (sw 39321 80) ++ List.drop 16 (sw 39321 80) else sw 39321 80).length = false)) ∧
    ((state4.mac 0).head = some { w0 := 0#32, w1 := 0#32, bytes := sw 39321 80 : TxFrame } ∧ state4.halted = false ∧ state4.txPath 0 = true ∧
      state4.is (R.MACm_CTRL_tx_en 0) = true ∧
      state4.txTime 0 (state4.txBytes 0 { w0 := 0#32, w1 := 0#32, bytes := sw 39321 80 : TxFrame }).1.length ≤ state4.rd { addr := R.MACm_GAP 0, lsb := 0, width := 24 } ∧
      state4.is (R.MACm_STATUS_tx_lpi 0) = false ∧ patternOn (state4.rd (R.LANEn_PRBS_CTRL_gen_pat (2 + 0))) = false ∧
      0 < state4.txTime 0 (state4.txBytes 0 { w0 := 0#32, w1 := 0#32, bytes := sw 39321 80 : TxFrame }).1.length) ∧
    ((state4.mac 0).head = some { w0 := 0#32, w1 := 0#32, bytes := sw 39321 80 : TxFrame } ∧ state4.halted = false ∧ state4.txPath 0 = true ∧
      state4.is (R.MACm_CTRL_tx_en 0) = true ∧
      state4.txTime 0 (state4.txBytes 0 { w0 := 0#32, w1 := 0#32, bytes := sw 39321 80 : TxFrame }).1.length ≤ state4.rd { addr := R.MACm_GAP 0, lsb := 0, width := 24 } ∧
      state4.is (R.MACm_STATUS_tx_lpi 0) = false ∧ patternOn (state4.rd (R.LANEn_PRBS_CTRL_gen_pat (2 + 0))) = false ∧
      state4.txTime 0 (state4.txBytes 0 { w0 := 0#32, w1 := 0#32, bytes := sw 39321 80 : TxFrame }).1.length ≤ 958 ∧
      BitVec.getLsbD { w0 := 0#32, w1 := 0#32, bytes := sw 39321 80 : TxFrame }.w0 31 = false) ∧
    ((state4.mac 0).head = some { w0 := 0#32, w1 := 0#32, bytes := sw 39321 80 : TxFrame } ∧ state4.halted = false ∧
      state4.now ≤ { w0 := 0#32, w1 := 0#32, bytes := sw 39321 80 : TxFrame }.since + 2500 * max 1 (state4.rd { addr := R.MACm_TX_AGE 0, lsb := 0, width := 16 })) ∧
    ((state5.mac 0).head = some { w0 := 2147483655#32, w1 := 0#32, bytes := sw 39321 80 : TxFrame } ∧ state5.halted = false ∧ state5.txPath 0 = true ∧
      state5.is (R.MACm_CTRL_tx_en 0) = true ∧
      state5.txTime 0 (state5.txBytes 0 { w0 := 2147483655#32, w1 := 0#32, bytes := sw 39321 80 : TxFrame }).1.length ≤ state5.rd { addr := R.MACm_GAP 0, lsb := 0, width := 24 } ∧
      state5.is (R.MACm_STATUS_tx_lpi 0) = false ∧ patternOn (state5.rd (R.LANEn_PRBS_CTRL_gen_pat (2 + 0))) = false ∧
      state5.txTime 0 (state5.txBytes 0 { w0 := 2147483655#32, w1 := 0#32, bytes := sw 39321 80 : TxFrame }).1.length ≤ 958 ∧
      BitVec.getLsbD { w0 := 2147483655#32, w1 := 0#32, bytes := sw 39321 80 : TxFrame }.w0 31 = true ∧ (state5.txq 0).length < 16) ∧
    ((state6.mac 0).head = some { w0 := 0#32, w1 := 0#32, bytes := sw 39321 80 : TxFrame } ∧ state6.halted = false ∧
      BitVec.getLsbD { w0 := 0#32, w1 := 0#32, bytes := sw 39321 80 : TxFrame }.w0 31 = false ∧ state6.txPath 0 = false) ∧
    ((state7.mac 0).head = some { w0 := 0#32, w1 := 0#32, bytes := sw 39321 80 : TxFrame } ∧ state7.halted = false ∧
      BitVec.getLsbD { w0 := 0#32, w1 := 0#32, bytes := sw 39321 80 : TxFrame }.w0 31 = false ∧ state7.txPath 0 = true ∧ state7.is (R.MACm_CTRL_tx_en 0) = false) ∧
    ((state8.mac 0).head = some { w0 := 0#32, w1 := 0#32, bytes := sw 39321 80 : TxFrame } ∧ state8.halted = false ∧
      BitVec.getLsbD { w0 := 0#32, w1 := 0#32, bytes := sw 39321 80 : TxFrame }.w0 31 = false ∧ state8.txPath 0 = true ∧ state8.is (R.MACm_CTRL_tx_en 0) = true ∧
      state8.rd { addr := R.MACm_GAP 0, lsb := 0, width := 24 } < state8.txTime 0 (state8.txBytes 0 { w0 := 0#32, w1 := 0#32, bytes := sw 39321 80 : TxFrame }).1.length) ∧
    (state9.atBoundary (state9.txDomain 3) = true ∧ state9.is { addr := R.STRM_TXn_CTRL 3, lsb := 0, width := 1 } = false ∧
      (state9.shTake (R.STRM_TXn_CTRL 3)).is { addr := R.STRM_TXn_CTRL 3, lsb := 0, width := 1 } = true) ∧
    (state10.atBoundary (state10.txDomain 3) = true ∧ state10.is { addr := R.STRM_TXn_CTRL 3, lsb := 0, width := 1 } = true ∧
      (state10.shTake (R.STRM_TXn_CTRL 3)).is { addr := R.STRM_TXn_CTRL 3, lsb := 0, width := 1 } = false) ∧
    (state11.atBoundary (state11.rd (R.STRM_RXn_CFG_domain 3)) = true ∧ state11.is (R.STRM_RXn_CTRL_en 3) = false ∧
      (state11.shTake (R.STRM_RXn_CTRL 3)).is (R.STRM_RXn_CTRL_en 3) = true) ∧
    (state12.atBoundary (state12.rd (R.STRM_RXn_CFG_domain 3)) = true ∧ state12.is (R.STRM_RXn_CTRL_en 3) = true ∧
      (state12.shTake (R.STRM_RXn_CTRL 3)).is (R.STRM_RXn_CTRL_en 3) = false) ∧
    (state13.atBoundary (state13.txDomain 3) = false) ∧
    (tx0.is (R.STRM_TXn_CFG_assigned 3) = true ∧ (tx0.dom (tx0.txDomain 3)).sample.toNat = 862 + tx0.txP 3 + (tx0.dom (tx0.txDomain 3)).b ∧
      862 % tx0.txP 3 = tx0.rd (R.STRM_TXn_CFG_phase 3) ∧ (∃ a, (tx0.tx 3).start = some a ∧ a ≤ 862) ∧ (tx0.tx 3).stop = none ∧ tx0.halted = false ∧
      tx0.legs.contains 3 = false ∧ tx0.fenced = false ∧ tx0.fov.releasedAt = [] ∧ tx0.soft 6 (tx0.txDomain 3) = false ∧ tx0.rd (R.STRM_TXn_CFG_mac 3) = 0 ∧
      tx0.txPath 0 = true ∧ patternOn (tx0.rd (R.LANEn_PRBS_CTRL_gen_pat (2 + 0))) = false ∧ tx0.is (R.MACm_CTRL_tx_en 0) = true ∧ (tx0.tx 3).silent = false ∧
      (tx0.tx 3).fade = Fade.none ∧ tx0.txSamples 3 862 = List.map some [[1#24, 2#24], [3#24, 4#24]] ∧ tx0.is (R.STRM_TXn_CFG_l16 3) = false) ∧
    (state14.is (R.MACm_EEE_en 0) = true ∧ state14.linkIsUp 0 = true ∧ (state14.mac 0).head = none ∧ state14.is (R.MACm_STATUS_tx_lpi 0) = false) ∧
    (state15.is (R.MACm_STATUS_tx_lpi 0) = true) ∧
    (state16.is (R.MACm_EEE_en 0) = true ∧ state16.linkIsUp 0 = true ∧ (state16.mac 0).head = none ∧ state16.is (R.MACm_STATUS_tx_lpi 0) = false ∧
      state16.is (R.LANEn_CTRL_idle_en (2 + 0)) = true ∧ (state16.speed 0 = 0 ∨ state16.speed 0 = 2) ∧ state16.laneTested (2 + 0) = false) ∧
    (state17.is (R.LANEn_STATUS_rx_idle (2 + 0)) = true) ∧
    (m1.is (R.MACm_CTRL_rx_en 0) = true ∧ m1.linkIsUp 0 = true ∧ 64 ≤ late1.length ∧ late1.length ≤ m1.maxLen 0 ∧ ethertype late1 ≠ 34824 ∧
      m1.vlanPass 0 late1 = true ∧ m1.rxStreamOf 0 late1 = some 3 ∧ m1.rxBad 3 late1 = false ∧ (m1.rxPosition 3 late1).1 < 0) ∧
    (fullRx.is (R.MACm_CTRL_rx_en 0) = true ∧ fullRx.linkIsUp 0 = true ∧ (sw 39321 80).length = 80 ∧ 80 ≤ fullRx.maxLen 0 ∧ ethertype (sw 39321 80) ≠ 34824 ∧
      ptpClass (sw 39321 80) = false ∧ fullRx.is (R.MACm_CTRL_strip 0) = false ∧ fullRx.addrPass 0 (sw 39321 80) = true ∧ fullRx.vlanPass 0 (sw 39321 80) = true ∧
      fullRx.rxStreamOf 0 (sw 39321 80) = none) ∧
    (((old2.mac 0).head.map (·.w0.getLsbD 31)) = some false ∧ old2.halted = false ∧ 0 + 2500 * max 1 (old2.rd ⟨R.MACm_TX_AGE 0, 0, 16⟩) < old2.now) := by
  refine ⟨?_, ?_, ?_, ?_, ?_, ?_, ?_, ?_, ?_, ?_, ?_, ?_, ?_, ?_, ?_, ?_, ?_, ?_, ?_, ?_, ?_, ?_, ?_, ?_, ?_, ?_, ?_, ?_, ?_, ?_, ?_, ?_, ?_, ?_, ?_, ?_⟩ <;> decide +kernel

end TestEthernet

/-! ### serial lanes -/
namespace TestLanes

def l0 (n st : Nat) (l : List (FieldAt × Nat) := []) : Machine.State := sets run0 ([(R.LANEn_CFG_protocol n,1),(R.LANEn_STATUS_state n,st),(whole R.LANE_REFCLK_STATUS,7),(⟨R.LANEn_EB n,0,6⟩,16)] ++ l)
def mnt (s : Machine.State) : Machine.State := s.setReg R.CFG_MODE_HELD 0x201
def state1 : Machine.State := (l0 0 0)
def state2 : Machine.State := (l0 4 1)
def state3 : Machine.State := (l0 2 2)
def state4 : Machine.State := (l0 4 3)
def state5 : Machine.State := (l0 4 4)
def state6 : Machine.State := (l0 4 5 [(R.LANEn_STATUS_state 5,6),(R.NRXk_STATUS_state 0,1)])
def state7 : Machine.State := (l0 4 6)
def state8 : Machine.State := (l0 4 7 [(R.LANEn_STATUS_leave 4,1)])
def state9 : Machine.State := (l0 4 6 [(⟨R.LANEn_SCAN_STATUS 4,0,1⟩,1),(R.LANEn_STATUS_clk_fallback 4,1),(R.LANEn_CFG_embedded 4,1)])
def state10 : Machine.State := (l0 5 3 [(⟨R.LANEn_SCAN_STATUS 5,0,1⟩,1),(R.LANEn_CFG_embedded 4,1),(R.LANEn_CFG_embedded 5,1)])
def state11 : Machine.State := (l0 2 6 [(R.LANEn_STATUS_rx_idle 2,1)])
def state12 : Machine.State := (l0 4 6 [(whole R.LANE_REFCLK_STATUS,3)])
def state13 : Machine.State := (mnt (l0 4 6 [(R.LANEn_PRBS_CTRL_chk_pat 4,3),(⟨R.LANEn_PRBS_STATUS 4,0,1⟩,1),(whole (R.LANEn_PRBS_ERR 4),5)]))
def state14 : Machine.State := (mnt (l0 4 1 [(R.LANEn_PRBS_CTRL_chk_pat 4,3),(R.LANEn_PRBS_CTRL_gen_pat 4,2)]))
def state15 : Machine.State := (l0 2 2 [(⟨R.LANEn_SCAN_STATUS 2,0,1⟩,1)])
def state16 : Machine.State := (l0 2 6 [(R.LANEn_STATUS_rx_idle 2,1),(⟨R.LANEn_SCAN_STATUS 2,0,1⟩,1)])

/-- States and operands that meet the hypotheses of the clauses of SerialLanes. -/
theorem witness_SerialLanes :
    (state1.laneState 0 ≠ 2) ∧
    (state1.laneState 0 ≠ 3) ∧
    (state1.laneState 0 ≠ 4) ∧
    (state1.laneState 0 ≠ 5) ∧
    ((state1.laneState 0 < 3 ∨ 5 < state1.laneState 0)) ∧
    (state1.laneState 0 < 3) ∧
    (state1.is (R.LANEn_STATUS_rx_idle 0) = false) ∧
    (state1.laneUsed 0 = true ∧ (state1.laneState 0 ≠ 6 ∨ state1.is { addr := R.LANEn_SCAN_STATUS 0, lsb := 0, width := 1 } = true)) ∧
    (state1.laneState 0 ≠ 7) ∧
    (state1.elastic 0 = false) ∧
    (state1.laneState (4 + 2 * 0) ≠ 6) ∧
    (state1.refclk 0 = true) ∧
    (state1.laneUsed 0 = true ∧ state1.owned (R.LANEn_PRBS_CTRL 0) = 0#32 ∧ patternOn (getBits (5#32) 0 4) = true ∧ state1.loopsMay 0 = false) ∧
    (state1.laneUsed 0 = true ∧ state1.owned (R.LANEn_PRBS_CTRL 0) = 0#32 ∧ (patternOn (getBits (0#32) 0 4) = false ∨ state1.loopsMay 0 = true)) ∧
    (state1.laneUsed 0 = true ∧ state1.owned (R.LANEn_SCAN_CTRL 0) = 0#32 ∧
      (state1.testsMay = false ∨ state1.laneState 0 ≠ 6 ∨ state1.is { addr := R.LANEn_SCAN_STATUS 0, lsb := 0, width := 1 } = true)) ∧
    (state1.is { addr := R.LANEn_SCAN_STATUS 0, lsb := 0, width := 1 } = false) ∧
    (state2.refclk (refclkOf 4) = true ∧ state2.laneState 4 = 1) ∧
    (state2.refclk 2 = true ∧ refclkOf 4 = 2 ∧ state2.laneUsed 4 = true ∧ state2.laneState 4 ≠ 0) ∧
    (state3.laneState 2 = 2) ∧
    (state4.laneState 4 = 3) ∧
    (3 ≤ state4.laneState 4 ∧ state4.laneState 4 ≤ 5) ∧
    (state4.elastic 4 = true) ∧
    (state5.laneState 4 = 4) ∧
    (state6.laneState 4 = 5 ∧ linkOf 4 = some 0 ∧ state6.linkState 0 = 1 ∧ state6.laneState (4 + 2 * 0 + (1 - 4 % 2)) = 6) ∧
    (state7.laneUsed 4 = true ∧ state7.laneState 4 = 6 ∧ state7.is { addr := R.LANEn_SCAN_STATUS 4, lsb := 0, width := 1 } = false) ∧
    (state7.laneState (4 + 2 * 0) = 6) ∧
    (state8.laneState 4 = 7) ∧
    (3 ≤ state9.laneState 4 ∧ state9.is { addr := R.LANEn_SCAN_STATUS 4, lsb := 0, width := 1 } = true) ∧
    (3 ≤ state10.laneState 5 ∧ state10.laneState 5 ≤ 5 ∧ state10.is { addr := R.LANEn_SCAN_STATUS 5, lsb := 0, width := 1 } = true) ∧
    (state10.embeddedPair 0 = true ∧ state10.laneState (4 + 2 * 0) ≠ 6 ∧ state10.laneState (4 + 2 * 0) ≠ 7 ∧
      state10.is (R.LANEn_STATUS_clk_fallback (4 + 2 * 0)) = false) ∧
    (state11.laneState 2 = 6 ∧ (2 = 2 ∨ 2 = 3)) ∧
    (state11.is (R.LANEn_STATUS_rx_idle 2) = true) ∧
    (state12.refclk (refclkOf 4) = false) ∧
    (state12.refclk 2 = false) ∧
    (state13.laneUsed 4 = true ∧ state13.loopsMay 4 = true ∧ state13.owned (R.LANEn_LOOP 4) = 0#32 ∧
      state13.rd { addr := R.LANEn_LOOP 4, lsb := 0, width := 2 } ≠ 1 ∧ 2 ≤ state13.laneState 4) ∧
    (state13.laneUsed 4 = true ∧ state13.rd (R.LANEn_PRBS_CTRL_chk_pat 4) ∈ [1, 2, 3, 4, 5, 6] ∧
      state13.is { addr := R.LANEn_PRBS_STATUS 4, lsb := 0, width := 1 } = true) ∧
    (state13.laneUsed 4 = true ∧ state13.owned (R.LANEn_SCAN_CTRL 4) = 0#32 ∧ state13.testsMay = true ∧ state13.laneState 4 = 6 ∧
      state13.is { addr := R.LANEn_SCAN_STATUS 4, lsb := 0, width := 1 } = false) ∧
    (state14.laneUsed 4 = true ∧ state14.loopsMay 4 = true ∧ state14.owned (R.LANEn_LOOP 4) = 0#32 ∧
      state14.rd { addr := R.LANEn_LOOP 4, lsb := 0, width := 2 } ≠ 1 ∧ state14.laneState 4 < 2) ∧
    (state14.laneUsed 4 = true ∧ state14.rd (R.LANEn_PRBS_CTRL_chk_pat 4) ∈ [1, 2, 3, 4, 5, 6] ∧
      state14.is { addr := R.LANEn_PRBS_STATUS 4, lsb := 0, width := 1 } = false) ∧
    (state15.laneState 2 = 2 ∧ state15.is { addr := R.LANEn_SCAN_STATUS 2, lsb := 0, width := 1 } = true) ∧
    (state16.is (R.LANEn_STATUS_rx_idle 2) = true ∧ state16.is { addr := R.LANEn_SCAN_STATUS 2, lsb := 0, width := 1 } = true) := by
  refine ⟨?_, ?_, ?_, ?_, ?_, ?_, ?_, ?_, ?_, ?_, ?_, ?_, ?_, ?_, ?_, ?_, ?_, ?_, ?_, ?_, ?_, ?_, ?_, ?_, ?_, ?_, ?_, ?_, ?_, ?_, ?_, ?_, ?_, ?_, ?_, ?_, ?_, ?_, ?_, ?_, ?_⟩ <;> decide +kernel

end TestLanes

/-! ### Nerax links -/
namespace TestNerax

def pay (n : Nat) : List Byte := (List.range 256).map fun i => BitVec.ofNat 8 (i + n)
def fr (type : Nat) (seq : BitVec 12) (ak : Fin 4) (ack : BitVec 12) (body : BitVec 26) : NrxFrame := ⟨type, seq, ack, ak, body, pay type⟩
def hd (q : BitVec 12) (t : Option Nat) (e : Bool) : Held := ⟨fr (if t.isSome then 1 else 2) q 1 0 0, 0, t, e⟩
def nl (st : Nat) (l : Nerax) (r : List (FieldAt × Nat) := []) : Machine.State := (sets run0 ([(R.NRXk_STATUS_state 1,st)] ++ r)).setLink 1 l
def L0 : Nerax := { last := 5, held := [hd 1 (some 3) true, hd 2 (some 9) false, hd 3 none true], credits := 10, owed := 0, start := [(0,2),(1,2),(2,2)] }
def state1 : Machine.State := (nl 1 L0)
def state2 : Machine.State := (nl 5 L0)
def state3 : Machine.State := (nl 5 {L0 with fails := 7, owed := 1})
def state4 : Machine.State := (nl 5 {L0 with fails := 6, owed := 2, held := []})
def state5 : Machine.State := (nl 5 {L0 with head := some []})
def lk (id : Nat) (p c : Endpoint) (d : DomIx) (ch : List Nat) (cr : Nat) : Machine.Lock := { spec := { id := id, depth := 2, domain := d, producer := p, consumer := c, channels := ch, hops := 0 }, credit := cr, flight := [], present := [], missed := [], asm := [], last := none, refade := none }
def prt (g t i : Nat) : BargePart := ⟨g,t,i,pay i⟩
def br (cr : Nat) (parts : List BargePart) (r : List (FieldAt × Nat) := []) : Machine.State := { nl 5 {L0 with parts := parts} r with locks := [(2, lk 2 (.nerax 1) .router 0 [4,5] cr), (7, lk 7 .router (.nerax 1) 0 [4] 2)] }
def tn (st : Nat) (l : Nerax) (r : List (FieldAt × Nat) := []) : Machine.State := ((nl st l ([(R.NRXk_CFG_peer 1,3),(whole R.CFG_IMAGE_ID_LO,0x1122),(R.CFG_STATUS_loaded,1),(whole (R.NRXk_DELAY_MAX 1),100000),(R.NRXk_CFG_upstream 1,1)] ++ r)))
def LL : Machine.State → Machine.State := fun s => { s with locks := [(2, lk 2 (.nerax 1) .router 0 [4,5] 2), (7, lk 7 .router (.nerax 1) 0 [4] 2)], lastGood := [(2,some ⟨3,[1,2]⟩)] }
def hl (n : Word) (s : Machine.State) := s.setReg R.CFG_MODE_HELD n
def state6 : Machine.State := (tn 0 L0)
def state7 : Machine.State := (tn 2 L0)
def state8 : Machine.State := (tn 3 L0)
def state9 : Machine.State := (tn 4 { L0 with delays := List.replicate 16 5 })
def state10 : Machine.State := (hl 0x80 (tn 4 { L0 with delays := [1,2,3] }))
def state11 : Machine.State := (tn 4 L0 [(R.FOV_CFG_paired,1),(R.FOV_CFG_mirror,1),(R.FOV_STATUS_state,2)])
def state12 : Machine.State := (LL (hl 0x80 (tn 5 L0 [(R.NRXk_STATUS_timing_valid 1,1),(R.CLK_CANDc_STATUS_state 8,3)])))
def whole1 (s : Machine.State) (q : Machine.Lock) (t : Nat) : Bool := (List.range (ceilDiv (3 * s.bargeWords q) 256)).all fun i =>
  (s.link 1).parts.any fun p => (decide (p.group = 0) && decide (p.tag = t)) && decide (p.part = i)
def in2 (cr : Nat) : Machine.Lock := lk 2 (.nerax 1) .router 0 [4,5] cr
def full : Machine.State := br 2 [prt 0 9 0, prt 0 9 2, prt 0 9 1]
def noCredit : Machine.State := br 0 [prt 0 9 0, prt 0 9 2, prt 0 9 1]
def old7 : Machine.State := br 2 [prt 0 7 0, prt 0 7 2, prt 0 7 1]
def none1 : Machine.State := br 2 []

/-- States and operands that meet the hypotheses of the clauses of NeraxFrames. -/
theorem witness_NeraxFrames :
    (state1.linkState 1 < 2) ∧
    ((state1.link 1).owed = 0) ∧
    ((state1.link 1).head = none) ∧
    (2 ≤ state2.linkState 1 ∧ (false = false ∨ (fr 1 (6#12) 0 0#12 54880137#26).type = 0 ∨ 6 < (fr 1 (6#12) 0 0#12 54880137#26).type) ∧
      (fr 1 (6#12) 0 0#12 54880137#26).type ≠ 3) ∧
    (2 ≤ state2.linkState 1 ∧ (false = false ∨ (fr 3 (6#12) 0 0#12 0#26).type = 0 ∨ 6 < (fr 3 (6#12) 0 0#12 0#26).type) ∧ (fr 3 (6#12) 0 0#12 0#26).type = 3 ∧
      (state2.link 1).missed ≠ 3) ∧
    (2 ≤ state2.linkState 1 ∧ 1 ≤ (fr 3 (6#12) 0 0#12 0#26).type ∧ (fr 3 (6#12) 0 0#12 0#26).type ≤ 6 ∧ state2.txLocks 1 = [] ∧
      (fr 3 (6#12) 0 0#12 0#26).ackKind = 0 ∧ numbered (fr 3 (6#12) 0 0#12 0#26).type = false) ∧
    (2 ≤ state2.linkState 1 ∧ 1 ≤ (fr 6 (6#12) 1 2#12 0#26).type ∧ (fr 6 (6#12) 1 2#12 0#26).type ≤ 6 ∧ state2.txLocks 1 = [] ∧
      (fr 6 (6#12) 1 2#12 0#26).ackKind = 1 ∧ numbered (fr 6 (6#12) 1 2#12 0#26).type = false ∧
      (List.findIdx? (fun h => decide (h.frame.seq = (fr 6 (6#12) 1 2#12 0#26).ack)) (state2.link 1).held = some 1)) ∧
    (2 ≤ state2.linkState 1 ∧ 1 ≤ (fr 1 (9#12) 0 0#12 0#26).type ∧ (fr 1 (9#12) 0 0#12 0#26).type ≤ 6 ∧ state2.txLocks 1 = [] ∧
      (fr 1 (9#12) 0 0#12 0#26).ackKind = 0 ∧ numbered (fr 1 (9#12) 0 0#12 0#26).type = true ∧ (fr 1 (9#12) 0 0#12 0#26).seq ≠ (state2.link 1).last + 1#12) ∧
    (2 ≤ state2.linkState 1 ∧ 1 ≤ (fr 1 (6#12) 0 0#12 54880137#26).type ∧ (fr 1 (6#12) 0 0#12 54880137#26).type ≤ 6 ∧ state2.txLocks 1 = [] ∧
      (fr 1 (6#12) 0 0#12 54880137#26).ackKind = 0 ∧ (fr 1 (6#12) 0 0#12 54880137#26).seq = (state2.link 1).last + 1#12 ∧
      (fr 1 (6#12) 0 0#12 54880137#26).type = 1 ∧ state2.linkState 1 = 5) ∧
    (2 ≤ state2.linkState 1 ∧ 1 ≤ (fr 2 (6#12) 0 0#12 300#26).type ∧ (fr 2 (6#12) 0 0#12 300#26).type ≤ 6 ∧ state2.txLocks 1 = [] ∧
      (fr 2 (6#12) 0 0#12 300#26).ackKind = 0 ∧ (fr 2 (6#12) 0 0#12 300#26).seq = (state2.link 1).last + 1#12 ∧ (fr 2 (6#12) 0 0#12 300#26).type = 2 ∧
      state2.linkState 1 = 5 ∧ (fr 2 (6#12) 0 0#12 300#26).body.toNat / 2 ^ 24 = 0) ∧
    (2 ≤ state2.linkState 1 ∧ 1 ≤ (fr 4 (6#12) 0 0#12 0#26).type ∧ (fr 4 (6#12) 0 0#12 0#26).type ≤ 6 ∧ state2.txLocks 1 = [] ∧
      (fr 4 (6#12) 0 0#12 0#26).ackKind = 0 ∧ (fr 4 (6#12) 0 0#12 0#26).seq = (state2.link 1).last + 1#12 ∧
      ((fr 4 (6#12) 0 0#12 0#26).type = 4 ∨ (fr 4 (6#12) 0 0#12 0#26).type = 5)) ∧
    ((state2.linkState 1 = 3 ∨ state2.linkState 1 = 4 ∨ state2.linkState 1 = 5) ∧ (List.findIdx? (fun h => decide (h.frame.seq = 1#12)) (state2.link 1).held = some 0)) ∧
    ((state2.linkState 1 = 3 ∨ state2.linkState 1 = 4 ∨ state2.linkState 1 = 5) ∧
      (List.findIdx? (fun h => decide (h.frame.seq = 0#12)) (state2.link 1).held = none) ∧ (state2.link 1).fails < 7) ∧
    ((state2.linkState 1 = 3 ∨ state2.linkState 1 = 4 ∨ state2.linkState 1 = 5) ∧ (state2.link 1).held ≠ [] ∧ (state2.link 1).fails < 7) ∧
    ((state3.link 1).owed ≠ 0) ∧
    ((state3.linkState 1 = 3 ∨ state3.linkState 1 = 4 ∨ state3.linkState 1 = 5) ∧
      (List.findIdx? (fun h => decide (h.frame.seq = 0#12)) (state3.link 1).held = none) ∧ 7 ≤ (state3.link 1).fails) ∧
    ((state3.linkState 1 = 3 ∨ state3.linkState 1 = 4 ∨ state3.linkState 1 = 5) ∧ (state3.link 1).held ≠ [] ∧ 7 ≤ (state3.link 1).fails) ∧
    ((state4.link 1).held = []) ∧
    ((state5.link 1).head = some [] ∧ state5.linkState 1 = 5 ∧ 0 < (state5.link 1).credits ∧ (state5.link 1).held.length + ceilDiv ([] : List Byte).length 256 ≤ 64 ∧
      state5.msgShare 1 (ceilDiv ([] : List Byte).length 256) = true) ∧
    (none1.groupLock 1 0 = some 2 ∧ none1.lock 2 = some (in2 2) ∧ 0 < none1.bargeWords (in2 2) ∧ whole1 none1 (in2 2) 9 = false) ∧
    (full.groupLock 1 0 = some 2 ∧ full.lock 2 = some (in2 2) ∧ 0 < full.bargeWords (in2 2) ∧ whole1 full (in2 2) 9 = true ∧ 1 ≤ full.tick 0 ∧ 9 = 9 % 256 ∧
      full.tick 0 ≤ 9 + 2 ∧ 9 ≤ full.tick 0 ∧ full.audioOn 1 0 (full.tick 0) = true ∧ 0 < (in2 2).credit) ∧
    (noCredit.groupLock 1 0 = some 2 ∧ noCredit.lock 2 = some (in2 0) ∧ 0 < noCredit.bargeWords (in2 0) ∧ whole1 noCredit (in2 0) 9 = true ∧ 1 ≤ noCredit.tick 0 ∧
      9 = 9 % 256 ∧ noCredit.tick 0 ≤ 9 + 2 ∧ 9 ≤ noCredit.tick 0 ∧ noCredit.audioOn 1 0 (noCredit.tick 0) = true ∧ (in2 0).credit = 0) ∧
    (old7.groupLock 1 0 = some 2 ∧ old7.lock 2 = some (in2 2) ∧ 0 < old7.bargeWords (in2 2) ∧ whole1 old7 (in2 2) 7 = true ∧
      2 ≤ (((7 : Int) - (old7.tick 0 - 1 : Nat) + 128) % 256 - 128).natAbs) ∧
    (2 ≤ (nl 5 { L0 with missed := 3 }).linkState 1 ∧ (fr 3 0 0 0 0).type = 3 ∧ ((nl 5 { L0 with missed := 3 }).link 1).missed = 3) ∧
    (2 ≤ (nl 5 L0).linkState 1 ∧ (nl 5 L0).txLocks 1 = [] ∧ (fr 3 0 2 2 0).ackKind = 2 ∧ numbered (fr 3 0 2 2 0).type = false) ∧
    (((nl 5 L0).link 1).head = none) := by
  refine ⟨?_, ?_, ?_, ?_, ?_, ?_, ?_, ?_, ?_, ?_, ?_, ?_, ?_, ?_, ?_, ?_, ?_, ?_, ?_, ?_, ?_, ?_, ?_, ?_, ?_, ?_⟩ <;> decide +kernel

/-- States and operands that meet the hypotheses of the clauses of NeraxStatesAndTiming. -/
theorem witness_NeraxStatesAndTiming :
    (state6.linkState 1 ≠ 2) ∧
    (state6.is R.CFG_STATUS_loaded = true) ∧
    (state6.linkState 1 ≠ 3 ∧ state6.linkState 1 ≠ 5) ∧
    ((state6.linkState 1 ≠ 4 ∨ (state6.link 1).delays.length < 16)) ∧
    ((state6.linkState 1 < 2 ∨ 4 < state6.linkState 1)) ∧
    (state6.linkState 1 < 2) ∧
    ((state6.linkState 1 < 4 ∨ state6.linkState 1 = 6)) ∧
    ((state6.is (R.NRXk_STATUS_timing_valid 1) = false ∨ state6.isUpstream 1 = false)) ∧
    (state6.linkState 1 ≠ 4 ∧ state6.linkState 1 ≠ 5) ∧
    (state7.linkState 1 = 2) ∧
    (2 ≤ state7.linkState 1 ∧ state7.linkState 1 ≤ 4) ∧
    ((state8.linkState 1 = 3 ∨ state8.linkState 1 = 5) ∧ state8.linkState 1 = 3 ∧
      state8.acceptsIdentity 1 { devid := 3, buildId := 4386#64, lead := false, member := true, inPair := true, side := true : Identity } = true) ∧
    ((state8.linkState 1 = 3 ∨ state8.linkState 1 = 5) ∧ state8.linkState 1 = 3 ∧
      state8.acceptsIdentity 1 { devid := 2, buildId := 4386#64, lead := false, member := false, inPair := false, side := false : Identity } = false) ∧
    (state9.linkState 1 = 4 ∧ 16 ≤ (state9.link 1).delays.length) ∧
    (state9.linkState 1 = 4 ∧ state9.isMirror 1 = false ∧ (state9.isUpstream 1 = false ∨ 2 < 1 ∨ state9.holds 6 = true)) ∧
    ((state9.linkState 1 = 4 ∨ state9.linkState 1 = 5)) ∧
    (state10.linkState 1 = 4 ∧ state10.isMirror 1 = false ∧ state10.isUpstream 1 = true ∧ 1 ≤ 2 ∧ state10.holds 6 = false ∧
      { hop := 1, domains := [{ domain := 0, rate := 4, b := 96, sample := 955, phase := 7#16, state := 1 : LeadDomain }] : LeadTiming }.domains = [{ domain := 0, rate := 4, b := 96, sample := 955, phase := 7#16, state := 1 : LeadDomain }] ∧
      state10.rd (R.CLK_DOMx_CFG_rate 0) = { domain := 0, rate := 4, b := 96, sample := 955, phase := 7#16, state := 1 : LeadDomain }.rate ∧
      (state10.dom 0).b = { domain := 0, rate := 4, b := 96, sample := 955, phase := 7#16, state := 1 : LeadDomain }.b) ∧
    (state10.linkState 1 = 4 ∧ state10.isMirror 1 = false ∧ state10.isUpstream 1 = true ∧ 2 ≤ 2 ∧ state10.holds 6 = false ∧
      { hop := 2, domains := [{ domain := 0, rate := 3, b := 96, sample := 955, phase := 7#16, state := 1 : LeadDomain }] : LeadTiming }.domains = [{ domain := 0, rate := 3, b := 96, sample := 955, phase := 7#16, state := 1 : LeadDomain }] ∧
      (state10.rd (R.CLK_DOMx_CFG_rate 0) ≠ { domain := 0, rate := 3, b := 96, sample := 955, phase := 7#16, state := 1 : LeadDomain }.rate ∨ (state10.dom 0).b ≠ { domain := 0, rate := 3, b := 96, sample := 955, phase := 7#16, state := 1 : LeadDomain }.b)) ∧
    (state11.linkState 1 = 4 ∧ state11.isMirror 1 = true) ∧
    ((state12.linkState 1 = 3 ∨ state12.linkState 1 = 5) ∧ state12.linkState 1 = 5) ∧
    (2 ≤ state12.linkState 1 ∧ state12.linkState 1 = 5) ∧
    (state12.linkState 1 = 5 ∧ state12.isMirror 1 = false ∧
      state12.delayOf 1 { t1 := 0, t2 := 5, t3 := 7, t4 := 900 : Stamps } ≤ (↑(BitVec.toNat (state12.reg (R.NRXk_DELAY_MAX 1))) : Int) ∧ (state12.link 1).late = false) ∧
    (state12.linkState 1 = 5 ∧ state12.isMirror 1 = false ∧
      (↑(BitVec.toNat (state12.reg (R.NRXk_DELAY_MAX 1))) : Int) < state12.delayOf 1 { t1 := 0, t2 := 5, t3 := 7, t4 := 90000 : Stamps } ∧
      (state12.link 1).late = false) ∧
    (state12.is (R.NRXk_STATUS_timing_valid 1) = true ∧ state12.isUpstream 1 = true ∧ 2 ≤ state12.candState 8 ∧ state12.candState 8 = 3) := by
  refine ⟨?_, ?_, ?_, ?_, ?_, ?_, ?_, ?_, ?_, ?_, ?_, ?_, ?_, ?_, ?_, ?_, ?_, ?_, ?_, ?_, ?_, ?_, ?_, ?_⟩ <;> decide +kernel

end TestNerax

/-! ### fail-over -/
namespace TestFailOver

def ov (m : Nat) (absent : Bool) (ws : List OvWrite) : Overlay := { mode := m, needsLeave := false, hasReplace := false, absent := absent, resident := m == 11, off := 0, len := 0, crc := crc32c [], valid := true, writes := ws, inForce := ws, words := [], replaces := [], contents := [] }
def ovs0 := (List.range 12).map fun m => ov m (m == 3) []
def fz (st : Nat) (f : Fov) (r : List (FieldAt × Nat) := []) : Machine.State := { sets run0 ([(R.FOV_STATUS_state,st),(R.FOV_STATUS_peer_alive,1),(⟨R.FOV_LEASE_CFG,0,14⟩,40),(R.FOV_CFG_paired,1),(R.FOV_CFG_mirror,2)] ++ r) with fov := f, now := 300000, cfg := { overlays := ovs0, bootModes := 1, pendingSet := 1 } }
def up := [(R.NRXk_STATUS_state 2,5)]
def F0 : Fov := { number := 65535, renewedAt := some 299600, leaseOut := true }
def state1 : Machine.State := (fz 0 F0)
def state2 : Machine.State := (fz 1 F0)
def state3 : Machine.State := (fz 2 {F0 with seenAt := some 150000} [(R.FOV_CFG_fast_take,1),(R.FOV_STATUS_ball_ok,1)])
def state4 : Machine.State := (fz 2 {F0 with } [(R.FOV_STATUS_sole,1),(R.FOV_STATUS_peer_alive,0)])
def state5 : Machine.State := (fz 4 {F0 with departing := true} up)
def state6 : Machine.State := (fz 3 F0 (up ++ [(R.FOV_STATUS_armed,1)]))
def state7 : Machine.State := (fz 3 {F0 with renewedAt := some 299000, departed := true} (up ++ [(R.FOV_STATUS_armed,1),(R.FOV_CTRL_side,1)]))
def state8 : Machine.State := (fz 3 F0 (up ++ [(R.FOV_STATUS_armed,1),(R.FOV_STATUS_sole,1),(R.FOV_STATUS_sync,3),(R.FOV_STATUS_ball_ok,1),(R.FOV_STATUS_link_ok,1),(whole R.FOV_YIELD_AT_LO,1921)]))
def state9 : Machine.State := (fz 3 {F0 with yieldAt := some 960} )
def state10 : Machine.State := ((fz 3 {F0 with yieldAt := some 960, yieldEchoed := true} ).setReg R.CFG_MODE_HELD 3)
def state11 : Machine.State := ((fz 2 {F0 with yieldAt := some 960, yieldEchoed := true} ).setReg R.CFG_MODE_HELD 5)
def FM : Fov := { exact := [3,4], crcs := [(3,9,0x1234),(4,9,0x1234),(4,10,0)], matching := 255 }
def state12 : Machine.State := (fz 2 FM)
def state13 : Machine.State := (fz 2 FM [(R.FOV_STATUS_sync,1)])
def state14 : Machine.State := (fz 2 FM [(R.FOV_STATUS_sync,2)])
def state15 : Machine.State := (fz 2 FM [(R.FOV_STATUS_sync,3),(R.FOV_CTRL_auto_resync,1)])
def state16 : Machine.State := (fz 2 {FM with matching := 256} [(R.FOV_STATUS_sync,2),(R.FOV_CTRL_auto_resync,1)])
def state17 : Machine.State := (fz 3 {FM with matching := 256} [(R.FOV_STATUS_sync,0),(R.FOV_CTRL_auto_resync,1)])
def state18 : Machine.State := (fz 3 {FM with copying := true} [(R.FOV_STATUS_sync,1),(R.FOV_CTRL_auto_resync,1)])
def state19 : Machine.State := (fz 2 {FM with waiting := [(3, .engineReg 3 0 2 5)]})
def state20 : Machine.State := { fz 3 {F0 with renewedAt := none, soleEnded := some 3} with now := 200000000 }

/-- States and operands that meet the hypotheses of the clauses of FailOverRoles. -/
theorem witness_FailOverRoles :
    ((state1.fovState ≠ 3 ∨ state1.forced3 = true ∨ state1.halted = true)) ∧
    (state1.fovState ≠ 3 ∧ (state1.fovState = 0 ∨ state1.fov.departed = true ∨ state1.halted = true)) ∧
    (state1.fov.departing = false) ∧
    (state1.fovState = 0) ∧
    ((state1.is R.FOV_CFG_fast_take = false ∨ state1.halted = true ∨ state1.fovState ≠ 1 ∧ state1.fovState ≠ 2)) ∧
    ((state1.fovState ≠ 3 ∨ state1.is R.FOV_STATUS_armed = false ∨ state1.is R.FOV_STATUS_sole = true ∨ state1.now < state1.fov.echoAt + state1.leaseExpiry / 2)) ∧
    (state1.fov.seenAt = none) ∧
    ((state1.fovState = 0 ∨ 3 ≤ state1.fovState ∨ state1.halted = true ∨ state1.waitOver = false ∨ state1.fov.seenAt = none ∧ state1.mirrorUp = false ∧
      state1.is R.FOV_STATUS_peer_alive = true)) ∧
    ((state1.fovState = 0 ∨ state1.fovState = 3 ∨ state1.halted = true ∨ ∃ a, state1.fov.seenAt = some a ∧ state1.now < a + state1.leaseExpiry)) ∧
    ((state1.is (match LeasePath.balls with | LeasePath.balls => R.FOV_STATUS_ball_ok | LeasePath.mirrorLink => R.FOV_STATUS_link_ok) = false ∨ ∃ a, (match LeasePath.balls with | LeasePath.balls => state1.fov.ballAt | LeasePath.mirrorLink => state1.fov.linkAt) = some a ∧
      state1.now < a + state1.leaseExpiry)) ∧
    ((state1.fovState ≠ 3 ∨ state1.fov.soleEnded = none ∨ state1.is R.FOV_STATUS_sole = true ∨ ∃ a, state1.fov.soleEnded = some a ∧ state1.now < a + state1.armingTime)) ∧
    ((state1.fov.yieldEchoed = true ∨ state1.fov.yieldAt = none ∨ ∃ a, state1.fov.yieldAt = some a ∧
      (state1.dom state1.takeDom).sample.toNat * 10000 + state1.fs state1.takeDom < a * 10000)) ∧
    ((state1.fovState ≠ 2 ∧ state1.fovState ≠ 3 ∨ state1.fovState = 3 ∧ state1.fov.yieldEchoed = false)) ∧
    ((state1.atBoundary state1.takeDom = false ∨ state1.fov.yieldAt = none ∨ ∃ a, state1.fov.yieldAt = some a ∧ (state1.dom state1.takeDom).sample.toNat < a)) ∧
    ((state2.fovState = 1 ∨ state2.fovState = 2 ∨ state2.fovState = 4) ∧ state2.fov.departed = false ∧ state2.halted = false ∧ state2.fovState ≠ 4) ∧
    (state2.fovState ≠ 0 ∧ state2.is R.FOV_STATUS_sole = false) ∧
    ((state2.is R.FOV_CFG_fast_take = false ∨ state2.halted = true ∨ state2.fovState ≠ 1 ∧ state2.fovState ≠ 2) ∧ state2.fovState ≠ 0) ∧
    (state2.fovState ≠ 0 ∧ state2.fovState ≠ 3 ∧ state2.halted = false ∧ (∀ (a : Nat), state2.fov.seenAt = some a → a + state2.leaseExpiry ≤ state2.now)) ∧
    (state3.is R.FOV_CFG_fast_take = true ∧ (state3.fovState = 1 ∨ state3.fovState = 2) ∧ state3.halted = false) ∧
    ((state3.fovState = 1 ∨ state3.fovState = 2) ∧ state3.halted = false ∧ state3.waitOver = true ∧
      (state3.fov.seenAt.isSome = true ∨ state3.mirrorUp = true ∨ state3.is R.FOV_STATUS_peer_alive = false)) ∧
    ((state3.is (match LeasePath.balls with | LeasePath.balls => R.FOV_STATUS_ball_ok | LeasePath.mirrorLink => R.FOV_STATUS_link_ok) = true) ∧
      (∀ (a : Nat), (match LeasePath.balls with | LeasePath.balls => state3.fov.ballAt | LeasePath.mirrorLink => state3.fov.linkAt) = some a → a + state3.leaseExpiry ≤ state3.now)) ∧
    (state4.fovState ≠ 0 ∧ state4.is R.FOV_STATUS_sole = true ∧ state4.fov.peerDeparted = false) ∧
    (state5.fov.departing = true) ∧
    (state6.fovState = 3 ∧ state6.forced3 = false ∧ state6.halted = false) ∧
    (state6.fovState = 3 ∧ (LeasePath.mirrorLink = LeasePath.balls → ∃ a, state6.fov.renewedAt = some a ∧ state6.now ≤ a + 500) ∧
      LeasePath.mirrorLink = LeasePath.mirrorLink) ∧
    (state6.fovState = 3 ∧ state6.is R.FOV_STATUS_armed = true ∧ state6.is R.FOV_STATUS_sole = false ∧ state6.fov.echoAt + state6.leaseExpiry / 2 ≤ state6.now) ∧
    (state6.fovState = 3 ∧ state6.is R.FOV_CTRL_side = false) ∧
    (state6.fovState = 3 ∧ (state6.dom state6.takeDom).b ≠ 0 ∧ (¬(state6.sync = 3 ∧ state6.is R.FOV_STATUS_ball_ok = true ∧
      state6.is R.FOV_STATUS_link_ok = true) ∨ state6.yieldBoundary * 1000 < (state6.dom state6.takeDom).sample.toNat * 1000 + state6.fs state6.takeDom)) ∧
    (state7.fovState = 3 ∧ (state7.fov.renewedAt = none ∨ ∃ a, state7.fov.renewedAt = some a ∧ a + 500 < state7.now)) ∧
    (state7.fovState = 3 ∧ state7.is R.FOV_CTRL_side = true) ∧
    (state8.fovState = 3 ∧ (state8.dom state8.takeDom).b ≠ 0 ∧ (state8.sync = 3 ∧ state8.is R.FOV_STATUS_ball_ok = true ∧ state8.is R.FOV_STATUS_link_ok = true) ∧
      (¬state8.yieldBoundary * 1000 < (state8.dom state8.takeDom).sample.toNat * 1000 + state8.fs state8.takeDom)) ∧
    (state9.fovState = 3 ∧ state9.fov.yieldAt = some 960 ∧ 960 * 10000 ≤ (state9.dom state9.takeDom).sample.toNat * 10000 + state9.fs state9.takeDom ∧
      state9.fov.yieldEchoed = false) ∧
    (state10.atBoundary state10.takeDom = true ∧ state10.fov.yieldAt = some 960 ∧ 960 ≤ (state10.dom state10.takeDom).sample.toNat ∧ state10.fovState = 3 ∧
      state10.fov.yieldEchoed = true ∧
      (changedSections state10.cfg.overlays state10.cfg.overlays state10.cfg.contents state10.held (state10.held &&& 4089#12 ||| 4#12) = [] ∧
      addedWords (1 - state10.basin.now.bank) state10.cfg.overlays state10.held (state10.held &&& 4089#12 ||| 4#12) = [] ∧
      (∀ r ∈ changedRegs state10.cfg.overlays state10.cfg.overlays state10.held (state10.held &&& 4089#12 ||| 4#12), quietReg r.1 = true) ∧
      (hasMode (state10.held &&& 4089#12 ||| 4#12) 1 || hasMode (state10.held &&& 4089#12 ||| 4#12) 2) = state10.inPair ∧
      (state10.holds 9 = true → hasMode (state10.held &&& 4089#12 ||| 4#12) 9 = true))) ∧
    (state11.atBoundary state11.takeDom = true ∧ state11.fov.yieldAt = some 960 ∧ 960 ≤ (state11.dom state11.takeDom).sample.toNat ∧ state11.fovState = 2 ∧
      (changedSections state11.cfg.overlays state11.cfg.overlays state11.cfg.contents state11.held (state11.held &&& 4089#12 ||| 2#12) = [] ∧
      addedWords (1 - state11.basin.now.bank) state11.cfg.overlays state11.held (state11.held &&& 4089#12 ||| 2#12) = [] ∧
      (∀ r ∈ changedRegs state11.cfg.overlays state11.cfg.overlays state11.held (state11.held &&& 4089#12 ||| 2#12), quietReg r.1 = true) ∧
      (hasMode (state11.held &&& 4089#12 ||| 2#12) 1 || hasMode (state11.held &&& 4089#12 ||| 2#12) 2) = state11.inPair ∧
      (state11.holds 9 = true → hasMode (state11.held &&& 4089#12 ||| 2#12) 9 = true))) ∧
    (state20.fovState = 3 ∧ state20.fov.soleEnded = some 3 ∧ 3 + state20.armingTime ≤ state20.now ∧ state20.is R.FOV_STATUS_sole = false) := by
  refine ⟨?_, ?_, ?_, ?_, ?_, ?_, ?_, ?_, ?_, ?_, ?_, ?_, ?_, ?_, ?_, ?_, ?_, ?_, ?_, ?_, ?_, ?_, ?_, ?_, ?_, ?_, ?_, ?_, ?_, ?_, ?_, ?_, ?_, ?_, ?_⟩ <;> decide +kernel

/-- States and operands that meet the hypotheses of the clauses of FailOverMirroring. -/
theorem witness_FailOverMirroring :
    (state12.mirrored = true ∧ (state12.dom state12.takeDom).sample.toNat < 961) ∧
    (state12.mirrored = true ∧ 0 ≤ (state12.dom state12.takeDom).sample.toNat ∧ state12.sync = 0) ∧
    ((state12.fovState ≠ 2 ∨ state12.sync < 2 ∨ state12.fov.exact.contains 3 = false)) ∧
    ((state12.fovState = 1 ∨ state12.fovState = 2) ∧ state12.sync = 0) ∧
    ((state12.fovState ≠ 2 ∨ state12.sync ≠ 2 ∨ state12.fov.matching < 256)) ∧
    (state13.mirrored = true ∧ 0 ≤ (state13.dom state13.takeDom).sample.toNat ∧ state13.sync ≠ 0 ∧ state13.is R.FOV_CTRL_auto_resync = false) ∧
    ((state13.fovState = 1 ∨ state13.fovState = 2) ∧ state13.sync ≠ 0) ∧
    ((state13.fovState = 1 ∨ state13.fovState = 2) ∧ state13.sync = 1) ∧
    (state14.fovState = 2 ∧ 2 ≤ state14.sync ∧ state14.fov.exact.contains 3 = true ∧ (3, 3, 0#32) ∉ state14.fov.crcs ∧ state14.is R.FOV_CTRL_auto_resync = false) ∧
    (state14.fovState = 2 ∧ 2 ≤ state14.sync ∧ state14.fov.exact.contains 3 = true ∧ (3, 9, 4660#32) ∈ state14.fov.crcs) ∧
    (state15.fovState = 2 ∧ 2 ≤ state15.sync ∧ state15.fov.exact.contains 3 = true ∧ (3, 3, 0#32) ∉ state15.fov.crcs ∧ state15.is R.FOV_CTRL_auto_resync = true) ∧
    (state16.fovState = 2 ∧ state16.sync = 2 ∧ 256 ≤ state16.fov.matching) ∧
    (state17.mirrored = false) ∧
    (state17.fovState = 3 ∧ state17.fov.copying = false ∧ (state17.requester 2).pending = false) ∧
    (state18.fovState = 3 ∧ state18.fov.copying = true) ∧
    (state19.mirrored = true ∧ state19.fov.waiting = [(3, MirrorItem.engineReg 3 0 2 5#56)]) := by
  refine ⟨?_, ?_, ?_, ?_, ?_, ?_, ?_, ?_, ?_, ?_, ?_, ?_, ?_, ?_, ?_, ?_⟩ <;> decide +kernel

end TestFailOver

/-! ### the LPDDR5 controller -/
namespace TestDram

def en (w : Bool) (b t : Nat) (rt : Option (Nat × Nat)) : DramEntry := ⟨w,b,t,rt,false⟩
def dm (d : Dmc) (r : List (FieldAt × Nat) := []) : Machine.State := { sets run0 ([(R.DMC_STATUS_state,2),(⟨R.DMC_REF,16,4⟩,3)] ++ r) with dmc := d, now := 300 }
def ln : DLine := { spec := { line := 1, domain := 0, r := 12, d := 100 }, ring := [], zeroUntil := 0 }
def lk (id : Nat) (p c : Endpoint) (d : DomIx) (ch : List Nat) (pr : List Barge) : Machine.Lock := { spec := { id := id, depth := 2, domain := d, producer := p, consumer := c, channels := ch, hops := 1 }, credit := 1, flight := [], present := pr, missed := [], asm := [], last := none, refade := none }
def state1 : Machine.State := (dm {} [(R.DMC_STATUS_state,1)])
def state2 : Machine.State := (dm {})
def state3 : Machine.State := (dm { queue := [en false 6 4 none], rows := [(0,some 0)], debt := [(0,3)] })
def state4 : Machine.State := (dm { queue := [en false 7 4 (some (1,9)), en true 5 3 none], lines := [(1,some ln)], debt := [(0,2)] })
def state5 : Machine.State := (dm { draining := true, queue := [en false 7 4 (some (1,9)), en true 8 9 (some (1,3))], debt := [(0,2)] } [(⟨R.DMC_RT_STATUS,0,1⟩,1)])
def state6 : Machine.State := (dm { queue := [en true 5 3 none], debt := [(0,-8)] })
def state7 : Machine.State := (dm { debt := [] } [(⟨R.DMC_RETRAIN_STATUS,0,4⟩,5),(⟨R.DMC_RETRAIN_STATUS,8,1⟩,1)])
def state8 : Machine.State := (dm { debt := [] } [(⟨R.DMC_RETRAIN_STATUS,0,4⟩,0),(⟨R.DMC_RETRAIN_STATUS,8,1⟩,1),(⟨R.DMC_RETRAIN,0,8⟩,4)])
def state9 : Machine.State := { dm { lines := [(1,some ln)] } with locks := [(3, lk 3 .router (.delayLine 1) 0 [4] [⟨9,[1]⟩])] }
def one (d : Int) : Machine.State := dm { queue := [en false 6 4 none], debt := [(0, d)] }
def due2 : Machine.State := dm { debt := [(0, 2)] }
def panic2 : Machine.State := dm { debt := [(0, 2)] } [(⟨R.DMC_RT_STATUS, 0, 1⟩, 1)]
def lane0 (s : Machine.State) (v : Word) : Bool := decide (((max 1 (s.rd ⟨R.DMC_RETRAIN, 0, 8⟩) : Nat) : Int) < (toSigned 8 (getBits v 0 8)).natAbs)
def quiet (s : Machine.State) (v : Word) : Bool := [0, 1, 2, 3].all fun k => !decide (((max 1 (s.rd ⟨R.DMC_RETRAIN, 0, 8⟩) : Nat) : Int) < (toSigned 8 (getBits v (8 * k) 8)).natAbs)
def thr4 : Machine.State := dm {} [(⟨R.DMC_RETRAIN, 0, 8⟩, 4)]

/-- States and operands that meet the hypotheses of the clauses of DramController. -/
theorem witness_DramController :
    ((state1.panicWanted = false ∨ state1.panic = true)) ∧
    (state1.dline 0 = none) ∧
    ((∀ (k : Fin 4), ¬(↑(max 1 (state1.rd { addr := R.DMC_RETRAIN, lsb := 0, width := 8 })) : Int) < (↑(toSigned 8 (getBits (0#32) (8 * (↑k : Nat)) 8)).natAbs : Int))) ∧
    ((state1.is retrainLeave = false ∨ state1.is { addr := R.DMC_RETRAIN_STATUS, lsb := 0, width := 1 } = false ∨ state1.panic = true ∨ ¬((∀ e ∈ state1.dmc.debt, e.2 < (↑state1.postMax : Int) ∨ e.2 ≤ 0) ∧
      ∀ (t : Nat), state1.dmc.sliceAt = some t → t + 62500 ≤ state1.now))) ∧
    ((state1.is retrainLeave = false ∨ state1.retraining = true)) ∧
    (state2.rd R.DMC_STATUS_state = 2 ∧ (∀ e ∈ state2.dmc.queue, Config.dramBank e.block ∈ [])) ∧
    (state2.rd R.DMC_STATUS_state = 2 ∧ (state2.debt (if state2.allBank = true then 0 else 0) ≤ 0) ∧ (-8 < state2.debt (if state2.allBank = true then 0 else 0)) ∧
      state2.dmc.queue = [] ∧ (1 ≠ if state2.allBank = true then 0 else 0)) ∧
    (state3.rd R.DMC_STATUS_state = 2 ∧
      (state3.setDmc (state3.dmc.aged state3.now (state3.rd { addr := R.DMC_SCHED, lsb := 8, width := 8 }))).dmcPick [] = some (en false 6 4 none) ∧
      state3.dmc.waiting = [] ∧ ((en false 6 4 none).write = true ∨ 0 = 0)) ∧
    (state3.rd R.DMC_STATUS_state = 2 ∧
      (state3.setDmc (state3.dmc.aged state3.now (state3.rd { addr := R.DMC_SCHED, lsb := 8, width := 8 }))).dmcPick [] = some (en false 6 4 none) ∧
      state3.dmc.waiting = [] ∧ (en false 6 4 none).write = false ∧ (en false 6 4 none).rt = none) ∧
    (state3.rd R.DMC_STATUS_state = 2 ∧ ((↑state3.postMax : Int) ≤ state3.debt (if state3.allBank = true then 0 else 0)) ∧ (1 ≠ if state3.allBank = true then 0 else 0)) ∧
    (state4.dmcPick [] = some (en false 7 4 (some (1, 9))) ∧ state4.panic = false ∧
      (∀ x ∈ state4.dmc.candidates [], ¬state4.rd { addr := R.DMC_SCHED, lsb := 24, width := 8 } * 64 < (state4.now - x.since) * 16 / 5 ∧ state4.dmc.hit x = false)) ∧
    (state4.rd R.DMC_STATUS_state = 2 ∧
      (state4.setDmc (state4.dmc.aged state4.now (state4.rd { addr := R.DMC_SCHED, lsb := 8, width := 8 }))).dmcPick [] = some (en false 7 4 (some (1, 9))) ∧
      state4.dmc.waiting = [] ∧ ((en false 7 4 (some (1, 9))).write = true ∨ 0 = 0) ∧ (en false 7 4 (some (1, 9))).write = false ∧
      (en false 7 4 (some (1, 9))).rt = some (1, 9)) ∧
    (state4.rd R.DMC_STATUS_state = 2 ∧
      (state4.setDmc (state4.dmc.aged state4.now (state4.rd { addr := R.DMC_SCHED, lsb := 8, width := 8 }))).dmcPick [] = some (en false 7 4 (some (1, 9))) ∧
      state4.dmc.waiting = [] ∧ (en false 7 4 (some (1, 9))).write = false ∧ (en false 7 4 (some (1, 9))).rt = some (1, 9) ∧ state4.dline 1 = some ln) ∧
    (state4.panicWanted = true ∧ state4.panic = false) ∧
    (state4.dline 1 = some ln ∧ state4.dlineReady 1 0 = true) ∧
    (state4.dline 1 = some ln ∧ state4.dlineReady 1 9 = false) ∧
    (state5.dmcPick [] = some (en true 8 9 (some (1, 3))) ∧ state5.panic = true ∧ ∃ x ∈ state5.dmc.candidates [], x.rt.isSome = true) ∧
    (state6.rd R.DMC_STATUS_state = 2 ∧ (state6.debt (if state6.allBank = true then 0 else 0) = -8) ∧ (1 ≠ if state6.allBank = true then 0 else 0)) ∧
    (state7.is retrainLeave = true ∧ state7.is { addr := R.DMC_RETRAIN_STATUS, lsb := 0, width := 1 } = true ∧ state7.panic = false ∧
      ((∀ e ∈ state7.dmc.debt, e.2 < (↑state7.postMax : Int) ∨ e.2 ≤ 0) ∧ ∀ (t : Nat), state7.dmc.sliceAt = some t → t + 62500 ≤ state7.now)) ∧
    (state8.is retrainLeave = true ∧ state8.retraining = false) ∧
    (state9.dline 1 = some ln ∧ ((state9.locksWhere fun k => decide (k.spec.consumer = Endpoint.delayLine 1)) = [3]) ∧
      state9.lock 3 = some (lk 3 Endpoint.router (Endpoint.delayLine 1) 0 [4] [{ tick := 9, words := [1#24] : Barge }]) ∧
      (state9.awaits 3 0 = none ∨ state9.rtRoom (ln.blocks 1 ((0 + (lk 3 Endpoint.router (Endpoint.delayLine 1) 0 [4] [{ tick := 9, words := [1#24] : Barge }]).spec.hops) * (state9.dom 0).b) (state9.dom 0).b) = true)) ∧
    ((one 3).dmcPick [] = some (en false 6 4 none)) ∧
    ((one 3).dmcPick [] = some (en false 6 4 none) ∧ en false 6 4 none ∈ (one 3).dmc.queue ∧ (en false 6 4 none).write = (one 3).dmc.draining) ∧
    ((one 3).rd R.DMC_STATUS_state = 2 ∧ (one 3).dmc.waiting = [] ∧ (en false 6 4 none).write = false ∧ (en false 6 4 none).rt = none) ∧
    ((one 3).rd R.DMC_STATUS_state = 2 ∧ (one 3).allBank = false ∧ ((one 3).postMax : Int) ≤ (one 3).debt 0) ∧
    (due2.rd R.DMC_STATUS_state = 2 ∧ due2.allBank = false ∧ 0 < due2.debt 0 ∧ due2.debt 0 ≤ due2.postMax ∧ due2.panic = false ∧ due2.dmc.queue = []) ∧
    (panic2.rd R.DMC_STATUS_state = 2 ∧ panic2.allBank = false ∧ panic2.debt 0 < panic2.postMax ∧ panic2.panic = true) ∧
    (lane0 thr4 0x7F8001FF = false ∧ lane0 thr4 0x05FB0105 = true ∧ thr4.retraining = false) ∧
    (quiet thr4 0 = true) := by
  refine ⟨?_, ?_, ?_, ?_, ?_, ?_, ?_, ?_, ?_, ?_, ?_, ?_, ?_, ?_, ?_, ?_, ?_, ?_, ?_, ?_, ?_, ?_, ?_, ?_, ?_, ?_, ?_, ?_, ?_⟩ <;> decide +kernel

end TestDram

/-! ### DMA -/
namespace TestDmaUnit

def lk (id : Nat) (p c : Endpoint) (d : DomIx) (ch : List Nat) (pr : List Barge) (hops : Nat := 1) : Machine.Lock := { spec := { id := id, depth := 2, domain := d, producer := p, consumer := c, channels := ch, hops := hops }, credit := 1, flight := [], present := pr, missed := [], asm := [], last := none, refade := none }
def dsc (kind len src dst : Nat) (own eop : Bool := true) (w4 : Word := 0x11223344) : List Word :=
  [BitVec.ofNat 32 (len + kind * 2^24 + (if eop then 2^28 else 0) + (if own then 2^31 else 0)), BitVec.ofNat 32 src, BitVec.ofNat 32 dst, BitVec.ofNat 32 (src / 2^32 % 256 + dst / 2^32 % 256 * 256), w4, 0x55, 0x66, 0x77]
def B := ssmBase
def L4 := lk 9 .router (.dma 3) 0 [4] [⟨9,[5,6]⟩]
def L5 := lk 5 (.dma 3) .router 0 [4] []
def dmas (st : Nat) (x : DmaChannel) (r : List (FieldAt × Nat) := []) : Machine.State :=
  { (sets run0 ([(R.DMA_CHc_STATUS_state 3,st),(⟨R.DMA_CHc_RING_HI 3,16,4⟩,2),(R.DMA_CHc_CFG_used 3,1),(R.DMA_CHc_CTRL_burst 3,3),(swIdx 3,3),(whole (R.DMA_CHc_RING_LO 3),(B+0x2000) % 2^32),(⟨R.DMA_CHc_RING_HI 3,0,8⟩,(B+0x2000) / 2^32)] ++ r)).setChan 3 x with
    ssm := ((List.range 32).map fun i => (i, BitVec.ofNat 8 (i+1))) ++ (((dsc 0 16 B (B+0x1000)).flatMap fun w => leBytes 4 w.toNat).zipIdx.map fun e => (0x2000 + e.2, e.1)) ++ (((dsc 0 16 B (B+0x1000) false).flatMap fun w => leBytes 4 w.toNat).zipIdx.map fun e => (0x2020 + e.2, e.1)) }
def D0 := dsc 0 16 B (B+0x1000)
def state1 : Machine.State := (dmas 0 {})
def state2 : Machine.State := (dmas 1 {})
def state3 : Machine.State := (dmas 2 {fetched := [D0]})
def cicq (s : Machine.State) : Machine.State := s.setCic 7 { s.cic 7 with request := true, unread := true }
def state4 : Machine.State := (cicq (dmas 2 {fetched := [D0], moved := 4} [(R.DMA_CHc_CFG_mode 3, 1),(R.DMA_CHc_CFG_binding 3,7),(whole (R.CICn_OUT 7),0xFFA1B2C3)]))
def state5 : Machine.State := (dmas 1 {} [(R.DMA_CHc_CFG_mode 3, 5)])
def state6 : Machine.State := (dmas 3 {} [(R.DMA_CHc_CFG_mode 3, 5)])
def state7 : Machine.State := (dmas 2 {fetched := [D0]} [(R.DMA_CHc_CFG_mode 3, 5)])
def wl (l : Machine.Lock) (s : Machine.State) : Machine.State := { s with locks := [(l.spec.id, some l)] }
def state8 : Machine.State := (wl L4 (dmas 2 {fetched := [D0]} [(R.DMA_CHc_CFG_mode 3, 4)]))
def state9 : Machine.State := (wl L4 (dmas 1 {} [(R.DMA_CHc_CFG_mode 3, 4)]))
def state10 : Machine.State := (dmas 2 {fetched := [D0]})
def D7 := dsc 7 16 B B
def state11 : Machine.State := (dmas 2 {fetched := [D7]})
def Dz := dsc 0 0 B B
def state12 : Machine.State := (dmas 2 {fetched := [Dz]} [(R.DMA_CHc_CFG_mode 3, 4)])
def state13 : Machine.State := (dmas 2 {fetched := [D0]} [(R.DMA_CHc_CFG_mode 3, 3),(R.DMA_CHc_CFG_binding 3,84)])
def state14 : Machine.State := ((dmas 2 {fetched := [D0]} [(R.DMA_CHc_CFG_mode 3, 3),(R.DMA_CHc_CFG_binding 3,85)]).setMac 1 { head := some ⟨1,2,[],0⟩ })
def state15 : Machine.State := (wl L4 (dmas 2 {fetched := [D0], taken := some 9} [(R.DMA_CHc_CFG_mode 3, 4)]))
def state16 : Machine.State := (wl L4 (dmas 2 {fetched := [D0], taken := some 10} [(R.DMA_CHc_CFG_mode 3, 4)]))
def D6 := dsc 0 (4*48) (B+0) (B+0x1000)
def state17 : Machine.State := (wl L5 ((dmas 2 {fetched := [D6], taken := some 10} [(R.DMA_CHc_CFG_mode 3, 5),(R.DMA_CHc_CTRL_burst 3,6)]).setDom 0 {b := 48, sample := 960}))
def state18 : Machine.State := (dmas 2 {fetched := [D0], moved := 16} [(R.DMA_CHc_CFG_mode 3, 1),(R.DMA_CHc_CFG_binding 3,84)])
def Dr := dsc 0 64 B (B+0x1000)
def state19 : Machine.State := ((dmas 2 {fetched := [Dr]} [(R.DMA_CHc_CFG_mode 3, 2),(R.DMA_CHc_CFG_binding 3,83)]).setMac 1 { rx := [⟨0,[1],[1]⟩,⟨1,[1,2],[7,8,9]⟩] })

/-- States and operands that meet the hypotheses of the clauses of DmaChannels. -/
theorem witness_DmaChannels :
    (2 ^ state1.ringLog 3 < (5 + 2 ^ 16 - state1.rd (hwIdx 3)) % 2 ^ 16) ∧
    ((0 + 2 ^ 16 - state1.rd (hwIdx 3)) % 2 ^ 16 ≤ 2 ^ state1.ringLog 3 ∧ state1.owned (R.DMA_CHc_SW_IDX 3) = 0#32) ∧
    ((state1.dmaState 3 ≠ 1 ∧ state1.dmaState 3 ≠ 2 ∨ state1.given 3 ≤ (state1.chan 3).fetched.length ∨ 4 ≤ (state1.chan 3).fetched.length)) ∧
    (state1.dmaUsed 3 = true ∧ state1.dmaState 3 = 0 ∧ state1.owned (R.DMA_CHc_CTRL 3) = 0#32) ∧
    (state1.owned (R.DMA_CHc_CTRL 3) = 0#32 ∧ (state1.dmaState 3 = 0 ∨ state1.dmaState 3 = 3)) ∧
    (state1.requestDesc 3 = none) ∧
    (state1.dmaRequested 3 = false) ∧
    ((state1.dmaMode 3 < 4 ∨ 5 < state1.dmaMode 3 ∨ state1.dmaUsed 3 = false ∨ state1.halted = true ∨ state1.atBoundary (state1.rd (R.DMA_CHc_CFG_domain 3)) = false)) ∧
    ((state2.dmaState 3 = 1 ∨ state2.dmaState 3 = 2) ∧ (state2.chan 3).fetched.length < state2.given 3 ∧ (state2.chan 3).fetched.length < 4 ∧
      targetOf (state2.entryAddr 3 (state2.rd (hwIdx 3) + (state2.chan 3).fetched.length)) = 1 ∧
      descOwn (wordsOf (state2.ssmBytes (state2.entryAddr 3 (state2.rd (hwIdx 3) + (state2.chan 3).fetched.length) - ssmBase) 32)) = true) ∧
    ((state2.dmaUsed 3 = false ∨ state2.dmaState 3 ≠ 0)) ∧
    (state2.owned (R.DMA_CHc_CTRL 3) = 0#32 ∧ state2.dmaState 3 ≠ 0 ∧ state2.dmaState 3 ≠ 3 ∧ state2.inProgress 3 = false) ∧
    (state2.owned (R.DMA_CHc_CTRL 3) = 0#32 ∧ state2.dmaState 3 ≠ 0 ∧ (state2.chan 3).fetched = []) ∧
    ((state3.dmaState 3 = 1 ∨ state3.dmaState 3 = 2) ∧ (state3.chan 3).fetched.length < state3.given 3 ∧ (state3.chan 3).fetched.length < 4 ∧
      targetOf (state3.entryAddr 3 (state3.rd (hwIdx 3) + (state3.chan 3).fetched.length)) = 1 ∧
      descOwn (wordsOf (state3.ssmBytes (state3.entryAddr 3 (state3.rd (hwIdx 3) + (state3.chan 3).fetched.length) - ssmBase) 32)) = false) ∧
    (state3.owned (R.DMA_CHc_CTRL 3) = 0#32 ∧ state3.dmaState 3 ≠ 0 ∧ state3.dmaState 3 ≠ 3 ∧ state3.inProgress 3 = true) ∧
    (state3.dmaState 3 ≠ 0 ∧ (state3.chan 3).fetched = [dsc 0 16 B (B + 4096) true true 287454020#32]) ∧
    (state4.requestDesc 3 = some (dsc 0 16 B (B + 4096) true true 287454020#32) ∧
      targetOf (descDst (dsc 0 16 B (B + 4096) true true 287454020#32) + (state4.chan 3).moved) = 1 ∧
      0 < min (state4.dmaBurst 3) (descLen (dsc 0 16 B (B + 4096) true true 287454020#32) - (state4.chan 3).moved)) ∧
    (state4.requestDesc 3 = some (dsc 0 16 B (B + 4096) true true 287454020#32) ∧
      targetOf (descDst (dsc 0 16 B (B + 4096) true true 287454020#32) + (state4.chan 3).moved) = 1 ∧
      (0 < descDst (dsc 0 16 B (B + 4096) true true 287454020#32) + (state4.chan 3).moved - ssmBase ∨ descDst (dsc 0 16 B (B + 4096) true true 287454020#32) + (state4.chan 3).moved - ssmBase + min (state4.dmaBurst 3) (descLen (dsc 0 16 B (B + 4096) true true 287454020#32) - (state4.chan 3).moved) ≤ 0)) ∧
    (state4.dmaRequested 3 = true) ∧
    (state5.dmaMode 3 = 5 ∧ state5.dmaUsed 3 = true ∧ state5.halted = false ∧ state5.atBoundary (state5.rd (R.DMA_CHc_CFG_domain 3)) = true ∧
      (state5.dmaState 3 = 1 ∨ state5.dmaState 3 = 2 ∨ state5.dmaState 3 = 4) ∧ (¬(state5.dmaState 3 = 2 ∧ (state5.chan 3).fetched ≠ [] ∧
      (state5.chan 3).taken = none))) ∧
    (state6.dmaMode 3 = 5 ∧ state6.dmaUsed 3 = true ∧ state6.halted = false ∧ state6.atBoundary (state6.rd (R.DMA_CHc_CFG_domain 3)) = true ∧
      (¬(state6.dmaState 3 = 1 ∨ state6.dmaState 3 = 2 ∨ state6.dmaState 3 = 4))) ∧
    (state7.dmaMode 3 = 5 ∧ state7.dmaUsed 3 = true ∧ state7.halted = false ∧ state7.atBoundary (state7.rd (R.DMA_CHc_CFG_domain 3)) = true ∧
      (state7.dmaState 3 = 2 ∧ (state7.chan 3).fetched ≠ [] ∧ (state7.chan 3).taken = none)) ∧
    (state8.dmaMode 3 = 4 ∧ state8.dmaUsed 3 = true ∧ state8.halted = false ∧ state8.atBoundary (state8.rd (R.DMA_CHc_CFG_domain 3)) = true ∧
      state8.dmaLock 3 = some 9 ∧ state8.lock 9 = some L4 ∧ L4.spec.hops ≤ state8.tick (state8.rd (R.DMA_CHc_CFG_domain 3)) ∧ (state8.dmaState 3 = 2 ∧
      (state8.chan 3).fetched ≠ [] ∧ (state8.chan 3).taken = none)) ∧
    (state9.dmaMode 3 = 4 ∧ state9.dmaUsed 3 = true ∧ state9.halted = false ∧ state9.atBoundary (state9.rd (R.DMA_CHc_CFG_domain 3)) = true ∧
      state9.dmaLock 3 = some 9 ∧ state9.lock 9 = some L4 ∧ L4.spec.hops ≤ state9.tick (state9.rd (R.DMA_CHc_CFG_domain 3)) ∧
      (state9.dmaState 3 = 1 ∨ state9.dmaState 3 = 2 ∨ state9.dmaState 3 = 4) ∧ (¬(state9.dmaState 3 = 2 ∧ (state9.chan 3).fetched ≠ [] ∧
      (state9.chan 3).taken = none))) := by
  refine ⟨?_, ?_, ?_, ?_, ?_, ?_, ?_, ?_, ?_, ?_, ?_, ?_, ?_, ?_, ?_, ?_, ?_, ?_, ?_, ?_, ?_, ?_, ?_⟩ <;> decide +kernel

/-- States and operands that meet the hypotheses of the clauses of DmaTransfers. -/
theorem witness_DmaTransfers :
    ((state10.chan 3).fetched = [D0] ∧ state10.dmaState 3 = 2 ∧ descKind D0 = 0 ∧ 0 < descLen D0 ∧ descLen D0 ≤ state10.dmaBurst 3 ∧
      descDst D0 % 256 + descLen D0 ≤ 256 ∧ (ssmBase ≤ state10.entryAddr 3 (state10.rd (hwIdx 3)) ∧
      state10.entryAddr 3 (state10.rd (hwIdx 3)) + 32 ≤ ssmBase + 8388608) ∧
      (state10.entryAddr 3 (state10.rd (hwIdx 3)) + 32 ≤ descDst D0 ∨ descDst D0 + descLen D0 ≤ state10.entryAddr 3 (state10.rd (hwIdx 3))) ∧
      state10.dmaMode 3 = 0 ∧ descSrc D0 % 256 + descLen D0 ≤ 256 ∧ (ssmBase ≤ descSrc D0 ∧ descSrc D0 + descLen D0 ≤ ssmBase + 8388608) ∧ (ssmBase ≤ descDst D0 ∧
      descDst D0 + descLen D0 ≤ ssmBase + 8388608) ∧ (0 + ssmBase < descDst D0 ∨ descDst D0 + descLen D0 ≤ 0 + ssmBase) ∧
      (0 + ssmBase < state10.entryAddr 3 (state10.rd (hwIdx 3)) ∨ state10.entryAddr 3 (state10.rd (hwIdx 3)) + 32 ≤ 0 + ssmBase)) ∧
    ((state10.chan 3).fetched = [D0] ∧ state10.dmaState 3 = 2 ∧ (state10.dmaMode 3 ≠ 2 ∨ state10.rxWaiting 3 = none)) ∧
    ((state11.chan 3).fetched = [D7] ∧ state11.dmaState 3 = 2 ∧ 1 = descError (state11.dmaMode 3) (state11.dmaBargeBytes 3) D7 ∧ state11.dmaMode 3 ≠ 2 ∧
      (4 ≤ state11.dmaMode 3 → (state11.chan 3).taken.isSome = true)) ∧
    ((state12.chan 3).fetched = [Dz] ∧ state12.dmaState 3 = 2 ∧ 4 ≤ state12.dmaMode 3 ∧ (state12.chan 3).taken = none) ∧
    ((state13.chan 3).fetched = [D0] ∧ state13.dmaState 3 = 2 ∧ descKind D0 = 0 ∧ 0 < descLen D0 ∧ descLen D0 ≤ state13.dmaBurst 3 ∧
      descDst D0 % 256 + descLen D0 ≤ 256 ∧ (ssmBase ≤ state13.entryAddr 3 (state13.rd (hwIdx 3)) ∧
      state13.entryAddr 3 (state13.rd (hwIdx 3)) + 32 ≤ ssmBase + 8388608) ∧
      (state13.entryAddr 3 (state13.rd (hwIdx 3)) + 32 ≤ descDst D0 ∨ descDst D0 + descLen D0 ≤ state13.entryAddr 3 (state13.rd (hwIdx 3))) ∧
      state13.dmaMode 3 = 3 ∧ descSrc D0 % 256 + descLen D0 ≤ 256 ∧ (ssmBase ≤ descSrc D0 ∧ descSrc D0 + descLen D0 ≤ ssmBase + 8388608) ∧ descEop D0 = true ∧
      state13.txFree 3 = true ∧ (state13.chan 3).frame = [] ∧ (state13.chan 3).macWords = none ∧ 0 < 2 ∧ state13.rd (R.DMA_CHc_CFG_binding 3) = 84 + 0 ∧
      (0 + ssmBase < state13.entryAddr 3 (state13.rd (hwIdx 3)) ∨ state13.entryAddr 3 (state13.rd (hwIdx 3)) + 0 ≤ 0 + ssmBase) ∧
      (0 + ssmBase < state13.entryAddr 3 (state13.rd (hwIdx 3)) ∨ state13.entryAddr 3 (state13.rd (hwIdx 3)) + 32 ≤ 0 + ssmBase)) ∧
    ((state14.chan 3).fetched = [D0] ∧ state14.dmaState 3 = 2 ∧ descKind D0 = 0 ∧ 0 < descLen D0 ∧ descLen D0 ≤ state14.dmaBurst 3 ∧
      descDst D0 % 256 + descLen D0 ≤ 256 ∧ (ssmBase ≤ state14.entryAddr 3 (state14.rd (hwIdx 3)) ∧
      state14.entryAddr 3 (state14.rd (hwIdx 3)) + 32 ≤ ssmBase + 8388608) ∧
      (state14.entryAddr 3 (state14.rd (hwIdx 3)) + 32 ≤ descDst D0 ∨ descDst D0 + descLen D0 ≤ state14.entryAddr 3 (state14.rd (hwIdx 3))) ∧
      state14.dmaMode 3 = 3 ∧ descEop D0 = true ∧ state14.txFree 3 = false) ∧
    ((state15.chan 3).fetched = [D0] ∧ state15.dmaState 3 = 2 ∧ descKind D0 = 0 ∧ 0 < descLen D0 ∧ descLen D0 ≤ state15.dmaBurst 3 ∧
      descDst D0 % 256 + descLen D0 ≤ 256 ∧ (ssmBase ≤ state15.entryAddr 3 (state15.rd (hwIdx 3)) ∧
      state15.entryAddr 3 (state15.rd (hwIdx 3)) + 32 ≤ ssmBase + 8388608) ∧
      (state15.entryAddr 3 (state15.rd (hwIdx 3)) + 32 ≤ descDst D0 ∨ descDst D0 + descLen D0 ≤ state15.entryAddr 3 (state15.rd (hwIdx 3))) ∧
      state15.dmaMode 3 = 4 ∧ descLen D0 ≤ state15.dmaBargeBytes 3 ∧ (state15.chan 3).taken = some 9 ∧ (state15.chan 3).zero = false ∧ state15.dmaLock 3 = some 9 ∧
      state15.awaits 9 9 = some { tick := 9, words := [5#24, 6#24] : Barge } ∧ descSrc D0 % 256 + descLen D0 ≤ 256 ∧ (ssmBase ≤ descDst D0 ∧
      descDst D0 + descLen D0 ≤ ssmBase + 8388608) ∧ (0 + ssmBase < descDst D0 ∨ descDst D0 + descLen D0 ≤ 0 + ssmBase) ∧
      (0 + ssmBase < state15.entryAddr 3 (state15.rd (hwIdx 3)) ∨ state15.entryAddr 3 (state15.rd (hwIdx 3)) + 32 ≤ 0 + ssmBase)) ∧
    ((state16.chan 3).fetched = [D0] ∧ state16.dmaState 3 = 2 ∧ descKind D0 = 0 ∧ 0 < descLen D0 ∧ descLen D0 ≤ state16.dmaBurst 3 ∧
      descDst D0 % 256 + descLen D0 ≤ 256 ∧ (ssmBase ≤ state16.entryAddr 3 (state16.rd (hwIdx 3)) ∧
      state16.entryAddr 3 (state16.rd (hwIdx 3)) + 32 ≤ ssmBase + 8388608) ∧
      (state16.entryAddr 3 (state16.rd (hwIdx 3)) + 32 ≤ descDst D0 ∨ descDst D0 + descLen D0 ≤ state16.entryAddr 3 (state16.rd (hwIdx 3))) ∧
      state16.dmaMode 3 = 4 ∧ descLen D0 ≤ state16.dmaBargeBytes 3 ∧ (state16.chan 3).taken = some 10 ∧ (state16.chan 3).zero = false ∧ state16.dmaLock 3 = some 9 ∧
      state16.awaits 9 10 = none) ∧
    ((state17.chan 3).fetched = [D6] ∧ state17.dmaState 3 = 2 ∧ descKind D6 = 0 ∧ 0 < descLen D6 ∧ descLen D6 ≤ state17.dmaBurst 3 ∧
      descDst D6 % 256 + descLen D6 ≤ 256 ∧ (ssmBase ≤ state17.entryAddr 3 (state17.rd (hwIdx 3)) ∧
      state17.entryAddr 3 (state17.rd (hwIdx 3)) + 32 ≤ ssmBase + 8388608) ∧
      (state17.entryAddr 3 (state17.rd (hwIdx 3)) + 32 ≤ descDst D6 ∨ descDst D6 + descLen D6 ≤ state17.entryAddr 3 (state17.rd (hwIdx 3))) ∧
      state17.dmaMode 3 = 5 ∧ descLen D6 = 4 * state17.bargeWords L5 ∧ (state17.chan 3).taken = some 10 ∧ (state17.chan 3).zero = false ∧
      state17.dmaLock 3 = some 5 ∧ state17.lock 5 = some L5 ∧ descSrc D6 % 256 + descLen D6 ≤ 256 ∧ (ssmBase ≤ descSrc D6 ∧
      descSrc D6 + descLen D6 ≤ ssmBase + 8388608) ∧
      (0 + ssmBase < state17.entryAddr 3 (state17.rd (hwIdx 3)) ∨ state17.entryAddr 3 (state17.rd (hwIdx 3)) + 0 ≤ 0 + ssmBase) ∧
      (0 + ssmBase < state17.entryAddr 3 (state17.rd (hwIdx 3)) ∨ state17.entryAddr 3 (state17.rd (hwIdx 3)) + 32 ≤ 0 + ssmBase)) ∧
    ((state18.chan 3).fetched = [D0] ∧ state18.dmaState 3 = 2 ∧ state18.dmaMode 3 = 1 ∧ descLen D0 ≤ (state18.chan 3).moved ∧
      descError 1 (state18.dmaBargeBytes 3) D0 = 0) ∧
    ((state19.chan 3).fetched = [Dr] ∧ state19.dmaState 3 = 2 ∧ state19.dmaMode 3 = 2 ∧ state19.rxWaiting 3 = some (bytesOf [1#32, 2#32] ++ [7#8, 8#8, 9#8], 3) ∧
      (state19.chan 3).frame = [] ∧ descKind Dr = 0 ∧ bytesOf [1#32, 2#32] ++ [7#8, 8#8, 9#8] ≠ [] ∧ (bytesOf [1#32, 2#32] ++ [7#8, 8#8, 9#8]).length ≤ descLen Dr ∧
      (bytesOf [1#32, 2#32] ++ [7#8, 8#8, 9#8]).length ≤ state19.dmaBurst 3 ∧ descDst Dr % 256 + (bytesOf [1#32, 2#32] ++ [7#8, 8#8, 9#8]).length ≤ 256 ∧
      (ssmBase ≤ descDst Dr ∧ descDst Dr + (bytesOf [1#32, 2#32] ++ [7#8, 8#8, 9#8]).length ≤ ssmBase + 8388608) ∧
      (ssmBase ≤ state19.entryAddr 3 (state19.rd (hwIdx 3)) ∧ state19.entryAddr 3 (state19.rd (hwIdx 3)) + 32 ≤ ssmBase + 8388608) ∧
      (state19.entryAddr 3 (state19.rd (hwIdx 3)) + 32 ≤ descDst Dr ∨ descDst Dr + (bytesOf [1#32, 2#32] ++ [7#8, 8#8, 9#8]).length ≤ state19.entryAddr 3 (state19.rd (hwIdx 3))) ∧
      (0 + ssmBase < descDst Dr ∨ descDst Dr + (bytesOf [1#32, 2#32] ++ [7#8, 8#8, 9#8]).length ≤ 0 + ssmBase) ∧
      (0 + ssmBase < state19.entryAddr 3 (state19.rd (hwIdx 3)) ∨ state19.entryAddr 3 (state19.rd (hwIdx 3)) + 32 ≤ 0 + ssmBase)) ∧
    ((state19.chan 3).fetched = [Dr] ∧ state19.dmaState 3 = 2 ∧ state19.dmaMode 3 = 2 ∧ state19.rxWaiting 3 = some (bytesOf [1#32, 2#32] ++ [7#8, 8#8, 9#8], 3) ∧
      (state19.chan 3).frame = [] ∧ descKind Dr = 0 ∧ bytesOf [1#32, 2#32] ++ [7#8, 8#8, 9#8] ≠ [] ∧ (bytesOf [1#32, 2#32] ++ [7#8, 8#8, 9#8]).length ≤ descLen Dr ∧
      (bytesOf [1#32, 2#32] ++ [7#8, 8#8, 9#8]).length ≤ state19.dmaBurst 3 ∧ descDst Dr % 256 + (bytesOf [1#32, 2#32] ++ [7#8, 8#8, 9#8]).length ≤ 256 ∧
      (ssmBase ≤ descDst Dr ∧ descDst Dr + (bytesOf [1#32, 2#32] ++ [7#8, 8#8, 9#8]).length ≤ ssmBase + 8388608) ∧
      (ssmBase ≤ state19.entryAddr 3 (state19.rd (hwIdx 3)) ∧ state19.entryAddr 3 (state19.rd (hwIdx 3)) + 32 ≤ ssmBase + 8388608) ∧
      (state19.entryAddr 3 (state19.rd (hwIdx 3)) + 32 ≤ descDst Dr ∨ descDst Dr + (bytesOf [1#32, 2#32] ++ [7#8, 8#8, 9#8]).length ≤ state19.entryAddr 3 (state19.rd (hwIdx 3))) ∧
      1 < 2 ∧ 1 < 2 ∧ state19.rd (R.DMA_CHc_CFG_binding 3) = 80 + 2 * 1 + 1) := by
  refine ⟨?_, ?_, ?_, ?_, ?_, ?_, ?_, ?_, ?_, ?_, ?_, ?_⟩ <;> decide +kernel

end TestDmaUnit

/-! ### events, PCIe and pins -/
namespace TestEvents

def rt (n : Nat) (msix i0 i1 : Nat) (v : Nat) : List (FieldAt × Nat) := [(routeMsix n,msix),(routeIrq n 0,i0),(routeIrq n 1,i1),(routeVector n,v)]
def ev0 (r : List (FieldAt × Nat)) : Machine.State := sets run0 ([(whole R.EVT_LOCAL_STATUS,0x00010001),(whole R.EVT_LOCAL_ENABLE,0x00010001)] ++ r)
def state1 : Machine.State := (ev0 (rt 176 1 0 0 5))
def state2 : Machine.State := (ev0 (rt 176 1 0 0 5))
def state3 : Machine.State := (ev0 (rt 176 0 1 0 5))
def state4 : Machine.State := { ev0 (rt 176 0 1 0 5) with evt := { irq0 := true, irq1 := true } }
def pc := [(pcieLink,1),(pcieMsix,1),(pcieMaster,1)]
def tab := [(whole (R.MSIX_TABLE 20),0xFEE00000),(whole (R.MSIX_TABLE 21),3),(whole (R.MSIX_TABLE 22),0x77),(whole (R.MSIX_TABLE 23),0)]
def state5 : Machine.State := (ev0 (rt 176 1 0 0 5 ++ [(pba 5,1)]))
def state6 : Machine.State := (ev0 (rt 176 1 0 0 6 ++ [(pba 5,1)] ++ pc))
def state7 : Machine.State := (ev0 (rt 176 1 0 0 5 ++ [(pba 5,1)] ++ pc ++ tab))
def state8 : Machine.State := (ev0 ([(cmpArm 1,1),(cmpDomain 1,1),(whole (R.EVT_CMPn_LO 1),480)]))
def state9 : Machine.State := (ev0 ([(cmpArm 1,1),(cmpDomain 1,3),(whole (R.EVT_CMPn_LO 1),480)]))
def bu (w : Bool) (a : Addr) : Burst := ⟨3, a, w, [1,2,3,4], []⟩
def ps (r : List (FieldAt × Nat)) : Machine.State := sets run0 r
def px (o : List (Nat × Nat × Nat)) (s : Machine.State) : Machine.State := { s with pcie := { s.pcie with outstanding := o } }
def state10 : Machine.State := (ps [(whole (R.MSIX_TABLE 8),5),(whole R.PCIE_OB_BASE,7)])
def state11 : Machine.State := (ps (pc ++ [(whole (R.MSIX_TABLE 8),5),(whole R.PCIE_OB_BASE,7)]))
def state12 : Machine.State := (ps (pc ++ [(R.GLB_BOOT_STATUS_state,3)]))
def state13 : Machine.State := (px [(3,0x8000000010,4)] (ps (pc ++ [(R.GLB_BOOT_STATUS_state,6),(pcieD,3)])))
def gp (g : Gpio) (r : List (FieldAt × Nat)) : Machine.State := (sets run0 r).setGpio 5 g
def rol (k : Nat) : List (FieldAt × Nat) := [(⟨R.PAD_GPIO_ROLE,10,2⟩,k)]
def cnd (inv edge deb ch : Nat) : List (FieldAt × Nat) := [(⟨R.PAD_GPIOi_COND 5,15,1⟩,inv),(⟨R.PAD_GPIOi_COND 5,16,2⟩,edge),(⟨R.PAD_GPIOi_COND 5,20,12⟩,deb),(⟨R.PAD_GPIOi_COND 5,8,7⟩,ch)]
def state14 : Machine.State := (gp {} (rol 0))
def state15 : Machine.State := (gp {} (rol 1))
def state16 : Machine.State := (gp {} (rol 3 ++ cnd 0 0 0 0))
def state17 : Machine.State := (gp {} (rol 3 ++ cnd 0 0 1 0))
def state18 : Machine.State := (gp {differs := 1} (rol 3 ++ cnd 0 0 1 1))
def state19 : Machine.State := (gp {differs := 1, chattering := true} (rol 3 ++ cnd 1 1 1 0 ++ [(gpioAccept 5,1)]))
def state20 : Machine.State := ({ gp {} [(svcI2cBusy,1)] with svc := { fifo := [], i2c := some 0x80400103} })
def state21 : Machine.State := { ev0 [] with evt := { irq0 := true, irq1 := true } }
def state22 : Machine.State := (gp {differs := 1} (rol 3 ++ cnd 1 1 1 0))
def state23 : Machine.State := (gp {samples := 2000, chattering := true} (rol 3 ++ cnd 0 3 1 0 ++ [(gpioAccept 5,1)]))
def state24 : Machine.State := (gp {samples := 2000} (rol 3 ++ cnd 0 3 1 0 ++ [(gpioAccept 5,1),(lowHalf (R.PAD_GPIOi_STUCK 5),1)]))
def reading (drain : Nat) : Machine.State := px [(3, 0x8000000010, 4)] (ps (pc ++ [(R.GLB_BOOT_STATUS_state, 6), (drainBit 3, drain)]))
def sent1 (w : Word) : Machine.State := (sets run0 [(svcI2cBusy, 1)]).setSvc { run0.svc with i2c := some w }

/-- States and operands that meet the hypotheses of the clauses of EventVectorsAndPins. -/
theorem witness_EventVectorsAndPins :
    (state1.level 176 = true ∧ state1.is (routeMsix 176) = true ∧ state1.is (routeIrq 176 0) = false ∧ state1.is (routeIrq 176 1) = false ∧
      0 ≠ state1.rd (routeVector 176)) ∧
    (state1.owned (R.EVT_ROUTEs 176) = 0#32) ∧
    (state2.level 177 = false) ∧
    (state3.level 176 = true ∧ state3.is (routeMsix 176) = false ∧ state3.is (routeIrq 176 0) = true ∧ state3.is (routeIrq 176 1) = false ∧ state3.evt.irq0 = false) ∧
    (state3.irqWanted 0 = true) ∧
    (state4.irqWanted 1 = false ∧ state4.evt.irq1 = true) ∧
    (state5.is (pba 5) = true ∧ state5.request 5 = true ∧
      (state5.is pcieLink = false ∨ state5.is pcieMsix = false ∨ state5.is pcieMasked = true ∨ state5.is pcieMaster = false ∨ state5.rd pcieD ≠ 0)) ∧
    (state6.is (pba 5) = true ∧ state6.request 5 = false) ∧
    (state7.is (pba 5) = true ∧ state7.request 5 = true ∧ state7.is pcieLink = true ∧ state7.is pcieMsix = true ∧ state7.is pcieMasked = false ∧
      state7.is pcieMaster = true ∧ state7.rd pcieD = 0 ∧ state7.is (bitAt (R.MSIX_TABLE (4 * 5 + 3)) 0) = false ∧
      (∀ (at_ : Nat), Tab.get (fun _ => none) state7.evt.lastSent 5 = some at_ → at_ + state7.rd { addr := R.EVT_HOLDv 5, lsb := 0, width := 10 } * 250 ≤ state7.now)) ∧
    (state8.is (cmpArm 1) = true ∧ state8.rd (cmpDomain 1) < 3 ∧ state8.started (state8.rd (cmpDomain 1)) = true ∧
      state8.wide (R.EVT_CMPn_LO 1) (R.EVT_CMPn_HI 1) ≤ (state8.dom (state8.rd (cmpDomain 1))).sample.toNat) ∧
    (state9.rd (cmpDomain 1) = 3) ∧
    (state21.irqWanted 0 = false ∧ state21.evt.irq0 = true) := by
  refine ⟨?_, ?_, ?_, ?_, ?_, ?_, ?_, ?_, ?_, ?_, ?_, ?_⟩ <;> decide +kernel

/-- States and operands that meet the hypotheses of the clauses of PcieFunction. -/
theorem witness_PcieFunction :
    (state10.is pcieLink = false) ∧
    (549755813888 ≤ BitVec.toNat (bu true 549755813904#40).addr ∧ (state10.is pcieLink = false ∨ state10.is pcieMaster = false ∨ state10.rd pcieD ≠ 0)) ∧
    (state10.pcie.outstanding = []) ∧
    ((3 = 0 ∨ 2 = 0 ∨ state11.is pcieLink = true)) ∧
    (state11.is pcieLink = true ∧ 5 ≤ state11.rd R.GLB_BOOT_STATUS_state ∧ state11.rd pcieD = 0) ∧
    (549755813888 ≤ BitVec.toNat (bu true 549755813904#40).addr ∧ state11.is pcieLink = true ∧ state11.is pcieMaster = true ∧ state11.rd pcieD = 0 ∧
      (bu true 549755813904#40).write = true) ∧
    (state12.is pcieLink = true ∧ state12.rd R.GLB_BOOT_STATUS_state < 5 ∧ state12.rd { addr := R.GLB_STRAP, lsb := 0, width := 2 } ≠ 1) ∧
    (549755813888 ≤ BitVec.toNat (bu false 549755813904#40).addr ∧ state12.is pcieLink = true ∧ state12.is pcieMaster = true ∧ state12.rd pcieD = 0 ∧
      (bu false 549755813904#40).write = false) ∧
    (state13.is pcieLink = true ∧ 5 ≤ state13.rd R.GLB_BOOT_STATUS_state ∧ state13.rd pcieD = 3) ∧
    ((reading 0).pcie.outstanding = (3, 0x8000000010, 4) :: [] ∧ (reading 0).is (drainBit 3) = false) ∧
    ((reading 1).pcie.outstanding = (3, 0x8000000010, 4) :: [] ∧ (reading 1).is (drainBit 3) = true) := by
  refine ⟨?_, ?_, ?_, ?_, ?_, ?_, ?_, ?_, ?_, ?_, ?_⟩ <;> decide +kernel

/-- States and operands that meet the hypotheses of the clauses of PinsAndManagementBuses. -/
theorem witness_PinsAndManagementBuses :
    (state14.gpioRole 5 = 0) ∧
    (((state14.gpio 5).chattering = false ∨ (state14.gpio 5).samples < (state14.gpio 5).since + max 1 (state14.rd { addr := R.PAD_GPIOi_COND 5, lsb := 0, width := 8 }) * 1000)) ∧
    ((state14.rd (lowHalf (R.PAD_GPIOi_STUCK 5)) * 1000 = 0 ∨ (state14.gpio 5).samples < (state14.gpio 5).since + state14.rd (lowHalf (R.PAD_GPIOi_STUCK 5)) * 1000 ∨ state14.is (gpioAccept 5) = false)) ∧
    ((2151677955#32).getLsbD 31 = true ∧ state14.is svcI2cBusy = false) ∧
    ((state15.gpioRole 5 = 1 ∨ state15.gpioRole 5 = 2)) ∧
    (state16.gpioRole 5 = 3 ∧ (true != state16.is { addr := R.PAD_GPIOi_COND 5, lsb := 15, width := 1 }) ≠ state16.is (gpioAccept 5) ∧
      state16.rd { addr := R.PAD_GPIOi_COND 5, lsb := 20, width := 12 } ≤ (state16.gpio 5).differs ∧
      (¬(state16.rd { addr := R.PAD_GPIOi_COND 5, lsb := 8, width := 7 } ≠ 0 ∧
      state16.rd { addr := R.PAD_GPIOi_COND 5, lsb := 8, width := 7 } ≤ (List.filter (fun t => decide ((state16.gpio 5).samples + 1 ≤ t + max 1 (state16.rd { addr := R.PAD_GPIOi_COND 5, lsb := 0, width := 8 }) * 1000)) (state16.gpio 5).changes).length + 1)) ∧
      (state16.gpio 5).chattering = false ∧ (state16.gpio 5).stuck = false) ∧
    (state17.gpioRole 5 = 3 ∧ (true != state17.is { addr := R.PAD_GPIOi_COND 5, lsb := 15, width := 1 }) ≠ state17.is (gpioAccept 5) ∧
      (state17.gpio 5).differs + 1 ≤ state17.rd { addr := R.PAD_GPIOi_COND 5, lsb := 20, width := 12 }) ∧
    (state18.gpioRole 5 = 3 ∧ (true != state18.is { addr := R.PAD_GPIOi_COND 5, lsb := 15, width := 1 }) ≠ state18.is (gpioAccept 5) ∧
      state18.rd { addr := R.PAD_GPIOi_COND 5, lsb := 20, width := 12 } ≤ (state18.gpio 5).differs ∧
      (state18.rd { addr := R.PAD_GPIOi_COND 5, lsb := 8, width := 7 } ≠ 0 ∧
      state18.rd { addr := R.PAD_GPIOi_COND 5, lsb := 8, width := 7 } ≤ (List.filter (fun t => decide ((state18.gpio 5).samples + 1 ≤ t + max 1 (state18.rd { addr := R.PAD_GPIOi_COND 5, lsb := 0, width := 8 }) * 1000)) (state18.gpio 5).changes).length + 1) ∧
      (state18.gpio 5).chattering = false ∧ (state18.gpio 5).stuck = false) ∧
    (state19.gpioRole 5 = 3 ∧ (true != state19.is { addr := R.PAD_GPIOi_COND 5, lsb := 15, width := 1 }) ≠ state19.is (gpioAccept 5) ∧
      state19.rd { addr := R.PAD_GPIOi_COND 5, lsb := 20, width := 12 } ≤ (state19.gpio 5).differs ∧ (state19.gpio 5).chattering = true) ∧
    ((2151677955#32).getLsbD 31 = true ∧ state20.is svcI2cBusy = true) ∧
    (state22.gpioRole 5 = 3 ∧ (true != state22.is { addr := R.PAD_GPIOi_COND 5, lsb := 15, width := 1 }) = state22.is (gpioAccept 5)) ∧
    ((state23.gpio 5).chattering = true ∧
      (state23.gpio 5).since + max 1 (state23.rd { addr := R.PAD_GPIOi_COND 5, lsb := 0, width := 8 }) * 1000 ≤ (state23.gpio 5).samples ∧
      (state23.gpio 5).stuck = false) ∧
    (state24.gpioRole 5 = 3 ∧ state24.rd (lowHalf (R.PAD_GPIOi_STUCK 5)) * 1000 ≠ 0 ∧
      (state24.gpio 5).since + state24.rd (lowHalf (R.PAD_GPIOi_STUCK 5)) * 1000 ≤ (state24.gpio 5).samples ∧ state24.is (gpioAccept 5) = true ∧
      (state24.gpio 5).stuck = false) ∧
    ((sent1 0x80400103).svc.i2c = some 0x80400103 ∧ (0x80400103#32).getLsbD 8 = true ∧ (sent1 0x80400103).svc.fifo = []) ∧
    ((sent1 0x80400003).is svcI2cBusy = true ∧ (0x80400003#32).getLsbD 31 = true) ∧
    ((gp {} (rol 3)).gpioRole 5 = 3 ∧ (true != (gp {} (rol 3)).is ⟨R.PAD_GPIOi_COND 5, 15, 1⟩) ≠ (gp {} (rol 3)).is (gpioAccept 5) ∧
      (gp {} (rol 3 ++ cnd 0 0 1 0)).rd ⟨R.PAD_GPIOi_COND 5, 20, 12⟩ = 1) := by
  refine ⟨?_, ?_, ?_, ?_, ?_, ?_, ?_, ?_, ?_, ?_, ?_, ?_, ?_, ?_, ?_, ?_⟩ <;> decide +kernel

end TestEvents

/-! ### faults -/
namespace TestFaults

def r0 : FaultRecord := { source := 40, code := 3, level := 1, reported := 1, escalated := false, injected := false, acked := false, cause := false, inLog := true, repeats := 254, time1 := 0, time2 := 0, time3 := 0 }
def w1 : State := { State.reset with flt := { records := [r0] } }
def state1 : Machine.State := (w1.setReg (R.FLT_SCOPEs 41) 0x11)
def rc (src lvl : Nat) (ack cause log : Bool) : FaultRecord := { r0 with source := src, level := lvl, reported := lvl, acked := ack, cause := cause, inLog := log }
def fx (rs : List FaultRecord) (r : List (FieldAt × Nat) := []) : Machine.State := r.foldl (fun s p => s.wr p.1 p.2) { State.reset with flt := { records := rs }, now := 77 }
def R1 := [rc 40 2 false false true, rc 41 3 true false true, rc 42 3 true true false, rc 2 1 true true true]
def state2 : Machine.State := (fx R1)
def state3 : Machine.State := (fx [rc 41 3 true false true] [(bitAt R.FLT_STATUS 19,1),(bitAt R.FLT_STATUS 18,1),(bitAt R.CFG_MODE_HWREQ 11,1)])
def state4 : Machine.State := { fx [rc 41 3 true false true] [(bitAt R.FLT_STATUS 19,1),(bitAt R.FLT_STATUS 18,1)] with flt := { scopes := [7] } }
def state5 : Machine.State := { fx [] [(R.FLT_ERR_CTRL_hold,1),(R.FLT_STATUS_err_n,1)] with flt := { pulse := true, clearAtPulseEnd := true } }
def state6 : Machine.State := { fx [] [(R.FLT_ERR_CTRL_hold,1),(R.FLT_STATUS_err_n,1)] with flt := { pulse := true, clearAtPulseEnd := false } }
def state7 : Machine.State := { fx [] [(R.FLT_ERR_CTRL_hold,1),(R.FLT_STATUS_err_n,1)] with flt := { pulse := false, clearAtPulseEnd := false } }
def state8 : Machine.State := { fx [] [(R.FLT_ERR_CTRL_hold,1),(R.FLT_STATUS_err_n,1),(bitAt R.FLT_STATUS 20,1)] with flt := { pulse := false, clearAtPulseEnd := true } }
def state9 : Machine.State := ((fx []).setReg R.CFG_MODE_HELD 0x201)
def state10 : Machine.State := ((fx R1 [(R.FLT_INJ_CTRL_arm,1),(R.FLT_INJ_CTRL_flips,2),(R.FLT_INJ_CTRL_target,3)]).setReg R.CFG_MODE_HELD 0x201)
def state11 : Machine.State := { w1 with flt := { records := (List.replicate 64 {r0 with source := 50, acked := true}) } }
def state12 : Machine.State := { fx [] [(R.FLT_ERR_CTRL_hold,1),(R.FLT_STATUS_err_n,1)] with now := 2000000, flt := { pulse := true, clearAtPulseEnd := true } }
def state13 : Machine.State := { fx [] [(R.FLT_ERR_CTRL_hold,1),(R.FLT_STATUS_err_n,1),(wdogPeriod,5),(wdogLevel,2)] with now := 2000000, flt := { pulse := true, clearAtPulseEnd := false } }
def logged : Machine.State := w1

/-- States and operands that meet the hypotheses of the clauses of ReportsMakeRecords. -/
theorem witness_ReportsMakeRecords :
    ((∀ q ∈ w1.flt.records, ¬(q.acked = false ∧ q.source = 41 ∧ q.reported = 1)) ∧ ((w1.errLevel ≤ if 1 < 4 ∧
      (w1.flt.records.any fun q => !q.acked && q.level == 1 && q.source != 41) = true then 1 + 1 else 1) ∨ (if 1 < 4 ∧
      (w1.flt.records.any fun q => !q.acked && q.level == 1 && q.source != 41) = true then 1 + 1 else 1) = 4)) ∧
    ((∀ q ∈ w1.flt.records, ¬(q.acked = false ∧ q.source = 41 ∧ q.reported = 1)) ∧ ((if 1 < 4 ∧
      (w1.flt.records.any fun q => !q.acked && q.level == 1 && q.source != 41) = true then 1 + 1 else 1) = 2) ∧ BitVec.toNat (w1.reg (R.FLT_SCOPEs 41)) = 0) ∧
    ((∀ q ∈ state1.flt.records, ¬(q.acked = false ∧ q.source = 41 ∧ q.reported = 1)) ∧ ((if 1 < 4 ∧
      (state1.flt.records.any fun q => !q.acked && q.level == 1 && q.source != 41) = true then 1 + 1 else 1) = 2) ∧ BitVec.toNat (state1.reg (R.FLT_SCOPEs 41)) ≠ 0) ∧
    ((∀ q ∈ w1.flt.records, ¬(q.acked = false ∧ q.source = 41 ∧ q.reported = 3)) ∧ ((if 3 < 4 ∧
      (w1.flt.records.any fun q => !q.acked && q.level == 3 && q.source != 41) = true then 3 + 1 else 3) = 3)) ∧
    ((∀ q ∈ w1.flt.records, ¬(q.acked = false ∧ q.source = 41 ∧ q.reported = 4)) ∧ ((if 4 < 4 ∧
      (w1.flt.records.any fun q => !q.acked && q.level == 4 && q.source != 41) = true then 4 + 1 else 4) = 4)) ∧
    ((∀ q ∈ w1.flt.records, ¬(q.acked = false ∧ q.source = 41 ∧ q.reported = 0)) ∧ ((if 0 < 4 ∧
      (w1.flt.records.any fun q => !q.acked && q.level == 0 && q.source != 41) = true then 0 + 1 else 0) < 2)) ∧
    ((∀ q ∈ state11.flt.records, ¬(q.acked = false ∧ q.source = 41 ∧ q.reported = 2)) ∧ state11.faultLog.length ≥ 64) := by
  refine ⟨?_, ?_, ?_, ?_, ?_, ?_, ?_⟩ <;> decide +kernel

/-- States and operands that meet the hypotheses of the clauses of FaultControls. -/
theorem witness_FaultControls :
    ((2 = 2 ∧ (4#32).getLsbD 2 = true ∧ (4#32).getLsbD 3 = false ∨ 2 = 3 ∧ (4#32).getLsbD 2 = false ∧ (4#32).getLsbD 3 = true) ∧
      (∃ r ∈ state2.flt.records, r.level = 2 ∧ (r.acked = false ∨ r.cause = true))) ∧
    ((¬(state2.flt.pulse = true ∧ state2.flt.errAt + 250 * max 20 (state2.rd R.FLT_ERR_CTRL_pulse) ≤ state2.now))) ∧
    ((¬(state2.rd wdogPeriod ≠ 0 ∧ state2.flt.watchdogAt + 250000 * state2.rd wdogPeriod ≤ state2.now))) ∧
    ((3 = 2 ∧ (8#32).getLsbD 2 = true ∧ (8#32).getLsbD 3 = false ∨ 3 = 3 ∧ (8#32).getLsbD 2 = false ∧ (8#32).getLsbD 3 = true) ∧
      (∀ r ∈ state3.flt.records, r.level = 3 → r.acked = true ∧ r.cause = false) ∧ 3 = 3) ∧
    ((2 = 2 ∧ (4#32).getLsbD 2 = true ∧ (4#32).getLsbD 3 = false ∨ 2 = 3 ∧ (4#32).getLsbD 2 = false ∧ (4#32).getLsbD 3 = true) ∧
      (∀ r ∈ state4.flt.records, r.level = 2 → r.acked = true ∧ r.cause = false) ∧ 2 = 2) ∧
    (state4.faultLog = []) ∧
    (state5.owned R.FLT_ERR_CTRL = 0#32 ∧ (2147483939#32).getLsbD 31 = true) ∧
    ((2147483939#32).getLsbD 31 = true ∧ state5.holds 9 = false) ∧
    ((2147483939#32).getLsbD 31 = true ∧ (state5.holds 9 = false ∨ 3 < getBits (2147483939#32) 24 3)) ∧
    (state6.owned R.FLT_ERR_CTRL = 0#32 ∧ (291#32).getLsbD 31 = false ∧ state6.is (bitAt R.FLT_STATUS 20) = false ∧ state6.flt.pulse = true) ∧
    (state7.owned R.FLT_ERR_CTRL = 0#32 ∧ (291#32).getLsbD 31 = false ∧ state7.is (bitAt R.FLT_STATUS 20) = false ∧ state7.flt.pulse = false ∧
      state7.is R.FLT_STATUS_err_n = true) ∧
    (state8.owned R.FLT_ERR_CTRL = 0#32 ∧ (291#32).getLsbD 31 = false ∧ state8.is (bitAt R.FLT_STATUS 20) = true) ∧
    ((2415919107#32).getLsbD 31 = true ∧ state9.holds 9 = true ∧ (getBits (2415919107#32) 28 2 = 1 ∨ getBits (2415919107#32) 28 2 = 2) ∧
      getBits (2415919107#32) 0 4 = 3 ∧ state9.owned R.FLT_INJ_CTRL = 0#32) ∧
    ((2415919107#32).getLsbD 31 = true ∧ state9.holds 9 = true ∧ getBits (2415919107#32) 24 3 ≤ 3) ∧
    (state10.is R.FLT_INJ_CTRL_arm = true) ∧
    ((state12.flt.pulse = true ∧ state12.flt.errAt + 250 * max 20 (state12.rd R.FLT_ERR_CTRL_pulse) ≤ state12.now) ∧ state12.is R.FLT_STATUS_err_n = true ∧
      state12.flt.clearAtPulseEnd = true ∧ state12.is (bitAt R.FLT_STATUS 20) = false) ∧
    ((state13.flt.pulse = true ∧ state13.flt.errAt + 250 * max 20 (state13.rd R.FLT_ERR_CTRL_pulse) ≤ state13.now) ∧ state13.is R.FLT_ERR_CTRL_hold = true ∧
      (state13.flt.clearAtPulseEnd = false ∨ state13.is (bitAt R.FLT_STATUS 20) = true)) ∧
    ((state13.rd wdogPeriod ≠ 0 ∧ state13.flt.watchdogAt + 250000 * state13.rd wdogPeriod ≤ state13.now)) ∧
    (logged.faultLog = r0 :: []) := by
  refine ⟨?_, ?_, ?_, ?_, ?_, ?_, ?_, ?_, ?_, ?_, ?_, ?_, ?_, ?_, ?_, ?_, ?_, ?_, ?_⟩ <;> decide +kernel

/-- States and operands that meet the hypotheses of the clauses of RepeatedReportsMerge. -/
theorem witness_RepeatedReportsMerge :
    (w1.flt.records = [] ++ r0 :: [] ∧ r0.acked = false ∧ r0.source = 40 ∧ r0.reported = 1) := by
  decide +kernel

end TestFaults

/-! ### the weir, the dredger and telemetry -/
namespace TestWeir

def wx (rq : List (Nat × Requester)) (r : List (FieldAt × Nat) := []) : Machine.State :=
  let s := sets run0 ([(⟨R.WEIR_BUDGET,0,12⟩,100),(⟨R.WEIR_RESERVE,0,12⟩,10)] ++ (List.range 22).map (fun i => (⟨R.WEIR_COSTr i,0,12⟩,20+i)) ++ r)
  { s with weir := { req := rq }, now := 300, layers := { s.layers with image := [(R.WEIR_BUDGET,120)] } }
def rq (c : Nat) (st : Bool := false) (g : Nat := 0) : Requester := { pending := true, cost := c, since := 5, starving := st, unfit := false, grant := g }
def state1 : Machine.State := (wx [])
def state2 : Machine.State := (wx [])
def state3 : Machine.State := (wx [])
def state4 : Machine.State := (wx [(21, rq 40)])
def state5 : Machine.State := (wx [(3, rq 95), (21, rq 40 false 6)])
def state6 : Machine.State := (wx [(3, rq 95 true), (21, rq 40)] [(drgPending,1)])
def state7 : Machine.State := (wx [(3, rq 95), (21, rq 200)] [(weirOver,1)])
def state8 : Machine.State := { wx [(21, rq 20)] [(drgPending,1)] with weir := { above := 9, req := [(21,rq 20)] } }
def state9 : Machine.State := { wx [] [(weirOver,1)] with weir := { below := 9 } }
def dx (d : Dredger) (r : List (FieldAt × Nat) := []) : Machine.State := { wx [] r with drg := d }
def win := [(lowHalf (R.TLM_VWINv 1),100),(highHalf (R.TLM_VWINv 1),200)]
def tl := [(tlmEnabled,1),(whole R.TLM_RING_HI,1),(whole R.TLM_RING_LO,0x1000),(⟨R.TLM_CTRL,8,4⟩,1),(whole R.TLM_WR_IDX,3),(whole R.DMC_SIZE_LO,0x10000)]
def state10 : Machine.State := (dx {} [(drgEn,1),(drgLeave,1)])
def state11 : Machine.State := (dx { sram := { done := 4096*1600, start := 100, period := 50 } } [(drgEn,1),(drgLeave,1),(⟨R.TLM_CTRL,0,8⟩,110)])
def state12 : Machine.State := (dx {} ([(drgEn,1),(⟨R.TLM_CTRL,0,8⟩,110)] ++ win))
def state13 : Machine.State := { dx {} ([(drgEn,1),(⟨R.TLM_CTRL,0,8⟩,90)] ++ win) with xbar := { waiting := [(⟨6,0,false,[],[]⟩,4),(⟨5,0,false,[],[]⟩,4)] }, tlm := { outside := [(1,7)], record := 4, hot := 1 } }
def state14 : Machine.State := { wx [(3, rq 95), (21, rq 40 false 6)] with now := 10000000 }
def state15 : Machine.State := { (dx { sram := { done := 4096*1600, start := 100, period := 50000 } } ([(drgEn,1),(drgPending,1)] ++ tl)) with now := 500000 }
def state16 : Machine.State := { (dx { } ([(drgEn,1),(drgDramEn,1)] ++ tl)) with now := 500000 }
def state17 : Machine.State := { (dx { dram := { done := 512, start := 100, period := 50000 } } ([(drgEn,1),(drgDramEn,1)] ++ tl)) with now := 500000 }

/-- States and operands that meet the hypotheses of the clauses of BudgetWritesWithinBounds. -/
theorem witness_BudgetWritesWithinBounds :
    ((getBits (9#32) 0 12 < state1.rd { addr := R.WEIR_RESERVE, lsb := 0, width := 12 } + state1.granted ∨ getBits (Tab.get resetValue state1.layers.image R.WEIR_BUDGET) 0 12 < getBits (9#32) 0 12)) ∧
    (state2.rd { addr := R.WEIR_RESERVE, lsb := 0, width := 12 } + state2.granted ≤ getBits (10#32) 0 12 ∧
      getBits (10#32) 0 12 ≤ getBits (Tab.get resetValue state2.layers.image R.WEIR_BUDGET) 0 12 ∧ state2.owned R.WEIR_BUDGET = 0#32) := by
  refine ⟨?_, ?_⟩ <;> decide +kernel

/-- States and operands that meet the hypotheses of the clauses of WeirGrants. -/
theorem witness_WeirGrants :
    ((∀ (x : ReqIx), (state3.requester (↑x : Nat)).pending = true → state3.freeUnits < (state3.requester (↑x : Nat)).cost)) ∧
    (((state3.requester 21).pending = false ∨ ¬max 1 (state3.rd { addr := R.WEIR_CTRL, lsb := 0, width := 8 }) * 250000 ≤ state3.now - (state3.requester 21).since ∨ (state3.requester 21).unfit = true ∨ (state3.requester 21).starving = true)) ∧
    (state4.is weirOver = false ∧ (state4.requester 21).pending = true ∧ (state4.requester 21).cost ≤ state4.freeUnits ∧
      (∀ x < 21, (state4.requester (↑x : Nat)).pending = true → state4.freeUnits < (state4.requester (↑x : Nat)).cost ∧
      (state4.requester (↑x : Nat)).starving = false) ∧ 21 = 21) ∧
    (state5.is weirOver = false ∧ budget state5 < 101 ∧ state5.weir.above < 9) ∧
    (state6.is weirOver = false ∧ 3 < 21 ∧ (state6.requester 3).pending = true ∧ (state6.requester 3).starving = true ∧
      state6.freeUnits < (state6.requester 3).cost ∧ (∀ y < 3, (state6.requester (↑y : Nat)).pending = false)) ∧
    (state7.is weirOver = true) ∧
    (state8.is weirOver = false ∧ budget state8 < 101 ∧ state8.weir.above = 9 ∧ state8.is drgPending = true) ∧
    (state8.is weirOver = false ∧ budget state8 < 101 ∧ state8.weir.above = 9 ∧ (∀ f ∈ state8.flt.records, f.acked = true)) ∧
    (state9.is weirOver = true ∧ 96 + 4 ≤ budget state9 ∧ state9.weir.below = 9) ∧
    ((state14.requester 21).pending = true ∧
      max 1 (state14.rd { addr := R.WEIR_CTRL, lsb := 0, width := 8 }) * 250000 ≤ state14.now - (state14.requester 21).since ∧
      (state14.requester 21).starving = false ∧ (state14.requester 21).unfit = false) := by
  refine ⟨?_, ?_, ?_, ?_, ?_, ?_, ?_, ?_, ?_, ?_⟩ <;> decide +kernel

/-- States and operands that meet the hypotheses of the clauses of DredgerMonitorsTelemetry. -/
theorem witness_DredgerMonitorsTelemetry :
    (state10.is drgEn = true ∧ state10.is drgLeave = true ∧ state10.drg.region = false ∧ (state10.pass !false).due = false) ∧
    (((state10.pass false).period = 0 ∨ (state10.pass false).done < state10.passTotal false ∧ ¬((state10.pass false).late = false ∧
      2 * (state10.pass false).period < state10.now - (state10.pass false).start))) ∧
    (state10.owned R.DRG_CTRL = 0#32 ∧ (2#32).getLsbD 0 = false) ∧
    ((↑(state10.rd { addr := R.TLM_CTRL, lsb := 0, width := 8 }) : Int) * 16 ≤ max (max (1610#16).toInt (1#16).toInt) (max (2#16).toInt (3#16).toInt) ∧
      state10.tlm.warn = false ∧ max (max (1610#16).toInt (1#16).toInt) (max (2#16).toInt (3#16).toInt) < 115 * 16) ∧
    ((state10.is tlmEnabled = false ∨ state10.now < state10.tlm.since + max 1 (min 1000 (state10.rd (highHalf R.TLM_CTRL))) * 250000)) ∧
    (state11.owned R.DRG_CTRL = 0#32 ∧ (1#32).getLsbD 0 = true) ∧
    (max (max (1#16).toInt (1610#16).toInt) (max (2#16).toInt (3#16).toInt) < (↑(state11.rd { addr := R.TLM_CTRL, lsb := 0, width := 8 }) : Int) * 16 ∧
      state11.tlm.warn = false ∧ max (max (1#16).toInt (1610#16).toInt) (max (2#16).toInt (3#16).toInt) < 115 * 16 ∧
      100 * 16 < max (max (1#16).toInt (1610#16).toInt) (max (2#16).toInt (3#16).toInt)) ∧
    ((state12.is drgEn = false ∨ state12.is drgLeave = false)) ∧
    (state12.reg (R.TLM_VWINv 1) ≠ 0#32 ∧ (250 < state12.rd (lowHalf (R.TLM_VWINv 1)) ∨ state12.rd (highHalf (R.TLM_VWINv 1)) < 250) ∧
      (Tab.get (fun _ => 0) state12.tlm.outside 1 ≠ 7)) ∧
    (state13.reg (R.TLM_VWINv 1) ≠ 0#32 ∧ (250 < state13.rd (lowHalf (R.TLM_VWINv 1)) ∨ state13.rd (highHalf (R.TLM_VWINv 1)) < 250) ∧
      (Tab.get (fun _ => 0) state13.tlm.outside 1 = 7)) ∧
    (state15.is tlmEnabled = true ∧ state15.tlm.since + max 1 (min 1000 (state15.rd (highHalf R.TLM_CTRL))) * 250000 ≤ state15.now) ∧
    ((state16.is drgEn = true ∧ (true = true → state16.is drgDramEn = true) ∧ (state16.pass true).done < state16.passTotal true ∧
      (state16.pass true).next ≤ state16.now) ∧ state16.is drgPending = false ∧ state16.is drgLeave = false ∧ (state16.pass !true).due = false) ∧
    ((state17.pass true).period ≠ 0 ∧ (state17.pass true).done < state17.passTotal true ∧ ((state17.pass true).late = false ∧
      2 * (state17.pass true).period < state17.now - (state17.pass true).start)) ∧
    ((dx {}).is drgEn = false) := by
  refine ⟨?_, ?_, ?_, ?_, ?_, ?_, ?_, ?_, ?_, ?_, ?_, ?_, ?_, ?_⟩ <;> decide +kernel

end TestWeir

end Sys2Proof.Tests
end

section
/-!
Accesses to the control register space (00 R10 to R17; 17 R420, R447; 18 R466): which target an access reaches, what the judgement of due
messages leaves alone, and accesses to offsets without a register.
-/
namespace Sys2Proof.Machine

/-! ## Bytes -/

@[simp] theorem length_leBytes (n v : Nat) : (leBytes n v).length = n := by
  induction n generalizing v with
  | zero => rfl
  | succ n ih => simp [leBytes, ih]

theorem leNat_leBytes (n v : Nat) : leNat (leBytes n v) = v % 256 ^ n := by
  induction n generalizing v with
  | zero => simp [leBytes, leNat, Nat.mod_one]
  | succ n ih =>
    have hb : (BitVec.ofNat 8 v).toNat = v % 256 := by simp
    rw [leBytes, leNat, ih, hb, Nat.pow_succ', Nat.mod_mul]

/-- The data of a write, as bytes with their enables and back. -/
theorem ofNat_leNat_leBytes (v : Word) : BitVec.ofNat 32 (leNat (leBytes 4 v.toNat)) = v := by
  apply BitVec.eq_of_toNat_eq
  have := v.isLt
  simp only [leNat_leBytes, BitVec.toNat_ofNat]
  omega

/-! ## Targets (17 R420, R447) -/

variable {m a : Nat}

theorem targetOf_control (h : a < 0x1C0000) : targetOf a = 4 := if_pos h

theorem targetOf_unassigned (h : 0x1C0000 ≤ a) (h' : a < 0x10000000) : targetOf a = 7 := by
  unfold targetOf ssmBase dramBase hostBase
  simp only [show ¬ a < 0x1C0000 by omega, show ¬ 0x10000000 ≤ a by omega, show ¬ 0x20000000 ≤ a by omega, show ¬ 0x30000000 ≤ a by omega,
    show ¬ 0x100000000 ≤ a by omega, show ¬ 0x8000000000 ≤ a by omega, false_and, if_false]

theorem burstCause_control (h : a < 0x1C0000) (hm : reaches m 4 = true) : burstCause m a = none := by
  simp [burstCause, targetOf_control h, hm]

theorem burstCause_unassigned (h : 0x1C0000 ≤ a) (h' : a < 0x10000000) : burstCause m a = some causeNoTarget := by
  simp [burstCause, targetOf_unassigned h h']

variable (s : State)

theorem State.busReady_control (h : a < 0x1C0000) : s.busReady a = true := by simp [State.busReady, targetOf_control h]

theorem State.busReady_unassigned (h : 0x1C0000 ≤ a) (h' : a < 0x10000000) : s.busReady a = true := by
  simp [State.busReady, targetOf_unassigned h h']

theorem State.setWith_zero : s.setWith a 0 = s := by unfold State.setWith; split <;> simp

section
variable {m : MasterIx} {a : Addr} {n : Nat} {v sets : Word}

/-- A write to the control register space goes to the towpath. -/
theorem exec_registerWrite_control (h : a.toNat < 0x1C0000) (hm : reaches m 4 = true) : exec (.registerWrite m a n v sets) s
    = .next ((s.towpathWrite m a.toNat n (BitVec.ofNat 32 (leNat (leBytes n v.toNat)))).setWith a.toNat sets) := by
  simp [exec, execRegisterWrite, State.busWrite, burstCause_control h hm, targetOf_control h, Function.comp_def]

theorem exec_registerWrite_unassigned (h : 0x1C0000 ≤ a.toNat) (h' : a.toNat < 0x10000000) : exec (.registerWrite m a n v 0) s
    = .next (s.defaultTarget m a.toNat 7 true causeNoTarget) := by
  simp only [exec, execRegisterWrite, State.setWith_zero, State.busWrite, burstCause_unassigned h h', targetOf_unassigned h h']

theorem exec_wideLowWordRead_control (h : a.toNat < 0x1C0000) :
    exec (.wideLowWordRead a) s = .next (s.towpathRead 4 a.toNat 4).1 := by
  simp [exec, execWideLowWordRead, s.busReady_control h, State.busRead, burstCause_control h (m := 4) rfl, targetOf_control h]

theorem exec_wideLowWordRead_unassigned (h : 0x1C0000 ≤ a.toNat) (h' : a.toNat < 0x10000000) : exec (.wideLowWordRead a) s
    = .next ((s.defaultTarget 4 a.toNat 7 false causeNoTarget).answer [0] .defaultTarget) := by
  simp only [exec, execWideLowWordRead, s.busReady_unassigned h h', if_true, State.busRead, burstCause_unassigned h h', targetOf_unassigned h h']
  rfl

end

/-! ## Due messages (18 R466) -/

/-- `t` differs from `s` at most in the vectors' requests and the registers of due messages. -/
structure DueOnly (s t : State) : Prop where
  rest : { t with regs := s.regs, evt := s.evt } = s
  reg : ∀ b, b ∉ dueRegs → t.reg b = s.reg b

variable {s} {t u : State}

theorem DueOnly.refl (s : State) : DueOnly s s := ⟨rfl, fun _ _ => rfl⟩

theorem DueOnly.trans (h : DueOnly s t) (h' : DueOnly t u) : DueOnly s u :=
  ⟨by rw [← h.rest, ← h'.rest], fun b hb => (h'.reg b hb).trans (h.reg b hb)⟩

theorem DueOnly.layers (h : DueOnly s t) : t.layers = s.layers := (congrArg State.layers h.rest :)
theorem DueOnly.reply (h : DueOnly s t) : t.reply = s.reply := (congrArg State.reply h.rest :)
theorem DueOnly.cfg (h : DueOnly s t) : t.cfg = s.cfg := (congrArg State.cfg h.rest :)

theorem pba_addr_mem_dueRegs {v : Nat} (h : v < 64) : (pba v).addr ∈ dueRegs := by
  have : v / 32 = 0 ∨ v / 32 = 1 := by omega
  rcases this with h | h <;> simp [pba, bitAt, dueRegs, h]

theorem State.judgeVector_dueOnly (s : State) {v : Nat} (h : v < 64) : DueOnly s (s.judgeVector v) := by
  have hwr (u : State) (x : Nat) : DueOnly u (u.wr (pba v) x) :=
    ⟨rfl, fun b hb => u.reg_wr_ne x fun e => hb (e ▸ pba_addr_mem_dueRegs h)⟩
  have hevt (r : BitVec 64) : DueOnly s { s with evt := { s.evt with requests := r } } := ⟨rfl, fun _ _ => rfl⟩
  unfold State.judgeVector
  extract_lets now was evt w
  have hw : DueOnly s w := hevt _
  split
  · exact hw.trans (hwr _ _)
  · split
    · exact hw.trans (hwr _ _)
    · exact hw

/-- Judging vectors in turn changes due messages alone. -/
theorem DueOnly.foldl_judge {l : List Nat} (hl : ∀ v ∈ l, v < 64) (h : DueOnly s u) : DueOnly s
    (l.foldl (fun s v => if s.evt.requests.getLsbD v && !s.request v then s.judgeVector v else s) u) := by
  induction l generalizing u with
  | nil => exact h
  | cons v l ih =>
    refine ih (fun x hx => hl x (List.mem_cons_of_mem _ hx)) ?_
    dsimp only
    split
    · exact h.trans (u.judgeVector_dueOnly (hl v (List.mem_cons_self ..)))
    · exact h

theorem State.judgeFalls_dueOnly (s : State) : DueOnly s s.judgeFalls := by
  unfold State.judgeFalls
  split
  · exact DueOnly.refl s
  · exact (DueOnly.refl s).foldl_judge fun v hv => List.mem_range.1 hv

theorem DueOnly.accessOnly {as : List Nat} (h : DueOnly s t) : AccessOnly as s t :=
  ⟨by have := h.layers; have := h.reply; rw [← h.rest], fun b _ hb => h.reg b hb⟩

theorem AccessOnly.trans {as : List Nat} (h : AccessOnly as s t) (h' : AccessOnly as t u) : AccessOnly as s u :=
  ⟨by rw [← h.1, ← h'.1], fun b ha hd => (h'.2 b ha hd).trans (h.2 b ha hd)⟩

theorem AccessOnly.answer {as : List Nat} (s : State) (data : List Word) (r : Response) : AccessOnly as s (s.answer data r) :=
  ⟨rfl, fun _ _ _ => rfl⟩

/-! ## Offsets without a register (00 R11) -/

theorem State.regWrite_unassigned (s : State) (m a : Nat) (v : Word) (h : descAt a = none) : s.regWrite m a v = s := by
  simp [State.regWrite, h]

theorem State.regRead_unassigned (s : State) (a : Nat) (h : descAt a = none) : s.regRead a = (s, 0) := by
  unfold State.regRead
  split
  · rfl
  · simp only [h]

theorem State.softWrite_unassigned (s : State) (m a : Nat) (v : Word) (h : descAt a = none) : s.softWrite m a v = s := by
  have hreq : a ≠ R.CFG_MODE_REQ := fun e => by
    rw [e] at h
    exact absurd h (by decide)
  simp [State.softWrite, h, hreq, State.regWrite_unassigned]

theorem State.towpathWrite_aligned (s : State) (m a : Nat) (v : Word) (h : a % 4 = 0) : s.towpathWrite m a 4 v = (s.answer []).softWrite m a v := by
  simp [State.towpathWrite, h]

theorem State.towpathRead_aligned (s : State) (m a : Nat) (h : a % 4 = 0) :
    (s.towpathRead m a 4).1 = ((s.regRead a).1.answer [(s.regRead a).2]).judgeFalls := by
  simp [State.towpathRead, h]

end Sys2Proof.Machine
end

section
open Sys2Proof Sys2Proof.Machine

/-- Settles O3: the targets of the address ranges, and the register access where no register is assigned. -/
theorem unassignedAndMisalignedAccesses : Obligations.UnassignedAndMisalignedAccesses := by
  unfold Obligations.UnassignedAndMisalignedAccesses
  intro s m a n v hm
  refine ⟨fun h hbad => ?_, fun h hbad => ?_, fun h h' => ⟨exec_registerWrite_unassigned s h h', exec_wideLowWordRead_unassigned s h h'⟩,
    fun h h4 hd => ⟨?_, ?_⟩⟩
  · rw [exec_registerWrite_control s h hm, State.setWith_zero, State.towpathWrite, if_pos hbad]
  · rw [exec_wideLowWordRead_control s h, State.towpathRead, if_pos (.inl hbad)]
    rfl
  · refine ⟨_, exec_registerWrite_control s h hm, ?_⟩
    rw [State.setWith_zero, State.towpathWrite_aligned _ _ _ _ h4, State.softWrite_unassigned _ _ _ _ hd]
    exact ⟨rfl, AccessOnly.answer s _ _, rfl⟩
  · refine ⟨_, exec_wideLowWordRead_control s h, ?_⟩
    rw [State.towpathRead_aligned _ _ _ h4, State.regRead_unassigned _ _ hd]
    have hdue := (s.answer [0]).judgeFalls_dueOnly
    exact ⟨hdue.reply, (AccessOnly.answer s _ _).trans hdue.accessOnly, hdue.layers⟩

end

section
/-!
The layers of a register (03 R87, R88; 00 R15): which layer decides a bit, and what a write by the access types does to the register and to them.
-/
namespace Sys2Proof.Machine

/-! ## The register map -/

/-- The masks of the access types fit a register, and no bit is RW and W1C at once. -/
def RegDesc.sound (d : RegDesc) : Bool :=
  decide (d.rw < 2 ^ 32) && decide (d.sh < 2 ^ 32) && decide (d.w1c < 2 ^ 32) && (BitVec.ofNat 32 d.rw &&& BitVec.ofNat 32 d.w1c == 0)

theorem blockMap_sound (b : Nat) : ∀ d ∈ blockMap b, d.sound = true := by
  unfold blockMap
  split <;> decide +kernel

/-- Software writes no bit of the register. -/
def RegDesc.readOnly (d : RegDesc) : Bool := d.rw == 0 && d.sh == 0 && d.w1c == 0

variable {a b : Nat} {d : RegDesc}

theorem descAt_sound (h : descAt a = some d) : d.sound = true := blockMap_sound _ d (List.mem_of_find?_eq_some h)

/-- A register software writes is none of those it never writes. -/
theorem ne_of_readOnly (h : descAt a = some d) (hw : d.readOnly = false) (hb : (descAt b).all RegDesc.readOnly = true) : a ≠ b := by
  rintro rfl
  rw [h, Option.all_some, hw] at hb
  exact absurd hb (by decide)

theorem modeHeld_readOnly : (descAt R.CFG_MODE_HELD).all RegDesc.readOnly = true := by decide +kernel
theorem dueRegs_readOnly : ∀ b ∈ dueRegs, (descAt b).all RegDesc.readOnly = true := by decide +kernel
theorem groupCfg_readOnly : ∀ g < 4, (descAt (R.TDM_GRPg_CFG g)).all RegDesc.readOnly = true ∧
    (descAt (R.AMP_GRPa_CFG g)).all RegDesc.readOnly = true := by decide +kernel

theorem ofNat_eq_zero {n : Nat} (h : n < 2 ^ 32) : BitVec.ofNat 32 n = 0 ↔ n = 0 := by
  rw [← BitVec.toNat_inj, BitVec.toNat_ofNat, Nat.mod_eq_of_lt h]
  simp

theorem RegDesc.readOnly_iff_masks (h : d.sound = true) :
    d.readOnly = true ↔ BitVec.ofNat 32 d.rw ||| BitVec.ofNat 32 d.w1c ||| BitVec.ofNat 32 d.sh = 0 := by
  simp only [RegDesc.sound, Bool.and_eq_true, decide_eq_true_eq] at h
  obtain ⟨⟨⟨hrw, hsh⟩, hw1c⟩, -⟩ := h
  have hor (x y : Word) : x ||| y = 0 ↔ x = 0 ∧ y = 0 := BitVec.or_eq_zero_iff
  rw [hor, hor, ofNat_eq_zero hrw, ofNat_eq_zero hsh, ofNat_eq_zero hw1c, RegDesc.readOnly, Bool.and_eq_true, Bool.and_eq_true,
    beq_iff_eq, beq_iff_eq, beq_iff_eq, and_right_comm]

/-! ## Bits under overlays (03 R87, R88) -/

/-- A write of `ws` owns bit `i` of the register at `a`. -/
def ownsBit (ws : List OvWrite) (a i : Nat) : Bool := ws.any fun w => decide (w.addr = a) && w.mask.getLsbD i

theorem ownsBit_cons (w : OvWrite) (ws : List OvWrite) (a i : Nat) :
    ownsBit (w :: ws) a i = ((decide (w.addr = a) && w.mask.getLsbD i) || ownsBit ws a i) := rfl

theorem applyWrites_cons (w : OvWrite) (ws : List OvWrite) (a : Nat) (v : Word) :
    applyWrites (w :: ws) a v = applyWrites ws a (if w.addr = a then (v &&& ~~~w.mask) ||| (w.value &&& w.mask) else v) := rfl

theorem getLsbD_foldl_mask (ws : List OvWrite) (a i : Nat) (m : Word) :
    (ws.foldl (fun m w => if w.addr = a then m ||| w.mask else m) m).getLsbD i = (m.getLsbD i || ownsBit ws a i) := by
  induction ws generalizing m with
  | nil => simp [ownsBit]
  | cons w ws ih =>
    rw [List.foldl_cons, ih]
    by_cases h : w.addr = a <;> simp [ownsBit, h, Bool.or_assoc]

/-- A bit no overlay owns keeps the value under the overlays. -/
theorem getLsbD_applyWrites_free {ws : List OvWrite} {a i : Nat} (h : ownsBit ws a i = false) (v : Word) :
    (applyWrites ws a v).getLsbD i = v.getLsbD i := by
  induction ws generalizing v with
  | nil => rfl
  | cons w ws ih =>
    rw [ownsBit_cons, Bool.or_eq_false_iff] at h
    rw [applyWrites_cons, ih h.2]
    split <;> rename_i hw
    · have hm : w.mask.getLsbD i = false := by simpa [hw] using h.1
      simp only [BitVec.getLsbD_or, BitVec.getLsbD_and, BitVec.getLsbD_not, hm]
      by_cases hi : i < 32
      · simp [hi]
      · simp [hi, BitVec.getLsbD_of_ge v i (by omega)]
    · rfl

/-- A bit an overlay owns does not depend on the value under the overlays. -/
theorem getLsbD_applyWrites_owned {ws : List OvWrite} {a i : Nat} (h : ownsBit ws a i = true) (v v' : Word) :
    (applyWrites ws a v).getLsbD i = (applyWrites ws a v').getLsbD i := by
  induction ws generalizing v v' with
  | nil => simp [ownsBit] at h
  | cons w ws ih =>
    rw [applyWrites_cons, applyWrites_cons]
    cases hws : ownsBit ws a i
    · have hw : w.addr = a ∧ w.mask.getLsbD i = true := by simpa [ownsBit_cons, hws] using h
      rw [getLsbD_applyWrites_free hws, getLsbD_applyWrites_free hws, if_pos hw.1, if_pos hw.1]
      simp [hw.2]
    · exact ih hws _ _

variable {s t : State}

theorem State.owned_congr (hc : t.cfg = s.cfg) (hh : t.reg R.CFG_MODE_HELD = s.reg R.CFG_MODE_HELD) (a : Nat) : t.owned a = s.owned a := by
  simp only [State.owned, hc, hh]

theorem State.layered_congr (hl : t.layers = s.layers) (hc : t.cfg = s.cfg) (hh : t.reg R.CFG_MODE_HELD = s.reg R.CFG_MODE_HELD) (a : Nat) :
    t.layered a = s.layered a := by
  simp only [State.layered, hl, hc, hh]

theorem State.ownsBit_owned (s : State) (a i : Nat) :
    ownsBit (overlayWrites s.cfg.overlays (s.reg R.CFG_MODE_HELD).toNat) a i = (s.owned a).getLsbD i := by
  rw [State.owned, getLsbD_foldl_mask]
  simp

@[simp] theorem State.reg_soften (s : State) (a : Nat) (mask v : Word) (b : Nat) : (s.soften a mask v).reg b = s.reg b := rfl

/-- What software stored decides a bit that no held overlay owns (03 R88). -/
theorem State.getLsbD_layered_soften_free {a i : Nat} {mask v : Word} (ho : (s.owned a).getLsbD i = false) (hm : mask.getLsbD i = true) :
    ((s.soften a mask v).layered a).getLsbD i = v.getLsbD i := by
  rw [State.layered, getLsbD_applyWrites_free (by rw [State.ownsBit_owned]; exact ho)]
  simp [State.soften, hm]

/-- A held overlay decides the bits it owns, whatever software stores (03 R88). -/
theorem State.getLsbD_layered_soften_owned {a i : Nat} (mask v : Word) (ho : (s.owned a).getLsbD i = true) :
    ((s.soften a mask v).layered a).getLsbD i = (s.layered a).getLsbD i :=
  getLsbD_applyWrites_owned (by rw [← s.ownsBit_owned] at ho; exact ho) _ _

theorem State.layered_soften_free (s : State) (a : Nat) (mask v : Word) :
    (s.soften a mask v).layered a &&& mask &&& ~~~(s.owned a) = v &&& mask &&& ~~~(s.owned a) := by
  apply BitVec.eq_of_getLsbD_eq
  intro i hi
  simp only [BitVec.getLsbD_and, BitVec.getLsbD_not, hi, decide_true, Bool.true_and]
  cases ho : (s.owned a).getLsbD i
  · cases hm : mask.getLsbD i
    · simp
    · simp [State.getLsbD_layered_soften_free ho hm]
  · simp

theorem State.layered_soften_owned (s : State) (a : Nat) (mask v : Word) :
    (s.soften a mask v).layered a &&& mask &&& s.owned a = s.layered a &&& mask &&& s.owned a := by
  apply BitVec.eq_of_getLsbD_eq
  intro i hi
  simp only [BitVec.getLsbD_and]
  cases ho : (s.owned a).getLsbD i
  · simp
  · rw [State.getLsbD_layered_soften_owned mask v ho]

/-! ## A write by the access types (00 R13 to R15) -/

/-- The three parts of a write by the access types: RW bits at once, SH bits waiting, W1C bits cleared. -/
def State.writeRw (s : State) (a n : Nat) (v : Word) : State :=
  if n = 0 then s else (s.soften a (BitVec.ofNat 32 n) v).settle a (BitVec.ofNat 32 n)
def State.writeSh (s : State) (a n : Nat) (v : Word) : State := if n = 0 then s else (s.soften a (BitVec.ofNat 32 n) v).setShWaits a true
def State.writeW1c (s : State) (a n : Nat) (v : Word) : State := if n = 0 then s else s.setReg a (s.reg a &&& ~~~(v &&& BitVec.ofNat 32 n))

theorem State.plainWrite_eq (s : State) (a : Nat) (d : RegDesc) (v : Word) :
    s.plainWrite a d v = ((s.writeRw a d.rw v).writeSh a d.sh v).writeW1c a d.w1c v := rfl

/-- Beside the register at `a` and the layers, nothing differs. -/
structure LayersOnly (a : Nat) (s t : State) : Prop where
  rest : { t with regs := s.regs, layers := s.layers } = s
  reg : ∀ b, b ≠ a → t.reg b = s.reg b

theorem LayersOnly.refl (a : Nat) (s : State) : LayersOnly a s s := ⟨rfl, fun _ _ => rfl⟩

theorem LayersOnly.trans {a : Nat} {s t u : State} (h : LayersOnly a s t) (h' : LayersOnly a t u) : LayersOnly a s u :=
  ⟨by rw [← h.rest, ← h'.rest], fun b hb => (h'.reg b hb).trans (h.reg b hb)⟩

theorem LayersOnly.setReg (a : Nat) (s : State) (v : Word) : LayersOnly a s (s.setReg a v) := ⟨rfl, fun _ hb => s.reg_setReg_ne v hb⟩

theorem LayersOnly.cfg (h : LayersOnly a s t) : t.cfg = s.cfg := (congrArg State.cfg h.rest :)

theorem LayersOnly.accessOnly (h : LayersOnly a s t) : AccessOnly [a] s t :=
  ⟨by rw [← h.rest], fun b hb _ => h.reg b (by simpa using hb)⟩

theorem LayersOnly.owned (h : LayersOnly a s t) (ha : a ≠ R.CFG_MODE_HELD) (b : Nat) : t.owned b = s.owned b :=
  State.owned_congr h.cfg (h.reg _ ha.symm) b

variable (s) (a n : Nat) (v : Word)

theorem State.writeRw_layersOnly : LayersOnly a s (s.writeRw a n v) := by
  unfold State.writeRw
  split
  · exact LayersOnly.refl a s
  · exact ⟨rfl, fun b hb => State.reg_setReg_ne _ _ hb⟩

theorem State.writeSh_layersOnly : LayersOnly a s (s.writeSh a n v) := by
  unfold State.writeSh
  split
  · exact LayersOnly.refl a s
  · exact ⟨rfl, fun _ _ => rfl⟩

theorem State.writeW1c_layersOnly : LayersOnly a s (s.writeW1c a n v) := by
  unfold State.writeW1c
  split
  · exact LayersOnly.refl a s
  · exact LayersOnly.setReg a s _

theorem State.plainWrite_layersOnly (d : RegDesc) : LayersOnly a s (s.plainWrite a d v) :=
  ((s.writeRw_layersOnly a d.rw v).trans (State.writeSh_layersOnly _ a d.sh v)).trans (State.writeW1c_layersOnly _ a d.w1c v)

theorem State.reg_writeRw : (s.writeRw a n v).reg a
    = (s.reg a &&& ~~~(BitVec.ofNat 32 n)) ||| ((s.soften a (BitVec.ofNat 32 n) v).layered a &&& BitVec.ofNat 32 n) := by
  unfold State.writeRw
  split <;> rename_i hn
  · simp only [hn, BitVec.and_zero, BitVec.or_zero, BitVec.not_zero, BitVec.and_allOnes]
  · simp [State.settle]

theorem State.reg_writeSh : (s.writeSh a n v).reg a = s.reg a := by unfold State.writeSh; split <;> rfl

theorem State.reg_writeW1c : (s.writeW1c a n v).reg a = s.reg a &&& ~~~(v &&& BitVec.ofNat 32 n) := by
  unfold State.writeW1c
  split <;> rename_i hn
  · simp only [hn, BitVec.and_zero, BitVec.not_zero, BitVec.and_allOnes]
  · simp

/-- The register after a write by the access types. -/
theorem State.reg_plainWrite (d : RegDesc) : (s.plainWrite a d v).reg a
    = ((s.reg a &&& ~~~(BitVec.ofNat 32 d.rw)) ||| ((s.soften a (BitVec.ofNat 32 d.rw) v).layered a &&& BitVec.ofNat 32 d.rw))
      &&& ~~~(v &&& BitVec.ofNat 32 d.w1c) := by
  rw [State.plainWrite_eq, State.reg_writeW1c, State.reg_writeSh, State.reg_writeRw]

theorem State.layers_writeW1c : (s.writeW1c a n v).layers = s.layers := by unfold State.writeW1c; split <;> rfl

theorem State.shWaits_writeSh (hn : n ≠ 0) : (s.writeSh a n v).shWaits a = true := by
  rw [State.writeSh, if_neg hn, State.shWaits, State.setShWaits]
  simp only [if_true]
  split
  · assumption
  · simp

theorem State.layered_writeSh_free : (s.writeSh a n v).layered a &&& BitVec.ofNat 32 n &&& ~~~(s.owned a)
    = v &&& BitVec.ofNat 32 n &&& ~~~(s.owned a) := by
  unfold State.writeSh
  split <;> rename_i hn
  · subst hn; simp
  · exact s.layered_soften_free a _ v

/-- After the write the SH bits wait with the value written. -/
theorem State.sh_plainWrite (d : RegDesc) (ha : a ≠ R.CFG_MODE_HELD) :
    (s.plainWrite a d v).layered a &&& BitVec.ofNat 32 d.sh &&& ~~~(s.owned a) = v &&& BitVec.ofNat 32 d.sh &&& ~~~(s.owned a) ∧
    (d.sh ≠ 0 → (s.plainWrite a d v).shWaits a = true) := by
  have hrw := s.writeRw_layersOnly a d.rw v
  have hlast := State.writeW1c_layersOnly ((s.writeRw a d.rw v).writeSh a d.sh v) a d.w1c v
  have hlayers := State.layers_writeW1c ((s.writeRw a d.rw v).writeSh a d.sh v) a d.w1c v
  rw [State.plainWrite_eq]
  refine ⟨?_, fun hsh => ?_⟩
  · rw [State.layered_congr hlayers hlast.cfg (hlast.reg _ ha.symm), ← hrw.owned ha]
    exact State.layered_writeSh_free ..
  · rw [State.shWaits, hlayers]
    exact State.shWaits_writeSh _ a d.sh v hsh

end Sys2Proof.Machine
end

section
/-!
A software write of a register by its access types alone (00 R13 to R17): the access from the bus to the register, with the W1C bits that hardware
sets in the same cycle.
-/
namespace Sys2Proof.Machine

variable {s t : State} {a : Nat} {d : RegDesc}

/-- Whether a port or group is placed stands in registers of the image, which no access writes. -/
theorem State.hidden_congr (htdm : ∀ g < 4, t.reg (R.TDM_GRPg_CFG g) = s.reg (R.TDM_GRPg_CFG g))
    (hamp : ∀ g < 4, t.reg (R.AMP_GRPa_CFG g) = s.reg (R.AMP_GRPa_CFG g)) (a : Nat) : t.hidden a = s.hidden a := by
  have ht (g : Nat) (hg : g < 4) : t.tdmAssigned g = s.tdmAssigned g := by
    simp only [State.tdmAssigned, State.is, State.rd, R.TDM_GRPg_CFG_assigned, htdm g hg]
  have ha (g : Nat) (hg : g < 4) : t.ampAssigned g = s.ampAssigned g := by
    simp only [State.ampAssigned, State.is, State.rd, R.AMP_GRPa_CFG_assigned, hamp g hg]
  have hb (c : Nat) (hc : c / 8 < 4) : t.ampTied c = s.ampTied c := by
    simp only [State.ampTied, State.rd, R.AMP_GRPa_CFG_btl, hamp (c / 8) hc]
  unfold State.hidden
  split
  · rfl
  · dsimp only
    split
    · rw [ht _ (by omega)]
    · split
      · rw [ht _ (by omega)]
      · rfl
  · dsimp only
    split
    · rw [ha _ (by omega)]
    · split
      · rw [ha _ (by omega), hb _ (by omega)]
      · rfl
  · rfl

/-- Beside due messages, the register at `a` and the layers nothing differs, so a read-only register holds its value. -/
theorem DueOnly.reg_readOnly {u : State} {b : Nat} (hl : LayersOnly a s t) (hd : DueOnly t u) (h : descAt a = some d) (hw : d.readOnly = false)
    (hb : (descAt b).all RegDesc.readOnly = true) (hdue : b ∉ dueRegs) : u.reg b = s.reg b :=
  (hd.reg b hdue).trans (hl.reg b (ne_of_readOnly h hw hb).symm)

theorem State.hidden_of_write {u : State} (hl : LayersOnly a s t) (hd : DueOnly t u) (h : descAt a = some d) (hw : d.readOnly = false) (b : Nat) :
    u.hidden b = s.hidden b := by
  have hdue : ∀ g < 4, R.TDM_GRPg_CFG g ∉ dueRegs ∧ R.AMP_GRPa_CFG g ∉ dueRegs := by decide
  exact State.hidden_congr (fun g hg => DueOnly.reg_readOnly hl hd h hw (groupCfg_readOnly g hg).1 (hdue g hg).1)
    (fun g hg => DueOnly.reg_readOnly hl hd h hw (groupCfg_readOnly g hg).2 (hdue g hg).2) b

/-- The W1C bits set in the cycle of a write join the register. -/
theorem State.reg_setWith (sets : Word) (h : descAt a = some d) (hh : s.hidden a = false) :
    (s.setWith a sets).reg a = s.reg a ||| (sets &&& BitVec.ofNat 32 d.w1c) := by
  simp only [State.setWith, h, hh, Bool.false_eq_true, false_or]
  split <;> rename_i h0
  · rw [h0]; exact (BitVec.or_zero).symm
  · rw [State.reg_setReg_self]

theorem State.setWith_layersOnly (s : State) (a : Nat) (sets : Word) : LayersOnly a s (s.setWith a sets) := by
  unfold State.setWith
  split
  · split
    · exact LayersOnly.refl a s
    · exact LayersOnly.setReg a s _
  · exact LayersOnly.refl a s

theorem State.layers_setWith (s : State) (a : Nat) (sets : Word) : (s.setWith a sets).layers = s.layers := by
  unfold State.setWith
  split
  · split <;> rfl
  · rfl

/-- A write by the access types alone reaches the register. -/
theorem State.softWrite_plain {m : Nat} {v : Word} (h : s.plainTarget m a v d) :
    (s.answer []).softWrite m a v = ((s.answer []).commonWrite a v).judgeFalls := by
  obtain ⟨-, -, hhid, hdesc, hspecial, hreq, hmirror⟩ := h
  have hreg : (s.answer []).regWrite m a v = ((s.answer []).commonWrite a v).judgeFalls := by
    have hhid : (s.answer []).hidden a = false := (State.hidden_congr (s := s) (fun _ _ => rfl) (fun _ _ => rfl) a).trans hhid
    simp only [State.regWrite, hhid, hdesc, hspecial, Option.isNone_some, Bool.or_self, Bool.false_eq_true, if_false]
  rw [State.softWrite, hreg, if_neg hreq]
  split <;> rename_i hblock
  · obtain ⟨hm, hm'⟩ := hmirror (by simpa [hdesc] using hblock)
    rw [if_neg (by rw [show (s.answer []).mirrors = s.mirrors from rfl, hm]; decide),
      if_neg (by rw [show (s.answer []).mirrored = s.mirrored from rfl, hm']; decide)]
  · rfl

/-- A REGISTER_WRITE of a register without a side effect of its own. -/
theorem exec_registerWrite_plain {m : MasterIx} {a : Addr} {v sets : Word} (h : s.plainTarget m a.toNat v d) (hm : reaches m 4 = true) :
    exec (.registerWrite m a 4 v sets) s = .next ((((s.answer []).commonWrite a.toNat v).judgeFalls).setWith a.toNat sets) := by
  obtain ⟨hspace, haligned, -⟩ := id h
  rw [exec_registerWrite_control s hspace hm, ofNat_leNat_leBytes, State.towpathWrite_aligned _ _ _ _ haligned, State.softWrite_plain h]

theorem State.commonWrite_narrow {v : Word} (h : descAt a = some d) (hw : d.wlen ≤ 1) : s.commonWrite a v = s.plainWrite a d v := by
  simp [State.commonWrite, h, hw]

/-- The lower word of a wide value waits for its highest word, its writable bits alone (00 R17). -/
theorem State.commonWrite_low {v : Word} (h : descAt a = some d) (hrw : d.rw ≠ 0) (hl : d.wlen = 2) (hp : d.wpos = 0) :
    s.commonWrite a v = s.setHeldLow a (some (v &&& BitVec.ofNat 32 d.rw)) := by
  simp [State.commonWrite, h, hrw, hl, hp]

/-! ## The bits of the register -/

section
variable (r l v sets rw w : Word)

/-- The register after the write: `l` in the RW bits, W1C bits cleared by `v` and set by `sets`. -/
def writtenBits : Word := ((r &&& ~~~rw) ||| (l &&& rw)) &&& ~~~(v &&& w) ||| (sets &&& w)

theorem getLsbD_writtenBits {i : Nat} (hi : i < 32) : (writtenBits r l v sets rw w).getLsbD i
    = ((if rw.getLsbD i then l.getLsbD i else r.getLsbD i) && !(v.getLsbD i && w.getLsbD i) || sets.getLsbD i && w.getLsbD i) := by
  cases h : rw.getLsbD i <;> simp [writtenBits, hi, h, BitVec.getLsbD_or, BitVec.getLsbD_and, BitVec.getLsbD_not, -BitVec.getLsbD_eq_getElem]

variable {rw w} (hdisj : rw &&& w = 0)
include hdisj

theorem disjoint_getLsbD (i : Nat) : (rw.getLsbD i && w.getLsbD i) = false := by
  rw [← BitVec.getLsbD_and, hdisj]
  exact BitVec.getLsbD_zero

theorem writtenBits_rw : writtenBits r l v sets rw w &&& rw = l &&& rw := by
  apply BitVec.eq_of_getLsbD_eq
  intro i hi
  have hd := disjoint_getLsbD hdisj i
  rw [BitVec.getLsbD_and, BitVec.getLsbD_and, getLsbD_writtenBits _ _ _ _ _ _ hi]
  cases hrw : rw.getLsbD i
  · simp
  · have hw : w.getLsbD i = false := by simpa [hrw] using hd
    simp [hw]

theorem writtenBits_w1c : writtenBits r l v sets rw w &&& w = (r &&& ~~~v ||| sets) &&& w := by
  apply BitVec.eq_of_getLsbD_eq
  intro i hi
  have hd := disjoint_getLsbD hdisj i
  rw [BitVec.getLsbD_and, BitVec.getLsbD_and, BitVec.getLsbD_or, BitVec.getLsbD_and, BitVec.getLsbD_not, getLsbD_writtenBits _ _ _ _ _ _ hi]
  cases hw : w.getLsbD i
  · simp
  · have hrw : rw.getLsbD i = false := by simpa [hw] using hd
    rw [hrw]
    simp [hi]

omit hdisj in
theorem writtenBits_rest : writtenBits r l v sets rw w &&& ~~~(rw ||| w) = r &&& ~~~(rw ||| w) := by
  apply BitVec.eq_of_getLsbD_eq
  intro i hi
  rw [BitVec.getLsbD_and, BitVec.getLsbD_and, BitVec.getLsbD_not, BitVec.getLsbD_or, getLsbD_writtenBits _ _ _ _ _ _ hi]
  cases hrw : rw.getLsbD i
  · cases hw : w.getLsbD i <;> simp
  · simp

end

/-! ## The write as a whole -/

/-- The register after a software write by its access types alone, in the bits of each type. -/
theorem completes_registerWrite_plain {m : MasterIx} {a : Addr} {v sets : Word} (h : s.plainTarget m a.toNat v d) (hm : reaches m 4 = true)
    (hlen : d.wlen ≤ 1) (hro : d.readOnly = false) : Completes (.registerWrite m a 4 v sets) s fun t =>
      t.reg a.toNat = writtenBits (s.reg a.toNat) ((s.soften a.toNat (BitVec.ofNat 32 d.rw) v).layered a.toNat) v sets (BitVec.ofNat 32 d.rw)
        (BitVec.ofNat 32 d.w1c) ∧
      t.layered a.toNat &&& BitVec.ofNat 32 d.sh &&& ~~~(s.owned a.toNat) = v &&& BitVec.ofNat 32 d.sh &&& ~~~(s.owned a.toNat) ∧
      (d.sh ≠ 0 → t.shWaits a.toNat = true) ∧ AccessOnly [a.toNat] s t := by
  obtain ⟨-, -, hhid, hdesc, -⟩ := id h
  let u := s.answer []
  let p := u.plainWrite a.toNat d v
  let t := p.judgeFalls.setWith a.toNat sets
  have hheld : a.toNat ≠ R.CFG_MODE_HELD := ne_of_readOnly hdesc hro modeHeld_readOnly
  have hdue : a.toNat ∉ dueRegs := fun hb => ne_of_readOnly hdesc hro (dueRegs_readOnly _ hb) rfl
  have hp : LayersOnly a.toNat u p := u.plainWrite_layersOnly a.toNat v d
  have hj : DueOnly p p.judgeFalls := p.judgeFalls_dueOnly
  have ht : LayersOnly a.toNat p.judgeFalls t := State.setWith_layersOnly _ _ _
  have hexec := exec_registerWrite_plain h hm (sets := sets)
  rw [State.commonWrite_narrow hdesc hlen] at hexec
  have hlayers : t.layers = p.layers := (State.layers_setWith _ _ _).trans hj.layers
  have hmode : t.reg R.CFG_MODE_HELD = p.reg R.CFG_MODE_HELD := (ht.reg _ hheld.symm).trans (hj.reg _ (by decide))
  obtain ⟨hsh, hwaits⟩ := u.sh_plainWrite a.toNat v d hheld
  refine ⟨t, hexec, ?_, ?_, ?_, ?_⟩
  · have hhid' : p.judgeFalls.hidden a.toNat = false := (State.hidden_of_write hp hj hdesc hro _).trans
      ((State.hidden_congr (s := s) (fun _ _ => rfl) (fun _ _ => rfl) _).trans hhid)
    rw [State.reg_setWith sets hdesc hhid', hj.reg _ hdue, State.reg_plainWrite]
    rfl
  · rw [State.layered_congr hlayers (ht.cfg.trans hj.cfg) hmode]
    exact hsh
  · intro h0
    rw [State.shWaits, hlayers]
    exact hwaits h0
  · exact ((AccessOnly.answer s [] .okay).trans hp.accessOnly).trans (hj.accessOnly.trans ht.accessOnly)

/-- A write of a register software cannot write changes neither a register nor a layer. -/
theorem completes_registerWrite_readOnly {m : MasterIx} {a : Addr} {v sets : Word} (h : s.plainTarget m a.toNat v d) (hm : reaches m 4 = true)
    (hlen : d.wlen ≤ 1) (hro : d.readOnly = true) : Completes (.registerWrite m a 4 v sets) s fun t => AccessOnly [] s t ∧ t.layers = s.layers := by
  obtain ⟨-, -, -, hdesc, -⟩ := id h
  have hj := (s.answer []).judgeFalls_dueOnly
  simp only [RegDesc.readOnly, Bool.and_eq_true, beq_iff_eq] at hro
  obtain ⟨⟨hrw, hsh⟩, hw1c⟩ := hro
  have hplain : (s.answer []).plainWrite a.toNat d v = s.answer [] := by simp [State.plainWrite, hrw, hsh, hw1c]
  have hset : (s.answer []).judgeFalls.setWith a.toNat sets = (s.answer []).judgeFalls := by simp [State.setWith, hdesc, hw1c]
  refine ⟨_, exec_registerWrite_plain h hm, ?_⟩
  rw [State.commonWrite_narrow hdesc hlen, hplain, hset]
  exact ⟨(AccessOnly.answer s [] .okay).trans hj.accessOnly, hj.layers⟩

/-! ## SH fields at their boundary (00 R15) -/

theorem exec_shFieldTakesEffect_off {a : Addr} (h : s.shBoundary a.toNat = false) : exec (.shFieldTakesEffect a) s = .next s := by
  simp [exec, execShFieldTakesEffect, h]

/-- Where `l` replaces the bits `m` of `r`, those bits are `l`'s and the others `r`'s. -/
theorem merged_mask (r l m : Word) : ((r &&& ~~~m) ||| (l &&& m)) &&& m = l &&& m := by
  ext i hi
  cases h : m[i] <;> simp [h]

theorem merged_rest (r l m : Word) : ((r &&& ~~~m) ||| (l &&& m)) &&& ~~~m = r &&& ~~~m := by
  ext i hi
  cases h : m[i] <;> simp [h]

theorem State.shWaits_setShWaits_false (s : State) (a : Nat) : (s.setShWaits a false).shWaits a = false := by
  simp [State.shWaits, State.setShWaits]

theorem exec_shFieldTakesEffect_take {a : Addr} (hd : descAt a.toNat = some d) (hsh : d.sh ≠ 0) (hb : s.shBoundary a.toNat = true)
    (hw : s.shWaits a.toNat = true) (he : s.shEffect a.toNat = s.shTake a.toNat) : exec (.shFieldTakesEffect a) s
      = .next ((s.settle a.toNat (BitVec.ofNat 32 d.sh)).setShWaits a.toNat false) := by
  have hsound := descAt_sound hd
  simp only [RegDesc.sound, Bool.and_eq_true, decide_eq_true_eq] at hsound
  obtain ⟨⟨⟨-, hlt⟩, -⟩, -⟩ := hsound
  have hmask : shMask a.toNat = BitVec.ofNat 32 d.sh := by simp [shMask, hd]
  have hne : BitVec.ofNat 32 d.sh ≠ 0 := by rwa [ne_eq, ofNat_eq_zero hlt]
  simp only [exec, execShFieldTakesEffect, hmask, hne, hb, he, State.shTake, hw, Bool.not_true, Bool.false_eq_true, or_self, if_true, if_false]

theorem completes_shFieldTakesEffect {a : Addr} (hd : descAt a.toNat = some d) (hsh : d.sh ≠ 0) (hb : s.shBoundary a.toNat = true)
    (hw : s.shWaits a.toNat = true) (he : s.shEffect a.toNat = s.shTake a.toNat) : Completes (.shFieldTakesEffect a) s fun t =>
      t.reg a.toNat &&& BitVec.ofNat 32 d.sh = s.layered a.toNat &&& BitVec.ofNat 32 d.sh ∧
      t.reg a.toNat &&& ~~~(BitVec.ofNat 32 d.sh) = s.reg a.toNat &&& ~~~(BitVec.ofNat 32 d.sh) ∧
      t.shWaits a.toNat = false ∧ AccessOnly [a.toNat] s t := by
  have hreg : ((s.settle a.toNat (BitVec.ofNat 32 d.sh)).setShWaits a.toNat false).reg a.toNat
      = (s.reg a.toNat &&& ~~~(BitVec.ofNat 32 d.sh)) ||| (s.layered a.toNat &&& BitVec.ofNat 32 d.sh) := State.reg_setReg_self ..
  refine ⟨_, exec_shFieldTakesEffect_take hd hsh hb hw he, ?_, ?_, State.shWaits_setShWaits_false _ _, rfl, fun b hne _ => ?_⟩
  · rw [hreg, merged_mask]
  · rw [hreg, merged_rest]
  · exact State.reg_setReg_ne _ _ (by simpa using hne)

/-! ## A low word whose low bits are reserved -/

/-- The row of TLM_RING_LO (20 R521): bits [31:6] of the ring's base. -/
def tlmRingLo : RegDesc := ⟨"TLM_RING_LO", 0x8, 0, 1, 0, 1, 0xFFFFFFC0, 0, 0, 0, 0, 0, 2, 0⟩
/-- The row of TLM_RING_HI (20 R521). -/
def tlmRingHi : RegDesc := ⟨"TLM_RING_HI", 0xC, 0, 1, 0, 1, 0xFF, 0, 0, 0, 0, 0, 2, 1⟩

theorem plainTarget_tlmRingLo : State.reset.plainTarget 4 R.TLM_RING_LO 1 tlmRingLo := by
  refine ⟨by decide, by decide, rfl, by decide +kernel, rfl, by decide, by decide⟩

/-- A low word written waits with its writable bits alone. -/
theorem heldLow_registerWrite_low {a : Addr} {v : Word} (h : s.plainTarget 4 a.toNat v d) (hrw : d.rw ≠ 0) (hl : d.wlen = 2) (hp : d.wpos = 0)
    (ht : exec (.registerWrite 4 a 4 v 0) s = .next t) : t.heldLow a.toNat = some (v &&& BitVec.ofNat 32 d.rw) := by
  obtain ⟨-, -, -, hdesc, -⟩ := id h
  rw [exec_registerWrite_plain (m := 4) h rfl, State.setWith_zero, State.commonWrite_low hdesc hrw hl hp] at ht
  injection ht with ht
  rw [← ht, State.heldLow, (State.judgeFalls_dueOnly _).layers]
  simp [State.setHeldLow]

end Sys2Proof.Machine
end

section
open Sys2Proof Sys2Proof.Machine

/-- Settles O1: the register and its layers after the write by `completes_registerWrite_plain`, the RW bits by who decides them under overlays. -/
theorem registerWritesByAccessType : Obligations.RegisterWritesByAccessType := by
  unfold Obligations.RegisterWritesByAccessType
  intro s m a v sets d
  refine ⟨?_, exec_shFieldTakesEffect_off, completes_shFieldTakesEffect⟩
  intro h hm hlen rw w1c sh
  obtain ⟨-, -, -, hdesc, -⟩ := id h
  have hsound : d.sound = true := descAt_sound hdesc
  have hmasks : d.readOnly = true ↔ rw ||| w1c ||| sh = 0 := d.readOnly_iff_masks hsound
  have hdisj : rw &&& w1c = 0 := by
    simp only [RegDesc.sound, Bool.and_eq_true, beq_iff_eq] at hsound
    exact hsound.2
  refine ⟨fun hne => ?_, fun h0 => completes_registerWrite_readOnly h hm hlen (hmasks.2 h0)⟩
  obtain ⟨t, hexec, hreg, hsh, hwaits, hframe⟩ :=
    completes_registerWrite_plain h hm hlen (Bool.eq_false_iff.2 fun hro => hne (hmasks.1 hro)) (sets := sets)
  refine ⟨t, hexec, ⟨?_, ?_⟩, ?_, ?_, hsh, fun hsh0 => hwaits fun h0 => hsh0 (congrArg (BitVec.ofNat 32) h0), hframe⟩
  · rw [hreg, writtenBits_rw _ _ _ _ hdisj]
    exact s.layered_soften_free a.toNat rw v
  · rw [hreg, writtenBits_rw _ _ _ _ hdisj]
    exact s.layered_soften_owned a.toNat rw v
  · rw [hreg, writtenBits_w1c _ _ _ _ hdisj]
  · rw [hreg, writtenBits_rest]

/-- Refutes O2: of a low word the reserved bits are dropped, so the 1 written to TLM_RING_LO, whose field is [31:6], waits as 0. -/
theorem not_readsThatClearAndWideValues : ¬ Obligations.ReadsThatClearAndWideValues := by
  unfold Obligations.ReadsThatClearAndWideValues
  rintro ⟨-, hwide⟩
  obtain ⟨-, -, hlow, -⟩ := hwide State.reset (BitVec.ofNat 40 R.TLM_RING_LO) (BitVec.ofNat 40 R.TLM_RING_HI) tlmRingLo tlmRingHi 1 0
    (by decide) rfl rfl rfl rfl (by decide) (by decide)
  obtain ⟨t, hexec, hheld, -⟩ := hlow plainTarget_tlmRingLo (by decide)
  rw [heldLow_registerWrite_low plainTarget_tlmRingLo (by decide) rfl rfl hexec] at hheld
  exact absurd hheld (by decide)

end

section
/-!
Resets (21 R523 to R526; 15 R402): the balls a reset moves change the record of emissions alone, and every register but five is at its reset value.
-/
namespace Sys2Proof.Machine

/-- `u` is `t` with more emissions. -/
def EmitsOnly (t u : State) : Prop := ∃ es, u = { t with outbox := t.outbox ++ es }

theorem EmitsOnly.refl (t : State) : EmitsOnly t t := ⟨[], by simp⟩

theorem EmitsOnly.emit {t u : State} (h : EmitsOnly t u) (e : Emission) : EmitsOnly t (u.emit e) := by
  obtain ⟨es, rfl⟩ := h
  exact ⟨es ++ [e], by simp [State.emit]⟩

theorem EmitsOnly.ite {t u v : State} {c : Prop} [Decidable c] (hu : EmitsOnly t u) (hv : EmitsOnly t v) : EmitsOnly t (if c then u else v) := by
  split <;> assumption

theorem State.resetBalls_emitsOnly (s t : State) : EmitsOnly t (s.resetBalls t) := by
  have h0 := EmitsOnly.refl t
  have h1 := (h0.emit (.errN false)).ite (c := s.is R.FLT_STATUS_err_n = true) h0
  have h2 := (h1.emit (.irqPin 0 false)).ite (c := s.evt.irq0 = true) h1
  have h3 := (h2.emit (.irqPin 1 false)).ite (c := s.evt.irq1 = true) h2
  have h4 := h3.ite (c := s.fenced = true) (h3.emit (.fenceN true))
  have h5 := (h4.emit (.leaseOut false)).ite (c := s.fov.leaseOut = true) h4
  exact (h5.emit (.clkOk false)).ite (c := s.is R.CLK_STATUS_clk_ok = true) h5

/-- The state a reset leaves, before the balls move. -/
def State.resetCore (s : State) (strap : Word) (fuses : Fuses) (cause : Nat) : State :=
  let t : State := { State.reset with pending := s.pending, now := s.now, freeCount := s.freeCount, outbox := s.outbox, reply := s.reply }
  let t := ((t.setReg R.GLB_STRAP strap).setReg R.GLB_RESET_CAUSE (BitVec.ofNat 32 cause)).setReg R.NRX_ID (BitVec.ofNat 32 (getBits strap 2 3))
  let t := t.wr R.FOV_CTRL_side (getBits strap 2 1)
  (t.setGlb { t.glb with fuses := fuses }).wr R.GLB_BOOT_STATUS_state (bootState (getBits strap 0 2))

theorem State.resetWith_eq (s : State) (strap : Word) (fuses : Fuses) (cause : Nat) : ∃ es,
    s.resetWith strap fuses cause = { s.resetCore strap fuses cause with outbox := s.outbox ++ es } :=
  s.resetBalls_emitsOnly (s.resetCore strap fuses cause)

theorem bootState_lt (boot : Nat) : bootState boot < 2 ^ 4 := by unfold bootState; split <;> decide

section
variable (s : State) (strap : Word) (fuses : Fuses) (cause : Nat)

theorem State.reg_setGlb (g : Glb) (a : Nat) : (s.setGlb g).reg a = s.reg a := rfl

theorem State.reg_resetCore (a : Nat) : (s.resetCore strap fuses cause).reg a =
    if a = R.GLB_BOOT_STATUS then putBits (resetValue R.GLB_BOOT_STATUS) 0 4 (bootState (getBits strap 0 2))
    else if a = R.FOV_CTRL then putBits (resetValue R.FOV_CTRL) 0 1 (getBits strap 2 1)
    else if a = R.NRX_ID then BitVec.ofNat 32 (getBits strap 2 3)
    else if a = R.GLB_RESET_CAUSE then BitVec.ofNat 32 cause
    else if a = R.GLB_STRAP then strap else resetValue a := by
  have hnone (b : Nat) : ({ State.reset with pending := s.pending, now := s.now, freeCount := s.freeCount, outbox := s.outbox, reply := s.reply } :
      State).reg b = resetValue b := rfl
  have hboot : R.GLB_BOOT_STATUS ∉ [R.FOV_CTRL, R.NRX_ID, R.GLB_RESET_CAUSE, R.GLB_STRAP] := by decide
  have hfov : R.FOV_CTRL ∉ [R.NRX_ID, R.GLB_RESET_CAUSE, R.GLB_STRAP] := by decide
  simp only [List.mem_cons, List.not_mem_nil, or_false, not_or] at hboot hfov
  simp only [State.resetCore, State.reg_wr, State.reg_setGlb, State.reg_setReg, hnone, R.GLB_BOOT_STATUS_state, R.FOV_CTRL_side, hboot, hfov, if_false]
end

/-- What a reset with a cause leaves (R523, R524, R526): straps and fuses as given, side and NRX_ID from the straps, every other register at its reset value. -/
def State.ResetTo (s t : State) (cause : Nat) (strap : Word) (f : Fuses) : Prop :=
  t.reg R.GLB_RESET_CAUSE = BitVec.ofNat 32 cause ∧ t.reg R.GLB_STRAP = strap ∧ t.glb.fuses = f ∧ t.locks = [] ∧ t.cfg = State.reset.cfg ∧
    t.rd R.GLB_BOOT_STATUS_state = bootState (getBits strap 0 2) ∧ t.halted = false ∧
    t.rd ⟨R.NRX_ID, 0, 3⟩ = getBits strap 2 3 ∧ t.rd R.FOV_CTRL_side = getBits strap 2 1 ∧
    (∀ a, a ∉ [R.GLB_RESET_CAUSE, R.GLB_STRAP, R.GLB_BOOT_STATUS, R.NRX_ID, R.FOV_CTRL] → t.reg a = resetValue a) ∧
    t.pending = s.pending ∧ t.now = s.now ∧ s.outbox <+: t.outbox

theorem State.resetTo_resetWith (s : State) (strap : Word) (fuses : Fuses) (cause : Nat) :
    s.ResetTo (s.resetWith strap fuses cause) cause strap fuses := by
  obtain ⟨es, heq⟩ := s.resetWith_eq strap fuses cause
  have hreg (a : Nat) : (s.resetWith strap fuses cause).reg a = (s.resetCore strap fuses cause).reg a := by rw [heq]; rfl
  have hrest (a : Nat) (ha : a ∉ [R.GLB_RESET_CAUSE, R.GLB_STRAP, R.GLB_BOOT_STATUS, R.NRX_ID, R.FOV_CTRL]) :
      (s.resetWith strap fuses cause).reg a = resetValue a := by
    simp only [List.mem_cons, List.not_mem_nil, or_false, not_or] at ha
    obtain ⟨hc, hs, hb, hn, hf⟩ := ha
    rw [hreg, State.reg_resetCore, if_neg hb, if_neg hf, if_neg hn, if_neg hc, if_neg hs]
  have hboot := bootState_lt (getBits strap 0 2)
  refine ⟨?_, ?_, ?_, ?_, ?_, ?_, ?_, ?_, ?_, hrest, ?_, ?_, ?_⟩
  · rw [hreg, State.reg_resetCore]; rfl
  · rw [hreg, State.reg_resetCore]; rfl
  · rw [heq]; rfl
  · rw [heq]; rfl
  · rw [heq]; rfl
  · rw [State.rd, hreg, State.reg_resetCore]
    change getBits (putBits _ 0 4 _) 0 4 = _
    rw [getBits_putBits_same _ _ _ _ (by decide), Nat.mod_eq_of_lt hboot]
  · rw [State.halted, State.is, State.rd, hrest _ (by decide)]
    decide +kernel
  · rw [State.rd, hreg, State.reg_resetCore]
    change getBits (BitVec.ofNat 32 (getBits strap 2 3)) 0 3 = _
    have := getBits_lt strap 2 3
    simp only [getBits, BitVec.toNat_ofNat, Nat.shiftRight_zero]
    omega
  · rw [State.rd, hreg, State.reg_resetCore]
    change getBits (putBits _ 0 1 _) 0 1 = _
    rw [getBits_putBits_same _ _ _ _ (by decide), Nat.mod_eq_of_lt (getBits_lt strap 2 1)]
  · rw [heq]; rfl
  · rw [heq]; rfl
  · rw [heq]; exact ⟨es, rfl⟩

theorem State.writeRst_key (s : State) : s.writeRst 0x5A5A0001 = s.deviceReset 4 := if_pos rfl

theorem State.writeRst_other {s : State} {v : Word} (h : v ≠ 0x5A5A0001) : s.writeRst v = s := if_neg h

end Sys2Proof.Machine
end

section
open Sys2Proof Sys2Proof.Machine

/-- Settles O17: every reset is `resetWith`, of which `State.resetTo_resetWith` says what it leaves. -/
theorem resets : Obligations.Resets := by
  unfold Obligations.Resets
  intro s boot devid fuses v after
  have hafter (cause : Nat) (strap : Word) (f : Fuses) : after (s.resetWith strap f cause) cause strap f := s.resetTo_resetWith strap f cause
  refine ⟨⟨_, rfl, hafter 1 _ fuses⟩, ⟨_, rfl, hafter 2 _ _⟩, ⟨_, rfl, ?_, rfl⟩, fun hv => ?_⟩
  · rw [s.writeRst_key]
    exact hafter 4 _ _
  · exact congrArg (fun t => Host.Outcome.next (State.answer t [])) (State.writeRst_other hv)

end

section
/-!
The basin's operations: what the gain words read after a write or a copy, what each change of the gains, the takes and the
ramp queue leaves alone (06 R171 to R182).
-/
namespace Sys2Proof.Machine

/-! ## Sparse tables -/

theorem Tab.get_congr_default {α : Type} {d d' : Nat → α} {n : Nat} (t : List (Nat × α)) (h : d n = d' n) :
    Tab.get d t n = Tab.get d' t n := by
  induction t with
  | nil => exact h
  | cons e t ih => simp only [Tab.get, ih]

/-- A table restricted to the keys that satisfy `p` reads as before there, and as unlisted elsewhere. -/
theorem Tab.get_filter_key {α : Type} (d : Nat → α) (p : Nat → Bool) (t : List (Nat × α)) (n : Nat) :
    Tab.get d (t.filter fun e => p e.1) n = if p n then Tab.get d t n else d n := by
  induction t with
  | nil => simp
  | cons e t ih =>
    obtain ⟨k, v⟩ := e
    by_cases hk : k = n
    · subst hk
      cases hp : p k
      · simpa [hp] using ih
      · simp [Tab.get, hp]
    · cases hp : p k <;> simp [Tab.get, hp, hk, ih]

/-- The entries of `kept`, written over the table `t`, prevail over it. -/
theorem Tab.get_foldr_set {α : Type} [DecidableEq α] (d : Nat → α) (kept t : List (Nat × α)) (n : Nat) :
    Tab.get d (kept.foldr (fun e t => Tab.set d t e.1 e.2) t) n = Tab.get (Tab.get d t) kept n := by
  induction kept with
  | nil => rfl
  | cons e kept ih => simp only [List.foldr_cons, Tab.get_set, Tab.get, ih, eq_comm]

/-! ## Gain words -/

theorem Gains.words_setBank (g : Gains) {b c : Nat} (ws : List (Nat × Sample)) (hb : b < 2) (hc : c < 2) :
    (g.setBank b ws).words c = if c = b then ws else g.words c := by
  obtain rfl | rfl : b = 0 ∨ b = 1 := by omega
  all_goals obtain rfl | rfl : c = 0 ∨ c = 1 := by omega
  all_goals rfl

theorem Gains.bank_setBank (g : Gains) (b : Nat) (ws : List (Nat × Sample)) : (g.setBank b ws).bank = g.bank := by
  unfold Gains.setBank; split <;> rfl

/-- A word reads as written at its node, and as before at every other node of its bank. -/
theorem Gains.word_setWord (g : Gains) (b node n : Nat) (v : Sample) :
    (g.setWord b node v).word b n = if n = node then v else g.word b n := by
  by_cases hb : b = 0 <;> simp [Gains.setWord, Gains.word, Gains.words, hb, Tab.get_set]

@[simp] theorem Gains.fade_setWord (g : Gains) (b node : Nat) (v : Sample) : (g.setWord b node v).fade = g.fade := by
  unfold Gains.setWord; split <;> rfl

/-! ## The state under the basin's operations -/

variable {s t : State}

theorem SameMemory.of_eq (hs : t.ssm = s.ssm) (hd : t.dram = s.dram) : SameMemory s t := fun o => by
  simp [State.ssmByte, State.dramByte, hs, hd]

theorem State.mtxDomain_congr (h : t.reg R.MTX_INFO = s.reg R.MTX_INFO) : t.mtxDomain = s.mtxDomain := by
  simp only [State.mtxDomain, State.rd, R.MTX_INFO_domain, h]

theorem State.mtxSample_congr (h : t.reg R.MTX_INFO = s.reg R.MTX_INFO) (hd : t.doms = s.doms) : t.mtxSample = s.mtxSample := by
  simp only [State.mtxSample, State.dom, hd, State.mtxDomain_congr h]

theorem State.mtxB_congr (h : t.reg R.MTX_INFO = s.reg R.MTX_INFO) (hd : t.doms = s.doms) : t.mtxB = s.mtxB := by
  simp only [State.mtxB, State.dom, hd, State.mtxDomain_congr h]

variable (s) (g : Gains) (b : Basin)

@[simp] theorem State.setBasin_reg (a : Nat) : (s.setBasin b).reg a = s.reg a := rfl
@[simp] theorem State.setGains_basin : (s.setGains g).basin = { s.basin with now := g } := rfl
@[simp] theorem State.setGains_ssm : (s.setGains g).ssm = s.ssm := rfl
@[simp] theorem State.setGains_dram : (s.setGains g).dram = s.dram := rfl

@[simp] theorem State.freeRamps_ssm : s.freeRamps.ssm = s.ssm := rfl
@[simp] theorem State.freeRamps_dram : s.freeRamps.dram = s.dram := rfl
@[simp] theorem State.dropTake_ssm : s.dropTake.ssm = s.ssm := rfl
@[simp] theorem State.dropTake_dram : s.dropTake.dram = s.dram := rfl

/-- A change of the gains shows in MTX_STATUS alone. -/
theorem State.reg_setGains_ne {a : Nat} (h : a ≠ R.MTX_STATUS) : (s.setGains g).reg a = s.reg a := by
  simp only [State.setGains]
  rw [State.reg_wr_ne _ _ h, State.reg_wr_ne _ _ h, State.reg_wr_ne _ _ h, State.setBasin_reg]

theorem State.reg_dropTake_ne {a : Nat} (h : a ≠ R.MTX_STATUS) : s.dropTake.reg a = s.reg a := by
  rw [State.dropTake, State.reg_wr_ne _ _ h, State.setBasin_reg]

@[simp] theorem State.mtxSample_setGains : (s.setGains g).mtxSample = s.mtxSample :=
  State.mtxSample_congr (s.reg_setGains_ne g (by decide)) rfl

@[simp] theorem State.mtxSample_dropTake : s.dropTake.mtxSample = s.mtxSample :=
  State.mtxSample_congr (s.reg_dropTake_ne (by decide)) rfl

/-! ## Bank windows (06 R171 to R173) -/

theorem exec_bankWindowAccess_misaligned (m : MasterIx) (o : BitVec 23) (v : Word) (h : o.toNat % 4 ≠ 0) :
    exec (.bankWindowAccess m o 4 (some v) .clean false) s = .next (s.defaultTarget m (bankWindow + o.toNat) 2 true causeSize) := by
  simp [exec, execBankWindowAccess, h]

theorem exec_bankWindowAccess_read (m : MasterIx) (o : BitVec 23) (h : o.toNat % 4 = 0) :
    exec (.bankWindowAccess m o 4 none .clean false) s = .next (s.answer [s.bankRead o.toNat]) := by
  simp [exec, execBankWindowAccess, h, State.bankEccEvent]

theorem exec_bankWindowAccess_write (m : MasterIx) (o : BitVec 23) (v : Word) (h : o.toNat % 4 = 0) :
    exec (.bankWindowAccess m o 4 (some v) .clean false) s = .next (s.bankWrite m o.toNat v) := by
  simp [exec, execBankWindowAccess, h]

theorem State.writableBank_iff (c : Nat) : s.writableBank c = true ↔ c ≠ s.basin.now.bank ∧ s.basin.now.fade = none := by
  simp [State.writableBank]

theorem State.bankWrite_refused {m o : Nat} {v : Word} (h : s.writableBank (o / 0x400000) = false) :
    s.bankWrite m o v = s.defaultTarget m (bankWindow + o) 2 true causeRefused := by
  simp [State.bankWrite, h]

theorem State.bankWrite_staging {m o : Nat} {v : Word} (h : s.writableBank (o / 0x400000) = true) (hs : s.basin.staging = true) :
    s.bankWrite m o v = (s.raise R.MTX_INT_STATUS_bank_lost).answer [] := by
  simp [State.bankWrite, h, hs]

theorem State.bankWrite_inactive {m o : Nat} {v : Word} (h : s.writableBank (o / 0x400000) = true) (hs : s.basin.staging = false)
    (hn : s.inShape (o % 0x400000 / 4) = true) :
    s.bankWrite m o v = (s.putGain (o / 0x400000) (o % 0x400000 / 4) (v.setWidth 24)).answer [] := by
  simp [State.bankWrite, h, hs, hn]

/-- A gain written is noted against a running copy; beside the basin nothing changes. -/
theorem State.putGain_basin (c node : Nat) (v : Sample) : ∃ touched,
    s.putGain c node v = s.setBasin { s.basin with now := s.basin.now.setWord c node v, touched := touched } := by
  unfold State.putGain
  dsimp only
  split
  · exact ⟨node :: s.basin.touched, rfl⟩
  · exact ⟨s.basin.touched, rfl⟩

/-! ## Bank copies (06 R173) -/

/-- The inactive bank at the end of a copy: the active bank's words, but for the nodes software wrote meanwhile. -/
def Gains.copied (g : Gains) (touched : List Nat) : List (Nat × Sample) :=
  ((g.words (1 - g.bank)).filter fun e => touched.contains e.1).foldr (fun e t => Tab.set (fun _ => 0) t e.1 e.2)
    ((g.words g.bank).filter fun e => !touched.contains e.1)

theorem Gains.get_copied (touched : List Nat) (n : Nat) :
    Tab.get (fun _ => 0) (g.copied touched) n = g.word (if touched.contains n then 1 - g.bank else g.bank) n := by
  have hd : Tab.get (fun _ => 0) ((g.words g.bank).filter fun e => !touched.contains e.1) n
      = if !touched.contains n then g.word g.bank n else 0 :=
    Tab.get_filter_key (fun _ => 0) (fun k => !touched.contains k) _ n
  rw [Gains.copied, Tab.get_foldr_set, Tab.get_filter_key (p := fun k => touched.contains k)]
  split <;> rename_i h
  · rw [h] at hd
    exact Tab.get_congr_default _ hd
  · rw [Bool.not_eq_true] at h
    rw [hd, h]
    rfl

/-- What BANK_COPY_END leaves in the basin. -/
theorem exec_bankCopyEnd (h : s.copyRuns = true) : ∃ dead,
    exec .bankCopyEnd s = .next (((s.setBasin { s.basin with touched := [] }).setGains
      { s.basin.now.setBank (1 - s.basin.now.bank) (s.basin.now.copied s.basin.touched) with dead := dead }).wr R.MTX_STATUS_copy_busy 0) := by
  let g := s.basin.now
  refine ⟨(g.setBank (1 - g.bank) (g.copied s.basin.touched)).dead
    ++ g.dead.filter fun e => decide (e.1 = 1 - g.bank) && s.basin.touched.contains e.2, ?_⟩
  simp only [exec, execBankCopyEnd, h, Bool.not_true, Bool.false_eq_true, if_false]
  rfl

theorem State.copyRuns_of (hc : s.is R.MTX_STATUS_copy_busy = true) (hf : s.basin.now.fade = none) (hs : s.basin.staging = false) :
    s.copyRuns = true := by simp [State.copyRuns, hc, hf, hs]

theorem completes_bankCopyEnd (hc : s.is R.MTX_STATUS_copy_busy = true) (hf : s.basin.now.fade = none) (hs : s.basin.staging = false)
    (hb : s.basin.now.bank < 2) : Completes .bankCopyEnd s fun t =>
      t.is R.MTX_STATUS_copy_busy = false ∧ t.basin.now.bank = s.basin.now.bank ∧ SameMemory s t ∧
      ∀ n, t.basin.now.word s.basin.now.bank n = s.basin.now.word s.basin.now.bank n ∧
        t.basin.now.word (1 - s.basin.now.bank) n
          = s.basin.now.word (if s.basin.touched.contains n then 1 - s.basin.now.bank else s.basin.now.bank) n := by
  obtain ⟨dead, hd⟩ := exec_bankCopyEnd s (s.copyRuns_of hc hf hs)
  refine ⟨_, hd, ?_, Gains.bank_setBank .., SameMemory.of_eq rfl rfl, fun n => ⟨?_, ?_⟩⟩
  · simp only [State.is, State.rd_wr_same _ R.MTX_STATUS_copy_busy 0 (by decide)]
    rfl
  · change Tab.get _ (Gains.words (Gains.setBank _ _ _) _) n = _
    rw [Gains.words_setBank _ _ (by omega) hb, if_neg (by omega)]
    rfl
  · change Tab.get _ (Gains.words (Gains.setBank _ _ _) _) n = _
    rw [Gains.words_setBank _ _ (by omega) (by omega), if_pos rfl, Gains.get_copied]

/-! ## Scene takes and crossfades (06 R174 to R176) -/

/-- A 64-bit value reads back from the two registers it was written to. -/
theorem State.wide_setWide {lo hi v : Nat} (h : lo ≠ hi) (hv : v < 2 ^ 64) : (s.setWide lo hi v).wide lo hi = v := by
  have h1 : v % 2 ^ 32 + v / 2 ^ 32 % 2 ^ 32 * 2 ^ 32 = v := by omega
  simpa [State.wide, State.setWide, State.reg_setReg, h] using h1

theorem State.reg_hw_ne {f : FieldAt} {a : Nat} (v : Nat) (h : a ≠ f.addr) : (s.hw f v).reg a = s.reg a := State.reg_wr_ne s v h

@[simp] theorem State.setWide_ssm (lo hi v : Nat) : (s.setWide lo hi v).ssm = s.ssm := rfl
@[simp] theorem State.setWide_dram (lo hi v : Nat) : (s.setWide lo hi v).dram = s.dram := rfl

/-- The boundary a take requested with `at_en` = `en` waits for. -/
def State.takeAt (s : State) (en : Bool) : Option Nat :=
  if en then some (roundUp (s.wide R.MTX_TAKE_AT_LO R.MTX_TAKE_AT_HI) s.mtxB) else none

theorem State.requestTake_of_none (h : s.basin.take = none) : s.requestTake = (s.setBasin
    { s.basin with take := some (s.takeAt (s.is R.MTX_TAKE_at_en)), takeSince := s.now }).raise R.MTX_STATUS_take_pending := by
  simp [State.requestTake, State.takeAt, h, State.raise]

theorem State.takeAt_hw (en : Bool) (v : Nat) : (s.hw R.MTX_TAKE_at_en v).takeAt en = s.takeAt en := by
  have hw : (s.hw R.MTX_TAKE_at_en v).wide R.MTX_TAKE_AT_LO R.MTX_TAKE_AT_HI = s.wide R.MTX_TAKE_AT_LO R.MTX_TAKE_AT_HI := by
    simp only [State.wide, s.reg_hw_ne (f := R.MTX_TAKE_at_en) v (by decide : R.MTX_TAKE_AT_LO ≠ _),
      s.reg_hw_ne (f := R.MTX_TAKE_at_en) v (by decide : R.MTX_TAKE_AT_HI ≠ _)]
  rw [State.takeAt, State.takeAt, hw, State.mtxB_congr (s.reg_hw_ne v (by decide)) rfl]

theorem completes_sceneTakeRequest (en : Bool) (h : s.basin.take = none) : Completes (.sceneTakeRequest en) s fun t =>
    t.basin.take = some (s.takeAt en) ∧ t.is R.MTX_STATUS_take_pending = true ∧ t.basin.now = s.basin.now ∧ SameMemory s t := by
  have hen : (s.hw R.MTX_TAKE_at_en (b2n en)).is R.MTX_TAKE_at_en = en := by
    change ((s.wr R.MTX_TAKE_at_en (b2n en)).rd R.MTX_TAKE_at_en == 1) = en
    rw [State.rd_wr_same _ _ _ (by decide)]
    cases en <;> rfl
  have ht := (s.hw R.MTX_TAKE_at_en (b2n en)).requestTake_of_none h
  rw [hen, State.takeAt_hw] at ht
  exact ⟨_, congrArg Host.Outcome.next ht, rfl, State.is_raise _ _ (by decide) (by decide), rfl, SameMemory.of_eq rfl rfl⟩

theorem exec_sceneTake {at_ : Option Nat} (ht : s.basin.take = some at_) (hb : s.atBoundary s.mtxDomain = true) (hf : s.takeFree = true)
    (ha : ∀ n, at_ = some n → n = s.mtxSample ∧ s.basin.takeSince + 250 ≤ s.now) :
    exec .sceneTake s = .next (s.dropTake.sceneTake (s.atLeastMin (s.rd ⟨R.MTX_XFADE, 0, 16⟩))) := by
  have hall : at_.all (fun t => decide (t = s.mtxSample) && s.takeDue) = true := by
    cases at_ with
    | none => rfl
    | some n => simpa [State.takeDue] using ha n rfl
  simp [exec, execSceneTake, ht, hb, hf, hall]

/-- A scene take turns the banks, keeps the slots of the ramps that run with their values, and begins its crossfade. -/
theorem State.sceneTake_eq (n : Nat) : ∃ ramps : List RampSlot, (∀ r ∈ ramps, r.held = true) ∧
    s.sceneTake n = ((s.freeRamps.setGains { s.basin.now with bank := 1 - s.basin.now.bank, ramps := ramps, fade := some ⟨s.mtxSample, n, []⟩ }).setWide
      R.MTX_TAKE_LAST_LO R.MTX_TAKE_LAST_HI s.mtxSample).raise R.MTX_INT_STATUS_take_done := by
  have hn : s.freeRamps.mtxSample = s.mtxSample := s.mtxSample_setGains _
  refine ⟨(s.basin.now.ramps.filter fun r => !s.rampOver r).map fun r => { r with held := true, gs := s.freeRamps.gainBefore r.node }, ?_, ?_⟩
  · intro r hr
    obtain ⟨q, -, rfl⟩ := List.mem_map.1 hr
    rfl
  · simp only [State.sceneTake, hn]
    rfl

theorem completes_sceneTake {at_ : Option Nat} (ht : s.basin.take = some at_) (hb : s.atBoundary s.mtxDomain = true) (hf : s.takeFree = true)
    (ha : ∀ n, at_ = some n → n = s.mtxSample ∧ s.basin.takeSince + 250 ≤ s.now) : Completes .sceneTake s fun t =>
      t.basin.now.bank = 1 - s.basin.now.bank ∧ t.basin.take = none ∧ t.is R.MTX_INT_STATUS_take_done = true ∧
      t.basin.now.fade = some ⟨s.mtxSample, max (s.rd ⟨R.MTX_XFADE, 0, 16⟩) (s.rd R.MTX_CTRL_min_len), []⟩ ∧
      t.wide R.MTX_TAKE_LAST_LO R.MTX_TAKE_LAST_HI = (s.dom s.mtxDomain).sample.toNat ∧ (∀ r ∈ t.basin.now.ramps, r.held = true) ∧
      (∀ c n, t.basin.now.word c n = s.basin.now.word c n) ∧ SameMemory s t := by
  obtain ⟨ramps, hheld, heq⟩ := s.dropTake.sceneTake_eq (s.atLeastMin (s.rd ⟨R.MTX_XFADE, 0, 16⟩))
  rw [State.mtxSample_dropTake] at heq
  refine ⟨_, exec_sceneTake s ht hb hf ha, ?_⟩
  rw [heq]
  refine ⟨rfl, ?_, State.is_raise _ _ (by decide) (by decide), ?_, ?_, hheld, ?_, ?_⟩
  · rfl
  · rfl
  · have hlt : s.mtxSample < 2 ^ 64 := (s.dom s.mtxDomain).sample.isLt
    simp only [State.wide, State.reg_raise_ne _ (by decide : R.MTX_TAKE_LAST_LO ≠ R.MTX_INT_STATUS_take_done.addr),
      State.reg_raise_ne _ (by decide : R.MTX_TAKE_LAST_HI ≠ R.MTX_INT_STATUS_take_done.addr)]
    exact State.wide_setWide _ (by decide) hlt
  · exact fun _ _ => rfl
  · exact SameMemory.of_eq (by simp) (by simp)

theorem exec_sceneTakeLate {n : Nat} (ht : s.basin.take = some (some n)) (h : n < s.mtxSample ∨ n = s.mtxSample ∧ s.atBoundary s.mtxDomain = true ∧
      (s.is R.MTX_STATUS_copy_busy = true ∨ s.basin.staging = true ∨ s.now < s.basin.takeSince + 250)) :
    exec .sceneTakeLate s = .next (s.dropTake.raise R.MTX_INT_STATUS_late) := by
  simp only [exec, execSceneTakeLate, ht]
  rw [if_pos]
  rcases h with h | ⟨rfl, hb, hc⟩
  · exact .inl h
  · refine .inr ⟨rfl, hb, ?_⟩
    rcases hc with hc | hc | hc
    · simp [hc]
    · simp [hc]
    · exact .inr (by simpa [State.takeDue] using hc)

theorem exec_sceneTakeLate_early {n : Nat} (ht : s.basin.take = some (some n)) (h : s.mtxSample < n) : exec .sceneTakeLate s = .next s := by
  simp only [exec, execSceneTakeLate, ht]
  rw [if_neg (by omega)]

theorem completes_sceneTakeLate {n : Nat} (ht : s.basin.take = some (some n)) (h : n < s.mtxSample ∨ n = s.mtxSample ∧
      s.atBoundary s.mtxDomain = true ∧ (s.is R.MTX_STATUS_copy_busy = true ∨ s.basin.staging = true ∨ s.now < s.basin.takeSince + 250)) :
    Completes .sceneTakeLate s fun t => t.basin.take = none ∧ t.is R.MTX_INT_STATUS_late = true ∧ t.basin.now = s.basin.now ∧ SameMemory s t ∧
      ∀ a, a ∉ [R.MTX_STATUS, R.MTX_INT_STATUS] → t.reg a = s.reg a := by
  refine ⟨_, exec_sceneTakeLate s ht h, rfl, State.is_raise _ _ (by decide) (by decide), rfl, SameMemory.of_eq rfl rfl, fun a ha => ?_⟩
  obtain ⟨hs, hi⟩ : a ≠ R.MTX_STATUS ∧ a ≠ R.MTX_INT_STATUS := by simpa using ha
  rw [State.reg_raise_ne _ hi, State.reg_dropTake_ne _ hs]

theorem exec_crossfadeEnd (h : s.fadeOver = true) : exec .crossfadeEnd s = .next ((s.setGains
    { s.basin.now with fade := none, ramps := s.basin.now.ramps.filter fun r => !r.held }).raise R.MTX_INT_STATUS_xfade_done) := by
  simp [exec, execCrossfadeEnd, h]

theorem completes_crossfadeEnd {f : SceneFade} (hf : s.basin.now.fade = some f) (hb : s.atBoundary s.mtxDomain = true)
    (h1 : f.start < s.mtxSample) (h2 : f.start + f.len ≤ s.mtxSample) : Completes .crossfadeEnd s fun t =>
      t.basin.now.fade = none ∧ t.basin.now.bank = s.basin.now.bank ∧ t.is R.MTX_INT_STATUS_xfade_done = true ∧
      (∀ r, r ∈ t.basin.now.ramps ↔ r ∈ s.basin.now.ramps ∧ r.held = false) ∧ SameMemory s t := by
  have hover : s.fadeOver = true := by simp [State.fadeOver, hf, hb, h1, h2]
  refine ⟨_, exec_crossfadeEnd s hover, rfl, rfl, State.is_raise _ _ (by decide) (by decide), fun r => ?_, SameMemory.of_eq rfl rfl⟩
  change r ∈ s.basin.now.ramps.filter _ ↔ _
  simp

end Sys2Proof.Machine
end

section
open Sys2Proof Sys2Proof.Machine

/-- Settles O31: each command by the equation of its meaning, the copied bank by `Gains.get_copied`. -/
theorem banksAndScenes : Obligations.BanksAndScenes := by
  unfold Obligations.BanksAndScenes
  intro s m o v b node g
  refine ⟨exec_bankWindowAccess_misaligned s m o v, fun h4 hn => ⟨?_, fun hb => ?_, fun hb hf hs => ?_, fun hb hf hs => ?_⟩, fun hc => ?_,
    completes_bankCopyEnd s, fun ht => ?_, fun ht => ?_, fun at_ ht hb hf ha _ => completes_sceneTake s ht hb hf ha,
    fun n ht => completes_sceneTakeLate s ht, fun n ht => exec_sceneTakeLate_early s ht, fun f => completes_crossfadeEnd s⟩
  · rw [exec_bankWindowAccess_read s m o h4, State.bankRead, if_pos hn]
  · rw [exec_bankWindowAccess_write s m o v h4, s.bankWrite_refused]
    rw [Bool.eq_false_iff, ne_eq, s.writableBank_iff]
    exact fun h => hb.elim h.1 fun hf => hf h.2
  · rw [exec_bankWindowAccess_write s m o v h4, s.bankWrite_staging ((s.writableBank_iff b).2 ⟨hb, hf⟩) hs]
    rfl
  · obtain ⟨touched, hput⟩ := s.putGain_basin b node (v.setWidth 24)
    refine ⟨_, exec_bankWindowAccess_write s m o v h4, ?_⟩
    rw [s.bankWrite_inactive ((s.writableBank_iff b).2 ⟨hb, hf⟩) hs hn, hput]
    exact ⟨rfl, rfl, SameMemory.of_eq rfl rfl⟩
  · simp [exec, execBankCopyRequest, State.requestCopy, hc]
  · exact completes_sceneTakeRequest s false ht
  · obtain ⟨t, ht, htake, -, hnow, hmem⟩ := completes_sceneTakeRequest s true ht
    exact ⟨t, ht, htake, hnow, hmem⟩

end

section
/-!
Node ramps (06 R178 to R182): the queue after a push, the slot and the bank word a lone command starts with, the gain along the ramp.
-/
namespace Sys2Proof.Machine

variable (s : State)

/-- The node that MTX_RQ_NODE names (06 R178). -/
def State.rqNode (s : State) : Nat := s.rd ⟨R.MTX_RQ_NODE, 16, 10⟩ * 1024 + s.rd ⟨R.MTX_RQ_NODE, 0, 10⟩

/-- The command a push of `len` and `gang` queues (06 R178). -/
def State.rqCommand (s : State) (len : Nat) (gang : Bool) : RampCmd :=
  ⟨s.rqNode, BitVec.ofNat 24 (s.rd ⟨R.MTX_RQ_GAIN, 0, 24⟩), s.atLeastMin len, gang, s.now⟩

@[simp] theorem State.rqStatus_ssm : s.rqStatus.ssm = s.ssm := rfl
@[simp] theorem State.rqStatus_dram : s.rqStatus.dram = s.dram := rfl

theorem State.reg_rqStatus_ne {a : Nat} (h : a ≠ R.MTX_RQ_STATUS) : s.rqStatus.reg a = s.reg a := by
  rw [State.rqStatus, State.reg_wr_ne _ _ h, State.reg_wr_ne _ _ h]

/-- MTX_RQ_STATUS shows the length of a queue of at most 1,024 commands. -/
theorem State.rd_rqStatus_queued (h : s.basin.queue.length ≤ 1024) : s.rqStatus.rd R.MTX_RQ_STATUS_queued = s.basin.queue.length := by
  rw [State.rqStatus, State.rd_wr_apart _ _ (by decide), State.rd_wr_same _ _ _ (by decide)]
  exact Nat.mod_eq_of_lt (Nat.lt_of_le_of_lt h (by decide))

theorem State.pushRamp_outside {len : Nat} {gang : Bool} (h : s.inShape s.rqNode = false) :
    s.pushRamp len gang = s.raise R.MTX_INT_STATUS_rq_bad := by
  rw [State.rqNode] at h
  simp [State.pushRamp, h]

theorem State.pushRamp_queued {len : Nat} {gang : Bool} (h : s.inShape s.rqNode = true) (hq : s.basin.queue.length < 1024) :
    s.pushRamp len gang = (s.setBasin { s.basin with queue := s.basin.queue ++ [s.rqCommand len gang], gang := gang }).rqStatus := by
  rw [State.rqNode] at h
  simp [State.pushRamp, State.rqCommand, State.rqNode, h, Nat.not_le.2 hq]

theorem State.pushRamp_full {len : Nat} {gang : Bool} (h : s.inShape s.rqNode = true) (hq : 1024 ≤ s.basin.queue.length)
    (hg : s.basin.gang = false) : s.pushRamp len gang = ((s.setBasin { s.basin with gang := false }).raise R.MTX_INT_STATUS_rq_full).rqStatus := by
  rw [State.rqNode] at h
  simp [State.pushRamp, h, hq, hg]

theorem completes_rampPush {len : BitVec 16} {gang : Bool} (h : s.inShape s.rqNode = true) (hq : s.basin.queue.length < 1024) :
    Completes (.rampPush len gang) s fun t => t.basin.queue = s.basin.queue ++ [s.rqCommand len.toNat gang] ∧
      t.basin.gang = gang ∧ t.basin.now = s.basin.now ∧ SameMemory s t ∧ t.rd R.MTX_RQ_STATUS_queued = s.basin.queue.length + 1 ∧
      ∀ a, a ≠ R.MTX_RQ_STATUS → t.reg a = s.reg a := by
  refine ⟨_, congrArg Host.Outcome.next (s.pushRamp_queued h hq), rfl, rfl, rfl, SameMemory.of_eq rfl rfl, ?_, fun a ha => ?_⟩
  · rw [State.rd_rqStatus_queued]
    · simp
    · simpa using hq
  · rw [State.reg_rqStatus_ne _ ha, State.setBasin_reg]

theorem completes_rampPush_full {len : BitVec 16} {gang : Bool} (h : s.inShape s.rqNode = true) (hq : 1024 ≤ s.basin.queue.length)
    (hg : s.basin.gang = false) : Completes (.rampPush len gang) s fun t =>
      t.basin.queue = s.basin.queue ∧ t.is R.MTX_INT_STATUS_rq_full = true ∧ t.basin.now = s.basin.now ∧ SameMemory s t := by
  refine ⟨_, congrArg Host.Outcome.next (s.pushRamp_full h hq hg), rfl, ?_, rfl, SameMemory.of_eq rfl rfl⟩
  rw [State.is, State.rd, State.reg_rqStatus_ne _ (by decide)]
  exact State.is_raise _ R.MTX_INT_STATUS_rq_full (by decide) (by decide)

/-! ## The ramp (06 R180) -/

theorem rampValue_at_end (a b : Int) (n : Nat) : rampValue a b n n = b := if_pos (Nat.le_refl n)

/-- The last sample of a ramp holds its target: the weight there is 2^16 of 2^16. -/
theorem rampValue_last (a b : Int) {n : Nat} (h : 0 < n) : rampValue a b (n - 1) n = b := by
  have hw : 2 ^ 16 * (n - 1 + 1) / n = 2 ^ 16 := by rw [Nat.sub_add_cancel h, Nat.mul_div_cancel _ h]
  rw [rampValue, if_neg (by omega), hw]
  omega

theorem headGang_single {c : RampCmd} (h : c.gang = false) : headGang [c] = some ([c], []) := by simp [headGang, h]

/-- The slot of the ramp that command `c` starts at the boundary that stands. -/
def State.rampSlot (s : State) (c : RampCmd) : RampSlot := ⟨c.node, s.mtxSample, s.gainBefore c.node, c.gain.toInt, c.len, false⟩

/-- The gains once a lone command has started in a free slot. -/
def State.withRamp (s : State) (c : RampCmd) : Gains :=
  { s.basin.now.setWord s.basin.now.bank c.node c.gain with ramps := [s.rampSlot c] }

theorem State.startRamp_lone {c : RampCmd} (hr : s.basin.now.ramps = []) (hf : s.basin.now.fade = none) :
    s.startRamp c = s.setGains (s.withRamp c) := by
  simp [State.startRamp, State.withRamp, State.rampSlot, hr, hf]

theorem State.startRamps_lone {c : RampCmd} (hq : s.basin.queue = [c]) (hg : c.gang = false) (hr : s.basin.now.ramps = [])
    (hf : s.basin.now.fade = none) (ht : c.pushed + 250 ≤ s.now) :
    s.startRamps false 1 = (s.setBasin { s.basin with queue := [] }).setGains (s.withRamp c) := by
  have hin : s.inTime [c] = true := by simpa [State.inTime] using ht
  have hfit : s.gangFits [c] = true := by simp [State.gangFits, hr]
  simp only [State.startRamps, hq, headGang_single hg, hin, hfit, Bool.not_true, Bool.and_false, Bool.false_eq_true, if_true, if_false,
    List.foldl_cons, List.foldl_nil]
  exact State.startRamp_lone _ hr hf

theorem State.freeRamps_none (h : s.basin.now.ramps = []) : s.freeRamps = s.setGains s.basin.now := by
  rw [State.freeRamps, h, List.filter_nil, ← h]

theorem exec_rampStart_lone {c : RampCmd} (hb : s.atBoundary s.mtxDomain = true) (hq : s.basin.queue = [c]) (hg : c.gang = false)
    (hr : s.basin.now.ramps = []) (hf : s.basin.now.fade = none) (ht : c.pushed + 250 ≤ s.now) : exec (.rampStart false []) s
      = .next (((s.setGains s.basin.now).setBasin { s.basin with queue := [] }).setGains (s.withRamp c)).rqStatus := by
  have hreach : s.copyReaches [] = s := by simp [State.copyReaches]
  have hstart := (s.setGains s.basin.now).startRamps_lone hq hg hr hf ht
  have hramp : (s.setGains s.basin.now).withRamp c = s.withRamp c := by
    simp [State.withRamp, State.rampSlot, State.gainBefore]
  rw [hramp] at hstart
  simp only [exec, execRampStart, hb, if_true, hreach, s.freeRamps_none hr]
  rw [State.setGains_basin, hq, List.length_singleton, hstart]
  rfl

/-- Along its ramp a node's gain follows R180. -/
theorem State.at_withRamp (c : RampCmd) (j : Nat) :
    (s.withRamp c).at (s.mtxSample + j) c.node = rampValue (s.gainBefore c.node) c.gain.toInt j c.len := by
  simp [Gains.at, State.withRamp, State.rampSlot]

theorem completes_rampStart_lone {c : RampCmd} (hb : s.atBoundary s.mtxDomain = true) (hq : s.basin.queue = [c]) (hg : c.gang = false)
    (hr : s.basin.now.ramps = []) (hf : s.basin.now.fade = none) (ht : c.pushed + 250 ≤ s.now) : Completes (.rampStart false []) s fun t =>
      t.basin.now = s.withRamp c ∧ t.basin.queue = [] ∧ SameMemory s t :=
  ⟨_, exec_rampStart_lone s hb hq hg hr hf ht, rfl, rfl, SameMemory.of_eq (by simp) (by simp)⟩

theorem completes_rampEnd (hb : s.atBoundary s.mtxDomain = true) : Completes .rampEnd s fun t =>
    (∀ r, r ∈ t.basin.now.ramps ↔ r ∈ s.basin.now.ramps ∧ s.rampOver r = false) ∧ t.basin.now.bank = s.basin.now.bank ∧
      t.basin.now.words0 = s.basin.now.words0 ∧ t.basin.now.words1 = s.basin.now.words1 ∧ t.basin.now.fade = s.basin.now.fade ∧ SameMemory s t := by
  refine ⟨s.freeRamps, by simp [exec, execRampEnd, hb], fun r => ?_, rfl, rfl, rfl, rfl, SameMemory.of_eq rfl rfl⟩
  simp [State.freeRamps]

end Sys2Proof.Machine
end

section
open Sys2Proof Sys2Proof.Machine

/-- Settles O32: a push and a lone start by the equations of `pushRamp` and `startRamps`, the ramp's gain by `State.at_withRamp`. -/
theorem nodeRamps : Obligations.NodeRamps := by
  unfold Obligations.NodeRamps
  intro s len gang node g
  refine ⟨fun h => congrArg Host.Outcome.next (s.pushRamp_outside h), completes_rampPush s, completes_rampPush_full s,
    fun c hb hq hg hr hf ht => ?_, fun a b n => ⟨rampValue_at_end a b n, rampValue_last a b⟩, completes_rampEnd s⟩
  obtain ⟨t, hexec, hnow, hqueue, hmem⟩ := completes_rampStart_lone s hb hq hg hr hf ht
  have hword (n : Nat) : t.basin.now.word g.bank n = if n = c.node then c.gain else g.word g.bank n := by
    rw [hnow]
    exact g.word_setWord g.bank c.node n c.gain
  refine ⟨t, hexec, ?_, hqueue, ?_, fun n hn => ?_, hmem, fun j => ?_⟩
  · rw [hnow]; rfl
  · rw [hword, if_pos rfl]
  · rw [hword, if_neg hn]
  · rw [hnow]; exact s.at_withRamp c j

end

section
/-!
The canonical form along a run (01 R22, R23): every command keeps it, whatever it does, and so does a cycle that passes.
-/
namespace Sys2Proof.Machine

/-- Every command keeps the queue, the cycle count, what has left the device and the canonical form. -/
theorem exec_kept (c : Instr) {s₀ s : State} (hK : Kept s₀ s) : KeptRes s₀ (exec c s) := by
  cases c with
  | registerWrite => exact execRegisterWrite_kept (hK := hK) ..
  | rcRead => exact execRcRead_kept (hK := hK) ..
  | wideLowWordRead => exact execWideLowWordRead_kept (hK := hK) ..
  | wideHighWordWrite => exact execWideHighWordWrite_kept (hK := hK) ..
  | shFieldTakesEffect => exact execShFieldTakesEffect_kept (hK := hK) ..
  | tickBoundary => exact execTickBoundary_kept (hK := hK) ..
  | sampleEdge => exact execSampleEdge_kept (hK := hK) ..
  | bargeCommit => exact execBargeCommit_kept (hK := hK) ..
  | creditReturn => exact execCreditReturn_kept (hK := hK) ..
  | lockCrossingComplete => exact execLockCrossingComplete_kept (hK := hK) ..
  | captureCommit => exact execCaptureCommit_kept (hK := hK) ..
  | consumerDeadline => exact execConsumerDeadline_kept (hK := hK) ..
  | lateBargeDiscard => exact execLateBargeDiscard_kept (hK := hK) ..
  | egressDeadline => exact execEgressDeadline_kept (hK := hK) ..
  | domainRealignment => exact execDomainRealignment_kept (hK := hK) ..
  | bootAttempt => exact execBootAttempt_kept (hK := hK) ..
  | bootSourceFailure => exact execBootSourceFailure_kept (hK := hK) ..
  | dpllBootWaitExpiry => exact execDpllBootWaitExpiry_kept (hK := hK) ..
  | firstAudio => exact execFirstAudio_kept (hK := hK) ..
  | hostPushChunk => exact execHostPushChunk_kept (hK := hK) ..
  | pushChunkTaken => exact execPushChunkTaken_kept (hK := hK) ..
  | neraxBootFrame => exact execNeraxBootFrame_kept (hK := hK) ..
  | powerOnReset => exact execPowerOnReset_kept (hK := hK) ..
  | deviceReset => exact execDeviceReset_kept (hK := hK) ..
  | glbRstWrite => exact execGlbRstWrite_kept (hK := hK) ..
  | modeRequestWrite => exact execModeRequestWrite_kept (hK := hK) ..
  | stagingComplete => exact execStagingComplete_kept (hK := hK) ..
  | overlayTake => exact execOverlayTake_kept (hK := hK) ..
  | takeRefusedLate => exact execTakeRefusedLate_kept (hK := hK) ..
  | residentModeChange => exact execResidentModeChange_kept (hK := hK) ..
  | takeAbort => exact execTakeAbort_kept (hK := hK) ..
  | hardwareModeRequest => exact execHardwareModeRequest_kept (hK := hK) ..
  | engineTickStrobe => exact execEngineTickStrobe_kept (hK := hK) ..
  | engineGateOpen => exact execEngineGateOpen_kept (hK := hK) ..
  | engineStartDeadline => exact execEngineStartDeadline_kept (hK := hK) ..
  | engineOutletCommit => exact execEngineOutletCommit_kept (hK := hK) ..
  | engineWindowAccess => exact execEngineWindowAccess_kept (hK := hK) ..
  | programPageSwapRequest => exact execProgramPageSwapRequest_kept (hK := hK) ..
  | paramPageSwapRequest => exact execParamPageSwapRequest_kept (hK := hK) ..
  | paramCopyEnd => exact execParamCopyEnd_kept (hK := hK) ..
  | engineRelockEnd => exact execEngineRelockEnd_kept (hK := hK) ..
  | nop => exact execNop_kept (hK := hK) ..
  | mpy => exact execMpy_kept (hK := hK) ..
  | mac => exact execMac_kept (hK := hK) ..
  | macn => exact execMacn_kept (hK := hK) ..
  | clr => exact execClr_kept (hK := hK) ..
  | lda => exact execLda_kept (hK := hK) ..
  | add => exact execAdd_kept (hK := hK) ..
  | sub => exact execSub_kept (hK := hK) ..
  | adda => exact execAdda_kept (hK := hK) ..
  | suba => exact execSuba_kept (hK := hK) ..
  | neg => exact execNeg_kept (hK := hK) ..
  | abs => exact execAbs_kept (hK := hK) ..
  | cmp => exact execCmp_kept (hK := hK) ..
  | max => exact execMax_kept (hK := hK) ..
  | min => exact execMin_kept (hK := hK) ..
  | lim => exact execLim_kept (hK := hK) ..
  | exp => exact execExp_kept (hK := hK) ..
  | norm => exact execNorm_kept (hK := hK) ..
  | ash => exact execAsh_kept (hK := hK) ..
  | ld => exact execLd_kept (hK := hK) ..
  | st => exact execSt_kept (hK := hK) ..
  | stSat => exact execStSat_kept (hK := hK) ..
  | take => exact execTake_kept (hK := hK) ..
  | send => exact execSend_kept (hK := hK) ..
  | sendSat => exact execSendSat_kept (hK := hK) ..
  | storeBufferWrite => exact execStoreBufferWrite_kept (hK := hK) ..
  | ldi => exact execLdi_kept (hK := hK) ..
  | mov => exact execMov_kept (hK := hK) ..
  | ashi => exact execAshi_kept (hK := hK) ..
  | lea => exact execLea_kept (hK := hK) ..
  | bra => exact execBra_kept (hK := hK) ..
  | doLoop => exact execDoLoop_kept (hK := hK) ..
  | dor => exact execDor_kept (hK := hK) ..
  | brk => exact execBrk_kept (hK := hK) ..
  | park => exact execPark_kept (hK := hK) ..
  | substitutionStart => exact execSubstitutionStart_kept (hK := hK) ..
  | substitutionRelockEnd => exact execSubstitutionRelockEnd_kept (hK := hK) ..
  | substitutionCopyEnd => exact execSubstitutionCopyEnd_kept (hK := hK) ..
  | substitutionReady => exact execSubstitutionReady_kept (hK := hK) ..
  | substitutionCut => exact execSubstitutionCut_kept (hK := hK) ..
  | substitutionCutCommand => exact execSubstitutionCutCommand_kept (hK := hK) ..
  | substitutionRelease => exact execSubstitutionRelease_kept (hK := hK) ..
  | substitutionCutBack => exact execSubstitutionCutBack_kept (hK := hK) ..
  | substitutionAbort => exact execSubstitutionAbort_kept (hK := hK) ..
  | substitutionAutoFail => exact execSubstitutionAutoFail_kept (hK := hK) ..
  | basinGroupProcess => exact execBasinGroupProcess_kept (hK := hK) ..
  | basinPhaseEnd => exact execBasinPhaseEnd_kept (hK := hK) ..
  | basinDeadline => exact execBasinDeadline_kept (hK := hK) ..
  | bankWindowAccess => exact execBankWindowAccess_kept (hK := hK) ..
  | bankCopyRequest => exact execBankCopyRequest_kept (hK := hK) ..
  | bankCopyEnd => exact execBankCopyEnd_kept (hK := hK) ..
  | sceneTakeRequest => exact execSceneTakeRequest_kept (hK := hK) ..
  | sceneTake => exact execSceneTake_kept (hK := hK) ..
  | sceneTakeLate => exact execSceneTakeLate_kept (hK := hK) ..
  | crossfadeEnd => exact execCrossfadeEnd_kept (hK := hK) ..
  | rampPush => exact execRampPush_kept (hK := hK) ..
  | rampStart => exact execRampStart_kept (hK := hK) ..
  | rampEnd => exact execRampEnd_kept (hK := hK) ..
  | routeWrite => exact execRouteWrite_kept (hK := hK) ..
  | routeTakesEffect => exact execRouteTakesEffect_kept (hK := hK) ..
  | routerHoldRelease => exact execRouterHoldRelease_kept (hK := hK) ..
  | routerHop => exact execRouterHop_kept (hK := hK) ..
  | routerDeadline => exact execRouterDeadline_kept (hK := hK) ..
  | fmpGainWrite => exact execFmpGainWrite_kept (hK := hK) ..
  | fmpCtrlChange => exact execFmpCtrlChange_kept (hK := hK) ..
  | bridgeInputTake => exact execBridgeInputTake_kept (hK := hK) ..
  | bridgeOutputCommit => exact execBridgeOutputCommit_kept (hK := hK) ..
  | bridgeUnlock => exact execBridgeUnlock_kept (hK := hK) ..
  | bridgeResync => exact execBridgeResync_kept (hK := hK) ..
  | bridgeLock => exact execBridgeLock_kept (hK := hK) ..
  | bridgeSyncRequest => exact execBridgeSyncRequest_kept (hK := hK) ..
  | bridgeSyncLost => exact execBridgeSyncLost_kept (hK := hK) ..
  | cicOutput => exact execCicOutput_kept (hK := hK) ..
  | firSwapRequest => exact execFirSwapRequest_kept (hK := hK) ..
  | firSwap => exact execFirSwap_kept (hK := hK) ..
  | firSwapCrossfadeEnd => exact execFirSwapCrossfadeEnd_kept (hK := hK) ..
  | movingAverageHop => exact execMovingAverageHop_kept (hK := hK) ..
  | maCfgTakesEffect => exact execMaCfgTakesEffect_kept (hK := hK) ..
  | flcEccUncorrectable => exact execFlcEccUncorrectable_kept (hK := hK) ..
  | inmaskChange => exact execInmaskChange_kept (hK := hK) ..
  | outmaskChange => exact execOutmaskChange_kept (hK := hK) ..
  | formatApply => exact execFormatApply_kept (hK := hK) ..
  | formatChangeFadeOut => exact execFormatChangeFadeOut_kept (hK := hK) ..
  | formatChangeTake => exact execFormatChangeTake_kept (hK := hK) ..
  | formatChangeDone => exact execFormatChangeDone_kept (hK := hK) ..
  | slaveFrameStart => exact execSlaveFrameStart_kept (hK := hK) ..
  | bclkStopped => exact execBclkStopped_kept (hK := hK) ..
  | fsLost => exact execFsLost_kept (hK := hK) ..
  | slaveLock => exact execSlaveLock_kept (hK := hK) ..
  | rateGateEnd => exact execRateGateEnd_kept (hK := hK) ..
  | ampLoopPeriod => exact execAmpLoopPeriod_kept (hK := hK) ..
  | ampGroupEnable => exact execAmpGroupEnable_kept (hK := hK) ..
  | ampChannelEnable => exact execAmpChannelEnable_kept (hK := hK) ..
  | ampBootEnd => exact execAmpBootEnd_kept (hK := hK) ..
  | ampCmRampEnd => exact execAmpCmRampEnd_kept (hK := hK) ..
  | ampFadeOutEnd => exact execAmpFadeOutEnd_kept (hK := hK) ..
  | ampOffReached => exact execAmpOffReached_kept (hK := hK) ..
  | cycleByCycleLimit => exact execCycleByCycleLimit_kept (hK := hK) ..
  | shortCircuitTrip => exact execShortCircuitTrip_kept (hK := hK) ..
  | driverFault => exact execDriverFault_kept (hK := hK) ..
  | senseLost => exact execSenseLost_kept (hK := hK) ..
  | ampRetry => exact execAmpRetry_kept (hK := hK) ..
  | ampRetryReset => exact execAmpRetryReset_kept (hK := hK) ..
  | ampClear => exact execAmpClear_kept (hK := hK) ..
  | drvFltReleaseHoldEnd => exact execDrvFltReleaseHoldEnd_kept (hK := hK) ..
  | railQualified => exact execRailQualified_kept (hK := hK) ..
  | ampSafeRelease => exact execAmpSafeRelease_kept (hK := hK) ..
  | calibrationWindow => exact execCalibrationWindow_kept (hK := hK) ..
  | candidateWindowClose => exact execCandidateWindowClose_kept (hK := hK) ..
  | candidateStrayEdge => exact execCandidateStrayEdge_kept (hK := hK) ..
  | candidateFirstEdge => exact execCandidateFirstEdge_kept (hK := hK) ..
  | candidateQualified => exact execCandidateQualified_kept (hK := hK) ..
  | frequencyInterval => exact execFrequencyInterval_kept (hK := hK) ..
  | driftFit => exact execDriftFit_kept (hK := hK) ..
  | crossCheckOutvoted => exact execCrossCheckOutvoted_kept (hK := hK) ..
  | timeCandidateSourceLoss => exact execTimeCandidateSourceLoss_kept (hK := hK) ..
  | waitToRestoreExpiry => exact execWaitToRestoreExpiry_kept (hK := hK) ..
  | forceWrite => exact execForceWrite_kept (hK := hK) ..
  | switchCaptureStart => exact execSwitchCaptureStart_kept (hK := hK) ..
  | switchCaptureEnd => exact execSwitchCaptureEnd_kept (hK := hK) ..
  | passThroughRampEnd => exact execPassThroughRampEnd_kept (hK := hK) ..
  | dpllStageAdvance => exact execDpllStageAdvance_kept (hK := hK) ..
  | imagoFallback => exact execImagoFallback_kept (hK := hK) ..
  | cocoonEntry => exact execCocoonEntry_kept (hK := hK) ..
  | cocoonExit => exact execCocoonExit_kept (hK := hK) ..
  | clkHoldWrite => exact execClkHoldWrite_kept (hK := hK) ..
  | alignLost => exact execAlignLost_kept (hK := hK) ..
  | realignWrite => exact execRealignWrite_kept (hK := hK) ..
  | pulseOutputRealign => exact execPulseOutputRealign_kept (hK := hK) ..
  | pulseOutputPulse => exact execPulseOutputPulse_kept (hK := hK) ..
  | oscInStopped => exact execOscInStopped_kept (hK := hK) ..
  | oscWarn => exact execOscWarn_kept (hK := hK) ..
  | timeSnap => exact execTimeSnap_kept (hK := hK) ..
  | timeBaseLoad => exact execTimeBaseLoad_kept (hK := hK) ..
  | timeBaseStep => exact execTimeBaseStep_kept (hK := hK) ..
  | timeBaseAdjWrite => exact execTimeBaseAdjWrite_kept (hK := hK) ..
  | servoMeasurement => exact execServoMeasurement_kept (hK := hK) ..
  | measurementTimeout => exact execMeasurementTimeout_kept (hK := hK) ..
  | derivedSourceChange => exact execDerivedSourceChange_kept (hK := hK) ..
  | derivedWtrExpiry => exact execDerivedWtrExpiry_kept (hK := hK) ..
  | derivedProfileEnd => exact execDerivedProfileEnd_kept (hK := hK) ..
  | txTimestampEntry => exact execTxTimestampEntry_kept (hK := hK) ..
  | txqPop => exact execTxqPop_kept (hK := hK) ..
  | linkUp => exact execLinkUp_kept (hK := hK) ..
  | linkDown => exact execLinkDown_kept (hK := hK) ..
  | frameReceive => exact execFrameReceive_kept (hK := hK) ..
  | softwareFrameTransmit => exact execSoftwareFrameTransmit_kept (hK := hK) ..
  | softwareFrameAged => exact execSoftwareFrameAged_kept (hK := hK) ..
  | streamPacketLaunch => exact execStreamPacketLaunch_kept (hK := hK) ..
  | txStreamEnable => exact execTxStreamEnable_kept (hK := hK) ..
  | rxStreamEnable => exact execRxStreamEnable_kept (hK := hK) ..
  | lpiEntry => exact execLpiEntry_kept (hK := hK) ..
  | lpiWake => exact execLpiWake_kept (hK := hK) ..
  | laneSynthLock => exact execLaneSynthLock_kept (hK := hK) ..
  | laneSignalDetect => exact execLaneSignalDetect_kept (hK := hK) ..
  | laneCdrLock => exact execLaneCdrLock_kept (hK := hK) ..
  | laneCtleConverged => exact execLaneCtleConverged_kept (hK := hK) ..
  | laneDfeConverged => exact execLaneDfeConverged_kept (hK := hK) ..
  | laneAdaptTimeout => exact execLaneAdaptTimeout_kept (hK := hK) ..
  | laneSignalLoss => exact execLaneSignalLoss_kept (hK := hK) ..
  | readaptWrite => exact execReadaptWrite_kept (hK := hK) ..
  | readaptEnd => exact execReadaptEnd_kept (hK := hK) ..
  | elasticBufferUnit => exact execElasticBufferUnit_kept (hK := hK) ..
  | elasticBufferRecentre => exact execElasticBufferRecentre_kept (hK := hK) ..
  | embeddedClockFallback => exact execEmbeddedClockFallback_kept (hK := hK) ..
  | embeddedClockReturn => exact execEmbeddedClockReturn_kept (hK := hK) ..
  | refclkLost => exact execRefclkLost_kept (hK := hK) ..
  | refclkReturn => exact execRefclkReturn_kept (hK := hK) ..
  | loopModeWrite => exact execLoopModeWrite_kept (hK := hK) ..
  | prbsCtrlWrite => exact execPrbsCtrlWrite_kept (hK := hK) ..
  | prbsCheckerLock => exact execPrbsCheckerLock_kept (hK := hK) ..
  | injectOnce => exact execInjectOnce_kept (hK := hK) ..
  | scanStart => exact execScanStart_kept (hK := hK) ..
  | scanDone => exact execScanDone_kept (hK := hK) ..
  | rxIdleTimeout => exact execRxIdleTimeout_kept (hK := hK) ..
  | neraxFrameReceive => exact execNeraxFrameReceive_kept (hK := hK) ..
  | neraxAckSend => exact execNeraxAckSend_kept (hK := hK) ..
  | neraxNakReplay => exact execNeraxNakReplay_kept (hK := hK) ..
  | neraxAckTimeout => exact execNeraxAckTimeout_kept (hK := hK) ..
  | neraxBargeAssembled => exact execNeraxBargeAssembled_kept (hK := hK) ..
  | neraxMessageSend => exact execNeraxMessageSend_kept (hK := hK) ..
  | neraxAligned => exact execNeraxAligned_kept (hK := hK) ..
  | identityFrame => exact execIdentityFrame_kept (hK := hK) ..
  | neraxLinkUp => exact execNeraxLinkUp_kept (hK := hK) ..
  | neraxStateTimeout => exact execNeraxStateTimeout_kept (hK := hK) ..
  | neraxLinkDown => exact execNeraxLinkDown_kept (hK := hK) ..
  | timingFrameSend => exact execTimingFrameSend_kept (hK := hK) ..
  | timingFrameReceive => exact execTimingFrameReceive_kept (hK := hK) ..
  | leadTimingLoss => exact execLeadTimingLoss_kept (hK := hK) ..
  | leaseRenewal => exact execLeaseRenewal_kept (hK := hK) ..
  | leaseRenewalReceived => exact execLeaseRenewalReceived_kept (hK := hK) ..
  | leaseEchoReceived => exact execLeaseEchoReceived_kept (hK := hK) ..
  | foreignLeaseEdge => exact execForeignLeaseEdge_kept (hK := hK) ..
  | departPattern => exact execDepartPattern_kept (hK := hK) ..
  | departReceived => exact execDepartReceived_kept (hK := hK) ..
  | peerAliveLow => exact execPeerAliveLow_kept (hK := hK) ..
  | peerAliveHigh => exact execPeerAliveHigh_kept (hK := hK) ..
  | keeperFenceTimeout => exact execKeeperFenceTimeout_kept (hK := hK) ..
  | leaseTake => exact execLeaseTake_kept (hK := hK) ..
  | secondKeeperFound => exact execSecondKeeperFound_kept (hK := hK) ..
  | claim => exact execClaim_kept (hK := hK) ..
  | yieldRequest => exact execYieldRequest_kept (hK := hK) ..
  | yieldHandover => exact execYieldHandover_kept (hK := hK) ..
  | yieldCancel => exact execYieldCancel_kept (hK := hK) ..
  | mirrorRecord => exact execMirrorRecord_kept (hK := hK) ..
  | mirrorCrcCompare => exact execMirrorCrcCompare_kept (hK := hK) ..
  | resyncStart => exact execResyncStart_kept (hK := hK) ..
  | resyncCopyEnd => exact execResyncCopyEnd_kept (hK := hK) ..
  | resyncCompareEnd => exact execResyncCompareEnd_kept (hK := hK) ..
  | resyncAbort => exact execResyncAbort_kept (hK := hK) ..
  | dramRequest => exact execDramRequest_kept (hK := hK) ..
  | dramRefresh => exact execDramRefresh_kept (hK := hK) ..
  | mr4Read => exact execMr4Read_kept (hK := hK) ..
  | rtPanicEntry => exact execRtPanicEntry_kept (hK := hK) ..
  | rtBargeLost => exact execRtBargeLost_kept (hK := hK) ..
  | driftMeasurement => exact execDriftMeasurement_kept (hK := hK) ..
  | retrainStart => exact execRetrainStart_kept (hK := hK) ..
  | retrainSlice => exact execRetrainSlice_kept (hK := hK) ..
  | retrainDone => exact execRetrainDone_kept (hK := hK) ..
  | burstGrant => exact execBurstGrant_kept (hK := hK) ..
  | defaultTargetBurst => exact execDefaultTargetBurst_kept (hK := hK) ..
  | masterReset => exact execMasterReset_kept (hK := hK) ..
  | swIdxWrite => exact execSwIdxWrite_kept (hK := hK) ..
  | descriptorFetch => exact execDescriptorFetch_kept (hK := hK) ..
  | descriptorComplete => exact execDescriptorComplete_kept (hK := hK) ..
  | peripheralRequest => exact execPeripheralRequest_kept (hK := hK) ..
  | requestWithdrawn => exact execRequestWithdrawn_kept (hK := hK) ..
  | frameRxDma => exact execFrameRxDma_kept (hK := hK) ..
  | tickModeTransfer => exact execTickModeTransfer_kept (hK := hK) ..
  | dmaDisable => exact execDmaDisable_kept (hK := hK) ..
  | dmaEnable => exact execDmaEnable_kept (hK := hK) ..
  | dmaAbrupt => exact execDmaAbrupt_kept (hK := hK) ..
  | pcieInboundRequest => exact execPcieInboundRequest_kept (hK := hK) ..
  | pcieOutboundRequest => exact execPcieOutboundRequest_kept (hK := hK) ..
  | pcieReset => exact execPcieReset_kept (hK := hK) ..
  | msixMessageSend => exact execMsixMessageSend_kept (hK := hK) ..
  | evtEoi => exact execEvtEoi_kept (hK := hK) ..
  | evtSw => exact execEvtSw_kept (hK := hK) ..
  | evtRouteWrite => exact execEvtRouteWrite_kept (hK := hK) ..
  | sampleCompare => exact execSampleCompare_kept (hK := hK) ..
  | eventLevelRise => exact execEventLevelRise_kept (hK := hK) ..
  | irqRelease => exact execIrqRelease_kept (hK := hK) ..
  | gpioSample => exact execGpioSample_kept (hK := hK) ..
  | gpioChatterEnd => exact execGpioChatterEnd_kept (hK := hK) ..
  | gpioStuck => exact execGpioStuck_kept (hK := hK) ..
  | spiWrite => exact execSpiWrite_kept (hK := hK) ..
  | spiRead => exact execSpiRead_kept (hK := hK) ..
  | spiStatus => exact execSpiStatus_kept (hK := hK) ..
  | i2cCommand => exact execI2cCommand_kept (hK := hK) ..
  | i2cCommandEnd => exact execI2cCommandEnd_kept (hK := hK) ..
  | mdioCommand => exact execMdioCommand_kept (hK := hK) ..
  | faultReport => exact execFaultReport_kept (hK := hK) ..
  | fltAck => exact execFltAck_kept (hK := hK) ..
  | fltClear => exact execFltClear_kept (hK := hK) ..
  | persistentCauseEnd => exact execPersistentCauseEnd_kept (hK := hK) ..
  | errNPulseEnd => exact execErrNPulseEnd_kept (hK := hK) ..
  | errHoldWrite => exact execErrHoldWrite_kept (hK := hK) ..
  | watchdogExpiry => exact execWatchdogExpiry_kept (hK := hK) ..
  | watchdogKick => exact execWatchdogKick_kept (hK := hK) ..
  | injectionArm => exact execInjectionArm_kept (hK := hK) ..
  | injectionFire => exact execInjectionFire_kept (hK := hK) ..
  | injectedReport => exact execInjectedReport_kept (hK := hK) ..
  | faultLogPop => exact execFaultLogPop_kept (hK := hK) ..
  | weirRequest => exact execWeirRequest_kept (hK := hK) ..
  | weirGrant => exact execWeirGrant_kept (hK := hK) ..
  | weirReturn => exact execWeirReturn_kept (hK := hK) ..
  | weirWithdraw => exact execWeirWithdraw_kept (hK := hK) ..
  | requestStarving => exact execRequestStarving_kept (hK := hK) ..
  | budgetWrite => exact execBudgetWrite_kept (hK := hK) ..
  | coreCurrentMeasurement => exact execCoreCurrentMeasurement_kept (hK := hK) ..
  | dredgerBurst => exact execDredgerBurst_kept (hK := hK) ..
  | dredgerBurstDue => exact execDredgerBurstDue_kept (hK := hK) ..
  | dredgerPassEnd => exact execDredgerPassEnd_kept (hK := hK) ..
  | dredgerEnableWrite => exact execDredgerEnableWrite_kept (hK := hK) ..
  | monitorSample => exact execMonitorSample_kept (hK := hK) ..
  | telemetryRecord => exact execTelemetryRecord_kept (hK := hK) ..
  | imageReplacementStart => exact execImageReplacementStart_kept (hK := hK) ..
  | imageReplacementTake => exact execImageReplacementTake_kept (hK := hK) ..
  | imageReplacementAbort => exact execImageReplacementAbort_kept (hK := hK) ..
  | replacementBuildIdMismatch => exact execReplacementBuildIdMismatch_kept (hK := hK) ..
  | receiveIdleSignalReturn => exact execReceiveIdleSignalReturn_kept (hK := hK) ..
  | pcieLinkUp => exact execPcieLinkUp_kept (hK := hK) ..
  | pcieConfigRequest => exact execPcieConfigRequest_kept (hK := hK) ..
  | outboundCompletion => exact execOutboundCompletion_kept (hK := hK) ..
  | outboundCompletionTimeout => exact execOutboundCompletionTimeout_kept (hK := hK) ..
  | jtagRegacc => exact execJtagRegacc_kept (hK := hK) ..
  | pathLost => exact execPathLost_kept (hK := hK) ..
  | armingTimeExpiry => exact execArmingTimeExpiry_kept (hK := hK) ..
/-- The cycle count and the queue have no part in the canonical form. -/
theorem State.canon_idleCycle {s : State} (h : s.canon) : s.idleCycle.canon :=
  (State.timeCycle_kept (Kept.refl { s with now := s.now + 1 })).canon h

theorem step_canon {s t : State} (h : s.canon) (hstep : step s = .next t) : t.canon := by
  unfold step at hstep
  split at hstep
  · cases hstep
    exact State.canon_idleCycle h
  · next c rest _ => exact ((exec_kept c (Kept.refl { s with pending := rest })).of t hstep).canon h

theorem State.canon_reset : State.reset.canon := ⟨rfl, rfl⟩

end Sys2Proof.Machine
end

section
open Sys2Proof Sys2Proof.Machine

/-- Settles O9: a command keeps the canonical form by `exec_kept`, an idle cycle by `State.canon_idleCycle`. -/
theorem stepKeepsCanonicalForm : Obligations.StepKeepsCanonicalForm := fun _ _ => step_canon

/-- Settles O10: the tables of the reset state are empty. -/
theorem resetIsCanonical : Obligations.ResetIsCanonical := ⟨State.canon_reset, rfl, rfl, rfl⟩

end

section
/-!
Locks (01 R22 to R26, R34): what a lock reads after it is written, a barge's commit and return, its crossing, and the barge given up for good.
-/
namespace Sys2Proof.Machine

variable {s : State} {l : Nat} {k : Lock}

@[simp] theorem State.lock_setLock_self (s : State) (l : Nat) (k : Lock) : (s.setLock l k).lock l = some k := by
  simp [State.lock, State.setLock]

theorem State.lock_setLock_ne (s : State) {l m : Nat} (k : Lock) (h : m ≠ l) : (s.setLock l k).lock m = s.lock m := by
  simp [State.lock, State.setLock, Tab.get_set_ne _ _ _ h]

/-- The second of two writes of a lock stands. -/
@[simp] theorem State.setLock_setLock (s : State) (l : Nat) (k k' : Lock) : (s.setLock l k).setLock l k' = s.setLock l k' := by
  simp [State.setLock, Tab.set_set]

@[simp] theorem tagDistance_self (t : Nat) : tagDistance t t = 0 := by unfold tagDistance; omega

/-! ## Credits (01 R23) -/

/-- The lock once it has committed `b`. -/
def Lock.committed (k : Lock) (b : Barge) : Lock := { k with credit := k.credit - 1, flight := k.flight ++ [b] }

/-- The lock once its oldest barge has been taken, `rest` being left. -/
def Lock.returned (k : Lock) (rest : List Barge) : Lock := { k with present := rest, credit := min k.spec.depth (k.credit + 1) }

theorem State.commit_of_credit (h : s.lock l = some k) (hc : 0 < k.credit) (b : Barge) : s.commit l b = s.setLock l (k.committed b) := by
  simp only [State.commit, h, if_neg (Nat.ne_of_gt hc)]
  rfl

theorem State.commit_without_credit (h : s.lock l = some k) (hc : k.credit = 0) (b : Barge) : s.commit l b = s := by
  simp only [State.commit, h, if_pos hc]

theorem State.consume_oldest {b : Barge} {rest : List Barge} (h : s.lock l = some k) (hp : k.present = b :: rest) :
    s.consume l b.tick = s.setLock l (k.returned rest) := by
  simp only [State.consume, h]
  rw [if_pos (by simp [hp])]
  simp [Lock.returned, hp]

theorem exec_bargeCommit (h : s.lock l = some k) (hc : 0 < k.credit) (tick : Nat) (words : List Sample) :
    exec (.bargeCommit l tick words) s = .next (s.setLock l (k.committed ⟨tick, words⟩)) :=
  congrArg Host.Outcome.next (State.commit_of_credit h hc _)

theorem exec_creditReturn {b : Barge} {rest : List Barge} (h : s.lock l = some k) (hp : k.present = b :: rest) :
    exec (.creditReturn l) s = .next (s.setLock l (k.returned rest)) := by
  rw [← State.consume_oldest h hp]
  simp only [exec, execCreditReturn, h, hp]

theorem exec_creditReturn_empty (h : s.lock l = some k) (hp : k.present = []) : exec (.creditReturn l) s = .next s := by
  simp only [exec, execCreditReturn, h, hp]

/-- A commit and a return below the depth, in either order, leave the credit as it was. -/
theorem credit_commit_return {c d : Instr} {tick : Nat} {words : List Sample} (h : s.lock l = some k) (hc : 0 < k.credit)
    (hd : k.credit < k.spec.depth) (hp : k.present ≠ [])
    (hcd : c = .bargeCommit l tick words ∧ d = .creditReturn l ∨ c = .creditReturn l ∧ d = .bargeCommit l tick words) :
    ∃ t u, exec c s = .next t ∧ exec d t = .next u ∧ (u.lock l).map (·.credit) = some k.credit := by
  obtain ⟨b, rest, hp⟩ := List.exists_cons_of_ne_nil hp
  rcases hcd with ⟨rfl, rfl⟩ | ⟨rfl, rfl⟩
  · refine ⟨_, _, exec_bargeCommit h hc tick words, exec_creditReturn (State.lock_setLock_self ..) hp, ?_⟩
    simp only [State.lock_setLock_self, Option.map_some, Lock.returned, Lock.committed]
    congr 1
    omega
  · have hcredit : 0 < (k.returned rest).credit := by simp only [Lock.returned]; omega
    refine ⟨_, _, exec_creditReturn h hp, exec_bargeCommit (State.lock_setLock_self ..) hcredit tick words, ?_⟩
    simp only [State.lock_setLock_self, Option.map_some, Lock.returned, Lock.committed]
    congr 1
    omega

/-! ## Crossings (01 R26, R34) -/

/-- The lock once the late barge of tick `t` at the head of its flight is discarded, `rest` being left. -/
def Lock.discarded (k : Lock) (t : Nat) (rest : List Barge) : Lock :=
  { k with flight := rest, credit := min k.spec.depth (k.credit + 1), missed := k.missed.filter fun m => tagDistance m t ≠ 0 }

/-- A consumer that does nothing at once with a barge that crosses. -/
def keepsBarges : Endpoint → Bool
  | .tdm _ | .amp _ | .txStream _ | .delayLine _ | .dma _ | .basin | .bridge _ => true
  | _ => false

theorem State.noteExact_of_not_exact (h : s.fov.exact.contains l = false) (b : Barge) : s.noteExact l b = s := by
  simp only [State.noteExact, h, Bool.not_false, if_true]

/-- The lock once `b`, the oldest barge of its flight, is present. -/
def Lock.crossed (k : Lock) (b : Barge) : Lock := { k with flight := k.flight.drop 1, present := k.present ++ [b] }

theorem State.arrives_quiet {b : Barge} (hx : s.fov.exact.contains l = false) (hk : keepsBarges k.spec.consumer = true) :
    s.arrives l k b = s.setLock l (k.crossed b) := by
  have hnote : (s.setLock l (k.crossed b)).noteExact l b = s.setLock l (k.crossed b) :=
    State.noteExact_of_not_exact (s := s.setLock l (k.crossed b)) hx b
  unfold Lock.crossed at hnote
  unfold State.arrives
  rw [hnote]
  dsimp only
  split
  case h_5 => rfl
  all_goals
    rename_i heq
    simp [heq, keepsBarges] at hk

theorem exec_lockCrossingComplete {b : Barge} {rest : List Barge} (hh : s.halted = false) (h : s.lock l = some k) (hf : k.flight = b :: rest)
    (hg : k.gaveUp b.tick = false) (hx : s.fov.exact.contains l = false) (hk : keepsBarges k.spec.consumer = true) :
    exec (.lockCrossingComplete l []) s = .next (s.setLock l { k with flight := rest, present := k.present ++ [b] }) := by
  have harr := State.arrives_quiet (b := b) hx hk
  rw [Lock.crossed, hf, List.drop_one, List.tail_cons] at harr
  simp [exec, execLockCrossingComplete, hh, h, hf, hg, harr]

theorem State.mirrored_setLock (s : State) (l : Nat) (k : Lock) : (s.setLock l k).mirrored = s.mirrored := rfl

theorem State.discardLate_eq {b : Barge} {rest : List Barge} (h : s.lock l = some k) (hf : k.flight = b :: rest) (hg : k.gaveUp b.tick = true)
    (hm : s.mirrored = false) : s.discardLate l = s.setLock l (k.discarded b.tick rest) := by
  simp only [State.discardLate, h, hf, hg, State.mirrored_setLock, hm, Bool.false_and, if_true]
  rfl

theorem exec_lockCrossingComplete_late {b : Barge} {rest : List Barge} (hh : s.halted = false) (h : s.lock l = some k) (hf : k.flight = b :: rest)
    (hg : k.gaveUp b.tick = true) : exec (.lockCrossingComplete l []) s = exec (.lateBargeDiscard l) s := by
  simp [exec, execLockCrossingComplete, execLateBargeDiscard, hh, h, hf, hg]

/-! ## Deadlines (01 R34; 02 R53, R55) -/

/-- The lock once its consumer has given up tick `t`. -/
def Lock.without (k : Lock) (t : Nat) : Lock := { k with missed := k.missed ++ [t] }

section
variable {a t : Nat} (hk : k.spec.consumer = .amp a) (h : s.lock l = some k) (he : s.emitTick k (s.tick k.spec.domain) = some t)
include hk h he

theorem State.egress_amp_absent (ht : s.awaits l t = none) (hg : k.gaveUp t = false) :
    s.egress l = (s.setLock l (k.without t)).overrun (.amp a) true := by
  simp only [State.egress, h, he, hk, ht, hg, State.absentAt]
  rfl

theorem State.egress_amp_present (ht : (s.awaits l t).isSome) : s.egress l = s := by
  obtain ⟨b, hb⟩ := Option.isSome_iff_exists.1 ht
  simp only [State.egress, h, he, hk, hb]
end

theorem exec_egressDeadline (hh : s.halted = false) (h : s.lock l = some k) (hs : s.started k.spec.domain = true)
    (hb : (s.dom k.spec.domain).b ≠ 0) : exec (.egressDeadline l) s = .next (s.egress l) := by
  simp [exec, execEgressDeadline, hh, h, hs, hb]

theorem exec_consumerDeadline_amp {a : Nat} (hk : k.spec.consumer = .amp a) (hh : s.halted = false) (h : s.lock l = some k)
    (hs : s.started k.spec.domain = true) (hb : (s.dom k.spec.domain).b ≠ 0) : exec (.consumerDeadline l) s = .next (s.egress l) := by
  simp [exec, execConsumerDeadline, hh, h, hs, hb, hk]

section
variable {g n : Nat} (hp : k.spec.producer = .tdm g) (h : s.lock l = some k) (ha : k.asm.length = s.bargeWords k) (hf : s.fovState = 0)
include hp h ha hf

/-- Outside a pair a TDM group's complete barge is committed with credit, and otherwise discarded. -/
theorem State.capture_tdm : s.capture l k n =
    if (s.setLock l { k with asm := [] }).hasCredit l then (s.setLock l { k with asm := [] }).commit l ⟨n, k.asm⟩
    else (s.setLock l { k with asm := [] }).overrun (.tdm g) false := by
  have hcap : s.captured k n = (some k.asm, s) := by simp only [State.captured, hp, ha, if_true]
  have hmirror : (s.setLock l { k with asm := [] }).fromMirror l = false := by
    change ((s.fovState == 1 || s.fovState == 2) && _) = false
    rw [hf]
    rfl
  have hbarge : (s.setLock l { k with asm := [] }).mirrorBarge l n k.asm = s.setLock l { k with asm := [] } := by
    have hf : (s.setLock l { k with asm := [] }).fovState = 0 := hf
    simp [State.mirrorBarge, hf]
  simp only [State.capture, hcap, h, hmirror, hbarge, hp]
  rfl

theorem State.capture_tdm_of_credit (hc : 0 < k.credit) :
    s.capture l k n = s.setLock l { k with asm := [], credit := k.credit - 1, flight := k.flight ++ [⟨n, k.asm⟩] } := by
  rw [State.capture_tdm hp h ha hf, if_pos (by simpa [State.hasCredit] using hc), State.commit_of_credit (State.lock_setLock_self ..) (k := { k with asm := [] }) hc,
    State.setLock_setLock]
  rfl

theorem State.capture_tdm_without_credit (hc : k.credit = 0) : s.capture l k n = (s.setLock l { k with asm := [] }).overrun (.tdm g) false := by
  rw [State.capture_tdm hp h ha hf, if_neg (by simp [State.hasCredit, hc])]
end

theorem exec_captureCommit (hh : s.halted = false) (h : s.lock l = some k) (hs : s.started k.spec.domain = true)
    (hb : (s.dom k.spec.domain).b ≠ 0) (ht : (s.dom k.spec.domain).first < s.tick k.spec.domain) :
    exec (.captureCommit l) s = .next (s.capture l k (s.tick k.spec.domain - 1)) := by
  simp [exec, execCaptureCommit, hh, h, hs, hb, ht]

end Sys2Proof.Machine
end

section
open Sys2Proof Sys2Proof.Machine

/-- Settles O11: a commit and a return by what each leaves of the lock, both together by `credit_commit_return`. -/
theorem bargesMoveByCredit : Obligations.BargesMoveByCredit := by
  unfold Obligations.BargesMoveByCredit
  intro s l tick words k h
  exact ⟨fun hc => exec_bargeCommit h hc tick words, fun hc => congrArg Host.Outcome.next (State.commit_without_credit h hc _),
    fun b rest hp => exec_creditReturn h hp, exec_creditReturn_empty h, fun hc hd hp c d hcd => credit_commit_return h hc hd hp hcd⟩

/-- Settles O12: crossings by `State.arrives_quiet` and `State.discardLate_eq`, the deadlines by `State.egress`, a capture by `State.capture_tdm`. -/
theorem crossingsAndDeadlines : Obligations.CrossingsAndDeadlines := by
  unfold Obligations.CrossingsAndDeadlines
  intro s l k b rest hh h
  refine ⟨fun hf hg hx hk => exec_lockCrossingComplete hh h hf hg hx hk, fun hf hg hm => ⟨?_, exec_lockCrossingComplete_late hh h hf hg⟩,
    fun a t hk hs hb he ht hg c hc => ?_, fun a t hk hs hb he ht => ⟨?_, ?_⟩, fun g hp hs hb ht ha hf => ⟨fun hc => ?_, fun hc => ?_⟩⟩
  · exact congrArg Host.Outcome.next (State.discardLate_eq h hf hg hm)
  · have hegress : s.egress l = _ := State.egress_amp_absent hk h he ht hg
    rcases List.mem_pair.1 hc with rfl | rfl
    · rw [exec_egressDeadline hh h hs hb, hegress]; rfl
    · rw [exec_consumerDeadline_amp hk hh h hs hb, hegress]; rfl
  · rw [exec_egressDeadline hh h hs hb, State.egress_amp_present hk h he ht]
  · rw [exec_consumerDeadline_amp hk hh h hs hb, State.egress_amp_present hk h he ht]
  · rw [exec_captureCommit hh h hs hb ht, State.capture_tdm_of_credit hp h ha hf hc]
  · rw [exec_captureCommit hh h hs hb ht, State.capture_tdm_without_credit hp h ha hf hc]; rfl

end

section
/-!
The boundary of a domain whose take point has come (03 R93): the boundary takes the point out of the plan, though nothing else waits for it.
-/
namespace Sys2Proof.Machine

/-- Domain 0 runs with ticks of 8 samples and stands at the boundary of tick 0, the planned point of a take that has left nothing for it. -/
def atTakePoint : State :=
  { State.reset with
    regs := [(R.CLK_DOMx_CFG 0, putBits (resetValue (R.CLK_DOMx_CFG 0)) 27 1 1)]
    doms := [(0, { b := 8 })]
    cfg := { State.reset.cfg with points := [(0, 0)] } }

/-- The boundary takes the point out of the plan. -/
theorem tickBoundary_atTakePoint : ∃ t, exec (.tickBoundary 0) atTakePoint = .next t ∧ t.cfg.points = [] := by
  have hrun : ¬(atTakePoint.halted = true ∨ (!atTakePoint.started 0) = true ∨ (atTakePoint.dom 0).b = 0 ∨ (!atTakePoint.atBoundary 0) = true) := by
    decide
  exact ⟨atTakePoint.beginTick 0, congrArg Host.Outcome.next (if_neg hrun), by decide⟩

/-- Raising the strobe event and reading the delay lines, of which there is none, leaves the plan as it is. -/
theorem points_strobe_atTakePoint :
    ((if atTakePoint.tick 0 % 2 ^ atTakePoint.rd ⟨R.EVT_TICK_DIV, 8 * 0, 4⟩ = 0 then atTakePoint.wr (bitAt R.EVT_LOCAL_STATUS 0) 1
      else atTakePoint).fetchDelays 0).cfg.points = [(0, 0)] := by
  split <;> rfl

end Sys2Proof.Machine
end

section
open Sys2Proof Sys2Proof.Machine

/-- Refutes O13: where a take point has come with nothing left for the domain, its boundary also takes the point out of the plan (`cfg.points`),
which the statement's state keeps. -/
theorem not_samplesAndTickBoundaries : ¬ Obligations.SamplesAndTickBoundaries := by
  unfold Obligations.SamplesAndTickBoundaries
  intro h
  obtain ⟨-, -, hboundary, -⟩ := h atTakePoint 0 (by decide) (by decide)
  have hnext := hboundary (by decide) (by decide) (by decide) rfl rfl rfl rfl rfl (by decide)
  obtain ⟨t, hexec, hpoints⟩ := tickBoundary_atTakePoint
  rw [hexec] at hnext
  injection hnext with hnext
  rw [hnext] at hpoints
  exact absurd (points_strobe_atTakePoint.symm.trans hpoints) (by decide)

end

section
/-!
The registers a fault report reaches (19 R482 to R490): those of FLT, CFG, CLK, FOV, the lanes, TDM and AMP, all below 0x12_0000. The registers of
the filter chain, the basin, the router, the engines and the background blocks lie above, and a report leaves them as they are.
-/
namespace Sys2Proof.Machine

/-- The registers from 0x12_0000 on are in `t` as in `s`. -/
structure HighRegs (s t : State) : Prop where
  reg : ∀ a, 0x120000 ≤ a → t.reg a = s.reg a

variable {s₀ s t : State} {a c g n k : Nat} {f : FieldAt}

theorem HighRegs.refl (s : State) : HighRegs s s := ⟨fun _ _ => rfl⟩

theorem HighRegs.congr (h : HighRegs s₀ s) (hr : t.regs = s.regs) : HighRegs s₀ t :=
  ⟨fun a ha => by rw [← h.reg a ha]; simp only [State.reg, hr]⟩

theorem HighRegs.ite {p : Prop} [Decidable p] (h : HighRegs s₀ s) (h' : HighRegs s₀ t) : HighRegs s₀ (if p then s else t) := by split <;> assumption

theorem HighRegs.foldl {α : Type} {l : List α} {f : State → α → State} (h : HighRegs s₀ s)
    (k : ∀ t, ∀ x ∈ l, HighRegs s₀ t → HighRegs s₀ (f t x)) : HighRegs s₀ (l.foldl f s) := by
  induction l generalizing s with
  | nil => exact h
  | cons x l ih => exact ih (k _ x (List.mem_cons_self ..) h) fun t y hy => k t y (List.mem_cons_of_mem _ hy)

theorem HighRegs.setReg (v : Word) (ha : a < 0x120000) (h : HighRegs s₀ s) : HighRegs s₀ (s.setReg a v) :=
  ⟨fun b hb => by rw [State.reg_setReg_ne _ _ (by omega), h.reg b hb]⟩

theorem HighRegs.wr (v : Nat) (hf : f.addr < 0x120000) (h : HighRegs s₀ s) : HighRegs s₀ (s.wr f v) := h.setReg _ hf

theorem HighRegs.bump (m : Nat) (hf : f.addr < 0x120000) (h : HighRegs s₀ s) : HighRegs s₀ (s.bump f m) := h.wr _ hf

theorem HighRegs.raise (hf : f.addr < 0x120000) (h : HighRegs s₀ s) : HighRegs s₀ (s.raise f) := h.wr _ hf

theorem HighRegs.hw (v : Nat) (hf : f.addr < 0x120000) (h : HighRegs s₀ s) : HighRegs s₀ (s.hw f v) := (h.wr v hf).congr rfl

theorem HighRegs.hwMode (m : Nat) (on : Bool) (h : HighRegs s₀ s) : HighRegs s₀ (s.hwMode m on) := by
  have hset : HighRegs s₀ ((s.wr (bitAt R.CFG_MODE_HWREQ m) (b2n on)).raise R.CFG_INT_STATUS_hw_mode) :=
    (h.wr _ (by decide : R.CFG_MODE_HWREQ < _)).raise (by decide)
  have hrefused : R.CFG_REFUSED < 0x120000 := by decide
  exact h.ite (((hset.raise (f := bitAt R.CFG_REFUSED m) hrefused).raise (by decide)).ite hset)

/-! ## TDM groups (08 R244) -/

theorem tdmStatus_low (hg : g < 4) : R.TDM_GRPg_STATUS g < 0x120000 := by simp only [R.TDM_GRPg_STATUS]; omega

theorem HighRegs.setGrp (r : TdmGroup) (hg : g < 4) (h : HighRegs s₀ s) : HighRegs s₀ (s.setGrp g r) := by
  have hs := tdmStatus_low hg
  have hstate : HighRegs s₀ ((s.setTdm { s.tdm with groups := Tab.set (fun _ => {}) s.tdm.groups g r }).wr (R.TDM_GRPg_STATUS_state g)
      ((s.setTdm { s.tdm with groups := Tab.set (fun _ => {}) s.tdm.groups g r }).tdmState g)) := HighRegs.wr _ hs (h.congr rfl)
  have hdomain := fun v => hstate.wr (f := R.TDM_GRPg_STATUS_domain g) v hs
  exact hstate.ite (HighRegs.ite (((hdomain _).wr (f := R.TDM_GRPg_STATUS_fs_present g) 1 hs).wr (f := R.TDM_GRPg_STATUS_bclk_present g) 1 hs) (hdomain _))

theorem HighRegs.tdmSafe (on : Bool) (hg : g < 4) (h : HighRegs s₀ s) : HighRegs s₀ (s.tdmSafe g on) := h.ite (h.setGrp _ hg)

/-! ## Amplifier groups (09 R265) -/

theorem ampStatus_low (hc : c < 32) : R.AMPc_STATUS c < 0x120000 := by simp only [R.AMPc_STATUS]; omega
theorem ampEvent_low (hc : c < 32) : R.AMPc_INT_STATUS c < 0x120000 := by simp only [R.AMPc_INT_STATUS]; omega
theorem ampGroupStatus_low (ha : a < 4) : R.AMP_GRPa_STATUS a < 0x120000 := by simp only [R.AMP_GRPa_STATUS]; omega

theorem State.ampMain_lt (s : State) (hc : c < 32) : s.ampMain c < 32 := by unfold State.ampMain; split <;> omega

theorem State.mem_ampPair (s : State) (hc : c < 32) : ∀ d ∈ s.ampPair c, d < 32 := by
  unfold State.ampPair
  split <;> simp <;> omega

theorem HighRegs.ampEnter (k : Nat) (hc : c < 32) (h : HighRegs s₀ s) : HighRegs s₀ (s.ampEnter c k) :=
  h.foldl fun t d hd ht => by
    have hd := s.mem_ampPair hc d hd
    exact HighRegs.wr _ (ampGroupStatus_low (by omega)) (ht.wr (f := ampState d) k (ampStatus_low hd))

theorem HighRegs.ampRelease (ha : a < 4) (h : HighRegs s₀ s) : HighRegs s₀ (s.ampRelease a) := by
  have hs := ampGroupStatus_low ha
  exact HighRegs.ite (((h.wr (f := R.AMP_GRPa_STATUS_drv_en a) 0 hs).wr (f := R.AMP_GRPa_STATUS_leave a) 0 hs).congr rfl) h

theorem HighRegs.ampOff (hc : c < 32) (h : HighRegs s₀ s) : HighRegs s₀ (s.ampOff c) := h.ampEnter _ hc

theorem HighRegs.ampCauseEnds (c : Nat) (h : HighRegs s₀ s) : HighRegs s₀ (s.ampCauseEnds c) := h.congr rfl

theorem channel_lt {i : Nat} (ha : a < 4) (hi : i ∈ List.range 8) : 8 * a + i < 32 := by
  have := List.mem_range.1 hi
  omega

theorem HighRegs.ampSafe (mute hard : Bool) (ha : a < 4) (h : HighRegs s₀ s) : HighRegs s₀ (s.ampSafe a mute hard) := by
  have hs := ampGroupStatus_low ha
  unfold State.ampSafe
  refine h.ite ?_
  extract_lets s₁ s₂ s₃ s₄
  have h₁ : HighRegs s₀ s₁ := (h.wr (f := R.AMP_GRPa_STATUS_hard a) 1 hs).wr (f := R.AMP_GRPa_STATUS_drv_en a) 0 hs
  have h₂ : HighRegs s₀ s₂ := HighRegs.ite (h₁.foldl fun t i hi ht => by
    have hc := channel_lt ha hi
    exact ht.ite (HighRegs.ite ((ht.ampEnter 9 hc).ampCauseEnds _) (ht.ampEnter 9 hc))) h
  have h₃ : HighRegs s₀ s₃ := h₂.wr (f := R.AMP_GRPa_STATUS_mute a) 1 hs
  have h₄ : HighRegs s₀ s₄ := HighRegs.ite (h₃.foldl fun t i hi ht =>
    HighRegs.ite (HighRegs.ampEnter 4 (channel_lt ha hi) (ht.congr rfl)) ht) h₂
  exact h₄.ampRelease ha

theorem HighRegs.ampUnsafe (mute hard : Bool) (ha : a < 4) (h : HighRegs s₀ s) : HighRegs s₀ (s.ampUnsafe a mute hard) := by
  have hs := ampGroupStatus_low ha
  unfold State.ampUnsafe
  extract_lets s₁ s₂ s₃
  have h₁ : HighRegs s₀ s₁ := h.wr (f := R.AMP_GRPa_STATUS_hard a) 0 hs
  have h₂ : HighRegs s₀ s₂ := HighRegs.ite (h₁.foldl fun t i hi ht => HighRegs.ite (ht.ampOff (channel_lt ha hi)) ht) h
  have h₃ : HighRegs s₀ s₃ := h₂.wr (f := R.AMP_GRPa_STATUS_mute a) 0 hs
  refine HighRegs.ite (h₃.foldl fun t i hi ht => ?_) h₂
  have hc := channel_lt ha hi
  exact HighRegs.ite (HighRegs.raise (ampEvent_low (State.ampMain_lt _ hc)) (HighRegs.ampEnter 3 hc (ht.congr rfl))) ht

/-! ## Fence and lanes (15 R393; 13 R356) -/

theorem HighRegs.judgeFence (h : HighRegs s₀ s) : HighRegs s₀ s.judgeFence := by
  unfold State.judgeFence
  extract_lets free s₁
  have h₁ : HighRegs s₀ s₁ := HighRegs.congr (h.wr (f := R.FOV_STATUS_fence) (b2n !free) (by decide)) rfl
  exact h.ite (HighRegs.ite (h₁.congr rfl) h₁)

section
variable (hn : n < 12)
include hn

theorem lane_low : R.LANEn_STATUS n < 0x120000 ∧ R.LANEn_SCAN_STATUS n < 0x120000 ∧ R.LANEn_INT_STATUS n < 0x120000 ∧
    R.LANEn_EB n < 0x120000 ∧ R.LANEn_LOOP n < 0x120000 ∧ R.LANEn_PRBS_CTRL n < 0x120000 := by
  simp only [R.LANEn_STATUS, R.LANEn_SCAN_STATUS, R.LANEn_INT_STATUS, R.LANEn_EB, R.LANEn_LOOP, R.LANEn_PRBS_CTRL]
  omega

theorem HighRegs.laneBelow (v : Nat) (h : HighRegs s₀ s) : HighRegs s₀ (s.laneBelow n v) := by
  obtain ⟨hs, hscan, hint, heb, -⟩ := lane_low hn
  unfold State.laneBelow
  extract_lets s₁ s₂ s₃
  have hscan : HighRegs s₀ (s.scanAbort n) :=
    HighRegs.ite ((h.setReg 0 hscan).raise (f := R.LANEn_INT_STATUS_scan_abort n) hint) h
  have hdrop : HighRegs s₀ ((s.scanAbort n).readaptDrop n) := HighRegs.wr (f := R.LANEn_STATUS_leave n) 0 hs (hscan.congr rfl)
  have h₁ : HighRegs s₀ s₁ := hdrop.wr (f := R.LANEn_STATUS_state n) v hs
  have h₂ : HighRegs s₀ s₂ := (h₁.wr (f := R.LANEn_STATUS_cdr_lock n) 0 hs).ite h₁
  have h₃ : HighRegs s₀ s₃ := (h₂.wr (f := R.LANEn_STATUS_sig_det n) 0 hs).ite h₂
  exact HighRegs.ite ((h₃.setReg 0x101010 heb).congr rfl) h₃
end

theorem HighRegs.stopNetTests (h : HighRegs s₀ s) : HighRegs s₀ s.stopNetTests := by
  unfold State.stopNetTests
  refine h.ite (h.foldl fun t n hn ht => ?_)
  have hn : n < 12 := by
    rcases List.mem_pair.1 hn with rfl | rfl <;> decide
  obtain ⟨hs, -, hint, -, hloop, hprbs⟩ := lane_low hn
  have hgen (u : State) (hu : HighRegs s₀ u) : HighRegs s₀ (u.hw ⟨R.LANEn_PRBS_CTRL n, 0, 4⟩ 0) := hu.hw 0 hprbs
  refine HighRegs.ite (HighRegs.raise (f := R.LANEn_INT_STATUS_gen_stopped n) hint ?_)
    (HighRegs.ite ((hgen t ht).raise (f := R.LANEn_INT_STATUS_gen_stopped n) hint) ht)
  have hoff := hgen _ (ht.hw (f := ⟨R.LANEn_LOOP n, 0, 2⟩) 0 hloop)
  exact ((hoff.laneBelow hn 3).wr (f := R.LANEn_STATUS_sig_det n) 1 hs |>.ite hoff).congr rfl

/-! ## The report (19 R482 to R485) -/

theorem HighRegs.applySafe (h : HighRegs s₀ s) : HighRegs s₀ s.applySafe := by
  unfold State.applySafe
  extract_lets s₁ s₂ hard s₃ s₄
  have h₁ : HighRegs s₀ s₁ := h.judgeFence.stopNetTests
  have h₂ : HighRegs s₀ s₂ := h₁.foldl fun t g hg ht =>
    (ht.tdmSafe _ (List.mem_range.1 hg)).ite (ht.setGrp _ (List.mem_range.1 hg))
  have h₃ : HighRegs s₀ s₃ := h₂.foldl fun t a ha ht =>
    (ht.ampSafe _ _ (List.mem_range.1 ha)).ampUnsafe _ _ (List.mem_range.1 ha)
  have h₄ : HighRegs s₀ s₄ := h₃.foldl fun t i hi ht => by
    have := List.mem_range.1 hi
    exact ht.wr (f := bitAt (R.LANEn_STATUS (2 + i)) 10) 1 (lane_low (by omega)).1
  exact HighRegs.ite (HighRegs.ite (HighRegs.congr (h₄.wr (f := R.CLK_STATUS_clk_ok) 0 (by decide)) rfl) h₄) h₃

theorem HighRegs.assertErr (l : Nat) (h : HighRegs s₀ s) : HighRegs s₀ (s.assertErr l) := by
  have hhold (u : State) (hu : HighRegs s₀ u) : HighRegs s₀ (u.hw R.FLT_ERR_CTRL_hold 1) := hu.hw 1 (by decide)
  have herr (u : State) (hu : HighRegs s₀ u) : HighRegs s₀ (u.wr R.FLT_STATUS_err_n 1) := hu.wr 1 (by decide)
  unfold State.assertErr
  refine HighRegs.ite ?_ h
  refine HighRegs.ite ?_ ?_
  · refine hhold _ ?_
    exact h.congr rfl
  · refine HighRegs.congr (herr _ (hhold _ ?_)) rfl
    exact h.congr rfl

theorem HighRegs.react (source l : Nat) (h : HighRegs s₀ s) : HighRegs s₀ (s.react source l) := by
  have hflt (u : State) (hu : HighRegs s₀ u) (i : Nat) : HighRegs s₀ (u.wr (bitAt R.FLT_STATUS i) 1) := hu.wr 1 (by decide : R.FLT_STATUS < _)
  have hhalt (u : State) (hu : HighRegs s₀ u) : HighRegs s₀ (u.wr R.FLT_STATUS_halted 1) := hu.wr 1 (by decide)
  unfold State.react
  refine HighRegs.ite ?_ (HighRegs.ite ?_ (HighRegs.ite ?_ h))
  · refine h.ite (HighRegs.applySafe (hflt _ ?_ 18))
    exact h.congr rfl
  · exact HighRegs.applySafe (HighRegs.hwMode 11 true (hflt s h 19))
  · refine HighRegs.applySafe (hhalt _ (hflt _ ?_ 20))
    exact h.congr rfl

theorem HighRegs.logRecord (r : FaultRecord) (h : HighRegs s₀ s) : HighRegs s₀ (s.logRecord r) := by
  unfold State.logRecord
  have hlog : R.FLT_LOG_STATUS < 0x120000 := by decide
  exact HighRegs.ite (h.congr rfl) (HighRegs.raise (by decide) (HighRegs.bump 1 hlog (h.congr rfl)))

theorem fltCount_low (l : Nat) : fltCount l < 0x120000 := by simp only [fltCount, R.FLT_COUNTL]; omega

theorem HighRegs.reportAs (source code level : Nat) (injected : Bool) (h : HighRegs s₀ s) : HighRegs s₀ (s.reportAs source code level injected) := by
  unfold State.reportAs
  split
  · next r _ => exact HighRegs.bump (f := highHalf (fltCount r.level)) 1 (fltCount_low _) (h.congr rfl)
  · extract_lets l
    split
    extract_lets r s₁ s₂
    have h₁ : HighRegs s₀ s₁ := (h.logRecord r).raise (f := bitAt R.FLT_INT_STATUS l) (by decide : R.FLT_INT_STATUS < _)
    have h₂ : HighRegs s₀ s₂ := (h₁.raise (by decide)).ite h₁
    exact ((h₂.bump (f := lowHalf (fltCount l)) 1 (fltCount_low _)).assertErr l).react source l

theorem HighRegs.report (source code level : Nat) (h : HighRegs s₀ s) : HighRegs s₀ (s.report source code level) := h.reportAs ..

/-- A report leaves a register from 0x12_0000 on as it is. -/
theorem State.reg_report (s : State) (source code level : Nat) (ha : 0x120000 ≤ a) : (s.report source code level).reg a = s.reg a :=
  ((HighRegs.refl s).report source code level).reg a ha

end Sys2Proof.Machine
end

section
/-!
Engine segments (04 R118 to R124): what the gate, a start, a skip and a park leave alone, by the parts of the state each of their operations reaches.
-/
namespace Sys2Proof.Machine

variable {s₀ s t u : State} {n m : Nat}

/-! ## Engines -/

theorem State.eng_setEng_self (s : State) (n : Nat) (e : Engine) : (s.setEng n e).eng n = e := by
  simp [State.eng, State.setEng]

theorem State.eng_setEng_ne (s : State) (e : Engine) (h : m ≠ n) : (s.setEng n e).eng m = s.eng m := by
  simp [State.eng, State.setEng, Tab.get_set_ne _ _ _ h]

theorem State.eng_congr (h : t.engines = s.engines) (m : Nat) : t.eng m = s.eng m := by simp only [State.eng, h]

theorem State.rd_congr {f : FieldAt} (h : t.reg f.addr = s.reg f.addr) : t.rd f = s.rd f := by simp only [State.rd, h]

theorem State.engState_congr (h : t.reg (R.ENGn_STATUS n) = s.reg (R.ENGn_STATUS n)) : t.engState n = s.engState n :=
  State.rd_congr (f := R.ENGn_STATUS_state n) h

theorem State.engState_setEngState (s : State) (n : Nat) {k : Nat} (hk : k < 2 ^ 4) : (s.setEngState n k).engState n = k :=
  (s.rd_wr_same _ _ (by decide : (0 : Nat) + 4 ≤ 32)).trans (Nat.mod_eq_of_lt hk)

/-- A register at another offset of its block than the status. -/
theorem engStatus_ne {a : Nat} (h : a % 0x100 ≠ 0) (m : Nat) : R.ENGn_STATUS m ≠ a := by simp only [R.ENGn_STATUS]; omega

/-! ## Locks -/

/-- Only locks differ. -/
structure LocksOnly (s t : State) : Prop where
  rest : { t with locks := s.locks } = s

theorem LocksOnly.refl (s : State) : LocksOnly s s := ⟨rfl⟩

theorem LocksOnly.setLock (l : Nat) (k : Lock) (h : LocksOnly s₀ s) : LocksOnly s₀ (s.setLock l k) := ⟨h.rest⟩

theorem LocksOnly.foldl {α : Type} {l : List α} {f : State → α → State} (h : LocksOnly s₀ s) (k : ∀ t x, LocksOnly s₀ t → LocksOnly s₀ (f t x)) :
    LocksOnly s₀ (l.foldl f s) := by
  induction l generalizing s with
  | nil => exact h
  | cons x l ih => exact ih (k _ _ h)

theorem LocksOnly.regs (h : LocksOnly s t) : t.regs = s.regs := (congrArg State.regs h.rest :)
theorem LocksOnly.engines (h : LocksOnly s t) : t.engines = s.engines := (congrArg State.engines h.rest :)
theorem LocksOnly.substs (h : LocksOnly s t) : t.substs = s.substs := (congrArg State.substs h.rest :)
theorem LocksOnly.doms (h : LocksOnly s t) : t.doms = s.doms := (congrArg State.doms h.rest :)
theorem LocksOnly.ssm (h : LocksOnly s t) : t.ssm = s.ssm := (congrArg State.ssm h.rest :)
theorem LocksOnly.dram (h : LocksOnly s t) : t.dram = s.dram := (congrArg State.dram h.rest :)

theorem LocksOnly.eng (h : LocksOnly s t) (m : Nat) : t.eng m = s.eng m := State.eng_congr h.engines m
theorem LocksOnly.reg (h : LocksOnly s t) (a : Nat) : t.reg a = s.reg a := by simp only [State.reg, h.regs]
theorem LocksOnly.rd (h : LocksOnly s t) (f : FieldAt) : t.rd f = s.rd f := State.rd_congr (h.reg _)
theorem LocksOnly.sameMemory (h : LocksOnly s t) : SameMemory s t := SameMemory.of_eq h.ssm h.dram

theorem LocksOnly.consume (l x : Nat) (h : LocksOnly s₀ s) : LocksOnly s₀ (s.consume l x) := by
  unfold State.consume
  split
  · split
    · exact h.setLock _ _
    · exact h
  · exact h

theorem LocksOnly.commit (l : Nat) (b : Barge) (h : LocksOnly s₀ s) : LocksOnly s₀ (s.commit l b) := by
  unfold State.commit
  split
  · split
    · exact h
    · exact h.setLock _ _
  · exact h

theorem LocksOnly.giveUp (l x : Nat) (h : LocksOnly s₀ s) : LocksOnly s₀ (s.giveUp l x) := by
  unfold State.giveUp
  split
  · split
    · exact h.consume _ _
    · exact h.setLock _ _
  · exact h

theorem LocksOnly.giveUpInlets (e : Engine) (h : LocksOnly s₀ s) : LocksOnly s₀ (s.giveUpInlets e) := h.foldl fun _ l ht => ht.giveUp l e.tick

theorem LocksOnly.dropOlder (e : Engine) (h : LocksOnly s₀ s) : LocksOnly s₀ (s.dropOlder e) :=
  h.foldl fun t l ht => by
    dsimp only
    split
    · exact ht.setLock _ _
    · exact ht

/-! ## Overruns of an engine (01 R34; 04 R122) -/

/-- The count of ENGn_OVR_COUNT that an overrun of an inlet or of an outlet adds to. -/
def ovrCount (n : Nat) (out : Bool) : FieldAt := if out then highHalf (R.ENGn_OVR_COUNT n) else lowHalf (R.ENGn_OVR_COUNT n)

theorem ovrCount_addr (n : Nat) (out : Bool) : (ovrCount n out).addr = R.ENGn_OVR_COUNT n := by cases out <;> rfl

/-- The event of an overrun. -/
def ovrEvent (n : Nat) (out : Bool) : FieldAt := if out then R.ENGn_INT_STATUS_ovr_out n else R.ENGn_INT_STATUS_ovr_in n

theorem ovrEvent_addr (n : Nat) (out : Bool) : (ovrEvent n out).addr = R.ENGn_INT_STATUS n := by cases out <;> rfl

theorem State.overrun_engine (s : State) (n : Nat) (out : Bool) :
    s.overrun (.engine n) out = ((s.raise (ovrEvent n out)).bump (ovrCount n out)).report (32 + n) (b2n out) 2 := rfl

theorem State.overrun_engine_aside (n : Nat) (out : Bool) (h : Aside s₀ s) : Aside s₀ (s.overrun (.engine n) out) :=
  State.report_aside _ _ _ (State.bump_aside _ _ (State.raise_aside _ h))

theorem engStatus_high (n : Nat) : 0x120000 ≤ R.ENGn_STATUS n := by simp only [R.ENGn_STATUS]; omega
theorem ovrCount_high (n : Nat) : 0x120000 ≤ R.ENGn_OVR_COUNT n := by simp only [R.ENGn_OVR_COUNT]; omega
theorem ovrCount_offset (n : Nat) : R.ENGn_OVR_COUNT n % 0x100 = 0x24 := by simp only [R.ENGn_OVR_COUNT]; omega
theorem engEvent_offset (n : Nat) : R.ENGn_INT_STATUS n % 0x100 = 0x2C := by simp only [R.ENGn_INT_STATUS]; omega

theorem State.status_overrun_engine (s : State) (n m : Nat) (out : Bool) :
    (s.overrun (.engine n) out).reg (R.ENGn_STATUS m) = s.reg (R.ENGn_STATUS m) := by
  rw [State.overrun_engine, State.reg_report _ _ _ _ (engStatus_high m), State.reg_bump_ne, State.reg_raise_ne]
  · exact engStatus_ne (by rw [ovrEvent_addr, engEvent_offset]; decide) m
  · exact engStatus_ne (by rw [ovrCount_addr, ovrCount_offset]; decide) m

/-- An overrun adds one to its own count, up to its end, and leaves the other. -/
theorem State.rd_overrun_engine (s : State) (n : Nat) (out b : Bool) :
    (s.overrun (.engine n) out).rd (ovrCount n b) = if b = out then min (s.rd (ovrCount n b) + 1) 0xFFFF else s.rd (ovrCount n b) := by
  have hevent : (s.raise (ovrEvent n out)).rd (ovrCount n b) = s.rd (ovrCount n b) :=
    State.rd_congr (State.reg_raise_ne _ fun h => by
      have h := congrArg (· % 0x100) h
      simp only [ovrCount_addr, ovrEvent_addr, ovrCount_offset, engEvent_offset] at h
      exact absurd h (by decide))
  rw [State.overrun_engine, State.rd_congr (State.reg_report _ _ _ _ (by rw [ovrCount_addr]; exact ovrCount_high n)), ← hevent]
  split <;> rename_i hb
  · subst hb
    cases b
    · exact State.rd_bump _ (lowHalf _) _ (by decide : 0 + 16 ≤ 32)
    · exact State.rd_bump _ (highHalf _) _ (by decide : 16 + 16 ≤ 32)
  · rw [State.bump]
    cases b <;> cases out
    · exact absurd rfl hb
    · exact State.rd_wr_apart _ _ (.inr (by decide : 0 + 16 ≤ 16))
    · exact State.rd_wr_apart _ _ (.inl (by decide : 0 + 16 ≤ 16))
    · exact absurd rfl hb

/-- The overruns of the inlets that are absent and of the outlets without credit, one for each. -/
def State.overruns (s : State) (n : Nat) (absent dropped : List Nat) : State :=
  dropped.foldl (fun s _ => s.overrun (.engine n) true) (absent.foldl (fun s _ => s.overrun (.engine n) false) s)

theorem State.overruns_aside (s : State) (n : Nat) (absent dropped : List Nat) : Aside s (s.overruns n absent dropped) :=
  Aside.foldl (Aside.foldl (Aside.refl s) fun _ _ h => State.overrun_engine_aside n false h) fun _ _ h => State.overrun_engine_aside n true h

theorem State.status_foldl_overrun (s : State) (n m : Nat) (out : Bool) (l : List Nat) :
    (l.foldl (fun s _ => s.overrun (.engine n) out) s).reg (R.ENGn_STATUS m) = s.reg (R.ENGn_STATUS m) := by
  induction l generalizing s with
  | nil => rfl
  | cons _ l ih => exact (ih _).trans (s.status_overrun_engine n m out)

theorem State.engState_overruns (s : State) (n m : Nat) (absent dropped : List Nat) : (s.overruns n absent dropped).engState m = s.engState m :=
  State.engState_congr ((State.status_foldl_overrun _ n m true _).trans (s.status_foldl_overrun n m false _))

theorem State.rd_foldl_overrun (s : State) (n : Nat) (out b : Bool) (l : List Nat) :
    (l.foldl (fun s _ => s.overrun (.engine n) out) s).rd (ovrCount n b)
      = if b = out then min (s.rd (ovrCount n b) + l.length) 0xFFFF else s.rd (ovrCount n b) := by
  have hlt : s.rd (ovrCount n b) ≤ 0xFFFF := by
    cases b <;> exact Nat.le_of_lt_succ (getBits_lt _ _ 16)
  induction l generalizing s with
  | nil => split <;> simp [hlt]
  | cons x l ih =>
    have hstep := s.rd_overrun_engine n out b
    rw [List.foldl_cons, ih]
    · rw [hstep, List.length_cons]
      split <;> omega
    · rw [hstep]
      split <;> omega

theorem State.rd_overruns (s : State) (n : Nat) (b : Bool) (absent dropped : List Nat) : (s.overruns n absent dropped).rd (ovrCount n b)
    = min (s.rd (ovrCount n b) + (if b then dropped else absent).length) 0xFFFF := by
  rw [State.overruns, State.rd_foldl_overrun, State.rd_foldl_overrun]
  cases b
  · rfl
  · rfl

/-! ## The start of a segment (04 R122) -/

/-- A page swap at the gate of engine `n`: its requests that wait and the registers of its pages differ. -/
structure Swapped (n : Nat) (s t : State) : Prop where
  rest : { t with regs := s.regs, engines := s.engines } = s
  eng : ∃ prog param, t.eng n = { s.eng n with swapAt := prog, paramSwapAt := param }
  other : ∀ m, m ≠ n → t.eng m = s.eng m
  reg : ∀ a, a ∉ [R.ENGn_PAGE n, R.ENGn_STATUS n, R.ENGn_PARAM n] → t.reg a = s.reg a

theorem Swapped.refl (n : Nat) (s : State) : Swapped n s s := ⟨rfl, ⟨_, _, rfl⟩, fun _ _ => rfl, fun _ _ => rfl⟩

theorem Swapped.trans (h : Swapped n s t) (h' : Swapped n t u) : Swapped n s u where
  rest := by rw [← h.rest, ← h'.rest]
  eng := by
    obtain ⟨_, _, he⟩ := h.eng
    obtain ⟨p, q, he'⟩ := h'.eng
    exact ⟨p, q, by rw [he', he]⟩
  other m hm := (h'.other m hm).trans (h.other m hm)
  reg a ha := (h'.reg a ha).trans (h.reg a ha)

theorem Swapped.setEng {e : Engine} (he : ∃ prog param, e = { s.eng n with swapAt := prog, paramSwapAt := param }) : Swapped n s (s.setEng n e) where
  rest := rfl
  eng := by rw [State.eng_setEng_self]; exact he
  other _ hm := State.eng_setEng_ne _ _ hm
  reg _ _ := rfl

theorem Swapped.wr {f : FieldAt} (v : Nat) (hf : f.addr ∈ [R.ENGn_PAGE n, R.ENGn_STATUS n, R.ENGn_PARAM n]) (h : Swapped n s t) : Swapped n s (t.wr f v) :=
  h.trans ⟨rfl, ⟨_, _, rfl⟩, fun _ _ => rfl, fun _ ha => State.reg_wr_ne _ _ fun e => ha (e ▸ hf)⟩

theorem State.swapAtGate_swapped (s : State) (n : Nat) : Swapped n s (s.swapAtGate n) := by
  have hpage (f : FieldAt) (h : f.addr = R.ENGn_PAGE n) : f.addr ∈ [R.ENGn_PAGE n, R.ENGn_STATUS n, R.ENGn_PARAM n] := by simp [h]
  have hstatus (f : FieldAt) (h : f.addr = R.ENGn_STATUS n) : f.addr ∈ [R.ENGn_PAGE n, R.ENGn_STATUS n, R.ENGn_PARAM n] := by simp [h]
  unfold State.swapAtGate
  extract_lets e later
  split
  · exact Swapped.refl n s
  · have he : Swapped n s (s.setEng n { e with swapAt := later }) := Swapped.setEng ⟨_, _, rfl⟩
    exact Swapped.wr _ (hpage _ rfl) (Swapped.wr _ (hpage _ rfl) (Swapped.wr _ (hstatus _ rfl) (Swapped.wr _ (hpage _ rfl) he)))

theorem State.paramSwapAtGate_swapped (s : State) (n : Nat) : Swapped n s (s.paramSwapAtGate n) := by
  have hparam (f : FieldAt) (h : f.addr = R.ENGn_PARAM n) : f.addr ∈ [R.ENGn_PAGE n, R.ENGn_STATUS n, R.ENGn_PARAM n] := by simp [h]
  unfold State.paramSwapAtGate
  extract_lets e later
  split
  · exact Swapped.refl n s
  · have he : Swapped n s (s.setEng n { e with paramSwapAt := later }) := Swapped.setEng ⟨_, _, rfl⟩
    exact Swapped.wr _ (hparam _ rfl) (Swapped.wr _ (hparam _ rfl) (Swapped.wr _ (hparam _ rfl) (Swapped.wr _ (hparam _ rfl) he)))

theorem Swapped.locks (h : Swapped n s t) : t.locks = s.locks := (congrArg State.locks h.rest :)
theorem Swapped.substs (h : Swapped n s t) : t.substs = s.substs := (congrArg State.substs h.rest :)
theorem Swapped.ssm (h : Swapped n s t) : t.ssm = s.ssm := (congrArg State.ssm h.rest :)
theorem Swapped.dram (h : Swapped n s t) : t.dram = s.dram := (congrArg State.dram h.rest :)

/-- Which engine a substitution prepares stands in its own registers and record. -/
theorem State.isPrepared_congr (hs : t.substs = s.substs) (hr : ∀ v, t.reg (0x160014 + 16 * v) = s.reg (0x160014 + 16 * v)) (n : Nat) :
    t.isPrepared n = s.isPrepared n := by
  have hstate (v : Nat) : t.subState v = s.subState v := State.rd_congr (f := subF v R.ENG_SUB0_STATUS_state) (hr v)
  have htarget (v : Nat) : t.subTarget v = s.subTarget v := State.rd_congr (f := subF v R.ENG_SUB0_STATUS_target) (hr v)
  have hsub (v : Nat) : t.sub v = s.sub v := by simp only [State.sub, hs]
  have hboth (v : Nat) : t.bothRun v = s.bothRun v := by
    unfold State.bothRun
    rw [hstate, hsub]
  have hprepared (v : Nat) : t.prepared v = s.prepared v := by
    unfold State.prepared
    rw [hstate, htarget]
  simp only [State.isPrepared, hboth, hprepared]

theorem Swapped.isPrepared (h : Swapped n s t) : t.isPrepared n = s.isPrepared n :=
  State.isPrepared_congr h.substs (fun v => h.reg _ (by
    simp only [R.ENGn_PAGE, R.ENGn_STATUS, R.ENGn_PARAM, List.mem_cons, List.not_mem_nil, or_false]
    omega)) n

theorem Swapped.absentInlets (h : Swapped n s t) : t.absentInlets (t.eng n) = s.absentInlets (s.eng n) := by
  obtain ⟨_, _, he⟩ := h.eng
  simp only [State.absentInlets, State.awaits, State.lock, Engine.inletLock, h.locks, he]

theorem Swapped.creditless (h : Swapped n s t) : t.creditless (t.eng n) = s.creditless (s.eng n) := by
  obtain ⟨_, _, he⟩ := h.eng
  simp only [State.creditless, State.hasCredit, State.lock, h.locks, he]

/-- The outlets that a segment of engine `n` starts without: an engine being prepared needs no credit (04 R122, R130). -/
def State.uncredited (s : State) (n : Nat) : List Nat := if s.isPrepared n then [] else s.creditless (s.eng n)

/-- Engine `n` begins its segment in `t`, without the inlets `ins` and the outlets `outs`. -/
structure Started (n : Nat) (ins outs : List Nat) (s t : State) : Prop where
  state : t.engState n = 3
  pc : (t.eng n).pc = 0
  tick : (t.eng n).tick = (s.eng n).tick
  absent : (t.eng n).absent = ins
  dropped : (t.eng n).dropped = outs
  other : ∀ m, m ≠ n → t.eng m = s.eng m
  locks : t.locks = s.locks
  memory : SameMemory s t
  counts : ∀ b, t.rd (ovrCount n b) = min 0xFFFF (s.rd (ovrCount n b) + (if b then outs else ins).length)

theorem State.startSegment_eq (s : State) (n : Nat) : ∃ u, Swapped n s u ∧ s.startSegment n false
    = ((u.setEng n ((u.eng n).begin (s.absentInlets (s.eng n)) (s.uncredited n) false)).setEngState n 3).overruns n
      (s.absentInlets (s.eng n)) (s.uncredited n) := by
  have hu : Swapped n s ((s.swapAtGate n).paramSwapAtGate n) := (s.swapAtGate_swapped n).trans (State.paramSwapAtGate_swapped _ n)
  refine ⟨_, hu, ?_⟩
  rw [State.uncredited, ← hu.absentInlets, ← hu.creditless, ← hu.isPrepared]
  rfl

theorem State.startSegment_started (s : State) (n : Nat) : Started n (s.absentInlets (s.eng n)) (s.uncredited n) s (s.startSegment n false) := by
  obtain ⟨u, hu, heq⟩ := s.startSegment_eq n
  generalize s.absentInlets (s.eng n) = ins at heq ⊢
  generalize s.uncredited n = outs at heq ⊢
  rw [heq]
  obtain ⟨_, _, he⟩ := hu.eng
  let v := (u.setEng n ((u.eng n).begin ins outs false)).setEngState n 3
  have ha : Aside v (v.overruns n ins outs) := v.overruns_aside n ins outs
  have hn : (v.overruns n ins outs).eng n = (u.eng n).begin ins outs false :=
    (State.eng_congr ha.engines n).trans (u.eng_setEng_self n _)
  rw [he] at hn
  refine ⟨?_, (congrArg Engine.pc hn :), (congrArg Engine.tick hn :), (congrArg Engine.absent hn :), (congrArg Engine.dropped hn :), fun m hm => ?_,
    ha.locks.trans hu.locks, SameMemory.of_eq (ha.ssm.trans hu.ssm) (ha.dram.trans hu.dram), fun b => ?_⟩
  · rw [State.engState_overruns]
    exact State.engState_setEngState _ n (by decide)
  · exact (State.eng_congr ha.engines m).trans ((u.eng_setEng_ne _ hm).trans (hu.other m hm))
  · have hoff := ovrCount_offset n
    have hv : v.rd (ovrCount n b) = s.rd (ovrCount n b) := by
      refine State.rd_congr ?_
      rw [ovrCount_addr]
      refine (State.reg_wr_ne _ _ ?_).trans (hu.reg _ ?_)
      · exact (engStatus_ne (by omega) n).symm
      · simp only [R.ENGn_OVR_COUNT, R.ENGn_PAGE, R.ENGn_STATUS, R.ENGn_PARAM, List.mem_cons, List.not_mem_nil, or_false]
        omega
    rw [State.rd_overruns, hv, Nat.min_comm]

/-- With every awaited barge present no inlet is absent. -/
theorem State.absentInlets_nil {e : Engine} (h : s.inletsPresent e = true) : s.absentInlets e = [] := by
  rw [State.inletsPresent, List.all_eq_true] at h
  rw [State.absentInlets, List.filter_eq_nil_iff]
  intro i _
  split <;> rename_i hl
  · next l =>
    have hmem : l ∈ e.inletLocks := by
      obtain ⟨x, hx, rfl⟩ := Option.bind_eq_some_iff.1 hl
      exact List.mem_filterMap.2 ⟨_, List.mem_of_getElem? hx, rfl⟩
    have := h l hmem
    simp [Option.isNone_iff_eq_none, Option.isSome_iff_ne_none.1 this]
  · decide

/-- With a credit in every outlet none is dropped. -/
theorem State.creditless_nil {e : Engine} (h : s.outletsReady e = true) : s.creditless e = [] := by
  rw [State.outletsReady, List.all_eq_true] at h
  rw [State.creditless, List.filter_eq_nil_iff]
  intro i _
  split <;> rename_i hl
  · simpa using h _ (List.mem_of_getElem? hl)
  · decide

theorem State.nothing_missing_of_gateReady (h : s.gateReady n = true) : s.absentInlets (s.eng n) = [] ∧ s.uncredited n = [] := by
  simp only [State.gateReady, Bool.and_eq_true, Bool.or_eq_true] at h
  obtain ⟨⟨-, hin⟩, hout⟩ := h
  refine ⟨State.absentInlets_nil hin, ?_⟩
  unfold State.uncredited
  split
  · rfl
  · next hp => exact State.creditless_nil (hout.resolve_left hp)

end Sys2Proof.Machine
end

section
/-!
The park of a segment and a skipped tick (04 R112, R119 to R123; 05 R160): the states of the engines and the ticks they await through what ends a
segment and through the window accesses served after it.
-/
namespace Sys2Proof.Machine

variable {s₀ s t : State} {n m : Nat}

/-! ## The tick an engine awaits -/

/-- What the gate of an engine waits for: its tick, and whether that tick's deadline has passed. -/
def Engine.awaiting (e : Engine) : Nat × Bool := (e.tick, e.lateNext)

@[simp] theorem Engine.awaiting_put (e : Engine) (r : EngReg) (v : Acc) : (e.put r v).awaiting = e.awaiting := by cases r <;> rfl

@[simp] theorem Engine.awaiting_poke (e : Engine) (page : Nat) (b : Bus) (i : Nat) (v : Sample) : (e.poke page b i v).awaiting = e.awaiting := by
  cases b
  · unfold Engine.poke
    dsimp only
    split_ifs <;> rfl
  · rfl

@[simp] theorem Engine.awaiting_drain (e : Engine) (cur : Nat) (b : Bus) : (e.drain cur b).awaiting = e.awaiting := by
  unfold Engine.drain
  split
  · split
    · rfl
    · exact Engine.awaiting_poke ..
  · split
    · rfl
    · exact Engine.awaiting_poke ..

theorem Engine.awaiting_foldl {α : Type} (l : List α) (f : Engine → α → Engine) (h : ∀ e x, (f e x).awaiting = e.awaiting) (e : Engine) :
    (l.foldl f e).awaiting = e.awaiting := by
  induction l generalizing e with
  | nil => rfl
  | cons x l ih => exact (ih _).trans (h e x)

@[simp] theorem Engine.awaiting_putAll (e : Engine) (rs : List Result) : (e.putAll rs).awaiting = e.awaiting := by
  unfold Engine.putAll
  refine Engine.awaiting_foldl _ _ (fun e _ => ?_) e
  exact Engine.awaiting_foldl _ _ (fun e r => e.awaiting_put _ _) e

@[simp] theorem Engine.awaiting_mature (e : Engine) (k : Nat) : (e.mature k).awaiting = e.awaiting := Engine.awaiting_putAll _ _

@[simp] theorem Engine.awaiting_afterPark (e : Engine) (cur : Nat) : (e.afterPark cur).awaiting = e.awaiting := by
  have hdrained : (((((e.mature 2).drain cur .x).drain cur .x).drain cur .y).drain cur .y).awaiting = e.awaiting := by
    simp only [Engine.awaiting_drain, Engine.awaiting_mature]
  exact hdrained

@[simp] theorem State.awaiting_fillOutlets (s : State) (e : Engine) : (s.fillOutlets e).awaiting = e.awaiting := by
  unfold State.fillOutlets
  refine Engine.awaiting_foldl _ _ (fun e _ => ?_) e
  rfl

theorem State.eng_setEngState (s : State) (n k m : Nat) : (s.setEngState n k).eng m = s.eng m := rfl

/-! ## Gates kept -/

/-- Every engine is in `t` in the state it is in in `s`, and awaits the same tick. -/
structure GatesKept (s t : State) : Prop where
  status : ∀ m, t.reg (R.ENGn_STATUS m) = s.reg (R.ENGn_STATUS m)
  awaiting : ∀ m, (t.eng m).awaiting = (s.eng m).awaiting

theorem GatesKept.refl (s : State) : GatesKept s s := ⟨fun _ => rfl, fun _ => rfl⟩

theorem GatesKept.trans {u : State} (h : GatesKept s t) (h' : GatesKept t u) : GatesKept s u :=
  ⟨fun m => (h'.status m).trans (h.status m), fun m => (h'.awaiting m).trans (h.awaiting m)⟩

theorem GatesKept.engState (h : GatesKept s t) (m : Nat) : t.engState m = s.engState m := State.engState_congr (h.status m)
theorem GatesKept.tick (h : GatesKept s t) (m : Nat) : (t.eng m).tick = (s.eng m).tick := (congrArg Prod.fst (h.awaiting m) :)
theorem GatesKept.lateNext (h : GatesKept s t) (m : Nat) : (t.eng m).lateNext = (s.eng m).lateNext := (congrArg Prod.snd (h.awaiting m) :)

theorem GatesKept.congr (h : GatesKept s₀ s) (hr : t.regs = s.regs) (he : t.engines = s.engines) : GatesKept s₀ t :=
  h.trans ⟨fun m => by simp only [State.reg, hr], fun m => by rw [State.eng_congr he]⟩

theorem GatesKept.ite {p : Prop} [Decidable p] (h : GatesKept s₀ s) (h' : GatesKept s₀ t) : GatesKept s₀ (if p then s else t) := by split <;> assumption

theorem GatesKept.foldl {α : Type} {l : List α} {f : State → α → State} (h : GatesKept s₀ s) (k : ∀ t x, GatesKept s₀ t → GatesKept s₀ (f t x)) :
    GatesKept s₀ (l.foldl f s) := by
  induction l generalizing s with
  | nil => exact h
  | cons x l ih => exact ih (k _ _ h)

theorem GatesKept.of_high (ha : Aside s t) (hr : HighRegs s t) : GatesKept s t :=
  ⟨fun m => hr.reg _ (engStatus_high m), fun m => by rw [State.eng_congr ha.engines]⟩

theorem GatesKept.of_locks (h : LocksOnly s t) : GatesKept s t := (GatesKept.refl s).congr h.regs h.engines

theorem GatesKept.setReg {a : Nat} (v : Word) (ha : a % 0x100 ≠ 0) (h : GatesKept s₀ s) : GatesKept s₀ (s.setReg a v) :=
  h.trans ⟨fun m => State.reg_setReg_ne _ _ (engStatus_ne ha m), fun _ => rfl⟩

theorem GatesKept.wr {f : FieldAt} (v : Nat) (hf : f.addr % 0x100 ≠ 0) (h : GatesKept s₀ s) : GatesKept s₀ (s.wr f v) := h.setReg _ hf
theorem GatesKept.raise {f : FieldAt} (hf : f.addr % 0x100 ≠ 0) (h : GatesKept s₀ s) : GatesKept s₀ (s.raise f) := h.setReg _ hf
theorem GatesKept.bump {f : FieldAt} (k : Nat) (hf : f.addr % 0x100 ≠ 0) (h : GatesKept s₀ s) : GatesKept s₀ (s.bump f k) := h.setReg _ hf

theorem GatesKept.report (source code level : Nat) (h : GatesKept s₀ s) : GatesKept s₀ (s.report source code level) :=
  h.trans (GatesKept.of_high (State.report_aside _ _ _ (Aside.refl s)) (HighRegs.report _ _ _ (HighRegs.refl s)))

theorem GatesKept.setEng {e : Engine} (he : e.awaiting = (s.eng n).awaiting) (h : GatesKept s₀ s) : GatesKept s₀ (s.setEng n e) :=
  h.trans ⟨fun _ => rfl, fun m => by
    by_cases hm : m = n
    · rw [hm, State.eng_setEng_self, he]
    · rw [State.eng_setEng_ne _ _ hm]⟩

theorem engEvent_ne (n : Nat) : R.ENGn_INT_STATUS n % 0x100 ≠ 0 := by rw [engEvent_offset]; decide

theorem GatesKept.engFault (n code level : Nat) (h : GatesKept s₀ s) : GatesKept s₀ (s.engFault n code level) :=
  GatesKept.report _ _ _ (h.raise (f := bitAt (R.ENGn_INT_STATUS n) code) (engEvent_ne n))

/-! ## Window accesses (04 R109 to R111, R126) -/

theorem GatesKept.engEcc (n : Nat) (e : Ecc) (h : GatesKept s₀ s) : GatesKept s₀ (s.engEcc n e) := by
  have hcount : R.ENGn_ECC_COUNT n % 0x100 ≠ 0 := by simp only [R.ENGn_ECC_COUNT]; omega
  cases e with
  | clean => exact h
  | corrected => exact (h.bump (f := lowHalf _) 1 hcount).engFault _ _ _
  | uncorrectable =>
    have hfaulty : GatesKept s₀ (s.setEng n { s.eng n with faulty := true }) := h.setEng rfl
    exact (hfaulty.bump (f := highHalf _) 1 hcount).engFault _ _ _

theorem GatesKept.windowRead (n o : Nat) (h : GatesKept s₀ s) : GatesKept s₀ (s.windowRead n o).2 := by
  unfold State.windowRead
  split_ifs
  · exact h.congr rfl rfl
  · exact h
  · exact h
  · exact h

theorem GatesKept.windowPut (n o : Nat) (v : Word) (h : GatesKept s₀ s) : GatesKept s₀ (s.windowPut n o v) := by
  unfold State.windowPut
  extract_lets a old low i e
  have he : e.awaiting = (s.eng n).awaiting := Engine.awaiting_poke ..
  split
  · split
    · exact h.congr rfl rfl
    · have hprog : GatesKept s₀ (s.setProgWord n (o / 8) (v.setWidth 16 ++ low)) := h.setEng rfl
      exact hprog.congr rfl rfl
  · split
    · refine h.setEng ?_
      split
      · exact he
      · exact he
    · exact h.setEng (Engine.awaiting_poke ..)

theorem GatesKept.answer (data : List Word) (r : Response) (h : GatesKept s₀ s) : GatesKept s₀ (s.answer data r) := h.congr rfl rfl

theorem GatesKept.defaultTarget (m addr target : Nat) (write : Bool) (cause : Nat) (h : GatesKept s₀ s) :
    GatesKept s₀ (s.defaultTarget m addr target write cause) := by
  have hcount : GatesKept s₀ (s.bump (lowHalf R.XBAR_ERR_COUNT)) := h.bump 1 (by decide)
  have hlatched (lo hi info : Word) : GatesKept s₀ ((((s.bump (lowHalf R.XBAR_ERR_COUNT)).setReg R.XBAR_ERR_ADDR_LO lo).setReg R.XBAR_ERR_ADDR_HI hi).setReg
      R.XBAR_ERR_INFO info) := ((hcount.setReg lo (by decide)).setReg hi (by decide)).setReg info (by decide)
  exact (hcount.ite (((hlatched _ _ _).raise (by decide)).report _ _ _)).answer _ _

theorem GatesKept.dataError (data : List Word) (h : GatesKept s₀ s) : GatesKept s₀ (s.dataError data) :=
  GatesKept.answer _ _ (GatesKept.raise (by decide) (h.bump 1 (by decide)))

theorem GatesKept.windowWrite (m n o : Nat) (v : Word) (h : GatesKept s₀ s) : GatesKept s₀ (s.windowWrite m n o v) :=
  (h.defaultTarget _ _ _ _ _).ite (((h.raise (engEvent_ne n)).answer _ _).ite ((h.windowPut n o v).answer _ _))

theorem GatesKept.emPut (m n : Nat) (ws : List Word) (o : Nat) (h : GatesKept s₀ s) : GatesKept s₀ (s.emPut m n o ws) := by
  induction ws generalizing s o with
  | nil => exact h
  | cons v ws ih =>
    have hw := h.windowWrite m n o v
    exact (ih _ hw).ite hw

theorem GatesKept.serveWindow (w : WindowWait) (h : GatesKept s₀ s) : GatesKept s₀ (s.serveWindow w) := by
  unfold State.serveWindow
  split
  · exact h.emPut _ _ _ _
  · have hread := (h.engEcc w.engine w.ecc).windowRead w.engine w.offset
    have hanswer (v : Word) := (hread.dataError [v]).ite (p := w.ecc = .uncorrectable) (hread.answer [v] .okay)
    exact GatesKept.ite ((hanswer _).congr rfl rfl) (hanswer _)

theorem GatesKept.serveWaits (n : Nat) (h : GatesKept s₀ s) : GatesKept s₀ (s.serveWaits n) :=
  h.ite (GatesKept.foldl (h.congr rfl rfl) fun _ _ ht => ht.foldl fun _ w hu => hu.serveWindow w)

/-! ## Substitutions (04 R130, R562) -/

/-- Only the substitution units and registers beside the engines' own states differ. -/
structure SubOnly (s t : State) : Prop where
  rest : { t with regs := s.regs, substs := s.substs } = s
  status : ∀ m, t.reg (R.ENGn_STATUS m) = s.reg (R.ENGn_STATUS m)

theorem SubOnly.refl (s : State) : SubOnly s s := ⟨rfl, fun _ => rfl⟩
theorem SubOnly.engines (h : SubOnly s t) : t.engines = s.engines := (congrArg State.engines h.rest :)
theorem SubOnly.sameMemory (h : SubOnly s t) : SameMemory s t := SameMemory.of_eq (congrArg State.ssm h.rest :) (congrArg State.dram h.rest :)

theorem SubOnly.gatesKept (h : SubOnly s t) : GatesKept s t := ⟨h.status, fun m => by rw [State.eng_congr h.engines]⟩

theorem SubOnly.setReg {a : Nat} (v : Word) (ha : a % 0x100 ≠ 0) (h : SubOnly s₀ s) : SubOnly s₀ (s.setReg a v) :=
  ⟨h.rest, fun m => (State.reg_setReg_ne _ _ (engStatus_ne ha m)).trans (h.status m)⟩

theorem SubOnly.setSub (u : Nat) (x : Subst) (h : SubOnly s₀ s) : SubOnly s₀ (s.setSub u x) := ⟨h.rest, h.status⟩

theorem SubOnly.ite {p : Prop} [Decidable p] (h : SubOnly s₀ s) (h' : SubOnly s₀ t) : SubOnly s₀ (if p then s else t) := by split <;> assumption

theorem subStatus_ne (u : Nat) : (subF u R.ENG_SUB0_STATUS_count).addr % 0x100 ≠ 0 := by
  simp only [subF, R.ENG_SUB0_STATUS_count, R.ENG_SUB0_STATUS]
  omega

theorem SubOnly.judgeCopy (u : Nat) (a b : SegEnd) (h : SubOnly s₀ s) : SubOnly s₀ (s.judgeCopy u a b) :=
  SubOnly.ite (((h.setReg _ (subStatus_ne u)).setReg _ (by decide : R.ENG_SUB_INT_STATUS % 0x100 ≠ 0)).setReg _ (subStatus_ne u))
    (h.setReg _ (subStatus_ne u))

theorem SubOnly.foldl {α : Type} {l : List α} {f : State → α → State} (h : SubOnly s₀ s) (k : ∀ t x, SubOnly s₀ t → SubOnly s₀ (f t x)) :
    SubOnly s₀ (l.foldl f s) := by
  induction l generalizing s with
  | nil => exact h
  | cons x l ih => exact ih (k _ _ h)

theorem State.subSegment_subOnly (s : State) (n : Nat) (e : SegEnd) : SubOnly s (s.subSegment n e) := by
  unfold State.subSegment
  refine (SubOnly.refl s).foldl fun t u ht => ?_
  split_ifs
  · exact ht
  · exact ht.setReg _ (subStatus_ne u)
  · exact ht.setReg _ (subStatus_ne u)
  · exact ht
  · split
    · exact (ht.setSub _ _).judgeCopy u _ _
    · exact ht.setSub _ _
  · split
    · exact (ht.setSub _ _).judgeCopy u _ _
    · exact ht.setSub _ _
  · exact ht

/-! ## The park (04 R112, R120; 05 R159, R160) -/

theorem GatesKept.commitOutlet (n i : Nat) (h : GatesKept s₀ s) : GatesKept s₀ (s.commitOutlet n i) := by
  unfold State.commitOutlet
  extract_lets e
  split
  · exact h
  · next l _ =>
    have hlocks : LocksOnly s (if s.isPrepared n then s else s.commit l ⟨e.tick, e.sentWords i⟩) := by
      split
      · exact LocksOnly.refl s
      · exact (LocksOnly.refl s).commit _ _
    refine h.ite (GatesKept.setEng ?_ (h.trans (GatesKept.of_locks hlocks)))
    rw [hlocks.eng]
    rfl

theorem GatesKept.parkFlags (n : Nat) (sr : BitVec 16) (h : GatesKept s₀ s) : GatesKept s₀ (s.parkFlags n sr) := by
  have hsat : GatesKept s₀ (if sr.getLsbD 5 then s.raise (R.ENGn_INT_STATUS_sat n) else s) := (h.raise (engEvent_ne n)).ite h
  exact (hsat.raise (engEvent_ne n)).ite hsat

/-- The inlets of a parked segment leave with their credits (04 R120). -/
theorem LocksOnly.leaveInlets (e : Engine) (h : LocksOnly s₀ s) : LocksOnly s₀ (e.inletLocks.foldl (fun s l =>
    if (e.absent.any fun i => e.inletLock i == some l) then s.giveUp l e.tick else s.consume l e.tick) s) :=
  h.foldl fun t l ht => by
    split
    · exact ht.giveUp _ _
    · exact ht.consume _ _

/-- A park whose successor is not late leaves the engine at its gate or held, for the next tick. -/
theorem State.endSegment_gate (s : State) (n : Nat) (h : (s.eng n).lateNext = false) :
    ((s.endSegment n).eng n).tick = (s.eng n).tick + 1 ∧ ((s.endSegment n).engState n = 2 ∨ (s.endSegment n).engState n = 4) := by
  unfold State.endSegment
  extract_lets e short s₁ s₂ s₃ s₄ s₅ s₆ s₇ s₈ e' s₉
  have h₁ : GatesKept s s₁ := (GatesKept.refl s).parkFlags n _
  have h₂ : GatesKept s s₂ := (h₁.engFault n 3 2).ite h₁
  have h₃ : GatesKept s s₃ := by
    refine h₂.setEng ?_
    rw [State.awaiting_fillOutlets, Engine.awaiting_afterPark, h₂.awaiting]
  have h₄ : GatesKept s s₄ := h₃.foldl fun _ i ht => ht.commitOutlet n i
  have h₅ : GatesKept s s₅ := h₄.trans (s₄.subSegment_subOnly n _).gatesKept
  have h₆ : GatesKept s s₆ := h₅.trans (GatesKept.of_locks ((LocksOnly.refl s₅).leaveInlets e))
  have h₇ : GatesKept s s₇ := (h₆.setReg _ (by simp only [R.ENGn_TICK_LO]; omega)).setReg _ (by simp only [R.ENGn_TICK_HI]; omega)
  have h₈ : GatesKept s s₈ := h₇.wr _ (by simp only [R.ENGn_CYC_LAST]; omega)
  have hlate : e'.lateNext = false := (h₈.lateNext n).trans h
  have hawaited : e'.tick = (s.eng n).tick := h₈.tick n
  have htick : (s₉.eng n).tick = (s.eng n).tick + 1 := by
    rw [State.eng_setEng_self]
    exact congrArg (· + 1) hawaited
  clear_value s₉ e'
  rw [hlate, if_neg Bool.false_ne_true]
  split
  · exact ⟨by rw [State.eng_setEngState, htick], .inr (State.engState_setEngState _ _ (by decide))⟩
  · exact ⟨by rw [State.eng_setEngState, htick], .inl (State.engState_setEngState _ _ (by decide))⟩

/-! ## A skipped tick (04 R123) -/

/-- Engine `n` passes over its awaited tick. -/
structure Skipped (n : Nat) (s t : State) : Prop where
  tick : (t.eng n).tick = (s.eng n).tick + 1
  status : ∀ m, t.reg (R.ENGn_STATUS m) = s.reg (R.ENGn_STATUS m)
  other : ∀ m, m ≠ n → t.eng m = s.eng m
  memory : SameMemory s t

theorem Skipped.engState (h : Skipped n s t) (m : Nat) : t.engState m = s.engState m := State.engState_congr (h.status m)

theorem SameMemory.trans {u : State} (h : SameMemory s t) (h' : SameMemory t u) : SameMemory s u :=
  fun o => ⟨(h' o).1.trans (h o).1, (h' o).2.trans (h o).2⟩

theorem State.setEng_sameMemory (s : State) (n : Nat) (e : Engine) : SameMemory s (s.setEng n e) := SameMemory.of_eq rfl rfl

/-- An engine whose next tick has been set and reported late. -/
theorem State.engFault_skipped {e : Engine} (he : e.tick = (s.eng n).tick + 1) : Skipped n s ((s.setEng n e).engFault n 2 2) := by
  have haside : Aside (s.setEng n e) ((s.setEng n e).engFault n 2 2) := State.report_aside _ _ _ (State.raise_aside _ (Aside.refl _))
  have hfault := (GatesKept.refl (s.setEng n e)).engFault n 2 2
  refine ⟨?_, hfault.status, fun m hm => ?_, (s.setEng_sameMemory n e).trans (SameMemory.of_eq haside.ssm haside.dram)⟩
  · rw [hfault.tick, State.eng_setEng_self, he]
  · rw [State.eng_congr haside.engines, State.eng_setEng_ne _ _ hm]

theorem State.skipTick_skipped (s : State) (n : Nat) : Skipped n s (s.skipTick n) := by
  unfold State.skipTick
  extract_lets e s₁ e₁ e₂
  have hlocks : LocksOnly s (s.giveUpInlets e) := (LocksOnly.refl s).giveUpInlets e
  have hsub : SubOnly (s.giveUpInlets e) s₁ := State.subSegment_subOnly _ _ _
  have heng (m : Nat) : s₁.eng m = s.eng m := (State.eng_congr hsub.engines m).trans (hlocks.eng m)
  have hskip : Skipped n s₁ ((s₁.setEng n e₂.countFails).engFault n 2 2) := State.engFault_skipped rfl
  exact ⟨by rw [hskip.tick, heng], fun m => (hskip.status m).trans ((hsub.status m).trans (hlocks.reg _)),
    fun m hm => (hskip.other m hm).trans (heng m), (hlocks.sameMemory.trans hsub.sameMemory).trans hskip.memory⟩

/-- A forced park ends the segment and passes over the tick after it (05 R160). -/
theorem State.forcedPark_gate (s : State) (n : Nat) :
    ((s.forcedPark n).eng n).tick = (s.eng n).tick + 2 ∧ (s.forcedPark n).engState n ≠ 3 := by
  unfold State.forcedPark
  extract_lets e s₁
  have hself : (s.setEng n { e with lateNext := false, faulty := true }).eng n = { e with lateNext := false, faulty := true } := State.eng_setEng_self ..
  obtain ⟨htick, hstate⟩ := State.endSegment_gate (s.setEng n { e with lateNext := false, faulty := true }) n (congrArg Engine.lateNext hself :)
  have hskip := s₁.skipTick_skipped n
  have hserved := (GatesKept.refl (s₁.skipTick n)).serveWaits n
  constructor
  · rw [hserved.tick, hskip.tick, htick, hself]
  · rw [hserved.engState, hskip.engState]
    rcases hstate with h | h <;> rw [h] <;> decide
end Sys2Proof.Machine
end

section
/-!
The gate, deadline, strobe and outlet commands of an engine (04 R118 to R124; 05 R160), by the operations they come to.
-/
namespace Sys2Proof.Machine

variable {s t : State} {n : Nat}

/-! ## Starts (04 R118, R122) -/

theorem LocksOnly.isPrepared (h : LocksOnly s t) (n : Nat) : t.isPrepared n = s.isPrepared n := State.isPrepared_congr h.substs (fun _ => h.reg _) n

/-- What a start from the gate comes to: older barges go first. -/
theorem State.startSegment_dropOlder (s : State) (n : Nat) : Started n ((s.dropOlder (s.eng n)).absentInlets (s.eng n))
    ((s.dropOlder (s.eng n)).uncredited n) (s.dropOlder (s.eng n)) ((s.dropOlder (s.eng n)).startSegment n false) := by
  have h := (s.dropOlder (s.eng n)).startSegment_started n
  rwa [((LocksOnly.refl s).dropOlder (s.eng n)).eng n] at h

theorem State.uncredited_of_not_prepared (hp : s.isPrepared n = false) :
    (s.dropOlder (s.eng n)).uncredited n = (s.dropOlder (s.eng n)).creditless (s.eng n) := by
  have hw := (LocksOnly.refl s).dropOlder (s.eng n)
  rw [State.uncredited, hw.isPrepared, hp, hw.eng]
  rfl

/-! ## Held engines (04 R124) -/

/-- The barges of zeros a held engine commits for its tick. -/
def State.commitZeros (s : State) (e : Engine) : State := (List.range e.outlets.length).foldl (fun s i => match e.outlets[i]? with
  | some l => s.commit l ⟨e.tick, List.replicate (s.outletSize e i) 0⟩
  | none => s) s

theorem LocksOnly.commitZeros {s₀ : State} (e : Engine) (h : LocksOnly s₀ s) : LocksOnly s₀ (s.commitZeros e) :=
  h.foldl fun t i ht => by
    split
    · exact ht.commit _ _
    · exact ht

theorem State.heldTick_eq (s : State) (n : Nat) : s.heldTick n
    = ((s.giveUpInlets (s.eng n)).commitZeros (s.eng n)).setEng n ({ s.eng n with tick := (s.eng n).tick + 1 } : Engine).countFails := by
  have h := ((LocksOnly.refl s).giveUpInlets (s.eng n)).commitZeros (s.eng n)
  have hheld : s.heldTick n = ((s.giveUpInlets (s.eng n)).commitZeros (s.eng n)).setEng n ({ ((s.giveUpInlets (s.eng n)).commitZeros (s.eng n)).eng n with
      tick := (((s.giveUpInlets (s.eng n)).commitZeros (s.eng n)).eng n).tick + 1 } : Engine).countFails := rfl
  rw [hheld, h.eng n]

theorem State.commitZeros_single {e : Engine} {l : Nat} {k : Lock} (he : e.outlets = [l]) (h : s.lock l = some k) :
    s.commitZeros e = s.commit l ⟨e.tick, List.replicate (s.bargeWords k) 0⟩ := by
  have hsize : s.outletSize e 0 = s.bargeWords k := by simp only [State.outletSize, he, List.getElem?_cons_zero, h]
  simp [State.commitZeros, he, hsize]

theorem State.commitZeros_none {e : Engine} (he : e.outlets = []) : s.commitZeros e = s := by simp [State.commitZeros, he]

theorem State.giveUpInlets_none {e : Engine} (he : e.inletLocks = []) : s.giveUpInlets e = s := by simp [State.giveUpInlets, he]

theorem State.giveUpInlets_absent {e : Engine} {l : Nat} {k : Lock} (he : e.inletLocks = [l]) (h : s.lock l = some k) (ha : s.awaits l e.tick = none) :
    s.giveUpInlets e = s.setLock l { k with missed := k.missed ++ [e.tick] } := by
  simp [State.giveUpInlets, State.giveUp, he, h, ha]

/-! ## Outlets (04 R119) -/

theorem State.commitOutlet_of_credit {i l : Nat} (hl : (s.eng n).outlets[i]? = some l) (hc : (s.eng n).committed.contains i = false)
    (hd : (s.eng n).dropped.contains i = false) (hp : s.isPrepared n = false) : s.commitOutlet n i
      = (s.commit l ⟨(s.eng n).tick, (s.eng n).sentWords i⟩).setEng n
        { s.eng n with committed := (s.eng n).committed ++ [i], lastCommit := (s.eng n).cycles } := by
  simp only [State.commitOutlet, hl, hc, hd, hp, Bool.or_self]
  rfl

/-! ## Strobes (04 R123, R135) -/

theorem slackMin_ne (n : Nat) : R.ENGn_SLACK_MIN n % 0x100 ≠ 0 := by simp only [R.ENGn_SLACK_MIN]; omega

/-- An offer to the least slack leaves everything but its register. -/
theorem State.least_slack (s : State) (n v : Nat) : GatesKept s (s.least ⟨R.ENGn_SLACK_MIN n, 0, 20⟩ v) ∧
    (s.least ⟨R.ENGn_SLACK_MIN n, 0, 20⟩ v).engines = s.engines ∧ SameMemory s (s.least ⟨R.ENGn_SLACK_MIN n, 0, 20⟩ v) := by
  unfold State.least
  split
  · exact ⟨(GatesKept.refl s).wr _ (slackMin_ne n), rfl, SameMemory.of_eq rfl rfl⟩
  · exact ⟨GatesKept.refl s, rfl, SameMemory.of_eq rfl rfl⟩

/-! ## The commands -/

section
variable {n : EngIx} (hh : s.halted = false) (hd : s.engDomain n < 3)

theorem exec_engineGateOpen (hh : s.halted = false) : exec (.engineGateOpen n) s
    = .next (if (s.dropOlder (s.eng n)).gateReady n then (s.dropOlder (s.eng n)).startSegment n false else s.dropOlder (s.eng n)) := by
  simp only [exec, execEngineGateOpen, hh]
  rfl

theorem exec_engineOutletCommit {o : Fin 16} (hr : s.engRuns n = true) (hlt : o.val < (s.eng n).outlets.length)
    (hsize : s.outletSize (s.eng n) o ≤ ((s.eng n).sentWords o).length) : exec (.engineOutletCommit n o) s = .next (s.commitOutlet n o) := by
  simp [exec, execEngineOutletCommit, hr, hlt, hsize]

include hh hd

theorem engineRuns_domain : ¬ (s.halted = true ∨ s.engDomain n = 3) := by simp [hh, Nat.ne_of_lt hd]

theorem exec_engineStartDeadline_gate (hs : s.engState n = 2) (hb : (s.eng n).tick + 1 ≤ s.tick (s.engDomain n)) :
    exec (.engineStartDeadline n) s = .next ((s.dropOlder (s.eng n)).startSegment n false) := by
  simp only [exec, execEngineStartDeadline, if_neg (engineRuns_domain hh hd), hs, hb, and_self, if_true]

theorem exec_engineStartDeadline_running (hs : s.engState n = 3) (hb : (s.eng n).tick + 1 < s.tick (s.engDomain n)) :
    exec (.engineStartDeadline n) s = .next (s.setEng n { s.eng n with lateNext := true }) := by
  simp [exec, execEngineStartDeadline, if_neg (engineRuns_domain hh hd), hs, hb]

theorem exec_engineStartDeadline_held (hs : s.engState n = 4) (hb : (s.eng n).tick + 1 ≤ s.tick (s.engDomain n)) :
    exec (.engineStartDeadline n) s = .next (s.heldTick n) := by
  simp [exec, execEngineStartDeadline, if_neg (engineRuns_domain hh hd), hs, hb]

theorem exec_engineTickStrobe_running {slack : Nat} (hs : s.engState n = 3) (hb : s.tick (s.engDomain n) < (s.eng n).tick + 3) :
    exec (.engineTickStrobe n slack) s = .next (s.least ⟨R.ENGn_SLACK_MIN n, 0, 20⟩ slack) := by
  have heng := State.eng_congr (s.least_slack n slack).2.1 n
  simp [exec, execEngineTickStrobe, if_neg (engineRuns_domain hh hd), hs, heng, Nat.not_le.2 hb]

theorem exec_engineTickStrobe_behind {slack : Nat} (hs : s.engState n = 3) (hb : (s.eng n).tick + 3 ≤ s.tick (s.engDomain n)) :
    exec (.engineTickStrobe n slack) s = .next ((s.least ⟨R.ENGn_SLACK_MIN n, 0, 20⟩ slack).forcedPark n) := by
  have heng := State.eng_congr (s.least_slack n slack).2.1 n
  simp [exec, execEngineTickStrobe, if_neg (engineRuns_domain hh hd), hs, heng, hb]

/-- An engine still at its gate, or at its relock, passes over the tick; one at its gate is offered the slack first. -/
theorem exec_engineTickStrobe_gate {slack : Nat} (hs : s.engState n = 1 ∨ s.engState n = 2) (hb : (s.eng n).tick + 2 ≤ s.tick (s.engDomain n)) :
    ∃ u, GatesKept s u ∧ u.engines = s.engines ∧ SameMemory s u ∧ exec (.engineTickStrobe n slack) s = .next (u.skipTick n) := by
  rcases hs with hs | hs
  · exact ⟨s, GatesKept.refl s, rfl, SameMemory.of_eq rfl rfl, by simp [exec, execEngineTickStrobe, if_neg (engineRuns_domain hh hd), hs, hb]⟩
  · obtain ⟨hkept, hengines, hmemory⟩ := s.least_slack n slack
    have heng := State.eng_congr hengines n
    exact ⟨_, hkept, hengines, hmemory, by simp [exec, execEngineTickStrobe, if_neg (engineRuns_domain hh hd), hs, heng, hb]⟩
end

/-! ## The statement -/

theorem completes_engineGateOpen {n : EngIx} (hh : s.halted = false) (hg : (s.dropOlder (s.eng n)).gateReady n = true) :
    Completes (.engineGateOpen n) s fun t => t.engState n = 3 ∧ (t.eng n).pc = 0 ∧ (t.eng n).tick = (s.eng n).tick ∧ (t.eng n).absent = [] ∧
      (t.eng n).dropped = [] ∧ t.locks = (s.dropOlder (s.eng n)).locks ∧ SameMemory s t ∧ ∀ m : EngIx, m ≠ n → t.eng m = s.eng m := by
  have hw := (LocksOnly.refl s).dropOlder (s.eng n)
  have hstart := s.startSegment_dropOlder n
  obtain ⟨hin, hout⟩ := State.nothing_missing_of_gateReady hg
  rw [hw.eng] at hin
  rw [hin, hout] at hstart
  exact ⟨_, by rw [exec_engineGateOpen hh, if_pos hg], hstart.state, hstart.pc, hstart.tick.trans (by rw [hw.eng]), hstart.absent, hstart.dropped,
    hstart.locks, hw.sameMemory.trans hstart.memory, fun m hm => (hstart.other m fun h => hm (Fin.ext h)).trans (hw.eng m)⟩

theorem completes_engineTickStrobe_gate {n : EngIx} {slack : Nat} (hh : s.halted = false) (hd : s.engDomain n < 3)
    (hs : s.engState n = 1 ∨ s.engState n = 2) (hb : (s.eng n).tick + 2 ≤ s.tick (s.engDomain n)) :
    Completes (.engineTickStrobe n slack) s fun t => (t.eng n).tick = (s.eng n).tick + 1 ∧ t.engState n = s.engState n ∧ SameMemory s t ∧
      ∀ m : EngIx, m ≠ n → t.eng m = s.eng m := by
  obtain ⟨u, hkept, hengines, hmemory, hexec⟩ := exec_engineTickStrobe_gate (slack := slack) hh hd hs hb
  have hskip := u.skipTick_skipped n
  exact ⟨_, hexec, by rw [hskip.tick, hkept.tick], by rw [hskip.engState, hkept.engState], hmemory.trans hskip.memory,
    fun m hm => (hskip.other m fun h => hm (Fin.ext h)).trans (State.eng_congr hengines m)⟩

end Sys2Proof.Machine
end

section
open Sys2Proof Sys2Proof.Machine

/-- Settles O21: a start is described by `Started`, a skipped tick by `Skipped`, a park by the gate it leaves its engine at, and a held tick by the
locks it writes. -/
theorem engineGatesAndDeadlines : Obligations.EngineGatesAndDeadlines := by
  unfold Obligations.EngineGatesAndDeadlines
  intro s n hh hd e b w slack0
  have hw : LocksOnly s (s.dropOlder (s.eng n)) := (LocksOnly.refl s).dropOlder e
  refine ⟨fun hg => completes_engineGateOpen hh hg, fun hg => ?_, fun hs hb hp => ?_, fun hs hb => exec_engineStartDeadline_running hh hd hs hb,
    fun hs hb => ?_, fun slack hs hb => exec_engineTickStrobe_running hh hd hs hb, fun slack hs hb => ?_,
    fun slack hs hb => completes_engineTickStrobe_gate hh hd hs hb, fun o l hs hl hsize hc hdr hp => ?_⟩
  case refine_1 => rw [exec_engineGateOpen hh, if_neg (by simpa using hg)]
  case refine_2 =>
    have hstart := s.startSegment_dropOlder n
    rw [State.uncredited_of_not_prepared hp] at hstart
    have hcount (out : Bool) := hstart.counts out
    simp only [hw.rd] at hcount
    exact ⟨_, exec_engineStartDeadline_gate hh hd hs hb, hstart.state, hstart.pc, hstart.tick.trans (by rw [hw.eng]), hstart.absent, hstart.dropped,
      hstart.locks, hcount false, hcount true⟩
  case refine_3 =>
    have hlocks := ((LocksOnly.refl s).giveUpInlets e).commitZeros e
    rw [Completes, exec_engineStartDeadline_held hh hd hs hb, State.heldTick_eq]
    refine ⟨_, rfl, ?_, hlocks.regs, hlocks.sameMemory, fun m hm => ?_, fun l k ho hi hl hcredit => ?_, fun l k ho hi hl ha => ?_⟩
    · rw [State.eng_setEng_self]
      rfl
    · rw [State.eng_setEng_ne _ _ fun h => hm (Fin.ext h)]
      exact hlocks.eng m
    · rw [State.giveUpInlets_none hi, State.commitZeros_single ho hl, State.commit_of_credit hl hcredit]
      exact State.lock_setLock_self ..
    · rw [State.giveUpInlets_absent hi hl ha, State.commitZeros_none ho]
      exact State.lock_setLock_self ..
  case refine_4 =>
    obtain ⟨hkept, -, -⟩ := s.least_slack n slack
    obtain ⟨htick, hstate⟩ := (s.least ⟨R.ENGn_SLACK_MIN n, 0, 20⟩ slack).forcedPark_gate n
    exact ⟨_, exec_engineTickStrobe_behind hh hd hs hb, by rw [htick, hkept.tick], hstate⟩
  case refine_5 =>
    have hlt : o.val < e.outlets.length := (List.getElem?_eq_some_iff.1 hl).1
    have hruns : s.engRuns n = true := by simp [State.engRuns, hs, hh]
    rw [exec_engineOutletCommit hruns hlt hsize, State.commitOutlet_of_credit hl hc hdr hp]
end

section
/-!
Requests for modes (03 R90, R97, R101, R104): what a write of CFG_MODE_REQ refuses and leaves requested, and what the staging it starts or ends
reaches.
-/
namespace Sys2Proof.Machine

variable {s₀ s t u : State} {r : BitVec 12} {m : Nat}

/-! ## Bits -/

/-- A one-bit field is the bit of its register. -/
theorem State.is_bitAt (s : State) (a i : Nat) : s.is (bitAt a i) = (s.reg a).getLsbD i := by
  have h := getBits_testBit (s.reg a) i 1 0
  have hlt := getBits_lt (s.reg a) i 1
  simp only [Nat.add_zero, Nat.zero_lt_one, decide_true, Bool.true_and] at h
  rw [← h]
  change (getBits (s.reg a) i 1 == 1) = _
  generalize getBits (s.reg a) i 1 = n at *
  interval_cases n <;> rfl

/-- Raising an event leaves the others of its register. -/
theorem State.getLsbD_raise (s : State) (a i j : Nat) (hj : j < 32) :
    ((s.raise (bitAt a i)).reg a).getLsbD j = (decide (j = i) || (s.reg a).getLsbD j) := by
  have hreg : (s.raise (bitAt a i)).reg a = putBits (s.reg a) i 1 1 := (s.reg_wr (bitAt a i) 1 a).trans (if_pos rfl)
  rw [hreg, putBits_getLsbD _ _ _ _ _ hj]
  by_cases h : j = i
  · subst h
    simp
  · rw [if_neg (by omega)]
    simp [h]

@[simp] theorem hasMode_or (v w : BitVec 12) (m : Nat) : hasMode (v ||| w) m = (hasMode v m || hasMode w m) := BitVec.getLsbD_or
@[simp] theorem hasMode_and (v w : BitVec 12) (m : Nat) : hasMode (v &&& w) m = (hasMode v m && hasMode w m) := BitVec.getLsbD_and
@[simp] theorem hasMode_zero (m : Nat) : hasMode 0#12 m = false := BitVec.getLsbD_zero

theorem hasMode_not (v : BitVec 12) (hm : m < 12) : hasMode (~~~v) m = !hasMode v m := by simp [hasMode, hm]

theorem hasMode_modeBit (k : Nat) (hm : m < 12) : hasMode (modeBit k) m = decide (m = k) := by
  rw [hasMode, modeBit, BitVec.getLsbD_ofNat, Nat.testBit_two_pow]
  simp [hm, eq_comm]

/-- Modes collected one by one. -/
theorem hasMode_foldl_modeBit (p : Nat → Bool) (l : List Nat) (v : BitVec 12) (hm : m < 12) :
    hasMode (l.foldl (fun v k => if p k then v ||| modeBit k else v) v) m = (hasMode v m || l.contains m && p m) := by
  induction l generalizing v with
  | nil => simp
  | cons k l ih =>
    rw [List.foldl_cons, ih]
    by_cases hp : p k <;> by_cases hk : m = k <;> simp_all [hasMode_modeBit]

/-- The group bits and the others, taken from two words. -/
theorem joined_group (v w : BitVec 12) : (v &&& 0xFF8 ||| w &&& 7) &&& 7 = w &&& 7 := by
  rw [BitVec.and_or_distrib_right, BitVec.and_assoc, BitVec.and_assoc, BitVec.and_self]
  simp

theorem hasMode_joined (v w : BitVec 12) (hm : m < 12) (h3 : 3 ≤ m) : hasMode (v &&& 0xFF8 ||| w &&& 7) m = hasMode v m := by
  have h7 : hasMode 7#12 m = false ∧ hasMode 0xFF8#12 m = true := by interval_cases m <;> decide
  simp [h7]

/-! ## Refusals (03 R90, R104) -/

/-- Mode `m` of the request `r` is refused, the pair entered as STANDBY apart. -/
def State.refusesMode (s : State) (r : BitVec 12) (m : Nat) : Bool :=
  hasMode r m && ((!hasMode s.modeReq m && s.modeAbsent m) || (m == 6 && (s.holds 7 || (hasMode r 7 && !s.holds 6))) || (m == 7 && s.holds 6))

theorem State.hasMode_refusals (hside : (hasMode r 1 || hasMode r 2) = true → s.wantsSolo = true → s.modeAbsent 2 = false) (hm : m < 12) :
    hasMode (s.refusals r) m = s.refusesMode r m := by
  have hno : ¬((hasMode r 1 || hasMode r 2) && s.wantsSolo && s.modeAbsent 2) = true := by
    simp only [Bool.and_eq_true, not_and, and_imp]
    intro hpair hsolo
    simp [hside hpair hsolo]
  have hbit (c : Bool) (k : Nat) : hasMode (if c = true then modeBit k else 0#12) m = (c && decide (m = k)) := by
    cases c
    · simp
    · simp [hasMode_modeBit k hm]
  simp only [State.refusals, if_neg hno, hasMode_or, hbit, BitVec.ofNat_eq_ofNat, hasMode_zero, hasMode_foldl_modeBit _ _ _ hm, State.refusesMode]
  have hin : (List.range 12).contains m = true := by simpa using hm
  rw [hin]
  by_cases h6 : m = 6
  · subst h6
    cases hasMode r 6 <;> simp
  · by_cases h7 : m = 7
    · subst h7
      cases hasMode r 7 <;> simp
    · simp [h6, h7, beq_eq_false_iff_ne.2 h6, beq_eq_false_iff_ne.2 h7, Bool.and_assoc]

/-! ## What is left requested (03 R101; log entry 107) -/

/-- The request that a write of `r` leaves. -/
def State.requestLeft (s : State) (r : BitVec 12) : BitVec 12 := ((r &&& ~~~ s.refusals r) &&& 0xFF8) ||| s.groupRequest r (s.refusals r)

/-- The group side stays as it is where the write does not ask for one side. -/
theorem State.requestLeft_group_kept (h : hasMode r 0 = (hasMode r 1 || hasMode r 2)) : s.requestLeft r &&& 7 = s.modeReq &&& 7 := by
  have hg : s.groupRequest r (s.refusals r) = s.modeReq &&& 7 := if_pos (by simp [h])
  rw [State.requestLeft, hg, joined_group]

/-- The group side is the one asked for where its overlay is there. -/
theorem State.requestLeft_group (h : hasMode r 0 ≠ (hasMode r 1 || hasMode r 2)) (hno : ∀ m < 3, hasMode (s.refusals r) m = false) :
    s.requestLeft r &&& 7 = r &&& 7 := by
  have hfree : r &&& s.refusals r &&& 7 = 0 := by
    apply BitVec.eq_of_getLsbD_eq
    intro i hi
    change hasMode _ i = hasMode _ i
    rw [hasMode_and, hasMode_and]
    by_cases h3 : i < 3
    · simp [hno i h3]
    · have h7 : hasMode 7#12 i = false := by
        rw [hasMode, BitVec.getLsbD_ofNat, show (7 : Nat) = 2 ^ 3 - 1 from rfl, Nat.testBit_two_pow_sub_one]
        simp [h3]
      simp [h7]
  have hg : s.groupRequest r (s.refusals r) = r &&& 7 := if_neg (by rw [hfree]; simp [h])
  rw [State.requestLeft, hg, joined_group]

theorem State.hasMode_requestLeft (hm : m < 12) (h3 : 3 ≤ m) : hasMode (s.requestLeft r) m = (hasMode r m && !hasMode (s.refusals r) m) := by
  obtain ⟨g, hg⟩ : ∃ g, s.groupRequest r (s.refusals r) = g &&& 7 := by
    simp only [State.groupRequest]
    split
    · exact ⟨_, rfl⟩
    · exact ⟨_, rfl⟩
  rw [State.requestLeft, hg, hasMode_joined _ _ hm h3, hasMode_and, hasMode_not _ hm]

/-! ## The record of a refusal -/

/-- What a write of `r` records in CFG_REFUSED and CFG_INT_STATUS. -/
def State.noteRefused (s : State) (r : BitVec 12) : State :=
  if hasMode r 0 = (hasMode r 1 || hasMode r 2) then ((s.refuseModes (s.refusals r)).raise R.CFG_REFUSED_group).raise R.CFG_INT_STATUS_refused
  else s.refuseModes (s.refusals r)

theorem State.requestModes_replacing (v : Word) (h : s.replacing = true) : s.requestModes v = s.refuseModes (v.setWidth 12 ^^^ s.modeReq) := if_pos h

theorem State.requestModes_eq {v : Word} (hr : v.setWidth 12 = r) (hrepl : s.replacing = false) (hbusy : s.basinRefusals r = 0)
    (hfov : s.rd R.FOV_STATUS_state ≠ 3) :
    s.requestModes v = ((s.noteRefused r).sw ⟨R.CFG_MODE_REQ, 0, 12⟩ (s.requestLeft r).toNat).restage := by
  have hkeep : (s.rd R.FOV_STATUS_state == 3) = false := by simpa using hfov
  have hall : r &&& ~~~0 ||| s.modeReq &&& 0 = r := by
    rw [show ~~~(0 : BitVec 12) = BitVec.allOnes 12 from rfl, BitVec.and_allOnes]
    simp
  simp only [State.requestModes, hr, hrepl, Bool.false_eq_true, if_false, hkeep, Bool.and_false, Bool.false_and, Bool.or_false, hbusy, hall,
    State.noteRefused, State.requestLeft, beq_iff_eq]
  rw [show s.refusals r ||| 0 = s.refusals r by simp]

theorem cfgRefusedGroup_eq : R.CFG_REFUSED_group = bitAt R.CFG_REFUSED 12 := rfl

/-- Only the two registers of refusals differ. -/
structure RefusedOnly (s t : State) : Prop where
  rest : { t with regs := s.regs } = s
  reg : ∀ a, a ≠ R.CFG_REFUSED → a ≠ R.CFG_INT_STATUS → t.reg a = s.reg a

theorem State.refuseModes_refusedOnly (s : State) (v : BitVec 12) : RefusedOnly s (s.refuseModes v) := by
  unfold State.refuseModes
  split
  · exact ⟨rfl, fun _ _ _ => rfl⟩
  · exact ⟨rfl, fun a h h' => by rw [State.reg_raise_ne _ h', State.reg_setReg_ne _ _ h]⟩

theorem State.noteRefused_refusedOnly (s : State) (r : BitVec 12) : RefusedOnly s (s.noteRefused r) := by
  obtain ⟨hrest, hreg⟩ := s.refuseModes_refusedOnly (s.refusals r)
  unfold State.noteRefused
  split
  · exact ⟨hrest, fun a h h' => by rw [State.reg_raise_ne _ h', State.reg_raise_ne _ h, hreg a h h']⟩
  · exact ⟨hrest, hreg⟩

theorem RefusedOnly.cfg (h : RefusedOnly s t) : t.cfg = s.cfg := (congrArg State.cfg h.rest :)
theorem RefusedOnly.ssm (h : RefusedOnly s t) : t.ssm = s.ssm := (congrArg State.ssm h.rest :)
theorem RefusedOnly.dram (h : RefusedOnly s t) : t.dram = s.dram := (congrArg State.dram h.rest :)
theorem RefusedOnly.owned (h : RefusedOnly s t) (a : Nat) : t.owned a = s.owned a := State.owned_congr h.cfg (h.reg _ (by decide) (by decide)) a

theorem State.refuseModes_records {v : BitVec 12} (hm : m < 12) (h : hasMode v m = true) :
    (s.refuseModes v).is (bitAt R.CFG_REFUSED m) = true ∧ (s.refuseModes v).is R.CFG_INT_STATUS_refused = true := by
  have hv : v ≠ 0 := fun h0 => by
    rw [h0, BitVec.ofNat_eq_ofNat, hasMode_zero] at h
    cases h
  rw [State.refuseModes, if_neg hv]
  refine ⟨?_, State.is_raise _ _ (by decide) (by decide)⟩
  rw [State.is_bitAt, State.reg_raise_ne _ (by decide), State.reg_setReg_self, BitVec.getLsbD_or, BitVec.getLsbD_setWidth]
  simp [show m < 32 by omega, show v.getLsbD m = true from h]

/-- A refused mode is recorded. -/
theorem State.noteRefused_records (hm : m < 12) (h : hasMode (s.refusals r) m = true) :
    (s.noteRefused r).is (bitAt R.CFG_REFUSED m) = true ∧ (s.noteRefused r).is R.CFG_INT_STATUS_refused = true := by
  obtain ⟨hmode, hevent⟩ := s.refuseModes_records hm h
  unfold State.noteRefused
  split
  · refine ⟨?_, State.is_raise _ _ (by decide) (by decide)⟩
    rw [State.is_bitAt] at hmode ⊢
    rw [State.reg_raise_ne _ (by decide), cfgRefusedGroup_eq, State.getLsbD_raise _ _ _ _ (by omega), hmode, Bool.or_true]
  · exact ⟨hmode, hevent⟩

theorem State.noteRefused_group (h : hasMode r 0 = (hasMode r 1 || hasMode r 2)) : (s.noteRefused r).is R.CFG_REFUSED_group = true := by
  rw [State.noteRefused, if_pos h, cfgRefusedGroup_eq, State.is_bitAt, State.reg_raise_ne _ (by decide),
    State.getLsbD_raise _ _ _ _ (by decide)]
  simp

/-! ## The request as stored -/

theorem State.reg_sw_ne {f : FieldAt} {a : Nat} (v : Nat) (h : a ≠ f.addr) : (s.sw f v).reg a = s.reg a := State.reg_setReg_ne _ _ h

/-- A request that no overlay owns is what software stores. -/
theorem State.modeReq_sw (ho : s.owned R.CFG_MODE_REQ = 0) (v : BitVec 12) : (s.sw ⟨R.CFG_MODE_REQ, 0, 12⟩ v.toNat).modeReq = v := by
  apply BitVec.eq_of_getLsbD_eq
  intro i hi
  have h32 : i < 32 := by omega
  have hmask : (BitVec.ofNat 32 ((2 ^ 12 - 1) <<< 0)).getLsbD i = true := by interval_cases i <;> decide
  rw [State.modeReq, BitVec.getLsbD_setWidth]
  simp only [State.sw, State.settle, State.reg_setReg_self, BitVec.getLsbD_or, BitVec.getLsbD_and, BitVec.getLsbD_not, hmask, hi, h32,
    decide_true, Bool.true_and, Bool.not_true, Bool.and_false, Bool.false_or, Bool.and_true]
  rw [State.getLsbD_layered_soften_free (by simp [ho]) hmask, putBits_getLsbD _ _ _ _ _ h32, if_pos ⟨Nat.zero_le _, by omega⟩]
  exact BitVec.testBit_toNat v

/-! ## The staging a request starts or ends (03 R94, R97) -/

/-- Registers, memories, the weir, the pending set and the take it replaces are as they were. -/
structure PlanKept (s t : State) : Prop where
  regs : t.regs = s.regs
  ssm : t.ssm = s.ssm
  dram : t.dram = s.dram
  weir : t.weir = s.weir
  pendingSet : t.cfg.pendingSet = s.cfg.pendingSet
  prior : t.cfg.prior = s.cfg.prior

theorem PlanKept.refl (s : State) : PlanKept s s := ⟨rfl, rfl, rfl, rfl, rfl, rfl⟩

theorem PlanKept.trans (h : PlanKept s t) (h' : PlanKept t u) : PlanKept s u :=
  ⟨h'.regs.trans h.regs, h'.ssm.trans h.ssm, h'.dram.trans h.dram, h'.weir.trans h.weir, h'.pendingSet.trans h.pendingSet, h'.prior.trans h.prior⟩

theorem PlanKept.foldl {α : Type} {l : List α} {f : State → α → State} (h : PlanKept s₀ s) (k : ∀ t x, PlanKept t (f t x)) :
    PlanKept s₀ (l.foldl f s) := by
  induction l generalizing s with
  | nil => exact h
  | cons x l ih => exact ih (h.trans (k s x))

theorem PlanKept.ite {p : Prop} [Decidable p] (h : PlanKept s₀ s) (h' : PlanKept s₀ t) : PlanKept s₀ (if p then s else t) := by split <;> assumption

theorem PlanKept.setEng (s : State) (n : Nat) (e : Engine) : PlanKept s (s.setEng n e) := ⟨rfl, rfl, rfl, rfl, rfl, rfl⟩
theorem PlanKept.setDom (s : State) (x : Nat) (d : Domain) : PlanKept s (s.setDom x d) := ⟨rfl, rfl, rfl, rfl, rfl, rfl⟩
theorem PlanKept.setLock (s : State) (l : Nat) (k : Lock) : PlanKept s (s.setLock l k) := ⟨rfl, rfl, rfl, rfl, rfl, rfl⟩

theorem PlanKept.reg (h : PlanKept s t) (a : Nat) : t.reg a = s.reg a := by simp only [State.reg, h.regs]
theorem PlanKept.seq (h : PlanKept s t) : t.seq = s.seq := State.rd_congr (h.reg _)
theorem PlanKept.requester (h : PlanKept s t) (n : Nat) : t.requester n = s.requester n := by simp only [State.requester, h.weir]

theorem State.stagingFree_planKept (s : State) : PlanKept s s.stagingFree :=
  PlanKept.foldl ⟨rfl, rfl, rfl, rfl, rfl, rfl⟩ fun t n => (PlanKept.setEng t n _).ite (PlanKept.refl t)

theorem State.cancelB_planKept (s : State) : PlanKept s s.cancelB :=
  PlanKept.foldl ⟨rfl, rfl, rfl, rfl, rfl, rfl⟩ fun t x => (PlanKept.refl t).ite (PlanKept.setDom t x _)

theorem State.cancelPaths_planKept (s : State) : PlanKept s s.cancelPaths :=
  (PlanKept.refl s).foldl fun t l => by
    dsimp only
    split
    · split
      · exact PlanKept.setLock t l _
      · exact PlanKept.refl t
    · exact PlanKept.refl t

/-- What the sequencer changes beside its plan: of the registers CFG_STATUS and WEIR_INT_STATUS, and no byte of memory. -/
structure SequencerOnly (s t : State) : Prop where
  reg : ∀ a, a ≠ R.CFG_STATUS → a ≠ R.WEIR_INT_STATUS → t.reg a = s.reg a
  ssm : t.ssm = s.ssm
  dram : t.dram = s.dram

theorem SequencerOnly.refl (s : State) : SequencerOnly s s := ⟨fun _ _ _ => rfl, rfl, rfl⟩

theorem SequencerOnly.trans (h : SequencerOnly s t) (h' : SequencerOnly t u) : SequencerOnly s u :=
  ⟨fun a ha ha' => (h'.reg a ha ha').trans (h.reg a ha ha'), h'.ssm.trans h.ssm, h'.dram.trans h.dram⟩

theorem SequencerOnly.of_plan (h : PlanKept s t) : SequencerOnly s t := ⟨fun a _ _ => h.reg a, h.ssm, h.dram⟩

theorem SequencerOnly.setCfg_setSeq (s : State) (c : Cfg) (k : Nat) : SequencerOnly s ((s.setCfg c).setSeq k) :=
  ⟨fun _ ha _ => (s.setCfg c).reg_wr_ne (f := R.CFG_STATUS_seq) k ha, rfl, rfl⟩

theorem SequencerOnly.setRequester (s : State) (n : Nat) (q : Requester) : SequencerOnly s (s.setRequester n q) := ⟨fun _ _ _ => rfl, rfl, rfl⟩

theorem State.seq_setSeq (s : State) {k : Nat} (hk : k < 8) : (s.setSeq k).seq = k :=
  (s.rd_wr_same _ _ (by decide : (4 : Nat) + 3 ≤ 32)).trans (Nat.mod_eq_of_lt hk)

theorem State.weirRequest_sequencerOnly (s : State) (n cost : Nat) : SequencerOnly s (s.weirRequest n cost) := by
  unfold State.weirRequest
  extract_lets unfit q s₁
  split
  · exact ⟨fun _ _ ha => s₁.reg_raise_ne (f := R.WEIR_INT_STATUS_unfit) ha, rfl, rfl⟩
  · exact ⟨fun _ _ _ => rfl, rfl, rfl⟩

theorem State.weirRequest_cfg (s : State) (n cost : Nat) : (s.weirRequest n cost).cfg = s.cfg := by
  unfold State.weirRequest
  extract_lets unfit q s₁
  split <;> rfl

theorem State.weirRequest_seq (s : State) (n cost : Nat) : (s.weirRequest n cost).seq = s.seq := by
  unfold State.weirRequest
  extract_lets unfit q s₁
  split
  · exact State.rd_congr (s₁.reg_raise_ne (by decide))
  · rfl

/-- The stores that a change's sections lie in are marked. -/
theorem PlanKept.markStores (s : State) (reps : List Replaced) : PlanKept s (reps.foldl (fun s r =>
    if r.kind = 5 then s.setEng (s.carrier r.inst) { s.eng (s.carrier r.inst) with stagingPage := true }
    else if r.kind = 9 then { s with basin := { s.basin with staging := true } }
    else if r.kind = 10 then { s with flc := { s.flc with staging := true } }
    else s) s) :=
  (PlanKept.refl s).foldl fun t _ => (PlanKept.setEng t _ _).ite
    (PlanKept.ite ⟨rfl, rfl, rfl, rfl, rfl, rfl⟩ (PlanKept.ite ⟨rfl, rfl, rfl, rfl, rfl, rfl⟩ (PlanKept.refl t)))

theorem State.startStaging_spec (s : State) (set : BitVec 12) :
    SequencerOnly s (s.startStaging set) ∧ (s.startStaging set).seq = seqStaging ∧ (s.startStaging set).cfg.pendingSet = set := by
  unfold State.startStaging
  extract_lets added leave reps c s₁ s₂
  have hbegin : SequencerOnly s s₁ := SequencerOnly.setCfg_setSeq s _ _
  have hmarks : PlanKept s₁ s₂ := PlanKept.markStores s₁ reps
  have honly : SequencerOnly s s₂ := hbegin.trans (.of_plan hmarks)
  have hseq : s₂.seq = seqStaging := hmarks.seq.trans (State.seq_setSeq _ (by decide))
  have hset : s₂.cfg.pendingSet = set := hmarks.pendingSet
  split
  · exact ⟨honly, hseq, hset⟩
  · exact ⟨honly.trans (s₂.weirRequest_sequencerOnly _ _), (s₂.weirRequest_seq _ _).trans hseq, by rw [s₂.weirRequest_cfg, hset]⟩

theorem State.requester_setRequester (s : State) (n : Nat) (q : Requester) : (s.setRequester n q).requester n = q := by
  simp [State.requester, State.setRequester]

/-- A discarded staging: the pending set is the held one, and of the sequencer's request and grant there is left what an armed take holds. -/
theorem State.dropStaging_spec (s : State) : SequencerOnly s s.dropStaging ∧ s.dropStaging.seq = seqIdle ∧ s.dropStaging.cfg.pendingSet = s.held ∧
    s.dropStaging.cfg.prior = s.cfg.prior ∧ (s.dropStaging.requester 3).pending = false ∧ (s.dropStaging.requester 3).grant = s.priorLeave := by
  unfold State.dropStaging
  extract_lets c s₁ s₂
  have hbegin : SequencerOnly s s₁ := SequencerOnly.setCfg_setSeq s _ _
  have hidle : s₁.seq = seqIdle := State.seq_setSeq _ (by decide)
  have hset : s₁.cfg.pendingSet = s.held := rfl
  have hprior : s₁.cfg.prior = s.cfg.prior := rfl
  have hfree : PlanKept s₁ s₁.stagingFree := s₁.stagingFree_planKept
  have hend : PlanKept (s₁.stagingFree.weirWithdraw 3) s₂ := (State.cancelB_planKept _).trans (State.cancelPaths_planKept _)
  clear_value s₁ s₂
  generalize s₁.stagingFree = free at hfree hend
  have honly : SequencerOnly s s₂ :=
    ((hbegin.trans (.of_plan hfree)).trans (SequencerOnly.setRequester free 3 _)).trans (.of_plan hend)
  have hseq : s₂.seq = seqIdle := hend.seq.trans (hfree.seq.trans hidle)
  have hprior : s₂.cfg.prior = s.cfg.prior := hend.prior.trans (hfree.prior.trans hprior)
  have hpending : (s₂.requester 3).pending = false := by rw [hend.requester, State.weirWithdraw, State.requester_setRequester]
  refine ⟨honly.trans (SequencerOnly.setRequester _ _ _), hseq, hend.pendingSet.trans (hfree.pendingSet.trans hset), hprior, ?_, ?_⟩
  · rw [State.requester_setRequester]
    exact hpending
  · rw [State.requester_setRequester]
    simp only [State.priorLeave, hprior]

theorem State.discardStaging_spec (s : State) : SequencerOnly s s.discardStaging ∧ s.discardStaging.seq = seqIdle ∧
    s.discardStaging.cfg.pendingSet = s.held ∧ (s.discardStaging.requester 3).pending = false ∧ (s.discardStaging.requester 3).grant = 0 := by
  have hdiscard : s.discardStaging = (s.setCfg { s.cfg with prior := none }).dropStaging := rfl
  have hbegin : SequencerOnly s (s.setCfg { s.cfg with prior := none }) := ⟨fun _ _ _ => rfl, rfl, rfl⟩
  have hprior : (s.setCfg { s.cfg with prior := none }).priorLeave = 0 := rfl
  rw [hdiscard]
  generalize s.setCfg { s.cfg with prior := none } = u at hbegin hprior ⊢
  obtain ⟨honly, hseq, hset, -, hpending, hgrant⟩ := u.dropStaging_spec
  have hheld : u.held = s.held := congrArg (BitVec.setWidth 12) (hbegin.reg R.CFG_MODE_HELD (by decide) (by decide))
  exact ⟨hbegin.trans honly, hseq, hset.trans hheld, hpending, hgrant.trans hprior⟩

theorem State.restage_sequencerOnly (s : State) : SequencerOnly s s.restage := by
  have hkeep : SequencerOnly s s.keepPrior := ⟨fun _ _ _ => rfl, rfl, rfl⟩
  unfold State.restage
  extract_lets want
  split
  · exact SequencerOnly.refl s
  · split
    · exact s.discardStaging_spec.1
    · split
      · exact hkeep.trans (s.keepPrior.startStaging_spec want).1
      · split
        · exact (s.startStaging_spec want).1
        · exact s.dropStaging_spec.1.trans (s.dropStaging.startStaging_spec want).1

theorem State.restage_starts (hseq : s.seq = seqIdle) (hwant : stagedPart s.wantedSet ≠ stagedPart s.held) : s.restage = s.startStaging s.wantedSet := by
  have hkeep : ¬(stagedPart s.wantedSet = stagedPart s.cfg.pendingSet ∧ (s.seq ≠ seqIdle ∨ stagedPart s.wantedSet = stagedPart s.held)) :=
    fun h => h.2.elim (· hseq) hwant
  have harmed : s.seq ≠ seqArmed := by rw [hseq]; decide
  exact (if_neg hkeep).trans ((if_neg hwant).trans ((if_neg harmed).trans (by rw [if_pos hseq])))

theorem State.restage_ends (hwant : stagedPart s.wantedSet = stagedPart s.held) (hset : stagedPart s.cfg.pendingSet ≠ stagedPart s.held) :
    s.restage = s.discardStaging :=
  (if_neg fun h => hset (h.1.symm.trans hwant)).trans (if_pos hwant)

theorem State.wantedSet_congr (hreq : t.modeReq = s.modeReq) (hheld : t.reg R.CFG_MODE_HELD = s.reg R.CFG_MODE_HELD) : t.wantedSet = s.wantedSet := by
  have hset : t.held = s.held := by simp only [State.held, hheld]
  have hpair : t.inPair = s.inPair := by simp only [State.inPair, State.holds, hheld]
  unfold State.wantedSet State.wantsSolo
  rw [hreq, hset, hpair]

/-! ## The write as a whole -/

/-- A write of CFG_MODE_REQ outside a replacement is a record of refusals, a stored request and a staging that follows it. -/
theorem completes_modeRequestWrite {v : Word} (hr : v.setWidth 12 = r) (hrepl : s.replacing = false) (hbusy : s.basinRefusals r = 0)
    (howned : s.owned R.CFG_MODE_REQ = 0) (hfov : s.rd R.FOV_STATUS_state ≠ 3) :
    Completes (.modeRequestWrite v) s fun t => ∃ u : State, t = u.restage.answer [] ∧ u.modeReq = s.requestLeft r ∧ u.cfg = s.cfg ∧
      (∀ a, a ≠ R.CFG_MODE_REQ → u.reg a = (s.noteRefused r).reg a) ∧ u.ssm = s.ssm ∧ u.dram = s.dram := by
  have hnote := s.noteRefused_refusedOnly r
  refine ⟨_, congrArg Host.Outcome.next (congrArg (State.answer · []) (s.requestModes_eq hr hrepl hbusy hfov)), _, rfl, ?_, hnote.cfg, ?_,
    hnote.ssm, hnote.dram⟩
  · exact State.modeReq_sw ((hnote.owned _).trans howned) _
  · exact fun a ha => State.reg_sw_ne _ ha

end Sys2Proof.Machine
end

section
open Sys2Proof Sys2Proof.Machine

/-- Settles O14: the registers of the request and its refusals are read off `requestLeft` and `noteRefused`, and the staging off `restage`, which
reaches CFG_STATUS and WEIR_INT_STATUS alone. -/
theorem modeRequests : Obligations.ModeRequests := by
  unfold Obligations.ModeRequests
  intro s v r
  refine ⟨fun hrepl => ?_, fun hrepl hbusy howned hfov hside => ?_⟩
  case refine_1 => exact congrArg (fun t => Host.Outcome.next (t.answer [])) (s.requestModes_replacing v hrepl)
  obtain ⟨t, hexec, u, rfl, hreq, hcfg, hreg, hssm, hdram⟩ := completes_modeRequestWrite (r := r) rfl hrepl hbusy howned hfov
  have hnote := s.noteRefused_refusedOnly r
  have hstage := u.restage_sequencerOnly
  have hkept (a : Nat) (ha : a ≠ R.CFG_MODE_REQ) (ha' : a ≠ R.CFG_STATUS) (ha'' : a ≠ R.WEIR_INT_STATUS) :
      (u.restage.answer []).reg a = (s.noteRefused r).reg a := (hstage.reg a ha' ha'').trans (hreg a ha)
  have hrefused (m : Nat) : (u.restage.answer []).is (bitAt R.CFG_REFUSED m) = (s.noteRefused r).is (bitAt R.CFG_REFUSED m) := by
    rw [State.is_bitAt, State.is_bitAt, hkept _ (by decide) (by decide) (by decide)]
  have hevent : (u.restage.answer []).is R.CFG_INT_STATUS_refused = (s.noteRefused r).is R.CFG_INT_STATUS_refused := by
    rw [State.is, State.is, State.rd_congr (hkept _ (by decide) (by decide) (by decide))]
  have hleft : (u.restage.answer []).modeReq = s.requestLeft r :=
    (congrArg (BitVec.setWidth 12) (hstage.reg R.CFG_MODE_REQ (by decide) (by decide))).trans hreq
  have hno (m : Nat) (hm : m < 12) : hasMode (s.refusals r) m = s.refusesMode r m := State.hasMode_refusals hside hm
  have hheld : u.reg R.CFG_MODE_HELD = s.reg R.CFG_MODE_HELD := (hreg _ (by decide)).trans (hnote.reg _ (by decide) (by decide))
  have hset : u.held = s.held := congrArg (BitVec.setWidth 12) hheld
  have hseq : u.seq = s.seq := State.rd_congr ((hreg _ (by decide)).trans (hnote.reg _ (by decide) (by decide)))
  have hwant : (u.restage.answer []).wantedSet = u.wantedSet :=
    State.wantedSet_congr (hleft.trans hreq.symm) (hstage.reg R.CFG_MODE_HELD (by decide) (by decide))
  refine ⟨_, hexec, fun hgroup => ⟨?_, ?_⟩, fun hgroup hfree => ?_, fun m hm h3 => ?_, fun m hm hm' => ?_, fun hidle hwants => ?_,
    fun hstaging hwants hpending => ?_, SameMemory.of_eq (hstage.ssm.trans hssm) (hstage.dram.trans hdram), fun a ha => ?_⟩
  · rw [hleft, State.requestLeft_group_kept hgroup]
  · exact (hrefused 12).trans (State.noteRefused_group hgroup)
  · rw [hleft, State.requestLeft_group hgroup fun m hm => (hno m (by omega)).trans (hfree m hm)]
  · rw [hleft, State.hasMode_requestLeft hm h3, hno m hm]
    rfl
  · obtain ⟨hmode, hint⟩ := State.noteRefused_records hm ((hno m hm).trans hm')
    exact ⟨(hrefused m).trans hmode, hevent.trans hint⟩
  · rw [hwant] at hwants ⊢
    obtain ⟨-, hs, hp⟩ := u.startStaging_spec u.wantedSet
    rw [State.restage_starts (hseq.trans hidle) (by rwa [hset])]
    exact ⟨hs, hp⟩
  · rw [hwant] at hwants
    obtain ⟨-, hs, hp, hreqr, hgrant⟩ := u.discardStaging_spec
    rw [State.restage_ends (hwants.trans (congrArg stagedPart hset.symm)) (by rwa [hcfg, hset])]
    generalize u.discardStaging = w at hs hp hreqr hgrant ⊢
    exact ⟨hs, hp.trans hset, hreqr, hgrant⟩
  · simp only [List.mem_cons, List.not_mem_nil, or_false, not_or] at ha
    obtain ⟨hrq, hrf, hint, hst, hweir⟩ := ha
    exact (hkept a hrq hst hweir).trans (hnote.reg a hrf hint)

end

section
/-!
A staging whose overlay brings FIR coefficients (03 R82, R94; 07 R214, R215): what it writes into the inactive bank of a decimator is a register.
-/
namespace Sys2Proof.Machine

/-- Decimator 0 gets one coefficient, 5. -/
def coefPayload : List PayloadContent := [⟨10, 10, 0, some { coefs := [(0, [5])] }⟩]

/-- The overlay of mode 10 replaces the FILTERS section and is good. -/
def coefOverlay : Overlay :=
  { mode := 10, needsLeave := false, hasReplace := true, absent := false, resident := false, off := 0, len := 0, crc := crc32c [], valid := true,
    writes := [], inForce := [], words := [], replaces := [⟨10, 0, 0, 0⟩], contents := [] }

/-- SOLO with mode 10 is being staged from the empty held set. -/
def stagingCoefs : State := { State.reset with cfg := { overlays := [coefOverlay], pendingSet := 0x401 } }.setSeq seqStaging

theorem stagingCoefs_good : stagingCoefs.stagedOverlays.all (stagingCoefs.overlayGood coefPayload) = true ∧
    stagingCoefs.pastPoint stagingCoefs.cfgTakeAt = false := by decide +kernel

theorem exec_stagingComplete_stagingCoefs :
    exec (.stagingComplete 0 coefPayload) stagingCoefs = .next (stagingCoefs.stagingEnds 0 coefPayload) :=
  congrArg Host.Outcome.next ((if_neg (by decide)).trans (if_pos (by decide)))

/-- The first coefficient of decimator 0's inactive bank. -/
theorem coef_stagingEnds_stagingCoefs : (stagingCoefs.stagingEnds 0 coefPayload).reg (R.FIR_COEF (firIndex 0 1 0)) = 5 ∧
    stagingCoefs.reg (R.FIR_COEF (firIndex 0 1 0)) = 0 := by decide +kernel

end Sys2Proof.Machine
end

section
open Sys2Proof Sys2Proof.Machine

/-- Refutes O15: a staging that brings FIR coefficients writes them into the inactive bank of their decimator (03 R94; 07 R215), whose registers
FIR_COEF the statement leaves as they were. -/
theorem not_stagingEnds : ¬ Obligations.StagingEnds := by
  unfold Obligations.StagingEnds
  intro h
  obtain ⟨hstaging, -⟩ := h stagingCoefs 0 coefPayload
  obtain ⟨hgood, hpoint⟩ := stagingCoefs_good
  obtain ⟨t, hexec, -, -, -, -, -, hregs⟩ := (hstaging (by decide) (by decide) rfl rfl (by decide)).1 hgood hpoint
  rw [exec_stagingComplete_stagingCoefs] at hexec
  injection hexec with ht
  obtain ⟨hafter, hbefore⟩ := coef_stagingEnds_stagingCoefs
  have hsame := hregs (R.FIR_COEF (firIndex 0 1 0)) (by decide)
  rw [← ht, hafter, hbefore] at hsame
  exact absurd hsame (by decide)

end

section
/-!
What the machine brings about beside a change of modes, an attempt to boot or the first sample (03 R101, R102; 10 R276 to R290; 14 R368; 15 R386;
19 R482 to R486): clocks that settle, links that fall, safe states and fault reports. They reach status registers and their own blocks' state; the
registers of GLB and of CFG, but three, the settings of the domains, the registers from 0x12_0000 on and both memories stay as they are.
-/
namespace Sys2Proof.Machine

/-- The registers such an operation can write. -/
def reached (a : Nat) : Bool :=
  decide (0x20000 ≤ a ∧ a < 0x120000) && !([R.CLK_DOMx_CFG 0, R.CLK_DOMx_CFG 1, R.CLK_DOMx_CFG 2].contains a)
    || [R.CFG_MODE_HWREQ, R.CFG_REFUSED, R.CFG_INT_STATUS].contains a

/-- The source and the level a fault record was made for. -/
def FaultRecord.origin (r : FaultRecord) : Nat × Nat := (r.source, r.reported)

/-- `t` differs from `s` in status registers and the state of blocks that report, synchronise and link; fault records are only added. -/
structure Beside (s t : State) : Prop where
  reg : ∀ a, reached a = false → t.reg a = s.reg a
  layered : ∀ a, reached a = false → t.layered a = s.layered a
  faults : s.flt.records.map FaultRecord.origin <+: t.flt.records.map FaultRecord.origin
  rest : { t with
    regs := s.regs, layers := s.layers, outbox := s.outbox, flt := s.flt, fov := s.fov, tdm := s.tdm, amps := s.amps, weir := s.weir,
    lanes := s.lanes, cands := s.cands, dplls := s.dplls, links := s.links, conceal := s.conceal, txStreams := s.txStreams,
    rxStreams := s.rxStreams } = s

variable {s₀ s t : State} {a c g k n x : Nat} {f : FieldAt}

/-! ## The relation -/

theorem Beside.refl (s : State) : Beside s s := ⟨fun _ _ => rfl, fun _ _ => rfl, List.prefix_refl _, rfl⟩

theorem Beside.ite {p : Prop} [Decidable p] (h : Beside s₀ s) (h' : Beside s₀ t) : Beside s₀ (if p then s else t) := by split <;> assumption

theorem Beside.foldl {α : Type} {l : List α} {f : State → α → State} (h : Beside s₀ s) (k : ∀ t, ∀ x ∈ l, Beside s₀ t → Beside s₀ (f t x)) :
    Beside s₀ (l.foldl f s) := by
  induction l generalizing s with
  | nil => exact h
  | cons x l ih => exact ih (k _ x (List.mem_cons_self ..) h) fun t y hy => k t y (List.mem_cons_of_mem _ hy)

/-- A change of neither registers nor layers, and of no fault record but its cause and repeats. -/
theorem Beside.congr (h : Beside s₀ s) (hr : t.regs = s.regs := by rfl) (hl : t.layers = s.layers := by rfl) (hc : t.cfg = s.cfg := by rfl)
    (hf : s.flt.records.map FaultRecord.origin <+: t.flt.records.map FaultRecord.origin := by exact List.prefix_refl _)
    (hrest : { t with
      regs := s₀.regs, layers := s₀.layers, outbox := s₀.outbox, flt := s₀.flt, fov := s₀.fov, tdm := s₀.tdm, amps := s₀.amps, weir := s₀.weir,
      lanes := s₀.lanes, cands := s₀.cands, dplls := s₀.dplls, links := s₀.links, conceal := s₀.conceal, txStreams := s₀.txStreams,
      rxStreams := s₀.rxStreams } = { s with
      regs := s₀.regs, layers := s₀.layers, outbox := s₀.outbox, flt := s₀.flt, fov := s₀.fov, tdm := s₀.tdm, amps := s₀.amps, weir := s₀.weir,
      lanes := s₀.lanes, cands := s₀.cands, dplls := s₀.dplls, links := s₀.links, conceal := s₀.conceal, txStreams := s₀.txStreams,
      rxStreams := s₀.rxStreams } := by rfl) : Beside s₀ t :=
  have hreg (a : Nat) : t.reg a = s.reg a := by simp only [State.reg, hr]
  ⟨fun a ha => (hreg a).trans (h.reg a ha), fun a ha => (State.layered_congr hl hc (hreg _) a).trans (h.layered a ha), h.faults.trans hf,
    hrest.trans h.rest⟩

theorem Beside.setReg (v : Word) (ha : reached a = true) (h : Beside s₀ s) : Beside s₀ (s.setReg a v) := by
  have hne (b : Nat) (hb : reached b = false) : b ≠ a := fun he => by rw [he, ha] at hb; exact Bool.noConfusion hb
  exact ⟨fun b hb => (s.reg_setReg_ne v (hne b hb)).trans (h.reg b hb),
    fun b hb => (State.layered_congr (s := s) (t := s.setReg a v) rfl rfl (s.reg_setReg_ne v (hne R.CFG_MODE_HELD rfl)) b).trans (h.layered b hb), h.faults, h.rest⟩

theorem Beside.wr (v : Nat) (hf : reached f.addr = true) (h : Beside s₀ s) : Beside s₀ (s.wr f v) := h.setReg _ hf

theorem Beside.bump (m : Nat) (hf : reached f.addr = true) (h : Beside s₀ s) : Beside s₀ (s.bump f m) := h.wr _ hf

theorem Beside.raise (hf : reached f.addr = true) (h : Beside s₀ s) : Beside s₀ (s.raise f) := h.wr _ hf

/-- What software stores in one register decides no other. -/
theorem State.layered_soften_ne (s : State) {a b : Nat} (mask v : Word) (h : b ≠ a) : (s.soften a mask v).layered b = s.layered b := by
  simp only [State.layered, State.soften, Tab.get_set_ne _ _ _ h]
  rfl

theorem Beside.hw (v : Nat) (hf : reached f.addr = true) (h : Beside s₀ s) : Beside s₀ (s.hw f v) := by
  have hwr := h.wr (f := f) v hf
  refine ⟨hwr.reg, fun b hb => ?_, hwr.faults, hwr.rest⟩
  have hne : b ≠ f.addr := fun he => by rw [he, hf] at hb; exact Bool.noConfusion hb
  exact ((s.wr f v).layered_soften_ne _ _ hne).trans (hwr.layered b hb)

section
variable (h : Beside s₀ s)
include h
theorem Beside.emit (e : Emission) : Beside s₀ (s.emit e) := h.congr
theorem Beside.setTdm (r : Tdm) : Beside s₀ (s.setTdm r) := h.congr
theorem Beside.setAmp (c : Nat) (r : AmpChannel) : Beside s₀ (s.setAmp c r) := h.congr
theorem Beside.setLane (n : Nat) (r : Lane) : Beside s₀ (s.setLane n r) := h.congr
theorem Beside.setLink (k : Nat) (r : Nerax) : Beside s₀ (s.setLink k r) := h.congr
theorem Beside.setFov (r : Fov) : Beside s₀ (s.setFov r) := h.congr
theorem Beside.setCand (c : Nat) (r : Cand) : Beside s₀ (s.setCand c r) := h.congr
theorem Beside.setDpll (x : Nat) (r : Dpll) : Beside s₀ (s.setDpll x r) := h.congr
theorem Beside.setRequester (r : Nat) (q : Requester) : Beside s₀ (s.setRequester r q) := h.congr
theorem Beside.weirReturn (r : Nat) : Beside s₀ (s.weirReturn r) := h.setRequester ..
theorem Beside.weirWithdraw (r : Nat) : Beside s₀ (s.weirWithdraw r) := h.setRequester ..
theorem Beside.weirDrop (r : Nat) : Beside s₀ (s.weirDrop r) := (h.weirWithdraw r).weirReturn r
end

/-! ## What it leaves -/

theorem Beside.rd (h : Beside s t) (hf : reached f.addr = false) : t.rd f = s.rd f := State.rd_congr (h.reg _ hf)
theorem Beside.is (h : Beside s t) (hf : reached f.addr = false) : t.is f = s.is f := by simp only [State.is, h.rd hf]
theorem Beside.held (h : Beside s t) : t.held = s.held := by simp only [State.held, h.reg R.CFG_MODE_HELD rfl]
theorem Beside.started (h : Beside s t) (hx : x < 3) : t.started x = s.started x := h.is (by interval_cases x <;> rfl)

theorem Beside.doms (h : Beside s t) : t.doms = s.doms := (congrArg State.doms h.rest :)
theorem Beside.locks (h : Beside s t) : t.locks = s.locks := (congrArg State.locks h.rest :)
theorem Beside.glb (h : Beside s t) : t.glb = s.glb := (congrArg State.glb h.rest :)
theorem Beside.cfg (h : Beside s t) : t.cfg = s.cfg := (congrArg State.cfg h.rest :)
theorem Beside.ssm (h : Beside s t) : t.ssm = s.ssm := (congrArg State.ssm h.rest :)
theorem Beside.dram (h : Beside s t) : t.dram = s.dram := (congrArg State.dram h.rest :)
theorem Beside.dom (h : Beside s t) (x : Nat) : t.dom x = s.dom x := by simp only [State.dom, h.doms]

/-! ## The addresses -/

theorem reached_of (h : 0x20000 ≤ a ∧ a < 0x50400 ∨ 0x504C0 ≤ a ∧ a < 0x120000) : reached a = true := by
  simp only [reached, R.CLK_DOMx_CFG, List.contains_eq_mem, List.mem_cons, List.not_mem_nil, or_false, Bool.or_eq_true, Bool.and_eq_true,
    decide_eq_true_eq, Bool.not_eq_true', decide_eq_false_iff_not]
  omega

theorem not_reached_of_high (h : 0x120000 ≤ a) : reached a = false := by
  simp only [reached, List.contains_eq_mem, List.mem_cons, List.not_mem_nil, or_false, Bool.or_eq_false_iff, Bool.and_eq_false_iff,
    decide_eq_false_iff_not, R.CFG_MODE_HWREQ, R.CFG_REFUSED, R.CFG_INT_STATUS]
  omega

theorem tdmStatus_reached (hg : g < 4) : reached (R.TDM_GRPg_STATUS g) = true := reached_of (by simp only [R.TDM_GRPg_STATUS]; omega)
theorem ampStatus_reached (hc : c < 32) : reached (R.AMPc_STATUS c) = true := reached_of (by simp only [R.AMPc_STATUS]; omega)
theorem ampEvent_reached (hc : c < 32) : reached (R.AMPc_INT_STATUS c) = true := reached_of (by simp only [R.AMPc_INT_STATUS]; omega)
theorem ampGroupStatus_reached (ha : a < 4) : reached (R.AMP_GRPa_STATUS a) = true := reached_of (by simp only [R.AMP_GRPa_STATUS]; omega)
theorem fltCount_reached (l : Nat) : reached (fltCount l) = true := reached_of (by simp only [fltCount, R.FLT_COUNTL]; omega)

theorem lane_reached (hn : n < 12) : reached (R.LANEn_STATUS n) = true ∧ reached (R.LANEn_SCAN_STATUS n) = true ∧
    reached (R.LANEn_INT_STATUS n) = true ∧ reached (R.LANEn_EB n) = true ∧ reached (R.LANEn_LOOP n) = true ∧
    reached (R.LANEn_PRBS_CTRL n) = true := by
  simp only [R.LANEn_STATUS, R.LANEn_SCAN_STATUS, R.LANEn_INT_STATUS, R.LANEn_EB, R.LANEn_LOOP, R.LANEn_PRBS_CTRL]
  refine ⟨?_, ?_, ?_, ?_, ?_, ?_⟩
  all_goals exact reached_of (by omega)

theorem link_reached (hk : k < 4) : reached (R.NRXk_STATUS k) = true ∧ reached (R.NRXk_INT_STATUS k) = true ∧
    reached (R.NRXk_COUNT1 k) = true ∧ reached (R.NRXk_COUNT2 k) = true := by
  simp only [R.NRXk_STATUS, R.NRXk_INT_STATUS, R.NRXk_COUNT1, R.NRXk_COUNT2]
  refine ⟨?_, ?_, ?_, ?_⟩
  all_goals exact reached_of (by omega)

theorem domain_reached (hx : x < 3) : reached (R.CLK_DOMx_STATUS x) = true ∧ reached (R.CLK_DOMx_INT_STATUS x) = true := by
  interval_cases x <;> exact ⟨rfl, rfl⟩

theorem candidate_reached (hc : c < 9) : reached (R.CLK_CANDc_STATUS c) = true ∧ reached (R.CLK_CANDc_COUNT c) = true := by
  simp only [R.CLK_CANDc_STATUS, R.CLK_CANDc_COUNT]
  exact ⟨reached_of (by omega), reached_of (by omega)⟩

theorem stream_reached (hn : n < 256) : reached (R.STRM_TXn_STATUS n) = true ∧ reached (R.STRM_RXn_STATUS n) = true := by
  simp only [R.STRM_TXn_STATUS, R.STRM_RXn_STATUS]
  exact ⟨reached_of (by omega), reached_of (by omega)⟩

/-! ## Hardware requests, TDM groups and amplifier groups (03 R102; 08 R244; 09 R265) -/

theorem Beside.hwMode (m : Nat) (on : Bool) (h : Beside s₀ s) : Beside s₀ (s.hwMode m on) := by
  have hset : Beside s₀ ((s.wr (bitAt R.CFG_MODE_HWREQ m) (b2n on)).raise R.CFG_INT_STATUS_hw_mode) := (h.wr _ rfl).raise rfl
  exact h.ite (((hset.raise (f := bitAt R.CFG_REFUSED m) rfl).raise rfl).ite hset)

theorem Beside.setGrp (r : TdmGroup) (hg : g < 4) (h : Beside s₀ s) : Beside s₀ (s.setGrp g r) := by
  have hs := tdmStatus_reached hg
  unfold State.setGrp
  extract_lets q s₁ s₂ s₃
  have h₁ : Beside s₀ s₁ := h.setTdm _
  have h₂ : Beside s₀ s₂ := h₁.wr (f := R.TDM_GRPg_STATUS_state g) _ hs
  have h₃ : Beside s₀ s₃ := h₂.wr (f := R.TDM_GRPg_STATUS_domain g) _ hs
  exact h₂.ite (Beside.ite ((h₃.wr (f := R.TDM_GRPg_STATUS_fs_present g) 1 hs).wr (f := R.TDM_GRPg_STATUS_bclk_present g) 1 hs) h₃)

theorem Beside.tdmSafe (on : Bool) (hg : g < 4) (h : Beside s₀ s) : Beside s₀ (s.tdmSafe g on) := h.ite (h.setGrp _ hg)

theorem Beside.ampEnter (k : Nat) (hc : c < 32) (h : Beside s₀ s) : Beside s₀ (s.ampEnter c k) :=
  h.foldl fun t d hd ht => by
    have hd := s.mem_ampPair hc d hd
    exact Beside.wr _ (ampGroupStatus_reached (by omega)) (ht.wr (f := ampState d) k (ampStatus_reached hd))

theorem Beside.ampRelease (ha : a < 4) (h : Beside s₀ s) : Beside s₀ (s.ampRelease a) := by
  have hs := ampGroupStatus_reached ha
  exact Beside.ite (((h.wr (f := R.AMP_GRPa_STATUS_drv_en a) 0 hs).wr (f := R.AMP_GRPa_STATUS_leave a) 0 hs).weirReturn _) h

theorem Beside.ampOff (hc : c < 32) (h : Beside s₀ s) : Beside s₀ (s.ampOff c) := h.ampEnter _ hc

theorem Beside.endCause (source code : Nat) (h : Beside s₀ s) : Beside s₀ (s.endCause source code) := by
  refine h.congr (hf := ?_)
  have horigin : FaultRecord.origin ∘ (fun r : FaultRecord => if r.source = source ∧ r.code = code then { r with cause := false } else r)
      = FaultRecord.origin := by
    funext r
    simp only [Function.comp_apply]
    split <;> rfl
  rw [State.endCause, List.map_map, horigin]

theorem Beside.ampCauseEnds (c : Nat) (h : Beside s₀ s) : Beside s₀ (s.ampCauseEnds c) := (h.endCause _ _).endCause _ _

theorem Beside.ampSafe (mute hard : Bool) (ha : a < 4) (h : Beside s₀ s) : Beside s₀ (s.ampSafe a mute hard) := by
  have hs := ampGroupStatus_reached ha
  unfold State.ampSafe
  refine h.ite ?_
  extract_lets s₁ s₂ s₃ s₄
  have h₁ : Beside s₀ s₁ := (h.wr (f := R.AMP_GRPa_STATUS_hard a) 1 hs).wr (f := R.AMP_GRPa_STATUS_drv_en a) 0 hs
  have h₂ : Beside s₀ s₂ := Beside.ite (h₁.foldl fun t i hi ht => by
    have hc := channel_lt ha hi
    exact ht.ite (Beside.ite ((ht.ampEnter 9 hc).ampCauseEnds _) (ht.ampEnter 9 hc))) h
  have h₃ : Beside s₀ s₃ := h₂.wr (f := R.AMP_GRPa_STATUS_mute a) 1 hs
  have h₄ : Beside s₀ s₄ := Beside.ite (h₃.foldl fun t i hi ht => by
    exact Beside.ite ((ht.setAmp _ _).ampEnter 4 (channel_lt ha hi)) ht) h₂
  exact h₄.ampRelease ha

theorem Beside.ampUnsafe (mute hard : Bool) (ha : a < 4) (h : Beside s₀ s) : Beside s₀ (s.ampUnsafe a mute hard) := by
  have hs := ampGroupStatus_reached ha
  unfold State.ampUnsafe
  extract_lets s₁ s₂ s₃
  have h₁ : Beside s₀ s₁ := h.wr (f := R.AMP_GRPa_STATUS_hard a) 0 hs
  have h₂ : Beside s₀ s₂ := Beside.ite (h₁.foldl fun t i hi ht => Beside.ite (ht.ampOff (channel_lt ha hi)) ht) h
  have h₃ : Beside s₀ s₃ := h₂.wr (f := R.AMP_GRPa_STATUS_mute a) 0 hs
  refine Beside.ite (h₃.foldl fun t i hi ht => ?_) h₂
  have hc := channel_lt ha hi
  exact Beside.ite (Beside.raise (ampEvent_reached (State.ampMain_lt _ hc)) ((ht.setAmp _ _).ampEnter 3 hc)) ht

/-! ## Fence and lanes (15 R393; 13 R347, R356) -/

theorem Beside.judgeFence (h : Beside s₀ s) : Beside s₀ s.judgeFence := by
  unfold State.judgeFence
  extract_lets free s₁
  have h₁ : Beside s₀ s₁ := (h.wr (f := R.FOV_STATUS_fence) _ rfl).emit _
  exact h.ite (Beside.ite h₁.congr h₁)

section
variable (hn : n < 12)
include hn

theorem Beside.laneBelow (v : Nat) (h : Beside s₀ s) : Beside s₀ (s.laneBelow n v) := by
  obtain ⟨hs, hscan, hint, heb, -⟩ := lane_reached hn
  unfold State.laneBelow
  extract_lets s₁ s₂ s₃
  have hscan : Beside s₀ (s.scanAbort n) := Beside.ite ((h.setReg 0 hscan).raise (f := R.LANEn_INT_STATUS_scan_abort n) hint) h
  have hdrop : Beside s₀ ((s.scanAbort n).readaptDrop n) := (hscan.weirDrop _).wr (f := R.LANEn_STATUS_leave n) 0 hs
  have h₁ : Beside s₀ s₁ := hdrop.wr (f := R.LANEn_STATUS_state n) v hs
  have h₂ : Beside s₀ s₂ := (h₁.wr (f := R.LANEn_STATUS_cdr_lock n) 0 hs).ite h₁
  have h₃ : Beside s₀ s₃ := (h₂.wr (f := R.LANEn_STATUS_sig_det n) 0 hs).ite h₂
  exact Beside.ite ((h₃.setReg 0x101010 heb).setLane _ _) h₃

theorem Beside.laneStart (h : Beside s₀ s) : Beside s₀ (s.laneStart n) := by
  obtain ⟨hs, -⟩ := lane_reached hn
  exact h.ite (((h.wr (f := R.LANEn_STATUS_tx_idle n) 0 hs).wr (f := R.LANEn_STATUS_state n) 1 hs).ite (h.wr (f := R.LANEn_STATUS_tx_idle n) 1 hs))
end

theorem Beside.stopNetTests (h : Beside s₀ s) : Beside s₀ s.stopNetTests := by
  unfold State.stopNetTests
  refine h.ite (h.foldl fun t n hn ht => ?_)
  have hn : n < 12 := by
    rcases List.mem_pair.1 hn with rfl | rfl <;> decide
  obtain ⟨hs, -, hint, -, hloop, hprbs⟩ := lane_reached hn
  have hgen (u : State) (hu : Beside s₀ u) : Beside s₀ (u.hw ⟨R.LANEn_PRBS_CTRL n, 0, 4⟩ 0) := hu.hw 0 hprbs
  refine Beside.ite (Beside.raise (f := R.LANEn_INT_STATUS_gen_stopped n) hint ?_)
    (Beside.ite ((hgen t ht).raise (f := R.LANEn_INT_STATUS_gen_stopped n) hint) ht)
  have hoff := hgen _ (ht.hw (f := ⟨R.LANEn_LOOP n, 0, 2⟩) 0 hloop)
  exact ((hoff.laneBelow hn 3).wr (f := R.LANEn_STATUS_sig_det n) 1 hs |>.ite hoff).setLane _ _

/-! ## Safe states and fault reports (19 R482 to R486) -/

theorem Beside.applySafe (h : Beside s₀ s) : Beside s₀ s.applySafe := by
  unfold State.applySafe
  extract_lets s₁ s₂ hard s₃ s₄
  have h₁ : Beside s₀ s₁ := h.judgeFence.stopNetTests
  have h₂ : Beside s₀ s₂ := h₁.foldl fun t g hg ht =>
    (ht.tdmSafe _ (List.mem_range.1 hg)).ite (ht.setGrp _ (List.mem_range.1 hg))
  have h₃ : Beside s₀ s₃ := h₂.foldl fun t a ha ht =>
    (ht.ampSafe _ _ (List.mem_range.1 ha)).ampUnsafe _ _ (List.mem_range.1 ha)
  have h₄ : Beside s₀ s₄ := h₃.foldl fun t i hi ht => by
    have := List.mem_range.1 hi
    exact ht.wr (f := bitAt (R.LANEn_STATUS (2 + i)) 10) 1 (lane_reached (by omega)).1
  exact Beside.ite (Beside.ite ((h₄.wr (f := R.CLK_STATUS_clk_ok) 0 rfl).emit _) h₄) h₃

theorem Beside.assertErr (l : Nat) (h : Beside s₀ s) : Beside s₀ (s.assertErr l) := by
  unfold State.assertErr
  refine Beside.ite ?_ h
  extract_lets q s₁ s₂
  have h₁ : Beside s₀ s₁ := h.congr
  have h₂ : Beside s₀ s₂ := h₁.hw (f := R.FLT_ERR_CTRL_hold) 1 rfl
  exact h₂.ite ((h₂.wr (f := R.FLT_STATUS_err_n) 1 rfl).emit _)

theorem Beside.react (source l : Nat) (h : Beside s₀ s) : Beside s₀ (s.react source l) := by
  unfold State.react
  refine Beside.ite ?_ (Beside.ite ?_ (Beside.ite ?_ h))
  · extract_lets scope q s₁
    have h₁ : Beside s₀ s₁ := h.congr
    exact h.ite (h₁.wr (f := bitAt R.FLT_STATUS 18) 1 rfl).applySafe
  · exact ((h.wr (f := bitAt R.FLT_STATUS 19) 1 rfl).hwMode 11 true).applySafe
  · extract_lets q s₁
    have h₁ : Beside s₀ s₁ := h.congr
    exact ((h₁.wr (f := bitAt R.FLT_STATUS 20) 1 rfl).wr (f := R.FLT_STATUS_halted) 1 rfl).applySafe

theorem Beside.logRecord (r : FaultRecord) (h : Beside s₀ s) : Beside s₀ (s.logRecord r) := by
  have hadd (r : FaultRecord) : Beside s₀ { s with flt := { s.flt with records := s.flt.records ++ [r] } } :=
    h.congr (hf := by rw [List.map_append]; exact List.prefix_append _ _)
  exact (hadd _).ite (((hadd _).bump (f := highHalf R.FLT_LOG_STATUS) 1 rfl).raise (f := R.FLT_INT_STATUS_log_ovf) rfl)

/-- A repeat leaves a record's origin. -/
theorem map_origin_mergeRecord (source code level : Nat) (injected : Bool) (l : List FaultRecord) :
    (mergeRecord source code level injected l).map FaultRecord.origin = l.map FaultRecord.origin := by
  induction l with
  | nil => rfl
  | cons r l ih =>
    simp only [mergeRecord]
    split
    · rfl
    · rw [List.map_cons, ih, List.map_cons]

theorem Beside.reportAs (source code level : Nat) (injected : Bool) (h : Beside s₀ s) : Beside s₀ (s.reportAs source code level injected) := by
  unfold State.reportAs
  split
  · next r _ =>
    extract_lets q s₁
    have h₁ : Beside s₀ s₁ := h.congr (hf := by rw [map_origin_mergeRecord])
    exact h₁.bump (f := highHalf (fltCount r.level)) 1 (fltCount_reached _)
  · extract_lets l
    split
    extract_lets r s₁ s₂
    have h₁ : Beside s₀ s₁ := (h.logRecord r).raise (f := bitAt R.FLT_INT_STATUS l) rfl
    have h₂ : Beside s₀ s₂ := (h₁.raise (f := R.FLT_INT_STATUS_escalated) rfl).ite h₁
    exact ((h₂.bump (f := lowHalf (fltCount l)) 1 (fltCount_reached _)).assertErr l).react source l

theorem Beside.report (source code level : Nat) (h : Beside s₀ s) : Beside s₀ (s.report source code level) := h.reportAs ..

/-! ## Clocks (10 R276 to R290) -/

theorem Beside.settleClocks (h : Beside s₀ s) : Beside s₀ s.settleClocks := by
  unfold State.settleClocks
  extract_lets follow common s₁ on timed want s₂ ok
  have h₁ : Beside s₀ s₁ := h.wr (f := R.CLK_STATUS_common) _ rfl
  have h₂ : Beside s₀ s₂ :=
    h₁.ite (((h₁.wr (f := R.CLK_STATUS_hw_holdover) _ rfl).raise (f := R.CLK_INT_STATUS_holdover_chg) rfl).hwMode 8 want)
  exact h₂.ite ((h₂.wr (f := R.CLK_STATUS_clk_ok) _ rfl).emit _)

theorem Beside.domFault (hf : reached f.addr = true) (h : Beside s₀ s) : Beside s₀ (s.domFault x f) := (h.raise hf).report ..

section
variable (hx : x < 3)
include hx

theorem Beside.setDomState (v : Nat) (h : Beside s₀ s) : Beside s₀ (s.setDomState x v) :=
  h.wr (f := R.CLK_DOMx_STATUS_state x) v (domain_reached hx).1

theorem Beside.judgeClamp (h : Beside s₀ s) : Beside s₀ (s.judgeClamp x) := by
  obtain ⟨hs, hint⟩ := domain_reached hx
  have hclamp (v : Nat) : Beside s₀ (s.wr (R.CLK_DOMx_STATUS_clamp x) v) := h.wr v hs
  exact (hclamp 0).ite (h.ite (Beside.domFault (f := R.CLK_DOMx_INT_STATUS_clamp x) hint (hclamp 1)))

theorem Beside.setRamp (ppb : Int) (h : Beside s₀ s) : Beside s₀ (s.setRamp x ppb) :=
  Beside.judgeClamp hx ((h.setDpll x _).wr (f := R.CLK_DOMx_STATUS_ramp x) _ (domain_reached hx).1)

theorem Beside.acquire (c : Nat) (h : Beside s₀ s) : Beside s₀ (s.acquire x c) := by
  obtain ⟨hs, -⟩ := domain_reached hx
  unfold State.acquire
  extract_lets s₁ q s₂
  have h₁ : Beside s₀ s₁ := (h.wr (f := R.CLK_DOMx_STATUS_selected x) c hs).wr (f := R.CLK_DOMx_STATUS_stage x) 1 hs
  have h₂ : Beside s₀ s₂ := h₁.setDpll x _
  exact (h₂.setDomState hx 2).ite h₂

theorem Beside.startCapture (c : Nat) (h : Beside s₀ s) : Beside s₀ (s.startCapture x c) :=
  Beside.setDomState hx 4 (Beside.wr (f := R.CLK_DOMx_STATUS_capturing x) c (domain_reached hx).1 ((h.setRamp hx 0).ite h))

theorem Beside.loseFrom (c : Nat) (h : Beside s₀ s) : Beside s₀ (s.loseFrom c x) := by
  obtain ⟨hs, hint⟩ := domain_reached hx
  unfold State.loseFrom
  extract_lets s₁ s₂ s₃
  have h₁ : Beside s₀ s₁ := (h.raise (f := R.CLK_DOMx_INT_STATUS_force_lost x) hint).ite h
  have h₂ : Beside s₀ s₂ := (h₁.wr (f := R.CLK_DOMx_STATUS_capturing x) 15 hs).ite h₁
  have h₃ : Beside s₀ s₃ := h₂.domFault (f := R.CLK_DOMx_INT_STATUS_ref_lost x) hint
  exact h.ite (Beside.ite ((h₃.setRamp hx 0).ite h₃) h₂)

theorem Beside.reselect (h : Beside s₀ s) : Beside s₀ (s.reselect x) := by
  unfold State.reselect
  split
  · exact h
  · split
    · exact h
    · next e _ =>
      have hcap := h.startCapture hx e
      exact Beside.ite (h.ite (h.acquire hx e)) (Beside.ite (h.ite hcap) (Beside.ite (hcap.ite h)
        (Beside.ite (Beside.ite (h.ite hcap) (h.ite hcap)) h)))
end

theorem Beside.reselectAll (h : Beside s₀ s) : Beside s₀ s.reselectAll :=
  Beside.settleClocks (((h.reselect (by decide)).reselect (by decide)).reselect (by decide))

/-- One of the three domains. -/
theorem lt_three_of_mem (hx : x ∈ [0, 1, 2]) : x < 3 := by
  fin_cases hx <;> decide

section
variable (hc : c < 9)
include hc

theorem Beside.setCandState (v : Nat) (h : Beside s₀ s) : Beside s₀ (s.setCandState c v) := by
  refine h.ite (Beside.foldl (h.wr (f := R.CLK_CANDc_STATUS_state c) v (candidate_reached hc).1) fun t x hx ht => ?_)
  exact (ht.raise (f := R.CLK_DOMx_INT_STATUS_cand_change x) (domain_reached (lt_three_of_mem hx)).2).ite ht

theorem Beside.disqualify (reason next : Nat) (h : Beside s₀ s) : Beside s₀ (s.disqualify c reason next) := by
  obtain ⟨hs, hcount⟩ := candidate_reached hc
  have hstate : Beside s₀ ((s.setCand c {}).setCandState c next) := (h.setCand c {}).setCandState hc next
  refine Beside.ite (Beside.reselectAll (Beside.foldl ((hstate.wr (f := R.CLK_CANDc_STATUS_reason c) reason hs).bump
    (f := highHalf (R.CLK_CANDc_COUNT c)) 1 hcount) fun t x hx ht => ?_)) hstate
  exact ht.loseFrom (lt_three_of_mem hx) c

theorem Beside.candEnable (h : Beside s₀ s) : Beside s₀ (s.candEnable c) :=
  Beside.ite ((h.setCandState hc 1).ite h) (h.ite (h.disqualify hc 7 0))
end

theorem Beside.sourceLoss (hc : c < 9) (h : Beside s₀ s) : Beside s₀ (s.sourceLoss c) := h.ite (h.disqualify hc 6 1)

/-! ## Nerax links (14 R368, R375) -/

theorem Beside.endResync (h : Beside s₀ s) : Beside s₀ s.endResync := by
  unfold State.endResync
  extract_lets s₁ q s₂
  have h₁ : Beside s₀ s₁ := (h.wr (f := R.FOV_STATUS_sync) 0 rfl).ite h
  have h₂ : Beside s₀ s₂ := h₁.setFov _
  exact ((h₂.setFov _).weirDrop 2).ite h₂

theorem Beside.concealLink (k : Nat) (h : Beside s₀ s) : Beside s₀ (s.concealLink k) := h.foldl fun _ _ _ ht => ht.congr

section
variable (hk : k < 4)
include hk

theorem Beside.setLinkState (v : Nat) (h : Beside s₀ s) : Beside s₀ (s.setLinkState k v) :=
  h.wr (f := R.NRXk_STATUS_state k) v (link_reached hk).1

theorem Beside.lanesReady (h : Beside s₀ s) : Beside s₀ (s.lanesReady k) := Beside.ite (h.setLinkState hk 2) h

theorem Beside.leadLoss (h : Beside s₀ s) : Beside s₀ (s.leadLoss k) := by
  have htiming : Beside s₀ (s.wr (R.NRXk_STATUS_timing_valid k) 0) := h.wr _ (link_reached hk).1
  exact Beside.ite (htiming.sourceLoss (by decide)).settleClocks htiming

theorem Beside.linkFall (h : Beside s₀ s) : Beside s₀ (s.linkFall k) := by
  obtain ⟨hs, hint, hcount1, hcount2⟩ := link_reached hk
  unfold State.linkFall
  extract_lets st l lost s₁ s₂ s₃ s₄
  have h₁ : Beside s₀ s₁ := (h.bump (f := highHalf (R.NRXk_COUNT2 k)) _ hcount2).setLinkState hk 1
  have h₂ : Beside s₀ s₂ := h₁.setLink k _
  have h₃ : Beside s₀ s₃ :=
    ((h₂.bump (f := highHalf (R.NRXk_COUNT1 k)) 1 hcount1).raise (f := R.NRXk_INT_STATUS_link_down k) hint).report ..
  have h₄ : Beside s₀ s₄ := h₃.endResync.ite h₃
  exact h.ite (Beside.ite (((h₄.concealLink k).leadLoss hk).lanesReady hk) ((h₂.leadLoss hk).lanesReady hk))

theorem Beside.linkEnable (h : Beside s₀ s) : Beside s₀ (s.linkEnable k) :=
  Beside.ite (Beside.ite ((h.setLinkState hk 1).lanesReady hk) h) (h.ite ((h.linkFall hk).setLinkState hk 0))
end

/-! ## The pair (15 R386, R387; 03 R101) -/

theorem Beside.requestRole (keeper : Bool) (h : Beside s₀ s) : Beside s₀ (s.requestRole keeper) := (h.hwMode 1 keeper).hwMode 2 (!keeper)

theorem Beside.judgeSole (h : Beside s₀ s) : Beside s₀ s.judgeSole := by
  refine h.ite (Beside.ite ((h.wr (f := R.FOV_STATUS_sole) 1 rfl).raise (f := R.FOV_INT_STATUS_peer_gone) rfl) ?_)
  exact Beside.setFov (((h.wr (f := R.FOV_STATUS_sole) 0 rfl).wr (f := R.FOV_STATUS_armed) 0 rfl).raise (f := R.FOV_INT_STATUS_peer_back) rfl) _

theorem Beside.noteSwitch (h : Beside s₀ s) : Beside s₀ s.noteSwitch := (h.setReg _ rfl).setReg _ rfl

theorem Beside.becomeKeeper (h : Beside s₀ s) : Beside s₀ s.becomeKeeper :=
  Beside.applySafe (Beside.requestRole true (Beside.noteSwitch (Beside.setFov
    (((h.wr (f := R.FOV_STATUS_state) 3 rfl).wr (f := R.FOV_STATUS_armed) 0 rfl).raise (f := R.FOV_INT_STATUS_took) rfl) _)))

theorem Beside.fastTake (h : Beside s₀ s) : Beside s₀ s.fastTake := Beside.ite (h.bump (f := lowHalf R.FOV_COUNT0) 1 rfl).becomeKeeper h

theorem Beside.enterPair (h : Beside s₀ s) : Beside s₀ s.enterPair := by
  have hstate (r : Fov) : Beside s₀ ((((s.setFov r).setFovState 1).wr R.FOV_STATUS_sync 0).wr R.FOV_STATUS_armed 0) :=
    (((h.setFov r).wr (f := R.FOV_STATUS_state) 1 rfl).wr (f := R.FOV_STATUS_sync) 0 rfl).wr (f := R.FOV_STATUS_armed) 0 rfl
  exact ((hstate _).requestRole false).judgeSole.applySafe.fastTake

/-! ## Streams and amplifiers at the first sample (12 R333, R337; 09 R259) -/

theorem Beside.beginStreams (h : Beside s₀ s) : Beside s₀ s.beginStreams := by
  unfold State.beginStreams
  extract_lets s₁
  have h₁ : Beside s₀ s₁ := h.foldl fun t n hn ht => by
    have hset (r : TxStream) : Beside s₀ (t.setTx n r) := ht.congr
    exact Beside.ite ((hset _).wr (f := txState n) 1 (stream_reached (List.mem_range.1 hn)).1) ht
  exact h₁.foldl fun t n hn ht => by
    have hset (r : RxStream) : Beside s₀ (t.setRx n r) := ht.congr
    exact Beside.ite ((hset _).wr (f := rxState n) 1 (stream_reached (List.mem_range.1 hn)).2) ht

theorem Beside.beginAmps (h : Beside s₀ s) : Beside s₀ s.beginAmps :=
  h.foldl fun _ _ hc ht => (ht.ampOff (List.mem_range.1 hc)).ite ht

end Sys2Proof.Machine
end

section
/-!
Takes whose register bits act by their value alone (03 R87 to R89, R92, R95, R96): what each of the take's steps brings to the registers, and what
the hardware's requests for a mode do (R102).
-/
namespace Sys2Proof.Machine

variable {s s₀ t u : State} {a : Nat} {mask : Word} {new : BitVec 12} {ovs : List Overlay}

/-! ## Lists -/

theorem nodup_eraseDups {α : Type} [BEq α] [LawfulBEq α] (l : List α) : l.eraseDups.Nodup := by
  match l with
  | [] => exact List.nodup_nil
  | a :: l =>
    rw [List.eraseDups_cons, List.nodup_cons]
    refine ⟨fun h => ?_, nodup_eraseDups _⟩
    have hm := List.mem_eraseDups.1 h
    simp at hm
termination_by l.length
decreasing_by
  have := List.length_filter_le (fun b => !b == a) l
  simp only [List.length_cons]
  omega

/-! ## Register bits of a take (R87, R92; 00 R15) -/

theorem quiet_blocks (hq : quietReg a = true) : a / 0x10000 = 24 ∨ a / 0x10000 = 25 ∨ a / 0x10000 = 26 ∨ a / 0x10000 = 27 := by
  simp only [quietReg, Bool.and_eq_true, List.contains_eq_mem, decide_eq_true_eq, List.mem_cons, List.not_mem_nil, or_false] at hq
  exact hq.1

theorem quiet_bounds (hq : quietReg a = true) : 0x180000 ≤ a ∧ a < 0x1C0000 := by
  have := quiet_blocks hq
  omega

theorem quiet_ne {b : Nat} (hq : quietReg a = true) (hb : quietReg b = false) : a ≠ b := fun h => by
  rw [h, hb] at hq
  exact Bool.noConfusion hq

theorem quiet_not_reached (hq : quietReg a = true) : reached a = false := by
  obtain ⟨hl, -⟩ := quiet_bounds hq
  exact not_reached_of_high (by omega)

/-- The registers of `l` came to the bits the layers decide, and no other register changed. -/
structure Brought (l : List (Nat × Word)) (s t : State) : Prop where
  rest : { t with regs := s.regs, layers := s.layers } = s
  layered : ∀ b, t.layered b = s.layered b
  reg : ∀ b, b ∉ l.map Prod.fst → t.reg b = s.reg b
  met : ∀ r ∈ l, t.reg r.1 &&& r.2 = s.layered r.1 &&& r.2

theorem Brought.cfg {l : List (Nat × Word)} (h : Brought l s t) : t.cfg = s.cfg := (congrArg State.cfg h.rest :)
theorem Brought.doms {l : List (Nat × Word)} (h : Brought l s t) : t.doms = s.doms := (congrArg State.doms h.rest :)
theorem Brought.ssm {l : List (Nat × Word)} (h : Brought l s t) : t.ssm = s.ssm := (congrArg State.ssm h.rest :)
theorem Brought.dram {l : List (Nat × Word)} (h : Brought l s t) : t.dram = s.dram := (congrArg State.dram h.rest :)

theorem Brought.cons {r : Nat × Word} {l : List (Nat × Word)} (h : Brought [r] s t) (h' : Brought l t u) (hr : r.1 ∉ l.map Prod.fst) :
    Brought (r :: l) s u := by
  refine ⟨by rw [← h.rest, ← h'.rest], fun b => (h'.layered b).trans (h.layered b), fun b hb => ?_, fun q hq => ?_⟩
  · rw [List.map_cons, List.mem_cons, not_or] at hb
    exact (h'.reg b hb.2).trans (h.reg b (by simpa using hb.1))
  · rcases List.mem_cons.1 hq with rfl | hq
    · rw [h'.reg _ hr]
      exact h.met _ (List.mem_singleton_self _)
    · rw [h'.met q hq, h.layered]

/-- A register other than CFG_MODE_HELD takes no part in what the layers decide. -/
theorem State.layered_settle (s : State) (mask : Word) (ha : R.CFG_MODE_HELD ≠ a) (b : Nat) : (s.settle a mask).layered b = s.layered b :=
  State.layered_congr (s := s) (t := s.settle a mask) rfl rfl (s.reg_setReg_ne _ ha) b

theorem State.reg_settle_self (s : State) (a : Nat) (mask : Word) :
    (s.settle a mask).reg a = (s.reg a &&& ~~~mask) ||| (s.layered a &&& mask) := s.reg_setReg_self ..

/-- The SH bits taken just after they were marked as waiting. -/
def State.shSettled (s : State) (a : Nat) : State := ((s.setShWaits a true).settle a (shMask a)).setShWaits a false

theorem State.shTake_setShWaits (s : State) (a : Nat) : (s.setShWaits a true).shTake a = s.shSettled a := by
  refine if_pos ?_
  simp only [State.shWaits, State.setShWaits, if_true]
  split
  · assumption
  · simp

theorem State.shSettled_rest (s₀ s : State) (a : Nat) :
    { s.shSettled a with regs := s₀.regs, layers := s₀.layers } = { s with regs := s₀.regs, layers := s₀.layers } := rfl

theorem State.bring_quiet (hq : quietReg a = true) (mask : Word) : s.bring a mask =
    if mask &&& shMask a = 0 then s.settle a (mask &&& ~~~shMask a) else (s.settle a (mask &&& ~~~shMask a)).shSettled a := by
  obtain ⟨hlow, hhigh⟩ := quiet_bounds hq
  have hne := quiet_ne (b := R.TLM_EN) hq rfl
  have hblock := quiet_blocks hq
  have hmask : imageMask a = 0xFFFFFFFF := by
    rcases hblock with h | h | h | h
    all_goals simp [imageMask, h]
  have hchanged (t : State) (old : Word) : t.changed a old = t := by
    rcases hblock with h | h | h | h
    all_goals simp [State.changed, h, hne]
  have hsh (t : State) : t.shEffect a = t.shTake a := by
    rcases hblock with h | h | h | h
    all_goals
      simp only [State.shEffect, h]
      exact if_neg (by omega)
  have hroute : ¬(R.RTR_ROUTEd 0 ≤ a ∧ a < R.RTR_ROUTEd 8192) := by
    simp only [R.RTR_ROUTEd]
    omega
  have hall : mask &&& imageMask a = mask := by
    rw [hmask]
    exact BitVec.and_allOnes
  simp only [State.bring, hall, if_neg (show ¬2 ^ 40 ≤ a by omega), if_neg hroute, hchanged, ite_self, hsh, State.shTake_setShWaits]

/-- The bits of `mask` that a settling of some and of some others brings. -/
theorem settled_bits (old v : Word) (mask sh : Word) :
    ((((old &&& ~~~(mask &&& ~~~sh)) ||| (v &&& (mask &&& ~~~sh))) &&& ~~~sh) ||| (v &&& sh)) &&& mask = v &&& mask := by
  ext i hi
  simp only [BitVec.getElem_and, BitVec.getElem_or, BitVec.getElem_not]
  cases old[i] <;> cases v[i] <;> cases mask[i] <;> cases sh[i] <;> rfl

theorem settled_bits_plain (old v mask : Word) : ((old &&& ~~~mask) ||| (v &&& mask)) &&& mask = v &&& mask := by
  ext i hi
  simp only [BitVec.getElem_and, BitVec.getElem_or, BitVec.getElem_not]
  cases old[i] <;> cases v[i] <;> cases mask[i] <;> rfl

theorem State.bring_brought (s : State) (hq : quietReg a = true) (mask : Word) : Brought [(a, mask)] s (s.bring a mask) := by
  have hheld : R.CFG_MODE_HELD ≠ a := (quiet_ne hq rfl).symm
  rw [State.bring_quiet hq]
  have hreg (k : Word) (b : Nat) (hb : b ∉ [(a, mask)].map Prod.fst) : (s.settle a k).reg b = s.reg b :=
    s.reg_setReg_ne _ (by simpa using hb)
  split
  case isTrue hsh =>
    have hplain : mask &&& ~~~shMask a = mask := by
      ext i hi
      have hi' := congrArg (fun w => w.getLsbD i) hsh
      simp only [BitVec.getLsbD_and] at hi'
      rw [← BitVec.getLsbD_eq_getElem, ← BitVec.getLsbD_eq_getElem, BitVec.getLsbD_and, BitVec.getLsbD_not]
      cases hm : mask.getLsbD i <;> simp_all
    rw [hplain]
    refine ⟨rfl, s.layered_settle _ hheld, hreg _, fun r hr => ?_⟩
    obtain rfl := List.mem_singleton.1 hr
    rw [State.reg_settle_self]
    exact settled_bits_plain ..
  case isFalse =>
    generalize hs₁ : s.settle a (mask &&& ~~~shMask a) = s₁
    have hlay₁ (b : Nat) : s₁.layered b = s.layered b := hs₁ ▸ s.layered_settle _ hheld b
    have hlay (b : Nat) : (s₁.shSettled a).layered b = s₁.layered b := State.layered_settle (s₁.setShWaits a true) _ hheld b
    refine ⟨by rw [State.shSettled_rest, ← hs₁]; rfl, fun b => (hlay b).trans (hlay₁ b), fun b hb => ?_, fun r hr => ?_⟩
    · rw [← hreg (mask &&& ~~~shMask a) b hb, hs₁]
      exact s₁.reg_setReg_ne _ (by simpa using hb)
    · obtain rfl := List.mem_singleton.1 hr
      have hval : (s₁.shSettled a).reg a = (s₁.reg a &&& ~~~shMask a) ||| (s₁.layered a &&& shMask a) := s₁.reg_setReg_self ..
      rw [hval, hlay₁, ← hs₁, State.reg_settle_self]
      exact settled_bits ..

theorem State.bringAt_brought (s : State) (hq : quietReg a = true) (mask : Word) : Brought [(a, mask)] s (s.bringAt a mask) := by
  obtain ⟨hlow, hhigh⟩ := quiet_bounds hq
  have hdom : s.domainOf a = s.takeDom := by
    rcases quiet_blocks hq with h | h | h | h
    all_goals
      simp only [State.domainOf, h]
      exact if_neg (by omega)
  have hnow : s.takesNow (s.domainOf a) = true := by simp [State.takesNow, hdom]
  have hreg : s.bringRegister a mask = s.bring a mask := if_pos (Or.inl (by omega))
  rw [show s.bringAt a mask = s.bringRegister a mask from if_pos hnow, hreg]
  exact s.bring_brought hq mask

theorem State.foldl_bringAt_brought (s : State) (l : List (Nat × Word)) (hq : ∀ r ∈ l, quietReg r.1 = true) (hl : (l.map Prod.fst).Nodup) :
    Brought l s (l.foldl (fun s r => s.bringAt r.1 r.2) s) := by
  induction l generalizing s with
  | nil => exact ⟨rfl, fun _ => rfl, fun _ _ => rfl, fun _ h => absurd h List.not_mem_nil⟩
  | cons r l ih =>
    rw [List.map_cons, List.nodup_cons] at hl
    exact (s.bringAt_brought (hq r (List.mem_cons_self ..)) r.2).cons (ih _ (fun q h => hq q (List.mem_cons_of_mem _ h)) hl.2) hl.1

theorem nodup_changedRegs (ovs ovs' : List Overlay) (old new : BitVec 12) : ((changedRegs ovs ovs' old new).map Prod.fst).Nodup := by
  have hmap (l : List Nat) (f : Nat → Word) : (l.map fun a => (a, f a)).map Prod.fst = l := by
    rw [List.map_map]
    exact List.map_id l
  unfold changedRegs
  dsimp only
  rw [hmap]
  exact nodup_eraseDups _

/-! ## The change of the held set (R87, R92) -/

/-- The layers decide by the overlays, the held set and what is stored in them. -/
theorem State.layered_of_overlays (hl : t.layers = s.layers) (ho : t.cfg.overlays = s.cfg.overlays)
    (hh : t.reg R.CFG_MODE_HELD = s.reg R.CFG_MODE_HELD) (a : Nat) : t.layered a = s.layered a := by
  simp only [State.layered, hl, ho, hh]

/-- The held set is `new`, the overlays are `ovs`, and the register bits of the change stand as the layers decide; no settings beside quiet
registers changed. -/
structure Changed (new : BitVec 12) (ovs : List Overlay) (s t : State) : Prop where
  held : t.held = new
  met : ∀ r ∈ changedRegs s.cfg.overlays ovs s.held new, t.reg r.1 &&& r.2 = t.layered r.1 &&& r.2
  reg : ∀ a, quietReg a = false → reached a = false → a ≠ R.CFG_MODE_HELD → t.reg a = s.reg a
  overlays : t.cfg.overlays = ovs
  takeDomain : t.cfg.takeDomain = s.cfg.takeDomain
  doms : t.doms = s.doms
  ssm : t.ssm = s.ssm
  dram : t.dram = s.dram

theorem held_setWidth (v : BitVec 12) (h : t.reg R.CFG_MODE_HELD = v.setWidth 32) : t.held = v := by
  rw [State.held, h, BitVec.setWidth_setWidth_of_le _ (by omega), BitVec.setWidth_eq]

theorem State.pathsChanged_locksOnly (s : State) (x : Nat) : LocksOnly s (s.pathsChanged x) :=
  (LocksOnly.refl s).foldl fun t l ht => by
    split
    · exact ht.setLock _ _
    · exact ht

theorem State.changeHeld_changed (hq : s.quietChange new ovs) : Changed new ovs s (s.changeHeld new ovs) := by
  obtain ⟨hsecs, hwords, hregs, -⟩ := hq
  unfold State.changeHeld
  extract_lets old cur secs regs bank q s₁ s₂ s₃ s₄
  have hnone : inOrder ([] : List SectionContent) = [] := by decide
  have h₂ : s₂ = s₁ := by
    change (inOrder secs).foldl _ s₁ = s₁
    rw [show secs = [] from hsecs, hnone]
    rfl
  have h₃ : LocksOnly s₂ s₃ := s₂.pathsChanged_locksOnly _
  have h₄ : Brought regs s₃ s₄ := s₃.foldl_bringAt_brought regs hregs (nodup_changedRegs ..)
  rw [show addedWords bank ovs old new = [] from hwords]
  have hcfg : s₃.cfg = { s.cfg with overlays := ovs } := by
    rw [(congrArg State.cfg h₃.rest :), h₂]
    rfl
  have hreg₁ (a : Nat) (ha : a ≠ R.CFG_MODE_HELD) : s₁.reg a = s.reg a := State.reg_setReg_ne _ _ ha
  have hquiet (a : Nat) (ha : quietReg a = false) : s₄.reg a = s₁.reg a := by
    rw [h₄.reg a ?_, h₃.reg, h₂]
    intro hm
    obtain ⟨r, hr, rfl⟩ := List.mem_map.1 hm
    rw [hregs r hr] at ha
    exact Bool.noConfusion ha
  refine ⟨held_setWidth _ ?_, fun r hr => ?_, fun a ha _ hheld => (hquiet a ha).trans (hreg₁ a hheld), ?_, ?_, ?_, ?_, ?_⟩
  · rw [List.foldl_nil, hquiet _ rfl]
    exact State.reg_setReg_self ..
  · rw [List.foldl_nil, h₄.layered]
    exact h₄.met r hr
  · rw [List.foldl_nil, h₄.cfg, hcfg]
  · rw [List.foldl_nil, h₄.cfg, hcfg]
  · rw [List.foldl_nil, h₄.doms, h₃.doms, h₂]
    rfl
  · rw [List.foldl_nil, h₄.ssm, h₃.ssm, h₂]
    rfl
  · rw [List.foldl_nil, h₄.dram, h₃.dram, h₂]
    rfl

theorem Beside.setModeLeave (m n : Nat) (h : Beside s₀ s) : Beside s₀ (s.setModeLeave m n) := h.congr

/-- Leave moves amounts of WEIR alone. -/
theorem State.moveLeave_beside (s : State) (old new : BitVec 12) : Beside s (s.moveLeave old new) :=
  (Beside.refl s).foldl fun _ m _ ht => Beside.ite ((ht.setRequester 3 _).setModeLeave m _) ((ht.setModeLeave m 0).ite ht)

/-- A change that keeps the pair and MAINTENANCE settles the clocks and the safe states. -/
theorem State.modesChanged_of_kept {old : BitVec 12} (s : State) (hpair : (hasMode new 1 || hasMode new 2) = (hasMode old 1 || hasMode old 2))
    (hmaint : hasMode old 9 = true → hasMode new 9 = true) : s.modesChanged old new = s.settleClocks.applySafe := by
  have hm : ¬(hasMode old 9 && !hasMode new 9) = true := by
    cases h : hasMode old 9
    · simp
    · simp [hmaint h]
  simp only [State.modesChanged, hpair, Bool.and_not_self, Bool.false_eq_true, if_false, if_neg hm]

theorem Changed.beside (h : Changed new ovs s t) (hq : ∀ r ∈ changedRegs s.cfg.overlays ovs s.held new, quietReg r.1 = true)
    (hb : Beside t u) : Changed new ovs s u := by
  refine ⟨hb.held.trans h.held, fun r hr => ?_, fun a ha hr hh => (hb.reg a hr).trans (h.reg a ha hr hh),
    by rw [hb.cfg, h.overlays], by rw [hb.cfg, h.takeDomain],
    hb.doms.trans h.doms, hb.ssm.trans h.ssm, hb.dram.trans h.dram⟩
  have hr' := quiet_not_reached (hq r hr)
  rw [hb.reg _ hr', hb.layered _ hr']
  exact h.met r hr

theorem hasMode_held (s : State) {m : Nat} (hm : m < 12) : hasMode s.held m = s.holds m := by
  rw [hasMode, State.held, BitVec.getLsbD_setWidth, State.holds, BitVec.testBit_toNat]
  simp [hm]

/-- What else a change of modes brings, where the pair and MAINTENANCE are kept. -/
theorem Changed.modesChanged (h : Changed new ovs s t) (hq : s.quietChange new ovs) : Changed new ovs s (t.modesChanged s.held new) := by
  obtain ⟨-, -, hregs, hpair, hmaint⟩ := hq
  have hpair' : (hasMode new 1 || hasMode new 2) = (hasMode s.held 1 || hasMode s.held 2) := by
    rw [hasMode_held s (by decide), hasMode_held s (by decide)]
    exact hpair
  have hmaint' : hasMode s.held 9 = true → hasMode new 9 = true := by
    rw [hasMode_held s (by decide)]
    exact hmaint
  rw [State.modesChanged_of_kept _ hpair' hmaint']
  exact h.beside hregs (Beside.refl t).settleClocks.applySafe

theorem Changed.setPendingSet (h : Changed new ovs s t) (p : BitVec 12) : Changed new ovs s (t.setCfg { t.cfg with pendingSet := p }) :=
  ⟨h.held, fun r hr => h.met r hr, h.reg, h.overlays, h.takeDomain, h.doms, h.ssm, h.dram⟩

/-! ## The take (R92, R95) -/

/-- The registers in which a take is reported. -/
def takeRegs : List Nat := [R.CFG_STATUS, R.CFG_TAKE_LAST_LO, R.CFG_TAKE_LAST_HI, R.CFG_INT_STATUS]

/-- A change of the held set whose take is reported. -/
theorem Changed.took (h : Changed new ovs s t) (hq : s.quietChange new ovs) (hr : ∀ a, a ∉ takeRegs → u.reg a = t.reg a)
    (hl : u.layers = t.layers) (ho : u.cfg.overlays = t.cfg.overlays)
    (hlast : u.wide R.CFG_TAKE_LAST_LO R.CFG_TAKE_LAST_HI = (s.dom s.takeDom).sample.toNat) (hdone : u.is R.CFG_INT_STATUS_take_done = true) :
    s.took u new ovs := by
  obtain ⟨-, -, hregs, -⟩ := hq
  have hheld : u.reg R.CFG_MODE_HELD = t.reg R.CFG_MODE_HELD := hr _ (by decide)
  refine ⟨?_, fun r hr' => ?_, hlast, hdone⟩
  · simp only [State.held, hheld]
    exact h.held
  · have hout : r.1 ∉ takeRegs := fun hm => by
      have hlow : ∀ a ∈ takeRegs, quietReg a = false := by decide
      exact absurd (hregs r hr') (by simp [hlow _ hm])
    rw [hr _ hout, State.layered_of_overlays hl ho hheld]
    exact h.met r hr'

/-- What `takeDone` reports. -/
theorem State.takeDone_reports (s : State) :
    (∀ a, a ∉ takeRegs → s.takeDone.reg a = s.reg a) ∧ s.takeDone.reg R.CFG_STATUS = s.reg R.CFG_STATUS ∧
    s.takeDone.wide R.CFG_TAKE_LAST_LO R.CFG_TAKE_LAST_HI = (s.dom s.takeDom).sample.toNat ∧
    s.takeDone.is R.CFG_INT_STATUS_take_done = true := by
  unfold State.takeDone
  extract_lets q s₁
  have hreg (a : Nat) (hlo : a ≠ R.CFG_TAKE_LAST_LO) (hhi : a ≠ R.CFG_TAKE_LAST_HI) (v : Nat) :
      (s₁.setWide R.CFG_TAKE_LAST_LO R.CFG_TAKE_LAST_HI v).reg a = s.reg a := by
    rw [State.setWide, State.reg_setReg_ne _ _ hhi, State.reg_setReg_ne _ _ hlo]
    rfl
  refine ⟨fun a ha => ?_, ?_, ?_, State.is_raise _ _ (by decide) (by decide)⟩
  · simp only [takeRegs, List.mem_cons, List.not_mem_nil, or_false, not_or] at ha
    obtain ⟨-, hlo, hhi, hint⟩ := ha
    rw [State.reg_raise_ne _ (f := R.CFG_INT_STATUS_take_done) hint, hreg a hlo hhi]
  · rw [State.reg_raise_ne _ (by decide), hreg _ (by decide) (by decide)]
  · have hraise (t : State) : (t.raise R.CFG_INT_STATUS_take_done).wide R.CFG_TAKE_LAST_LO R.CFG_TAKE_LAST_HI
        = t.wide R.CFG_TAKE_LAST_LO R.CFG_TAKE_LAST_HI := by
      rw [State.wide, State.wide, State.reg_raise_ne _ (by decide), State.reg_raise_ne _ (by decide)]
    rw [hraise, State.wide_setWide _ (by decide) (BitVec.isLt _)]
    rfl

theorem Changed.sample (h : Changed new ovs s t) : (t.dom t.takeDom).sample.toNat = (s.dom s.takeDom).sample.toNat := by
  simp only [State.dom, State.takeDom, h.doms, h.takeDomain]

theorem Changed.takeDone (h : Changed new ovs s t) (hq : s.quietChange new ovs) : s.took t.takeDone new ovs := by
  obtain ⟨hreg, -, hlast, hdone⟩ := t.takeDone_reports
  exact h.took hq hreg rfl rfl (hlast.trans h.sample) hdone

/-- Only the marks of a staging differ: those of the basin, of the filters and of the engines. -/
structure MarksOnly (s t : State) : Prop where
  rest : { t with basin := s.basin, flc := s.flc, engines := s.engines } = s

theorem MarksOnly.setEng (n : Nat) (e : Engine) (h : MarksOnly s₀ s) : MarksOnly s₀ (s.setEng n e) := ⟨h.rest⟩

theorem MarksOnly.foldl {α : Type} {l : List α} {f : State → α → State} (h : MarksOnly s₀ s) (k : ∀ t x, MarksOnly s₀ t → MarksOnly s₀ (f t x)) :
    MarksOnly s₀ (l.foldl f s) := by
  induction l generalizing s with
  | nil => exact h
  | cons x l ih => exact ih (k _ _ h)

theorem MarksOnly.regs (h : MarksOnly s t) : t.regs = s.regs := (congrArg State.regs h.rest :)
theorem MarksOnly.layers (h : MarksOnly s t) : t.layers = s.layers := (congrArg State.layers h.rest :)
theorem MarksOnly.cfg (h : MarksOnly s t) : t.cfg = s.cfg := (congrArg State.cfg h.rest :)
theorem MarksOnly.ssm (h : MarksOnly s t) : t.ssm = s.ssm := (congrArg State.ssm h.rest :)
theorem MarksOnly.dram (h : MarksOnly s t) : t.dram = s.dram := (congrArg State.dram h.rest :)

theorem State.stagingFree_marksOnly (s : State) : MarksOnly s s.stagingFree := by
  unfold State.stagingFree
  extract_lets b f s₁
  have h₁ : MarksOnly s s₁ := ⟨rfl⟩
  exact h₁.foldl fun t n ht => by
    split
    · exact ht.setEng n _
    · exact ht

/-- The staging is over once its take has occurred. -/
theorem State.took_staging_over {c : Cfg} (h : s.took t new ovs) (hq : s.quietChange new ovs) (hc : c.overlays = t.cfg.overlays) :
    s.took ((t.setCfg c).stagingFree.setSeq seqIdle) new ovs := by
  obtain ⟨hheld, hmet, hlast, hdone⟩ := h
  obtain ⟨-, -, hregs, -⟩ := hq
  have hmarks := (t.setCfg c).stagingFree_marksOnly
  generalize (t.setCfg c).stagingFree = w at hmarks
  have hreg (a : Nat) (ha : a ≠ R.CFG_STATUS) : (w.setSeq seqIdle).reg a = t.reg a := by
    rw [State.setSeq, State.reg_wr_ne _ _ ha, State.reg, hmarks.regs]
    rfl
  have hh := hreg R.CFG_MODE_HELD (by decide)
  have hlay (a : Nat) : (w.setSeq seqIdle).layered a = t.layered a := by
    have hover : (w.setSeq seqIdle).cfg.overlays = t.cfg.overlays := (congrArg Cfg.overlays hmarks.cfg).trans hc
    exact State.layered_of_overlays (s := t) (t := w.setSeq seqIdle) hmarks.layers hover hh a
  refine ⟨by simpa only [State.held, hh] using hheld, fun r hr => ?_, ?_, ?_⟩
  · rw [hreg _ (quiet_ne (hregs r hr) rfl), hlay]
    exact hmet r hr
  · rw [State.wide, hreg _ (by decide), hreg _ (by decide)]
    exact hlast
  · simpa only [State.is, State.rd, hreg R.CFG_INT_STATUS_take_done.addr (by decide)] using hdone

/-! ## The two commands -/

theorem State.takeDone_sameMemory (s : State) : SameMemory s s.takeDone := SameMemory.of_eq rfl rfl

theorem Changed.sameMemory (h : Changed new ovs s t) : SameMemory s t := SameMemory.of_eq h.ssm h.dram

theorem exec_overlayTake_waits (h : s.takeReady s.cfgTakeAt = false) : exec .overlayTake s = .next s := by
  simp [exec, execOverlayTake, h]

theorem exec_overlayTake_idle (hseq : s.seq = seqIdle) (hprior : s.cfg.prior = none) : exec .overlayTake s = .next s := by
  have hne : ¬seqIdle = seqArmed := by decide
  simp [exec, execOverlayTake, hseq, hprior, hne]

theorem completes_overlayTake (hready : s.takeReady s.cfgTakeAt = true) (hseq : s.seq = seqArmed) (hnew : new = s.settledSet s.cfg.pendingSet)
    (hovs : ovs = s.overlaysWith new s.cfg.stageContents) (hq : s.quietChange new ovs) :
    Completes .overlayTake s fun t => s.took t new ovs ∧ t.seq = seqIdle ∧ t.cfg.pendingSet = new ∧ SameMemory s t := by
  have ⟨_, _, hregs, _⟩ := hq
  have hchanged := ((State.changeHeld_changed hq).beside hregs (State.moveLeave_beside _ s.held new)).modesChanged hq
  have htook := hchanged.takeDone hq
  have hmem := hchanged.sameMemory.trans (State.takeDone_sameMemory _)
  have hset : s.takeSet s.cfg.pendingSet s.cfg.stageContents
      = (((s.changeHeld new ovs).moveLeave s.held new).modesChanged s.held new).takeDone := by
    rw [hovs, hnew, State.takeSet]
  generalize (((s.changeHeld new ovs).moveLeave s.held new).modesChanged s.held new).takeDone = t at htook hmem hset
  obtain ⟨c, hc, hover, hpending⟩ : ∃ c : Cfg, c = { t.cfg with
      pendingSet := t.held, staged := false, stageContents := [], needLeave := false, prior := none } ∧ c.overlays = t.cfg.overlays ∧
      c.pendingSet = t.held := ⟨_, rfl, rfl, rfl⟩
  have hexec : exec .overlayTake s = .next ((t.setCfg c).stagingFree.setSeq seqIdle) := by
    rw [hc]
    simp only [exec, execOverlayTake, hready, hseq, hset, Bool.not_true, Bool.false_eq_true, if_false, if_true]
  refine ⟨_, hexec, State.took_staging_over htook hq hover, State.seq_setSeq _ (by decide), ?_⟩
  have hmarks := (t.setCfg c).stagingFree_marksOnly
  generalize (t.setCfg c).stagingFree = w at hmarks
  exact ⟨(congrArg Cfg.pendingSet hmarks.cfg).trans (hpending.trans htook.1), hmem.trans (SameMemory.of_eq hmarks.ssm hmarks.dram)⟩

theorem exec_residentModeChange_none (hnew : new = (s.held &&& 0x6F9) ||| s.residentSet)
    (h : s.running = false ∨ s.atBoundary s.takeDom = false ∨ new = s.held) : exec .residentModeChange s = .next s := by
  subst hnew
  rcases h with h | h | h
  · simp [exec, execResidentModeChange, h]
  · simp [exec, execResidentModeChange, h]
  · simp only [exec, execResidentModeChange, if_pos h, ite_self]

theorem completes_residentModeChange (hrun : s.running = true) (hb : s.atBoundary s.takeDom = true)
    (hnew : new = (s.held &&& 0x6F9) ||| s.residentSet) (hne : new ≠ s.held) (hq : s.quietChange new s.cfg.overlays) :
    Completes .residentModeChange s fun t => s.took t new s.cfg.overlays ∧ t.seq = s.seq ∧ SameMemory s t := by
  have hheld := State.changeHeld_changed hq
  have hexec : exec .residentModeChange s = .next ((State.modesChanged (if (s.changeHeld new s.cfg.overlays).seq = seqIdle then
      (s.changeHeld new s.cfg.overlays).setCfg { (s.changeHeld new s.cfg.overlays).cfg with pendingSet := new }
      else s.changeHeld new s.cfg.overlays) s.held new).takeDone) := by
    subst hnew
    simp only [exec, execResidentModeChange, hrun, hb, Bool.not_true, Bool.false_eq_true, or_self, if_false, if_neg hne]
  generalize s.changeHeld new s.cfg.overlays = t at hheld hexec
  have hpend : Changed new s.cfg.overlays s (if t.seq = seqIdle then t.setCfg { t.cfg with pendingSet := new } else t) := by
    split
    · exact hheld.setPendingSet new
    · exact hheld
  have hchanged := hpend.modesChanged hq
  generalize State.modesChanged _ s.held new = u at hchanged hexec
  refine ⟨_, hexec, hchanged.takeDone hq, ?_, hchanged.sameMemory.trans u.takeDone_sameMemory⟩
  obtain ⟨-, hstatus, -⟩ := u.takeDone_reports
  exact State.rd_congr (f := R.CFG_STATUS_seq) (hstatus.trans (hchanged.reg _ rfl rfl (by decide)))

/-! ## Requests of the hardware (R102) -/

theorem exec_hardwareModeRequest_safe (s : State) (on : Bool) : exec (.hardwareModeRequest 11 on) s = .next (
    if s.is (bitAt R.CFG_MODE_HWREQ 11) = on then s
    else (s.wr (bitAt R.CFG_MODE_HWREQ 11) (b2n on)).wr R.CFG_INT_STATUS_hw_mode 1) := by
  simp [exec, execHardwareModeRequest, State.hwMode, State.raise]

theorem exec_hardwareModeRequest_holdover (h : s.is R.CFG_HWREQ_EN_holdover = false) : exec (.hardwareModeRequest 8 true) s = .next s := by
  simp [exec, execHardwareModeRequest, h]

end Sys2Proof.Machine
end

section
open Sys2Proof Sys2Proof.Machine

/-- Settles O16: the change by `State.changeHeld_changed`, what it brings beside by `Changed.modesChanged`, its report by `Changed.takeDone`. -/
theorem takesChangeTheHeldSet : Obligations.TakesChangeTheHeldSet := by
  unfold Obligations.TakesChangeTheHeldSet
  intro s
  exact ⟨exec_overlayTake_waits, exec_overlayTake_idle, fun hready hseq hq => completes_overlayTake hready hseq rfl rfl hq,
    ⟨exec_residentModeChange_none rfl, fun hrun hb hne hq => completes_residentModeChange hrun hb rfl hne hq⟩,
    exec_hardwareModeRequest_safe s, exec_hardwareModeRequest_holdover⟩

end

section
/-!
First audio (21 R531, R532): what a domain that begins reaches. Its engines wait at their gates, its bridges and its outputs start anew; the
settings of the blocks, the held modes and both memories stay as they are.
-/
namespace Sys2Proof.Machine

variable {s₀ s t u : State} {a k n p x : Nat} {f : FieldAt}

/-! ## What a domain's start leaves -/

/-- The registers that the start of a domain can write: those of `reached`, those between FLC and RTR, and the status of the engines. -/
def begun (a : Nat) : Bool := reached a || decide (0x120000 ≤ a ∧ a < 0x160000) || decide (0x160000 ≤ a ∧ a % 0x100 = 0)

/-- Engine `n` waits at its gate, or is held there. -/
def State.waitsAtGate (s : State) (n : Nat) : Prop := s.engState n = if s.engHeld n then 4 else 2

/-- `t` differs from `s` in what the start of a domain reaches: no setting, no domain of an engine and no memory differs; an engine that waits at
its gate and a domain that awaits its first sample still do. -/
structure Begun (s t : State) : Prop where
  reg : ∀ a, begun a = false → t.reg a = s.reg a
  domain : ∀ n, t.engDomain n = s.engDomain n
  gate : ∀ n, s.waitsAtGate n → t.waitsAtGate n
  fresh : ∀ y, (s.dom y).fresh = true → (t.dom y).fresh = true
  cfg : t.cfg = s.cfg
  ssm : t.ssm = s.ssm
  dram : t.dram = s.dram

theorem Begun.refl (s : State) : Begun s s := ⟨fun _ _ => rfl, fun _ => rfl, fun _ => id, fun _ => id, rfl, rfl, rfl⟩

theorem Begun.trans (h : Begun s t) (h' : Begun t u) : Begun s u :=
  ⟨fun a ha => (h'.reg a ha).trans (h.reg a ha), fun n => (h'.domain n).trans (h.domain n),
    fun n hn => h'.gate n (h.gate n hn), fun y hy => h'.fresh y (h.fresh y hy), h'.cfg.trans h.cfg,
    h'.ssm.trans h.ssm, h'.dram.trans h.dram⟩

theorem Begun.ite {p : Prop} [Decidable p] (h : Begun s₀ s) (h' : Begun s₀ t) : Begun s₀ (if p then s else t) := by split <;> assumption

theorem Begun.foldl {α : Type} {l : List α} {f : State → α → State} (h : Begun s₀ s) (k : ∀ t, ∀ x ∈ l, Begun s₀ t → Begun s₀ (f t x)) :
    Begun s₀ (l.foldl f s) := by
  induction l generalizing s with
  | nil => exact h
  | cons x l ih => exact ih (k _ x (List.mem_cons_self ..) h) fun t y hy => k t y (List.mem_cons_of_mem _ hy)

/-- What one step of a sequence brings about stands at its end, where every step keeps it. -/
theorem Begun.foldl_brings {α : Type} {l : List α} {f : State → α → State} {P : State → Prop} {x : α} (hf : ∀ t x, Begun t (f t x))
    (hP : ∀ t u, Begun t u → P t → P u) (hm : x ∈ l) (hx : ∀ t, Begun s t → P (f t x)) : P (l.foldl f s) := by
  obtain ⟨l₁, l₂, rfl⟩ := List.append_of_mem hm
  have hbegun (l : List α) (t : State) : Begun t (l.foldl f t) := (Begun.refl t).foldl fun u y _ hu => hu.trans (hf u y)
  rw [List.foldl_append, List.foldl_cons]
  exact hP _ _ (hbegun l₂ _) (hx _ (hbegun l₁ s))

/-! ## The registers -/

theorem engCtrl_not_reached (n : Nat) : reached (R.ENGn_CTRL n) = false := by
  refine not_reached_of_high ?_
  simp only [R.ENGn_CTRL]
  omega

theorem begun_engStatus (n : Nat) : begun (R.ENGn_STATUS n) = true := by
  have h : 0x160000 ≤ R.ENGn_STATUS n ∧ R.ENGn_STATUS n % 0x100 = 0 := by
    simp only [R.ENGn_STATUS]
    omega
  simp [begun, h]

theorem begun_engCtrl (n : Nat) : begun (R.ENGn_CTRL n) = false := by
  have hc : 0x160000 ≤ R.ENGn_CTRL n ∧ R.ENGn_CTRL n % 0x100 ≠ 0 := by
    simp only [R.ENGn_CTRL]
    omega
  have hlow : ¬(0x120000 ≤ R.ENGn_CTRL n ∧ R.ENGn_CTRL n < 0x160000) := by omega
  simp [begun, engCtrl_not_reached n, hlow, hc]

theorem State.waitsAtGate_congr (hs : t.engState n = s.engState n) (hc : t.engHeld n = s.engHeld n) (h : s.waitsAtGate n) : t.waitsAtGate n := by
  rw [State.waitsAtGate, hs, hc]
  exact h

theorem Begun.engHeld (h : Begun s t) (n : Nat) : t.engHeld n = s.engHeld n := by
  simp only [State.engHeld, State.is, State.rd_congr (f := R.ENGn_CTRL_hold n) (h.reg _ (begun_engCtrl n))]

theorem engStatus_not_reached (n : Nat) : reached (R.ENGn_STATUS n) = false := by
  refine not_reached_of_high ?_
  simp only [R.ENGn_STATUS]
  omega

theorem Begun.of_regs (hr : ∀ a, begun a = false → t.reg a = s.reg a) (hs : ∀ n, t.reg (R.ENGn_STATUS n) = s.reg (R.ENGn_STATUS n))
    (hf : ∀ y, (s.dom y).fresh = true → (t.dom y).fresh = true) (hc : t.cfg = s.cfg) (hm : t.ssm = s.ssm) (hd : t.dram = s.dram) : Begun s t :=
  ⟨hr, fun n => State.rd_congr (f := R.ENGn_STATUS_domain n) (hs n), fun n => State.waitsAtGate_congr (State.engState_congr (hs n)) (by
    simp only [State.engHeld, State.is, State.rd_congr (f := R.ENGn_CTRL_hold n) (hr _ (begun_engCtrl n))]), hf, hc, hm, hd⟩

theorem Begun.of_beside (h : Beside s t) : Begun s t := by
  refine Begun.of_regs (fun a ha => h.reg a ?_) (fun n => h.reg _ (engStatus_not_reached n)) (fun y hy => ?_) h.cfg h.ssm h.dram
  · simp only [begun, Bool.or_eq_false_iff] at ha
    exact ha.1.1
  · rw [h.dom]
    exact hy

/-- A change of no register, no memory and no domain. -/
theorem Begun.congr (h : Begun s₀ s) (hr : t.regs = s.regs := by rfl) (hd : t.doms = s.doms := by rfl) (hc : t.cfg = s.cfg := by rfl)
    (hs : t.ssm = s.ssm := by rfl) (hm : t.dram = s.dram := by rfl) : Begun s₀ t :=
  have hreg (a : Nat) : t.reg a = s.reg a := by simp only [State.reg, hr]
  h.trans (Begun.of_regs (fun a _ => hreg a) (fun _ => hreg _) (fun y hy => by rw [State.dom, hd]; exact hy) hc hs hm)

theorem Begun.setReg (v : Word) (ha : 0x120000 ≤ a ∧ a < 0x160000) (h : Begun s₀ s) : Begun s₀ (s.setReg a v) := by
  refine h.trans (Begun.of_regs (fun b hb => s.reg_setReg_ne v ?_) (fun n => s.reg_setReg_ne v ?_) (fun _ => id) rfl rfl rfl)
  · rintro rfl
    simp [begun, ha] at hb
  · simp only [R.ENGn_STATUS]
    omega

theorem Begun.wr (v : Nat) (hf : 0x120000 ≤ f.addr ∧ f.addr < 0x160000) (h : Begun s₀ s) : Begun s₀ (s.wr f v) := h.setReg _ hf

theorem Begun.setDom {d : Domain} (hd : (s.dom x).fresh = true → d.fresh = true) (h : Begun s₀ s) : Begun s₀ (s.setDom x d) := by
  refine h.trans (Begun.of_regs (fun _ _ => rfl) (fun _ => rfl) (fun y hy => ?_) rfl rfl rfl)
  rw [State.dom, State.setDom, Tab.get_set]
  split
  · next hyx => exact hd (hyx ▸ hy)
  · exact hy

/-! ## Engines -/

/-- The state of an engine is written into its own status register. -/
theorem State.engState_setEngState_ne (s : State) (k : Nat) {m : Nat} (h : m ≠ n) : (s.setEngState n k).engState m = s.engState m :=
  s.rd_wr_other k (by simp only [R.ENGn_STATUS_state, R.ENGn_STATUS]; omega)

theorem State.engDomain_setEngState (s : State) (n k m : Nat) : (s.setEngState n k).engDomain m = s.engDomain m := by
  by_cases h : m = n
  · rw [h]
    exact s.rd_wr_apart k (Or.inl (by decide : (0 : Nat) + 4 ≤ 14))
  · exact s.rd_wr_other k (by simp only [R.ENGn_STATUS_state, R.ENGn_STATUS_domain, R.ENGn_STATUS]; omega)

theorem State.reg_setEngState (s : State) (n k : Nat) (ha : begun a = false) : (s.setEngState n k).reg a = s.reg a := by
  refine s.reg_wr_ne k ?_
  rintro rfl
  exact Bool.noConfusion ((begun_engStatus n).symm.trans ha)

theorem State.engHeld_setEngState (s : State) (n k m : Nat) : (s.setEngState n k).engHeld m = s.engHeld m := by
  simp only [State.engHeld, State.is, State.rd_congr (f := R.ENGn_CTRL_hold m) (s.reg_setEngState n k (begun_engCtrl m))]

/-- An engine that waits at its gate is written to do so. -/
theorem Begun.setEngState (hk : s.waitsAtGate n → (s.setEngState n k).waitsAtGate n) (h : Begun s₀ s) : Begun s₀ (s.setEngState n k) := by
  refine h.trans ⟨fun a ha => s.reg_setEngState n k ha, s.engDomain_setEngState n k, fun m hm => ?_, fun _ => id, rfl, rfl, rfl⟩
  by_cases hmn : m = n
  · exact hmn ▸ hk (hmn ▸ hm)
  · exact State.waitsAtGate_congr (s.engState_setEngState_ne k hmn) (s.engHeld_setEngState n k m) hm

/-- The state an engine waits in, as the start of its domain writes it. -/
theorem State.waitsAtGate_setEngState (s : State) (n : Nat) : (s.setEngState n (if s.engHeld n then 4 else 2)).waitsAtGate n := by
  rw [State.waitsAtGate, s.engHeld_setEngState]
  exact s.engState_setEngState n (by split <;> decide)

theorem Begun.engineRestarts (n k : Nat) (h : Begun s₀ s) : Begun s₀ (s.engineRestarts n k) := by
  unfold State.engineRestarts
  extract_lets st q s₁
  have h₁ : Begun s₀ s₁ := h.congr
  split
  case isTrue h3 =>
    refine h₁.setEngState fun hw => ?_
    have hst : s₁.engState n = 3 := h3
    rw [State.waitsAtGate, hst] at hw
    split at hw
    · exact absurd hw (by decide)
    · exact absurd hw (by decide)
  case isFalse => exact h₁

/-! ## Locks, bridges, streams -/

theorem Begun.clearLock (l : Nat) (h : Begun s₀ s) : Begun s₀ (s.clearLock l) := by
  unfold State.clearLock
  split
  · exact h.congr
  · exact h

theorem Begun.setBpair (p : Nat) (r : BridgePair) (h : Begun s₀ s) : Begun s₀ (s.setBpair p r) := h.congr

section
variable (hp : p < 6)
include hp

theorem pair_begun : (0x120000 ≤ R.BRG_PAIRp_STATUS p ∧ R.BRG_PAIRp_STATUS p < 0x160000) ∧
    (0x120000 ≤ R.BRG_PAIRp_CTRL p ∧ R.BRG_PAIRp_CTRL p < 0x160000) := by
  simp only [R.BRG_PAIRp_STATUS, R.BRG_PAIRp_CTRL]
  omega

theorem Begun.unlockPair (h : Begun s₀ s) : Begun s₀ (s.unlockPair p) := by
  obtain ⟨hs, hctrl⟩ := pair_begun hp
  unfold State.unlockPair
  extract_lets s₁ q s₂
  have hsync : Begun s₀ (s.wr (R.BRG_PAIRp_CTRL_sync p) 0) := h.wr 0 hctrl
  have hhw : Begun s₀ (s.hw (R.BRG_PAIRp_CTRL_sync p) 0) := hsync.congr
  have h₁ : Begun s₀ s₁ := hhw.wr (f := pairState p) 4 hs
  have h₂ : Begun s₀ s₂ := h₁.setBpair p _
  have hraise : Begun s₀ (s₂.raise (pairEvent p 1)) := h₂.wr 1 (by decide : 0x120000 ≤ R.BRG_INT_STATUS ∧ R.BRG_INT_STATUS < 0x160000)
  exact Begun.ite (hraise.trans (Begun.of_beside ((Beside.refl _).report ..))) h

theorem Begun.pairRealigned (x : Nat) (h : Begun s₀ s) : Begun s₀ (s.pairRealigned p x) := by
  obtain ⟨hs, -⟩ := pair_begun hp
  unfold State.pairRealigned
  extract_lets s₁
  have h₁ : Begun s₀ s₁ := (h.unlockPair hp).ite h
  exact Begun.ite (Begun.setBpair p _ (h₁.ite (h₁.wr (f := pairState p) 1 hs))) ((h.unlockPair hp).ite h)
end

theorem Begun.setRx (n : Nat) (r : RxStream) (h : Begun s₀ s) : Begun s₀ (s.setRx n r) := h.congr
theorem Begun.setTx (n : Nat) (r : TxStream) (h : Begun s₀ s) : Begun s₀ (s.setTx n r) := h.congr
theorem Begun.setBrun (g : Nat) (r : BridgeGroup) (h : Begun s₀ s) : Begun s₀ (s.setBrun g r) := h.congr
theorem Begun.setBasin (b : Basin) (h : Begun s₀ s) : Begun s₀ (s.setBasin b) := h.congr
theorem Begun.setRouter (r : Router) (h : Begun s₀ s) : Begun s₀ (s.setRouter r) := h.congr

theorem Begun.startPipeline (x : Nat) (h : Begun s₀ s) : Begun s₀ (s.startPipeline x) := by
  unfold State.startPipeline
  extract_lets d k s₁ mine s₂ s₃ r s₄ groups sources v s₅ s₆ s₇ s₈
  have h₁ : Begun s₀ s₁ := h.setDom id
  have h₂ : Begun s₀ s₂ := h₁.foldl fun _ l _ ht => ht.clearLock l
  have h₃ : Begun s₀ s₃ := h₂.foldl fun _ n _ ht => (ht.engineRestarts n k).ite ht
  have h₄ : Begun s₀ s₄ := (h₃.setBasin _).ite h₃
  have h₅ : Begun s₀ s₅ := h₄.setRouter _
  have h₆ : Begun s₀ s₆ := h₅.foldl fun _ e _ ht => ht.setBrun e.2 _
  have h₇ : Begun s₀ s₇ := h₆.foldl fun _ p hp ht => ht.pairRealigned (List.mem_range.1 hp) x
  have h₈ : Begun s₀ s₈ := h₇.foldl fun _ e _ ht => ht.setRx e.1 _
  exact h₈.foldl fun _ e _ ht => ht.setTx e.1 _

/-! ## Domains (21 R531) -/

/-- A domain that begins, before its pipeline starts. -/
def State.atGates (s : State) (x : Nat) : State :=
  (List.range 32).foldl (fun s n => if s.engDomain n = x then s.setEngState n (if s.engHeld n then 4 else 2) else s)
    (s.setDom x { s.dom x with sample := BitVec.ofNat 64 (s.firstSample x), fresh := true })

theorem Begun.gateStep (n x : Nat) (h : Begun s₀ s) :
    Begun s₀ (if s.engDomain n = x then s.setEngState n (if s.engHeld n then 4 else 2) else s) :=
  Begun.ite (h.setEngState fun _ => s.waitsAtGate_setEngState n) h

theorem Begun.atGates (x : Nat) (h : Begun s₀ s) : Begun s₀ (s.atGates x) :=
  Begun.foldl (h.setDom fun _ => rfl) fun _ n _ ht => ht.gateStep n x

theorem State.waitsAtGate_atGates (hn : n < 32) (hx : s.engDomain n = x) : (s.atGates x).waitsAtGate n :=
  Begun.foldl_brings (P := fun u => u.waitsAtGate n) (fun t m => (Begun.refl t).gateStep m x) (fun _ _ h => h.gate n) (List.mem_range.2 hn)
    fun t ht => by
      have hx' : t.engDomain n = x := (ht.domain n).trans hx
      rw [if_pos hx']
      exact t.waitsAtGate_setEngState n

theorem State.fresh_atGates (s : State) (x : Nat) : ((s.atGates x).dom x).fresh = true := by
  have hset : ((s.setDom x { s.dom x with sample := BitVec.ofNat 64 (s.firstSample x), fresh := true }).dom x).fresh = true := by
    simp [State.dom, State.setDom]
  exact ((Begun.refl _).foldl fun _ n _ ht => ht.gateStep n x).fresh x hset

theorem Begun.openOutputs (x : Nat) (h : Begun s₀ s) : Begun s₀ ((s.startPipeline x).zeroOutputs x) := (h.startPipeline x).setDom id

theorem Begun.beginDomain (x : Nat) (h : Begun s₀ s) : Begun s₀ (s.beginDomain x) := (h.atGates x).openOutputs x

theorem State.waitsAtGate_beginDomain (hn : n < 32) (hx : s.engDomain n = x) : (s.beginDomain x).waitsAtGate n :=
  ((Begun.refl _).openOutputs x).gate n (State.waitsAtGate_atGates hn hx)

theorem State.fresh_beginDomain (s : State) (x : Nat) : ((s.beginDomain x).dom x).fresh = true :=
  ((Begun.refl _).openOutputs x).fresh x (s.fresh_atGates x)

/-- The domains of `l` begin. -/
def State.beginDomains (s : State) (l : List Nat) : State := l.foldl (fun s x => s.beginDomain x) s

theorem State.beginDomains_begun (s : State) (l : List Nat) : Begun s (s.beginDomains l) := (Begun.refl s).foldl fun _ x _ ht => ht.beginDomain x

theorem State.waitsAtGate_beginDomains {l : List Nat} (hn : n < 32) (hx : s.engDomain n ∈ l) : (s.beginDomains l).waitsAtGate n :=
  Begun.foldl_brings (P := fun u => u.waitsAtGate n) (fun t x => (Begun.refl t).beginDomain x) (fun _ _ h => h.gate n) hx
    fun _ ht => State.waitsAtGate_beginDomain hn (ht.domain n)

theorem State.fresh_beginDomains {l : List Nat} (hx : x ∈ l) : ((s.beginDomains l).dom x).fresh = true :=
  Begun.foldl_brings (P := fun u => (u.dom x).fresh = true) (fun t y => (Begun.refl t).beginDomain y) (fun _ _ h => h.fresh x) hx
    fun t _ => t.fresh_beginDomain x


/-! ## First audio (R531, step 9) -/

/-- First audio up to the domains: boot_modes are held, and the slew limit holds from the frequency that stands. -/
def State.bootModesHeld (s : State) : State :=
  let s := (s.setReg R.CFG_MODE_HELD ((bootHeld s.cfg.bootModes).setWidth 32)).setCfg { s.cfg with pendingSet := bootHeld s.cfg.bootModes }
  [0, 1, 2].foldl (fun s x => s.setDpll x { s.dpll x with f0 := s.loopFreq x, since := s.now }) s

/-- First audio with its domains, streams and amplifiers begun. -/
def State.audioBegun (s : State) : State :=
  ((s.bootModesHeld.beginDomains ([0, 1, 2].filter s.bootModesHeld.started)).beginStreams).beginAmps

/-- First audio as it is reported. -/
def State.audioReported (s : State) (ms : Nat) : State :=
  ((s.wr (lowHalf R.GLB_BOOT_TIME) (min ms 0xFFFF)).wr R.GLB_BOOT_STATUS_state 6).raise R.GLB_INT_STATUS_first_audio

/-- First audio: what the pair, the clocks and the safe states bring beside. -/
def State.audioSettled (s : State) : State := (if s.inPair then s.enterPair else s).settleClocks.applySafe

theorem exec_firstAudio_waits (ms : Nat) (h : s.rd R.GLB_BOOT_STATUS_state ≠ 5 ∨ s.glb.clocksWaiting ≠ []) :
    exec (.firstAudio ms) s = .next s := congrArg Host.Outcome.next (if_pos h)

theorem exec_firstAudio (ms : Nat) (hstate : s.rd R.GLB_BOOT_STATUS_state = 5) (hwait : s.glb.clocksWaiting = []) :
    exec (.firstAudio ms) s = .next (s.audioBegun.audioReported ms).audioSettled := by
  change execFirstAudio ms s = _
  unfold execFirstAudio
  rw [if_neg (by simp [hstate, hwait])]
  unfold State.audioSettled State.audioReported State.audioBegun State.beginDomains State.bootModesHeld
  rfl

/-- The held modes are boot_modes; no setting differs. -/
theorem State.bootModesHeld_spec (s : State) : (∀ a, reached a = false → a ≠ R.CFG_MODE_HELD → s.bootModesHeld.reg a = s.reg a) ∧
    s.bootModesHeld.held = bootHeld s.cfg.bootModes ∧ s.bootModesHeld.ssm = s.ssm ∧ s.bootModesHeld.dram = s.dram := by
  unfold State.bootModesHeld
  extract_lets c t
  have ht : Beside t ([0, 1, 2].foldl (fun s x => s.setDpll x { s.dpll x with f0 := s.loopFreq x, since := s.now }) t) :=
    (Beside.refl t).foldl fun _ x _ hu => hu.setDpll x _
  exact ⟨fun a ha hne => (ht.reg a ha).trans (s.reg_setReg_ne _ hne), ht.held.trans (held_setWidth _ (s.reg_setReg_self ..)), ht.ssm, ht.dram⟩

theorem State.audioBegun_begun (s : State) : Begun s.bootModesHeld s.audioBegun :=
  (s.bootModesHeld.beginDomains_begun _).trans (Begun.of_beside (Beside.refl _).beginStreams.beginAmps)

theorem State.audioBegun_domains (s : State) (hx : x ∈ [0, 1, 2].filter s.bootModesHeld.started) :
    (s.audioBegun.dom x).fresh = true ∧ ∀ n < 32, s.bootModesHeld.engDomain n = x → s.audioBegun.waitsAtGate n := by
  have hlater : Begun (s.bootModesHeld.beginDomains ([0, 1, 2].filter s.bootModesHeld.started)) s.audioBegun :=
    Begun.of_beside (Beside.refl _).beginStreams.beginAmps
  exact ⟨hlater.fresh x (State.fresh_beginDomains hx), fun n hn hd => hlater.gate n (State.waitsAtGate_beginDomains hn (hd ▸ hx))⟩

theorem State.audioSettled_beside (s : State) : Beside s s.audioSettled :=
  (((Beside.refl s).enterPair).ite (Beside.refl s)).settleClocks.applySafe

theorem State.audioReported_spec (s : State) (ms : Nat) : (s.audioReported ms).running = true ∧
    (s.audioReported ms).is R.GLB_INT_STATUS_first_audio = true ∧ (s.audioReported ms).rd (lowHalf R.GLB_BOOT_TIME) = min ms 0xFFFF ∧
    ∀ a, a ∉ [R.GLB_BOOT_TIME, R.GLB_BOOT_STATUS, R.GLB_INT_STATUS] → (s.audioReported ms).reg a = s.reg a := by
  refine ⟨?_, State.is_raise _ _ (by decide) (by decide), ?_, fun a ha => ?_⟩
  · have hstate : (s.audioReported ms).rd R.GLB_BOOT_STATUS_state = 6 :=
      (State.rd_wr_other _ 1 (by decide)).trans (State.rd_wr_same _ _ 6 (by decide))
    simp [State.running, hstate]
  · have htime : (s.audioReported ms).rd (lowHalf R.GLB_BOOT_TIME) = min ms 0xFFFF % 2 ^ 16 :=
      ((State.rd_wr_other _ 1 (by decide)).trans (State.rd_wr_other _ 6 (by decide))).trans (State.rd_wr_same _ _ _ (by decide))
    rw [htime]
    exact Nat.mod_eq_of_lt (by omega)
  · simp only [List.mem_cons, List.not_mem_nil, or_false, not_or] at ha
    obtain ⟨htime, hstatus, hint⟩ := ha
    exact ((State.reg_raise_ne _ (f := R.GLB_INT_STATUS_first_audio) hint).trans
      (State.reg_wr_ne _ (f := R.GLB_BOOT_STATUS_state) 6 hstatus)).trans (State.reg_wr_ne _ (f := lowHalf R.GLB_BOOT_TIME) _ htime)

theorem State.audioReported_rest (s : State) (ms : Nat) :
    (s.audioReported ms).doms = s.doms ∧ (s.audioReported ms).ssm = s.ssm ∧ (s.audioReported ms).dram = s.dram := by
  simp [State.audioReported]

theorem completes_firstAudio (ms : Nat) (hstate : s.rd R.GLB_BOOT_STATUS_state = 5) (hwait : s.glb.clocksWaiting = []) :
    Completes (.firstAudio ms) s fun t =>
      t.running = true ∧ t.is R.GLB_INT_STATUS_first_audio = true ∧
      (∀ x : DomIx, s.started x = true → (t.dom x).fresh = true) ∧
      (∀ n : EngIx, n.val < 32 → s.engDomain n < 3 → s.started (s.engDomain n) = true → s.inPair = false →
        t.engState n = if s.engHeld n then 4 else 2) ∧ t.rd (lowHalf R.GLB_BOOT_TIME) = min ms 0xFFFF ∧
      t.held = bootHeld s.cfg.bootModes ∧ SameMemory s t := by
  refine ⟨_, exec_firstAudio ms hstate hwait, ?_⟩
  obtain ⟨hreg₁, hheld₁, hssm₁, hdram₁⟩ := s.bootModesHeld_spec
  have hbegun := s.audioBegun_begun
  have hdoms := fun x => s.audioBegun_domains (x := x)
  generalize s.audioBegun = u at hbegun hdoms ⊢
  generalize s.bootModesHeld = v at hreg₁ hheld₁ hssm₁ hdram₁ hbegun hdoms
  obtain ⟨hrun, haudio, htime, hreg₂⟩ := u.audioReported_spec ms
  obtain ⟨hdom₂, hssm₂, hdram₂⟩ := u.audioReported_rest ms
  generalize u.audioReported ms = w at hrun haudio htime hreg₂ hdom₂ hssm₂ hdram₂ ⊢
  have hb := w.audioSettled_beside
  generalize w.audioSettled = t at hb ⊢
  have hstarted (x : Nat) (hx : x < 3) (hs : s.started x = true) : x ∈ [0, 1, 2].filter v.started := by
    have hv : v.started x = true := by
      rw [State.started, State.is, State.rd_congr (hreg₁ _ ?_ ?_)]
      · exact hs
      · interval_cases x <;> rfl
      · simp only [R.CLK_DOMx_CFG_started, R.CLK_DOMx_CFG, R.CFG_MODE_HELD]
        omega
    rw [List.mem_filter]
    exact ⟨by interval_cases x <;> decide, hv⟩
  have hengine (n : Nat) : t.reg (R.ENGn_STATUS n) = u.reg (R.ENGn_STATUS n) := by
    rw [hb.reg _ (engStatus_not_reached n), hreg₂]
    simp only [R.ENGn_STATUS, List.mem_cons, R.GLB_BOOT_TIME, R.GLB_BOOT_STATUS, R.GLB_INT_STATUS, List.not_mem_nil, or_false]
    omega
  have hv (n : Nat) : v.engDomain n = s.engDomain n ∧ v.engHeld n = s.engHeld n := by
    have hne : R.ENGn_STATUS n ≠ R.CFG_MODE_HELD ∧ R.ENGn_CTRL n ≠ R.CFG_MODE_HELD := by
      simp only [R.ENGn_STATUS, R.ENGn_CTRL, R.CFG_MODE_HELD]
      omega
    exact ⟨State.rd_congr (f := R.ENGn_STATUS_domain n) (hreg₁ _ (engStatus_not_reached n) hne.1), by
      simp only [State.engHeld, State.is, State.rd_congr (f := R.ENGn_CTRL_hold n) (hreg₁ _ (engCtrl_not_reached n) hne.2)]⟩
  refine ⟨(by rw [State.running, hb.rd rfl]; exact hrun), (hb.is rfl).trans haudio, fun x hs => ?_, fun n hn hd hs _ => ?_,
    (hb.rd rfl).trans htime, ?_, ?_⟩
  · have hfresh := (hdoms x.val (hstarted x.val x.isLt hs)).1
    rw [State.dom, hb.doms, hdom₂]
    exact hfresh
  · obtain ⟨-, hgate⟩ := hdoms _ (hstarted _ hd hs)
    have hwaits := hgate n.val hn (hv n.val).1
    rw [State.waitsAtGate, hbegun.engHeld, (hv n.val).2] at hwaits
    rw [← hwaits]
    exact State.engState_congr (hengine n.val)
  · rw [hb.held, ← hheld₁]
    simp only [State.held, hreg₂ R.CFG_MODE_HELD (by decide), hbegun.reg R.CFG_MODE_HELD rfl]
  · refine SameMemory.of_eq ?_ ?_
    · rw [hb.ssm, hssm₂, hbegun.ssm, hssm₁]
    · rw [hb.dram, hdram₂, hbegun.dram, hdram₁]


/-! ## The push (R529) and Nerax boot (14 R379) -/

/-- A word written to GLB_PUSH holds the length in 23 bits and the last chunk in bit 31. -/
theorem pushWord (hn : n < 2 ^ 23) (last : Bool) : getBits (BitVec.ofNat 32 (n % 2 ^ 23 + b2n last * 2 ^ 31)) 0 23 = n ∧
    (BitVec.ofNat 32 (n % 2 ^ 23 + b2n last * 2 ^ 31)).getLsbD 31 = last := by
  have hlast : b2n last ≤ 1 := by cases last <;> decide
  constructor
  · rw [getBits, BitVec.toNat_ofNat, Nat.shiftRight_zero]
    omega
  · rw [BitVec.getLsbD_ofNat, Nat.testBit_eq_decide_div_mod_eq]
    cases last
    · simp [b2n]
      omega
    · simp [b2n]
      omega

theorem State.not_running_of_push (h : s.rd R.GLB_BOOT_STATUS_state = 8) : s.running = false := by simp [State.running, h]

theorem exec_hostPushChunk_awaiting (h : s.rd R.GLB_BOOT_STATUS_state = 8) (hn : n < 2 ^ 23) (last : Bool) :
    exec (.hostPushChunk n last) s = .next (State.answer (
      if n = 0 ∨ 0x400000 < n then (s.wr R.GLB_BOOT_STATUS_code 0x27).raise R.GLB_INT_STATUS_push_ready
      else s.setGlb { s.glb with chunk := some (n, last) }) []) := by
  obtain ⟨hlen, hlast⟩ := pushWord hn last
  have hawait : ¬(s.rd R.GLB_BOOT_STATUS_state ≠ 8 ∧ s.rd ⟨R.GLB_STRAP, 0, 2⟩ ≠ 1 ∨ s.running = true) := by
    simp [h, State.not_running_of_push h]
  simp only [exec, execHostPushChunk, State.writePush, if_neg hawait, hlen, hlast]

theorem exec_hostPushChunk (h : s.rd R.GLB_BOOT_STATUS_state = 8) (last : Bool) (h0 : 0 < n) (hn : n ≤ 0x400000) :
    exec (.hostPushChunk n last) s = .next ((s.setGlb { s.glb with chunk := some (n, last) }).answer []) := by
  rw [exec_hostPushChunk_awaiting h (by omega), if_neg (by omega)]

theorem exec_hostPushChunk_refused (h : s.rd R.GLB_BOOT_STATUS_state = 8) (last : Bool) (hn : n = 0 ∨ 0x400000 < n ∧ n < 2 ^ 23) :
    exec (.hostPushChunk n last) s = .next (((s.wr R.GLB_BOOT_STATUS_code 0x27).wr R.GLB_INT_STATUS_push_ready 1).answer []) := by
  rw [exec_hostPushChunk_awaiting h (by omega), if_pos (by omega), State.raise]

theorem exec_pushChunkTaken {n : Nat} {last : Bool} (hc : s.glb.chunk = some (n, last)) (hl : s.glb.pushLast = false) :
    exec .pushChunkTaken s = .next ((s.setGlb { s.glb with pushed := s.glb.pushed ++ s.ssmBytes 0 n, pushLast := last, chunk := none }).wr
      R.GLB_INT_STATUS_push_ready 1) := by
  simp [exec, execPushChunkTaken, hc, hl, State.raise]

theorem exec_neraxBootFrame (bytes : List Byte) (last : Bool) (hs : s.bootStrap = 2) (hm : s.mayLoad = true) (hk : s.linkState 0 = 5)
    (hl : s.glb.pushLast = false) : exec (.neraxBootFrame bytes last) s
      = .next ((s.setGlb { s.glb with pushed := s.glb.pushed ++ bytes, pushLast := last }).wr R.GLB_BOOT_STATUS_state 1) := by
  simp [exec, execNeraxBootFrame, hs, hm, hk, hl]

/-! ## The wait for a domain (10 R280) -/

/-- Started domains stay started, domains no longer waited for stay so, and neither locks nor memory change. -/
structure Starts (s t : State) : Prop where
  started : ∀ x < 3, s.started x = true → t.started x = true
  waiting : ∀ x, x ∉ s.glb.clocksWaiting → x ∉ t.glb.clocksWaiting
  locks : t.locks = s.locks
  ssm : t.ssm = s.ssm
  dram : t.dram = s.dram

theorem Starts.refl (s : State) : Starts s s := ⟨fun _ _ => id, fun _ => id, rfl, rfl, rfl⟩

theorem Starts.trans (h : Starts s t) (h' : Starts t u) : Starts s u :=
  ⟨fun x hx hs => h'.started x hx (h.started x hx hs), fun x hx => h'.waiting x (h.waiting x hx), h'.locks.trans h.locks, h'.ssm.trans h.ssm,
    h'.dram.trans h.dram⟩

theorem Starts.foldl {α : Type} {l : List α} {f : State → α → State} (h : Starts s₀ s) (k : ∀ t x, Starts t (f t x)) : Starts s₀ (l.foldl f s) := by
  induction l generalizing s with
  | nil => exact h
  | cons x l ih => exact ih (h.trans (k s x))

theorem Starts.of_beside (h : Beside s t) : Starts s t :=
  ⟨fun x hx hs => (h.started hx).trans hs, fun x hx => by rw [h.glb]; exact hx, h.locks, h.ssm, h.dram⟩

/-- A domain marked as started, its state not yet settled. -/
def State.markStarted (s : State) (x : Nat) : State :=
  let s := s.wr (R.CLK_DOMx_CFG_started x) 1
  { s with glb := { s.glb with clocksWaiting := s.glb.clocksWaiting.filter (· ≠ x) } }

theorem State.started_markStarted (s : State) (x y : Nat) : (s.markStarted x).started y = (decide (y = x) || s.started y) := by
  by_cases h : y = x
  · subst h
    simp only [decide_true, Bool.true_or]
    exact State.is_raise s (R.CLK_DOMx_CFG_started y) (by decide : (27 : Nat) + 1 ≤ 32) (by decide : 0 < 1)
  · simp only [h, decide_false, Bool.false_or]
    have hne : (R.CLK_DOMx_CFG_started y).addr ≠ (R.CLK_DOMx_CFG_started x).addr := by
      simp only [R.CLK_DOMx_CFG_started, R.CLK_DOMx_CFG]
      omega
    exact congrArg (· == 1) (s.rd_wr_other 1 hne)

theorem State.markStarted_starts (s : State) (x : Nat) : Starts s (s.markStarted x) :=
  ⟨fun y _ hy => by rw [s.started_markStarted, hy, Bool.or_true], fun _ hy hm => hy (List.mem_filter.1 hm).1, rfl, rfl, rfl⟩

/-- The state of a domain is shown beside its settings. -/
theorem State.setDomState_starts (s : State) (x v : Nat) : Starts s (s.setDomState x v) := by
  refine ⟨fun y _ hy => ?_, fun _ => id, rfl, rfl, rfl⟩
  have hne : (R.CLK_DOMx_CFG_started y).addr ≠ (R.CLK_DOMx_STATUS_state x).addr := by
    simp only [R.CLK_DOMx_CFG_started, R.CLK_DOMx_CFG, R.CLK_DOMx_STATUS_state, R.CLK_DOMx_STATUS]
    omega
  exact (congrArg (· == 1) (s.rd_wr_other v hne)).trans hy

theorem State.startDomain_starts (s : State) (x : Nat) : Starts (s.markStarted x) (s.startDomain x) :=
  (State.setDomState_starts _ x _).trans (Starts.of_beside (Beside.refl _).settleClocks)

/-- A domain started is started and no longer waited for. -/
theorem State.startDomain_spec (s : State) (hx : x < 3) : (s.startDomain x).started x = true ∧ x ∉ (s.startDomain x).glb.clocksWaiting := by
  have h := s.startDomain_starts x
  exact ⟨h.started x hx (by simp [s.started_markStarted]), h.waiting x (by simp [State.markStarted])⟩

theorem State.startDomains_starts (s : State) (x : Nat) : Starts (s.startDomain x) (s.startDomains x) :=
  (Starts.refl _).foldl fun t y => (t.markStarted_starts y).trans (t.startDomain_starts y)

theorem exec_dpllBootWaitExpiry_none (x : DomIx) (h : x.val ∉ s.glb.clocksWaiting) : exec (.dpllBootWaitExpiry x) s = .next s := by
  simp [exec, execDpllBootWaitExpiry, h]

theorem completes_dpllBootWaitExpiry (x : DomIx) (h : x.val ∈ s.glb.clocksWaiting) : Completes (.dpllBootWaitExpiry x) s fun t =>
    t.started x = true ∧ x.val ∉ t.glb.clocksWaiting ∧ SameMemory s t ∧ t.locks = s.locks := by
  have hdone {u t : State} (hu : Starts s u) (ht : Starts (u.startDomain x) t) :
      t.started x = true ∧ x.val ∉ t.glb.clocksWaiting ∧ SameMemory s t ∧ t.locks = s.locks := by
    obtain ⟨hstarted, hwaiting⟩ := u.startDomain_spec x.isLt
    have hall := (hu.trans ((u.markStarted_starts x).trans (u.startDomain_starts x))).trans ht
    exact ⟨ht.started x x.isLt hstarted, ht.waiting x hwaiting, SameMemory.of_eq hall.ssm hall.dram, hall.locks⟩
  have hwait : ¬(!s.glb.clocksWaiting.contains x.val) = true := by simpa using h
  by_cases hown : s.ownDpll x = true
  · obtain ⟨hs, -⟩ := domain_reached x.isLt
    have hfree : Beside s (((s.wr (R.CLK_DOMx_STATUS_selected x) 15).wr (R.CLK_DOMx_STATUS_stage x) 0).setDpll x
        { s.dpll x with f0 := 0, target := 0, ramp := 0 }) :=
      (((Beside.refl s).wr (f := R.CLK_DOMx_STATUS_selected x) 15 hs).wr (f := R.CLK_DOMx_STATUS_stage x) 0 hs).setDpll x _
    refine ⟨_, congrArg Host.Outcome.next ((if_neg hwait).trans (if_neg (by simp [hown]))), hdone (Starts.of_beside hfree) ?_⟩
    exact (State.startDomains_starts _ x).trans (Starts.of_beside ((Beside.refl _).reselect x.isLt).settleClocks)
  · exact ⟨_, congrArg Host.Outcome.next ((if_neg hwait).trans (if_pos (by simp [hown]))), hdone (Starts.refl s) (Starts.refl _)⟩

end Sys2Proof.Machine
end

section
open Sys2Proof Sys2Proof.Machine

/-- Settles O19: the push by `State.writePush_awaiting`, the wait for a domain by `State.startDomain_spec`, first audio by
`completes_firstAudio`. -/
theorem pushAndFirstAudio : Obligations.PushAndFirstAudio := by
  unfold Obligations.PushAndFirstAudio
  intro s
  exact ⟨fun h => ⟨fun _ last h0 hn => exec_hostPushChunk h last h0 hn, fun _ last hn => exec_hostPushChunk_refused h last hn⟩,
    fun _ _ hc hl => exec_pushChunkTaken hc hl, fun bytes last hs hm hk hl => exec_neraxBootFrame bytes last hs hm hk hl,
    exec_dpllBootWaitExpiry_none, completes_dpllBootWaitExpiry, fun ms h => exec_firstAudio_waits ms h,
    fun ms hstate hwait => completes_firstAudio ms hstate hwait⟩

end

section
/-!
The loader (21 R526 to R531): what an image that is applied leaves of the shadow and of the configuration it brought, and what an attempt reports.
-/
namespace Sys2Proof.Machine

variable {s₀ s t u : State} {a n x : Nat}

/-! ## What the loader's steps leave -/

/-- DRAM and the configuration of the image are in `t` as in `s`. -/
structure Loading (s t : State) : Prop where
  dram : t.dram = s.dram
  cfg : t.cfg = s.cfg

theorem Loading.refl (s : State) : Loading s s := ⟨rfl, rfl⟩

theorem Loading.trans (h : Loading s t) (h' : Loading t u) : Loading s u := ⟨h'.dram.trans h.dram, h'.cfg.trans h.cfg⟩

theorem Loading.ite {p : Prop} [Decidable p] (h : Loading s₀ s) (h' : Loading s₀ t) : Loading s₀ (if p then s else t) := by split <;> assumption

theorem Loading.foldl {α : Type} {l : List α} {f : State → α → State} (h : Loading s₀ s) (k : ∀ t, ∀ x ∈ l, Loading s₀ t → Loading s₀ (f t x)) :
    Loading s₀ (l.foldl f s) := by
  induction l generalizing s with
  | nil => exact h
  | cons x l ih => exact ih (k _ x (List.mem_cons_self ..) h) fun t y hy => k t y (List.mem_cons_of_mem _ hy)

theorem Loading.of_beside (h : Beside s t) : Loading s t := ⟨h.dram, h.cfg⟩

section
variable (h : Loading s₀ s)
include h
theorem Loading.setReg (a : Nat) (v : Word) : Loading s₀ (s.setReg a v) := ⟨h.dram, h.cfg⟩
theorem Loading.wr (f : FieldAt) (v : Nat) : Loading s₀ (s.wr f v) := h.setReg ..
theorem Loading.settle (a : Nat) (mask : Word) : Loading s₀ (s.settle a mask) := h.setReg ..
theorem Loading.setWide (lo hi v : Nat) : Loading s₀ (s.setWide lo hi v) := (h.setReg ..).setReg ..
theorem Loading.setHeldLow (a : Nat) (w : Option Word) : Loading s₀ (s.setHeldLow a w) := ⟨h.dram, h.cfg⟩
theorem Loading.setDom (x : Nat) (d : Domain) : Loading s₀ (s.setDom x d) := ⟨h.dram, h.cfg⟩
theorem Loading.setLock (l : Nat) (k : Lock) : Loading s₀ (s.setLock l k) := ⟨h.dram, h.cfg⟩
theorem Loading.dropLock (l : Nat) : Loading s₀ (s.dropLock l) := ⟨h.dram, h.cfg⟩
theorem Loading.setRouter (r : Router) : Loading s₀ (s.setRouter r) := ⟨h.dram, h.cfg⟩
theorem Loading.setDline (l : Nat) (d : Option DLine) : Loading s₀ (s.setDline l d) := ⟨h.dram, h.cfg⟩
theorem Loading.setEng (n : Nat) (e : Engine) : Loading s₀ (s.setEng n e) := ⟨h.dram, h.cfg⟩
theorem Loading.setSub (u : Nat) (r : Subst) : Loading s₀ (s.setSub u r) := ⟨h.dram, h.cfg⟩
theorem Loading.setBasin (b : Basin) : Loading s₀ (s.setBasin b) := ⟨h.dram, h.cfg⟩
theorem Loading.setFlc (f : Filters) : Loading s₀ (s.setFlc f) := ⟨h.dram, h.cfg⟩
theorem Loading.setFov (f : Fov) : Loading s₀ (s.setFov f) := ⟨h.dram, h.cfg⟩
theorem Loading.setTdm (r : Tdm) : Loading s₀ (s.setTdm r) := ⟨h.dram, h.cfg⟩
theorem Loading.setModeLeave (m n : Nat) : Loading s₀ (s.setModeLeave m n) := ⟨h.dram, h.cfg⟩
end

theorem Loading.setSsmBytes (o : Nat) (l : List Byte) (h : Loading s₀ s) : Loading s₀ (s.setSsmBytes o l) := by
  induction l generalizing s o with
  | nil => exact h
  | cons b l ih => exact ih (o + 1) ⟨h.dram, h.cfg⟩

/-! ## Windows and memories (04 R111; 06 R177) -/

theorem Loading.windowPut (n o : Nat) (v : Word) (h : Loading s₀ s) : Loading s₀ (s.windowPut n o v) :=
  Loading.ite (Loading.ite (h.setHeldLow ..) ((h.setEng n _).setHeldLow ..)) (Loading.ite (h.setEng n _) (h.setEng n _))

theorem Loading.imageWord (n o : Nat) (v : Word) (h : Loading s₀ s) : Loading s₀ (s.imageWord n o v) :=
  Loading.ite (h.windowPut ..) (Loading.ite (h.setEng n _) (h.windowPut ..))

theorem Loading.putGain (b node : Nat) (v : Sample) (h : Loading s₀ s) : Loading s₀ (s.putGain b node v) :=
  Loading.ite ((h.setBasin _).setBasin _) (h.setBasin _)

theorem Loading.putWindow (a : Nat) (mask v : Word) (h : Loading s₀ s) : Loading s₀ (s.putWindow a mask v) := by
  unfold State.putWindow
  split
  · exact h.windowPut ..
  · exact Loading.ite (h.putGain ..) h
  · exact h.setSsmBytes ..
  · exact h

theorem Loading.setGains (g : Gains) (h : Loading s₀ s) : Loading s₀ (s.setGains g) := (((h.setBasin _).wr ..).wr ..).wr ..

/-! ## Sections (R531, step 6) -/

theorem Loading.placeLocks (x : Nat) (qs : List LockSpec) (h : Loading s₀ s) : Loading s₀ (s.placeLocks x qs) :=
  Loading.foldl (h.foldl fun _ e _ ht => ht.dropLock e.1) fun t q _ ht => by
    dsimp only
    split
    · exact ht.ite (ht.setLock ..)
    · exact ht.setLock ..

theorem Loading.placeDelays (x : Nat) (ds : List DelaySpec) (h : Loading s₀ s) : Loading s₀ (s.placeDelays x ds) :=
  Loading.foldl (h.foldl fun _ e _ ht => ht.setDline e.1 none) fun t d _ ht => by
    split
    · exact ht.ite (ht.setDline ..)
    · exact ht.setDline ..

theorem Loading.placeDomain (x : Nat) (c : Content) (h : Loading s₀ s) : Loading s₀ (s.placeDomain x c) := by
  unfold State.placeDomain
  extract_lets s₁ s₂
  have h₁ : Loading s₀ s₁ := h.ite (h.placeLocks x _)
  have h₂ : Loading s₀ s₂ := h₁.ite (h₁.setRouter _)
  exact h₂.ite (h₂.placeDelays x _)

theorem Loading.engineChanges (n : Nat) (h : Loading s₀ s) : Loading s₀ (s.engineChanges n) :=
  h.foldl fun _ u _ ht => Loading.ite (Loading.ite (ht.setSub u _) ht) ht

theorem Loading.placeEngine (e : EngineSpec) (h : Loading s₀ s) : Loading s₀ (s.placeEngine e) :=
  h.ite ((h.setEng _ _).engineChanges _)

theorem Loading.placeBridges (gs : List BridgeSpec) (h : Loading s₀ s) : Loading s₀ (s.placeBridges gs) := by
  unfold State.placeBridges
  extract_lets q s₁ s₂
  have h₁ : Loading s₀ s₁ := h.setFlc _
  have h₂ : Loading s₀ s₂ := h.ite (h₁.foldl fun _ e _ ht => ht.setFlc _)
  exact h₂.foldl fun _ p _ ht => Loading.ite (ht.wr ..) (Loading.ite (ht.wr ..) ht)

theorem Loading.placeStructure (kind : Nat) (c : Content) (h : Loading s₀ s) : Loading s₀ (s.placeStructure kind c) := by
  unfold State.placeStructure
  extract_lets s₁ b s₂ s₃ s₄ f s₅
  have h₁ : Loading s₀ s₁ := h.foldl fun _ e _ ht => ht.placeEngine e
  have h₂ : Loading s₀ s₂ := h₁.ite (h₁.setBasin _)
  have h₃ : Loading s₀ s₃ := h₂.ite (h₂.placeBridges _)
  have hlegs (s : State) (h : Loading s₀ s) : Loading s₀ { s with legs := c.legs } := ⟨h.dram, h.cfg⟩
  have h₄ : Loading s₀ s₄ := Loading.ite (hlegs s₃ h₃) h₃
  have h₅ : Loading s₀ s₅ := Loading.ite (h₄.setFov _) h₄
  exact h₅.ite (h₅.setFlc _)

theorem Loading.loadSection (kind inst : Nat) (c : Content) (h : Loading s₀ s) : Loading s₀ (s.loadSection kind inst c) := by
  unfold State.loadSection
  extract_lets s₁ s₂ s₃ s₄
  have h₁ : Loading s₀ s₁ := h.foldl fun _ e _ ht => ht.setDom e.1 _
  have h₂ : Loading s₀ s₂ := Loading.placeStructure kind c (h₁.foldl fun _ x _ ht => ht.placeDomain x c)
  have h₃ : Loading s₀ s₃ := Loading.ite (h₂.setEng _ _) h₂
  have h₄ : Loading s₀ s₄ := Loading.ite ((h₃.setGains _).setBasin _) h₃
  exact Loading.ite (h₄.foldl fun _ w _ ht => Loading.ite (ht.imageWord ..) ht) (h₄.foldl fun _ w _ ht => ht.putWindow ..)

theorem Loading.loadContent (sc : SectionContent) (h : Loading s₀ s) :
    Loading s₀ (match sc.content with | some c => s.loadSection sc.kind sc.inst c | none => s) := by
  split
  · exact h.loadSection ..
  · exact h

theorem Loading.settleImage (h : Loading s₀ s) : Loading s₀ s.settleImage := h.foldl fun _ _ _ ht => ht.settle ..

theorem Loading.bootOverlays (set : BitVec 12) (h : Loading s₀ s) : Loading s₀ (s.bootOverlays set) := by
  unfold State.bootOverlays
  extract_lets s₁ s₂ s₃ added s₄
  have h₁ : Loading s₀ s₁ := h.setReg ..
  have h₂ : Loading s₀ s₂ := h₁.foldl fun _ a _ ht => ht.settle ..
  have h₃ : Loading s₀ s₃ := h₂.setReg ..
  have h₄ : Loading s₀ s₄ := h₃.foldl fun t o _ ht => by
    extract_lets u
    have hu : Loading s₀ u := ht.foldl fun _ c _ hv => hv.loadContent c
    exact Loading.ite (hu.setModeLeave ..) hu
  exact h₄.foldl fun _ w _ ht => ht.putWindow ..

theorem Loading.slotsFollow (g : Nat) (h : Loading s₀ s) : Loading s₀ (s.slotsFollow g) :=
  h.foldl fun _ _ _ ht => ht.ite ((ht.setTdm _).setTdm _)

theorem Loading.setFeed (n : Nat) (f : Feed) (h : Loading s₀ s) : Loading s₀ (s.setFeed n f) := by
  unfold State.setFeed
  extract_lets dom fading
  have hfeeds : Loading s₀ { s with feeds := Tab.set (fun _ => {}) s.feeds n f } := ⟨h.dram, h.cfg⟩
  exact hfeeds.setReg ..

theorem Loading.bootSettings (h : Loading s₀ s) : Loading s₀ s.bootSettings := by
  unfold State.bootSettings
  extract_lets s₁ s₂
  have h₁ : Loading s₀ s₁ := h.foldl fun _ d _ ht => ht.wr ..
  have h₂ : Loading s₀ s₂ := h₁.foldl fun t g hg ht =>
    Loading.ite (Loading.slotsFollow g (ht.trans (Loading.of_beside ((Beside.refl t).setGrp _ (List.mem_range.1 hg))))) ht
  exact h₂.foldl fun t n _ ht => ht.ite (ht.setFeed n _)


/-! ## The report of an image (03 R106) -/

theorem leNat_lt (l : List Byte) : leNat l < 256 ^ l.length := by
  induction l with
  | nil => decide
  | cons b l ih =>
    have hb : b.toNat < 256 := b.isLt
    rw [leNat, List.length_cons, Nat.pow_succ]
    omega

theorem imageField_lt (b : List Byte) (off n : Nat) : imageField b off n < 256 ^ n := by
  have hlen : ((b.drop off).take n).length ≤ n := by
    rw [List.length_take]
    exact Nat.min_le_left ..
  exact Nat.lt_of_lt_of_le (leNat_lt _) (Nat.pow_le_pow_right (by decide) hlen)

/-- What the registers say of a loaded image. -/
structure Reported (b : List Byte) (base : Nat) (t : State) : Prop where
  loaded : t.is R.CFG_STATUS_loaded = true
  code : t.reg R.CFG_LOAD_STATUS = 1
  id : t.wide R.CFG_IMAGE_ID_LO R.CFG_IMAGE_ID_HI = imageField b 0x24 8
  secver : t.reg R.CFG_SECVER = BitVec.ofNat 32 (imageField b 0x20 4)
  shadow : t.wide R.CFG_SHADOW_BASE_LO R.CFG_SHADOW_BASE_HI = base

/-- The registers of `Reported`. -/
def reportRegs : List Nat :=
  [R.CFG_STATUS, R.CFG_LOAD_STATUS, R.CFG_IMAGE_ID_LO, R.CFG_IMAGE_ID_HI, R.CFG_SECVER, R.CFG_SHADOW_BASE_LO, R.CFG_SHADOW_BASE_HI]

theorem Reported.congr {b : List Byte} {base : Nat} (h : Reported b base s) (hr : ∀ a ∈ reportRegs, t.reg a = s.reg a) : Reported b base t := by
  obtain ⟨hloaded, hcode, hid, hsecver, hshadow⟩ := h
  refine ⟨?_, (hr _ (by decide)).trans hcode, ?_, (hr _ (by decide)).trans hsecver, ?_⟩
  · rw [State.is, State.rd_congr (hr R.CFG_STATUS_loaded.addr (by decide))]
    exact hloaded
  · rw [State.wide, hr _ (by decide), hr _ (by decide)]
    exact hid
  · rw [State.wide, hr _ (by decide), hr _ (by decide)]
    exact hshadow

theorem State.wide_setReg (s : State) {lo hi : Nat} (v : Word) (hlo : lo ≠ a) (hhi : hi ≠ a) : (s.setReg a v).wide lo hi = s.wide lo hi := by
  rw [State.wide, s.reg_setReg_ne v hlo, s.reg_setReg_ne v hhi, State.wide]

theorem State.reportImage_reported (s : State) (b : List Byte) {base : Nat} (hbase : base < 2 ^ 64) : Reported b base (s.reportImage b base) := by
  unfold State.reportImage
  extract_lets s₁ s₂ s₃
  have hid : s₁.wide R.CFG_IMAGE_ID_LO R.CFG_IMAGE_ID_HI = imageField b 0x24 8 :=
    State.wide_setWide _ (by decide) (Nat.lt_of_lt_of_eq (imageField_lt b 0x24 8) (by norm_num))
  have hshadow : (s₂.setWide R.CFG_SHADOW_BASE_LO R.CFG_SHADOW_BASE_HI base).wide R.CFG_SHADOW_BASE_LO R.CFG_SHADOW_BASE_HI = base :=
    State.wide_setWide _ (by decide) hbase
  have hloaded : s₃.is R.CFG_STATUS_loaded = true := State.is_raise _ R.CFG_STATUS_loaded (by decide) (by decide)
  have hkeep (a : Nat) (hlo : a ≠ R.CFG_SHADOW_BASE_LO) (hhi : a ≠ R.CFG_SHADOW_BASE_HI) (hst : a ≠ R.CFG_STATUS) : s₃.reg a = s₂.reg a :=
    (State.reg_wr_ne _ 1 hst).trans ((State.reg_setReg_ne _ _ hhi).trans (State.reg_setReg_ne _ _ hlo))
  refine ⟨?_, State.reg_setReg_self .., ?_, ?_, ?_⟩
  · rw [State.is, State.rd_setReg_other _ _ (by decide)]
    exact hloaded
  · rw [State.wide_setReg _ _ (by decide) (by decide), State.wide, hkeep _ (by decide) (by decide) (by decide),
      hkeep _ (by decide) (by decide) (by decide)]
    exact (State.wide_setReg s₁ _ (by decide) (by decide)).trans hid
  · rw [State.reg_setReg_ne _ _ (by decide), hkeep _ (by decide) (by decide) (by decide)]
    exact State.reg_setReg_self ..
  · rw [State.wide_setReg _ _ (by decide) (by decide)]
    exact (State.wide_setReg (a := R.CFG_STATUS) _ _ (by decide) (by decide)).trans hshadow

theorem Loading.reportImage (b : List Byte) (base : Nat) (h : Loading s₀ s) : Loading s₀ (s.reportImage b base) :=
  ((((h.setWide ..).setReg ..).setWide ..).wr ..).setReg ..

/-! ## The clocks of an image (R531, step 7) -/

/-- Lanes, links and candidates begin. -/
def State.enableAll (s : State) : State :=
  let s := (List.range 12).foldl (fun s n => s.laneStart n) s
  let s := (List.range 4).foldl (fun s k => s.linkEnable k) s
  (List.range 9).foldl (fun s c => s.candEnable c) s

theorem State.enableAll_beside (s : State) : Beside s s.enableAll := by
  unfold State.enableAll
  extract_lets s₁ s₂
  have h₁ : Beside s s₁ := (Beside.refl s).foldl fun _ _ hn ht => ht.laneStart (List.mem_range.1 hn)
  have h₂ : Beside s s₂ := h₁.foldl fun _ _ hk ht => ht.linkEnable (List.mem_range.1 hk)
  exact h₂.foldl fun _ _ hc ht => ht.candEnable (List.mem_range.1 hc)

/-- The clocks are awaited in boot state 5; of the registers that no clock reaches GLB_BOOT_STATUS alone changes, and its source stays. -/
theorem State.startClocks_spec (s : State) : (∀ a, reached a = false → a ≠ R.GLB_BOOT_STATUS → s.startClocks.reg a = s.reg a) ∧
    s.startClocks.rd R.GLB_BOOT_STATUS_state = 5 ∧ s.startClocks.rd R.GLB_BOOT_STATUS_source = s.rd R.GLB_BOOT_STATUS_source ∧
    Loading s s.startClocks := by
  have h₁ := s.enableAll_beside
  obtain ⟨g, hg⟩ : ∃ g, s.startClocks = ((s.enableAll.setGlb g).reselectAll).wr R.GLB_BOOT_STATUS_state 5 := ⟨_, rfl⟩
  rw [hg]
  generalize s.enableAll = u at h₁
  have h₂ : Beside (u.setGlb g) (u.setGlb g).reselectAll := (Beside.refl _).reselectAll
  have hreg (a : Nat) (ha : reached a = false) : (u.setGlb g).reselectAll.reg a = s.reg a := (h₂.reg a ha).trans (h₁.reg a ha)
  have hload : Loading s (u.setGlb g).reselectAll := ⟨h₂.dram.trans h₁.dram, h₂.cfg.trans h₁.cfg⟩
  generalize (u.setGlb g).reselectAll = w at hreg hload
  refine ⟨fun a ha hne => (w.reg_wr_ne 5 hne).trans (hreg a ha), State.rd_wr_same _ _ 5 (by decide), ?_, hload.wr ..⟩
  exact (w.rd_wr_apart 5 (by decide)).trans (State.rd_congr (hreg _ rfl))


/-! ## A load (R531, steps 4 to 7; 03 R85) -/

/-- The shadow lies within the DRAM of an image. -/
theorem shadowBase_lt (cs : List SectionContent) (len : Nat) : shadowBase (usableBytes cs) len < 2 ^ 64 := by
  have hcap (n : Nat) : capacityGiB n ≤ 16 := by
    unfold capacityGiB
    split <;> decide
  have hsize : usableBytes cs ≤ 16 * 2 ^ 30 := by
    have := hcap (getBits (contentReg cs 0x11 R.DMC_CFG) 4 3)
    unfold usableBytes
    omega
  unfold shadowBase dramBase
  omega

/-- Bytes written into DRAM read there. -/
theorem State.dramBytes_setDramBytes (s : State) (o : Nat) (l : List Byte) : (s.setDramBytes o l).dramBytes o l.length = l := by
  refine List.ext_getElem (by simp [State.dramBytes]) fun k hk hk' => ?_
  simp only [State.dramBytes, List.getElem_map, List.getElem_range, State.dramByte_setBytes]
  rw [dif_pos ⟨Nat.le_add_right .., by omega⟩]
  congr 1
  omega

theorem State.dramBytes_congr (h : t.dram = s.dram) (o n : Nat) : t.dramBytes o n = s.dramBytes o n := by
  simp only [State.dramBytes, State.dramByte, h]

theorem State.cfg_adoptImage (s : State) (i : Image) (set : BitVec 12) : (s.adoptImage i set).cfg.bootModes = imageModes i.bytes := rfl

theorem State.dram_adoptImage (s : State) (i : Image) (set : BitVec 12) : (s.adoptImage i set).dram = s.dram := rfl

/-- The endpoint's BAR changes no register. -/
theorem State.barSet_spec (s : State) (p : Prop) [Decidable p] (n : Nat) :
    (∀ a, (if p then s else { s with pcie := { s.pcie with bar2Log := n } }).reg a = s.reg a) ∧
    Loading s (if p then s else { s with pcie := { s.pcie with bar2Log := n } }) := by
  split
  · exact ⟨fun _ => rfl, Loading.refl s⟩
  · exact ⟨fun _ => rfl, rfl, rfl⟩

/-- What a load leaves: the report, the source and boot state 5, the configuration and the shadow. -/
theorem State.loadImage_spec (s : State) (source : Nat) (i : Image) (hlen : imageLen i.bytes ≤ i.bytes.length) :
    ∃ base, Reported i.bytes base (s.loadImage source i) ∧
    (s.loadImage source i).rd R.GLB_BOOT_STATUS_state = 5 ∧ (s.loadImage source i).rd R.GLB_BOOT_STATUS_source = source % 4 ∧
    (s.loadImage source i).cfg.bootModes = imageModes i.bytes ∧
    (s.loadImage source i).dramBytes (base - dramBase) (imageLen i.bytes) = i.bytes.take (imageLen i.bytes) := by
  unfold State.loadImage
  extract_lets size base set s₁ s₂ s₃ s₄ s₅ s₆ s₇ s₈ q s₉
  have hbase : base < 2 ^ 64 := shadowBase_lt ..
  have htake : (i.bytes.take (imageLen i.bytes)).length = imageLen i.bytes := List.length_take_of_le hlen
  have hmodes : s₂.cfg.bootModes = imageModes i.bytes := s₁.cfg_adoptImage i set
  have hbytes : s₂.dramBytes (base - dramBase) (imageLen i.bytes) = i.bytes.take (imageLen i.bytes) := by
    rw [State.dramBytes_congr (s₁.dram_adoptImage i set)]
    have hset := s.dramBytes_setDramBytes (base - dramBase) (i.bytes.take (imageLen i.bytes))
    rw [htake] at hset
    exact hset
  clear_value s₂
  have h₃ : Loading s₂ s₃ := ((Loading.refl s₂).setWide ..).settleImage
  have h₄ : Loading s₂ s₄ := h₃.setWide ..
  have h₅ : Loading s₂ s₅ := h₄.foldl fun _ sc _ ht => ht.loadContent sc
  have h₆ : Loading s₂ s₆ := h₅.foldl fun _ w _ ht => ht.putWindow ..
  clear_value s₆
  have h₇ : Loading s₂ s₇ := (h₆.bootOverlays set).bootSettings.reportImage ..
  have hreported : Reported i.bytes base s₇ := State.reportImage_reported _ _ hbase
  clear_value s₇
  have hsource : s₈.rd R.GLB_BOOT_STATUS_source = source % 4 := s₇.rd_wr_same R.GLB_BOOT_STATUS_source source (by decide)
  have hreg₈ (a : Nat) (ha : a ≠ R.GLB_BOOT_STATUS) : s₈.reg a = s₇.reg a := s₇.reg_wr_ne (f := R.GLB_BOOT_STATUS_source) source ha
  have h₈ : Loading s₂ s₈ := h₇.wr ..
  clear_value s₈
  obtain ⟨hreg₉, hbar⟩ := s₈.barSet_spec (source = 2) (28 + s₈.rd ⟨R.PCIE_CFG, 16, 4⟩)
  have h₉ : Loading s₂ s₉ := h₈.trans hbar
  have hreg₉ (a : Nat) : s₉.reg a = s₈.reg a := hreg₉ a
  clear_value s₉
  obtain ⟨hreg, hstate, hsource', hstarted⟩ := s₉.startClocks_spec
  have hall := h₉.trans hstarted
  refine ⟨base, hreported.congr fun a ha => ?_, hstate, (hsource'.trans (State.rd_congr (hreg₉ _))).trans hsource,
    (congrArg Cfg.bootModes hall.cfg).trans hmodes, (State.dramBytes_congr hall.dram _ _).trans hbytes⟩
  have hlist : ∀ a ∈ reportRegs, a ≠ R.GLB_BOOT_STATUS ∧ reached a = false := by decide
  obtain ⟨hne, hout⟩ := hlist a ha
  exact ((hreg a hout hne).trans (hreg₉ a)).trans (hreg₈ a hne)

/-! ## Attempts (R526, R531) -/

theorem State.source_cases {source : Nat} (h : s.bootSource = some source) : source = 0 ∨ source = 1 ∨ source = 2 ∨ source = 3 := by
  unfold State.bootSource at h
  split at h
  · cases h
    omega
  · split at h
    all_goals cases h
    all_goals omega

/-- An attempt that passes every check had all the bytes of its image. -/
theorem State.imageLen_le_of_attemptCode {source : Nat} {i : Image} {training : Training} (h : s.attemptCode source i training = (1, true)) :
    imageLen i.bytes ≤ i.bytes.length := by
  unfold State.attemptCode at h
  extract_lets b short at h
  by_contra hlen
  have hshort : short = true := decide_eq_true (Nat.lt_of_not_le hlen)
  rw [hshort] at h
  simp only [if_true] at h
  repeat' split at h
  all_goals simp at h

/-- `t` is `s` after an attempt that failed with a code below 2^8, its state and source aside. -/
structure Failed (code : Nat) (s t : State) : Prop where
  status : t.rd R.GLB_BOOT_STATUS_code = code
  load : t.reg R.CFG_LOAD_STATUS = if code < 0x20 then BitVec.ofNat 32 code else s.reg R.CFG_LOAD_STATUS
  reg : ∀ a, a ∉ [R.GLB_BOOT_STATUS, R.CFG_LOAD_STATUS] → t.reg a = s.reg a
  pushed : t.glb.pushed = []
  ssm : t.ssm = s.ssm
  dram : t.dram = s.dram

theorem Failed.loaded {code : Nat} (h : Failed code s t) (hm : s.mayLoad = true) : t.is R.CFG_STATUS_loaded = false := by
  rw [State.is, State.rd_congr (h.reg R.CFG_STATUS_loaded.addr (by decide))]
  simp only [State.mayLoad, Bool.and_eq_true, Bool.not_eq_true'] at hm
  exact hm.1

theorem Failed.reg_of_source {code : Nat} (h : Failed code s t) (hcode : 0x20 ≤ code) (a : Nat) (ha : a ≠ R.GLB_BOOT_STATUS) : t.reg a = s.reg a := by
  by_cases hload : a = R.CFG_LOAD_STATUS
  · rw [hload, h.load, if_neg (by omega)]
  · exact h.reg a (by simp [ha, hload])

/-- The state and the source of an attempt lie beside its code. -/
theorem Failed.wr {code : Nat} {f : FieldAt} (h : Failed code s t) (v : Nat) (hf : f.addr = R.GLB_BOOT_STATUS) (hl : f.lsb + f.width ≤ 8) :
    Failed code s (t.wr f v) := by
  have hne (a : Nat) (ha : a ≠ R.GLB_BOOT_STATUS) : (t.wr f v).reg a = t.reg a := t.reg_wr_ne v (by rw [hf]; exact ha)
  refine ⟨(t.rd_wr_apart v (Or.inl hl)).trans h.status, (hne _ (by decide)).trans h.load, fun a ha => (hne a ?_).trans (h.reg a ha), h.pushed,
    h.ssm, h.dram⟩
  rintro rfl
  exact ha (List.mem_cons_self ..)

/-- A failed attempt before the next source follows. -/
def State.attemptNoted (s : State) (source code : Nat) : State :=
  let s := s.wr R.GLB_BOOT_STATUS_code code
  let s := if code < 0x20 then s.setReg R.CFG_LOAD_STATUS (BitVec.ofNat 32 code) else s
  let s := s.setGlb { s.glb with attempts := s.glb.attempts + 1, pushed := [], pushLast := false }
  s.wr R.GLB_BOOT_STATUS_source source

theorem State.attemptNoted_failed (s : State) (source : Nat) {code : Nat} (hcode : code < 256) : Failed code s (s.attemptNoted source code) := by
  unfold State.attemptNoted
  extract_lets s₁ s₂ q s₃
  have hcode₁ : s₁.rd R.GLB_BOOT_STATUS_code = code := (s.rd_wr_same _ code (by decide)).trans (Nat.mod_eq_of_lt hcode)
  have hreg₁ (a : Nat) (ha : a ≠ R.GLB_BOOT_STATUS) : s₁.reg a = s.reg a := s.reg_wr_ne code ha
  have hmem₁ : s₁.ssm = s.ssm ∧ s₁.dram = s.dram := ⟨rfl, rfl⟩
  clear_value s₁
  have h₂ : s₂.rd R.GLB_BOOT_STATUS_code = code ∧
      (s₂.reg R.CFG_LOAD_STATUS = if code < 0x20 then BitVec.ofNat 32 code else s.reg R.CFG_LOAD_STATUS) ∧
      (∀ a, a ∉ [R.GLB_BOOT_STATUS, R.CFG_LOAD_STATUS] → s₂.reg a = s.reg a) ∧ s₂.ssm = s₁.ssm ∧ s₂.dram = s₁.dram := by
    have hout (a : Nat) (ha : a ∉ [R.GLB_BOOT_STATUS, R.CFG_LOAD_STATUS]) : a ≠ R.GLB_BOOT_STATUS ∧ a ≠ R.CFG_LOAD_STATUS := by
      simpa using ha
    by_cases hlow : code < 0x20
    · rw [show s₂ = s₁.setReg R.CFG_LOAD_STATUS (BitVec.ofNat 32 code) from if_pos hlow, if_pos hlow]
      exact ⟨(s₁.rd_setReg_other _ (by decide)).trans hcode₁, s₁.reg_setReg_self .., fun a ha =>
        (s₁.reg_setReg_ne _ (hout a ha).2).trans (hreg₁ a (hout a ha).1), rfl, rfl⟩
    · rw [show s₂ = s₁ from if_neg hlow, if_neg hlow]
      exact ⟨hcode₁, hreg₁ _ (by decide), fun a ha => hreg₁ a (hout a ha).1, rfl, rfl⟩
  obtain ⟨hcode₂, hload₂, hreg₂, hssm₂, hdram₂⟩ := h₂
  have h₃ : Failed code s s₃ := ⟨hcode₂, hload₂, hreg₂, rfl, hssm₂.trans hmem₁.1, hdram₂.trans hmem₁.2⟩
  exact h₃.wr source rfl (by decide)

theorem State.rd_source_attemptNoted (s : State) (source code : Nat) :
    (s.attemptNoted source code).rd R.GLB_BOOT_STATUS_source = source % 4 := State.rd_wr_same _ R.GLB_BOOT_STATUS_source source (by decide)

theorem State.attemptFails_zero (s : State) (code : Nat) :
    s.attemptFails 0 code = ((s.attemptNoted 0 code).wr R.GLB_BOOT_STATUS_state 1).wr R.GLB_BOOT_STATUS_source 1 := rfl

theorem State.attemptFails_one (s : State) (code : Nat) : s.attemptFails 1 code = (s.attemptNoted 1 code).awaitPush := rfl

theorem State.attemptFails_push (s : State) {source : Nat} (h : source = 2 ∨ source = 3) (code : Nat) :
    s.attemptFails source code = (s.attemptNoted source code).wr R.GLB_BOOT_STATUS_state (if source = 2 then 8 else 1) := by
  rcases h with rfl | rfl
  · rfl
  · rfl

/-- A failed attempt other than the second of QSPI: its record, the state it goes to and the source that follows. -/
theorem State.attemptFails_spec (s : State) {source code : Nat} (hcode : code < 256) (hsource : source = 0 ∨ source = 2 ∨ source = 3) :
    Failed code s (s.attemptFails source code) ∧ (s.attemptFails source code).rd R.GLB_BOOT_STATUS_state = (if source = 2 then 8 else 1) ∧
    (s.attemptFails source code).rd R.GLB_BOOT_STATUS_source = if source = 0 then 1 else source % 4 := by
  have hnoted := s.attemptNoted_failed source hcode
  have hrd := s.rd_source_attemptNoted source code
  rcases hsource with rfl | h23
  · rw [State.attemptFails_zero]
    generalize s.attemptNoted 0 code = t at hnoted
    refine ⟨(hnoted.wr 1 rfl (by decide)).wr 1 rfl (by decide), ?_, State.rd_wr_same _ _ 1 (by decide)⟩
    exact (State.rd_wr_apart _ 1 (by decide)).trans (State.rd_wr_same _ _ 1 (by decide))
  · rw [State.attemptFails_push s h23]
    generalize s.attemptNoted source code = t at hnoted hrd
    refine ⟨hnoted.wr _ rfl (by decide), ?_, ?_⟩
    · rw [State.rd_wr_same _ _ _ (by decide)]
      split <;> rfl
    · rw [State.rd_wr_apart _ _ (by decide), hrd, if_neg (by omega)]

/-! ## The push awaited (R526) -/

/-- A report leaves a record of its source and level. -/
theorem State.reported_mem (s : State) (source code level : Nat) :
    (source, level) ∈ (s.report source code level).flt.records.map FaultRecord.origin := by
  unfold State.report State.reportAs
  split
  · next r hr =>
    extract_lets q s₁
    have hbump : (s₁.bump (highHalf (fltCount r.level))).flt.records = mergeRecord source code level false s.flt.records := rfl
    rw [hbump, map_origin_mergeRecord]
    have hfound := List.find?_some hr
    simp only [Bool.and_eq_true, beq_iff_eq] at hfound
    obtain ⟨⟨-, hsource⟩, hlevel⟩ := hfound
    exact List.mem_map.2 ⟨r, List.mem_of_find?_eq_some hr, by rw [FaultRecord.origin, hsource, hlevel]⟩
  · extract_lets l
    split
    extract_lets r s₁ s₂
    have hlog : (source, level) ∈ (s.logRecord r).flt.records.map FaultRecord.origin := by
      unfold State.logRecord
      split
      · exact List.mem_map.2 ⟨_, List.mem_append_right _ (List.mem_singleton_self _), rfl⟩
      · exact List.mem_map.2 ⟨_, List.mem_append_right _ (List.mem_singleton_self _), rfl⟩
    have h₁ : Beside (s.logRecord r) s₁ := (Beside.refl _).raise (f := bitAt R.FLT_INT_STATUS l) rfl
    have h₂ : Beside (s.logRecord r) s₂ := (h₁.raise (f := R.FLT_INT_STATUS_escalated) rfl).ite h₁
    have hall := ((h₂.bump (f := lowHalf (fltCount l)) 1 (fltCount_reached _)).assertErr l).react source l
    exact hall.faults.subset hlog

theorem State.awaitPush_spec (s : State) {code : Nat} (hcode : s.rd R.GLB_BOOT_STATUS_code = code) :
    s.awaitPush.rd R.GLB_BOOT_STATUS_code = code ∧ s.awaitPush.rd R.GLB_BOOT_STATUS_state = 8 ∧
    s.awaitPush.is R.GLB_INT_STATUS_boot_fail = true ∧ s.awaitPush.flt.records.any (fun r => r.source == 0 && r.reported == 3) = true := by
  obtain ⟨u, hu⟩ : ∃ u, u = ((s.wr R.GLB_BOOT_STATUS_state 8).wr R.GLB_BOOT_STATUS_source 2).raise R.GLB_INT_STATUS_boot_fail := ⟨_, rfl⟩
  have hb : Beside u s.awaitPush := by
    rw [State.awaitPush, ← hu]
    exact (Beside.refl u).report 0 1 3
  have hmem : (0, 3) ∈ s.awaitPush.flt.records.map FaultRecord.origin := by
    rw [State.awaitPush]
    exact State.reported_mem _ 0 1 3
  refine ⟨(hb.rd rfl).trans ?_, (hb.rd rfl).trans ?_, (hb.is rfl).trans ?_, ?_⟩
  · rw [hu, State.raise, State.rd_wr_other _ _ (by decide), State.rd_wr_apart _ _ (by decide), State.rd_wr_apart _ _ (by decide), hcode]
  · rw [hu, State.raise, State.rd_wr_other _ _ (by decide), State.rd_wr_apart _ _ (by decide), State.rd_wr_same _ _ _ (by decide)]
    rfl
  · rw [hu]
    exact State.is_raise _ _ (by decide) (by decide)
  · obtain ⟨r, hr, ho⟩ := List.mem_map.1 hmem
    injection ho with hsource hlevel
    exact List.any_eq_true.2 ⟨r, hr, by simp [hsource, hlevel]⟩

/-! ## The two commands -/

section
variable {source code : Nat} (hs : s.bootSource = some source) (hm : s.mayLoad = true)
include hs hm

section
variable {image i : Image} {training : Training} (hp : 2 ≤ source → s.glb.pushLast = true)
  (hi : i = if source < 2 then image else { image with bytes := s.glb.pushed })
include hp hi

theorem exec_bootAttempt {trained : Bool} (hc : s.attemptCode source i training = (code, trained)) : exec (.bootAttempt image training) s = .next (
      if code = 1 then (if trained = true then s.trainDram training else s).loadImage source i
      else (if trained = true then s.trainDram training else s).attemptFails source code) := by
  subst hi
  have hwait : (decide (2 ≤ source) && !s.glb.pushLast) = false := by
    by_cases h : 2 ≤ source
    · simp [hp h]
    · simp [h]
  simp only [exec, execBootAttempt, hs, hm, hwait, Bool.not_true, Bool.or_self, Bool.false_eq_true, if_false, hc]

theorem exec_bootAttempt_loads (hc : s.attemptCode source i training = (1, true)) :
    exec (.bootAttempt image training) s = .next ((s.trainDram training).loadImage source i) := by
  rw [exec_bootAttempt hs hm hp hi hc, if_pos rfl, if_pos rfl]

theorem exec_bootAttempt_fails (hne : code ≠ 1) (hc : s.attemptCode source i training = (code, false)) :
    exec (.bootAttempt image training) s = .next (s.attemptFails source code) := by
  rw [exec_bootAttempt hs hm hp hi hc, if_neg hne, if_neg Bool.false_ne_true]
end

theorem exec_bootSourceFailure (hc : code = 0x20 ∨ code = 0x22) :
    exec (.bootSourceFailure code) s = .next (s.attemptFails source code) := by
  have h27 : code ≠ 0x27 := by omega
  have h21 : code ≠ 0x21 := by omega
  simp only [exec, execBootSourceFailure, hs, hm, Bool.not_true, Bool.false_eq_true, if_false, h27, h21, if_pos hc]
end

end Sys2Proof.Machine
end

section
open Sys2Proof Sys2Proof.Machine

/-- Settles O18: a load by `State.loadImage_spec`, a failed attempt by `State.attemptFails_spec`, the push awaited by `State.awaitPush_spec`. -/
theorem bootAttempts : Obligations.BootAttempts := by
  unfold Obligations.BootAttempts
  intro s source image training hs hm hp i
  refine ⟨fun hc => ?_, fun code hcode hsource => ?_, fun hsource code hcode => ?_, fun hsource code hlt hne hc => ?_⟩
  · refine ⟨_, exec_bootAttempt_loads hs hm hp rfl hc, ?_⟩
    have hspec := (s.trainDram training).loadImage_spec source i (State.imageLen_le_of_attemptCode hc)
    generalize (s.trainDram training).loadImage source i = t at hspec ⊢
    obtain ⟨base, hreported, hstate, hsource, hmodes, hbytes⟩ := hspec
    obtain ⟨hloaded, hload, hid, hsecver, hshadow⟩ := hreported
    exact ⟨hloaded, hload, hstate, hsource, hid, hsecver, hmodes, by rw [hshadow]; exact hbytes⟩
  · have hcases := State.source_cases hs
    obtain ⟨hfailed, hstate, hnext⟩ := s.attemptFails_spec (source := source) (code := code) (by omega) (by omega)
    exact ⟨_, exec_bootSourceFailure hs hm hcode, hfailed.status, hfailed.loaded hm, hfailed.pushed, hstate, hnext,
      SameMemory.of_eq hfailed.ssm hfailed.dram, hfailed.reg_of_source (by omega)⟩
  · subst hsource
    refine ⟨_, exec_bootSourceFailure hs hm hcode, ?_⟩
    rw [State.attemptFails_one]
    exact State.awaitPush_spec _ (s.attemptNoted_failed 1 (by omega)).status
  · subst hsource
    obtain ⟨hfailed, -, hnext⟩ := s.attemptFails_spec (source := 0) hlt (Or.inl rfl)
    refine ⟨_, exec_bootAttempt_fails hs hm hp rfl hne hc, hfailed.status, fun hlow => ?_, hfailed.loaded hm,
      hnext, SameMemory.of_eq hfailed.ssm hfailed.dram, hfailed.reg⟩
    rw [hfailed.load, if_pos hlow]

end

section
/-!
Moves of an engine (05 R138, R144 to R149, R161): what an instruction leaves that forms no arithmetic flags, on an engine with nothing else in flight.
-/
namespace Sys2Proof.Machine

/-! ## The instruction in progress -/

/-- The engine a cycle on, at the next instruction, its buffered stores aged. -/
def Engine.next (e : Engine) : Engine := { e with pc := e.pc + 1, cycles := e.cycles + 1 }.ageStores 1

theorem State.engNext_eq (s : State) (n : EngIx) (e : Engine) : s.engNext n e = s.setEng n e.next := rfl

/-- Nothing of an earlier instruction is in flight and no loop is active. -/
structure Engine.Quiet (e : Engine) : Prop where
  cur : e.cur = {}
  delayed : e.delayed = []
  stack : e.stack = []

theorem State.engReady.quiet {s : State} {n : EngIx} (h : s.engReady n) : (s.eng n).Quiet := by
  obtain ⟨-, hcur, hdelayed, hstack⟩ := h
  exact ⟨hcur, hdelayed, hstack⟩

theorem State.engReady.issues {s : State} {n : EngIx} (h : s.engReady n) : s.engIssues n := h.1

/-- The engine with an instruction in progress that has made the results `rs`, and saturated or not. -/
def Engine.moving (e : Engine) (rs : List Result) (sat : Bool) : Engine := { e with cur := { results := rs, sat := sat } }

/-- A saturated transfer sets sl (05 R138). -/
def Engine.withSat (e : Engine) (sat : Bool) : Engine := if sat then { e with sr := e.sr ||| 0x0020 } else e

variable {e w : Engine} {rs : List Result} {sat : Bool}

theorem Engine.Quiet.moving (h : e.Quiet) : e.moving [] false = e := by
  rw [Engine.moving, ← h.cur]

theorem Engine.Quiet.nothing_delayed (h : e.Quiet) : ({ e with delayed := [] } : Engine) = e := by rw [← h.delayed]

theorem Engine.result_moving (slot wait : Nat) (r : EngReg) (v : Acc) :
    (e.moving rs sat).result slot wait r v = e.moving (rs ++ [⟨slot, wait, r, v⟩]) sat := rfl

theorem Engine.Quiet.saturated (h : e.Quiet) (b : Bool) : e.saturated b = e.moving [] b := by
  have hb : (e.moving [] false).saturated b = e.moving [] b := by cases b <;> rfl
  rwa [h.moving] at hb

/-! ## Results written at the end -/

theorem Engine.Quiet.put (h : e.Quiet) (r : EngReg) (v : Acc) : (e.put r v).Quiet := by
  cases r <;> exact ⟨h.cur, h.delayed, h.stack⟩

theorem Engine.put_moving (r : EngReg) (v : Acc) : (e.moving rs sat).put r v = (e.put r v).moving rs sat := by cases r <;> rfl

theorem Engine.putAll_single {slot : Nat} (h : slot < 4) (wait : Nat) (r : EngReg) (v : Acc) : e.putAll [⟨slot, wait, r, v⟩] = e.put r v := by
  interval_cases slot <;> rfl

/-- The end of an instruction without flags of its own: its results of latency 1 are written in `w`, the later ones wait, and a saturation sets sl. -/
theorem Engine.Quiet.finish_moving (he : e.Quiet) (h : w.Quiet)
    (hw : (e.moving rs sat).putAll (rs.filter fun r => r.wait ≤ 1) = w.moving rs sat) : (e.moving rs sat).finish 1 none = (({ w with
      delayed := (rs.filter fun (r : Result) => 1 < r.wait).map fun (r : Result) => { r with wait := r.wait - 1 } } : Engine).withSat sat).next := by
  have hm : (e.moving rs sat).mature 1 = e.moving rs sat := by
    simp [Engine.mature, Engine.moving, he.delayed, Engine.putAll]
  unfold Engine.finish
  rw [hm]
  simp only [show (e.moving rs sat).cur = { results := rs, sat := sat } from rfl, hw]
  cases sat <;> simp [Engine.moving, InFlight.flags, Engine.withSat, Engine.next, h.delayed, h.stack, h.cur, loopTest, srSat]

/-- An instruction that leaves no result in the register file. -/
theorem Engine.Quiet.finish_nothing (h : e.Quiet) : (e.moving [] sat).finish 1 none = (e.withSat sat).next := by
  rw [h.finish_moving h rfl]
  exact congrArg (fun e => (Engine.withSat e sat).next) h.nothing_delayed

/-- A result of latency 1 stands in its register at the next instruction. -/
theorem Engine.Quiet.finish_put (h : e.Quiet) {slot : Nat} (hs : slot < 4) (r : EngReg) (v : Acc) :
    (e.moving [⟨slot, 1, r, v⟩] sat).finish 1 none = ((e.put r v).withSat sat).next := by
  have hw := h.put r v
  rw [h.finish_moving hw ((Engine.putAll_single hs ..).trans (Engine.put_moving ..))]
  exact congrArg (fun e => (Engine.withSat e sat).next) hw.nothing_delayed

/-- A result of latency 2 waits a cycle more. -/
theorem Engine.Quiet.finish_late (h : e.Quiet) (slot : Nat) (r : EngReg) (v : Acc) :
    (e.moving [⟨slot, 2, r, v⟩] sat).finish 1 none = (({ e with delayed := [⟨slot, 1, r, v⟩] } : Engine).withSat sat).next := by
  rw [h.finish_moving h rfl]
  rfl

theorem Engine.Quiet.result_eq (h : e.Quiet) (slot wait : Nat) (r : EngReg) (v : Acc) :
    e.result slot wait r v = e.moving [⟨slot, wait, r, v⟩] false := by
  rw [← List.nil_append [_], ← Engine.result_moving, h.moving]

/-- The one result of an instruction, of latency 1. -/
theorem Engine.Quiet.finish_result (h : e.Quiet) {slot : Nat} (hs : slot < 4) (r : EngReg) (v : Acc) :
    (e.result slot 1 r v).finish 1 none = (e.put r v).next := by
  rw [h.result_eq]
  exact h.finish_put hs r v

/-- The one result of an instruction, of latency 2. -/
theorem Engine.Quiet.finish_result_late (h : e.Quiet) (slot : Nat) (r : EngReg) (v : Acc) :
    (e.result slot 2 r v).finish 1 none = ({ e with delayed := [⟨slot, 1, r, v⟩] } : Engine).next := by
  rw [h.result_eq]
  exact h.finish_late slot r v

/-! ## Pointer updates (05 R144, R147) -/

/-- The pointer after a move with update `u`. -/
def Engine.moved (e : Engine) (p : RegIx) (u : Update) : Engine :=
  if u = .none then e else e.withP p (ptrUpdate (e.pReg p) (e.step p u) (e.lReg p).toNat)

/-- The update as a result of the move's slot. -/
def Engine.ptrResults (e : Engine) (slot : Nat) (p : RegIx) (u : Update) : List Result :=
  if u = .none then [] else [⟨slot, 1, .p p, (ptrUpdate (e.pReg p) (e.step p u) (e.lReg p).toNat).setWidth 56⟩]

theorem Engine.put_p (p : RegIx) (v : Ptr) : e.put (.p p) (v.setWidth 56) = e.withP p v := by
  simp [Engine.put, Engine.withP, BitVec.setWidth_setWidth_of_le]

theorem Engine.movePtr_moving (slot : Nat) (p : RegIx) (u : Update) :
    (e.moving rs sat).movePtr slot p u = e.moving (rs ++ e.ptrResults slot p u) sat := by
  cases u <;> simp [Engine.movePtr, Engine.ptrResults, Engine.moving, Engine.result, Engine.pReg, Engine.lReg, Engine.step, Engine.mReg]

theorem Engine.Quiet.moved (h : e.Quiet) (p : RegIx) (u : Update) : (e.moved p u).Quiet := by
  unfold Engine.moved
  split
  · exact h
  · exact ⟨h.cur, h.delayed, h.stack⟩

theorem Engine.putAll_ptrResults {slot : Nat} (hs : slot < 4) (p : RegIx) (u : Update) :
    (e.moving rs sat).putAll (e.ptrResults slot p u) = (e.moved p u).moving rs sat := by
  unfold Engine.ptrResults Engine.moved
  split
  · rfl
  · rw [Engine.putAll_single hs, Engine.put_moving, Engine.put_p]

theorem Engine.ptrResults_now (slot : Nat) (p : RegIx) (u : Update) : ∀ r ∈ e.ptrResults slot p u, r.wait = 1 := by
  unfold Engine.ptrResults
  split <;> simp

theorem Engine.filter_ptrResults_now (slot : Nat) (p : RegIx) (u : Update) :
    (e.ptrResults slot p u).filter (fun r => r.wait ≤ 1) = e.ptrResults slot p u :=
  List.filter_eq_self.2 fun r hr => by simp [Engine.ptrResults_now slot p u r hr]

theorem Engine.filter_ptrResults_late (slot : Nat) (p : RegIx) (u : Update) : (e.ptrResults slot p u).filter (fun r => 1 < r.wait) = [] :=
  List.filter_eq_nil_iff.2 fun r hr => by simp [Engine.ptrResults_now slot p u r hr]

/-- A move whose pointer update is all it leaves in the register file. -/
theorem Engine.Quiet.finish_ptr (h : e.Quiet) {slot : Nat} (hs : slot < 4) (p : RegIx) (u : Update) :
    (e.moving (e.ptrResults slot p u) sat).finish 1 none = ((e.moved p u).withSat sat).next := by
  have hw := h.moved p u
  rw [h.finish_moving hw (by rw [Engine.filter_ptrResults_now, Engine.putAll_ptrResults hs]), Engine.filter_ptrResults_late]
  exact congrArg (fun e => (Engine.withSat e sat).next) hw.nothing_delayed

/-- A load: its word waits a cycle more, its pointer stands updated. -/
theorem Engine.Quiet.finish_load (h : e.Quiet) {slot : Nat} (hs : slot < 4) (d p : RegIx) (u : Update) (v : Acc) :
    ((e.result slot 2 (.d d) v).movePtr slot p u).finish 1 none = ({ e.moved p u with delayed := [⟨slot, 1, .d d, v⟩] } : Engine).next := by
  have hmoving : (e.result slot 2 (.d d) v).movePtr slot p u = e.moving (⟨slot, 2, .d d, v⟩ :: e.ptrResults slot p u) false := by
    rw [h.result_eq, Engine.movePtr_moving, List.singleton_append]
  rw [hmoving, h.finish_moving (h.moved p u) (by
    rw [List.filter_cons_of_neg (by simp), Engine.filter_ptrResults_now, Engine.putAll_ptrResults hs])]
  simp [Engine.filter_ptrResults_late, Engine.withSat]

/-! ## Stores (04 R113) -/

theorem Engine.poke_moving (page : Nat) (b : Bus) (at_ : Nat) (v : Sample) :
    (e.moving rs sat).poke page b at_ v = (e.poke page b at_ v).moving rs sat := by
  unfold Engine.poke
  cases b
  · dsimp only
    rw [apply_ite (Engine.moving · rs sat), apply_ite (Engine.moving · rs sat)]
    rfl
  · rfl

theorem Engine.Quiet.poke (h : e.Quiet) (page : Nat) (b : Bus) (at_ : Nat) (v : Sample) : (e.poke page b at_ v).Quiet := by
  unfold Engine.poke
  cases b
  · dsimp only
    split_ifs <;> exact ⟨h.cur, h.delayed, h.stack⟩
  · exact ⟨h.cur, h.delayed, h.stack⟩

theorem Engine.drain_moving (page : Nat) (b : Bus) : (e.moving rs sat).drain page b = (e.drain page b).moving rs sat := by
  cases b
  · unfold Engine.drain
    rw [show (e.moving rs sat).storesX = e.storesX from rfl]
    cases e.storesX with
    | nil => rfl
    | cons s t => exact Engine.poke_moving (e := { e with storesX := t }) ..
  · unfold Engine.drain
    rw [show (e.moving rs sat).storesY = e.storesY from rfl]
    cases e.storesY with
    | nil => rfl
    | cons s t => exact Engine.poke_moving (e := { e with storesY := t }) ..

theorem Engine.Quiet.drain (h : e.Quiet) (page : Nat) (b : Bus) : (e.drain page b).Quiet := by
  have hpop (bx by_ : List Buffered) : ({ e with storesX := bx, storesY := by_ } : Engine).Quiet := ⟨h.cur, h.delayed, h.stack⟩
  unfold Engine.drain
  cases b
  · dsimp only
    split
    · exact h
    · exact (hpop _ e.storesY).poke _ _ _ _
  · dsimp only
    split
    · exact h
    · exact (hpop e.storesX _).poke _ _ _ _

theorem Engine.store_moving (page : Nat) (b : Bus) (at_ : Ptr) (v : Sample) :
    (e.moving rs sat).store page b at_ v = (e.store page b at_ v).moving rs sat := by
  have hroom (p : Prop) [Decidable p] : (if p then (e.moving rs sat).drain page b else e.moving rs sat)
      = (if p then e.drain page b else e).moving rs sat := by
    rw [Engine.drain_moving, apply_ite (Engine.moving · rs sat)]
  cases b
  · exact congrArg (fun w : Engine => { w with storesX := w.storesX ++ [(⟨at_, v, 2⟩ : Buffered)] }) (hroom (2 ≤ e.storesX.length))
  · exact congrArg (fun w : Engine => { w with storesY := w.storesY ++ [(⟨at_, v, 2⟩ : Buffered)] }) (hroom (2 ≤ e.storesY.length))

theorem Engine.Quiet.store (h : e.Quiet) (page : Nat) (b : Bus) (at_ : Ptr) (v : Sample) : (e.store page b at_ v).Quiet := by
  have hroom (p : Prop) [Decidable p] : (if p then e.drain page b else e).Quiet := by
    split
    · exact h.drain page b
    · exact h
  cases b
  · exact ⟨(hroom _).cur, (hroom _).delayed, (hroom _).stack⟩
  · exact ⟨(hroom _).cur, (hroom _).delayed, (hroom _).stack⟩

/-- A store move: the word enters the store buffer, the pointer takes its update. -/
theorem Engine.Quiet.storeMove (h : e.Quiet) (page : Nat) (b : Bus) (p : RegIx) (v : Sample) (u : Update) :
    (e.moving [] sat).storeMove page b p v u true = (((e.store page b (e.pReg p) v).moved p u).withSat sat).next := by
  have hslot : busSlot b < 4 := by cases b <;> decide
  have hmove : (((e.moving [] sat).store page b (e.pReg p) v).movePtr (busSlot b) p u)
      = (e.store page b (e.pReg p) v).moving ((e.store page b (e.pReg p) v).ptrResults (busSlot b) p u) sat := by
    rw [Engine.store_moving, Engine.movePtr_moving, List.nil_append]
  exact (congrArg (Engine.finish · 1 none) hmove).trans ((h.store page b _ v).finish_ptr hslot p u)

end Sys2Proof.Machine
end

section
/-!
A fault report neither reads nor writes an engine (19 R482 to R490): reported of the same state with other engines, it leaves the same state with those
engines.
-/
namespace Sys2Proof.Machine

/-- The state with other engines. -/
def State.withEngines (s : State) (x : List (Nat × Engine)) : State := { s with engines := x }

variable (s t : State) (x : List (Nat × Engine))

/-! ## What is read -/

@[simp] theorem State.reg_withEngines (a : Nat) : (s.withEngines x).reg a = s.reg a := by cases s; rfl
@[simp] theorem State.rd_withEngines (f : FieldAt) : (s.withEngines x).rd f = s.rd f := by cases s; rfl
@[simp] theorem State.is_withEngines (f : FieldAt) : (s.withEngines x).is f = s.is f := by cases s; rfl
@[simp] theorem State.holds_withEngines (m : Nat) : (s.withEngines x).holds m = s.holds m := by cases s; rfl
@[simp] theorem State.now_withEngines : (s.withEngines x).now = s.now := by cases s; rfl
@[simp] theorem State.cfg_withEngines : (s.withEngines x).cfg = s.cfg := by cases s; rfl
@[simp] theorem State.dom_withEngines (k : Nat) : (s.withEngines x).dom k = s.dom k := by cases s; rfl
@[simp] theorem State.flt_withEngines : (s.withEngines x).flt = s.flt := by cases s; rfl
@[simp] theorem State.fov_withEngines : (s.withEngines x).fov = s.fov := by cases s; rfl
@[simp] theorem State.tdm_withEngines : (s.withEngines x).tdm = s.tdm := by cases s; rfl
@[simp] theorem State.grp_withEngines (g : Nat) : (s.withEngines x).grp g = s.grp g := by cases s; rfl
@[simp] theorem State.amp_withEngines (c : Nat) : (s.withEngines x).amp c = s.amp c := by cases s; rfl
@[simp] theorem State.lane_withEngines (n : Nat) : (s.withEngines x).lane n = s.lane n := by cases s; rfl
@[simp] theorem State.halted_withEngines : (s.withEngines x).halted = s.halted := by cases s; rfl
@[simp] theorem State.running_withEngines : (s.withEngines x).running = s.running := by cases s; rfl
@[simp] theorem State.forced3_withEngines : (s.withEngines x).forced3 = s.forced3 := by cases s; rfl
@[simp] theorem State.fenced_withEngines : (s.withEngines x).fenced = s.fenced := by cases s; rfl
@[simp] theorem State.fovState_withEngines : (s.withEngines x).fovState = s.fovState := by cases s; rfl
@[simp] theorem State.soft_withEngines (c d : Nat) : (s.withEngines x).soft c d = s.soft c d := by cases s; rfl
@[simp] theorem State.hardAmp_withEngines : (s.withEngines x).hardAmp = s.hardAmp := by cases s; rfl
@[simp] theorem State.muteAmp_withEngines (a : Nat) : (s.withEngines x).muteAmp a = s.muteAmp a := by cases s; rfl
@[simp] theorem State.tdmAssigned_withEngines (g : Nat) : (s.withEngines x).tdmAssigned g = s.tdmAssigned g := by cases s; rfl
@[simp] theorem State.tdmMaster_withEngines (g : Nat) : (s.withEngines x).tdmMaster g = s.tdmMaster g := by cases s; rfl
@[simp] theorem State.tdmDomain_withEngines (g : Nat) : (s.withEngines x).tdmDomain g = s.tdmDomain g := by cases s; rfl
@[simp] theorem State.tdmState_withEngines (g : Nat) : (s.withEngines x).tdmState g = s.tdmState g := by cases s; rfl
@[simp] theorem State.ampAssigned_withEngines (a : Nat) : (s.withEngines x).ampAssigned a = s.ampAssigned a := by cases s; rfl
@[simp] theorem State.ampMain_withEngines (c : Nat) : (s.withEngines x).ampMain c = s.ampMain c := by cases s; rfl
@[simp] theorem State.ampPair_withEngines (c : Nat) : (s.withEngines x).ampPair c = s.ampPair c := by cases s; rfl
@[simp] theorem State.laneState_withEngines (n : Nat) : (s.withEngines x).laneState n = s.laneState n := by cases s; rfl
@[simp] theorem State.modeAbsent_withEngines (m : Nat) : (s.withEngines x).modeAbsent m = s.modeAbsent m := by cases s; rfl
@[simp] theorem State.faultLog_withEngines : (s.withEngines x).faultLog = s.faultLog := by cases s; rfl
@[simp] theorem State.errLevel_withEngines : (s.withEngines x).errLevel = s.errLevel := by cases s; rfl
@[simp] theorem State.logTime_withEngines (n : Nat) : (s.withEngines x).logTime n = s.logTime n := by cases s; rfl
@[simp] theorem State.mergesInto_withEngines (c l : Nat) : (s.withEngines x).mergesInto c l = s.mergesInto c l := by cases s; rfl
@[simp] theorem State.recordLevel_withEngines (c l : Nat) : (s.withEngines x).recordLevel c l = s.recordLevel c l := by cases s; rfl

/-! ## What is written -/

@[simp] theorem State.wr_withEngines (f : FieldAt) (v : Nat) : (s.withEngines x).wr f v = (s.wr f v).withEngines x := by cases s; rfl
@[simp] theorem State.setReg_withEngines (a : Nat) (v : Word) : (s.withEngines x).setReg a v = (s.setReg a v).withEngines x := by cases s; rfl
@[simp] theorem State.raise_withEngines (f : FieldAt) : (s.withEngines x).raise f = (s.raise f).withEngines x := by cases s; rfl
@[simp] theorem State.bump_withEngines (f : FieldAt) (n : Nat) : (s.withEngines x).bump f n = (s.bump f n).withEngines x := by cases s; rfl
@[simp] theorem State.emit_withEngines (e : Emission) : (s.withEngines x).emit e = (s.emit e).withEngines x := by cases s; rfl
@[simp] theorem State.hw_withEngines (f : FieldAt) (v : Nat) : (s.withEngines x).hw f v = (s.hw f v).withEngines x := by cases s; rfl
@[simp] theorem State.setTdm_withEngines (r : Tdm) : (s.withEngines x).setTdm r = (s.setTdm r).withEngines x := by cases s; rfl
@[simp] theorem State.setLane_withEngines (n : Nat) (l : Lane) : (s.withEngines x).setLane n l = (s.setLane n l).withEngines x := by cases s; rfl
@[simp] theorem State.setAmp_withEngines (c : Nat) (a : AmpChannel) : (s.withEngines x).setAmp c a = (s.setAmp c a).withEngines x := by cases s; rfl
@[simp] theorem State.weirReturn_withEngines (r : Nat) : (s.withEngines x).weirReturn r = (s.weirReturn r).withEngines x := by cases s; rfl
@[simp] theorem State.readaptDrop_withEngines (n : Nat) : (s.withEngines x).readaptDrop n = (s.readaptDrop n).withEngines x := by cases s; rfl
@[simp] theorem State.ampCauseEnds_withEngines (c : Nat) : (s.withEngines x).ampCauseEnds c = (s.ampCauseEnds c).withEngines x := by cases s; rfl

@[simp] theorem State.ite_withEngines {c : Prop} {_ : Decidable c} :
    (if c then s.withEngines x else t.withEngines x) = (if c then s else t).withEngines x := (apply_ite (State.withEngines · x) c s t).symm

theorem State.foldl_withEngines {α : Type} {f : State → α → State} (h : ∀ s a, f (s.withEngines x) a = (f s a).withEngines x) (l : List α) :
    l.foldl f (s.withEngines x) = (l.foldl f s).withEngines x := by
  induction l generalizing s with
  | nil => rfl
  | cons a l ih => rw [List.foldl_cons, h, ih, List.foldl_cons]

/-! ## Safe states and halts -/

@[simp] theorem State.hwMode_withEngines (m : Nat) (on : Bool) : (s.withEngines x).hwMode m on = (s.hwMode m on).withEngines x := by
  simp [State.hwMode]

@[simp] theorem State.setGrp_withEngines (g : Nat) (r : TdmGroup) : (s.withEngines x).setGrp g r = (s.setGrp g r).withEngines x := by
  simp [State.setGrp]

@[simp] theorem State.tdmSafe_withEngines (g : Nat) (on : Bool) : (s.withEngines x).tdmSafe g on = (s.tdmSafe g on).withEngines x := by
  simp [State.tdmSafe]

@[simp] theorem State.judgeFence_withEngines : (s.withEngines x).judgeFence = s.judgeFence.withEngines x := by
  unfold State.judgeFence
  simp only [State.running_withEngines, State.forced3_withEngines, State.halted_withEngines, State.holds_withEngines, State.fovState_withEngines,
    State.fenced_withEngines]
  split
  · rfl
  · split
    · rfl
    · rfl

@[simp] theorem State.ampEnter_withEngines (c k : Nat) : (s.withEngines x).ampEnter c k = (s.ampEnter c k).withEngines x :=
  s.foldl_withEngines x (fun _ _ => rfl) _

@[simp] theorem State.ampRelease_withEngines (a : Nat) : (s.withEngines x).ampRelease a = (s.ampRelease a).withEngines x := by
  simp [State.ampRelease]

@[simp] theorem State.ampSafe_withEngines (a : Nat) (mute hard : Bool) :
    (s.withEngines x).ampSafe a mute hard = (s.ampSafe a mute hard).withEngines x := by
  simp [State.ampSafe, State.foldl_withEngines]

@[simp] theorem State.ampUnsafe_withEngines (a : Nat) (mute hard : Bool) :
    (s.withEngines x).ampUnsafe a mute hard = (s.ampUnsafe a mute hard).withEngines x := by
  simp [State.ampUnsafe, State.ampOff, State.foldl_withEngines]

@[simp] theorem State.laneBelow_withEngines (n v : Nat) : (s.withEngines x).laneBelow n v = (s.laneBelow n v).withEngines x := by
  simp [State.laneBelow, State.scanAbort]

@[simp] theorem State.stopNetTests_withEngines : (s.withEngines x).stopNetTests = s.stopNetTests.withEngines x := by
  simp [State.stopNetTests]

@[simp] theorem State.applySafe_withEngines : (s.withEngines x).applySafe = s.applySafe.withEngines x := by
  simp [State.applySafe, State.foldl_withEngines]

/-! ## The report (19 R482 to R485) -/

@[simp] theorem State.logRecord_withEngines (r : FaultRecord) : (s.withEngines x).logRecord r = (s.logRecord r).withEngines x := by
  unfold State.logRecord
  rw [State.faultLog_withEngines]
  split
  · rfl
  · rfl

@[simp] theorem State.assertErr_withEngines (l : Nat) : (s.withEngines x).assertErr l = (s.assertErr l).withEngines x := by
  have hpulse (u : State) : (if (u.withEngines x).is R.FLT_STATUS_err_n then u.withEngines x
      else ((u.withEngines x).wr R.FLT_STATUS_err_n 1).emit (.errN true))
      = (if u.is R.FLT_STATUS_err_n then u else (u.wr R.FLT_STATUS_err_n 1).emit (.errN true)).withEngines x := by simp
  unfold State.assertErr
  rw [State.errLevel_withEngines]
  split
  · exact hpulse (State.hw { s with flt := { s.flt with pulse := true, clearAtPulseEnd := false, errAt := s.now } } R.FLT_ERR_CTRL_hold 1)
  · rfl

@[simp] theorem State.react_withEngines (source l : Nat) : (s.withEngines x).react source l = (s.react source l).withEngines x := by
  unfold State.react
  split
  · dsimp only
    rw [State.reg_withEngines]
    split
    · rfl
    · exact State.applySafe_withEngines (State.wr { s with flt := { s.flt with scopes := s.flt.scopes ++ [_] } } _ _) x
  · split
    · simp
    · split
      · rw [State.fovState_withEngines]
        exact State.applySafe_withEngines (State.wr (State.wr { s with fov := { s.fov with departing := decide (s.fovState ≠ 0) } }
          (bitAt R.FLT_STATUS 20) 1) R.FLT_STATUS_halted 1) x
      · rfl

theorem State.report_withEngines (source code level : Nat) : (s.withEngines x).report source code level = (s.report source code level).withEngines x := by
  unfold State.report State.reportAs
  rw [State.mergesInto_withEngines]
  cases s.mergesInto source level with
  | some r => rfl
  | none => simp

end Sys2Proof.Machine
end

section
/-!
Loads, stores and register moves of an engine as commands (04 R113, R126; 05 R138, R144, R147 to R149, R161).
-/
namespace Sys2Proof.Machine

variable {s : State} {n : EngIx} {e : Engine}

/-! ## The engine behind a report -/

theorem State.setEng_setEng (s : State) (n : Nat) (e w : Engine) : (s.setEng n e).setEng n w = s.setEng n w := by
  simp only [State.setEng, Tab.set_set]

/-- An engine stored before a report stands in the state the report leaves. -/
theorem State.report_setEng (s : State) (n : Nat) (e : Engine) (source code level : Nat) :
    (s.setEng n e).report source code level = (s.report source code level).setEng n e := by
  have hengines := (State.report_aside source code level (Aside.refl s)).engines
  calc (s.setEng n e).report source code level
    _ = (s.report source code level).withEngines (Tab.set (fun _ => {}) s.engines n e) := State.report_withEngines ..
    _ = (s.report source code level).setEng n e := by rw [← hengines]; rfl

theorem State.engFault_setEng (s : State) (n m : Nat) (e : Engine) (code level : Nat) :
    (s.setEng m e).engFault n code level = (s.engFault n code level).setEng m e :=
  State.report_setEng (s.raise (bitAt (R.ENGn_INT_STATUS n) code)) m e _ _ _

/-- An uncorrectable word is counted and reported, and marks the tick as failed (04 R126, R133). -/
theorem State.engEcc_uncorrectable (s : State) (n : Nat) : s.engEcc n .uncorrectable
    = ((s.bump (highHalf (R.ENGn_ECC_COUNT n))).engFault n 8 2).setEng n { s.eng n with faulty := true } :=
  State.engFault_setEng (s.bump (highHalf (R.ENGn_ECC_COUNT n))) n n _ 8 2

/-! ## Operations of a ready engine -/

theorem State.engReady.runs (h : s.engReady n) : s.engRuns n = true := State.engRuns_of h.issues

/-- An instruction of one operation `f` on a ready engine. -/
theorem State.engReady.issue (h : s.engReady n) {f : Engine → Engine} {w : Engine} (hf : f (s.eng n) = w.next) : s.issue n f = s.engNext n w := by
  rw [State.issue_eq h.issues, hf, State.engNext_eq]

/-! ## Loads and stores -/

theorem busSlot_lt (b : Bus) : busSlot b < 4 := by cases b <;> decide

theorem exec_ld_clean (h : s.engReady n) (bus : Bus) (p d : RegIx) (u : Update) : exec (.ld n bus p d u .clean true) s
    = .next (s.engNext n { (s.eng n).moved p u with
        delayed := [⟨busSlot bus, 1, .d d, ((s.eng n).load (s.paramPage n) bus ((s.eng n).pReg p)).setWidth 56⟩] }) := by
  have hrun : exec (.ld n bus p d u .clean true) s = .next (if !s.engRuns n then s else s.setEng n
      ((((s.eng n).result (busSlot bus) 2 (.d d) (((s.eng n).load (s.paramPage n) bus ((s.eng n).pReg p)).setWidth 56)).movePtr (busSlot bus) p u).finish
        1 none)) := rfl
  rw [hrun, h.runs, h.quiet.finish_load (busSlot_lt bus)]
  rfl

theorem Engine.moved_faulty (e : Engine) (p : RegIx) (u : Update) (b : Bool) :
    ({ e with faulty := b } : Engine).moved p u = { e.moved p u with faulty := b } := by
  unfold Engine.moved
  split
  · rfl
  · rfl

theorem exec_ld_uncorrectable (h : s.engReady n) (bus : Bus) (p d : RegIx) (u : Update) : exec (.ld n bus p d u .uncorrectable true) s
    = .next (((s.bump (highHalf (R.ENGn_ECC_COUNT n))).engFault n 8 2).engNext n { (s.eng n).moved p u with
        faulty := true, delayed := [⟨busSlot bus, 1, .d d, 0⟩] }) := by
  have hrun : exec (.ld n bus p d u .uncorrectable true) s = .next (if !s.engRuns n then s else (s.engEcc n .uncorrectable).setEng n
      (((((s.engEcc n .uncorrectable).eng n).result (busSlot bus) 2 (.d d) 0).movePtr (busSlot bus) p u).finish 1 none)) := rfl
  have hquiet : ({ s.eng n with faulty := true } : Engine).Quiet := ⟨h.quiet.cur, h.quiet.delayed, h.quiet.stack⟩
  rw [hrun, h.runs, State.engEcc_uncorrectable, State.eng_setEng_self, State.setEng_setEng, hquiet.finish_load (busSlot_lt bus),
    Engine.moved_faulty]
  rfl

theorem exec_st (h : s.engReady n) (bus : Bus) (p d : RegIx) (u : Update) : exec (.st n bus p d u true) s
    = .next (s.engNext n (((s.eng n).store (s.paramPage n) bus ((s.eng n).pReg p) ((s.eng n).dReg d)).moved p u)) := by
  have hmove := h.quiet.storeMove (sat := false) (s.paramPage n) bus p ((s.eng n).dReg d) u
  rw [h.quiet.moving] at hmove
  exact congrArg Host.Outcome.next (h.issue hmove)

theorem exec_stSat (h : s.engReady n) (bus : Bus) (p : RegIx) (a : AccIx) (u : Update) : exec (.stSat n bus p a u true) s
    = .next (s.engNext n ((((s.eng n).store (s.paramPage n) bus ((s.eng n).pReg p) (sat24 ((s.eng n).acc a)).1).moved p u).withSat
        (sat24 ((s.eng n).acc a)).2)) := by
  have hmove := h.quiet.storeMove (sat := (sat24 ((s.eng n).acc a)).2) (s.paramPage n) bus p (sat24 ((s.eng n).acc a)).1 u
  rw [← h.quiet.saturated] at hmove
  exact congrArg Host.Outcome.next (h.issue hmove)

/-! ## Register moves (05 R147 to R149) -/

/-- Writes to m and l registers take two cycles, all others one (05 R161). -/
theorem codeLatency_codeReg : ∀ c : Fin 64, codeLatency (codeReg c) = if 0x18 ≤ c.val ∧ c.val < 0x28 then 2 else 1 := by decide

/-- A value written through register code `c`: readable at the next instruction, or one later. -/
def Engine.written (e : Engine) (c : Fin 64) (v : Acc) : Engine :=
  if 0x18 ≤ c.val ∧ c.val < 0x28 then { e with delayed := [⟨0, 1, codeReg c, v⟩] } else e.put (codeReg c) v

theorem Engine.Quiet.finish_written (h : e.Quiet) (sat : Bool) (c : Fin 64) (v : Acc) :
    ((e.saturated sat).result 0 (codeLatency (codeReg c)) (codeReg c) v).finish 1 none = ((e.written c v).withSat sat).next := by
  rw [h.saturated, Engine.result_moving, codeLatency_codeReg, Engine.written]
  split
  · exact h.finish_late ..
  · exact h.finish_put (by decide) ..

theorem exec_ldi (h : s.engReady n) (c : Fin 64) (imm : Sample) : exec (.ldi n c imm) s
    = .next (s.engNext n ((s.eng n).written c (codeValue (codeReg c) imm))) :=
  congrArg Host.Outcome.next (h.issue (h.quiet.finish_written false c _))

theorem codeReg_acc (i : AccIx) : codeReg (8 + i) = .a i := by
  have := i.isLt
  simp only [codeReg, show ¬ 8 + i.val < 8 by omega, show 8 + i.val < 12 by omega, if_true, if_false]
  congr 1
  omega

/-- A move between accumulators carries all 56 bits. -/
theorem exec_mov_acc (h : s.engReady n) (i j : AccIx) {hi : 8 + i.val < 64} {hj : 8 + j.val < 64} : exec (.mov n ⟨8 + i, hi⟩ ⟨8 + j, hj⟩) s
    = .next (s.engNext n { s.eng n with a := Tab.set (fun _ => 0) (s.eng n).a i ((s.eng n).acc j) }) := by
  refine congrArg Host.Outcome.next (h.issue ?_)
  dsimp only
  rw [codeReg_acc, codeReg_acc]
  exact h.quiet.finish_result (by decide) ..

theorem acc_of_codeReg {c i : Nat} (h : codeReg c = .a i) : i = c - 8 := by
  by_cases h8 : c < 8
  · simp only [codeReg, h8, if_true] at h
    cases h
  · by_cases h12 : c < 12
    · simp only [codeReg, h8, h12, if_true, if_false] at h
      cases h
      rfl
    · simp [codeReg, h8, h12, ite_eq_iff] at h

/-- Any other move reads a word and may saturate. -/
theorem exec_mov_word (h : s.engReady n) {c c' : Fin 64} (hcc : ¬(codeReg c = .a (c.val - 8) ∧ codeReg c' = .a (c'.val - 8))) : exec (.mov n c c') s
    = .next (s.engNext n (((s.eng n).written c (codeValue (codeReg c) ((s.eng n).readCode c').1)).withSat ((s.eng n).readCode c').2)) := by
  refine congrArg Host.Outcome.next (h.issue ?_)
  dsimp only
  split
  · next i j hi hj => exact absurd ⟨by rw [hi, acc_of_codeReg hi], by rw [hj, acc_of_codeReg hj]⟩ hcc
  · exact h.quiet.finish_written ..

theorem exec_lea (h : s.engReady n) (p : RegIx) (step : Ptr) : exec (.lea n p step) s
    = .next (s.engNext n ((s.eng n).withP p (ptrUpdate ((s.eng n).pReg p) step.toInt ((s.eng n).lReg p).toNat))) := by
  refine congrArg Host.Outcome.next (h.issue ?_)
  rw [← Engine.put_p]
  exact h.quiet.finish_result (by decide) ..

end Sys2Proof.Machine
end

section
open Sys2Proof Sys2Proof.Machine

/-- Settles O27: each instruction by the equation of its meaning, its results by how an instruction with nothing else in flight ends. -/
theorem memoryAndRegisterMoves : Obligations.MemoryAndRegisterMoves := by
  unfold Obligations.MemoryAndRegisterMoves
  refine ⟨fun s n bus p d a u h => ⟨?_, ?_, ?_, ?_⟩, fun s n c c' imm p step i j h => ⟨?_, ?_, ?_, ?_⟩⟩
  · rw [exec_ld_clean h]
    cases bus <;> rfl
  · refine ⟨_, rfl, ?_⟩
    rw [exec_ld_uncorrectable h]
    cases bus <;> rfl
  · exact exec_st h ..
  · exact exec_stSat h ..
  · exact exec_ldi h ..
  · exact exec_mov_acc h i j
  · exact fun hcc => exec_mov_word h hcc
  · exact exec_lea h ..

end

section
/-!
Inlet takes and outlet sends of an engine (04 R119, R120, R122; 05 R145).
-/
namespace Sys2Proof.Machine

variable {s : State} {n : EngIx} {port : Fin 16} {d : RegIx} {l : Nat} {k : Lock} {b : Barge}

/-! ## Takes -/

/-- The words read so far of an inlet's barge. -/
def Engine.readWords (e : Engine) (port : Nat) : Nat := Tab.get (fun _ => 0) e.read port

/-- The engine after a take of `v` that reads a word of the barge. -/
def Engine.taken (e : Engine) (port d : Nat) (v : Sample) : Engine :=
  { e with read := Tab.set (fun _ => 0) e.read port (e.readWords port + 1), delayed := [⟨2, 1, .d d, v.setWidth 56⟩] }

/-- The words of the barge of an inlet; 0 for an inlet without one. -/
def State.inletSize (s : State) (e : Engine) (port : Nat) : Nat :=
  match e.inletLock port with
  | some l => match s.lock l with | some q => s.bargeWords q | none => 0
  | none => 0

/-- The word a take reads; 0 of an absent barge. -/
def State.inletWord (s : State) (e : Engine) (port : Nat) : Sample :=
  if e.absent.contains port then 0
  else match e.inletLock port with
    | some l => match s.awaits l e.tick with | some b => b.words.getD (e.readWords port) 0 | none => 0
    | none => 0

/-- With the last word of its barge an inlet returns the barge's credit. -/
def State.returnsLast (s : State) (e : Engine) (port : Nat) : State :=
  match e.inletLock port with
  | some l => if e.readWords port + 1 = s.inletSize e port then s.consume l e.tick else s
  | none => s

theorem State.inletSize_of_lock {e : Engine} (hi : e.inletLock port = some l) (hk : s.lock l = some k) : s.inletSize e port = s.bargeWords k := by
  simp only [State.inletSize, hi, hk]

theorem exec_take (h : s.engReady n) : exec (.take n port d .clean true) s = .next (
    if (s.eng n).readWords port < s.inletSize (s.eng n) port
    then (s.engNext n ((s.eng n).taken port d (s.inletWord (s.eng n) port))).returnsLast (s.eng n) port
    else (s.engNext n { s.eng n with delayed := [⟨2, 1, .d d, 0⟩] }).overread n) := by
  have hrun : exec (.take n port d .clean true) s = .next (if !s.engRuns n then s else
      if (s.eng n).readWords port < s.inletSize (s.eng n) port
      then (s.setEng n ((({ s.eng n with read := Tab.set (fun _ => 0) (s.eng n).read port ((s.eng n).readWords port + 1) } : Engine).result 2 2 (.d d)
        ((s.inletWord (s.eng n) port).setWidth 56)).finish 1 none)).returnsLast (s.eng n) port
      else (s.setEng n (((s.eng n).result 2 2 (.d d) 0).finish 1 none)).overread n) := by rfl
  have hread : ({ s.eng n with read := Tab.set (fun _ => 0) (s.eng n).read port ((s.eng n).readWords port + 1) } : Engine).Quiet :=
    ⟨h.quiet.cur, h.quiet.delayed, h.quiet.stack⟩
  rw [hrun, h.runs, hread.finish_result_late, h.quiet.finish_result_late]
  rfl

theorem exec_take_within (h : s.engReady n) (hi : (s.eng n).inletLock port = some l) (hk : s.lock l = some k)
    (hlt : (s.eng n).readWords port < s.bargeWords k) : exec (.take n port d .clean true) s = .next (
      if (s.eng n).readWords port + 1 = s.bargeWords k
      then (s.engNext n ((s.eng n).taken port d (s.inletWord (s.eng n) port))).consume l (s.eng n).tick
      else s.engNext n ((s.eng n).taken port d (s.inletWord (s.eng n) port))) := by
  have hsize := State.inletSize_of_lock hi hk
  have hsize' (w : Engine) : (s.engNext n w).inletSize (s.eng n) port = s.bargeWords k := hsize
  rw [exec_take h, hsize, if_pos hlt]
  simp only [State.returnsLast, hi, hsize']

theorem exec_take_beyond (h : s.engReady n) (hbeyond : s.inletSize (s.eng n) port ≤ (s.eng n).readWords port) :
    exec (.take n port d .clean true) s = .next ((s.engNext n { s.eng n with delayed := [⟨2, 1, .d d, 0⟩] }).overread n) := by
  rw [exec_take h, if_neg (Nat.not_lt.2 hbeyond)]

/-! ## Sends -/

/-- The engine with `v` appended to the barge of an outlet. -/
def Engine.sending (e : Engine) (port : Nat) (v : Sample) : Engine := { e with sent := Tab.set (fun _ => []) e.sent port (e.sentWords port ++ [v]) }

section
variable {e : Engine} {v : Sample} (he : s.eng n = e)
include he

/-- A word for an outlet with room in its barge. -/
theorem State.sendWord_room (hlt : port.val < e.outlets.length) (hd : e.dropped.contains port.val = false)
    (hroom : (e.sentWords port).length < s.outletSize e port) : s.sendWord n port v = s.setEng n (e.sending port v) := by
  simp only [State.sendWord, he, List.getElem?_eq_getElem hlt, hd, hroom, if_true]
  rfl

/-- A word for an outlet that had no credit at the start is discarded. -/
theorem State.sendWord_dropped (hlt : port.val < e.outlets.length) (hd : e.dropped.contains port.val = true) : s.sendWord n port v = s := by
  simp only [State.sendWord, he, List.getElem?_eq_getElem hlt, hd, if_true]

/-- A word beyond the barge, or for an unbound outlet, is discarded with overread. -/
theorem State.sendWord_beyond (h : e.outlets.length ≤ port.val ∨
    e.dropped.contains port.val = false ∧ ¬(e.sentWords port).length < s.outletSize e port) : s.sendWord n port v = s.overread n := by
  rcases Nat.lt_or_ge port.val e.outlets.length with hlt | hge
  · obtain ⟨hd, hroom⟩ := h.resolve_left (Nat.not_le.2 hlt)
    simp only [State.sendWord, he, List.getElem?_eq_getElem hlt, hd, hroom, if_false]
    rfl
  · simp only [State.sendWord, he, List.getElem?_eq_none hge]
end

theorem State.overread_setEng (s : State) (n m : Nat) (e : Engine) : (s.setEng m e).overread n = (s.overread n).setEng m e :=
  s.engFault_setEng n m e 4 2

theorem State.engines_engNext {t : State} (h : t.engines = s.engines) (e : Engine) : (t.engNext n e).engines = (s.engNext n e).engines := by
  simp only [State.engNext, State.setEng, h]

theorem State.engines_overread (s : State) (n : Nat) : (s.overread n).engines = s.engines :=
  (State.report_aside _ _ _ (State.raise_aside _ (Aside.refl s))).engines

theorem State.eng_overread (s : State) (n m : Nat) : (s.overread n).eng m = s.eng m :=
  State.eng_congr (s.engines_overread n) m

/-- The engine while a send of accumulator `a` is in progress. -/
def Engine.sendingAcc (e : Engine) (a : AccIx) : Engine := e.moving [] (sat24 (e.acc a)).2

variable {a : AccIx}

theorem exec_send (h : s.engReady n) : exec (.send n port d true) s = .next ((s.sendWord n port ((s.eng n).dReg d)).endOp n true) := by
  have hrun : exec (.send n port d true) s
      = .next (if !s.engRuns n then s else (s.sendWord n port ((s.eng n).dReg d)).endOp n true) := rfl
  rw [hrun, h.runs]
  rfl

theorem exec_sendSat (h : s.engReady n) : exec (.sendSat n port a true) s
    = .next (((s.setEng n ((s.eng n).sendingAcc a)).sendWord n port (sat24 ((s.eng n).acc a)).1).endOp n true) := by
  have hrun : exec (.sendSat n port a true) s = .next (if !s.engRuns n then s else
      ((s.setEng n ((s.eng n).saturated (sat24 ((s.eng n).acc a)).2)).sendWord n port (sat24 ((s.eng n).acc a)).1).endOp n true) := rfl
  rw [hrun, h.runs, h.quiet.saturated]
  rfl

/-- The end of a send, the engine stored as `e`. -/
theorem State.endOp_setEng (s : State) (n : EngIx) {e w : Engine} (h : e.finish 1 none = w.next) : (s.setEng n e).endOp n true = s.engNext n w := by
  rw [State.endOp, State.eng_setEng_self, State.setEng_setEng, State.engNext_eq, ← h]
  rfl

theorem State.endOp_eng (s : State) (n : EngIx) {w : Engine} (h : (s.eng n).finish 1 none = w.next) : s.endOp n true = s.engNext n w := by
  rw [State.endOp, State.engNext_eq, ← h]
  rfl

theorem Engine.Quiet.finish_idle {e : Engine} (h : e.Quiet) : e.finish 1 none = e.next := by
  have hnothing := h.finish_nothing (sat := false)
  rwa [h.moving] at hnothing

theorem Engine.Quiet.sending {e : Engine} (h : e.Quiet) (port : Nat) (v : Sample) : (e.sending port v).Quiet := ⟨h.cur, h.delayed, h.stack⟩

section
theorem Engine.Quiet.finish_sendingAcc {e : Engine} (h : e.Quiet) (a : AccIx) :
    (e.sendingAcc a).finish 1 none = (e.withSat (sat24 (e.acc a)).2).next := h.finish_nothing

theorem Engine.Quiet.finish_sent {e : Engine} (h : e.Quiet) (a : AccIx) (port : Nat) (v : Sample) :
    ((e.sendingAcc a).sending port v).finish 1 none = ((e.sending port v).withSat (sat24 (e.acc a)).2).next := (h.sending port v).finish_nothing

variable (h : s.engReady n)
include h

theorem exec_send_room (hlt : port.val < (s.eng n).outlets.length) (hd : (s.eng n).dropped.contains port.val = false)
    (hroom : ((s.eng n).sentWords port).length < s.outletSize (s.eng n) port) :
    exec (.send n port d true) s = .next (s.engNext n ((s.eng n).sending port ((s.eng n).dReg d))) := by
  rw [exec_send h, State.sendWord_room rfl hlt hd hroom, State.endOp_setEng _ _ (h.quiet.sending _ _).finish_idle]

theorem exec_sendSat_room (hlt : port.val < (s.eng n).outlets.length) (hd : (s.eng n).dropped.contains port.val = false)
    (hroom : ((s.eng n).sentWords port).length < s.outletSize (s.eng n) port) : exec (.sendSat n port a true) s
      = .next (s.engNext n (((s.eng n).sending port (sat24 ((s.eng n).acc a)).1).withSat (sat24 ((s.eng n).acc a)).2)) := by
  rw [exec_sendSat h, State.sendWord_room (s.eng_setEng_self n ((s.eng n).sendingAcc a)) hlt hd hroom, State.setEng_setEng,
    State.endOp_setEng _ _ (h.quiet.finish_sent a port _)]

theorem exec_send_dropped (hlt : port.val < (s.eng n).outlets.length) (hd : (s.eng n).dropped.contains port.val = true) :
    exec (.send n port d true) s = .next (s.engNext n (s.eng n)) := by
  rw [exec_send h, State.sendWord_dropped rfl hlt hd, State.endOp_eng _ _ h.quiet.finish_idle]

theorem exec_sendSat_dropped (hlt : port.val < (s.eng n).outlets.length) (hd : (s.eng n).dropped.contains port.val = true) :
    exec (.sendSat n port a true) s = .next (s.engNext n ((s.eng n).withSat (sat24 ((s.eng n).acc a)).2)) := by
  rw [exec_sendSat h, State.sendWord_dropped (s.eng_setEng_self n ((s.eng n).sendingAcc a)) hlt hd, State.endOp_setEng _ _ (h.quiet.finish_sendingAcc a)]

variable (hbeyond : (s.eng n).outlets.length ≤ port.val ∨
  (s.eng n).dropped.contains port.val = false ∧ ¬((s.eng n).sentWords port).length < s.outletSize (s.eng n) port)
include hbeyond

theorem exec_send_beyond : exec (.send n port d true) s = .next ((s.overread n).engNext n (s.eng n)) := by
  have heng : (s.overread n).eng n = s.eng n := s.eng_overread n n
  rw [exec_send h, State.sendWord_beyond rfl hbeyond, State.endOp_eng _ _ (by rw [heng]; exact h.quiet.finish_idle)]

theorem exec_sendSat_beyond : exec (.sendSat n port a true) s
    = .next ((s.overread n).engNext n ((s.eng n).withSat (sat24 ((s.eng n).acc a)).2)) := by
  rw [exec_sendSat h, State.sendWord_beyond (s.eng_setEng_self n ((s.eng n).sendingAcc a)) hbeyond, State.overread_setEng,
    State.endOp_setEng _ _ (h.quiet.finish_sendingAcc a)]
end

end Sys2Proof.Machine
end

section
open Sys2Proof Sys2Proof.Machine

/-- Settles O28: a take by whether the barge has a word left, a send by what its outlet does with the word. -/
theorem portTransfers : Obligations.PortTransfers := by
  unfold Obligations.PortTransfers
  intro s n port d a l k b h
  refine ⟨fun hi hk hb habsent hlt => ?_, fun hi hk habsent hlt => ?_, fun hbeyond => ?_,
    fun hlt hd hroom => ⟨exec_send_room h hlt hd hroom, exec_sendSat_room h hlt hd hroom⟩,
    fun hlt hd => ⟨exec_send_dropped h hlt hd, exec_sendSat_dropped h hlt hd⟩,
    fun hbeyond => ⟨exec_send_beyond h hbeyond, _, exec_sendSat_beyond h hbeyond, ?_⟩⟩
  · have hword : s.inletWord (s.eng n) port = b.words.getD ((s.eng n).readWords port) 0 := by
      simp only [State.inletWord, habsent, hi, hb, Bool.false_eq_true, if_false]
    rw [exec_take_within h hi hk hlt, hword]
    rfl
  · have hword : s.inletWord (s.eng n) port = 0 := if_pos habsent
    rw [exec_take_within h hi hk hlt, hword]
    rfl
  · refine exec_take_beyond h ?_
    rcases hbeyond with hi | ⟨hi, hk, hle⟩
    · simp only [State.inletSize, hi, Nat.zero_le]
    · rw [State.inletSize_of_lock hi hk]
      exact hle
  · exact State.engines_engNext (s.engines_overread n) _

end

section
/-!
An engine's memory window, its page swaps, the copy of its parameter page and its relock (04 R109, R110, R116, R125, R127).
-/
namespace Sys2Proof.Machine

variable {s : State} {n : EngIx} {user : WindowUser} {o : BitVec 18} {v : Word}

/-! ## Window accesses (04 R109, R110) -/

/-- The word an access to offset `o` reaches. -/
def windowWord (o : BitVec 18) : Nat := o.toNat / 4 * 4

theorem exec_engineWindowAccess (h : s.engState n ≠ 3) (write : Option Word) : exec (.engineWindowAccess n user o write .clean) s
    = .next (s.serveWindow ⟨n, user, windowMaster user, windowWord o, write.map fun v => [v], .clean, false⟩) :=
  congrArg Host.Outcome.next (if_neg h)

/-- A clean read by the device answers with the word of the window. -/
theorem State.serveWindow_read (s : State) (n master o : Nat) (user : WindowUser) :
    s.serveWindow ⟨n, user, master, o, none, .clean, false⟩ = (s.windowRead n o).2.answer [(s.windowRead n o).1] := rfl

/-- A write beside the program pages is never refused. -/
theorem State.serveWindow_write_data (s : State) (n master : Nat) (user : WindowUser) {o : Nat} (ho : 0x20000 ≤ o) (v : Word) :
    s.serveWindow ⟨n, user, master, o, some [v], .clean, false⟩ = (s.windowPut n o v).answer [] := by
  have hprog : ¬ o < 0x20000 := Nat.not_lt.2 ho
  have hwrite : s.windowWrite master n o v = (s.windowPut n o v).answer [] := by
    simp only [State.windowWrite, hprog, false_and, if_false]
  calc s.serveWindow ⟨n, user, master, o, some [v], .clean, false⟩
    _ = if (s.windowWrite master n o v).reply.response = .okay then s.windowWrite master n o v else s.windowWrite master n o v := rfl
    _ = (s.windowPut n o v).answer [] := by rw [ite_self, hwrite]

theorem State.windowRead_y (s : State) (n : Nat) {o : Nat} (ho : 0x30000 ≤ o) :
    s.windowRead n o = (windowData (Tab.get (fun _ => 0) (s.eng n).y ((o - 0x30000) / 4)), s) := by
  simp only [State.windowRead, show ¬ o < 0x20000 by omega, show ¬ o < 0x30000 by omega, if_false]

theorem State.windowPut_y (s : State) (n : Nat) {o : Nat} (ho : 0x30000 ≤ o) (v : Word) :
    s.windowPut n o v = s.setEng n { s.eng n with y := Tab.set (fun _ => 0) (s.eng n).y ((o - 0x30000) / 4) (v.setWidth 24) } := by
  simp only [State.windowPut, show ¬ o < 0x20000 by omega, show ¬ o < 0x30000 by omega, if_false]
  rfl

section
variable {o : Nat} (ho : 0x20000 ≤ o) (ho' : o < 0x30000) (hp : (s.eng n).paramOn = false)
include ho ho' hp

theorem State.windowRead_x : s.windowRead n o = (windowData (Tab.get (fun _ => 0) (s.eng n).x ((o - 0x20000) / 4)), s) := by
  simp only [State.windowRead, State.extX, show ¬ o < 0x20000 by omega, ho', hp, if_false, if_true, Bool.false_and, Bool.false_eq_true]

theorem State.windowPut_x : s.windowPut n o v
    = s.setEng n { s.eng n with x := Tab.set (fun _ => 0) (s.eng n).x ((o - 0x20000) / 4) (v.setWidth 24) } := by
  simp only [State.windowPut, Engine.poke, show ¬ o < 0x20000 by omega, ho', hp, if_false, if_true, Bool.false_and, Bool.false_eq_true]
end

/-- An access to an engine that runs a segment waits. -/
theorem exec_engineWindowAccess_waits (h : s.engState n = 3) (hfree : (s.waits.any fun p => p.engine = n.val ∧ p.user = user) = false) :
    exec (.engineWindowAccess n user o (some v) .clean) s
      = .next { s with waits := s.waits ++ [⟨n, user, windowMaster user, windowWord o, some [v], .clean, false⟩] } := by
  have hwaits : s.windowWaits ⟨n, user, windowMaster user, windowWord o, some [v], .clean, false⟩
      = { s with waits := s.waits ++ [⟨n, user, windowMaster user, windowWord o, some [v], .clean, false⟩] } :=
    if_neg (by rw [hfree]; exact Bool.false_ne_true)
  rw [← hwaits]
  exact congrArg Host.Outcome.next (if_pos h)

/-! ## Page swaps (04 R116, R125) -/

theorem State.gateless_of_stopped {n : Nat} (h : s.engState n = 0) : s.gateless n = true := by simp [State.gateless, h]

theorem State.not_gateless {n : Nat} (h : s.engState n ≠ 0) (hd : s.engDomain n ≠ 3) : s.gateless n = false := by simp [State.gateless, h, hd]

theorem State.requestSwap_waits (h : s.gateless n = false) (he : (s.eng n).swapAt = []) : s.requestSwap n
    = (s.wr (R.ENGn_PAGE_pending n) 1).setEng n { s.eng n with swapAt := [s.tick (s.engDomain n) + 1] } := by
  simp [State.requestSwap, h, he]

theorem State.requestParamSwap_waits (h : s.gateless n = false) (he : (s.eng n).paramSwapAt = []) : s.requestParamSwap n
    = (s.wr (R.ENGn_PARAM_pending n) 1).setEng n { s.eng n with paramSwapAt := [s.tick (s.engDomain n) + 1] } := by
  simp [State.requestParamSwap, h, he]

/-- The registers after a program page swap. -/
theorem State.pageTurns_regs (s : State) (n : Nat) :
    (s.pageTurns n).rd (R.ENGn_PAGE_cur n) = 1 - s.rd (R.ENGn_PAGE_cur n) ∧
    (s.pageTurns n).rd (R.ENGn_STATUS_page n) = (s.pageTurns n).rd (R.ENGn_PAGE_cur n) ∧
    (s.pageTurns n).rd (R.ENGn_PAGE_pending n) = 0 ∧
    ∀ a, a ≠ R.ENGn_PAGE n → a ≠ R.ENGn_STATUS n → (s.pageTurns n).reg a = s.reg a := by
  have hne : R.ENGn_PAGE n ≠ R.ENGn_STATUS n := by simp only [R.ENGn_PAGE, R.ENGn_STATUS]; omega
  have hbit : (1 - s.rd (R.ENGn_PAGE_cur n)) % 2 ^ 1 = 1 - s.rd (R.ENGn_PAGE_cur n) := by omega
  have hcur : (s.pageTurns n).rd (R.ENGn_PAGE_cur n) = 1 - s.rd (R.ENGn_PAGE_cur n) := by
    rw [State.pageTurns, State.rd_wr_apart _ _ (.inr (by decide : 0 + 1 ≤ 8)), State.rd_wr_other _ _ hne, State.rd_wr_same _ _ _ (by decide : 0 + 1 ≤ 32)]
    exact hbit
  refine ⟨hcur, ?_, State.rd_wr_same _ _ _ (by decide : 8 + 1 ≤ 32), fun a ha ha' => ?_⟩
  · rw [hcur, State.pageTurns, State.rd_wr_other _ _ hne.symm, State.rd_wr_same _ _ _ (by decide : 7 + 1 ≤ 32)]
    exact hbit
  · rw [State.pageTurns, State.reg_wr_ne _ _ ha, State.reg_wr_ne _ _ ha', State.reg_wr_ne _ _ ha]

/-- The registers after a parameter page swap. -/
theorem State.paramTurns_regs (s : State) (n : Nat) :
    (s.paramTurns n).rd (R.ENGn_PARAM_cur n) = 1 - s.rd (R.ENGn_PARAM_cur n) ∧
    (s.paramTurns n).rd (R.ENGn_PARAM_pending n) = 0 ∧
    (s.paramTurns n).is (R.ENGn_PARAM_copy_busy n) = true ∧
    ∀ a, a ≠ R.ENGn_PARAM n → (s.paramTurns n).reg a = s.reg a := by
  have hbit : (1 - s.rd (R.ENGn_PARAM_cur n)) % 2 ^ 1 = 1 - s.rd (R.ENGn_PARAM_cur n) := by omega
  refine ⟨?_, ?_, State.is_raise _ _ (by decide : 12 + 1 ≤ 32) (by decide : 0 < 1), fun a ha => ?_⟩
  · rw [State.paramTurns, State.rd_wr_apart _ _ (.inr (by decide : 0 + 1 ≤ 12)), State.rd_wr_apart _ _ (.inr (by decide : 0 + 1 ≤ 8)),
      State.rd_wr_same _ _ _ (by decide : 0 + 1 ≤ 32)]
    exact hbit
  · rw [State.paramTurns, State.rd_wr_apart _ _ (.inr (by decide : 8 + 1 ≤ 12)), State.rd_wr_same _ _ _ (by decide : 8 + 1 ≤ 32)]
    rfl
  · rw [State.paramTurns, State.reg_wr_ne _ _ ha, State.reg_wr_ne _ _ ha, State.reg_wr_ne _ _ ha]

theorem State.requestSwap_stopped (h : s.engState n = 0) : s.requestSwap n = (s.setEng n { s.eng n with swapAt := [] }).pageTurns n := by
  rw [State.requestSwap, if_pos (State.gateless_of_stopped h)]

theorem State.requestParamSwap_stopped (h : s.engState n = 0) (hb : s.is (R.ENGn_PARAM_copy_busy n) = false) :
    s.requestParamSwap n = (s.setEng n { s.eng n with paramSwapAt := [] }).paramTurns n := by
  rw [State.requestParamSwap, if_pos (by rw [State.gateless_of_stopped h, hb]; rfl)]

/-! ## The copy of the parameter page (04 R116) -/

/-- The words `l` of the current page copied to the inactive page, but those an external master wrote. -/
def Engine.copiedWords (e : Engine) (cur : Nat) (l : List Nat) : List (Nat × Sample) :=
  l.foldl (fun p i => if e.paramTouched.contains i then p
    else Tab.set (fun _ => 0) p (256 * (1 - cur) + i) (Tab.get (fun _ => 0) e.param (256 * cur + i))) e.param

theorem Engine.get_copiedWords (e : Engine) (cur N i : Nat) : Tab.get (fun _ => 0) (e.copiedWords cur (List.range N)) (256 * (1 - cur) + i)
    = Tab.get (fun _ => 0) e.param (if i < N ∧ e.paramTouched.contains i = false then 256 * cur + i else 256 * (1 - cur) + i) := by
  induction N with
  | zero => simp [Engine.copiedWords]
  | succ N ih =>
    have hstep : e.copiedWords cur (List.range (N + 1)) = if e.paramTouched.contains N then e.copiedWords cur (List.range N)
        else Tab.set (fun _ => 0) (e.copiedWords cur (List.range N)) (256 * (1 - cur) + N) (Tab.get (fun _ => 0) e.param (256 * cur + N)) := by
      simp only [Engine.copiedWords, List.range_succ, List.foldl_append, List.foldl_cons, List.foldl_nil]
    rw [hstep]
    by_cases hi : i = N
    · subst hi
      split
      · next ht => rw [ih, if_neg fun h => Nat.lt_irrefl _ h.1, if_neg fun h => Bool.false_ne_true (h.2.symm.trans ht)]
      · next ht => rw [Tab.get_set_self, if_pos ⟨Nat.lt_succ_self _, by simpa using ht⟩]
    · have hrow : i < N + 1 ∧ e.paramTouched.contains i = false ↔ i < N ∧ e.paramTouched.contains i = false := and_congr (by omega) Iff.rfl
      have hkey : 256 * (1 - cur) + i ≠ 256 * (1 - cur) + N := by omega
      simp only [hrow]
      split
      · exact ih
      · rw [Tab.get_set_ne _ _ _ hkey, ih]

theorem exec_paramCopyEnd (hb : s.is (R.ENGn_PARAM_copy_busy n) = true) (he : (s.eng n).paramSwapAt = []) : exec (.paramCopyEnd n) s
    = .next ((s.setEng n { s.eng n with param := (s.eng n).copiedWords (s.paramPage n) (List.range 256), paramTouched := [] }).wr
        (R.ENGn_PARAM_copy_busy n) 0) := by
  simp only [exec, execParamCopyEnd, hb, he, Bool.not_true, Bool.false_eq_true, if_false, List.isEmpty_nil, Bool.false_and]
  rfl

theorem State.param_copied (s : State) (n : Nat) (f : FieldAt) (v : Nat) (p : List (Nat × Sample)) :
    (((s.setEng n { s.eng n with param := p, paramTouched := [] }).wr f v).eng n).param = p :=
  congrArg Engine.param (s.eng_setEng_self n { s.eng n with param := p, paramTouched := [] })

end Sys2Proof.Machine
end

section
open Sys2Proof Sys2Proof.Machine

/-- Settles O22: window accesses by the word they reach, page swaps by the registers a page turn writes, the copy by the words it carries. -/
theorem engineWindowsAndPages : Obligations.EngineWindowsAndPages := by
  unfold Obligations.EngineWindowsAndPages
  intro s n user o v
  refine ⟨fun hs ho => ?_, fun hs ho ho' hp => ?_, fun hs hfree => exec_engineWindowAccess_waits hs hfree, fun hs hd he hpe => ?_,
    fun hs => ?_, fun hs hb => ?_, fun hb he => ?_, fun hs => congrArg Host.Outcome.next (if_pos hs)⟩
  · have hw : 0x30000 ≤ windowWord o := by unfold windowWord; omega
    rw [exec_engineWindowAccess hs, exec_engineWindowAccess hs]
    exact ⟨by rw [Option.map_none, State.serveWindow_read, State.windowRead_y s n hw]; rfl,
      by rw [Option.map_some, State.serveWindow_write_data s n _ _ (by omega), State.windowPut_y s n hw]; rfl⟩
  · have hw : 0x20000 ≤ windowWord o := by unfold windowWord; omega
    have hw' : windowWord o < 0x30000 := by unfold windowWord; omega
    rw [exec_engineWindowAccess hs, exec_engineWindowAccess hs]
    exact ⟨by rw [Option.map_none, State.serveWindow_read, State.windowRead_x hw hw' hp]; rfl,
      by rw [Option.map_some, State.serveWindow_write_data s n _ _ hw, State.windowPut_x hw hw' hp]; rfl⟩
  · have hgate := State.not_gateless hs hd
    exact ⟨congrArg Host.Outcome.next (State.requestSwap_waits hgate he), congrArg Host.Outcome.next (State.requestParamSwap_waits hgate hpe)⟩
  · exact ⟨_, congrArg Host.Outcome.next (State.requestSwap_stopped hs), State.pageTurns_regs _ n⟩
  · exact ⟨_, congrArg Host.Outcome.next (State.requestParamSwap_stopped hs hb), State.paramTurns_regs _ n⟩
  · refine ⟨_, exec_paramCopyEnd hb he, State.rd_wr_same _ _ _ (by decide : 12 + 1 ≤ 32), fun a ha => State.reg_wr_ne _ _ ha, fun i hi => ?_⟩
    rw [State.param_copied, Engine.get_copiedWords]
    cases (s.eng n).paramTouched.contains i <;> simp [hi]

end

section
/-!
Substitution of an engine (04 R129 to R133): what each step of a unit leaves in its registers, its record, its grant and the engines it joins.
-/
namespace Sys2Proof.Machine

variable {s s₀ t : State} {u : Fin 2} {n : Nat}

/-! ## The registers of a unit -/

/-- The status register of a unit. -/
def subStatus (u : Nat) : Nat := R.ENG_SUB0_STATUS + 16 * u

theorem State.subState_congr {u : Nat} (h : t.reg (subStatus u) = s.reg (subStatus u)) : t.subState u = s.subState u :=
  State.rd_congr (f := subF u R.ENG_SUB0_STATUS_state) h

theorem State.subTarget_congr {u : Nat} (h : t.reg (subStatus u) = s.reg (subStatus u)) : t.subTarget u = s.subTarget u :=
  State.rd_congr (f := subF u R.ENG_SUB0_STATUS_target) h

/-- A register of an engine, or of another block above the units, is not a unit's status. -/
theorem subStatus_ne_high (u : Fin 2) {a : Nat} (h : 0x160100 ≤ a) : subStatus u ≠ a := by
  have := u.isLt
  simp only [subStatus, R.ENG_SUB0_STATUS]
  omega

theorem subStatus_ne_engStatus (u : Fin 2) (n : Nat) : subStatus u ≠ R.ENGn_STATUS n :=
  subStatus_ne_high u (by simp only [R.ENGn_STATUS]; omega)

theorem subStatus_ne_event (u : Nat) : subStatus u ≠ R.ENG_SUB_INT_STATUS := by
  simp only [subStatus, R.ENG_SUB0_STATUS, R.ENG_SUB_INT_STATUS]
  omega

theorem subStatus_ne_cutTick (u v : Nat) : subStatus u ≠ R.ENG_SUB0_CUT_TICK + 16 * v := by
  simp only [subStatus, R.ENG_SUB0_STATUS, R.ENG_SUB0_CUT_TICK]
  omega

theorem engStatus_ne_subStatus (n u : Nat) : R.ENGn_STATUS n ≠ subStatus u := engStatus_ne (subStatus_ne u) n

theorem State.subState_setSubState (s : State) (u : Nat) {k : Nat} (hk : k < 2 ^ 4) : (s.setSubState u k).subState u = k :=
  (s.rd_wr_same _ _ (by decide : 0 + 4 ≤ 32)).trans (Nat.mod_eq_of_lt hk)

theorem State.subTarget_setSubState (s : State) (u k : Nat) : (s.setSubState u k).subTarget u = s.subTarget u :=
  s.rd_wr_apart k (Or.inl (by decide : 0 + 4 ≤ 8))

theorem State.reg_setSubState (s : State) (u k : Nat) {a : Nat} (h : a ≠ subStatus u) : (s.setSubState u k).reg a = s.reg a := s.reg_wr_ne k h

theorem State.engState_setSubState (s : State) (u k n : Nat) : (s.setSubState u k).engState n = s.engState n :=
  State.engState_congr (s.reg_setSubState u k (engStatus_ne_subStatus n u))

theorem State.subEvent_is (s : State) (u : Fin 2) {k : Nat} (hk : k < 8) : (s.subEvent u k).is (bitAt R.ENG_SUB_INT_STATUS (8 * u + k)) = true :=
  State.is_raise s _ (by have := u.isLt; simp only [bitAt]; omega) (by decide : 0 < 1)

theorem State.reg_subEvent (s : State) (u k : Nat) {a : Nat} (h : a ≠ R.ENG_SUB_INT_STATUS) : (s.subEvent u k).reg a = s.reg a := s.reg_wr_ne 1 h

theorem State.sub_setSub_self (s : State) (u : Nat) (x : Subst) : (s.setSub u x).sub u = x := by simp [State.sub, State.setSub]

theorem State.sub_congr (h : t.substs = s.substs) (u : Nat) : t.sub u = s.sub u := by simp only [State.sub, h]

theorem State.reg_setSub (s : State) (u : Nat) (x : Subst) (a : Nat) : (s.setSub u x).reg a = s.reg a := rfl

theorem State.sub_setSub_ne (s : State) {u v : Nat} (x : Subst) (h : v ≠ u) : (s.setSub u x).sub v = s.sub v := by
  simp [State.sub, State.setSub, Tab.get_set_ne _ _ _ h]

/-! ## What differs -/

/-- Nothing differs but registers, the records of the units and the weir. -/
structure UnitOnly (s t : State) : Prop where
  rest : { t with regs := s.regs, substs := s.substs, weir := s.weir } = s

/-- Nothing differs but registers, units and weir, and the engines, their locks and the router. -/
structure Rearranged (s t : State) : Prop where
  rest : { t with
    regs := s.regs, layers := s.layers, substs := s.substs, weir := s.weir, engines := s.engines, locks := s.locks, router := s.router } = s

theorem UnitOnly.refl (s : State) : UnitOnly s s := ⟨rfl⟩
theorem UnitOnly.ite {p : Prop} [Decidable p] (h : UnitOnly s₀ s) (h' : UnitOnly s₀ t) : UnitOnly s₀ (if p then s else t) := by split <;> assumption
theorem UnitOnly.setReg (a : Nat) (v : Word) (h : UnitOnly s₀ s) : UnitOnly s₀ (s.setReg a v) := ⟨h.rest⟩
theorem UnitOnly.wr (f : FieldAt) (v : Nat) (h : UnitOnly s₀ s) : UnitOnly s₀ (s.wr f v) := h.setReg ..
theorem UnitOnly.setSub (u : Nat) (x : Subst) (h : UnitOnly s₀ s) : UnitOnly s₀ (s.setSub u x) := ⟨h.rest⟩
theorem UnitOnly.setRequester (r : Nat) (q : Requester) (h : UnitOnly s₀ s) : UnitOnly s₀ (s.setRequester r q) := ⟨h.rest⟩
theorem UnitOnly.weirRequest (r cost : Nat) (h : UnitOnly s₀ s) : UnitOnly s₀ (s.weirRequest r cost) :=
  UnitOnly.ite ((h.setRequester r _).wr _ _) (h.setRequester r _)
theorem UnitOnly.weirDrop (r : Nat) (h : UnitOnly s₀ s) : UnitOnly s₀ (s.weirDrop r) := (h.setRequester r _).setRequester r _
theorem UnitOnly.engines (h : UnitOnly s t) : t.engines = s.engines := (congrArg State.engines h.rest :)
theorem UnitOnly.locks (h : UnitOnly s t) : t.locks = s.locks := (congrArg State.locks h.rest :)
theorem UnitOnly.sameMemory (h : UnitOnly s t) : SameMemory s t := SameMemory.of_eq (congrArg State.ssm h.rest :) (congrArg State.dram h.rest :)

/-! ## Requests for leave (20 R505) -/

theorem State.requester_setRequester_self (s : State) (r : Nat) (q : Requester) : (s.setRequester r q).requester r = q := by
  simp [State.requester, State.setRequester]

/-- A request stands with its cost; beside the weir it reaches the event of a request that can never fit. -/
theorem State.weirRequest_spec (s : State) (r cost : Nat) :
    ((s.weirRequest r cost).requester r).pending = true ∧ ((s.weirRequest r cost).requester r).cost = cost ∧
    (s.weirRequest r cost).substs = s.substs ∧ ∀ a, a ≠ R.WEIR_INT_STATUS → (s.weirRequest r cost).reg a = s.reg a := by
  unfold State.weirRequest
  extract_lets unfit q w
  have hw : w.requester r = { s.requester r with pending := true, cost := cost, since := s.now, starving := false, unfit := unfit } :=
    s.requester_setRequester_self r _
  clear_value unfit
  split
  · have hraise : (w.raise R.WEIR_INT_STATUS_unfit).requester r = w.requester r := rfl
    rw [hraise, hw]
    exact ⟨rfl, rfl, rfl, fun a ha => w.reg_wr_ne 1 ha⟩
  · rw [hw]
    exact ⟨rfl, rfl, rfl, fun _ _ => rfl⟩

theorem State.grant_weirDrop (s : State) (r : Nat) : ((s.weirDrop r).requester r).grant = 0 :=
  congrArg Requester.grant (State.requester_setRequester_self ..)

/-! ## Start (04 R130, R133) -/

/-- Unit `u` has entered state 1 for `target` and asked the weir for leave. -/
structure SubStarted (u : Fin 2) (target method : Nat) (s t : State) : Prop where
  state : t.subState u = 1
  target : t.subTarget u = target
  method : (t.sub u).method = method
  pending : (t.requester u).pending = true
  cost : (t.requester u).cost = s.weirCost u
  only : UnitOnly s t

theorem State.substRefuses_of_busy (h : s.subState u ≠ 0) (target method : Nat) : s.substRefuses u target method = true := by
  simp [State.substRefuses, h]

theorem State.target_lt_of_not_refused {target method : Nat} (h : s.substRefuses u target method = false) : target < 32 := by
  simp only [State.substRefuses, Bool.or_eq_false_iff, decide_eq_false_iff_not] at h
  omega

theorem State.substStart_refused {target method : Nat} (h : s.substRefuses u target method = true) :
    s.substStart u target method = s.wr (subF u R.ENG_SUB0_STATUS_refused) 1 := if_pos h

/-- The registers of a start: the unit in state 1 for its target, both engines taking part. -/
def State.substEntered (s : State) (u target : Nat) : State :=
  let s := ((s.wr (subF u R.ENG_SUB0_STATUS_refused) 0).wr (subF u R.ENG_SUB0_STATUS_target) target).setSubState u 1
  (s.wr (R.ENGn_STATUS_subst target) 1).wr (R.ENGn_STATUS_subst (32 + u)) 4

theorem State.reg_substEntered (s : State) (u target : Nat) {a : Nat} (hs : a ≠ subStatus u) (he : ∀ m, a ≠ R.ENGn_STATUS m) :
    (s.substEntered u target).reg a = s.reg a := by
  simp only [State.substEntered]
  rw [State.reg_wr_ne _ _ (he _), State.reg_wr_ne _ _ (he _), State.reg_setSubState _ _ _ hs, State.reg_wr_ne _ _ hs, State.reg_wr_ne _ _ hs]

theorem State.subStatus_substEntered (s : State) (u : Fin 2) (target : Nat) : (s.substEntered u target).reg (subStatus u)
    = (((s.wr (subF u R.ENG_SUB0_STATUS_refused) 0).wr (subF u R.ENG_SUB0_STATUS_target) target).setSubState u 1).reg (subStatus u) := by
  simp only [State.substEntered]
  rw [State.reg_wr_ne _ _ (subStatus_ne_engStatus u _), State.reg_wr_ne _ _ (subStatus_ne_engStatus u _)]

theorem State.subState_substEntered (s : State) (u : Fin 2) (target : Nat) : (s.substEntered u target).subState u = 1 := by
  rw [State.subState_congr (s.subStatus_substEntered u target)]
  exact State.subState_setSubState _ _ (by decide)

theorem State.subTarget_substEntered (s : State) (u : Fin 2) {target : Nat} (h : target < 32) : (s.substEntered u target).subTarget u = target := by
  rw [State.subTarget_congr (s.subStatus_substEntered u target), State.subTarget_setSubState]
  exact (State.rd_wr_same _ _ _ (by decide : 8 + 6 ≤ 32)).trans (Nat.mod_eq_of_lt (Nat.lt_of_lt_of_le h (by decide : 32 ≤ 2 ^ 6)))

theorem State.substEntered_unitOnly (s : State) (u target : Nat) : UnitOnly s (s.substEntered u target) :=
  (((((UnitOnly.refl s).wr _ _).wr _ _).wr _ _).wr _ _).wr _ _

theorem State.weirCost_substEntered (s : State) (u : Fin 2) (target : Nat) : (s.substEntered u target).weirCost u = s.weirCost u := by
  have := u.isLt
  refine State.rd_congr (f := ⟨R.WEIR_COSTr u, 0, 12⟩) (s.reg_substEntered u target ?_ fun m => ?_)
  · simp only [subStatus, R.ENG_SUB0_STATUS, R.WEIR_COSTr]
    omega
  · simp only [R.ENGn_STATUS, R.WEIR_COSTr]
    omega

theorem State.substStart_eq {target method : Nat} (h : s.substRefuses u target method = false) : s.substStart u target method
    = ((s.substEntered u target).setSub u { method := method, domain := (s.substEntered u target).engDomain target }).weirRequest u
        ((s.substEntered u target).weirCost u) := by
  unfold State.substStart
  rw [h]
  rfl

theorem State.substStart_started {target method : Nat} (h : s.substRefuses u target method = false) :
    SubStarted u target method s (s.substStart u target method) := by
  obtain ⟨hpending, hcost, hsubsts, hreg⟩ := ((s.substEntered u target).setSub u
    { method := method, domain := (s.substEntered u target).engDomain target }).weirRequest_spec u ((s.substEntered u target).weirCost u)
  have hstatus := hreg (subStatus u) (by simp only [subStatus, R.ENG_SUB0_STATUS, R.WEIR_INT_STATUS]; omega)
  rw [State.substStart_eq h]
  rw [State.reg_setSub] at hstatus
  refine ⟨(State.subState_congr hstatus).trans (s.subState_substEntered u target),
    (State.subTarget_congr hstatus).trans (s.subTarget_substEntered u (State.target_lt_of_not_refused h)), ?_, hpending,
    hcost.trans (s.weirCost_substEntered u target), ((s.substEntered_unitOnly u target).setSub u _).weirRequest u _⟩
  have hsub := (s.substEntered u target).sub_setSub_self u { method := method, domain := (s.substEntered u target).engDomain target }
  rw [← State.sub_congr hsubsts] at hsub
  rw [hsub]

theorem exec_substitutionStart (u : Fin 2) : exec (.substitutionStart u) s
    = .next (s.substStart u (s.rd (subF u R.ENG_SUB0_CTRL_target)) (s.rd (subF u R.ENG_SUB0_CTRL_method))) := rfl

/-- A target that has failed often enough is substituted warm (04 R133). -/
theorem exec_substitutionAutoFail {target : Fin 32} (ha : s.is (subF u R.ENG_SUB0_CTRL_auto_fail) = true) (hs : s.subState u = 0)
    (ht : s.rd (subF u R.ENG_SUB0_CTRL_target) = target) (hf : max 1 (s.rd (subF u R.ENG_SUB0_CTRL_fail_n)) ≤ (s.eng target).fails) :
    exec (.substitutionAutoFail u target) s = .next (s.substStart u target 2) := by
  simp only [exec, execSubstitutionAutoFail, ha, hs, ht, hf, beq_self_eq_true, decide_true, Bool.and_self, if_true]

/-! ## Relock and readiness (04 R127, R130, R131) -/

theorem engEvent_ne_subStatus (n u : Nat) : R.ENGn_INT_STATUS n ≠ subStatus u := by
  simp only [subStatus, R.ENG_SUB0_STATUS, R.ENGn_INT_STATUS]
  omega

/-- The prepared engine has relocked, its unit in state 3. -/
theorem State.substRelocked_spec (s : State) (u n : Nat) :
    ((s.substRelocked n).setSubState u 3).subState u = 3 ∧ ((s.substRelocked n).setSubState u 3).engState n = 2 ∧
    ((s.substRelocked n).setSubState u 3).is (R.ENGn_INT_STATUS_relocked n) = true ∧ UnitOnly s ((s.substRelocked n).setSubState u 3) := by
  have hrelocked : (s.substRelocked n).is (R.ENGn_INT_STATUS_relocked n) = true := by
    have hne : (R.ENGn_INT_STATUS_relocked n).addr ≠ (R.ENGn_STATUS_state n).addr := (engStatus_ne (engEvent_ne n) n).symm
    rw [State.substRelocked, State.setEngState, State.is, State.rd_wr_other _ _ hne]
    exact State.is_raise s _ (by decide : 10 + 1 ≤ 32) (by decide : 0 < 1)
  refine ⟨State.subState_setSubState _ _ (by decide), ?_, ?_, (((UnitOnly.refl s).wr _ _).wr _ _).wr _ _⟩
  · rw [State.engState_setSubState]
    exact State.engState_setEngState _ _ (by decide)
  · rw [State.is, State.rd_congr (State.reg_setSubState _ _ _ (engEvent_ne_subStatus n u))]
    exact hrelocked

/-- With auto_cut a ready unit has its cut at the next boundary (04 R131). -/
def State.autoCut (s : State) (u : Nat) : State :=
  if s.is (subF u R.ENG_SUB0_CTRL_auto_cut) then s.setSub u { s.sub u with cutAt := some (s.tick (s.engDomain (s.working u)) + 1) } else s

theorem exec_substitutionReady (hs : s.subState u = 4) (hc : s.warmCount u ≤ s.rd (subF u R.ENG_SUB0_STATUS_count)) :
    exec (.substitutionReady u) s = .next (((s.setSubState u 5).subEvent u 0).autoCut u) := by
  simp only [exec, execSubstitutionReady, Nat.not_lt.2 hc, hs, if_false, if_true]
  rfl

theorem State.reg_autoCut (s : State) (u a : Nat) : (s.autoCut u).reg a = s.reg a := by
  unfold State.autoCut
  split
  · rfl
  · rfl

theorem UnitOnly.autoCut (u : Nat) (h : UnitOnly s₀ s) : UnitOnly s₀ (s.autoCut u) := UnitOnly.ite (h.setSub u _) h

/-! ## Release (04 R130) -/

/-- The state of a release: the target relocks at the reserve's clock. -/
def State.substReleased (s : State) (u : Nat) : State :=
  let t := s.subTarget u
  let s := (s.setReg (R.ENGn_CLK t) (s.reg (R.ENGn_CLK (32 + u)))).setEngState t 1
  (s.setSub u { s.sub u with stage := 2, cutAt := none }).setSubState u 7

theorem exec_substitutionRelease (hs : s.subState u = 6) : exec (.substitutionRelease u) s = .next (s.substReleased u) :=
  congrArg Host.Outcome.next (if_pos hs)

theorem engClk_ne_subStatus (n u : Nat) : R.ENGn_CLK n ≠ subStatus u := by
  simp only [subStatus, R.ENG_SUB0_STATUS, R.ENGn_CLK]
  omega

theorem State.substReleased_spec (s : State) (u : Nat) : (s.substReleased u).subState u = 7 ∧ ((s.substReleased u).sub u).stage = 2 ∧
    (s.substReleased u).engState (s.subTarget u) = 1 ∧ (s.substReleased u).reg (R.ENGn_CLK (s.subTarget u)) = s.reg (R.ENGn_CLK (32 + u)) ∧
    UnitOnly s (s.substReleased u) := by
  unfold State.substReleased
  extract_lets t s₁
  have hstate : s₁.engState t = 1 := State.engState_setEngState _ _ (by decide)
  have hclk : s₁.reg (R.ENGn_CLK t) = s.reg (R.ENGn_CLK (32 + u)) :=
    (State.reg_wr_ne _ _ (engStatus_ne (by simp only [R.ENGn_CLK]; omega) t).symm).trans (State.reg_setReg_self ..)
  have honly : UnitOnly s s₁ := ((UnitOnly.refl s).setReg _ _).wr _ _
  clear_value s₁
  refine ⟨State.subState_setSubState _ _ (by decide), ?_, ?_, ?_, (honly.setSub u _).wr _ _⟩
  · exact congrArg Subst.stage (s₁.sub_setSub_self u { s₁.sub u with stage := 2, cutAt := none })
  · rw [State.engState_setSubState]
    exact hstate
  · rw [State.reg_setSubState _ _ _ (engClk_ne_subStatus t u)]
    exact hclk

/-! ## The idle unit (04 R130, R132) -/

theorem Rearranged.refl (s : State) : Rearranged s s := ⟨rfl⟩
theorem Rearranged.setReg (a : Nat) (v : Word) (h : Rearranged s₀ s) : Rearranged s₀ (s.setReg a v) := ⟨h.rest⟩
theorem Rearranged.wr (f : FieldAt) (v : Nat) (h : Rearranged s₀ s) : Rearranged s₀ (s.wr f v) := h.setReg ..
theorem Rearranged.setSub (u : Nat) (x : Subst) (h : Rearranged s₀ s) : Rearranged s₀ (s.setSub u x) := ⟨h.rest⟩
theorem Rearranged.setEng (n : Nat) (e : Engine) (h : Rearranged s₀ s) : Rearranged s₀ (s.setEng n e) := ⟨h.rest⟩
theorem Rearranged.setRequester (r : Nat) (q : Requester) (h : Rearranged s₀ s) : Rearranged s₀ (s.setRequester r q) := ⟨h.rest⟩
theorem Rearranged.weirDrop (r : Nat) (h : Rearranged s₀ s) : Rearranged s₀ (s.weirDrop r) := (h.setRequester r _).setRequester r _
theorem Rearranged.trans (h : Rearranged s₀ s) (h' : Rearranged s t) : Rearranged s₀ t := by
  have hrest := h.rest
  rw [← h'.rest] at hrest
  exact ⟨hrest⟩
theorem Rearranged.sameMemory (h : Rearranged s t) : SameMemory s t :=
  SameMemory.of_eq (congrArg State.ssm h.rest :) (congrArg State.dram h.rest :)

/-- A unit that is idle: in state 0, its record empty, its leave returned. -/
structure SubIdle (u : Nat) (t : State) : Prop where
  state : t.subState u = 0
  sub : t.sub u = {}
  grant : (t.requester u).grant = 0

theorem Rearranged.substIdle (u : Nat) (h : Rearranged s₀ s) : Rearranged s₀ (s.substIdle u) := by
  unfold State.substIdle
  extract_lets t s₁ s₂ e s₃
  have h₁ : Rearranged s₀ s₁ := (h.wr _ _).wr _ _
  have h₂ : Rearranged s₀ s₂ := ((h₁.wr _ _).wr _ _).wr _ _
  have h₃ : Rearranged s₀ s₃ := h₂.setEng _ _
  exact ((h₃.setSub u _).wr _ _).weirDrop u

theorem State.reg_weirDrop (s : State) (r a : Nat) : (s.weirDrop r).reg a = s.reg a := rfl
theorem State.sub_weirDrop (s : State) (r u : Nat) : (s.weirDrop r).sub u = s.sub u := rfl
theorem State.sub_setSubState (s : State) (u k v : Nat) : (s.setSubState u k).sub v = s.sub v := rfl

theorem State.substIdle_idle (s : State) (u : Nat) : SubIdle u (s.substIdle u) := by
  unfold State.substIdle
  extract_lets t s₁ s₂ e s₃
  clear_value s₃
  refine ⟨?_, ?_, State.grant_weirDrop _ u⟩
  · rw [State.subState_congr (State.reg_weirDrop _ u _)]
    exact State.subState_setSubState _ _ (by decide)
  · rw [State.sub_weirDrop, State.sub_setSubState, State.sub_setSub_self]

/-! ## Feeds (04 R130) -/

/-- Only locks, units and the router differ. -/
structure FeedsOnly (s t : State) : Prop where
  rest : { t with locks := s.locks, substs := s.substs, router := s.router } = s

theorem FeedsOnly.refl (s : State) : FeedsOnly s s := ⟨rfl⟩
theorem FeedsOnly.setSub (u : Nat) (x : Subst) (h : FeedsOnly s₀ s) : FeedsOnly s₀ (s.setSub u x) := ⟨h.rest⟩
theorem FeedsOnly.setLock (l : Nat) (k : Lock) (h : FeedsOnly s₀ s) : FeedsOnly s₀ (s.setLock l k) := ⟨h.rest⟩
theorem FeedsOnly.dropLock (l : Nat) (h : FeedsOnly s₀ s) : FeedsOnly s₀ (s.dropLock l) := ⟨h.rest⟩
theorem FeedsOnly.setRouter (r : Router) (h : FeedsOnly s₀ s) : FeedsOnly s₀ (s.setRouter r) := ⟨h.rest⟩
theorem FeedsOnly.foldl {α : Type} {l : List α} {f : State → α → State} (h : FeedsOnly s₀ s)
    (k : ∀ t x, FeedsOnly s₀ t → FeedsOnly s₀ (f t x)) :
    FeedsOnly s₀ (l.foldl f s) := by
  induction l generalizing s with
  | nil => exact h
  | cons x l ih => exact ih (k _ _ h)
theorem FeedsOnly.regs (h : FeedsOnly s t) : t.regs = s.regs := (congrArg State.regs h.rest :)
theorem FeedsOnly.engines (h : FeedsOnly s t) : t.engines = s.engines := (congrArg State.engines h.rest :)
theorem FeedsOnly.reg (h : FeedsOnly s t) (a : Nat) : t.reg a = s.reg a := by simp only [State.reg, h.regs]
theorem FeedsOnly.rearranged (h : FeedsOnly s t) (h₀ : Rearranged s₀ s) : Rearranged s₀ t := by
  have hrest := h₀.rest
  rw [← h.rest] at hrest
  exact ⟨hrest⟩

theorem FeedsOnly.duplicateFeeds (u : Nat) (h : FeedsOnly s₀ s) : FeedsOnly s₀ (s.duplicateFeeds u) :=
  (h.foldl fun t l ht => by
    dsimp only
    split
    · exact ht.setLock _ _
    · exact ht).setSub u _

theorem FeedsOnly.removeFeeds (u : Nat) (h : FeedsOnly s₀ s) : FeedsOnly s₀ (s.removeFeeds u) :=
  (h.foldl fun _ e ht => ht.dropLock e.2).setSub u _

theorem FeedsOnly.adoptFeeds (u : Nat) (h : FeedsOnly s₀ s) : FeedsOnly s₀ (s.adoptFeeds u) :=
  FeedsOnly.removeFeeds u (h.foldl fun t e ht => by
    dsimp only
    split
    · exact ht.setLock _ _
    · exact ht)

theorem FeedsOnly.cutFade (u : Nat) (h : FeedsOnly s₀ s) : FeedsOnly s₀ (s.cutFade u) := by
  unfold State.cutFade
  split
  · exact h.setRouter _
  · exact h

/-! ## The cut (04 R130, R131) -/

/-- The prepared engine has the working one's inlets, and the working one is stopped. -/
structure CutMade (u : Fin 2) (s t : State) : Prop where
  stopped : t.engState (s.working u) = 0
  inlets : (t.eng (s.prepared u)).inlets = (s.eng (s.working u)).inlets
  event : t.is (bitAt R.ENG_SUB_INT_STATUS (8 * u + 1)) = true
  status : t.reg (subStatus u) = s.reg (subStatus u)
  only : Rearranged s t

theorem engStatus_ne_cutTick (n : Nat) (u : Fin 2) : R.ENGn_STATUS n ≠ R.ENG_SUB0_CUT_TICK + 16 * u := by
  have := u.isLt
  simp only [R.ENGn_STATUS, R.ENG_SUB0_CUT_TICK]
  omega

theorem State.reg_setEng (s : State) (n : Nat) (e : Engine) (a : Nat) : (s.setEng n e).reg a = s.reg a := rfl
theorem State.reg_setEngState_ne (s : State) (n k : Nat) {a : Nat} (h : a ≠ R.ENGn_STATUS n) : (s.setEngState n k).reg a = s.reg a := s.reg_wr_ne k h

theorem State.makeCut_made (s : State) (u : Fin 2) (hne : s.prepared u ≠ s.working u) : CutMade u s (s.makeCut u) := by
  have hfeeds : FeedsOnly s ((s.cutFade u).adoptFeeds u) := ((FeedsOnly.refl s).cutFade u).adoptFeeds u
  have hinlets : ((s.cutFade u).eng (s.working u)).inlets = (s.eng (s.working u)).inlets := by
    rw [State.eng_congr ((FeedsOnly.refl s).cutFade u).engines]
  unfold State.makeCut
  extract_lets w n x s₁ inlets s₂ e₁ s₃ e₂ s₄
  have honly : Rearranged s s₄ := (((hfeeds.rearranged (Rearranged.refl s)).setEng _ _).setEng _ _).wr _ _
  have hstatus : s₄.reg (subStatus u) = s.reg (subStatus u) := by
    rw [State.reg_setEngState_ne _ _ _ (subStatus_ne_engStatus u w), State.reg_setEng, State.reg_setEng]
    exact hfeeds.reg _
  have hstopped : s₄.engState w = 0 := State.engState_setEngState _ _ (by decide)
  have hprepared : (s₄.eng n).inlets = (s.eng w).inlets := by
    rw [State.eng_setEngState, State.eng_setEng_ne _ _ hne, State.eng_setEng_self]
    exact hinlets
  clear_value s₄
  refine ⟨?_, hprepared, State.subEvent_is _ u (by decide), ?_, (honly.setReg _ _).wr _ _⟩
  · rw [State.engState_congr (State.reg_subEvent _ _ _ (engStatus_ne (by decide) w)),
      State.engState_congr (State.reg_setReg_ne _ _ (engStatus_ne_cutTick w u))]
    exact hstopped
  · rw [State.reg_subEvent _ _ _ (subStatus_ne_event u), State.reg_setReg_ne _ _ (subStatus_ne_cutTick u u), hstatus]

/-- The state of a cut made in state 4 or 5. -/
def State.subCut (s : State) (u : Nat) : State :=
  let s := (s.makeCut u).setSubState u 6
  let s := (s.wr (R.ENGn_STATUS_subst (s.subTarget u)) 2).wr (R.ENGn_STATUS_subst (32 + u)) 3
  s.setSub u { s.sub u with cutAt := none, workEnds := [], prepEnds := [] }

theorem exec_substitutionCut (hc : s.cutDue u = true) (hs : s.subState u ≠ 7) : exec (.substitutionCut u) s = .next (s.subCut u) :=
  congrArg Host.Outcome.next (if_pos ⟨hc, hs⟩)

theorem exec_substitutionCutBack (hc : s.cutDue u = true) (hs : s.subState u = 7) :
    exec (.substitutionCutBack u) s = .next ((s.makeCut u).substIdle u) := congrArg Host.Outcome.next (if_pos ⟨hc, hs⟩)

theorem State.working_eq {u : Nat} (h : s.subState u ≠ 7) : s.working u = s.subTarget u := if_neg h
theorem State.prepared_eq {u : Nat} (h : s.subState u ≠ 7) : s.prepared u = 32 + u := if_neg h

theorem State.prepared_ne_working {u : Nat} (h : s.subTarget u < 32) : s.prepared u ≠ s.working u := by
  unfold State.prepared State.working
  split <;> omega

/-- A field of an engine's status beside its state leaves every engine's state. -/
theorem State.engState_wr_subst (s : State) (m k n : Nat) : (s.wr (R.ENGn_STATUS_subst m) k).engState n = s.engState n :=
  s.rd_wr_apart k (Or.inr (by decide : 0 + 4 ≤ 8))

theorem State.eng_setSub (s : State) (u : Nat) (x : Subst) (m : Nat) : (s.setSub u x).eng m = s.eng m := rfl
theorem State.eng_wr (s : State) (f : FieldAt) (v m : Nat) : (s.wr f v).eng m = s.eng m := rfl
theorem State.eng_setSubState (s : State) (u k m : Nat) : (s.setSubState u k).eng m = s.eng m := rfl
theorem State.engState_setSub (s : State) (u : Nat) (x : Subst) (m : Nat) : (s.setSub u x).engState m = s.engState m := rfl

theorem State.subCut_spec (hne : s.prepared u ≠ s.working u) :
    (s.subCut u).subState u = 6 ∧ ((s.subCut u).sub u).cutAt = none ∧ Rearranged s (s.subCut u) ∧ (s.subCut u).engState (s.working u) = 0 ∧
    ((s.subCut u).eng (s.prepared u)).inlets = (s.eng (s.working u)).inlets ∧
    (s.subCut u).is (bitAt R.ENG_SUB_INT_STATUS (8 * u + 1)) = true := by
  obtain ⟨hstopped, hinlets, hevent, -, honly⟩ := s.makeCut_made u hne
  unfold State.subCut
  extract_lets s₁ s₂
  have h₁ : s₁.subState u = 6 := State.subState_setSubState _ _ (by decide)
  have hevent₁ : s₁.is (bitAt R.ENG_SUB_INT_STATUS (8 * u + 1)) = true := by
    rw [State.is, State.rd_congr (State.reg_setSubState _ _ _ (subStatus_ne_event u).symm)]
    exact hevent
  have hstopped₁ : s₁.engState (s.working u) = 0 := (State.engState_setSubState _ _ _ _).trans hstopped
  have honly₁ : Rearranged s s₁ := honly.wr _ _
  have hinlets₁ : (s₁.eng (s.prepared u)).inlets = (s.eng (s.working u)).inlets := by
    rw [State.eng_setSubState]
    exact hinlets
  clear_value s₁
  refine ⟨?_, ?_, ((honly₁.wr _ _).wr _ _).setSub u _, ?_, ?_, ?_⟩
  · have hreg : s₂.reg (subStatus u) = s₁.reg (subStatus u) :=
      (State.reg_wr_ne _ _ (subStatus_ne_engStatus u _)).trans (State.reg_wr_ne _ _ (subStatus_ne_engStatus u _))
    rw [State.subState_congr (State.reg_setSub _ _ _ _), State.subState_congr hreg, h₁]
  · rw [State.sub_setSub_self]
  · rw [State.engState_setSub, State.engState_wr_subst, State.engState_wr_subst, hstopped₁]
  · rw [State.eng_setSub, State.eng_wr, State.eng_wr, hinlets₁]
  · have hne (m : Nat) : R.ENG_SUB_INT_STATUS ≠ R.ENGn_STATUS m := (engStatus_ne (by decide) m).symm
    have hreg : s₂.reg R.ENG_SUB_INT_STATUS = s₁.reg R.ENG_SUB_INT_STATUS :=
      (State.reg_wr_ne _ _ (hne _)).trans (State.reg_wr_ne _ _ (hne _))
    rw [State.is, State.rd_congr (State.reg_setSub _ _ _ _), State.rd_congr (f := bitAt R.ENG_SUB_INT_STATUS (8 * u + 1)) hreg]
    exact hevent₁

/-! ## The copy (04 R129, R130) -/

/-- Of engine `n` alone the memories may differ, and of the rest the lower words held for it. -/
structure Copied (n : Nat) (s t : State) : Prop where
  rest : { t with engines := s.engines, layers := s.layers } = s
  other : ∀ m, m ≠ n → t.eng m = s.eng m

theorem Copied.refl (s : State) : Copied n s s := ⟨rfl, fun _ _ => rfl⟩
theorem Copied.ite {p : Prop} [Decidable p] (h : Copied n s₀ s) (h' : Copied n s₀ t) : Copied n s₀ (if p then s else t) := by split <;> assumption
theorem Copied.setEng (e : Engine) (h : Copied n s₀ s) : Copied n s₀ (s.setEng n e) :=
  ⟨h.rest, fun m hm => (s.eng_setEng_ne e hm).trans (h.other m hm)⟩
theorem Copied.setHeldLow (a : Nat) (w : Option Word) (h : Copied n s₀ s) : Copied n s₀ (s.setHeldLow a w) := ⟨h.rest, h.other⟩
theorem Copied.foldl {α : Type} {l : List α} {f : State → α → State} (h : Copied n s₀ s) (k : ∀ t x, Copied n s₀ t → Copied n s₀ (f t x)) :
    Copied n s₀ (l.foldl f s) := by
  induction l generalizing s with
  | nil => exact h
  | cons x l ih => exact ih (k _ _ h)
theorem Copied.regs (h : Copied n s t) : t.regs = s.regs := (congrArg State.regs h.rest :)
theorem Copied.reg (h : Copied n s t) (a : Nat) : t.reg a = s.reg a := by simp only [State.reg, h.regs]
theorem Copied.rearranged (h : Copied n s t) : Rearranged s t := by
  constructor
  rw [← h.rest]

theorem Copied.windowPut (o : Nat) (v : Word) (h : Copied n s₀ s) : Copied n s₀ (s.windowPut n o v) := by
  unfold State.windowPut
  split
  · dsimp only
    split
    · exact h.setHeldLow _ _
    · exact Copied.setHeldLow _ _ (h.setEng _)
  · split
    · exact h.setEng _
    · exact h.setEng _

theorem Copied.imageWord (o : Nat) (v : Word) (h : Copied n s₀ s) : Copied n s₀ (s.imageWord n o v) := by
  unfold State.imageWord
  exact (h.windowPut o v).ite ((h.setEng _).ite (h.windowPut o v))

theorem Copied.loadEngData (src : Nat) (h : Copied n s₀ s) : Copied n s₀ (s.loadEngData src n) := by
  unfold State.loadEngData
  split
  · exact h
  · exact (h.setEng _).foldl fun t w ht => (ht.imageWord _ _).ite ht

/-- The program page and the state, or the image's data, of the working engine in the prepared one. -/
def State.copiedToPrepared (s : State) (u : Nat) : State :=
  let w := s.working u
  let n := s.prepared u
  let s := s.copyPage w n
  if (s.sub u).method = 1 then s.copyState w n else (s.setEng n { s.eng n with paramOn := (s.eng w).paramOn }).loadEngData w n

theorem State.copiedToPrepared_copied (s : State) (u : Nat) : Copied (s.prepared u) s (s.copiedToPrepared u) := by
  unfold State.copiedToPrepared
  extract_lets w n s₁
  have h : Copied n s s₁ := (Copied.refl s).setEng _
  exact (h.setEng _).ite ((h.setEng _).loadEngData w)

theorem exec_substitutionCopyEnd (hs : s.subState u = 3) (hb : s.atBoundary (s.engDomain (s.working u)) = true) :
    exec (.substitutionCopyEnd u) s = .next (((s.copiedToPrepared u).bothStart u).setSubState u 4) := by
  simp only [exec, execSubstitutionCopyEnd, hb, hs, Bool.not_true, Bool.false_eq_true, if_false, if_true]
  rfl

/-! ## Both engines run (04 R130, state 4) -/

theorem State.feeds_duplicateFeeds (s : State) (u : Nat) :
    ((s.duplicateFeeds u).sub u).feeds = (s.eng (s.working u)).inletLocks.map fun l => (l, feedLock u l) := by
  unfold State.duplicateFeeds
  extract_lets locks s₁
  rw [State.sub_setSub_self]

theorem State.sub_setEng (s : State) (n : Nat) (e : Engine) (v : Nat) : (s.setEng n e).sub v = s.sub v := rfl
theorem State.sub_setReg (s : State) (a : Nat) (w : Word) (v : Nat) : (s.setReg a w).sub v = s.sub v := rfl
theorem State.sub_wr (s : State) (f : FieldAt) (k v : Nat) : (s.wr f k).sub v = s.sub v := rfl
theorem State.sub_setEngState (s : State) (n k v : Nat) : (s.setEngState n k).sub v = s.sub v := rfl

theorem State.sub_adoptSchedule (s : State) (u v : Nat) : (s.adoptSchedule u).sub v = s.sub v := by
  unfold State.adoptSchedule
  extract_lets w n e tick e₁ s₁ s₂
  rw [State.sub_setEngState, State.sub_wr, State.sub_wr, State.sub_setReg, State.sub_setReg, State.sub_setEng]

theorem State.engState_adoptSchedule (s : State) (u : Nat) : (s.adoptSchedule u).engState (s.prepared u) = 2 :=
  State.engState_setEngState _ _ (by decide)

theorem Rearranged.adoptSchedule (u : Nat) (h : Rearranged s₀ s) : Rearranged s₀ (s.adoptSchedule u) := by
  unfold State.adoptSchedule
  extract_lets w n e tick e₁ s₁ s₂
  have h₁ : Rearranged s₀ s₁ := h.setEng _ _
  have h₂ : Rearranged s₀ s₂ := (h₁.setReg _ _).setReg _ _
  exact ((h₂.wr _ _).wr _ _).wr _ _

theorem State.prepared_congr {u : Nat} (h : t.reg (subStatus u) = s.reg (subStatus u)) : t.prepared u = s.prepared u := by
  simp only [State.prepared, State.subState_congr h, State.subTarget_congr h]

theorem State.working_congr {u : Nat} (h : t.reg (subStatus u) = s.reg (subStatus u)) : t.working u = s.working u := by
  simp only [State.working, State.subState_congr h, State.subTarget_congr h]

theorem State.engState_wr_sub (s : State) (u n : Nat) {f : FieldAt} (h : f.addr = R.ENG_SUB0_STATUS) (k : Nat) :
    (s.wr (subF u f) k).engState n = s.engState n :=
  State.engState_congr (State.reg_wr_ne _ _ (by simpa [subF, h, subStatus] using engStatus_ne_subStatus n u))

theorem State.bothStart_spec (s : State) (u : Nat) :
    ((s.bothStart u).sub u).feeds = (s.eng (s.working u)).inletLocks.map (fun l => (l, feedLock u l)) ∧
    (s.bothStart u).engState (s.prepared u) = 2 ∧ (s.bothStart u).rd (subF u R.ENG_SUB0_STATUS_count) = 0 ∧
    (s.bothStart u).rd (subF u R.ENG_SUB0_STATUS_mismatch) = 0 ∧ Rearranged s (s.bothStart u) := by
  unfold State.bothStart
  extract_lets s₁ s₂
  have hdup : FeedsOnly s (s.duplicateFeeds u) := (FeedsOnly.refl s).duplicateFeeds u
  have honly : Rearranged s s₁ := Rearranged.adoptSchedule u (hdup.rearranged (Rearranged.refl s))
  have hfeeds : (s₁.sub u).feeds = (s.eng (s.working u)).inletLocks.map (fun l => (l, feedLock u l)) := by
    rw [State.sub_adoptSchedule, State.feeds_duplicateFeeds]
  have hstate : s₁.engState (s.prepared u) = 2 := by
    rw [← State.prepared_congr (hdup.reg (subStatus u))]
    exact State.engState_adoptSchedule _ _
  clear_value s₁
  refine ⟨?_, ?_, ?_, ?_, ((honly.wr _ _).wr _ _).setSub u _⟩
  · have hsub : s₂.sub u = s₁.sub u := (State.sub_wr ..).trans (State.sub_wr ..)
    rw [State.sub_setSub_self]
    exact (congrArg Subst.feeds hsub).trans hfeeds
  · rw [State.engState_setSub, State.engState_wr_sub _ _ _ rfl, State.engState_wr_sub _ _ _ rfl, hstate]
  · rw [State.rd_congr (State.reg_setSub _ _ _ _), State.rd_wr_apart _ _ (.inl (by decide : 4 + 1 ≤ 16)),
      State.rd_wr_same _ _ _ (by decide : 16 + 16 ≤ 32)]
    rfl
  · rw [State.rd_congr (State.reg_setSub _ _ _ _), State.rd_wr_same _ _ _ (by decide : 4 + 1 ≤ 32)]
    rfl

theorem State.copyEnd_spec (hs : s.subState u = 3) (ht : s.subTarget u < 32) :
    let t := ((s.copiedToPrepared u).bothStart u).setSubState u 4
    t.subState u = 4 ∧ t.engState (32 + u) = 2 ∧ (t.sub u).feeds = (s.eng (s.subTarget u)).inletLocks.map (fun l => (l, feedLock u l)) ∧
    t.rd (subF u R.ENG_SUB0_STATUS_count) = 0 ∧ t.rd (subF u R.ENG_SUB0_STATUS_mismatch) = 0 ∧ Rearranged s t := by
  have hcopied := s.copiedToPrepared_copied u
  have hidle : s.subState u ≠ 7 := by rw [hs]; decide
  obtain ⟨hfeeds, hstate, hcount, hmismatch, honly⟩ := (s.copiedToPrepared u).bothStart_spec u
  rw [State.working_congr (hcopied.reg _), hcopied.other _ (State.prepared_ne_working ht).symm, State.working_eq hidle] at hfeeds
  rw [State.prepared_congr (hcopied.reg _), State.prepared_eq hidle] at hstate
  have hall := hcopied.rearranged.trans honly
  clear honly hcopied
  generalize (s.copiedToPrepared u).bothStart u = t at *
  refine ⟨State.subState_setSubState _ _ (by decide), ?_, ?_, ?_, ?_, hall.wr _ _⟩
  · rw [State.engState_setSubState, hstate]
  · rw [State.sub_setSubState, hfeeds]
  · exact (State.rd_wr_apart _ _ (.inl (by decide : 0 + 4 ≤ 16))).trans hcount
  · exact (State.rd_wr_apart _ _ (.inl (by decide : 0 + 4 ≤ 4))).trans hmismatch

/-! ## The abort (04 R132) -/

/-- The state of an abort taken at its boundary. -/
def State.substAborted (s : State) (u : Nat) : State := ((s.removeFeeds u).substIdle u).subEvent u 2

theorem SubIdle.subEvent {u : Nat} (h : SubIdle u s) (k : Nat) : SubIdle u (s.subEvent u k) :=
  ⟨(State.subState_congr (s.reg_subEvent u k (subStatus_ne_event u))).trans h.state, h.sub, h.grant⟩

theorem State.sub_removeFeeds_ne (s : State) {u v : Nat} (h : v ≠ u) : (s.removeFeeds u).sub v = s.sub v := by
  have hdrop (l : List (Nat × Nat)) : (l.foldl (fun s e => s.dropLock e.2) s).substs = s.substs := by
    induction l generalizing s with
    | nil => rfl
    | cons e l ih => exact ih (s.dropLock e.2)
  unfold State.removeFeeds
  extract_lets s₁
  rw [State.sub_setSub_ne _ _ h]
  exact State.sub_congr (hdrop _) v

theorem State.sub_substIdle_ne (s : State) {u v : Nat} (h : v ≠ u) : (s.substIdle u).sub v = s.sub v := by
  unfold State.substIdle
  extract_lets t s₁ s₂ e s₃
  have h₁ : s₁.sub v = s.sub v := (State.sub_wr ..).trans (State.sub_wr ..)
  have h₂ : s₂.sub v = s₁.sub v := (State.sub_setEngState ..).trans ((State.sub_wr ..).trans (State.sub_wr ..))
  rw [State.sub_weirDrop, State.sub_setSubState, State.sub_setSub_ne _ _ h, State.sub_setEng, h₂, h₁]

/-- An idle unit leaves the registers below the units' own. -/
theorem State.reg_substIdle (s : State) (u : Nat) {a : Nat} (h : a < 0x160000) : (s.substIdle u).reg a = s.reg a := by
  have hne (m : Nat) : a ≠ R.ENGn_STATUS m := by simp only [R.ENGn_STATUS]; omega
  have hsub : a ≠ subStatus u := by simp only [subStatus, R.ENG_SUB0_STATUS]; omega
  unfold State.substIdle
  extract_lets t s₁ s₂ e s₃
  have h₁ : s₁.reg a = s.reg a := (State.reg_wr_ne _ _ (hne _)).trans (State.reg_wr_ne _ _ (hne _))
  have h₂ : s₂.reg a = s₁.reg a := (State.reg_setEngState_ne _ _ _ (hne _)).trans ((State.reg_wr_ne _ _ (hne _)).trans (State.reg_wr_ne _ _ (hne _)))
  rw [State.reg_weirDrop, State.reg_setSubState _ _ _ hsub, State.reg_setSub, State.reg_setEng, h₂, h₁]

theorem State.reg_substAborted (s : State) (u : Nat) {a : Nat} (h : a < 0x160000) : (s.substAborted u).reg a = s.reg a := by
  have hevent : a ≠ R.ENG_SUB_INT_STATUS := by simp only [R.ENG_SUB_INT_STATUS]; omega
  unfold State.substAborted
  rw [State.reg_subEvent _ _ _ hevent, State.reg_substIdle _ _ h]
  exact ((FeedsOnly.refl s).removeFeeds u).reg a

theorem State.sub_subEvent (s : State) (u k v : Nat) : (s.subEvent u k).sub v = s.sub v := s.sub_wr _ 1 v

theorem State.sub_substAborted_ne (s : State) {u v : Nat} (h : v ≠ u) : (s.substAborted u).sub v = s.sub v := by
  unfold State.substAborted
  rw [State.sub_subEvent, State.sub_substIdle_ne _ h, State.sub_removeFeeds_ne _ h]

theorem State.substAborted_rearranged (s : State) (u : Nat) : Rearranged s (s.substAborted u) := by
  have h : Rearranged s ((s.removeFeeds u).substIdle u) :=
    Rearranged.substIdle u (((FeedsOnly.refl s).removeFeeds u).rearranged (Rearranged.refl s))
  exact h.wr _ _

/-- A unit whose abort is due at a boundary of domain `x` (04 R132). -/
structure AbortDue (x u : Nat) (s : State) : Prop where
  domain : (s.sub u).domain = x
  due : ∃ t, (s.sub u).abortAt = some t ∧ t ≤ s.tick x
  least : 1 ≤ s.subState u
  most : s.subState u ≤ 5

/-- What a boundary does to one unit. -/
def State.abortStep (x : Nat) (s : State) (u : Nat) : State :=
  match (s.sub u).abortAt with
  | some t => if (s.sub u).domain = x ∧ t ≤ s.tick x ∧ 1 ≤ s.subState u ∧ s.subState u ≤ 5 then s.substAborted u else s
  | none => s

theorem State.abortsAt_eq (s : State) (x : Nat) : s.abortsAt x = (s.abortStep x 0).abortStep x 1 := rfl

theorem State.abortStep_none {x u : Nat} (h : (s.sub u).abortAt = none) : s.abortStep x u = s := by simp only [State.abortStep, h]

theorem AbortDue.abortStep {x u : Nat} (h : AbortDue x u s) : s.abortStep x u = s.substAborted u := by
  obtain ⟨hdomain, ⟨t, habort, hdue⟩, hleast, hmost⟩ := h
  simp only [State.abortStep, habort]
  exact if_pos ⟨hdomain, hdue, hleast, hmost⟩

/-- With no abort asked of the other unit the boundary aborts the one. -/
theorem AbortDue.abortsAt {x : Nat} (h : AbortDue x u s) (hother : (s.sub (1 - u)).abortAt = none) : s.abortsAt x = s.substAborted u := by
  rw [State.abortsAt_eq]
  match u, h, hother with
  | 0, h, hother =>
    have hne : ((s.substAborted 0).sub 1).abortAt = none := by
      rw [State.sub_substAborted_ne s (by decide)]
      exact hother
    exact (congrArg (State.abortStep x · 1) h.abortStep).trans (State.abortStep_none hne)
  | 1, h, hother => exact (congrArg (State.abortStep x · 1) (State.abortStep_none hother)).trans h.abortStep

/-! ## The rest of the boundary (03 R93; 14 R370; 15 R397; 16 R412; 18 R464) -/

/-- Only what a boundary with nothing waiting reaches differs: the local event, what is left waiting, and the delay memory's requests. -/
structure BoundaryOnly (s t : State) : Prop where
  rest : { t with regs := s.regs, cfg := s.cfg, fov := s.fov, dmc := s.dmc } = s
  reg : ∀ a, a ≠ R.EVT_LOCAL_STATUS → t.reg a = s.reg a

theorem BoundaryOnly.refl (s : State) : BoundaryOnly s s := ⟨rfl, fun _ _ => rfl⟩
theorem BoundaryOnly.foldl {α : Type} {l : List α} {f : State → α → State} (h : BoundaryOnly s₀ s)
    (k : ∀ t x, BoundaryOnly s₀ t → BoundaryOnly s₀ (f t x)) : BoundaryOnly s₀ (l.foldl f s) := by
  induction l generalizing s with
  | nil => exact h
  | cons x l ih => exact ih (k _ _ h)
theorem BoundaryOnly.setCfg (c : Cfg) (h : BoundaryOnly s₀ s) : BoundaryOnly s₀ (s.setCfg c) := ⟨h.rest, h.reg⟩
theorem BoundaryOnly.setFov (f : Fov) (h : BoundaryOnly s₀ s) : BoundaryOnly s₀ (s.setFov f) := ⟨h.rest, h.reg⟩
theorem BoundaryOnly.setDmc (d : Dmc) (h : BoundaryOnly s₀ s) : BoundaryOnly s₀ (s.setDmc d) := ⟨h.rest, h.reg⟩

theorem BoundaryOnly.strobe (x : Nat) (h : BoundaryOnly s₀ s) : BoundaryOnly s₀ (s.strobe x) := by
  unfold State.strobe
  split
  · exact ⟨h.rest, fun a ha => (State.reg_wr_ne _ _ ha).trans (h.reg a ha)⟩
  · exact h

theorem BoundaryOnly.dlineFetch (l k : Nat) (h : BoundaryOnly s₀ s) : BoundaryOnly s₀ (s.dlineFetch l k) := by
  unfold State.dlineFetch
  split
  · exact h
  · exact h.setDmc _

theorem BoundaryOnly.fetchDelays (x : Nat) (h : BoundaryOnly s₀ s) : BoundaryOnly s₀ (s.fetchDelays x) := h.foldl fun _ _ ht => ht.dlineFetch _ _

/-- With nothing left for later a boundary takes nothing. -/
theorem State.takeLater_none (x : Nat) (hr : s.cfg.laterRegs = []) (hc : s.cfg.laterContents = []) (hw : s.cfg.laterWords = []) :
    ∃ c, s.takeLater x = s.setCfg c := by
  simp only [State.takeLater, hr, hc, hw, List.filter_nil, List.any_nil, List.foldl_nil, Bool.false_eq_true, if_false]
  split
  · exact ⟨s.cfg, rfl⟩
  · exact ⟨_, rfl⟩

theorem BoundaryOnly.applyWaiting (hf : s.fov.waiting = []) (h : BoundaryOnly s₀ s) : BoundaryOnly s₀ s.applyWaiting := by
  simp only [State.applyWaiting, hf, List.partition_eq_filter_filter, List.filter_nil, List.foldl_nil]
  exact h.setFov _

/-- Where no link forwards audio a boundary starts none. -/
theorem State.audioBoundary_of_quiet (x : Nat) (h : ∀ k < 4, s.linkState k ≠ 5) : s.audioBoundary x = s := by
  unfold State.audioBoundary
  have hall (l : List Nat) (hl : ∀ k ∈ l, s.linkState k ≠ 5) : l.foldl (fun s k =>
      if s.linkState k = 5 ∧ ((s.link k).start.any fun e => e.1 = x) = false ∧ (s.link k).upSince + 250 ≤ s.now
      then s.setLink k { s.link k with start := (x, s.tick x) :: (s.link k).start } else s) s = s := by
    induction l with
    | nil => rfl
    | cons k l ih =>
      rw [List.foldl_cons, if_neg fun hk => hl k List.mem_cons_self hk.1]
      exact ih fun m hm => hl m (List.mem_cons_of_mem k hm)
  exact hall _ fun k hk => h k (List.mem_range.1 hk)

theorem BoundaryOnly.linkState (h : BoundaryOnly s t) {k : Nat} : t.linkState k = s.linkState k :=
  State.rd_congr (f := R.NRXk_STATUS_state k) (h.reg _ (by simp only [R.NRXk_STATUS_state, R.NRXk_STATUS, R.EVT_LOCAL_STATUS]; omega))

theorem BoundaryOnly.subIdle {u : Nat} (h : BoundaryOnly s t) (hi : SubIdle u s) : SubIdle u t where
  state := (State.subState_congr (h.reg _ (by simp only [subStatus, R.ENG_SUB0_STATUS, R.EVT_LOCAL_STATUS]; omega))).trans hi.state
  sub := (State.sub_congr (congrArg State.substs h.rest :) u).trans hi.sub
  grant := by
    have hweir : t.weir = s.weir := (congrArg State.weir h.rest :)
    have hgrant := hi.grant
    simp only [State.requester] at hgrant ⊢
    rw [hweir]
    exact hgrant

theorem State.shBoundaryTakes_none (x : Nat) (frames : Bool) (h : s.layers.shPending = []) : s.shBoundaryTakes x frames = s := by
  simp only [State.shBoundaryTakes, h, List.filter_nil, List.foldl_nil]

theorem State.beginTick_quiet (x : Nat) (hr : t.cfg.laterRegs = []) (hc : t.cfg.laterContents = []) (hw : t.cfg.laterWords = [])
    (hf : t.fov.waiting = []) (hl : ∀ k < 4, t.linkState k ≠ 5) (hs : s.layers.shPending = []) (ha : s.abortsAt x = t) :
    BoundaryOnly t (s.beginTick x) := by
  unfold State.beginTick
  rw [State.shBoundaryTakes_none x false hs, ha]
  obtain ⟨c, hlater⟩ := t.takeLater_none x hr hc hw
  rw [hlater]
  have h₁ : BoundaryOnly t (t.setCfg c) := (BoundaryOnly.refl t).setCfg c
  have hfov : (t.setCfg c).fov.waiting = [] := hf
  generalize t.setCfg c = s₁ at *
  have h₂ : BoundaryOnly t (if x = s₁.takeDom then s₁.applyWaiting else s₁) := by
    split
    · exact h₁.applyWaiting hfov
    · exact h₁
  dsimp only
  generalize (if x = s₁.takeDom then s₁.applyWaiting else s₁) = s₂ at *
  rw [State.audioBoundary_of_quiet x fun k hk => by rw [h₂.linkState]; exact hl k hk]
  exact (h₂.strobe x).fetchDelays x

theorem exec_tickBoundary {x : DomIx} (hh : s.halted = false) (hs : s.started x = true) (hb : (s.dom x).b ≠ 0) (hx : s.atBoundary x = true) :
    exec (.tickBoundary x) s = .next (s.beginTick x) := by
  refine congrArg Host.Outcome.next (if_neg ?_)
  simp [hh, hs, hb, hx]

/-- The boundary an abort waits for, with nothing else due, leaves the unit idle and reports it. -/
theorem AbortDue.beginTick {x : Nat} (h : AbortDue x u s) (hother : (s.sub (1 - u)).abortAt = none)
    (hr : s.cfg.laterRegs = []) (hc : s.cfg.laterContents = []) (hw : s.cfg.laterWords = []) (hf : s.fov.waiting = [])
    (hl : ∀ k < 4, s.linkState k ≠ 5) (hs : s.layers.shPending = []) :
    SubIdle u (s.beginTick x) ∧ (s.beginTick x).is (bitAt R.ENG_SUB_INT_STATUS (8 * u + 2)) = true := by
  have hrest := (s.substAborted_rearranged u).rest
  have hcfg : (s.substAborted u).cfg = s.cfg := (congrArg State.cfg hrest :)
  have hfov : (s.substAborted u).fov = s.fov := (congrArg State.fov hrest :)
  have hlinks (k : Nat) (hk : k < 4) : (s.substAborted u).linkState k ≠ 5 := by
    have hlink : (s.substAborted u).linkState k = s.linkState k := State.rd_congr (f := R.NRXk_STATUS_state k)
      (s.reg_substAborted u (by simp only [R.NRXk_STATUS_state, R.NRXk_STATUS]; omega))
    rw [hlink]
    exact hl k hk
  have honly : BoundaryOnly (s.substAborted u) (s.beginTick x) := State.beginTick_quiet x (by rw [hcfg, hr]) (by rw [hcfg, hc])
    (by rw [hcfg, hw]) (by rw [hfov, hf]) hlinks hs (h.abortsAt hother)
  have hidle : SubIdle u (s.substAborted u) := (State.substIdle_idle _ u).subEvent 2
  refine ⟨honly.subIdle hidle, ?_⟩
  rw [State.is, State.rd_congr (f := bitAt R.ENG_SUB_INT_STATUS (8 * u + 2)) (honly.reg R.ENG_SUB_INT_STATUS (by decide))]
  exact State.subEvent_is _ u (by decide)

end Sys2Proof.Machine
end

section
open Sys2Proof Sys2Proof.Machine

/-- Settles O23: a substitution goes from state to state as its rows say, a relation per step saying what else may differ. -/
theorem substitutionStates : Obligations.SubstitutionStates := by
  unfold Obligations.SubstitutionStates
  intro s u
  refine ⟨?start, ?refused, ?relock, ?copy, ?ready, ?command, ?cut, ?release, ?cutBack, ?abort, ?boundary, ?autoFail⟩
  case start =>
    intro _ h
    have hstarted := State.substStart_started h
    exact ⟨_, exec_substitutionStart u, hstarted.state, hstarted.target, hstarted.pending, hstarted.cost, hstarted.only.engines, hstarted.only.sameMemory⟩
  case refused =>
    intro h
    rw [exec_substitutionStart, State.substStart_refused (h.elim (fun hs => State.substRefuses_of_busy hs _ _) id)]
  case relock =>
    intro hs
    obtain ⟨hstate, heng, hevent, honly⟩ := s.substRelocked_spec u (32 + u)
    exact ⟨_, congrArg Host.Outcome.next (if_pos hs), hstate, heng, hevent, honly.engines⟩
  case copy =>
    intro hs ht hb
    obtain ⟨hstate, heng, hfeeds, hcount, hmismatch, honly⟩ := State.copyEnd_spec hs ht
    exact ⟨_, exec_substitutionCopyEnd hs hb, hstate, heng, hfeeds, hcount, hmismatch, honly.sameMemory⟩
  case ready =>
    intro hs hc
    have honly : UnitOnly s (((s.setSubState u 5).subEvent u 0).autoCut u) := UnitOnly.autoCut u (((UnitOnly.refl s).wr _ _).wr _ _)
    refine ⟨_, exec_substitutionReady hs hc, ?_, ?_, honly.engines, honly.locks⟩
    · rw [State.subState_congr (State.reg_autoCut _ _ _), State.subState_congr (State.reg_subEvent _ _ _ (subStatus_ne_event u))]
      exact State.subState_setSubState _ _ (by decide)
    · rw [State.is, State.rd_congr (State.reg_autoCut _ _ _)]
      exact State.subEvent_is _ u (by decide)
  case command => exact fun h => congrArg Host.Outcome.next (if_pos h)
  case cut =>
    intro hc hs ht
    obtain ⟨hstate, hcut, honly, hstopped, hinlets, hevent⟩ := State.subCut_spec (State.prepared_ne_working (u := u) ht)
    rw [State.prepared_eq hs] at hinlets
    exact ⟨_, exec_substitutionCut hc hs, hstate, hcut, honly.sameMemory, hstopped, hinlets, hevent⟩
  case release =>
    intro hs _
    obtain ⟨hstate, hstage, heng, hclk, honly⟩ := s.substReleased_spec u
    exact ⟨_, exec_substitutionRelease hs, hstate, hstage, heng, hclk, honly.engines⟩
  case cutBack =>
    intro hc hs ht
    have hidle := State.substIdle_idle (s.makeCut u) u
    have honly := Rearranged.substIdle u (s.makeCut_made u (State.prepared_ne_working ht)).only
    exact ⟨_, exec_substitutionCutBack hc hs, hidle.state, hidle.sub, hidle.grant, honly.sameMemory⟩
  case abort => exact fun h h' => congrArg Host.Outcome.next (if_pos ⟨h, h'⟩)
  case boundary =>
    intro x at_ habort hdomain hdue hother hleast hmost _ hh hs hb hx hr hc hw hf hpending hl
    have hdue : AbortDue x u s := ⟨hdomain, ⟨at_, habort, hdue⟩, hleast, hmost⟩
    obtain ⟨hidle, hevent⟩ := hdue.beginTick hother hr hc hw hf hl hpending
    exact ⟨_, exec_tickBoundary hh hs hb hx, hidle.state, hidle.sub, hidle.grant, hevent⟩
  case autoFail =>
    intro target ha hs ht hf h
    have hstarted := State.substStart_started (u := u) h
    exact ⟨_, exec_substitutionAutoFail ha hs ht hf, hstarted.state, hstarted.target, hstarted.method, hstarted.pending⟩
end

section
/-!
Multiplies and ALU operations of an engine (05 R136, R137, R142, R163): the one result in an accumulator, with its flags, that an instruction of one
such operation leaves on an engine with nothing else in flight.
-/
namespace Sys2Proof.Machine

variable {e : Engine}

/-! ## One result in an accumulator (05 R137, R142) -/

/-- The ALU writes `v`, the wrap of `r`, with the flags of `v`. -/
theorem Engine.Quiet.alu (h : e.Quiet) (a : AccIx) {r : Int} {v : Acc} (hv : BitVec.ofInt 56 r = v) (carry overflow : Bool) :
    e.alu a v carry overflow true = (e.accumulated a r carry overflow).next := by
  rw [e.accumulated_eq a hv]
  exact Engine.finish_acc h.cur h.delayed h.stack (by decide) a v _

/-- An accumulator or aligned word written as it stands has no carry and no overflow. -/
theorem Engine.Quiet.alu_self (h : e.Quiet) (a : AccIx) (v : Acc) : e.alu a v false false true = (e.accumulated a v.toInt false false).next :=
  h.alu a (BitVec.ofInt_toInt ..) _ _

theorem Engine.Quiet.aluAdd (h : e.Quiet) (a : AccIx) (x y : Acc) :
    e.aluAdd a x y true = (e.accumulated a (x.toInt + y.toInt) (carryAdd x y) (outside (x.toInt + y.toInt))).next :=
  h.alu a (acc_ofInt_add x y) _ _

theorem Engine.Quiet.aluSub (h : e.Quiet) (a : AccIx) (x y : Acc) :
    e.aluSub a x y true = (e.accumulated a (x.toInt - y.toInt) (carrySub x y) (outside (x.toInt - y.toInt))).next :=
  h.alu a (acc_ofInt_sub x y) _ _

/-- A negation is the subtraction from 0 (05 R163). -/
theorem Engine.Quiet.aluNeg (h : e.Quiet) (a : AccIx) (x : Acc) :
    e.aluSub a 0 x true = (e.accumulated a (-x.toInt) (carrySub 0 x) (outside (-x.toInt))).next := by
  have hzero : (0 : Acc).toInt - x.toInt = -x.toInt := Int.zero_sub _
  rw [h.aluSub, hzero]

/-- The absolute value negates where the sign bit is set. -/
theorem Engine.Quiet.aluAbs (h : e.Quiet) (a : AccIx) (x : Acc) :
    (if x.msb then e.aluSub a 0 x true else e.alu a x false false true)
      = (if x.toInt < 0 then e.accumulated a (-x.toInt) (carrySub 0 x) (outside (-x.toInt)) else e.accumulated a x.toInt false false).next := by
  rw [h.aluNeg, h.alu_self, apply_ite Engine.next, BitVec.msb_eq_toInt]
  simp only [decide_eq_true_eq]

/-- A multiply adds the exact product to its base or subtracts it. -/
theorem Engine.Quiet.multiply (h : e.Quiet) (lane : Fin 2) (a : AccIx) (d1 d2 : RegIx) (base : Acc) (minus : Bool) :
    let term := productTerm (e.dReg d1) (e.dReg d2)
    let r := if minus then base.toInt - term else base.toInt + term
    e.multiply lane a d1 d2 base minus true = (e.accumulated a r
      (if minus then carrySub base (BitVec.ofInt 56 term) else carryAdd base (BitVec.ofInt 56 term)) (outside r)).next := by
  intro term r
  rw [e.accumulated_eq a rfl]
  exact Engine.finish_acc h.cur h.delayed h.stack lane.isLt a _ _

theorem not_outside_productTerm (x y : Sample) : outside (productTerm x y) = false := by
  obtain ⟨hlow, hhigh⟩ := productTerm_range x y
  simp only [outside, Bool.or_eq_false_iff, decide_eq_false_iff_not]
  omega

/-- A multiply onto 0 neither carries nor overflows. -/
theorem Engine.Quiet.multiply_zero (h : e.Quiet) (lane : Fin 2) (a : AccIx) (d1 d2 : RegIx) :
    e.multiply lane a d1 d2 0 false true = (e.accumulated a (productTerm (e.dReg d1) (e.dReg d2)) false false).next := by
  have hzero (r : Int) : (0 : Acc).toInt + r = r := Int.zero_add r
  rw [h.multiply]
  simp only [Bool.false_eq_true, if_false, hzero, carryAdd_zero, not_outside_productTerm]

end Sys2Proof.Machine
end

section
open Sys2Proof Sys2Proof.Machine

/-- Settles O24: each instruction by what the ALU or a lane leaves, an aligned word by `toInt_alignWord`, the bare product by its range. -/
theorem multiplyAndAccumulatorArithmetic : Obligations.MultiplyAndAccumulatorArithmetic := by
  unfold Obligations.MultiplyAndAccumulatorArithmetic
  refine ⟨fun s n lane a d1 d2 h => ⟨?mpy, ?mac, ?macn⟩, fun s n a b d h => ?_⟩
  case mpy => exact congrArg Host.Outcome.next (h.issue (h.quiet.multiply_zero lane a d1 d2))
  case mac => exact congrArg Host.Outcome.next (h.issue (h.quiet.multiply lane a d1 d2 _ false))
  case macn => exact congrArg Host.Outcome.next (h.issue (h.quiet.multiply lane a d1 d2 _ true))
  intro e w y x z
  have hy : y = w.toInt := (toInt_alignWord _).symm
  rw [hy]
  refine ⟨?clr, ?lda, ?add, ?sub, ?adda, ?suba, ?neg, ?abs⟩
  case clr => exact congrArg Host.Outcome.next (h.issue (h.quiet.alu_self a 0))
  case lda => exact congrArg Host.Outcome.next (h.issue (h.quiet.alu_self a w))
  case add => exact congrArg Host.Outcome.next (h.issue (h.quiet.aluAdd a x w))
  case sub => exact congrArg Host.Outcome.next (h.issue (h.quiet.aluSub a x w))
  case adda => exact congrArg Host.Outcome.next (h.issue (h.quiet.aluAdd a x z))
  case suba => exact congrArg Host.Outcome.next (h.issue (h.quiet.aluSub a x z))
  case neg => exact congrArg Host.Outcome.next (h.issue (h.quiet.aluNeg a x))
  case abs => exact congrArg Host.Outcome.next (h.issue (h.quiet.aluAbs a x))

end

section
/-!
Compare, extremes, limit, exponent and shifts of an engine (05 R142, R150, R151, R163): what an instruction leaves that forms flags alone, writes a
data register beside them or saturates, and the integers behind limits and shifts.
-/
namespace Sys2Proof.Machine

variable {e w : Engine} {rs : List Result} {sat : Bool}

/-! ## Flags beside other results -/

theorem Engine.mature_nothing (h : e.delayed = []) : e.mature 1 = e := by
  have hsame : ({ e with delayed := [] } : Engine) = e := by rw [← h]
  unfold Engine.mature
  rw [h]
  exact hsame

theorem Engine.Quiet.laneFlags_eq (h : e.Quiet) (f : LaneFlags) : e.laneFlags 0 f = (e.moving [] false).laneFlags 0 f := by rw [h.moving]

/-- The end of an instruction with flags on lane 0, whose results are all of latency 1 and are written in `w`. -/
theorem Engine.Quiet.finish_flags (he : e.Quiet) (h : w.Quiet) (f : LaneFlags) (now : ∀ r ∈ rs, r.wait = 1)
    (hw : ((e.moving rs sat).laneFlags 0 f).putAll rs = (w.moving rs sat).laneFlags 0 f) :
    ((e.moving rs sat).laneFlags 0 f).finish 1 none = (({ w with sr := srWith w.sr f } : Engine).withSat sat).next := by
  have hnow : rs.filter (fun r => r.wait ≤ 1) = rs := List.filter_eq_self.2 fun r hr => by simp [now r hr]
  have hlate : rs.filter (fun r => 1 < r.wait) = [] := List.filter_eq_nil_iff.2 fun r hr => by simp [now r hr]
  have hm : ((e.moving rs sat).laneFlags 0 f).mature 1 = (e.moving rs sat).laneFlags 0 f := Engine.mature_nothing he.delayed
  have hcur : ((e.moving rs sat).laneFlags 0 f).cur = { results := rs, lane0 := some f, sat := sat } := rfl
  unfold Engine.finish
  rw [hm]
  simp only [hcur, hnow, hlate, hw]
  cases sat <;>
    simp [Engine.moving, Engine.laneFlags, InFlight.flags, Engine.withSat, Engine.next, h.delayed, h.stack, h.cur, loopTest, srSat]

/-- CMP leaves its flags alone. -/
theorem Engine.Quiet.compare (h : e.Quiet) (a : AccIx) (x y : Acc) :
    (e.laneFlags 0 (flagsOf (x - y) (carrySub x y) (accOverflow (x.toInt - y.toInt)))).finish 1 none
      = ({ e.accumulated a (x.toInt - y.toInt) (carrySub x y) (outside (x.toInt - y.toInt)) with a := e.a } : Engine).next := by
  rw [h.laneFlags_eq, h.finish_flags h _ (by simp) rfl, e.accumulated_eq a (acc_ofInt_sub x y)]
  rfl

/-- The ALU after a saturation also sets sl. -/
theorem Engine.Quiet.alu_saturated (h : e.Quiet) (a : AccIx) {r : Int} {v : Acc} (hv : BitVec.ofInt 56 r = v) :
    (e.saturated true).alu a v false false true = ((e.accumulated a r false false).withSat true).next := by
  have hw : ({ e with a := Tab.set (fun _ => 0) e.a a v } : Engine).Quiet := ⟨h.cur, h.delayed, h.stack⟩
  rw [h.saturated, e.accumulated_eq a hv]
  exact h.finish_flags hw (rs := [⟨0, 1, .a a, v⟩]) _ (by simp) rfl

/-- A data register takes a count modulo 2^24. -/
theorem setWidth_ofInt_word (r : Int) : (BitVec.ofInt 56 r).setWidth 24 = BitVec.ofInt 24 r := by
  apply BitVec.eq_of_toNat_eq
  rw [BitVec.toNat_setWidth, BitVec.toNat_ofInt, BitVec.toNat_ofInt]
  omega

theorem Engine.put_count (d : RegIx) (count : Int) : e.put (.d d) (BitVec.ofInt 56 count) = e.withD d (BitVec.ofInt 24 count) := by
  rw [← setWidth_ofInt_word]
  rfl

/-- EXP: a word into a data register, with the flags of an accumulator it leaves. -/
theorem Engine.Quiet.exponent (h : e.Quiet) (a : AccIx) (d : RegIx) (x : Acc) (count : Int) :
    ((e.result 0 1 (.d d) (BitVec.ofInt 56 count)).laneFlags 0 (flagsOf x false false)).finish 1 none
      = (({ e.accumulated a x.toInt false false with a := e.a } : Engine).withD d (BitVec.ofInt 24 count)).next := by
  have hw : (e.withD d (BitVec.ofInt 24 count)).Quiet := ⟨h.cur, h.delayed, h.stack⟩
  rw [h.result_eq, h.finish_flags hw _ (by simp) (by rw [← Engine.put_count]; rfl), e.accumulated_eq a (BitVec.ofInt_toInt ..)]
  rfl

/-- NORM: a word into a data register, and an accumulator with its flags. -/
theorem Engine.Quiet.normalise (h : e.Quiet) (a : AccIx) (d : RegIx) {r : Int} {v : Acc} (hv : BitVec.ofInt 56 r = v) (count : Int) :
    (e.result 0 1 (.d d) (BitVec.ofInt 56 count)).alu a v false false true
      = ((e.accumulated a r false false).withD d (BitVec.ofInt 24 count)).next := by
  have hw : ({ e.withD d (BitVec.ofInt 24 count) with a := Tab.set (fun _ => 0) e.a a v } : Engine).Quiet := ⟨h.cur, h.delayed, h.stack⟩
  rw [h.result_eq, e.accumulated_eq a hv]
  exact h.finish_flags hw (rs := [⟨0, 1, .d d, BitVec.ofInt 56 count⟩, ⟨0, 1, .a a, v⟩]) _ (by simp) (by rw [← Engine.put_count]; rfl)

/-! ## Extremes and the limit (05 R142) -/

theorem toInt_maxWord (x y : Acc) : (if x.toInt < y.toInt then y else x).toInt = max x.toInt y.toInt := by
  rw [apply_ite BitVec.toInt, max_def_lt]

theorem toInt_minWord (x y : Acc) : (if y.toInt < x.toInt then y else x).toInt = min x.toInt y.toInt := by
  rw [apply_ite BitVec.toInt, min_comm, min_def_lt]

/-- A value fits a data word within the word's range (05 R138). -/
theorem fitsWord_iff (x : Acc) : fitsWord x = true ↔ -2 ^ 47 ≤ x.toInt ∧ x.toInt < 2 ^ 47 := by
  have hlt := x.toInt_lt
  have hle := x.le_toInt
  simp only [fitsWord, Bool.or_eq_true, beq_iff_eq, ← BitVec.toInt_inj, BitVec.toInt_sshiftRight, Int.shiftRight_eq_div_pow]
  have hones : (BitVec.allOnes 56).toInt = -1 := by decide
  have hzero : (0 : Acc).toInt = 0 := by decide
  rw [hones, hzero]
  omega

/-- A value held within a data word's range (05 R142). -/
def limited (r : Int) : Int := max (-(2 ^ 47)) (min (2 ^ 47 - 1) r)

theorem limited_eq_iff (x : Acc) : limited x.toInt = x.toInt ↔ fitsWord x = true := by
  rw [fitsWord_iff, limited]
  omega

/-- Beyond a data word's range the limit is full scale of the sign. -/
theorem ofInt_limited (x : Acc) (h : fitsWord x = false) :
    BitVec.ofInt 56 (limited x.toInt) = if x.msb then 0xFF800000000000 else 0x007FFFFFFFFFFF := by
  have hrange := mt (fitsWord_iff x).2 (by simp [h])
  rw [BitVec.msb_eq_toInt]
  by_cases hneg : x.toInt < 0
  · have hlow : limited x.toInt = -(2 ^ 47) := by rw [limited]; omega
    rw [hlow, if_pos (decide_eq_true hneg)]
    decide
  · have hhigh : limited x.toInt = 2 ^ 47 - 1 := by rw [limited]; omega
    rw [hhigh, if_neg (by simpa using hneg)]
    decide

/-- LIM sets sl where it had to hold the value. -/
theorem Engine.Quiet.limit (h : e.Quiet) (a : AccIx) (x : Acc) :
    (if fitsWord x then e.alu a x false false true
      else (e.saturated true).alu a (if x.msb then 0xFF800000000000 else 0x007FFFFFFFFFFF) false false true)
      = ((e.accumulated a (limited x.toInt) false false).withSat (decide (limited x.toInt ≠ x.toInt))).next := by
  by_cases hfits : fitsWord x = true
  · have hsame := (limited_eq_iff x).2 hfits
    rw [if_pos hfits, hsame, h.alu_self, decide_eq_false (not_not.2 rfl)]
    rfl
  · have hdiffers := mt (limited_eq_iff x).1 hfits
    rw [if_neg hfits, h.alu_saturated a (ofInt_limited x (Bool.eq_false_iff.2 hfits)), decide_eq_true hdiffers]

/-! ## Shifts (05 R150, R151) -/

/-- Accumulator `a` after a shift of what it holds by `k`, clamped to ±56. -/
def Engine.shifted (e : Engine) (a : AccIx) (k : Int) : Engine :=
  let x := e.acc a
  let k := max (-56) (min 56 k)
  if 0 ≤ k then e.accumulated a (x.toInt * 2 ^ k.toNat) false (outside (x.toInt * 2 ^ k.toNat))
  else e.accumulated a (x.toInt / 2 ^ (-k).toNat) false false

theorem Engine.Quiet.shift (h : e.Quiet) (a : AccIx) (k : Int) :
    e.alu a (shiftAcc (e.acc a) k).1 false (shiftAcc (e.acc a) k).2 true = (e.shifted a k).next := by
  unfold shiftAcc Engine.shifted
  generalize max (-56) (min 56 k) = k
  by_cases hk : 0 ≤ k
  · simp only [if_pos hk, Nat.cast_pow, Nat.cast_ofNat]
    exact h.alu a rfl _ _
  · simp only [if_neg hk, Nat.cast_pow, Nat.cast_ofNat]
    exact h.alu a rfl _ _

theorem signRun_le (x : Acc) (i fuel : Nat) : signRun x i fuel ≤ fuel := by
  induction fuel generalizing i with
  | zero => exact le_rfl
  | succ fuel ih =>
    have := ih (i - 1)
    unfold signRun
    split
    · omega
    · omega

/-- A shift count never exceeds what a shift takes. -/
theorem shiftCount_range (x : Acc) : -8 ≤ shiftCount x ∧ shiftCount x ≤ 48 := by
  have := signRun_le x 54 55
  unfold shiftCount
  split
  · omega
  · omega

theorem shiftAcc_shiftCount (x : Acc) : BitVec.ofInt 56 (if 0 ≤ shiftCount x then x.toInt * 2 ^ (shiftCount x).toNat
    else x.toInt / 2 ^ (-shiftCount x).toNat) = (shiftAcc x (shiftCount x)).1 := by
  obtain ⟨hlow, hhigh⟩ := shiftCount_range x
  have hclamp : max (-56) (min 56 (shiftCount x)) = shiftCount x := by omega
  simp only [shiftAcc, hclamp, Nat.cast_pow, Nat.cast_ofNat]
  rw [apply_ite Prod.fst, apply_ite (BitVec.ofInt 56)]

end Sys2Proof.Machine
end

section
open Sys2Proof Sys2Proof.Machine

/-- Settles O25: each instruction by what the ALU leaves beside its flags, the limit by `fitsWord_iff`, a shift count by `shiftCount_range`. -/
theorem compareLimitAndShiftInstructions : Obligations.CompareLimitAndShiftInstructions := by
  unfold Obligations.CompareLimitAndShiftInstructions
  refine ⟨fun s n a d h => ?_, fun s n a d sh h => ?_⟩
  · intro e w x y lim
    have hy : y = w.toInt := (toInt_alignWord _).symm
    rw [hy]
    refine ⟨?cmp, ?max, ?min, ?lim⟩
    case cmp => exact congrArg Host.Outcome.next (h.issue (h.quiet.compare a x w))
    case max =>
      rw [← toInt_maxWord]
      exact congrArg Host.Outcome.next (h.issue (h.quiet.alu_self a _))
    case min =>
      rw [← toInt_minWord]
      exact congrArg Host.Outcome.next (h.issue (h.quiet.alu_self a _))
    case lim =>
      refine congrArg Host.Outcome.next ((h.issue (h.quiet.limit a x)).trans ?_)
      simp only [Engine.withSat, decide_eq_true_eq, ite_not]
      rfl
  · refine ⟨?ash, ?ashi, ?exp, ?norm⟩
    case ash => exact congrArg Host.Outcome.next (h.issue (h.quiet.shift a _))
    case ashi => exact congrArg Host.Outcome.next (h.issue (h.quiet.shift a _))
    case exp => exact congrArg Host.Outcome.next (h.issue (h.quiet.exponent a d _ _))
    case norm => exact congrArg Host.Outcome.next (h.issue (h.quiet.normalise a d (shiftAcc_shiftCount _) _))

end

section
/-!
The basin's tick (06 R166, R169, R183, R185): what an input group adds to the sums, and the outputs that the sums give.
-/
namespace Sys2Proof.Machine

/-! ## Sums over folds -/

/-- A measure to which each step of a fold adds. -/
theorem foldl_range_adds {σ : Type} {g : σ → Int} {F : σ → Nat → σ} {d : Nat → Int} (h : ∀ x a, g (F x a) = g x + d a) (n : Nat) (x : σ) :
    g ((List.range n).foldl F x) = g x + ((List.range n).map d).sum := by
  induction n with
  | zero => simp
  | succ n ih => simp [List.range_succ, h, ih, add_assoc]

/-- A sum in which at most one index counts. -/
theorem sum_range_single (n i : Nat) (v : Int) : ((List.range n).map fun k => if k = i then v else 0).sum = if i < n then v else 0 := by
  have h : ((List.range n).map fun k => if k = i then v else 0).sum = ∑ k ∈ Finset.range n, if k = i then v else 0 := rfl
  rw [h, Finset.sum_ite_eq']
  simp only [Finset.mem_range]

/-- Sample `i` of output `p` has a sum of its own. -/
theorem sumKey_inj {b o p i j : Nat} (hi : i < b) (hj : j < b) : p * b + i = o * b + j ↔ p = o ∧ i = j := by
  have hkey (p : Nat) {i : Nat} (h : i < b) : (p * b + i) / b = p := by
    rw [Nat.mul_comm, Nat.mul_add_div (by omega), Nat.div_eq_of_lt h, Nat.add_zero]
  refine ⟨fun h => ?_, fun h => by rw [h.1, h.2]⟩
  have hp : p = o := by rw [← hkey p hi, h, hkey o hj]
  subst hp
  exact ⟨rfl, Nat.add_left_cancel h⟩

/-! ## Input groups (06 R169, R185) -/

/-- Only the basin's sums differ. -/
structure SumsOnly (s t : State) : Prop where
  rest : t.setBasin { t.basin with sums := s.basin.sums } = s

variable {s₀ s t : State}

theorem SumsOnly.refl (s : State) : SumsOnly s s := ⟨rfl⟩
theorem SumsOnly.trans {u : State} (h : SumsOnly s t) (h' : SumsOnly t u) : SumsOnly s u := ⟨by rw [← h.rest, ← h'.rest]; rfl⟩
theorem SumsOnly.regs (h : SumsOnly s t) : t.regs = s.regs := (congrArg State.regs h.rest :)
theorem SumsOnly.doms (h : SumsOnly s t) : t.doms = s.doms := (congrArg State.doms h.rest :)
theorem SumsOnly.locks (h : SumsOnly s t) : t.locks = s.locks := (congrArg State.locks h.rest :)
theorem SumsOnly.ssm (h : SumsOnly s t) : t.ssm = s.ssm := (congrArg State.ssm h.rest :)
theorem SumsOnly.dram (h : SumsOnly s t) : t.dram = s.dram := (congrArg State.dram h.rest :)
theorem SumsOnly.tick (h : SumsOnly s t) : t.basin.tick = s.basin.tick := (congrArg (fun s => s.basin.tick) h.rest :)
theorem SumsOnly.was (h : SumsOnly s t) : t.basin.was = s.basin.was := (congrArg (fun s => s.basin.was) h.rest :)
theorem SumsOnly.done (h : SumsOnly s t) : t.basin.done = s.basin.done := (congrArg (fun s => s.basin.done) h.rest :)
theorem SumsOnly.reg (h : SumsOnly s t) (a : Nat) : t.reg a = s.reg a := by simp only [State.reg, h.regs]
theorem SumsOnly.mtxB (h : SumsOnly s t) : t.mtxB = s.mtxB := State.mtxB_congr (h.reg _) h.doms
theorem SumsOnly.mtxOut (h : SumsOnly s t) : t.mtxOut = s.mtxOut := State.rd_congr (f := R.MTX_INFO_outputs) (h.reg _)

/-- What sample `j` of input channel `i` adds to the sum of output `o` (06 R169, R185). -/
def State.inputTerm (s : State) (i : Nat) (x : List Sample) (fadeIn : Bool) (o j : Nat) : Int :=
  (if fadeIn then (x.getD j 0).toInt * tickWeight s.mtxB j / 2 ^ 16 else (x.getD j 0).toInt)
    * s.basin.was.at (s.basin.tick * s.mtxB + j) (o * 1024 + i)

/-- The sum of sample `j` of output `o`. -/
def State.sumAt (s : State) (o j : Nat) : Int := Tab.get (fun _ => 0) s.basin.sums (o * s.mtxB + j)

theorem State.addInput_sumsOnly (s : State) (i : Nat) (x : List Sample) (fadeIn : Bool) : SumsOnly s (s.addInput i x fadeIn) := ⟨rfl⟩

/-- A row of the sums in which each sample of output `p` gets its term. -/
theorem Tab.get_addRow {b j : Nat} (hj : j < b) (o p : Nat) (w : Nat → Int) (t : List (Nat × Int)) :
    Tab.get (fun _ => 0) ((List.range b).foldl (fun t k => Tab.set (fun _ => 0) t (p * b + k) (Tab.get (fun _ => 0) t (p * b + k) + w k)) t) (o * b + j)
      = Tab.get (fun _ => 0) t (o * b + j) + if p = o then w j else 0 := by
  rw [foldl_range_adds (g := fun t => Tab.get (fun _ => 0) t (o * b + j)) (d := fun k => if p * b + k = o * b + j then w k else 0)]
  case h =>
    intro t k
    rw [Tab.get_set]
    by_cases hk : p * b + k = o * b + j
    · simp [hk]
    · simp [hk, Ne.symm hk]
  have hsum : ((List.range b).map fun k => if p * b + k = o * b + j then w k else 0)
      = (List.range b).map fun k => if k = j then (if p = o then w j else 0) else 0 := by
    refine List.map_congr_left fun k hk => ?_
    simp only [sumKey_inj (List.mem_range.1 hk) hj]
    by_cases hkj : k = j
    · simp [hkj]
    · simp [hkj]
  rw [hsum, sum_range_single, if_pos hj]

/-- Each output sample within the shape gets the term of the channel. -/
theorem State.sumAt_addInput (s : State) (i : Nat) (x : List Sample) (fadeIn : Bool) {o j : Nat} (ho : o < s.mtxOut) (hj : j < s.mtxB) :
    (s.addInput i x fadeIn).sumAt o j = s.sumAt o j + s.inputTerm i x fadeIn o j := by
  have hrows := foldl_range_adds (g := fun t => Tab.get (fun _ => 0) t (o * s.mtxB + j))
    (fun t p => Tab.get_addRow hj o p (s.inputTerm i x fadeIn p) t) s.mtxOut s.basin.sums
  have hone : ((List.range s.mtxOut).map fun p => if p = o then s.inputTerm i x fadeIn p j else 0)
      = (List.range s.mtxOut).map fun p => if p = o then s.inputTerm i x fadeIn o j else 0 :=
    List.map_congr_left fun p _ => by split <;> simp_all
  rw [hone, sum_range_single, if_pos ho] at hrows
  exact hrows

/-- Channel `c` of the barge `bg` of group `g` enters the sums (06 R169, R185). -/
def State.addChannel (s : State) (g : GroupSpec) (bg : Barge) (fadeIn : Bool) (c : Nat) : State :=
  s.addInput (g.first + c) ((List.range s.mtxB).map fun j => bg.word j g.count c) fadeIn

/-- What that channel adds to the sum of sample `j` of output `o`. -/
def State.channelTerm (s : State) (g : GroupSpec) (bg : Barge) (fadeIn : Bool) (o j c : Nat) : Int :=
  (if fadeIn then (bg.word j g.count c).toInt * tickWeight s.mtxB j / 2 ^ 16 else (bg.word j g.count c).toInt)
    * s.basin.was.at (s.basin.tick * s.mtxB + j) (o * 1024 + (g.first + c))

/-- Every channel of a group enters the sums. -/
def State.addGroup (s : State) (g : GroupSpec) (bg : Barge) (fadeIn : Bool) : State :=
  (List.range g.count).foldl (fun s c => s.addChannel g bg fadeIn c) s

theorem SumsOnly.channelTerm (h : SumsOnly s t) (g : GroupSpec) (bg : Barge) (fadeIn : Bool) (o j c : Nat) :
    t.channelTerm g bg fadeIn o j c = s.channelTerm g bg fadeIn o j c := by
  simp only [State.channelTerm, h.mtxB, h.tick, h.was]

theorem State.sumAt_addChannel (s : State) (g : GroupSpec) (bg : Barge) (fadeIn : Bool) (c : Nat) {o j : Nat} (ho : o < s.mtxOut) (hj : j < s.mtxB) :
    (s.addChannel g bg fadeIn c).sumAt o j = s.sumAt o j + s.channelTerm g bg fadeIn o j c := by
  rw [State.addChannel, State.sumAt_addInput _ _ _ _ ho hj]
  simp [State.inputTerm, State.channelTerm, hj]

theorem SumsOnly.foldl {α : Type} {l : List α} {f : State → α → State} (h : SumsOnly s₀ s) (k : ∀ t x, SumsOnly t (f t x)) :
    SumsOnly s₀ (l.foldl f s) := by
  induction l generalizing s with
  | nil => exact h
  | cons x l ih => exact ih (h.trans (k _ _))

theorem State.addGroup_sumsOnly (s : State) (g : GroupSpec) (bg : Barge) (fadeIn : Bool) : SumsOnly s (s.addGroup g bg fadeIn) :=
  (SumsOnly.refl s).foldl fun _ _ => State.addInput_sumsOnly ..

/-- A group adds the terms of all its channels. -/
theorem State.sumAt_addGroup (s : State) (g : GroupSpec) (bg : Barge) (fadeIn : Bool) {o j : Nat} (ho : o < s.mtxOut) (hj : j < s.mtxB) :
    (s.addGroup g bg fadeIn).sumAt o j = s.sumAt o j + ((List.range g.count).map (s.channelTerm g bg fadeIn o j)).sum := by
  unfold State.addGroup
  induction g.count with
  | zero => simp
  | succ n ih =>
    have hrest : SumsOnly s ((List.range n).foldl (fun s c => s.addChannel g bg fadeIn c) s) :=
      (SumsOnly.refl s).foldl fun _ _ => State.addInput_sumsOnly ..
    simp only [List.range_succ, List.foldl_append, List.foldl_cons, List.foldl_nil, List.map_append, List.sum_append, List.map_cons, List.map_nil,
      List.sum_singleton]
    rw [State.sumAt_addChannel _ _ _ _ _ (hrest.mtxOut ▸ ho) (hrest.mtxB ▸ hj), ih, hrest.channelTerm, add_assoc]

/-! ## The commands -/

variable {g : GroupSpec} {i : Nat} {k : Lock}

theorem State.lock_congr (h : t.locks = s.locks) (l : Nat) : t.lock l = s.lock l := by simp only [State.lock, h]

theorem State.awaits_congr (h : t.locks = s.locks) (l x : Nat) : t.awaits l x = s.awaits l x := by simp only [State.awaits, State.lock_congr h]

/-- The lock once the barge of tick `x` has left it and its credit has returned (01 R23). -/
def Lock.consumed (k : Lock) (x : Nat) : Lock :=
  { k with present := k.present.eraseP (fun b => tagDistance b.tick x = 0), credit := min k.spec.depth (k.credit + 1) }

theorem State.consume_awaited {l x : Nat} {b : Barge} (h : s.lock l = some k) (ha : s.awaits l x = some b) :
    s.consume l x = s.setLock l (k.consumed x) := by
  have hany : (k.present.any fun b => decide (tagDistance b.tick x = 0)) = true := by
    simp only [State.awaits, h] at ha
    exact List.any_eq_true.2 ⟨b, List.mem_of_find?_eq_some ha, List.find?_some (p := fun b : Barge => decide (tagDistance b.tick x = 0)) ha⟩
  simp only [State.consume, h, hany, if_true]
  rfl

/-- The state in which group `i` has been added. -/
def State.groupAdded (s : State) (i : Nat) (g : GroupSpec) (bg : Barge) : State :=
  let u := s.addGroup g bg (s.basin.wasZero.contains i)
  u.setBasin { u.basin with done := u.basin.done ++ [i] }

section
variable (hh : s.halted = false) (ht : s.basin.tick < s.mtxTick)
include hh ht

theorem basinBehind : ¬(s.halted = true ∨ s.mtxTick ≤ s.basin.tick) := by simp [hh, ht]

theorem exec_basinGroupProcess {bg : Barge} (hg : s.basin.ins[i]? = some g) (ha : s.awaits g.lock s.basin.tick = some bg)
    (hk : s.lock g.lock = some k) (hi : s.groupsLeft.contains i = true) :
    exec (.basinGroupProcess i []) s = .next ((s.groupAdded i g bg).setLock g.lock (k.consumed s.basin.tick)) := by
  have hsums := s.addGroup_sumsOnly g bg (s.basin.wasZero.contains i)
  have hlocks : (s.groupAdded i g bg).locks = s.locks := hsums.locks
  have hconsume := State.consume_awaited ((State.lock_congr hlocks _).trans hk) ((State.awaits_congr hlocks _ _).trans ha)
  rw [← hconsume, ← hsums.tick]
  simp only [exec, execBasinGroupProcess, basinBehind hh ht, hg, ha, hi, if_true, if_false, List.foldl_nil]
  rfl

theorem exec_basinDeadline_absent (hi : s.groupsLeft = [i]) (hg : s.basin.ins[i]? = some g) (ha : s.awaits g.lock s.basin.tick = none)
    (hk : s.lock g.lock = some k) : exec .basinDeadline s
      = .next (((s.setLock g.lock (k.without s.basin.tick)).setBasin { s.basin with zero := s.basin.zero ++ [i] }).overrun .basin false) := by
  simp only [exec, execBasinDeadline, basinBehind hh ht, hi, List.foldl_cons, List.foldl_nil, hg, ha, hk, if_false, Option.isSome_none, Bool.false_eq_true]
  rfl

end

/-! ## Output samples (06 R169) -/

theorem basinOutput_high {v : Int} (h : 2 ^ 42 ≤ v) : basinOutput v = (0x7FFFFF, true) := by
  simp only [basinOutput]
  rw [if_neg (by omega), if_pos (by omega)]

theorem basinOutput_low {v : Int} (h : v < -2 ^ 42) : basinOutput v = (0x800000, true) := by
  simp only [basinOutput]
  rw [if_pos (by omega)]

theorem basinOutput_mid {v : Int} (h : -(2 ^ 42) ≤ v) (h' : v < 2 ^ 42) : basinOutput v = (BitVec.ofInt 24 (v / 2 ^ 19), false) := by
  have hclamp : max (-(2 ^ 55)) (min (2 ^ 55 - 1) v) = v := by omega
  simp only [basinOutput, hclamp]
  rw [if_neg (by omega), if_neg (by omega)]

/-- An output that does not saturate is the floor of its sum. -/
theorem basinOutput_floor {v : Int} (h : (basinOutput v).2 = false) : (basinOutput v).1 = BitVec.ofInt 24 (v / 2 ^ 19) := by
  rcases lt_or_ge v (-2 ^ 42) with hlow | hlow
  · simp [basinOutput_low hlow] at h
  rcases lt_or_ge v (2 ^ 42) with hhigh | hhigh
  · rw [basinOutput_mid hlow hhigh]
  · simp [basinOutput_high hhigh] at h

/-- The outputs of a group, each with whether it saturated. -/
def State.groupOutputs (s : State) (g : GroupSpec) : List (Sample × Bool) :=
  (List.range s.mtxB).flatMap fun j => (List.range g.count).map fun c => basinOutput (s.sumAt (g.first + c) j)

theorem State.outputWords_eq (s : State) (g : GroupSpec) :
    s.outputWords g = ((s.groupOutputs g).map (·.1), ((s.groupOutputs g).filter (·.2)).length) := rfl

theorem State.outputWords_words (s : State) (g : GroupSpec) : (s.outputWords g).1
    = (List.range s.mtxB).flatMap fun j => (List.range g.count).map fun c => (basinOutput (s.sumAt (g.first + c) j)).1 := by
  simp only [State.outputWords_eq, State.groupOutputs, List.map_flatMap, List.map_map]
  rfl

theorem State.outputWords_floor (h : (s.outputWords g).2 = 0) : (s.outputWords g).1
    = (List.range s.mtxB).flatMap fun j => (List.range g.count).map fun c => BitVec.ofInt 24 (s.sumAt (g.first + c) j / 2 ^ 19) := by
  rw [State.outputWords_eq, List.length_eq_zero_iff, List.filter_eq_nil_iff] at h
  rw [State.outputWords_words]
  refine List.flatMap_congr fun j hj => List.map_congr_left fun c hc => basinOutput_floor ?_
  refine Bool.eq_false_iff.2 (h _ ?_)
  exact List.mem_flatMap.2 ⟨j, hj, List.mem_map.2 ⟨c, hc, rfl⟩⟩

/-! ## The end of a phase (06 R169, R183) -/

/-- `n` outputs have saturated. -/
def State.countSaturated (s : State) (n : Nat) : State :=
  if n = 0 then s else (s.bump ⟨R.MTX_SAT_COUNT, 0, 16⟩ n).raise R.MTX_INT_STATUS_sat

/-- The basin once its tick has ended. -/
def Basin.ended (b : Basin) : Basin := { b with tick := b.tick + 1, sums := [], done := [], zero := [], wasZero := b.zero }

theorem State.countSaturated_keeps (s : State) (n : Nat) : (s.countSaturated n).locks = s.locks ∧ (s.countSaturated n).basin = s.basin ∧
    (s.countSaturated n).ssm = s.ssm ∧ (s.countSaturated n).dram = s.dram := by
  unfold State.countSaturated
  split
  · exact ⟨rfl, rfl, rfl, rfl⟩
  · exact ⟨rfl, rfl, rfl, rfl⟩

theorem State.countSaturated_counts {n : Nat} (h : 0 < n) : (s.countSaturated n).is R.MTX_INT_STATUS_sat = true ∧
    (s.countSaturated n).rd ⟨R.MTX_SAT_COUNT, 0, 16⟩ = min (s.rd ⟨R.MTX_SAT_COUNT, 0, 16⟩ + n) 0xFFFF := by
  rw [State.countSaturated, if_neg (Nat.ne_of_gt h)]
  exact ⟨State.is_raise _ _ (by decide) (by decide), (State.rd_wr_other _ 1 (by decide)).trans (s.rd_bump _ n (by decide))⟩

/-- The barge of an output group is committed, or discarded where its lock holds no credit. -/
def State.commitOutputs (s : State) (g : GroupSpec) : State :=
  let u := s.countSaturated (s.outputWords g).2
  if u.hasCredit g.lock then u.commit g.lock ⟨u.basin.tick, (s.outputWords g).1⟩ else u.overrun .basin true

theorem State.commitOutputs_of_credit (hk : s.lock g.lock = some k) (hc : 0 < k.credit) : s.commitOutputs g
    = (s.countSaturated (s.outputWords g).2).setLock g.lock (k.committed ⟨s.basin.tick, (s.outputWords g).1⟩) := by
  obtain ⟨hlocks, hbasin, -, -⟩ := s.countSaturated_keeps (s.outputWords g).2
  have hlock : (s.countSaturated (s.outputWords g).2).lock g.lock = some k := (State.lock_congr hlocks _).trans hk
  have hcredit : (s.countSaturated (s.outputWords g).2).hasCredit g.lock = true := by simp [State.hasCredit, hlock, hc]
  simp only [State.commitOutputs, hcredit, if_true, hbasin]
  exact State.commit_of_credit hlock hc _

theorem exec_basinPhaseEnd (hh : s.halted = false) (ht : s.basin.tick < s.mtxTick) (hi : s.groupsLeft = []) (ho : s.basin.outs ≠ []) :
    exec .basinPhaseEnd s = .next ((s.basin.outs.foldl State.commitOutputs s).setBasin (s.basin.outs.foldl State.commitOutputs s).basin.ended) := by
  have hends : ¬(s.halted || decide (s.mtxTick ≤ s.basin.tick) || !s.groupsLeft.isEmpty || s.basin.outs.isEmpty) = true := by simp [hh, ht, hi, ho]
  exact congrArg Host.Outcome.next (if_neg hends)

theorem exec_basinPhaseEnd_single (hh : s.halted = false) (ht : s.basin.tick < s.mtxTick) (hi : s.groupsLeft = []) (ho : s.basin.outs = [g])
    (hk : s.lock g.lock = some k) (hc : 0 < k.credit) : exec .basinPhaseEnd s
      = .next (((s.countSaturated (s.outputWords g).2).setLock g.lock (k.committed ⟨s.basin.tick, (s.outputWords g).1⟩)).setBasin s.basin.ended) := by
  obtain ⟨-, hbasin, -, -⟩ := s.countSaturated_keeps (s.outputWords g).2
  rw [exec_basinPhaseEnd hh ht hi (by simp [ho]), ho, List.foldl_cons, List.foldl_nil, State.commitOutputs_of_credit hk hc, State.setLock_basin, hbasin]

end Sys2Proof.Machine
end

section
open Sys2Proof Sys2Proof.Machine

/-- Settles O30: a group by `State.sumAt_addGroup` and the return of its credit, the end of a phase by what its outputs are. -/
theorem basinSums : Obligations.BasinSums := by
  unfold Obligations.BasinSums
  intro s i g hh ht
  refine ⟨?process, ?absent, ?floors, ?saturated, fun v hv => ⟨basinOutput_high hv, basinOutput_low (by omega)⟩, fun v => basinOutput_mid⟩
  case process =>
    intro bg k hg ha hk hi
    have hsums := s.addGroup_sumsOnly g bg (s.basin.wasZero.contains i)
    refine ⟨_, exec_basinGroupProcess hh ht hg ha hk hi, fun o j ho hj => ?_, ?_, ?_, fun l hl => ?_, hsums.regs, SameMemory.of_eq hsums.ssm hsums.dram⟩
    · have hsum := s.sumAt_addGroup g bg (s.basin.wasZero.contains i) ho hj
      rw [State.sumAt, hsums.mtxB] at hsum
      exact hsum
    · exact congrArg (· ++ [i]) hsums.done
    · rw [State.lock_setLock_self]
      rfl
    · rw [State.lock_setLock_ne _ _ hl]
      exact State.lock_congr hsums.locks l
  case absent => exact fun k hi hg ha hk => exec_basinDeadline_absent hh ht hi hg ha hk
  case floors =>
    intro k hi ho hk hc hsat
    rw [exec_basinPhaseEnd_single hh ht hi ho hk hc, hsat, State.outputWords_floor hsat]
    rfl
  case saturated =>
    intro k hi ho hk hc hsat
    obtain ⟨-, -, hssm, hdram⟩ := s.countSaturated_keeps (s.outputWords g).2
    obtain ⟨hevent, hcount⟩ := State.countSaturated_counts hsat
    have hexec := exec_basinPhaseEnd_single hh ht hi ho hk hc
    generalize s.countSaturated (s.outputWords g).2 = u at hssm hdram hevent hcount hexec
    refine ⟨_, hexec, ?_, hevent, hcount, rfl, rfl, SameMemory.of_eq hssm hdram⟩
    rw [State.outputWords_words]
    exact State.lock_setLock_self ..

end

section
/-!
Routes (06 R188 to R191): what a write of a route leaves pending, and what a pending route brings into effect at its boundary.
-/
namespace Sys2Proof.Machine

variable {s t : State}

/-! ## Layered bits -/

/-- A field of one bit is that bit. -/
theorem getBits_one (w : Word) (i : Nat) : (getBits w i 1 == 1) = w.getLsbD i := by
  have hbit := getBits_testBit w i 1 0
  have hlt := getBits_lt w i 1
  generalize getBits w i 1 = x at hbit hlt
  obtain rfl | rfl : x = 0 ∨ x = 1 := by omega
  · simpa using hbit
  · simpa using hbit

/-- Where `v` replaces the bits `m` of `r`, a field within `m` is `v`'s. -/
theorem getBits_merged {m : Word} {l n : Nat} (h : ∀ i < n, m.getLsbD (l + i) = true) (r v : Word) :
    getBits ((r &&& ~~~m) ||| (v &&& m)) l n = getBits v l n := by
  refine Nat.eq_of_testBit_eq fun i => ?_
  rw [getBits_testBit, getBits_testBit]
  by_cases hi : i < n
  · simp [h i hi]
  · simp [hi]

/-- A field within the settled bits holds its layered value. -/
theorem State.rd_settle {f : FieldAt} {mask : Word} (h : ∀ i < f.width, mask.getLsbD (f.lsb + i) = true) :
    (s.settle f.addr mask).rd f = getBits (s.layered f.addr) f.lsb f.width :=
  (s.rd_setReg_self f _).trans (getBits_merged h _ _)

theorem State.shWaits_setShWaits_true (s : State) (a : Nat) : (s.setShWaits a true).shWaits a = true := by
  by_cases h : a ∈ s.layers.shPending
  · simp [State.shWaits, State.setShWaits, h]
  · simp [State.shWaits, State.setShWaits, h]

/-- Where no held overlay owns a bit of `mask`, software's value decides them (03 R88). -/
theorem State.layered_soften_mask {a : Nat} {mask : Word} (h : s.owned a &&& mask = 0) (v : Word) :
    (s.soften a mask v).layered a &&& mask = v &&& mask := by
  have hnot (x : Word) : x &&& mask &&& ~~~(s.owned a) = x &&& mask := by
    refine BitVec.eq_of_getLsbD_eq fun i hi => ?_
    have hbit := congrArg (fun w => w.getLsbD i) h
    simp only [BitVec.getLsbD_and] at hbit
    simp only [BitVec.getLsbD_and, BitVec.getLsbD_not, hi, decide_true, Bool.true_and]
    cases ho : (s.owned a).getLsbD i
    · simp
    · simp_all
  have hfree := s.layered_soften_free a mask v
  rwa [hnot, hnot] at hfree

/-! ## Route writes (06 R188, R189) -/

section
variable {d src : Nat} {v : Word}

theorem State.routeRefusal_unassigned (h : s.dstDesc d = none) : s.routeRefusal d src = some 1 := by simp only [State.routeRefusal, h]

theorem State.routeRefusal_silence {e : DescSpec} (h : s.dstDesc d = some e) : s.routeRefusal d silence = none := by
  simp only [State.routeRefusal, h, if_true]

theorem State.routeRefusal_domain {e f : DescSpec} (h : s.dstDesc d = some e) (hs : src ≠ silence) (hf : s.srcDesc src = some f)
    (hd : f.domain ≠ e.domain) : s.routeRefusal d src = some 3 := by
  simp only [State.routeRefusal, h, hf, if_neg hs, if_pos hd]

theorem routeAddr_ge (d : Nat) : 0x158000 ≤ R.RTR_ROUTEd d := Nat.le_add_right ..

theorem modeHeld_ne_route (d : Nat) : R.CFG_MODE_HELD ≠ R.RTR_ROUTEd d := by
  have := routeAddr_ge d
  simp only [R.CFG_MODE_HELD]
  omega

theorem routerEvents_ne_route (d : Nat) : R.RTR_INT_STATUS ≠ R.RTR_ROUTEd d := by
  have := routeAddr_ge d
  simp only [R.RTR_INT_STATUS]
  omega

/-- An uncorrectable error in the entry of destination `d` is over (06 R193). -/
def State.revived (s : State) (d : Nat) : State := s.setRouter { s.router with dead := s.router.dead.filter (· ≠ d) }

/-- The route of destination `d` pends with value `v` (06 R189). -/
def State.routePends (s : State) (d : Nat) (v : Word) : State :=
  (((s.soften (R.RTR_ROUTEd d) 0x5FFF v).setShWaits (R.RTR_ROUTEd d) true).revived d).wr (R.RTR_ROUTEd_pend d) 1

theorem State.writeRoute_refused {reason : Nat} (h : s.routeRefusal d (v.toNat % 2 ^ 13) = some reason) : s.writeRoute d v
    = (s.setReg R.RTR_REFUSED (BitVec.ofNat 32 (reason * 2 ^ 16 + d))).raise R.RTR_INT_STATUS_refused := by
  simp only [State.writeRoute, h]

theorem State.writeRoute_taken (h : s.routeRefusal d (v.toNat % 2 ^ 13) = none) : s.writeRoute d v = s.routePends d v := by
  simp only [State.writeRoute, h]
  rfl

theorem State.reg_routePends_ne (s : State) (v : Word) {b : Nat} (h : b ≠ R.RTR_ROUTEd d) : (s.routePends d v).reg b = s.reg b := by
  rw [State.routePends, State.reg_wr_ne _ _ h]
  rfl

theorem State.layered_routePends (s : State) (d b : Nat) (v : Word) :
    (s.routePends d v).layered b = (s.soften (R.RTR_ROUTEd d) 0x5FFF v).layered b := by
  simp only [State.layered, s.reg_routePends_ne v (modeHeld_ne_route d)]
  rfl

theorem completes_routeWrite {d : BitVec 13} (h : s.routeRefusal d.toNat (v.toNat % 2 ^ 13) = none) : Completes (.routeWrite d v) s fun t =>
    t.is (R.RTR_ROUTEd_pend d.toNat) = true ∧ t.shWaits (R.RTR_ROUTEd d.toNat) = true ∧
      (s.owned (R.RTR_ROUTEd d.toNat) &&& 0x5FFF = 0 → t.layered (R.RTR_ROUTEd d.toNat) &&& 0x5FFF = v &&& 0x5FFF) ∧
      t.rd (R.RTR_ROUTEd_src d.toNat) = s.rd (R.RTR_ROUTEd_src d.toNat) ∧ SameMemory s t ∧
      ∀ b, b ≠ R.RTR_ROUTEd d.toNat → t.reg b = s.reg b := by
  have hexec : exec (.routeWrite d v) s = .next ((s.routePends d.toNat v).answer []) := by
    rw [← State.writeRoute_taken h]
    rfl
  refine ⟨_, hexec, ?pend, ?waits, fun ho => ?layered, ?src, SameMemory.of_eq rfl rfl, fun b hb => ?reg⟩
  case pend => exact State.is_raise _ (R.RTR_ROUTEd_pend d.toNat) (Nat.le_refl 32) Nat.one_pos
  case waits => exact s.shWaits_setShWaits_true _
  case layered =>
    have hl : ((s.routePends d.toNat v).answer []).layered (R.RTR_ROUTEd d.toNat) = _ := s.layered_routePends d.toNat _ v
    rw [hl]
    exact State.layered_soften_mask ho v
  case src => exact State.rd_wr_apart _ (f := R.RTR_ROUTEd_pend d.toNat) (g := R.RTR_ROUTEd_src d.toNat) 1 (.inr (show 0 + 13 ≤ 31 by decide))
  case reg => exact s.reg_routePends_ne v hb

end

/-! ## Routes taking effect (06 R189 to R191) -/

/-- The source that the layers give destination `d`. -/
def State.layeredSource (s : State) (d : Nat) : Nat := s.connected d (getBits (s.layered (R.RTR_ROUTEd d)) 0 13)

/-- The entry of destination `d` is written from the layers, delayed as a route from `src` is. -/
def State.routeStored (s : State) (d src : Nat) : State :=
  ((s.settle (R.RTR_ROUTEd d) 0x5FFF).revived d).wr (R.RTR_ROUTEd_delayed d) (b2n (s.isDelayed d src))

/-- The changes of destination `d`, and the route before the first of them. -/
def State.olderRoutes (s : State) (d : Nat) : List RouteChange := match s.routeChanges d with | [] => [s.baseRoute d] | l => l

/-- The domain of destination `d`. -/
def State.destDomain (s : State) (d : Nat) : Nat := match s.dstDesc d with | some e => e.domain | none => 0

/-- The changes of destination `d` are `cs`. -/
def State.withChanges (s : State) (d : Nat) (cs : List RouteChange) : State :=
  s.setRouter { s.router with changes := Tab.set (fun _ => []) s.router.changes d cs }

/-- The entry of destination `d` is stored with source `src`, a change where another source was in effect. -/
def State.routeTo (s : State) (d src : Nat) : State :=
  let u := s.routeStored d src
  if src = (s.baseRoute d).source then u
  else u.withChanges d ((⟨s.tick (s.destDomain d), src, s.isDelayed d src, u.is (R.RTR_ROUTEd_xf d)⟩ :: s.olderRoutes d).take 4)

theorem State.routeSettles_eq (s : State) (d : Nat) : s.routeSettles d = s.routeTo d (s.layeredSource d) := by
  have hsrc : (s.settle (R.RTR_ROUTEd d) 0x5FFF).rd (R.RTR_ROUTEd_src d) = getBits (s.layered (R.RTR_ROUTEd d)) 0 13 :=
    State.rd_settle (f := R.RTR_ROUTEd_src d) (by simp only [R.RTR_ROUTEd_src]; decide)
  rw [State.layeredSource, ← hsrc]
  rfl

/-- A field of software's bits holds its layered value. -/
theorem State.rd_routeStored (s : State) (d src : Nat) {l n : Nat} (hn : l + n ≤ 16) (h : ∀ i < n, (0x5FFF : Word).getLsbD (l + i) = true) :
    (s.routeStored d src).rd ⟨R.RTR_ROUTEd d, l, n⟩ = getBits (s.layered (R.RTR_ROUTEd d)) l n :=
  (State.rd_wr_apart _ (f := R.RTR_ROUTEd_delayed d) (g := ⟨R.RTR_ROUTEd d, l, n⟩) _ (.inr hn)).trans
    (State.rd_settle (f := ⟨R.RTR_ROUTEd d, l, n⟩) h)

theorem State.is_routeStored_xf (s : State) (d src : Nat) :
    (s.routeStored d src).is (R.RTR_ROUTEd_xf d) = (s.layered (R.RTR_ROUTEd d)).getLsbD 14 := by
  rw [← getBits_one, ← s.rd_routeStored d src (by decide) (by decide)]
  rfl

theorem State.is_routeStored_delayed (s : State) (d src : Nat) : (s.routeStored d src).is (R.RTR_ROUTEd_delayed d) = s.isDelayed d src := by
  have hrd := State.rd_wr_same ((s.settle (R.RTR_ROUTEd d) 0x5FFF).revived d) (R.RTR_ROUTEd_delayed d) (b2n (s.isDelayed d src))
    (show 16 + 1 ≤ 32 by decide)
  rw [State.is, State.routeStored, hrd]
  cases s.isDelayed d src <;> rfl

@[simp] theorem State.reg_withChanges (s : State) (d : Nat) (cs : List RouteChange) (a : Nat) : (s.withChanges d cs).reg a = s.reg a := rfl

@[simp] theorem State.routeChanges_withChanges (s : State) (d : Nat) (cs : List RouteChange) : (s.withChanges d cs).routeChanges d = cs :=
  Tab.get_set_self _ _ d cs

theorem State.reg_routeTo (s : State) (d src a : Nat) : (s.routeTo d src).reg a = (s.routeStored d src).reg a := by
  by_cases h : src = (s.baseRoute d).source
  · rw [State.routeTo, if_pos h]
  · rw [State.routeTo, if_neg h, State.reg_withChanges]

/-- The route in effect before the first change in the log. -/
theorem State.routeAt_unchanged {d : Nat} (h : s.routeChanges d = []) (k : Nat) : s.routeAt d k = (s.baseRoute d, none) := by
  simp only [State.routeAt, h, List.dropWhile_nil]

/-- In its own tick the first change is in effect, a crossfade where it is one (06 R190). -/
theorem State.routeAt_first {d k : Nat} {c o : RouteChange} (h : s.routeChanges d = [c, o]) (hk : c.tick = k) :
    s.routeAt d k = (c, if c.xf then some o else none) := by
  simp [State.routeAt, h, hk]

theorem State.routeChanges_routeTo {d src : Nat} (hs : src ≠ (s.baseRoute d).source) (h : s.routeChanges d = []) :
    (s.routeTo d src).routeChanges d
      = [⟨s.tick (s.destDomain d), src, s.isDelayed d src, (s.layered (R.RTR_ROUTEd d)).getLsbD 14⟩, s.baseRoute d] := by
  have holder : s.olderRoutes d = [s.baseRoute d] := by simp only [State.olderRoutes, h]
  rw [State.routeTo, if_neg hs, State.routeChanges_withChanges, State.is_routeStored_xf, holder]
  rfl

/-- A pending route in effect: it pends no more, and route_done says so. -/
def State.routeTaken (s : State) (d : Nat) : State :=
  (((s.routeSettles d).setShWaits (R.RTR_ROUTEd d) false).wr (R.RTR_ROUTEd_pend d) 0).raise R.RTR_INT_STATUS_route_done

theorem State.reg_routeTaken_ne (s : State) {d b : Nat} (ha : b ≠ R.RTR_ROUTEd d) (hb : b ≠ R.RTR_INT_STATUS) : (s.routeTaken d).reg b = s.reg b := by
  have hstored : (s.routeStored d (s.layeredSource d)).reg b = s.reg b := by
    rw [State.routeStored, State.reg_wr_ne _ _ ha]
    exact State.reg_setReg_ne _ _ ha
  rw [State.routeTaken, State.reg_raise_ne _ hb, State.reg_wr_ne _ _ ha, ← hstored, ← State.reg_routeTo, ← State.routeSettles_eq]
  rfl

/-- A field of the entry below its pend bit is as stored. -/
theorem State.rd_routeTaken (s : State) (d : Nat) {l n : Nat} (h : l + n ≤ 31) : (s.routeTaken d).rd ⟨R.RTR_ROUTEd d, l, n⟩
    = (s.routeStored d (s.layeredSource d)).rd ⟨R.RTR_ROUTEd d, l, n⟩ := by
  refine (State.rd_wr_other _ 1 (routerEvents_ne_route d).symm).trans ?_
  refine (State.rd_wr_apart _ (f := R.RTR_ROUTEd_pend d) 0 (.inr h)).trans ?_
  refine State.rd_congr ?_
  rw [← State.reg_routeTo, ← State.routeSettles_eq]
  rfl

theorem State.routeTaken_sameMemory (s : State) (d : Nat) : SameMemory s (s.routeTaken d) := by
  have hto : SameMemory s (s.routeTo d (s.layeredSource d)) := by
    by_cases h : s.layeredSource d = (s.baseRoute d).source
    · rw [State.routeTo, if_pos h]
      exact SameMemory.of_eq rfl rfl
    · rw [State.routeTo, if_neg h]
      exact SameMemory.of_eq rfl rfl
  rw [← State.routeSettles_eq] at hto
  exact hto

/-- The route in effect from the boundary on, and the one it crossfades from (06 R190). -/
theorem State.routeAt_routeTaken {d : Nat} (hs : s.layeredSource d ≠ (s.baseRoute d).source) (hn : s.routeChanges d = []) :
    (s.routeTaken d).routeAt d (s.tick (s.destDomain d))
      = (⟨s.tick (s.destDomain d), s.layeredSource d, s.isDelayed d (s.layeredSource d), (s.layered (R.RTR_ROUTEd d)).getLsbD 14⟩,
         if (s.layered (R.RTR_ROUTEd d)).getLsbD 14 then some (s.baseRoute d) else none) := by
  refine State.routeAt_first ?_ rfl
  rw [← State.routeChanges_routeTo hs hn, ← State.routeSettles_eq]
  rfl

theorem exec_routeTakesEffect_held {d : BitVec 13} {e : DescSpec} (he : s.dstDesc d.toNat = some e) (hc : s.is (bitAt R.RTR_CTRL 0) = true) :
    exec (.routeTakesEffect d) s = .next s := by
  simp [exec, execRouteTakesEffect, he, hc]

section
variable {d : BitVec 13} {e : DescSpec} (he : s.dstDesc d.toNat = some e) (hw : s.shWaits (R.RTR_ROUTEd d.toNat) = true)
  (hb : s.atBoundary e.domain = true) (hc : s.is (bitAt R.RTR_CTRL 0) = false) (ho : s.owned (R.RTR_ROUTEd d.toNat) &&& 0x5FFF = 0)
include he hw hb hc ho

theorem exec_routeTakesEffect : exec (.routeTakesEffect d) s = .next (s.routeTaken d.toNat) := by
  simp only [exec, execRouteTakesEffect, he, hw, hb, hc, ho, Bool.not_false, Bool.and_self, beq_self_eq_true, if_true]
  rfl

theorem completes_routeTakesEffect : Completes (.routeTakesEffect d) s fun t =>
    (s.layeredSource d.toNat ≠ (s.baseRoute d.toNat).source → s.routeChanges d.toNat = [] → t.routeAt d.toNat (s.tick e.domain)
      = (⟨s.tick e.domain, s.layeredSource d.toNat, s.isDelayed d.toNat (s.layeredSource d.toNat), (s.layered (R.RTR_ROUTEd d.toNat)).getLsbD 14⟩,
         if (s.layered (R.RTR_ROUTEd d.toNat)).getLsbD 14 then some (s.baseRoute d.toNat) else none)) ∧
      t.rd (R.RTR_ROUTEd_src d.toNat) = getBits (s.layered (R.RTR_ROUTEd d.toNat)) 0 13 ∧ t.is (R.RTR_ROUTEd_pend d.toNat) = false ∧
      t.is R.RTR_INT_STATUS_route_done = true ∧ t.shWaits (R.RTR_ROUTEd d.toNat) = false ∧
      t.is (R.RTR_ROUTEd_delayed d.toNat) = s.isDelayed d.toNat (s.layeredSource d.toNat) ∧ SameMemory s t ∧
      ∀ b, b ∉ [R.RTR_ROUTEd d.toNat, R.RTR_INT_STATUS] → t.reg b = s.reg b := by
  have hdom : s.destDomain d.toNat = e.domain := by simp only [State.destDomain, he]
  refine ⟨_, exec_routeTakesEffect he hw hb hc ho, fun hs hn => ?route, ?src, ?pend, ?done, ?waits, ?delayed, ?memory, fun b hmem => ?reg⟩
  case route => exact hdom ▸ State.routeAt_routeTaken hs hn
  case src => exact (s.rd_routeTaken d.toNat (by decide)).trans (s.rd_routeStored d.toNat _ (by decide) (by decide))
  case pend =>
    have hpend : (s.routeTaken d.toNat).rd (R.RTR_ROUTEd_pend d.toNat) = 0 :=
      (State.rd_wr_other _ 1 (routerEvents_ne_route d.toNat).symm).trans (State.rd_wr_same _ (R.RTR_ROUTEd_pend d.toNat) 0 (Nat.le_refl 32))
    rw [State.is, hpend]
    rfl
  case done => exact State.is_raise _ _ (by decide) (by decide)
  case waits => exact State.shWaits_setShWaits_false _ _
  case delayed =>
    rw [← s.is_routeStored_delayed]
    exact congrArg (· == 1) (s.rd_routeTaken d.toNat (by decide))
  case memory => exact s.routeTaken_sameMemory d.toNat
  case reg =>
    simp only [List.mem_cons, List.not_mem_nil, or_false, not_or] at hmem
    exact s.reg_routeTaken_ne hmem.1 hmem.2

end

/-- The hold ends, and nothing else changes (06 R189). -/
theorem completes_routerHoldRelease (s : State) : Completes .routerHoldRelease s fun t => t.is (bitAt R.RTR_CTRL 0) = false ∧
    t.reply = ⟨[], .okay⟩ ∧ SameMemory s t ∧ ∀ b, b ≠ R.RTR_CTRL → t.reg b = s.reg b := by
  have hrd : (s.wr (bitAt R.RTR_CTRL 0) 0).rd (bitAt R.RTR_CTRL 0) = 0 := s.rd_wr_same _ 0 (by decide)
  refine ⟨_, rfl, ?_, rfl, SameMemory.of_eq rfl rfl, fun b hb => State.reg_wr_ne s 0 hb⟩
  exact congrArg (· == 1) hrd

end Sys2Proof.Machine
end

section
/-!
Hops (06 R187, R190, R192; 01 R34): when a destination group's barge is committed and with which samples, what the retired sources leave as
it was, and a source that is absent at the deadline.
-/
namespace Sys2Proof.Machine

variable {s₀ s t : State}

/-! ## Locks of one kind -/

theorem Tab.mem_set_or {α : Type} [DecidableEq α] {d : Nat → α} {t : List (Nat × α)} {k : Nat} {v : α} {e : Nat × α} (h : e ∈ Tab.set d t k v) :
    e = (k, v) ∨ e ∈ t ∧ e.1 ≠ k := by
  unfold Tab.set at h
  split at h
  · exact .inr (Tab.mem_erase h)
  · exact (Tab.mem_insert h).imp_right Tab.mem_erase

theorem Tab.mem_of_get_ne {α : Type} {d : Nat → α} {t : List (Nat × α)} {k : Nat} (h : Tab.get d t k ≠ d k) : (k, Tab.get d t k) ∈ t := by
  induction t with
  | nil => exact absurd rfl h
  | cons e t ih =>
    obtain ⟨i, v⟩ := e
    by_cases hi : i = k
    · simp [Tab.get, hi]
    · simp only [Tab.get, if_neg hi] at h ⊢
      exact List.mem_cons_of_mem _ (ih h)

theorem State.mem_locksWhere {p : Lock → Bool} {m : Nat} : m ∈ s.locksWhere p ↔ ∃ k, (m, some k) ∈ s.locks ∧ p k = true := by
  unfold State.locksWhere
  rw [List.mem_filterMap]
  constructor
  · rintro ⟨⟨i, o⟩, hmem, heq⟩
    cases o with
    | none => simp at heq
    | some k =>
      obtain ⟨hp, rfl⟩ : p k = true ∧ i = m := by simpa using heq
      exact ⟨k, hmem, hp⟩
  · rintro ⟨k, hmem, hp⟩
    exact ⟨(m, some k), hmem, by simp [hp]⟩

theorem State.mem_locksWhere_of_lock {p : Lock → Bool} {l : Nat} {k : Lock} (h : s.lock l = some k) (hp : p k = true) : l ∈ s.locksWhere p := by
  have hmem := Tab.mem_of_get_ne (d := fun _ => none) (t := s.locks) (k := l) (by rw [← State.lock, h]; exact Option.some_ne_none k)
  rw [← State.lock, h] at hmem
  exact State.mem_locksWhere.2 ⟨k, hmem, hp⟩

/-- A lock that is not of the kind is not among them once it is written, and no other joins them. -/
theorem State.mem_locksWhere_setLock {p : Lock → Bool} {l m : Nat} {k : Lock} (hp : p k = false) (h : m ∈ (s.setLock l k).locksWhere p) :
    m ≠ l ∧ m ∈ s.locksWhere p := by
  obtain ⟨k', hmem, hk'⟩ := State.mem_locksWhere.1 h
  rcases Tab.mem_set_or (show (m, some k') ∈ Tab.set (fun _ => none) s.locks l (some k) from hmem) with heq | ⟨hold, hne⟩
  · obtain ⟨-, rfl⟩ : m = l ∧ k' = k := by simpa using heq
    simp [hp] at hk'
  · exact ⟨hne, State.mem_locksWhere.2 ⟨k', hold, hk'⟩⟩

/-! ## Retired sources (06 R187) -/

/-- Beside the samples the router keeps, only locks of `ls` differ. -/
structure Retired (ls : List Nat) (s t : State) : Prop where
  rest : ({ t with locks := s.locks }).setRouter { t.router with kept := s.router.kept } = s
  lock : ∀ m, m ∉ ls → t.lock m = s.lock m

variable {ls : List Nat}

theorem Retired.refl (ls : List Nat) (s : State) : Retired ls s s := ⟨rfl, fun _ _ => rfl⟩
theorem Retired.regs (h : Retired ls s t) : t.regs = s.regs := (congrArg State.regs h.rest :)
theorem Retired.ssm (h : Retired ls s t) : t.ssm = s.ssm := (congrArg State.ssm h.rest :)
theorem Retired.dram (h : Retired ls s t) : t.dram = s.dram := (congrArg State.dram h.rest :)
theorem Retired.hopNext (h : Retired ls s t) (l : Nat) : t.hopNext l = s.hopNext l := (congrArg (fun s => s.hopNext l) h.rest :)

theorem Retired.setKept (kept : List (Nat × Barge)) (h : Retired ls s₀ s) : Retired ls s₀ (s.setRouter { s.router with kept := kept }) :=
  ⟨h.rest, h.lock⟩

theorem Retired.consume {l : Nat} (hl : l ∈ ls) (x : Nat) (h : Retired ls s₀ s) : Retired ls s₀ (s.consume l x) := by
  have hset (k : Lock) : Retired ls s₀ (s.setLock l k) :=
    ⟨h.rest, fun m hm => (State.lock_setLock_ne _ _ fun heq => hm (by rwa [heq])).trans (h.lock m hm)⟩
  unfold State.consume
  split
  · split
    · exact hset _
    · exact h
  · exact h

theorem Retired.foldl {α : Type} {l : List α} {f : State → α → State} (h : Retired ls s₀ s)
    (k : ∀ t, ∀ x ∈ l, Retired ls s₀ t → Retired ls s₀ (f t x)) : Retired ls s₀ (l.foldl f s) := by
  induction l generalizing s with
  | nil => exact h
  | cons x l ih =>
    exact ih (k _ x (List.mem_cons_self ..) h) fun t y hy => k t y (List.mem_cons_of_mem _ hy)

theorem Retired.retireSource {l : Nat} (hl : l ∈ ls) (h : Retired ls s₀ s) : Retired ls s₀ (s.retireSource l) := by
  unfold State.retireSource
  split
  · exact h
  · refine h.foldl fun t b _ ht => ?_
    split
    · exact ht
    · exact (ht.consume hl b.tick).setKept _

theorem State.retireSources_retired (s : State) : Retired (s.locksWhere fun k => k.spec.consumer = .router) s s.retireSources :=
  (Retired.refl _ s).foldl fun _ _ hl ht => ht.retireSource hl

/-! ## Samples of a destination without a change (06 R187, R190) -/

section
variable {d l b k : Nat} (hn : s.routeChanges d = [])
include hn

theorem State.destReady_unchanged (g k : Nat) : s.destReady g d k = s.sourceReady g (s.baseRoute d) k := by
  simp only [State.destReady, State.routeAt_unchanged hn, Bool.and_true]

theorem State.destSample_unchanged (hd : s.router.dead = []) (g b k j : Nat) :
    s.destSample g b d k j = BitVec.ofInt 24 (s.routeSample g b (s.baseRoute d) k j) := by
  simp [State.destSample, hd, State.routeAt_unchanged hn]

end

theorem State.connected_silence (s : State) (d : Nat) : s.connected d silence = silence := by
  unfold State.connected
  split
  · simp
  · rfl

theorem State.sourceReady_of_no_lock {c : RouteChange} (h : s.srcLock c.source = none) (g k : Nat) : s.sourceReady g c k = true := by
  simp only [State.sourceReady, h]

theorem State.routeSample_of_no_lock {c : RouteChange} (h : s.srcLock c.source = none) (g b k j : Nat) : s.routeSample g b c k j = 0 := by
  simp only [State.routeSample, h]

section
variable {c : RouteChange} {sl i n : Nat} (h : s.srcLock c.source = some (sl, i, n))
include h

theorem State.sourceReady_of_lock (g k : Nat) :
    s.sourceReady g c k = ((s.srcBarge sl (c.reads k)).isSome || s.tookAbsent g sl (c.reads k)) := by
  simp only [State.sourceReady, h]

/-- A source that is present, and was in the tick before, gives its samples. -/
theorem State.routeSample_present {g k : Nat} {bg : Barge} (hb : s.srcBarge sl (c.reads k) = some bg)
    (ht : s.tookAbsent g sl (c.reads k) = false) (hw : c.reads k = 0 ∨ s.wasAbsent sl (c.reads k - 1) = false) (b j : Nat) :
    s.routeSample g b c k j = (bg.word j n i).toInt := by
  have hfade : (s.wasAbsent sl (c.reads k - 1) && decide (0 < c.reads k)) = false := by
    rcases hw with hw | hw
    · simp [hw]
    · simp [hw]
  simp only [State.routeSample, h, ht, hb, hfade, Bool.false_eq_true, if_false]

end

/-- The samples of destination `d` for tick `k`, `b` of them. -/
def State.hopWords (s : State) (l b d k : Nat) : List Sample := (List.range b).map fun j => s.destSample l b d k j

/-- A destination routed to silence gives zeros. -/
theorem State.hopWords_of_no_lock {l b d k : Nat} (hn : s.routeChanges d = []) (hd : s.router.dead = [])
    (h : s.srcLock (s.baseRoute d).source = none) : s.hopWords l b d k = List.replicate b 0 := by
  simp [State.hopWords, State.destSample_unchanged hn hd, State.routeSample_of_no_lock h]

/-- A destination whose source is present, and was in the tick before, gives its samples. -/
theorem State.hopWords_present {l b d k sl i n : Nat} {bg : Barge} (hn : s.routeChanges d = []) (hd : s.router.dead = [])
    (h : s.srcLock (s.baseRoute d).source = some (sl, i, n)) (hb : s.srcBarge sl ((s.baseRoute d).reads k) = some bg)
    (ht : s.tookAbsent l sl ((s.baseRoute d).reads k) = false)
    (hw : (s.baseRoute d).reads k = 0 ∨ s.wasAbsent sl ((s.baseRoute d).reads k - 1) = false) :
    s.hopWords l b d k = (List.range b).map fun j => bg.word j n i := by
  simp only [State.hopWords, State.destSample_unchanged hn hd, State.routeSample_present h hb ht hw, BitVec.ofInt_toInt]

/-! ## The commands (06 R192; 01 R34) -/

theorem State.hopWords_eq (s : State) (l b d k : Nat) :
    ((List.range b).flatMap fun j => [d].map fun d => s.destSample l b d k j) = s.hopWords l b d k := by
  simp only [State.hopWords, List.map_eq_flatMap, List.flatMap_cons, List.flatMap_nil, List.append_nil]

theorem exec_routerHop_waits {l d : Nat} {h : HopSpec} (hhop : s.hop l = some h) (hd : h.dests = [d]) (hr : s.destReady l d (s.hopNext l) = false) :
    exec (.routerHop l []) s = .next s := by
  simp [exec, execRouterHop, hhop, hd, hr]

/-- Group `h` has its barge of tick `k` committed and goes on to the next tick. -/
def State.hopped (s : State) (l k : Nat) (q : Lock) : State :=
  (s.setLock l q).setRouter { s.router with
    next := Tab.set (fun _ => 0) s.router.next l (k + 1),
    absent := s.router.absent.filter fun e => !(e.1 = l ∧ e.2.2 + 2 < k) }

@[simp] theorem State.hopNext_hopped (s : State) (l k : Nat) (q : Lock) : (s.hopped l k q).hopNext l = k + 1 :=
  Tab.get_set_self _ s.router.next l (k + 1)

section
variable {l d : Nat} {h : HopSpec} {q : Lock} (hh : s.halted = false) (hhop : s.hop l = some h) (hl : h.lock = l) (hd : h.dests = [d])
  (hq : s.lock l = some q) (hdue : s.hopNext l < s.tick q.spec.domain) (hc : 0 < q.credit)
include hh hhop hd hq hdue

theorem exec_routerHop_ready (hr : s.destReady l d (s.hopNext l) = true) :
    exec (.routerHop l []) s = .next (s.hopCommit h (s.hopNext l)) := by
  have hdue' : s.hopDue l = true := by simpa [State.hopDue, hq] using hdue
  simp [exec, execRouterHop, hhop, hd, hr, hh, hdue']

include hl hc

theorem exec_routerHop (hr : s.destReady l d (s.hopNext l) = true) : exec (.routerHop l []) s
    = .next (s.hopped l (s.hopNext l) (q.committed ⟨s.hopNext l, s.hopWords l (s.dom q.spec.domain).b d (s.hopNext l)⟩)).retireSources := by
  have hcredit : s.hasCredit l = true := by simp [State.hasCredit, hq, hc]
  rw [exec_routerHop_ready hh hhop hd hq hdue hr]
  subst hl
  simp only [State.hopCommit, hq, hcredit, if_true, hd, State.hopWords_eq, State.commit_of_credit hq hc]
  rfl

/-- A group whose destination is ready commits its samples; beside its lock those that bring sources to the router may differ. -/
theorem completes_routerHop (hr : s.destReady l d (s.hopNext l) = true) (hrouter : q.spec.consumer ≠ .router) :
    Completes (.routerHop l []) s fun t =>
      t.lock l = some (q.committed ⟨s.hopNext l, s.hopWords l (s.dom q.spec.domain).b d (s.hopNext l)⟩) ∧ t.hopNext l = s.hopNext l + 1 ∧
        t.regs = s.regs ∧ (∀ m, m ≠ l → m ∉ s.locksWhere (fun k => k.spec.consumer = .router) → t.lock m = s.lock m) ∧ SameMemory s t := by
  have hret := (s.hopped l (s.hopNext l) (q.committed ⟨s.hopNext l, s.hopWords l (s.dom q.spec.domain).b d (s.hopNext l)⟩)).retireSources_retired
  have hmem (m : Nat) := State.mem_locksWhere_setLock (s := s) (p := fun k => k.spec.consumer = .router) (l := l) (m := m)
    (k := q.committed ⟨s.hopNext l, s.hopWords l (s.dom q.spec.domain).b d (s.hopNext l)⟩) (decide_eq_false hrouter)
  refine ⟨_, exec_routerHop hh hhop hl hd hq hdue hc hr, ?own, ?next, hret.regs, fun m hne hm => ?other, SameMemory.of_eq hret.ssm hret.dram⟩
  case own => exact (hret.lock l fun hin => (hmem l hin).1 rfl).trans (State.lock_setLock_self ..)
  case next => exact (hret.hopNext l).trans (State.hopNext_hopped ..)
  case other => exact (hret.lock m fun hin => hm (hmem m hin).2).trans (State.lock_setLock_ne _ _ hne)

end

section
variable {l d : Nat} {h : HopSpec} {q : Lock} (hh : s.halted = false) (hhop : s.hop l = some h) (hl : h.lock = l) (hd : h.dests = [d])
  (hq : s.lock l = some q) (hdue : s.hopNext l < s.tick q.spec.domain) (hn : s.routeChanges d = [])
include hh hhop hl hd hq hdue hn

/-- The source lock of a destination that is not ready is an overrun at the deadline, and absent in the tick. -/
theorem exec_routerDeadline_absent {sl i n : Nat} (hs : s.srcLock (s.baseRoute d).source = some (sl, i, n))
    (hr : s.sourceReady l (s.baseRoute d) (s.hopNext l) = false) : exec (.routerDeadline l) s
      = .next ((s.setRouter { s.router with absent := s.router.absent ++ [(l, sl, (s.baseRoute d).reads (s.hopNext l))] }).overrun .router false) := by
  have hdue' : s.hopDue l = true := by simpa [State.hopDue, hq] using hdue
  have hlack : s.lacking h (s.hopNext l) = [(l, sl, (s.baseRoute d).reads (s.hopNext l))] := by
    simp [State.lacking, hd, State.routeAt_unchanged hn, hs, hl, hr, List.eraseDups_cons]
  simp [exec, execRouterDeadline, hhop, hh, hdue', hlack]

end

end Sys2Proof.Machine
end

section
open Sys2Proof Sys2Proof.Machine

/-- Settles O33: a write and a take of a route by what each leaves in its entry, a hop by the samples of a route without a change. -/
theorem routerRoutesAndHops : Obligations.RouterRoutesAndHops := by
  unfold Obligations.RouterRoutesAndHops
  refine ⟨fun s d v => ?routes, fun s l h q d hh hhop hl hd hq hdue hc hn hdead => ?hops⟩
  case routes =>
    refine ⟨fun reason hr => ?_, fun hd => State.routeRefusal_unassigned hd, fun e he => State.routeRefusal_silence he,
      fun e f he hs hf hdom => State.routeRefusal_domain he hs hf hdom, completes_routeWrite, fun e he hc => exec_routeTakesEffect_held he hc,
      fun e he hw hb hc ho => completes_routeTakesEffect he hw hb hc ho, completes_routerHoldRelease s⟩
    exact congrArg (fun t : State => Host.Outcome.next (t.answer [])) (State.writeRoute_refused hr)
  case hops =>
    refine ⟨fun hsrc hnone hlocks => ?silence, fun sl i n bg hconn hs _ hb ht hw hrouter => ?present, fun sl i n hconn hs hdel hb ht => ?absent⟩
    case silence =>
      have hbase : s.srcLock (s.baseRoute d).source = none := by
        rw [State.baseRoute, hsrc]
        exact (s.connected_silence d).symm ▸ hnone
      have hrouter : q.spec.consumer ≠ .router := fun hc => by
        have hmem := State.mem_locksWhere_of_lock (p := fun e => e.spec.consumer = .router) hq (decide_eq_true hc)
        simp [hlocks] at hmem
      have hready : s.destReady l d (s.hopNext l) = true := by rw [State.destReady_unchanged hn, State.sourceReady_of_no_lock hbase]
      obtain ⟨t, hexec, hown, hnext, hregs, hother, hmem⟩ := completes_routerHop hh hhop hl hd hq hdue hc hready hrouter
      rw [State.hopWords_of_no_lock hn hdead hbase] at hown
      exact ⟨t, hexec, hown, hnext, hregs, fun m hm => hother m hm (by simp [hlocks]), hmem⟩
    case present =>
      have hbase : s.srcLock (s.baseRoute d).source = some (sl, i, n) := by rwa [State.baseRoute, hconn]
      have hready : s.destReady l d (s.hopNext l) = true := by
        rw [State.destReady_unchanged hn, State.sourceReady_of_lock hbase]
        exact Bool.or_eq_true_iff.2 (.inl (Option.isSome_of_eq_some hb))
      obtain ⟨t, hexec, hown, hnext, hregs, -, hmem⟩ := completes_routerHop hh hhop hl hd hq hdue hc hready hrouter
      rw [State.hopWords_present hn hdead hbase hb ht hw] at hown
      exact ⟨t, hexec, hown, hnext, hregs, hmem⟩
    case absent =>
      have hbase : s.srcLock (s.baseRoute d).source = some (sl, i, n) := by rwa [State.baseRoute, hconn]
      have hreads : (s.baseRoute d).reads (s.hopNext l) = s.hopNext l := by simp [State.baseRoute, RouteChange.reads, hdel]
      have hwaits : s.sourceReady l (s.baseRoute d) (s.hopNext l) = false := by
        rw [State.sourceReady_of_lock hbase, hreads, hb, ht]
        rfl
      refine ⟨exec_routerHop_waits hhop hd ((State.destReady_unchanged hn _ _).trans hwaits), ?_⟩
      rw [exec_routerDeadline_absent hh hhop hl hd hq hdue hn hbase hwaits, hreads]
      rfl

end

section
/-!
A change of FMPn_CTRL while an old output still fades (06 R197; log entry 113): it replaces where the feed goes and leaves its mode.
-/
namespace Sys2Proof.Machine

variable {s : State} {n : Nat}

theorem State.feed_setFeed (s : State) (n : Nat) (f : Feed) : (s.setFeed n f).feed n = f := Tab.get_set_self _ s.feeds n f

theorem State.feeds_shTake (s : State) (a : Nat) : (s.shTake a).feeds = s.feeds := by
  unfold State.shTake
  split
  · rfl
  · rfl

/-- A feed that is on its way to another output keeps its mode under a change of FMPn_CTRL. -/
theorem State.mode_fmpCtrlTakes_moving (h : (s.feed n).moveTo.isSome = true) : ((s.fmpCtrlTakes n).feed n).mode = (s.feed n).mode := by
  have hfeed : (s.shTake (R.FMPn_CTRL n)).feed n = s.feed n := by simp only [State.feed, State.feeds_shTake]
  by_cases hw : s.shWaits (R.FMPn_CTRL n) = true
  · simp only [State.fmpCtrlTakes, hw, Bool.not_true, Bool.false_eq_true, if_false, hfeed, h, if_true, State.feed_setFeed]
  · simp only [State.fmpCtrlTakes, hw, Bool.not_false, if_true]

/-- Feed 0 is put on output 0 in mode replace and moved to output 1; while output 0 still fades, software writes it back to output 0. -/
def feedWrittenBack : State :=
  let assigned : State := { State.reset with router := { dests := [⟨0, 1, 0, 1, 0⟩, ⟨1, 1, 0, 1, 1⟩] } }
  ((((assigned.fmpWriteCtrl 0 0x01).fmpCtrlTakes 0).fmpWriteCtrl 0 0x11).fmpCtrlTakes 0).fmpWriteCtrl 0 0x01

theorem feedWrittenBack_pends : feedWrittenBack.shWaits (R.FMPn_CTRL 0) = true ∧ feedWrittenBack.layered (R.FMPn_CTRL 0) = 1 := by decide +kernel

theorem feedWrittenBack_moving : feedWrittenBack.feed 0 = { fadeFrom := some (1, 0), moveTo := some (1, false, 1) } := by decide +kernel

end Sys2Proof.Machine
end

section
open Sys2Proof Sys2Proof.Machine

/-- Refutes O34: the clause of the crossfade lets the feed's old output still fade, and then the new mode waits for the output's move
(06 R197, log entry 113): `feedWrittenBack` pends mode 1 with its output unchanged, and stays in mode 0 at the boundary. -/
theorem not_monitorFeeds : ¬ Obligations.MonitorFeeds := by
  unfold Obligations.MonitorFeeds
  intro h
  let n : Fin 64 := 0
  have hwaits : feedWrittenBack.shWaits (R.FMPn_CTRL n) = true := feedWrittenBack_pends.1
  have hlayered : feedWrittenBack.layered (R.FMPn_CTRL n) = 1 := feedWrittenBack_pends.2
  have hfeed : feedWrittenBack.feed n = { fadeFrom := some (1, 0), moveTo := some (1, false, 1) } := feedWrittenBack_moving
  obtain ⟨-, -, -, hcross, -⟩ := h feedWrittenBack n 0 0
  rw [hlayered, hfeed] at hcross
  obtain ⟨t, hexec, hmode, -⟩ := hcross hwaits rfl rfl rfl rfl
  injection hexec with ht
  have hkept : (t.feed n).mode = 0 := by
    rw [← ht, State.mode_fmpCtrlTakes_moving (by rw [hfeed]; rfl), hfeed]
  rw [hkept] at hmode
  exact absurd hmode (by decide)

end

section
/-!
Rate bridges (07 R202, R206 to R209): what a measurement and an unlock of a pair leave alone, the words of an acquiring pair, and each state a pair
moves to.
-/
namespace Sys2Proof.Machine

variable {s t u : State} {p group : Nat} {g : BridgeSpec} {k : Lock}

theorem State.dom_congr (h : t.doms = s.doms) (x : Nat) : t.dom x = s.dom x := by simp only [State.dom, h]

theorem State.tick_congr (h : t.doms = s.doms) (x : Nat) : t.tick x = s.tick x := by simp only [State.tick, State.dom_congr h]

/-! ## Groups and pairs -/

theorem State.brun_setBrun_self (s : State) (group : Nat) (r : BridgeGroup) : (s.setBrun group r).brun group = r := Tab.get_set_self ..

theorem State.bpair_setBpair_self (s : State) (p : Nat) (r : BridgePair) : (s.setBpair p r).bpair p = r := Tab.get_set_self ..

/-! ## The registers of a pair (07 R222) -/

section
variable (s : State) (p : Nat)

/-- The state of a pair through a write of another register than its status. -/
theorem State.pairState_setReg {a : Nat} (v : Word) (h : a % 0x20 ≠ 8) : (s.setReg a v).rd (pairState p) = s.rd (pairState p) :=
  State.rd_setReg_other s v (by simp only [pairState, R.BRG_PAIRp_STATUS]; omega)

@[simp] theorem State.pairState_setReg_dev (v : Word) : (s.setReg (R.BRG_PAIRp_DEV p) v).rd (pairState p) = s.rd (pairState p) :=
  s.pairState_setReg p v (by simp only [R.BRG_PAIRp_DEV]; omega)

@[simp] theorem State.pairState_setReg_phase (v : Word) : (s.setReg (R.BRG_PAIRp_PHASE p) v).rd (pairState p) = s.rd (pairState p) :=
  s.pairState_setReg p v (by simp only [R.BRG_PAIRp_PHASE]; omega)

@[simp] theorem State.pairState_hw_sync (v : Nat) : (s.hw (R.BRG_PAIRp_CTRL_sync p) v).rd (pairState p) = s.rd (pairState p) :=
  s.pairState_setReg p _ (by simp only [R.BRG_PAIRp_CTRL_sync, R.BRG_PAIRp_CTRL]; omega)

@[simp] theorem State.pairState_raise_event (q j : Nat) : (s.raise (pairEvent q j)).rd (pairState p) = s.rd (pairState p) :=
  s.pairState_setReg p _ (by simp only [pairEvent, bitAt, R.BRG_INT_STATUS]; omega)

@[simp] theorem State.pairState_setBpair (q : Nat) (r : BridgePair) : (s.setBpair q r).rd (pairState p) = s.rd (pairState p) := rfl

theorem State.pairState_wr_self {v : Nat} (h : v < 2 ^ 3) : (s.wr (pairState p) v).rd (pairState p) = v :=
  (s.rd_wr_same _ v (by decide : (0 : Nat) + 3 ≤ 32)).trans (Nat.mod_eq_of_lt h)

@[simp] theorem State.pairState_highest_phmax (v : Nat) :
    (s.highest ⟨R.BRG_PAIRp_PHMAX p, 0, 16⟩ v).rd (pairState p) = s.rd (pairState p) := by
  unfold State.highest
  split
  · exact s.pairState_setReg p _ (by simp only [R.BRG_PAIRp_PHMAX]; omega)
  · rfl

/-- The request for synchronous operation through a write of another register than a pair's control register. -/
theorem State.sync_setReg {a : Nat} (v : Word) (h : a ≠ R.BRG_PAIRp_CTRL p) :
    (s.setReg a v).is (R.BRG_PAIRp_CTRL_sync p) = s.is (R.BRG_PAIRp_CTRL_sync p) := by
  simp only [State.is, State.rd_setReg_other (f := R.BRG_PAIRp_CTRL_sync p) s v h.symm]

@[simp] theorem State.sync_setReg_dev (v : Word) : (s.setReg (R.BRG_PAIRp_DEV p) v).is (R.BRG_PAIRp_CTRL_sync p) = s.is (R.BRG_PAIRp_CTRL_sync p) :=
  s.sync_setReg p v (by simp only [R.BRG_PAIRp_DEV, R.BRG_PAIRp_CTRL]; omega)

@[simp] theorem State.sync_setReg_phase (v : Word) :
    (s.setReg (R.BRG_PAIRp_PHASE p) v).is (R.BRG_PAIRp_CTRL_sync p) = s.is (R.BRG_PAIRp_CTRL_sync p) :=
  s.sync_setReg p v (by simp only [R.BRG_PAIRp_PHASE, R.BRG_PAIRp_CTRL]; omega)

@[simp] theorem State.sync_wr_pairState (v : Nat) : (s.wr (pairState p) v).is (R.BRG_PAIRp_CTRL_sync p) = s.is (R.BRG_PAIRp_CTRL_sync p) :=
  s.sync_setReg p _ (by simp only [pairState, R.BRG_PAIRp_STATUS, R.BRG_PAIRp_CTRL]; omega)

@[simp] theorem State.sync_raise_event (q j : Nat) : (s.raise (pairEvent q j)).is (R.BRG_PAIRp_CTRL_sync p) = s.is (R.BRG_PAIRp_CTRL_sync p) :=
  s.sync_setReg p _ (by simp only [pairEvent, bitAt, R.BRG_INT_STATUS, R.BRG_PAIRp_CTRL]; omega)

theorem State.sync_hw_self (v : Nat) : (s.hw (R.BRG_PAIRp_CTRL_sync p) v).is (R.BRG_PAIRp_CTRL_sync p) = (v % 2 == 1) :=
  congrArg (· == 1) (s.rd_wr_same (R.BRG_PAIRp_CTRL_sync p) v (by decide : (4 : Nat) + 1 ≤ 32))

@[simp] theorem State.commonSource_hw_sync (v x y : Nat) : (s.hw (R.BRG_PAIRp_CTRL_sync p) v).commonSource x y = s.commonSource x y := by
  have hrd : (s.hw (R.BRG_PAIRp_CTRL_sync p) v).rd R.CLK_STATUS_common = s.rd R.CLK_STATUS_common :=
    State.rd_congr (State.reg_hw_ne s v (by simp only [R.CLK_STATUS_common, R.CLK_STATUS, R.BRG_PAIRp_CTRL_sync, R.BRG_PAIRp_CTRL]; omega))
  simp only [State.commonSource, hrd]

end

theorem pairEvent_raised (s : State) (p : Fin 6) {j : Nat} (hj : j < 4) : (s.raise (pairEvent p j)).is (pairEvent p j) = true :=
  s.is_raise _ (by simp only [pairEvent, bitAt]; omega) Nat.one_pos

/-! ## What a measurement and an unlock leave alone -/

/-- The locks, the domains, the run state of the groups and the memories are in `t` as in `s`. -/
structure GroupsKept (s t : State) : Prop where
  locks : t.locks = s.locks
  doms : t.doms = s.doms
  runs : t.flc.runs = s.flc.runs
  ssm : t.ssm = s.ssm
  dram : t.dram = s.dram

theorem GroupsKept.refl (s : State) : GroupsKept s s := ⟨rfl, rfl, rfl, rfl, rfl⟩

theorem GroupsKept.trans (h : GroupsKept s t) (h' : GroupsKept t u) : GroupsKept s u :=
  ⟨h'.locks.trans h.locks, h'.doms.trans h.doms, h'.runs.trans h.runs, h'.ssm.trans h.ssm, h'.dram.trans h.dram⟩

theorem GroupsKept.ite {c : Prop} [Decidable c] (h : GroupsKept u s) (h' : GroupsKept u t) : GroupsKept u (if c then s else t) := by
  split <;> assumption

theorem GroupsKept.sameMemory (h : GroupsKept s t) : SameMemory s t := SameMemory.of_eq h.ssm h.dram

theorem GroupsKept.brun (h : GroupsKept s t) (group : Nat) : t.brun group = s.brun group := by simp only [State.brun, h.runs]

section
variable (h : GroupsKept u s)
include h

theorem GroupsKept.setReg (a : Nat) (v : Word) : GroupsKept u (s.setReg a v) := h.trans ⟨rfl, rfl, rfl, rfl, rfl⟩

theorem GroupsKept.wr (f : FieldAt) (v : Nat) : GroupsKept u (s.wr f v) := h.setReg _ _

theorem GroupsKept.raise (f : FieldAt) : GroupsKept u (s.raise f) := h.setReg _ _

theorem GroupsKept.hw (f : FieldAt) (v : Nat) : GroupsKept u (s.hw f v) := h.trans ⟨rfl, rfl, rfl, rfl, rfl⟩

theorem GroupsKept.setBpair (p : Nat) (r : BridgePair) : GroupsKept u (s.setBpair p r) := h.trans ⟨rfl, rfl, rfl, rfl, rfl⟩

theorem GroupsKept.highest (f : FieldAt) (v : Nat) : GroupsKept u (s.highest f v) := (h.wr f _).ite h

theorem GroupsKept.report (source code level : Nat) : GroupsKept u (s.report source code level) := by
  have ha : Aside s (s.report source code level) := State.report_aside _ _ _ (Aside.refl s)
  exact h.trans ⟨ha.locks, ha.doms, congrArg Filters.runs ha.flc, ha.ssm, ha.dram⟩

theorem GroupsKept.trackPair (p : Nat) (dev : BitVec 32) (phase : BitVec 16) : GroupsKept u (s.trackPair p dev phase) :=
  h.ite (GroupsKept.ite ((((h.setReg _ _).setReg _ _).setBpair p _).highest _ _) (((h.setReg _ _).setReg _ _).setBpair p _))

theorem GroupsKept.unlockPair (p : Nat) : GroupsKept u (s.unlockPair p) :=
  GroupsKept.ite (((((h.hw _ 0).wr _ 4).setBpair p _).raise _).report _ _ _) h

theorem GroupsKept.measurePair (p n : Nat) (dev : BitVec 32) (phase : BitVec 16) : GroupsKept u (s.measurePair p n dev phase) := by
  have htracked := (h.setBpair p { s.bpair p with seen := some n }).trackPair p dev phase
  exact h.ite ((htracked.unlockPair p).ite htracked)

theorem GroupsKept.pairFades (p n : Nat) : GroupsKept u (s.pairFades p n) := by
  unfold State.pairFades
  split
  · exact (h.wr _ 1).ite h
  · exact h

end

/-! ## A measurement (07 R207, R208) -/

/-- A measurement leaves the pair's state. -/
@[simp] theorem State.pairState_trackPair (s : State) (p : Nat) (dev : BitVec 32) (phase : BitVec 16) :
    (s.trackPair p dev phase).rd (pairState p) = s.rd (pairState p) := by
  unfold State.trackPair
  split
  · rfl
  · extract_lets phase s₁ r s₂
    have h₂ : s₂.rd (pairState p) = s.rd (pairState p) := by simp [s₂, s₁]
    split
    · rw [State.pairState_highest_phmax, h₂]
    · exact h₂

/-- An acquiring pair takes the measurement as it is. -/
theorem State.trackPair_acquiring (h : s.rd (pairState p) = 1) (dev : BitVec 32) (phase : BitVec 16) :
    s.trackPair p dev phase = ((s.setReg (R.BRG_PAIRp_DEV p) dev).setReg (R.BRG_PAIRp_PHASE p) (phase.setWidth 32)).setBpair p
      { s.bpair p with good := if phase.toInt.natAbs ≤ 8 then (s.bpair p).good + 1 else 0 } := by
  have hphase : s.pairPhase p dev phase = phase := by simp [State.pairPhase, h]
  simp only [State.trackPair, h, hphase, State.pairState_setBpair, State.pairState_setReg_dev, State.pairState_setReg_phase]
  rfl

/-- A pair that acquires goes on acquiring through a tick's measurement. -/
theorem State.pairState_measurePair_acquiring (h : s.rd (pairState p) = 1) (n : Nat) (dev : BitVec 32) (phase : BitVec 16) :
    (s.measurePair p n dev phase).rd (pairState p) = 1 := by
  have htracked : ((s.setBpair p { s.bpair p with seen := some n }).trackPair p dev phase).rd (pairState p) = 1 := by
    rw [State.pairState_trackPair, State.pairState_setBpair, h]
  simp only [State.measurePair, htracked]
  split
  · exact h
  · exact htracked

theorem State.measurePair_acquiring_regs (h : s.rd (pairState p) = 1) {n : Nat} (hn : (s.bpair p).seen ≠ some n) (dev : BitVec 32)
    (phase : BitVec 16) : (s.measurePair p n dev phase).regs
      = ((s.setReg (R.BRG_PAIRp_DEV p) dev).setReg (R.BRG_PAIRp_PHASE p) (phase.setWidth 32)).regs := by
  have hseen : (s.setBpair p { s.bpair p with seen := some n }).rd (pairState p) = 1 := h
  have htracked := State.trackPair_acquiring hseen dev phase
  have hstate : ((s.setBpair p { s.bpair p with seen := some n }).trackPair p dev phase).rd (pairState p) ≠ 2 := by
    rw [State.pairState_trackPair, hseen]; decide
  rw [State.measurePair, if_neg hn, if_neg (fun hc => hstate hc.1), htracked]
  rfl

/-- What deviation and phase error read once they have been written. -/
theorem State.tracker_setReg (s : State) (p : Nat) (v w : Word) :
    ((s.setReg (R.BRG_PAIRp_DEV p) v).setReg (R.BRG_PAIRp_PHASE p) w).reg (R.BRG_PAIRp_DEV p) = v ∧
      ((s.setReg (R.BRG_PAIRp_DEV p) v).setReg (R.BRG_PAIRp_PHASE p) w).reg (R.BRG_PAIRp_PHASE p) = w := by
  have hne : R.BRG_PAIRp_DEV p ≠ R.BRG_PAIRp_PHASE p := by simp only [R.BRG_PAIRp_DEV, R.BRG_PAIRp_PHASE]; omega
  refine ⟨?_, State.reg_setReg_self ..⟩
  rw [State.reg_setReg_ne _ _ hne, State.reg_setReg_self]

/-- The state an output barge of tick `n` is formed in: the tick's measurement is taken, and a fade-out that is complete has ended. -/
def State.pairMeasured (s : State) (p n : Nat) (dev : BitVec 32) (phase : BitVec 16) : State := (s.measurePair p n dev phase).pairFades p n

theorem GroupsKept.pairMeasured (h : GroupsKept u s) (p n : Nat) (dev : BitVec 32) (phase : BitVec 16) :
    GroupsKept u (s.pairMeasured p n dev phase) := (h.measurePair p n dev phase).pairFades p n

/-- No fade-out runs while a pair acquires. -/
theorem State.pairMeasured_acquiring (h : s.rd (pairState p) = 1) (n : Nat) (dev : BitVec 32) (phase : BitVec 16) :
    s.pairMeasured p n dev phase = s.measurePair p n dev phase := by
  have hstate := State.pairState_measurePair_acquiring h n dev phase
  unfold State.pairMeasured State.pairFades
  split
  · exact if_neg fun hc => absurd (hstate.symm.trans hc.1) (by decide)
  · rfl

/-! ## Input and output of a group (07 R206) -/

theorem length_bridgeWords (s : State) (g : BridgeSpec) (r : BridgeGroup) (n b : Nat) (q : Rat) : (bridgeWords s g r n b q).length = b * n := by
  simp [bridgeWords]

/-- The outputs of a pair that acquires carry zero (07 R208). -/
theorem bridgeWords_acquiring (h : s.rd (pairState g.pair) = 1) (r : BridgeGroup) (n b : Nat) (q : Rat) :
    bridgeWords s g r n b q = List.replicate (b * n) 0 := by
  have hweight (j : Nat) : s.pairWeight g.pair r.nextOut j = 0 := by simp [State.pairWeight, h]
  refine List.eq_replicate_iff.2 ⟨length_bridgeWords .., fun w hw => ?_⟩
  simp only [bridgeWords, hweight, List.mem_flatMap, List.mem_map] at hw
  obtain ⟨j, -, c, -, rfl⟩ := hw
  simp [roundConv]

/-- The barge a group's output side commits for its next tick. -/
def State.bridgeBarge (s : State) (group : Nat) (g : BridgeSpec) (k : Lock) (dev : BitVec 32) (phase : BitVec 16) (instant : BitVec 64) : Barge :=
  let n := (s.brun group).nextOut
  let u := s.pairMeasured g.pair n dev phase
  ⟨n, bridgeWords u g (s.brun group) k.spec.channels.length (s.dom (pairOut g.pair)).b (u.pairInstant g.pair n instant)⟩

theorem State.length_bridgeBarge (s : State) (group : Nat) (g : BridgeSpec) (k : Lock) (dev : BitVec 32) (phase : BitVec 16) (instant : BitVec 64) :
    (s.bridgeBarge group g k dev phase instant).words.length = (s.dom (pairOut g.pair)).b * k.spec.channels.length := length_bridgeWords ..

theorem State.bridgeBarge_acquiring (h : s.rd (pairState g.pair) = 1) (group : Nat) (k : Lock) (dev : BitVec 32) (phase : BitVec 16)
    (instant : BitVec 64) : s.bridgeBarge group g k dev phase instant
      = ⟨(s.brun group).nextOut, List.replicate ((s.dom (pairOut g.pair)).b * k.spec.channels.length) 0⟩ := by
  have hstate : (s.pairMeasured g.pair (s.brun group).nextOut dev phase).rd (pairState g.pair) = 1 := by
    rw [State.pairMeasured_acquiring h, State.pairState_measurePair_acquiring h]
  rw [State.bridgeBarge, bridgeWords_acquiring hstate]

section
variable (hh : s.halted = false) (hg : s.flc.groups[group]? = some g)
include hh hg

section
variable (hk : s.lock g.input = some k) (hdue : (s.brun group).nextIn < s.tick (pairIn g.pair))
include hk hdue

theorem exec_bridgeInputTake_present {b : Barge} (hb : s.awaits g.input (s.brun group).nextIn = some b) : exec (.bridgeInputTake group []) s
    = .next ((s.consume g.input (s.brun group).nextIn).setBrun group { s.brun group with
        nextIn := (s.brun group).nextIn + 1
        history := (b.words :: (s.brun group).history).take (historyLength / max 1 (s.dom (pairIn g.pair)).b + 1) }) := by
  have hdoms := ((LocksOnly.refl s).consume g.input (s.brun group).nextIn).doms
  simp [exec, execBridgeInputTake, hg, hk, hh, Nat.not_le.2 hdue, hb, State.dom_congr hdoms]

theorem exec_bridgeInputTake_absent (hb : s.awaits g.input (s.brun group).nextIn = none) : exec (.bridgeInputTake group []) s
    = .next (((s.setLock g.input (k.without (s.brun group).nextIn)).overrun (.bridge g.pair) false).setBrun group { s.brun group with
        nextIn := (s.brun group).nextIn + 1
        history := (List.replicate (s.bargeWords k) 0 :: (s.brun group).history).take
          (historyLength / max 1 (s.dom (pairIn g.pair)).b + 1) }) := by
  have hdoms : ((s.setLock g.input (k.without (s.brun group).nextIn)).overrun (.bridge g.pair) false).doms = s.doms :=
    (State.report_aside _ _ _ (State.bump_aside _ _ (State.raise_aside _ (Aside.refl _)))).doms
  simp only [Lock.without] at hdoms
  simp [exec, execBridgeInputTake, hg, hk, hh, Nat.not_le.2 hdue, hb, State.dom_congr hdoms, Lock.without]

end

/-- A group's output with credit: its barge is committed after the measurement of its pair. -/
theorem exec_bridgeOutputCommit (hk : s.lock g.output = some k) (hc : 0 < k.credit) (hdue : (s.brun group).nextOut < s.tick (pairOut g.pair))
    (dev : BitVec 32) (phase : BitVec 16) (instant : BitVec 64) :
    ∃ v, GroupsKept s v ∧ v.regs = (s.pairMeasured g.pair (s.brun group).nextOut dev phase).regs ∧
      exec (.bridgeOutputCommit group dev phase instant) s = .next ((v.setLock g.output
        (k.committed (s.bridgeBarge group g k dev phase instant))).setBrun group { s.brun group with nextOut := (s.brun group).nextOut + 1 }) := by
  have hmeasured : GroupsKept s (s.pairMeasured g.pair (s.brun group).nextOut dev phase) := (GroupsKept.refl s).pairMeasured ..
  let u := s.pairMeasured g.pair (s.brun group).nextOut dev phase
  let v := u.setBpair g.pair
    { u.bpair g.pair with base := some ((s.brun group).nextOut, u.pairInstant g.pair (s.brun group).nextOut instant) }
  have hkept : GroupsKept s v := hmeasured.setBpair _ _
  have hlock : v.lock g.output = some k := (State.lock_congr hkept.locks g.output).trans hk
  have hcredit : v.hasCredit g.output = true := by simp [State.hasCredit, hlock, hc]
  have hdom : u.dom (pairOut g.pair) = s.dom (pairOut g.pair) := State.dom_congr hmeasured.doms _
  have hdue' : ¬(s.halted = true ∨ s.tick (pairOut g.pair) ≤ (s.brun group).nextOut) := by simp [hh, hdue]
  have hrun (m : Lock) : (v.setLock g.output m).brun group = s.brun group := hkept.brun group
  refine ⟨v, hkept, rfl, ?_⟩
  simp only [exec, execBridgeOutputCommit, hg, hk]
  rw [if_neg hdue', ← State.pairMeasured, if_pos hcredit, State.commit_of_credit hlock hc, hdom, hrun]
  rfl

theorem completes_bridgeOutputCommit (hk : s.lock g.output = some k) (hc : 0 < k.credit) (hdue : (s.brun group).nextOut < s.tick (pairOut g.pair))
    (dev : BitVec 32) (phase : BitVec 16) (instant : BitVec 64) :
    Completes (.bridgeOutputCommit group dev phase instant) s fun t =>
      (t.brun group).nextOut = (s.brun group).nextOut + 1 ∧ (∀ l, l ≠ g.output → t.lock l = s.lock l) ∧ SameMemory s t ∧
      t.lock g.output = some (k.committed (s.bridgeBarge group g k dev phase instant)) ∧
      t.regs = (s.pairMeasured g.pair (s.brun group).nextOut dev phase).regs := by
  obtain ⟨v, hkept, hregs, hexec⟩ := exec_bridgeOutputCommit hh hg hk hc hdue dev phase instant
  refine ⟨_, hexec, ?next, fun l hl => ?other, SameMemory.of_eq hkept.ssm hkept.dram, State.lock_setLock_self .., hregs⟩
  case next => rw [State.brun_setBrun_self]
  case other => exact (State.lock_setLock_ne v _ hl).trans (State.lock_congr hkept.locks l)

end

/-! ## The states of a pair (07 R208, R209) -/

theorem State.unlockPair_locked (h : s.rd (pairState p) = 2 ∨ s.rd (pairState p) = 3) : s.unlockPair p
    = (((((s.hw (R.BRG_PAIRp_CTRL_sync p) 0).wr (pairState p) 4).setBpair p
        { s.bpair p with outAt := some (s.tick (pairOut p) + 1), good := 0, base := none }).raise (pairEvent p 1)).report 23 (4 * p + 1) 1) :=
  if_pos h

theorem State.unlockPair_unlocked (h : s.rd (pairState p) < 2) : s.unlockPair p = s := if_neg (by omega)

section
variable {p : Fin 6} {phase : BitVec 16}

/-- The pair once it has locked, the measurement taken. -/
def State.lockedPair (s : State) (p : Nat) (dev : BitVec 32) (phase : BitVec 16) : State :=
  let u := (s.wr (pairState p) 2).trackPair p dev phase
  (u.setBpair p { u.bpair p with outAt := none, inAt := some (u.tick (pairOut p)) }).raise (pairEvent p 0)

theorem GroupsKept.lockedPair (s : State) (p : Nat) (dev : BitVec 32) (phase : BitVec 16) : GroupsKept s (s.lockedPair p dev phase) :=
  ((((GroupsKept.refl s).wr _ 2).trackPair p dev phase).setBpair _ _).raise _

theorem State.bpair_lockedPair (s : State) (p : Nat) (dev : BitVec 32) (phase : BitVec 16) :
    ((s.lockedPair p dev phase).bpair p).outAt = none ∧ ((s.lockedPair p dev phase).bpair p).inAt = some (s.tick (pairOut p)) := by
  have htick := State.tick_congr (((GroupsKept.refl s).wr (pairState p) 2).trackPair p dev phase).doms (pairOut p)
  have hpair : (s.lockedPair p dev phase).bpair p = { ((s.wr (pairState p) 2).trackPair p dev phase).bpair p with
      outAt := none, inAt := some (((s.wr (pairState p) 2).trackPair p dev phase).tick (pairOut p)) } := State.bpair_setBpair_self ..
  rw [hpair, htick]
  exact ⟨rfl, rfl⟩

theorem completes_bridgeLock (hs : s.rd (pairState p) = 1) (hb : s.atBoundary (pairOut p) = true) (hphase : phase.toInt.natAbs ≤ 8)
    (hgood : 16 ≤ (s.bpair p).good) (dev : BitVec 32) : Completes (.bridgeLock p dev phase) s fun t =>
      t.rd (pairState p) = 2 ∧ (t.bpair p).outAt = none ∧ (t.bpair p).inAt = some (s.tick (pairOut p)) ∧ t.is (pairEvent p 0) = true ∧
        t.locks = s.locks ∧ SameMemory s t := by
  have hexec : exec (.bridgeLock p dev phase) s = .next (s.lockedPair p dev phase) :=
    congrArg Host.Outcome.next (if_pos ⟨hs, hb, hphase, hgood⟩)
  have hkept := GroupsKept.lockedPair s p dev phase
  obtain ⟨hout, hin⟩ := s.bpair_lockedPair p dev phase
  refine ⟨_, hexec, ?_, hout, hin, pairEvent_raised _ p (by decide), hkept.locks, hkept.sameMemory⟩
  rw [State.lockedPair, State.pairState_raise_event, State.pairState_setBpair, State.pairState_trackPair, State.pairState_wr_self _ _ (by decide)]

theorem completes_bridgeSyncRequest (hs : s.rd (pairState p) = 2) (hb : s.atBoundary (pairOut p) = true) (hphase : phase.toInt.natAbs ≤ 8)
    (hcommon : s.commonSource (pairIn p) (pairOut p) = true) : Completes (.bridgeSyncRequest p phase) s fun t =>
      t.rd (pairState p) = 3 ∧ t.is (R.BRG_PAIRp_CTRL_sync p) = true ∧ t.reg (R.BRG_PAIRp_DEV p) = 0 ∧ t.reg (R.BRG_PAIRp_PHASE p) = 0 ∧
        t.locks = s.locks ∧ SameMemory s t := by
  have hb' : (s.hw (R.BRG_PAIRp_CTRL_sync p) 1).atBoundary (pairOut p) = true := hb
  have hexec : exec (.bridgeSyncRequest p phase) s
      = .next ((((s.hw (R.BRG_PAIRp_CTRL_sync p) 1).wr (pairState p) 3).setReg (R.BRG_PAIRp_DEV p) 0).setReg (R.BRG_PAIRp_PHASE p) 0) := by
    simp [exec, execBridgeSyncRequest, hs, hb', hphase, hcommon]
  have hkept := ((((GroupsKept.refl s).hw (R.BRG_PAIRp_CTRL_sync p) 1).wr (pairState p) 3).setReg (R.BRG_PAIRp_DEV p) 0).setReg
    (R.BRG_PAIRp_PHASE p) 0
  obtain ⟨hdev, herror⟩ := State.tracker_setReg ((s.hw (R.BRG_PAIRp_CTRL_sync p) 1).wr (pairState p) 3) p 0 0
  refine ⟨_, hexec, ?state, ?sync, hdev, herror, hkept.locks, hkept.sameMemory⟩
  case state => simp [State.pairState_wr_self]
  case sync => simp [State.sync_hw_self]

theorem completes_bridgeSyncRequest_refused (hs : s.rd (pairState p) ≠ 3) (hb : s.atBoundary (pairOut p) = true)
    (hfree : 8 < phase.toInt.natAbs ∨ s.rd (pairState p) ≠ 2 ∨ s.commonSource (pairIn p) (pairOut p) = false) :
    Completes (.bridgeSyncRequest p phase) s fun t => t.rd (pairState p) = s.rd (pairState p) ∧ t.is (R.BRG_PAIRp_CTRL_sync p) = false ∧
      t.is (pairEvent p 3) = true ∧ SameMemory s t := by
  have hb' : (s.hw (R.BRG_PAIRp_CTRL_sync p) 1).atBoundary (pairOut p) = true := hb
  have hnot : ¬(s.rd (pairState p) = 2 ∧ phase.toInt.natAbs ≤ 8 ∧ s.commonSource (pairIn p) (pairOut p) = true) := by
    rintro ⟨hlocked, hphase, hcommon⟩
    rcases hfree with h | h | h
    · omega
    · exact h hlocked
    · exact absurd (h.symm.trans hcommon) (by decide)
  have hexec : exec (.bridgeSyncRequest p phase) s
      = .next (((s.hw (R.BRG_PAIRp_CTRL_sync p) 1).hw (R.BRG_PAIRp_CTRL_sync p) 0).raise (pairEvent p 3)) := by
    simp only [exec, execBridgeSyncRequest, State.pairState_hw_sync, State.commonSource_hw_sync, if_neg hnot]
    rw [if_neg (by simp [hs, hb'])]
  have hkept := (((GroupsKept.refl s).hw (R.BRG_PAIRp_CTRL_sync p) 1).hw (R.BRG_PAIRp_CTRL_sync p) 0).raise (pairEvent p 3)
  refine ⟨_, hexec, ?state, ?sync, pairEvent_raised _ p (by decide), hkept.sameMemory⟩
  case state => simp
  case sync => simp [State.sync_hw_self]

theorem completes_bridgeSyncLost (hs : s.rd (pairState p) = 3) (hb : s.atBoundary (pairOut p) = true)
    (hcommon : s.commonSource (pairIn p) (pairOut p) = false) : Completes (.bridgeSyncLost p) s fun t =>
      t.rd (pairState p) = 2 ∧ t.is (R.BRG_PAIRp_CTRL_sync p) = false ∧ t.is (pairEvent p 2) = true ∧ t.locks = s.locks ∧ SameMemory s t := by
  have hexec : exec (.bridgeSyncLost p) s
      = .next (((s.wr (pairState p) 2).hw (R.BRG_PAIRp_CTRL_sync p) 0).raise (pairEvent p 2)) :=
    congrArg Host.Outcome.next (if_pos ⟨hs, hb, hcommon⟩)
  have hkept := (((GroupsKept.refl s).wr (pairState p) 2).hw (R.BRG_PAIRp_CTRL_sync p) 0).raise (pairEvent p 2)
  refine ⟨_, hexec, ?state, ?sync, pairEvent_raised _ p (by decide), hkept.locks, hkept.sameMemory⟩
  case state => simp [State.pairState_wr_self]
  case sync => simp [State.sync_hw_self]

end

end Sys2Proof.Machine
end

section
open Sys2Proof Sys2Proof.Machine

/-- Settles O35: an input and an output of a group by what a report and a measurement leave alone (`Aside`, `GroupsKept`), a move of a pair by
what its registers read. -/
theorem rateBridges : Obligations.RateBridges := by
  unfold Obligations.RateBridges
  intro s group g p dev phase instant
  refine ⟨fun b k hh hg hk hdue => ⟨exec_bridgeInputTake_present hh hg hk hdue, exec_bridgeInputTake_absent hh hg hk hdue⟩,
    fun k hh hg hk hc hdue => ?output, fun hs hb hp hgood => completes_bridgeLock hs hb hp hgood dev, fun _ hgood => ?early,
    fun hs => ⟨?unlock, congrArg Host.Outcome.next (State.unlockPair_locked hs)⟩,
    fun hs => congrArg Host.Outcome.next (State.unlockPair_unlocked hs), completes_bridgeSyncRequest, completes_bridgeSyncRequest_refused,
    completes_bridgeSyncLost⟩
  case output =>
    obtain ⟨t, hexec, hnext, hother, hmem, hlock, hregs⟩ := completes_bridgeOutputCommit hh hg hk hc hdue dev phase instant
    refine ⟨t, hexec, hnext, hother, hmem, ⟨_, hlock, rfl, ?_, ?_⟩, fun hs => ⟨?_, fun hseen => ?_⟩⟩
    · exact List.dropLast_concat
    · rw [Lock.committed, List.getLast?_concat, Option.map_some, State.length_bridgeBarge]
      rfl
    · rw [hlock, State.bridgeBarge_acquiring hs]
      rfl
    · rw [State.pairMeasured_acquiring hs] at hregs
      simp only [State.reg, hregs, State.measurePair_acquiring_regs hs hseen]
      exact s.tracker_setReg g.pair dev (phase.setWidth 32)
  case early => exact congrArg Host.Outcome.next (if_neg fun ⟨_, _, _, hgood'⟩ => absurd hgood' (by omega))
  case unlock => exact congrArg Host.Outcome.next (State.unlockPair_locked (by rwa [State.pairState_trackPair]))

end

section
/-!
A slave group that loses its BCLK where its source's scope names its own outputs (08 R241, R244; 19 R485, R500): the unlock reported at level 2
puts the outputs into the safe state in the same command.
-/
namespace Sys2Proof.Machine

/-- After first audio, TDM group 1 is a locked slave of domain A, and FLT_SCOPE67 names the TDM and AMP outputs of domain A, as in chapter 19's
example. -/
def scopedSlave : State :=
  let running := State.reset.wr R.GLB_BOOT_STATUS_state 6
  let placed := running.wr (R.TDM_GRPg_CFG_assigned 1) 1
  (placed.setReg (R.FLT_SCOPEs 67) 0x31).setGrp 1 { locked := true, frameLocked := true }

theorem scopedSlave_locked : scopedSlave.tdmSlave 1 = true ∧ scopedSlave.grp 1 = { locked := true, frameLocked := true } := by decide +kernel

/-- The report of the loss takes effect on the group itself. -/
theorem scopedSlave_bclkStopped : ∃ t, exec (.bclkStopped 1 0) scopedSlave = .next t ∧ (t.grp 1).safe = true :=
  ⟨_, rfl, by decide +kernel⟩

end Sys2Proof.Machine
end

section
open Sys2Proof Sys2Proof.Machine

/-- Refutes O37: the clause of BCLK_STOPPED lets nothing of the group differ but what the unlock changes, and the unlock is a level-2 fault, which
puts a group that its own scope names into the safe state (08 R241, R244; 19 R485): `scopedSlave` ends with its outputs safe. -/
theorem not_audioPorts : ¬ Obligations.AudioPorts := by
  unfold Obligations.AudioPorts
  intro h
  let g : Fin 4 := 1
  obtain ⟨hslave, hgroup⟩ : scopedSlave.tdmSlave g = true ∧ scopedSlave.grp g = { locked := true, frameLocked := true } := scopedSlave_locked
  obtain ⟨-, -, -, -, -, -, -, -, -, hlocked, -⟩ := h scopedSlave g 0
  obtain ⟨-, hstopped, -⟩ := hlocked hslave (congrArg TdmGroup.locked hgroup)
  obtain ⟨t, hexec, hleft, -⟩ := hstopped 0
  obtain ⟨u, hexec', hsafe⟩ := scopedSlave_bclkStopped
  have htu : t = u := Host.Outcome.next.inj (hexec.symm.trans hexec')
  have hkept : (t.grp g).safe = false := (congrArg TdmGroup.safe hleft).trans (congrArg TdmGroup.safe hgroup)
  exact absurd (hkept.symm.trans (htu ▸ hsafe)) (by decide)

end

section
/-!
Amplifier channels and their states (09 R248, R256 to R259, R264): which channels share a state, what entering a state writes, and how a group's channels
leave rail_wait, mute and hard.
-/
namespace Sys2Proof.Machine

variable {s t u : State} {a c d e k n x : Nat} {f : FieldAt}

theorem Aside.sameMemory (h : Aside s t) : SameMemory s t := SameMemory.of_eq h.ssm h.dram

/-! ## Pairs (09 R248) -/

/-- The channels of a pair are tied together or not at all. -/
theorem State.ampTied_congr (s : State) (h : d / 2 = c / 2) : s.ampTied d = s.ampTied c := by
  have hgroup : d / 8 = c / 8 := by omega
  have hbit : d % 8 / 2 = c % 8 / 2 := by omega
  simp only [State.ampTied, hgroup, hbit]

section
variable (h : ∀ b, t.rd (R.AMP_GRPa_CFG_btl b) = s.rd (R.AMP_GRPa_CFG_btl b))
include h

theorem State.ampTied_of_btl (c : Nat) : t.ampTied c = s.ampTied c := by simp only [State.ampTied, h]
theorem State.ampPair_of_btl (c : Nat) : t.ampPair c = s.ampPair c := by simp only [State.ampPair, State.ampTied_of_btl h]
theorem State.ampMain_of_btl (c : Nat) : t.ampMain c = s.ampMain c := by simp only [State.ampMain, State.ampTied_of_btl h]

end

theorem State.mem_ampPair_iff (s : State) : d ∈ s.ampPair c ↔ d = c ∨ s.ampTied c = true ∧ d / 2 = c / 2 := by
  unfold State.ampPair
  cases s.ampTied c
  · simp
  · simp only [if_true, List.mem_cons, List.not_mem_nil, or_false, true_and]
    omega

@[simp] theorem State.self_mem_ampPair (s : State) (c : Nat) : c ∈ s.ampPair c := s.mem_ampPair_iff.2 (.inl rfl)

theorem State.ampPair_of_mem (h : d ∈ s.ampPair c) : s.ampPair d = s.ampPair c := by
  obtain rfl | ⟨htied, hhalf⟩ := s.mem_ampPair_iff.1 h
  · rfl
  · simp only [State.ampPair, s.ampTied_congr hhalf, htied, hhalf, if_true]

theorem State.div_of_mem_ampPair (h : d ∈ s.ampPair c) : d / 8 = c / 8 := by
  have := s.mem_ampPair_iff.1 h
  omega

@[simp] theorem State.ampMain_mem (s : State) (c : Nat) : s.ampMain c ∈ s.ampPair c := by
  rw [State.mem_ampPair_iff, State.ampMain]
  cases s.ampTied c
  · exact .inl rfl
  · exact .inr ⟨rfl, by simp⟩

@[simp] theorem State.ampMain_div (s : State) (c : Nat) : s.ampMain c / 8 = c / 8 := State.div_of_mem_ampPair (s.ampMain_mem c)

@[simp] theorem State.ampMain_ampMain (s : State) (c : Nat) : s.ampMain (s.ampMain c) = s.ampMain c := by
  have htied : s.ampTied (s.ampMain c) = s.ampTied c := by
    refine s.ampTied_congr ?_
    unfold State.ampMain
    split <;> omega
  rw [State.ampMain, htied, State.ampMain]
  split <;> omega

/-! ## Channel records -/

@[simp] theorem State.amp_setAmp_self (s : State) (c : Nat) (r : AmpChannel) : (s.setAmp c r).amp c = r := Tab.get_set_self ..

theorem State.amp_setAmp_ne (s : State) (r : AmpChannel) (h : d ≠ c) : (s.setAmp c r).amp d = s.amp d := Tab.get_set_ne _ _ _ h

theorem State.amp_congr (h : t.amps = s.amps) (c : Nat) : t.amp c = s.amp c := by simp only [State.amp, h]

theorem State.is_congr (h : t.rd f = s.rd f) : t.is f = s.is f := by simp only [State.is, h]

theorem State.is_of_rd_zero (h : s.rd f = 0) : s.is f = false := by rw [State.is, h]; rfl

/-! ## What a channel's entry into a state writes (09 R248, R267) -/

/-- A field that shows no channel's state, no channel's switching and no channel's event. -/
structure FieldAt.Steady (f : FieldAt) : Prop where
  state : ∀ c, f.addr = R.AMPc_STATUS c → 4 ≤ f.lsb
  switching : ∀ a, f.addr = R.AMP_GRPa_STATUS a → f.lsb + f.width ≤ 8
  event : ∀ c, f.addr ≠ R.AMPc_INT_STATUS c

theorem FieldAt.Steady.groupStatus (a : Nat) {i : Nat} (h : i < 8) : (bitAt (R.AMP_GRPa_STATUS a) i).Steady := by
  refine ⟨fun c hc => ?_, fun _ _ => h, fun c hc => ?_⟩
  all_goals simp only [bitAt, R.AMP_GRPa_STATUS, R.AMPc_STATUS, R.AMPc_INT_STATUS] at hc; omega

theorem FieldAt.Steady.groupCfg (a l w : Nat) : (FieldAt.mk (R.AMP_GRPa_CFG a) l w).Steady := by
  refine ⟨fun c hc => ?_, fun b hb => ?_, fun c hc => ?_⟩
  · simp only [R.AMP_GRPa_CFG, R.AMPc_STATUS] at hc; omega
  · simp only [R.AMP_GRPa_CFG, R.AMP_GRPa_STATUS] at hb; omega
  · simp only [R.AMP_GRPa_CFG, R.AMPc_INT_STATUS] at hc; omega

theorem FieldAt.Steady.btl (a : Nat) : (R.AMP_GRPa_CFG_btl a).Steady := .groupCfg a 16 4

theorem FieldAt.Steady.groupEvent (a i : Nat) : (bitAt (R.AMP_GRPa_INT_STATUS a) i).Steady := by
  refine ⟨fun c hc => ?_, fun b hb => ?_, fun c hc => ?_⟩
  · simp only [bitAt, R.AMP_GRPa_INT_STATUS, R.AMPc_STATUS] at hc; omega
  · simp only [bitAt, R.AMP_GRPa_INT_STATUS, R.AMP_GRPa_STATUS] at hb; omega
  · simp only [bitAt, R.AMP_GRPa_INT_STATUS, R.AMPc_INT_STATUS] at hc; omega

theorem FieldAt.Steady.retries (c : Nat) : (R.AMPc_STATUS_retries c).Steady := by
  refine ⟨fun _ _ => Nat.le_refl 4, fun b hb => ?_, fun d hd => ?_⟩
  · simp only [R.AMPc_STATUS_retries, R.AMPc_STATUS, R.AMP_GRPa_STATUS] at hb; omega
  · simp only [R.AMPc_STATUS_retries, R.AMPc_STATUS, R.AMPc_INT_STATUS] at hd; omega

/-- Every steady field reads in `t` as in `s`. -/
structure Steady (s t : State) : Prop where
  rd : ∀ f : FieldAt, f.Steady → t.rd f = s.rd f

theorem Steady.refl (s : State) : Steady s s := ⟨fun _ _ => rfl⟩
theorem Steady.trans (h : Steady s t) (h' : Steady t u) : Steady s u := ⟨fun f hf => (h'.rd f hf).trans (h.rd f hf)⟩
theorem Steady.is (h : Steady s t) (hf : f.Steady) : t.is f = s.is f := State.is_congr (h.rd f hf)
theorem Steady.ampPair (h : Steady s t) (c : Nat) : t.ampPair c = s.ampPair c := State.ampPair_of_btl (fun b => h.rd _ (.btl b)) c
theorem Steady.ampMain (h : Steady s t) (c : Nat) : t.ampMain c = s.ampMain c := State.ampMain_of_btl (fun b => h.rd _ (.btl b)) c
theorem Steady.railOk (h : Steady s t) (a : Nat) : t.is (R.AMP_GRPa_STATUS_rail_ok a) = s.is (R.AMP_GRPa_STATUS_rail_ok a) :=
  h.is (.groupStatus a (by decide : 3 < 8))

/-- One channel of a pair enters a state. -/
def State.enters (s : State) (k c : Nat) : State :=
  (s.wr (ampState c) k).wr (bitAt (R.AMP_GRPa_STATUS (c / 8)) (8 + c % 8)) (b2n (ampSwitching k))

theorem State.ampEnter_eq (s : State) (c k : Nat) : s.ampEnter c k = (s.ampPair c).foldl (fun s d => s.enters k d) s := rfl

theorem Steady.enters (s : State) (k c : Nat) : Steady s (s.enters k c) := by
  refine ⟨fun f hf => ?_⟩
  have hswitching : (s.enters k c).rd f = (s.wr (ampState c) k).rd f := by
    by_cases h : f.addr = R.AMP_GRPa_STATUS (c / 8)
    · exact State.rd_wr_apart _ _ (.inr ((hf.switching _ h).trans (Nat.le_add_right ..)))
    · exact State.rd_wr_other _ _ h
  rw [hswitching]
  by_cases h : f.addr = R.AMPc_STATUS c
  · exact s.rd_wr_apart _ (.inl (hf.state _ h))
  · exact s.rd_wr_other _ h

theorem ampStatus_ne_groupStatus (c a : Nat) : R.AMPc_STATUS c ≠ R.AMP_GRPa_STATUS a := by
  simp only [R.AMPc_STATUS, R.AMP_GRPa_STATUS]
  omega

theorem State.ampState_wr_ne (s : State) (k : Nat) (h : d ≠ c) : (s.wr (ampState c) k).rd (ampState d) = s.rd (ampState d) := by
  refine s.rd_wr_other k ?_
  simp only [ampState, R.AMPc_STATUS_state, R.AMPc_STATUS]
  omega

theorem State.ampState_enters (s : State) (hk : k < 16) (c d : Nat) : (s.enters k c).rd (ampState d) = if d = c then k else s.rd (ampState d) := by
  have hswitching : (s.enters k c).rd (ampState d) = (s.wr (ampState c) k).rd (ampState d) :=
    State.rd_wr_other _ _ (ampStatus_ne_groupStatus d (c / 8))
  rw [hswitching]
  split
  case isTrue h => subst h; exact (s.rd_wr_same _ k (show 0 + 4 ≤ 32 by decide)).trans (Nat.mod_eq_of_lt hk)
  case isFalse h => exact s.ampState_wr_ne k h

theorem State.ampState_foldl_enters (s : State) (hk : k < 16) (l : List Nat) (d : Nat) :
    (l.foldl (fun s c => s.enters k c) s).rd (ampState d) = if d ∈ l then k else s.rd (ampState d) := by
  induction l generalizing s with
  | nil => simp
  | cons c l ih =>
    rw [List.foldl_cons, ih, s.ampState_enters hk]
    by_cases hl : d ∈ l <;> by_cases hc : d = c <;> simp [hl, hc]

/-- A state entered is the state of the whole pair and of no other channel (09 R248). -/
theorem State.ampState_ampEnter (s : State) (hk : k < 16) (c d : Nat) :
    (s.ampEnter c k).rd (ampState d) = if d ∈ s.ampPair c then k else s.rd (ampState d) := s.ampState_foldl_enters hk _ d

theorem State.ampState_ampEnter_mem (hd : d ∈ s.ampPair c) (hk : k < 16) : (s.ampEnter c k).rd (ampState d) = k :=
  (s.ampState_ampEnter hk c d).trans (if_pos hd)

theorem Steady.ampEnter (s : State) (c k : Nat) : Steady s (s.ampEnter c k) := by
  rw [State.ampEnter_eq]
  generalize s.ampPair c = l
  induction l generalizing s with
  | nil => exact .refl s
  | cons d l ih => exact (Steady.enters s k d).trans (ih _)

@[simp] theorem State.amps_ampEnter (s : State) (c k : Nat) : (s.ampEnter c k).amps = s.amps := by
  unfold State.ampEnter State.ampPair
  split <;> rfl

@[simp] theorem State.amp_ampEnter (s : State) (c k d : Nat) : (s.ampEnter c k).amp d = s.amp d := State.amp_congr (s.amps_ampEnter c k) d

/-- The state of a channel that stops: off, or rail_wait while the rail is unqualified (09 R259). -/
def State.offState (s : State) (c : Nat) : Nat := if s.is (R.AMP_GRPa_STATUS_rail_ok (c / 8)) then 0 else 8

theorem State.offState_lt (s : State) (c : Nat) : s.offState c < 16 := by unfold State.offState; split <;> decide

theorem State.offState_congr (hd : d / 8 = c / 8) : s.offState d = s.offState c := by simp only [State.offState, hd]

theorem State.offState_of_railOk (h : t.rd (R.AMP_GRPa_STATUS_rail_ok (c / 8)) = s.rd (R.AMP_GRPa_STATUS_rail_ok (c / 8))) :
    t.offState c = s.offState c := by simp only [State.offState, State.is_congr h]

theorem Steady.offState (h : Steady s t) (c : Nat) : t.offState c = s.offState c := by simp only [State.offState, h.railOk]

theorem State.ampState_ampOff_mem (hd : d ∈ s.ampPair c) : (s.ampOff c).rd (ampState d) = s.offState c :=
  State.ampState_ampEnter_mem hd (s.offState_lt c)

theorem Steady.ampOff (s : State) (c : Nat) : Steady s (s.ampOff c) := .ampEnter ..

theorem State.rd_weirReturn (s : State) (r : Nat) (f : FieldAt) : (s.weirReturn r).rd f = s.rd f := rfl

/-- The release of a group writes the group's status alone (09 R258). -/
theorem State.rd_ampRelease (s : State) (h : f.addr ≠ R.AMP_GRPa_STATUS a) : (s.ampRelease a).rd f = s.rd f := by
  unfold State.ampRelease
  extract_lets stopped
  split
  · rw [State.rd_weirReturn, State.rd_wr_other _ 0 h, State.rd_wr_other _ 0 h]
  · rfl

theorem State.ampState_ampRelease (s : State) (a c : Nat) : (s.ampRelease a).rd (ampState c) = s.rd (ampState c) :=
  s.rd_ampRelease (ampStatus_ne_groupStatus c a)

theorem ampState_ne_event (c d : Nat) : (ampState c).addr ≠ R.AMPc_INT_STATUS d := by
  simp only [ampState, R.AMPc_STATUS_state, R.AMPc_STATUS, R.AMPc_INT_STATUS]
  omega

theorem State.ampState_ampEvent (s : State) (c k d : Nat) : (s.ampEvent c k).rd (ampState d) = s.rd (ampState d) :=
  s.rd_wr_other 1 (ampState_ne_event d _)

/-- An event of a channel stands in the register of its pair (09 R248). -/
theorem State.is_ampEvent (s : State) {k : Nat} (hk : k < 32) (c : Nat) : (s.ampEvent c k).is (bitAt (R.AMPc_INT_STATUS (s.ampMain c)) k) = true :=
  State.is_raise _ _ hk Nat.one_pos

end Sys2Proof.Machine
end

section
/-!
A group's channels as one: a pass over the eight channels in which those in one state enter another with their pairs, and the ends of the mute and the hard
safe state (09 R259, R265).
-/
namespace Sys2Proof.Machine

variable {s t u : State} {a c d e i k n x y : Nat} {f : FieldAt} {F : State → Nat → State}

/-- What one step of a sequence brings about from `P`, which every step keeps, stands at its end where every step keeps it too. -/
theorem foldl_brings {σ α : Type} {f : σ → α → σ} {l : List α} {x : α} {s : σ} {P Q : σ → Prop} (hx : x ∈ l) (hs : P s)
    (hP : ∀ t, P t → ∀ y ∈ l, P (f t y)) (hbrings : ∀ t, P t → Q (f t x)) (hQ : ∀ t, Q t → ∀ y ∈ l, Q (f t y)) : Q (l.foldl f s) := by
  obtain ⟨l₁, l₂, rfl⟩ := List.append_of_mem hx
  rw [List.foldl_append, List.foldl_cons]
  refine List.foldlRecOn l₂ f (hbrings _ ?_) fun t ht y hy => hQ t ht y (by simp [hy])
  exact List.foldlRecOn l₁ f hs fun t ht y hy => hP t ht y (by simp [hy])

/-- The pass `F` over the channels of group `a`, begun in `s`, moves those in state `x` to state `y` with their pairs and leaves the others. -/
structure Leaves (a x y : Nat) (F : State → Nat → State) (s : State) : Prop where
  enters : ∀ t, Steady s t → ∀ i ∈ List.range 8, t.rd (ampState (8 * a + i)) = x →
    Steady t (F t i) ∧ ∀ d, (F t i).rd (ampState d) = if d ∈ t.ampPair (8 * a + i) then y else t.rd (ampState d)
  stays : ∀ t, ∀ i ∈ List.range 8, t.rd (ampState (8 * a + i)) ≠ x → F t i = t

theorem Leaves.step (h : Leaves a x y F s) (ht : Steady s t) (hi : i ∈ List.range 8) : Steady s (F t i) := by
  by_cases hx : t.rd (ampState (8 * a + i)) = x
  · exact ht.trans (h.enters t ht i hi hx).1
  · rwa [h.stays t i hi hx]

theorem Leaves.steady (h : Leaves a x y F s) : Steady s ((List.range 8).foldl F s) :=
  List.foldlRecOn _ F (.refl s) fun _ ht _ hi => h.step ht hi

/-- A channel of the group in state `x` ends in state `y`. -/
theorem Leaves.left (h : Leaves a x y F s) (hxy : y ≠ x) (hd : d / 8 = a) (hx : s.rd (ampState d) = x) :
    ((List.range 8).foldl F s).rd (ampState d) = y := by
  have hstep (t : State) (ht : Steady s t) (i : Nat) (hi : i ∈ List.range 8) :
      (F t i).rd (ampState d) = y ∨ (F t i).rd (ampState d) = t.rd (ampState d) := by
    by_cases hs : t.rd (ampState (8 * a + i)) = x
    · rw [(h.enters t ht i hi hs).2]
      split
      · exact .inl rfl
      · exact .inr rfl
    · exact .inr (by rw [h.stays t i hi hs])
  have hchannel : 8 * a + d % 8 = d := by omega
  have hmem : d % 8 ∈ List.range 8 := List.mem_range.2 (by omega)
  refine (foldl_brings (P := fun t => Steady s t ∧ (t.rd (ampState d) = x ∨ t.rd (ampState d) = y))
    (Q := fun t => Steady s t ∧ t.rd (ampState d) = y) hmem ⟨.refl s, .inl hx⟩ ?_ ?_ ?_).2
  · rintro t ⟨ht, hxy⟩ i hi
    exact ⟨h.step ht hi, (hstep t ht i hi).elim .inr fun hkept => hxy.imp hkept.trans hkept.trans⟩
  · rintro t ⟨ht, hxy'⟩
    refine ⟨h.step ht hmem, ?_⟩
    obtain hx' | hy := hxy'
    · rw [(h.enters t ht _ hmem (by rw [hchannel, hx'])).2, hchannel, if_pos (t.self_mem_ampPair d)]
    · rw [h.stays t _ hmem (by rw [hchannel, hy]; exact hxy), hy]
  · rintro t ⟨ht, hy⟩ i hi
    exact ⟨h.step ht hi, (hstep t ht i hi).elim id fun hkept => hkept.trans hy⟩

/-- A pair with neither channel in state `x` stays as it is. -/
theorem Leaves.kept (h : Leaves a x y F s) (hx : ∀ e ∈ s.ampPair d, s.rd (ampState e) ≠ x) :
    ∀ e ∈ s.ampPair d, ((List.range 8).foldl F s).rd (ampState e) = s.rd (ampState e) := by
  refine (List.foldlRecOn (motive := fun t => Steady s t ∧ ∀ e ∈ s.ampPair d, t.rd (ampState e) = s.rd (ampState e)) _ F
    ⟨.refl s, fun _ _ => rfl⟩ ?_).2
  rintro t ⟨ht, hkept⟩ i hi
  refine ⟨h.step ht hi, fun e he => ?_⟩
  by_cases hs : t.rd (ampState (8 * a + i)) = x
  · rw [(h.enters t ht i hi hs).2, if_neg, hkept e he]
    rw [ht.ampPair]
    intro hmem
    have hpair : 8 * a + i ∈ s.ampPair d := by
      rw [← State.ampPair_of_mem he, State.ampPair_of_mem hmem]
      exact s.self_mem_ampPair _
    exact hx _ hpair ((hkept _ hpair).symm.trans hs)
  · rw [h.stays t i hi hs, hkept e he]

/-! ## The end of a safe state (09 R265) -/

/-- Bit `i` of the status of group `a` is cleared, and with it channels of the group in state `x` pass to state `y`. -/
structure SafeEnds (a i x y : Nat) (s t : State) : Prop where
  cleared : t.is (bitAt (R.AMP_GRPa_STATUS a) i) = false
  rd : ∀ f : FieldAt, f.Steady → f.lsb + f.width ≤ i ∨ i + 1 ≤ f.lsb → t.rd f = s.rd f
  left : s.is (bitAt (R.AMP_GRPa_STATUS a) i) = true → ∀ d, d / 8 = a → s.rd (ampState d) = x → t.rd (ampState d) = y
  kept : ∀ d, (∀ e ∈ s.ampPair d, s.rd (ampState e) ≠ x) → ∀ e ∈ s.ampPair d, t.rd (ampState e) = s.rd (ampState e)

theorem State.ampState_wr_groupStatus (s : State) (a i v d : Nat) : (s.wr (bitAt (R.AMP_GRPa_STATUS a) i) v).rd (ampState d) = s.rd (ampState d) :=
  s.rd_wr_other v (ampStatus_ne_groupStatus d a)

theorem State.ampPair_wr_groupStatus (s : State) (a v d : Nat) (hi : i < 8) : (s.wr (bitAt (R.AMP_GRPa_STATUS a) i) v).ampPair d = s.ampPair d := by
  refine State.ampPair_of_btl (fun b => ?_) d
  exact s.rd_wr_apart v (.inl (show i + 1 ≤ 16 by omega))

theorem Leaves.safeEnds (hi : i < 8) (hxy : y ≠ x) (h : Leaves a x y F (s.wr (bitAt (R.AMP_GRPa_STATUS a) i) 0)) :
    SafeEnds a i x y s (if s.is (bitAt (R.AMP_GRPa_STATUS a) i) then (List.range 8).foldl F (s.wr (bitAt (R.AMP_GRPa_STATUS a) i) 0) else s) := by
  split
  case isTrue hset =>
    have hzero : (s.wr (bitAt (R.AMP_GRPa_STATUS a) i) 0).rd (bitAt (R.AMP_GRPa_STATUS a) i) = 0 :=
      (s.rd_wr_same _ 0 (show i + 1 ≤ 32 by omega)).trans (Nat.zero_mod _)
    refine ⟨?_, fun f hf hapart => (h.steady.rd f hf).trans ?_, fun _ d hd hx => h.left hxy hd ?_, fun d hd e he => ?_⟩
    · exact (h.steady.is (.groupStatus a hi)).trans (State.is_of_rd_zero hzero)
    · exact s.rd_wr_apart 0 hapart.symm
    · rwa [s.ampState_wr_groupStatus]
    · have hpair := s.ampPair_wr_groupStatus a 0 d hi
      refine (h.kept (d := d) (fun e he => ?_) e (hpair.symm ▸ he)).trans (s.ampState_wr_groupStatus a i 0 e)
      rw [s.ampState_wr_groupStatus]
      exact hd e (hpair ▸ he)
  case isFalse hset => exact ⟨Bool.eq_false_iff.2 hset, fun _ _ _ => rfl, fun h => absurd h hset, fun _ _ _ _ => rfl⟩

theorem SafeEnds.ampPair (h : SafeEnds a i x y s t) (hi : i < 8) (d : Nat) : t.ampPair d = s.ampPair d :=
  State.ampPair_of_btl (fun b => h.rd _ (.btl b) (.inr (show i + 1 ≤ 16 by omega))) d

/-- The fade of a muted channel that returns to run: a fade-out goes on, otherwise it fades in (09 R265). -/
def State.unmutedFade (s : State) (c : Nat) : Fade := match (s.amp c).fade with | .out j => .out j | .zero => .zero | _ => .into 0

/-- Channel `i` of group `a` at the end of the mute, and of the hard safe state (09 R265). -/
def State.muteEnds (a : Nat) (s : State) (i : Nat) : State :=
  if s.rd (ampState (8 * a + i)) = 4 then
    ((s.setAmp (8 * a + i) { s.amp (8 * a + i) with fade := s.unmutedFade (8 * a + i) }).ampEnter (8 * a + i) 3).raise
      (R.AMPc_INT_STATUS_running (s.ampMain (8 * a + i)))
  else s

def State.hardEnds (a : Nat) (s : State) (i : Nat) : State := if s.rd (ampState (8 * a + i)) = 9 then s.ampOff (8 * a + i) else s

/-- What leaves hard once its bit is cleared. -/
def State.hardReleased (s : State) (a : Nat) : State :=
  if s.is (R.AMP_GRPa_STATUS_hard a) then (List.range 8).foldl (State.hardEnds a) (s.wr (R.AMP_GRPa_STATUS_hard a) 0) else s

/-- What leaves mute once its bit is cleared. -/
def State.muteReleased (s : State) (a : Nat) : State :=
  if s.is (R.AMP_GRPa_STATUS_mute a) then (List.range 8).foldl (State.muteEnds a) (s.wr (R.AMP_GRPa_STATUS_mute a) 0) else s

theorem State.ampUnsafe_released (s : State) (a : Nat) : s.ampUnsafe a false false = (s.hardReleased a).muteReleased a := rfl

theorem State.hardReleased_ends (s : State) (a : Nat) : SafeEnds a 4 9 (s.offState (8 * a)) s (s.hardReleased a) := by
  have hoff : s.offState (8 * a) ≠ 9 := by unfold State.offState; split <;> decide
  refine Leaves.safeEnds (by decide) hoff ⟨fun t ht i hi hx => ?_, fun t i _ hx => if_neg hx⟩
  have hcleared : (s.wr (bitAt (R.AMP_GRPa_STATUS a) 4) 0).offState (8 * a) = s.offState (8 * a) :=
    State.offState_of_railOk (s.rd_wr_apart 0 (.inr (show 3 + 1 ≤ 4 by decide)))
  have hstate : t.offState (8 * a + i) = s.offState (8 * a) := by
    have hgroup : (8 * a + i) / 8 = 8 * a / 8 := by have := List.mem_range.1 hi; omega
    rw [t.offState_congr hgroup, ht.offState, hcleared]
  rw [State.hardEnds, if_pos hx]
  exact ⟨.ampOff .., fun d => hstate ▸ t.ampState_ampEnter (t.offState_lt _) _ d⟩

theorem State.muteReleased_ends (s : State) (a : Nat) : SafeEnds a 5 4 3 s (s.muteReleased a) := by
  refine Leaves.safeEnds (by decide) (by decide) ⟨fun t _ i _ hx => ?_, fun t i _ hx => if_neg hx⟩
  rw [State.muteEnds, if_pos hx]
  refine ⟨⟨fun f hf => ?_⟩, fun d => ?_⟩
  · exact (State.rd_wr_other _ 1 (hf.event _)).trans ((Steady.ampEnter (t.setAmp _ _) _ 3).rd f hf)
  · exact (State.rd_wr_other _ 1 (ampState_ne_event d _)).trans ((t.setAmp _ _).ampState_ampEnter (by decide) _ d)

end Sys2Proof.Machine
end

section
/-!
The commands of amplifier groups and channels (09 R256 to R259, R264, R265).
-/
namespace Sys2Proof.Machine

variable {s : State} {d n : Nat} {f : FieldAt}

/-! ## Requests for leave (09 R258; 20 R503) -/

/-- Software's value of a lowest bit that no overlay owns is in effect (03 R88). -/
theorem State.is_sw_lowest {a : Nat} (ho : s.owned a = 0) (v : Bool) : (s.sw ⟨a, 0, 1⟩ (b2n v)).is ⟨a, 0, 1⟩ = v := by
  have hmask : ∀ i < 1, (BitVec.ofNat 32 ((2 ^ 1 - 1) <<< 0)).getLsbD (0 + i) = true := by decide
  have hlayered : (s.sw ⟨a, 0, 1⟩ (b2n v)).rd ⟨a, 0, 1⟩ = _ := State.rd_settle (f := ⟨a, 0, 1⟩) hmask
  rw [State.is, hlayered, getBits_one, State.getLsbD_layered_soften_free (by simp [ho]) (hmask 0 Nat.one_pos)]
  have hbit : (putBits 0 0 1 (b2n v)).getLsbD 0 = v := by cases v <;> decide
  exact hbit

theorem exec_ampGroupEnable_unassigned {a : Fin 4} (h : s.ampAssigned a = false) (en : Bool) : exec (.ampGroupEnable a en) s = .next s :=
  congrArg Host.Outcome.next (if_pos (by rw [h]; rfl))

theorem exec_ampGroupEnable {a : Fin 4} (ha : s.ampAssigned a = true) (he : s.is (R.AMP_GRPa_CTRL_en a) = false)
    (hl : s.is (R.AMP_GRPa_STATUS_leave a) = false) (ho : s.owned (R.AMP_GRPa_CTRL a) = 0) :
    exec (.ampGroupEnable a true) s = .next ((s.sw (R.AMP_GRPa_CTRL_en a) 1).weirRequest (4 + a) (s.weirCost (4 + a))) := by
  have hen : (s.sw (R.AMP_GRPa_CTRL_en a) 1).is (R.AMP_GRPa_CTRL_en a) = true := State.is_sw_lowest ho true
  have hleave : (s.sw (R.AMP_GRPa_CTRL_en a) 1).is (R.AMP_GRPa_STATUS_leave a) = false := by
    rw [← hl]
    refine State.is_congr (s.rd_setReg_other _ ?_)
    simp only [R.AMP_GRPa_STATUS_leave, R.AMP_GRPa_STATUS, R.AMP_GRPa_CTRL_en, R.AMP_GRPa_CTRL]
    omega
  have hcost : (s.sw (R.AMP_GRPa_CTRL_en a) 1).weirCost (4 + a) = s.weirCost (4 + a) := by
    refine s.rd_setReg_other _ ?_
    simp only [R.WEIR_COSTr, R.AMP_GRPa_CTRL_en, R.AMP_GRPa_CTRL]
    omega
  have hwrite : s.ampWriteEn a true = (s.sw (R.AMP_GRPa_CTRL_en a) 1).ampEnChanged a false := by
    rw [State.ampWriteEn, ha, he]
    rfl
  have hchanged : (s.sw (R.AMP_GRPa_CTRL_en a) 1).ampEnChanged a false
      = (s.sw (R.AMP_GRPa_CTRL_en a) 1).weirRequest (4 + a) (s.weirCost (4 + a)) := by
    simp [State.ampEnChanged, hen, hleave, hcost]
  exact congrArg Host.Outcome.next (hwrite.trans hchanged)

theorem completes_ampGroupEnable {a : Fin 4} (ha : s.ampAssigned a = true) (he : s.is (R.AMP_GRPa_CTRL_en a) = false)
    (hl : s.is (R.AMP_GRPa_STATUS_leave a) = false) (ho : s.owned (R.AMP_GRPa_CTRL a) = 0) : Completes (.ampGroupEnable a true) s fun t =>
    t.is (R.AMP_GRPa_CTRL_en a) = true ∧ (t.requester (4 + a)).pending = true ∧ (t.requester (4 + a)).cost = s.weirCost (4 + a) ∧
      t.amps = s.amps ∧ SameMemory s t ∧ ∀ r, r ∉ [R.AMP_GRPa_CTRL a, R.WEIR_INT_STATUS] → t.reg r = s.reg r := by
  have honly : UnitOnly (s.sw (R.AMP_GRPa_CTRL_en a) 1) _ := (UnitOnly.refl _).weirRequest (4 + a) (s.weirCost (4 + a))
  obtain ⟨hpending, hcost, -, hreg⟩ := (s.sw (R.AMP_GRPa_CTRL_en a) 1).weirRequest_spec (4 + a) (s.weirCost (4 + a))
  have hne : R.AMP_GRPa_CTRL a ≠ R.WEIR_INT_STATUS := by simp only [R.AMP_GRPa_CTRL, R.WEIR_INT_STATUS]; omega
  have hen := State.is_congr (State.rd_congr (f := R.AMP_GRPa_CTRL_en a) (hreg _ hne))
  refine ⟨_, exec_ampGroupEnable ha he hl ho, hen.trans (State.is_sw_lowest ho true), hpending, hcost, (congrArg State.amps honly.rest :),
    honly.sameMemory, fun r hr => ?_⟩
  simp only [List.mem_cons, List.not_mem_nil, or_false, not_or] at hr
  exact (hreg _ hr.2).trans (s.reg_sw_ne 1 hr.1)

/-! ## Boot (09 R256, R258) -/

theorem State.ampState_ampBoot_mem {c : Nat} (hd : d ∈ s.ampPair c) : (s.ampBoot c).rd (ampState d) = 1 :=
  ((s.ampEnter c 1).ampState_wr_groupStatus (c / 8) 1 1 d).trans (State.ampState_ampEnter_mem hd (by decide))

theorem State.amp_ampBoot (s : State) (c d : Nat) : (s.ampBoot c).amp d = s.amp d := s.amp_ampEnter c 1 d

theorem State.ampBoot_aside {s₀ : State} (c : Nat) (h : Aside s₀ s) : Aside s₀ (s.ampBoot c) := State.wr_aside _ _ (State.ampEnter_aside _ _ h)

theorem State.shTake_aside (s : State) (a : Nat) : Aside s (s.shTake a) := Aside.ite ⟨rfl⟩ (.refl s)

theorem State.rd_shTake {a : Nat} (s : State) (h : f.addr ≠ a) : (s.shTake a).rd f = s.rd f := by
  unfold State.shTake
  split
  · exact s.rd_setReg_other _ h
  · rfl

theorem State.ampState_shTake (s : State) (c d : Nat) : (s.shTake (R.AMPc_CTRL c)).rd (ampState d) = s.rd (ampState d) := by
  refine s.rd_shTake ?_
  simp only [ampState, R.AMPc_STATUS_state, R.AMPc_STATUS, R.AMPc_CTRL]
  omega

theorem State.amps_shTake (s : State) (a : Nat) : (s.shTake a).amps = s.amps := by
  unfold State.shTake
  split <;> rfl

section
variable {c : Fin 32} (ha : s.ampAssigned (c / 8) = true) (hb : s.atBoundary (s.rd (R.AMP_GRPa_CFG_domain (c / 8))) = true)
include ha hb

theorem exec_ampChannelEnable : exec (.ampChannelEnable c) s = .next (s.ampJudge c) := congrArg Host.Outcome.next (if_pos (by rw [ha, hb]; rfl))

theorem completes_ampChannelEnable_boots (hk : s.rd (ampState (s.ampMain c)) = 0)
    (hmay : (s.shTake (R.AMPc_CTRL (s.ampMain c))).ampMay (s.ampMain c) = true) (hh : (s.ampGroup (c / 8)).hold = false) :
    Completes (.ampChannelEnable c) s fun t => t.rd (ampState (s.ampMain c)) = 1 ∧ t.is (R.AMP_GRPa_STATUS_drv_en (c / 8)) = true ∧
      t.locks = s.locks ∧ SameMemory s t := by
  have htaken := s.shTake_aside (R.AMPc_CTRL (s.ampMain c))
  have hjudge : s.ampJudge c = (s.shTake (R.AMPc_CTRL (s.ampMain c))).ampBoot (s.ampMain c) := by
    have hgroup : (s.shTake (R.AMPc_CTRL (s.ampMain c))).ampGroup (c / 8) = s.ampGroup (c / 8) := by simp only [State.ampGroup, htaken.ampGroups]
    simp [State.ampJudge, s.ampState_shTake, hk, hmay, hgroup, hh]
  have hall := State.ampBoot_aside (s.ampMain c) htaken
  refine ⟨_, (exec_ampChannelEnable ha hb).trans (congrArg Host.Outcome.next hjudge), State.ampState_ampBoot_mem (State.self_mem_ampPair ..), ?_,
    hall.locks, hall.sameMemory⟩
  rw [← s.ampMain_div c]
  exact State.is_raise _ (R.AMP_GRPa_STATUS_drv_en (s.ampMain c / 8)) (show 1 + 1 ≤ 32 by decide) Nat.one_pos

theorem completes_ampChannelEnable_fades (hk : s.rd (ampState (s.ampMain c)) = 3)
    (hmay : (s.shTake (R.AMPc_CTRL (s.ampMain c))).ampMay (s.ampMain c) = false) (hf : (s.amp (s.ampMain c)).fade = .none) :
    Completes (.ampChannelEnable c) s fun t => (t.amp (s.ampMain c)).fade = .out 0 ∧ t.rd (ampState (s.ampMain c)) = 3 ∧ SameMemory s t := by
  have hamp : (s.shTake (R.AMPc_CTRL (s.ampMain c))).amp (s.ampMain c) = s.amp (s.ampMain c) := State.amp_congr (s.amps_shTake _) _
  have hjudge : s.ampJudge c = (s.shTake (R.AMPc_CTRL (s.ampMain c))).setAmp (s.ampMain c) { s.amp (s.ampMain c) with fade := .out 0 } := by
    simp [State.ampJudge, s.ampState_shTake, hk, hmay, hamp, hf]
  refine ⟨_, (exec_ampChannelEnable ha hb).trans (congrArg Host.Outcome.next hjudge), by rw [State.amp_setAmp_self],
    (s.ampState_shTake _ _).trans hk, (State.setAmp_aside _ _ (s.shTake_aside _)).sameMemory⟩

end

/-! ## Ramps and stops (09 R256, R257) -/

section
variable {c : Fin 32}

theorem completes_ampBootEnd (hk : s.rd (ampState (s.ampMain c)) = 1) : Completes (.ampBootEnd c) s fun t =>
    t.rd (ampState (s.ampMain c)) = 2 ∧ (t.amp (s.ampMain c)).rampPos = 0 ∧
      (t.amp (s.ampMain c)).rampLen = s.rd (R.AMP_GRPa_CM_cm_len (c / 8)) ∧ SameMemory s t := by
  refine ⟨(s.ampStartRamp c).ampEnter c 2, congrArg Host.Outcome.next (if_pos hk), State.ampState_ampEnter_mem (s.ampMain_mem c) (by decide), ?_, ?_,
    (State.ampEnter_aside _ _ (State.setAmp_aside _ _ (.refl s))).sameMemory⟩
  all_goals rw [State.amp_ampEnter, State.ampStartRamp, State.amp_setAmp_self]

theorem exec_ampBootEnd_other (hk : s.rd (ampState (s.ampMain c)) ≠ 1) : exec (.ampBootEnd c) s = .next s := congrArg Host.Outcome.next (if_neg hk)

theorem completes_ampCmRampEnd_run (hk : s.rd (ampState (s.ampMain c)) = 2) (hr : s.rampFull (s.ampMain c) ≤ (s.amp (s.ampMain c)).rampPos)
    (hm : s.is (R.AMP_GRPa_STATUS_mute (c / 8)) = false) : Completes (.ampCmRampEnd c) s fun t => t.rd (ampState (s.ampMain c)) = 3 ∧
      (t.amp (s.ampMain c)).fade = .into 0 ∧ t.is (bitAt (R.AMPc_INT_STATUS (s.ampMain c)) 0) = true ∧ SameMemory s t := by
  have hexec : exec (.ampCmRampEnd c) s
      = .next (((s.setAmp (s.ampMain c) { s.amp (s.ampMain c) with fade := .into 0 }).ampEnter (s.ampMain c) 3).ampEvent (s.ampMain c) 0) := by
    simp [exec, execAmpCmRampEnd, hk, Nat.not_lt.2 hr, hm]
  have hmain : ((s.setAmp (s.ampMain c) { s.amp (s.ampMain c) with fade := .into 0 }).ampEnter (s.ampMain c) 3).ampMain (s.ampMain c) = s.ampMain c :=
    ((Steady.ampEnter _ _ 3).ampMain _).trans (s.ampMain_ampMain c)
  refine ⟨_, hexec, ?_, ?_, ?_, (State.raise_aside _ (State.ampEnter_aside _ _ (State.setAmp_aside _ _ (.refl s)))).sameMemory⟩
  · exact (State.ampState_ampEvent _ _ _ _).trans (State.ampState_ampEnter_mem (State.self_mem_ampPair ..) (by decide))
  · exact congrArg AmpChannel.fade ((State.amp_ampEnter ..).trans (State.amp_setAmp_self ..))
  · have hevent := State.is_ampEvent ((s.setAmp (s.ampMain c) { s.amp (s.ampMain c) with fade := .into 0 }).ampEnter (s.ampMain c) 3)
      (by decide : 0 < 32) (s.ampMain c)
    rwa [hmain] at hevent

theorem completes_ampCmRampEnd_mute (hk : s.rd (ampState (s.ampMain c)) = 2) (hr : s.rampFull (s.ampMain c) ≤ (s.amp (s.ampMain c)).rampPos)
    (hm : s.is (R.AMP_GRPa_STATUS_mute (c / 8)) = true) :
    Completes (.ampCmRampEnd c) s fun t => t.rd (ampState (s.ampMain c)) = 4 ∧ SameMemory s t := by
  have hexec : exec (.ampCmRampEnd c) s
      = .next ((s.setAmp (s.ampMain c) { s.amp (s.ampMain c) with fade := .none, mutePos := 2 ^ 10 }).ampEnter (s.ampMain c) 4) := by
    simp [exec, execAmpCmRampEnd, hk, Nat.not_lt.2 hr, hm]
  exact ⟨_, hexec, State.ampState_ampEnter_mem (State.self_mem_ampPair ..) (by decide),
    (State.ampEnter_aside _ _ (State.setAmp_aside _ _ (.refl s))).sameMemory⟩

theorem exec_ampCmRampEnd_running (hk : s.rd (ampState (s.ampMain c)) = 2) (hr : (s.amp (s.ampMain c)).rampPos < s.rampFull (s.ampMain c)) :
    exec (.ampCmRampEnd c) s = .next s := by
  simp [exec, execAmpCmRampEnd, hk, hr]

theorem exec_ampCmRampEnd_low (hk : s.rd (ampState (s.ampMain c)) = 5) (hr : (s.amp (s.ampMain c)).rampPos = 0) :
    exec (.ampCmRampEnd c) s = .next (s.setAmp (s.ampMain c) { s.amp (s.ampMain c) with low := true }) := by
  simp [exec, execAmpCmRampEnd, hk, hr]

theorem completes_ampFadeOutEnd (hk : s.rd (ampState (s.ampMain c)) = 3 ∨ s.rd (ampState (s.ampMain c)) = 4)
    (hf : (s.amp (s.ampMain c)).fade = .zero) : Completes (.ampFadeOutEnd c) s fun t => t.rd (ampState (s.ampMain c)) = 5 ∧
      (t.amp (s.ampMain c)).rampLen = s.rd (R.AMP_GRPa_CM_cm_len (c / 8)) ∧ (t.amp (s.ampMain c)).rampPos = t.rampFull (s.ampMain c) ∧
      SameMemory s t := by
  refine ⟨_, congrArg Host.Outcome.next (if_pos ⟨hk, hf⟩), State.ampState_ampEnter_mem (State.self_mem_ampPair ..) (by decide), ?_, ?_,
    (State.ampEnter_aside _ _ (State.setAmp_aside _ _ (State.setAmp_aside _ _ (.refl s)))).sameMemory⟩
  · rw [State.amp_ampEnter, State.amp_setAmp_self, State.amp_setAmp_self]
  · have hfamily (v : State) : (v.ampEnter (s.ampMain c) 5).is (R.AMP_GRPa_CFG_fam441 (s.ampMain c / 8)) = v.is (R.AMP_GRPa_CFG_fam441 (s.ampMain c / 8)) :=
      (Steady.ampEnter v _ 5).is (.groupCfg _ 12 1)
    simp only [State.rampFull, State.amp_ampEnter, State.amp_setAmp_self, hfamily]
    rfl

theorem completes_ampOffReached (hk : s.rd (ampState (s.ampMain c)) = 5) (hl : (s.amp (s.ampMain c)).low = true) :
    Completes (.ampOffReached c) s fun t => t.rd (ampState (s.ampMain c)) = s.offState c ∧
      t.is (bitAt (R.AMPc_INT_STATUS (s.ampMain c)) 1) = true ∧ SameMemory s t := by
  refine ⟨(((s.ampOff (s.ampMain c)).ampEvent (s.ampMain c) 1).ampRelease (c / 8)), congrArg Host.Outcome.next (if_pos ⟨hk, hl⟩), ?_, ?_,
    (State.ampRelease_aside _ (State.raise_aside _ (State.ampOff_aside _ (.refl s)))).sameMemory⟩
  · rw [State.ampState_ampRelease, State.ampState_ampEvent, State.ampState_ampOff_mem (State.self_mem_ampPair ..), s.offState_congr (s.ampMain_div c)]
  · have hmain : (s.ampOff (s.ampMain c)).ampMain (s.ampMain c) = s.ampMain c := ((Steady.ampOff s _).ampMain _).trans (s.ampMain_ampMain c)
    have hevent := (s.ampOff (s.ampMain c)).is_ampEvent (by decide : 1 < 32) (s.ampMain c)
    rw [hmain] at hevent
    refine (State.is_congr (State.rd_ampRelease _ ?_)).trans hevent
    simp only [bitAt, R.AMPc_INT_STATUS, R.AMP_GRPa_STATUS]
    omega

/-! ## Retries (09 R264) -/

theorem State.rd_endCause (s : State) (source code : Nat) (f : FieldAt) : (s.endCause source code).rd f = s.rd f := rfl

theorem State.rd_ampCauseEnds (s : State) (c : Nat) (f : FieldAt) : (s.ampCauseEnds c).rd f = s.rd f := rfl

theorem State.ampRetries_boots (hk : s.rd (ampState n) = 6) (hm : s.ampMay n = true) : s.ampRetries n
    = ((((s.setAmp n { s.amp n with retryDue := false }).wr (R.AMPc_STATUS_retries n) (s.rd (R.AMPc_STATUS_retries n) + 1)).bump
      ⟨R.AMPc_TRIPS n, 8, 8⟩).ampBoot n).ampCauseEnds n :=
  (if_neg (not_not_intro hk)).trans (if_pos hm)

theorem State.ampRetries_stops (hk : s.rd (ampState n) = 6) (hm : s.ampMay n = false) : s.ampRetries n
    = (((s.setAmp n { s.amp n with retryDue := false }).ampOff n).ampCauseEnds n).ampRelease (n / 8) :=
  (if_neg (not_not_intro hk)).trans (if_neg (ne_true_of_eq_false hm))

theorem State.ampRetries_aside (hk : s.rd (ampState n) = 6) (hm : s.ampMay n = true) : Aside s (s.ampRetries n) := by
  rw [State.ampRetries_boots hk hm]
  exact State.ampCauseEnds_aside _ (State.ampBoot_aside _ (State.bump_aside _ _ (State.wr_aside _ _ (State.setAmp_aside _ _ (.refl s)))))

theorem State.ampPair_bump_retries (s : State) (r : AmpChannel) (v n : Nat) :
    (((s.setAmp n r).wr (R.AMPc_STATUS_retries n) v).bump ⟨R.AMPc_TRIPS n, 8, 8⟩).ampPair n = s.ampPair n := by
  refine State.ampPair_of_btl (fun b => ?_) n
  exact (State.rd_wr_apart _ _ (.inl (show 8 + 8 ≤ 16 by decide))).trans (State.rd_wr_apart (s.setAmp n r) _ (.inl (show 4 + 4 ≤ 16 by decide)))

theorem State.ampState_ampRetries (hk : s.rd (ampState n) = 6) (hm : s.ampMay n = true) : (s.ampRetries n).rd (ampState n) = 1 := by
  rw [State.ampRetries_boots hk hm]
  exact State.ampState_ampBoot_mem (by rw [State.ampPair_bump_retries]; exact s.self_mem_ampPair n)

theorem State.amp_ampRetries (hk : s.rd (ampState n) = 6) (hm : s.ampMay n = true) (d : Nat) :
    (s.ampRetries n).amp d = (s.setAmp n { s.amp n with retryDue := false }).amp d := by
  rw [State.ampRetries_boots hk hm]
  exact State.amp_ampBoot _ n d

theorem State.retries_ampRetries (hk : s.rd (ampState n) = 6) (hm : s.ampMay n = true) : (s.ampRetries n).rd (R.AMPc_STATUS_retries n)
    = (s.rd (R.AMPc_STATUS_retries n) + 1) % 2 ^ (R.AMPc_STATUS_retries n).width := by
  rw [State.ampRetries_boots hk hm, State.rd_ampCauseEnds]
  refine (State.rd_wr_other _ 1 (ampStatus_ne_groupStatus n _)).trans ?_
  rw [(Steady.ampEnter _ n 1).rd _ (.retries n)]
  refine (State.rd_wr_other _ _ ?_).trans (State.rd_wr_same _ _ _ (show 4 + 4 ≤ 32 by decide))
  simp only [R.AMPc_STATUS_retries, R.AMPc_STATUS, R.AMPc_TRIPS]
  omega

theorem exec_ampRetry (hk : s.rd (ampState (s.ampMain c)) = 6) (hh : (s.ampGroup (c / 8)).hold = false) :
    exec (.ampRetry c) s = .next (s.ampRetries (s.ampMain c)) :=
  congrArg Host.Outcome.next ((if_neg (not_not_intro hk)).trans (if_neg (ne_true_of_eq_false hh)))

theorem completes_ampRetry_boots (hk : s.rd (ampState (s.ampMain c)) = 6) (hh : (s.ampGroup (c / 8)).hold = false)
    (hm : s.ampMay (s.ampMain c) = true) : Completes (.ampRetry c) s fun t => t.rd (ampState (s.ampMain c)) = 1 ∧
      t.rd (R.AMPc_STATUS_retries (s.ampMain c))
        = (s.rd (R.AMPc_STATUS_retries (s.ampMain c)) + 1) % 2 ^ (R.AMPc_STATUS_retries (s.ampMain c)).width ∧ SameMemory s t :=
  ⟨_, exec_ampRetry hk hh, State.ampState_ampRetries hk hm, State.retries_ampRetries hk hm, (State.ampRetries_aside hk hm).sameMemory⟩

theorem completes_ampRetry_stops (hk : s.rd (ampState (s.ampMain c)) = 6) (hh : (s.ampGroup (c / 8)).hold = false)
    (hm : s.ampMay (s.ampMain c) = false) : Completes (.ampRetry c) s fun t => t.rd (ampState (s.ampMain c)) = s.offState c ∧ SameMemory s t := by
  refine ⟨_, (exec_ampRetry hk hh).trans (congrArg Host.Outcome.next (State.ampRetries_stops hk hm)), ?_,
    (State.ampRelease_aside _ (State.ampCauseEnds_aside _ (State.ampOff_aside _ (State.setAmp_aside _ _ (.refl s))))).sameMemory⟩
  rw [State.ampState_ampRelease, ← s.offState_congr (s.ampMain_div c)]
  exact State.ampState_ampOff_mem (s := s.setAmp _ _) (State.self_mem_ampPair ..)

theorem exec_ampRetry_other (hk : s.rd (ampState (s.ampMain c)) ≠ 6) : exec (.ampRetry c) s = .next s := congrArg Host.Outcome.next (if_pos hk)

theorem exec_ampRetry_held (hk : s.rd (ampState (s.ampMain c)) = 6) (hh : (s.ampGroup (c / 8)).hold = true) :
    exec (.ampRetry c) s = .next (s.setAmp (s.ampMain c) { s.amp (s.ampMain c) with retryDue := true }) :=
  congrArg Host.Outcome.next ((if_neg (not_not_intro hk)).trans (if_pos hh))

theorem exec_ampRetryReset (hk : s.rd (ampState (s.ampMain c)) = 3) :
    exec (.ampRetryReset c) s = .next (s.wr (R.AMPc_STATUS_retries (s.ampMain c)) 0) := congrArg Host.Outcome.next (if_pos hk)

theorem exec_ampClear_other (hk : s.rd (ampState (s.ampMain c)) ≠ 7) : exec (.ampClear c) s = .next s := congrArg Host.Outcome.next (if_neg hk)

theorem completes_ampClear (hk : s.rd (ampState (s.ampMain c)) = 7) : Completes (.ampClear c) s fun t =>
    t.rd (ampState (s.ampMain c)) = s.offState c ∧ t.rd (R.AMPc_STATUS_retries (s.ampMain c)) = 0 ∧ SameMemory s t := by
  have hrail : (s.wr (R.AMPc_STATUS_retries (s.ampMain c)) 0).offState c = s.offState c :=
    State.offState_of_railOk (s.rd_wr_apart 0 (.inr (show 3 + 1 ≤ 4 by decide)))
  refine ⟨(((s.wr (R.AMPc_STATUS_retries (s.ampMain c)) 0).ampOff (s.ampMain c)).ampCauseEnds (s.ampMain c)), congrArg Host.Outcome.next (if_pos hk),
    ?_, ?_, (State.ampCauseEnds_aside _ (State.ampOff_aside _ (State.wr_aside _ _ (.refl s)))).sameMemory⟩
  · rw [← hrail, ← State.offState_congr (s.ampMain_div c)]
    exact State.ampState_ampOff_mem (State.self_mem_ampPair ..)
  · exact ((Steady.ampOff (s.wr (R.AMPc_STATUS_retries (s.ampMain c)) 0) _).rd _ (.retries _)).trans
      (s.rd_wr_same (R.AMPc_STATUS_retries (s.ampMain c)) 0 (show 4 + 4 ≤ 32 by decide))

end

/-! ## Retries held by a driver fault (09 R258) -/

section
variable {a : Fin 4}

/-- The hold of a driver fault on boots is over. -/
def State.holdEnds (s : State) (a : Nat) : State :=
  ((s.setAmpGroup a { s.ampGroup a with hold := false }).wr (R.AMP_GRPa_STATUS_drv_flt a) 0).endCause (70 + a) 4

/-- A retry that fell due during the hold is made. -/
def State.heldRetry (a : Nat) (s : State) (i : Nat) : State := if (s.amp (8 * a + i)).retryDue then s.ampRetries (8 * a + i) else s

theorem exec_drvFltReleaseHoldEnd (h : (s.ampGroup a).hold = true) :
    exec (.drvFltReleaseHoldEnd a) s = .next ((List.range 8).foldl (State.heldRetry a) (s.holdEnds a)) :=
  congrArg Host.Outcome.next (if_neg (by rw [h]; decide))

theorem exec_drvFltReleaseHoldEnd_none (h : (s.ampGroup a).hold = true) (hd : ∀ i < 8, (s.amp (8 * a + i)).retryDue = false) :
    exec (.drvFltReleaseHoldEnd a) s = .next (s.holdEnds a) := by
  refine (exec_drvFltReleaseHoldEnd h).trans (congrArg Host.Outcome.next ?_)
  refine List.foldlRecOn (motive := fun t => t = s.holdEnds a) _ _ rfl ?_
  rintro t rfl i hi
  exact if_neg (ne_true_of_eq_false (hd i (List.mem_range.1 hi)))

theorem State.rd_holdEnds (s : State) (a : Nat) (h : f.lsb + f.width ≤ 2 ∨ 3 ≤ f.lsb) : (s.holdEnds a).rd f = s.rd f :=
  State.rd_wr_apart (s.setAmpGroup a _) 0 h.symm

theorem State.ampState_holdEnds (s : State) (a c : Nat) : (s.holdEnds a).rd (ampState c) = s.rd (ampState c) :=
  State.rd_wr_other (s.setAmpGroup a _) 0 (ampStatus_ne_groupStatus c a)

theorem State.ampMay_holdEnds (s : State) (a c : Nat) : (s.holdEnds a).ampMay c = s.ampMay c := by
  have hbit (b : Nat) {i : Nat} (hi : i ≠ 2) : (s.holdEnds a).is ⟨b, i, 1⟩ = s.is ⟨b, i, 1⟩ := State.is_congr (s.rd_holdEnds a (by simp only; omega))
  have hmain : (s.holdEnds a).ampMain c = s.ampMain c := State.ampMain_of_btl (fun b => s.rd_holdEnds a (.inr (show 3 ≤ 16 by decide))) c
  have hheld (m : Nat) : (s.holdEnds a).holds m = s.holds m := by
    have hreg : (s.holdEnds a).reg R.CFG_MODE_HELD = s.reg R.CFG_MODE_HELD := by
      refine State.reg_wr_ne (s.setAmpGroup a _) 0 ?_
      simp only [R.CFG_MODE_HELD, R.AMP_GRPa_STATUS_drv_flt, R.AMP_GRPa_STATUS]
      omega
    simp only [State.holds, hreg]
  simp only [State.ampMay, State.ampAssigned, R.AMP_GRPa_CFG_assigned, R.AMP_GRPa_CTRL_en, R.AMP_GRPa_STATUS_leave, R.AMPc_CTRL_en,
    R.AMP_GRPa_STATUS_hard, R.AMP_GRPa_STATUS_rail_ok, hmain, hheld, hbit _ (i := 7) (by decide), hbit _ (i := 0) (by decide),
    hbit _ (i := 4) (by decide), hbit _ (i := 3) (by decide)]

theorem completes_drvFltReleaseHoldEnd_retries {c : Fin 32} (h : (s.ampGroup a).hold = true) (hc : c.val / 8 = a.val) (hn : s.ampMain c = c.val)
    (hk : s.rd (ampState (s.ampMain c)) = 6) (hm : s.ampMay c = true) (hd : ∀ i < 8, (s.amp (8 * a + i)).retryDue = decide (8 * a.val + i = c.val)) :
    Completes (.drvFltReleaseHoldEnd a) s fun t => t.rd (ampState c) = 1 ∧ (t.ampGroup a).hold = false ∧ SameMemory s t := by
  have hchannel : 8 * a.val + c % 8 = c := by omega
  have hmem : c.val % 8 ∈ List.range 8 := List.mem_range.2 (by omega)
  have hstate : (s.holdEnds a).rd (ampState c) = 6 := by rw [State.ampState_holdEnds, ← hn, hk]
  have hmay : (s.holdEnds a).ampMay c = true := by rw [State.ampMay_holdEnds, hm]
  have hdone := State.ampRetries_aside hstate hmay
  have hretried (i : Nat) (hi : i < 8) : (((s.holdEnds a).ampRetries c).amp (8 * a + i)).retryDue = false := by
    rw [State.amp_ampRetries hstate hmay]
    by_cases hi' : 8 * a.val + i = c.val
    · rw [hi', State.amp_setAmp_self]
    · rw [State.amp_setAmp_ne _ _ hi']
      exact (hd i hi).trans (decide_eq_false hi')
  have hfix (i : Nat) (hi : i ∈ List.range 8) : State.heldRetry a ((s.holdEnds a).ampRetries c) i = (s.holdEnds a).ampRetries c :=
    if_neg (ne_true_of_eq_false (hretried i (List.mem_range.1 hi)))
  have hown : State.heldRetry a (s.holdEnds a) (c % 8) = (s.holdEnds a).ampRetries c := by
    have hdue : ((s.holdEnds a).amp (8 * a + c % 8)).retryDue = true := (hd _ (List.mem_range.1 hmem)).trans (decide_eq_true hchannel)
    rw [State.heldRetry, if_pos hdue, hchannel]
  have hother (i : Nat) (hi : i ∈ List.range 8) (hne : i ≠ c % 8) : State.heldRetry a (s.holdEnds a) i = s.holdEnds a := by
    have hdue : ((s.holdEnds a).amp (8 * a + i)).retryDue = false := (hd i (List.mem_range.1 hi)).trans (decide_eq_false (by omega))
    exact if_neg (ne_true_of_eq_false hdue)
  have hfold : (List.range 8).foldl (State.heldRetry a) (s.holdEnds a) = (s.holdEnds a).ampRetries c := by
    refine foldl_brings (P := fun t => t = s.holdEnds a ∨ t = (s.holdEnds a).ampRetries c) (Q := fun t => t = (s.holdEnds a).ampRetries c) hmem
      (.inl rfl) ?_ ?_ ?_
    · rintro t (rfl | rfl) i hi
      · by_cases hi' : i = c % 8
        · exact .inr (by rw [hi', hown])
        · exact .inl (hother i hi hi')
      · exact .inr (hfix i hi)
    · rintro t (rfl | rfl)
      · exact hown
      · exact hfix _ hmem
    · rintro t rfl i hi
      exact hfix i hi
  refine ⟨_, (exec_drvFltReleaseHoldEnd h).trans (congrArg Host.Outcome.next hfold), State.ampState_ampRetries hstate hmay, ?_, ?_⟩
  · rw [State.ampGroup, hdone.ampGroups]
    exact congrArg AmpGroup.hold (Tab.get_set_self ..)
  · exact hdone.sameMemory

end

/-! ## The rail's qualification and the end of safe states (09 R259, R265) -/

section
variable {a : Fin 4}

/-- A channel in rail_wait passes to off. -/
def State.railWaitEnds (a : Nat) (s : State) (i : Nat) : State := if s.rd (ampState (8 * a + i)) = 8 then s.ampEnter (8 * a + i) 0 else s

/-- The rail is qualified, and says so. -/
def State.railQualifies (s : State) (a : Nat) : State := (s.wr (R.AMP_GRPa_STATUS_rail_ok a) 1).ampGrpEvent a 3

theorem exec_railQualified (ha : s.ampAssigned a = true) (hr : s.is (R.AMP_GRPa_STATUS_rail_ok a) = false)
    (hi : s.ampLoopRate a ≤ (s.ampGroup a).inner * 10) : exec (.railQualified a) s
      = .next ((((List.range 8).foldl (State.railWaitEnds a) (s.railQualifies a)).endCause (70 + a) 1).endCause (70 + a) 2) :=
  congrArg Host.Outcome.next (if_neg (by simp [ha, hr, hi]))

theorem State.railWaitEnds_leaves (s : State) (a : Nat) : Leaves a 8 0 (State.railWaitEnds a) s := by
  refine ⟨fun t _ i _ hx => ?_, fun t i _ hx => if_neg hx⟩
  rw [State.railWaitEnds, if_pos hx]
  exact ⟨.ampEnter .., t.ampState_ampEnter (by decide) _⟩

theorem completes_railQualified (ha : s.ampAssigned a = true) (hr : s.is (R.AMP_GRPa_STATUS_rail_ok a) = false)
    (hi : s.ampLoopRate a ≤ (s.ampGroup a).inner * 10) : Completes (.railQualified a) s fun t =>
      t.is (R.AMP_GRPa_STATUS_rail_ok a) = true ∧ t.is (bitAt (R.AMP_GRPa_INT_STATUS a) 3) = true ∧
      (∀ i < 8, s.rd (ampState (8 * a + i)) = 8 → t.rd (ampState (8 * a + i)) = 0) ∧ SameMemory s t := by
  have hleaves := (s.railQualifies a).railWaitEnds_leaves a
  have haside : Aside s ((List.range 8).foldl (State.railWaitEnds a) (s.railQualifies a)) :=
    Aside.foldl (State.raise_aside _ (State.wr_aside _ _ (.refl s))) fun t i h => Aside.ite (State.ampEnter_aside _ _ h) h
  have hstate (d : Nat) : (s.railQualifies a).rd (ampState d) = s.rd (ampState d) := by
    refine (State.rd_wr_other _ 1 ?_).trans (s.ampState_wr_groupStatus a 3 1 d)
    simp only [ampState, R.AMPc_STATUS_state, R.AMPc_STATUS, bitAt, R.AMP_GRPa_INT_STATUS]
    omega
  refine ⟨_, exec_railQualified ha hr hi, ?_, ?_, fun i hi hw => ?_, (State.endCause_aside _ _ (State.endCause_aside _ _ haside)).sameMemory⟩
  · rw [State.is, State.rd_endCause, State.rd_endCause, ← State.is]
    have hset : (s.railQualifies a).is (R.AMP_GRPa_STATUS_rail_ok a) = (s.raise (R.AMP_GRPa_STATUS_rail_ok a)).is (R.AMP_GRPa_STATUS_rail_ok a) := by
      refine State.is_congr (State.rd_wr_other _ 1 ?_)
      simp only [R.AMP_GRPa_STATUS_rail_ok, R.AMP_GRPa_STATUS, bitAt, R.AMP_GRPa_INT_STATUS]
      omega
    exact (hleaves.steady.railOk a).trans (hset.trans (s.is_raise _ (show 3 + 1 ≤ 32 by decide) Nat.one_pos))
  · rw [State.is, State.rd_endCause, State.rd_endCause, ← State.is]
    exact (hleaves.steady.is (.groupEvent a 3)).trans (State.is_raise _ _ (show 3 + 1 ≤ 32 by decide) Nat.one_pos)
  · rw [State.rd_endCause, State.rd_endCause]
    exact hleaves.left (by decide) (by omega) ((hstate _).trans hw)

theorem completes_ampSafeRelease (c : Fin 32) (hm : s.muteAmp a = false) (hh : s.hardAmp = false) : Completes (.ampSafeRelease a) s fun t =>
    t.is (R.AMP_GRPa_STATUS_mute a) = false ∧ t.is (R.AMP_GRPa_STATUS_hard a) = false ∧ SameMemory s t ∧
      (c.val / 8 = a.val → s.is (R.AMP_GRPa_STATUS_mute a) = true → (∀ e ∈ s.ampPair c, s.rd (ampState e) = 4) → t.rd (ampState c) = 3) ∧
      (c.val / 8 = a.val → s.is (R.AMP_GRPa_STATUS_hard a) = true → (∀ e ∈ s.ampPair c, s.rd (ampState e) = 9) → t.rd (ampState c) = s.offState c) := by
  have hexec : exec (.ampSafeRelease a) s = .next ((s.hardReleased a).muteReleased a) := by
    rw [← State.ampUnsafe_released, exec, execAmpSafeRelease, hm, hh]
  have hhard := s.hardReleased_ends a
  have hmute := (s.hardReleased a).muteReleased_ends a
  have hpair := hhard.ampPair (by decide) c
  refine ⟨_, hexec, hmute.cleared, ?_, (State.ampUnsafe_aside a false false (.refl s)).sameMemory, fun hc hset hall => ?_, fun hc hset hall => ?_⟩
  · exact (State.is_congr (hmute.rd _ (.groupStatus a (by decide : 4 < 8)) (.inl (Nat.le_refl 5)))).trans hhard.cleared
  · have hstill : (s.hardReleased a).is (R.AMP_GRPa_STATUS_mute a) = true :=
      (State.is_congr (hhard.rd _ (.groupStatus a (by decide : 5 < 8)) (.inr (Nat.le_refl 5)))).trans hset
    have hkept := hhard.kept c fun e he => by rw [hall e he]; decide
    exact hmute.left hstill c hc ((hkept c (s.self_mem_ampPair c)).trans (hall c (s.self_mem_ampPair c)))
  · have hoff : s.offState (8 * a) = s.offState c := s.offState_congr (by omega)
    have hleft (e : Nat) (he : e ∈ s.ampPair c) : (s.hardReleased a).rd (ampState e) = s.offState c :=
      (hhard.left hset e (by rw [State.div_of_mem_ampPair he, hc]) (hall e he)).trans hoff
    have hkept := hmute.kept c fun e he => by
      rw [hleft e (hpair ▸ he)]
      unfold State.offState
      split <;> decide
    exact (hkept c (State.self_mem_ampPair ..)).trans (hleft c (s.self_mem_ampPair c))

end

end Sys2Proof.Machine
end

section
open Sys2Proof Sys2Proof.Machine

/-- Settles O38, clause by clause: entering a state moves the whole pair and nothing steady (`State.ampState_ampEnter`, `Steady.ampEnter`), and a group's
channels leave rail_wait, mute and hard in one pass over the eight channels (`Leaves`, `SafeEnds`). -/
theorem amplifierStates : Obligations.AmplifierStates := by
  unfold Obligations.AmplifierStates
  intro s a c n k off
  exact ⟨fun en h => exec_ampGroupEnable_unassigned h en, completes_ampGroupEnable,
    fun ha hb => ⟨completes_ampChannelEnable_boots ha hb, completes_ampChannelEnable_fades ha hb⟩,
    completes_ampBootEnd, exec_ampBootEnd_other, completes_ampCmRampEnd_run, completes_ampCmRampEnd_mute, exec_ampCmRampEnd_running,
    exec_ampCmRampEnd_low, completes_ampFadeOutEnd, completes_ampOffReached, completes_ampRetry_boots, completes_ampRetry_stops, exec_ampRetry_other,
    exec_ampRetry_held, exec_ampRetryReset, completes_ampClear, exec_ampClear_other, exec_drvFltReleaseHoldEnd_none,
    completes_drvFltReleaseHoldEnd_retries, completes_railQualified, completes_ampSafeRelease c⟩

end

section
/-!
An offset estimate out of its range where a fault of another source stands unacknowledged (09 R265, R266; 19 R483, R485): the level-1 report is raised to
level 2, and the scope of the channel's source mutes the group in the same command.
-/
namespace Sys2Proof.Machine

/-- After first audio, AMP9 runs in group 1 of domain A and has been muted once. Its window ends with a sum whose estimate is out of range. A record of
AMP8 at level 1 is not acknowledged, and FLT_SCOPE105 names the TDM and AMP outputs of domain A, as in chapter 19's example. -/
def scopedCalibration : State :=
  let placed := ((State.reset.wr R.GLB_BOOT_STATUS_state 6).wr (R.AMP_GRPa_CFG_assigned 1) 1).setReg (R.FLT_SCOPEs 105) 0x31
  let running := (placed.wr (ampState 9) 3).setReg (R.AMPc_CAL_CTRL 9) 1
  let channel := running.setAmp 9 { window := 2 ^ 21, sumV := 10 ^ 6, mutePos := 64 }
  channel.report 104 6 1

theorem scopedCalibration_due : scopedCalibration.ampMain 9 = 9 ∧ scopedCalibration.rd (ampState 9) = 3 ∧
    scopedCalibration.amp 9 = { window := 2 ^ 21, sumV := 10 ^ 6, mutePos := 64 } ∧
    getBits (scopedCalibration.reg (R.AMPc_CAL_CTRL 9)) 0 3 = 1 := by decide +kernel

/-- The report of the estimate takes effect on the channel itself: it is in mute, and its mute ramp begins. -/
theorem scopedCalibration_mutes : ∃ t, exec (.calibrationWindow 9 none) scopedCalibration = .next t ∧ t.rd (ampState 9) = 4 ∧ (t.amp 9).mutePos = 0 :=
  ⟨_, rfl, by decide +kernel, by decide +kernel⟩

end Sys2Proof.Machine
end

section
open Sys2Proof Sys2Proof.Machine

/-- Refutes O39: the clause of CALIBRATION_WINDOW lets nothing of the channel differ but its window and its estimate, and an estimate out of range is a
level-1 fault, which an unacknowledged record of another source raises to level 2, and that mutes the channels its scope names (09 R265, R266; 19 R483,
R485): in `scopedCalibration` the channel's mute ramp is set back. -/
theorem not_amplifierProtection : ¬ Obligations.AmplifierProtection := by
  unfold Obligations.AmplifierProtection
  intro h
  let c : Fin 32 := 9
  obtain ⟨hmain, hrun, hchannel, henabled⟩ := scopedCalibration_due
  obtain ⟨-, -, -, -, -, -, -, -, hwindow, -⟩ := h scopedCalibration 1 c
  have hlong : 2 ^ 21 ≤ (scopedCalibration.amp c).window := (congrArg AmpChannel.window hchannel).ge
  obtain ⟨t, hexec, hleft, -⟩ := hwindow none hmain ((congrArg (fun n => scopedCalibration.rd (ampState n)) hmain).trans hrun) hlong henabled
  obtain ⟨u, hexec', -, hreset⟩ := scopedCalibration_mutes
  have htu : t = u := Host.Outcome.next.inj (hexec.symm.trans hexec')
  have hkept : (t.amp c).mutePos = 64 := (congrArg AmpChannel.mutePos hleft).trans (congrArg AmpChannel.mutePos hchannel)
  exact absurd (hkept.symm.trans ((congrArg (fun t : State => (t.amp 9).mutePos) htu).trans hreset)) (by decide)

end

section
/-!
The registers a fault report leaves alone (19 R482 to R490): it reaches those of CFG, FLT, FOV, the lanes, TDM and AMP, and CLK_OK. The candidates, the
domains and the outputs of CLK, the time bases, the MACs and the streams lie from 0x5_0100 up to 0xA_0000, and keep their registers.
-/
namespace Sys2Proof.Machine
-- One proof at a time: a side condition filled in by `by` waits for the kernel, and many waiting side by side take too much memory.
set_option Elab.async false

/-- The registers from 0x5_0100 up to 0xA_0000 are in `t` as in `s`. -/
structure ClkRegs (s t : State) : Prop where
  reg : ∀ a, 0x50100 ≤ a → a < 0xA0000 → t.reg a = s.reg a

variable {s₀ s t : State} {a : Nat} {f : FieldAt}

theorem ClkRegs.refl (s : State) : ClkRegs s s := ⟨fun _ _ _ => rfl⟩

/-- A change of no register. -/
theorem ClkRegs.congr (h : ClkRegs s₀ s) (hr : t.regs = s.regs := by rfl) : ClkRegs s₀ t :=
  ⟨fun a hlo hhi => by rw [← h.reg a hlo hhi]; simp only [State.reg, hr]⟩

theorem ClkRegs.ite {p : Prop} [Decidable p] (h : ClkRegs s₀ s) (h' : ClkRegs s₀ t) : ClkRegs s₀ (if p then s else t) := by split <;> assumption

theorem ClkRegs.foldl {α : Type} {l : List α} {f : State → α → State} (h : ClkRegs s₀ s) (k : ∀ t x, ClkRegs s₀ t → ClkRegs s₀ (f t x)) :
    ClkRegs s₀ (l.foldl f s) := by
  induction l generalizing s with
  | nil => exact h
  | cons x l ih => exact ih (k _ x h)

theorem ClkRegs.setReg (v : Word) (ha : a < 0x50100 ∨ 0xA0000 ≤ a) (h : ClkRegs s₀ s) : ClkRegs s₀ (s.setReg a v) :=
  ⟨fun b hlo hhi => (s.reg_setReg_ne v (by omega)).trans (h.reg b hlo hhi)⟩

section
variable (hf : f.addr < 0x50100 ∨ 0xA0000 ≤ f.addr) (h : ClkRegs s₀ s)
include hf h
theorem ClkRegs.wr (v : Nat) : ClkRegs s₀ (s.wr f v) := h.setReg _ hf
theorem ClkRegs.raise : ClkRegs s₀ (s.raise f) := h.wr hf _
theorem ClkRegs.bump (m : Nat) : ClkRegs s₀ (s.bump f m) := h.wr hf _
theorem ClkRegs.hw (v : Nat) : ClkRegs s₀ (s.hw f v) := (h.wr hf v).congr
end

/-! ## Safe states (19 R486; 08 R244; 09 R265; 13 R356; 15 R393) -/

theorem ClkRegs.hwMode (m : Nat) (on : Bool) (h : ClkRegs s₀ s) : ClkRegs s₀ (s.hwMode m on) := by
  have hcfg {b : Nat} (i : Nat) (hb : b < 0x50100) : (bitAt b i).addr < 0x50100 ∨ 0xA0000 ≤ (bitAt b i).addr := .inl hb
  have hset := (h.wr (hcfg m (by decide : R.CFG_MODE_HWREQ < _)) (b2n on)).raise (f := R.CFG_INT_STATUS_hw_mode) (by decide)
  exact h.ite (((hset.raise (hcfg m (by decide : R.CFG_REFUSED < _))).raise (f := R.CFG_INT_STATUS_refused) (by decide)).ite hset)

section
variable (n : Nat)

theorem lane_beside : 0xA0000 ≤ R.LANEn_STATUS n ∧ 0xA0000 ≤ R.LANEn_SCAN_STATUS n ∧ 0xA0000 ≤ R.LANEn_INT_STATUS n ∧ 0xA0000 ≤ R.LANEn_EB n ∧
    0xA0000 ≤ R.LANEn_LOOP n ∧ 0xA0000 ≤ R.LANEn_PRBS_CTRL n := by
  simp only [R.LANEn_STATUS, R.LANEn_SCAN_STATUS, R.LANEn_INT_STATUS, R.LANEn_EB, R.LANEn_LOOP, R.LANEn_PRBS_CTRL]
  omega

theorem audio_beside : 0xA0000 ≤ R.TDM_GRPg_STATUS n ∧ 0xA0000 ≤ R.AMP_GRPa_STATUS n ∧ 0xA0000 ≤ R.AMPc_STATUS n ∧ 0xA0000 ≤ R.AMPc_INT_STATUS n := by
  simp only [R.TDM_GRPg_STATUS, R.AMP_GRPa_STATUS, R.AMPc_STATUS, R.AMPc_INT_STATUS]
  omega

variable (h : ClkRegs s₀ s)
include h

theorem ClkRegs.setGrp (r : TdmGroup) : ClkRegs s₀ (s.setGrp n r) := by
  obtain ⟨hs, -⟩ := audio_beside n
  unfold State.setGrp
  extract_lets q s₁ s₂ s₃
  have h₁ : ClkRegs s₀ s₁ := h.congr
  have h₂ : ClkRegs s₀ s₂ := h₁.wr (f := R.TDM_GRPg_STATUS_state n) (.inr hs) _
  have h₃ : ClkRegs s₀ s₃ := h₂.wr (f := R.TDM_GRPg_STATUS_domain n) (.inr hs) _
  exact h₂.ite (ClkRegs.ite ((h₃.wr (f := R.TDM_GRPg_STATUS_fs_present n) (.inr hs) 1).wr (f := R.TDM_GRPg_STATUS_bclk_present n) (.inr hs) 1) h₃)

theorem ClkRegs.tdmSafe (on : Bool) : ClkRegs s₀ (s.tdmSafe n on) := h.ite (h.setGrp n _)

theorem ClkRegs.ampEnter (k : Nat) : ClkRegs s₀ (s.ampEnter n k) :=
  h.foldl fun _ c ht => (ht.wr (f := ampState c) (.inr (audio_beside c).2.2.1) k).wr (.inr (audio_beside (c / 8)).2.1) _

theorem ClkRegs.ampRelease : ClkRegs s₀ (s.ampRelease n) := by
  obtain ⟨-, hs, -⟩ := audio_beside n
  exact ClkRegs.ite (((h.wr (f := R.AMP_GRPa_STATUS_drv_en n) (.inr hs) 0).wr (f := R.AMP_GRPa_STATUS_leave n) (.inr hs) 0).congr) h

theorem ClkRegs.ampSafe (mute hard : Bool) : ClkRegs s₀ (s.ampSafe n mute hard) := by
  obtain ⟨-, hs, -⟩ := audio_beside n
  unfold State.ampSafe
  refine h.ite ?_
  extract_lets s₁ s₂ s₃ s₄
  have h₁ : ClkRegs s₀ s₁ := (h.wr (f := R.AMP_GRPa_STATUS_hard n) (.inr hs) 1).wr (f := R.AMP_GRPa_STATUS_drv_en n) (.inr hs) 0
  have h₂ : ClkRegs s₀ s₂ := ClkRegs.ite (h₁.foldl fun _ _ ht => ht.ite (ClkRegs.ite (ht.ampEnter _ 9).congr (ht.ampEnter _ 9))) h
  have h₃ : ClkRegs s₀ s₃ := h₂.wr (f := R.AMP_GRPa_STATUS_mute n) (.inr hs) 1
  have h₄ : ClkRegs s₀ s₄ := ClkRegs.ite (h₃.foldl fun _ _ ht => ClkRegs.ite (ClkRegs.ampEnter _ ht.congr 4) ht) h₂
  exact h₄.ampRelease n

theorem ClkRegs.ampUnsafe (mute hard : Bool) : ClkRegs s₀ (s.ampUnsafe n mute hard) := by
  obtain ⟨-, hs, -⟩ := audio_beside n
  unfold State.ampUnsafe
  extract_lets s₁ s₂ s₃
  have h₁ : ClkRegs s₀ s₁ := h.wr (f := R.AMP_GRPa_STATUS_hard n) (.inr hs) 0
  have h₂ : ClkRegs s₀ s₂ := ClkRegs.ite (h₁.foldl fun _ _ ht => ClkRegs.ite (ht.ampEnter _ _) ht) h
  have h₃ : ClkRegs s₀ s₃ := h₂.wr (f := R.AMP_GRPa_STATUS_mute n) (.inr hs) 0
  refine ClkRegs.ite (h₃.foldl fun _ _ ht => ClkRegs.ite ?_ ht) h₂
  exact ClkRegs.raise (.inr (audio_beside _).2.2.2) (ClkRegs.ampEnter _ ht.congr 3)

theorem ClkRegs.laneBelow (v : Nat) : ClkRegs s₀ (s.laneBelow n v) := by
  obtain ⟨hs, hscan, hint, heb, -⟩ := lane_beside n
  unfold State.laneBelow
  extract_lets s₁ s₂ s₃
  have hscan : ClkRegs s₀ (s.scanAbort n) := ClkRegs.ite ((h.setReg 0 (.inr hscan)).raise (f := R.LANEn_INT_STATUS_scan_abort n) (.inr hint)) h
  have hdrop : ClkRegs s₀ ((s.scanAbort n).readaptDrop n) := ClkRegs.wr (f := R.LANEn_STATUS_leave n) (.inr hs) hscan.congr 0
  have h₁ : ClkRegs s₀ s₁ := hdrop.wr (f := R.LANEn_STATUS_state n) (.inr hs) v
  have h₂ : ClkRegs s₀ s₂ := (h₁.wr (f := R.LANEn_STATUS_cdr_lock n) (.inr hs) 0).ite h₁
  have h₃ : ClkRegs s₀ s₃ := (h₂.wr (f := R.LANEn_STATUS_sig_det n) (.inr hs) 0).ite h₂
  exact ClkRegs.ite (h₃.setReg 0x101010 (.inr heb)).congr h₃
end

theorem ClkRegs.judgeFence (h : ClkRegs s₀ s) : ClkRegs s₀ s.judgeFence := by
  unfold State.judgeFence
  extract_lets free s₁
  have h₁ : ClkRegs s₀ s₁ := (h.wr (f := R.FOV_STATUS_fence) (by decide) _).congr
  exact h.ite (ClkRegs.ite h₁.congr h₁)

theorem ClkRegs.stopNetTests (h : ClkRegs s₀ s) : ClkRegs s₀ s.stopNetTests := by
  unfold State.stopNetTests
  refine h.ite (h.foldl fun t n ht => ?_)
  obtain ⟨hs, -, hint, -, hloop, hprbs⟩ := lane_beside n
  have hgen (u : State) (hu : ClkRegs s₀ u) : ClkRegs s₀ (u.hw ⟨R.LANEn_PRBS_CTRL n, 0, 4⟩ 0) := hu.hw (.inr hprbs) 0
  have hoff := hgen _ (ht.hw (f := ⟨R.LANEn_LOOP n, 0, 2⟩) (.inr hloop) 0)
  refine ClkRegs.ite (ClkRegs.raise (f := R.LANEn_INT_STATUS_gen_stopped n) (.inr hint) ?_)
    (ClkRegs.ite ((hgen t ht).raise (f := R.LANEn_INT_STATUS_gen_stopped n) (.inr hint)) ht)
  exact ClkRegs.congr (((hoff.laneBelow n 3).wr (f := R.LANEn_STATUS_sig_det n) (.inr hs) 1).ite hoff)

theorem ClkRegs.applySafe (h : ClkRegs s₀ s) : ClkRegs s₀ s.applySafe := by
  unfold State.applySafe
  extract_lets s₁ s₂ hard s₃ s₄
  have h₁ : ClkRegs s₀ s₁ := h.judgeFence.stopNetTests
  have h₂ : ClkRegs s₀ s₂ := h₁.foldl fun _ g ht => (ht.tdmSafe g _).ite (ht.setGrp g _)
  have h₃ : ClkRegs s₀ s₃ := h₂.foldl fun _ a ht => (ht.ampSafe a _ _).ampUnsafe a _ _
  have h₄ : ClkRegs s₀ s₄ := h₃.foldl fun _ i ht => ht.wr (.inr (lane_beside (2 + i)).1) 1
  exact ClkRegs.ite (ClkRegs.ite (h₄.wr (f := R.CLK_STATUS_clk_ok) (by decide) 0).congr h₄) h₃

/-! ## The report (19 R482 to R485) -/

theorem ClkRegs.assertErr (l : Nat) (h : ClkRegs s₀ s) : ClkRegs s₀ (s.assertErr l) := by
  unfold State.assertErr
  refine ClkRegs.ite ?_ h
  extract_lets q s₁ s₂
  have h₁ : ClkRegs s₀ s₁ := h.congr
  have h₂ : ClkRegs s₀ s₂ := h₁.hw (f := R.FLT_ERR_CTRL_hold) (by decide) 1
  exact h₂.ite (h₂.wr (f := R.FLT_STATUS_err_n) (by decide) 1).congr

theorem ClkRegs.react (source l : Nat) (h : ClkRegs s₀ s) : ClkRegs s₀ (s.react source l) := by
  have hstatus (i : Nat) : (bitAt R.FLT_STATUS i).addr < 0x50100 ∨ 0xA0000 ≤ (bitAt R.FLT_STATUS i).addr := .inl (by decide : R.FLT_STATUS < _)
  unfold State.react
  refine ClkRegs.ite ?_ (ClkRegs.ite ?_ (ClkRegs.ite ?_ h))
  · extract_lets scope q s₁
    have h₁ : ClkRegs s₀ s₁ := h.congr
    exact h.ite (h₁.wr (hstatus 18) 1).applySafe
  · exact ((h.wr (hstatus 19) 1).hwMode 11 true).applySafe
  · extract_lets q s₁
    have h₁ : ClkRegs s₀ s₁ := h.congr
    exact ((h₁.wr (hstatus 20) 1).wr (f := R.FLT_STATUS_halted) (by decide) 1).applySafe

theorem ClkRegs.logRecord (r : FaultRecord) (h : ClkRegs s₀ s) : ClkRegs s₀ (s.logRecord r) := by
  unfold State.logRecord
  refine h.congr.ite ?_
  extract_lets q s₁
  have h₁ : ClkRegs s₀ s₁ := h.congr
  exact (h₁.bump (f := highHalf R.FLT_LOG_STATUS) (by decide) 1).raise (f := R.FLT_INT_STATUS_log_ovf) (by decide)

theorem ClkRegs.report (source code level : Nat) (h : ClkRegs s₀ s) : ClkRegs s₀ (s.report source code level) := by
  have hcount (l : Nat) : fltCount l < 0x50100 ∨ 0xA0000 ≤ fltCount l := .inl (by simp only [fltCount, R.FLT_COUNTL]; omega)
  have hevent (i : Nat) : (bitAt R.FLT_INT_STATUS i).addr < 0x50100 ∨ 0xA0000 ≤ (bitAt R.FLT_INT_STATUS i).addr :=
    .inl (by decide : R.FLT_INT_STATUS < _)
  unfold State.report State.reportAs
  split
  · next r _ =>
    extract_lets q s₁
    have h₁ : ClkRegs s₀ s₁ := h.congr
    exact h₁.bump (f := highHalf (fltCount r.level)) (hcount _) 1
  · extract_lets l
    split
    extract_lets r s₁ s₂
    have h₁ : ClkRegs s₀ s₁ := (h.logRecord r).raise (hevent l)
    have h₂ : ClkRegs s₀ s₂ := (h₁.raise (f := R.FLT_INT_STATUS_escalated) (by decide)).ite h₁
    exact ((h₂.bump (f := lowHalf (fltCount l)) (hcount _) 1).assertErr l).react source l

end Sys2Proof.Machine
end

section
/-!
What an operation of the clocks can change (10 R276 to R290): fields of CLK, which it names, the DPLLs it names, and beside them what a fault report
reaches. Every other field of CLK, and the rest of the state, stays.
-/
namespace Sys2Proof.Machine
-- One proof at a time: a side condition filled in by `by` waits for the kernel, and many waiting side by side take too much memory.
set_option Elab.async false

/-- The fields share no bit. -/
def FieldAt.apart (f g : FieldAt) : Bool := f.addr != g.addr || decide (f.lsb + f.width ≤ g.lsb ∨ g.lsb + g.width ≤ f.lsb)

/-- The field lies where no fault report reaches and shares no bit with those of `W`. -/
def spares (W : List FieldAt) (f : FieldAt) : Bool := decide (0x50100 ≤ f.addr ∧ f.addr < 0xA0000) && W.all f.apart

/-- `t` differs from `s` in the fields `W`, the DPLLs of the domains `D` and what a fault report reaches; which domains the lead's timing does not fit, and
all other state but GLB's, stay. -/
structure ClockOnly (W : List FieldAt) (D : List Nat) (s t : State) : Prop where
  rd : ∀ f, spares W f = true → t.rd f = s.rd f
  dpll : ∀ x, x ∉ D → t.dpll x = s.dpll x
  lead : ∀ x, (t.dpll x).leadAbsent = (s.dpll x).leadAbsent
  rest : { t with
    regs := s.regs, layers := s.layers, outbox := s.outbox, flt := s.flt, fov := s.fov, tdm := s.tdm, amps := s.amps, weir := s.weir, lanes := s.lanes,
    dplls := s.dplls, glb := s.glb } = s

variable {s t u : State} {W V : List FieldAt} {D E : List Nat} {f g : FieldAt} {a c x y : Nat}

theorem spares_append : spares (W ++ V) f = true ↔ spares W f = true ∧ spares V f = true := by
  simp only [spares, List.all_append, Bool.and_eq_true]
  tauto

theorem spares_of_subset (h : W ⊆ V) (hf : spares V f = true) : spares W f = true := by
  simp only [spares, Bool.and_eq_true, List.all_eq_true] at hf ⊢
  exact ⟨hf.1, fun g hg => hf.2 g (h hg)⟩

theorem State.rd_wr_of_apart (s : State) (v : Nat) (h : f.apart g = true) : (s.wr g v).rd f = s.rd f := by
  simp only [FieldAt.apart, Bool.or_eq_true, bne_iff_ne, decide_eq_true_eq] at h
  obtain h | h := h
  · exact s.rd_wr_other v h
  · exact s.rd_wr_apart v h.symm

/-! ## The relation -/

theorem ClockOnly.refl (W : List FieldAt) (D : List Nat) (s : State) : ClockOnly W D s s := ⟨fun _ _ => rfl, fun _ _ => rfl, fun _ => rfl, rfl⟩

theorem ClockOnly.trans (h : ClockOnly W D s t) (h' : ClockOnly V E t u) : ClockOnly (W ++ V) (D ++ E) s u := by
  refine ⟨fun f hf => ?_, fun x hx => ?_, fun x => (h'.lead x).trans (h.lead x), ?_⟩
  · exact (h'.rd f (spares_append.1 hf).2).trans (h.rd f (spares_append.1 hf).1)
  · simp only [List.mem_append, not_or] at hx
    exact (h'.dpll x hx.2).trans (h.dpll x hx.1)
  · exact (congrArg (fun v : State => { v with
      regs := s.regs, layers := s.layers, outbox := s.outbox, flt := s.flt, fov := s.fov, tdm := s.tdm, amps := s.amps, weir := s.weir, lanes := s.lanes,
      dplls := s.dplls, glb := s.glb }) h'.rest).trans h.rest

theorem ClockOnly.mono (hW : W ⊆ V) (hD : D ⊆ E) (h : ClockOnly W D s t) : ClockOnly V E s t :=
  ⟨fun f hf => h.rd f (spares_of_subset hW hf), fun x hx => h.dpll x fun hm => hx (hD hm), h.lead, h.rest⟩

theorem ClockOnly.ite {p : Prop} [Decidable p] (h : ClockOnly W D s t) (h' : ClockOnly W D s u) : ClockOnly W D s (if p then t else u) := by
  split <;> assumption

theorem ClockOnly.foldl {F : Nat → List FieldAt} {step : State → Nat → State} (l : List Nat) (s : State)
    (h : ∀ t, ∀ x ∈ l, ClockOnly (F x) [x] t (step t x)) : ClockOnly (l.flatMap F) l s (l.foldl step s) := by
  induction l generalizing s with
  | nil => exact .refl _ _ s
  | cons x l ih => exact (h s x (List.mem_cons_self ..)).trans (ih (step s x) fun t y hy => h t y (List.mem_cons_of_mem _ hy))

/-- The other domains. -/
def otherDoms (x : Nat) : List Nat := [0, 1, 2].filter (· ≠ x)

/-- In a pass over the domains, a domain's step follows and precedes steps of the others alone. -/
theorem ClockOnly.foldl_at {F : Nat → List FieldAt} {step : State → Nat → State} (h : ∀ t y, ClockOnly (F y) [y] t (step t y)) (x : DomIx) (s : State) :
    ∃ p, ClockOnly ((otherDoms x).flatMap F) (otherDoms x) s p ∧ ClockOnly ((otherDoms x).flatMap F) (otherDoms x) (step p x) ([0, 1, 2].foldl step s) := by
  have hsplit : ∃ l₁ l₂, [0, 1, 2] = l₁ ++ x.val :: l₂ ∧ l₁ ⊆ otherDoms x ∧ l₂ ⊆ otherDoms x := by
    fin_cases x
    · exact ⟨[], [1, 2], by decide⟩
    · exact ⟨[0], [2], by decide⟩
    · exact ⟨[0, 1], [], by decide⟩
  obtain ⟨l₁, l₂, hl, h₁, h₂⟩ := hsplit
  have hfields {l : List Nat} (hl : l ⊆ otherDoms x) : l.flatMap F ⊆ (otherDoms x).flatMap F := fun f hf => by
    obtain ⟨y, hy, hf⟩ := List.mem_flatMap.1 hf
    exact List.mem_flatMap.2 ⟨y, hl hy, hf⟩
  refine ⟨l₁.foldl step s, (ClockOnly.foldl l₁ s fun t y _ => h t y).mono (hfields h₁) h₁, ?_⟩
  rw [hl, List.foldl_append, List.foldl_cons]
  exact (ClockOnly.foldl l₂ _ fun t y _ => h t y).mono (hfields h₂) h₂

theorem Aside.clockOnly (ha : Aside s t) (hr : ClkRegs s t) : ClockOnly [] [] s t := by
  refine ⟨fun f hf => ?_, fun x _ => ?_, fun x => ?_, congrArg (fun v : State => { v with dplls := s.dplls, glb := s.glb }) ha.rest⟩
  · simp only [spares, Bool.and_eq_true, decide_eq_true_eq] at hf
    exact State.rd_congr (hr.reg _ hf.1.1 hf.1.2)
  · simp only [State.dpll, ha.dplls]
  · simp only [State.dpll, ha.dplls]

/-! ## What it leaves -/

section
variable (h : ClockOnly W D s t)
include h

theorem ClockOnly.keeps (f : FieldAt) (hf : spares W f = true := by clear * -; decide +revert) : t.rd f = s.rd f := h.rd f hf

theorem ClockOnly.is (f : FieldAt) (hf : spares W f = true := by clear * -; decide +revert) : t.is f = s.is f := State.is_congr (h.rd f hf)

theorem ClockOnly.reg (a : Nat) (ha : spares W (whole a) = true := by clear * -; decide +revert) : t.reg a = s.reg a := by
  have hrd : t.rd (whole a) = s.rd (whole a) := h.rd _ ha
  simp only [State.rd, whole, getBits, Nat.shiftRight_zero] at hrd
  rw [Nat.mod_eq_of_lt (t.reg a).isLt, Nat.mod_eq_of_lt (s.reg a).isLt] at hrd
  exact BitVec.eq_of_toNat_eq hrd

theorem ClockOnly.now : t.now = s.now := (congrArg State.now h.rest :)
theorem ClockOnly.doms : t.doms = s.doms := (congrArg State.doms h.rest :)
theorem ClockOnly.locks : t.locks = s.locks := (congrArg State.locks h.rest :)
theorem ClockOnly.cands : t.cands = s.cands := (congrArg State.cands h.rest :)
theorem ClockOnly.cand (c : Nat) : t.cand c = s.cand c := by simp only [State.cand, h.cands]

theorem ClockOnly.sameMemory : SameMemory s t := SameMemory.of_eq (congrArg State.ssm h.rest :) (congrArg State.dram h.rest :)

theorem ClockOnly.ownDpll (x : Nat) (hf : spares W (whole (R.CLK_DOMx_CFG x)) = true := by clear * -; decide +revert) : t.ownDpll x = s.ownDpll x := by
  have hreg := h.reg _ hf
  simp only [State.ownDpll, State.rd_congr (f := R.CLK_DOMx_CFG_rate x) hreg, State.rd_congr (f := R.CLK_DOMx_CFG_follow x) hreg]

end

/-- The priorities a domain gives the candidates (10 R276). -/
def prioFields (x : Nat) : List FieldAt := [whole (R.CLK_DOMx_PRIO x), whole (R.CLK_DOMx_PRIO_HI x)]

/-- The fields that decide which candidate a domain may take (10 R276, R278). -/
def choiceFields (x : Nat) : List FieldAt :=
  prioFields x ++ [R.CLK_DOMx_CTRL_force_en x, R.CLK_DOMx_CTRL_force_sel x] ++ (List.range 9).map R.CLK_CANDc_STATUS_state

theorem ClockOnly.prio (h : ClockOnly W D s t) (x c : Nat) (hf : (prioFields x).all (spares W) = true := by clear * -; decide +revert) :
    t.prio x c = s.prio x c := by
  simp only [prioFields, List.all_cons, List.all_nil, Bool.and_true, Bool.and_eq_true] at hf
  obtain ⟨hprio, hhigh⟩ := hf
  simp only [State.prio, h.lead, State.rd, h.reg _ hprio, h.reg _ hhigh]

theorem ClockOnly.eligible (h : ClockOnly W D s t) (x : Nat) (hf : (choiceFields x).all (spares W) = true := by clear * -; decide +revert) :
    t.eligible x = s.eligible x := by
  simp only [choiceFields, List.all_append, List.all_cons, List.all_nil, List.all_map, Bool.and_true, Bool.and_eq_true] at hf
  obtain ⟨⟨hlist, hen, hsel⟩, hstates⟩ := hf
  have hprio := (h.prio x · hlist)
  have hstates (c : Nat) (hc : c < 9) := List.all_eq_true.1 hstates c (List.mem_range.2 hc)
  have hqualified (c : Nat) (hc : c < 9) : t.qualified c = s.qualified c := by
    simp only [State.qualified, State.candState, h.rd _ (hstates c hc)]
  have hforced : (t.is (R.CLK_DOMx_CTRL_force_en x) = true ∧ s.rd (R.CLK_DOMx_CTRL_force_sel x) ≤ 8 ∧
      t.qualified (s.rd (R.CLK_DOMx_CTRL_force_sel x)) = true) ↔ (s.is (R.CLK_DOMx_CTRL_force_en x) = true ∧
      s.rd (R.CLK_DOMx_CTRL_force_sel x) ≤ 8 ∧ s.qualified (s.rd (R.CLK_DOMx_CTRL_force_sel x)) = true) := by
    rw [h.is _ hen]
    exact and_congr_right fun _ => and_congr_right fun hle => by rw [hqualified _ (by omega)]
  simp only [State.eligible, h.rd _ hsel, hprio, hforced]
  refine if_congr Iff.rfl rfl (List.foldl_ext _ _ none fun b c hc => ?_)
  rw [hqualified c (List.mem_range.1 hc)]

end Sys2Proof.Machine
end

section
/-!
What each operation of the clocks writes (10 R276 to R291): the fields and DPLLs it names, and the values it leaves there.
-/
namespace Sys2Proof.Machine
-- One proof at a time: a side condition filled in by `by` waits for the kernel, and many waiting side by side take too much memory.
set_option Elab.async false

variable {s t : State} {c k x y : Nat} {f : FieldAt}

/-! ## Candidate and DPLL records -/

@[simp] theorem State.cand_setCand_self (s : State) (c : Nat) (r : Cand) : (s.setCand c r).cand c = r := Tab.get_set_self ..
theorem State.cand_setCand_ne (s : State) (r : Cand) (h : k ≠ c) : (s.setCand c r).cand k = s.cand k := Tab.get_set_ne _ _ _ h

@[simp] theorem State.setCand_setCand (s : State) (c : Nat) (r r' : Cand) : (s.setCand c r).setCand c r' = s.setCand c r' := by
  simp only [State.setCand, Tab.set_set]

@[simp] theorem State.dpll_setDpll_self (s : State) (x : Nat) (r : Dpll) : (s.setDpll x r).dpll x = r := Tab.get_set_self ..
theorem State.dpll_setDpll_ne (s : State) (r : Dpll) (h : y ≠ x) : (s.setDpll x r).dpll y = s.dpll y := Tab.get_set_ne _ _ _ h

/-! ## Writes -/

section
variable (s : State)

theorem State.wr_clockOnly (f : FieldAt) (v : Nat) : ClockOnly [f] [] s (s.wr f v) := by
  refine ⟨fun g hg => s.rd_wr_of_apart v ?_, fun _ _ => rfl, fun _ => rfl, rfl⟩
  simp only [spares, List.all_cons, List.all_nil, Bool.and_true, Bool.and_eq_true] at hg
  exact hg.2

theorem State.raise_clockOnly (f : FieldAt) : ClockOnly [f] [] s (s.raise f) := s.wr_clockOnly f 1
theorem State.bump_clockOnly (f : FieldAt) (n : Nat) : ClockOnly [f] [] s (s.bump f n) := s.wr_clockOnly f _

/-- A register written is its whole field written. -/
theorem State.setReg_eq_wr (a : Nat) (v : Word) : s.setReg a v = s.wr (whole a) v.toNat := by
  have hv : putBits (s.reg a) 0 32 v.toNat = v := BitVec.eq_of_getLsbD_eq fun i hi => by
    rw [putBits_getLsbD _ _ _ _ _ hi, if_pos (by omega)]
    exact BitVec.testBit_toNat v
  rw [State.wr, whole, hv]

theorem State.setReg_clockOnly (a : Nat) (v : Word) : ClockOnly [whole a] [] s (s.setReg a v) := by
  rw [State.setReg_eq_wr]
  exact s.wr_clockOnly _ _

theorem State.setDpll_clockOnly (x : Nat) (r : Dpll) (h : r.leadAbsent = (s.dpll x).leadAbsent) : ClockOnly [] [x] s (s.setDpll x r) := by
  refine ⟨fun _ _ => rfl, fun y hy => s.dpll_setDpll_ne r (by simpa using hy), fun y => ?_, rfl⟩
  by_cases hy : y = x
  · rw [hy, State.dpll_setDpll_self, h]
  · rw [s.dpll_setDpll_ne r hy]

/-- Software's write of a field changes no other (03 R88). -/
theorem State.sw_clockOnly (f : FieldAt) (v : Nat) : ClockOnly [f] [] s (s.sw f v) := by
  refine ⟨fun g hg => ?_, fun _ _ => rfl, fun _ => rfl, rfl⟩
  by_cases ha : g.addr = f.addr
  · simp only [spares, FieldAt.apart, ha, List.all_cons, List.all_nil, bne_self_eq_false, Bool.false_or, Bool.and_true, Bool.and_eq_true,
      decide_eq_true_eq] at hg
    obtain ⟨-, hbits⟩ := hg
    refine Nat.eq_of_testBit_eq fun i => ?_
    simp only [State.rd, ha, State.sw, State.reg_settle_self, State.reg_soften, getBits_testBit]
    by_cases hi : i < g.width
    · have hmask : (BitVec.ofNat 32 ((2 ^ f.width - 1) <<< f.lsb)).getLsbD (g.lsb + i) = false := by
        rw [BitVec.getLsbD_ofNat, Nat.testBit_shiftLeft, Nat.testBit_two_pow_sub_one]
        simp
        omega
      simp only [BitVec.getLsbD_or, BitVec.getLsbD_and, BitVec.getLsbD_not, hmask, Bool.and_false, Bool.not_false, Bool.and_true, Bool.or_false]
      by_cases h32 : g.lsb + i < 32
      · simp [h32]
      · simp [BitVec.getLsbD_of_ge _ _ (Nat.le_of_not_lt h32)]
    · simp [hi]
  · exact State.rd_congr (s.reg_sw_ne v ha)

/-- Software's value of a field that no overlay owns is in effect (03 R88). -/
theorem State.rd_sw_free {f : FieldAt} (ho : s.owned f.addr = 0) (hf : f.lsb + f.width ≤ 32) (v : Nat) : (s.sw f v).rd f = v % 2 ^ f.width := by
  have hmask : ∀ i < f.width, (BitVec.ofNat 32 ((2 ^ f.width - 1) <<< f.lsb)).getLsbD (f.lsb + i) = true := fun i hi => by
    rw [BitVec.getLsbD_ofNat, Nat.testBit_shiftLeft, Nat.add_sub_cancel_left, Nat.testBit_two_pow_sub_one]
    simp [hi]
    omega
  rw [← getBits_putBits_same 0 f.lsb f.width v hf]
  refine (State.rd_settle hmask).trans (Nat.eq_of_testBit_eq fun i => ?_)
  rw [getBits_testBit, getBits_testBit]
  by_cases hi : i < f.width
  · rw [State.getLsbD_layered_soften_free (by simp [ho]) (hmask i hi)]
  · simp [hi]

/-- A field holds a value written that fits it. -/
theorem State.rd_wr_self {f : FieldAt} {v : Nat} (hv : v < 2 ^ f.width) (hf : f.lsb + f.width ≤ 32) : (s.wr f v).rd f = v :=
  (s.rd_wr_same f v hf).trans (Nat.mod_eq_of_lt hv)

end

/-! ## Reports and the global state (10 R288, R290, R295) -/

section
variable (s : State)

theorem State.report_clockOnly (source code level : Nat) : ClockOnly [] [] s (s.report source code level) :=
  (State.report_aside _ _ _ (.refl s)).clockOnly ((ClkRegs.refl s).report _ _ _)

theorem State.domFault_clockOnly (x : Nat) (f : FieldAt) : ClockOnly [f] [] s (s.domFault x f) := (s.raise_clockOnly f).trans (State.report_clockOnly ..)

theorem State.settleClocks_aside : Aside s s.settleClocks := by
  unfold State.settleClocks
  extract_lets follow common s₁ on timed want s₂ ok
  have h₁ : Aside s s₁ := State.wr_aside _ _ (.refl s)
  have h₂ : Aside s s₂ := h₁.ite (State.hwMode_aside 8 want (State.raise_aside _ (State.wr_aside _ _ h₁)))
  exact h₂.ite (State.emit_aside _ (State.wr_aside _ _ h₂))

theorem State.settleClocks_clkRegs : ClkRegs s s.settleClocks := by
  unfold State.settleClocks
  extract_lets follow common s₁ on timed want s₂ ok
  have h₁ : ClkRegs s s₁ := (ClkRegs.refl s).wr (f := R.CLK_STATUS_common) (by decide) _
  have h₂ : ClkRegs s s₂ := h₁.ite (((h₁.wr (f := R.CLK_STATUS_hw_holdover) (by decide) _).raise (f := R.CLK_INT_STATUS_holdover_chg)
    (by decide)).hwMode 8 want)
  exact h₂.ite (h₂.wr (f := R.CLK_STATUS_clk_ok) (by decide) _).congr

theorem State.settleClocks_clockOnly : ClockOnly [] [] s s.settleClocks := s.settleClocks_aside.clockOnly s.settleClocks_clkRegs

end

/-! ## Frequency, ramps and switches (10 R280 to R287) -/

/-- The fields a clamped frequency, a ramp, a capture, an acquisition, a completed switch and a lost candidate write. -/
def clampFields (x : Nat) : List FieldAt := [R.CLK_DOMx_STATUS_clamp x, R.CLK_DOMx_INT_STATUS_clamp x]
def rampFields (x : Nat) : List FieldAt := R.CLK_DOMx_STATUS_ramp x :: clampFields x
def captureFields (x : Nat) : List FieldAt := rampFields x ++ [R.CLK_DOMx_STATUS_capturing x, R.CLK_DOMx_STATUS_state x]
def acquireFields (x : Nat) : List FieldAt := [R.CLK_DOMx_STATUS_selected x, R.CLK_DOMx_STATUS_stage x, R.CLK_DOMx_STATUS_state x]
def moveFields (x : Nat) : List FieldAt := acquireFields x ++ captureFields x
def switchFields (x : Nat) : List FieldAt :=
  [R.CLK_DOMx_INT_STATUS_switched x, lowHalf (R.CLK_DOMx_COUNT x), R.CLK_DOMx_STATUS_state x, R.CLK_DOMx_INT_STATUS_cocoon_out x]
def loseFields (x : Nat) : List FieldAt :=
  [R.CLK_DOMx_INT_STATUS_force_lost x, R.CLK_DOMx_STATUS_capturing x, R.CLK_DOMx_INT_STATUS_ref_lost x] ++ rampFields x

section
variable (s : State) (x : Nat)

theorem State.judgeClamp_clockOnly : ClockOnly (clampFields x) [] s (s.judgeClamp x) := by
  have hclamp (v : Nat) := s.wr_clockOnly (R.CLK_DOMx_STATUS_clamp x) v
  exact ((hclamp 0).mono (by simp [clampFields]) (List.Subset.refl _)).ite
    ((ClockOnly.refl _ _ s).ite ((hclamp 1).trans (State.domFault_clockOnly _ x (R.CLK_DOMx_INT_STATUS_clamp x))))

theorem State.judgeClamp_aside : Aside s (s.judgeClamp x) :=
  (State.wr_aside _ 0 (.refl s)).ite ((Aside.refl s).ite (State.report_aside _ _ _ (State.raise_aside _ (State.wr_aside _ 1 (.refl s)))))

theorem State.steer_clockOnly (ppb : Int) : ClockOnly (clampFields x) [x] s (s.steer x ppb) :=
  (s.setDpll_clockOnly x { s.dpll x with f0 := s.loopFreq x, target := ppb, since := s.now } rfl).trans (State.judgeClamp_clockOnly _ x)

theorem State.setRamp_clockOnly (ppb : Int) : ClockOnly (rampFields x) [x] s (s.setRamp x ppb) :=
  ((s.setDpll_clockOnly x { s.dpll x with ramp := ppb } rfl).trans (State.wr_clockOnly _ (R.CLK_DOMx_STATUS_ramp x) _)).trans (State.judgeClamp_clockOnly _ x)

theorem State.dpll_setRamp (ppb : Int) : (s.setRamp x ppb).dpll x = { s.dpll x with ramp := ppb } :=
  ((State.judgeClamp_clockOnly _ x).dpll x (List.not_mem_nil)).trans (s.dpll_setDpll_self x _)

theorem State.dpll_steer (ppb : Int) : (s.steer x ppb).dpll x = { s.dpll x with f0 := s.loopFreq x, target := ppb, since := s.now } :=
  ((State.judgeClamp_clockOnly _ x).dpll x (List.not_mem_nil)).trans (s.dpll_setDpll_self x _)

theorem State.startCapture_clockOnly (c : Nat) : ClockOnly (captureFields x) [x] s (s.startCapture x c) :=
  (((s.setRamp_clockOnly x 0).ite (.refl _ _ s)).trans (State.wr_clockOnly _ (R.CLK_DOMx_STATUS_capturing x) c)).trans
    (State.wr_clockOnly _ (R.CLK_DOMx_STATUS_state x) 4)

theorem State.acquire_clockOnly (c : Nat) : ClockOnly (acquireFields x) [x] s (s.acquire x c) := by
  unfold State.acquire
  extract_lets s₁ q s₂
  have h₂ : ClockOnly [R.CLK_DOMx_STATUS_selected x, R.CLK_DOMx_STATUS_stage x] [x] s s₂ :=
    ((s.wr_clockOnly (R.CLK_DOMx_STATUS_selected x) c).trans (State.wr_clockOnly _ (R.CLK_DOMx_STATUS_stage x) 1)).trans
      (State.setDpll_clockOnly _ x _ rfl)
  exact (h₂.trans (State.wr_clockOnly _ (R.CLK_DOMx_STATUS_state x) 2)).ite (h₂.mono (by simp) (List.Subset.refl _))

theorem State.reselect_clockOnly : ClockOnly (moveFields x) [x] s (s.reselect x) := by
  have hstay : ClockOnly (moveFields x) [x] s s := .refl _ _ s
  unfold State.reselect
  refine hstay.ite ?_
  split
  case h_1 => exact hstay
  case h_2 e _ =>
    have hcap := (s.startCapture_clockOnly x e).mono (List.subset_append_right _ _ : captureFields x ⊆ moveFields x) (List.Subset.refl _)
    have hacq := (s.acquire_clockOnly x e).mono (List.subset_append_left _ _ : acquireFields x ⊆ moveFields x) (List.Subset.refl _)
    exact (hstay.ite hacq).ite ((hstay.ite hcap).ite ((hcap.ite hstay).ite (((hstay.ite hcap).ite (hstay.ite hcap)).ite hstay)))

theorem State.reselectAll_clockOnly : ClockOnly ([0, 1, 2].flatMap moveFields) [0, 1, 2] s s.reselectAll :=
  (ClockOnly.foldl [0, 1, 2] s fun t y _ => t.reselect_clockOnly y).trans (State.settleClocks_clockOnly _)

theorem State.loseFrom_clockOnly (c : Nat) : ClockOnly (loseFields x) [x] s (s.loseFrom c x) := by
  unfold State.loseFrom
  refine (ClockOnly.refl _ _ s).ite ?_
  extract_lets s₁ s₂ s₃
  have h₁ : ClockOnly [R.CLK_DOMx_INT_STATUS_force_lost x] [] s s₁ := (s.raise_clockOnly _).ite (.refl _ _ s)
  have h₂ : ClockOnly [R.CLK_DOMx_INT_STATUS_force_lost x, R.CLK_DOMx_STATUS_capturing x] [] s s₂ :=
    (h₁.trans (s₁.wr_clockOnly _ 15)).ite (h₁.mono (by simp) (List.Subset.refl _))
  have h₃ : ClockOnly (loseFields x) [x] s s₃ := (h₂.trans (s₂.domFault_clockOnly x _)).mono (by simp [loseFields]) (by simp)
  exact (((h₂.trans (s₂.domFault_clockOnly x _)).trans (s₃.setRamp_clockOnly x 0)).ite h₃).ite (h₂.mono (by simp) (by simp))

theorem State.switchDone_clockOnly : ClockOnly (switchFields x) [x] s (s.switchDone x) := by
  unfold State.switchDone
  extract_lets s₁ s₂
  have h₂ : ClockOnly [R.CLK_DOMx_INT_STATUS_switched x, lowHalf (R.CLK_DOMx_COUNT x), R.CLK_DOMx_STATUS_state x] [] s s₂ :=
    ((s.raise_clockOnly _).trans (State.bump_clockOnly _ _ 1)).trans (State.wr_clockOnly _ _ _)
  have h₃ := h₂.trans (s₂.setDpll_clockOnly x { s₂.dpll x with cocoon := false } rfl)
  exact (h₃.trans (State.raise_clockOnly _ (R.CLK_DOMx_INT_STATUS_cocoon_out x))).ite (h₂.mono (by simp) (by simp))

end

/-! ## Candidates (10 R271 to R276) -/

/-- The fields a candidate's change of state writes. -/
def stateFields (c : Nat) : List FieldAt := R.CLK_CANDc_STATUS_state c :: [0, 1, 2].map R.CLK_DOMx_INT_STATUS_cand_change

theorem State.setCandState_clockOnly (s : State) (c v : Nat) : ClockOnly (stateFields c) [0, 1, 2] s (s.setCandState c v) := by
  refine (ClockOnly.refl _ _ s).ite ?_
  refine (s.wr_clockOnly (R.CLK_CANDc_STATUS_state c) v).trans (ClockOnly.foldl (F := fun x => [R.CLK_DOMx_INT_STATUS_cand_change x]) [0, 1, 2] _ ?_)
  exact fun t x _ => ((t.raise_clockOnly _).mono (List.Subset.refl _) (by simp)).ite (.refl _ _ t)

theorem State.coast_clockOnly (s : State) (c : Nat) : ClockOnly ([0, 1, 2].flatMap clampFields) [0, 1, 2] s (s.coast c) :=
  ClockOnly.foldl [0, 1, 2] s fun t x _ => (t.steer_clockOnly x _).ite (.refl _ _ t)

end Sys2Proof.Machine
end

section
/-!
Qualification of the reference candidates (10 R271 to R276): what a lost candidate leaves, and the commands of CLK that judge one.
-/
namespace Sys2Proof.Machine
-- One proof at a time: a side condition filled in by `by` waits for the kernel, and many waiting side by side take too much memory.
set_option Elab.async false

variable {s t u : State} {W : List FieldAt} {D : List Nat} {r : Cand} {next reason : Nat}

/-! ## What leaves a candidate's state -/

/-- A clock operation that follows a change of the candidate's record leaves every other candidate, the locks, the domains and the memories. -/
def CandKept (s t : State) (c : Nat) : Prop := SameMemory s t ∧ t.locks = s.locks ∧ t.doms = s.doms ∧ ∀ d, d ≠ c → t.cand d = s.cand d

theorem ClockOnly.candKept {c : Nat} (h : ClockOnly W D (s.setCand c r) t) : CandKept s t c :=
  ⟨h.sameMemory, h.locks, h.doms, fun d hd => (h.cand d).trans (s.cand_setCand_ne r hd)⟩

/-- A clock operation does the same after a candidate's record was replaced. -/
theorem ClockOnly.setCand (h : ClockOnly W D s t) (c : Nat) (r : Cand) : ClockOnly W D (s.setCand c r) (t.setCand c r) := by
  refine ⟨h.rd, h.dpll, h.lead, ?_⟩
  simp only [State.setCand, h.cands]
  exact congrArg (fun v : State => { v with cands := Tab.set (fun _ => {}) s.cands c r }) h.rest

theorem State.candState_setCandState (s : State) (c : CandIx) {next : Nat} (hnext : next < 8) : (s.setCandState c next).candState c = next := by
  unfold State.setCandState
  split
  case isTrue h => exact h
  case isFalse =>
    have hfold := ClockOnly.foldl (F := fun x => [R.CLK_DOMx_INT_STATUS_cand_change x]) [0, 1, 2] (s.wr (R.CLK_CANDc_STATUS_state c) next)
      (step := fun s x => if s.ownDpll x ∧ s.prio x c < 15 then s.raise (R.CLK_DOMx_INT_STATUS_cand_change x) else s)
      fun t x _ => ((t.raise_clockOnly _).mono (List.Subset.refl _) (by simp)).ite (.refl _ _ t)
    exact (hfold.keeps (R.CLK_CANDc_STATUS_state c)).trans (s.rd_wr_self hnext (by decide : 0 + 3 ≤ 32))

/-! ## Disqualification (10 R271 to R276) -/

/-- The candidate was disqualified with a reason and is in state `next`; one that had been qualified leaves its reason, and each domain that had selected
it reports ref_lost. -/
def Lost (s : State) (c : CandIx) (t : State) (next reason : Nat) : Prop :=
  t.candState c = next ∧ t.cand c = {} ∧ CandKept s t c ∧
    (s.candState c = 3 → t.rd (R.CLK_CANDc_STATUS_reason c) = reason ∧
      ∀ x : DomIx, s.ownDpll x = true → s.selected x = c.val → t.is (R.CLK_DOMx_INT_STATUS_ref_lost x) = true)

/-- A domain that had selected the lost candidate reports it (10 R276). -/
theorem State.loseFrom_reports {c : Nat} {x : DomIx} (hown : s.ownDpll x = true) (hsel : s.selected x = c) :
    (s.loseFrom c x).is (R.CLK_DOMx_INT_STATUS_ref_lost x) = true := by
  unfold State.loseFrom
  rw [hown]
  extract_lets s₁ s₂ s₃
  have h₁ : ClockOnly [R.CLK_DOMx_INT_STATUS_force_lost x] [] s s₁ := (s.raise_clockOnly _).ite (.refl _ _ s)
  have h₂ : ClockOnly [R.CLK_DOMx_STATUS_capturing x] [] s₁ s₂ := (s₁.wr_clockOnly _ 15).ite (.refl _ _ s₁)
  have hsel₂ : s₂.selected x = c := ((h₁.trans h₂).keeps (R.CLK_DOMx_STATUS_selected x)).trans hsel
  have h₃ : s₃.is (R.CLK_DOMx_INT_STATUS_ref_lost x) = true :=
    ((State.report_clockOnly _ _ _ _).is (R.CLK_DOMx_INT_STATUS_ref_lost x)).trans (State.is_raise _ _ (by decide : 2 + 1 ≤ 32) Nat.one_pos)
  rw [if_neg (by simp), if_pos hsel₂]
  split
  · exact ((s₃.setRamp_clockOnly x 0).is (R.CLK_DOMx_INT_STATUS_ref_lost x)).trans h₃
  · exact h₃

/-- The domains lose the candidate one after the other; each that had selected it reports it. -/
theorem State.loseFrom_all_reports {c : Nat} {x : DomIx} (hown : s.ownDpll x = true) (hsel : s.selected x = c) :
    ([0, 1, 2].foldl (fun s x => s.loseFrom c x) s).is (R.CLK_DOMx_INT_STATUS_ref_lost x) = true := by
  obtain ⟨p, hp, ht⟩ := ClockOnly.foldl_at (fun t y => t.loseFrom_clockOnly y c) x s
  have hplost := State.loseFrom_reports ((hp.ownDpll x).trans hown) ((hp.keeps (R.CLK_DOMx_STATUS_selected x)).trans hsel)
  exact (ht.is (R.CLK_DOMx_INT_STATUS_ref_lost x)).trans hplost

/-- What the disqualification of a candidate looks at. -/
def lostReads (c : Nat) : List FieldAt :=
  R.CLK_CANDc_STATUS_state c :: [0, 1, 2].flatMap fun x => [whole (R.CLK_DOMx_CFG x), R.CLK_DOMx_STATUS_selected x]

/-- The fields a disqualification writes. -/
def lostFields (c : Nat) : List FieldAt :=
  stateFields c ++ [R.CLK_CANDc_STATUS_reason c, highHalf (R.CLK_CANDc_COUNT c)] ++ [0, 1, 2].flatMap loseFields ++ [0, 1, 2].flatMap moveFields

theorem State.disqualify_clockOnly (s : State) (c reason next : Nat) : ClockOnly (lostFields c) [0, 1, 2] (s.setCand c {}) (s.disqualify c reason next) := by
  unfold State.disqualify
  extract_lets was v w
  have hv : ClockOnly (stateFields c) [0, 1, 2] (s.setCand c {}) v := State.setCandState_clockOnly _ c next
  have hw : ClockOnly [R.CLK_CANDc_STATUS_reason c, highHalf (R.CLK_CANDc_COUNT c)] [] v w := (v.wr_clockOnly _ reason).trans (State.bump_clockOnly _ _ 1)
  have hlose := ClockOnly.foldl (F := loseFields) [0, 1, 2] w fun t y _ => t.loseFrom_clockOnly y c
  have hlost := ((hv.trans hw).trans hlose).trans (State.reselectAll_clockOnly _)
  exact (hlost.mono (List.Subset.refl _) (by simp)).ite (hv.mono (by simp) (List.Subset.refl _))

/-- A disqualification replaces the candidate's record, whatever it was. -/
theorem State.disqualify_setCand (s : State) (c : Nat) (r : Cand) (reason next : Nat) :
    (s.setCand c r).disqualify c reason next = s.disqualify c reason next := by
  simp only [State.disqualify, State.setCand_setCand]
  rfl

/-- A disqualification, after clock operations that leave what it looks at. -/
theorem lost_disqualify {c : CandIx} (h : ClockOnly W D (s.setCand c r) u) (hnext : next < 8) (hreason : reason < 16)
    (hW : (lostReads c).all (spares W) = true := by clear * -; decide +revert) : Lost s c (u.disqualify c reason next) next reason := by
  have hreads := List.all_eq_true.1 hW
  have hmem (x : DomIx) : whole (R.CLK_DOMx_CFG x) ∈ lostReads c ∧ R.CLK_DOMx_STATUS_selected x ∈ lostReads c := by
    fin_cases x <;> simp [lostReads]
  have hstate : u.candState c = s.candState c := h.rd _ (hreads _ (List.mem_cons_self ..))
  have ht := (h.setCand c {}).trans (u.disqualify_clockOnly c reason next)
  rw [State.setCand_setCand] at ht
  have hvstate := (u.setCand c {}).candState_setCandState c hnext
  have huv := State.setCandState_clockOnly (u.setCand c {}) c next
  refine ⟨?_, (ht.cand c).trans (s.cand_setCand_self c {}), ht.candKept, fun h3 => ?_⟩
  all_goals
    unfold State.disqualify
    extract_lets was v w
    have hw : ClockOnly [R.CLK_CANDc_STATUS_reason c, highHalf (R.CLK_CANDc_COUNT c)] [] v w :=
      (v.wr_clockOnly _ reason).trans (State.bump_clockOnly _ _ 1)
    have hlose := ClockOnly.foldl (F := loseFields) [0, 1, 2] w fun t y _ => t.loseFrom_clockOnly y c
    have hend := State.reselectAll_clockOnly ([0, 1, 2].foldl (fun s x => s.loseFrom c x) w)
  · split
    · exact ((hw.trans (hlose.trans hend)).keeps (R.CLK_CANDc_STATUS_state c)).trans hvstate
    · exact hvstate
  · have hwas : was = true := beq_iff_eq.2 (hstate.trans h3)
    rw [if_pos hwas]
    refine ⟨((hlose.trans hend).keeps (R.CLK_CANDc_STATUS_reason c)).trans ?_, fun x hown hsel => ?_⟩
    · exact ((State.bump_clockOnly _ _ 1).keeps (R.CLK_CANDc_STATUS_reason c)).trans (v.rd_wr_self hreason (by decide : 28 + 4 ≤ 32))
    · have hwown : w.ownDpll x = s.ownDpll x := ((huv.trans hw).ownDpll x).trans (h.ownDpll x (hreads _ (hmem x).1))
      have hwsel : w.selected x = s.selected x := ((huv.trans hw).keeps (R.CLK_DOMx_STATUS_selected x)).trans (h.rd _ (hreads _ (hmem x).2))
      exact (hend.is (R.CLK_DOMx_INT_STATUS_ref_lost x)).trans (State.loseFrom_all_reports (hwown.trans hown) (hwsel.trans hsel))

/-- The same where no operation changed the candidate's record before. -/
theorem lost_disqualify_at {c : CandIx} (h : ClockOnly W D s u) (hnext : next < 8) (hreason : reason < 16)
    (hW : (lostReads c).all (spares W) = true := by clear * -; decide +revert) : Lost s c (u.disqualify c reason next) next reason :=
  u.disqualify_setCand c {} reason next ▸ lost_disqualify (h.setCand c {}) hnext hreason hW

end Sys2Proof.Machine
end

section
/-!
Missed and stray edges, first edges and qualification (10 R271, R272, R276, R277): the equation of each command, and the candidate a free domain takes.
-/
namespace Sys2Proof.Machine
-- One proof at a time: a side condition filled in by `by` waits for the kernel, and many waiting side by side take too much memory.
set_option Elab.async false

variable {s : State} {r : Cand}

/-! ## Windows and stray edges (10 R272) -/

/-- A miss is counted for candidate `c`, whose record becomes `r`, and the DPLLs on it hold their frequency. -/
def State.missed (s : State) (c : Nat) (r : Cand) : State := ((s.bump (lowHalf (R.CLK_CANDc_COUNT c))).setCand c r).coast c

theorem State.missed_clockOnly (s : State) (c : Nat) (r : Cand) :
    ClockOnly (lowHalf (R.CLK_CANDc_COUNT c) :: [0, 1, 2].flatMap clampFields) [0, 1, 2] (s.setCand c r) (s.missed c r) :=
  ((s.setCand c r).bump_clockOnly (lowHalf (R.CLK_CANDc_COUNT c)) 1).trans (State.coast_clockOnly _ c)

/-- miss_max consecutive misses disqualify, fewer do not. -/
theorem State.candMiss_eq (s : State) (c : CandIx) (r : Cand) (reason : Nat) : (s.setCand c r).candMiss c reason =
    if s.missMax c ≤ r.misses + 1 then (s.missed c { r with misses := r.misses + 1 }).disqualify c reason (if reason = 1 then 1 else 2)
    else s.missed c { r with misses := r.misses + 1 } := by
  have hcand : ((s.setCand c r).bump (lowHalf (R.CLK_CANDc_COUNT c))).cand c = r := s.cand_setCand_self c r
  have hmissed : (((s.setCand c r).bump (lowHalf (R.CLK_CANDc_COUNT c))).setCand c { r with misses := r.misses + 1 }).coast c
      = s.missed c { r with misses := r.misses + 1 } :=
    congrArg (State.coast · c) ((s.bump (lowHalf (R.CLK_CANDc_COUNT c))).setCand_setCand c r { r with misses := r.misses + 1 })
  have hmax : (s.missed c { r with misses := r.misses + 1 }).missMax c = s.missMax c :=
    congrArg (max 1) ((s.missed_clockOnly c _).keeps (R.CLK_CANDc_QUAL_miss_max c))
  simp only [State.candMiss, hcand, hmissed, hmax]

theorem Cand.with_stray_false (h : r.stray = false) : { r with stray := false } = r := by rw [← h]

section
variable {c : CandIx} (he : edgeCandidate c = true) (hst : 2 ≤ s.candState c)
include he hst

theorem exec_candidateWindowClose_stray (hs : (s.cand c).stray = true) (edge : Bool) :
    exec (.candidateWindowClose c edge) s = .next (s.setCand c { s.cand c with stray := false }) := by
  simp [exec, execCandidateWindowClose, he, Nat.not_lt.2 hst, hs]

variable (hs : (s.cand c).stray = false)
include hs

theorem exec_candidateWindowClose_edge : exec (.candidateWindowClose c true) s = .next (s.setCand c { s.cand c with misses := 0 }) := by
  simp [exec, execCandidateWindowClose, he, Nat.not_lt.2 hst, hs]

theorem exec_candidateWindowClose_empty : exec (.candidateWindowClose c false) s = .next ((s.setCand c (s.cand c)).candMiss c 1) := by
  simp [exec, execCandidateWindowClose, he, Nat.not_lt.2 hst, hs, Cand.with_stray_false hs]

theorem exec_candidateStrayEdge_counted :
    exec (.candidateStrayEdge c) s = .next ((s.setCand c { s.cand c with stray := true }).candMiss c 3) := by
  simp [exec, execCandidateStrayEdge, he, Nat.not_lt.2 hst, hs]
end

theorem exec_candidateWindowClose_idle {c : CandIx} (h : edgeCandidate c = false ∨ s.candState c < 2) (edge : Bool) :
    exec (.candidateWindowClose c edge) s = .next s := congrArg Host.Outcome.next (if_pos (by simpa using h))

theorem exec_candidateStrayEdge_idle {c : CandIx} (h : edgeCandidate c = false ∨ s.candState c < 2) : exec (.candidateStrayEdge c) s = .next s :=
  congrArg Host.Outcome.next (if_pos (by simpa [Nat.lt_succ_iff] using Or.inl h))

/-! ## First edges and qualification (10 R271, R276, R277) -/

theorem State.reg_setCandState_ne (s : State) (c v : Nat) {a : Nat}
    (ha : a ∉ [R.CLK_CANDc_STATUS c, R.CLK_DOMx_INT_STATUS 0, R.CLK_DOMx_INT_STATUS 1, R.CLK_DOMx_INT_STATUS 2]) : (s.setCandState c v).reg a = s.reg a := by
  simp only [List.mem_cons, List.not_mem_nil, or_false, not_or] at ha
  obtain ⟨hc, h0, h1, h2⟩ := ha
  unfold State.setCandState
  split
  · rfl
  · refine List.foldlRecOn [0, 1, 2] _ (motive := fun t : State => t.reg a = s.reg a) (s.reg_wr_ne v hc) fun t ht x hx => ?_
    have hx : a ≠ R.CLK_DOMx_INT_STATUS x := by fin_cases hx <;> assumption
    split
    · exact (t.reg_raise_ne hx).trans ht
    · exact ht

/-- A candidate's change of state is reported by every domain that lists it (10 R297). -/
theorem State.setCandState_reports {c : CandIx} {v : Nat} {x : DomIx} (hv : s.candState c ≠ v) (hown : s.ownDpll x = true) (hprio : s.prio x c < 15) :
    (s.setCandState c v).is (R.CLK_DOMx_INT_STATUS_cand_change x) = true := by
  rw [State.setCandState, if_neg hv]
  obtain ⟨p, hp, ht⟩ := ClockOnly.foldl_at (F := fun y => [R.CLK_DOMx_INT_STATUS_cand_change y])
    (step := fun s x => if s.ownDpll x ∧ s.prio x c < 15 then s.raise (R.CLK_DOMx_INT_STATUS_cand_change x) else s)
    (fun t y => ((t.raise_clockOnly _).mono (List.Subset.refl _) (by simp)).ite (.refl _ _ t)) x (s.wr (R.CLK_CANDc_STATUS_state c) v)
  have hsp := (s.wr_clockOnly (R.CLK_CANDc_STATUS_state c) v).trans hp
  have hpprio : p.prio x c = s.prio x c := hsp.prio x c
  rw [if_pos ⟨(hsp.ownDpll x).trans hown, hpprio ▸ hprio⟩] at ht
  exact (ht.is (R.CLK_DOMx_INT_STATUS_cand_change x)).trans (State.is_raise _ _ (by decide : 9 + 1 ≤ 32) Nat.one_pos)

theorem exec_candidateFirstEdge {c : CandIx} (hst : s.candState c = 1) (hp : s.candPresent c = true) :
    exec (.candidateFirstEdge c) s = .next ((s.setCand c {}).setCandState c 2) := congrArg Host.Outcome.next (if_pos ⟨hst, hp⟩)

theorem completes_candidateFirstEdge {c : CandIx} (hst : s.candState c = 1) (hp : s.candPresent c = true) : Completes (.candidateFirstEdge c) s fun t =>
    t.candState c = 2 ∧ t.cand c = {} ∧ CandKept s t c ∧
      (∀ x : DomIx, s.ownDpll x = true → s.prio x c < 15 → t.is (R.CLK_DOMx_INT_STATUS_cand_change x) = true) ∧
      ∀ r, r ∉ [R.CLK_CANDc_STATUS c, R.CLK_DOMx_INT_STATUS 0, R.CLK_DOMx_INT_STATUS 1, R.CLK_DOMx_INT_STATUS 2] → t.reg r = s.reg r := by
  have honly := State.setCandState_clockOnly (s.setCand c {}) c 2
  have hne : (s.setCand c {}).candState c ≠ 2 := fun h => absurd (hst.symm.trans h) (by decide)
  exact ⟨_, exec_candidateFirstEdge hst hp, State.candState_setCandState _ c (by decide), (honly.cand c).trans (s.cand_setCand_self c {}), honly.candKept,
    fun x hown hprio => State.setCandState_reports hne hown hprio, fun a ha => State.reg_setCandState_ne _ c 2 ha⟩

theorem exec_candidateQualified_other {c : CandIx} (hst : s.candState c ≠ 2) : exec (.candidateQualified c) s = .next s :=
  congrArg Host.Outcome.next (if_neg fun h => hst h.1)

/-- A free domain takes its eligible candidate and starts to acquire on it (10 R276, R279). -/
theorem State.reselect_free {x : DomIx} {e : Nat} (hown : s.ownDpll x = true) (hst : s.domState x = 1) (he : s.eligible x = some e) :
    s.reselect x = if s.selected x = e then s else s.acquire x e := by
  simp [State.reselect, hown, he, hst]

/-- An eligible candidate is one of the nine. -/
theorem State.eligible_lt {x e : Nat} (h : s.eligible x = some e) : e < 9 := by
  unfold State.eligible at h
  extract_lets f at h
  split at h
  case isTrue hf =>
    exact Nat.lt_succ_of_le (Option.some.inj h ▸ hf.2.1)
  case isFalse =>
    have hbest : ∀ b : Option Nat, b = some e → (∀ b', b = some b' → b' < 9) → e < 9 := fun b hb hall => hall e hb
    refine hbest _ h (List.foldlRecOn (List.range 9) _ (motive := fun b : Option Nat => ∀ b', b = some b' → b' < 9) (by simp) fun b hb c hc => ?_)
    have hc := List.mem_range.1 hc
    split
    · split
      · rintro _ ⟨⟩
        exact hc
      · split
        · rintro _ ⟨⟩
          exact hc
        · exact hb
    · exact hb

theorem State.acquire_spec {x : DomIx} {e : Nat} (hst : s.domState x = 1) (he : e < 16) :
    (s.acquire x e).selected x = e ∧ (s.acquire x e).stage x = 1 ∧ (s.acquire x e).domState x = 2 := by
  unfold State.acquire
  extract_lets s₁ q s₂
  have h₀ := s.wr_clockOnly (R.CLK_DOMx_STATUS_selected x) e
  have h₁ := State.wr_clockOnly (s.wr (R.CLK_DOMx_STATUS_selected x) e) (R.CLK_DOMx_STATUS_stage x) 1
  have h₂ : ClockOnly [] [x.val] s₁ s₂ := s₁.setDpll_clockOnly x _ rfl
  have h₃ := s₂.wr_clockOnly (R.CLK_DOMx_STATUS_state x) 2
  have hsel : (s.wr (R.CLK_DOMx_STATUS_selected x) e).rd (R.CLK_DOMx_STATUS_selected x) = e := s.rd_wr_self he (by decide : 24 + 4 ≤ 32)
  have hstage : s₁.rd (R.CLK_DOMx_STATUS_stage x) = 1 := State.rd_wr_self _ (by decide : 1 < 2 ^ 3) (by decide : 16 + 3 ≤ 32)
  have hstate : (s₂.wr (R.CLK_DOMx_STATUS_state x) 2).rd (R.CLK_DOMx_STATUS_state x) = 2 :=
    State.rd_wr_self _ (by decide : 2 < 2 ^ 3) (by decide : 0 + 3 ≤ 32)
  have hst₂ : s₂.domState x = 1 := ((h₀.trans (h₁.trans h₂)).keeps (R.CLK_DOMx_STATUS_state x)).trans hst
  rw [if_pos hst₂]
  exact ⟨((h₁.trans (h₂.trans h₃)).keeps (R.CLK_DOMx_STATUS_selected x)).trans hsel, ((h₂.trans h₃).keeps (R.CLK_DOMx_STATUS_stage x)).trans hstage, hstate⟩

/-- After all domains have selected again, a free one is on its eligible candidate, acquiring where that is new (10 R276, R277). -/
theorem State.reselectAll_free {x : DomIx} {e : Nat} (hown : s.ownDpll x = true) (hst : s.domState x = 1) (he : s.reselectAll.eligible x = some e) :
    s.reselectAll.selected x = e ∧ (s.selected x ≠ e → s.reselectAll.stage x = 1 ∧ s.reselectAll.domState x = 2) := by
  obtain ⟨p, hp, ht⟩ := ClockOnly.foldl_at (fun t y => t.reselect_clockOnly y) x s
  have hend := ht.trans (State.settleClocks_clockOnly _)
  have hpown := (hp.ownDpll x).trans hown
  have hpst : p.domState x = 1 := (hp.keeps (R.CLK_DOMx_STATUS_state x)).trans hst
  have hpsel : p.selected x = s.selected x := hp.keeps (R.CLK_DOMx_STATUS_selected x)
  have hpe : p.eligible x = some e := (((p.reselect_clockOnly x).trans hend).eligible x).symm.trans he
  rw [State.reselect_free hpown hpst hpe, hpsel] at hend
  have hsel : s.reselectAll.selected x = _ := hend.keeps (R.CLK_DOMx_STATUS_selected x)
  have hstage : s.reselectAll.stage x = _ := hend.keeps (R.CLK_DOMx_STATUS_stage x)
  have hstate : s.reselectAll.domState x = _ := hend.keeps (R.CLK_DOMx_STATUS_state x)
  obtain ⟨hasel, hastage, hastate⟩ := State.acquire_spec hpst ((State.eligible_lt hpe).trans (by decide : 9 < 16))
  rw [hsel, hstage, hstate]
  split
  case isTrue h => exact ⟨hpsel.trans h, fun hne => absurd h hne⟩
  case isFalse => exact ⟨hasel, fun _ => ⟨hastage, hastate⟩⟩

theorem completes_candidateQualified {c : CandIx} (hst : s.candState c = 2) (hm : (s.cand c).misses = 0) (ho : (s.cand c).outside = 0)
    (hp : s.candPresent c = true) : Completes (.candidateQualified c) s fun t => t.candState c = 3 ∧ t.cands = s.cands ∧ CandKept s t c ∧
      ∀ x : DomIx, s.ownDpll x = true → s.domState x = 1 → ∀ e, t.eligible x = some e →
        t.selected x = e ∧ (s.selected x ≠ e → t.stage x = 1 ∧ t.domState x = 2) := by
  have hset := s.setCandState_clockOnly c 3
  have hall := (s.setCandState c 3).reselectAll_clockOnly
  have ht := hset.trans hall
  refine ⟨_, congrArg Host.Outcome.next (if_pos ⟨hst, hm, ho, hp⟩), ?_, ht.cands, ⟨ht.sameMemory, ht.locks, ht.doms, fun d _ => ht.cand d⟩,
    fun x hown hx e he => ?_⟩
  · exact (hall.keeps (R.CLK_CANDc_STATUS_state c)).trans (s.candState_setCandState c (by decide))
  · have hfree := State.reselectAll_free ((hset.ownDpll x).trans hown) ((hset.keeps (R.CLK_DOMx_STATUS_state x)).trans hx) he
    have hsel : (s.setCandState c 3).selected x = s.selected x := hset.keeps (R.CLK_DOMx_STATUS_selected x)
    rwa [hsel] at hfree

end Sys2Proof.Machine
end

section
/-!
Frequency intervals, the drift fit, the cross-check and the time candidates (10 R273 to R275): the equation of each command.
-/
namespace Sys2Proof.Machine
-- One proof at a time: a side condition filled in by `by` waits for the kernel, and many waiting side by side take too much memory.
set_option Elab.async false

variable {s t : State} {W : List FieldAt} {D : List Nat}

/-! ## Frequency intervals (10 R273) -/

theorem ClockOnly.inFreqWin {c : Nat} (h : ClockOnly W D s t) (hf : spares W (R.CLK_CANDc_QUAL_freq_win c) = true) (ppb : Int) :
    t.inFreqWin c ppb = s.inFreqWin c ppb := by
  simp only [State.inFreqWin, h.rd _ hf]

/-- The record of a candidate with a frequency measurement taken (10 R274). -/
def Cand.measured (k : Cand) (now : Nat) (ppb : Int) : Cand :=
  { k with freqs := (now, ppb) :: k.freqs.filter fun e => decide (now ≤ e.1 + 255 * 250000000) }

theorem exec_frequencyInterval_measured {c : CandIx} {f : Ppb} (hst : 2 ≤ s.candState c) :
    exec (.frequencyInterval c (some f)) s = .next (let k := (s.cand c).measured s.now f.toInt
      if s.inFreqWin c f.toInt then ((s.setReg (R.CLK_CANDc_FREQ c) f).setCand c { k with outside := 0 }).follows c f.toInt
      else if 1 ≤ (s.cand c).outside then
        ((s.setReg (R.CLK_CANDc_FREQ c) f).setCand c { k with outside := (s.cand c).outside + 1 }).disqualify c 2 2
      else (s.setReg (R.CLK_CANDc_FREQ c) f).setCand c { k with outside := (s.cand c).outside + 1 }) := by
  have hwin (r : Cand) : ((s.setReg (R.CLK_CANDc_FREQ c) f).setCand c r).inFreqWin c f.toInt = s.inFreqWin c f.toInt :=
    (s.setReg_clockOnly (R.CLK_CANDc_FREQ c) f).inFreqWin (by clear * -; decide +revert) _
  simp only [exec, execFrequencyInterval, if_neg (Nat.not_lt.2 hst)]
  simp [Cand.measured, hwin] <;> rfl

theorem completes_frequencyInterval_lost {c : CandIx} {f : Ppb} (hst : 2 ≤ s.candState c) (hwin : s.inFreqWin c f.toInt = false) (ho : 1 ≤ (s.cand c).outside) :
    Completes (.frequencyInterval c (some f)) s fun t => Lost s c t 2 2 ∧ t.reg (R.CLK_CANDc_FREQ c) = f := by
  have hexec := exec_frequencyInterval_measured (f := f) hst
  simp only [hwin, Bool.false_eq_true, if_false, if_pos ho] at hexec
  have hset := (s.setCand c { (s.cand c).measured s.now f.toInt with outside := (s.cand c).outside + 1 }).setReg_clockOnly (R.CLK_CANDc_FREQ c) f
  refine ⟨_, hexec, lost_disqualify hset (by decide) (by decide), ?_⟩
  exact ((State.disqualify_clockOnly _ c 2 2).reg (R.CLK_CANDc_FREQ c)).trans (s.reg_setReg_self _ _)

theorem exec_frequencyInterval_none {c : CandIx} (hst : s.candState c = 3) : exec (.frequencyInterval c none) s =
    .next (if 1 ≤ (s.cand c).outside then (s.setCand c { s.cand c with outside := (s.cand c).outside + 1 }).disqualify c 2 1
      else s.setCand c { s.cand c with outside := (s.cand c).outside + 1 }) := by
  simp [exec, execFrequencyInterval, hst]

/-! ## The drift fit and the cross-check (10 R274, R275) -/

/-- Two measurements a second apart lie on the line whose slope is their difference. -/
theorem leastSquares_pair (a b : Int) : leastSquares [(0, a), (250000000, b)] = some ((b - a : Int) : Rat) := by
  simp [leastSquares]
  norm_num
  ring

/-- Candidate `d` shares the slope of `c`, within half of what drift_max lets it (10 R274). -/
def State.shares (s : State) (c : Nat) (slope : BitVec 16) (d : Nat) : Prop :=
  d ∈ s.others c ∧ (s.reg (R.CLK_CANDc_SLOPE d)).getLsbD 31 = true ∧
    2 * (((s.reg (R.CLK_CANDc_SLOPE d)).setWidth 16).toInt - slope.toInt).natAbs ≤ s.driftMax c

/-- The candidates that share the slope. -/
def State.sharers (s : State) (c : Nat) (slope : BitVec 16) : List Nat :=
  (s.others c).filter fun d => (s.reg (R.CLK_CANDc_SLOPE d)).getLsbD 31 &&
    decide (2 * (((s.reg (R.CLK_CANDc_SLOPE d)).setWidth 16).toInt - slope.toInt).natAbs ≤ s.driftMax c)

theorem State.mem_sharers {c d : Nat} {slope : BitVec 16} : d ∈ s.sharers c slope ↔ s.shares c slope d := by
  simp [State.sharers, State.shares]

theorem State.mem_others {c d : Nat} : d ∈ s.others c ↔ d < 9 ∧ d ≠ c ∧ s.qualified d = true := by
  simp [State.others]

/-- The state with the fitted slope reported. -/
def State.fitted (s : State) (c : Nat) (slope : BitVec 16) : State := s.setReg (R.CLK_CANDc_SLOPE c) (BitVec.ofNat 32 (2 ^ 31 + slope.toNat))

section
variable {slope : BitVec 16}

theorem State.driftMax_fitted (s : State) (c : CandIx) (slope : BitVec 16) : (s.fitted c slope).driftMax c = s.driftMax c := by
  have hrd : (s.fitted c slope).rd (R.CLK_CANDc_DRIFT_drift_max c) = _ := (s.setReg_clockOnly _ _).keeps (R.CLK_CANDc_DRIFT_drift_max c)
  simp only [State.driftMax, hrd]

/-- The slope reported for one candidate leaves what is judged of the others. -/
theorem State.shares_fitted (s : State) (c : CandIx) (slope : BitVec 16) (d : Nat) : (s.fitted c slope).shares c slope d ↔ s.shares c slope d := by
  have hslope (h : d ≠ c) : (s.fitted c slope).reg (R.CLK_CANDc_SLOPE d) = s.reg (R.CLK_CANDc_SLOPE d) :=
    s.reg_setReg_ne _ (by simp only [R.CLK_CANDc_SLOPE]; omega)
  have hstate (h : d < 9) : (s.fitted c slope).qualified d = s.qualified d := by
    have hrd : (s.fitted c slope).rd (R.CLK_CANDc_STATUS_state d) = _ := (s.setReg_clockOnly _ _).rd _ (by clear * - h; decide +revert)
    simp only [State.qualified, State.candState, hrd]
  simp only [State.shares, State.mem_others, s.driftMax_fitted c slope]
  constructor
  · rintro ⟨⟨hd, hne, hq⟩, hrest⟩
    exact ⟨⟨hd, hne, hstate hd ▸ hq⟩, hslope hne ▸ hrest⟩
  · rintro ⟨⟨hd, hne, hq⟩, hrest⟩
    exact ⟨⟨hd, hne, (hstate hd).trans hq⟩, (hslope hne).symm ▸ hrest⟩

theorem exec_driftFit {c : CandIx} (hfit : s.driftFit c = some slope) (hen : s.is (R.CLK_CANDc_DRIFT_drift_en c) = true) (hst : 2 ≤ s.candState c) :
    exec (.driftFit c) s = .next (if slope.toInt.natAbs ≤ s.driftMax c then s.fitted c slope
      else if 2 ≤ ((s.fitted c slope).sharers c slope).length then (s.fitted c slope).raise R.CLK_INT_STATUS_osc_drift
      else if (s.fitted c slope).qualified c then (s.fitted c slope).disqualify c 4 2 else s.fitted c slope) := by
  have hexec : exec (.driftFit c) s = .next (if slope.toInt.natAbs ≤ (s.fitted c slope).driftMax c then s.fitted c slope
      else if 2 ≤ ((s.fitted c slope).sharers c slope).length then (s.fitted c slope).raise R.CLK_INT_STATUS_osc_drift
      else if (s.fitted c slope).qualified c then (s.fitted c slope).disqualify c 4 2 else s.fitted c slope) := by
    simp only [exec, execDriftFit, hfit, hen, Nat.not_lt.2 hst]
    rfl
  rwa [s.driftMax_fitted c slope] at hexec

theorem exec_driftFit_none {c : CandIx} (hfit : s.driftFit c = none) : exec (.driftFit c) s = .next s := by
  simp [exec, execDriftFit, hfit]

end

theorem two_le_length_of_mem {l : List Nat} {a b : Nat} (ha : a ∈ l) (hb : b ∈ l) (h : a ≠ b) : 2 ≤ l.length := by
  match l with
  | [d] => exact absurd ((List.mem_singleton.1 ha).trans (List.mem_singleton.1 hb).symm) h
  | _ :: _ :: _ => simp

/-- A slope that two other candidates share is attributed to OSC_IN (10 R274). -/
theorem State.two_sharers {c : CandIx} {slope : BitVec 16} (h : ∃ d e, d ≠ e ∧ s.shares c slope d ∧ s.shares c slope e) :
    2 ≤ ((s.fitted c slope).sharers c slope).length := by
  obtain ⟨d, e, hne, hd, he⟩ := h
  exact two_le_length_of_mem (State.mem_sharers.2 ((s.shares_fitted c slope d).2 hd)) (State.mem_sharers.2 ((s.shares_fitted c slope e).2 he)) hne

theorem completes_driftFit_lost {c : CandIx} {slope : BitVec 16} (hfit : s.driftFit c = some slope) (hen : s.is (R.CLK_CANDc_DRIFT_drift_en c) = true)
    (hslope : s.driftMax c < slope.toInt.natAbs) (halone : ∀ d, ¬s.shares c slope d) (hst : s.candState c = 3) :
    Completes (.driftFit c) s (Lost s c · 2 4) := by
  have hnone : (s.fitted c slope).sharers c slope = [] :=
    List.eq_nil_iff_forall_not_mem.2 fun d hd => halone d ((s.shares_fitted c slope d).1 (State.mem_sharers.1 hd))
  have honly : ClockOnly _ _ s (s.fitted c slope) := s.setReg_clockOnly _ _
  have hqualified : (s.fitted c slope).qualified c = true := beq_iff_eq.2 ((honly.keeps (R.CLK_CANDc_STATUS_state c)).trans hst)
  have hexec := exec_driftFit hfit hen (hst ▸ (by decide : 2 ≤ 3))
  rw [if_neg (Nat.not_le.2 hslope), hnone, if_neg (by decide), if_pos hqualified] at hexec
  exact ⟨_, hexec, lost_disqualify_at honly (by decide) (by decide)⟩

theorem exec_crossCheckOutvoted {c : CandIx} (hen : s.is (R.CLK_CANDc_DRIFT_xc_en c) = true) (hst : s.candState c = 3) :
    exec (.crossCheckOutvoted c) s = .next (if s.outvoted c then s.disqualify c 5 2 else s) := by
  have hqualified : s.qualified c = true := beq_iff_eq.2 hst
  simp [exec, execCrossCheckOutvoted, hen, hqualified]

/-! ## Time candidates (10 R273) -/

theorem exec_timeCandidateSourceLoss {c : CandIx} (ht : timeCandidate c = true) (hst : 2 ≤ s.candState c) :
    exec (.timeCandidateSourceLoss c) s = .next (s.disqualify c 6 1) := by
  simp [exec, execTimeCandidateSourceLoss, State.sourceLoss, ht, Nat.not_lt.2 hst]

theorem exec_timeCandidateSourceLoss_idle {c : CandIx} (h : timeCandidate c = false ∨ s.candState c < 2) :
    exec (.timeCandidateSourceLoss c) s = .next s := by
  obtain h | h := h
  · simp [exec, execTimeCandidateSourceLoss, h]
  · simp [exec, execTimeCandidateSourceLoss, State.sourceLoss, h]

/-- A disqualification with nothing before it. -/
theorem lost_disqualify_now (s : State) (c : CandIx) {next reason : Nat} (hnext : next < 8) (hreason : reason < 16) :
    Lost s c (s.disqualify c reason next) next reason := lost_disqualify_at (.refl [] [] s) hnext hreason

end Sys2Proof.Machine
end

section
open Sys2Proof Sys2Proof.Machine

/-- Settles O40: each command by the equation of its meaning, a disqualification by `lost_disqualify`, the candidate taken by `State.reselectAll_free`. -/
theorem candidateQualification : Obligations.CandidateQualification := by
  unfold Obligations.CandidateQualification
  intro s c k st missed kept lost
  have hmissed (r : Cand) (reason : Nat) (hreason : reason < 16) (hmax : s.missMax c ≤ r.misses + 1) :
      lost ((s.setCand c r).candMiss c reason) (if reason = 1 then 1 else 2) reason := by
    rw [s.candMiss_eq c r reason, if_pos hmax]
    exact lost_disqualify (s.missed_clockOnly c _) (by split <;> decide) hreason
  refine ⟨fun he hst => ⟨exec_candidateWindowClose_edge he hst, exec_candidateWindowClose_stray he hst, fun hs hm => ⟨?_, ?_⟩, fun hs hm => ⟨?_, ?_⟩⟩,
    fun h => ⟨exec_candidateWindowClose_idle h, exec_candidateStrayEdge_idle h⟩, completes_candidateFirstEdge, completes_candidateQualified,
    exec_candidateQualified_other, ?_, ?_, ?_, leastSquares_pair, ?_, exec_driftFit_none, ?_, ?_, exec_timeCandidateSourceLoss_idle⟩
  · rw [exec_candidateWindowClose_empty he hst hs, State.candMiss_eq, if_neg (Nat.not_le.2 hm)]
    rfl
  · rw [exec_candidateStrayEdge_counted he hst hs, State.candMiss_eq, if_neg (Nat.not_le.2 hm)]
    rfl
  · exact ⟨_, exec_candidateWindowClose_empty he hst hs, hmissed _ 1 (by decide) hm⟩
  · exact ⟨_, exec_candidateStrayEdge_counted he hst hs, hmissed _ 3 (by decide) hm⟩
  · intro f hst measured kept'
    have hexec := exec_frequencyInterval_measured (f := f) hst
    refine ⟨fun hwin => ?_, fun hwin ho => ?_, completes_frequencyInterval_lost hst⟩
    · rw [if_pos hwin] at hexec
      exact hexec
    · rw [hwin, if_neg (by decide), ho, if_neg (by decide)] at hexec
      exact hexec
  · intro hst ho
    have hexec := exec_frequencyInterval_none hst
    rwa [ho, if_neg (by decide)] at hexec
  · intro hst ho
    have hexec := exec_frequencyInterval_none hst
    rw [if_pos ho] at hexec
    exact ⟨_, hexec, lost_disqualify (.refl [] [] _) (by decide) (by decide)⟩
  · intro slope hfit hen hst fitted alike
    have hexec := exec_driftFit hfit hen hst
    refine ⟨fun hslope => ?_, fun hslope hshared => ?_, fun hslope halone h3 => completes_driftFit_lost hfit hen hslope halone h3⟩
    · rw [if_pos hslope] at hexec
      exact hexec
    · rw [if_neg (Nat.not_le.2 hslope), if_pos (State.two_sharers hshared)] at hexec
      exact hexec
  · intro hen hst
    have hexec := exec_crossCheckOutvoted hen hst
    refine ⟨fun hout => ?_, fun hout => ?_⟩
    · rw [if_pos hout] at hexec
      exact ⟨_, hexec, lost_disqualify_now s c (by decide) (by decide)⟩
    · rwa [hout, if_neg (by decide)] at hexec
  · exact fun ht hst => ⟨_, exec_timeCandidateSourceLoss ht hst, lost_disqualify_now s c (by decide) (by decide)⟩

end

section
/-!
Selection and switching of the domains (10 R276 to R287): captures, completed switches and cocoon, what each leaves in its domain and what of the others.
-/
namespace Sys2Proof.Machine
-- One proof at a time: a side condition filled in by `by` waits for the kernel, and many waiting side by side take too much memory.
set_option Elab.async false

variable {s t u : State} {W : List FieldAt} {D : List Nat} {e : Nat}

/-- An operation on the clock of domain `x` leaves the memories, the locks, the candidates and the DPLLs of the other domains. -/
def DomKept (s t : State) (x : Nat) : Prop := SameMemory s t ∧ t.locks = s.locks ∧ t.cands = s.cands ∧ ∀ y, y ≠ x → t.dpll y = s.dpll y

theorem ClockOnly.domKept {x : Nat} (h : ClockOnly W D s t) (hD : D ⊆ [x] := by simp) : DomKept s t x :=
  ⟨h.sameMemory, h.locks, h.cands, fun y hy => h.dpll y fun hm => hy (by simpa using hD hm)⟩

/-! ## Captures (10 R276 to R278, R283) -/

/-- The capture of candidate `e` runs in domain `x`, which is still on its old reference. -/
def Captures (s : State) (x : DomIx) (t : State) (e : Nat) : Prop :=
  t.capturing x = e ∧ t.domState x = 4 ∧ t.selected x = s.selected x ∧ DomKept s t x

/-- A capture begun, after operations of the domain that leave its selection. -/
theorem captures_startCapture {x : DomIx} (h : ClockOnly W D s u) (he : e < 16) (hD : D ⊆ [x.val] := by simp)
    (hW : spares W (R.CLK_DOMx_STATUS_selected x) = true := by clear * -; decide +revert) : Captures s x (u.startCapture x e).settleClocks e := by
  have hend := (u.startCapture x e).settleClocks_clockOnly
  have hstart := (u.startCapture_clockOnly x e).trans hend
  have hlast : ∃ v : State, u.startCapture x e = (v.wr (R.CLK_DOMx_STATUS_capturing x) e).wr (R.CLK_DOMx_STATUS_state x) 4 := ⟨_, rfl⟩
  obtain ⟨v, hv⟩ := hlast
  have hcap : (u.startCapture x e).capturing x = e := by
    rw [hv]
    exact ((State.wr_clockOnly _ (R.CLK_DOMx_STATUS_state x) 4).keeps (R.CLK_DOMx_STATUS_capturing x)).trans (v.rd_wr_self he (by decide : 20 + 4 ≤ 32))
  have hstate : (u.startCapture x e).domState x = 4 := by
    rw [hv]
    exact State.rd_wr_self _ (by decide : 4 < 2 ^ 3) (by decide : 0 + 3 ≤ 32)
  refine ⟨(hend.keeps (R.CLK_DOMx_STATUS_capturing x)).trans hcap, (hend.keeps (R.CLK_DOMx_STATUS_state x)).trans hstate,
    (hstart.keeps (R.CLK_DOMx_STATUS_selected x)).trans (h.rd _ hW), (h.trans hstart).domKept ?_⟩
  simp [hD]

/-- A locked domain leaves a reference it lost, and takes the one it is forced to (10 R276, R278). -/
theorem State.reselect_leaves {x : Nat} (hown : s.ownDpll x = true) (hst : s.domState x = 3) (he : s.eligible x = some e) (hne : s.selected x ≠ e)
    (hleaves : s.qualified (s.selected x) = false ∨ s.forces x e = true) : s.reselect x = s.startCapture x e := by
  obtain h | h := hleaves <;> simp [State.reselect, hown, he, hst, hne, h]

theorem completes_switchCaptureStart {x : DomIx} (hown : s.ownDpll x = true) (hst : s.domState x = 3) (he : s.eligible x = some e)
    (hne : e ≠ s.selected x) (hlost : s.qualified (s.selected x) = false) : Completes (.switchCaptureStart x) s (Captures s x · e) := by
  have hleaves := State.reselect_leaves hown hst he hne.symm (.inl hlost)
  exact ⟨_, congrArg (fun t : State => Host.Outcome.next t.settleClocks) hleaves,
    captures_startCapture (.refl [] [] s) ((State.eligible_lt he).trans (by decide : 9 < 16))⟩

theorem completes_waitToRestoreExpiry {x : DomIx} (hown : s.ownDpll x = true) (hst : s.domState x = 3) (he : s.eligible x = some e)
    (hne : e ≠ s.selected x) (hrev : s.is (R.CLK_DOMx_CTRL_revertive x) = true) : Completes (.waitToRestoreExpiry x) s (Captures s x · e) := by
  refine ⟨_, ?_, captures_startCapture (.refl [] [] s) ((State.eligible_lt he).trans (by decide : 9 < 16))⟩
  simp [exec, execWaitToRestoreExpiry, he, hown, hst, hrev, hne]

theorem exec_switchCaptureStart_none {x : DomIx} (he : s.eligible x = none) : exec (.switchCaptureStart x) s = .next s.settleClocks := by
  have hstay : s.reselect x = s := by simp [State.reselect, he]
  exact congrArg (fun t : State => Host.Outcome.next t.settleClocks) hstay

theorem exec_waitToRestoreExpiry_none {x : DomIx} (he : s.eligible x = none) : exec (.waitToRestoreExpiry x) s = .next s := by
  simp [exec, execWaitToRestoreExpiry, he]

/-! ## Forcing (10 R278) -/

theorem b2n_mod_two (b : Bool) : (b2n b % 2 ^ 1 == 1) = b := by cases b <;> decide

/-- Software's value of a bit that no overlay owns is in effect (03 R88). -/
theorem State.is_sw_free {f : FieldAt} (ho : s.owned f.addr = 0) (hf : f.lsb + f.width ≤ 32) (hw : f.width = 1) (v : Bool) : (s.sw f (b2n v)).is f = v := by
  rw [State.is, State.rd_sw_free s ho hf, hw]
  exact b2n_mod_two v

theorem ClockOnly.qualified (h : ClockOnly W D s t) {c : Nat} (hf : spares W (R.CLK_CANDc_STATUS_state c) = true) : t.qualified c = s.qualified c := by
  simp only [State.qualified, State.candState, h.rd _ hf]

/-- The state with the force fields written. -/
def State.forced (s : State) (x : Nat) (en : Bool) (sel : BitVec 4) : State :=
  (s.sw (R.CLK_DOMx_CTRL_force_en x) (b2n en)).sw (R.CLK_DOMx_CTRL_force_sel x) sel.toNat

theorem State.forced_clockOnly (s : State) (x : Nat) (en : Bool) (sel : BitVec 4) :
    ClockOnly [R.CLK_DOMx_CTRL_force_en x, R.CLK_DOMx_CTRL_force_sel x] [] s (s.forced x en sel) :=
  (s.sw_clockOnly _ _).trans (State.sw_clockOnly _ _ _)

/-- The force fields hold what software wrote where no overlay owns them (03 R88). -/
theorem State.forced_spec {x : DomIx} (ho : s.owned (R.CLK_DOMx_CTRL x) = 0) (en : Bool) (sel : BitVec 4) :
    (s.forced x en sel).is (R.CLK_DOMx_CTRL_force_en x) = en ∧ (s.forced x en sel).rd (R.CLK_DOMx_CTRL_force_sel x) = sel.toNat := by
  have hheld : R.CFG_MODE_HELD ≠ R.CLK_DOMx_CTRL x := by simp only [R.CFG_MODE_HELD, R.CLK_DOMx_CTRL]; omega
  have ho' : (s.sw (R.CLK_DOMx_CTRL_force_en x) (b2n en)).owned (R.CLK_DOMx_CTRL x) = 0 :=
    (State.owned_congr (s := s) (t := s.sw (R.CLK_DOMx_CTRL_force_en x) (b2n en)) rfl (s.reg_sw_ne _ hheld) _).trans ho
  have hen : (s.sw (R.CLK_DOMx_CTRL_force_en x) (b2n en)).is (R.CLK_DOMx_CTRL_force_en x) = en :=
    State.is_sw_free ho (by decide : 24 + 1 ≤ 32) rfl en
  refine ⟨((State.sw_clockOnly _ _ _).is (R.CLK_DOMx_CTRL_force_en x)).trans hen, ?_⟩
  exact (State.rd_sw_free _ ho' (by decide : 16 + 4 ≤ 32) _).trans (Nat.mod_eq_of_lt sel.isLt)

theorem State.qualified_forced (s : State) (x : DomIx) (en : Bool) (sel : BitVec 4) : (s.forced x en sel).qualified sel.toNat = s.qualified sel.toNat := by
  have hsel := sel.isLt
  exact (s.forced_clockOnly x en sel).qualified (by generalize sel.toNat = c at hsel ⊢; clear * - hsel; decide +revert)

theorem exec_forceWrite {x : DomIx} (en : Bool) (sel : BitVec 4) : exec (.forceWrite x en sel) s = .next ((s.forced x en sel).forceEffect x) := rfl

theorem State.forceEffect_clockOnly (s : State) (x : Nat) : ClockOnly (R.CLK_DOMx_INT_STATUS_force_lost x :: moveFields x) [x] s (s.forceEffect x) := by
  unfold State.forceEffect
  extract_lets f u
  have hu : ClockOnly [R.CLK_DOMx_INT_STATUS_force_lost x] [] s u := (s.raise_clockOnly _).ite (.refl _ _ s)
  exact (hu.trans (u.reselect_clockOnly x)).trans (State.settleClocks_clockOnly _)

/-- A forced candidate that is not qualified is reported (10 R278). -/
theorem State.forceEffect_lost {x : DomIx} (hen : s.is (R.CLK_DOMx_CTRL_force_en x) = true)
    (hq : s.qualified (s.rd (R.CLK_DOMx_CTRL_force_sel x)) = false) : (s.forceEffect x).is (R.CLK_DOMx_INT_STATUS_force_lost x) = true := by
  unfold State.forceEffect
  extract_lets f u
  have hu : u.is (R.CLK_DOMx_INT_STATUS_force_lost x) = true := by
    have hraise : u = s.raise (R.CLK_DOMx_INT_STATUS_force_lost x) := if_pos (by simp [hen, f, hq])
    rw [hraise]
    exact s.is_raise _ (by decide : 8 + 1 ≤ 32) Nat.one_pos
  exact (((u.reselect_clockOnly x).trans (State.settleClocks_clockOnly _)).is (R.CLK_DOMx_INT_STATUS_force_lost x)).trans hu

/-- A locked domain is captured by the qualified candidate it is forced to (10 R278). -/
theorem State.forceEffect_takes {x : Nat} {c : Nat} (hen : s.is (R.CLK_DOMx_CTRL_force_en x) = true) (hsel : s.rd (R.CLK_DOMx_CTRL_force_sel x) = c)
    (hq : s.qualified c = true) (hc : c ≤ 8) (hown : s.ownDpll x = true) (hst : s.domState x = 3) (hne : s.selected x ≠ c) :
    s.forceEffect x = (s.startCapture x c).settleClocks := by
  have he : s.eligible x = some c := by simp [State.eligible, hen, hsel, hq, hc]
  have hforces : s.forces x c = true := by simp [State.forces, hen, hsel]
  simp [State.forceEffect, hen, hsel, hq, hc, State.reselect_leaves hown hst he hne (.inr hforces)]

theorem completes_forceWrite {x : DomIx} (ho : s.owned (R.CLK_DOMx_CTRL x) = 0) (en : Bool) (sel : BitVec 4) : Completes (.forceWrite x en sel) s fun t =>
    t.is (R.CLK_DOMx_CTRL_force_en x) = en ∧ t.rd (R.CLK_DOMx_CTRL_force_sel x) = sel.toNat ∧ DomKept s t x ∧
      (en = true → s.qualified sel.toNat = false → t.is (R.CLK_DOMx_INT_STATUS_force_lost x) = true) ∧
      (en = true → s.qualified sel.toNat = true → sel.toNat ≤ 8 → s.ownDpll x = true → s.domState x = 3 → s.selected x ≠ sel.toNat →
        Captures s x t sel.toNat) := by
  have hforced := s.forced_clockOnly x en sel
  have heffect := (s.forced x en sel).forceEffect_clockOnly x
  obtain ⟨hen, hsel⟩ := State.forced_spec ho en sel
  have hq := s.qualified_forced x en sel
  have hselected : (s.forced x en sel).selected x = s.selected x := hforced.keeps (R.CLK_DOMx_STATUS_selected x)
  refine ⟨_, exec_forceWrite en sel, (heffect.is (R.CLK_DOMx_CTRL_force_en x)).trans hen, (heffect.keeps (R.CLK_DOMx_CTRL_force_sel x)).trans hsel,
    (hforced.trans heffect).domKept, ?_, ?_⟩
  · intro h hlost
    exact State.forceEffect_lost (hen.trans h) (by rw [hsel, hq, hlost])
  · intro h hqualified hle hown hst hne
    rw [State.forceEffect_takes (hen.trans h) hsel (hq.trans hqualified) hle ((hforced.ownDpll x).trans hown)
      ((hforced.keeps (R.CLK_DOMx_STATUS_state x)).trans hst) (hselected ▸ hne)]
    exact captures_startCapture hforced (by omega)

/-! ## The end of a switch (10 R282, R283, R287) -/

/-- The switch of domain `x` is complete: reported and counted, and cocoon is left. -/
def Switched (s : State) (x : DomIx) (t : State) : Prop :=
  t.is (R.CLK_DOMx_INT_STATUS_switched x) = true ∧ t.domState x = (if s.stage x = 4 then 3 else 2) ∧
    t.rd (lowHalf (R.CLK_DOMx_COUNT x)) = min (s.rd (lowHalf (R.CLK_DOMx_COUNT x)) + 1) 65535 ∧ t.capturing x = 15 ∧
    (t.dpll x).cocoon = false ∧ ((s.dpll x).cocoon = true → t.is (R.CLK_DOMx_INT_STATUS_cocoon_out x) = true) ∧ DomKept s t x

/-- A switch completed leaves the domain locked or acquiring, by its stage, and out of cocoon. -/
theorem State.switchDone_spec (s : State) (x : DomIx) : (s.switchDone x).is (R.CLK_DOMx_INT_STATUS_switched x) = true ∧
    (s.switchDone x).domState x = (if s.stage x = 4 then 3 else 2) ∧
    (s.switchDone x).rd (lowHalf (R.CLK_DOMx_COUNT x)) = min (s.rd (lowHalf (R.CLK_DOMx_COUNT x)) + 1) 65535 ∧
    (s.switchDone x).dpll x = { s.dpll x with cocoon := false } ∧ ((s.dpll x).cocoon = true → (s.switchDone x).is (R.CLK_DOMx_INT_STATUS_cocoon_out x) = true) := by
  unfold State.switchDone
  extract_lets +onlyGivenNames s₁ s₂
  have h₀ := s.raise_clockOnly (R.CLK_DOMx_INT_STATUS_switched x)
  have h₁ : ClockOnly [lowHalf (R.CLK_DOMx_COUNT x)] [] (s.raise (R.CLK_DOMx_INT_STATUS_switched x)) s₁ := State.bump_clockOnly _ _ 1
  have h₂ : ClockOnly [R.CLK_DOMx_STATUS_state x] [] s₁ s₂ := s₁.wr_clockOnly _ _
  have hswitched : s₂.is (R.CLK_DOMx_INT_STATUS_switched x) = true :=
    ((h₁.trans h₂).is (R.CLK_DOMx_INT_STATUS_switched x)).trans (s.is_raise _ (by decide : 1 + 1 ≤ 32) Nat.one_pos)
  have hstage : s₁.stage x = s.stage x := (h₀.trans h₁).keeps (R.CLK_DOMx_STATUS_stage x)
  have hstate : s₂.domState x = if s.stage x = 4 then 3 else 2 := by
    rw [← hstage]
    exact s₁.rd_wr_self (show (if s₁.stage x = 4 then 3 else 2) < 2 ^ 3 by split <;> decide) (by decide : 0 + 3 ≤ 32)
  have hcount : s₂.rd (lowHalf (R.CLK_DOMx_COUNT x)) = min (s.rd (lowHalf (R.CLK_DOMx_COUNT x)) + 1) 65535 := by
    rw [h₂.keeps (lowHalf (R.CLK_DOMx_COUNT x)), ← h₀.keeps (lowHalf (R.CLK_DOMx_COUNT x))]
    exact State.rd_bump _ _ 1 (by decide : 0 + 16 ≤ 32)
  have hdpll : s₂.dpll x = s.dpll x := (h₀.trans (h₁.trans h₂)).dpll x List.not_mem_nil
  split
  case isTrue =>
    have h₃ := (s₂.setDpll_clockOnly x { s₂.dpll x with cocoon := false } rfl).trans (State.raise_clockOnly _ (R.CLK_DOMx_INT_STATUS_cocoon_out x))
    refine ⟨(h₃.is (R.CLK_DOMx_INT_STATUS_switched x)).trans hswitched, (h₃.keeps (R.CLK_DOMx_STATUS_state x)).trans hstate,
      (h₃.keeps (lowHalf (R.CLK_DOMx_COUNT x))).trans hcount, ?_, fun _ => State.is_raise _ _ (by decide : 4 + 1 ≤ 32) Nat.one_pos⟩
    rw [(State.raise_clockOnly _ _).dpll x List.not_mem_nil, s₂.dpll_setDpll_self x, hdpll]
  case isFalse h =>
    rw [hdpll, Bool.not_eq_true] at h
    exact ⟨hswitched, hstate, hcount, by rw [hdpll, ← h], fun hc => absurd (hc.symm.trans h) (by decide)⟩

/-- What the completion of a switch looks at. -/
def switchReads (x : Nat) : List FieldAt := [R.CLK_DOMx_STATUS_stage x, lowHalf (R.CLK_DOMx_COUNT x)]

/-- A switch completed, after operations of the domain that leave its stage, its count and its cocoon. -/
theorem switched_switchDone {x : DomIx} (h : ClockOnly W D s u) (hcap : u.capturing x = 15) (hcocoon : (u.dpll x).cocoon = (s.dpll x).cocoon)
    (hD : D ⊆ [x.val] := by simp) (hW : (switchReads x).all (spares W) = true := by clear * -; decide +revert) :
    Switched s x (u.switchDone x).settleClocks := by
  simp only [switchReads, List.all_cons, List.all_nil, Bool.and_true, Bool.and_eq_true] at hW
  obtain ⟨hstage, hcount⟩ := hW
  have hdone := u.switchDone_clockOnly x
  have hend := (u.switchDone x).settleClocks_clockOnly
  obtain ⟨hswitched, hstate, hcounted, hout, hevent⟩ := u.switchDone_spec x
  have hstage : u.stage x = s.stage x := h.rd _ hstage
  rw [hstage] at hstate
  rw [h.rd _ hcount] at hcounted
  rw [hcocoon] at hevent
  refine ⟨(hend.is (R.CLK_DOMx_INT_STATUS_switched x)).trans hswitched, (hend.keeps (R.CLK_DOMx_STATUS_state x)).trans hstate,
    (hend.keeps (lowHalf (R.CLK_DOMx_COUNT x))).trans hcounted, ((hdone.trans hend).keeps (R.CLK_DOMx_STATUS_capturing x)).trans hcap, ?_,
    fun hc => (hend.is (R.CLK_DOMx_INT_STATUS_cocoon_out x)).trans (hevent hc), (h.trans (hdone.trans hend)).domKept ?_⟩
  · rw [hend.dpll x List.not_mem_nil, hout]
  · simp [hD]

end Sys2Proof.Machine
end

section
/-!
The end of a capture and of a pass-through ramp (10 R282, R283).
-/
namespace Sys2Proof.Machine
-- One proof at a time: a side condition filled in by `by` waits for the kernel, and many waiting side by side take too much memory.
set_option Elab.async false

variable {s t u : State} {W : List FieldAt} {D : List Nat} {e : Nat}

/-! ## Captures and ramps that end (10 R282, R283) -/

/-- The captured candidate is selected. -/
def State.takeCapture (s : State) (x : Nat) : State :=
  (s.wr (R.CLK_DOMx_STATUS_selected x) (s.capturing x)).wr (R.CLK_DOMx_STATUS_capturing x) 15

theorem State.takeCapture_clockOnly (s : State) (x : Nat) :
    ClockOnly [R.CLK_DOMx_STATUS_selected x, R.CLK_DOMx_STATUS_capturing x] [] s (s.takeCapture x) := (s.wr_clockOnly _ _).trans (State.wr_clockOnly _ _ _)

theorem State.takeCapture_spec (s : State) (x : DomIx) : (s.takeCapture x).selected x = s.capturing x ∧ (s.takeCapture x).capturing x = 15 := by
  have hcap : s.capturing x < 2 ^ 4 := getBits_lt ..
  refine ⟨?_, State.rd_wr_self _ (by decide : 15 < 2 ^ 4) (by decide : 20 + 4 ≤ 32)⟩
  exact ((State.wr_clockOnly _ (R.CLK_DOMx_STATUS_capturing x) 15).keeps (R.CLK_DOMx_STATUS_selected x)).trans
    (s.rd_wr_self hcap (by decide : 24 + 4 ≤ 32))

/-- A switch to the captured candidate passes through to its phase (10 R282). -/
def State.passes (s : State) (x : Nat) : Bool :=
  timeCandidate (s.capturing x) || (edgeCandidate (s.capturing x) && s.is (R.CLK_DOMx_CTRL_step_mode x))

/-- The frequency offset of a pass-through ramp, in ppb, toward a reference that is `d` ps late (10 R282). -/
def State.passRamp (s : State) (x : Nat) (d : Int) : Int :=
  let pt : Int := 1000 * max 50 (min 450 (s.rd (R.CLK_DOMx_LOOP_pt_ppm x)))
  if 0 < d then -pt else pt

theorem exec_switchCaptureEnd {x : DomIx} {offset : Ps} (hc : s.capturing x ≠ 15) (hst : s.domState x = 4) (hq : s.qualified (s.capturing x) = true) :
    exec (.switchCaptureEnd x offset) s = .next (
      if s.passes x = false then (((s.takeCapture x).setReg (R.CLK_DOMx_BOFF x) offset).switchDone x).settleClocks
      else if s.shortest x offset.toInt = 0 then (((s.takeCapture x).setReg (R.CLK_DOMx_BOFF x) 0).switchDone x).settleClocks
      else (((s.takeCapture x).setReg (R.CLK_DOMx_BOFF x) 0).setRamp x (s.passRamp x (s.shortest x offset.toInt))).settleClocks) := by
  have hcap := s.takeCapture_clockOnly x
  have hset := hcap.trans ((s.takeCapture x).setReg_clockOnly (R.CLK_DOMx_BOFF x) 0)
  have hstep : (s.takeCapture x).is (R.CLK_DOMx_CTRL_step_mode x) = s.is (R.CLK_DOMx_CTRL_step_mode x) := hcap.is _
  have hshort : ((s.takeCapture x).setReg (R.CLK_DOMx_BOFF x) 0).shortest x offset.toInt = s.shortest x offset.toInt := by
    have hrate := hset.keeps (R.CLK_DOMx_CFG_rate x)
    unfold State.shortest State.fs
    rw [hrate]
  have hpt : ((s.takeCapture x).setReg (R.CLK_DOMx_BOFF x) 0).rd (R.CLK_DOMx_LOOP_pt_ppm x) = s.rd (R.CLK_DOMx_LOOP_pt_ppm x) := hset.keeps _
  simp only [State.takeCapture] at hstep hshort hpt
  simp only [exec, execSwitchCaptureEnd, hc, hst, hq, hstep, hshort, hpt, ne_eq, not_true, or_self, if_false, Bool.not_eq_true']
  rfl

/-- The switch ends with the build-out offset `v` loaded (10 R282, R283). -/
theorem State.takeCapture_switched (s : State) (x : DomIx) (v : Word) :
    Switched s x (((s.takeCapture x).setReg (R.CLK_DOMx_BOFF x) v).switchDone x).settleClocks ∧
      (((s.takeCapture x).setReg (R.CLK_DOMx_BOFF x) v).switchDone x).settleClocks.selected x = s.capturing x ∧
      (((s.takeCapture x).setReg (R.CLK_DOMx_BOFF x) v).switchDone x).settleClocks.reg (R.CLK_DOMx_BOFF x) = v := by
  obtain ⟨hsel, hcap⟩ := s.takeCapture_spec x
  have hset := (s.takeCapture x).setReg_clockOnly (R.CLK_DOMx_BOFF x) v
  have hall := (s.takeCapture_clockOnly x).trans hset
  have hend := (State.switchDone_clockOnly _ x).trans (((s.takeCapture x).setReg (R.CLK_DOMx_BOFF x) v).switchDone x).settleClocks_clockOnly
  refine ⟨switched_switchDone hall ((hset.keeps (R.CLK_DOMx_STATUS_capturing x)).trans hcap) ?_, ?_, ?_⟩
  · rw [hall.dpll x List.not_mem_nil]
  · exact ((hset.trans hend).keeps (R.CLK_DOMx_STATUS_selected x)).trans hsel
  · exact (hend.reg (R.CLK_DOMx_BOFF x)).trans (State.reg_setReg_self ..)

theorem State.setRamp_ramping (s : State) (x : DomIx) (ppb : Int) : (s.setRamp x ppb).ramping x = decide (ppb ≠ 0) := by
  have hwr : ∃ v : State, s.setRamp x ppb = (v.wr (R.CLK_DOMx_STATUS_ramp x) (b2n (ppb ≠ 0))).judgeClamp x := ⟨_, rfl⟩
  obtain ⟨v, hv⟩ := hwr
  rw [hv]
  refine ((State.judgeClamp_clockOnly _ x).is (R.CLK_DOMx_STATUS_ramp x)).trans ?_
  rw [State.is, State.rd_wr_same _ _ _ (by decide : 15 + 1 ≤ 32)]
  exact b2n_mod_two _

/-- The pass-through ramp runs at pt_ppm, kept between 50 and 450 ppm, slow where the reference is late (10 R282). -/
theorem State.passRamp_spec (s : State) (x : Nat) (d : Int) : (s.passRamp x d).natAbs = 1000 * max 50 (min 450 (s.rd (R.CLK_DOMx_LOOP_pt_ppm x))) ∧
    (s.passRamp x d < 0 ↔ 0 < d) ∧ s.passRamp x d ≠ 0 := by
  unfold State.passRamp
  extract_lets pt
  split <;> omega

/-- The switch ends in a pass-through ramp (10 R282, R283). -/
theorem completes_switchCaptureEnd_ramps {x : DomIx} {offset : Ps} (hc : s.capturing x ≠ 15) (hst : s.domState x = 4)
    (hq : s.qualified (s.capturing x) = true) (hp : s.passes x = true) (hd : s.shortest x offset.toInt ≠ 0) :
    Completes (.switchCaptureEnd x offset) s fun t => t.ramping x = true ∧ t.selected x = s.capturing x ∧ t.capturing x = 15 ∧
      t.reg (R.CLK_DOMx_BOFF x) = 0 ∧ DomKept s t x ∧
      (t.dpll x).ramp.natAbs = 1000 * max 50 (min 450 (s.rd (R.CLK_DOMx_LOOP_pt_ppm x))) ∧ ((t.dpll x).ramp < 0 ↔ 0 < s.shortest x offset.toInt) := by
  have hexec := exec_switchCaptureEnd (offset := offset) hc hst hq
  rw [hp, if_neg (by decide), if_neg hd] at hexec
  obtain ⟨hsel, hcap⟩ := s.takeCapture_spec x
  obtain ⟨hppm, hsign, hne⟩ := s.passRamp_spec x (s.shortest x offset.toInt)
  have hset := (s.takeCapture x).setReg_clockOnly (R.CLK_DOMx_BOFF x) 0
  have hramp := ((s.takeCapture x).setReg (R.CLK_DOMx_BOFF x) 0).setRamp_clockOnly x (s.passRamp x (s.shortest x offset.toInt))
  have hend := (((s.takeCapture x).setReg (R.CLK_DOMx_BOFF x) 0).setRamp x (s.passRamp x (s.shortest x offset.toInt))).settleClocks_clockOnly
  have hafter := hset.trans (hramp.trans hend)
  have hleft := congrArg Dpll.ramp ((hend.dpll x List.not_mem_nil).trans (State.dpll_setRamp _ x _))
  refine ⟨_, hexec, ?_, (hafter.keeps (R.CLK_DOMx_STATUS_selected x)).trans hsel, (hafter.keeps (R.CLK_DOMx_STATUS_capturing x)).trans hcap, ?_,
    ((s.takeCapture_clockOnly x).trans hafter).domKept, ?_, ?_⟩
  · exact ((hend.is (R.CLK_DOMx_STATUS_ramp x)).trans (State.setRamp_ramping _ x _)).trans (decide_eq_true hne)
  · exact ((hramp.trans hend).reg (R.CLK_DOMx_BOFF x)).trans (State.reg_setReg_self ..)
  · rw [hleft, hppm]
  · rw [hleft, hsign]

theorem completes_passThroughRampEnd {x : DomIx} (hr : s.ramping x = true) (hc : s.capturing x = 15) : Completes (.passThroughRampEnd x) s fun t =>
    Switched s x t ∧ t.ramping x = false ∧ (t.dpll x).ramp = 0 := by
  have hexec : exec (.passThroughRampEnd x) s = .next ((s.setRamp x 0).switchDone x).settleClocks := congrArg Host.Outcome.next (if_pos hr)
  have hramp := s.setRamp_clockOnly x 0
  have hdone := (s.setRamp x 0).switchDone_clockOnly x
  have hend := ((s.setRamp x 0).switchDone x).settleClocks_clockOnly
  have hleft : (((s.setRamp x 0).switchDone x).dpll x).ramp = 0 := by
    obtain ⟨-, -, -, hdpll, -⟩ := (s.setRamp x 0).switchDone_spec x
    rw [hdpll, State.dpll_setRamp]
  refine ⟨_, hexec, switched_switchDone hramp ((hramp.keeps (R.CLK_DOMx_STATUS_capturing x)).trans hc) ?_, ?_, ?_⟩
  · rw [State.dpll_setRamp]
  · exact ((hdone.trans hend).is (R.CLK_DOMx_STATUS_ramp x)).trans (State.setRamp_ramping s x 0)
  · rw [hend.dpll x List.not_mem_nil, hleft]

theorem exec_passThroughRampEnd_idle {x : DomIx} (hr : s.ramping x = false) : exec (.passThroughRampEnd x) s = .next s :=
  congrArg Host.Outcome.next (if_neg (by simp [hr]))

end Sys2Proof.Machine
end

section
/-!
What a phase measurement (10 R291), a fallback from the imago (10 R279) and the start of a domain (10 R280) leave.
-/
namespace Sys2Proof.Machine
-- One proof at a time: a side condition filled in by `by` waits for the kernel, and many waiting side by side take too much memory.
set_option Elab.async false

variable {s t u : State} {W : List FieldAt} {D : List Nat}

/-! ## Phase measurements (10 R291) -/

theorem State.judgeAligned_clockOnly (s : State) (x : Nat) :
    ClockOnly [R.CLK_DOMx_STATUS_aligned x, R.CLK_DOMx_INT_STATUS_align_lost x] [] s (s.judgeAligned x) := by
  unfold State.judgeAligned
  extract_lets ok was s₁
  have h₁ : ClockOnly [R.CLK_DOMx_STATUS_aligned x] [] s s₁ := s.wr_clockOnly _ _
  exact (h₁.trans (s₁.raise_clockOnly _)).ite (h₁.mono (by simp) (by simp))

theorem State.measurePhase_clockOnly (s : State) (x : Nat) (ps : Ps) :
    ClockOnly [whole (R.CLK_DOMx_PHASE x), R.CLK_DOMx_STATUS_aligned x, R.CLK_DOMx_INT_STATUS_align_lost x] [] s (s.measurePhase x ps) :=
  (s.setReg_clockOnly _ _).trans (State.judgeAligned_clockOnly _ x)

/-- A phase measurement changes registers alone. -/
theorem State.measurePhase_rest (s : State) (x : Nat) (ps : Ps) : ∃ r, s.measurePhase x ps = { s with regs := r } := by
  unfold State.measurePhase State.judgeAligned
  extract_lets ok was s₁
  split <;> exact ⟨_, rfl⟩

theorem State.dplls_measurePhase (s : State) (x : Nat) (ps : Ps) : (s.measurePhase x ps).dplls = s.dplls := by
  obtain ⟨r, hr⟩ := s.measurePhase_rest x ps
  rw [hr]

theorem State.glb_measurePhase (s : State) (x : Nat) (ps : Ps) : (s.measurePhase x ps).glb = s.glb := by
  obtain ⟨r, hr⟩ := s.measurePhase_rest x ps
  rw [hr]

theorem State.reg_measurePhase_ne (s : State) (x : Nat) (ps : Ps) {a : Nat}
    (ha : a ∉ [R.CLK_DOMx_STATUS x, R.CLK_DOMx_PHASE x, R.CLK_DOMx_INT_STATUS x]) : (s.measurePhase x ps).reg a = s.reg a := by
  simp only [List.mem_cons, List.not_mem_nil, or_false, not_or] at ha
  obtain ⟨hstatus, hphase, hevent⟩ := ha
  unfold State.measurePhase State.judgeAligned
  extract_lets ok was s₁
  have h₁ : s₁.reg a = s.reg a := (State.reg_wr_ne _ _ hstatus).trans (s.reg_setReg_ne ps hphase)
  split
  · exact (s₁.reg_raise_ne hevent).trans h₁
  · exact h₁

/-- The numbers and the phase of the domain are aligned (10 R291). -/
def State.alignedAt (s : State) (x : Nat) (ps : Ps) : Prop := s.started x = true ∧ s.numberDrift x = 0 ∧ ps.toInt.natAbs * 64 * s.fs x ≤ 10 ^ 12

/-- The drift of the sample numbers does not hang on the phase. -/
theorem State.numberDrift_setPhase (s : State) (x : DomIx) (ps : Ps) : (s.setReg (R.CLK_DOMx_PHASE x) ps).numberDrift x = s.numberDrift x := by
  have h := s.setReg_clockOnly (R.CLK_DOMx_PHASE x) ps
  have hheld : R.CFG_MODE_HELD ≠ R.CLK_DOMx_PHASE x := by simp only [R.CFG_MODE_HELD, R.CLK_DOMx_PHASE]; omega
  have hlead : (s.setReg (R.CLK_DOMx_PHASE x) ps).leadNumbers x = s.leadNumbers x := by
    simp only [State.leadNumbers, State.holds, State.selected, h.keeps (R.CLK_DOMx_STATUS_selected x), s.reg_setReg_ne ps hheld]
  have htb := h.keeps (R.CLK_DOMx_CFG_tb x)
  have hrate := h.keeps (R.CLK_DOMx_CFG_rate x)
  unfold State.numberDrift State.fs
  rw [hlead, htb, hrate]
  rfl

theorem State.measurePhase_spec (s : State) (x : DomIx) (ps : Ps) : (s.measurePhase x ps).reg (R.CLK_DOMx_PHASE x) = ps ∧
    ((s.measurePhase x ps).is (R.CLK_DOMx_STATUS_aligned x) = true ↔ s.alignedAt x ps) ∧
    (s.is (R.CLK_DOMx_STATUS_aligned x) = true → (s.measurePhase x ps).is (R.CLK_DOMx_STATUS_aligned x) = false →
      (s.measurePhase x ps).is (R.CLK_DOMx_INT_STATUS_align_lost x) = true) := by
  have hset := s.setReg_clockOnly (R.CLK_DOMx_PHASE x) ps
  have hjudge := State.judgeAligned_clockOnly (s.setReg (R.CLK_DOMx_PHASE x) ps) x
  refine ⟨(hjudge.reg (R.CLK_DOMx_PHASE x)).trans (s.reg_setReg_self _ ps), ?_⟩
  have hphase : (s.setReg (R.CLK_DOMx_PHASE x) ps).phase x = ps.toInt := congrArg BitVec.toInt (s.reg_setReg_self _ ps)
  have hstarted : (s.setReg (R.CLK_DOMx_PHASE x) ps).started x = s.started x := hset.is _
  have hfs : (s.setReg (R.CLK_DOMx_PHASE x) ps).fs x = s.fs x := congrArg rateOf (hset.keeps _)
  have hwas : (s.setReg (R.CLK_DOMx_PHASE x) ps).is (R.CLK_DOMx_STATUS_aligned x) = s.is (R.CLK_DOMx_STATUS_aligned x) := hset.is _
  unfold State.measurePhase State.judgeAligned
  extract_lets ok was s₁
  have hok : ok = true ↔ s.alignedAt x ps := by
    simp only [ok, hphase, hstarted, s.numberDrift_setPhase, State.phaseNear, hfs, State.alignedAt, Bool.and_eq_true, decide_eq_true_eq, and_assoc]
  have haligned : s₁.is (R.CLK_DOMx_STATUS_aligned x) = ok := by
    rw [State.is, State.rd_wr_same _ _ _ (by decide : 31 + 1 ≤ 32)]
    exact b2n_mod_two ok
  have hraised : (s₁.raise (R.CLK_DOMx_INT_STATUS_align_lost x)).is (R.CLK_DOMx_STATUS_aligned x) = ok :=
    ((s₁.raise_clockOnly _).is (R.CLK_DOMx_STATUS_aligned x)).trans haligned
  split
  case isTrue => exact ⟨hraised ▸ hok, fun _ _ => s₁.is_raise _ (by decide : 7 + 1 ≤ 32) Nat.one_pos⟩
  case isFalse hlost =>
    refine ⟨haligned ▸ hok, fun h hno => absurd ?_ hlost⟩
    simp only [was, hwas, h, ← haligned, hno]
    rfl

/-! ## Fallback (10 R279) -/

theorem exec_imagoFallback {x : DomIx} {phase : Ps} (hs : s.stage x = 4) (hsel : s.selected x ≠ 15) (hp : 1000000 < phase.toInt.natAbs) :
    exec (.imagoFallback x phase) s = .next ((s.wr (R.CLK_DOMx_STATUS_stage x) 3).measurePhase x phase) :=
  congrArg Host.Outcome.next (if_pos ⟨hs, hsel, hp⟩)

theorem completes_imagoFallback {x : DomIx} {phase : Ps} (hs : s.stage x = 4) (hsel : s.selected x ≠ 15) (hp : 1000000 < phase.toInt.natAbs) :
    Completes (.imagoFallback x phase) s fun t => t.stage x = 3 ∧ t.reg (R.CLK_DOMx_PHASE x) = phase ∧ DomKept s t x ∧ t.dplls = s.dplls ∧
      ∀ r, r ∉ [R.CLK_DOMx_STATUS x, R.CLK_DOMx_PHASE x, R.CLK_DOMx_INT_STATUS x] → t.reg r = s.reg r := by
  have hstage := s.wr_clockOnly (R.CLK_DOMx_STATUS_stage x) 3
  have hmeasure := (s.wr (R.CLK_DOMx_STATUS_stage x) 3).measurePhase_clockOnly x phase
  refine ⟨_, exec_imagoFallback hs hsel hp, ?_, (State.measurePhase_spec _ x phase).1, (hstage.trans hmeasure).domKept, State.dplls_measurePhase .., fun r hr => ?_⟩
  · exact (hmeasure.keeps (R.CLK_DOMx_STATUS_stage x)).trans (s.rd_wr_self (by decide : 3 < 2 ^ 3) (by decide : 16 + 3 ≤ 32))
  · exact (State.reg_measurePhase_ne _ x phase hr).trans (s.reg_wr_ne 3 fun he => hr (by simp [he, R.CLK_DOMx_STATUS_stage]))

theorem exec_imagoFallback_near {x : DomIx} {phase : Ps} (hp : phase.toInt.natAbs ≤ 1000000) : exec (.imagoFallback x phase) s = .next s :=
  congrArg Host.Outcome.next (if_neg fun h => absurd h.2.2 (Nat.not_lt.2 hp))

theorem completes_alignLost (x : DomIx) (phase : Ps) : Completes (.alignLost x phase) s fun t =>
    t.reg (R.CLK_DOMx_PHASE x) = phase ∧ DomKept s t x ∧ t.dplls = s.dplls ∧ (t.is (R.CLK_DOMx_STATUS_aligned x) = true ↔ s.alignedAt x phase) ∧
      (s.is (R.CLK_DOMx_STATUS_aligned x) = true → t.is (R.CLK_DOMx_STATUS_aligned x) = false → t.is (R.CLK_DOMx_INT_STATUS_align_lost x) = true) ∧
      ∀ r, r ∉ [R.CLK_DOMx_STATUS x, R.CLK_DOMx_PHASE x, R.CLK_DOMx_INT_STATUS x] → t.reg r = s.reg r := by
  obtain ⟨hphase, haligned, hlost⟩ := s.measurePhase_spec x phase
  exact ⟨_, rfl, hphase, (s.measurePhase_clockOnly x phase).domKept, State.dplls_measurePhase .., haligned, hlost,
    fun r hr => s.reg_measurePhase_ne x phase hr⟩

/-! ## Starts (10 R280) -/

/-- The fields the start of a domain writes. -/
def startFields (x : Nat) : List FieldAt := [R.CLK_DOMx_CFG_started x, R.CLK_DOMx_STATUS_state x]

theorem State.startDomain_clockOnly (s : State) (x : Nat) : ClockOnly (startFields x) [] s (s.startDomain x) := by
  unfold State.startDomain
  extract_lets s₁ g s₂ st
  have h₁ : ClockOnly [R.CLK_DOMx_CFG_started x] [] s s₁ := s.wr_clockOnly _ 1
  have h₂ : ClockOnly [] [] s₁ s₂ := ⟨fun _ _ => rfl, fun _ _ => rfl, fun _ => rfl, rfl⟩
  have h₃ : ClockOnly [R.CLK_DOMx_STATUS_state x] [] s₂ (s₂.setDomState x st) := s₂.wr_clockOnly _ st
  exact (h₁.trans (h₂.trans h₃)).trans (State.settleClocks_clockOnly _)

/-- The domains that wait no longer hold the one just started. -/
theorem State.startDomain_waiting (s : State) (x : Nat) : (s.startDomain x).glb.clocksWaiting = s.glb.clocksWaiting.filter (· ≠ x) := by
  unfold State.startDomain
  extract_lets s₁ g s₂ st
  rw [(s₂.setDomState x st).settleClocks_aside.glb]
  rfl

/-- A sequence of operations that leave the DPLLs alone. -/
theorem ClockOnly.foldl_fields {F : Nat → List FieldAt} {step : State → Nat → State} (l : List Nat) (s : State)
    (h : ∀ t x, ClockOnly (F x) [] t (step t x)) : ClockOnly (l.flatMap F) [] s (l.foldl step s) := by
  induction l generalizing s with
  | nil => exact .refl _ _ s
  | cons x l ih => exact (h s x).trans (ih (step s x))

/-- The start of a domain starts other domains only, beside itself. -/
theorem State.startDomains_clockOnly (s : State) (x : Nat) : ∃ l : List Nat, (∀ y ∈ l, y ≠ x) ∧
    ClockOnly (l.flatMap startFields) [] (s.startDomain x) (s.startDomains x) := by
  refine ⟨_, fun y hy => ?_, ClockOnly.foldl_fields _ _ fun t y => t.startDomain_clockOnly y⟩
  rw [s.startDomain_waiting x] at hy
  have hwaits := List.mem_of_mem_filter hy
  simp only [List.mem_filter, decide_eq_true_eq] at hwaits
  exact hwaits.2

/-- The field lies in the registers of domain `x`. -/
def FieldAt.ofDomain (f : FieldAt) (x : Nat) : Bool := decide (0x50400 + 0x40 * x ≤ f.addr ∧ f.addr < 0x50440 + 0x40 * x)

theorem spares_startFields {l : List Nat} {x : DomIx} {f : FieldAt} (hl : ∀ y ∈ l, y ≠ x) (hf : f.ofDomain x = true) :
    spares (l.flatMap startFields) f = true := by
  simp only [FieldAt.ofDomain, decide_eq_true_eq] at hf
  simp only [spares, Bool.and_eq_true, decide_eq_true_eq, List.all_eq_true]
  refine ⟨by omega, fun g hg => ?_⟩
  obtain ⟨y, hy, hg⟩ := List.mem_flatMap.1 hg
  have hne := hl y hy
  simp only [startFields, List.mem_cons, List.not_mem_nil, or_false] at hg
  obtain rfl | rfl := hg
  all_goals
    simp only [FieldAt.apart, R.CLK_DOMx_CFG_started, R.CLK_DOMx_CFG, R.CLK_DOMx_STATUS_state, R.CLK_DOMx_STATUS, Bool.or_eq_true, bne_iff_ne]
    omega

end Sys2Proof.Machine
end

section
/-!
The advance of a DPLL through its stages (10 R279, R280).
-/
namespace Sys2Proof.Machine
-- One proof at a time: a side condition filled in by `by` waits for the kernel, and many waiting side by side take too much memory.
set_option Elab.async false

variable {s t u : State} {W : List FieldAt} {D : List Nat}

/-- The next stage, steered to `freq` and measured (10 R279). -/
def State.nextStage (s : State) (x : Nat) (phase : Ps) (freq : Ppb) : State :=
  ((s.wr (R.CLK_DOMx_STATUS_stage x) (s.stage x + 1)).steer x freq.toInt).measurePhase x phase

/-- The loader starts a domain it waits for at instar 3 (10 R280). -/
def State.startWaiting (s : State) (x g : Nat) : State := if 3 ≤ g ∧ s.glb.clocksWaiting.contains x then s.startDomains x else s

/-- The record of a DPLL that reached the imago (10 R279). -/
def Dpll.inImago (d : Dpll) : Dpll := { d with everImago := true, locked := true }

/-- What the imago leaves: the DPLL locked, and an acquiring domain too (10 R279). -/
def State.enterImago (s : State) (x : Nat) : State :=
  let first := !(s.dpll x).locked
  let s := s.setDpll x (s.dpll x).inImago
  let s := if first then s.raise (R.CLK_DOMx_INT_STATUS_locked x) else s
  if s.domState x = 2 then s.setDomState x 3 else s

/-- A stage is left with the phase within its limit on a reference without misses (10 R279). -/
structure Advances (s : State) (x : DomIx) (phase : Ps) : Prop where
  own : s.ownDpll x = true
  selected : s.selected x ≠ 15
  qualified : s.qualified (s.selected x) = true
  capturing : s.capturing x = 15
  ramping : s.ramping x = false
  cocoon : (s.dpll x).cocoon = false
  misses : (s.cand (s.selected x)).misses = 0
  phase : phase.toInt.natAbs ≤ stageLimit (s.stage x)
  first : 1 ≤ s.stage x
  last : s.stage x ≤ 3

theorem exec_dpllStageAdvance {x : DomIx} {phase : Ps} {freq : Ppb} (h : Advances s x phase) : exec (.dpllStageAdvance x phase freq) s = .next (
    if s.stage x + 1 < 4 then ((s.nextStage x phase freq).startWaiting x (s.stage x + 1)).settleClocks
    else (((s.nextStage x phase freq).startWaiting x (s.stage x + 1)).enterImago x).settleClocks) := by
  obtain ⟨hown, hsel, hq, hcap, hramp, hcocoon, hmiss, hphase, hfirst, hlast⟩ := h
  refine congrArg Host.Outcome.next (if_neg ?_)
  simp [hown, hsel, hq, hcap, hramp, hcocoon, hmiss, hphase]
  omega

/-- The fields the next stage writes, but for those of a start. -/
def stageFields (x : Nat) : List FieldAt :=
  R.CLK_DOMx_STATUS_stage x :: clampFields x ++ [whole (R.CLK_DOMx_PHASE x), R.CLK_DOMx_STATUS_aligned x, R.CLK_DOMx_INT_STATUS_align_lost x]

theorem State.nextStage_clockOnly (s : State) (x : Nat) (phase : Ps) (freq : Ppb) : ClockOnly (stageFields x) [x] s (s.nextStage x phase freq) :=
  ((s.wr_clockOnly (R.CLK_DOMx_STATUS_stage x) _).trans (State.steer_clockOnly _ x _)).trans (State.measurePhase_clockOnly _ x phase)

theorem State.nextStage_spec {x : DomIx} {phase : Ps} {freq : Ppb} (hlast : s.stage x ≤ 3) :
    (s.nextStage x phase freq).stage x = s.stage x + 1 ∧ (s.nextStage x phase freq).reg (R.CLK_DOMx_PHASE x) = phase ∧
    ((s.nextStage x phase freq).dpll x).target = freq.toInt ∧ ((s.nextStage x phase freq).dpll x).locked = (s.dpll x).locked ∧
    (s.nextStage x phase freq).glb = s.glb := by
  have hafter := ((s.wr (R.CLK_DOMx_STATUS_stage x) (s.stage x + 1)).steer_clockOnly x freq.toInt).trans (State.measurePhase_clockOnly _ x phase)
  have hstage : (s.wr (R.CLK_DOMx_STATUS_stage x) (s.stage x + 1)).stage x = s.stage x + 1 :=
    s.rd_wr_self (show s.stage x + 1 < 2 ^ 3 by omega) (by decide : 16 + 3 ≤ 32)
  have hdpll : (s.nextStage x phase freq).dpll x = _ :=
    ((State.measurePhase_clockOnly _ x phase).dpll x List.not_mem_nil).trans (State.dpll_steer _ x freq.toInt)
  refine ⟨(hafter.keeps (R.CLK_DOMx_STATUS_stage x)).trans hstage, (State.measurePhase_spec _ x phase).1, congrArg Dpll.target hdpll,
    ?_, ?_⟩
  · rw [hdpll]
    rfl
  · exact (State.glb_measurePhase _ x phase).trans (State.judgeClamp_aside _ x).glb

/-- The start of a waiting domain starts other domains only, beside itself. -/
theorem State.startWaiting_clockOnly (s : State) (x g : Nat) : ∃ l : List Nat, (∀ y ∈ l, y ≠ x) ∧
    ClockOnly (startFields x ++ l.flatMap startFields) [] s (s.startWaiting x g) := by
  obtain ⟨l, hl, hstarts⟩ := s.startDomains_clockOnly x
  exact ⟨l, hl, ((s.startDomain_clockOnly x).trans hstarts).ite (.refl _ _ s)⟩

/-- The start of a waiting domain leaves its other fields. -/
theorem State.rd_startWaiting {x : DomIx} (s : State) (g : Nat) {f : FieldAt} (hf : f.ofDomain x = true) (hs : spares (startFields x) f = true) :
    (s.startWaiting x g).rd f = s.rd f := by
  obtain ⟨l, hl, hstarts⟩ := s.startWaiting_clockOnly x g
  exact hstarts.rd f (spares_append.2 ⟨hs, spares_startFields hl hf⟩)

theorem State.startWaiting_started {x : DomIx} {g : Nat} (hg : 3 ≤ g) (hw : x.val ∈ s.glb.clocksWaiting) : (s.startWaiting x g).started x = true := by
  have hstarts : s.startWaiting x g = s.startDomains x := if_pos ⟨hg, List.contains_iff_mem.2 hw⟩
  obtain ⟨l, hl, hothers⟩ := s.startDomains_clockOnly x
  rw [hstarts]
  exact (hothers.is (R.CLK_DOMx_CFG_started x) (spares_startFields hl (by clear * -; decide +revert))).trans (s.startDomain_spec x.isLt).1

theorem State.enterImago_clockOnly (s : State) (x : Nat) :
    ClockOnly [R.CLK_DOMx_INT_STATUS_locked x, R.CLK_DOMx_STATUS_state x] [x] s (s.enterImago x) := by
  unfold State.enterImago
  extract_lets first s₁ s₂
  have h₁ : ClockOnly [] [x] s s₁ := s.setDpll_clockOnly x _ rfl
  have h₂ : ClockOnly [R.CLK_DOMx_INT_STATUS_locked x] [x] s s₂ := (h₁.trans (s₁.raise_clockOnly _)).ite (h₁.mono (by simp) (by simp))
  exact (h₂.trans (s₂.wr_clockOnly _ 3)).ite (h₂.mono (by simp) (by simp))

theorem State.enterImago_spec (s : State) (x : DomIx) : (s.enterImago x).dpll x = (s.dpll x).inImago ∧
    ((s.dpll x).locked = false → (s.enterImago x).is (R.CLK_DOMx_INT_STATUS_locked x) = true) ∧
    (s.domState x = 2 → (s.enterImago x).domState x = 3) := by
  unfold State.enterImago
  extract_lets first s₁ s₂
  have h₂ : ClockOnly [R.CLK_DOMx_INT_STATUS_locked x] [] s₁ s₂ := (s₁.raise_clockOnly _).ite (.refl _ _ s₁)
  have hdpll : s₂.dpll x = (s.dpll x).inImago := (h₂.dpll x List.not_mem_nil).trans (s.dpll_setDpll_self x _)
  have hstate : s₂.domState x = s.domState x := h₂.keeps (R.CLK_DOMx_STATUS_state x)
  have hlocked (h : (s.dpll x).locked = false) : s₂.is (R.CLK_DOMx_INT_STATUS_locked x) = true := by
    have hraise : s₂ = s₁.raise (R.CLK_DOMx_INT_STATUS_locked x) := if_pos (by simp [first, h])
    rw [hraise]
    exact s₁.is_raise _ (by decide : 0 + 1 ≤ 32) Nat.one_pos
  split
  case isTrue =>
    have h₃ := s₂.wr_clockOnly (R.CLK_DOMx_STATUS_state x) 3
    exact ⟨(h₃.dpll x List.not_mem_nil).trans hdpll, fun h => (h₃.is (R.CLK_DOMx_INT_STATUS_locked x)).trans (hlocked h),
      fun _ => s₂.rd_wr_self (by decide : 3 < 2 ^ 3) (by decide : 0 + 3 ≤ 32)⟩
  case isFalse hne => exact ⟨hdpll, hlocked, fun h => absurd (hstate.trans h) hne⟩

/-- The advance of a domain's DPLL, before the imago's own effects. -/
theorem State.nextStage_startWaiting {x : DomIx} {phase : Ps} {freq : Ppb} (hlast : s.stage x ≤ 3)
    (ht : (s.nextStage x phase freq).startWaiting x (s.stage x + 1) = t) :
    t.stage x = s.stage x + 1 ∧ t.reg (R.CLK_DOMx_PHASE x) = phase ∧ (t.dpll x).target = freq.toInt ∧ (t.dpll x).locked = (s.dpll x).locked ∧
    (∃ W, ClockOnly W [x.val] s t) ∧ (2 ≤ s.stage x → x.val ∈ s.glb.clocksWaiting → t.started x = true) ∧
    (x.val ∉ s.glb.clocksWaiting → t.domState x = s.domState x) := by
  obtain ⟨hstage, hphase, htarget, hlocked, hglb⟩ := s.nextStage_spec (x := x) (phase := phase) (freq := freq) hlast
  have hnext := s.nextStage_clockOnly x phase freq
  subst ht
  generalize s.nextStage x phase freq = u at *
  obtain ⟨l, hl, hwait⟩ := u.startWaiting_clockOnly x (s.stage x + 1)
  have hdpll := hwait.dpll x List.not_mem_nil
  rw [hdpll]
  refine ⟨?_, ?_, htarget, hlocked, ⟨_, hnext.trans hwait⟩, fun hg hw => State.startWaiting_started (by omega) (hglb ▸ hw), fun hw => ?_⟩
  · exact (u.rd_startWaiting _ (by clear * -; decide +revert) (by clear * -; decide +revert)).trans hstage
  · refine (hwait.reg _ (spares_append.2 ⟨?_, spares_startFields hl ?_⟩)).trans hphase <;> clear * - <;> decide +revert
  · have hstay : u.startWaiting x (s.stage x + 1) = u := if_neg fun h => hw (hglb ▸ List.contains_iff_mem.1 h.2)
    rw [hstay]
    exact hnext.keeps (R.CLK_DOMx_STATUS_state x)

theorem completes_dpllStageAdvance {x : DomIx} {phase : Ps} (freq : Ppb) (h : Advances s x phase) : Completes (.dpllStageAdvance x phase freq) s fun t =>
    t.stage x = s.stage x + 1 ∧ t.reg (R.CLK_DOMx_PHASE x) = phase ∧ (t.dpll x).target = freq.toInt ∧ DomKept s t x ∧
      (2 ≤ s.stage x → x.val ∈ s.glb.clocksWaiting → t.started x = true) ∧
      (s.stage x = 3 → (t.dpll x).locked = true ∧ (t.dpll x).everImago = true ∧
        ((s.dpll x).locked = false → t.is (R.CLK_DOMx_INT_STATUS_locked x) = true) ∧
        (s.domState x = 2 → x.val ∉ s.glb.clocksWaiting → t.domState x = 3)) := by
  have hexec := exec_dpllStageAdvance (freq := freq) h
  generalize hv : (s.nextStage x phase freq).startWaiting x (s.stage x + 1) = v at hexec
  obtain ⟨hstage, hphase, htarget, hlocked, ⟨W, hnext⟩, hstarted, hstate⟩ := State.nextStage_startWaiting h.last hv
  by_cases hg : s.stage x + 1 < 4
  · rw [if_pos hg] at hexec
    have hend := v.settleClocks_clockOnly
    refine ⟨_, hexec, (hend.keeps (R.CLK_DOMx_STATUS_stage x)).trans hstage, (hend.reg (R.CLK_DOMx_PHASE x)).trans hphase, ?_,
      (hnext.trans hend).domKept, fun h₂ hw => (hend.is (R.CLK_DOMx_CFG_started x)).trans (hstarted h₂ hw), fun h₃ => by omega⟩
    rw [hend.dpll x List.not_mem_nil, htarget]
  · rw [if_neg hg] at hexec
    have himago := v.enterImago_clockOnly x
    have hend := (v.enterImago x).settleClocks_clockOnly
    obtain ⟨hdpll, hevent, hlock⟩ := v.enterImago_spec x
    have hall := himago.trans hend
    have hleft := (hend.dpll x List.not_mem_nil).trans hdpll
    rw [hlocked] at hevent
    refine ⟨_, hexec, (hall.keeps (R.CLK_DOMx_STATUS_stage x)).trans hstage, (hall.reg (R.CLK_DOMx_PHASE x)).trans hphase, ?_,
      (hnext.trans hall).domKept, fun h₂ hw => (hall.is (R.CLK_DOMx_CFG_started x)).trans (hstarted h₂ hw), fun _ => ⟨?_, ?_,
      fun hl => (hend.is (R.CLK_DOMx_INT_STATUS_locked x)).trans (hevent hl),
      fun h₂ hw => (hend.keeps (R.CLK_DOMx_STATUS_state x)).trans (hlock ((hstate hw).trans h₂))⟩⟩
    · rw [hleft, ← htarget]; rfl
    · rw [hleft]; rfl
    · rw [hleft]; rfl

end Sys2Proof.Machine
end

section
/-!
Cocoon: its entry without a reference or by hold, and its exit by a switch (10 R286, R287).
-/
namespace Sys2Proof.Machine
-- One proof at a time: a side condition filled in by `by` waits for the kernel, and many waiting side by side take too much memory.
set_option Elab.async false

variable {s t u : State} {W : List FieldAt} {D : List Nat} {e : Nat}

/-! ## Entry (10 R286) -/

/-- The domain is in cocoon at the stored frequency that `r`, or else the DPLL, gives. -/
def Cocooned (s : State) (x : DomIx) (r : FreqRecord) (t : State) : Prop :=
  t.domState x = 5 ∧ t.selected x = 15 ∧ t.capturing x = 15 ∧ (t.dpll x).cocoon = true ∧ t.is (R.CLK_DOMx_INT_STATUS_cocoon_in x) = true ∧
    DomKept s t x ∧
    ((s.dpll x).everImago = true → 60500 ≤ r.imagoMs → t.reg (R.CLK_DOMx_HOLD x) = r.mean60 ∧ (t.dpll x).target = r.mean60.toInt) ∧
    ((s.dpll x).everImago = true → r.imagoMs < 60500 → t.reg (R.CLK_DOMx_HOLD x) = r.meanImago ∧ (t.dpll x).target = r.meanImago.toInt) ∧
    ((s.dpll x).everImago = false → (t.dpll x).target = s.loopFreq x)

/-- The references of the domain are let go, and a ramp with them. -/
def State.releaseRefs (s : State) (x : Nat) : State :=
  ((if s.ramping x then s.setRamp x 0 else s).wr (R.CLK_DOMx_STATUS_capturing x) 15).wr (R.CLK_DOMx_STATUS_selected x) 15

/-- The frequency `f` is stored and steered to, and the domain is in cocoon. -/
def State.holdAt (s : State) (x : Nat) (f : Int) : State :=
  let s := (s.setReg (R.CLK_DOMx_HOLD x) (BitVec.ofInt 32 f)).steer x f
  (s.setDpll x { s.dpll x with cocoon := true }).setDomState x 5

/-- The entry counted and reported. -/
def State.reportCocoon (s : State) (x : Nat) : State :=
  ((s.bump (highHalf (R.CLK_DOMx_COUNT x))).domFault x (R.CLK_DOMx_INT_STATUS_cocoon_in x)).settleClocks

theorem State.enterCocoon_eq (s : State) (x : Nat) (r : FreqRecord) :
    s.enterCocoon x r = ((s.releaseRefs x).holdAt x (s.cocoonFreq x r)).reportCocoon x := rfl

section
variable (s : State) (x : Nat) (f : Int)

/-- The fields that the three parts of an entry write. -/
def releaseFields (x : Nat) : List FieldAt := rampFields x ++ [R.CLK_DOMx_STATUS_capturing x, R.CLK_DOMx_STATUS_selected x]
def holdFields (x : Nat) : List FieldAt := whole (R.CLK_DOMx_HOLD x) :: clampFields x ++ [R.CLK_DOMx_STATUS_state x]
def cocoonCountFields (x : Nat) : List FieldAt := [highHalf (R.CLK_DOMx_COUNT x), R.CLK_DOMx_INT_STATUS_cocoon_in x]

theorem State.releaseRefs_clockOnly : ClockOnly (releaseFields x) [x] s (s.releaseRefs x) :=
  (((s.setRamp_clockOnly x 0).ite (.refl _ _ s)).trans (State.wr_clockOnly _ (R.CLK_DOMx_STATUS_capturing x) 15)).trans
    (State.wr_clockOnly _ (R.CLK_DOMx_STATUS_selected x) 15)

theorem State.holdAt_clockOnly : ClockOnly (holdFields x) [x] s (s.holdAt x f) := by
  unfold State.holdAt
  extract_lets +onlyGivenNames u
  have hsteer : ClockOnly (whole (R.CLK_DOMx_HOLD x) :: clampFields x) [x] s u := (s.setReg_clockOnly _ _).trans (State.steer_clockOnly _ x f)
  have hset := hsteer.trans (u.setDpll_clockOnly x { u.dpll x with cocoon := true } rfl)
  exact (hset.trans (State.wr_clockOnly _ (R.CLK_DOMx_STATUS_state x) 5)).mono (by simp [holdFields]) (by simp)

theorem State.reportCocoon_clockOnly : ClockOnly (cocoonCountFields x) [] s (s.reportCocoon x) :=
  ((s.bump_clockOnly _ 1).trans (State.domFault_clockOnly _ x _)).trans (State.settleClocks_clockOnly _)

end

theorem State.releaseRefs_spec (s : State) (x : DomIx) : (s.releaseRefs x).selected x = 15 ∧ (s.releaseRefs x).capturing x = 15 := by
  refine ⟨State.rd_wr_self _ (by decide : 15 < 2 ^ 4) (by decide : 24 + 4 ≤ 32), ?_⟩
  exact ((State.wr_clockOnly _ (R.CLK_DOMx_STATUS_selected x) 15).keeps (R.CLK_DOMx_STATUS_capturing x)).trans
    (State.rd_wr_self _ (by decide : 15 < 2 ^ 4) (by decide : 20 + 4 ≤ 32))

theorem State.holdAt_spec (s : State) (x : DomIx) (f : Int) : (s.holdAt x f).domState x = 5 ∧
    (s.holdAt x f).reg (R.CLK_DOMx_HOLD x) = BitVec.ofInt 32 f ∧ ((s.holdAt x f).dpll x).cocoon = true ∧ ((s.holdAt x f).dpll x).target = f := by
  unfold State.holdAt
  extract_lets +onlyGivenNames u
  have hsteer := (s.setReg (R.CLK_DOMx_HOLD x) (BitVec.ofInt 32 f)).steer_clockOnly x f
  have hset := u.setDpll_clockOnly x { u.dpll x with cocoon := true } rfl
  have hstate := (u.setDpll x { u.dpll x with cocoon := true }).wr_clockOnly (R.CLK_DOMx_STATUS_state x) 5
  have hdpll := (hstate.dpll x List.not_mem_nil).trans (u.dpll_setDpll_self x _)
  refine ⟨State.rd_wr_self _ (by decide : 5 < 2 ^ 3) (by decide : 0 + 3 ≤ 32), ?_, (congrArg Dpll.cocoon hdpll).trans rfl, ?_⟩
  · exact ((hsteer.trans (hset.trans hstate)).reg (R.CLK_DOMx_HOLD x)).trans (s.reg_setReg_self _ _)
  · exact (congrArg Dpll.target hdpll).trans (congrArg Dpll.target (State.dpll_steer _ x f))

theorem State.reportCocoon_event (s : State) (x : DomIx) : (s.reportCocoon x).is (R.CLK_DOMx_INT_STATUS_cocoon_in x) = true := by
  have hraise := (s.bump (highHalf (R.CLK_DOMx_COUNT x))).is_raise (R.CLK_DOMx_INT_STATUS_cocoon_in x) (by decide : 3 + 1 ≤ 32) Nat.one_pos
  exact (((State.report_clockOnly _ _ _ _).trans (State.settleClocks_clockOnly _)).is (R.CLK_DOMx_INT_STATUS_cocoon_in x)).trans hraise

theorem State.enterCocoon_clockOnly (s : State) (x : Nat) (r : FreqRecord) :
    ClockOnly (releaseFields x ++ (holdFields x ++ cocoonCountFields x)) [x] s (s.enterCocoon x r) := by
  rw [State.enterCocoon_eq]
  exact ((s.releaseRefs_clockOnly x).trans ((State.holdAt_clockOnly _ x _).trans (State.reportCocoon_clockOnly _ x))).mono (by simp) (by simp)

/-- The entry stores the cocoon frequency and steers to it (10 R286). -/
theorem State.enterCocoon_spec (s : State) (x : DomIx) (r : FreqRecord) :
    (s.enterCocoon x r).domState x = 5 ∧ (s.enterCocoon x r).selected x = 15 ∧ (s.enterCocoon x r).capturing x = 15 ∧
    ((s.enterCocoon x r).dpll x).cocoon = true ∧ (s.enterCocoon x r).is (R.CLK_DOMx_INT_STATUS_cocoon_in x) = true ∧
    (s.enterCocoon x r).reg (R.CLK_DOMx_HOLD x) = BitVec.ofInt 32 (s.cocoonFreq x r) ∧ ((s.enterCocoon x r).dpll x).target = s.cocoonFreq x r := by
  rw [State.enterCocoon_eq]
  obtain ⟨hsel, hcap⟩ := s.releaseRefs_spec x
  have hhold := (s.releaseRefs x).holdAt_clockOnly x (s.cocoonFreq x r)
  obtain ⟨hstate, hreg, hcocoon, htarget⟩ := (s.releaseRefs x).holdAt_spec x (s.cocoonFreq x r)
  generalize (s.releaseRefs x).holdAt x (s.cocoonFreq x r) = u at *
  have hreport := u.reportCocoon_clockOnly x
  have hdpll := hreport.dpll x List.not_mem_nil
  rw [hdpll]
  exact ⟨(hreport.keeps (R.CLK_DOMx_STATUS_state x)).trans hstate, ((hhold.trans hreport).keeps (R.CLK_DOMx_STATUS_selected x)).trans hsel,
    ((hhold.trans hreport).keeps (R.CLK_DOMx_STATUS_capturing x)).trans hcap, hcocoon, u.reportCocoon_event x,
    (hreport.reg (R.CLK_DOMx_HOLD x)).trans hreg, htarget⟩

/-- Cocoon entered, after operations that leave the domain's DPLL and frequency. -/
theorem cocooned_enterCocoon {x : DomIx} (r : FreqRecord) (h : ClockOnly W [] s u) (hloop : u.loopFreq x = s.loopFreq x) :
    Cocooned s x r (u.enterCocoon x r) := by
  obtain ⟨hstate, hsel, hcap, hcocoon, hevent, hreg, htarget⟩ := u.enterCocoon_spec x r
  have hdpll := h.dpll x List.not_mem_nil
  refine ⟨hstate, hsel, hcap, hcocoon, hevent, (h.trans (u.enterCocoon_clockOnly x r)).domKept, ?_, ?_, ?_⟩
  · intro hever hlong
    have hfreq : u.cocoonFreq x r = r.mean60.toInt := by simp [State.cocoonFreq, hdpll, hever, Nat.not_lt.2 hlong]
    exact ⟨by rw [hreg, hfreq, BitVec.ofInt_toInt], htarget.trans hfreq⟩
  · intro hever hshort
    have hfreq : u.cocoonFreq x r = r.meanImago.toInt := by simp [State.cocoonFreq, hdpll, hever, hshort]
    exact ⟨by rw [hreg, hfreq, BitVec.ofInt_toInt], htarget.trans hfreq⟩
  · intro hever
    have hfreq : u.cocoonFreq x r = s.loopFreq x := by simp [State.cocoonFreq, hdpll, hever, hloop]
    exact htarget.trans hfreq

theorem completes_cocoonEntry {x : DomIx} (r : FreqRecord) (hown : s.ownDpll x = true) (hstarted : s.started x = true) (hst : s.domState x ≠ 5)
    (hdue : s.cocoonDue x = true) : Completes (.cocoonEntry x r) s (Cocooned s x r) := by
  refine ⟨s.enterCocoon x r, congrArg Host.Outcome.next (if_pos ?_), cocooned_enterCocoon r (.refl [] [] s) rfl⟩
  simp [hown, hstarted, hst, hdue]

theorem exec_cocoonEntry_not_due {x : DomIx} (r : FreqRecord) (hdue : s.cocoonDue x = false) : exec (.cocoonEntry x r) s = .next s :=
  congrArg Host.Outcome.next (if_neg (by simp [hdue]))

/-! ## Hold and exit (10 R286, R287) -/

/-- Software's write of hold leaves the frequency of the DPLL. -/
theorem State.loopFreq_sw_hold (s : State) (x : DomIx) (v : Nat) : (s.sw (R.CLK_DOMx_CTRL_hold x) v).loopFreq x = s.loopFreq x := by
  have h := s.sw_clockOnly (R.CLK_DOMx_CTRL_hold x) v
  have hboot : R.GLB_BOOT_STATUS_state.addr ≠ (R.CLK_DOMx_CTRL_hold x).addr := by
    simp only [R.GLB_BOOT_STATUS_state, R.GLB_BOOT_STATUS, R.CLK_DOMx_CTRL_hold, R.CLK_DOMx_CTRL]
    omega
  have hrunning : (s.sw (R.CLK_DOMx_CTRL_hold x) v).running = s.running := by
    unfold State.running
    rw [State.rd_congr (s.reg_sw_ne v hboot)]
  have hslew : (s.sw (R.CLK_DOMx_CTRL_hold x) v).slewMax x = s.slewMax x := by
    unfold State.slewMax
    rw [h.keeps (R.CLK_DOMx_LOOP_slew_max x)]
  simp only [State.loopFreq, hrunning, hslew, h.now, h.dpll x List.not_mem_nil]

theorem completes_clkHoldWrite_true {x : DomIx} (r : FreqRecord) (hown : s.ownDpll x = true) (hstarted : s.started x = true)
    (hst : s.domState x ≠ 5) (ho : s.owned (R.CLK_DOMx_CTRL x) = 0) : Completes (.clkHoldWrite x true r) s fun t =>
    Cocooned s x r t ∧ t.is (R.CLK_DOMx_CTRL_hold x) = true := by
  have hloop := s.loopFreq_sw_hold x (b2n true)
  have hsw := s.sw_clockOnly (R.CLK_DOMx_CTRL_hold x) (b2n true)
  have hhold : (s.sw (R.CLK_DOMx_CTRL_hold x) (b2n true)).is (R.CLK_DOMx_CTRL_hold x) = true := State.is_sw_free ho (by decide : 4 + 1 ≤ 32) rfl true
  generalize hu : s.sw (R.CLK_DOMx_CTRL_hold x) (b2n true) = u at hloop hsw hhold
  have hexec : exec (.clkHoldWrite x true r) s = .next (u.enterCocoon x r) := by
    have hown' := (hsw.ownDpll x).trans hown
    have hstarted' : u.started x = true := (hsw.is (R.CLK_DOMx_CFG_started x)).trans hstarted
    have hst' : u.domState x ≠ 5 := (hsw.keeps (R.CLK_DOMx_STATUS_state x)).trans_ne hst
    simp [exec, execClkHoldWrite, hu, hhold, hown', hstarted', hst']
  exact ⟨_, hexec, cocooned_enterCocoon r hsw hloop, ((u.enterCocoon_clockOnly x r).is (R.CLK_DOMx_CTRL_hold x)).trans hhold⟩

theorem State.leaveCocoon_takes {x : Nat} (hst : s.domState x = 5) (he : s.eligible x = some e) (hhold : s.is (R.CLK_DOMx_CTRL_hold x) = false) :
    s.leaveCocoon x = (s.startCapture x e).settleClocks := by
  simp [State.leaveCocoon, hst, he, hhold]

theorem completes_cocoonExit {x : DomIx} (hst : s.domState x = 5) (he : s.eligible x = some e) (hhold : s.is (R.CLK_DOMx_CTRL_hold x) = false) :
    Completes (.cocoonExit x) s (Captures s x · e) :=
  ⟨_, congrArg Host.Outcome.next (State.leaveCocoon_takes hst he hhold),
    captures_startCapture (.refl [] [] s) ((State.eligible_lt he).trans (by decide : 9 < 16))⟩

theorem exec_cocoonExit_held {x : DomIx} (he : s.eligible x = some e) (hhold : s.is (R.CLK_DOMx_CTRL_hold x) = true) :
    exec (.cocoonExit x) s = .next s := by
  have hstay : s.leaveCocoon x = s := by simp [State.leaveCocoon, he, hhold]
  exact congrArg Host.Outcome.next hstay

theorem completes_clkHoldWrite_false {x : DomIx} (r : FreqRecord) (hst : s.domState x = 5) (he : s.eligible x = some e)
    (ho : s.owned (R.CLK_DOMx_CTRL x) = 0) : Completes (.clkHoldWrite x false r) s fun t =>
    Captures s x t e ∧ t.is (R.CLK_DOMx_CTRL_hold x) = false := by
  have hsw := s.sw_clockOnly (R.CLK_DOMx_CTRL_hold x) (b2n false)
  have hhold : (s.sw (R.CLK_DOMx_CTRL_hold x) (b2n false)).is (R.CLK_DOMx_CTRL_hold x) = false := State.is_sw_free ho (by decide : 4 + 1 ≤ 32) rfl false
  generalize hu : s.sw (R.CLK_DOMx_CTRL_hold x) (b2n false) = u at hsw hhold
  have hexec : exec (.clkHoldWrite x false r) s = .next (u.startCapture x e).settleClocks := by
    have hleaves := State.leaveCocoon_takes ((hsw.keeps (R.CLK_DOMx_STATUS_state x)).trans hst) ((hsw.eligible x).trans he) hhold
    simp [exec, execClkHoldWrite, hu, hhold, hleaves]
  have hstart := (u.startCapture_clockOnly x e).trans (State.settleClocks_clockOnly _)
  exact ⟨_, hexec, captures_startCapture hsw ((State.eligible_lt he).trans (by decide : 9 < 16)),
    (hstart.is (R.CLK_DOMx_CTRL_hold x)).trans hhold⟩

end Sys2Proof.Machine
end

section
/-!
Realignment, the pulse outputs and OSC_IN (10 R292, R294, R296).
-/
namespace Sys2Proof.Machine
-- One proof at a time: a side condition filled in by `by` waits for the kernel, and many waiting side by side take too much memory.
set_option Elab.async false

variable {s : State}

/-! ## Realignment (10 R292) -/

/-- The first multiple of `b` from `a` on. -/
theorem ceilDiv_mul_bounds (a : Nat) {b : Nat} (hb : b ≠ 0) : a ≤ ceilDiv a b * b ∧ ceilDiv a b * b < a + b ∧ ceilDiv a b * b % b = 0 := by
  have hdiv := Nat.div_add_mod (a + b - 1) b
  have hmod := Nat.mod_lt (a + b - 1) (Nat.pos_of_ne_zero hb)
  rw [ceilDiv, if_neg hb, Nat.mul_mod_left, Nat.mul_comm]
  omega

/-- The domain may realign (10 R292). -/
def State.mayRealign (s : State) (x : Nat) : Bool :=
  s.started x && s.ownTime x && s.domState x == 3 && s.stage x == 4 && s.phaseNear x (s.phase x) &&
    !s.is (R.CLK_DOMx_STATUS_realign_pending x) && (s.dom x).b != 0

theorem State.mayRealign_iff (s : State) (x : Nat) : s.mayRealign x = true ↔ s.started x = true ∧ s.ownTime x = true ∧ s.domState x = 3 ∧
    s.stage x = 4 ∧ s.phaseNear x (s.phase x) = true ∧ s.is (R.CLK_DOMx_STATUS_realign_pending x) = false ∧ (s.dom x).b ≠ 0 := by
  simp only [State.mayRealign, Bool.and_eq_true, beq_iff_eq, bne_iff_ne, Bool.not_eq_true', and_assoc]

theorem exec_realignWrite_accepted {x : DomIx} (h : s.mayRealign x = true) : ∃ n, (s.dom x).freeFrom + 33 ≤ n ∧
    n < (s.dom x).freeFrom + 33 + (s.dom x).b ∧ n % (s.dom x).b = 0 ∧
    exec (.realignWrite x) s = .next ((s.setDom x { s.dom x with realignAt := some (BitVec.ofNat 64 n) }).wr (R.CLK_DOMx_STATUS_realign_pending x) 1) := by
  have hmay := (s.mayRealign_iff x).1 h
  obtain ⟨-, -, -, -, -, -, hb⟩ := (s.mayRealign_iff x).1 h
  obtain ⟨hleast, hmost, htick⟩ := ceilDiv_mul_bounds ((s.dom x).freeFrom + 33) hb
  exact ⟨_, hleast, hmost, htick, congrArg Host.Outcome.next (if_pos hmay)⟩

theorem exec_realignWrite_refused {x : DomIx} (h : s.mayRealign x = false) :
    exec (.realignWrite x) s = .next (s.wr (R.CLK_DOMx_INT_STATUS_align_refused x) 1) :=
  congrArg Host.Outcome.next (if_neg fun hmay => Bool.false_ne_true (h.symm.trans ((s.mayRealign_iff x).2 hmay)))

/-! ## Pulse outputs (10 R294) -/

@[simp] theorem State.pulseOut_setPulse (s : State) (o : Nat) (p : Pulse) : (s.setPulse o p).pulseOut o = p := Tab.get_set_self ..

/-- A pulse of `cycles` is emitted, with the error it leaves and the misalignment reported. -/
def State.emitPulse (s : State) (o : Fin 3) (cycles : Nat) (error : Int) (offset : Word) : State :=
  ((s.setPulse o { error := error, realign := false }).setReg (R.CLK_OUTo_OFFSET (4 + o)) offset).emit
    (.pulse o cycles (max 1 (s.rd (R.CLK_OUTo_CTRL_width (4 + o)))) (s.is (R.CLK_OUTo_CTRL_inv (4 + o))))

/-- An enabled output emits a pulse at its next edge, or at its alignment point (10 R294). -/
theorem exec_pulseOutputPulse (o : Fin 3) (m : Option (BitVec 32)) (hen : s.is (R.CLK_OUTo_CTRL_en (4 + o)) = true) :
    exec (.pulseOutputPulse o m) s = .next (
      let step := if o = 2 ∨ (s.pulseOut o).realign = true then (0, 0)
        else pulseStep (s.rd ⟨R.CLK_OUTo_PERIOD (4 + o), 0, 20⟩) (s.rd ⟨R.CLK_OUTo_PERIOD (4 + o), 20, 12⟩) (s.pulseOut o).error
      s.emitPulse o step.1.toNat step.2 (if (s.pulseOut o).realign = true then 0 else m.getD 0x80000000)) := by
  have hctrl (p : Pulse) (v : Word) : ((s.setPulse o p).setReg (R.CLK_OUTo_OFFSET (4 + o)) v).reg (R.CLK_OUTo_CTRL (4 + o)) = s.reg (R.CLK_OUTo_CTRL (4 + o)) :=
    (State.reg_setReg_ne _ v (by simp only [R.CLK_OUTo_CTRL, R.CLK_OUTo_OFFSET]; omega)).trans rfl
  have hwidth (p : Pulse) (v : Word) := State.rd_congr (f := R.CLK_OUTo_CTRL_width (4 + o)) (hctrl p v)
  have hinv (p : Pulse) (v : Word) := State.is_congr (State.rd_congr (f := R.CLK_OUTo_CTRL_inv (4 + o)) (hctrl p v))
  simp only [exec, execPulseOutputPulse, hen, hwidth, hinv, State.emitPulse, Bool.not_true, Bool.false_eq_true, if_false]

theorem exec_pulseOutputPulse_off (o : Fin 3) (m : Option (BitVec 32)) (hen : s.is (R.CLK_OUTo_CTRL_en (4 + o)) = false) :
    exec (.pulseOutputPulse o m) s = .next s := by
  simp [exec, execPulseOutputPulse, hen]

/-- The nearest edge leaves an error of at most half a cycle, carried forward (10 R294). -/
theorem pulseStep_spec {num den : Nat} {error : Int} (h : 0 ≤ (num : Int) * 1024 + error) : 0 ≤ (pulseStep num den error).1 ∧
    (pulseStep num den error).2 = (num : Int) * 1024 + error - (pulseStep num den error).1 * (max 1 den : Nat) ∧
    2 * (pulseStep num den error).2.natAbs ≤ max 1 den := by
  unfold pulseStep
  extract_lets d due cycles
  have hd : 0 < (d : Int) := by simp only [d]; omega
  have hlow : 2 * (d : Int) * cycles ≤ 2 * due + d := Int.mul_ediv_self_le (by omega)
  have hhigh : 2 * due + d < 2 * (d : Int) * cycles + 2 * d := Int.lt_mul_ediv_self_add (by omega)
  have hmul : 2 * (d : Int) * cycles = 2 * (cycles * d) := by ring
  refine ⟨Int.ediv_nonneg (by omega) (by omega), rfl, ?_⟩
  generalize cycles * (d : Int) = edge at *
  show 2 * (due - edge).natAbs ≤ d
  omega

theorem completes_pulseOutputPulse {o : Fin 3} {m : Option (BitVec 32)} (hen : s.is (R.CLK_OUTo_CTRL_en (4 + o)) = true) (ho : o.val < 2)
    (hr : (s.pulseOut o).realign = false) (hdue : 0 ≤ (s.rd ⟨R.CLK_OUTo_PERIOD (4 + o), 0, 20⟩ : Int) * 1024 + (s.pulseOut o).error) :
    Completes (.pulseOutputPulse o m) s fun t => ∃ n : Nat,
      t.outbox = s.outbox ++ [.pulse o n (max 1 (s.rd (R.CLK_OUTo_CTRL_width (4 + o)))) (s.is (R.CLK_OUTo_CTRL_inv (4 + o)))] ∧
      (t.pulseOut o).error = (s.rd ⟨R.CLK_OUTo_PERIOD (4 + o), 0, 20⟩ : Int) * 1024 + (s.pulseOut o).error -
        n * (max 1 (s.rd ⟨R.CLK_OUTo_PERIOD (4 + o), 20, 12⟩) : Nat) ∧
      2 * (t.pulseOut o).error.natAbs ≤ max 1 (s.rd ⟨R.CLK_OUTo_PERIOD (4 + o), 20, 12⟩) ∧
      t.reg (R.CLK_OUTo_OFFSET (4 + o)) = m.getD 0x80000000 ∧ SameMemory s t ∧ t.locks = s.locks ∧
      ∀ r, r ≠ R.CLK_OUTo_OFFSET (4 + o) → t.reg r = s.reg r := by
  have hne : ¬(o = 2 ∨ (s.pulseOut o).realign = true) := by
    rintro (rfl | h)
    · exact absurd ho (by decide)
    · exact Bool.false_ne_true (hr.symm.trans h)
  have hexec := exec_pulseOutputPulse o m hen
  rw [if_neg hne, if_neg (by simp [hr])] at hexec
  obtain ⟨hpos, herror, hhalf⟩ := pulseStep_spec (den := s.rd ⟨R.CLK_OUTo_PERIOD (4 + o), 20, 12⟩) hdue
  have hleft (n : Nat) (e : Int) (v : Word) : (s.emitPulse o n e v).pulseOut o = { error := e, realign := false } := State.pulseOut_setPulse ..
  refine ⟨_, hexec, _, rfl, ?_, ?_, State.reg_setReg_self .., SameMemory.of_eq rfl rfl, rfl, fun r hr => State.reg_setReg_ne _ _ hr⟩
  · rw [hleft, Int.toNat_of_nonneg hpos, herror]
  · rw [hleft]
    exact hhalf

/-- A realigned output emits its pulse at the alignment point, where the error starts again (10 R294). -/
theorem completes_pulseOutputPulse_realigned {o : Fin 3} {m : Option (BitVec 32)} (hen : s.is (R.CLK_OUTo_CTRL_en (4 + o)) = true)
    (hr : (s.pulseOut o).realign = true) : Completes (.pulseOutputPulse o m) s fun t =>
      t.outbox = s.outbox ++ [.pulse o 0 (max 1 (s.rd (R.CLK_OUTo_CTRL_width (4 + o)))) (s.is (R.CLK_OUTo_CTRL_inv (4 + o)))] ∧
      t.pulseOut o = {} ∧ t.reg (R.CLK_OUTo_OFFSET (4 + o)) = 0 ∧ SameMemory s t := by
  have hexec := exec_pulseOutputPulse o m hen
  rw [if_pos (.inr hr), if_pos hr] at hexec
  refine ⟨_, hexec, rfl, ?_, State.reg_setReg_self .., SameMemory.of_eq rfl rfl⟩
  exact s.pulseOut_setPulse o { error := 0, realign := false }

/-! ## OSC_IN (10 R296) -/

theorem exec_oscWarn_none (hm : s.medianFreq = none) : exec .oscWarn s = .next s := by
  simp only [exec, execOscWarn, hm]

theorem State.is_osc_warn_setReg (s : State) (v : Word) : (s.setReg R.CLK_OSC_DEV v).is R.CLK_STATUS_osc_warn = s.is R.CLK_STATUS_osc_warn :=
  State.is_congr (State.rd_congr (s.reg_setReg_ne v (by decide : R.CLK_STATUS_osc_warn.addr ≠ R.CLK_OSC_DEV)))

/-- OSC_IN's offset from the median is reported, and warned of beyond 100 ppm (10 R296). -/
theorem exec_oscWarn_some {m : Int} (hm : s.medianFreq = some m) : exec .oscWarn s = .next (
    let measured := s.setReg R.CLK_OSC_DEV (BitVec.ofInt 32 (-m))
    if m.natAbs ≤ 100000 then measured.wr R.CLK_STATUS_osc_warn 0
    else if s.is R.CLK_STATUS_osc_warn = true then measured
    else ((measured.wr R.CLK_STATUS_osc_warn 1).wr R.CLK_INT_STATUS_osc_warn 1).report 4 2 1) := by
  simp only [exec, execOscWarn, hm, Int.natAbs_neg, s.is_osc_warn_setReg, State.raise]

end Sys2Proof.Machine
end

section
open Sys2Proof Sys2Proof.Machine

/-- Settles O41: each instruction's effect is a chain of `ClockOnly` steps of the domain; what the chain does not name stays, and each clause reads
off the values its last writes leave. -/
theorem clocksFollowReferences : Obligations.ClocksFollowReferences := by
  intro s x st d other captures switched cocooned
  refine ⟨fun e hown hst he hne => ⟨completes_switchCaptureStart hown hst he hne, completes_waitToRestoreExpiry hown hst he hne⟩,
    fun he => ⟨exec_switchCaptureStart_none he, exec_waitToRestoreExpiry_none he⟩, fun en sel ho => completes_forceWrite ho en sel, ?_,
    completes_passThroughRampEnd, exec_passThroughRampEnd_idle, ?_, fun _ hs hsel hp => completes_imagoFallback hs hsel hp,
    fun _ hp => exec_imagoFallback_near hp, ?_, ?_, completes_alignLost x, ⟨exec_realignWrite_accepted, exec_realignWrite_refused⟩, fun _ => rfl,
    exec_pulseOutputPulse_off, ?_, rfl, exec_oscWarn_none, ?_⟩
  · intro offset hc hst hq passes
    have hexec := exec_switchCaptureEnd (offset := offset) hc hst hq
    refine ⟨fun (hp : s.passes x = false) => ?_, fun (hp : s.passes x = true) hd => ?_, completes_switchCaptureEnd_ramps hc hst hq⟩
    · rw [if_pos hp] at hexec
      exact ⟨_, hexec, s.takeCapture_switched x offset⟩
    · rw [hp, if_neg (by decide), if_pos hd] at hexec
      exact ⟨_, hexec, s.takeCapture_switched x 0⟩
  · intro phase freq hown hsel hq hcap hramp hcocoon hmiss hphase hfirst hlast
    exact completes_dpllStageAdvance freq ⟨hown, hsel, hq, hcap, hramp, hcocoon, hmiss, hphase, hfirst, hlast⟩
  · exact fun r hown hstarted hst => ⟨completes_cocoonEntry r hown hstarted hst, exec_cocoonEntry_not_due r,
      completes_clkHoldWrite_true r hown hstarted hst⟩
  · exact fun r e hst he => ⟨completes_cocoonExit hst he, exec_cocoonExit_held he, completes_clkHoldWrite_false r hst he⟩
  · intro o m hen num den width inverted
    exact ⟨completes_pulseOutputPulse hen, completes_pulseOutputPulse_realigned hen⟩
  · intro m hm measured
    have hexec := exec_oscWarn_some hm
    refine ⟨fun hnear => ?_, fun hfar hwarned => ?_, fun hfar hnew => ?_⟩
    · rwa [if_pos hnear] at hexec
    · rwa [if_neg (Nat.not_le.2 hfar), if_pos hwarned] at hexec
    · rwa [if_neg (Nat.not_le.2 hfar), hnew, if_neg (by decide)] at hexec

end
